-- ==== Sys2Proof/Word.lean ====
section
/-! DEFINITION. Machine words of the DR-7240: a register value, a byte, a 64 B line. -/

namespace Sys2Proof

/-- A 64-bit register value (00_scope.md R5). -/
abbrev Word := BitVec 64
/-- One byte. -/
abbrev Byte := BitVec 8
/-- The data of one 64 B line (03_translation.md, "line"). -/
abbrev Line := BitVec 512

end Sys2Proof
end

