-- ==== Sys2Proof/Machine/SynTypes.lean ====
section
/-! DEFINITION. The types of the commands' operands. -/

namespace Sys2Proof.Machine

/-- The masters of 00_scope.md R5 that reach BAR0. -/
inductive Master where
  | host | assistA | assistB | finder
  deriving DecidableEq, Repr

/-- One regulator's answer to a PMBus poll (13_dome_power.md R317): its rail, whether it answered, whether STATUS_WORD
shows a VOUT, IOUT or temperature fault, READ_VOUT in mV and READ_IOUT in 10 mA units. -/
structure PmbReply where
  rail : Fin 40
  answered : Bool
  fault : Bool
  mv : Nat
  iout : Nat
  deriving DecidableEq, Repr

/-- The outcome of a leaf decode (04_media_channels.md R90). -/
inductive LeafOut where
  | clean
  | corrected (bits : Nat)
  | miscorrected
  | uncorrectable
  | erased
  deriving DecidableEq, Repr

/-- A location in working memory, as WMEM_CE_ENTRY lays it out (08_working_memory.md R208, R213). `dev` is the device,
`bits` the RANK, BG, BANK, DROW and COL fields [60:29] as one number. -/
structure WmLoc where
  chan : Fin 4
  sub : Fin 2
  bits : Nat
  dev : Nat
  deriving DecidableEq, Repr

/-- The outcome of a working-memory decode, the integrity tag included (08_working_memory.md R201, R202). -/
inductive WmOut where
  | clean
  | corrected (loc : WmLoc)
  | uncorrectable (loc : WmLoc)
  | poisoned (loc : WmLoc)
  deriving DecidableEq, Repr

/-- A counter or tag line that failed its decode or verification (09_cipher_and_meridian.md R242): its level, its index
in the level, the outcome of the mirror where the line is mirrored. -/
structure CtrFail where
  level : Fin 3
  index : Nat
  mirrorOk : Bool
  deriving DecidableEq, Repr

/-- A leaf of a VERIFY that did not decode CLEAN at step 0 (06_field_management.md R141): member, row, leaf, the ladder step that
served it (5: none), its corrected bits, whether the held parity rebuilt it, whether it was MISCORRECTED first. -/
structure BadLeaf where
  member : Fin 8
  row : Nat
  leaf : Nat
  step : Nat
  bits : Nat
  held : Bool
  mis : Bool
  deriving DecidableEq, Repr

/-- A leaf of a row that did not decode CLEAN at step 0: the ladder step that served it (5: none) and its corrected bits. -/
structure LeafRes where
  leaf : Fin 65
  step : Nat
  bits : Nat
  mis : Bool
  deriving DecidableEq, Repr

/-- A leaf that a unit of a ring command read from media and that did not decode CLEAN at step 0: the DPA of its first line, the
ladder step that served it (5: none) and its corrected bits (10_transit_rings.md R258). -/
structure RingLeaf where
  dpa : Nat
  step : Nat
  bits : Nat
  mis : Bool
  deriving DecidableEq, Repr

/-- A leaf that a mover read and that did not decode CLEAN at step 0: the slot in the job's set (for SEAL the frame of the folio),
the leaf, the ladder step that served it (5: none), its corrected bits, whether the held parity rebuilt it, whether it was
MISCORRECTED first (06_field_management.md R146, R152, R154). -/
structure SlotLeaf where
  slot : Fin 57330
  leaf : Fin 65
  step : Nat
  bits : Nat
  held : Bool
  mis : Bool
  deriving DecidableEq, Repr

/-- One sampled leaf of a scrub visit (05_drift_and_references.md R129): member, sample number, outcome, ladder step. -/
structure ScrubLeaf where
  member : Fin 8
  i : Nat
  out : LeafOut
  step : Nat
  deriving DecidableEq, Repr

/-- A plane's part of a fabric PROGRAM or ERASE (04_media_channels.md R87). -/
structure PlaneRow where
  plane : Fin 4
  field : Fin 8192
  row : Fin 8192
  deriving DecidableEq, Repr

/-- What the SPD of a DIMM tells (08_working_memory.md R194, R195, R198): whether it can be read, whether it is of a supported kind, its
ranks, whether x8, the capacity code as WMEM_CH_STATUS.CAP, its manufacturer and serial number as one number. -/
structure Dimm where
  spd : Bool
  supported : Bool
  ranks : Fin 3
  x8 : Bool
  cap : Fin 5
  ident : Nat
  deriving DecidableEq, Repr

/-- What DDR5 training finds on a channel (R195, R198): the DIMMs of its two slots, and whether it trained. -/
structure DimmChan where
  slot0 : Option Dimm
  slot1 : Option Dimm
  trained : Bool
  deriving DecidableEq, Repr

/-- The DIMMs of a channel with their slots. -/
def DimmChan.list (c : DimmChan) : List (Nat × Dimm) :=
  (c.slot0.map (fun d => (0, d))).toList ++ (c.slot1.map (fun d => (1, d))).toList

/-! ### Dome scripts (13_dome_power.md R320) -/

/-- A script step. -/
inductive ScriptOp where
  | enable | disable | waitUp | waitDown | delay | rstAssert | rstRelease
  deriving DecidableEq, Repr

/-- A script step with its rail and argument in us. -/
structure ScriptStep where
  op : ScriptOp
  rail : Nat
  arg : Nat
  deriving DecidableEq, Repr

/-- A bank of the four scripts (R320). -/
structure Scripts where
  plateUp : List ScriptStep
  plateDown : List ScriptStep
  deviceDown : List ScriptStep
  drainDown : List ScriptStep
  deriving DecidableEq, Repr

/-! ### The Voxsicel image (12_voxsicel_image.md R287 to R295) -/

/-- A register record (R293): BAR0 offset, size in bytes, value. -/
structure RegRec where
  off : Nat
  size : Nat
  val : Nat
  deriving DecidableEq, Repr

/-- A CHAN segment as a channel runs it (R294): medium generation, version, the 240 B offset table, MCHn_SCHED_CFG, and a
number that stands for its microcode, levels and limits. -/
structure ChanSeg where
  gen : Nat
  ver : Nat
  table : List Nat
  cfg : Nat
  code : Nat
  deriving DecidableEq, Repr

/-- An assistant's segment: its version and a number that stands for its firmware. -/
structure AsstSeg where
  ver : Nat
  code : Nat
  deriving DecidableEq, Repr

/-- A Voxsicel image. The checks that hash or verify a signature come with it as outcomes: `hdrOk` (KIND, VERSION, PART,
HDR_LEN and IMG_LEN are right), `sigOk`, `digestOk` (every body digest), `compOk` (every component trailer present, and one
wherever R289 asks for it). `digest` is the SHA-384 of its header and table; `key` the OTP key-hash slot its PUBKEY hashes
to; `tableOk` that the segment set is as R292 states. The bodies: `chan` lists CHAN_MASK and body; `pdTree` gives for each
domain its parent, plus 1 (0: the always-on domain), and the domains that must be on first; `sysSets` SET, USE and whether
1-bit. -/
structure Image where
  hdrOk : Bool
  tableOk : Bool
  sigOk : Bool
  digestOk : Bool
  compOk : Bool
  digest : BitVec 384
  key : Option Nat
  ver : Nat
  svn : Nat
  lcMask : Nat
  raiseSvn : Bool
  len : Nat
  global : List RegRec
  chans : Nat
  plates : Nat
  wmap : List Nat
  pdTree : List (Nat × Nat × List Nat)
  sysSets : List (Nat × Nat × Bool)
  chan : List (Nat × ChanSeg)
  dome : Scripts
  domeRegs : List RegRec
  reg : List RegRec
  regForce : Bool
  sbus : List RegRec
  asstA : AsstSeg
  asstB : AsstSeg
  policy : List RegRec
  deriving DecidableEq, Repr

/-! ### Shelf-bus frames (15_shelf_bus.md R357) -/

/-- A shelf-protocol frame: destination and source MAC, the header fields, the body and the tag. -/
structure ShelfFrame where
  dst : BitVec 48
  src : BitVec 48
  ver : BitVec 8
  typ : BitVec 8
  opcode : BitVec 16
  len : BitVec 16
  flags : BitVec 8
  target : BitVec 8
  nonce : BitVec 64
  xid : BitVec 16
  status : BitVec 16
  body : List (BitVec 8)
  tag : BitVec 128
  deriving DecidableEq, Repr

/-- A DOE request (R22, R23): discovery by index, a CMA/SPDM exchange, or the CDAT of an LD. -/
inductive DoeReq where
  | discovery (index : Nat)
  | spdm (secured : Bool)
  | cdat (ld : Fin 16)
  deriving DecidableEq, Repr

end Sys2Proof.Machine
end

