-- ==== Sys2Proof/Syntax.lean ====
section
/-! DEFINITION. The commands of the block: one constructor for each row of spec/opcode_table.json. -/

namespace Sys2Proof

open Sys2Proof.Machine

/-- The commands. Each constructor's comment gives its row's mnemonic and rule. -/
inductive Instr where
  /-- REGISTER_WRITE (R3). A BAR0 or slot write to a register with no row of its own stores each field as its access code states. Operands: master, BAR0 or the BAR2 of a view, offset, size in bytes, value. -/
  | registerWrite (m : Master) (view : Option (Fin 17)) (off size : Nat) (v : Word)
  /-- RC_FIELD_READ (R3). A read covering an RC field returns its value and then clears it. Operands: master, BAR0 or the BAR2 of a view, offset, size in bytes; a read that covers no RC field only returns its value. -/
  | rcFieldRead (m : Master) (view : Option (Fin 17)) (off size : Nat)
  /-- INT_MASK_WRITE (R16). A write of GLB_INT_MASK sends MSI-X vector 2 when a bit is set to 1 while its cause bit is already 1. -/
  | intMaskWrite (m : Master) (v : BitVec 32)
  /-- MODE_TARGET_ACTIVE (R12). A GLB_MODE_CTL write of TARGET ACTIVE starts the transition to ACTIVE or sets PENDING. -/
  | modeTargetActive (m : Master)
  /-- MODE_TARGET_QUIET (R12). A GLB_MODE_CTL write of TARGET QUIET stops movers and switches off lanes PD34 to PD39, or sets PENDING. -/
  | modeTargetQuiet (m : Master)
  /-- MODE_TARGET_PARKED (R12). A GLB_MODE_CTL write of TARGET PARKED closes ingress and starts the drain, checkpoint and rail-down of the entry into PARKED. -/
  | modeTargetParked (m : Master)
  /-- MODE_TARGET_STANDBY (R12). A GLB_MODE_CTL write of TARGET STANDBY enters PARKED with PENDING = STANDBY. -/
  | modeTargetStandby (m : Master)
  /-- MODE_TRANSITION_DONE (R13). A mode transition completes, sets MODE_DONE and starts the pending target if there is one. -/
  | modeTransitionDone
  /-- PME_TO_ACK (R12). Completion of the PME_Turn_Off/PME_TO_Ack handshake while PARKED with PENDING = STANDBY enters STANDBY. -/
  | pmeToAck
  /-- POWER_ON (R321). Input power applied with VIN_SNS above VIN_LOSS runs the built-in device power-up. Operand: the strap levels, XSPI_EN in bit 7 and SHELF_ID in [5:0] (R413). -/
  | powerOn (straps : BitVec 8)
  /-- PERST_ASSERT (R412). PERST# asserted while running makes a warm start or leads through STANDBY to a cold start per PERST_COLD. -/
  | perstAssert
  /-- PERST_RELEASE (R414). PERST# release begins the cold-start sequence, or the link retrain of a warm start. Operands: strap levels as of POWER_ON; time in us and failure of the SRAM wipe (R402). -/
  | perstRelease (straps : BitVec 8) (wipeUs : BitVec 16) (wipeFail : Bool)
  /-- IMAGE_LOADED (R296). Authentication of every body completes, segments are applied and LOADED is set. Operands: boot-slot copies that cannot be read (bit slot × 2 + copy), the images on the two xSPI devices, the load time in ms. -/
  | imageLoaded (unread : BitVec 4) (xspi0 xspi1 : Option Image) (ms : BitVec 16)
  /-- DDR_TRAINING_DONE (R198). DDR5 training from the record or in full completes on all channels, or R195 halts start-up. Operands: what training finds on channels 0 to 3; whether step 3a's stored records served. -/
  | ddrTrainingDone (chans : List DimmChan) (fromRec : Bool)
  /-- REPLAY (R188). After channel and DDR5 training, replay loads the chosen checkpoint, applies the journal, scans open sets, loads keys and restages. Operands: for pointer copies 0 and 1, 0 its checkpoint loads, 1 it does not validate, 2 a section CRC fails; JSEQs that no copy and no parity gives; rows whose header no step up to 3 decodes; whether a vault image can be read; the time taken in us. -/
  | replay (out0 out1 : Fin 3) (bad badHdr : List Nat) (vaultOk : Bool) (us : BitVec 32)
  /-- CXL_MEM_READY (R415). When all ready conditions hold, Memory_Active is set, the mode becomes ACTIVE and ledger checking starts. -/
  | cxlMemReady
  /-- MEM_READ (R55). An M2S read takes a regulation token and is looked up in the coalescing buffer, staging and the map, then served or sent to media. Operands: port, LD, tag, byte address of the line. -/
  | memRead (port : Fin 2) (ld : Fin 16) (tag : BitVec 16) (dpa : BitVec 52)
  /-- MEM_WRITE (R28). An M2S RwD write is checked under its KID, takes a line token, is acknowledged with Cmp and captured into the journal. Operands: port, LD, tag, byte address of the line, byte enables, data, poison bit. -/
  | memWrite (port : Fin 2) (ld : Fin 16) (tag : BitVec 16) (dpa : BitVec 52) (mask : BitVec 64) (data : Line) (poison : Bool)
  /-- INGRESS_RELEASE (R271). An access waiting at its master port leaves when its bucket holds enough credit. -/
  | ingressRelease
  /-- CREDIT_RETURN (R43). The host returns S2M credits; a return beyond those consumed sets CRED_OVF and reports an imbalance. Operands: port, S2M NDR and DRS credits returned. -/
  | creditReturn (port : Fin 2) (ndr drs : BitVec 16)
  /-- LINK_DOWN (R43). A port leaves L0 other than through ASPM, returning all credits and stopping its rings. -/
  | linkDown (port : Fin 2)
  /-- LINK_UP (R20). A port reaches L0, making its LDs reachable. Operands: port, SPEED and WIDTH codes of HOST_LINK_STATUS, whether CXL.mem was negotiated, the S2M credits the host grants. -/
  | linkUp (port : Fin 2) (speed : Fin 6) (width : Fin 5) (mem : Bool) (ndr drs : BitVec 16)
  /-- ASPM_L1_EXIT (R39). The link leaves L1, and mailbox commands held while PARKED run. -/
  | aspmL1Exit (port : Fin 2)
  /-- LD_RESET (R266). Hot reset, FLR or CXL reset of an LD stops its pairs and returns its slots to reset values. Operands: the LD, 16 for the FM-owned LD; 0 hot reset of its port, 1 FLR, 2 CXL reset. -/
  | ldReset (n : Fin 17) (kind : Fin 3)
  /-- IDE_MAC_FAIL (R41). A flit failing its IDE MAC check moves the stream to insecure, sets IDE_FAIL and raises a Fatal event. -/
  | ideMacFail (port : Fin 2)
  /-- IDE_KEY_SETUP (R41). The host sets up IDE keys through IDE_KM, restoring CXL.mem acceptance on the port. -/
  | ideKeySetup (port : Fin 2)
  /-- GPF_PHASE1 (R33). GPF phase 1 stops the port accepting M2S requests until the next reset. -/
  | gpfPhase1 (port : Fin 2)
  /-- GPF_PHASE2 (R33). GPF phase 2 forces a journal commit and reports completion after it. -/
  | gpfPhase2 (port : Fin 2)
  /-- MAILBOX_UNSUPPORTED (R35). A mailbox opcode not supported, or not open to this LD, completes with Unsupported. `view`: an LD, or 16 the management view. -/
  | mailboxUnsupported (view : Fin 17) (opcode : BitVec 16)
  /-- IDENTIFY (R35). Mailbox Identify returns the generic component identity. `view`: an LD, or 16 the management view. -/
  | identify (view : Fin 17)
  /-- BACKGROUND_OPERATION_STATUS (R35). Mailbox Background Operation Status reports the running background operation. `view`: an LD, or 16 the management view. -/
  | backgroundOperationStatus (view : Fin 17)
  /-- GET_RESPONSE_MESSAGE_LIMIT (R35). Mailbox Get Response Message Limit returns the limit. `view`: an LD, or 16 the management view. -/
  | getResponseMessageLimit (view : Fin 17)
  /-- GET_EVENT_RECORDS (R40). Mailbox Get Event Records returns records of one event log with its overflow. `view`: an LD, or 16 the management view. -/
  | getEventRecords (view : Fin 17) (log : BitVec 8)
  /-- CLEAR_EVENT_RECORDS (R40). Mailbox Clear Event Records removes records from an event log. `view`: an LD, or 16 the management view. -/
  | clearEventRecords (view : Fin 17) (log : BitVec 8) (all : Bool) (n : BitVec 8)
  /-- GET_EVENT_INTERRUPT_POLICY (R35). Mailbox Get Event Interrupt Policy returns the policy. `view`: an LD, or 16 the management view. -/
  | getEventInterruptPolicy (view : Fin 17)
  /-- SET_EVENT_INTERRUPT_POLICY (R35). Mailbox Set Event Interrupt Policy sets event interrupts on MSI-X vector 1. `view`: an LD, or 16 the management view. A byte for each log. -/
  | setEventInterruptPolicy (view : Fin 17) (policy : BitVec 40)
  /-- GET_FW_INFO (R304). Mailbox Get FW Info reports the running image as slot 1 and the staged image as slot 2. `view`: an LD, or 16 the management view. -/
  | getFwInfo (view : Fin 17)
  /-- TRANSFER_FW (R304). Mailbox Transfer FW stages an image, verifies it and writes both copies to the inactive slot. `view`: an LD, or 16 the management view. `image` is the image the commands before it have transferred, with the outcomes of its checks. -/
  | transferFw (view : Fin 17) (slot : BitVec 8) (image : Image)
  /-- ACTIVATE_FW_NEXT_RESET (R305). Activate FW for the next cold reset makes the staged slot TRIAL with the next ACT_SEQ. `view`: an LD, or 16 the management view. -/
  | activateFwNextReset (view : Fin 17) (slot : BitVec 8)
  /-- ACTIVATE_FW_ONLINE (R305). Online Activate FW reloads each differing unit in order and marks the slot GOOD, rolling back on failure. `view`: an LD, or 16 the management view. -/
  | activateFwOnline (view : Fin 17) (slot : BitVec 8)
  /-- GET_TIMESTAMP (R35). Mailbox Get Timestamp returns ephemeris time. `view`: an LD, or 16 the management view. -/
  | getTimestamp (view : Fin 17)
  /-- SET_TIMESTAMP (R344). Mailbox Set Timestamp steps CLK_TOD to the given value. `view`: an LD, or 16 the management view. -/
  | setTimestamp (view : Fin 17) (t : BitVec 64)
  /-- GET_SUPPORTED_LOGS (R35). Mailbox Get Supported Logs lists the CEL and vendor log. `view`: an LD, or 16 the management view. -/
  | getSupportedLogs (view : Fin 17)
  /-- GET_LOG (R35). Mailbox Get Log returns a log. `view`: an LD, or 16 the management view. -/
  | getLog (view : Fin 17) (log : BitVec 8)
  /-- IDENTIFY_MEMORY_DEVICE (R35). Mailbox Identify Memory Device returns the memory device identity. `view`: an LD, or 16 the management view. -/
  | identifyMemoryDevice (view : Fin 17)
  /-- GET_PARTITION_INFO (R35). Mailbox Get Partition Info reports volatile 0 and all capacity persistent. `view`: an LD, or 16 the management view. -/
  | getPartitionInfo (view : Fin 17)
  /-- GET_LSA (R37). Mailbox Get LSA reads the label storage area. `view`: an LD, or 16 the management view. -/
  | getLsa (view : Fin 17) (off len : BitVec 32)
  /-- SET_LSA (R37). Mailbox Set LSA writes the label storage area through the rapid journal. `view`: an LD, or 16 the management view. -/
  | setLsa (view : Fin 17) (off : BitVec 32) (data : List Byte)
  /-- GET_HEALTH_INFO (R36). Mailbox Get Health Info reports life used, temperature, media status and the dirty-shutdown count. `view`: an LD, or 16 the management view. -/
  | getHealthInfo (view : Fin 17)
  /-- GET_ALERT_CONFIGURATION (R35). Mailbox Get Alert Configuration returns the alert thresholds. `view`: an LD, or 16 the management view. -/
  | getAlertConfiguration (view : Fin 17)
  /-- SET_ALERT_CONFIGURATION (R36). Mailbox Set Alert Configuration sets life-used and temperature thresholds. `view`: an LD, or 16 the management view. A threshold that is none is not enabled. -/
  | setAlertConfiguration (view : Fin 17) (life temp : Option (BitVec 16))
  /-- GET_SHUTDOWN_STATE (R34). Mailbox Get Shutdown State reports the shutdown state. `view`: an LD, or 16 the management view. -/
  | getShutdownState (view : Fin 17)
  /-- SET_SHUTDOWN_STATE (R34). Mailbox Set Shutdown State dirty sets the host flag in the almanac. `view`: an LD, or 16 the management view. -/
  | setShutdownState (view : Fin 17) (dirty : Bool)
  /-- GET_POISON_LIST (R31). Mailbox Get Poison List returns the LD's poison list and overflow flag. `view`: an LD, or 16 the management view. -/
  | getPoisonList (view : Fin 17) (dpa len : BitVec 64)
  /-- INJECT_POISON (R35). Mailbox Inject Poison poisons a line in permitted life-cycle states. `view`: an LD, or 16 the management view. -/
  | injectPoison (view : Fin 17) (dpa : BitVec 64)
  /-- CLEAR_POISON (R31). Mailbox Clear Poison removes a poisoned line and rebuilds the list. `view`: an LD, or 16 the management view. -/
  | clearPoison (view : Fin 17) (dpa : BitVec 64) (data : Line)
  /-- GET_SCAN_MEDIA_CAPABILITIES (R35). Mailbox Get Scan Media Capabilities returns the capabilities. `view`: an LD, or 16 the management view. -/
  | getScanMediaCapabilities (view : Fin 17) (dpa len : BitVec 64)
  /-- SCAN_MEDIA (R258). Mailbox Scan Media runs VERIFY over a range as a background operation. `view`: an LD, or 16 the management view. `leaves` are the leaves that did not decode CLEAN at step 0. -/
  | scanMedia (view : Fin 17) (dpa len : BitVec 64) (leaves : List RingLeaf)
  /-- GET_SCAN_MEDIA_RESULTS (R35). Mailbox Get Scan Media Results returns the scan results. `view`: an LD, or 16 the management view. -/
  | getScanMediaResults (view : Fin 17)
  /-- SANITIZE (R38). Mailbox Sanitize write-protects the LD, destroys its KIDs, unmaps its folios and erases emptied fields. `view`: an LD, or 16 the management view. -/
  | sanitize (view : Fin 17)
  /-- SECURE_ERASE (R38). Mailbox Secure Erase destroys the LD's KIDs and unmaps its folios. `view`: an LD, or 16 the management view. -/
  | secureErase (view : Fin 17)
  /-- GET_DYNAMIC_CAPACITY_CONFIGURATION (R35). Mailbox Get Dynamic Capacity Configuration returns the DC region. `view`: an LD, or 16 the management view. -/
  | getDynamicCapacityConfiguration (view : Fin 17)
  /-- GET_DYNAMIC_CAPACITY_EXTENT_LIST (R35). Mailbox Get Dynamic Capacity Extent List returns the extents. `view`: an LD, or 16 the management view. -/
  | getDynamicCapacityExtentList (view : Fin 17)
  /-- ADD_DYNAMIC_CAPACITY_RESPONSE (R26). Mailbox Add DC Response backs new extents for requests arriving after it completes. `view`: an LD, or 16 the management view. `extents` are first block and number of blocks in the dynamic-capacity region, in blocks of 256 MiB. -/
  | addDynamicCapacityResponse (view : Fin 17) (extents : List (Nat × Nat))
  /-- RELEASE_DYNAMIC_CAPACITY (R26). Mailbox Release Dynamic Capacity unmaps the folios of released blocks. `view`: an LD, or 16 the management view. `extents` are first block and number of blocks in the dynamic-capacity region, in blocks of 256 MiB. -/
  | releaseDynamicCapacity (view : Fin 17) (extents : List (Nat × Nat))
  /-- GET_LD_INFO (R35). FM API Get LD Info returns LD information. `view`: an LD, or 16 the management view. -/
  | getLdInfo (view : Fin 17)
  /-- GET_LD_ALLOCATIONS (R35). FM API Get LD Allocations returns LD capacity allocations. `view`: an LD, or 16 the management view. -/
  | getLdAllocations (view : Fin 17)
  /-- SET_LD_ALLOCATIONS (R24). FM API Set LD Allocations assigns capacity in 256 MiB blocks and may move folio arrays. `view`: an LD, or 16 the management view. `alloc` gives for each LD its static blocks and the blocks of its dynamic-capacity region. -/
  | setLdAllocations (view : Fin 17) (alloc : List (Fin 16 × Nat × Nat))
  /-- ARRAY_MOVE_DONE (R48). A folio array move completes, waiting requests proceed and Set LD Allocations completes. -/
  | arrayMoveDone
  /-- GET_QOS_CONTROL (R35). FM API Get QoS Control returns QoS settings. `view`: an LD, or 16 the management view. -/
  | getQosControl (view : Fin 17)
  /-- IVHILD_GET_PLATE_MAP (R35). Ivhild Get Plate Map returns plate, channel and die population. `view`: an LD, or 16 the management view. -/
  | ivhildGetPlateMap (view : Fin 17)
  /-- IVHILD_GET_FIELD_SUMMARY (R35). Ivhild Get Field Summary returns counts per field state. `view`: an LD, or 16 the management view. -/
  | ivhildGetFieldSummary (view : Fin 17)
  /-- MAP_FILL_RETURN (R64). A map-cache fill returns from working memory and is installed, or discarded if doomed. Operands: slice × 8 + bank; the sector of the line that an uncorrectable decode is in; the outcome of the working-memory decode; a counter or tag line that failed with it. -/
  | mapFillReturn (bank : Fin 64) (sector : Fin 8) (out : WmOut) (ctr : Option CtrFail)
  /-- MAP_WRITEBACK_DONE (R64). A map line writeback completes and the line becomes CLEAN, INVALID or DIRTY again. Operand: ((slice × 8 + bank) × 64 + set) × 16 + way. -/
  | mapWritebackDone (way : Fin 65536)
  /-- MAPC_WB (R67). MAPC_INV_CTL GO with OP WB writes back every dirty line in the range. -/
  | mapcWb (m : Master) (v : BitVec 32)
  /-- MAPC_INV (R67). MAPC_INV_CTL GO with OP INV writes back and invalidates the range. -/
  | mapcInv (m : Master) (v : BitVec 32)
  /-- MAPC_INV_ALL (R67). MAPC_INV_CTL GO with OP INV_ALL writes back and invalidates the whole cache and clears STALE. -/
  | mapcInvAll (m : Master) (v : BitVec 32)
  /-- MAPC_MAINT_DONE (R67). A map-cache maintenance operation completes and sets DONE. -/
  | mapcMaintDone
  /-- MAPC_DISABLE (R68). Clearing MAPC_CTL.EN drains dirty lines then sets STALE and bypasses the cache. -/
  | mapcDisable (m : Master) (v : BitVec 32)
  /-- MAPC_DRAIN_DONE (R68). The writeback after EN cleared completes and STALE is set. -/
  | mapcDrainDone
  /-- MAPC_ENABLE (R68). Setting MAPC_CTL.EN enables the cache, setting STALE_EN and logging if STALE. -/
  | mapcEnable (m : Master) (v : BitVec 32)
  /-- SCRATCH_CONVERT (R69). A MAPC_SCRATCH.WAYS write converts ways to or from scratchpad. -/
  | scratchConvert (m : Master) (v : BitVec 32)
  /-- SCRATCH_CONVERT_DONE (R69). Way conversion completes and CONV_BUSY clears. -/
  | scratchConvertDone
  /-- XLAT_PROBE (R78). XLAT_PROBE GO translates one line without accessing data. -/
  | xlatProbe (m : Master) (v : Word)
  /-- PROBE_RESULT (R78). A translation probe finishes its lookups and sets XLAT_PROBE_RESULT.DONE. -/
  | probeResult
  /-- SECTOR_REBUILD_DONE (R192). A map sector rebuild from the checkpoint and journal completes, or the sector is lost. Operands: the sectors (byte address / 64) whose section CRC fails in the newer and in the older checkpoint. -/
  | sectorRebuildDone (bad0 bad1 : List Nat)
  /-- GATHER_TIMEOUT (R71). GATHER_US passes since a gather's first line, closing the gather. -/
  | gatherTimeout
  /-- GATHER_MERGE (R72). A closed gather takes a frame token when one is free and merges its lines into staging. -/
  | gatherMerge
  /-- MERGE_MEDIA_READ_DONE (R72). The media read of a partial frame's current copy completes and the merge is written to staging. Operands: the frame token the gather took; the leaves that did not decode CLEAN at step 0. -/
  | mergeMediaReadDone (tok : Fin 65536) (leaves : List LeafRes)
  /-- STAGING_PLACE (R441). The staging programmer places STAGED frames singly or as 64-frame runs in open sets. Operand: the stripe group the write scheduler chose. -/
  | stagingPlace (g : Fin 32)
  /-- RUN_HOLD_EXPIRY (R441). RUN_US passes for a held frame, which is then placed singly. -/
  | runHoldExpiry
  /-- FILLER_TIMEOUT (R441). GATHER_US passes since a data row's first member, completing it with filler members. Operand: the open set. -/
  | fillerTimeout (set : Fin 1048576)
  /-- READ (R87). Fabric READ senses a row of a plane at the given reference offsets and transfers leaves. Operands: channel, die, plane, field, row, leaf mask, reference offsets (15, or 1 in 1-bit mode). -/
  | fabRead (c : Fin 32) (d : Fin 8) (p : Fin 4) (f r : Fin 8192) (mask : BitVec 65) (offs : List Int)
  /-- READ_LATCH (R87). Fabric READ_LATCH transfers leaves from the valid row latch. -/
  | fabReadLatch (c : Fin 32) (d : Fin 8) (p : Fin 4) (mask : BitVec 65)
  /-- READ_STAR (R110). Fabric READ_STAR probes star leaf 0 at a sweep offset and returns E14 and E15. Operands: channel, die, plane, field, star row, level under test, sweep offset. -/
  | fabReadStar (c : Fin 32) (d : Fin 8) (p : Fin 4) (f : Fin 8192) (r : Fin 2) (level : Fin 16) (sweep : BitVec 8)
  /-- PROGRAM (R87). Fabric PROGRAM writes a row in up to four planes in 4-bit or 1-bit mode. Operands: channel, die, 1-bit mode, field and row per plane; the leaves are those of the staging programmer or the journal writer. -/
  | fabProgram (c : Fin 32) (d : Fin 8) (mode1 : Bool) (rows : List PlaneRow)
  /-- ERASE (R87). Fabric ERASE erases fields in the plane mask and sets the mode of the next opening. Operands: channel, die, mode of the next opening, field per plane. -/
  | fabErase (c : Fin 32) (d : Fin 8) (mode1 : Bool) (rows : List PlaneRow)
  /-- SUSPEND (R97). Fabric SUSPEND brings a programming or erasing die to a readable state. -/
  | fabSuspend (c : Fin 32) (d : Fin 8)
  /-- RESUME (R97). Fabric RESUME repeats the interrupted loop, starting a forced progress slice after 8 suspends. -/
  | fabResume (c : Fin 32) (d : Fin 8)
  /-- IDENT (R87). Fabric IDENT reads the die's parameter page. -/
  | fabIdent (c : Fin 32) (d : Fin 8)
  /-- RESET_DIE (R87). Fabric RESET_DIE aborts the die's operation. -/
  | fabResetDie (c : Fin 32) (d : Fin 8)
  /-- TRAIN (R88). Fabric TRAIN runs one PHY training step. Operands: channel, step number. -/
  | fabTrain (c : Fin 32) (step : Fin 6)
  /-- READ_COMPLETE (R90). A read's leaves arrive and are decoded, entering the leaf buffer and serving the requester. Operands: (channel × 8 + die) × 4 + plane; the leaves that did not decode CLEAN with their outcomes; the latency in ns of the reads served (R75). -/
  | readComplete (plane : Fin 1024) (outs : List (Nat × LeafOut)) (ns : Nat)
  /-- READ_STAR_COMPLETE (R120). A star probe returns and the binary search continues, or the measurement ends accepted or rejected. Operands: (channel × 8 + die) × 4 + plane; REFUSED or TIMEOUT; the two counts. -/
  | readStarComplete (plane : Fin 1024) (refused : Bool) (e14 e15 : Fin 577)
  /-- REBUILD_COMPLETE (R95). The seven member reads of a rebuild finish and are XORed and CRC-checked, or the rebuild fails. Operands: the rebuild, whether the CRC of the result holds, the latency in ns of the reads served. -/
  | rebuildComplete (id : Nat) (crcOk : Bool) (ns : Nat)
  /-- PROGRAM_COMPLETE (R93). A row program returns DONE or PROG_FAIL, completing data rows, commits, switches and closes. Operands: channel, die, the planes whose row returned PROG_FAIL. -/
  | programComplete (c : Fin 32) (d : Fin 8) (fails : List (Fin 4))
  /-- ERASE_COMPLETE (R135). An erase returns DONE or ERASE_FAIL, freeing, retiring or marking the field BAD. Operands: channel, die, the planes whose field returned ERASE_FAIL. -/
  | eraseComplete (c : Fin 32) (d : Fin 8) (fails : List (Fin 4))
  /-- SUSPEND_DONE (R97). A suspended die becomes readable and serves its suspend window. -/
  | suspendDone (c : Fin 32) (d : Fin 8)
  /-- SUSPEND_WINDOW_END (R97). The suspend window ends by time, read count or empty queue, and RESUME is issued. -/
  | suspendWindowEnd (c : Fin 32) (d : Fin 8)
  /-- PROGRESS_SLICE_END (R97). A forced progress slice completes its 4 loops and the suspend count returns to 0. -/
  | progressSliceEnd (c : Fin 32) (d : Fin 8)
  /-- DIE_CMD_DONE (R87). An IDENT, RESET_DIE or TRAIN command completes. Operands: channel, die; 0 IDENT, 1 RESET_DIE, 2 TRAIN; whether it passed. -/
  | dieCmdDone (c : Fin 32) (d : Fin 8) (op : Fin 3) (ok : Bool)
  /-- FABRIC_TIMEOUT (R87). A fabric command exceeds its time limit; RESET_DIE is issued and the command treated as failed. Operands: channel, die; the plane of a read, none for the die's own operation; the latency in ns of the reads served. -/
  | fabricTimeout (c : Fin 32) (d : Fin 8) (plane : Option (Fin 4)) (ns : Nat)
  /-- DIE_LOST (R105). A present die stops answering and is marked FAILED, its sets relocated and journal rows resealed. -/
  | dieLost (c : Fin 32) (d : Fin 8)
  /-- TRAINING_DONE (R105). A channel finishes training and becomes ONLINE or FAILED. Operands: channel, the dies that answer IDENT, those that train. -/
  | trainingDone (c : Fin 32) (present pass : BitVec 8)
  /-- CHANNEL_SLEEP (R105). An ONLINE channel idle for SLEEP_US in QUIET puts its PHY to sleep. -/
  | channelSleep (c : Fin 32)
  /-- UTIL_WINDOW (R99). A 1 ms utilisation window ends and MCHn_UTIL is updated. Operands: channel, utilisation of the window, busy cycles. -/
  | utilWindow (c : Fin 32) (permille : Fin 1001) (cycles : BitVec 32)
  /-- RELOAD_CHAN (R106). IMG_RELOAD GO with UNIT CHAN starts a live reload of one channel with QUIESCE. Operands: master, value written to IMG_RELOAD; its UNIT field reads CHAN. -/
  | reloadChan (m : Master) (v : BitVec 32)
  /-- QUIESCE_DONE (R106). Programs and reads in flight on the frozen groups finish and the segment is written. -/
  | quiesceDone (c : Fin 32)
  /-- SEGMENT_LOADED (R105). The CHAN segment is loaded into fabric memory and retraining starts. Operands: channel, whether the segment loaded and its digest holds. -/
  | segmentLoaded (c : Fin 32) (ok : Bool)
  /-- RETRAIN_DONE (R105). Retraining completes and CHECK starts. -/
  | retrainDone (c : Fin 32) (ok : Bool)
  /-- CHECK_DONE (R105). CHECK completes; the channel goes ONLINE or rolls back or fails. -/
  | checkDone (c : Fin 32) (ok : Bool)
  /-- DRIFT_MINUTE_TICK (R115). A whole minute of ACTIVE or QUIET time advances DRIFT_MINUTES. -/
  | driftMinuteTick
  /-- DRIFT_DUE (R115). A class 0 to 8 record reaches its re-measurement interval and is re-measured. -/
  | driftDue (set : Fin 1048576)
  /-- SCRUB_VISIT (R129). The scrub pace reaches the next set, which is re-measured, sampled and posted. Operand: the sampled leaves that did not decode CLEAN at step 0, with the ladder step that served them (5: none). -/
  | scrubVisit (leaves : List ScrubLeaf)
  /-- DRIFT_QUERY (R130). DRIFT_QUERY GO fetches one drift record into DRIFT_QUERY_RESULT. -/
  | driftQuery (m : Master) (v : Word)
  /-- DRIFT_CTL_WRITE (R121). A DRIFT_CTL write changes enables; setting FORCE_EN stops measurements and logs 0x0703. -/
  | driftCtlWrite (m : Master) (v : BitVec 32)
  /-- GC_JOB (R146). A free mover takes a GC job on the highest-scored victim and copies its current slots. Operands: mover, destination group, the leaves it reads that do not decode CLEAN at step 0; the command starts the job, or runs its next batch. -/
  | gcJob (m : Fin 4) (g : Fin 32) (leaves : List SlotLeaf)
  /-- WEAR_JOB (R150). A mover takes a WEAR job on the least-worn set and copies it to the COLD stream. Operands as of GC_JOB. -/
  | wearJob (m : Fin 4) (g : Fin 32) (leaves : List SlotLeaf)
  /-- REWRITE_JOB (R151). A mover takes a field from the rewrite queue and copies its set to the COLD stream. Operands as of GC_JOB. -/
  | rewriteJob (m : Fin 4) (g : Fin 32) (leaves : List SlotLeaf)
  /-- VERIFY_JOB (R140). A mover reads every leaf of a closed set and decides VERIFIED, rewrite or BAD. Operands: mover, and the leaves that do not decode CLEAN at step 0. -/
  | verifyJob (m : Fin 4) (leaves : List BadLeaf)
  /-- SEAL_JOB (R154). A mover copies a split folio to a 64-slot run to make it whole. Operands: mover, destination group, the leaves it reads (by frame) that do not decode CLEAN at step 0. -/
  | sealJob (m : Fin 4) (g : Fin 32) (leaves : List SlotLeaf)
  /-- RELOCATE_JOB (R152). A mover copies a set that lost a member to the COLLECT stream. Operands as of GC_JOB. -/
  | relocateJob (m : Fin 4) (g : Fin 32) (leaves : List SlotLeaf)
  /-- SET_ERASE (R143). A set whose V reached 0 is erased once every read issued to it completes. -/
  | setErase (set : Fin 1048576)
  /-- WEIGHTS_WRITE (R143). A FLD_WEIGHTS write starts a rebin of every data set. -/
  | weightsWrite (m : Master) (v : BitVec 32)
  /-- REBIN_DONE (R143). The rebin of every data set under new weights completes. -/
  | rebinDone
  /-- WEAR_START (R150). FLD_WEAR_CMD START, or SPREAD_HIT with WEAR_AUTO, starts a wear-levelling campaign. -/
  | wearStart (m : Master) (v : BitVec 32)
  /-- WEAR_STOP (R150). FLD_WEAR_CMD STOP ends the campaign after the current WEAR job. -/
  | wearStop (m : Master) (v : BitVec 32)
  /-- SCORE_QUERY (R159). FLD_SCORE_Q GO scores one set into FLD_SCORE_R. -/
  | scoreQuery (m : Master) (v : Word)
  /-- FLD_CTL_WRITE (R141). A FLD_CTL write changes job enables; clearing VERIFY_EN verifies closed sets at once and logs 0x0603. -/
  | fldCtlWrite (m : Master) (v : BitVec 32)
  /-- JOURNAL_SEAL_TIMER (R169). The oldest record in a partly filled row reaches LAG_US − 60 us and the row is sealed. -/
  | journalSealTimer
  /-- LAG_MISS (R169). A record is not committed within LAG_US; LAG_MISS is set and counted. Operand: the age reached in us. -/
  | lagMiss (ageUs : Nat)
  /-- BYPASS_EXPIRE (R171). A bypassed frame unprogrammed at LAG_US − 60 us is journalled as 32 FCHUNK records. Operand: the frame token. -/
  | bypassExpire (tok : Nat)
  /-- DUR_SYNC_GO (R170). DUR_SYNC GO forces a commit and sets DONE when it completes. -/
  | durSyncGo (m : Master) (v : BitVec 32)
  /-- HU_OK_CHANGE (R171). HU_OK rises or falls, enabling or suspending bypass and setting HU_LOW on a fall. -/
  | huOkChange (level : Bool)
  /-- INPUT_LOSS (R329). VIN_SNS below VIN_LOSS for 10 us reports input loss and starts the hold-up drain. -/
  | inputLoss
  /-- INPUT_RETURN (R177). Input returns during a drain; the drain completes and an on request is held for a cold start. -/
  | inputReturn
  /-- INPUT_COLLAPSE (R330). HU_SENSE below VMIN_MV while input is lost releases the rails natively or continues DRAIN_DOWN in DR-5100 mode. Operand: HU_SENSE in mV. -/
  | inputCollapse (mv : BitVec 16)
  /-- CKPT_GO (R181). DUR_CKPT_CMD GO starts a checkpoint unless one is running. -/
  | ckptGo (m : Master) (v : BitVec 32)
  /-- CKPT_PERIOD (R181). PERIOD_S since the last cut starts a checkpoint while CKPT_AUTO is 1. -/
  | ckptPeriod
  /-- CKPT_COMPLETE (R186). A checkpoint finishes writing and its pointer is written to the almanac. -/
  | ckptComplete
  /-- POWER_HOUR_TICK (R394). Each whole hour in ACTIVE, QUIET or PARKED increments POWER_HOURS. -/
  | powerHourTick
  /-- MR4_POLL (R197). Every 32 ms the controller reads each DRAM's MR4 and applies its refresh rate. Operand: for each DRAM its number, the refresh rate its MR4 reports, and whether its DIMM's SPD hub reports 85 degrees or more. -/
  | mr4Poll (rates : List (Nat × Nat × Bool))
  /-- MERGE_HOLD_EXPIRE (R205). HOLD × 16 ns after allocation a merge-buffer entry is flushed. Operand: the outcome of the read of the line where the entry is partial. -/
  | mergeHoldExpire (out : WmOut)
  /-- PATROL_SCRUB (R210). The patrol scrub pace reads the next working-memory line and writes back corrections. -/
  | patrolScrub (out : WmOut)
  /-- TEST_WRITE (R211). WMEM_TEST_CTL GO with OP WRITE stores split data and check bytes to a test line. -/
  | testWrite (m : Master) (c : Fin 4) (v : BitVec 32)
  /-- TEST_READ (R211). WMEM_TEST_CTL GO with OP READ decodes a test line into RDATA and RESULT. -/
  | testRead (m : Master) (c : Fin 4) (v : BitVec 32)
  /-- CE_TABLE_CLEAR (R208). WMEM_CE_CTL CLEAR empties the channel's correctable-error table. -/
  | ceTableClear (m : Master) (c : Fin 4) (v : BitVec 32)
  /-- MEDIA_TABLE_CLEAR (R209). ECC_MEDIA_CTL CLEAR empties the media error table. -/
  | mediaTableClear (m : Master) (v : BitVec 32)
  /-- REKEY_DONE (R240). The re-key finishes rewriting every protected line and service resumes. -/
  | rekeyDone
  /-- ROOT_SRAM_UE (R244). An uncorrectable error in the root engine SRAM sets ROOT_UE and enters FAULT-HALT. -/
  | rootSramUe
  /-- ZEROER_DONE (R402). The background zeroer finishes the protected region and WIPE_BUSY clears. -/
  | zeroerDone
  /-- DOMAIN_RAMP_DONE (R313). A power domain completes RAMP and becomes ON. For PD32 to PD39, katOk is the outcome of the lane's known-answer tests (R217). -/
  | domainRampDone (pd : Fin 80) (katOk : Bool)
  /-- DRBG_HEALTH_FAIL (R228). An entropy health test fails, setting DRBG_FAIL. -/
  | drbgHealthFail
  /-- KID_QUERY (R245). CIPH_KID_QUERY GO fetches one KID's state into CIPH_KID_RESULT. -/
  | kidQuery (m : Master) (v : Word)
  /-- ISSUE (R222). KEY ISSUE generates a key, writes the vault and makes a FREE KID ACTIVE. Operands: the pair and CID of the command. -/
  | keyIssue (pair : Fin 16384) (cid : BitVec 16)
  /-- SET_CURRENT (R222). KEY SET_CURRENT makes an ACTIVE KID its LD's current KID. Operands: the pair and CID of the command. -/
  | keySetCurrent (pair : Fin 16384) (cid : BitVec 16)
  /-- CLEAR_CURRENT (R222). KEY CLEAR_CURRENT leaves the LD without a current KID. Operands: the pair and CID of the command. -/
  | keyClearCurrent (pair : Fin 16384) (cid : BitVec 16)
  /-- RETIRE (R224). KEY RETIRE flushes the KID's staging, sets its retirement bit and makes it RETIRED. Operands: the pair and CID of the command. -/
  | keyRetire (pair : Fin 16384) (cid : BitVec 16)
  /-- DESTROY (R225). KEY DESTROY rewrites the vault without the key, zeroises it and makes the KID DESTROYED. Operands: the pair and CID of the command. -/
  | keyDestroy (pair : Fin 16384) (cid : BitVec 16)
  /-- QUERY (R222). KEY QUERY returns a KID's state, owner and REFS. Operands: the pair and CID of the command. -/
  | keyQuery (pair : Fin 16384) (cid : BitVec 16)
  /-- SQ_DOORBELL (R251). A QP_SQ_TAIL write submits commands, or puts the pair in ERROR if out of range. Operands: through the management view, global pair, value written to QP_SQ_TAIL. -/
  | sqDoorbell (bar0 : Bool) (pair : Fin 16384) (v : Word)
  /-- CQ_DOORBELL (R251). A QP_CQ_HEAD write consumes completions, or puts the pair in ERROR if past CQ_TAIL. Operands: through the management view, global pair, value written to QP_CQ_HEAD. -/
  | cqDoorbell (bar0 : Bool) (pair : Fin 16384) (v : Word)
  /-- PAIR_ENABLE (R250). Writing QP_CFG.EN 1 makes a DISABLED pair ACTIVE or ERROR. Operands: through the management view, global pair, value written to QP_CFG. -/
  | pairEnable (bar0 : Bool) (pair : Fin 16384) (v : Word)
  /-- PAIR_DISABLE (R250). Writing QP_CFG.EN 0 drains an ACTIVE pair or disables an ERROR or STOPPED pair. Operands: through the management view, global pair, value written to QP_CFG. -/
  | pairDisable (bar0 : Bool) (pair : Fin 16384) (v : Word)
  /-- RING_ALLOC_WRITE (R247). A RING_LDn_ALLOC write changes an owner's pair run or is ignored with ALLOC_BAD. -/
  | ringAllocWrite (m : Master) (n : Fin 17) (v : Word)
  /-- COMMAND_FETCH (R252). When a CQ slot, context and owner budget are free, the device fetches an SQ entry. Operands: the pair, the 64 bytes of the submission entry. -/
  | commandFetch (pair : Fin 16384) (entry : List Byte)
  /-- COPY (R257). Ring COPY copies a DPA range within the LD, re-encrypting and writing through line tokens. Operands: the pair and CID of the command, the leaves of this unit that did not decode CLEAN. -/
  | ringCopy (pair : Fin 16384) (cid : BitVec 16) (leaves : List RingLeaf)
  /-- FILL (R257). Ring FILL writes a repeated pattern over a DPA range. -/
  | ringFill (pair : Fin 16384) (cid : BitVec 16)
  /-- VERIFY (R258). Ring VERIFY reads every leaf of a range through the full ladder and counts poisoned lines. Operands: as COPY's. -/
  | ringVerify (pair : Fin 16384) (cid : BitVec 16) (leaves : List RingLeaf)
  /-- HASH (R258). Ring HASH digests a range with SHA-256 or SHA-384 and writes the digest to host memory. Operands: as COPY's; whether the DMA of the digest succeeds. -/
  | ringHash (pair : Fin 16384) (cid : BitVec 16) (leaves : List RingLeaf) (dmaOk : Bool)
  /-- SEAL (R259). Ring SEAL queues a SEAL job per folio and completes when each is sealed or skipped. -/
  | ringSeal (pair : Fin 16384) (cid : BitVec 16)
  /-- DISCARD (R259). Ring DISCARD unmaps each folio of a range and completes after commit. -/
  | ringDiscard (pair : Fin 16384) (cid : BitVec 16)
  /-- SYNC (R259). Ring SYNC forces a commit and returns the committed JSEQ. -/
  | ringSync (pair : Fin 16384) (cid : BitVec 16)
  /-- PREFETCH (R258). Ring PREFETCH fills map-cache sectors and measures unmeasured sets of a range. -/
  | ringPrefetch (pair : Fin 16384) (cid : BitVec 16)
  /-- TELEMETRY (R261). Ring TELEMETRY writes one snapshot of the chosen kind to a host buffer. -/
  | ringTelemetry (pair : Fin 16384) (cid : BitVec 16) (dmaOk : Bool)
  /-- ABORT (R264). Ring ABORT marks an outstanding target command to stop at its next unit boundary. -/
  | ringAbort (pair : Fin 16384) (cid : BitVec 16)
  /-- HASH_ENGINE_GRANT (R258). A HASH waiting for a SHA-2 engine takes one when it frees. -/
  | hashEngineGrant
  /-- COMPLETION_POST (R255). A command ends and its completion entry is written to the CQ, releasing its slot and context. -/
  | completionPost (pair : Fin 16384) (cid : BitVec 16) (dmaOk : Bool)
  /-- HOST_DMA_FAIL (R250). A host DMA of a ring entry fails and the pair enters ERROR with DMA_FAIL. -/
  | hostDmaFail (pair : Fin 16384)
  /-- COALESCE_TIMER (R265). The oldest counted completion waits TIME_US and the pair's interrupt is sent. -/
  | coalesceTimer (pair : Fin 16384)
  /-- ADMIT (R276). REG_ADMIT GO checks all shadow entries and commits them if they pass or FORCE applies. -/
  | regAdmit (m : Master) (v : BitVec 32)
  /-- FLOOR_WINDOW (R275). A 1 ms window ends and backlogged classes short of their floor count a floor miss. -/
  | floorWindow
  /-- LEDGER_SNAPSHOT (R280). Every microsecond the checker snapshots all ledgers and compares their sides. -/
  | ledgerSnapshot
  /-- LEDGER_INJECT (R284). LEDG_INJECT GO adds DELTA to a ledger's left side in permitted states. -/
  | ledgerInject (m : Master) (v : Word)
  /-- LEDG_LHS_READ (R286). A read of LEDG_LHS takes a new snapshot of the selected ledger. -/
  | ledgLhsRead (m : Master)
  /-- LEDGER_SRAM_UE (R282). An uncorrectable ledger SRAM error marks that ledger UNTRUSTED. -/
  | ledgerSramUe (ledger : Fin 8)
  /-- RELOAD_REG (R307). IMG_RELOAD GO with UNIT REG writes the shadow entries and admits them. Operands as of RELOAD_CHAN; UNIT reads REG. -/
  | reloadReg (m : Master) (v : BitVec 32)
  /-- RELOAD_DOME (R307). IMG_RELOAD GO with UNIT DOME writes the inactive script bank. Operands as of RELOAD_CHAN; UNIT reads DOME. -/
  | reloadDome (m : Master) (v : BitVec 32)
  /-- DOME_BANK_FLIP (R307). When no dome sequence runs, the script banks flip. -/
  | domeBankFlip
  /-- RELOAD_STANDBY_ASSIST (R307). IMG_RELOAD GO with UNIT standby assistant loads and releases the standby core. Operands as of RELOAD_CHAN; UNIT reads the standby assistant. -/
  | reloadStandbyAssist (m : Master) (v : BitVec 32)
  /-- SWAP (R309). IMG_RELOAD GO with UNIT SWAP hands the running role to the standby core. Operands as of RELOAD_CHAN; UNIT reads SWAP. -/
  | swap (m : Master) (v : BitVec 32)
  /-- SWAP_TIMEOUT (R309). Step 3 of a swap not done within 2 ms; the old core resumes and SWAP_FAIL is set. -/
  | swapTimeout
  /-- STANDBY_READY (R295). Assistant firmware sets STANDBY_READY after its release. -/
  | standbyReady
  /-- ASSIST_READY_TIMEOUT (R295). A core that has not signalled ready within 50 ms is held in reset. -/
  | assistReadyTimeout
  /-- RELOAD_UNIT_INVALID (R312). IMG_RELOAD GO with a reserved UNIT does nothing. Operands as of RELOAD_CHAN; UNIT is a reserved one. -/
  | reloadUnitInvalid (m : Master) (v : BitVec 32)
  /-- PLATE_POWER_REQ (R325). A DOME_PLT_REQ write requests a plate powered on or off, running or reversing its sequence. -/
  | platePowerReq (m : Master) (v : BitVec 32)
  /-- RAIL_POWER_GOOD (R320). A rising rail reaches power good within its window and its WAIT_UP step ends. Operands: the rail and its reading in mV. -/
  | railPowerGood (rail : Fin 40) (mv : BitVec 16)
  /-- WAIT_UP_TIMEOUT (R317). A rail being raised misses power good within its WAIT_UP time and fails. -/
  | waitUpTimeout (rail : Fin 40)
  /-- RAIL_DISCHARGED (R319). A disabled rail reads below 10 % of nominal and its WAIT_DOWN ends. Operands: the rail and its reading in mV. -/
  | railDischarged (rail : Fin 40) (mv : BitVec 16)
  /-- DISCHARGE_TIMEOUT (R319). A rail not discharged within its timeout fails with cause discharge timeout. -/
  | dischargeTimeout (rail : Fin 40)
  /-- MIN_OFF_EXPIRY (R319). A rail's minimum off time ends, letting a held up sequence start. -/
  | minOffExpiry (rail : Fin 40)
  /-- SCRIPT_DELAY_EXPIRY (R320). A script DELAY step ends and the sequence continues. Operand: the plate, or 16 for the device sequencer. -/
  | scriptDelayExpiry (seq : Fin 17)
  /-- ADC_SAMPLE (R317). Every 16 us each ADC input is sampled and checked against its rail window. Operands: the scaled readings of inputs 0 to 15 in mV; lost: the event of the sample found 15 pending in its crossing (R349). -/
  | adcSample (mv : List Nat) (lost : Bool)
  /-- POWER_GOOD_LOST (R317). A running rail's power-good input is released for 2 us and the rail fails. -/
  | powerGoodLost (rail : Fin 40)
  /-- PMBUS_POLL (R317). Every 10 ms the PMBus master polls each regulator for status and readings. -/
  | pmbusPoll (replies : List PmbReply)
  /-- PMB_ALERT (R317). PMB_ALERT# asserted makes the master poll the regulators at once. -/
  | pmbAlert (replies : List PmbReply)
  /-- TEMP_READING (R434). Every 1 ms the on-die sensors are read and thermal behaviour applied. Operand: the readings of the on-die sensors in degrees Celsius, 0 where a reading is lower. -/
  | tempReading (temps : List Nat)
  /-- HALT_FAN_EXPIRY (R327). HALT_FAN_S seconds after FAULT-HALT the fan outputs go low. -/
  | haltFanExpiry
  /-- AON_LOSS (R427). VDD_AON below 3.0 V for 5 us releases every enable and may reset the always-on domain. Operand: the supply went below 2.6 V, which resets the always-on domain. -/
  | aonLoss (reset : Bool)
  /-- AON_RETURN (R427). VDD_AON returns while input power stays present and the device power-up runs. -/
  | aonReturn (straps : BitVec 8)
  /-- HU_ESTIMATE (R332). Every 16 us the dome estimates usable hold-up energy from the bank voltage. -/
  | huEstimate
  /-- HU_MISMATCH_TIMER (R332). HU_OK disagrees with the estimate for 1 s and HU_MISMATCH is set. -/
  | huMismatchTimer
  /-- MARGIN (R333). DOME_MARGIN GO sets a rail's margin through VOUT_COMMAND and shifts its window. -/
  | margin (m : Master) (v : BitVec 32)
  /-- FAN_TACH_WINDOW (R334). A 1 s tach window ends, fan rpm is reported and stalls detected. Operand: tach pulses of fans 0 to 3 in the window. -/
  | fanTachWindow (pulses : List Nat)
  /-- FAN_WATCHDOG (R334). No DUTY write for 2 s puts the fan at FAILSAFE duty. -/
  | fanWatchdog (fan : Fin 4)
  /-- REC_QUALIFIED (R336). REC conditions hold for QUAL_MS and the DPLL slews to REC. Operand: REC against XTAL in 0.01 ppm. -/
  | recQualified (ofs : BitVec 16)
  /-- REC_DISQUALIFIED (R336). REC fails a condition or the link leaves L0, and the DPLL enters HOLDOVER. Operand: modulation was the cause. -/
  | recDisqualified (ssc : Bool)
  /-- HOLDOVER_EXPIRY (R337). HOLD_MS passes in HOLDOVER and the DPLL slews to XTAL. -/
  | holdoverExpiry
  /-- SLEW_DONE (R338). The DPLL output reaches its target frequency and SLEWING clears. -/
  | slewDone
  /-- TOD_SET (R344). A write of CLK_TOD_SET's high half steps CLK_TOD at the next EPH edge. Operands: master; a 64-bit write, or a 32-bit write of the high half with its value in [31:0]. -/
  | todSet (m : Master) (wide : Bool) (v : Word)
  /-- TOD_LOW_READ (R343). A 32-bit read of CLK_TOD's low half latches the high half. -/
  | todLowRead (m : Master)
  /-- CHRONO (R347). CLK_CHRONO_CTL GO starts counting MEAS edges over a REF gate. -/
  | chrono (m : Master) (v : BitVec 32)
  /-- CHRONO_GATE_END (R347). The chronograph gate ends and the count is published. -/
  | chronoGateEnd (count : Nat)
  /-- CHRONO_REF_DEAD (R347). The gate has not ended within twice its length plus 1 ms, ending with REF_DEAD. -/
  | chronoRefDead (count : Nat)
  /-- HELD_ACCESS_RELEASE (R350). A stopped clock restarts and accesses held for its domain complete. Operand: the domain's bit in CLK_STATUS, or 44 for the map-cache slices. -/
  | heldAccessRelease (dom : Fin 45)
  /-- PING (R358). Shelf PING returns part, SHELF_ID and the current mode. The frame's version, type and opcode are the row's. -/
  | shelfPing (f : ShelfFrame)
  /-- STATUS (R358). Shelf STATUS returns the mode, plate states, free-set level and temperature. As PING. -/
  | shelfStatus (f : ShelfFrame)
  /-- SENSORS (R358). Shelf SENSORS returns ADC readings, fan rpm and plate temperatures. As PING. -/
  | shelfSensors (f : ShelfFrame)
  /-- MODE (R14). Authenticated shelf MODE sets the mode target, refusing STANDBY while the link is in L0 without FORCE. As PING. -/
  | shelfMode (f : ShelfFrame)
  /-- WAKE (R12). Authenticated shelf WAKE in STANDBY asserts WAKE# until PERST# is asserted. As PING. -/
  | shelfWake (f : ShelfFrame)
  /-- RESTART (R12). Authenticated shelf RESTART in FAULT-HALT leads to a cold start. As PING. -/
  | shelfRestart (f : ShelfFrame)
  /-- PLATE (R368). Authenticated shelf PLATE requests ON, OUT or ADMIT for one plate. As PING. -/
  | shelfPlate (f : ShelfFrame)
  /-- SUBSCRIBE (R358). Authenticated shelf SUBSCRIBE sends EVENT and TRACE frames to the source. As PING. -/
  | shelfSubscribe (f : ShelfFrame)
  /-- SHELF_FRAME_OTHER (R356). A received frame that is not a served command is dropped, answered or quarantined as a stranger. Operands: the frame without its FCS, whether the FCS holds. -/
  | shelfFrameOther (bytes : List Byte) (fcs : Bool)
  /-- PTP_FRAME (R364). An 802.1AS frame is timestamped and used to discipline CLK_TOD. Operands: as SHELF_FRAME_OTHER's; the offset in ns and the rate for CLK_TOD_ADJ that the assistant derives from it. -/
  | ptpFrame (bytes : List Byte) (fcs : Bool) (disc : Option (Int × Int))
  /-- PDELAY_TIMER (R364). Every 1 s the assistant sends Pdelay_Req. -/
  | pdelayTimer
  /-- PLCA_BEACON (R354). As coordinator the device sends a BEACON each PLCA cycle. -/
  | plcaBeacon
  /-- BEACON_LOSS (R354). No BEACON for 4 cycles makes PLCA inactive and the MAC fall back to CSMA/CD. -/
  | beaconLoss
  /-- DUP_COORD (R354). A BEACON from another node while coordinator makes the device a follower for 1 s. -/
  | dupCoord
  /-- COORD_RESUME (R354). After 1 s as follower the device resumes beaconing. -/
  | coordResume
  /-- PLCA_COLLISION (R354). A collision in the device's own opportunity is counted and the frame retried. -/
  | plcaCollision
  /-- QUARANTINE_EXPIRY (R356). A quarantined source's 10 s ends and its frames are heard again. -/
  | quarantineExpiry
  /-- RXQ_DATA_READ (R362). A read of SBUS_RXQ_DATA returns and consumes the next 6 B of a received frame. -/
  | rxqDataRead (m : Master)
  /-- RXQ_DROP (R362). SBUS_RXQ_CTL DROP discards the rest of the current frame and releases its bank. -/
  | rxqDrop (m : Master)
  /-- TXQ_DATA_WRITE (R363). A write of SBUS_TXQ_DATA adds a word, sending the frame at its LAST word. -/
  | txqDataWrite (m : Master) (w : Word)
  /-- TXQ_FLUSH (R363). SBUS_TXQ_CTL FLUSH sends the current frame now. -/
  | txqFlush (m : Master)
  /-- KEY_COMMIT (R359). SBUS_KEY_CTL COMMIT stores the shelf key in the almanac or sets KEY_FAIL. -/
  | keyCommit (m : Master)
  /-- PLT_CMD_ON (R368). SBUS_PLT_CMD GO with ACTION ON queues a power request for a plate. -/
  | pltCmdOn (m : Master) (v : BitVec 32)
  /-- PLT_CMD_OUT (R368). SBUS_PLT_CMD GO with ACTION OUT takes a plate out of service. -/
  | pltCmdOut (m : Master) (v : BitVec 32)
  /-- PLT_CMD_ADMIT (R368). SBUS_PLT_CMD GO with ACTION ADMIT writes the roster and powers an unknown plate. -/
  | pltCmdAdmit (m : Master) (v : BitVec 32)
  /-- PLATE_INSERTED (R368). PLT_PRSNT# asserted for 100 ms makes the plate PRESENT and reads its identity. Operands: the plate, the bytes of its identity record. -/
  | plateInserted (plate : Fin 16) (ident : List Byte)
  /-- PLATE_REMOVED (R326). PLT_PRSNT# released drops the plate's enables and makes it ABSENT. -/
  | plateRemoved (plate : Fin 16)
  /-- PLATE_DRAIN_TIMEOUT (R368). 5 ms after entering DRAINING the plate goes OFFLINE and in-flight reads are poisoned. -/
  | plateDrainTimeout (plate : Fin 16)
  /-- PLATE_HOT (R368). A plate sensor at or above HOT_C for 10 s takes the plate out of service. Operands: the plate, its sensor's temperature in degrees C. -/
  | plateHot (plate : Fin 16) (temp : BitVec 8)
  /-- PLATE_DISAGREE (R369). A management and data view disagreement lasting 5 ms sets DISAGREE and logs. -/
  | plateDisagree (plate : Fin 16)
  /-- LOG_PUT (R381). A write of LOG_PUT3 queues an assistant record to the logbook. Operands: master, bytes 24 to 31 of the record; full: the input queue holds 64 records. -/
  | logPut (m : Master) (v : Word) (full : Bool)
  /-- LOG_WIN0_READ (R383). A read of LOG_WIN0 latches the record slot at the cursor. -/
  | logWin0Read (m : Master)
  /-- LOG_WIN3_READ (R383). A read of LOG_WIN3 returns the latched bytes and with AUTO advances the cursor on a match. -/
  | logWin3Read (m : Master)
  /-- SNAP_TIMER (R376). Every PERIOD_MS a counter snapshot starts. -/
  | snapTimer
  /-- SNAP_GO (R376). SPEC_SNAP_CMD GO starts a counter snapshot or joins the one running. -/
  | snapGo (m : Master) (v : BitVec 32)
  /-- SNAP_PUBLISH (R376). The snapshot copy completes, the bank flips and SEQ increments. -/
  | snapPublish
  /-- CHAIN_WRITE (R374). A SPEC_CHAINb write chains or unchains counter pairs and zeroes the high counter. -/
  | chainWrite (m : Master) (b : Fin 128) (v : BitVec 32)
  /-- ALM_READ (R390). ALM_CMD GO with OP READ reads almanac bytes into ALM_DATA. -/
  | almRead (m : Master) (v : BitVec 32)
  /-- ALM_WRITE (R390). ALM_CMD GO with OP WRITE writes ALM_DATA to the customer area or is refused. -/
  | almWrite (m : Master) (v : BitVec 32)
  /-- ALM_WRITE_DONE (R389). An almanac write completes its word commits and the next queued access is served. -/
  | almWriteDone
  /-- LC_TRANSITION (R400). LCS_CMD GO with OP TRANSITION checks, destroys KIDs, parks, blows the OTP slot and cold-resets. -/
  | lcTransition (m : Master) (v : BitVec 32)
  /-- UNLOCK (R407). LCS_CMD GO with OP UNLOCK verifies a token and enables finder scope in SERVICE. -/
  | unlock (m : Master) (v : BitVec 32)
  /-- RELOCK (R407). LCS_CMD GO with OP RELOCK ends the unlock. -/
  | relock (m : Master) (v : BitVec 32)
  /-- KEYFUSE (R400). LCS_CMD GO with OP KEYFUSE blows the next free owner key-hash slot in PROVISION. -/
  | keyfuse (m : Master) (v : BitVec 32)
  /-- EXTEST (R405). TAP EXTEST drives pins from the boundary register when PERST# is held in STANDBY or FAULT-HALT. Operand: the boundary register as shifted in. -/
  | tapExtest (bits : Nat)
  /-- SAMPLE_PRELOAD (R404). TAP SAMPLE/PRELOAD captures or loads the boundary register. Operands: the pin levels captured and the bits loaded. -/
  | tapSamplePreload (pins bits : Nat)
  /-- IDCODE (R404). TAP IDCODE shifts out 0x1724_0793. -/
  | tapIdcode
  /-- CLAMP (R405). TAP CLAMP holds the boundary outputs and selects the 1-bit register. -/
  | tapClamp
  /-- HIGHZ (R405). TAP HIGHZ places the outputs in high impedance. -/
  | tapHighz
  /-- LC_STATUS (R404). TAP LC_STATUS captures LCS_CHALLENGE, LCS_STATUS and LCS_FINDER. -/
  | lcStatus
  /-- FINDER_UNLOCK (R404). TAP UNLOCK with GO submits a 256 B token as an unlock request. -/
  | finderUnlock (token : List Byte) (go : Bool)
  /-- BYPASS (R404). TAP BYPASS, or an unavailable instruction, selects the 1-bit bypass register. Operand: the instruction loaded, 0xFF or one that is not listed or not available. -/
  | tapBypass (ir : BitVec 8)
  /-- CORE_HALT (R406). CORE_CTL ACTION HALT stops an assistant core at the next instruction boundary. Operand pc: the instruction boundary the core stops at. -/
  | coreHalt (core : Fin 2) (pc : BitVec 32)
  /-- CORE_RESUME (R406). CORE_CTL ACTION RESUME restarts a halted core. -/
  | coreResume (core : Fin 2)
  /-- CORE_STEP (R406). CORE_CTL ACTION STEP executes one instruction and halts again. Operand pc: the program counter after the instruction. -/
  | coreStep (core : Fin 2) (pc : BitVec 32)
  /-- CORE_REG (R406). CORE_REG reads or writes a halted core's register or PC. -/
  | coreReg (dr : BitVec 72)
  /-- CORE_BP (R406). CORE_BP sets a breakpoint or watchpoint of a core. -/
  | coreBp (dr : BitVec 72)
  /-- BREAKPOINT_HIT (R406). A core reaches a breakpoint or watchpoint and halts. -/
  | breakpointHit (core : Fin 2) (watch : Bool) (pc : BitVec 32)
  /-- SYSBUS_READ (R408). SYSBUS OP read at Update-DR reads one word from the chosen space under the finder class. Operands: the data register; how a line of working memory that it reads decodes. -/
  | sysbusRead (dr : BitVec 134) (out : WmOut)
  /-- SYSBUS_WRITE (R408). SYSBUS OP write at Update-DR writes one word to the chosen space under the finder class. -/
  | sysbusWrite (dr : BitVec 134)
  /-- BUS_ABORT (R408). BUS_ABORT ends every access held on a stopped clock. -/
  | busAbort (bit0 : Bool)
  /-- TAP_RESET (R411). TRST# resets the finder TAP only. -/
  | tapReset
  /-- BEACON_RECEIVED (R354). A follower that fell back to CSMA/CD hears a PLCA BEACON and resumes PLCA, clearing SBUS_STATUS.CSMA. -/
  | beaconReceived
  /-- TX_FRAME_SENT (R363). A queued shelf-bus frame finishes transmission in its PLCA opportunity, its transmit bank becomes free and SBUS_TS_TX is captured. -/
  | txFrameSent
  /-- DOE_REQUEST (R23). A DOE request (discovery, CMA/SPDM or CDAT table access) arrives and is answered, CDAT reporting the latency and bandwidth figures of R23. -/
  | doeRequest (port : Fin 2) (r : DoeReq)
  deriving DecidableEq, Repr

end Sys2Proof
end

