-- ==== Sys2Proof/Decode.lean ====
section
/-! DEFINITION. The commands a word spells. spec/opcode_table.json gives no row any bits: the block takes register
accesses, frames and events, and no word of its own spells a command. -/

namespace Sys2Proof

/-- The command that the `nbits` bits of `w` spell: none, since the table gives no row bits. -/
def decodeTableWord (_nbits _w : Nat) : Option Instr := none

end Sys2Proof
end

