-- ==== Sys2Proof/Machine/SymCode.lean ====
section
/-! DEFINITION. The symbol code of working memory: RS(80, 64) over GF(2^8) (08_working_memory.md R200 to R204). -/

namespace Sys2Proof.Machine

/-- Multiply by x in GF(2^8) with polynomial x^8 + x^4 + x^3 + x^2 + 1. -/
def gfX (a : Nat) : Nat := if a < 128 then 2 * a else (2 * a) ^^^ 0x11D

/-- The product in GF(2^8), over the bits of `b` below `2 ^ n`. -/
def gfMulN : Nat → Nat → Nat → Nat
  | 0, _, _ => 0
  | n + 1, a, b => (if b % 2 = 1 then a else 0) ^^^ gfMulN n (gfX a) (b / 2)

def gfMul (a b : Nat) : Nat := gfMulN 8 a b

/-- Powers of α = x. -/
def gfPow (a : Nat) : Nat → Nat
  | 0 => 1
  | n + 1 => gfMul a (gfPow a n)

/-- The inverse: a^254. -/
def gfInv (a : Nat) : Nat :=
  let a2 := gfMul a a
  let a4 := gfMul a2 a2
  let a8 := gfMul a4 a4
  let a16 := gfMul a8 a8
  let a32 := gfMul a16 a16
  let a64 := gfMul a32 a32
  let a128 := gfMul a64 a64
  gfMul a128 (gfMul a64 (gfMul a32 (gfMul a16 (gfMul a8 (gfMul a4 a2)))))

/-- Horner's rule: the value at x of the polynomial whose highest coefficient stands first. -/
def gfEval (x : Nat) : List Nat → Nat → Nat
  | [], acc => acc
  | c :: t, acc => gfEval x t (gfMul acc x ^^^ c)

/-- The generator polynomial with roots α^0 to α^15, highest coefficient first. -/
def rsGen : List Nat :=
  (List.range 16).foldl
    (fun g i =>
      let r := gfPow 2 i
      List.zipWith (· ^^^ ·) (g ++ [0]) (0 :: g.map (gfMul r)))
    [1]

/-- Divide by the generator: the remainder register takes one data symbol. -/
def rsShift (g : List Nat) (rem : List Nat) (d : Nat) : List Nat :=
  let f := rem.headD 0 ^^^ d
  List.zipWith (fun a b => a ^^^ gfMul f b) (rem.tail ++ [0]) g.tail

/-- The 16 check symbols of 64 data symbols. Symbol 0 stands at the highest power (PRESUMED: the usual order of a
systematic code, notes/assumptions/9.md). -/
def rsCheck (data : List Nat) : List Nat :=
  data.foldl (rsShift rsGen) (List.replicate 16 0)

/-- The 16 syndromes of 80 symbols. -/
def rsSyn (w : List Nat) : List Nat := (List.range 16).map (fun i => gfEval (gfPow 2 i) w 0)

/-- The locator of symbol i. -/
def rsLoc (i : Nat) : Nat := gfPow 2 (79 - i)

/-- The product of two polynomials, lowest coefficient first, cut to 16 coefficients. -/
def polyMul (a b : List Nat) : List Nat :=
  (List.range 16).map (fun n =>
    (List.range (n + 1)).foldl (fun acc i => acc ^^^ gfMul (a.getD i 0) (b.getD (n - i) 0)) 0)

/-- The value at x of a polynomial, lowest coefficient first. -/
def polyEval (x : Nat) (p : List Nat) : Nat := gfEval x p.reverse 0

/-- The erasure trial of symbols `pos`: the values to add to them when that yields a codeword (R201). -/
def rsTrial (syn : List Nat) (pos : List Nat) : Option (List Nat) :=
  let locs := pos.map rsLoc
  let gam := locs.foldl (fun g x => List.zipWith (· ^^^ ·) (g ++ [0]) (0 :: g.map (gfMul x))) [1]
  let t := polyMul syn gam
  if (t.drop pos.length).all (· == 0) then
    some (locs.map (fun x =>
      let xi := gfInv x
      let num := gfMul x (polyEval xi (t.take pos.length))
      let den := (locs.filter (· != x)).foldl (fun d y => gfMul d (1 ^^^ gfMul xi y)) x
      gfMul num (gfInv den)))
  else none

/-- Outcome numbers of WMEM_TEST_RESULT (R213). -/
structure SymOut where
  outcome : Nat
  device : Nat
  symbols : Nat
  data : List Nat
  chk : List Nat
  deriving DecidableEq, Repr

/-- Decode 80 symbols (R201 on x4 DIMMs, R202 on x8, R204 the poison marker). -/
def rsDecode (x8 : Bool) (w : List Nat) : SymOut :=
  let syn := rsSyn w
  if syn.all (· == 0) then ⟨0, 0, 0, w.take 64, w.drop 64⟩
  else if syn = rsSyn (List.replicate 64 0 ++ List.replicate 16 0xC3) then ⟨3, 0, 0, w.take 64, w.drop 64⟩
  else
    let trials : List (List Nat) :=
      if x8 then (List.range 80).map (fun i => [i]) else (List.range 10).map (fun k => (List.range 8).map (8 * k + ·))
    let good := trials.filterMap (fun pos => (rsTrial syn pos).map (fun e => (pos, e)))
    match good with
    | [(pos, e)] =>
      let fixed := (pos.zip e).foldl (fun a (p : Nat × Nat) => a.set p.1 (a.getD p.1 0 ^^^ p.2)) w
      ⟨1, pos.headD 0 / (if x8 then 16 else 8), (e.filter (· != 0)).length, fixed.take 64, fixed.drop 64⟩
    | _ => ⟨2, 0, 0, w.take 64, w.drop 64⟩

end Sys2Proof.Machine
end

