-- ==== Sys2Proof/Machine/LeafCode.lean ====
section
/-! DEFINITION. The leaf code of the media: a shortened binary BCH code over GF(2^12) with a leaf CRC (04_media_channels.md R89, R90). -/

namespace Sys2Proof.Machine

/-! ### GF(2^12) -/

/-- Multiply by α = x in GF(2^12) with polynomial x^12 + x^6 + x^4 + x + 1. -/
def gf12X (a : Nat) : Nat := if a < 2048 then 2 * a else (2 * a) ^^^ 0x1053

/-- The product in GF(2^12) over the low `n` bits of `b`. -/
def gf12MulN : Nat → Nat → Nat → Nat
  | 0, _, _ => 0
  | n + 1, a, b => (if b.testBit 0 then a else 0) ^^^ gf12MulN n (gf12X a) (b / 2)

def gf12Mul (a b : Nat) : Nat := gf12MulN 12 a b

/-- α^n. -/
def gf12Pow : Nat → Nat
  | 0 => 1
  | n + 1 => gf12X (gf12Pow n)

/-- The inverse: the product of the eleven squares a^2, a^4, to a^2048. -/
def gf12Inv (a : Nat) : Nat :=
  ((List.range 11).foldl (fun (p : Nat × Nat) _ => let q := gf12Mul p.1 p.1; (q, gf12Mul p.2 q)) (a, 1)).2

/-- The value at x of a polynomial over GF(2^12), lowest coefficient first. -/
def poly12Eval (x : Nat) (p : List Nat) : Nat := p.foldr (fun c acc => gf12Mul acc x ^^^ c) 0

/-! ### The generator -/

/-- The minimal polynomial of α^i over GF(2), as the bits of a number: the product of (x - r) over the conjugates r of α^i. -/
def bchMin (i : Nat) : Nat :=
  let roots := ((List.range 12).map (fun k => gf12Pow (i * 2 ^ k % 4095))).eraseDups
  let p := roots.foldl (fun q r => List.zipWith (· ^^^ ·) (0 :: q) (q.map (gf12Mul r) ++ [0])) [1]
  (p.foldr (fun c a => 2 * a + c % 2) 0)

/-- The product of two polynomials over GF(2), over the low `n` bits of `b`. -/
def polyMul2 : Nat → Nat → Nat → Nat
  | 0, _, _ => 0
  | n + 1, a, b => (if b.testBit 0 then a else 0) ^^^ polyMul2 n (2 * a) (b / 2)

/-- The generator, of degree 240, with roots α^1 to α^40: the product of the minimal polynomials of the odd powers (an even power is a
conjugate of a lower one), each taken once. -/
def bchGen : Nat := (((List.range 20).map (fun k => bchMin (2 * k + 1))).eraseDups).foldl (fun g m => polyMul2 13 g m) 1

/-! ### Encoding -/

/-- The bits of bytes, each byte most significant bit first, as R89 states it for the CRC. DEDUCED, notes/assumptions/9.md. -/
def bitsOf (l : List Nat) : List Bool := l.flatMap (fun b => (List.range 8).map (fun i => b.testBit (7 - i)))

/-- Bits as a number, the first bit highest. -/
def bitsNum (l : List Bool) : Nat := l.foldl (fun a b => 2 * a + b.toNat) 0

/-- One bit enters the division by the generator. -/
def bchStep (g rem : Nat) (b : Bool) : Nat :=
  let r := 2 * rem % 2 ^ 240
  if rem.testBit 239 != b then r ^^^ (g % 2 ^ 240) else r

/-- The 240 parity bits of a message, as 30 bytes. PRESUMED, notes/assumptions/9.md. -/
def bchParity (msg : List Nat) : List Nat :=
  let g := bchGen
  let p := (bitsOf msg).foldl (bchStep g) 0
  (List.range 30).map (fun i => p / 2 ^ (232 - 8 * i) % 256)

/-- One bit step of the leaf CRC, polynomial 0x1021. -/
def crc16Step (c : Nat) : Nat := if c.testBit 15 then (2 * c % 65536) ^^^ 0x1021 else 2 * c

/-- The leaf CRC (R89): each byte enters most significant bit first. -/
def crc16 (l : List Nat) : Nat := l.foldl (fun c b => (List.range 8).foldl (fun c _ => crc16Step c) (c ^^^ (256 * b))) 0xFFFF

/-- The message of 258 bytes: 256 data bytes and the CRC, little-endian. -/
def leafMessage (data : List Nat) : List Nat := data ++ [crc16 data % 256, crc16 data / 256 % 256]

/-- A leaf as its 288 bytes on media. -/
def leafCodeword (msg : List Nat) : List Nat := msg ++ bchParity msg

/-- The bitwise XOR of lists of bytes of one length. -/
def xorBytes (n : Nat) (ls : List (List Nat)) : List Nat := ls.foldl (List.zipWith (· ^^^ ·)) (List.replicate n 0)

/-! ### Decoding (R90) -/

/-- The 40 syndromes of 288 bytes. -/
def bchSyn (w : List Nat) : List Nat :=
  let bits := bitsOf w
  (List.range 40).map (fun i => let x := gf12Pow (i + 1); bits.foldl (fun a b => gf12Mul a x ^^^ b.toNat) 0)

/-- What Berlekamp's iteration carries: the locator, the last one of lower degree shifted up, its discrepancy, the degree. -/
structure BchIter where
  loc : List Nat
  prev : List Nat
  disc : Nat
  deg : Nat
  deriving DecidableEq, Repr

/-- The sum of two polynomials, lowest coefficient first. -/
def poly12Add : List Nat → List Nat → List Nat
  | [], b => b
  | a, [] => a
  | x :: a, y :: b => (x ^^^ y) :: poly12Add a b

/-- One step of the iteration at syndrome `n`. -/
def bchIter (syn : List Nat) (t : BchIter) (n : Nat) : BchIter :=
  let d := (List.range (t.deg + 1)).foldl (fun a i => a ^^^ gf12Mul (t.loc.getD i 0) (if i ≤ n then syn.getD (n - i) 0 else 0)) 0
  if d = 0 then { t with prev := 0 :: t.prev }
  else
    let fix := poly12Add t.loc (t.prev.map (gf12Mul (gf12Mul d (gf12Inv t.disc))))
    if 2 * t.deg ≤ n then ⟨fix, 0 :: t.loc, d, n + 1 - t.deg⟩ else { t with loc := fix, prev := 0 :: t.prev }

/-- The error locator of the syndromes, with the number of errors it stands for. -/
def bchLocator (syn : List Nat) : List Nat × Nat :=
  let t := (List.range 40).foldl (bchIter syn) ⟨[1], [0, 1], 1, 0⟩
  (t.loc, t.deg)

/-- The bit positions, from the highest power down, at which the locator finds an error. -/
def bchErrors (loc : List Nat) : List Nat :=
  (List.range 2304).filter (fun k => poly12Eval (gf12Pow ((4095 - (2303 - k)) % 4095)) loc == 0)

/-- Turn the bits at the positions over. -/
def flipBits (w : List Nat) (pos : List Nat) : List Nat :=
  pos.foldl (fun l k => l.set (k / 8) (l.getD (k / 8) 0 ^^^ 2 ^ (7 - k % 8))) w

/-- The decode of 288 bytes as read, given the erased pattern: at most 20 bits off the pattern is ERASED; a codeword is CLEAN where its CRC
holds; up to 20 errors found are put right, and the CRC decides between CORRECTED and MISCORRECTED. -/
def leafDecode (erased w : List Nat) : LeafOut × List Nat :=
  let off := (bitsOf (List.zipWith (· ^^^ ·) erased w)).filter id
  if off.length ≤ 20 then (.erased, [])
  else
    let syn := bchSyn w
    let crcOk (x : List Nat) : Bool := leafMessage (x.take 256) == x.take 258
    if syn.all (· == 0) then (if crcOk w then .clean else .miscorrected, w.take 256)
    else
      let (loc, n) := bchLocator syn
      let pos := bchErrors loc
      if 20 < n ∨ pos.length ≠ n then (.uncorrectable, [])
      else
        let x := flipBits w pos
        (if crcOk x then .corrected n else .miscorrected, x.take 256)

end Sys2Proof.Machine
end

