-- ==== Sys2Proof/Machine/Tbl.lean ====
section
/-! DEFINITION. Sparse tables: lists of key and value in one canonical form, keys strictly rising. -/

namespace Sys2Proof.Machine

/-- A sparse table. A key that is not listed holds the table's own default. -/
abbrev Tbl (α : Type) := List (Nat × α)

/-- The value listed under key `k`. -/
def tget {α : Type} : Tbl α → Nat → Option α
  | [], _ => none
  | (a, v) :: t, k => if k = a then some v else tget t k

/-- The value under key `k`, `d` where it is not listed. -/
def tgetD {α : Type} (d : α) (t : Tbl α) (k : Nat) : α := (tget t k).getD d

/-- List `v` under `k`, keeping the keys rising. -/
def tset {α : Type} : Tbl α → Nat → α → Tbl α
  | [], k, v => [(k, v)]
  | (a, w) :: t, k, v =>
    if k < a then (k, v) :: (a, w) :: t
    else if k = a then (k, v) :: t
    else (a, w) :: tset t k v

/-- Take key `k` off the table. -/
def terase {α : Type} : Tbl α → Nat → Tbl α
  | [], _ => []
  | (a, w) :: t, k => if k = a then terase t k else (a, w) :: terase t k

/-- Store `v` under `k` in a table whose unlisted keys hold `d`: storing `d` takes the key off,
so that equal tables are equal data. -/
def tput {α : Type} [DecidableEq α] (d : α) (t : Tbl α) (k : Nat) (v : α) : Tbl α :=
  if v = d then terase t k else tset t k v

/-- Change the value under `k` by `f`, where an unlisted key holds `d`. -/
def tmod {α : Type} [DecidableEq α] (d : α) (f : α → α) (t : Tbl α) (k : Nat) : Tbl α :=
  tput d t k (f (tgetD d t k))

/-- Every listed key is above `n`, and the keys rise strictly. -/
def tsortedFrom {α : Type} (n : Nat) : Tbl α → Bool
  | [] => true
  | (a, _) :: t => decide (n ≤ a) && tsortedFrom (a + 1) t

/-- The canonical form of a sparse table whose unlisted keys hold `d`. -/
def twf {α : Type} [DecidableEq α] (d : α) (t : Tbl α) : Bool :=
  tsortedFrom 0 t && t.all (fun p => decide (p.2 ≠ d))

end Sys2Proof.Machine
end

