-- ==== Sys2Proof/Machine/Types.lean ====
section
/-! DEFINITION. The data types of the state: what each block of the DR-7240 holds that no plain register field holds. -/

namespace Sys2Proof.Machine

/-! ### Global -/

/-- The device modes of 01_the_shelf_controller.md R10; `off` before power and `starting` between the release of
PERST# and CXL.mem ready, where GLB_MODE_STATUS reads 0 (R15). -/
inductive Mode where
  | off | starting | active | quiet | parked | standby | faultHalt
  deriving DecidableEq, Repr

/-- What the part sends to the outside, newest first in `State.outs`. -/
inductive Out where
  /-- an MSI-X message: view (LD 0 to 15, 16 the management view) and vector (R45) -/
  | msix (view vector : Nat)
  /-- the data a register read returns -/
  | regData (m : Master) (off : Nat) (v : Word)
  /-- S2M NDR on a port for a request of an LD, with its DevLoad (11_regulation_and_ledgers.md R272) -/
  | cmp (port ld tag load : Nat)
  /-- S2M DRS on a port: data, poison and DevLoad -/
  | drs (port ld tag : Nat) (data : Line) (poison : Bool) (load : Nat)
  /-- a mailbox command completes: view, opcode, return code, output payload as bytes -/
  | mbox (view opcode rc : Nat) (payload : List Nat)
  /-- a write to host memory -/
  | hostWrite (addr : Nat) (data : List Nat)
  /-- a frame leaves on the shelf bus -/
  | frame (bytes : List Nat)
  /-- a PLCA BEACON -/
  | beacon
  /-- a word shifted out of the finder TAP: length and value -/
  | tdo (len value : Nat)
  /-- a PMBus VOUT_COMMAND to a rail's regulator -/
  | pmbus (rail steps : Nat)
  /-- an access ended by a finder bus abort (14_clocks_and_crossings.md R350): Completer Abort to the host, an access fault to an
  assistant -/
  | accessAbort (m : Master) (off : Nat)
  /-- a DOE response: port, protocol and data -/
  | doe (port protocol : Nat) (data : List Nat)
  /-- a fabric command completes: channel, die, opcode, result (0 DONE, 1 REFUSED, 2 TIMEOUT, 3 PROG_FAIL, 4 ERASE_FAIL,
  5 TRAIN_FAIL, 6 ILLEGAL) -/
  | fabric (chan die op res : Nat)
  /-- GPF phase 2 is complete on a port (02_host_port.md R33) -/
  | gpfDone (port : Nat)
  deriving DecidableEq, Repr

/-- Global state besides the register fields (01_the_shelf_controller.md R10 to R16, 18_start_up.md R411 to R420). -/
structure Glb where
  /-- GLB_INT_STATUS -/
  intStatus : BitVec 32
  /-- GLB_INT_MASK -/
  intMask : BitVec 32
  /-- the device mode -/
  mode : Mode
  /-- the mode a transition in progress leads to (R13) -/
  transTo : Option Mode
  /-- the source of that transition, as LAST_SRC encodes it (R15) -/
  transSrc : Nat
  /-- ingress is closed (R11) -/
  ingressClosed : Bool
  /-- the LDs whose event of this mode stay has been raised (R11) -/
  stayLds : List Nat
  /-- the logbook event of this mode stay has been raised (R11) -/
  stayAny : Bool
  /-- WAKE# is asserted (R12) -/
  wake : Bool
  /-- PERST# is asserted -/
  perst : Bool
  /-- PERST# was asserted during a transition and takes effect when it completes (R412) -/
  perstHeld : Bool
  /-- the handshake was given by PERST# (R412): the entry into STANDBY follows the entry into PARKED -/
  perstPme : Bool
  /-- a target held until CXL.mem ready, with its source (18_start_up.md R420) -/
  heldTarget : Option (Nat × Nat)
  /-- the last STANDBY target came from the shelf bus with FORCE (R14) -/
  force : Bool
  deriving DecidableEq, Repr

/-- Start-up (18_start_up.md R411 to R420). -/
structure Start where
  /-- `now` at the release of PERST# the start is timed from -/
  relAt : Nat
  /-- PERST# was released before the power-up or the entry into STANDBY ended: the cold start follows their end -/
  relPend : Bool
  /-- the straps at that release, and the time and outcome of the wipe of the start that follows it -/
  relStraps : Nat
  relUs : Nat
  relFail : Bool
  /-- GLB_RESET_STATUS.SOURCE of the cold start to come -/
  source : Nat
  /-- VDD_AON was lost before the start to come (R427) -/
  aonLost : Bool
  /-- VDD_AON is below 3.0 V now -/
  aonDown : Bool
  /-- input power is present -/
  vin : Bool
  /-- SHELF_ID as sampled at the rise of VDD_AON, for the wake matcher (R413) -/
  wakeId : Nat
  /-- every DDR5 channel is trained (R415) -/
  ddrTrained : Bool
  /-- replay has ended (R415) -/
  replayed : Bool
  /-- a handled VAULT_FAIL stands for KEYS_LOADED (R415, R230) -/
  vaultHandled : Bool
  /-- a warm start runs (R412) -/
  warm : Bool
  /-- CXL.mem has become ready since the cold start: Memory_Active (R415) -/
  memActive : Bool
  /-- the last power-off was an input collapse (13_dome_power.md R330) -/
  collapsed : Bool
  deriving DecidableEq, Repr

/-! ### Logbook and spectrograph -/

/-- A logbook record (16_spectrograph_and_logbook.md R380). -/
structure LogRec where
  seq : Nat
  code : Nat
  source : Nat
  sev : Nat
  time : Nat
  p0 : Nat
  p1 : Nat
  p2 : Nat
  p3 : Nat
  deriving DecidableEq, Repr

/-- The logbook (R381 to R385): record slots by SEQ mod 4,096, the next SEQ, lost records, the record latched for the
window, the bytes held in LOG_PUT0 to 2, the tail copy in progress (the SEQs still to be written). -/
structure LogSt where
  slots : Tbl LogRec
  head : Nat
  drops : Nat
  lost : Nat
  win : Option LogRec
  put : List Nat
  tailCopy : List Nat
  deriving DecidableEq, Repr

/-- A snapshot bank: counters by ID, wrap bits and chain bits by block, as they stood at the freeze (R378). -/
structure SpecBank where
  cnt : Tbl Nat
  wrap : Tbl Nat
  chain : Tbl Nat
  deriving DecidableEq, Repr

/-- The spectrograph (R373 to R379): counters by ID, chain bits and wrap bits by block, the two snapshot banks, the
published bank, the number published, BUSY with the values frozen and their time. -/
structure SpecSt where
  cnt : Tbl Nat
  chain : Tbl Nat
  wrap : Tbl Nat
  bank0 : SpecBank
  bank1 : SpecBank
  bank : Nat
  seq : Nat
  busy : Bool
  frozen : SpecBank
  frozenAt : Nat
  time : Nat
  deriving DecidableEq, Repr

/-! ### Clocks -/

/-- An access held on a stopped clock (14_clocks_and_crossings.md R350): master, domain bit of CLK_STATUS, offset,
bytes, and the value of a write. -/
structure HeldAccess where
  master : Master
  dom : Nat
  off : Nat
  size : Nat
  wr : Option Nat
  deriving DecidableEq, Repr

/-- Clocks and time (R336 to R352): the time-of-day with its fraction in 2^-32 ns, the AON ticks with the crystal time
not yet counted in 1/64 ns, the values recorded for the restore, the high halves latched per master, the held accesses,
the second of each domain's last overrun record. -/
structure ClkSt where
  tod : Nat
  frac : Nat
  ticks : Nat
  tickAcc : Nat
  recTod : Nat
  recTicks : Nat
  recOk : Bool
  latch : List (Master × Nat)
  held : List HeldAccess
  xlogged : Tbl Nat
  /-- the next 1 ms regulation window was cut short by a time step (R344) -/
  skipWin : Bool
  deriving DecidableEq, Repr

/-! ### Almanac, life cycle, finder -/

/-- Who asked for an almanac write (17_almanac_life_cycle_finder.md R390). -/
inductive AlmSrc where
  | host | tail | finder
  deriving DecidableEq, Repr

/-- An access waiting at the almanac port or running there (R389). -/
structure AlmJob where
  src : AlmSrc
  wr : Bool
  addr : Nat
  len : Nat
  data : List Nat
  /-- `now` when a write started -/
  started : Nat
  deriving DecidableEq, Repr

/-- The almanac (R388 to R396): its bytes, the port queue, the write in progress, the pin ALM_WP#, a cut write to be
reported at the next start. -/
structure AlmSt where
  bytes : List Host.Cell
  queue : List AlmJob
  waiting : List AlmJob
  run : Option AlmJob
  wp : Bool
  cut : Bool
  /-- the DDR5 training records as last written whole (08_working_memory.md R198): the identity of every DIMM by channel and slot, the data
  rate, and the bytes; none where the next start trains in full -/
  train : Option (List (List (Nat × Nat)) × Nat × List Nat)
  deriving DecidableEq, Repr

/-- The OTP and the life cycle (R397 to R407): slots blown in order as state bits, key-hash slots fused and revoked
with their 48 B hashes. -/
structure LcsSt where
  slots : List Nat
  fused : Nat
  revoked : Nat
  hashes : Tbl (List Nat)
  /-- a transition runs (R400) with its target -/
  trans : Option Nat
  deriving DecidableEq, Repr

/-- One night assistant core as the finder sees it (R406): halted, why, its PC while halted, the registers written or read since
it halted, breakpoints and watchpoints by index (kind, mask, address), and the bytes of its memory that the finder has written or
read. -/
structure CoreSt where
  halted : Bool
  cause : Nat
  pc : Nat
  regs : Tbl Nat
  bps : Tbl (Nat × Nat × Nat)
  mem : Tbl Nat
  deriving DecidableEq, Repr

/-- The finder port (R404 to R408): instruction register, boundary register, boundary instruction in effect (0 none, 1 EXTEST,
2 CLAMP, 3 HIGHZ), SYSBUS status and data of the previous access, the core that CORE_CTL last named, what CORE_REG last read,
the cores. -/
structure FindSt where
  ir : Nat
  boundary : Nat
  drive : Nat
  status : Nat
  data : Nat
  ctlCore : Nat
  regRead : Nat
  coreA : CoreSt
  coreB : CoreSt
  deriving DecidableEq, Repr

/-! ### Dome -/

/-- The states of a power domain (13_dome_power.md R313). -/
inductive PdState where
  | off | ramp | on | retention
  deriving DecidableEq, Repr

/-- The states of a rail, as DOME_RAILn_STATUS.STATE encodes them (R335). -/
inductive RailPhase where
  | off | rising | running | falling | failed
  deriving DecidableEq, Repr

/-- A rail (R316 to R319). -/
structure Rail where
  phase : RailPhase
  en : Bool
  pg : Bool
  /-- margin in force, two's complement of 5 bits -/
  margin : Nat
  mv : Nat
  iout : Nat
  /-- consecutive samples outside the window -/
  bad : Nat
  /-- consecutive polls without answer -/
  miss : Nat
  /-- reads below 10 % of nominal since its enable went low -/
  disch : Bool
  /-- its minimum off time has passed -/
  offMin : Bool
  deriving DecidableEq, Repr

/-- What a sequencer does (R325). -/
inductive SeqPhase where
  | off | up | on | down
  deriving DecidableEq, Repr

/-- A power sequencer: of the device (16) or of a plate (R325). `steps` are the steps still to run, the first of them
the one waited in; `held` an on request held. -/
structure SeqSt where
  phase : SeqPhase
  steps : List ScriptStep
  held : Bool
  deriving DecidableEq, Repr

/-- A fan (R334). -/
structure Fan where
  stall : Bool
  failsafe : Bool
  rpm : Nat
  deriving DecidableEq, Repr

/-- The dome (R313 to R335). Tables list what differs from the default: domains OFF, rails off and discharged. -/
structure DomeSt where
  pd : Tbl PdState
  rails : Tbl Rail
  seqs : Tbl SeqSt
  bank0 : Scripts
  bank1 : Scripts
  bank : Nat
  flip : Bool
  /-- the margin change waiting for the sequence that owns the rail, or for READ_VOUT -/
  marginRail : Option (Nat × Nat)
  marginWait : Bool
  huEn : Bool
  huOk : Bool
  onBank : Bool
  /-- pins -/
  prsnt : Nat
  pltRst : Nat
  /-- fans 0 to 3 -/
  fans : Tbl Fan
  thermOvr : Bool
  tj : Nat
  hot110 : Nat
  hot105 : Bool
  /-- the cipher lanes that failed their known-answer tests since power-up (09_cipher_and_meridian.md R217) -/
  laneBad : Nat
  adc : Tbl Nat
  /-- the fans are driven high after FAULT-HALT (R327 step 5) -/
  haltFan : Bool
  /-- a collapse in DR-5100 mode runs its sequence on (R330) -/
  legacy : Bool
  /-- DRAIN_DOWN waits for the logbook tail copy (R324) -/
  drainTail : Bool
  deriving DecidableEq, Repr

/-! ### Shelf bus (15_shelf_bus.md) -/

/-- A received frame in its bank (R361, R362): bank number, its bytes, how many have been read, whether its FCS holds, whether
the assistant still has to serve it, whether it takes it from its bank when it does. -/
structure RxFrame where
  bank : Nat
  bytes : List Nat
  pos : Nat
  fcsOk : Bool
  wait : Bool
  own : Bool
  deriving DecidableEq, Repr

/-- A transmit frame (R363): its bank, its bytes so far, whether it is complete and waits for its opportunity, whether its
transmit time is captured, the attempts that collided (R354). -/
structure TxFrame where
  bank : Nat
  bytes : List Nat
  ready : Bool
  ts : Bool
  tries : Nat
  deriving DecidableEq, Repr

/-- What a plate is asked to do (R368): 1 ON, 2 OUT, 3 ADMIT; the source of an OUT as CAUSE encodes it. -/
structure PltReq where
  plate : Nat
  action : Nat
  cause : Nat
  deriving DecidableEq, Repr

/-- The shelf bus. -/
structure SbusSt where
  /-- the nonce table, most recently used first: source and last NONCE; and its floor (R359) -/
  nonces : List (Nat × Nat)
  floor : Nat
  /-- the shelf key -/
  key : Option (BitVec 256)
  /-- the seen table, most recently used first, and the second, plus 1, of the last stranger record (R356) -/
  seen : List Nat
  strangerSec : Nat
  /-- authentication and replay failures: source and `now` -/
  fails : List (Nat × Nat)
  /-- the quarantine table, most recently used first: source and `now` at its entry -/
  quar : List (Nat × Nat)
  /-- unauthenticated queries answered: the second they fall in, and their number -/
  answers : Nat × Nat
  /-- the subscriber: its MAC, its severity floor, its trace enable (R358) -/
  sub : Option (Nat × Nat × Bool)
  /-- the SEQ of the next logbook record to look at for EVENT frames -/
  evSent : Nat
  rx : List RxFrame
  tx : List TxFrame
  /-- frames of the device that wait for a transmit bank, oldest first -/
  txq : List (List Nat)
  /-- a TRACE item was cut by FLUSH (R363) -/
  cont : Bool
  /-- the device has yielded the coordinator role; as a follower it hears no BEACON (R354) -/
  yielded : Bool
  csma : Bool
  /-- the identity records of the plates -/
  ident : Tbl (List Nat)
  /-- plates admitted with a new identity and not yet ONLINE -/
  newId : List Nat
  /-- plates with an ON request held while DRAINING -/
  heldOn : List Nat
  /-- plates whose disagreement has been reported -/
  flagged : List Nat
  /-- plate requests that wait for the end of an assistant swap -/
  reqs : List PltReq
  deriving DecidableEq, Repr

end Sys2Proof.Machine
end

