-- ==== Sys2Proof/Machine/TypesData.lean ====
section
/-! DEFINITION. The data types of the data path: host port, translation, media, drift, fields, durability, working
memory, keys, regulation. -/

namespace Sys2Proof.Machine

/-! ### Host port (02_host_port.md) -/

/-- A CXL.mem request of an LD: a read, or a write with its byte mask, data and poison bit. `dpa` is the byte address of
the 64 B line in the LD. -/
structure HReq where
  port : Nat
  ld : Nat
  tag : Nat
  dpa : Nat
  wr : Bool
  mask : Nat
  data : Line
  poison : Bool
  /-- it waited at ingress for credit -/
  waited : Bool
  /-- while it waits at ingress, `now` at its arrival; afterwards the ns it waited -/
  wait : Nat
  deriving DecidableEq, Repr

/-- An event record: its event number (the model's own: 0x10 unbacked, 0x20 KID, 0x30 R11, 0x40 last reserve, 0x50
memory module, 0x60 data lost, 0x70 rebuild or ledger failure, 0x80 fatal, 0x90 dynamic capacity) and a parameter. -/
structure EvRec where
  kind : Nat
  arg : Nat
  deriving DecidableEq, Repr

/-- A background operation of an LD (R38, R39): its opcode and percent done. -/
structure BgOp where
  opcode : Nat
  pct : Nat
  rc : Nat
  deriving DecidableEq, Repr

/-- An HDM decoder (R23): its base and size in host physical addresses, the encodings of its interleave ways (1, 2, 4, 8) and
granularity (256 B to 16 KiB), the DPA its first bytes go to, whether it is committed. -/
structure Hdm where
  base : Nat
  size : Nat
  ways : Nat
  gran : Nat
  skip : Nat
  committed : Bool
  deriving DecidableEq, Repr

/-- A decoder that has not been programmed. -/
def Hdm.reset : Hdm := ⟨0, 0, 0, 0, 0, false⟩

/-- The event logs, by number: 0 Informational, 1 Warning, 2 Failure, 3 Fatal, 4 Dynamic Capacity (R40). -/
structure LdSt where
  /-- the four HDM decoders of R23 -/
  hdm : List Hdm
  /-- static capacity in 256 MiB blocks -/
  blocks : Nat
  /-- size of the dynamic-capacity region in blocks; it follows the static capacity in the DPA range -/
  dcRegion : Nat
  /-- extents: first block of the DC region and number of blocks -/
  extents : List (Nat × Nat)
  /-- the lines of the poison list, as dpa / 64, with their source: 0 received poison, 1 injected -/
  poison : List (Nat × Nat)
  poisonOvf : Bool
  logs : Tbl (List EvRec)
  drops : Tbl Nat
  /-- the event interrupt policy, a byte per log -/
  irqPolicy : Nat
  /-- alert thresholds: life used, temperature; and whether each is above -/
  lifeWarn : Option Nat
  tempWarn : Option Nat
  lifeHit : Bool
  tempHit : Bool
  bg : Option BgOp
  /-- the last background operation that ended -/
  lastBg : Option BgOp
  scan : List Nat
  /-- the label storage area, bytes that are not 0 -/
  lsa : Tbl Nat
  /-- milliseconds, plus 1, of the last rate-limited Informational event for an unbacked access, and for a KID event -/
  lastUnbacked : Nat
  lastKid : Nat
  deriving DecidableEq, Repr

/-- A mailbox command: its view, opcode, input payload as bytes, and for Transfer FW the image transferred. -/
structure MboxReq where
  view : Nat
  opcode : Nat
  payload : List Nat
  image : Option Image
  deriving DecidableEq, Repr

/-- Credit classes: 0 Req, 1 RwD, 2 posted header, 3 posted data, 4 non-posted header, 5 non-posted data, 6 S2M NDR,
7 S2M DRS (R42, 11_regulation_and_ledgers.md R286). -/
structure PortSt where
  up : Bool
  l1 : Bool
  /-- the credits the port grants, by class (R42): those free in the device (an unlisted class holds its full count, R43), those
  held by the host, and those of requests in the port -/
  credFree : Tbl Nat
  held : Tbl Nat
  inPort : Tbl Nat
  /-- S2M credits the host has granted in all, those the device has not used, and those used, by class -/
  s2mGrant : Tbl Nat
  s2mFree : Tbl Nat
  s2mUsed : Tbl Nat
  /-- the IDE stream is insecure: no CXL.mem requests until new keys (R41) -/
  insecure : Bool
  /-- from GPF phase 1 until the next reset of the port (R33) -/
  gpf : Bool
  gpfLds : List Nat
  gpfAny : Bool
  /-- GPF phase 2 waits for a commit -/
  gpf2 : Bool
  /-- responses waiting for S2M credits, oldest first -/
  respQ : List Out
  /-- requests the link holds while a waiting limit is reached (R271), oldest first -/
  linkQ : List HReq
  /-- mailbox commands held until the link leaves L1 (R39) -/
  mboxQ : List MboxReq
  deriving DecidableEq, Repr

/-- The FM-side and port-wide state of the host port. -/
structure HostSt where
  lds : Tbl LdSt
  ports : Tbl PortSt
  /-- requests waiting at ingress for regulation credit, oldest first (R27) -/
  ingress : List HReq
  /-- requests waiting for the end of an array move, a re-key or a rebuild, oldest first -/
  parked : List HReq
  /-- writes waiting for a line token or a frame table, oldest first -/
  writeQ : List HReq
  /-- a Set LD Allocations that waits for its array move: the LDs whose arrays move, its LDs with their static and dynamic capacity
  in blocks, whether its mailbox command still waits for its completion -/
  moving : List Nat
  moveTo : List (Nat × Nat × Nat)
  movingCmd : Bool
  /-- Release Dynamic Capacity commands that wait for requests accepted before them, oldest first -/
  releases : List MboxReq
  /-- the MSI-X tables: their 8 B words that do not hold their reset value, by view × 1,024 + word; and the pending vectors of each
  view as a mask (R44, R45) -/
  msix : Tbl Nat
  pba : Tbl Nat
  /-- the GPF phase 2 duration in ms and power in mW that the device advertises (R33) -/
  gpfMs : Nat
  gpfMw : Nat
  deriving DecidableEq, Repr

/-! ### Translation (03_translation.md) -/

/-- States of a map-cache line (R64). -/
inductive LineSt where
  | invalid | filling | clean | dirty | writeback
  deriving DecidableEq, Repr

/-- Why a line is being written back. -/
inductive WbWhy where
  | none | victim | wb | inv
  deriving DecidableEq, Repr

/-- A map-cache line (R60, R64): tag, state, valid and dirty sectors as masks of 8, DOOM, REDIRTY, words 0 to 63, the
words and the mask of sectors copied to the writeback buffer, and why they are written back. -/
structure MapLine where
  tag : Nat
  st : LineSt
  valid : Nat
  dirty : Nat
  doom : Bool
  redirty : Bool
  why : WbWhy
  words : Tbl Nat
  wbuf : Tbl Nat
  wbMask : Nat
  deriving DecidableEq, Repr

/-- Who looks an entry up: a request from the link, a translation probe, or a ring command's unit that a busy bank holds up. -/
inductive LookUser where
  | host (r : HReq)
  | probe
  | ring
  deriving DecidableEq, Repr

/-- A lookup in progress: its user, LD and DPA, the folio entry once it is known (the frame entry is then sought), and its
bank misses so far. -/
structure Look where
  user : LookUser
  ld : Nat
  dpa : Nat
  folio : Option Nat
  misses : Nat
  deriving DecidableEq, Repr

/-- The miss outstanding in a bank (R62): the map line, the way (16 where nothing is allocated), the sectors asked for,
the lookups it serves, and whether it still waits for the writeback of the line that stands in its way (R64). -/
structure Miss where
  line : Nat
  way : Nat
  sectors : Nat
  users : List Look
  wait : Bool
  deriving DecidableEq, Repr

/-- A maintenance operation (R67). -/
structure Maint where
  op : Nat
  first : Nat
  count : Nat
  deriving DecidableEq, Repr

/-- A translation probe (R78): its line, and once its lookups are done what they found and whether it could not be read. -/
structure Probe where
  ld : Nat
  dpa : Nat
  found : Option (Nat × Nat)
  bad : Bool
  deriving DecidableEq, Repr

/-- Translation (R47 to R79). The words of the map region and the frame pool lie in `WmSt.words`. -/
structure XlatSt where
  lines : Tbl MapLine
  misses : Tbl Miss
  /-- lookups waiting for a bank, oldest first, by bank -/
  stalled : Tbl (List Look)
  maint : Option Maint
  /-- ways being converted to scratchpad: the new number of ways -/
  conv : Option Nat
  /-- allocated frame tables -/
  used : List Nat
  /-- split folios as LD and folio, oldest split first (06_field_management.md R154) -/
  splits : List (Nat × Nat)
  /-- sectors being rebuilt, as ranges of (byte address / 64, count), and sectors lost (07_durability.md R192) -/
  rebuilding : List (Nat × Nat)
  lost : List Nat
  /-- scratchpad bytes by window offset that are not 0 -/
  scratch : Tbl Nat
  probe : Option Probe
  deriving DecidableEq, Repr

/-! ### Coalescing and staging (03_translation.md R71 to R74, R441) -/

/-- A line held by a line token: the token, the bytes present, whether one write covered the whole line, the data, the
poison bit, its ASEQ. -/
structure CLine where
  tok : Nat
  mask : Nat
  full : Bool
  data : Line
  poison : Bool
  aseq : Nat
  deriving DecidableEq, Repr

/-- A gather: LD, folio, frame, the lines present, the KID it recorded for an unmapped folio, closed, merging (its frame
token), whether every line came as a full unpoisoned write. -/
structure Gather where
  ld : Nat
  folio : Nat
  frame : Nat
  lines : Tbl Unit
  kid : Nat
  kidRef : Bool
  closed : Bool
  merging : Option Nat
  whole : Bool
  /-- `now` of its first line -/
  first : Nat
  deriving DecidableEq, Repr

/-- The state of a frame token in use. -/
inductive FrSt where
  | staged | programming
  | mover (m : Nat)
  deriving DecidableEq, Repr

/-- A frame held by a frame token: STAGED or PROGRAMMING (R73), or a mover's copy (06_field_management.md R146). -/
structure Frame where
  ld : Nat
  folio : Nat
  frame : Nat
  kid : Nat
  key : Nat
  st : FrSt
  redirty : Bool
  lines : Tbl Line
  lmask : Nat
  seq : Nat
  /-- the PFA of the slot it was placed in -/
  placed : Option Nat
  /-- it bypassed the journal (07_durability.md R171) -/
  bypass : Bool
  /-- its run hold has ended -/
  free : Bool
  /-- its place in the order in which frames became STAGED -/
  order : Nat
  /-- source PFA of a copy -/
  src : Nat
  zero : Bool
  run : Bool
  deriving DecidableEq, Repr

/-- Coalescing buffer and staging. Lines by LD and line address, frames by token. -/
structure CoalSt where
  lines : Tbl CLine
  toks : List Nat
  gathers : List Gather
  frames : Tbl Frame
  nextOrder : Nat
  /-- frames that have entered staging, switched, dropped and lost (11_regulation_and_ledgers.md R279) -/
  entered : Nat
  switched : Nat
  dropped : Nat
  lostN : Nat
  deriving DecidableEq, Repr

/-! ### Media (04_media_channels.md) -/

/-- A journal record (07_durability.md R166): ASEQ, TYPE, LD, KID, ADDR, the payload as numbers (a line, a mask, an
entry, a byte), the key its data is encrypted under, and `now` at its capture. -/
structure JRec where
  aseq : Nat
  typ : Nat
  ld : Nat
  kid : Nat
  addr : Nat
  data : List Nat
  key : Nat
  born : Nat
  deriving DecidableEq, Repr

/-- A journal row (07_durability.md R165). -/
structure JRow where
  jseq : Nat
  epoch : Nat
  drain : Bool
  drainEnd : Bool
  parkEnd : Bool
  committed : Nat
  recs : List JRec
  deriving DecidableEq, Repr

/-- What a row of the medium holds. -/
inductive RowKind where
  | star | data | parity | filler | journal | system
  /-- partly programmed by an aborted or failed program: unreadable -/
  | bad
  deriving DecidableEq, Repr

/-- A programmed row: what the header leaf of R173 holds, the frame's lines as plaintext with the number of the key they
are encrypted under, or the journal row. -/
structure MRow where
  kind : RowKind
  copy : Bool
  zero : Bool
  run : Bool
  ld : Nat
  kid : Nat
  key : Nat
  seq : Nat
  folio : Nat
  frame : Nat
  eraseCnt : Nat
  lmask : Nat
  openSeq : Nat
  src : Nat
  lines : Tbl Line
  jrow : Option JRow
  deriving DecidableEq, Repr

/-- Who waits for a media read. -/
inductive RSrc where
  | host (r : HReq)
  | rebuild (id member : Nat)
  | ahead
  deriving DecidableEq, Repr

/-- How a read may be served: by its die with a rebuild as step 4, by a rebuild alone, or by its die alone after a failed
rebuild (R95). -/
inductive RdMode where
  | ladder | rebuild | die
  deriving DecidableEq, Repr

/-- A read of one leaf (R91, R123): its source, scheduler class, PFA, leaf, the line of the frame it wants, whether it also
wants the header leaf, how it is served, the ladder step it stands at, its age position, the rebuilds issued for its leaf and
for the header leaf, whether each has been decoded, whether it waits for a measurement, whether it is an extended read, the bytes of a partial line to merge over it, its bank
misses. -/
structure RdReq where
  id : Nat
  src : RSrc
  cls : Nat
  pfa : Nat
  leaf : Nat
  line : Nat
  hdr : Bool
  mode : RdMode
  step : Nat
  pos : Nat
  rb : Option Nat
  hrb : Option Nat
  got : Bool
  hgot : Bool
  waitMeas : Bool
  ext : Bool
  ovMask : Nat
  ovData : Line
  deriving DecidableEq, Repr

/-- A rebuild (R95): the PFA and leaf it rebuilds, the members still missing, whether one failed, the cause counted. -/
structure Rebuild where
  id : Nat
  pfa : Nat
  leaf : Nat
  left : List Nat
  failed : Bool
  done : Bool
  deriving DecidableEq, Repr

/-- What a plane runs. -/
inductive PlaneOp where
  /-- READ or READ_LATCH of the leaves of a mask from a row, at 15 offsets -/
  | read (pfa mask : Nat) (offs : List Int) (latch : Bool)
  /-- READ_STAR of a set's star row at a level under test and a sweep offset -/
  | star (pfa level : Nat) (sweep : Int)
  deriving DecidableEq, Repr

/-- What a die runs besides reads. -/
inductive DieOp where
  | none
  /-- PROGRAM: 1-bit or 4-bit mode, the rows with the images transferred -/
  | program (mode1 : Bool) (rows : List (Nat × MRow))
  /-- ERASE: the fields (PFA / 8,192) and the mode of the next opening -/
  | erase (mode1 : Bool) (fields : List Nat)
  | ident
  | resetDie
  deriving DecidableEq, Repr

/-- A die: its operation, whether a SUSPEND is under way, the loops its operation completed up to its last start or RESUME and `now`
at that time, in a suspend window the reads served and `now` at its beginning (R97), and whether a journal program holds its leaves in
the page register until the member before it has completed (07_durability.md R164). -/
structure DieSt where
  op : DieOp
  suspending : Bool
  loops : Nat
  since : Nat
  win : Nat
  winAt : Nat
  hold : Bool
  deriving DecidableEq, Repr

/-- A leaf-buffer entry (R101), oldest first in its list. -/
structure LbEnt where
  pfa : Nat
  leaf : Nat
  ahead : Bool
  deriving DecidableEq, Repr

/-- A read stream (R103): the folio, the last leaf in the folio, its length. -/
structure RaStream where
  ld : Nat
  folio : Nat
  leaf : Nat
  len : Nat
  deriving DecidableEq, Repr

/-- The media side: rows by PFA, planes by (channel × 8 + die) × 4 + plane, latches (PFA and offsets) by the same
number, dies by channel × 8 + die, leaf buffers and streams by channel, reads oldest first, rebuilds, the training step
running per channel, the segment state of a reload. -/
structure MedSt where
  rows : Tbl MRow
  planes : Tbl PlaneOp
  latches : Tbl (Nat × List Int)
  dies : Tbl DieSt
  lbuf : Tbl (List LbEnt)
  streams : Tbl (List RaStream)
  reads : List RdReq
  rebuilds : List Rebuild
  nextId : Nat
  training : Tbl Nat
  /-- the training steps each die has passed since its segment was loaded, as a mask, by channel × 8 + die (R88) -/
  phy : Tbl Nat
  /-- read-ahead leaves cancelled while in flight (R104): PFA and leaf -/
  cancelled : List (Nat × Nat)
  /-- segments by channel: the offset tables and versions of the running, the staged and the previous segment are in
  the image state; here `now` at the end of QUIESCE -/
  quiesced : Tbl Nat
  deriving DecidableEq, Repr

/-! ### Drift (05_drift_and_references.md) -/

/-- A drift record (R113). -/
structure DRec where
  valid : Bool
  src : Nat
  member : Nat
  cls : Nat
  mtime : Nat
  deriving DecidableEq, Repr

/-- A measurement in flight (R120): set, member, scheduler class, star row, lo, hi, the smallest sum so far, whether the
wake sweep started it (R122). -/
structure Meas where
  set : Nat
  member : Nat
  cls : Nat
  row : Nat
  lo : Nat
  hi : Nat
  best : Nat
  sweep : Bool
  deriving DecidableEq, Repr

/-- A seeing record (R126). -/
structure See where
  maxBits : Nat
  maxStep : Nat
  rwReq : Bool
  rwPosted : Bool
  retried : Nat
  disturb : Nat
  corr : Nat
  deriving DecidableEq, Repr

/-- Drift: records by set, measurements in flight, seeing records by field (PFA / 8,192), the rewrite queue, the sets
still to be swept, the partial minute in EPH cycles. -/
structure DriftSt where
  recs : Tbl DRec
  meas : List Meas
  see : Tbl See
  /-- the seeing cache of R126, oldest entry first -/
  cache : List (Nat × See)
  rwq : List Nat
  partMin : Nat
  deriving DecidableEq, Repr

/-! ### Fields (06_field_management.md) -/

/-- A field record (R134). STATE, USE, CAUSE and STREAM as the table encodes them. -/
structure FRec where
  st : Nat
  mode1 : Bool
  use : Nat
  cause : Nat
  stream : Nat
  victim : Bool
  pinned : Bool
  erasePend : Bool
  ec : Nat
  valid : Nat
  rows : Nat
  openSeq : Nat
  deriving DecidableEq, Repr

/-- An open set (R136 to R139): its stream, the next slot to give, the star rows programmed (bit member × 2 + row), the
members of the current data row programmed (a mask of 8), the current data row, the hold slot, the ASEQ of its opening
record, whether it opened as a plane of a quad (R133). -/
structure OpenSet where
  set : Nat
  stream : Nat
  next : Nat
  stars : Nat
  done : Nat
  row : Nat
  hold : Option Nat
  openAseq : Nat
  quad : Bool
  deriving DecidableEq, Repr

/-- A row waiting to be programmed. -/
inductive RowJob where
  | star
  | frame (tok : Nat)
  | filler
  | parity
  | journal (jseq : Nat)
  deriving DecidableEq, Repr

/-- A mover (R155): its job as FLD_MOVm_STATUS encodes it, the slots of its set still to look at, for SEAL the folio and the ring
command; DONE_UNITS and SKIPPED of a job that yielded; the tokens of frames to be programmed anew before the job goes on (R148). -/
structure Mover where
  job : Nat
  set : Nat
  left : List Nat
  ld : Nat
  folio : Nat
  ctx : Option Nat
  done : Nat
  skipped : Nat
  retry : List Nat
  deriving DecidableEq, Repr

/-- Field management. Field records by PFA / 8,192; a field not listed is FREE in 4-bit mode, never erased. -/
structure FldSt where
  tbl : Tbl FRec
  opens : List OpenSet
  jobs : Tbl RowJob
  movers : Tbl Mover
  /-- sets queued for VERIFY, RELOCATE and erase; folios queued by ring SEAL commands (context, LD, folio) -/
  verifyQ : List Nat
  relocQ : List Nat
  /-- sets to relocate because a plate bears a new identity (R137) -/
  newPlate : List Nat
  eraseQ : List Nat
  sealQ : List (Nat × Nat × Nat)
  /-- the bin each scored set stands in, with the stamp of its entry -/
  bins : Tbl (Nat × Nat)
  stamp : Nat
  /-- a rebin runs -/
  rebin : Bool
  /-- hold slots taken, by set (R139) -/
  holds : Tbl Nat
  /-- STOP was written: the campaign ends after the current WEAR job -/
  campaignEnd : Bool
  /-- sets whose erase may run: every read issued to them has completed (R143) -/
  erasing : List Nat
  /-- sets that retire when their erase ends (R136) -/
  toRetire : List Nat
  /-- GC and WEAR jobs that yielded, with their progress (R155) -/
  paused : List Mover
  /-- F has fallen below START_PCT and not yet reached STOP_PCT (R145) -/
  gcOn : Bool
  deriving DecidableEq, Repr

/-! ### Durability (07_durability.md) -/

/-- A row sealed and not yet committed: the group whose journal quad it goes to (R168), where it was placed, whether it returned DONE. -/
structure Sealed where
  row : JRow
  group : Option Nat
  placed : Option Nat
  done : Bool
  deriving DecidableEq, Repr

/-- What a forced commit completes: DUR_SYNC, a ring SYNC or another ring command's context, GPF phase 2 of a port; a
mailbox command of a view; or nothing by itself (a mode entry, a key operation). -/
inductive ForceFor where
  | sync
  | ring (ctx : Nat)
  | gpf (port : Nat)
  | mbox (view opcode : Nat)
  | mode
  deriving DecidableEq, Repr

/-- A force in progress (R170): it completes when DUR_COMMIT covers `jseq`. -/
structure Force where
  jseq : Nat
  what : ForceFor
  deriving DecidableEq, Repr

/-- A checkpoint (R182, R183): what its sections hold; its EPOCH, its sets in writing order, the PFAs of its header rows. -/
structure Ckpt where
  pseq : Nat
  cutAseq : Nat
  jrnTail : Nat
  clean : Bool
  fields : Tbl FRec
  staging : List (Nat × Nat × Nat)
  words : Tbl Nat
  used : List Nat
  splits : List (Nat × Nat)
  see : Tbl See
  scrubPos : Nat
  lds : Tbl LdSt
  wp : List Nat
  kids : Tbl Nat
  cur : Tbl Nat
  gen : Nat
  epoch : Nat
  sets : List Nat
  hdr : List Nat
  deriving DecidableEq, Repr

/-- Durability: the counters, the build area, the sealed rows, the journal rows on media by JSEQ, the forces, the
checkpoint being written with its cut, the checkpoints on media, the bytes journalled since the cut. -/
structure DurSt where
  aseq : Nat
  jseq : Nat
  epoch : Nat
  build : List JRec
  rows : List Sealed
  journal : Tbl JRow
  forces : List Force
  writing : Option Ckpt
  /-- a checkpoint is due when the one being written completes (R181) -/
  ckptDue : Bool
  ckpts : List Ckpt
  sinceCut : Nat
  /-- the hold-up drain (R175): 0 none, 1 programs in progress complete, 2 drain rows are written, 3 the DRAIN_END row,
  4 complete -/
  drain : Nat
  /-- `now` at the start of the drain -/
  drainStart : Nat
  /-- DUR_DRAIN as the journal keeps it: RESULT, GUARANTEED, TIME_US -/
  lastDrain : Nat × Nat × Nat
  /-- the EPOCH of the last start that reached CXL.mem ready -/
  runEpoch : Nat
  /-- replay found the previous power-off not clean -/
  prevDirty : Bool
  huRose : Bool
  deriving DecidableEq, Repr

/-! ### Working memory (08_working_memory.md) -/

/-- An entry of a correctable-error table (R208). -/
structure CeEnt where
  loc : WmLoc
  hot : Bool
  count : Nat
  last : Nat
  deriving DecidableEq, Repr

/-- A merge-buffer entry (R205): line (byte address / 64), byte mask, data as bytes. -/
structure MergeEnt where
  line : Nat
  mask : Nat
  bytes : Tbl Nat
  deriving DecidableEq, Repr

/-- An entry of the media error table (R209). -/
structure MedErr where
  pfa : Nat
  leaf : Nat
  step : Nat
  bits : Nat
  count : Nat
  last : Nat
  deriving DecidableEq, Repr

/-- Working memory: its 8 B words by byte address / 8, the poison markers by line, the merge buffer oldest first, the
error tables by channel, the last UE location by channel, the test lines (data and check bytes) by
(channel × 2 + subchannel) × 32 + line, the media error table. -/
structure WmSt where
  words : Tbl Nat
  markers : List Nat
  merge : List MergeEnt
  ce : Tbl (List CeEnt)
  ue : Tbl (WmLoc × Nat)
  test : Tbl (Nat × Nat)
  media : List MedErr
  /-- the refresh rate applied to each DRAM, and whether it is doubled (R197) -/
  refresh : Tbl (Nat × Bool)
  /-- the training records of the almanac are to be written after CXL.mem ready, with these identities -/
  recPend : Option (List (List (Nat × Nat)))
  deriving DecidableEq, Repr

/-! ### Keys and the Meridian (09_cipher_and_meridian.md) -/

/-- A KID (R218): state, owner, references, the number of its key, whether the key store holds the key. -/
structure Kid where
  st : Nat
  owner : Nat
  refs : Nat
  key : Nat
  held : Bool
  deriving DecidableEq, Repr

/-- A vault image (R228): its generation, the number of its vault key, the keys by KID, the system sets of its copies and the PFA of the
first row of each. -/
structure Vault where
  gen : Nat
  vkey : Nat
  keys : Tbl Nat
  sets : List Nat
  first : List Nat
  deriving DecidableEq, Repr

/-- A key operation waiting or running (R223): its ring context (none for one the device makes), its operation (1 ISSUE,
2 SET_CURRENT, 3 CLEAR_CURRENT, 4 RETIRE, 5 DESTROY, 6 QUERY, 7 destroys every KID of an LD for a Sanitize or Secure
Erase, 8 destroys every KID for a life-cycle change), its operands, the KIDs it works on with the states they left, the
current KIDs of before, its phase (0 waiting, 1 flushing, 2 committing) and the JSEQ its commit must cover. -/
structure KeyOp where
  ctx : Option Nat
  op : Nat
  kid : Nat
  next : Nat
  ld : Nat
  flag : Bool
  was : List (Nat × Nat)
  cur : Tbl Nat
  phase : Nat
  jseq : Nat
  deriving DecidableEq, Repr

/-- A set of the counter/tag cache (R237): by way the metadata line it holds and whether that is dirty; its pseudo-LRU bits. -/
structure CcSet where
  ways : Tbl (Nat × Bool)
  lru : Nat
  deriving DecidableEq, Repr

/-- Keys and counters. Counter lines of the Meridian by level × 2^40 + index: MAJOR and minors; the scramble key SK and the tag key TK
(R233); the counter/tag cache by bank × 1,024 + set (R237). -/
structure CiphSt where
  kids : Tbl Kid
  cur : Tbl Nat
  vaults : List Vault
  nextKey : Nat
  ops : List KeyOp
  ctr : Tbl (Nat × Tbl Nat)
  sk : Nat
  tk : Nat
  cache : Tbl CcSet
  drbgOk : Bool
  deriving DecidableEq, Repr

/-! ### Regulation and ledgers (11_regulation_and_ledgers.md) -/

/-- Regulation: what each bucket lacks to its full size, in bytes, by class × 2 + direction (0 read, 1 write): grant,
floor and share buckets; delivered bytes of the window; classes backlogged since the window began. -/
structure RegSt where
  grant : Tbl Nat
  floor : Tbl Nat
  share : Tbl Nat
  delivered : Tbl Nat
  backSince : List Nat
  /-- classes whose miss of a kind was signalled in this window (class × 2 + kind) -/
  missed : List Nat
  /-- second of the last record, plus 1, by class -/
  logged : Tbl Nat
  deriving DecidableEq, Repr

/-- The ledger checker: what has been added to each left side by an injection or an imbalance reported to it (two's
complement, by ledger × 65,536 + index), the differences the last snapshot found, the indexes injected, the
millisecond of the last record by ledger. -/
structure LedgSt where
  delta : Tbl Int
  found : Tbl Int
  injected : List Nat
  logged : Tbl Nat
  deriving DecidableEq, Repr

/-! ### Transit rings (10_transit_rings.md) -/

/-- A fetched command in its context (R252 to R264): pair, CID, the fields of its entry, the byte offset (or folio
number) of its next unit, the completed prefix, two counts of its result, the lines fed to HASH, whether it holds a
SHA-2 engine, whether an ABORT marked it, the status and result decided for it, whether it waits (a commit, seals queued), and whether
it has started. -/
structure RCmd where
  id : Nat
  pair : Nat
  cid : Nat
  op : Nat
  fence : Bool
  irqNow : Bool
  opt : Nat
  a0 : Nat
  a1 : Nat
  len : Nat
  param : List Nat
  pos : Nat
  pre : Nat
  cntA : Nat
  cntB : Nat
  fed : List Line
  engine : Bool
  marked : Bool
  final : Option (Nat × Nat)
  waiting : Nat
  started : Bool
  deriving DecidableEq, Repr

/-- The rings: commands in flight in fetch order, the next context number, completions since the last interrupt by
pair, commands fetched and completions posted since enable by pair, and by owner × 4 + PRIO the pair that the arbiter last served with
the commands it fetched in that turn (R263). -/
structure RingSt where
  cmds : List RCmd
  nextId : Nat
  since : Tbl Nat
  fetched : Tbl Nat
  posted : Tbl Nat
  turn : Tbl (Nat × Nat)
  deriving DecidableEq, Repr

/-! ### The Voxsicel image (12_voxsicel_image.md) -/

/-- A reload in progress (R306): its unit (as IMG_RELOAD.UNIT), channel and source, `now` at its start. -/
structure Reload where
  unit : Nat
  chan : Nat
  src : Nat
  started : Nat
  deriving DecidableEq, Repr

/-- An online activation (R305): the units still to reload and those done, newest first, as numbers (0 DOME, 1 REG, 2 + c
CHAN c, 34 the standby assistant, 35 the swap, 36 the former running core); whether it rolls back; the mailbox view. -/
structure Act where
  left : List Nat
  done : List Nat
  back : Bool
  view : Nat
  deriving DecidableEq, Repr

/-- The image as it runs: what the loader's tables declare (R293), the segments each channel runs, has staged, and ran
before; the DOME, REG and assistant segments that run; the running and the staged image; the images on the boot slots by
slot × 2 + copy; the image a boot attempt has found, with its source; bytes of a transfer in progress; the reload and the
activation in progress; whether a script bank waits for its flip; the cores released, by letter. -/
structure ImgSt where
  chans : Nat
  plates : Nat
  wmap : List Nat
  sysSets : Tbl (Nat × Bool)
  pdTree : Tbl (Nat × List Nat)
  segs : Tbl ChanSeg
  nextSegs : Tbl ChanSeg
  oldSegs : Tbl ChanSeg
  dome : Option Scripts
  reg : Option (List RegRec)
  asstA : Option AsstSeg
  asstB : Option AsstSeg
  run : Option Image
  stage : Option Image
  copies : Tbl Image
  bootSets : Tbl Nat
  boot : Option (Nat × Image)
  xfer : Bool
  reload : Option Reload
  act : Option Act
  deriving DecidableEq, Repr

end Sys2Proof.Machine
end

