-- ==== Sys2Proof/Machine/Geom.lean ====
section
/-! DEFINITION. Where data lies: physical frame addresses, stripe sets and slots (03_translation.md R50 to R52), the
reference offsets (05_drift_and_references.md R117, R118), the folio and frame entries (R49, R53). -/

namespace Sys2Proof.Machine

/-! ### Physical frame addresses (R50) -/

def pfaCh (p : Nat) : Nat := p / 2 ^ 31 % 32
def pfaDie (p : Nat) : Nat := p / 2 ^ 28 % 8
def pfaPlane (p : Nat) : Nat := p / 2 ^ 26 % 4
def pfaField (p : Nat) : Nat := p / 2 ^ 13 % 8192
def pfaRow (p : Nat) : Nat := p % 8192

/-- The PFA of a channel, die, plane, field and row. -/
def mkPfa (ch die plane field row : Nat) : Nat :=
  ch * 2 ^ 31 + die * 2 ^ 28 + plane * 2 ^ 26 + field * 2 ^ 13 + row

/-- The number of a die: channel × 8 + die. -/
def pfaDieNo (p : Nat) : Nat := p / 2 ^ 28
/-- The number of a plane: (channel × 8 + die) × 4 + plane. -/
def pfaPlaneNo (p : Nat) : Nat := p / 2 ^ 26
/-- The field number PFA[35:13]. -/
def pfaFieldNo (p : Nat) : Nat := p / 2 ^ 13

/-! ### Stripe groups, sets and slots (R51, R52) -/

/-- The channel of member k of group g. -/
def memberCh (g k : Nat) : Nat := 16 * (g / 16) + 2 * k + g / 8 % 2
/-- The die of every member of group g. -/
def memberDie (g : Nat) : Nat := g % 8

/-- The stripe group of a die (04_media_channels.md R84). -/
def groupOf (ch die : Nat) : Nat := 16 * (ch / 16) + 8 * (ch % 2) + die
/-- Which member of its group a channel carries. -/
def memberOf (ch : Nat) : Nat := ch % 16 / 2

/-- The SET value of a PFA. -/
def setOf (p : Nat) : Nat := groupOf (pfaCh p) (pfaDie p) * 32768 + pfaPlane p * 8192 + pfaField p
def setGroup (set : Nat) : Nat := set / 32768
def setPlane (set : Nat) : Nat := set / 8192 % 4
def setField (set : Nat) : Nat := set % 8192

/-- Row `row` of member k of a set. -/
def setPfa (set k row : Nat) : Nat :=
  mkPfa (memberCh (setGroup set) k) (memberDie (setGroup set)) (setPlane set) (setField set) row

/-- The field number of member k of a set. -/
def setFieldNo (set k : Nat) : Nat := pfaFieldNo (setPfa set k 0)

/-- The data units of a set. -/
def setUnits : Nat := 57330

/-- The parity member of data row r. -/
def parityOf (r : Nat) : Nat := r % 8

/-- The member that holds a slot. -/
def slotMember (slot : Nat) : Nat :=
  let m := slot % 7
  let p := parityOf (slot / 7)
  if m < p then m else m + 1

/-- The PFA of a slot of a set. -/
def slotPfa (set slot : Nat) : Nat := setPfa set (slotMember slot) (slot / 7 + 2)

/-- The slot of a data row's member, `none` for the parity member and the star rows. -/
def slotOf (p : Nat) : Option Nat :=
  let row := pfaRow p
  if row < 2 then none
  else
    let r := row - 2
    let k := memberOf (pfaCh p)
    if k = parityOf r then none else some (r * 7 + (if k < parityOf r then k else k - 1))

/-- The plate of a channel (04_media_channels.md R84). -/
def plateOf (ch : Nat) : Nat := ch / 2

/-! ### Folio and frame entries -/

def foType (e : Nat) : Nat := e / 2 ^ 62 % 4
def foKid (e : Nat) : Nat := e / 2 ^ 50 % 4096
def foSealPend (e : Nat) : Bool := e.testBit 49
def foPoisonAny (e : Nat) : Bool := e.testBit 48
def foLoc (e : Nat) : Nat := e % 2 ^ 36
def foSet (e : Nat) : Nat := e / 2 ^ 16 % 2 ^ 20
def foSlot (e : Nat) : Nat := e % 2 ^ 16
def foTable (e : Nat) : Nat := e % 2 ^ 28

/-- A folio entry (R49). -/
def mkFolio (typ kid : Nat) (pend poison : Bool) (loc : Nat) : Nat :=
  typ * 2 ^ 62 + kid * 2 ^ 50 + pend.toNat * 2 ^ 49 + poison.toNat * 2 ^ 48 + loc

def foSetSeal (b : Bool) (e : Nat) : Nat := mkFolio (foType e) (foKid e) b (foPoisonAny e) (foLoc e)
def foSetPoison (b : Bool) (e : Nat) : Nat := mkFolio (foType e) (foKid e) (foSealPend e) b (foLoc e)

def frState (e : Nat) : Nat := e / 2 ^ 62 % 4
def frLpois (e : Nat) : Bool := e.testBit 61
def frLoc (e : Nat) : Nat := e % 2 ^ 36

/-- A frame entry (R53). -/
def mkFrame (st : Nat) (lpois : Bool) (loc : Nat) : Nat := st * 2 ^ 62 + lpois.toNat * 2 ^ 61 + loc

/-- What a frame of a folio is: its frame entry, that of a whole folio made from its run (R52, R56), unwritten for an
unmapped folio. `tbl` gives the frame table's entry. -/
def frameEntry (e i : Nat) (tbl : Nat → Nat) : Nat :=
  if foType e = 1 then mkFrame 1 (foPoisonAny e) (slotPfa (foSet e) (foSlot e + i))
  else if foType e = 2 then tbl i
  else 0

/-! ### Reference offsets (R116 to R118) -/

/-- A byte as a signed number. -/
def sbyte (b : Nat) : Int := if b % 256 < 128 then (b % 256 : Nat) else ((b % 256 : Nat) : Int) - 256

/-- The 15 offsets at age position `pos`; `tbl c k` is the table's entry of class c and offset k. DESIGN CHOICE, notes/assumptions/35.md. -/
def refOffsets (tbl : Nat → Nat → Int) (pos : Nat) : List Int :=
  let p := min pos 70
  let lo := min (p / 4) 14
  let frac : Int := (p - 4 * lo : Nat)
  (List.range 15).map (fun j =>
    let k := j + 1
    let v := tbl lo k + Int.tdiv ((tbl (lo + 1) k - tbl lo k) * frac) 4
    min 127 (max (-128) v))

/-- The offset table of CHAN segments for MEDIA_GEN 0x0001: entry (c × (k + 1) + 2) div 4. -/
def gen1Table (c k : Nat) : Nat := (c * (k + 1) + 2) / 4

/-! ### Addresses of an LD -/

/-- The key of a 64 B line of an LD. -/
def lineKey (ld dpa : Nat) : Nat := ld * 2 ^ 46 + dpa / 64
/-- The folio index of a DPA. -/
def folioOf (dpa : Nat) : Nat := dpa / 2 ^ 20
/-- The frame of a DPA in its folio. -/
def frameOf (dpa : Nat) : Nat := dpa / 2 ^ 14 % 64
/-- The line of a DPA in its frame, 0 to 255. -/
def lineOf (dpa : Nat) : Nat := dpa / 64 % 256
/-- The DPA of a line of a frame. -/
def dpaOf (folio frame line : Nat) : Nat := folio * 2 ^ 20 + frame * 2 ^ 14 + line * 64

/-- Merge the bytes of `mask` of `new` over `old`. -/
def mergeLine (mask : Nat) (old new : Line) : Line :=
  let m : Nat := (List.range 64).foldl (fun a i => if mask.testBit i then a + 255 * 2 ^ (8 * i) else a) 0
  let mm := BitVec.ofNat 512 m
  (new &&& mm) ||| (old &&& ~~~ mm)

/-- A byte mask that covers the line. -/
def fullMask : Nat := 2 ^ 64 - 1

end Sys2Proof.Machine
end

