-- ==== Sys2Proof/Config.lean ====
section
/-! DEFINITION. The values the spec leaves open, as constants without a body: no proof can see what they are. A step
that needs an open value applies one of them to the state's counter of free values (Machine.State.freeCnt) or to the
operands the value depends on. notes/assumptions names each. -/

namespace Sys2Proof.Config

/-- A fresh 64-bit value the spec does not state, by the counter of free values. -/
opaque freeWord : Nat → BitVec 64
/-- A fresh 64 B line the spec does not state. -/
opaque freeLine : Nat → BitVec 512
/-- A fresh value of any width, as a number. -/
opaque freeNat : Nat → Nat

/-- AES-KW of a key under the device key, left uninterpreted (17_almanac_life_cycle_finder.md R391). -/
opaque wrapKey (key : BitVec 256) : List Byte
/-- AES-KW of the 512-bit key with a number under the vault key with a number: the 72 B of a vault entry
(09_cipher_and_meridian.md R228), left uninterpreted. -/
opaque wrapEntry (vkey key : Nat) : BitVec 576
/-- ECDSA P-384 over SHA-384 of the first bytes of a token or image, left uninterpreted
(12_voxsicel_image.md R289, 17_almanac_life_cycle_finder.md R407). -/
opaque sigOk (body key sig : List Byte) : Bool

/-- The device's SPDM identity: the P-384 certificate chain rooted in its OTP identity, as a number (02_host_port.md R41). -/
opaque certChain : Nat

/-- Numbers of the device's identity and capabilities that a mailbox command returns and the spec does not state, by opcode × 256
+ position in the answer (02_host_port.md R35). -/
opaque deviceConst : Nat → Nat

/-- AES-256-XTS of a data unit under the key with this number (04_media_channels.md R89, 07_durability.md R167, 09_cipher_and_meridian.md
R215), left uninterpreted: IEEE 1619 is no part of the spec. -/
opaque xts {n : Nat} (key : Nat) (tweak : BitVec 128) (data : BitVec n) : BitVec n
/-- AES-256 of one block (09_cipher_and_meridian.md R233), left uninterpreted. -/
opaque aes256 (key : BitVec 256) (block : BitVec 128) : BitVec 128
/-- The mask MIX yields for a line index, a level and a counter under SK: any keyed permutation of the properties of
09_cipher_and_meridian.md R233 will do. -/
opaque mix (sk : BitVec 256) (index level counter : Nat) : BitVec 512
/-- The number that stands for the level of a data line in MIX and in its tag (09_cipher_and_meridian.md R233). -/
opaque dataLevel : Nat
/-- The 16 B payload of an LDCFG journal record (07_durability.md R166), by what it tells. -/
opaque ldcfgPayload (data : List Nat) : BitVec 128

end Sys2Proof.Config
end

