-- ==== Sys2Proof/Machine/RegMap.lean ====
section
/-! DEFINITION. The register maps of the BAR0 blocks: every field of every register by name, and the list of the
registers (00_scope.md R7 and the "registers" section of each chapter). One home for each field. -/

namespace Sys2Proof.Machine

/-- The access codes of 00_scope.md R3. -/
inductive Acc where
  | rw | ro | wo | w1c | w1s | rc | rwl
  deriving DecidableEq, Repr

/-- The values a field admits; every other value is a reserved encoding (00_scope.md R4). -/
inductive Legal where
  /-- every value -/
  | any
  /-- the values from `lo` to `hi` -/
  | range (lo hi : Nat)
  /-- multiples of `k` from `lo` to `hi` -/
  | mult (lo hi k : Nat)
  /-- two's complement of `w` bits, from -m to +m -/
  | signed (w m : Nat)
  deriving DecidableEq, Repr

/-- Does the field's table admit value `v`? -/
def Legal.ok : Legal → Nat → Bool
  | .any, _ => true
  | .range lo hi, v => decide (lo ≤ v) && decide (v ≤ hi)
  | .mult lo hi k, v => decide (lo ≤ v) && decide (v ≤ hi) && v % k == 0
  | .signed w m, v => decide (v ≤ m) || decide (2 ^ w - m ≤ v)

/-- One field of a register: the BAR0 offset of its register, its lowest bit, its width, access code,
value at reset and admitted values. -/
structure Fld where
  off : Nat
  lo : Nat
  wid : Nat
  acc : Acc
  rst : Nat
  legal : Legal
  deriving DecidableEq, Repr

/-- The key of a field in the register file. -/
def Fld.key (f : Fld) : Nat := f.off * 64 + f.lo

/-- The same field of the register `d` bytes further on. -/
def Fld.shift (f : Fld) (d : Nat) : Fld := { f with off := f.off + d }

/-- The built-in values of DOME_RAILn_CFG (13_dome_power.md R316): item 0 NOM_MV, 1 UV and 2 OV in 0.5 % units,
3 DISCH_MS, 4 OFF_MIN_MS. -/
def railRst (item n : Nat) : Nat :=
  let plate := if n % 2 = 0 then [3300, 12, 12, 50, 20] else [1200, 12, 12, 50, 20]
  let row := ([[750, 12, 12, 20, 10], [850, 12, 12, 20, 10], [900, 12, 12, 20, 10], [1100, 12, 12, 20, 10],
    [1200, 12, 12, 20, 10], [1800, 12, 12, 20, 10], [3300, 12, 12, 20, 10], [12000, 16, 16, 100, 20]] : List (List Nat)).getD n plate
  row.getD item 0

/-- A register of BAR0, or an array of them: name, offset of the first, stride and number of each of two
directions, width in bits, the fields of the first. -/
structure RegDesc where
  name : String
  base : Nat
  stride1 : Nat
  count1 : Nat
  stride2 : Nat
  count2 : Nat
  width : Nat
  flds : List Fld
  deriving DecidableEq, Repr

/-! ### GLB -/

/-- R15: 0b000 ACTIVE, 0b001 QUIET, 0b010 PARKED, 0b011 STANDBY. Other encodings are reserved and h -/
def F.GLB_MODE_CTL_TARGET : Fld := ⟨0x40, 0, 3, .rw, 0, (.range 0 3)⟩
/-- R15: Count of CXL.mem requests handled under R11 since the last read; saturates at 0xFFFF -/
def F.GLB_MODE_STATUS_REFUSED : Fld := ⟨0x48, 16, 16, .rc, 0, .any⟩
/-- R15: Set when a transition completes; signalled through GLB_INT_STATUS -/
def F.GLB_MODE_STATUS_MODE_DONE : Fld := ⟨0x48, 15, 1, .w1c, 0, .any⟩
/-- R15: 1: PENDING holds a target -/
def F.GLB_MODE_STATUS_PEND_VALID : Fld := ⟨0x48, 11, 1, .ro, 0, .any⟩
/-- R15: Pending target, encoded as TARGET -/
def F.GLB_MODE_STATUS_PENDING : Fld := ⟨0x48, 8, 3, .ro, 0, .any⟩
/-- R15: Source of the last transition: 0b00 start-up; 0b01 host, meaning GLB_MODE_CTL or PERST# wi -/
def F.GLB_MODE_STATUS_LAST_SRC : Fld := ⟨0x48, 6, 2, .ro, 0, .any⟩
/-- R15: 1: a transition is in progress; CURRENT shows the mode being left -/
def F.GLB_MODE_STATUS_IN_TRANSITION : Fld := ⟨0x48, 4, 1, .ro, 0, .any⟩
/-- R15: As TARGET, plus 0b100 FAULT-HALT -/
def F.GLB_MODE_STATUS_CURRENT : Fld := ⟨0x48, 0, 3, .ro, 0, .any⟩
/-- R16: LCS_CMD.DONE was set (R410) -/
def F.GLB_INT_STATUS_LCS : Fld := ⟨0x10, 22, 1, .w1c, 0, .any⟩
/-- R16: ALM_ERR_STATUS -/
def F.GLB_INT_STATUS_ALM : Fld := ⟨0x10, 21, 1, .w1c, 0, .any⟩
/-- R16: A logbook record at or above LOG_CTL.IRQ_SEV was stored (R381) -/
def F.GLB_INT_STATUS_LOG : Fld := ⟨0x10, 20, 1, .w1c, 0, .any⟩
/-- R16: SBUS_ERR_STATUS -/
def F.GLB_INT_STATUS_SBUS : Fld := ⟨0x10, 19, 1, .w1c, 0, .any⟩
/-- R16: CLK_ERR_STATUS or CLK_XOVR -/
def F.GLB_INT_STATUS_CLK : Fld := ⟨0x10, 18, 1, .w1c, 0, .any⟩
/-- R16: DOME_ERR_STATUS -/
def F.GLB_INT_STATUS_DOME : Fld := ⟨0x10, 17, 1, .w1c, 0, .any⟩
/-- R16: IMG_ERR_STATUS -/
def F.GLB_INT_STATUS_IMG : Fld := ⟨0x10, 16, 1, .w1c, 0, .any⟩
/-- R16: LEDGER_FAULT raised (R283). LEDG_STATUS.FAULT keeps the fault itself -/
def F.GLB_INT_STATUS_LEDGER : Fld := ⟨0x10, 15, 1, .w1c, 0, .any⟩
/-- R16: Regulation cause (R275) -/
def F.GLB_INT_STATUS_REG : Fld := ⟨0x10, 14, 1, .w1c, 0, .any⟩
/-- R16: RING_ERR_STATUS -/
def F.GLB_INT_STATUS_RING : Fld := ⟨0x10, 13, 1, .w1c, 0, .any⟩
/-- R16: MERID_ERR_STATUS -/
def F.GLB_INT_STATUS_MERID : Fld := ⟨0x10, 12, 1, .w1c, 0, .any⟩
/-- R16: CIPH_ERR_STATUS -/
def F.GLB_INT_STATUS_CIPH : Fld := ⟨0x10, 11, 1, .w1c, 0, .any⟩
/-- R16: WMEM_ERR_STATUS -/
def F.GLB_INT_STATUS_WMEM : Fld := ⟨0x10, 10, 1, .w1c, 0, .any⟩
/-- R16: DRIFT_ERR_STATUS -/
def F.GLB_INT_STATUS_DRIFT : Fld := ⟨0x10, 9, 1, .w1c, 0, .any⟩
/-- R16: A bit of any MCHn_ERR_STATUS; GLB_INT_MCH shows which channels -/
def F.GLB_INT_STATUS_MCH : Fld := ⟨0x10, 8, 1, .w1c, 0, .any⟩
/-- R16: FLD_WEAR_STATUS.SPREAD_HIT rose (R149) -/
def F.GLB_INT_STATUS_WEAR : Fld := ⟨0x10, 7, 1, .w1c, 0, .any⟩
/-- R16: FLD_ERR_STATUS -/
def F.GLB_INT_STATUS_FLD : Fld := ⟨0x10, 6, 1, .w1c, 0, .any⟩
/-- R16: DUR_ERR_STATUS -/
def F.GLB_INT_STATUS_DUR : Fld := ⟨0x10, 5, 1, .w1c, 0, .any⟩
/-- R16: COAL_STATUS -/
def F.GLB_INT_STATUS_COAL : Fld := ⟨0x10, 4, 1, .w1c, 0, .any⟩
/-- R16: MAPC_INV_CTL.DONE was set (R67) -/
def F.GLB_INT_STATUS_MAPC : Fld := ⟨0x10, 3, 1, .w1c, 0, .any⟩
/-- R16: XLAT_ERR_STATUS -/
def F.GLB_INT_STATUS_XLAT : Fld := ⟨0x10, 2, 1, .w1c, 0, .any⟩
/-- R16: HOST_ERR_STATUS -/
def F.GLB_INT_STATUS_HOST : Fld := ⟨0x10, 1, 1, .w1c, 0, .any⟩
/-- R16: GLB_MODE_STATUS.MODE_DONE was set (R15) -/
def F.GLB_INT_STATUS_MODE : Fld := ⟨0x10, 0, 1, .w1c, 0, .any⟩
/-- R16: LCS_CMD.DONE was set (R410) -/
def F.GLB_INT_MASK_LCS : Fld := ⟨0x18, 22, 1, .rw, 1, .any⟩
/-- R16: ALM_ERR_STATUS -/
def F.GLB_INT_MASK_ALM : Fld := ⟨0x18, 21, 1, .rw, 1, .any⟩
/-- R16: A logbook record at or above LOG_CTL.IRQ_SEV was stored (R381) -/
def F.GLB_INT_MASK_LOG : Fld := ⟨0x18, 20, 1, .rw, 1, .any⟩
/-- R16: SBUS_ERR_STATUS -/
def F.GLB_INT_MASK_SBUS : Fld := ⟨0x18, 19, 1, .rw, 1, .any⟩
/-- R16: CLK_ERR_STATUS or CLK_XOVR -/
def F.GLB_INT_MASK_CLK : Fld := ⟨0x18, 18, 1, .rw, 1, .any⟩
/-- R16: DOME_ERR_STATUS -/
def F.GLB_INT_MASK_DOME : Fld := ⟨0x18, 17, 1, .rw, 1, .any⟩
/-- R16: IMG_ERR_STATUS -/
def F.GLB_INT_MASK_IMG : Fld := ⟨0x18, 16, 1, .rw, 1, .any⟩
/-- R16: LEDGER_FAULT raised (R283). LEDG_STATUS.FAULT keeps the fault itself -/
def F.GLB_INT_MASK_LEDGER : Fld := ⟨0x18, 15, 1, .rw, 1, .any⟩
/-- R16: Regulation cause (R275) -/
def F.GLB_INT_MASK_REG : Fld := ⟨0x18, 14, 1, .rw, 1, .any⟩
/-- R16: RING_ERR_STATUS -/
def F.GLB_INT_MASK_RING : Fld := ⟨0x18, 13, 1, .rw, 1, .any⟩
/-- R16: MERID_ERR_STATUS -/
def F.GLB_INT_MASK_MERID : Fld := ⟨0x18, 12, 1, .rw, 1, .any⟩
/-- R16: CIPH_ERR_STATUS -/
def F.GLB_INT_MASK_CIPH : Fld := ⟨0x18, 11, 1, .rw, 1, .any⟩
/-- R16: WMEM_ERR_STATUS -/
def F.GLB_INT_MASK_WMEM : Fld := ⟨0x18, 10, 1, .rw, 1, .any⟩
/-- R16: DRIFT_ERR_STATUS -/
def F.GLB_INT_MASK_DRIFT : Fld := ⟨0x18, 9, 1, .rw, 1, .any⟩
/-- R16: A bit of any MCHn_ERR_STATUS; GLB_INT_MCH shows which channels -/
def F.GLB_INT_MASK_MCH : Fld := ⟨0x18, 8, 1, .rw, 1, .any⟩
/-- R16: FLD_WEAR_STATUS.SPREAD_HIT rose (R149) -/
def F.GLB_INT_MASK_WEAR : Fld := ⟨0x18, 7, 1, .rw, 1, .any⟩
/-- R16: FLD_ERR_STATUS -/
def F.GLB_INT_MASK_FLD : Fld := ⟨0x18, 6, 1, .rw, 1, .any⟩
/-- R16: DUR_ERR_STATUS -/
def F.GLB_INT_MASK_DUR : Fld := ⟨0x18, 5, 1, .rw, 1, .any⟩
/-- R16: COAL_STATUS -/
def F.GLB_INT_MASK_COAL : Fld := ⟨0x18, 4, 1, .rw, 1, .any⟩
/-- R16: MAPC_INV_CTL.DONE was set (R67) -/
def F.GLB_INT_MASK_MAPC : Fld := ⟨0x18, 3, 1, .rw, 1, .any⟩
/-- R16: XLAT_ERR_STATUS -/
def F.GLB_INT_MASK_XLAT : Fld := ⟨0x18, 2, 1, .rw, 1, .any⟩
/-- R16: HOST_ERR_STATUS -/
def F.GLB_INT_MASK_HOST : Fld := ⟨0x18, 1, 1, .rw, 1, .any⟩
/-- R16: GLB_MODE_STATUS.MODE_DONE was set (R15) -/
def F.GLB_INT_MASK_MODE : Fld := ⟨0x18, 0, 1, .rw, 1, .any⟩
/-- R16: Bit n: MCHn_ERR_STATUS is not zero. The bit clears when every bit of that register has bee -/
def F.GLB_INT_MCH_CHAN : Fld := ⟨0x20, 0, 32, .ro, 0, .any⟩
/-- R421: 0: warm start. 1: PERST# leads through STANDBY to a cold start (R412) -/
def F.GLB_RESET_CTL_PERST_COLD : Fld := ⟨0x50, 0, 1, .rw, 0, .any⟩
/-- R421: 0x0 power-on, 0x1 PERST# from STANDBY, 0x2 shelf-bus RESTART, 0x3 life-cycle change, 0x4 P -/
def F.GLB_RESET_STATUS_SOURCE : Fld := ⟨0x58, 28, 4, .ro, 0, .any⟩
/-- R421: VDD_AON was lost before this start; the time-of-day was not restored (R345) -/
def F.GLB_RESET_STATUS_AON_LOST : Fld := ⟨0x58, 27, 1, .ro, 0, .any⟩
/-- R421: 0x1 WIPE, 0x2 IMAGE, 0x3 TRAIN, 0x4 REPLAY, 0x5 READY, 0x6 WARM, 0x8 HALT_WIPE, 0x9 HALT_P -/
def F.GLB_START_STATUS_STAGE : Fld := ⟨0x60, 60, 4, .ro, 0, .any⟩
/-- R421: Replay is running or ran a full scan -/
def F.GLB_START_STATUS_FULL_SCAN : Fld := ⟨0x60, 59, 1, .ro, 0, .any⟩
/-- R421: The last start was warm -/
def F.GLB_START_STATUS_WARM : Fld := ⟨0x60, 58, 1, .ro, 0, .any⟩
/-- R421: Requests handled under R418; saturates at 0xFFFF -/
def F.GLB_START_STATUS_EARLY : Fld := ⟨0x60, 32, 16, .ro, 0, .any⟩
/-- R421: PERST# release to CXL.mem ready, in µs; 0 until ready -/
def F.GLB_START_STATUS_READY_US : Fld := ⟨0x60, 0, 32, .ro, 0, .any⟩
/-- R421: XSPI_EN -/
def F.GLB_STRAPS_XSPI_EN : Fld := ⟨0x68, 7, 1, .ro, 0, .any⟩
/-- R421: SHELF_ID[5:0] -/
def F.GLB_STRAPS_SHELF_ID : Fld := ⟨0x68, 0, 6, .ro, 0, .any⟩

/-- The registers of block GLB. -/
def regsGLB : List RegDesc := [
  ⟨"GLB_MODE_CTL", 0x40, 0x0, 1, 0x0, 1, 32, [F.GLB_MODE_CTL_TARGET]⟩,
  ⟨"GLB_MODE_STATUS", 0x48, 0x0, 1, 0x0, 1, 32, [F.GLB_MODE_STATUS_REFUSED, F.GLB_MODE_STATUS_MODE_DONE, F.GLB_MODE_STATUS_PEND_VALID, F.GLB_MODE_STATUS_PENDING, F.GLB_MODE_STATUS_LAST_SRC, F.GLB_MODE_STATUS_IN_TRANSITION, F.GLB_MODE_STATUS_CURRENT]⟩,
  ⟨"GLB_INT_STATUS", 0x10, 0x0, 1, 0x0, 1, 32, [F.GLB_INT_STATUS_LCS, F.GLB_INT_STATUS_ALM, F.GLB_INT_STATUS_LOG, F.GLB_INT_STATUS_SBUS, F.GLB_INT_STATUS_CLK, F.GLB_INT_STATUS_DOME, F.GLB_INT_STATUS_IMG, F.GLB_INT_STATUS_LEDGER, F.GLB_INT_STATUS_REG, F.GLB_INT_STATUS_RING, F.GLB_INT_STATUS_MERID, F.GLB_INT_STATUS_CIPH, F.GLB_INT_STATUS_WMEM, F.GLB_INT_STATUS_DRIFT, F.GLB_INT_STATUS_MCH, F.GLB_INT_STATUS_WEAR, F.GLB_INT_STATUS_FLD, F.GLB_INT_STATUS_DUR, F.GLB_INT_STATUS_COAL, F.GLB_INT_STATUS_MAPC, F.GLB_INT_STATUS_XLAT, F.GLB_INT_STATUS_HOST, F.GLB_INT_STATUS_MODE]⟩,
  ⟨"GLB_INT_MASK", 0x18, 0x0, 1, 0x0, 1, 32, [F.GLB_INT_MASK_LCS, F.GLB_INT_MASK_ALM, F.GLB_INT_MASK_LOG, F.GLB_INT_MASK_SBUS, F.GLB_INT_MASK_CLK, F.GLB_INT_MASK_DOME, F.GLB_INT_MASK_IMG, F.GLB_INT_MASK_LEDGER, F.GLB_INT_MASK_REG, F.GLB_INT_MASK_RING, F.GLB_INT_MASK_MERID, F.GLB_INT_MASK_CIPH, F.GLB_INT_MASK_WMEM, F.GLB_INT_MASK_DRIFT, F.GLB_INT_MASK_MCH, F.GLB_INT_MASK_WEAR, F.GLB_INT_MASK_FLD, F.GLB_INT_MASK_DUR, F.GLB_INT_MASK_COAL, F.GLB_INT_MASK_MAPC, F.GLB_INT_MASK_XLAT, F.GLB_INT_MASK_HOST, F.GLB_INT_MASK_MODE]⟩,
  ⟨"GLB_INT_MCH", 0x20, 0x0, 1, 0x0, 1, 32, [F.GLB_INT_MCH_CHAN]⟩,
  ⟨"GLB_RESET_CTL", 0x50, 0x0, 1, 0x0, 1, 32, [F.GLB_RESET_CTL_PERST_COLD]⟩,
  ⟨"GLB_RESET_STATUS", 0x58, 0x0, 1, 0x0, 1, 32, [F.GLB_RESET_STATUS_SOURCE, F.GLB_RESET_STATUS_AON_LOST]⟩,
  ⟨"GLB_START_STATUS", 0x60, 0x0, 1, 0x0, 1, 64, [F.GLB_START_STATUS_STAGE, F.GLB_START_STATUS_FULL_SCAN, F.GLB_START_STATUS_WARM, F.GLB_START_STATUS_EARLY, F.GLB_START_STATUS_READY_US]⟩,
  ⟨"GLB_STRAPS", 0x68, 0x0, 1, 0x0, 1, 32, [F.GLB_STRAPS_XSPI_EN, F.GLB_STRAPS_SHELF_ID]⟩]

/-! ### HOST -/

/-- R46: 0: common clock. 1: SRIS -/
def F.HOST_LINK_CFG_SRIS : Fld := ⟨0x10000, 4, 1, .rwl, 0, .any⟩
/-- R46: 0b00 x16, 0b01 2 × x8. Other encodings are reserved, handled as R4 states -/
def F.HOST_LINK_CFG_BIFUR : Fld := ⟨0x10000, 0, 2, .rwl, 0, (.range 0 1)⟩
/-- R46: 1: CXL.mem negotiated on port 1 -/
def F.HOST_LINK_STATUS_P1_CXLMEM : Fld := ⟨0x10008, 24, 1, .ro, 0, .any⟩
/-- R46: As P0_SPEED -/
def F.HOST_LINK_STATUS_P1_SPEED : Fld := ⟨0x10008, 20, 4, .ro, 0, .any⟩
/-- R46: As P0_WIDTH -/
def F.HOST_LINK_STATUS_P1_WIDTH : Fld := ⟨0x10008, 16, 4, .ro, 0, .any⟩
/-- R46: 1: CXL.mem negotiated on port 0 -/
def F.HOST_LINK_STATUS_P0_CXLMEM : Fld := ⟨0x10008, 8, 1, .ro, 0, .any⟩
/-- R46: 0x0 down, 0x1 2.5, 0x2 5, 0x3 8, 0x4 16, 0x5 32, 0x6 64 GT/s -/
def F.HOST_LINK_STATUS_P0_SPEED : Fld := ⟨0x10008, 4, 4, .ro, 0, .any⟩
/-- R46: 0x0 down, 0x1 x1, 0x2 x2, 0x3 x4, 0x4 x8, 0x5 x16 -/
def F.HOST_LINK_STATUS_P0_WIDTH : Fld := ⟨0x10008, 0, 4, .ro, 0, .any⟩
/-- R46: Bit n: port of LD n, 0 for port 0 and 1 for port 1. Ignored in the x16 configuration, wher -/
def F.HOST_LD_PORT_PORT : Fld := ⟨0x10010, 0, 16, .rwl, 0, .any⟩
/-- R46: IDE MAC check failed (R41) -/
def F.HOST_ERR_STATUS_IDE_FAIL : Fld := ⟨0x10040, 7, 1, .w1c, 0, .any⟩
/-- R46: Write with poison received (R31) -/
def F.HOST_ERR_STATUS_POISON_RX : Fld := ⟨0x10040, 6, 1, .w1c, 0, .any⟩
/-- R46: Access to an unbacked DPA (R25) -/
def F.HOST_ERR_STATUS_UNMAPPED : Fld := ⟨0x10040, 5, 1, .w1c, 0, .any⟩
/-- R46: Write discarded under write protection (R32) -/
def F.HOST_ERR_STATUS_WP_DISCARD : Fld := ⟨0x10040, 4, 1, .w1c, 0, .any⟩
/-- R46: Request handled under R11 -/
def F.HOST_ERR_STATUS_PARK_REFUSE : Fld := ⟨0x10040, 3, 1, .w1c, 0, .any⟩
/-- R46: A mailbox command was aborted by link-down or FLR -/
def F.HOST_ERR_STATUS_MBOX_ABORT : Fld := ⟨0x10040, 2, 1, .w1c, 0, .any⟩
/-- R46: Credit imbalance (R43) -/
def F.HOST_ERR_STATUS_CRED_OVF : Fld := ⟨0x10040, 1, 1, .w1c, 0, .any⟩
/-- R46: A port left L0 other than through ASPM -/
def F.HOST_ERR_STATUS_LINK_DOWN : Fld := ⟨0x10040, 0, 1, .w1c, 0, .any⟩
/-- R46: Count of poisoned read responses; saturates at 0xFFFF_FFFF -/
def F.HOST_POISON_SENT : Fld := ⟨0x10048, 0, 32, .rc, 0, .any⟩
/-- R46: M2S RwD credits free in the device -/
def F.HOST_CRED_P0_RWD_FREE : Fld := ⟨0x10080, 16, 16, .ro, 512, .any⟩
/-- R46: M2S Req credits free in the device -/
def F.HOST_CRED_P0_REQ_FREE : Fld := ⟨0x10080, 0, 16, .ro, 1024, .any⟩
/-- R46: M2S RwD credits free in the device -/
def F.HOST_CRED_P1_RWD_FREE : Fld := ⟨0x10088, 16, 16, .ro, 0, .any⟩
/-- R46: M2S Req credits free in the device -/
def F.HOST_CRED_P1_REQ_FREE : Fld := ⟨0x10088, 0, 16, .ro, 0, .any⟩
/-- R46: 1: the LD is allocated and reachable -/
def F.HOST_LD_STATUS_ENABLED (n : Nat) : Fld := ⟨(0x10100 + n * 0x8), 63, 1, .ro, 0, .any⟩
/-- R46: Port serving the LD -/
def F.HOST_LD_STATUS_PORT (n : Nat) : Fld := ⟨(0x10100 + n * 0x8), 62, 1, .ro, 0, .any⟩
/-- R46: Bit 56 LEDGER_FAULT, bit 57 last reserve, bit 58 sanitize. Any bit set: write-protected -/
def F.HOST_LD_STATUS_WP_CAUSE (n : Nat) : Fld := ⟨(0x10100 + n * 0x8), 56, 3, .ro, 0, .any⟩
/-- R46: Static capacity plus added DC extents, in 256 MiB blocks -/
def F.HOST_LD_STATUS_CAP_BLOCKS (n : Nat) : Fld := ⟨(0x10100 + n * 0x8), 0, 24, .ro, 0, .any⟩

/-- The registers of block HOST. -/
def regsHOST : List RegDesc := [
  ⟨"HOST_LINK_CFG", 0x10000, 0x0, 1, 0x0, 1, 32, [F.HOST_LINK_CFG_SRIS, F.HOST_LINK_CFG_BIFUR]⟩,
  ⟨"HOST_LINK_STATUS", 0x10008, 0x0, 1, 0x0, 1, 32, [F.HOST_LINK_STATUS_P1_CXLMEM, F.HOST_LINK_STATUS_P1_SPEED, F.HOST_LINK_STATUS_P1_WIDTH, F.HOST_LINK_STATUS_P0_CXLMEM, F.HOST_LINK_STATUS_P0_SPEED, F.HOST_LINK_STATUS_P0_WIDTH]⟩,
  ⟨"HOST_LD_PORT", 0x10010, 0x0, 1, 0x0, 1, 32, [F.HOST_LD_PORT_PORT]⟩,
  ⟨"HOST_ERR_STATUS", 0x10040, 0x0, 1, 0x0, 1, 32, [F.HOST_ERR_STATUS_IDE_FAIL, F.HOST_ERR_STATUS_POISON_RX, F.HOST_ERR_STATUS_UNMAPPED, F.HOST_ERR_STATUS_WP_DISCARD, F.HOST_ERR_STATUS_PARK_REFUSE, F.HOST_ERR_STATUS_MBOX_ABORT, F.HOST_ERR_STATUS_CRED_OVF, F.HOST_ERR_STATUS_LINK_DOWN]⟩,
  ⟨"HOST_POISON_SENT", 0x10048, 0x0, 1, 0x0, 1, 32, [F.HOST_POISON_SENT]⟩,
  ⟨"HOST_CRED_P0", 0x10080, 0x0, 1, 0x0, 1, 32, [F.HOST_CRED_P0_RWD_FREE, F.HOST_CRED_P0_REQ_FREE]⟩,
  ⟨"HOST_CRED_P1", 0x10088, 0x0, 1, 0x0, 1, 32, [F.HOST_CRED_P1_RWD_FREE, F.HOST_CRED_P1_REQ_FREE]⟩,
  ⟨"HOST_LDn_STATUS", 0x10100, 0x8, 16, 0x0, 1, 64, [F.HOST_LD_STATUS_ENABLED 0, F.HOST_LD_STATUS_PORT 0, F.HOST_LD_STATUS_WP_CAUSE 0, F.HOST_LD_STATUS_CAP_BLOCKS 0]⟩]

/-! ### XLAT -/

/-- R78: Working-memory byte address of the map region, 4 KiB aligned -/
def F.XLAT_MAP_BASE : Fld := ⟨0x20000, 12, 52, .rwl, 0, .any⟩
/-- R78: Working-memory byte address of the frame pool, 1 GiB aligned -/
def F.XLAT_POOL_BASE : Fld := ⟨0x20008, 30, 34, .rwl, 0, .any⟩
/-- R78: Critical watermark, in 1/256 of the pool -/
def F.XLAT_POOL_CFG_CRIT_WM : Fld := ⟨0x20010, 16, 8, .rwl, 4, .any⟩
/-- R78: Low watermark, in 1/256 of the pool -/
def F.XLAT_POOL_CFG_LOW_WM : Fld := ⟨0x20010, 8, 8, .rwl, 16, .any⟩
/-- R78: Pool size in GiB, 8 to 128. Other values are reserved, handled as R4 states -/
def F.XLAT_POOL_CFG_POOL_GIB : Fld := ⟨0x20010, 0, 8, .rwl, 32, (.range 8 128)⟩
/-- R78: Free tables below CRIT_WM -/
def F.XLAT_POOL_STATUS_CRIT : Fld := ⟨0x20018, 31, 1, .ro, 0, .any⟩
/-- R78: Free tables below LOW_WM -/
def F.XLAT_POOL_STATUS_LOW : Fld := ⟨0x20018, 30, 1, .ro, 0, .any⟩
/-- R78: Free frame tables, up to 2^28 at a 128 GiB pool -/
def F.XLAT_POOL_STATUS_FREE : Fld := ⟨0x20018, 0, 29, .ro, 0, .any⟩
/-- R78: Uncorrectable error on a map line fill (R70) -/
def F.XLAT_ERR_STATUS_MAP_UE : Fld := ⟨0x20020, 3, 1, .w1c, 0, .any⟩
/-- R78: Folio entry with reserved TYPE (R49) -/
def F.XLAT_ERR_STATUS_TYPE_BAD : Fld := ⟨0x20020, 2, 1, .w1c, 0, .any⟩
/-- R78: CRIT was entered -/
def F.XLAT_ERR_STATUS_POOL_CRIT : Fld := ⟨0x20020, 1, 1, .w1c, 0, .any⟩
/-- R78: LOW was entered -/
def F.XLAT_ERR_STATUS_POOL_LOW : Fld := ⟨0x20020, 0, 1, .w1c, 0, .any⟩
/-- R78: 1: translate the line below without accessing data -/
def F.XLAT_PROBE_GO : Fld := ⟨0x20030, 63, 1, .wo, 0, .any⟩
/-- R78: LD number -/
def F.XLAT_PROBE_LD : Fld := ⟨0x20030, 52, 4, .wo, 0, .any⟩
/-- R78: Byte address; bits [5:0] are ignored -/
def F.XLAT_PROBE_DPA : Fld := ⟨0x20030, 0, 52, .wo, 0, .any⟩
/-- R78: 1: the result is valid. A new GO clears it -/
def F.XLAT_PROBE_RESULT_DONE : Fld := ⟨0x20038, 63, 1, .ro, 0, .any⟩
/-- R78: 0b000 unbacked, 0b001 coalescing buffer, 0b010 staging, 0b011 media (whole), 0b100 media ( -/
def F.XLAT_PROBE_RESULT_SOURCE : Fld := ⟨0x20038, 60, 3, .ro, 0, .any⟩
/-- R78: Folio's KID -/
def F.XLAT_PROBE_RESULT_KID : Fld := ⟨0x20038, 36, 12, .ro, 0, .any⟩
/-- R78: PFA for media, frame token for staging, line token for the coalescing buffer, 0 otherwise -/
def F.XLAT_PROBE_RESULT_LOC : Fld := ⟨0x20038, 0, 36, .ro, 0, .any⟩
/-- R78: Folio count of the array -/
def F.XLAT_LD_MAP_LEN (n : Nat) : Fld := ⟨(0x20100 + n * 0x8), 32, 32, .ro, 0, .any⟩
/-- R78: Offset from XLAT_MAP_BASE, in 4 KiB units -/
def F.XLAT_LD_MAP_OFF (n : Nat) : Fld := ⟨(0x20100 + n * 0x8), 0, 32, .ro, 0, .any⟩

/-- The registers of block XLAT. -/
def regsXLAT : List RegDesc := [
  ⟨"XLAT_MAP_BASE", 0x20000, 0x0, 1, 0x0, 1, 64, [F.XLAT_MAP_BASE]⟩,
  ⟨"XLAT_POOL_BASE", 0x20008, 0x0, 1, 0x0, 1, 64, [F.XLAT_POOL_BASE]⟩,
  ⟨"XLAT_POOL_CFG", 0x20010, 0x0, 1, 0x0, 1, 32, [F.XLAT_POOL_CFG_CRIT_WM, F.XLAT_POOL_CFG_LOW_WM, F.XLAT_POOL_CFG_POOL_GIB]⟩,
  ⟨"XLAT_POOL_STATUS", 0x20018, 0x0, 1, 0x0, 1, 32, [F.XLAT_POOL_STATUS_CRIT, F.XLAT_POOL_STATUS_LOW, F.XLAT_POOL_STATUS_FREE]⟩,
  ⟨"XLAT_ERR_STATUS", 0x20020, 0x0, 1, 0x0, 1, 32, [F.XLAT_ERR_STATUS_MAP_UE, F.XLAT_ERR_STATUS_TYPE_BAD, F.XLAT_ERR_STATUS_POOL_CRIT, F.XLAT_ERR_STATUS_POOL_LOW]⟩,
  ⟨"XLAT_PROBE", 0x20030, 0x0, 1, 0x0, 1, 64, [F.XLAT_PROBE_GO, F.XLAT_PROBE_LD, F.XLAT_PROBE_DPA]⟩,
  ⟨"XLAT_PROBE_RESULT", 0x20038, 0x0, 1, 0x0, 1, 64, [F.XLAT_PROBE_RESULT_DONE, F.XLAT_PROBE_RESULT_SOURCE, F.XLAT_PROBE_RESULT_KID, F.XLAT_PROBE_RESULT_LOC]⟩,
  ⟨"XLAT_LDn_MAP", 0x20100, 0x8, 16, 0x0, 1, 64, [F.XLAT_LD_MAP_LEN 0, F.XLAT_LD_MAP_OFF 0]⟩]

/-! ### MAPC -/

/-- R79: 1: a tag miss fills all eight sectors (R61) -/
def F.MAPC_CTL_FILL_LINE : Fld := ⟨0x30000, 1, 1, .rw, 0, .any⟩
/-- R79: Cache enable (R68) -/
def F.MAPC_CTL_EN : Fld := ⟨0x30000, 0, 1, .rw, 1, .any⟩
/-- R79: Scratchpad conversion running (R69) -/
def F.MAPC_STATUS_CONV_BUSY : Fld := ⟨0x30008, 4, 1, .ro, 0, .any⟩
/-- R79: Maintenance operation running -/
def F.MAPC_STATUS_INV_BUSY : Fld := ⟨0x30008, 3, 1, .ro, 0, .any⟩
/-- R79: Enabled while STALE; cleared by INV_ALL -/
def F.MAPC_STATUS_STALE_EN : Fld := ⟨0x30008, 2, 1, .ro, 0, .any⟩
/-- R79: Contents may be stale; cleared by INV_ALL -/
def F.MAPC_STATUS_STALE : Fld := ⟨0x30008, 1, 1, .ro, 0, .any⟩
/-- R79: Writeback after EN cleared -/
def F.MAPC_STATUS_DRAINING : Fld := ⟨0x30008, 0, 1, .ro, 0, .any⟩
/-- R79: 0 to 4 ways converted. Values 5 to 7 are reserved, handled as R4 states. A write while CON -/
def F.MAPC_SCRATCH_WAYS : Fld := ⟨0x30010, 0, 3, .rw, 0, (.range 0 4)⟩
/-- R79: Map line address L of the first line -/
def F.MAPC_INV_ADDR_LINE : Fld := ⟨0x30018, 0, 31, .rw, 0, .any⟩
/-- R79: 1: start the operation (R67) -/
def F.MAPC_INV_CTL_GO : Fld := ⟨0x30020, 31, 1, .wo, 0, .any⟩
/-- R79: Operation complete -/
def F.MAPC_INV_CTL_DONE : Fld := ⟨0x30020, 30, 1, .w1c, 0, .any⟩
/-- R79: 0b00 WB, 0b01 INV, 0b10 INV_ALL. 0b11 is reserved, handled as R4 states -/
def F.MAPC_INV_CTL_OP : Fld := ⟨0x30020, 24, 2, .rw, 0, (.range 0 2)⟩
/-- R79: Number of lines from LINE -/
def F.MAPC_INV_CTL_LINES : Fld := ⟨0x30020, 0, 24, .rw, 0, .any⟩
/-- R79: Current LFSR state. A write of 0 is ignored -/
def F.MAPC_SLICE_LFSR_STATE (n : Nat) : Fld := ⟨(0x30040 + n * 0x8), 0, 16, .rw, 44257, (.range 1 65535)⟩
/-- R79: Bank stalls since the last read; saturates at 0xFFFF_FFFF -/
def F.MAPC_STALL_CNT : Fld := ⟨0x30080, 0, 32, .rc, 0, .any⟩
/-- R79: Doomed fills since the last read; saturates at 0xFFFF_FFFF -/
def F.MAPC_DOOM_CNT : Fld := ⟨0x30088, 0, 32, .rc, 0, .any⟩

/-- The registers of block MAPC. -/
def regsMAPC : List RegDesc := [
  ⟨"MAPC_CTL", 0x30000, 0x0, 1, 0x0, 1, 32, [F.MAPC_CTL_FILL_LINE, F.MAPC_CTL_EN]⟩,
  ⟨"MAPC_STATUS", 0x30008, 0x0, 1, 0x0, 1, 32, [F.MAPC_STATUS_CONV_BUSY, F.MAPC_STATUS_INV_BUSY, F.MAPC_STATUS_STALE_EN, F.MAPC_STATUS_STALE, F.MAPC_STATUS_DRAINING]⟩,
  ⟨"MAPC_SCRATCH", 0x30010, 0x0, 1, 0x0, 1, 32, [F.MAPC_SCRATCH_WAYS]⟩,
  ⟨"MAPC_INV_ADDR", 0x30018, 0x0, 1, 0x0, 1, 64, [F.MAPC_INV_ADDR_LINE]⟩,
  ⟨"MAPC_INV_CTL", 0x30020, 0x0, 1, 0x0, 1, 32, [F.MAPC_INV_CTL_GO, F.MAPC_INV_CTL_DONE, F.MAPC_INV_CTL_OP, F.MAPC_INV_CTL_LINES]⟩,
  ⟨"MAPC_SLICEs_LFSR", 0x30040, 0x8, 8, 0x0, 1, 32, [F.MAPC_SLICE_LFSR_STATE 0]⟩,
  ⟨"MAPC_STALL_CNT", 0x30080, 0x0, 1, 0x0, 1, 32, [F.MAPC_STALL_CNT]⟩,
  ⟨"MAPC_DOOM_CNT", 0x30088, 0x0, 1, 0x0, 1, 32, [F.MAPC_DOOM_CNT]⟩]

/-! ### COAL -/

/-- R80: Run hold in µs, 0 to 1,000; default 100 µs (R441). Other values are reserved, handled as R -/
def F.COAL_CTL_RUN_US : Fld := ⟨0x40000, 16, 10, .rw, 100, (.range 0 1000)⟩
/-- R80: Gather timeout in µs, 8 to 1,000; default 64 µs. Other values are reserved, handled as R4  -/
def F.COAL_CTL_GATHER_US : Fld := ⟨0x40000, 0, 10, .rw, 64, (.range 8 1000)⟩
/-- R80: Working-memory byte address of the staging window, 16 KiB aligned -/
def F.COAL_STAGE_BASE : Fld := ⟨0x40008, 14, 50, .rwl, 0, .any⟩
/-- R80: Frame tokens, 1,024 to 65,536 in multiples of 1,024 (16 MiB to 1 GiB). Other values are re -/
def F.COAL_STAGE_CFG_FRAMES : Fld := ⟨0x40010, 0, 17, .rwl, 32768, (.mult 1024 65536 1024)⟩
/-- R80: Free line tokens, up to 393,216 -/
def F.COAL_TOKENS_LINE_FREE : Fld := ⟨0x40018, 32, 19, .ro, 0, .any⟩
/-- R80: Free frame tokens -/
def F.COAL_TOKENS_FRAME_FREE : Fld := ⟨0x40018, 0, 17, .ro, 0, .any⟩
/-- R80: Free line tokens below which the oldest gathers close (R71) -/
def F.COAL_WM_LINE_LOW : Fld := ⟨0x40020, 16, 16, .rw, 16384, .any⟩
/-- R80: Free frame tokens below which the staging programmer gives staged frames priority over col -/
def F.COAL_WM_FRAME_LOW : Fld := ⟨0x40020, 0, 16, .rw, 1024, .any⟩
/-- R80: Free frame tokens fell below FRAME_LOW -/
def F.COAL_STATUS_FRAME_LOW_HIT : Fld := ⟨0x40028, 3, 1, .w1c, 0, .any⟩
/-- R80: A gather closed early for want of a descriptor -/
def F.COAL_STATUS_GATHER_FULL : Fld := ⟨0x40028, 2, 1, .w1c, 0, .any⟩
/-- R80: Frame tokens exhausted; writes held by credit (R74) -/
def F.COAL_STATUS_FRAME_EMPTY : Fld := ⟨0x40028, 1, 1, .w1c, 0, .any⟩
/-- R80: Free line tokens fell below LINE_LOW -/
def F.COAL_STATUS_LINE_LOW_HIT : Fld := ⟨0x40028, 0, 1, .w1c, 0, .any⟩

/-- The registers of block COAL. -/
def regsCOAL : List RegDesc := [
  ⟨"COAL_CTL", 0x40000, 0x0, 1, 0x0, 1, 32, [F.COAL_CTL_RUN_US, F.COAL_CTL_GATHER_US]⟩,
  ⟨"COAL_STAGE_BASE", 0x40008, 0x0, 1, 0x0, 1, 64, [F.COAL_STAGE_BASE]⟩,
  ⟨"COAL_STAGE_CFG", 0x40010, 0x0, 1, 0x0, 1, 32, [F.COAL_STAGE_CFG_FRAMES]⟩,
  ⟨"COAL_TOKENS", 0x40018, 0x0, 1, 0x0, 1, 64, [F.COAL_TOKENS_LINE_FREE, F.COAL_TOKENS_FRAME_FREE]⟩,
  ⟨"COAL_WM", 0x40020, 0x0, 1, 0x0, 1, 32, [F.COAL_WM_LINE_LOW, F.COAL_WM_FRAME_LOW]⟩,
  ⟨"COAL_STATUS", 0x40028, 0x0, 1, 0x0, 1, 32, [F.COAL_STATUS_FRAME_LOW_HIT, F.COAL_STATUS_GATHER_FULL, F.COAL_STATUS_FRAME_EMPTY, F.COAL_STATUS_LINE_LOW_HIT]⟩]

/-! ### MCH -/

/-- R108: Idle time in µs before the PHY sleeps in QUIET, 1 to 255. 0 is reserved, handled as R4 sta -/
def F.MCH_CTL_SLEEP_US (n : Nat) : Fld := ⟨(0x100000 + n * 0x10000), 8, 8, .rw, 64, (.range 1 255)⟩
/-- R108: Leaf buffer enable (R101) -/
def F.MCH_CTL_LBUF_EN (n : Nat) : Fld := ⟨(0x100000 + n * 0x10000), 1, 1, .rw, 1, .any⟩
/-- R108: Read-ahead enable (R103) -/
def F.MCH_CTL_RA_EN (n : Nat) : Fld := ⟨(0x100000 + n * 0x10000), 0, 1, .rw, 1, .any⟩
/-- R108: One bit per die: 1 means trained and identified -/
def F.MCH_STATUS_DIE_OK (n : Nat) : Fld := ⟨(0x100008 + n * 0x10000), 16, 8, .ro, 0, .any⟩
/-- R108: 0x0 OFF, 0x1 TRAINING, 0x2 ONLINE, 0x3 SLEEP, 0x4 QUIESCE, 0x5 RELOAD, 0x6 RETRAIN, 0x7 CH -/
def F.MCH_STATUS_STATE (n : Nat) : Fld := ⟨(0x100008 + n * 0x10000), 8, 4, .ro, 0, .any⟩
/-- R108: 1: the previous segment is running after a failed reload -/
def F.MCH_STATUS_ROLLBACK (n : Nat) : Fld := ⟨(0x100008 + n * 0x10000), 0, 1, .ro, 0, .any⟩
/-- R108: Leaves read ahead, 0 to 64. Values above 64 are reserved, handled as R4 states -/
def F.MCH_SCHED_CFG_RA_DEPTH (n : Nat) : Fld := ⟨(0x100010 + n * 0x10000), 16, 8, .rwl, 16, (.range 0 64)⟩
/-- R108: Consecutive leaf reads that form a stream, 2 to 15. Values 0 and 1 are reserved, handled a -/
def F.MCH_SCHED_CFG_RA_TRIGGER (n : Nat) : Fld := ⟨(0x100010 + n * 0x10000), 12, 4, .rwl, 4, (.range 2 15)⟩
/-- R108: Reads served per suspend window, 1 to 63. 0 is reserved, handled as R4 states -/
def F.MCH_SCHED_CFG_WIN_READS (n : Nat) : Fld := ⟨(0x100010 + n * 0x10000), 6, 6, .rwl, 16, (.range 1 63)⟩
/-- R108: Suspend window length in µs, 1 to 63. 0 is reserved, handled as R4 states -/
def F.MCH_SCHED_CFG_WIN_US (n : Nat) : Fld := ⟨(0x100010 + n * 0x10000), 0, 6, .rwl, 20, (.range 1 63)⟩
/-- R108: Highest window since the last read, in 0.1 % units -/
def F.MCH_UTIL_PEAK (n : Nat) : Fld := ⟨(0x100018 + n * 0x10000), 16, 10, .rc, 0, .any⟩
/-- R108: Last completed 1 ms window, in 0.1 % units; 700 is 70 % -/
def F.MCH_UTIL_LAST (n : Nat) : Fld := ⟨(0x100018 + n * 0x10000), 0, 10, .ro, 0, .any⟩
/-- R108: A present die stopped answering and was marked FAILED -/
def F.MCH_ERR_STATUS_DIE_LOST (n : Nat) : Fld := ⟨(0x100020 + n * 0x10000), 8, 1, .w1c, 0, .any⟩
/-- R108: A reload failed (R105) -/
def F.MCH_ERR_STATUS_RELOAD_FAIL (n : Nat) : Fld := ⟨(0x100020 + n * 0x10000), 7, 1, .w1c, 0, .any⟩
/-- R108: A die failed training (R88) -/
def F.MCH_ERR_STATUS_TRAIN_FAIL (n : Nat) : Fld := ⟨(0x100020 + n * 0x10000), 6, 1, .w1c, 0, .any⟩
/-- R108: A rebuild failed (R95) -/
def F.MCH_ERR_STATUS_REBUILD_FAIL (n : Nat) : Fld := ⟨(0x100020 + n * 0x10000), 5, 1, .w1c, 0, .any⟩
/-- R108: The CRC caught a miscorrection (R90) -/
def F.MCH_ERR_STATUS_MISCORR (n : Nat) : Fld := ⟨(0x100020 + n * 0x10000), 4, 1, .w1c, 0, .any⟩
/-- R108: A leaf was uncorrectable at its first reading -/
def F.MCH_ERR_STATUS_UNCORR (n : Nat) : Fld := ⟨(0x100020 + n * 0x10000), 3, 1, .w1c, 0, .any⟩
/-- R108: A fabric command timed out (R87) -/
def F.MCH_ERR_STATUS_TIMEOUT (n : Nat) : Fld := ⟨(0x100020 + n * 0x10000), 2, 1, .w1c, 0, .any⟩
/-- R108: An erase failed -/
def F.MCH_ERR_STATUS_ERASE_FAIL (n : Nat) : Fld := ⟨(0x100020 + n * 0x10000), 1, 1, .w1c, 0, .any⟩
/-- R108: A program failed -/
def F.MCH_ERR_STATUS_PROG_FAIL (n : Nat) : Fld := ⟨(0x100020 + n * 0x10000), 0, 1, .w1c, 0, .any⟩
/-- R108: 0b00 none, 0b01 OK, 0b10 ROLLED_BACK, 0b11 FAILED -/
def F.MCH_RECONF_RESULT (n : Nat) : Fld := ⟨(0x100028 + n * 0x10000), 30, 2, .ro, 0, .any⟩
/-- R108: 1: the channel is in QUIESCE, RELOAD, RETRAIN or CHECK -/
def F.MCH_RECONF_BUSY (n : Nat) : Fld := ⟨(0x100028 + n * 0x10000), 29, 1, .ro, 0, .any⟩
/-- R108: Time from the end of QUIESCE to ONLINE in the last reload, in µs -/
def F.MCH_RECONF_LAST_US (n : Nat) : Fld := ⟨(0x100028 + n * 0x10000), 0, 24, .ro, 0, .any⟩
/-- R108: Version of the running CHAN segment -/
def F.MCH_FABRIC_ID_SEG_VER (n : Nat) : Fld := ⟨(0x100030 + n * 0x10000), 16, 16, .ro, 0, .any⟩
/-- R108: Medium generation that the segment drives -/
def F.MCH_FABRIC_ID_MEDIA_GEN (n : Nat) : Fld := ⟨(0x100030 + n * 0x10000), 0, 16, .ro, 0, .any⟩
/-- R108: Suspends and slices -/
def F.MCH_SUSP_CNT_SLICES (n : Nat) : Fld := ⟨(0x100040 + n * 0x10000), 32, 32, .rc, 0, .any⟩
/-- R108: Suspends and slices -/
def F.MCH_SUSP_CNT_SUSPENDS (n : Nat) : Fld := ⟨(0x100040 + n * 0x10000), 0, 32, .rc, 0, .any⟩
/-- R108: Read-ahead issued and wasted -/
def F.MCH_RA_CNT_WASTED (n : Nat) : Fld := ⟨(0x100048 + n * 0x10000), 32, 32, .rc, 0, .any⟩
/-- R108: Read-ahead issued and wasted -/
def F.MCH_RA_CNT_ISSUED (n : Nat) : Fld := ⟨(0x100048 + n * 0x10000), 0, 32, .rc, 0, .any⟩
/-- R108: Rebuilds by cause -/
def F.MCH_REBUILD_CNT_CONGEST (n : Nat) : Fld := ⟨(0x100050 + n * 0x10000), 32, 32, .rc, 0, .any⟩
/-- R108: Rebuilds by cause -/
def F.MCH_REBUILD_CNT_BUSY (n : Nat) : Fld := ⟨(0x100050 + n * 0x10000), 0, 32, .rc, 0, .any⟩
/-- R108: Leaf-buffer and row-latch hits -/
def F.MCH_LBUF_CNT_LATCH_HIT (n : Nat) : Fld := ⟨(0x100058 + n * 0x10000), 32, 32, .rc, 0, .any⟩
/-- R108: Leaf-buffer and row-latch hits -/
def F.MCH_LBUF_CNT_LBUF_HIT (n : Nat) : Fld := ⟨(0x100058 + n * 0x10000), 0, 32, .rc, 0, .any⟩
/-- R108: The die answered IDENT -/
def F.MCH_DIE_STATUS_PRESENT (n d : Nat) : Fld := ⟨(0x100080 + n * 0x10000 + d * 0x8), 63, 1, .ro, 0, .any⟩
/-- R108: The die failed training, or was lost -/
def F.MCH_DIE_STATUS_FAILED (n d : Nat) : Fld := ⟨(0x100080 + n * 0x10000 + d * 0x8), 62, 1, .ro, 0, .any⟩
/-- R108: 0b00 idle, 0b01 program, 0b10 erase, 0b11 reserved -/
def F.MCH_DIE_STATUS_OP (n d : Nat) : Fld := ⟨(0x100080 + n * 0x10000 + d * 0x8), 60, 2, .ro, 0, .any⟩
/-- R108: The operation is suspended -/
def F.MCH_DIE_STATUS_SUSPENDED (n d : Nat) : Fld := ⟨(0x100080 + n * 0x10000 + d * 0x8), 59, 1, .ro, 0, .any⟩
/-- R108: A forced progress slice is running -/
def F.MCH_DIE_STATUS_SLICE (n d : Nat) : Fld := ⟨(0x100080 + n * 0x10000 + d * 0x8), 58, 1, .ro, 0, .any⟩
/-- R108: Suspends since the operation started or since the last slice, 0 to 8 -/
def F.MCH_DIE_STATUS_SUSP_COUNT (n d : Nat) : Fld := ⟨(0x100080 + n * 0x10000 + d * 0x8), 52, 4, .ro, 0, .any⟩
/-- R108: Plane mask of the operation -/
def F.MCH_DIE_STATUS_PLANES (n d : Nat) : Fld := ⟨(0x100080 + n * 0x10000 + d * 0x8), 48, 4, .ro, 0, .any⟩
/-- R108: Loops completed by the operation -/
def F.MCH_DIE_STATUS_LOOPS (n d : Nat) : Fld := ⟨(0x100080 + n * 0x10000 + d * 0x8), 32, 16, .ro, 0, .any⟩
/-- R108: Field of the operation in its lowest-numbered plane -/
def F.MCH_DIE_STATUS_FIELD (n d : Nat) : Fld := ⟨(0x100080 + n * 0x10000 + d * 0x8), 0, 13, .ro, 0, .any⟩

/-- The registers of block MCH. -/
def regsMCH : List RegDesc := [
  ⟨"MCHn_CTL", 0x100000, 0x10000, 32, 0x0, 1, 32, [F.MCH_CTL_SLEEP_US 0, F.MCH_CTL_LBUF_EN 0, F.MCH_CTL_RA_EN 0]⟩,
  ⟨"MCHn_STATUS", 0x100008, 0x10000, 32, 0x0, 1, 32, [F.MCH_STATUS_DIE_OK 0, F.MCH_STATUS_STATE 0, F.MCH_STATUS_ROLLBACK 0]⟩,
  ⟨"MCHn_SCHED_CFG", 0x100010, 0x10000, 32, 0x0, 1, 32, [F.MCH_SCHED_CFG_RA_DEPTH 0, F.MCH_SCHED_CFG_RA_TRIGGER 0, F.MCH_SCHED_CFG_WIN_READS 0, F.MCH_SCHED_CFG_WIN_US 0]⟩,
  ⟨"MCHn_UTIL", 0x100018, 0x10000, 32, 0x0, 1, 32, [F.MCH_UTIL_PEAK 0, F.MCH_UTIL_LAST 0]⟩,
  ⟨"MCHn_ERR_STATUS", 0x100020, 0x10000, 32, 0x0, 1, 32, [F.MCH_ERR_STATUS_DIE_LOST 0, F.MCH_ERR_STATUS_RELOAD_FAIL 0, F.MCH_ERR_STATUS_TRAIN_FAIL 0, F.MCH_ERR_STATUS_REBUILD_FAIL 0, F.MCH_ERR_STATUS_MISCORR 0, F.MCH_ERR_STATUS_UNCORR 0, F.MCH_ERR_STATUS_TIMEOUT 0, F.MCH_ERR_STATUS_ERASE_FAIL 0, F.MCH_ERR_STATUS_PROG_FAIL 0]⟩,
  ⟨"MCHn_RECONF", 0x100028, 0x10000, 32, 0x0, 1, 32, [F.MCH_RECONF_RESULT 0, F.MCH_RECONF_BUSY 0, F.MCH_RECONF_LAST_US 0]⟩,
  ⟨"MCHn_FABRIC_ID", 0x100030, 0x10000, 32, 0x0, 1, 32, [F.MCH_FABRIC_ID_SEG_VER 0, F.MCH_FABRIC_ID_MEDIA_GEN 0]⟩,
  ⟨"MCHn_SUSP_CNT", 0x100040, 0x10000, 32, 0x0, 1, 64, [F.MCH_SUSP_CNT_SLICES 0, F.MCH_SUSP_CNT_SUSPENDS 0]⟩,
  ⟨"MCHn_RA_CNT", 0x100048, 0x10000, 32, 0x0, 1, 64, [F.MCH_RA_CNT_WASTED 0, F.MCH_RA_CNT_ISSUED 0]⟩,
  ⟨"MCHn_REBUILD_CNT", 0x100050, 0x10000, 32, 0x0, 1, 64, [F.MCH_REBUILD_CNT_CONGEST 0, F.MCH_REBUILD_CNT_BUSY 0]⟩,
  ⟨"MCHn_LBUF_CNT", 0x100058, 0x10000, 32, 0x0, 1, 64, [F.MCH_LBUF_CNT_LATCH_HIT 0, F.MCH_LBUF_CNT_LBUF_HIT 0]⟩,
  ⟨"MCHn_DIEd_STATUS", 0x100080, 0x10000, 32, 0x8, 8, 64, [F.MCH_DIE_STATUS_PRESENT 0 0, F.MCH_DIE_STATUS_FAILED 0 0, F.MCH_DIE_STATUS_OP 0 0, F.MCH_DIE_STATUS_SUSPENDED 0 0, F.MCH_DIE_STATUS_SLICE 0 0, F.MCH_DIE_STATUS_SUSP_COUNT 0 0, F.MCH_DIE_STATUS_PLANES 0 0, F.MCH_DIE_STATUS_LOOPS 0 0, F.MCH_DIE_STATUS_FIELD 0 0]⟩]

/-! ### DRIFT -/

/-- R130: Class used while FORCE_EN is 1 -/
def F.DRIFT_CTL_FORCE_CLASS : Fld := ⟨0x300000, 4, 4, .rw, 0, .any⟩
/-- R130: 1: no measurements; reads at FORCE_CLASS (R121) -/
def F.DRIFT_CTL_FORCE_EN : Fld := ⟨0x300000, 3, 1, .rw, 0, .any⟩
/-- R130: 1: post rewrites (R128) -/
def F.DRIFT_CTL_AUTO_RW : Fld := ⟨0x300000, 2, 1, .rw, 1, .any⟩
/-- R130: 1: sweep on wake (R122) -/
def F.DRIFT_CTL_SWEEP_EN : Fld := ⟨0x300000, 1, 1, .rw, 1, .any⟩
/-- R130: 1: scrub pass (R129) -/
def F.DRIFT_CTL_SCRUB_EN : Fld := ⟨0x300000, 0, 1, .rw, 1, .any⟩
/-- R130: Sweep running -/
def F.DRIFT_STATUS_SWEEP_BUSY : Fld := ⟨0x300008, 31, 1, .ro, 0, .any⟩
/-- R130: 4-bit sets whose fields are not FREE and whose record has VALID = 0 (R122) -/
def F.DRIFT_STATUS_INVALID : Fld := ⟨0x300008, 0, 21, .ro, 0, .any⟩
/-- R130: Class written when both rows are rejected -/
def F.DRIFT_MEAS_CFG_FAIL_CLASS : Fld := ⟨0x300010, 16, 4, .rwl, 12, .any⟩
/-- R130: Rejection limit on the smallest E14 + E15, 1 to 576. 0 and values above 576 are reserved,  -/
def F.DRIFT_MEAS_CFG_MAX_ERR : Fld := ⟨0x300010, 0, 10, .rwl, 144, (.range 1 576)⟩
/-- R130: Read-disturb trigger in units of 65,536 array reads, 1 to 255. 0 is reserved, handled as R -/
def F.DRIFT_RW_CFG_DISTURB : Fld := ⟨0x300018, 16, 8, .rw, 64, (.range 1 255)⟩
/-- R130: Corrected-bit trigger, 1 to 20. Other values are reserved, handled as R4 states -/
def F.DRIFT_RW_CFG_BITS : Fld := ⟨0x300018, 8, 5, .rw, 12, (.range 1 20)⟩
/-- R130: Ladder-step trigger, 1 to 4. Other values are reserved, handled as R4 states -/
def F.DRIFT_RW_CFG_STEPS : Fld := ⟨0x300018, 0, 3, .rw, 3, (.range 1 4)⟩
/-- R130: Leaves sampled per field, 1 to 255. 0 is reserved, handled as R4 states -/
def F.DRIFT_SCRUB_CFG_SAMPLE : Fld := ⟨0x300020, 16, 8, .rw, 64, (.range 1 255)⟩
/-- R130: Pass length in days, 1 to 90. Other values are reserved, handled as R4 states -/
def F.DRIFT_SCRUB_CFG_DAYS : Fld := ⟨0x300020, 0, 8, .rw, 7, (.range 1 90)⟩
/-- R130: Completed passes, carried in the map checkpoint -/
def F.DRIFT_SCRUB_POS_PASSES : Fld := ⟨0x300028, 32, 32, .ro, 0, .any⟩
/-- R130: Next set the pass visits -/
def F.DRIFT_SCRUB_POS_SET : Fld := ⟨0x300028, 0, 20, .ro, 0, .any⟩
/-- R130: Working-memory byte address of the seeing table, 1 MiB aligned -/
def F.DRIFT_SEE_BASE : Fld := ⟨0x300030, 20, 44, .rwl, 0, .any⟩
/-- R130: Uncorrectable error in a seeing record (R127) -/
def F.DRIFT_ERR_STATUS_SEE_UE : Fld := ⟨0x300038, 4, 1, .w1c, 0, .any⟩
/-- R130: Uncorrectable error in the record store (R114) -/
def F.DRIFT_ERR_STATUS_STORE_UE : Fld := ⟨0x300038, 3, 1, .w1c, 0, .any⟩
/-- R130: Rewrite queue full (R128) -/
def F.DRIFT_ERR_STATUS_RWQ_OVF : Fld := ⟨0x300038, 2, 1, .w1c, 0, .any⟩
/-- R130: A leaf reached step 5 (R125) -/
def F.DRIFT_ERR_STATUS_LADDER_FAIL : Fld := ⟨0x300038, 1, 1, .w1c, 0, .any⟩
/-- R130: Both star rows rejected (R120) -/
def F.DRIFT_ERR_STATUS_MEAS_FAIL : Fld := ⟨0x300038, 0, 1, .w1c, 0, .any⟩
/-- R130: Extended reads -/
def F.DRIFT_EXT_CNT_MEAS_WAIT : Fld := ⟨0x300040, 32, 32, .rc, 0, .any⟩
/-- R130: Extended reads -/
def F.DRIFT_EXT_CNT_LADDER : Fld := ⟨0x300040, 0, 32, .rc, 0, .any⟩
/-- R130: Leaves served per ladder step -/
def F.DRIFT_STEP_CNT_FAILED : Fld := ⟨0x300048, 48, 16, .rc, 0, .any⟩
/-- R130: Leaves served per ladder step -/
def F.DRIFT_STEP_CNT_STEP4 : Fld := ⟨0x300048, 32, 16, .rc, 0, .any⟩
/-- R130: Leaves served per ladder step -/
def F.DRIFT_STEP_CNT_STEP3 : Fld := ⟨0x300048, 16, 16, .rc, 0, .any⟩
/-- R130: Leaves served per ladder step -/
def F.DRIFT_STEP_CNT_STEP12 : Fld := ⟨0x300048, 0, 16, .rc, 0, .any⟩
/-- R130: Fields waiting in the rewrite queue, 0 to 1,024 -/
def F.DRIFT_RWQ_DEPTH : Fld := ⟨0x300050, 0, 11, .ro, 0, .any⟩
/-- R130: Whole minutes of time spent in ACTIVE and QUIET since cold start. A partial minute carries -/
def F.DRIFT_MINUTES_MINUTES : Fld := ⟨0x300058, 0, 32, .ro, 0, .any⟩
/-- R130: 1: fetch the record of SET -/
def F.DRIFT_QUERY_GO : Fld := ⟨0x300060, 63, 1, .wo, 0, .any⟩
/-- R130: Set index (R113) -/
def F.DRIFT_QUERY_SET : Fld := ⟨0x300060, 0, 20, .wo, 0, .any⟩
/-- R130: 1: RECORD is valid. A new GO clears it -/
def F.DRIFT_QUERY_RESULT_DONE : Fld := ⟨0x300068, 63, 1, .ro, 0, .any⟩
/-- R130: The drift record, laid out as R113 states -/
def F.DRIFT_QUERY_RESULT_RECORD : Fld := ⟨0x300068, 0, 32, .ro, 0, .any⟩
/-- R130: Offset table of channel c, with c from 0 to 31 (R117) -/
def F.DRIFT_TBL (c w : Nat) : Fld := ⟨(0x301000 + c * 0x100 + w * 0x4), 0, 32, .rwl, 0, .any⟩

/-- The registers of block DRIFT. -/
def regsDRIFT : List RegDesc := [
  ⟨"DRIFT_CTL", 0x300000, 0x0, 1, 0x0, 1, 32, [F.DRIFT_CTL_FORCE_CLASS, F.DRIFT_CTL_FORCE_EN, F.DRIFT_CTL_AUTO_RW, F.DRIFT_CTL_SWEEP_EN, F.DRIFT_CTL_SCRUB_EN]⟩,
  ⟨"DRIFT_STATUS", 0x300008, 0x0, 1, 0x0, 1, 32, [F.DRIFT_STATUS_SWEEP_BUSY, F.DRIFT_STATUS_INVALID]⟩,
  ⟨"DRIFT_MEAS_CFG", 0x300010, 0x0, 1, 0x0, 1, 32, [F.DRIFT_MEAS_CFG_FAIL_CLASS, F.DRIFT_MEAS_CFG_MAX_ERR]⟩,
  ⟨"DRIFT_RW_CFG", 0x300018, 0x0, 1, 0x0, 1, 32, [F.DRIFT_RW_CFG_DISTURB, F.DRIFT_RW_CFG_BITS, F.DRIFT_RW_CFG_STEPS]⟩,
  ⟨"DRIFT_SCRUB_CFG", 0x300020, 0x0, 1, 0x0, 1, 32, [F.DRIFT_SCRUB_CFG_SAMPLE, F.DRIFT_SCRUB_CFG_DAYS]⟩,
  ⟨"DRIFT_SCRUB_POS", 0x300028, 0x0, 1, 0x0, 1, 64, [F.DRIFT_SCRUB_POS_PASSES, F.DRIFT_SCRUB_POS_SET]⟩,
  ⟨"DRIFT_SEE_BASE", 0x300030, 0x0, 1, 0x0, 1, 64, [F.DRIFT_SEE_BASE]⟩,
  ⟨"DRIFT_ERR_STATUS", 0x300038, 0x0, 1, 0x0, 1, 32, [F.DRIFT_ERR_STATUS_SEE_UE, F.DRIFT_ERR_STATUS_STORE_UE, F.DRIFT_ERR_STATUS_RWQ_OVF, F.DRIFT_ERR_STATUS_LADDER_FAIL, F.DRIFT_ERR_STATUS_MEAS_FAIL]⟩,
  ⟨"DRIFT_EXT_CNT", 0x300040, 0x0, 1, 0x0, 1, 64, [F.DRIFT_EXT_CNT_MEAS_WAIT, F.DRIFT_EXT_CNT_LADDER]⟩,
  ⟨"DRIFT_STEP_CNT", 0x300048, 0x0, 1, 0x0, 1, 64, [F.DRIFT_STEP_CNT_FAILED, F.DRIFT_STEP_CNT_STEP4, F.DRIFT_STEP_CNT_STEP3, F.DRIFT_STEP_CNT_STEP12]⟩,
  ⟨"DRIFT_RWQ", 0x300050, 0x0, 1, 0x0, 1, 32, [F.DRIFT_RWQ_DEPTH]⟩,
  ⟨"DRIFT_MINUTES", 0x300058, 0x0, 1, 0x0, 1, 32, [F.DRIFT_MINUTES_MINUTES]⟩,
  ⟨"DRIFT_QUERY", 0x300060, 0x0, 1, 0x0, 1, 64, [F.DRIFT_QUERY_GO, F.DRIFT_QUERY_SET]⟩,
  ⟨"DRIFT_QUERY_RESULT", 0x300068, 0x0, 1, 0x0, 1, 64, [F.DRIFT_QUERY_RESULT_DONE, F.DRIFT_QUERY_RESULT_RECORD]⟩,
  ⟨"DRIFT_TBLc", 0x301000, 0x100, 32, 0x4, 60, 32, [F.DRIFT_TBL 0 0]⟩]

/-! ### FLD -/

/-- R159: 1: start a campaign on SPREAD_HIT (R150) -/
def F.FLD_CTL_WEAR_AUTO : Fld := ⟨0x80000, 3, 1, .rw, 0, .any⟩
/-- R159: 0: verify skipped (R141) -/
def F.FLD_CTL_VERIFY_EN : Fld := ⟨0x80000, 2, 1, .rw, 1, .any⟩
/-- R159: 1: take fields from the rewrite queue (R151) -/
def F.FLD_CTL_REWRITE_EN : Fld := ⟨0x80000, 1, 1, .rw, 1, .any⟩
/-- R159: 0: no GC above the 3 % warning (R145) -/
def F.FLD_CTL_GC_EN : Fld := ⟨0x80000, 0, 1, .rw, 1, .any⟩
/-- R159: 0b000 none; 0b001, 0b010 and 0b011 as R157 states. Others do not occur -/
def F.FLD_STATUS_LEVEL : Fld := ⟨0x80008, 29, 3, .ro, 0, .any⟩
/-- R159: A GC job is running -/
def F.FLD_STATUS_GC_ACTIVE : Fld := ⟨0x80008, 28, 1, .ro, 0, .any⟩
/-- R159: A campaign is running -/
def F.FLD_STATUS_WEAR_ACTIVE : Fld := ⟨0x80008, 27, 1, .ro, 0, .any⟩
/-- R159: F -/
def F.FLD_STATUS_FREE_SETS : Fld := ⟨0x80008, 0, 21, .ro, 0, .any⟩
/-- R159: Wear weight, 0 to 63 -/
def F.FLD_WEIGHTS_W : Fld := ⟨0x80010, 8, 6, .rw, 16, .any⟩
/-- R159: Age weight, 0 to 63 -/
def F.FLD_WEIGHTS_A : Fld := ⟨0x80010, 0, 6, .rw, 8, .any⟩
/-- R159: Movers for GC above the 10 % warning, minus 1 -/
def F.FLD_GC_CFG_MOVERS : Fld := ⟨0x80018, 28, 2, .rw, 1, .any⟩
/-- R159: Lowest score picked above the 10 % warning, signed, −2,048 to 2,047 -/
def F.FLD_GC_CFG_MIN_SCORE : Fld := ⟨0x80018, 16, 12, .rw, 128, .any⟩
/-- R159: Stop level, % of RES; must exceed START_PCT, at most 100 -/
def F.FLD_GC_CFG_STOP_PCT : Fld := ⟨0x80018, 8, 8, .rw, 70, (.range 0 100)⟩
/-- R159: Start level, % of RES, 11 to 99 -/
def F.FLD_GC_CFG_START_PCT : Fld := ⟨0x80018, 0, 8, .rw, 60, (.range 11 99)⟩
/-- R159: Spare part of the reserve -/
def F.FLD_RESERVE_SPARE_SETS : Fld := ⟨0x80020, 32, 21, .rwl, 0, .any⟩
/-- R159: RES -/
def F.FLD_RESERVE_RESERVE_SETS : Fld := ⟨0x80020, 0, 21, .rwl, 0, .any⟩
/-- R159: Sets retired since the plates were installed -/
def F.FLD_SPARE_RETIRED_SETS : Fld := ⟨0x80028, 32, 21, .ro, 0, .any⟩
/-- R159: Retirements exceed SPARE_SETS -/
def F.FLD_SPARE_SPARE_OUT : Fld := ⟨0x80028, 31, 1, .ro, 0, .any⟩
/-- R159: SPARE_SETS − RETIRED_SETS, floored at 0 -/
def F.FLD_SPARE_SPARE_LEFT : Fld := ⟨0x80028, 0, 21, .ro, 0, .any⟩
/-- R159: Erase count at which a set is retired, 1,000 to 8,191; default 5,000 -/
def F.FLD_WEAR_CFG_RETIRE_EC : Fld := ⟨0x80030, 19, 13, .rw, 5000, (.range 1000 8191)⟩
/-- R159: Campaign hysteresis in cycles; must be below SPREAD -/
def F.FLD_WEAR_CFG_HYST : Fld := ⟨0x80030, 11, 8, .rw, 50, .any⟩
/-- R159: Spread trigger in cycles, 16 to 2,047 -/
def F.FLD_WEAR_CFG_SPREAD : Fld := ⟨0x80030, 0, 11, .rw, 200, (.range 16 2047)⟩
/-- R159: Highest set EC (R149) -/
def F.FLD_WEAR_STATUS_MAX_EC : Fld := ⟨0x80038, 32, 13, .ro, 0, .any⟩
/-- R159: Lowest set EC -/
def F.FLD_WEAR_STATUS_MIN_EC : Fld := ⟨0x80038, 16, 13, .ro, 0, .any⟩
/-- R159: MAX_EC − MIN_EC ≥ SPREAD -/
def F.FLD_WEAR_STATUS_SPREAD_HIT : Fld := ⟨0x80038, 1, 1, .ro, 0, .any⟩
/-- R159: A campaign is running -/
def F.FLD_WEAR_STATUS_CAMPAIGN : Fld := ⟨0x80038, 0, 1, .ro, 0, .any⟩
/-- R159: 1: end the campaign after the current WEAR job -/
def F.FLD_WEAR_CMD_STOP : Fld := ⟨0x80040, 1, 1, .wo, 0, .any⟩
/-- R159: 1: start a campaign. If STOP and START are both 1, STOP takes effect -/
def F.FLD_WEAR_CMD_START : Fld := ⟨0x80040, 0, 1, .wo, 0, .any⟩
/-- R159: Pass limit in corrected bits, 1 to 20. Other values are reserved, handled as R4 states -/
def F.FLD_VERIFY_CFG_BITS : Fld := ⟨0x80048, 0, 5, .rw, 8, (.range 1 20)⟩
/-- R159: Working-memory byte address of the hold slots, 1 MiB aligned -/
def F.FLD_HOLD_BASE : Fld := ⟨0x80050, 20, 44, .rwl, 0, .any⟩
/-- R159: Staging frame tokens per mover, 64 to 4,096 -/
def F.FLD_BUF_CFG_MOV_TOKENS : Fld := ⟨0x80058, 16, 16, .rwl, 512, (.range 64 4096)⟩
/-- R159: Hold slots, 256 to 4,096 -/
def F.FLD_BUF_CFG_HOLD_SLOTS : Fld := ⟨0x80058, 0, 13, .rwl, 1024, (.range 256 4096)⟩
/-- R159: Working-memory byte address of the field table, 1 MiB aligned -/
def F.FLD_TBL_BASE : Fld := ⟨0x80060, 20, 44, .rwl, 0, .any⟩
/-- R159: Field record with a reserved STATE (R134) -/
def F.FLD_ERR_STATUS_TBL_BAD : Fld := ⟨0x80068, 8, 1, .w1c, 0, .any⟩
/-- R159: A set waited for a hold slot (R139) -/
def F.FLD_ERR_STATUS_HOLD_EMPTY : Fld := ⟨0x80068, 7, 1, .w1c, 0, .any⟩
/-- R159: A frame was pinned (R153) -/
def F.FLD_ERR_STATUS_RELOC_FAIL : Fld := ⟨0x80068, 6, 1, .w1c, 0, .any⟩
/-- R159: A SEAL was pre-empted (R154) -/
def F.FLD_ERR_STATUS_SEAL_PREEMPT : Fld := ⟨0x80068, 5, 1, .w1c, 0, .any⟩
/-- R159: A field failed verify (R141) -/
def F.FLD_ERR_STATUS_VERIFY_FAIL : Fld := ⟨0x80068, 4, 1, .w1c, 0, .any⟩
/-- R159: A field failed its erase -/
def F.FLD_ERR_STATUS_ERASE_FAIL : Fld := ⟨0x80068, 3, 1, .w1c, 0, .any⟩
/-- R159: A destination program failed (R148) -/
def F.FLD_ERR_STATUS_PROG_FAIL : Fld := ⟨0x80068, 2, 1, .w1c, 0, .any⟩
/-- R159: The spare was exhausted (R156) -/
def F.FLD_ERR_STATUS_SPARE_OUT : Fld := ⟨0x80068, 1, 1, .w1c, 0, .any⟩
/-- R159: F reached the last reserve (R157) -/
def F.FLD_ERR_STATUS_LAST_RESERVE : Fld := ⟨0x80068, 0, 1, .w1c, 0, .any⟩
/-- R159: Field counts: OPEN [63:32], FREE [31:0] -/
def F.FLD_POP_A_OPEN : Fld := ⟨0x80070, 32, 32, .ro, 0, .any⟩
/-- R159: Field counts: OPEN [63:32], FREE [31:0] -/
def F.FLD_POP_A_FREE : Fld := ⟨0x80070, 0, 32, .ro, 0, .any⟩
/-- R159: Field counts: VERIFIED [63:32], CLOSED [31:0] -/
def F.FLD_POP_B_VERIFIED : Fld := ⟨0x80078, 32, 32, .ro, 0, .any⟩
/-- R159: Field counts: VERIFIED [63:32], CLOSED [31:0] -/
def F.FLD_POP_B_CLOSED : Fld := ⟨0x80078, 0, 32, .ro, 0, .any⟩
/-- R159: Field counts: BAD [63:32], RETIRED [31:0] -/
def F.FLD_POP_C_BAD : Fld := ⟨0x80080, 32, 32, .ro, 0, .any⟩
/-- R159: Field counts: BAD [63:32], RETIRED [31:0] -/
def F.FLD_POP_C_RETIRED : Fld := ⟨0x80080, 0, 32, .ro, 0, .any⟩
/-- R159: A victim has been picked since start -/
def F.FLD_VICTIM_VALID : Fld := ⟨0x80090, 63, 1, .ro, 0, .any⟩
/-- R159: Encoded as in FLD_MOVm_STATUS -/
def F.FLD_VICTIM_JOB : Fld := ⟨0x80090, 60, 3, .ro, 0, .any⟩
/-- R159: Score when picked, signed -/
def F.FLD_VICTIM_SCORE : Fld := ⟨0x80090, 48, 12, .ro, 0, .any⟩
/-- R159: Set index (R113) -/
def F.FLD_VICTIM_SET : Fld := ⟨0x80090, 0, 20, .ro, 0, .any⟩
/-- R159: 1: score the set below -/
def F.FLD_SCORE_Q_GO : Fld := ⟨0x80098, 63, 1, .wo, 0, .any⟩
/-- R159: Set index -/
def F.FLD_SCORE_Q_SET : Fld := ⟨0x80098, 0, 20, .wo, 0, .any⟩
/-- R159: 1: result valid. A new GO clears it -/
def F.FLD_SCORE_R_DONE : Fld := ⟨0x800A0, 63, 1, .ro, 0, .any⟩
/-- R159: The set is eligible under R142 -/
def F.FLD_SCORE_R_ELIGIBLE : Fld := ⟨0x800A0, 62, 1, .ro, 0, .any⟩
/-- R159: Score under the current weights, signed -/
def F.FLD_SCORE_R_SCORE : Fld := ⟨0x800A0, 48, 12, .ro, 0, .any⟩
/-- R159: Valid units -/
def F.FLD_SCORE_R_V : Fld := ⟨0x800A0, 32, 16, .ro, 0, .any⟩
/-- R159: age_class -/
def F.FLD_SCORE_R_AGE : Fld := ⟨0x800A0, 28, 4, .ro, 0, .any⟩
/-- R159: wear_class -/
def F.FLD_SCORE_R_WEAR : Fld := ⟨0x800A0, 24, 4, .ro, 0, .any⟩
/-- R159: Set EC; saturates at 8,191 -/
def F.FLD_SCORE_R_EC : Fld := ⟨0x800A0, 0, 13, .ro, 0, .any⟩
/-- R159: A job is running -/
def F.FLD_MOV_STATUS_BUSY (n : Nat) : Fld := ⟨(0x80100 + n * 0x8), 63, 1, .ro, 0, .any⟩
/-- R159: 0b000 idle, 0b001 GC, 0b010 WEAR, 0b011 REWRITE, 0b100 VERIFY, 0b101 SEAL, 0b110 RELOCATE, -/
def F.FLD_MOV_STATUS_JOB (n : Nat) : Fld := ⟨(0x80100 + n * 0x8), 60, 3, .ro, 0, .any⟩
/-- R159: Units switched or verified by the job; for SEAL, folios sealed -/
def F.FLD_MOV_STATUS_DONE_UNITS (n : Nat) : Fld := ⟨(0x80100 + n * 0x8), 32, 24, .ro, 0, .any⟩
/-- R159: Units found not current, or folios skipped; saturates at 4,095 -/
def F.FLD_MOV_STATUS_SKIPPED (n : Nat) : Fld := ⟨(0x80100 + n * 0x8), 20, 12, .ro, 0, .any⟩
/-- R159: Set the job works on; for SEAL, the destination set -/
def F.FLD_MOV_STATUS_SET (n : Nat) : Fld := ⟨(0x80100 + n * 0x8), 0, 20, .ro, 0, .any⟩
/-- R159: First field of the window, in units of 4,096 fields -/
def F.FLD_TBL_SEL_FIRST : Fld := ⟨0x81000, 12, 11, .rw, 0, .any⟩
/-- R159: Export window: 4,096 field records, 64 KiB -/
def F.FLD_TBL_WIN (n : Nat) : Fld := ⟨(0x90000 + n * 0x8), 0, 64, .ro, 0, .any⟩

/-- The registers of block FLD. -/
def regsFLD : List RegDesc := [
  ⟨"FLD_CTL", 0x80000, 0x0, 1, 0x0, 1, 32, [F.FLD_CTL_WEAR_AUTO, F.FLD_CTL_VERIFY_EN, F.FLD_CTL_REWRITE_EN, F.FLD_CTL_GC_EN]⟩,
  ⟨"FLD_STATUS", 0x80008, 0x0, 1, 0x0, 1, 32, [F.FLD_STATUS_LEVEL, F.FLD_STATUS_GC_ACTIVE, F.FLD_STATUS_WEAR_ACTIVE, F.FLD_STATUS_FREE_SETS]⟩,
  ⟨"FLD_WEIGHTS", 0x80010, 0x0, 1, 0x0, 1, 32, [F.FLD_WEIGHTS_W, F.FLD_WEIGHTS_A]⟩,
  ⟨"FLD_GC_CFG", 0x80018, 0x0, 1, 0x0, 1, 32, [F.FLD_GC_CFG_MOVERS, F.FLD_GC_CFG_MIN_SCORE, F.FLD_GC_CFG_STOP_PCT, F.FLD_GC_CFG_START_PCT]⟩,
  ⟨"FLD_RESERVE", 0x80020, 0x0, 1, 0x0, 1, 64, [F.FLD_RESERVE_SPARE_SETS, F.FLD_RESERVE_RESERVE_SETS]⟩,
  ⟨"FLD_SPARE", 0x80028, 0x0, 1, 0x0, 1, 64, [F.FLD_SPARE_RETIRED_SETS, F.FLD_SPARE_SPARE_OUT, F.FLD_SPARE_SPARE_LEFT]⟩,
  ⟨"FLD_WEAR_CFG", 0x80030, 0x0, 1, 0x0, 1, 32, [F.FLD_WEAR_CFG_RETIRE_EC, F.FLD_WEAR_CFG_HYST, F.FLD_WEAR_CFG_SPREAD]⟩,
  ⟨"FLD_WEAR_STATUS", 0x80038, 0x0, 1, 0x0, 1, 64, [F.FLD_WEAR_STATUS_MAX_EC, F.FLD_WEAR_STATUS_MIN_EC, F.FLD_WEAR_STATUS_SPREAD_HIT, F.FLD_WEAR_STATUS_CAMPAIGN]⟩,
  ⟨"FLD_WEAR_CMD", 0x80040, 0x0, 1, 0x0, 1, 32, [F.FLD_WEAR_CMD_STOP, F.FLD_WEAR_CMD_START]⟩,
  ⟨"FLD_VERIFY_CFG", 0x80048, 0x0, 1, 0x0, 1, 32, [F.FLD_VERIFY_CFG_BITS]⟩,
  ⟨"FLD_HOLD_BASE", 0x80050, 0x0, 1, 0x0, 1, 64, [F.FLD_HOLD_BASE]⟩,
  ⟨"FLD_BUF_CFG", 0x80058, 0x0, 1, 0x0, 1, 32, [F.FLD_BUF_CFG_MOV_TOKENS, F.FLD_BUF_CFG_HOLD_SLOTS]⟩,
  ⟨"FLD_TBL_BASE", 0x80060, 0x0, 1, 0x0, 1, 64, [F.FLD_TBL_BASE]⟩,
  ⟨"FLD_ERR_STATUS", 0x80068, 0x0, 1, 0x0, 1, 32, [F.FLD_ERR_STATUS_TBL_BAD, F.FLD_ERR_STATUS_HOLD_EMPTY, F.FLD_ERR_STATUS_RELOC_FAIL, F.FLD_ERR_STATUS_SEAL_PREEMPT, F.FLD_ERR_STATUS_VERIFY_FAIL, F.FLD_ERR_STATUS_ERASE_FAIL, F.FLD_ERR_STATUS_PROG_FAIL, F.FLD_ERR_STATUS_SPARE_OUT, F.FLD_ERR_STATUS_LAST_RESERVE]⟩,
  ⟨"FLD_POP_A", 0x80070, 0x0, 1, 0x0, 1, 64, [F.FLD_POP_A_OPEN, F.FLD_POP_A_FREE]⟩,
  ⟨"FLD_POP_B", 0x80078, 0x0, 1, 0x0, 1, 64, [F.FLD_POP_B_VERIFIED, F.FLD_POP_B_CLOSED]⟩,
  ⟨"FLD_POP_C", 0x80080, 0x0, 1, 0x0, 1, 64, [F.FLD_POP_C_BAD, F.FLD_POP_C_RETIRED]⟩,
  ⟨"FLD_VICTIM", 0x80090, 0x0, 1, 0x0, 1, 64, [F.FLD_VICTIM_VALID, F.FLD_VICTIM_JOB, F.FLD_VICTIM_SCORE, F.FLD_VICTIM_SET]⟩,
  ⟨"FLD_SCORE_Q", 0x80098, 0x0, 1, 0x0, 1, 64, [F.FLD_SCORE_Q_GO, F.FLD_SCORE_Q_SET]⟩,
  ⟨"FLD_SCORE_R", 0x800A0, 0x0, 1, 0x0, 1, 64, [F.FLD_SCORE_R_DONE, F.FLD_SCORE_R_ELIGIBLE, F.FLD_SCORE_R_SCORE, F.FLD_SCORE_R_V, F.FLD_SCORE_R_AGE, F.FLD_SCORE_R_WEAR, F.FLD_SCORE_R_EC]⟩,
  ⟨"FLD_MOVm_STATUS", 0x80100, 0x8, 4, 0x0, 1, 64, [F.FLD_MOV_STATUS_BUSY 0, F.FLD_MOV_STATUS_JOB 0, F.FLD_MOV_STATUS_DONE_UNITS 0, F.FLD_MOV_STATUS_SKIPPED 0, F.FLD_MOV_STATUS_SET 0]⟩,
  ⟨"FLD_TBL_SEL", 0x81000, 0x0, 1, 0x0, 1, 32, [F.FLD_TBL_SEL_FIRST]⟩,
  ⟨"FLD_TBL_WIN", 0x90000, 0x8, 8192, 0x0, 1, 64, [F.FLD_TBL_WIN 0]⟩]

/-! ### DUR -/

/-- R193: 1: every later start runs a full scan (R191) until one completes. The bit is held in the a -/
def F.DUR_CTL_SCAN_NEXT : Fld := ⟨0x50000, 2, 1, .rw, 0, .any⟩
/-- R193: 1: periodic checkpoints (R181) -/
def F.DUR_CTL_CKPT_AUTO : Fld := ⟨0x50000, 1, 1, .rw, 1, .any⟩
/-- R193: 1: whole-frame bypass (R171) -/
def F.DUR_CTL_BYPASS_EN : Fld := ⟨0x50000, 0, 1, .rw, 1, .any⟩
/-- R193: Level of HU_OK -/
def F.DUR_STATUS_HU_OK : Fld := ⟨0x50008, 31, 1, .ro, 0, .any⟩
/-- R193: BYPASS_EN = 1 and bypass not suspended -/
def F.DUR_STATUS_BYPASS_ACTIVE : Fld := ⟨0x50008, 30, 1, .ro, 0, .any⟩
/-- R193: A checkpoint is being written -/
def F.DUR_STATUS_CKPT_BUSY : Fld := ⟨0x50008, 29, 1, .ro, 0, .any⟩
/-- R193: A drain is running -/
def F.DUR_STATUS_DRAIN_ACTIVE : Fld := ⟨0x50008, 28, 1, .ro, 0, .any⟩
/-- R193: Age of the oldest uncommitted record in µs; saturates at 0xFF_FFFF -/
def F.DUR_STATUS_COMMIT_AGE_US : Fld := ⟨0x50008, 0, 24, .ro, 0, .any⟩
/-- R193: Commit lag in µs, 100 to 10,000; default 1,000. Other values are reserved, handled as R4 s -/
def F.DUR_JRN_CFG_LAG_US : Fld := ⟨0x50010, 0, 14, .rw, 1000, (.range 100 10000)⟩
/-- R193: Next ASEQ -/
def F.DUR_ASEQ : Fld := ⟨0x50018, 0, 64, .ro, 0, .any⟩
/-- R193: Highest committed JSEQ (R168) -/
def F.DUR_COMMIT_JSEQ : Fld := ⟨0x50020, 0, 48, .ro, 0, .any⟩
/-- R193: Checkpoint rate in GB/s, 1 to 40 -/
def F.DUR_CKPT_CFG_RATE_GBPS : Fld := ⟨0x50028, 24, 8, .rw, 4, (.range 1 40)⟩
/-- R193: Journal since the cut that starts a checkpoint, 1 to 64 GiB -/
def F.DUR_CKPT_CFG_JMAX_GIB : Fld := ⟨0x50028, 16, 8, .rw, 4, (.range 1 64)⟩
/-- R193: Period in s, 10 to 3,600 -/
def F.DUR_CKPT_CFG_PERIOD_S : Fld := ⟨0x50028, 0, 16, .rw, 60, (.range 10 3600)⟩
/-- R193: 1: start a checkpoint. Ignored while CKPT_BUSY is 1 -/
def F.DUR_CKPT_CMD_GO : Fld := ⟨0x50030, 0, 1, .wo, 0, .any⟩
/-- R193: PSEQ of the newest valid checkpoint, low 48 bits -/
def F.DUR_CKPT_STATUS_PSEQ : Fld := ⟨0x50038, 16, 48, .ro, 0, .any⟩
/-- R193: The newest checkpoint is CLEAN -/
def F.DUR_CKPT_STATUS_LAST_CLEAN : Fld := ⟨0x50038, 7, 1, .ro, 0, .any⟩
/-- R193: Percent written of the checkpoint in progress, 0 to 100 -/
def F.DUR_CKPT_STATUS_PROGRESS : Fld := ⟨0x50038, 0, 7, .ro, 0, .any⟩
/-- R193: 0b00 none (first start), 0b01 copy A, 0b10 copy B, 0b11 full scan -/
def F.DUR_REPLAY_SOURCE : Fld := ⟨0x50040, 62, 2, .ro, 0, .any⟩
/-- R193: The previous power-off was not clean (R179) -/
def F.DUR_REPLAY_PREV_DIRTY : Fld := ⟨0x50040, 61, 1, .ro, 0, .any⟩
/-- R193: Rows beyond the prefix were discarded -/
def F.DUR_REPLAY_GAP : Fld := ⟨0x50040, 60, 1, .ro, 0, .any⟩
/-- R193: Replay time in µs -/
def F.DUR_REPLAY_TIME_US : Fld := ⟨0x50040, 0, 32, .ro, 0, .any⟩
/-- R193: Records applied or overlaid; saturates -/
def F.DUR_REPLAY_CNT_RECORDS : Fld := ⟨0x50048, 32, 32, .ro, 0, .any⟩
/-- R193: Rows discarded beyond the prefix; saturates -/
def F.DUR_REPLAY_CNT_DISCARDED : Fld := ⟨0x50048, 16, 16, .ro, 0, .any⟩
/-- R193: Rows adopted by the scan (R189); saturates -/
def F.DUR_REPLAY_CNT_ADOPTED : Fld := ⟨0x50048, 0, 16, .ro, 0, .any⟩
/-- R193: 0b00 none, 0b01 complete, 0b10 incomplete, 0b11 reserved -/
def F.DUR_DRAIN_RESULT : Fld := ⟨0x50050, 62, 2, .ro, 0, .any⟩
/-- R193: HU_OK was high when the drain started -/
def F.DUR_DRAIN_GUARANTEED : Fld := ⟨0x50050, 61, 1, .ro, 0, .any⟩
/-- R193: Steps 1 to 5 of R175, in µs -/
def F.DUR_DRAIN_TIME_US : Fld := ⟨0x50050, 0, 32, .ro, 0, .any⟩
/-- R193: A map sector could not be rebuilt (R192) -/
def F.DUR_ERR_STATUS_SECTOR_LOST : Fld := ⟨0x50058, 8, 1, .w1c, 0, .any⟩
/-- R193: Both pointer copies had the same PSEQ, differed, and both validated (R187) -/
def F.DUR_ERR_STATUS_PTR_SAME : Fld := ⟨0x50058, 7, 1, .w1c, 0, .any⟩
/-- R193: A checkpoint failed to validate, load or record its pointer -/
def F.DUR_ERR_STATUS_CKPT_FAIL : Fld := ⟨0x50058, 6, 1, .w1c, 0, .any⟩
/-- R193: Start-up used full scan -/
def F.DUR_ERR_STATUS_FULL_SCAN : Fld := ⟨0x50058, 5, 1, .w1c, 0, .any⟩
/-- R193: A reserved record TYPE was met (R166) -/
def F.DUR_ERR_STATUS_JRN_BAD : Fld := ⟨0x50058, 4, 1, .w1c, 0, .any⟩
/-- R193: HU_OK fell while ACTIVE (R171) -/
def F.DUR_ERR_STATUS_HU_LOW : Fld := ⟨0x50058, 2, 1, .w1c, 0, .any⟩
/-- R193: The dirty-shutdown count was incremented at start-up (R179) -/
def F.DUR_ERR_STATUS_DIRTY : Fld := ⟨0x50058, 1, 1, .w1c, 0, .any⟩
/-- R193: A commit missed LAG_US (R169) -/
def F.DUR_ERR_STATUS_LAG_MISS : Fld := ⟨0x50058, 0, 1, .w1c, 0, .any⟩
/-- R193: 1: force a commit (R170) -/
def F.DUR_SYNC_GO : Fld := ⟨0x50060, 31, 1, .wo, 0, .any⟩
/-- R193: The forced commit has completed -/
def F.DUR_SYNC_DONE : Fld := ⟨0x50060, 30, 1, .w1c, 0, .any⟩
/-- R193: Working-memory byte address of the 8 MiB build area, 1 MiB aligned -/
def F.DUR_JBUF_BASE : Fld := ⟨0x50068, 20, 44, .rwl, 0, .any⟩
/-- R193: Working-memory byte address of the 128 MiB field-table snapshot, 1 MiB aligned -/
def F.DUR_SNAP_BASE : Fld := ⟨0x50070, 20, 44, .rwl, 0, .any⟩
/-- R193: Commits that missed LAG_US -/
def F.DUR_LAG_CNT_MISSES : Fld := ⟨0x50078, 32, 32, .rc, 0, .any⟩
/-- R193: Commits completed -/
def F.DUR_LAG_CNT_COMMITS : Fld := ⟨0x50078, 0, 32, .rc, 0, .any⟩

/-- The registers of block DUR. -/
def regsDUR : List RegDesc := [
  ⟨"DUR_CTL", 0x50000, 0x0, 1, 0x0, 1, 32, [F.DUR_CTL_SCAN_NEXT, F.DUR_CTL_CKPT_AUTO, F.DUR_CTL_BYPASS_EN]⟩,
  ⟨"DUR_STATUS", 0x50008, 0x0, 1, 0x0, 1, 32, [F.DUR_STATUS_HU_OK, F.DUR_STATUS_BYPASS_ACTIVE, F.DUR_STATUS_CKPT_BUSY, F.DUR_STATUS_DRAIN_ACTIVE, F.DUR_STATUS_COMMIT_AGE_US]⟩,
  ⟨"DUR_JRN_CFG", 0x50010, 0x0, 1, 0x0, 1, 32, [F.DUR_JRN_CFG_LAG_US]⟩,
  ⟨"DUR_ASEQ", 0x50018, 0x0, 1, 0x0, 1, 64, [F.DUR_ASEQ]⟩,
  ⟨"DUR_COMMIT", 0x50020, 0x0, 1, 0x0, 1, 64, [F.DUR_COMMIT_JSEQ]⟩,
  ⟨"DUR_CKPT_CFG", 0x50028, 0x0, 1, 0x0, 1, 32, [F.DUR_CKPT_CFG_RATE_GBPS, F.DUR_CKPT_CFG_JMAX_GIB, F.DUR_CKPT_CFG_PERIOD_S]⟩,
  ⟨"DUR_CKPT_CMD", 0x50030, 0x0, 1, 0x0, 1, 32, [F.DUR_CKPT_CMD_GO]⟩,
  ⟨"DUR_CKPT_STATUS", 0x50038, 0x0, 1, 0x0, 1, 64, [F.DUR_CKPT_STATUS_PSEQ, F.DUR_CKPT_STATUS_LAST_CLEAN, F.DUR_CKPT_STATUS_PROGRESS]⟩,
  ⟨"DUR_REPLAY", 0x50040, 0x0, 1, 0x0, 1, 64, [F.DUR_REPLAY_SOURCE, F.DUR_REPLAY_PREV_DIRTY, F.DUR_REPLAY_GAP, F.DUR_REPLAY_TIME_US]⟩,
  ⟨"DUR_REPLAY_CNT", 0x50048, 0x0, 1, 0x0, 1, 64, [F.DUR_REPLAY_CNT_RECORDS, F.DUR_REPLAY_CNT_DISCARDED, F.DUR_REPLAY_CNT_ADOPTED]⟩,
  ⟨"DUR_DRAIN", 0x50050, 0x0, 1, 0x0, 1, 64, [F.DUR_DRAIN_RESULT, F.DUR_DRAIN_GUARANTEED, F.DUR_DRAIN_TIME_US]⟩,
  ⟨"DUR_ERR_STATUS", 0x50058, 0x0, 1, 0x0, 1, 32, [F.DUR_ERR_STATUS_SECTOR_LOST, F.DUR_ERR_STATUS_PTR_SAME, F.DUR_ERR_STATUS_CKPT_FAIL, F.DUR_ERR_STATUS_FULL_SCAN, F.DUR_ERR_STATUS_JRN_BAD, F.DUR_ERR_STATUS_HU_LOW, F.DUR_ERR_STATUS_DIRTY, F.DUR_ERR_STATUS_LAG_MISS]⟩,
  ⟨"DUR_SYNC", 0x50060, 0x0, 1, 0x0, 1, 32, [F.DUR_SYNC_GO, F.DUR_SYNC_DONE]⟩,
  ⟨"DUR_JBUF_BASE", 0x50068, 0x0, 1, 0x0, 1, 64, [F.DUR_JBUF_BASE]⟩,
  ⟨"DUR_SNAP_BASE", 0x50070, 0x0, 1, 0x0, 1, 64, [F.DUR_SNAP_BASE]⟩,
  ⟨"DUR_LAG_CNT", 0x50078, 0x0, 1, 0x0, 1, 64, [F.DUR_LAG_CNT_MISSES, F.DUR_LAG_CNT_COMMITS]⟩]

/-! ### WMEM -/

/-- R213: The channel is trained -/
def F.WMEM_CH_STATUS_TRAINED (c : Nat) : Fld := ⟨(0x310000 + c * 0x4000), 15, 1, .ro, 0, .any⟩
/-- R213: The DIMMs are in self-refresh -/
def F.WMEM_CH_STATUS_SELF_REF (c : Nat) : Fld := ⟨(0x310000 + c * 0x4000), 14, 1, .ro, 0, .any⟩
/-- R213: Per-DIMM capacity: 0x1 16, 0x2 32, 0x3 64, 0x4 128 GiB -/
def F.WMEM_CH_STATUS_CAP (c : Nat) : Fld := ⟨(0x310000 + c * 0x4000), 8, 4, .ro, 0, .any⟩
/-- R213: 0: x4. 1: x8 -/
def F.WMEM_CH_STATUS_WIDTH (c : Nat) : Fld := ⟨(0x310000 + c * 0x4000), 5, 1, .ro, 0, .any⟩
/-- R213: Ranks per DIMM, 1 or 2 -/
def F.WMEM_CH_STATUS_RANKS (c : Nat) : Fld := ⟨(0x310000 + c * 0x4000), 2, 2, .ro, 0, .any⟩
/-- R213: DIMMs fitted, 0 to 2 -/
def F.WMEM_CH_STATUS_DIMMS (c : Nat) : Fld := ⟨(0x310000 + c * 0x4000), 0, 2, .ro, 0, .any⟩
/-- R213: UE [63:32] and CE [31:0] decodes; each saturates at 0xFFFF_FFFF -/
def F.WMEM_CE_CNT_UE (c : Nat) : Fld := ⟨(0x310008 + c * 0x4000), 32, 32, .rc, 0, .any⟩
/-- R213: UE [63:32] and CE [31:0] decodes; each saturates at 0xFFFF_FFFF -/
def F.WMEM_CE_CNT_CE (c : Nat) : Fld := ⟨(0x310008 + c * 0x4000), 0, 32, .rc, 0, .any⟩
/-- R213: 1: empty the table -/
def F.WMEM_CE_CTL_CLEAR (c : Nat) : Fld := ⟨(0x310010 + c * 0x4000), 31, 1, .wo, 0, .any⟩
/-- R213: Entry shown in WMEM_CE_ENTRY -/
def F.WMEM_CE_CTL_SEL (c : Nat) : Fld := ⟨(0x310010 + c * 0x4000), 16, 5, .rw, 0, .any⟩
/-- R213: HOT threshold, 1 to 255. 0 is reserved, handled as R4 states -/
def F.WMEM_CE_CTL_THRESH (c : Nat) : Fld := ⟨(0x310010 + c * 0x4000), 0, 8, .rw, 16, (.range 1 255)⟩
/-- R213: Entry in use -/
def F.WMEM_CE_ENTRY_VALID (c : Nat) : Fld := ⟨(0x310018 + c * 0x4000), 63, 1, .ro, 0, .any⟩
/-- R213: COUNT reached THRESH -/
def F.WMEM_CE_ENTRY_HOT (c : Nat) : Fld := ⟨(0x310018 + c * 0x4000), 62, 1, .ro, 0, .any⟩
/-- R213: Subchannel -/
def F.WMEM_CE_ENTRY_SUB (c : Nat) : Fld := ⟨(0x310018 + c * 0x4000), 61, 1, .ro, 0, .any⟩
/-- R213: [60] DIMM slot, [59] rank -/
def F.WMEM_CE_ENTRY_RANK (c : Nat) : Fld := ⟨(0x310018 + c * 0x4000), 59, 2, .ro, 0, .any⟩
/-- R213: Bank group -/
def F.WMEM_CE_ENTRY_BG (c : Nat) : Fld := ⟨(0x310018 + c * 0x4000), 56, 3, .ro, 0, .any⟩
/-- R213: Bank -/
def F.WMEM_CE_ENTRY_BANK (c : Nat) : Fld := ⟨(0x310018 + c * 0x4000), 54, 2, .ro, 0, .any⟩
/-- R213: DRAM row -/
def F.WMEM_CE_ENTRY_DROW (c : Nat) : Fld := ⟨(0x310018 + c * 0x4000), 36, 18, .ro, 0, .any⟩
/-- R213: Burst column -/
def F.WMEM_CE_ENTRY_COL (c : Nat) : Fld := ⟨(0x310018 + c * 0x4000), 29, 7, .ro, 0, .any⟩
/-- R213: Device, as R200 numbers it -/
def F.WMEM_CE_ENTRY_DEVICE (c : Nat) : Fld := ⟨(0x310018 + c * 0x4000), 25, 4, .ro, 0, .any⟩
/-- R213: Corrections, saturating at 255 -/
def F.WMEM_CE_ENTRY_COUNT (c : Nat) : Fld := ⟨(0x310018 + c * 0x4000), 17, 8, .ro, 0, .any⟩
/-- R213: DRIFT_MINUTES[15:0] at the last correction -/
def F.WMEM_CE_ENTRY_LAST (c : Nat) : Fld := ⟨(0x310018 + c * 0x4000), 0, 16, .ro, 0, .any⟩
/-- R213: Last UE location, laid out as WMEM_CE_ENTRY; HOT reads 0, COUNT counts UEs there -/
def F.WMEM_UE_ADDR (c : Nat) : Fld := ⟨(0x310020 + c * 0x4000), 0, 64, .ro, 0, .any⟩
/-- R213: 1: start OP -/
def F.WMEM_TEST_CTL_GO (c : Nat) : Fld := ⟨(0x310100 + c * 0x4000), 31, 1, .wo, 0, .any⟩
/-- R213: An operation is running -/
def F.WMEM_TEST_CTL_BUSY (c : Nat) : Fld := ⟨(0x310100 + c * 0x4000), 30, 1, .ro, 0, .any⟩
/-- R213: 0b01 WRITE, 0b10 READ. 0b00 and 0b11 are reserved; a GO with them does nothing -/
def F.WMEM_TEST_CTL_OP (c : Nat) : Fld := ⟨(0x310100 + c * 0x4000), 28, 2, .rw, 0, .any⟩
/-- R213: Subchannel -/
def F.WMEM_TEST_CTL_SUB (c : Nat) : Fld := ⟨(0x310100 + c * 0x4000), 5, 1, .rw, 0, .any⟩
/-- R213: Line of the test region -/
def F.WMEM_TEST_CTL_LINE (c : Nat) : Fld := ⟨(0x310100 + c * 0x4000), 0, 5, .rw, 0, .any⟩
/-- R213: Result valid; a new GO clears it -/
def F.WMEM_TEST_RESULT_DONE (c : Nat) : Fld := ⟨(0x310108 + c * 0x4000), 31, 1, .ro, 0, .any⟩
/-- R213: 0b000 CLEAN, 0b001 CORRECTED, 0b010 UNCORRECTABLE, 0b011 POISONED; others do not occur -/
def F.WMEM_TEST_RESULT_OUTCOME (c : Nat) : Fld := ⟨(0x310108 + c * 0x4000), 28, 3, .ro, 0, .any⟩
/-- R213: Corrected device -/
def F.WMEM_TEST_RESULT_DEVICE (c : Nat) : Fld := ⟨(0x310108 + c * 0x4000), 8, 4, .ro, 0, .any⟩
/-- R213: Symbols changed by the correction -/
def F.WMEM_TEST_RESULT_SYMBOLS (c : Nat) : Fld := ⟨(0x310108 + c * 0x4000), 0, 5, .ro, 0, .any⟩
/-- R213: Check-byte XOR, bytes 8i to 8i + 7, with i 0 or 1 -/
def F.WMEM_TEST_CHKX (c i : Nat) : Fld := ⟨(0x310110 + c * 0x4000 + i * 0x8), 0, 64, .rw, 0, .any⟩
/-- R213: Data-device bytes 8i to 8i + 7, with i from 0 to 7 -/
def F.WMEM_TEST_WDATA (c i : Nat) : Fld := ⟨(0x310140 + c * 0x4000 + i * 0x8), 0, 64, .rw, 0, .any⟩
/-- R213: Encoder-source bytes 8i to 8i + 7 -/
def F.WMEM_TEST_CDATA (c i : Nat) : Fld := ⟨(0x310180 + c * 0x4000 + i * 0x8), 0, 64, .rw, 0, .any⟩
/-- R213: Decoded data (i 0 to 7), stored check bytes (i 8, 9) -/
def F.WMEM_TEST_RDATA (c i : Nat) : Fld := ⟨(0x3101C0 + c * 0x4000 + i * 0x8), 0, 64, .ro, 0, .any⟩
/-- R213: Installed working memory in GiB -/
def F.WMEM_CFG_TOTAL_GIB : Fld := ⟨0x313000, 16, 11, .ro, 0, .any⟩
/-- R213: Data rate in MT/s: 6,400 or 5,600 -/
def F.WMEM_CFG_MTS : Fld := ⟨0x313000, 0, 16, .ro, 0, .any⟩
/-- R213: 0x0 none, 0x1 channels differ, 0x2 channel empty, 0x3 unsupported DIMM, 0x4 SPD unreadable -/
def F.WMEM_STATUS_POP_ERR : Fld := ⟨0x313008, 28, 4, .ro, 0, .any⟩
/-- R213: The training record write was refused (R198) -/
def F.WMEM_STATUS_REC_FAIL : Fld := ⟨0x313008, 2, 1, .ro, 0, .any⟩
/-- R213: 0b00 none, 0b01 full training, 0b10 record, 0b11 self-refresh exit -/
def F.WMEM_STATUS_TRAIN_SRC : Fld := ⟨0x313008, 0, 2, .ro, 0, .any⟩
/-- R213: Hold time in 16 ns units, 1 to 255. 0 is reserved, handled as R4 states -/
def F.WMEM_MERGE_CFG_HOLD : Fld := ⟨0x313010, 0, 8, .rw, 16, (.range 1 255)⟩
/-- R213: RMW flushes [63:32], full flushes [31:0]; each saturates at 0xFFFF_FFFF -/
def F.WMEM_MERGE_CNT_RMW : Fld := ⟨0x313018, 32, 32, .rc, 0, .any⟩
/-- R213: RMW flushes [63:32], full flushes [31:0]; each saturates at 0xFFFF_FFFF -/
def F.WMEM_MERGE_CNT_FULL : Fld := ⟨0x313018, 0, 32, .rc, 0, .any⟩
/-- R213: Patrol scrub enable -/
def F.WMEM_SCRUB_CFG_EN : Fld := ⟨0x313020, 31, 1, .rw, 1, .any⟩
/-- R213: Pass length, 1 to 168 h. Other values are reserved, handled as R4 states -/
def F.WMEM_SCRUB_CFG_HOURS : Fld := ⟨0x313020, 0, 8, .rw, 24, (.range 1 168)⟩
/-- R213: Completed passes since cold start -/
def F.WMEM_SCRUB_POS_PASSES : Fld := ⟨0x313028, 40, 24, .ro, 0, .any⟩
/-- R213: Next line, as A div 64 -/
def F.WMEM_SCRUB_POS_LINE : Fld := ⟨0x313028, 0, 34, .ro, 0, .any⟩
/-- R213: An error-table entry became HOT (R208) -/
def F.WMEM_ERR_STATUS_HOT : Fld := ⟨0x313030, 4, 1, .w1c, 0, .any⟩
/-- R213: An error-table entry was replaced -/
def F.WMEM_ERR_STATUS_CE_OVF : Fld := ⟨0x313030, 3, 1, .w1c, 0, .any⟩
/-- R213: A merge flush stored the poison marker (R207) -/
def F.WMEM_ERR_STATUS_RMW_UE : Fld := ⟨0x313030, 2, 1, .w1c, 0, .any⟩
/-- R213: The patrol scrub found an uncorrectable line -/
def F.WMEM_ERR_STATUS_SCRUB_UE : Fld := ⟨0x313030, 1, 1, .w1c, 0, .any⟩
/-- R213: An uncorrectable or poisoned line was delivered (R207) -/
def F.WMEM_ERR_STATUS_UE : Fld := ⟨0x313030, 0, 1, .w1c, 0, .any⟩

/-- The registers of block WMEM. -/
def regsWMEM : List RegDesc := [
  ⟨"WMEM_CH_STATUS", 0x310000, 0x4000, 4, 0x0, 1, 32, [F.WMEM_CH_STATUS_TRAINED 0, F.WMEM_CH_STATUS_SELF_REF 0, F.WMEM_CH_STATUS_CAP 0, F.WMEM_CH_STATUS_WIDTH 0, F.WMEM_CH_STATUS_RANKS 0, F.WMEM_CH_STATUS_DIMMS 0]⟩,
  ⟨"WMEM_CE_CNT", 0x310008, 0x4000, 4, 0x0, 1, 64, [F.WMEM_CE_CNT_UE 0, F.WMEM_CE_CNT_CE 0]⟩,
  ⟨"WMEM_CE_CTL", 0x310010, 0x4000, 4, 0x0, 1, 32, [F.WMEM_CE_CTL_CLEAR 0, F.WMEM_CE_CTL_SEL 0, F.WMEM_CE_CTL_THRESH 0]⟩,
  ⟨"WMEM_CE_ENTRY", 0x310018, 0x4000, 4, 0x0, 1, 64, [F.WMEM_CE_ENTRY_VALID 0, F.WMEM_CE_ENTRY_HOT 0, F.WMEM_CE_ENTRY_SUB 0, F.WMEM_CE_ENTRY_RANK 0, F.WMEM_CE_ENTRY_BG 0, F.WMEM_CE_ENTRY_BANK 0, F.WMEM_CE_ENTRY_DROW 0, F.WMEM_CE_ENTRY_COL 0, F.WMEM_CE_ENTRY_DEVICE 0, F.WMEM_CE_ENTRY_COUNT 0, F.WMEM_CE_ENTRY_LAST 0]⟩,
  ⟨"WMEM_UE_ADDR", 0x310020, 0x4000, 4, 0x0, 1, 64, [F.WMEM_UE_ADDR 0]⟩,
  ⟨"WMEM_TEST_CTL", 0x310100, 0x4000, 4, 0x0, 1, 32, [F.WMEM_TEST_CTL_GO 0, F.WMEM_TEST_CTL_BUSY 0, F.WMEM_TEST_CTL_OP 0, F.WMEM_TEST_CTL_SUB 0, F.WMEM_TEST_CTL_LINE 0]⟩,
  ⟨"WMEM_TEST_RESULT", 0x310108, 0x4000, 4, 0x0, 1, 32, [F.WMEM_TEST_RESULT_DONE 0, F.WMEM_TEST_RESULT_OUTCOME 0, F.WMEM_TEST_RESULT_DEVICE 0, F.WMEM_TEST_RESULT_SYMBOLS 0]⟩,
  ⟨"WMEM_TEST_CHKXi", 0x310110, 0x4000, 4, 0x8, 2, 64, [F.WMEM_TEST_CHKX 0 0]⟩,
  ⟨"WMEM_TEST_WDATAi", 0x310140, 0x4000, 4, 0x8, 8, 64, [F.WMEM_TEST_WDATA 0 0]⟩,
  ⟨"WMEM_TEST_CDATAi", 0x310180, 0x4000, 4, 0x8, 8, 64, [F.WMEM_TEST_CDATA 0 0]⟩,
  ⟨"WMEM_TEST_RDATAi", 0x3101C0, 0x4000, 4, 0x8, 10, 64, [F.WMEM_TEST_RDATA 0 0]⟩,
  ⟨"WMEM_CFG", 0x313000, 0x0, 1, 0x0, 1, 32, [F.WMEM_CFG_TOTAL_GIB, F.WMEM_CFG_MTS]⟩,
  ⟨"WMEM_STATUS", 0x313008, 0x0, 1, 0x0, 1, 32, [F.WMEM_STATUS_POP_ERR, F.WMEM_STATUS_REC_FAIL, F.WMEM_STATUS_TRAIN_SRC]⟩,
  ⟨"WMEM_MERGE_CFG", 0x313010, 0x0, 1, 0x0, 1, 32, [F.WMEM_MERGE_CFG_HOLD]⟩,
  ⟨"WMEM_MERGE_CNT", 0x313018, 0x0, 1, 0x0, 1, 64, [F.WMEM_MERGE_CNT_RMW, F.WMEM_MERGE_CNT_FULL]⟩,
  ⟨"WMEM_SCRUB_CFG", 0x313020, 0x0, 1, 0x0, 1, 32, [F.WMEM_SCRUB_CFG_EN, F.WMEM_SCRUB_CFG_HOURS]⟩,
  ⟨"WMEM_SCRUB_POS", 0x313028, 0x0, 1, 0x0, 1, 64, [F.WMEM_SCRUB_POS_PASSES, F.WMEM_SCRUB_POS_LINE]⟩,
  ⟨"WMEM_ERR_STATUS", 0x313030, 0x0, 1, 0x0, 1, 32, [F.WMEM_ERR_STATUS_HOT, F.WMEM_ERR_STATUS_CE_OVF, F.WMEM_ERR_STATUS_RMW_UE, F.WMEM_ERR_STATUS_SCRUB_UE, F.WMEM_ERR_STATUS_UE]⟩]

/-! ### ECC -/

/-- R214: Corrected-bit threshold, 1 to 20. Other values are reserved, handled as R4 states -/
def F.ECC_MEDIA_CFG_BITS : Fld := ⟨0x320000, 0, 5, .rw, 16, (.range 1 20)⟩
/-- R214: 1: empty the table -/
def F.ECC_MEDIA_CTL_CLEAR : Fld := ⟨0x320008, 31, 1, .wo, 0, .any⟩
/-- R214: Entry shown -/
def F.ECC_MEDIA_CTL_SEL : Fld := ⟨0x320008, 0, 6, .rw, 0, .any⟩
/-- R214: Entry in use -/
def F.ECC_MEDIA_ENTRY_HI_VALID : Fld := ⟨0x320010, 63, 1, .ro, 0, .any⟩
/-- R214: Highest ladder step, 0 to 5 -/
def F.ECC_MEDIA_ENTRY_HI_MAXSTEP : Fld := ⟨0x320010, 60, 3, .ro, 0, .any⟩
/-- R214: Highest corrected-bit count, 0 to 20 -/
def F.ECC_MEDIA_ENTRY_HI_MAXBITS : Fld := ⟨0x320010, 55, 5, .ro, 0, .any⟩
/-- R214: Leaf, 0 to 64 -/
def F.ECC_MEDIA_ENTRY_HI_LEAF : Fld := ⟨0x320010, 48, 7, .ro, 0, .any⟩
/-- R214: Events, saturating at 4,095 -/
def F.ECC_MEDIA_ENTRY_HI_COUNT : Fld := ⟨0x320010, 36, 12, .ro, 0, .any⟩
/-- R214: Row (R50) -/
def F.ECC_MEDIA_ENTRY_HI_PFA : Fld := ⟨0x320010, 0, 36, .ro, 0, .any⟩
/-- R214: Ephemeris time of the last event, in ns -/
def F.ECC_MEDIA_ENTRY_LO_LAST : Fld := ⟨0x320018, 0, 64, .ro, 0, .any⟩
/-- R214: Entries replaced since cold start or CLEAR, saturating at 0xFFFF -/
def F.ECC_MEDIA_STATUS_REPLACED : Fld := ⟨0x320020, 16, 16, .ro, 0, .any⟩
/-- R214: Valid entries, 0 to 64 -/
def F.ECC_MEDIA_STATUS_ENTRIES : Fld := ⟨0x320020, 0, 7, .ro, 0, .any⟩

/-- The registers of block ECC. -/
def regsECC : List RegDesc := [
  ⟨"ECC_MEDIA_CFG", 0x320000, 0x0, 1, 0x0, 1, 32, [F.ECC_MEDIA_CFG_BITS]⟩,
  ⟨"ECC_MEDIA_CTL", 0x320008, 0x0, 1, 0x0, 1, 32, [F.ECC_MEDIA_CTL_CLEAR, F.ECC_MEDIA_CTL_SEL]⟩,
  ⟨"ECC_MEDIA_ENTRY_HI", 0x320010, 0x0, 1, 0x0, 1, 64, [F.ECC_MEDIA_ENTRY_HI_VALID, F.ECC_MEDIA_ENTRY_HI_MAXSTEP, F.ECC_MEDIA_ENTRY_HI_MAXBITS, F.ECC_MEDIA_ENTRY_HI_LEAF, F.ECC_MEDIA_ENTRY_HI_COUNT, F.ECC_MEDIA_ENTRY_HI_PFA]⟩,
  ⟨"ECC_MEDIA_ENTRY_LO", 0x320018, 0x0, 1, 0x0, 1, 64, [F.ECC_MEDIA_ENTRY_LO_LAST]⟩,
  ⟨"ECC_MEDIA_STATUS", 0x320020, 0x0, 1, 0x0, 1, 32, [F.ECC_MEDIA_STATUS_REPLACED, F.ECC_MEDIA_STATUS_ENTRIES]⟩]

/-! ### CIPH -/

/-- R245: One bit per lane: 1 means it passed its known-answer tests -/
def F.CIPH_STATUS_LANE_OK : Fld := ⟨0x330000, 16, 8, .ro, 0, .any⟩
/-- R245: One bit per lane: 1 means it is powered -/
def F.CIPH_STATUS_LANE_ON : Fld := ⟨0x330000, 8, 8, .ro, 0, .any⟩
/-- R245: R230 has completed -/
def F.CIPH_STATUS_KEYS_LOADED : Fld := ⟨0x330000, 0, 1, .ro, 0, .any⟩
/-- R245: An entropy health test failed (R228) -/
def F.CIPH_ERR_STATUS_DRBG_FAIL : Fld := ⟨0x330008, 6, 1, .w1c, 0, .any⟩
/-- R245: The vault could not be loaded (R230) -/
def F.CIPH_ERR_STATUS_VAULT_FAIL : Fld := ⟨0x330008, 5, 1, .w1c, 0, .any⟩
/-- R245: A lane failed its known-answer tests (R217) -/
def F.CIPH_ERR_STATUS_KAT_FAIL : Fld := ⟨0x330008, 4, 1, .w1c, 0, .any⟩
/-- R245: A mapped folio held a FREE KID (R221) -/
def F.CIPH_ERR_STATUS_KID_BAD : Fld := ⟨0x330008, 3, 1, .w1c, 0, .any⟩
/-- R245: A read was poisoned under a destroyed key (R221) -/
def F.CIPH_ERR_STATUS_KID_RD : Fld := ⟨0x330008, 2, 1, .w1c, 0, .any⟩
/-- R245: A write to a folio whose KID is not ACTIVE was discarded (R220) -/
def F.CIPH_ERR_STATUS_KID_WR : Fld := ⟨0x330008, 1, 1, .w1c, 0, .any⟩
/-- R245: A write was discarded for want of a current KID (R220) -/
def F.CIPH_ERR_STATUS_NO_KID : Fld := ⟨0x330008, 0, 1, .w1c, 0, .any⟩
/-- R245: Poisoned reads [63:32] and discarded writes [31:0] under R220 and R221; each saturates at  -/
def F.CIPH_DROP_CNT_POISONED : Fld := ⟨0x330010, 32, 32, .rc, 0, .any⟩
/-- R245: Poisoned reads [63:32] and discarded writes [31:0] under R220 and R221; each saturates at  -/
def F.CIPH_DROP_CNT_DISCARDED : Fld := ⟨0x330010, 0, 32, .rc, 0, .any⟩
/-- R245: FREE KIDs -/
def F.CIPH_KID_SUMMARY_FREE : Fld := ⟨0x330018, 48, 13, .ro, 0, .any⟩
/-- R245: ACTIVE and RETIRING KIDs -/
def F.CIPH_KID_SUMMARY_ACTIVE : Fld := ⟨0x330018, 32, 13, .ro, 0, .any⟩
/-- R245: RETIRED KIDs -/
def F.CIPH_KID_SUMMARY_RETIRED : Fld := ⟨0x330018, 16, 13, .ro, 0, .any⟩
/-- R245: DESTROYING and DESTROYED KIDs -/
def F.CIPH_KID_SUMMARY_DESTROYED : Fld := ⟨0x330018, 0, 13, .ro, 0, .any⟩
/-- R245: Vault generation -/
def F.CIPH_VAULT_GEN : Fld := ⟨0x330020, 32, 32, .ro, 0, .any⟩
/-- R245: Almanac vault record in use: 0 A, 1 B -/
def F.CIPH_VAULT_RECORD : Fld := ⟨0x330020, 0, 1, .ro, 0, .any⟩
/-- R245: 1: fetch the state of KID -/
def F.CIPH_KID_QUERY_GO : Fld := ⟨0x330028, 63, 1, .wo, 0, .any⟩
/-- R245: KID to query -/
def F.CIPH_KID_QUERY_KID : Fld := ⟨0x330028, 0, 12, .wo, 0, .any⟩
/-- R245: 1: the result is valid. A new GO clears it -/
def F.CIPH_KID_RESULT_DONE : Fld := ⟨0x330030, 63, 1, .ro, 0, .any⟩
/-- R245: As R218 encodes it -/
def F.CIPH_KID_RESULT_STATE : Fld := ⟨0x330030, 60, 3, .ro, 0, .any⟩
/-- R245: Owning LD -/
def F.CIPH_KID_RESULT_OWNER : Fld := ⟨0x330030, 56, 4, .ro, 0, .any⟩
/-- R245: The KID is its owner's current KID -/
def F.CIPH_KID_RESULT_CURRENT : Fld := ⟨0x330030, 55, 1, .ro, 0, .any⟩
/-- R245: KID_REFS (R227) -/
def F.CIPH_KID_RESULT_REFS : Fld := ⟨0x330030, 0, 30, .ro, 0, .any⟩
/-- R245: The LD has a current KID -/
def F.CIPH_LD_KID_VALID (n : Nat) : Fld := ⟨(0x330100 + n * 0x8), 31, 1, .ro, 0, .any⟩
/-- R245: KIDs of the LD that are not FREE -/
def F.CIPH_LD_KID_OWNED (n : Nat) : Fld := ⟨(0x330100 + n * 0x8), 16, 12, .ro, 0, .any⟩
/-- R245: Current KID -/
def F.CIPH_LD_KID_CUR (n : Nat) : Fld := ⟨(0x330100 + n * 0x8), 0, 12, .ro, 0, .any⟩
/-- R245: Most KIDs of the LD that may be other than FREE, 1 to 4,095. An ISSUE that would raise CIP -/
def F.CIPH_LD_QUOTA_QUOTA (n : Nat) : Fld := ⟨(0x330200 + n * 0x8), 0, 12, .rwl, 4095, (.range 1 4095)⟩
/-- R245: 1: KEY commands on rings of the FM-owned LD may act for any LD (R260). 0: such commands co -/
def F.CIPH_POLICY_FM_ACT : Fld := ⟨0x330280, 0, 1, .rwl, 1, .any⟩

/-- The registers of block CIPH. -/
def regsCIPH : List RegDesc := [
  ⟨"CIPH_STATUS", 0x330000, 0x0, 1, 0x0, 1, 32, [F.CIPH_STATUS_LANE_OK, F.CIPH_STATUS_LANE_ON, F.CIPH_STATUS_KEYS_LOADED]⟩,
  ⟨"CIPH_ERR_STATUS", 0x330008, 0x0, 1, 0x0, 1, 32, [F.CIPH_ERR_STATUS_DRBG_FAIL, F.CIPH_ERR_STATUS_VAULT_FAIL, F.CIPH_ERR_STATUS_KAT_FAIL, F.CIPH_ERR_STATUS_KID_BAD, F.CIPH_ERR_STATUS_KID_RD, F.CIPH_ERR_STATUS_KID_WR, F.CIPH_ERR_STATUS_NO_KID]⟩,
  ⟨"CIPH_DROP_CNT", 0x330010, 0x0, 1, 0x0, 1, 64, [F.CIPH_DROP_CNT_POISONED, F.CIPH_DROP_CNT_DISCARDED]⟩,
  ⟨"CIPH_KID_SUMMARY", 0x330018, 0x0, 1, 0x0, 1, 64, [F.CIPH_KID_SUMMARY_FREE, F.CIPH_KID_SUMMARY_ACTIVE, F.CIPH_KID_SUMMARY_RETIRED, F.CIPH_KID_SUMMARY_DESTROYED]⟩,
  ⟨"CIPH_VAULT", 0x330020, 0x0, 1, 0x0, 1, 64, [F.CIPH_VAULT_GEN, F.CIPH_VAULT_RECORD]⟩,
  ⟨"CIPH_KID_QUERY", 0x330028, 0x0, 1, 0x0, 1, 64, [F.CIPH_KID_QUERY_GO, F.CIPH_KID_QUERY_KID]⟩,
  ⟨"CIPH_KID_RESULT", 0x330030, 0x0, 1, 0x0, 1, 64, [F.CIPH_KID_RESULT_DONE, F.CIPH_KID_RESULT_STATE, F.CIPH_KID_RESULT_OWNER, F.CIPH_KID_RESULT_CURRENT, F.CIPH_KID_RESULT_REFS]⟩,
  ⟨"CIPH_LDn_KID", 0x330100, 0x8, 17, 0x0, 1, 32, [F.CIPH_LD_KID_VALID 0, F.CIPH_LD_KID_OWNED 0, F.CIPH_LD_KID_CUR 0]⟩,
  ⟨"CIPH_LDn_QUOTA", 0x330200, 0x8, 17, 0x0, 1, 32, [F.CIPH_LD_QUOTA_QUOTA 0]⟩,
  ⟨"CIPH_POLICY", 0x330280, 0x0, 1, 0x0, 1, 32, [F.CIPH_POLICY_FM_ACT]⟩]

/-! ### MERID -/

/-- R246: Working-memory byte address of the protected region, 1 GiB aligned -/
def F.MERID_BASE : Fld := ⟨0x340000, 30, 34, .rwl, 0, .any⟩
/-- R246: P in GiB, 1 to 512. Other values are reserved and handled as R4 states. While SIZE_GIB is  -/
def F.MERID_CFG_SIZE_GIB : Fld := ⟨0x340008, 0, 10, .rwl, 0, (.range 1 512)⟩
/-- R246: Metadata base, 256 KiB aligned -/
def F.MERID_META_BASE : Fld := ⟨0x340010, 18, 46, .rwl, 0, .any⟩
/-- R246: Mirror region base, 256 KiB aligned -/
def F.MERID_MIRROR_BASE : Fld := ⟨0x340018, 18, 46, .rwl, 0, .any⟩
/-- R246: Metadata size in MiB, rounded up (R236) -/
def F.MERID_LAYOUT_META_MIB : Fld := ⟨0x340020, 32, 32, .ro, 0, .any⟩
/-- R246: Mirror region size in KiB (R241) -/
def F.MERID_LAYOUT_MIRROR_KIB : Fld := ⟨0x340020, 0, 32, .ro, 0, .any⟩
/-- R246: A re-key is running (R240) -/
def F.MERID_STATUS_REKEY : Fld := ⟨0x340028, 31, 1, .ro, 0, .any⟩
/-- R246: Working memory is being zeroed in the background after a cold reset -/
def F.MERID_STATUS_WIPE_BUSY : Fld := ⟨0x340028, 30, 1, .ro, 0, .any⟩
/-- R246: A MAJOR wrapped (R240) -/
def F.MERID_ERR_STATUS_WRAP : Fld := ⟨0x340030, 4, 1, .w1c, 0, .any⟩
/-- R246: An uncorrectable error in the root engine SRAM (R244) -/
def F.MERID_ERR_STATUS_ROOT_UE : Fld := ⟨0x340030, 3, 1, .w1c, 0, .any⟩
/-- R246: A node was lost (R243) -/
def F.MERID_ERR_STATUS_NODE_LOST : Fld := ⟨0x340030, 2, 1, .w1c, 0, .any⟩
/-- R246: A mirror copy replaced a failed primary (R242) -/
def F.MERID_ERR_STATUS_MIRROR_USED : Fld := ⟨0x340030, 1, 1, .w1c, 0, .any⟩
/-- R246: A counter or tag line failed its decode or verification -/
def F.MERID_ERR_STATUS_CTR_UE : Fld := ⟨0x340030, 0, 1, .w1c, 0, .any⟩
/-- R246: Highest MAJOR issued (R238) -/
def F.MERID_HWM : Fld := ⟨0x340038, 0, 64, .ro, 0, .any⟩
/-- R246: Overflows at L1 and above [63:32] and at L0 [31:0]; each saturates at 0xFFFF_FFFF -/
def F.MERID_OVF_CNT_UPPER : Fld := ⟨0x340040, 32, 32, .rc, 0, .any⟩
/-- R246: Overflows at L1 and above [63:32] and at L0 [31:0]; each saturates at 0xFFFF_FFFF -/
def F.MERID_OVF_CNT_L0 : Fld := ⟨0x340040, 0, 32, .rc, 0, .any⟩
/-- R246: Counter/tag cache misses [63:32] and hits [31:0]; each saturates at 0xFFFF_FFFF -/
def F.MERID_CACHE_CNT_MISSES : Fld := ⟨0x340048, 32, 32, .rc, 0, .any⟩
/-- R246: Counter/tag cache misses [63:32] and hits [31:0]; each saturates at 0xFFFF_FFFF -/
def F.MERID_CACHE_CNT_HITS : Fld := ⟨0x340048, 0, 32, .rc, 0, .any⟩
/-- R246: Lost nodes since cold start; saturates at 255 -/
def F.MERID_LOST_COUNT : Fld := ⟨0x340050, 56, 8, .ro, 0, .any⟩
/-- R246: Level of the last lost node, 0 to 2 -/
def F.MERID_LOST_LEVEL : Fld := ⟨0x340050, 54, 2, .ro, 0, .any⟩
/-- R246: Index of the last lost node within its level -/
def F.MERID_LOST_INDEX : Fld := ⟨0x340050, 0, 27, .ro, 0, .any⟩
/-- R246: Frames lost [63:32] and lines poisoned [31:0] under R243 since cold start; each saturates  -/
def F.MERID_LOST_CNT_FRAMES : Fld := ⟨0x340058, 32, 32, .ro, 0, .any⟩
/-- R246: Frames lost [63:32] and lines poisoned [31:0] under R243 since cold start; each saturates  -/
def F.MERID_LOST_CNT_LINES : Fld := ⟨0x340058, 0, 32, .ro, 0, .any⟩

/-- The registers of block MERID. -/
def regsMERID : List RegDesc := [
  ⟨"MERID_BASE", 0x340000, 0x0, 1, 0x0, 1, 64, [F.MERID_BASE]⟩,
  ⟨"MERID_CFG", 0x340008, 0x0, 1, 0x0, 1, 32, [F.MERID_CFG_SIZE_GIB]⟩,
  ⟨"MERID_META_BASE", 0x340010, 0x0, 1, 0x0, 1, 64, [F.MERID_META_BASE]⟩,
  ⟨"MERID_MIRROR_BASE", 0x340018, 0x0, 1, 0x0, 1, 64, [F.MERID_MIRROR_BASE]⟩,
  ⟨"MERID_LAYOUT", 0x340020, 0x0, 1, 0x0, 1, 64, [F.MERID_LAYOUT_META_MIB, F.MERID_LAYOUT_MIRROR_KIB]⟩,
  ⟨"MERID_STATUS", 0x340028, 0x0, 1, 0x0, 1, 32, [F.MERID_STATUS_REKEY, F.MERID_STATUS_WIPE_BUSY]⟩,
  ⟨"MERID_ERR_STATUS", 0x340030, 0x0, 1, 0x0, 1, 32, [F.MERID_ERR_STATUS_WRAP, F.MERID_ERR_STATUS_ROOT_UE, F.MERID_ERR_STATUS_NODE_LOST, F.MERID_ERR_STATUS_MIRROR_USED, F.MERID_ERR_STATUS_CTR_UE]⟩,
  ⟨"MERID_HWM", 0x340038, 0x0, 1, 0x0, 1, 64, [F.MERID_HWM]⟩,
  ⟨"MERID_OVF_CNT", 0x340040, 0x0, 1, 0x0, 1, 64, [F.MERID_OVF_CNT_UPPER, F.MERID_OVF_CNT_L0]⟩,
  ⟨"MERID_CACHE_CNT", 0x340048, 0x0, 1, 0x0, 1, 64, [F.MERID_CACHE_CNT_MISSES, F.MERID_CACHE_CNT_HITS]⟩,
  ⟨"MERID_LOST", 0x340050, 0x0, 1, 0x0, 1, 64, [F.MERID_LOST_COUNT, F.MERID_LOST_LEVEL, F.MERID_LOST_INDEX]⟩,
  ⟨"MERID_LOST_CNT", 0x340058, 0x0, 1, 0x0, 1, 64, [F.MERID_LOST_CNT_FRAMES, F.MERID_LOST_CNT_LINES]⟩]

/-! ### QP -/

/-- R249: Address bits [63:12]; the ring is 4 KiB aligned -/
def F.QP_SQ_BASE_ADDR (p : Nat) : Fld := ⟨(0x400000 + p * 0x40), 12, 52, .rw, 0, .any⟩
/-- R249: Address bits [63:12]; the ring is 4 KiB aligned -/
def F.QP_CQ_BASE_ADDR (p : Nat) : Fld := ⟨(0x400008 + p * 0x40), 12, 52, .rw, 0, .any⟩
/-- R249: Pair enable -/
def F.QP_CFG_EN (p : Nat) : Fld := ⟨(0x400010 + p * 0x40), 31, 1, .rw, 0, .any⟩
/-- R249: 1: a completion with a status other than DONE raises the interrupt at once -/
def F.QP_CFG_IRQ_ERR (p : Nat) : Fld := ⟨(0x400010 + p * 0x40), 30, 1, .rw, 0, .any⟩
/-- R249: 0b00 high, 0b01 normal, 0b10 low. 0b11 is reserved, handled as R4 states -/
def F.QP_CFG_PRIO (p : Nat) : Fld := ⟨(0x400010 + p * 0x40), 28, 2, .rw, 1, (.range 0 2)⟩
/-- R249: Commands fetched per arbitration turn, minus 1 -/
def F.QP_CFG_WEIGHT (p : Nat) : Fld := ⟨(0x400010 + p * 0x40), 24, 4, .rw, 0, .any⟩
/-- R249: MSI-X vector of the owner's view -/
def F.QP_CFG_VECTOR (p : Nat) : Fld := ⟨(0x400010 + p * 0x40), 16, 8, .rw, 0, .any⟩
/-- R249: SQ size 2^SQ_LOG2 entries, 4 to 12 -/
def F.QP_CFG_SQ_LOG2 (p : Nat) : Fld := ⟨(0x400010 + p * 0x40), 8, 4, .rw, 0, .any⟩
/-- R249: CQ size 2^CQ_LOG2 entries, 4 to 12 -/
def F.QP_CFG_CQ_LOG2 (p : Nat) : Fld := ⟨(0x400010 + p * 0x40), 0, 4, .rw, 0, .any⟩
/-- R249: Longest wait of a posted completion before the interrupt, in µs; 0 disables the timer -/
def F.QP_COAL_TIME_US (p : Nat) : Fld := ⟨(0x400018 + p * 0x40), 8, 8, .rw, 0, .any⟩
/-- R249: Completions per interrupt, 1 to 255. 0 is reserved, handled as R4 states -/
def F.QP_COAL_COUNT (p : Nat) : Fld := ⟨(0x400018 + p * 0x40), 0, 8, .rw, 1, (.range 1 255)⟩
/-- R249: Index written by the host; a read returns the last value accepted -/
def F.QP_SQ_TAIL_INDEX (p : Nat) : Fld := ⟨(0x400020 + p * 0x40), 0, 13, .rw, 0, .any⟩
/-- R249: Index written by the host; a read returns the last value accepted -/
def F.QP_CQ_HEAD_INDEX (p : Nat) : Fld := ⟨(0x400028 + p * 0x40), 0, 13, .rw, 0, .any⟩
/-- R249: 0b000 DISABLED, 0b001 ACTIVE, 0b010 DRAINING, 0b011 ERROR, 0b100 STOPPED -/
def F.QP_STATUS_STATE (p : Nat) : Fld := ⟨(0x400030 + p * 0x40), 61, 3, .ro, 0, .any⟩
/-- R249: Phase bit the device writes in its next completion -/
def F.QP_STATUS_PHASE (p : Nat) : Fld := ⟨(0x400030 + p * 0x40), 60, 1, .ro, 0, .any⟩
/-- R249: 0x00 none, 0x01 BAD_CFG, 0x02 BAD_DOORBELL, 0x03 DMA_FAIL, 0x04 MODE_STOP -/
def F.QP_STATUS_ERR (p : Nat) : Fld := ⟨(0x400030 + p * 0x40), 48, 5, .ro, 0, .any⟩
/-- R249: Commands fetched and not yet completed, 0 to 4,096 -/
def F.QP_STATUS_OUTSTANDING (p : Nat) : Fld := ⟨(0x400030 + p * 0x40), 32, 13, .ro, 0, .any⟩
/-- R249: CQ slot of the device's next completion -/
def F.QP_STATUS_CQ_TAIL (p : Nat) : Fld := ⟨(0x400030 + p * 0x40), 16, 13, .ro, 0, .any⟩
/-- R249: SQ slot of the device's next fetch -/
def F.QP_STATUS_SQ_HEAD (p : Nat) : Fld := ⟨(0x400030 + p * 0x40), 0, 13, .ro, 0, .any⟩
/-- R249: Completions with a status other than DONE; saturates at 0xFFFF_FFFF -/
def F.QP_DONE_CNT_ERRORS (p : Nat) : Fld := ⟨(0x400038 + p * 0x40), 32, 32, .ro, 0, .any⟩
/-- R249: Completions posted; saturates at 0xFFFF_FFFF -/
def F.QP_DONE_CNT_COMPLETED (p : Nat) : Fld := ⟨(0x400038 + p * 0x40), 0, 32, .ro, 0, .any⟩

/-- The registers of block QP. -/
def regsQP : List RegDesc := [
  ⟨"QP_SQ_BASE", 0x400000, 0x40, 16384, 0x0, 1, 64, [F.QP_SQ_BASE_ADDR 0]⟩,
  ⟨"QP_CQ_BASE", 0x400008, 0x40, 16384, 0x0, 1, 64, [F.QP_CQ_BASE_ADDR 0]⟩,
  ⟨"QP_CFG", 0x400010, 0x40, 16384, 0x0, 1, 64, [F.QP_CFG_EN 0, F.QP_CFG_IRQ_ERR 0, F.QP_CFG_PRIO 0, F.QP_CFG_WEIGHT 0, F.QP_CFG_VECTOR 0, F.QP_CFG_SQ_LOG2 0, F.QP_CFG_CQ_LOG2 0]⟩,
  ⟨"QP_COAL", 0x400018, 0x40, 16384, 0x0, 1, 64, [F.QP_COAL_TIME_US 0, F.QP_COAL_COUNT 0]⟩,
  ⟨"QP_SQ_TAIL", 0x400020, 0x40, 16384, 0x0, 1, 64, [F.QP_SQ_TAIL_INDEX 0]⟩,
  ⟨"QP_CQ_HEAD", 0x400028, 0x40, 16384, 0x0, 1, 64, [F.QP_CQ_HEAD_INDEX 0]⟩,
  ⟨"QP_STATUS", 0x400030, 0x40, 16384, 0x0, 1, 64, [F.QP_STATUS_STATE 0, F.QP_STATUS_PHASE 0, F.QP_STATUS_ERR 0, F.QP_STATUS_OUTSTANDING 0, F.QP_STATUS_CQ_TAIL 0, F.QP_STATUS_SQ_HEAD 0]⟩,
  ⟨"QP_DONE_CNT", 0x400038, 0x40, 16384, 0x0, 1, 64, [F.QP_DONE_CNT_ERRORS 0, F.QP_DONE_CNT_COMPLETED 0]⟩]

/-! ### RING -/

/-- R268: SHA-2 engines in use, 0 to 32 -/
def F.RING_STATUS_HASH_BUSY : Fld := ⟨0x350000, 32, 6, .ro, 0, .any⟩
/-- R268: Commands in flight, 0 to 16,384 -/
def F.RING_STATUS_IN_FLIGHT : Fld := ⟨0x350000, 0, 15, .ro, 0, .any⟩
/-- R268: A DMA to or from host memory failed -/
def F.RING_ERR_STATUS_HOST_DMA : Fld := ⟨0x350008, 2, 1, .w1c, 0, .any⟩
/-- R268: A pair entered ERROR (R250) -/
def F.RING_ERR_STATUS_PAIR_ERROR : Fld := ⟨0x350008, 1, 1, .w1c, 0, .any⟩
/-- R268: A RING_LDn_ALLOC write was ignored (R247) -/
def F.RING_ERR_STATUS_ALLOC_BAD : Fld := ⟨0x350008, 0, 1, .w1c, 0, .any⟩
/-- R268: Completions with a status other than DONE [63:32], all completions [31:0]; each saturates  -/
def F.RING_CMD_CNT_NOT_DONE : Fld := ⟨0x350010, 32, 32, .rc, 0, .any⟩
/-- R268: Completions with a status other than DONE [63:32], all completions [31:0]; each saturates  -/
def F.RING_CMD_CNT_ALL : Fld := ⟨0x350010, 0, 32, .rc, 0, .any⟩
/-- R268: Global pair, 0 to 16,383 -/
def F.RING_QP_SEL_PAIR : Fld := ⟨0x350018, 0, 14, .rw, 0, .any⟩
/-- R268: The pair has an owner -/
def F.RING_QP_OWNER_VALID : Fld := ⟨0x350020, 63, 1, .ro, 0, .any⟩
/-- R268: Owner: 0 to 15, or 16 for the FM-owned LD -/
def F.RING_QP_OWNER_LD : Fld := ⟨0x350020, 56, 5, .ro, 0, .any⟩
/-- R268: Local pair number within the owner -/
def F.RING_QP_OWNER_LOCAL : Fld := ⟨0x350020, 0, 14, .ro, 0, .any⟩
/-- R268: Commands in flight for the owner, 1 to 4,096. 0 and values above 4,096 are reserved, handl -/
def F.RING_LD_ALLOC_MAX_OUT (n : Nat) : Fld := ⟨(0x350100 + n * 0x8), 48, 13, .rw, 0, (.range 1 4096)⟩
/-- R268: Pairs owned, 0 to 16,384 -/
def F.RING_LD_ALLOC_COUNT (n : Nat) : Fld := ⟨(0x350100 + n * 0x8), 32, 15, .rw, 0, .any⟩
/-- R268: First global pair -/
def F.RING_LD_ALLOC_FIRST (n : Nat) : Fld := ⟨(0x350100 + n * 0x8), 0, 14, .rw, 0, .any⟩
/-- R268: The 64 B slot of the selected pair, read-only, laid out as R249 -/
def F.RING_QP_VIEW (n : Nat) : Fld := ⟨(0x350200 + n * 0x8), 0, 64, .ro, 0, .any⟩

/-- The registers of block RING. -/
def regsRING : List RegDesc := [
  ⟨"RING_STATUS", 0x350000, 0x0, 1, 0x0, 1, 64, [F.RING_STATUS_HASH_BUSY, F.RING_STATUS_IN_FLIGHT]⟩,
  ⟨"RING_ERR_STATUS", 0x350008, 0x0, 1, 0x0, 1, 32, [F.RING_ERR_STATUS_HOST_DMA, F.RING_ERR_STATUS_PAIR_ERROR, F.RING_ERR_STATUS_ALLOC_BAD]⟩,
  ⟨"RING_CMD_CNT", 0x350010, 0x0, 1, 0x0, 1, 64, [F.RING_CMD_CNT_NOT_DONE, F.RING_CMD_CNT_ALL]⟩,
  ⟨"RING_QP_SEL", 0x350018, 0x0, 1, 0x0, 1, 32, [F.RING_QP_SEL_PAIR]⟩,
  ⟨"RING_QP_OWNER", 0x350020, 0x0, 1, 0x0, 1, 64, [F.RING_QP_OWNER_VALID, F.RING_QP_OWNER_LD, F.RING_QP_OWNER_LOCAL]⟩,
  ⟨"RING_LDn_ALLOC", 0x350100, 0x8, 17, 0x0, 1, 64, [F.RING_LD_ALLOC_MAX_OUT 0, F.RING_LD_ALLOC_COUNT 0, F.RING_LD_ALLOC_FIRST 0]⟩,
  ⟨"RING_QP_VIEW", 0x350200, 0x8, 8, 0x0, 1, 64, [F.RING_QP_VIEW 0]⟩]

/-! ### REG -/

/-- R285: 1: misses raise the regulation cause (R275) -/
def F.REG_CTL_MISS_IRQ : Fld := ⟨0x360000, 1, 1, .rw, 1, .any⟩
/-- R285: Regulation enable (R270) -/
def F.REG_CTL_EN : Fld := ⟨0x360000, 0, 1, .rw, 1, .any⟩
/-- R285: Some effective floor is below its committed floor -/
def F.REG_STATUS_SCALED : Fld := ⟨0x360008, 31, 1, .ro, 0, .any⟩
/-- R285: The committed table overcommits REG_CAP (R277) -/
def F.REG_STATUS_FORCED : Fld := ⟨0x360008, 30, 1, .ro, 0, .any⟩
/-- R285: CAP_EFF is below the committed floors (R278) -/
def F.REG_STATUS_DERATED : Fld := ⟨0x360008, 29, 1, .ro, 0, .any⟩
/-- R285: A backlogged class holds credit in its floor bucket (R273) -/
def F.REG_STATUS_CONTEND : Fld := ⟨0x360008, 28, 1, .ro, 0, .any⟩
/-- R285: One bit per class: backlogged -/
def F.REG_STATUS_BACKLOG : Fld := ⟨0x360008, 0, 19, .ro, 0, .any⟩
/-- R285: Write capacity in 100 MB/s units, 1 to 1,023. 0 is reserved, handled as R4 states -/
def F.REG_CAP_WR_CAP : Fld := ⟨0x360010, 16, 10, .rwl, 300, (.range 1 1023)⟩
/-- R285: Read capacity in 100 MB/s units, 1 to 1,023. 0 is reserved, handled as R4 states -/
def F.REG_CAP_RD_CAP : Fld := ⟨0x360010, 0, 10, .rwl, 700, (.range 1 1023)⟩
/-- R285: Write capacity in 100 MB/s units, 1 to 1,023. 0 is reserved, handled as R4 states -/
def F.REG_CAP_EFF_WR_CAP : Fld := ⟨0x360018, 16, 10, .ro, 0, .any⟩
/-- R285: Read capacity in 100 MB/s units, 1 to 1,023. 0 is reserved, handled as R4 states -/
def F.REG_CAP_EFF_RD_CAP : Fld := ⟨0x360018, 0, 10, .ro, 0, .any⟩
/-- R285: 1: check and commit (R276) -/
def F.REG_ADMIT_GO : Fld := ⟨0x360020, 31, 1, .wo, 0, .any⟩
/-- R285: 1: commit despite overcommit (R277) -/
def F.REG_ADMIT_FORCE : Fld := ⟨0x360020, 30, 1, .rw, 0, .any⟩
/-- R285: A check is running -/
def F.REG_ADMIT_BUSY : Fld := ⟨0x360020, 29, 1, .ro, 0, .any⟩
/-- R285: 0b00 none, 0b01 OK, 0b10 OVERCOMMIT, 0b11 BAD_ENTRY -/
def F.REG_ADMIT_STATUS : Fld := ⟨0x360020, 26, 2, .ro, 0, .any⟩
/-- R285: Write floors exceed WR_CAP -/
def F.REG_ADMIT_OVER_WR : Fld := ⟨0x360020, 25, 1, .ro, 0, .any⟩
/-- R285: Read floors exceed RD_CAP -/
def F.REG_ADMIT_OVER_RD : Fld := ⟨0x360020, 24, 1, .ro, 0, .any⟩
/-- R285: First class that failed the entry check -/
def F.REG_ADMIT_BAD_CLASS : Fld := ⟨0x360020, 0, 5, .ro, 0, .any⟩
/-- R285: One bit per class: a miss occurred (R275) -/
def F.REG_FLOOR_MISS_CLASS : Fld := ⟨0x360028, 0, 19, .w1c, 0, .any⟩
/-- R285: One bit per class: a miss occurred (R275) -/
def F.REG_LAT_MISS_CLASS : Fld := ⟨0x360030, 0, 19, .w1c, 0, .any⟩
/-- R285: Write floor, 100 MB/s units -/
def F.REG_GT_RATE_WR_FLOOR (n : Nat) : Fld := ⟨(0x360100 + n * 0x10), 48, 10, .rw, 0, .any⟩
/-- R285: Read floor, 100 MB/s units -/
def F.REG_GT_RATE_RD_FLOOR (n : Nat) : Fld := ⟨(0x360100 + n * 0x10), 32, 10, .rw, 0, .any⟩
/-- R285: Write grant rate, 100 MB/s units; 0 unlimited -/
def F.REG_GT_RATE_WR_RATE (n : Nat) : Fld := ⟨(0x360100 + n * 0x10), 16, 10, .rw, 0, .any⟩
/-- R285: Read grant rate, 100 MB/s units; 0 unlimited -/
def F.REG_GT_RATE_RD_RATE (n : Nat) : Fld := ⟨(0x360100 + n * 0x10), 0, 10, .rw, 0, .any⟩
/-- R285: Read latency target in 0.1 µs units; 0 none; 1 to 19 fail the entry check -/
def F.REG_GT_LAT_LAT_TARGET (n : Nat) : Fld := ⟨(0x360108 + n * 0x10), 16, 8, .rw, 0, .any⟩
/-- R285: Grant bucket depth in KiB; 0 fails the entry check -/
def F.REG_GT_LAT_BURST_KIB (n : Nat) : Fld := ⟨(0x360108 + n * 0x10), 0, 16, .rw, 64, .any⟩
/-- R285: Write floor, 100 MB/s units -/
def F.REG_ACT_RATE_WR_FLOOR (n : Nat) : Fld := ⟨(0x360300 + n * 0x10), 48, 10, .ro, 0, .any⟩
/-- R285: Read floor, 100 MB/s units -/
def F.REG_ACT_RATE_RD_FLOOR (n : Nat) : Fld := ⟨(0x360300 + n * 0x10), 32, 10, .ro, 0, .any⟩
/-- R285: Write grant rate, 100 MB/s units; 0 unlimited -/
def F.REG_ACT_RATE_WR_RATE (n : Nat) : Fld := ⟨(0x360300 + n * 0x10), 16, 10, .ro, 0, .any⟩
/-- R285: Read grant rate, 100 MB/s units; 0 unlimited -/
def F.REG_ACT_RATE_RD_RATE (n : Nat) : Fld := ⟨(0x360300 + n * 0x10), 0, 10, .ro, 0, .any⟩
/-- R285: Read latency target in 0.1 µs units; 0 none; 1 to 19 fail the entry check -/
def F.REG_ACT_LAT_LAT_TARGET (n : Nat) : Fld := ⟨(0x360308 + n * 0x10), 16, 8, .ro, 0, .any⟩
/-- R285: Grant bucket depth in KiB; 0 fails the entry check -/
def F.REG_ACT_LAT_BURST_KIB (n : Nat) : Fld := ⟨(0x360308 + n * 0x10), 0, 16, .ro, 64, .any⟩
/-- R285: Effective write floor -/
def F.REG_EFF_WR_FLOOR_EFF (n : Nat) : Fld := ⟨(0x360500 + n * 0x8), 16, 10, .ro, 0, .any⟩
/-- R285: Effective read floor -/
def F.REG_EFF_RD_FLOOR_EFF (n : Nat) : Fld := ⟨(0x360500 + n * 0x8), 0, 10, .ro, 0, .any⟩
/-- R285: Floor misses [63:32] and latency misses [31:0]; each saturates at 0xFFFF_FFFF -/
def F.REG_CNT_FLOOR (n : Nat) : Fld := ⟨(0x360600 + n * 0x8), 32, 32, .rc, 0, .any⟩
/-- R285: Floor misses [63:32] and latency misses [31:0]; each saturates at 0xFFFF_FFFF -/
def F.REG_CNT_LAT (n : Nat) : Fld := ⟨(0x360600 + n * 0x8), 0, 32, .rc, 0, .any⟩

/-- The registers of block REG. -/
def regsREG : List RegDesc := [
  ⟨"REG_CTL", 0x360000, 0x0, 1, 0x0, 1, 32, [F.REG_CTL_MISS_IRQ, F.REG_CTL_EN]⟩,
  ⟨"REG_STATUS", 0x360008, 0x0, 1, 0x0, 1, 32, [F.REG_STATUS_SCALED, F.REG_STATUS_FORCED, F.REG_STATUS_DERATED, F.REG_STATUS_CONTEND, F.REG_STATUS_BACKLOG]⟩,
  ⟨"REG_CAP", 0x360010, 0x0, 1, 0x0, 1, 32, [F.REG_CAP_WR_CAP, F.REG_CAP_RD_CAP]⟩,
  ⟨"REG_CAP_EFF", 0x360018, 0x0, 1, 0x0, 1, 32, [F.REG_CAP_EFF_WR_CAP, F.REG_CAP_EFF_RD_CAP]⟩,
  ⟨"REG_ADMIT", 0x360020, 0x0, 1, 0x0, 1, 32, [F.REG_ADMIT_GO, F.REG_ADMIT_FORCE, F.REG_ADMIT_BUSY, F.REG_ADMIT_STATUS, F.REG_ADMIT_OVER_WR, F.REG_ADMIT_OVER_RD, F.REG_ADMIT_BAD_CLASS]⟩,
  ⟨"REG_FLOOR_MISS", 0x360028, 0x0, 1, 0x0, 1, 32, [F.REG_FLOOR_MISS_CLASS]⟩,
  ⟨"REG_LAT_MISS", 0x360030, 0x0, 1, 0x0, 1, 32, [F.REG_LAT_MISS_CLASS]⟩,
  ⟨"REG_GTc_RATE", 0x360100, 0x10, 19, 0x0, 1, 64, [F.REG_GT_RATE_WR_FLOOR 0, F.REG_GT_RATE_RD_FLOOR 0, F.REG_GT_RATE_WR_RATE 0, F.REG_GT_RATE_RD_RATE 0]⟩,
  ⟨"REG_GTc_LAT", 0x360108, 0x10, 19, 0x0, 1, 32, [F.REG_GT_LAT_LAT_TARGET 0, F.REG_GT_LAT_BURST_KIB 0]⟩,
  ⟨"REG_ACTc_RATE", 0x360300, 0x10, 19, 0x0, 1, 64, [F.REG_ACT_RATE_WR_FLOOR 0, F.REG_ACT_RATE_RD_FLOOR 0, F.REG_ACT_RATE_WR_RATE 0, F.REG_ACT_RATE_RD_RATE 0]⟩,
  ⟨"REG_ACTc_LAT", 0x360308, 0x10, 19, 0x0, 1, 32, [F.REG_ACT_LAT_LAT_TARGET 0, F.REG_ACT_LAT_BURST_KIB 0]⟩,
  ⟨"REG_EFFc", 0x360500, 0x8, 19, 0x0, 1, 32, [F.REG_EFF_WR_FLOOR_EFF 0, F.REG_EFF_RD_FLOOR_EFF 0]⟩,
  ⟨"REG_CNTc", 0x360600, 0x8, 19, 0x0, 1, 64, [F.REG_CNT_FLOOR 0, F.REG_CNT_LAT 0]⟩]

/-! ### LEDG -/

/-- R286: LEDGER_FAULT raised since cold start -/
def F.LEDG_STATUS_FAULT : Fld := ⟨0x370000, 31, 1, .ro, 0, .any⟩
/-- R286: The checker is running (R280) -/
def F.LEDG_STATUS_CHECKING : Fld := ⟨0x370000, 30, 1, .ro, 0, .any⟩
/-- R286: The image did not pass signature verification (R282) -/
def F.LEDG_STATUS_UNAUTH : Fld := ⟨0x370000, 29, 1, .ro, 0, .any⟩
/-- R286: One bit per ledger ID: skipped after an SRAM error -/
def F.LEDG_STATUS_UNTRUSTED : Fld := ⟨0x370000, 16, 8, .ro, 0, .any⟩
/-- R286: Imbalances since cold start; saturates at 0xFFFF -/
def F.LEDG_FAULT_ID_COUNT : Fld := ⟨0x370008, 48, 16, .ro, 0, .any⟩
/-- R286: The first fault was injected -/
def F.LEDG_FAULT_ID_INJECTED : Fld := ⟨0x370008, 47, 1, .ro, 0, .any⟩
/-- R286: Ledger ID (R279) -/
def F.LEDG_FAULT_ID_LEDGER : Fld := ⟨0x370008, 32, 3, .ro, 0, .any⟩
/-- R286: CREDIT: [3] port, [2:0] class 0 Req, 1 RwD, 2 posted header, 3 posted data, 4 non-posted h -/
def F.LEDG_FAULT_ID_INDEX : Fld := ⟨0x370008, 0, 16, .ro, 0, .any⟩
/-- R286: Left side at the first fault -/
def F.LEDG_FAULT_LHS : Fld := ⟨0x370010, 0, 64, .ro, 0, .any⟩
/-- R286: Right side at the first fault -/
def F.LEDG_FAULT_RHS : Fld := ⟨0x370018, 0, 64, .ro, 0, .any⟩
/-- R286: Ephemeris time of the first fault -/
def F.LEDG_FAULT_TIME : Fld := ⟨0x370020, 0, 64, .ro, 0, .any⟩
/-- R286: Ledger ID -/
def F.LEDG_SEL_LEDGER : Fld := ⟨0x370028, 16, 3, .rw, 0, .any⟩
/-- R286: Index, encoded as in LEDG_FAULT_ID. An index that the ledger does not have reads both side -/
def F.LEDG_SEL_INDEX : Fld := ⟨0x370028, 0, 16, .rw, 0, .any⟩
/-- R286: Live left side; a read takes a new snapshot -/
def F.LEDG_LHS : Fld := ⟨0x370030, 0, 64, .ro, 0, .any⟩
/-- R286: Right side from the snapshot of the last LEDG_LHS read or LEDG_SEL write -/
def F.LEDG_RHS : Fld := ⟨0x370038, 0, 64, .ro, 0, .any⟩
/-- R286: Frames lost with cause MERIDIAN since cold start; saturates at 0xFFFF_FFFF -/
def F.LEDG_LOST : Fld := ⟨0x370040, 0, 32, .ro, 0, .any⟩
/-- R286: Balanced resets since cold start; saturates at 0xFFFF_FFFF -/
def F.LEDG_RESET_CNT : Fld := ⟨0x370048, 0, 32, .ro, 0, .any⟩
/-- R286: 1: add DELTA to the left side -/
def F.LEDG_INJECT_GO : Fld := ⟨0x370050, 63, 1, .wo, 0, .any⟩
/-- R286: Ledger ID -/
def F.LEDG_INJECT_LEDGER : Fld := ⟨0x370050, 48, 3, .wo, 0, .any⟩
/-- R286: Index -/
def F.LEDG_INJECT_INDEX : Fld := ⟨0x370050, 32, 16, .wo, 0, .any⟩
/-- R286: Signed amount -/
def F.LEDG_INJECT_DELTA : Fld := ⟨0x370050, 0, 32, .wo, 0, .any⟩

/-- The registers of block LEDG. -/
def regsLEDG : List RegDesc := [
  ⟨"LEDG_STATUS", 0x370000, 0x0, 1, 0x0, 1, 32, [F.LEDG_STATUS_FAULT, F.LEDG_STATUS_CHECKING, F.LEDG_STATUS_UNAUTH, F.LEDG_STATUS_UNTRUSTED]⟩,
  ⟨"LEDG_FAULT_ID", 0x370008, 0x0, 1, 0x0, 1, 64, [F.LEDG_FAULT_ID_COUNT, F.LEDG_FAULT_ID_INJECTED, F.LEDG_FAULT_ID_LEDGER, F.LEDG_FAULT_ID_INDEX]⟩,
  ⟨"LEDG_FAULT_LHS", 0x370010, 0x0, 1, 0x0, 1, 64, [F.LEDG_FAULT_LHS]⟩,
  ⟨"LEDG_FAULT_RHS", 0x370018, 0x0, 1, 0x0, 1, 64, [F.LEDG_FAULT_RHS]⟩,
  ⟨"LEDG_FAULT_TIME", 0x370020, 0x0, 1, 0x0, 1, 64, [F.LEDG_FAULT_TIME]⟩,
  ⟨"LEDG_SEL", 0x370028, 0x0, 1, 0x0, 1, 32, [F.LEDG_SEL_LEDGER, F.LEDG_SEL_INDEX]⟩,
  ⟨"LEDG_LHS", 0x370030, 0x0, 1, 0x0, 1, 64, [F.LEDG_LHS]⟩,
  ⟨"LEDG_RHS", 0x370038, 0x0, 1, 0x0, 1, 64, [F.LEDG_RHS]⟩,
  ⟨"LEDG_LOST", 0x370040, 0x0, 1, 0x0, 1, 32, [F.LEDG_LOST]⟩,
  ⟨"LEDG_RESET_CNT", 0x370048, 0x0, 1, 0x0, 1, 32, [F.LEDG_RESET_CNT]⟩,
  ⟨"LEDG_INJECT", 0x370050, 0x0, 1, 0x0, 1, 64, [F.LEDG_INJECT_GO, F.LEDG_INJECT_LEDGER, F.LEDG_INJECT_INDEX, F.LEDG_INJECT_DELTA]⟩]

/-! ### IMG -/

/-- R312: 1: write an image booted from xSPI to a slot (R301) -/
def F.IMG_CTL_AUTO_PERSIST : Fld := ⟨0x380000, 1, 1, .rw, 1, .any⟩
/-- R312: 1: online activation allowed (R305) -/
def F.IMG_CTL_ONLINE_EN : Fld := ⟨0x380000, 0, 1, .rw, 1, .any⟩
/-- R312: Image load complete (R296) -/
def F.IMG_STATUS_LOADED : Fld := ⟨0x380008, 31, 1, .ro, 0, .any⟩
/-- R312: Loaded under the exception of R290 -/
def F.IMG_STATUS_UNAUTH : Fld := ⟨0x380008, 30, 1, .ro, 0, .any⟩
/-- R312: A unit runs a staged segment (R306) -/
def F.IMG_STATUS_MIXED : Fld := ⟨0x380008, 29, 1, .ro, 0, .any⟩
/-- R312: Online activation running -/
def F.IMG_STATUS_ACTIVATING : Fld := ⟨0x380008, 28, 1, .ro, 0, .any⟩
/-- R312: 0x0 none, 0x1 slot A copy 0, 0x2 slot A copy 1, 0x3 slot B copy 0, 0x4 slot B copy 1, 0x5  -/
def F.IMG_STATUS_SOURCE : Fld := ⟨0x380008, 24, 4, .ro, 0, .any⟩
/-- R312: Time from loader start to LOADED, in ms -/
def F.IMG_STATUS_LOAD_MS : Fld := ⟨0x380008, 0, 16, .ro, 0, .any⟩
/-- R312: An image is running (RUN_ID) or staged and verified (STAGE_ID) -/
def F.IMG_RUN_ID_VALID : Fld := ⟨0x380010, 63, 1, .ro, 0, .any⟩
/-- R312: STAGE_ID: written to the inactive slot. RUN_ID: runs from a slot -/
def F.IMG_RUN_ID_PERSISTED : Fld := ⟨0x380010, 62, 1, .ro, 0, .any⟩
/-- R312: 0: slot A. 1: slot B -/
def F.IMG_RUN_ID_SLOT : Fld := ⟨0x380010, 61, 1, .ro, 0, .any⟩
/-- R312: OTP key slot of the signer -/
def F.IMG_RUN_ID_KEY_SLOT : Fld := ⟨0x380010, 36, 2, .ro, 0, .any⟩
/-- R312: As the header -/
def F.IMG_RUN_ID_IMAGE_VER : Fld := ⟨0x380010, 0, 32, .ro, 0, .any⟩
/-- R312: An image is running (RUN_ID) or staged and verified (STAGE_ID) -/
def F.IMG_STAGE_ID_VALID : Fld := ⟨0x380018, 63, 1, .ro, 0, .any⟩
/-- R312: STAGE_ID: written to the inactive slot. RUN_ID: runs from a slot -/
def F.IMG_STAGE_ID_PERSISTED : Fld := ⟨0x380018, 62, 1, .ro, 0, .any⟩
/-- R312: 0: slot A. 1: slot B -/
def F.IMG_STAGE_ID_SLOT : Fld := ⟨0x380018, 61, 1, .ro, 0, .any⟩
/-- R312: OTP key slot of the signer -/
def F.IMG_STAGE_ID_KEY_SLOT : Fld := ⟨0x380018, 36, 2, .ro, 0, .any⟩
/-- R312: As the header -/
def F.IMG_STAGE_ID_IMAGE_VER : Fld := ⟨0x380018, 0, 32, .ro, 0, .any⟩
/-- R312: 1: start the reload (R306) -/
def F.IMG_RELOAD_GO : Fld := ⟨0x380020, 31, 1, .wo, 0, .any⟩
/-- R312: 0x1 CHAN, 0x2 REG, 0x3 DOME, 0x4 standby assistant, 0x5 SWAP. Others are reserved; a GO wi -/
def F.IMG_RELOAD_UNIT : Fld := ⟨0x380020, 24, 4, .rw, 0, .any⟩
/-- R312: 0: staged image. 1: running image -/
def F.IMG_RELOAD_SRC : Fld := ⟨0x380020, 8, 1, .rw, 0, .any⟩
/-- R312: Channel for CHAN -/
def F.IMG_RELOAD_CHANNEL : Fld := ⟨0x380020, 0, 5, .rw, 0, .any⟩
/-- R312: A reload or activation is running -/
def F.IMG_RELOAD_STATUS_BUSY : Fld := ⟨0x380028, 31, 1, .ro, 0, .any⟩
/-- R312: 0b000 none, 0b001 OK, 0b010 ROLLED_BACK, 0b011 FAILED, 0b100 REFUSED; others do not occur -/
def F.IMG_RELOAD_STATUS_RESULT : Fld := ⟨0x380028, 28, 3, .ro, 0, .any⟩
/-- R312: For REFUSED: 0x1 no source, 0x2 unit absent, 0x3 LOCKED, 0x4 HU_OK low, 0x5 mode transitio -/
def F.IMG_RELOAD_STATUS_REASON : Fld := ⟨0x380028, 24, 4, .ro, 0, .any⟩
/-- R312: Duration of the last reload in µs -/
def F.IMG_RELOAD_STATUS_TIME_US : Fld := ⟨0x380028, 0, 24, .ro, 0, .any⟩
/-- R312: A swap timed out (R309) -/
def F.IMG_ERR_STATUS_SWAP_FAIL : Fld := ⟨0x380030, 11, 1, .w1c, 0, .any⟩
/-- R312: An online activation rolled back (R305) -/
def F.IMG_ERR_STATUS_ACT_FAIL : Fld := ⟨0x380030, 10, 1, .w1c, 0, .any⟩
/-- R312: A boot pointer was unusable, or its write was refused -/
def F.IMG_ERR_STATUS_PTR_FAIL : Fld := ⟨0x380030, 9, 1, .w1c, 0, .any⟩
/-- R312: A copy could not be read -/
def F.IMG_ERR_STATUS_COPY_READ : Fld := ⟨0x380030, 8, 1, .w1c, 0, .any⟩
/-- R312: A component trailer failed (R289) -/
def F.IMG_ERR_STATUS_COMP_SIG_BAD : Fld := ⟨0x380030, 7, 1, .w1c, 0, .any⟩
/-- R312: R292 or R293 broken -/
def F.IMG_ERR_STATUS_TABLE_BAD : Fld := ⟨0x380030, 6, 1, .w1c, 0, .any⟩
/-- R312: A body digest failed -/
def F.IMG_ERR_STATUS_DIGEST_BAD : Fld := ⟨0x380030, 5, 1, .w1c, 0, .any⟩
/-- R312: LC_MASK excludes the current state -/
def F.IMG_ERR_STATUS_LC_DENY : Fld := ⟨0x380030, 4, 1, .w1c, 0, .any⟩
/-- R312: SVN below MIN_SVN -/
def F.IMG_ERR_STATUS_SVN_LOW : Fld := ⟨0x380030, 3, 1, .w1c, 0, .any⟩
/-- R312: The image signature failed -/
def F.IMG_ERR_STATUS_SIG_BAD : Fld := ⟨0x380030, 2, 1, .w1c, 0, .any⟩
/-- R312: PUBKEY matches no unrevoked slot -/
def F.IMG_ERR_STATUS_KEY_BAD : Fld := ⟨0x380030, 1, 1, .w1c, 0, .any⟩
/-- R312: Header fields wrong (R290) -/
def F.IMG_ERR_STATUS_HDR_BAD : Fld := ⟨0x380030, 0, 1, .w1c, 0, .any⟩
/-- R312: Byte k is attempt k, from k = 0 upwards. [7:4] source, encoded as IMG_STATUS.SOURCE. [3:0] -/
def F.IMG_BOOT_LOG_ATTEMPT : Fld := ⟨0x380038, 0, 64, .ro, 18446744073709551615, .any⟩
/-- R312: 0: core A runs. 1: core B runs -/
def F.IMG_ASSIST_RUNNING : Fld := ⟨0x380040, 63, 1, .ro, 0, .any⟩
/-- R312: The standby core has signalled ready (R295) -/
def F.IMG_ASSIST_STANDBY_READY : Fld := ⟨0x380040, 62, 1, .ro, 0, .any⟩
/-- R312: A swap is in progress -/
def F.IMG_ASSIST_SWAP_BUSY : Fld := ⟨0x380040, 61, 1, .ro, 0, .any⟩
/-- R312: SEG_VER loaded in core B -/
def F.IMG_ASSIST_VER_B : Fld := ⟨0x380040, 16, 16, .ro, 0, .any⟩
/-- R312: SEG_VER loaded in core A -/
def F.IMG_ASSIST_VER_A : Fld := ⟨0x380040, 0, 16, .ro, 0, .any⟩
/-- R312: Working-memory byte address of the 16 MiB stage buffer, 16 MiB aligned -/
def F.IMG_STAGE_BASE : Fld := ⟨0x380048, 24, 40, .rwl, 0, .any⟩
/-- R312: Lowest SVN accepted (R299) -/
def F.IMG_SVN_MIN_SVN : Fld := ⟨0x380050, 32, 32, .ro, 0, .any⟩
/-- R312: SVN of the running image -/
def F.IMG_SVN_RUN_SVN : Fld := ⟨0x380050, 0, 32, .ro, 0, .any⟩

/-- The registers of block IMG. -/
def regsIMG : List RegDesc := [
  ⟨"IMG_CTL", 0x380000, 0x0, 1, 0x0, 1, 32, [F.IMG_CTL_AUTO_PERSIST, F.IMG_CTL_ONLINE_EN]⟩,
  ⟨"IMG_STATUS", 0x380008, 0x0, 1, 0x0, 1, 32, [F.IMG_STATUS_LOADED, F.IMG_STATUS_UNAUTH, F.IMG_STATUS_MIXED, F.IMG_STATUS_ACTIVATING, F.IMG_STATUS_SOURCE, F.IMG_STATUS_LOAD_MS]⟩,
  ⟨"IMG_RUN_ID", 0x380010, 0x0, 1, 0x0, 1, 64, [F.IMG_RUN_ID_VALID, F.IMG_RUN_ID_PERSISTED, F.IMG_RUN_ID_SLOT, F.IMG_RUN_ID_KEY_SLOT, F.IMG_RUN_ID_IMAGE_VER]⟩,
  ⟨"IMG_STAGE_ID", 0x380018, 0x0, 1, 0x0, 1, 64, [F.IMG_STAGE_ID_VALID, F.IMG_STAGE_ID_PERSISTED, F.IMG_STAGE_ID_SLOT, F.IMG_STAGE_ID_KEY_SLOT, F.IMG_STAGE_ID_IMAGE_VER]⟩,
  ⟨"IMG_RELOAD", 0x380020, 0x0, 1, 0x0, 1, 32, [F.IMG_RELOAD_GO, F.IMG_RELOAD_UNIT, F.IMG_RELOAD_SRC, F.IMG_RELOAD_CHANNEL]⟩,
  ⟨"IMG_RELOAD_STATUS", 0x380028, 0x0, 1, 0x0, 1, 32, [F.IMG_RELOAD_STATUS_BUSY, F.IMG_RELOAD_STATUS_RESULT, F.IMG_RELOAD_STATUS_REASON, F.IMG_RELOAD_STATUS_TIME_US]⟩,
  ⟨"IMG_ERR_STATUS", 0x380030, 0x0, 1, 0x0, 1, 32, [F.IMG_ERR_STATUS_SWAP_FAIL, F.IMG_ERR_STATUS_ACT_FAIL, F.IMG_ERR_STATUS_PTR_FAIL, F.IMG_ERR_STATUS_COPY_READ, F.IMG_ERR_STATUS_COMP_SIG_BAD, F.IMG_ERR_STATUS_TABLE_BAD, F.IMG_ERR_STATUS_DIGEST_BAD, F.IMG_ERR_STATUS_LC_DENY, F.IMG_ERR_STATUS_SVN_LOW, F.IMG_ERR_STATUS_SIG_BAD, F.IMG_ERR_STATUS_KEY_BAD, F.IMG_ERR_STATUS_HDR_BAD]⟩,
  ⟨"IMG_BOOT_LOG", 0x380038, 0x0, 1, 0x0, 1, 64, [F.IMG_BOOT_LOG_ATTEMPT]⟩,
  ⟨"IMG_ASSIST", 0x380040, 0x0, 1, 0x0, 1, 64, [F.IMG_ASSIST_RUNNING, F.IMG_ASSIST_STANDBY_READY, F.IMG_ASSIST_SWAP_BUSY, F.IMG_ASSIST_VER_B, F.IMG_ASSIST_VER_A]⟩,
  ⟨"IMG_STAGE_BASE", 0x380048, 0x0, 1, 0x0, 1, 64, [F.IMG_STAGE_BASE]⟩,
  ⟨"IMG_SVN", 0x380050, 0x0, 1, 0x0, 1, 64, [F.IMG_SVN_MIN_SVN, F.IMG_SVN_RUN_SVN]⟩]

/-! ### DOME -/

/-- R335: Seconds of full fan duty in FAULT-HALT (R327) -/
def F.DOME_CTL_HALT_FAN_S : Fld := ⟨0x390000, 8, 8, .rw, 60, .any⟩
/-- R335: 1: plate faults are rail faults (R318) -/
def F.DOME_CTL_PLATE_HALT : Fld := ⟨0x390000, 3, 1, .rw, 0, .any⟩
/-- R335: 1: DR-5100 collapse behaviour (R330) -/
def F.DOME_CTL_LEGACY_COLLAPSE : Fld := ⟨0x390000, 2, 1, .rw, 0, .any⟩
/-- R335: 1: HU_EN follows R331 -/
def F.DOME_CTL_HU_AUTO : Fld := ⟨0x390000, 1, 1, .rw, 1, .any⟩
/-- R335: 1: PMBus polling and margining enabled -/
def F.DOME_CTL_PMB_EN : Fld := ⟨0x390000, 0, 1, .rw, 1, .any⟩
/-- R335: 0x0 off, 0x1 powering up, 0x2 on, 0x3 powering down or reversing, 0x4 on request held -/
def F.DOME_STATUS_DEV_SEQ : Fld := ⟨0x390008, 28, 4, .ro, 0, .any⟩
/-- R335: Level driven on HU_EN -/
def F.DOME_STATUS_HU_EN : Fld := ⟨0x390008, 27, 1, .ro, 0, .any⟩
/-- R335: Level of HU_OK -/
def F.DOME_STATUS_HU_OK : Fld := ⟨0x390008, 26, 1, .ro, 0, .any⟩
/-- R335: VIN_SNS at or above VIN_LOSS -/
def F.DOME_STATUS_VIN_OK : Fld := ⟨0x390008, 25, 1, .ro, 0, .any⟩
/-- R335: Input lost; the shelf runs on the bank -/
def F.DOME_STATUS_ON_BANK : Fld := ⟨0x390008, 24, 1, .ro, 0, .any⟩
/-- R335: Fans forced by temperature (R334) -/
def F.DOME_STATUS_THERM_OVR : Fld := ⟨0x390008, 23, 1, .ro, 0, .any⟩
/-- R335: A margin is non-zero -/
def F.DOME_STATUS_MARGIN_ACTIVE : Fld := ⟨0x390008, 22, 1, .ro, 0, .any⟩
/-- R335: Script bank in use -/
def F.DOME_STATUS_SCRIPT_BANK : Fld := ⟨0x390008, 21, 1, .ro, 0, .any⟩
/-- R335: Highest on-die sensor reading in °C -/
def F.DOME_STATUS_TJ : Fld := ⟨0x390008, 0, 8, .ro, 0, .any⟩
/-- R335: HU_OK disagreed with the estimate (R332) -/
def F.DOME_ERR_STATUS_HU_MISMATCH : Fld := ⟨0x390010, 10, 1, .w1c, 0, .any⟩
/-- R335: A fan stalled (R334) -/
def F.DOME_ERR_STATUS_FAN_STALL : Fld := ⟨0x390010, 9, 1, .w1c, 0, .any⟩
/-- R335: A regulator stopped answering (R317) -/
def F.DOME_ERR_STATUS_PMB_LOST : Fld := ⟨0x390010, 8, 1, .w1c, 0, .any⟩
/-- R335: A domain switch-off was refused (R314) -/
def F.DOME_ERR_STATUS_PD_REFUSE : Fld := ⟨0x390010, 7, 1, .w1c, 0, .any⟩
/-- R335: A margin request was refused (R333) -/
def F.DOME_ERR_STATUS_MARGIN_NA : Fld := ⟨0x390010, 6, 1, .w1c, 0, .any⟩
/-- R335: A rail missed its discharge timeout (R319) -/
def F.DOME_ERR_STATUS_DISCH_TO : Fld := ⟨0x390010, 5, 1, .w1c, 0, .any⟩
/-- R335: A plate fault occurred (R318) -/
def F.DOME_ERR_STATUS_PLATE_FAULT : Fld := ⟨0x390010, 4, 1, .w1c, 0, .any⟩
/-- R335: The last power-off was a rail fault; set at start from DOME_FAULT -/
def F.DOME_ERR_STATUS_RAIL_FAULT : Fld := ⟨0x390010, 3, 1, .w1c, 0, .any⟩
/-- R335: The last power-off was a collapse (R330) -/
def F.DOME_ERR_STATUS_COLLAPSE : Fld := ⟨0x390010, 2, 1, .w1c, 0, .any⟩
/-- R335: Input loss was detected (R329) -/
def F.DOME_ERR_STATUS_INPUT_LOSS : Fld := ⟨0x390010, 1, 1, .w1c, 0, .any⟩
/-- R335: The last power-off was a thermal trip -/
def F.DOME_ERR_STATUS_THERMAL : Fld := ⟨0x390010, 0, 1, .w1c, 0, .any⟩
/-- R335: A record is held -/
def F.DOME_FAULT_VALID : Fld := ⟨0x390018, 63, 1, .w1c, 0, .any⟩
/-- R335: 0b000 under-voltage, 0b001 over-voltage, 0b010 power good lost or not reached, 0b011 PMBus -/
def F.DOME_FAULT_CAUSE : Fld := ⟨0x390018, 60, 3, .ro, 0, .any⟩
/-- R335: A sequence was running -/
def F.DOME_FAULT_IN_SEQ : Fld := ⟨0x390018, 59, 1, .ro, 0, .any⟩
/-- R335: Rail 0 to 39; 0xFF none -/
def F.DOME_FAULT_RAIL : Fld := ⟨0x390018, 32, 8, .ro, 255, .any⟩
/-- R335: Last reading of the rail in mV, or TJ in °C for a thermal trip -/
def F.DOME_FAULT_MV : Fld := ⟨0x390018, 16, 16, .ro, 0, .any⟩
/-- R335: Bit p: 1 requests plate p powered. Writes from masters other than the night assistants are -/
def F.DOME_PLT_REQ_ON : Fld := ⟨0x390020, 0, 16, .rw, 0, .any⟩
/-- R335: 0b00 off, 0b01 powering up, 0b10 on, 0b11 powering down, reversing or held -/
def F.DOME_PLT_STATUS_PLATE0 : Fld := ⟨0x390028, 0, 2, .ro, 0, .any⟩
/-- R335: 0b00 off, 0b01 powering up, 0b10 on, 0b11 powering down, reversing or held -/
def F.DOME_PLT_STATUS_PLATE1 : Fld := ⟨0x390028, 2, 2, .ro, 0, .any⟩
/-- R335: 0b00 off, 0b01 powering up, 0b10 on, 0b11 powering down, reversing or held -/
def F.DOME_PLT_STATUS_PLATE2 : Fld := ⟨0x390028, 4, 2, .ro, 0, .any⟩
/-- R335: 0b00 off, 0b01 powering up, 0b10 on, 0b11 powering down, reversing or held -/
def F.DOME_PLT_STATUS_PLATE3 : Fld := ⟨0x390028, 6, 2, .ro, 0, .any⟩
/-- R335: 0b00 off, 0b01 powering up, 0b10 on, 0b11 powering down, reversing or held -/
def F.DOME_PLT_STATUS_PLATE4 : Fld := ⟨0x390028, 8, 2, .ro, 0, .any⟩
/-- R335: 0b00 off, 0b01 powering up, 0b10 on, 0b11 powering down, reversing or held -/
def F.DOME_PLT_STATUS_PLATE5 : Fld := ⟨0x390028, 10, 2, .ro, 0, .any⟩
/-- R335: 0b00 off, 0b01 powering up, 0b10 on, 0b11 powering down, reversing or held -/
def F.DOME_PLT_STATUS_PLATE6 : Fld := ⟨0x390028, 12, 2, .ro, 0, .any⟩
/-- R335: 0b00 off, 0b01 powering up, 0b10 on, 0b11 powering down, reversing or held -/
def F.DOME_PLT_STATUS_PLATE7 : Fld := ⟨0x390028, 14, 2, .ro, 0, .any⟩
/-- R335: 0b00 off, 0b01 powering up, 0b10 on, 0b11 powering down, reversing or held -/
def F.DOME_PLT_STATUS_PLATE8 : Fld := ⟨0x390028, 16, 2, .ro, 0, .any⟩
/-- R335: 0b00 off, 0b01 powering up, 0b10 on, 0b11 powering down, reversing or held -/
def F.DOME_PLT_STATUS_PLATE9 : Fld := ⟨0x390028, 18, 2, .ro, 0, .any⟩
/-- R335: 0b00 off, 0b01 powering up, 0b10 on, 0b11 powering down, reversing or held -/
def F.DOME_PLT_STATUS_PLATE10 : Fld := ⟨0x390028, 20, 2, .ro, 0, .any⟩
/-- R335: 0b00 off, 0b01 powering up, 0b10 on, 0b11 powering down, reversing or held -/
def F.DOME_PLT_STATUS_PLATE11 : Fld := ⟨0x390028, 22, 2, .ro, 0, .any⟩
/-- R335: 0b00 off, 0b01 powering up, 0b10 on, 0b11 powering down, reversing or held -/
def F.DOME_PLT_STATUS_PLATE12 : Fld := ⟨0x390028, 24, 2, .ro, 0, .any⟩
/-- R335: 0b00 off, 0b01 powering up, 0b10 on, 0b11 powering down, reversing or held -/
def F.DOME_PLT_STATUS_PLATE13 : Fld := ⟨0x390028, 26, 2, .ro, 0, .any⟩
/-- R335: 0b00 off, 0b01 powering up, 0b10 on, 0b11 powering down, reversing or held -/
def F.DOME_PLT_STATUS_PLATE14 : Fld := ⟨0x390028, 28, 2, .ro, 0, .any⟩
/-- R335: 0b00 off, 0b01 powering up, 0b10 on, 0b11 powering down, reversing or held -/
def F.DOME_PLT_STATUS_PLATE15 : Fld := ⟨0x390028, 30, 2, .ro, 0, .any⟩
/-- R335: Input loss threshold in 10 mV units; default 10.80 V -/
def F.DOME_IN_CFG_VIN_LOSS : Fld := ⟨0x390030, 0, 16, .rwl, 1080, .any⟩
/-- R335: Required energy in cJ; default 5 J -/
def F.DOME_HU_CFG_EREQ_CJ : Fld := ⟨0x390038, 32, 16, .rwl, 500, .any⟩
/-- R335: Bank capacitance in mF; 0 disables the estimate -/
def F.DOME_HU_CFG_CAP_MF : Fld := ⟨0x390038, 16, 16, .rwl, 0, .any⟩
/-- R335: Lowest usable bank voltage in mV -/
def F.DOME_HU_CFG_VMIN_MV : Fld := ⟨0x390038, 0, 16, .rwl, 0, .any⟩
/-- R335: Estimated usable energy in cJ; saturates at 0xFFFF -/
def F.DOME_HU_STATUS_EST_CJ : Fld := ⟨0x390040, 32, 16, .ro, 0, .any⟩
/-- R335: HU_SENSE in mV -/
def F.DOME_HU_STATUS_VBANK_MV : Fld := ⟨0x390040, 0, 16, .ro, 0, .any⟩
/-- R335: Bit d: PD d is ON -/
def F.DOME_PD_ON_LO_ON : Fld := ⟨0x390048, 0, 64, .ro, 0, .any⟩
/-- R335: Bit d: PD 64 + d is ON -/
def F.DOME_PD_ON_HI_ON : Fld := ⟨0x390050, 0, 16, .ro, 0, .any⟩
/-- R335: PD78 in RETENTION -/
def F.DOME_PD_RET_PD78 : Fld := ⟨0x390058, 8, 1, .ro, 0, .any⟩
/-- R335: Bit s: PD 40 + s in RETENTION -/
def F.DOME_PD_RET_SLICES : Fld := ⟨0x390058, 0, 8, .ro, 0, .any⟩
/-- R335: 1: apply STEPS to RAIL (R333) -/
def F.DOME_MARGIN_GO : Fld := ⟨0x390060, 31, 1, .wo, 0, .any⟩
/-- R335: A margin change is in progress -/
def F.DOME_MARGIN_BUSY : Fld := ⟨0x390060, 30, 1, .ro, 0, .any⟩
/-- R335: Rail 0 to 39. Other values are reserved, handled as R4 states -/
def F.DOME_MARGIN_RAIL : Fld := ⟨0x390060, 8, 6, .rw, 0, (.range 0 39)⟩
/-- R335: Signed steps of 0.5 %, −10 to +10. Other values are reserved, handled as R4 states -/
def F.DOME_MARGIN_STEPS : Fld := ⟨0x390060, 0, 5, .rw, 0, (.signed 5 10)⟩
/-- R335: Stall limit in 100 rpm units -/
def F.DOME_FAN_CTL_MIN_RPM (n : Nat) : Fld := ⟨(0x390080 + n * 0x10), 24, 8, .rw, 5, .any⟩
/-- R335: Duty after the 2 s watchdog -/
def F.DOME_FAN_CTL_FAILSAFE (n : Nat) : Fld := ⟨(0x390080 + n * 0x10), 16, 8, .rw, 255, .any⟩
/-- R335: Duty in 1/255 units; a write restarts the watchdog -/
def F.DOME_FAN_CTL_DUTY (n : Nat) : Fld := ⟨(0x390080 + n * 0x10), 8, 8, .rw, 255, .any⟩
/-- R335: Tach pulses per revolution, minus 1 -/
def F.DOME_FAN_CTL_PPR (n : Nat) : Fld := ⟨(0x390080 + n * 0x10), 2, 2, .rw, 1, .any⟩
/-- R335: Below MIN_RPM (R334) -/
def F.DOME_FAN_STATUS_STALL (n : Nat) : Fld := ⟨(0x390088 + n * 0x10), 31, 1, .ro, 0, .any⟩
/-- R335: Watchdog duty in force -/
def F.DOME_FAN_STATUS_FAILSAFE (n : Nat) : Fld := ⟨(0x390088 + n * 0x10), 30, 1, .ro, 0, .any⟩
/-- R335: Hardware duty in force -/
def F.DOME_FAN_STATUS_OVERRIDE (n : Nat) : Fld := ⟨(0x390088 + n * 0x10), 29, 1, .ro, 0, .any⟩
/-- R335: Last 1 s window -/
def F.DOME_FAN_STATUS_RPM (n : Nat) : Fld := ⟨(0x390088 + n * 0x10), 0, 16, .ro, 0, .any⟩
/-- R335: 1: the rail has a PMBus regulator -/
def F.DOME_RAIL_CFG_PMB_VALID (n : Nat) : Fld := ⟨(0x390100 + n * 0x10), 63, 1, .rwl, 0, .any⟩
/-- R335: 7-bit PMBus address -/
def F.DOME_RAIL_CFG_PMB_ADDR (n : Nat) : Fld := ⟨(0x390100 + n * 0x10), 56, 7, .rwl, 0, .any⟩
/-- R335: PMBus page -/
def F.DOME_RAIL_CFG_PMB_PAGE (n : Nat) : Fld := ⟨(0x390100 + n * 0x10), 48, 8, .rwl, 0, .any⟩
/-- R335: Discharge timeout, 1 to 255 ms -/
def F.DOME_RAIL_CFG_DISCH_MS (n : Nat) : Fld := ⟨(0x390100 + n * 0x10), 40, 8, .rwl, (railRst 3 n), (.range 1 255)⟩
/-- R335: Minimum off time, 1 to 255 ms -/
def F.DOME_RAIL_CFG_OFF_MIN_MS (n : Nat) : Fld := ⟨(0x390100 + n * 0x10), 32, 8, .rwl, (railRst 4 n), (.range 1 255)⟩
/-- R335: Over-voltage limit in 0.5 % units, 1 to 40 -/
def F.DOME_RAIL_CFG_OV (n : Nat) : Fld := ⟨(0x390100 + n * 0x10), 24, 8, .rwl, (railRst 2 n), (.range 1 40)⟩
/-- R335: Under-voltage limit in 0.5 % units, 1 to 40 -/
def F.DOME_RAIL_CFG_UV (n : Nat) : Fld := ⟨(0x390100 + n * 0x10), 16, 8, .rwl, (railRst 1 n), (.range 1 40)⟩
/-- R335: Nominal voltage in mV -/
def F.DOME_RAIL_CFG_NOM_MV (n : Nat) : Fld := ⟨(0x390100 + n * 0x10), 0, 16, .rwl, (railRst 0 n), .any⟩
/-- R335: 0b000 off and discharged, 0b001 rising, 0b010 running, 0b011 falling, 0b100 failed; others -/
def F.DOME_RAIL_STATUS_STATE (n : Nat) : Fld := ⟨(0x390108 + n * 0x10), 61, 3, .ro, 0, .any⟩
/-- R335: Level of the power-good input -/
def F.DOME_RAIL_STATUS_PG (n : Nat) : Fld := ⟨(0x390108 + n * 0x10), 60, 1, .ro, 0, .any⟩
/-- R335: Level of the enable -/
def F.DOME_RAIL_STATUS_EN (n : Nat) : Fld := ⟨(0x390108 + n * 0x10), 59, 1, .ro, 0, .any⟩
/-- R335: Signed steps in force -/
def F.DOME_RAIL_STATUS_MARGIN (n : Nat) : Fld := ⟨(0x390108 + n * 0x10), 54, 5, .ro, 0, .any⟩
/-- R335: READ_IOUT in 10 mA units; 0 without PMBus -/
def F.DOME_RAIL_STATUS_IOUT (n : Nat) : Fld := ⟨(0x390108 + n * 0x10), 16, 16, .ro, 0, .any⟩
/-- R335: Last ADC or READ_VOUT reading in mV -/
def F.DOME_RAIL_STATUS_VOUT_MV (n : Nat) : Fld := ⟨(0x390108 + n * 0x10), 0, 16, .ro, 0, .any⟩
/-- R335: Sampled since the always-on domain started -/
def F.DOME_ADC_VALID (n : Nat) : Fld := ⟨(0x390400 + n * 0x8), 31, 1, .ro, 0, .any⟩
/-- R335: Scaled reading in mV -/
def F.DOME_ADC_MV (n : Nat) : Fld := ⟨(0x390400 + n * 0x8), 0, 16, .ro, 0, .any⟩

/-- The registers of block DOME. -/
def regsDOME : List RegDesc := [
  ⟨"DOME_CTL", 0x390000, 0x0, 1, 0x0, 1, 32, [F.DOME_CTL_HALT_FAN_S, F.DOME_CTL_PLATE_HALT, F.DOME_CTL_LEGACY_COLLAPSE, F.DOME_CTL_HU_AUTO, F.DOME_CTL_PMB_EN]⟩,
  ⟨"DOME_STATUS", 0x390008, 0x0, 1, 0x0, 1, 32, [F.DOME_STATUS_DEV_SEQ, F.DOME_STATUS_HU_EN, F.DOME_STATUS_HU_OK, F.DOME_STATUS_VIN_OK, F.DOME_STATUS_ON_BANK, F.DOME_STATUS_THERM_OVR, F.DOME_STATUS_MARGIN_ACTIVE, F.DOME_STATUS_SCRIPT_BANK, F.DOME_STATUS_TJ]⟩,
  ⟨"DOME_ERR_STATUS", 0x390010, 0x0, 1, 0x0, 1, 32, [F.DOME_ERR_STATUS_HU_MISMATCH, F.DOME_ERR_STATUS_FAN_STALL, F.DOME_ERR_STATUS_PMB_LOST, F.DOME_ERR_STATUS_PD_REFUSE, F.DOME_ERR_STATUS_MARGIN_NA, F.DOME_ERR_STATUS_DISCH_TO, F.DOME_ERR_STATUS_PLATE_FAULT, F.DOME_ERR_STATUS_RAIL_FAULT, F.DOME_ERR_STATUS_COLLAPSE, F.DOME_ERR_STATUS_INPUT_LOSS, F.DOME_ERR_STATUS_THERMAL]⟩,
  ⟨"DOME_FAULT", 0x390018, 0x0, 1, 0x0, 1, 64, [F.DOME_FAULT_VALID, F.DOME_FAULT_CAUSE, F.DOME_FAULT_IN_SEQ, F.DOME_FAULT_RAIL, F.DOME_FAULT_MV]⟩,
  ⟨"DOME_PLT_REQ", 0x390020, 0x0, 1, 0x0, 1, 32, [F.DOME_PLT_REQ_ON]⟩,
  ⟨"DOME_PLT_STATUS", 0x390028, 0x0, 1, 0x0, 1, 32, [F.DOME_PLT_STATUS_PLATE0, F.DOME_PLT_STATUS_PLATE1, F.DOME_PLT_STATUS_PLATE2, F.DOME_PLT_STATUS_PLATE3, F.DOME_PLT_STATUS_PLATE4, F.DOME_PLT_STATUS_PLATE5, F.DOME_PLT_STATUS_PLATE6, F.DOME_PLT_STATUS_PLATE7, F.DOME_PLT_STATUS_PLATE8, F.DOME_PLT_STATUS_PLATE9, F.DOME_PLT_STATUS_PLATE10, F.DOME_PLT_STATUS_PLATE11, F.DOME_PLT_STATUS_PLATE12, F.DOME_PLT_STATUS_PLATE13, F.DOME_PLT_STATUS_PLATE14, F.DOME_PLT_STATUS_PLATE15]⟩,
  ⟨"DOME_IN_CFG", 0x390030, 0x0, 1, 0x0, 1, 32, [F.DOME_IN_CFG_VIN_LOSS]⟩,
  ⟨"DOME_HU_CFG", 0x390038, 0x0, 1, 0x0, 1, 64, [F.DOME_HU_CFG_EREQ_CJ, F.DOME_HU_CFG_CAP_MF, F.DOME_HU_CFG_VMIN_MV]⟩,
  ⟨"DOME_HU_STATUS", 0x390040, 0x0, 1, 0x0, 1, 64, [F.DOME_HU_STATUS_EST_CJ, F.DOME_HU_STATUS_VBANK_MV]⟩,
  ⟨"DOME_PD_ON_LO", 0x390048, 0x0, 1, 0x0, 1, 64, [F.DOME_PD_ON_LO_ON]⟩,
  ⟨"DOME_PD_ON_HI", 0x390050, 0x0, 1, 0x0, 1, 32, [F.DOME_PD_ON_HI_ON]⟩,
  ⟨"DOME_PD_RET", 0x390058, 0x0, 1, 0x0, 1, 32, [F.DOME_PD_RET_PD78, F.DOME_PD_RET_SLICES]⟩,
  ⟨"DOME_MARGIN", 0x390060, 0x0, 1, 0x0, 1, 32, [F.DOME_MARGIN_GO, F.DOME_MARGIN_BUSY, F.DOME_MARGIN_RAIL, F.DOME_MARGIN_STEPS]⟩,
  ⟨"DOME_FANf_CTL", 0x390080, 0x10, 4, 0x0, 1, 32, [F.DOME_FAN_CTL_MIN_RPM 0, F.DOME_FAN_CTL_FAILSAFE 0, F.DOME_FAN_CTL_DUTY 0, F.DOME_FAN_CTL_PPR 0]⟩,
  ⟨"DOME_FANf_STATUS", 0x390088, 0x10, 4, 0x0, 1, 32, [F.DOME_FAN_STATUS_STALL 0, F.DOME_FAN_STATUS_FAILSAFE 0, F.DOME_FAN_STATUS_OVERRIDE 0, F.DOME_FAN_STATUS_RPM 0]⟩,
  ⟨"DOME_RAIL0_CFG", 0x390100, 0, 1, 0, 1, 64, [F.DOME_RAIL_CFG_PMB_VALID 0, F.DOME_RAIL_CFG_PMB_ADDR 0, F.DOME_RAIL_CFG_PMB_PAGE 0, F.DOME_RAIL_CFG_DISCH_MS 0, F.DOME_RAIL_CFG_OFF_MIN_MS 0, F.DOME_RAIL_CFG_OV 0, F.DOME_RAIL_CFG_UV 0, F.DOME_RAIL_CFG_NOM_MV 0]⟩,
  ⟨"DOME_RAIL1_CFG", 0x390110, 0, 1, 0, 1, 64, [F.DOME_RAIL_CFG_PMB_VALID 1, F.DOME_RAIL_CFG_PMB_ADDR 1, F.DOME_RAIL_CFG_PMB_PAGE 1, F.DOME_RAIL_CFG_DISCH_MS 1, F.DOME_RAIL_CFG_OFF_MIN_MS 1, F.DOME_RAIL_CFG_OV 1, F.DOME_RAIL_CFG_UV 1, F.DOME_RAIL_CFG_NOM_MV 1]⟩,
  ⟨"DOME_RAIL2_CFG", 0x390120, 0, 1, 0, 1, 64, [F.DOME_RAIL_CFG_PMB_VALID 2, F.DOME_RAIL_CFG_PMB_ADDR 2, F.DOME_RAIL_CFG_PMB_PAGE 2, F.DOME_RAIL_CFG_DISCH_MS 2, F.DOME_RAIL_CFG_OFF_MIN_MS 2, F.DOME_RAIL_CFG_OV 2, F.DOME_RAIL_CFG_UV 2, F.DOME_RAIL_CFG_NOM_MV 2]⟩,
  ⟨"DOME_RAIL3_CFG", 0x390130, 0, 1, 0, 1, 64, [F.DOME_RAIL_CFG_PMB_VALID 3, F.DOME_RAIL_CFG_PMB_ADDR 3, F.DOME_RAIL_CFG_PMB_PAGE 3, F.DOME_RAIL_CFG_DISCH_MS 3, F.DOME_RAIL_CFG_OFF_MIN_MS 3, F.DOME_RAIL_CFG_OV 3, F.DOME_RAIL_CFG_UV 3, F.DOME_RAIL_CFG_NOM_MV 3]⟩,
  ⟨"DOME_RAIL4_CFG", 0x390140, 0, 1, 0, 1, 64, [F.DOME_RAIL_CFG_PMB_VALID 4, F.DOME_RAIL_CFG_PMB_ADDR 4, F.DOME_RAIL_CFG_PMB_PAGE 4, F.DOME_RAIL_CFG_DISCH_MS 4, F.DOME_RAIL_CFG_OFF_MIN_MS 4, F.DOME_RAIL_CFG_OV 4, F.DOME_RAIL_CFG_UV 4, F.DOME_RAIL_CFG_NOM_MV 4]⟩,
  ⟨"DOME_RAIL5_CFG", 0x390150, 0, 1, 0, 1, 64, [F.DOME_RAIL_CFG_PMB_VALID 5, F.DOME_RAIL_CFG_PMB_ADDR 5, F.DOME_RAIL_CFG_PMB_PAGE 5, F.DOME_RAIL_CFG_DISCH_MS 5, F.DOME_RAIL_CFG_OFF_MIN_MS 5, F.DOME_RAIL_CFG_OV 5, F.DOME_RAIL_CFG_UV 5, F.DOME_RAIL_CFG_NOM_MV 5]⟩,
  ⟨"DOME_RAIL6_CFG", 0x390160, 0, 1, 0, 1, 64, [F.DOME_RAIL_CFG_PMB_VALID 6, F.DOME_RAIL_CFG_PMB_ADDR 6, F.DOME_RAIL_CFG_PMB_PAGE 6, F.DOME_RAIL_CFG_DISCH_MS 6, F.DOME_RAIL_CFG_OFF_MIN_MS 6, F.DOME_RAIL_CFG_OV 6, F.DOME_RAIL_CFG_UV 6, F.DOME_RAIL_CFG_NOM_MV 6]⟩,
  ⟨"DOME_RAIL7_CFG", 0x390170, 0, 1, 0, 1, 64, [F.DOME_RAIL_CFG_PMB_VALID 7, F.DOME_RAIL_CFG_PMB_ADDR 7, F.DOME_RAIL_CFG_PMB_PAGE 7, F.DOME_RAIL_CFG_DISCH_MS 7, F.DOME_RAIL_CFG_OFF_MIN_MS 7, F.DOME_RAIL_CFG_OV 7, F.DOME_RAIL_CFG_UV 7, F.DOME_RAIL_CFG_NOM_MV 7]⟩,
  ⟨"DOME_RAIL8_CFG", 0x390180, 0, 1, 0, 1, 64, [F.DOME_RAIL_CFG_PMB_VALID 8, F.DOME_RAIL_CFG_PMB_ADDR 8, F.DOME_RAIL_CFG_PMB_PAGE 8, F.DOME_RAIL_CFG_DISCH_MS 8, F.DOME_RAIL_CFG_OFF_MIN_MS 8, F.DOME_RAIL_CFG_OV 8, F.DOME_RAIL_CFG_UV 8, F.DOME_RAIL_CFG_NOM_MV 8]⟩,
  ⟨"DOME_RAIL9_CFG", 0x390190, 0, 1, 0, 1, 64, [F.DOME_RAIL_CFG_PMB_VALID 9, F.DOME_RAIL_CFG_PMB_ADDR 9, F.DOME_RAIL_CFG_PMB_PAGE 9, F.DOME_RAIL_CFG_DISCH_MS 9, F.DOME_RAIL_CFG_OFF_MIN_MS 9, F.DOME_RAIL_CFG_OV 9, F.DOME_RAIL_CFG_UV 9, F.DOME_RAIL_CFG_NOM_MV 9]⟩,
  ⟨"DOME_RAIL10_CFG", 0x3901A0, 0, 1, 0, 1, 64, [F.DOME_RAIL_CFG_PMB_VALID 10, F.DOME_RAIL_CFG_PMB_ADDR 10, F.DOME_RAIL_CFG_PMB_PAGE 10, F.DOME_RAIL_CFG_DISCH_MS 10, F.DOME_RAIL_CFG_OFF_MIN_MS 10, F.DOME_RAIL_CFG_OV 10, F.DOME_RAIL_CFG_UV 10, F.DOME_RAIL_CFG_NOM_MV 10]⟩,
  ⟨"DOME_RAIL11_CFG", 0x3901B0, 0, 1, 0, 1, 64, [F.DOME_RAIL_CFG_PMB_VALID 11, F.DOME_RAIL_CFG_PMB_ADDR 11, F.DOME_RAIL_CFG_PMB_PAGE 11, F.DOME_RAIL_CFG_DISCH_MS 11, F.DOME_RAIL_CFG_OFF_MIN_MS 11, F.DOME_RAIL_CFG_OV 11, F.DOME_RAIL_CFG_UV 11, F.DOME_RAIL_CFG_NOM_MV 11]⟩,
  ⟨"DOME_RAIL12_CFG", 0x3901C0, 0, 1, 0, 1, 64, [F.DOME_RAIL_CFG_PMB_VALID 12, F.DOME_RAIL_CFG_PMB_ADDR 12, F.DOME_RAIL_CFG_PMB_PAGE 12, F.DOME_RAIL_CFG_DISCH_MS 12, F.DOME_RAIL_CFG_OFF_MIN_MS 12, F.DOME_RAIL_CFG_OV 12, F.DOME_RAIL_CFG_UV 12, F.DOME_RAIL_CFG_NOM_MV 12]⟩,
  ⟨"DOME_RAIL13_CFG", 0x3901D0, 0, 1, 0, 1, 64, [F.DOME_RAIL_CFG_PMB_VALID 13, F.DOME_RAIL_CFG_PMB_ADDR 13, F.DOME_RAIL_CFG_PMB_PAGE 13, F.DOME_RAIL_CFG_DISCH_MS 13, F.DOME_RAIL_CFG_OFF_MIN_MS 13, F.DOME_RAIL_CFG_OV 13, F.DOME_RAIL_CFG_UV 13, F.DOME_RAIL_CFG_NOM_MV 13]⟩,
  ⟨"DOME_RAIL14_CFG", 0x3901E0, 0, 1, 0, 1, 64, [F.DOME_RAIL_CFG_PMB_VALID 14, F.DOME_RAIL_CFG_PMB_ADDR 14, F.DOME_RAIL_CFG_PMB_PAGE 14, F.DOME_RAIL_CFG_DISCH_MS 14, F.DOME_RAIL_CFG_OFF_MIN_MS 14, F.DOME_RAIL_CFG_OV 14, F.DOME_RAIL_CFG_UV 14, F.DOME_RAIL_CFG_NOM_MV 14]⟩,
  ⟨"DOME_RAIL15_CFG", 0x3901F0, 0, 1, 0, 1, 64, [F.DOME_RAIL_CFG_PMB_VALID 15, F.DOME_RAIL_CFG_PMB_ADDR 15, F.DOME_RAIL_CFG_PMB_PAGE 15, F.DOME_RAIL_CFG_DISCH_MS 15, F.DOME_RAIL_CFG_OFF_MIN_MS 15, F.DOME_RAIL_CFG_OV 15, F.DOME_RAIL_CFG_UV 15, F.DOME_RAIL_CFG_NOM_MV 15]⟩,
  ⟨"DOME_RAIL16_CFG", 0x390200, 0, 1, 0, 1, 64, [F.DOME_RAIL_CFG_PMB_VALID 16, F.DOME_RAIL_CFG_PMB_ADDR 16, F.DOME_RAIL_CFG_PMB_PAGE 16, F.DOME_RAIL_CFG_DISCH_MS 16, F.DOME_RAIL_CFG_OFF_MIN_MS 16, F.DOME_RAIL_CFG_OV 16, F.DOME_RAIL_CFG_UV 16, F.DOME_RAIL_CFG_NOM_MV 16]⟩,
  ⟨"DOME_RAIL17_CFG", 0x390210, 0, 1, 0, 1, 64, [F.DOME_RAIL_CFG_PMB_VALID 17, F.DOME_RAIL_CFG_PMB_ADDR 17, F.DOME_RAIL_CFG_PMB_PAGE 17, F.DOME_RAIL_CFG_DISCH_MS 17, F.DOME_RAIL_CFG_OFF_MIN_MS 17, F.DOME_RAIL_CFG_OV 17, F.DOME_RAIL_CFG_UV 17, F.DOME_RAIL_CFG_NOM_MV 17]⟩,
  ⟨"DOME_RAIL18_CFG", 0x390220, 0, 1, 0, 1, 64, [F.DOME_RAIL_CFG_PMB_VALID 18, F.DOME_RAIL_CFG_PMB_ADDR 18, F.DOME_RAIL_CFG_PMB_PAGE 18, F.DOME_RAIL_CFG_DISCH_MS 18, F.DOME_RAIL_CFG_OFF_MIN_MS 18, F.DOME_RAIL_CFG_OV 18, F.DOME_RAIL_CFG_UV 18, F.DOME_RAIL_CFG_NOM_MV 18]⟩,
  ⟨"DOME_RAIL19_CFG", 0x390230, 0, 1, 0, 1, 64, [F.DOME_RAIL_CFG_PMB_VALID 19, F.DOME_RAIL_CFG_PMB_ADDR 19, F.DOME_RAIL_CFG_PMB_PAGE 19, F.DOME_RAIL_CFG_DISCH_MS 19, F.DOME_RAIL_CFG_OFF_MIN_MS 19, F.DOME_RAIL_CFG_OV 19, F.DOME_RAIL_CFG_UV 19, F.DOME_RAIL_CFG_NOM_MV 19]⟩,
  ⟨"DOME_RAIL20_CFG", 0x390240, 0, 1, 0, 1, 64, [F.DOME_RAIL_CFG_PMB_VALID 20, F.DOME_RAIL_CFG_PMB_ADDR 20, F.DOME_RAIL_CFG_PMB_PAGE 20, F.DOME_RAIL_CFG_DISCH_MS 20, F.DOME_RAIL_CFG_OFF_MIN_MS 20, F.DOME_RAIL_CFG_OV 20, F.DOME_RAIL_CFG_UV 20, F.DOME_RAIL_CFG_NOM_MV 20]⟩,
  ⟨"DOME_RAIL21_CFG", 0x390250, 0, 1, 0, 1, 64, [F.DOME_RAIL_CFG_PMB_VALID 21, F.DOME_RAIL_CFG_PMB_ADDR 21, F.DOME_RAIL_CFG_PMB_PAGE 21, F.DOME_RAIL_CFG_DISCH_MS 21, F.DOME_RAIL_CFG_OFF_MIN_MS 21, F.DOME_RAIL_CFG_OV 21, F.DOME_RAIL_CFG_UV 21, F.DOME_RAIL_CFG_NOM_MV 21]⟩,
  ⟨"DOME_RAIL22_CFG", 0x390260, 0, 1, 0, 1, 64, [F.DOME_RAIL_CFG_PMB_VALID 22, F.DOME_RAIL_CFG_PMB_ADDR 22, F.DOME_RAIL_CFG_PMB_PAGE 22, F.DOME_RAIL_CFG_DISCH_MS 22, F.DOME_RAIL_CFG_OFF_MIN_MS 22, F.DOME_RAIL_CFG_OV 22, F.DOME_RAIL_CFG_UV 22, F.DOME_RAIL_CFG_NOM_MV 22]⟩,
  ⟨"DOME_RAIL23_CFG", 0x390270, 0, 1, 0, 1, 64, [F.DOME_RAIL_CFG_PMB_VALID 23, F.DOME_RAIL_CFG_PMB_ADDR 23, F.DOME_RAIL_CFG_PMB_PAGE 23, F.DOME_RAIL_CFG_DISCH_MS 23, F.DOME_RAIL_CFG_OFF_MIN_MS 23, F.DOME_RAIL_CFG_OV 23, F.DOME_RAIL_CFG_UV 23, F.DOME_RAIL_CFG_NOM_MV 23]⟩,
  ⟨"DOME_RAIL24_CFG", 0x390280, 0, 1, 0, 1, 64, [F.DOME_RAIL_CFG_PMB_VALID 24, F.DOME_RAIL_CFG_PMB_ADDR 24, F.DOME_RAIL_CFG_PMB_PAGE 24, F.DOME_RAIL_CFG_DISCH_MS 24, F.DOME_RAIL_CFG_OFF_MIN_MS 24, F.DOME_RAIL_CFG_OV 24, F.DOME_RAIL_CFG_UV 24, F.DOME_RAIL_CFG_NOM_MV 24]⟩,
  ⟨"DOME_RAIL25_CFG", 0x390290, 0, 1, 0, 1, 64, [F.DOME_RAIL_CFG_PMB_VALID 25, F.DOME_RAIL_CFG_PMB_ADDR 25, F.DOME_RAIL_CFG_PMB_PAGE 25, F.DOME_RAIL_CFG_DISCH_MS 25, F.DOME_RAIL_CFG_OFF_MIN_MS 25, F.DOME_RAIL_CFG_OV 25, F.DOME_RAIL_CFG_UV 25, F.DOME_RAIL_CFG_NOM_MV 25]⟩,
  ⟨"DOME_RAIL26_CFG", 0x3902A0, 0, 1, 0, 1, 64, [F.DOME_RAIL_CFG_PMB_VALID 26, F.DOME_RAIL_CFG_PMB_ADDR 26, F.DOME_RAIL_CFG_PMB_PAGE 26, F.DOME_RAIL_CFG_DISCH_MS 26, F.DOME_RAIL_CFG_OFF_MIN_MS 26, F.DOME_RAIL_CFG_OV 26, F.DOME_RAIL_CFG_UV 26, F.DOME_RAIL_CFG_NOM_MV 26]⟩,
  ⟨"DOME_RAIL27_CFG", 0x3902B0, 0, 1, 0, 1, 64, [F.DOME_RAIL_CFG_PMB_VALID 27, F.DOME_RAIL_CFG_PMB_ADDR 27, F.DOME_RAIL_CFG_PMB_PAGE 27, F.DOME_RAIL_CFG_DISCH_MS 27, F.DOME_RAIL_CFG_OFF_MIN_MS 27, F.DOME_RAIL_CFG_OV 27, F.DOME_RAIL_CFG_UV 27, F.DOME_RAIL_CFG_NOM_MV 27]⟩,
  ⟨"DOME_RAIL28_CFG", 0x3902C0, 0, 1, 0, 1, 64, [F.DOME_RAIL_CFG_PMB_VALID 28, F.DOME_RAIL_CFG_PMB_ADDR 28, F.DOME_RAIL_CFG_PMB_PAGE 28, F.DOME_RAIL_CFG_DISCH_MS 28, F.DOME_RAIL_CFG_OFF_MIN_MS 28, F.DOME_RAIL_CFG_OV 28, F.DOME_RAIL_CFG_UV 28, F.DOME_RAIL_CFG_NOM_MV 28]⟩,
  ⟨"DOME_RAIL29_CFG", 0x3902D0, 0, 1, 0, 1, 64, [F.DOME_RAIL_CFG_PMB_VALID 29, F.DOME_RAIL_CFG_PMB_ADDR 29, F.DOME_RAIL_CFG_PMB_PAGE 29, F.DOME_RAIL_CFG_DISCH_MS 29, F.DOME_RAIL_CFG_OFF_MIN_MS 29, F.DOME_RAIL_CFG_OV 29, F.DOME_RAIL_CFG_UV 29, F.DOME_RAIL_CFG_NOM_MV 29]⟩,
  ⟨"DOME_RAIL30_CFG", 0x3902E0, 0, 1, 0, 1, 64, [F.DOME_RAIL_CFG_PMB_VALID 30, F.DOME_RAIL_CFG_PMB_ADDR 30, F.DOME_RAIL_CFG_PMB_PAGE 30, F.DOME_RAIL_CFG_DISCH_MS 30, F.DOME_RAIL_CFG_OFF_MIN_MS 30, F.DOME_RAIL_CFG_OV 30, F.DOME_RAIL_CFG_UV 30, F.DOME_RAIL_CFG_NOM_MV 30]⟩,
  ⟨"DOME_RAIL31_CFG", 0x3902F0, 0, 1, 0, 1, 64, [F.DOME_RAIL_CFG_PMB_VALID 31, F.DOME_RAIL_CFG_PMB_ADDR 31, F.DOME_RAIL_CFG_PMB_PAGE 31, F.DOME_RAIL_CFG_DISCH_MS 31, F.DOME_RAIL_CFG_OFF_MIN_MS 31, F.DOME_RAIL_CFG_OV 31, F.DOME_RAIL_CFG_UV 31, F.DOME_RAIL_CFG_NOM_MV 31]⟩,
  ⟨"DOME_RAIL32_CFG", 0x390300, 0, 1, 0, 1, 64, [F.DOME_RAIL_CFG_PMB_VALID 32, F.DOME_RAIL_CFG_PMB_ADDR 32, F.DOME_RAIL_CFG_PMB_PAGE 32, F.DOME_RAIL_CFG_DISCH_MS 32, F.DOME_RAIL_CFG_OFF_MIN_MS 32, F.DOME_RAIL_CFG_OV 32, F.DOME_RAIL_CFG_UV 32, F.DOME_RAIL_CFG_NOM_MV 32]⟩,
  ⟨"DOME_RAIL33_CFG", 0x390310, 0, 1, 0, 1, 64, [F.DOME_RAIL_CFG_PMB_VALID 33, F.DOME_RAIL_CFG_PMB_ADDR 33, F.DOME_RAIL_CFG_PMB_PAGE 33, F.DOME_RAIL_CFG_DISCH_MS 33, F.DOME_RAIL_CFG_OFF_MIN_MS 33, F.DOME_RAIL_CFG_OV 33, F.DOME_RAIL_CFG_UV 33, F.DOME_RAIL_CFG_NOM_MV 33]⟩,
  ⟨"DOME_RAIL34_CFG", 0x390320, 0, 1, 0, 1, 64, [F.DOME_RAIL_CFG_PMB_VALID 34, F.DOME_RAIL_CFG_PMB_ADDR 34, F.DOME_RAIL_CFG_PMB_PAGE 34, F.DOME_RAIL_CFG_DISCH_MS 34, F.DOME_RAIL_CFG_OFF_MIN_MS 34, F.DOME_RAIL_CFG_OV 34, F.DOME_RAIL_CFG_UV 34, F.DOME_RAIL_CFG_NOM_MV 34]⟩,
  ⟨"DOME_RAIL35_CFG", 0x390330, 0, 1, 0, 1, 64, [F.DOME_RAIL_CFG_PMB_VALID 35, F.DOME_RAIL_CFG_PMB_ADDR 35, F.DOME_RAIL_CFG_PMB_PAGE 35, F.DOME_RAIL_CFG_DISCH_MS 35, F.DOME_RAIL_CFG_OFF_MIN_MS 35, F.DOME_RAIL_CFG_OV 35, F.DOME_RAIL_CFG_UV 35, F.DOME_RAIL_CFG_NOM_MV 35]⟩,
  ⟨"DOME_RAIL36_CFG", 0x390340, 0, 1, 0, 1, 64, [F.DOME_RAIL_CFG_PMB_VALID 36, F.DOME_RAIL_CFG_PMB_ADDR 36, F.DOME_RAIL_CFG_PMB_PAGE 36, F.DOME_RAIL_CFG_DISCH_MS 36, F.DOME_RAIL_CFG_OFF_MIN_MS 36, F.DOME_RAIL_CFG_OV 36, F.DOME_RAIL_CFG_UV 36, F.DOME_RAIL_CFG_NOM_MV 36]⟩,
  ⟨"DOME_RAIL37_CFG", 0x390350, 0, 1, 0, 1, 64, [F.DOME_RAIL_CFG_PMB_VALID 37, F.DOME_RAIL_CFG_PMB_ADDR 37, F.DOME_RAIL_CFG_PMB_PAGE 37, F.DOME_RAIL_CFG_DISCH_MS 37, F.DOME_RAIL_CFG_OFF_MIN_MS 37, F.DOME_RAIL_CFG_OV 37, F.DOME_RAIL_CFG_UV 37, F.DOME_RAIL_CFG_NOM_MV 37]⟩,
  ⟨"DOME_RAIL38_CFG", 0x390360, 0, 1, 0, 1, 64, [F.DOME_RAIL_CFG_PMB_VALID 38, F.DOME_RAIL_CFG_PMB_ADDR 38, F.DOME_RAIL_CFG_PMB_PAGE 38, F.DOME_RAIL_CFG_DISCH_MS 38, F.DOME_RAIL_CFG_OFF_MIN_MS 38, F.DOME_RAIL_CFG_OV 38, F.DOME_RAIL_CFG_UV 38, F.DOME_RAIL_CFG_NOM_MV 38]⟩,
  ⟨"DOME_RAIL39_CFG", 0x390370, 0, 1, 0, 1, 64, [F.DOME_RAIL_CFG_PMB_VALID 39, F.DOME_RAIL_CFG_PMB_ADDR 39, F.DOME_RAIL_CFG_PMB_PAGE 39, F.DOME_RAIL_CFG_DISCH_MS 39, F.DOME_RAIL_CFG_OFF_MIN_MS 39, F.DOME_RAIL_CFG_OV 39, F.DOME_RAIL_CFG_UV 39, F.DOME_RAIL_CFG_NOM_MV 39]⟩,
  ⟨"DOME_RAILn_STATUS", 0x390108, 0x10, 40, 0x0, 1, 64, [F.DOME_RAIL_STATUS_STATE 0, F.DOME_RAIL_STATUS_PG 0, F.DOME_RAIL_STATUS_EN 0, F.DOME_RAIL_STATUS_MARGIN 0, F.DOME_RAIL_STATUS_IOUT 0, F.DOME_RAIL_STATUS_VOUT_MV 0]⟩,
  ⟨"DOME_ADCi", 0x390400, 0x8, 16, 0x0, 1, 32, [F.DOME_ADC_VALID 0, F.DOME_ADC_MV 0]⟩]

/-! ### CLK -/

/-- R352: 1: restore the time at cold start (R345) -/
def F.CLK_CTL_TOD_RESTORE : Fld := ⟨0x3A0000, 1, 1, .rw, 1, .any⟩
/-- R352: 1: REC may be used (R336) -/
def F.CLK_CTL_REC_EN : Fld := ⟨0x3A0000, 0, 1, .rw, 1, .any⟩
/-- R352: FAB -/
def F.CLK_STATUS_FAB : Fld := ⟨0x3A0008, 43, 1, .ro, 0, .any⟩
/-- R352: AON -/
def F.CLK_STATUS_AON : Fld := ⟨0x3A0008, 42, 1, .ro, 0, .any⟩
/-- R352: SBUS -/
def F.CLK_STATUS_SBUS : Fld := ⟨0x3A0008, 41, 1, .ro, 0, .any⟩
/-- R352: EPH -/
def F.CLK_STATUS_EPH : Fld := ⟨0x3A0008, 40, 1, .ro, 0, .any⟩
/-- R352: [39] core B, [38] core A -/
def F.CLK_STATUS_ASST : Fld := ⟨0x3A0008, 38, 2, .ro, 0, .any⟩
/-- R352: Bit 34 + c: DDRCc -/
def F.CLK_STATUS_DDRC : Fld := ⟨0x3A0008, 34, 4, .ro, 0, .any⟩
/-- R352: [33] port 1, [32] port 0 -/
def F.CLK_STATUS_HPHY : Fld := ⟨0x3A0008, 32, 2, .ro, 0, .any⟩
/-- R352: Bit n: MCHn -/
def F.CLK_STATUS_MCH : Fld := ⟨0x3A0008, 0, 32, .ro, 0, .any⟩
/-- R352: Holdover time, 10 to 255 ms -/
def F.CLK_DPLL_CFG_HOLD_MS : Fld := ⟨0x3A0010, 16, 8, .rwl, 100, (.range 10 255)⟩
/-- R352: Qualification time, 10 to 255 ms -/
def F.CLK_DPLL_CFG_QUAL_MS : Fld := ⟨0x3A0010, 8, 8, .rwl, 100, (.range 10 255)⟩
/-- R352: Slew limit, 1 to 10 ppm/s -/
def F.CLK_DPLL_CFG_SLEW : Fld := ⟨0x3A0010, 0, 4, .rwl, 1, (.range 1 10)⟩
/-- R352: 0b00 XTAL, 0b01 REC, 0b10 HOLDOVER; 0b11 does not occur -/
def F.CLK_DPLL_STATUS_STATE : Fld := ⟨0x3A0018, 30, 2, .ro, 0, .any⟩
/-- R352: The output frequency is moving (R338) -/
def F.CLK_DPLL_STATUS_SLEWING : Fld := ⟨0x3A0018, 29, 1, .ro, 0, .any⟩
/-- R352: Modulation detected on REC -/
def F.CLK_DPLL_STATUS_SSC : Fld := ⟨0x3A0018, 28, 1, .ro, 0, .any⟩
/-- R352: REC is qualified -/
def F.CLK_DPLL_STATUS_REC_QUAL : Fld := ⟨0x3A0018, 27, 1, .ro, 0, .any⟩
/-- R352: REC against XTAL, signed, in 0.01 ppm units -/
def F.CLK_DPLL_STATUS_REC_OFS : Fld := ⟨0x3A0018, 0, 16, .ro, 0, .any⟩
/-- R352: Time-of-day (R343) -/
def F.CLK_TOD : Fld := ⟨0x3A0020, 0, 64, .ro, 0, .any⟩
/-- R352: Time step (R344) -/
def F.CLK_TOD_SET : Fld := ⟨0x3A0028, 0, 64, .wo, 0, .any⟩
/-- R352: Signed rate adjustment, 2^−32 ns per EPH cycle. Values beyond ±21,474,836 are clamped -/
def F.CLK_TOD_ADJ : Fld := ⟨0x3A0030, 0, 32, .rw, 0, .any⟩
/-- R352: 0b00 NONE, 0b01 COARSE, 0b10 SET; 0b11 does not occur -/
def F.CLK_TOD_INFO_VALID : Fld := ⟨0x3A0038, 30, 2, .ro, 0, .any⟩
/-- R352: Last setter: 0b00 none, 0b01 AON restore, 0b10 register or mailbox, 0b11 802.1AS -/
def F.CLK_TOD_INFO_SRC : Fld := ⟨0x3A0038, 28, 2, .ro, 0, .any⟩
/-- R352: Steps since cold start; saturates at 0xFFFF -/
def F.CLK_TOD_INFO_STEPS : Fld := ⟨0x3A0038, 0, 16, .ro, 0, .any⟩
/-- R352: [47:0] AON ticks (R345); [63:48] reserved -/
def F.CLK_AON_TICKS : Fld := ⟨0x3A0040, 0, 48, .ro, 0, .any⟩
/-- R352: A held access was ended by a finder bus abort (R350) -/
def F.CLK_ERR_STATUS_ABORTED : Fld := ⟨0x3A0048, 3, 1, .w1c, 0, .any⟩
/-- R352: A parent stop was refused (R341) -/
def F.CLK_ERR_STATUS_GATE_REFUSE : Fld := ⟨0x3A0048, 2, 1, .w1c, 0, .any⟩
/-- R352: The time-of-day was stepped (R344) -/
def F.CLK_ERR_STATUS_TOD_STEP : Fld := ⟨0x3A0048, 1, 1, .w1c, 0, .any⟩
/-- R352: REC was disqualified (R337) -/
def F.CLK_ERR_STATUS_REC_LOST : Fld := ⟨0x3A0048, 0, 1, .w1c, 0, .any⟩
/-- R352: FAB -/
def F.CLK_XOVR_FAB : Fld := ⟨0x3A0050, 43, 1, .w1c, 0, .any⟩
/-- R352: AON -/
def F.CLK_XOVR_AON : Fld := ⟨0x3A0050, 42, 1, .w1c, 0, .any⟩
/-- R352: SBUS -/
def F.CLK_XOVR_SBUS : Fld := ⟨0x3A0050, 41, 1, .w1c, 0, .any⟩
/-- R352: EPH -/
def F.CLK_XOVR_EPH : Fld := ⟨0x3A0050, 40, 1, .w1c, 0, .any⟩
/-- R352: [39] core B, [38] core A -/
def F.CLK_XOVR_ASST : Fld := ⟨0x3A0050, 38, 2, .w1c, 0, .any⟩
/-- R352: Bit 34 + c: DDRCc -/
def F.CLK_XOVR_DDRC : Fld := ⟨0x3A0050, 34, 4, .w1c, 0, .any⟩
/-- R352: [33] port 1, [32] port 0 -/
def F.CLK_XOVR_HPHY : Fld := ⟨0x3A0050, 32, 2, .w1c, 0, .any⟩
/-- R352: Bit n: MCHn -/
def F.CLK_XOVR_MCH : Fld := ⟨0x3A0050, 0, 32, .w1c, 0, .any⟩
/-- R352: 1: start a measurement. Ignored while BUSY is 1 -/
def F.CLK_CHRONO_CTL_GO : Fld := ⟨0x3A0058, 31, 1, .wo, 0, .any⟩
/-- R352: A measurement is running -/
def F.CLK_CHRONO_CTL_BUSY : Fld := ⟨0x3A0058, 30, 1, .ro, 0, .any⟩
/-- R352: Gate of 2^GATE_LOG2 REF cycles, 4 to 24. A GO with another value does nothing -/
def F.CLK_CHRONO_CTL_GATE_LOG2 : Fld := ⟨0x3A0058, 24, 5, .rw, 0, .any⟩
/-- R352: Channel measured as code 0x0C -/
def F.CLK_CHRONO_CTL_MCHB_SEL : Fld := ⟨0x3A0058, 19, 5, .rw, 0, .any⟩
/-- R352: Channel measured as code 0x0B -/
def F.CLK_CHRONO_CTL_MCHA_SEL : Fld := ⟨0x3A0058, 14, 5, .rw, 0, .any⟩
/-- R352: Measured clock (R346) -/
def F.CLK_CHRONO_CTL_MEAS : Fld := ⟨0x3A0058, 5, 5, .rw, 0, .any⟩
/-- R352: Reference clock (R346) -/
def F.CLK_CHRONO_CTL_REF : Fld := ⟨0x3A0058, 0, 5, .rw, 0, .any⟩
/-- R352: 1: the result is valid. A new GO clears it -/
def F.CLK_CHRONO_RESULT_DONE : Fld := ⟨0x3A0060, 63, 1, .ro, 0, .any⟩
/-- R352: The gate did not end (R347) -/
def F.CLK_CHRONO_RESULT_REF_DEAD : Fld := ⟨0x3A0060, 62, 1, .ro, 0, .any⟩
/-- R352: MEAS edges counted during the gate -/
def F.CLK_CHRONO_RESULT_COUNT : Fld := ⟨0x3A0060, 0, 40, .ro, 0, .any⟩

/-- The registers of block CLK. -/
def regsCLK : List RegDesc := [
  ⟨"CLK_CTL", 0x3A0000, 0x0, 1, 0x0, 1, 32, [F.CLK_CTL_TOD_RESTORE, F.CLK_CTL_REC_EN]⟩,
  ⟨"CLK_STATUS", 0x3A0008, 0x0, 1, 0x0, 1, 64, [F.CLK_STATUS_FAB, F.CLK_STATUS_AON, F.CLK_STATUS_SBUS, F.CLK_STATUS_EPH, F.CLK_STATUS_ASST, F.CLK_STATUS_DDRC, F.CLK_STATUS_HPHY, F.CLK_STATUS_MCH]⟩,
  ⟨"CLK_DPLL_CFG", 0x3A0010, 0x0, 1, 0x0, 1, 32, [F.CLK_DPLL_CFG_HOLD_MS, F.CLK_DPLL_CFG_QUAL_MS, F.CLK_DPLL_CFG_SLEW]⟩,
  ⟨"CLK_DPLL_STATUS", 0x3A0018, 0x0, 1, 0x0, 1, 32, [F.CLK_DPLL_STATUS_STATE, F.CLK_DPLL_STATUS_SLEWING, F.CLK_DPLL_STATUS_SSC, F.CLK_DPLL_STATUS_REC_QUAL, F.CLK_DPLL_STATUS_REC_OFS]⟩,
  ⟨"CLK_TOD", 0x3A0020, 0x0, 1, 0x0, 1, 64, [F.CLK_TOD]⟩,
  ⟨"CLK_TOD_SET", 0x3A0028, 0x0, 1, 0x0, 1, 64, [F.CLK_TOD_SET]⟩,
  ⟨"CLK_TOD_ADJ", 0x3A0030, 0x0, 1, 0x0, 1, 32, [F.CLK_TOD_ADJ]⟩,
  ⟨"CLK_TOD_INFO", 0x3A0038, 0x0, 1, 0x0, 1, 32, [F.CLK_TOD_INFO_VALID, F.CLK_TOD_INFO_SRC, F.CLK_TOD_INFO_STEPS]⟩,
  ⟨"CLK_AON_TICKS", 0x3A0040, 0x0, 1, 0x0, 1, 64, [F.CLK_AON_TICKS]⟩,
  ⟨"CLK_ERR_STATUS", 0x3A0048, 0x0, 1, 0x0, 1, 32, [F.CLK_ERR_STATUS_ABORTED, F.CLK_ERR_STATUS_GATE_REFUSE, F.CLK_ERR_STATUS_TOD_STEP, F.CLK_ERR_STATUS_REC_LOST]⟩,
  ⟨"CLK_XOVR", 0x3A0050, 0x0, 1, 0x0, 1, 64, [F.CLK_XOVR_FAB, F.CLK_XOVR_AON, F.CLK_XOVR_SBUS, F.CLK_XOVR_EPH, F.CLK_XOVR_ASST, F.CLK_XOVR_DDRC, F.CLK_XOVR_HPHY, F.CLK_XOVR_MCH]⟩,
  ⟨"CLK_CHRONO_CTL", 0x3A0058, 0x0, 1, 0x0, 1, 32, [F.CLK_CHRONO_CTL_GO, F.CLK_CHRONO_CTL_BUSY, F.CLK_CHRONO_CTL_GATE_LOG2, F.CLK_CHRONO_CTL_MCHB_SEL, F.CLK_CHRONO_CTL_MCHA_SEL, F.CLK_CHRONO_CTL_MEAS, F.CLK_CHRONO_CTL_REF]⟩,
  ⟨"CLK_CHRONO_RESULT", 0x3A0060, 0x0, 1, 0x0, 1, 64, [F.CLK_CHRONO_RESULT_DONE, F.CLK_CHRONO_RESULT_REF_DEAD, F.CLK_CHRONO_RESULT_COUNT]⟩]

/-! ### SBUS -/

/-- R371: 1: timestamp 0x88F7 frames (R364) -/
def F.SBUS_CTL_TS_EN : Fld := ⟨0x3B0000, 2, 1, .rw, 1, .any⟩
/-- R371: 1: answer PING, STATUS and SENSORS. 0: the wake matcher still answers PING -/
def F.SBUS_CTL_UNAUTH_RESP : Fld := ⟨0x3B0000, 1, 1, .rw, 1, .any⟩
/-- R371: 0: the MAC transmits nothing except PLCA BEACONs, and receives only for the wake matcher -/
def F.SBUS_CTL_EN : Fld := ⟨0x3B0000, 0, 1, .rw, 1, .any⟩
/-- R371: PLCA running -/
def F.SBUS_STATUS_PLCA_ACTIVE : Fld := ⟨0x3B0008, 31, 1, .ro, 0, .any⟩
/-- R371: Acting as coordinator -/
def F.SBUS_STATUS_COORD : Fld := ⟨0x3B0008, 30, 1, .ro, 0, .any⟩
/-- R371: CSMA/CD fallback (R354) -/
def F.SBUS_STATUS_CSMA : Fld := ⟨0x3B0008, 29, 1, .ro, 0, .any⟩
/-- R371: A shelf key is set -/
def F.SBUS_STATUS_KEY_SET : Fld := ⟨0x3B0008, 28, 1, .ro, 0, .any⟩
/-- R371: PLCA node ID in use -/
def F.SBUS_STATUS_NODE_ID : Fld := ⟨0x3B0008, 0, 8, .ro, 0, .any⟩
/-- R371: 0b00 by strap, 0b01 coordinator, 0b10 follower. 0b11 is reserved, handled as R4 states -/
def F.SBUS_PLCA_CFG_ROLE : Fld := ⟨0x3B0010, 30, 2, .rwl, 0, (.range 0 2)⟩
/-- R371: Transmit opportunities per cycle as coordinator, 2 to 255 -/
def F.SBUS_PLCA_CFG_NODE_CNT : Fld := ⟨0x3B0010, 16, 8, .rwl, 65, (.range 2 255)⟩
/-- R371: Transmit opportunity in bit times, 8 to 255 -/
def F.SBUS_PLCA_CFG_TO_TIMER : Fld := ⟨0x3B0010, 8, 8, .rwl, 32, (.range 8 255)⟩
/-- R371: Follower node ID, 1 to 254; 0xFF: SHELF_ID + 1 -/
def F.SBUS_PLCA_CFG_NODE_ID : Fld := ⟨0x3B0010, 0, 8, .rwl, 255, (.range 1 255)⟩
/-- R371: [47:40] is the first octet sent -/
def F.SBUS_MAC_ADDR : Fld := ⟨0x3B0018, 0, 48, .rwl, 0, .any⟩
/-- R371: A key commit was refused (R359) -/
def F.SBUS_ERR_STATUS_KEY_FAIL : Fld := ⟨0x3B0020, 7, 1, .w1c, 0, .any⟩
/-- R371: Another coordinator was heard (R354) -/
def F.SBUS_ERR_STATUS_DUP_COORD : Fld := ⟨0x3B0020, 6, 1, .w1c, 0, .any⟩
/-- R371: Collision in the device's own opportunity -/
def F.SBUS_ERR_STATUS_PLCA_COLL : Fld := ⟨0x3B0020, 5, 1, .w1c, 0, .any⟩
/-- R371: A frame was dropped for want of a bank (R361) -/
def F.SBUS_ERR_STATUS_RX_OVF : Fld := ⟨0x3B0020, 4, 1, .w1c, 0, .any⟩
/-- R371: A tag failed -/
def F.SBUS_ERR_STATUS_AUTH_FAIL : Fld := ⟨0x3B0020, 3, 1, .w1c, 0, .any⟩
/-- R371: A stale NONCE was refused -/
def F.SBUS_ERR_STATUS_REPLAY : Fld := ⟨0x3B0020, 2, 1, .w1c, 0, .any⟩
/-- R371: A source not seen before sent a shelf-protocol frame (R356) -/
def F.SBUS_ERR_STATUS_STRANGER : Fld := ⟨0x3B0020, 1, 1, .w1c, 0, .any⟩
/-- R371: A plate disagreement lasted over 5 ms (R369) -/
def F.SBUS_ERR_STATUS_PLT_DISAGREE : Fld := ⟨0x3B0020, 0, 1, .w1c, 0, .any⟩
/-- R371: Frames dropped under R356, and answers dropped by the rate limit -/
def F.SBUS_CNT_DROP_OTHER : Fld := ⟨0x3B0028, 48, 16, .rc, 0, .any⟩
/-- R371: Frames dropped under R361 -/
def F.SBUS_CNT_DROP_OVF : Fld := ⟨0x3B0028, 32, 16, .rc, 0, .any⟩
/-- R371: Frames received into a bank -/
def F.SBUS_CNT_RX_OK : Fld := ⟨0x3B0028, 16, 16, .rc, 0, .any⟩
/-- R371: Frames sent -/
def F.SBUS_CNT_TX_OK : Fld := ⟨0x3B0028, 0, 16, .rc, 0, .any⟩
/-- R371: Tag failures [63:32], replays [31:0]; each saturates at 0xFFFF_FFFF -/
def F.SBUS_AUTH_CNT_TAG : Fld := ⟨0x3B0030, 32, 32, .rc, 0, .any⟩
/-- R371: Tag failures [63:32], replays [31:0]; each saturates at 0xFFFF_FFFF -/
def F.SBUS_AUTH_CNT_REPLAY : Fld := ⟨0x3B0030, 0, 32, .rc, 0, .any⟩
/-- R371: Cut-through threshold in bytes, 14 to 1,518. Other values are reserved, handled as R4 stat -/
def F.SBUS_RXQ_CFG_CUT : Fld := ⟨0x3B0038, 0, 11, .rw, 64, (.range 14 1518)⟩
/-- R371: 1: the word holds data. Ignored on transmit -/
def F.SBUS_RXQ_DATA_V : Fld := ⟨0x3B0040, 63, 1, .ro, 0, .any⟩
/-- R371: First word of a frame -/
def F.SBUS_RXQ_DATA_FIRST : Fld := ⟨0x3B0040, 62, 1, .ro, 0, .any⟩
/-- R371: Last word of a frame -/
def F.SBUS_RXQ_DATA_LAST : Fld := ⟨0x3B0040, 61, 1, .ro, 0, .any⟩
/-- R371: Receive: FCS failed. Transmit, on FIRST: timestamp this frame -/
def F.SBUS_RXQ_DATA_ERR_TS : Fld := ⟨0x3B0040, 60, 1, .ro, 0, .any⟩
/-- R371: Valid bytes, 1 to 6 -/
def F.SBUS_RXQ_DATA_COUNT : Fld := ⟨0x3B0040, 48, 3, .ro, 0, .any⟩
/-- R371: Frame bytes, the earliest in [7:0] -/
def F.SBUS_RXQ_DATA_DATA : Fld := ⟨0x3B0040, 0, 48, .ro, 0, .any⟩
/-- R371: 1: discard the rest of the current frame -/
def F.SBUS_RXQ_CTL_DROP : Fld := ⟨0x3B0048, 31, 1, .wo, 0, .any⟩
/-- R371: Bit b: bank b holds a readable frame -/
def F.SBUS_RXQ_CTL_READY : Fld := ⟨0x3B0048, 0, 2, .ro, 0, .any⟩
/-- R371: 1: the word holds data. Ignored on transmit -/
def F.SBUS_TXQ_DATA_V : Fld := ⟨0x3B0050, 63, 1, .ro, 0, .any⟩
/-- R371: First word of a frame -/
def F.SBUS_TXQ_DATA_FIRST : Fld := ⟨0x3B0050, 62, 1, .wo, 0, .any⟩
/-- R371: Last word of a frame -/
def F.SBUS_TXQ_DATA_LAST : Fld := ⟨0x3B0050, 61, 1, .wo, 0, .any⟩
/-- R371: Receive: FCS failed. Transmit, on FIRST: timestamp this frame -/
def F.SBUS_TXQ_DATA_ERR_TS : Fld := ⟨0x3B0050, 60, 1, .wo, 0, .any⟩
/-- R371: Valid bytes, 1 to 6 -/
def F.SBUS_TXQ_DATA_COUNT : Fld := ⟨0x3B0050, 48, 3, .wo, 0, .any⟩
/-- R371: Frame bytes, the earliest in [7:0] -/
def F.SBUS_TXQ_DATA_DATA : Fld := ⟨0x3B0050, 0, 48, .wo, 0, .any⟩
/-- R371: 1: send the current frame now (R363) -/
def F.SBUS_TXQ_CTL_FLUSH : Fld := ⟨0x3B0058, 31, 1, .wo, 0, .any⟩
/-- R371: A write found no free bank -/
def F.SBUS_TXQ_CTL_LOST : Fld := ⟨0x3B0058, 30, 1, .w1c, 0, .any⟩
/-- R371: Bit b: bank b is free -/
def F.SBUS_TXQ_CTL_FREE : Fld := ⟨0x3B0058, 0, 2, .ro, 3, .any⟩
/-- R371: Receive timestamp of bank b (0 or 1) in ns; 0 if the frame was not 0x88F7 -/
def F.SBUS_TS_RX (n : Nat) : Fld := ⟨(0x3B0060 + n * 0x8), 0, 64, .ro, 0, .any⟩
/-- R371: Last transmit timestamp in ns -/
def F.SBUS_TS_TX : Fld := ⟨0x3B0070, 0, 64, .ro, 0, .any⟩
/-- R371: 1: store SBUS_KEY0 to 3 as the shelf key (R359) -/
def F.SBUS_KEY_CTL_COMMIT : Fld := ⟨0x3B0078, 31, 1, .wo, 0, .any⟩
/-- R371: A commit is running, for up to 5 ms -/
def F.SBUS_KEY_CTL_BUSY : Fld := ⟨0x3B0078, 30, 1, .ro, 0, .any⟩
/-- R371: Shelf key bits [64i + 63:64i], with i from 0 to 3 -/
def F.SBUS_KEY (n : Nat) : Fld := ⟨(0x3B0080 + n * 0x8), 0, 64, .wo, 0, .any⟩
/-- R371: 0b000 ABSENT, 0b001 PRESENT, 0b010 POWERING, 0b011 ONLINE, 0b100 DRAINING, 0b101 OFFLINE,  -/
def F.SBUS_PLT_STATE_MGMT_VIEW (n : Nat) : Fld := ⟨(0x3B0100 + n * 0x8), 29, 3, .ro, 0, .any⟩
/-- R371: 0b00 NONE, 0b01 SERVING, 0b10 PARTIAL, 0b11 FLUSHING -/
def F.SBUS_PLT_STATE_DATA_VIEW (n : Nat) : Fld := ⟨(0x3B0100 + n * 0x8), 27, 2, .ro, 0, .any⟩
/-- R371: A disagreement has lasted over 5 ms (R369) -/
def F.SBUS_PLT_STATE_DISAGREE (n : Nat) : Fld := ⟨(0x3B0100 + n * 0x8), 26, 1, .ro, 0, .any⟩
/-- R371: 0x0 none, 0x1 identity unreadable, 0x2 media generation, 0x3 awaiting ADMIT, 0x4 roster wr -/
def F.SBUS_PLT_STATE_HOLD (n : Nat) : Fld := ⟨(0x3B0100 + n * 0x8), 20, 4, .ro, 0, .any⟩
/-- R371: Last departure from ONLINE: 0x0 none, 0x1 shelf-bus OUT, 0x2 register OUT, 0x3 plate fault -/
def F.SBUS_PLT_STATE_CAUSE (n : Nat) : Fld := ⟨(0x3B0100 + n * 0x8), 16, 4, .ro, 0, .any⟩
/-- R371: Plate sensor reading in °C -/
def F.SBUS_PLT_STATE_TEMP (n : Nat) : Fld := ⟨(0x3B0100 + n * 0x8), 8, 8, .ro, 0, .any⟩
/-- R371: Requests in flight to the plate; saturates at 255 -/
def F.SBUS_PLT_STATE_IN_FLIGHT (n : Nat) : Fld := ⟨(0x3B0100 + n * 0x8), 0, 8, .ro, 0, .any⟩
/-- R371: From the identity record -/
def F.SBUS_PLT_ID_MEDIA_GEN (n : Nat) : Fld := ⟨(0x3B0180 + n * 0x8), 48, 16, .ro, 0, .any⟩
/-- R371: SERIAL matches the roster (R365) -/
def F.SBUS_PLT_ID_KNOWN (n : Nat) : Fld := ⟨(0x3B0180 + n * 0x8), 32, 1, .ro, 0, .any⟩
/-- R371: CRC-32 of the 16 SERIAL bytes -/
def F.SBUS_PLT_ID_SERIAL_CRC (n : Nat) : Fld := ⟨(0x3B0180 + n * 0x8), 0, 32, .ro, 0, .any⟩
/-- R371: 1: queue the request (R368) -/
def F.SBUS_PLT_CMD_GO : Fld := ⟨0x3B0200, 31, 1, .wo, 0, .any⟩
/-- R371: 0x1 ON, 0x2 OUT, 0x3 ADMIT. Others are reserved; a GO with them does nothing -/
def F.SBUS_PLT_CMD_ACTION : Fld := ⟨0x3B0200, 8, 4, .wo, 0, .any⟩
/-- R371: Plate number -/
def F.SBUS_PLT_CMD_PLATE : Fld := ⟨0x3B0200, 0, 4, .wo, 0, .any⟩
/-- R371: Plate temperature in °C that starts DRAINING after 10 s, 60 to 100. Other values are reser -/
def F.SBUS_PLT_CFG_HOT_C : Fld := ⟨0x3B0208, 16, 8, .rw, 85, (.range 60 100)⟩
/-- R371: Bit p: power a known plate p when it becomes PRESENT -/
def F.SBUS_PLT_CFG_AUTO_ON : Fld := ⟨0x3B0208, 0, 16, .rw, 65535, .any⟩

/-- The registers of block SBUS. -/
def regsSBUS : List RegDesc := [
  ⟨"SBUS_CTL", 0x3B0000, 0x0, 1, 0x0, 1, 32, [F.SBUS_CTL_TS_EN, F.SBUS_CTL_UNAUTH_RESP, F.SBUS_CTL_EN]⟩,
  ⟨"SBUS_STATUS", 0x3B0008, 0x0, 1, 0x0, 1, 32, [F.SBUS_STATUS_PLCA_ACTIVE, F.SBUS_STATUS_COORD, F.SBUS_STATUS_CSMA, F.SBUS_STATUS_KEY_SET, F.SBUS_STATUS_NODE_ID]⟩,
  ⟨"SBUS_PLCA_CFG", 0x3B0010, 0x0, 1, 0x0, 1, 32, [F.SBUS_PLCA_CFG_ROLE, F.SBUS_PLCA_CFG_NODE_CNT, F.SBUS_PLCA_CFG_TO_TIMER, F.SBUS_PLCA_CFG_NODE_ID]⟩,
  ⟨"SBUS_MAC", 0x3B0018, 0x0, 1, 0x0, 1, 64, [F.SBUS_MAC_ADDR]⟩,
  ⟨"SBUS_ERR_STATUS", 0x3B0020, 0x0, 1, 0x0, 1, 32, [F.SBUS_ERR_STATUS_KEY_FAIL, F.SBUS_ERR_STATUS_DUP_COORD, F.SBUS_ERR_STATUS_PLCA_COLL, F.SBUS_ERR_STATUS_RX_OVF, F.SBUS_ERR_STATUS_AUTH_FAIL, F.SBUS_ERR_STATUS_REPLAY, F.SBUS_ERR_STATUS_STRANGER, F.SBUS_ERR_STATUS_PLT_DISAGREE]⟩,
  ⟨"SBUS_CNT", 0x3B0028, 0x0, 1, 0x0, 1, 64, [F.SBUS_CNT_DROP_OTHER, F.SBUS_CNT_DROP_OVF, F.SBUS_CNT_RX_OK, F.SBUS_CNT_TX_OK]⟩,
  ⟨"SBUS_AUTH_CNT", 0x3B0030, 0x0, 1, 0x0, 1, 64, [F.SBUS_AUTH_CNT_TAG, F.SBUS_AUTH_CNT_REPLAY]⟩,
  ⟨"SBUS_RXQ_CFG", 0x3B0038, 0x0, 1, 0x0, 1, 32, [F.SBUS_RXQ_CFG_CUT]⟩,
  ⟨"SBUS_RXQ_DATA", 0x3B0040, 0x0, 1, 0x0, 1, 64, [F.SBUS_RXQ_DATA_V, F.SBUS_RXQ_DATA_FIRST, F.SBUS_RXQ_DATA_LAST, F.SBUS_RXQ_DATA_ERR_TS, F.SBUS_RXQ_DATA_COUNT, F.SBUS_RXQ_DATA_DATA]⟩,
  ⟨"SBUS_RXQ_CTL", 0x3B0048, 0x0, 1, 0x0, 1, 32, [F.SBUS_RXQ_CTL_DROP, F.SBUS_RXQ_CTL_READY]⟩,
  ⟨"SBUS_TXQ_DATA", 0x3B0050, 0x0, 1, 0x0, 1, 64, [F.SBUS_TXQ_DATA_V, F.SBUS_TXQ_DATA_FIRST, F.SBUS_TXQ_DATA_LAST, F.SBUS_TXQ_DATA_ERR_TS, F.SBUS_TXQ_DATA_COUNT, F.SBUS_TXQ_DATA_DATA]⟩,
  ⟨"SBUS_TXQ_CTL", 0x3B0058, 0x0, 1, 0x0, 1, 32, [F.SBUS_TXQ_CTL_FLUSH, F.SBUS_TXQ_CTL_LOST, F.SBUS_TXQ_CTL_FREE]⟩,
  ⟨"SBUS_TS_RXb", 0x3B0060, 0x8, 2, 0x0, 1, 64, [F.SBUS_TS_RX 0]⟩,
  ⟨"SBUS_TS_TX", 0x3B0070, 0x0, 1, 0x0, 1, 64, [F.SBUS_TS_TX]⟩,
  ⟨"SBUS_KEY_CTL", 0x3B0078, 0x0, 1, 0x0, 1, 32, [F.SBUS_KEY_CTL_COMMIT, F.SBUS_KEY_CTL_BUSY]⟩,
  ⟨"SBUS_KEYi", 0x3B0080, 0x8, 4, 0x0, 1, 64, [F.SBUS_KEY 0]⟩,
  ⟨"SBUS_PLTp_STATE", 0x3B0100, 0x8, 16, 0x0, 1, 32, [F.SBUS_PLT_STATE_MGMT_VIEW 0, F.SBUS_PLT_STATE_DATA_VIEW 0, F.SBUS_PLT_STATE_DISAGREE 0, F.SBUS_PLT_STATE_HOLD 0, F.SBUS_PLT_STATE_CAUSE 0, F.SBUS_PLT_STATE_TEMP 0, F.SBUS_PLT_STATE_IN_FLIGHT 0]⟩,
  ⟨"SBUS_PLTp_ID", 0x3B0180, 0x8, 16, 0x0, 1, 64, [F.SBUS_PLT_ID_MEDIA_GEN 0, F.SBUS_PLT_ID_KNOWN 0, F.SBUS_PLT_ID_SERIAL_CRC 0]⟩,
  ⟨"SBUS_PLT_CMD", 0x3B0200, 0x0, 1, 0x0, 1, 32, [F.SBUS_PLT_CMD_GO, F.SBUS_PLT_CMD_ACTION, F.SBUS_PLT_CMD_PLATE]⟩,
  ⟨"SBUS_PLT_CFG", 0x3B0208, 0x0, 1, 0x0, 1, 32, [F.SBUS_PLT_CFG_HOT_C, F.SBUS_PLT_CFG_AUTO_ON]⟩]

/-! ### SPEC -/

/-- R386: Timer period in ms, 1 to 60,000. 0 means no timer. Other values are reserved, handled as R -/
def F.SPEC_SNAP_CFG_PERIOD_MS : Fld := ⟨0x3C0000, 0, 16, .rw, 1000, (.range 0 60000)⟩
/-- R386: 1: take a snapshot (R376) -/
def F.SPEC_SNAP_CMD_GO : Fld := ⟨0x3C0008, 0, 1, .wo, 0, .any⟩
/-- R386: Snapshots published since cold start -/
def F.SPEC_SNAP_STATUS_SEQ : Fld := ⟨0x3C0010, 32, 32, .ro, 0, .any⟩
/-- R386: A snapshot is being copied -/
def F.SPEC_SNAP_STATUS_BUSY : Fld := ⟨0x3C0010, 31, 1, .ro, 0, .any⟩
/-- R386: Published bank -/
def F.SPEC_SNAP_STATUS_BANK : Fld := ⟨0x3C0010, 30, 1, .ro, 0, .any⟩
/-- R386: Ephemeris time of its freeze -/
def F.SPEC_SNAP_TIME : Fld := ⟨0x3C0018, 0, 64, .ro, 0, .any⟩
/-- R386: [15:0] bit n maps the counter view page of LD n (R379) -/
def F.SPEC_LD_VIEW : Fld := ⟨0x3C0020, 0, 16, .rw, 0, .any⟩
/-- R386: [11:0] counter ID for SPEC_LIVE -/
def F.SPEC_LIVE_SEL : Fld := ⟨0x3C0028, 0, 12, .rw, 0, .any⟩
/-- R386: Live word of the selected counter (R378) -/
def F.SPEC_LIVE : Fld := ⟨0x3C0030, 0, 64, .ro, 0, .any⟩
/-- R386: [15:0] bit k chains counter 2k + 1 into 2k (R374) -/
def F.SPEC_CHAIN (n : Nat) : Fld := ⟨(0x3C1000 + n * 0x8), 0, 16, .rw, 0, .any⟩
/-- R386: [31:0] bit i: counter i wrapped -/
def F.SPEC_WRAP (n : Nat) : Fld := ⟨(0x3C1400 + n * 0x8), 0, 32, .w1c, 0, .any⟩
/-- R386: Published word of counter id -/
def F.SPEC_SNAPWIN (n : Nat) : Fld := ⟨(0x3C8000 + n * 0x8), 0, 64, .ro, 0, .any⟩

/-- The registers of block SPEC. -/
def regsSPEC : List RegDesc := [
  ⟨"SPEC_SNAP_CFG", 0x3C0000, 0x0, 1, 0x0, 1, 32, [F.SPEC_SNAP_CFG_PERIOD_MS]⟩,
  ⟨"SPEC_SNAP_CMD", 0x3C0008, 0x0, 1, 0x0, 1, 32, [F.SPEC_SNAP_CMD_GO]⟩,
  ⟨"SPEC_SNAP_STATUS", 0x3C0010, 0x0, 1, 0x0, 1, 64, [F.SPEC_SNAP_STATUS_SEQ, F.SPEC_SNAP_STATUS_BUSY, F.SPEC_SNAP_STATUS_BANK]⟩,
  ⟨"SPEC_SNAP_TIME", 0x3C0018, 0x0, 1, 0x0, 1, 64, [F.SPEC_SNAP_TIME]⟩,
  ⟨"SPEC_LD_VIEW", 0x3C0020, 0x0, 1, 0x0, 1, 32, [F.SPEC_LD_VIEW]⟩,
  ⟨"SPEC_LIVE_SEL", 0x3C0028, 0x0, 1, 0x0, 1, 32, [F.SPEC_LIVE_SEL]⟩,
  ⟨"SPEC_LIVE", 0x3C0030, 0x0, 1, 0x0, 1, 64, [F.SPEC_LIVE]⟩,
  ⟨"SPEC_CHAINb", 0x3C1000, 0x8, 128, 0x0, 1, 32, [F.SPEC_CHAIN 0]⟩,
  ⟨"SPEC_WRAPb", 0x3C1400, 0x8, 128, 0x0, 1, 32, [F.SPEC_WRAP 0]⟩,
  ⟨"SPEC_SNAPWIN", 0x3C8000, 0x8, 4096, 0x0, 1, 64, [F.SPEC_SNAPWIN 0]⟩]

/-! ### LOG -/

/-- R387: Lowest severity stored -/
def F.LOG_CTL_FLOOR : Fld := ⟨0x3D0000, 4, 3, .rw, 0, .any⟩
/-- R387: Lowest severity that interrupts. 0b111 is reserved, handled as R4 states -/
def F.LOG_CTL_IRQ_SEV : Fld := ⟨0x3D0000, 0, 3, .rw, 4, (.range 0 6)⟩
/-- R387: [31:0] SEQ of the next record -/
def F.LOG_HEAD : Fld := ⟨0x3D0008, 0, 32, .ro, 0, .any⟩
/-- R387: 1: advance on a matching read of LOG_WIN3 -/
def F.LOG_CURSOR_AUTO : Fld := ⟨0x3D0010, 32, 1, .rw, 0, .any⟩
/-- R387: Record to read -/
def F.LOG_CURSOR_SEQ : Fld := ⟨0x3D0010, 0, 32, .rw, 0, .any⟩
/-- R387: Records lost (R381); saturates at 0xFFFF_FFFF -/
def F.LOG_DROP_CNT : Fld := ⟨0x3D0018, 0, 32, .rc, 0, .any⟩
/-- R387: Restored SEQ values are not consecutive -/
def F.LOG_TAIL_GAP : Fld := ⟨0x3D0020, 40, 1, .ro, 0, .any⟩
/-- R387: Records restored, 0 to 128 -/
def F.LOG_TAIL_COUNT : Fld := ⟨0x3D0020, 32, 8, .ro, 0, .any⟩
/-- R387: Highest SEQ restored -/
def F.LOG_TAIL_LAST : Fld := ⟨0x3D0020, 0, 32, .ro, 0, .any⟩
/-- R387: Record bytes 8w to 8w + 7 at the cursor, with w from 0 to 3 (R383) -/
def F.LOG_WIN (n : Nat) : Fld := ⟨(0x3D0100 + n * 0x8), 0, 64, .ro, 0, .any⟩
/-- R387: Record bytes 8w to 8w + 7. SEQ and TIME are ignored. A write of LOG_PUT3 queues the record -/
def F.LOG_PUT (n : Nat) : Fld := ⟨(0x3D0200 + n * 0x8), 0, 64, .wo, 0, .any⟩

/-- The registers of block LOG. -/
def regsLOG : List RegDesc := [
  ⟨"LOG_CTL", 0x3D0000, 0x0, 1, 0x0, 1, 32, [F.LOG_CTL_FLOOR, F.LOG_CTL_IRQ_SEV]⟩,
  ⟨"LOG_HEAD", 0x3D0008, 0x0, 1, 0x0, 1, 32, [F.LOG_HEAD]⟩,
  ⟨"LOG_CURSOR", 0x3D0010, 0x0, 1, 0x0, 1, 64, [F.LOG_CURSOR_AUTO, F.LOG_CURSOR_SEQ]⟩,
  ⟨"LOG_DROP_CNT", 0x3D0018, 0x0, 1, 0x0, 1, 32, [F.LOG_DROP_CNT]⟩,
  ⟨"LOG_TAIL", 0x3D0020, 0x0, 1, 0x0, 1, 64, [F.LOG_TAIL_GAP, F.LOG_TAIL_COUNT, F.LOG_TAIL_LAST]⟩,
  ⟨"LOG_WINw", 0x3D0100, 0x8, 4, 0x0, 1, 64, [F.LOG_WIN 0]⟩,
  ⟨"LOG_PUTw", 0x3D0200, 0x8, 4, 0x0, 1, 64, [F.LOG_PUT 0]⟩]

/-! ### ALM -/

/-- R409: The almanac answers (R388) -/
def F.ALM_STATUS_READY : Fld := ⟨0x3E0000, 31, 1, .ro, 0, .any⟩
/-- R409: A write is in progress -/
def F.ALM_STATUS_BUSY : Fld := ⟨0x3E0000, 30, 1, .ro, 0, .any⟩
/-- R409: 1: ALM_WP# is asserted -/
def F.ALM_STATUS_WP : Fld := ⟨0x3E0000, 29, 1, .ro, 0, .any⟩
/-- R409: Requests waiting, 0 to 16 -/
def F.ALM_STATUS_QUEUE : Fld := ⟨0x3E0000, 16, 5, .ro, 0, .any⟩
/-- R409: Byte address bits [17:2] -/
def F.ALM_ADDR_ADDR : Fld := ⟨0x3E0008, 2, 16, .rw, 0, .any⟩
/-- R409: 1: start OP. A GO that is accepted clears DONE in the same write. Ignored while an earlier -/
def F.ALM_CMD_GO : Fld := ⟨0x3E0010, 31, 1, .wo, 0, .any⟩
/-- R409: Set when the host command ends; STATUS is then valid. An accepted GO clears it, and so doe -/
def F.ALM_CMD_DONE : Fld := ⟨0x3E0010, 30, 1, .w1c, 0, .any⟩
/-- R409: 0b01 READ into ALM_DATA, 0b10 WRITE from ALM_DATA. 0b00 and 0b11 are reserved; a GO with t -/
def F.ALM_CMD_OP : Fld := ⟨0x3E0010, 28, 2, .rw, 0, .any⟩
/-- R409: 0x0 OK, 0x1 WP_REFUSED, 0x2 DENIED, 0x3 BAD_RANGE -/
def F.ALM_CMD_STATUS : Fld := ⟨0x3E0010, 24, 4, .ro, 0, .any⟩
/-- R409: Bytes, 4 to 256 in multiples of 4. Other values are reserved; a GO with them completes wit -/
def F.ALM_CMD_LEN : Fld := ⟨0x3E0010, 0, 9, .rw, 0, .any⟩
/-- R409: A write was cut short (R393) -/
def F.ALM_ERR_STATUS_CUT : Fld := ⟨0x3E0018, 3, 1, .w1c, 0, .any⟩
/-- R409: An intent failed its check (R396) -/
def F.ALM_ERR_STATUS_ODO_BAD : Fld := ⟨0x3E0018, 2, 1, .w1c, 0, .any⟩
/-- R409: An increment was completed at start (R396) -/
def F.ALM_ERR_STATUS_ODO_REPAIR : Fld := ⟨0x3E0018, 1, 1, .w1c, 0, .any⟩
/-- R409: A write from any writer was refused (R392) -/
def F.ALM_ERR_STATUS_WP_REFUSE : Fld := ⟨0x3E0018, 0, 1, .w1c, 0, .any⟩
/-- R409: Data buffer bytes 8w to 8w + 7, with w from 0 to 31 -/
def F.ALM_DATA (n : Nat) : Fld := ⟨(0x3E0100 + n * 0x8), 0, 64, .rw, 0, .any⟩
/-- R409: HIGH × 2^32 + LOW -/
def F.ALM_ODO_VALUE (n : Nat) : Fld := ⟨(0x3E0200 + n * 0x8), 0, 64, .ro, 0, .any⟩

/-- The registers of block ALM. -/
def regsALM : List RegDesc := [
  ⟨"ALM_STATUS", 0x3E0000, 0x0, 1, 0x0, 1, 32, [F.ALM_STATUS_READY, F.ALM_STATUS_BUSY, F.ALM_STATUS_WP, F.ALM_STATUS_QUEUE]⟩,
  ⟨"ALM_ADDR", 0x3E0008, 0x0, 1, 0x0, 1, 32, [F.ALM_ADDR_ADDR]⟩,
  ⟨"ALM_CMD", 0x3E0010, 0x0, 1, 0x0, 1, 32, [F.ALM_CMD_GO, F.ALM_CMD_DONE, F.ALM_CMD_OP, F.ALM_CMD_STATUS, F.ALM_CMD_LEN]⟩,
  ⟨"ALM_ERR_STATUS", 0x3E0018, 0x0, 1, 0x0, 1, 32, [F.ALM_ERR_STATUS_CUT, F.ALM_ERR_STATUS_ODO_BAD, F.ALM_ERR_STATUS_ODO_REPAIR, F.ALM_ERR_STATUS_WP_REFUSE]⟩,
  ⟨"ALM_DATAw", 0x3E0100, 0x8, 32, 0x0, 1, 64, [F.ALM_DATA 0]⟩,
  ⟨"ALM_ODOi", 0x3E0200, 0x8, 16, 0x0, 1, 64, [F.ALM_ODO_VALUE 0]⟩]

/-! ### LCS -/

/-- R410: 0b000 MANUFACTURE, 0b001 PROVISION, 0b010 DEVELOP, 0b011 SERVICE, 0b100 RETURN, 0b101 DECO -/
def F.LCS_STATUS_STATE : Fld := ⟨0x3F0000, 29, 3, .ro, 0, .any⟩
/-- R410: A request is running -/
def F.LCS_STATUS_BUSY : Fld := ⟨0x3F0000, 28, 1, .ro, 0, .any⟩
/-- R410: The mirror was rewritten at start (R401) -/
def F.LCS_STATUS_MIRROR_FIX : Fld := ⟨0x3F0000, 27, 1, .ro, 0, .any⟩
/-- R410: OTP slots used, 1 to 8 -/
def F.LCS_STATUS_SLOTS : Fld := ⟨0x3F0000, 20, 4, .ro, 0, .any⟩
/-- R410: Bit s: key slot s fused -/
def F.LCS_STATUS_KEY_FUSED : Fld := ⟨0x3F0000, 12, 4, .ro, 0, .any⟩
/-- R410: Bit s: key slot s revoked -/
def F.LCS_STATUS_KEY_REVOKED : Fld := ⟨0x3F0000, 8, 4, .ro, 0, .any⟩
/-- R410: Token challenge (R407) -/
def F.LCS_CHALLENGE : Fld := ⟨0x3F0008, 0, 64, .ro, 0, .any⟩
/-- R410: 1: start OP. The token must already stand in LCS_TOKEN. A GO that is accepted clears DONE  -/
def F.LCS_CMD_GO : Fld := ⟨0x3F0010, 31, 1, .wo, 0, .any⟩
/-- R410: Set when the request ends. An accepted GO clears it, and so does a write of 1 -/
def F.LCS_CMD_DONE : Fld := ⟨0x3F0010, 30, 1, .w1c, 0, .any⟩
/-- R410: 0x1 TRANSITION, 0x2 UNLOCK, 0x3 RELOCK, 0x4 KEYFUSE. Others are reserved; a GO with them d -/
def F.LCS_CMD_OP : Fld := ⟨0x3F0010, 24, 4, .rw, 0, .any⟩
/-- R410: Target state for TRANSITION, encoded as STATE -/
def F.LCS_CMD_TARGET : Fld := ⟨0x3F0010, 21, 3, .rw, 0, .any⟩
/-- R410: Confirmation code of R399 -/
def F.LCS_CMD_CONFIRM : Fld := ⟨0x3F0010, 0, 16, .rw, 0, .any⟩
/-- R410: 0x0 OK, 0x1 BAD_TOKEN, 0x2 NOT_ALLOWED, 0x3 WP, 0x4 BUSY, 0x5 NO_SLOT, 0x6 ABANDONED, 0x7  -/
def F.LCS_RESULT_STATUS : Fld := ⟨0x3F0018, 28, 4, .ro, 0, .any⟩
/-- R410: OP of the request -/
def F.LCS_RESULT_OP : Fld := ⟨0x3F0018, 24, 4, .ro, 0, .any⟩
/-- R410: Debug instructions available (R398) -/
def F.LCS_FINDER_ENABLED : Fld := ⟨0x3F0020, 31, 1, .ro, 0, .any⟩
/-- R410: An unlock token is in force -/
def F.LCS_FINDER_UNLOCKED : Fld := ⟨0x3F0020, 30, 1, .ro, 0, .any⟩
/-- R410: Scope in force, as R407; 0b111 while ENABLED without unlock -/
def F.LCS_FINDER_SCOPE : Fld := ⟨0x3F0020, 27, 3, .ro, 0, .any⟩
/-- R410: An unavailable instruction was loaded since cold start -/
def F.LCS_FINDER_DENIED : Fld := ⟨0x3F0020, 26, 1, .ro, 0, .any⟩
/-- R410: Slot of the unlocking key -/
def F.LCS_FINDER_KEY_SLOT : Fld := ⟨0x3F0020, 24, 2, .ro, 0, .any⟩
/-- R410: An SRAM word failed its second check -/
def F.LCS_WIPE_FAIL : Fld := ⟨0x3F0028, 31, 1, .ro, 0, .any⟩
/-- R410: SRAM wipe time in µs -/
def F.LCS_WIPE_SRAM_US : Fld := ⟨0x3F0028, 0, 16, .ro, 0, .any⟩
/-- R410: Token bytes 8w to 8w + 7, with w from 0 to 31 -/
def F.LCS_TOKEN (n : Nat) : Fld := ⟨(0x3F0100 + n * 0x8), 0, 64, .wo, 0, .any⟩
/-- R410: Key hash bytes 8w to 8w + 7, with w from 0 to 5 -/
def F.LCS_KHASH (n : Nat) : Fld := ⟨(0x3F0200 + n * 0x8), 0, 64, .wo, 0, .any⟩

/-- The registers of block LCS. -/
def regsLCS : List RegDesc := [
  ⟨"LCS_STATUS", 0x3F0000, 0x0, 1, 0x0, 1, 32, [F.LCS_STATUS_STATE, F.LCS_STATUS_BUSY, F.LCS_STATUS_MIRROR_FIX, F.LCS_STATUS_SLOTS, F.LCS_STATUS_KEY_FUSED, F.LCS_STATUS_KEY_REVOKED]⟩,
  ⟨"LCS_CHALLENGE", 0x3F0008, 0x0, 1, 0x0, 1, 64, [F.LCS_CHALLENGE]⟩,
  ⟨"LCS_CMD", 0x3F0010, 0x0, 1, 0x0, 1, 32, [F.LCS_CMD_GO, F.LCS_CMD_DONE, F.LCS_CMD_OP, F.LCS_CMD_TARGET, F.LCS_CMD_CONFIRM]⟩,
  ⟨"LCS_RESULT", 0x3F0018, 0x0, 1, 0x0, 1, 32, [F.LCS_RESULT_STATUS, F.LCS_RESULT_OP]⟩,
  ⟨"LCS_FINDER", 0x3F0020, 0x0, 1, 0x0, 1, 32, [F.LCS_FINDER_ENABLED, F.LCS_FINDER_UNLOCKED, F.LCS_FINDER_SCOPE, F.LCS_FINDER_DENIED, F.LCS_FINDER_KEY_SLOT]⟩,
  ⟨"LCS_WIPE", 0x3F0028, 0x0, 1, 0x0, 1, 32, [F.LCS_WIPE_FAIL, F.LCS_WIPE_SRAM_US]⟩,
  ⟨"LCS_TOKENw", 0x3F0100, 0x8, 32, 0x0, 1, 64, [F.LCS_TOKEN 0]⟩,
  ⟨"LCS_KHASHw", 0x3F0200, 0x8, 6, 0x0, 1, 64, [F.LCS_KHASH 0]⟩]

/-- Every register of BAR0 (00_scope.md R7). -/
def allRegs : List RegDesc :=
  regsGLB ++ regsHOST ++ regsXLAT ++ regsMAPC ++ regsCOAL ++ regsMCH ++ regsDRIFT ++ regsFLD ++ regsDUR ++ regsWMEM ++ regsECC ++ regsCIPH ++ regsMERID ++ regsQP ++ regsRING ++ regsREG ++ regsLEDG ++ regsIMG ++ regsDOME ++ regsCLK ++ regsSBUS ++ regsSPEC ++ regsLOG ++ regsALM ++ regsLCS

end Sys2Proof.Machine
end

