-- ==== Sys2Proof/Machine/Resets.lean ====
section
/-! DEFINITION. The reset value of each block's own state. -/

namespace Sys2Proof.Machine

/-- 01_the_shelf_controller.md R15, R16: no cause, mask 0x007F_FFFF, no mode yet; the device is unpowered. DESIGN CHOICE, notes/assumptions/4.md. -/
def Glb.reset : Glb where
  intStatus := 0
  intMask := 0x007FFFFF
  mode := .off
  transTo := none
  transSrc := 0
  ingressClosed := true
  stayLds := []
  stayAny := false
  wake := false
  perst := true
  perstHeld := false
  perstPme := false
  heldTarget := none
  force := false

/-- 18_start_up.md: nothing has started. DESIGN CHOICE, notes/assumptions/4.md. -/
def Start.reset : Start where
  relAt := 0
  relPend := false
  relStraps := 0
  relUs := 0
  relFail := false
  source := 0
  aonLost := false
  aonDown := true
  vin := false
  wakeId := 0
  ddrTrained := false
  replayed := false
  vaultHandled := false
  warm := false
  memActive := false
  collapsed := false

/-- An empty logbook (16_spectrograph_and_logbook.md R385: SEQ 0). -/
def LogSt.reset : LogSt where
  slots := []
  head := 0
  drops := 0
  lost := 0
  win := none
  put := [0, 0, 0]
  tailCopy := []

def SpecBank.reset : SpecBank where
  cnt := []
  wrap := []
  chain := []

/-- Every counter 0 (R373). -/
def SpecSt.reset : SpecSt where
  cnt := []
  chain := []
  wrap := []
  bank0 := SpecBank.reset
  bank1 := SpecBank.reset
  bank := 0
  seq := 0
  busy := false
  frozen := SpecBank.reset
  frozenAt := 0
  time := 0

/-- Time 0, nothing recorded (14_clocks_and_crossings.md R345). -/
def ClkSt.reset : ClkSt where
  tod := 0
  frac := 0
  ticks := 0
  tickAcc := 0
  recTod := 0
  recTicks := 0
  recOk := false
  latch := []
  held := []
  xlogged := []
  skipWin := false

/-- An almanac in which no byte has been written: every byte reads 0. DESIGN CHOICE, notes/assumptions/4.md.
DESIGN CHOICE, notes/assumptions/5.md. -/
def AlmSt.reset : AlmSt where
  bytes := []
  queue := []
  waiting := []
  run := none
  wp := false
  cut := false
  train := none

/-- Slot 0 is blown with MANUFACTURE at wafer test (17_almanac_life_cycle_finder.md R397); slots 0 and 1 of the key
hashes are fused (12_voxsicel_image.md R289). DESIGN CHOICE, notes/assumptions/4.md. -/
def LcsSt.reset : LcsSt where
  slots := [1]
  fused := 3
  revoked := 0
  hashes := []
  trans := none

def CoreSt.reset : CoreSt where
  halted := false
  cause := 0
  pc := 0
  regs := []
  bps := []
  mem := []

/-- Test-Logic-Reset selects IDCODE (R404). DESIGN CHOICE, notes/assumptions/4.md. -/
def FindSt.reset : FindSt where
  ir := 2
  boundary := 0
  drive := 0
  status := 0
  data := 0
  ctlCore := 0
  regRead := 0
  coreA := CoreSt.reset
  coreB := CoreSt.reset

/-- A rail that is off and discharged (13_dome_power.md R335, STATE 0b000). -/
def Rail.reset : Rail where
  phase := .off
  en := false
  pg := false
  margin := 0
  mv := 0
  iout := 0
  bad := 0
  miss := 0
  disch := true
  offMin := true

/-- A sequencer at rest, its rails down. -/
def SeqSt.reset : SeqSt where
  phase := .off
  steps := []
  held := false

def Fan.reset : Fan where
  stall := false
  failsafe := false
  rpm := 0

/-- The built-in scripts (13_dome_power.md R322 to R324). In plate scripts rail 0 is VPP_PLATE and rail 1 VCC_PLATE. -/
def Scripts.builtIn : Scripts where
  plateUp := [⟨.rstAssert, 0, 0⟩, ⟨.enable, 1, 0⟩, ⟨.waitUp, 1, 5000⟩, ⟨.delay, 0, 1000⟩, ⟨.enable, 0, 0⟩,
    ⟨.waitUp, 0, 10000⟩, ⟨.delay, 0, 5000⟩, ⟨.rstRelease, 0, 0⟩]
  plateDown := [⟨.rstAssert, 0, 0⟩, ⟨.disable, 0, 0⟩, ⟨.waitDown, 0, 0⟩, ⟨.disable, 1, 0⟩, ⟨.waitDown, 1, 0⟩]
  deviceDown := [⟨.disable, 7, 0⟩, ⟨.waitDown, 7, 0⟩] ++
    [6, 5, 4, 3, 2, 1, 0].flatMap (fun r => [⟨.disable, r, 0⟩, ⟨.waitDown, r, 0⟩])
  drainDown := (List.range 16).map (fun p => ⟨.disable, 8 + 2 * p, 0⟩) ++ [⟨.delay, 0, 500⟩] ++
    (List.range 16).map (fun p => ⟨.disable, 9 + 2 * p, 0⟩) ++ [⟨.delay, 0, 500⟩, ⟨.disable, 7, 0⟩]

/-- DESIGN CHOICE, notes/assumptions/4.md. -/
def DomeSt.reset : DomeSt where
  pd := []
  rails := []
  seqs := []
  bank0 := Scripts.builtIn
  bank1 := Scripts.builtIn
  bank := 0
  flip := false
  marginRail := none
  marginWait := false
  huEn := false
  huOk := false
  onBank := false
  prsnt := 0
  pltRst := 0xFFFF
  fans := []
  thermOvr := false
  tj := 0
  hot110 := 0
  hot105 := false
  laneBad := 0
  adc := []
  haltFan := false
  legacy := false
  drainTail := false

/-- No key, nobody heard, both banks empty each way (15_shelf_bus.md). DESIGN CHOICE, notes/assumptions/4.md. -/
def SbusSt.reset : SbusSt where
  nonces := []
  floor := 0
  key := none
  seen := []
  strangerSec := 0
  fails := []
  quar := []
  answers := (0, 0)
  sub := none
  evSent := 0
  rx := []
  tx := []
  txq := []
  cont := false
  yielded := false
  csma := false
  ident := []
  newId := []
  heldOn := []
  flagged := []
  reqs := []

end Sys2Proof.Machine
end

