-- ==== Sys2Proof/Machine/ResetsData.lean ====
section
/-! DEFINITION. The reset value of the data-path blocks' own state: nothing in progress, every table empty. -/

namespace Sys2Proof.Machine

/-- An LD with no capacity. -/
def LdSt.reset : LdSt where
  hdm := List.replicate 4 Hdm.reset
  blocks := 0
  dcRegion := 0
  extents := []
  poison := []
  poisonOvf := false
  logs := []
  drops := []
  irqPolicy := 0
  lifeWarn := none
  tempWarn := none
  lifeHit := false
  tempHit := false
  bg := none
  lastBg := none
  scan := []
  lsa := []
  lastUnbacked := 0
  lastKid := 0

/-- A port that is down. -/
def PortSt.reset : PortSt where
  up := false
  l1 := false
  credFree := []
  held := []
  inPort := []
  s2mGrant := []
  s2mFree := []
  s2mUsed := []
  insecure := false
  gpf := false
  gpfLds := []
  gpfAny := false
  gpf2 := false
  respQ := []
  linkQ := []
  mboxQ := []

/-- Nothing allocated, no port up (02_host_port.md). -/
def HostSt.reset : HostSt where
  lds := []
  ports := []
  ingress := []
  parked := []
  writeQ := []
  moving := []
  moveTo := []
  movingCmd := false
  releases := []
  msix := []
  pba := []
  gpfMs := 5
  gpfMw := 30000

/-- An INVALID line. -/
def MapLine.reset : MapLine where
  tag := 0
  st := .invalid
  valid := 0
  dirty := 0
  doom := false
  redirty := false
  why := .none
  words := []
  wbuf := []
  wbMask := 0

/-- An empty cache, no frame table in use (03_translation.md). -/
def XlatSt.reset : XlatSt where
  lines := []
  misses := []
  stalled := []
  maint := none
  conv := none
  used := []
  splits := []
  rebuilding := []
  lost := []
  scratch := []
  probe := none

/-- Every token free (03_translation.md R71). -/
def CoalSt.reset : CoalSt where
  lines := []
  toks := []
  gathers := []
  frames := []
  nextOrder := 0
  entered := 0
  switched := 0
  dropped := 0
  lostN := 0

/-- An erased row. DESIGN CHOICE, notes/assumptions/6.md. -/
def MRow.reset : MRow where
  kind := .data
  copy := false
  zero := false
  run := false
  ld := 0
  kid := 0
  key := 0
  seq := 0
  folio := 0
  frame := 0
  eraseCnt := 0
  lmask := 0
  openSeq := 0
  src := 0
  lines := []
  jrow := none

/-- An idle die. -/
def DieSt.reset : DieSt where
  op := .none
  suspending := false
  loops := 0
  since := 0
  win := 0
  winAt := 0
  hold := false

/-- Every row erased, no operation on a die (04_media_channels.md R81). -/
def MedSt.reset : MedSt where
  rows := []
  planes := []
  latches := []
  dies := []
  lbuf := []
  streams := []
  reads := []
  rebuilds := []
  nextId := 0
  training := []
  phy := []
  cancelled := []
  quiesced := []

/-- A record that is not valid. -/
def DRec.reset : DRec where
  valid := false
  src := 0
  member := 0
  cls := 0
  mtime := 0

/-- A zeroed seeing record. -/
def See.reset : See where
  maxBits := 0
  maxStep := 0
  rwReq := false
  rwPosted := false
  retried := 0
  disturb := 0
  corr := 0

/-- No record valid (05_drift_and_references.md R114). -/
def DriftSt.reset : DriftSt where
  recs := []
  meas := []
  see := []
  cache := []
  rwq := []
  partMin := 0

/-- A FREE field, never erased (06_field_management.md R134). -/
def FRec.reset : FRec where
  st := 0
  mode1 := false
  use := 0
  cause := 0
  stream := 0
  victim := false
  pinned := false
  erasePend := false
  ec := 0
  valid := 0
  rows := 0
  openSeq := 0

/-- An idle mover. -/
def Mover.reset : Mover where
  job := 0
  set := 0
  left := []
  ld := 0
  folio := 0
  ctx := none
  done := 0
  skipped := 0
  retry := []

/-- Every field FREE (06_field_management.md R136). -/
def FldSt.reset : FldSt where
  tbl := []
  opens := []
  jobs := []
  movers := []
  verifyQ := []
  relocQ := []
  newPlate := []
  eraseQ := []
  sealQ := []
  bins := []
  stamp := 0
  rebin := false
  holds := []
  campaignEnd := false
  erasing := []
  toRetire := []
  paused := []
  gcOn := false

/-- The counters start at 1, no journal, no checkpoint (07_durability.md R162, R179). -/
def DurSt.reset : DurSt where
  aseq := 1
  jseq := 1
  epoch := 0
  build := []
  rows := []
  journal := []
  forces := []
  writing := none
  ckptDue := false
  ckpts := []
  sinceCut := 0
  drain := 0
  drainStart := 0
  lastDrain := (0, 0, 0)
  runEpoch := 0
  prevDirty := false
  huRose := false

/-- Working memory reads as zeros (17_almanac_life_cycle_finder.md R402). -/
def WmSt.reset : WmSt where
  words := []
  markers := []
  merge := []
  ce := []
  ue := []
  test := []
  media := []
  refresh := []
  recPend := none

/-- A FREE KID. -/
def Kid.reset : Kid where
  st := 0
  owner := 0
  refs := 0
  key := 0
  held := false

/-- Every KID FREE, no key (09_cipher_and_meridian.md R218). -/
def CiphSt.reset : CiphSt where
  kids := []
  cur := []
  vaults := []
  nextKey := 1
  ops := []
  ctr := []
  sk := 0
  tk := 0
  cache := []
  drbgOk := true

/-- Every bucket full (11_regulation_and_ledgers.md R270). -/
def RegSt.reset : RegSt where
  grant := []
  floor := []
  share := []
  delivered := []
  backSince := []
  missed := []
  logged := []

/-- Every ledger balanced (11_regulation_and_ledgers.md R279). -/
def LedgSt.reset : LedgSt where
  delta := []
  found := []
  injected := []
  logged := []

/-- No command in flight (10_transit_rings.md). -/
def RingSt.reset : RingSt where
  cmds := []
  nextId := 0
  since := []
  fetched := []
  posted := []
  turn := []

/-- No image (12_voxsicel_image.md). -/
def ImgSt.reset : ImgSt where
  chans := 0
  plates := 0
  wmap := []
  sysSets := []
  pdTree := []
  segs := []
  nextSegs := []
  oldSegs := []
  dome := none
  reg := none
  asstA := none
  asstB := none
  run := none
  stage := none
  copies := []
  bootSets := []
  boot := none
  xfer := false
  reload := none
  act := none

end Sys2Proof.Machine
end

