-- ==== Sys2Proof/Machine/State.lean ====
section
/-! DEFINITION. The state of the block, its reset, its faults and refusals. -/

namespace Sys2Proof.Machine

/-- The reasons a step ends in a fault: there is none. The block takes no exception, and the spec gives every command
an effect, so no command of this model stops (safe: nothing is left out by a stop). -/
inductive Fault where
  deriving DecidableEq, Repr

/-- The reasons a command is refused. -/
inductive Refusal where
  /-- the command has no meaning yet; raised by an arm of Dispatch (safe) -/
  | notModelled (mnemonic : String)
  deriving DecidableEq, Repr

/-- The state of the block: plain data. -/
structure State where
  /-- the register file: the value of every plain register field under its key (RegMap.Fld.key); an unlisted field holds its reset value -/
  regs : Tbl Nat
  /-- low halves held per master and register (00_scope.md R5): master, offset, value -/
  holds : List (Master × Nat × Nat)
  /-- global state: interrupt causes, device mode, transition (01_the_shelf_controller.md) -/
  glb : Glb
  /-- start-up (18_start_up.md) -/
  start : Start
  /-- the logbook (16_spectrograph_and_logbook.md) -/
  log : LogSt
  /-- the spectrograph (16_spectrograph_and_logbook.md) -/
  spec : SpecSt
  /-- clocks and time (14_clocks_and_crossings.md) -/
  clk : ClkSt
  /-- the almanac (17_almanac_life_cycle_finder.md) -/
  alm : AlmSt
  /-- OTP and life cycle (17_almanac_life_cycle_finder.md) -/
  lcs : LcsSt
  /-- the finder port (17_almanac_life_cycle_finder.md) -/
  find : FindSt
  /-- the dome (13_dome_power.md) -/
  dome : DomeSt
  /-- the shelf bus (15_shelf_bus.md) -/
  sbus : SbusSt
  /-- the host port (02_host_port.md) -/
  host : HostSt
  /-- translation (03_translation.md) -/
  xlat : XlatSt
  /-- coalescing and staging (03_translation.md) -/
  coal : CoalSt
  /-- the media channels and the medium (04_media_channels.md) -/
  med : MedSt
  /-- drift and seeing (05_drift_and_references.md) -/
  drift : DriftSt
  /-- field management (06_field_management.md) -/
  fld : FldSt
  /-- durability (07_durability.md) -/
  dur : DurSt
  /-- working memory (08_working_memory.md) -/
  wm : WmSt
  /-- keys and the Meridian (09_cipher_and_meridian.md) -/
  ciph : CiphSt
  /-- regulation (11_regulation_and_ledgers.md) -/
  regu : RegSt
  /-- the ledger checker (11_regulation_and_ledgers.md) -/
  ledg : LedgSt
  /-- the transit rings (10_transit_rings.md) -/
  ring : RingSt
  /-- the Voxsicel image (12_voxsicel_image.md) -/
  img : ImgSt
  /-- what the part has sent to the outside, newest first -/
  outs : List Out
  /-- the commands waiting, first in first out -/
  pending : List Instr
  /-- the model's own: the number of free values read so far -/
  freeCnt : Nat
  /-- the model's own: nanoseconds of idle steps since State.reset -/
  now : Nat
  deriving DecidableEq, Repr

/-- The block at reset: no power has come yet, every register at its reset value. -/
def State.reset : State where
  regs := []
  holds := []
  glb := Glb.reset
  start := Start.reset
  log := LogSt.reset
  spec := SpecSt.reset
  clk := ClkSt.reset
  alm := AlmSt.reset
  lcs := LcsSt.reset
  find := FindSt.reset
  dome := DomeSt.reset
  sbus := SbusSt.reset
  host := HostSt.reset
  xlat := XlatSt.reset
  coal := CoalSt.reset
  med := MedSt.reset
  drift := DriftSt.reset
  fld := FldSt.reset
  dur := DurSt.reset
  wm := WmSt.reset
  ciph := CiphSt.reset
  regu := RegSt.reset
  ledg := LedgSt.reset
  ring := RingSt.reset
  img := ImgSt.reset
  outs := []
  pending := []
  freeCnt := 0
  now := 0

/-- Change `regs`. -/
def State.modRegs (f : Tbl Nat → Tbl Nat) (s : State) : State := { s with regs := f s.regs }
/-- Change `holds`. -/
def State.modHolds (f : List (Master × Nat × Nat) → List (Master × Nat × Nat)) (s : State) : State := { s with holds := f s.holds }
/-- Change `glb`. -/
def State.modGlb (f : Glb → Glb) (s : State) : State := { s with glb := f s.glb }
/-- Change `start`. -/
def State.modStart (f : Start → Start) (s : State) : State := { s with start := f s.start }
/-- Change `log`. -/
def State.modLog (f : LogSt → LogSt) (s : State) : State := { s with log := f s.log }
/-- Change `spec`. -/
def State.modSpec (f : SpecSt → SpecSt) (s : State) : State := { s with spec := f s.spec }
/-- Change `clk`. -/
def State.modClk (f : ClkSt → ClkSt) (s : State) : State := { s with clk := f s.clk }
/-- Change `alm`. -/
def State.modAlm (f : AlmSt → AlmSt) (s : State) : State := { s with alm := f s.alm }
/-- Change `lcs`. -/
def State.modLcs (f : LcsSt → LcsSt) (s : State) : State := { s with lcs := f s.lcs }
/-- Change `find`. -/
def State.modFind (f : FindSt → FindSt) (s : State) : State := { s with find := f s.find }
/-- Change `dome`. -/
def State.modDome (f : DomeSt → DomeSt) (s : State) : State := { s with dome := f s.dome }
/-- Change `sbus`. -/
def State.modSbus (f : SbusSt → SbusSt) (s : State) : State := { s with sbus := f s.sbus }
/-- Change `host`. -/
def State.modHost (f : HostSt → HostSt) (s : State) : State := { s with host := f s.host }
/-- Change `xlat`. -/
def State.modXlat (f : XlatSt → XlatSt) (s : State) : State := { s with xlat := f s.xlat }
/-- Change `coal`. -/
def State.modCoal (f : CoalSt → CoalSt) (s : State) : State := { s with coal := f s.coal }
/-- Change `med`. -/
def State.modMed (f : MedSt → MedSt) (s : State) : State := { s with med := f s.med }
/-- Change `drift`. -/
def State.modDrift (f : DriftSt → DriftSt) (s : State) : State := { s with drift := f s.drift }
/-- Change `fld`. -/
def State.modFld (f : FldSt → FldSt) (s : State) : State := { s with fld := f s.fld }
/-- Change `dur`. -/
def State.modDur (f : DurSt → DurSt) (s : State) : State := { s with dur := f s.dur }
/-- Change `wm`. -/
def State.modWm (f : WmSt → WmSt) (s : State) : State := { s with wm := f s.wm }
/-- Change `ciph`. -/
def State.modCiph (f : CiphSt → CiphSt) (s : State) : State := { s with ciph := f s.ciph }
/-- Change `regu`. -/
def State.modRegu (f : RegSt → RegSt) (s : State) : State := { s with regu := f s.regu }
/-- Change `ledg`. -/
def State.modLedg (f : LedgSt → LedgSt) (s : State) : State := { s with ledg := f s.ledg }
/-- Change `ring`. -/
def State.modRing (f : RingSt → RingSt) (s : State) : State := { s with ring := f s.ring }
/-- Change `img`. -/
def State.modImg (f : ImgSt → ImgSt) (s : State) : State := { s with img := f s.img }
/-- Change `outs`. -/
def State.modOuts (f : List Out → List Out) (s : State) : State := { s with outs := f s.outs }
/-- Change `pending`. -/
def State.modPending (f : List Instr → List Instr) (s : State) : State := { s with pending := f s.pending }
/-- Change `freeCnt`. -/
def State.modFreeCnt (f : Nat → Nat) (s : State) : State := { s with freeCnt := f s.freeCnt }
/-- Change `now`. -/
def State.modNow (f : Nat → Nat) (s : State) : State := { s with now := f s.now }

end Sys2Proof.Machine
end

