-- ==== Sys2Proof/Machine/Ops.lean ====
section
/-! DEFINITION. The shared operations: register fields, interrupt causes, the logbook, the counters, free values. -/

namespace Sys2Proof.Machine

/-! ### Register fields -/

/-- The value a register field holds. -/
def State.get (s : State) (f : Fld) : Nat := tgetD f.rst s.regs f.key

/-- Is a flag set? -/
def State.on (s : State) (f : Fld) : Bool := s.get f != 0

/-- Store a value in a field, cut to the field's width. -/
def setF (f : Fld) (v : Nat) (s : State) : State :=
  s.modRegs (fun r => tput f.rst r f.key (v % 2 ^ f.wid))

/-- Set a flag from a Bool. -/
def setB (f : Fld) (b : Bool) (s : State) : State := setF f b.toNat s

/-- Add to a counter field that saturates at its all-ones value. -/
def incF (f : Fld) (n : Nat) (s : State) : State := setF f (min (2 ^ f.wid - 1) (s.get f + n)) s

/-- `v` with the `wid` bits from `lo` upwards holding `x`. -/
def putBits (lo wid x v : Nat) : Nat := v % 2 ^ lo + x % 2 ^ wid * 2 ^ lo + v / 2 ^ (lo + wid) * 2 ^ (lo + wid)

/-- Apply `f` when `b` holds. -/
def when (b : Bool) (f : State → State) (s : State) : State := if b then f s else s

/-- Apply the updates of a list in order. -/
def seqAll {α : Type} (f : α → State → State) : List α → State → State
  | [], s => s
  | a :: t, s => seqAll f t (f a s)

/-- The sum of `f` over the numbers below `n`. -/
def sumOver (n : Nat) (f : Nat → Nat) : Nat := (List.range n).foldl (fun a c => a + f c) 0

/-! ### Interrupt causes (01_the_shelf_controller.md R16) -/

def intMode : Nat := 0
def intHost : Nat := 1
def intXlat : Nat := 2
def intMapc : Nat := 3
def intCoal : Nat := 4
def intDur : Nat := 5
def intFld : Nat := 6
def intWear : Nat := 7
def intMch : Nat := 8
def intDrift : Nat := 9
def intWmem : Nat := 10
def intCiph : Nat := 11
def intMerid : Nat := 12
def intRing : Nat := 13
def intReg : Nat := 14
def intLedger : Nat := 15
def intImg : Nat := 16
def intDome : Nat := 17
def intClk : Nat := 18
def intSbus : Nat := 19
def intLog : Nat := 20
def intAlm : Nat := 21
def intLcs : Nat := 22

/-- The view that stands for the management view in `Out.msix` (R7, R45). -/
def mgmtView : Nat := 16

/-- Send something to the outside. DESIGN CHOICE, notes/assumptions/8.md. -/
def emit (o : Out) (s : State) : State := s.modOuts (o :: ·)

/-- The word of a view's MSI-X table at byte `off`, and its reset value: the second word of an entry holds the message data and the
vector control, whose mask bit is 1 (02_host_port.md R44, R45). PRESUMED, notes/assumptions/21.md. -/
def msixKey (view off : Nat) : Nat := view * 1024 + off / 8
def msixInit (key : Nat) : Nat := if key % 2 = 1 then 2 ^ 32 else 0
def State.msixWord (s : State) (key : Nat) : Nat := tgetD (msixInit key) s.host.msix key

/-- Is the vector of a view masked by its table entry? PRESUMED, notes/assumptions/21.md. -/
def State.msixMasked (s : State) (view vector : Nat) : Bool := (s.msixWord (msixKey view (16 * vector + 8))).testBit 32

/-- A vector of a view is signalled: its message is sent, or its bit of the pending-bit array set while it is masked.
PRESUMED, notes/assumptions/21.md. -/
def msixSend (view vector : Nat) (s : State) : State :=
  if s.msixMasked view vector then s.modHost (fun h => { h with pba := tmod 0 (· ||| 2 ^ vector) h.pba view })
  else emit (.msix view vector) s

/-- Raise cause `b` of GLB_INT_STATUS: a cause that goes from 0 to 1 while its mask bit is 1 sends MSI-X vector 2 of the
management view; a cause already set changes nothing (R16). DESIGN CHOICE, notes/assumptions/21.md. -/
def raiseInt (b : Nat) (s : State) : State :=
  if s.glb.intStatus.getLsbD b then s
  else
    let s1 := s.modGlb (fun g => { g with intStatus := g.intStatus ||| (1#32 <<< b) })
    if s.glb.intMask.getLsbD b then msixSend mgmtView 2 s1 else s1

/-- Set a W1C bit of an error status register: a change from 0 to 1 raises the block's cause (R16). -/
def setErr (f : Fld) (cause : Nat) (s : State) : State :=
  if s.on f then s else raiseInt cause (setF f 1 s)

/-! ### Free values -/

/-- The next free number, and the state with one free value read. DESIGN CHOICE, notes/assumptions/3.md. -/
def takeNat (s : State) : Nat × State :=
  (Config.freeNat s.freeCnt, s.modFreeCnt (· + 1))

/-- The next free line. DESIGN CHOICE, notes/assumptions/3.md. -/
def takeLine (s : State) : Line × State :=
  (Config.freeLine s.freeCnt, s.modFreeCnt (· + 1))

/-! ### The logbook (16_spectrograph_and_logbook.md R380 to R382) -/

/-- Severities (R380). -/
def sevInfo : Nat := 1
def sevNotice : Nat := 2
def sevWarning : Nat := 3
def sevError : Nat := 4
def sevCritical : Nat := 5
def sevFatal : Nat := 6

/-- Store one record under the next SEQ, and raise the logbook cause at or above IRQ_SEV (R381). -/
def logStore (code source sev p0 p1 p2 p3 : Nat) (s : State) : State :=
  let r : LogRec := ⟨s.log.head, code, source, sev, s.clk.tod, p0 % 2 ^ 32, p1 % 2 ^ 32, p2 % 2 ^ 32, p3 % 2 ^ 32⟩
  let s1 := s.modLog (fun l => { l with slots := tset l.slots (l.head % 4096) r, head := (l.head + 1) % 2 ^ 32 })
  if s.get F.LOG_CTL_IRQ_SEV ≤ sev then raiseInt intLog s1 else s1

/-- The record of the records lost, stored the next time there is room (R381). -/
def logLost (s : State) : State :=
  if s.log.lost = 0 then s
  else (logStore 0x1401 0x14 sevWarning s.log.lost 0 0 0 s).modLog (fun l => { l with lost := 0 })

/-- A source places a record: below FLOOR it is discarded without a SEQ; otherwise the writer stores it (R381). -/
def logFrom (source sev code p0 p1 p2 p3 : Nat) (s : State) : State :=
  if sev < s.get F.LOG_CTL_FLOOR then s
  else logStore code source sev p0 p1 p2 p3 (logLost s)

/-- A block places a record: the code's high byte is the block (R380). DESIGN CHOICE, notes/assumptions/12.md. -/
def logPut (sev code p0 p1 p2 p3 : Nat) (s : State) : State :=
  logFrom (code / 256) sev code p0 p1 p2 p3 s

/-- A record that a rule asks for and R382 gives no code: the event byte, not 0, and the severity are free values, the
block is the rule's. DESIGN CHOICE, notes/assumptions/12.md. -/
def logOpen (blk p0 p1 : Nat) (s : State) : State :=
  let (e, s1) := takeNat s
  let (v, s2) := takeNat s1
  logPut (v % 7) (blk * 256 + 1 + e % 255) p0 p1 0 0 s2

/-! ### Counters (16_spectrograph_and_logbook.md R373, R374) -/

/-- Block identifiers (R372). -/
def bGLB : Nat := 0x00
def bHOST : Nat := 0x01
def bXLAT : Nat := 0x02
def bMAPC : Nat := 0x03
def bCOAL : Nat := 0x04
def bDUR : Nat := 0x05
def bFLD : Nat := 0x06
def bDRIFT : Nat := 0x07
def bWMEM : Nat := 0x08
def bECC : Nat := 0x09
def bCIPH : Nat := 0x0A
def bMERID : Nat := 0x0B
def bRING : Nat := 0x0C
def bREG : Nat := 0x0D
def bLEDG : Nat := 0x0E
def bIMG : Nat := 0x0F
def bDOME : Nat := 0x10
def bCLK : Nat := 0x11
def bSBUS : Nat := 0x12
def bSPEC : Nat := 0x13
def bLOG : Nat := 0x14
def bALM : Nat := 0x15
def bLCS : Nat := 0x16
def bASST : Nat := 0x17
/-- Block identifier of MCHn. -/
def bMCH (n : Nat) : Nat := 0x20 + n
/-- Block identifier of LDn. -/
def bLD (n : Nat) : Nat := 0x40 + n

/-- Is the pair of counter `id` chained? -/
def SpecSt.chained (p : SpecSt) (id : Nat) : Bool := (tgetD 0 p.chain (id / 32)).testBit (id % 32 / 2)

/-- Add to the value of counter `id` (48 bits); a wrap sets its bit in SPEC_WRAPb. -/
def SpecSt.add (p : SpecSt) (id n : Nat) : SpecSt :=
  let v := tgetD 0 p.cnt id + n
  let p1 := { p with cnt := tput 0 p.cnt id (v % 2 ^ 48) }
  if v < 2 ^ 48 then p1 else { p1 with wrap := tmod 0 (· ||| 2 ^ (id % 32)) p1.wrap (id / 32) }

/-- Counter `id` sees `n` events (R373, R374): a chained even counter does not count them; a chained odd counter passes
its carries to the even one and sets no wrap bit. DEDUCED, notes/assumptions/66.md. -/
def SpecSt.count (p : SpecSt) (id n : Nat) : SpecSt :=
  if p.chained id then
    if id % 2 = 0 then p
    else
      let v := tgetD 0 p.cnt id + n
      SpecSt.add { p with cnt := tput 0 p.cnt id (v % 2 ^ 48) } (id - 1) (v / 2 ^ 48)
  else p.add id n

/-- `n` events of counter `idx` of block `blk`. DEDUCED, notes/assumptions/66.md. -/
def cnt (blk idx n : Nat) (s : State) : State := s.modSpec (·.count (blk * 32 + idx) n)

/-- A mailbox command completes with a return code and a payload (02_host_port.md R35); HOST counts it (R375).
DEDUCED, notes/assumptions/66.md. -/
def mboxDone (view op rc : Nat) (out : List Nat) (s : State) : State := emit (.mbox view op rc out) (cnt bHOST 8 1 s)

/-! ### Ports of the host link -/

/-- The state of a port. -/
def State.port (s : State) (p : Nat) : PortSt := tgetD PortSt.reset s.host.ports p

/-! ### Event crossings (14_clocks_and_crossings.md R349) -/

/-- An event of a domain (its bit in CLK_STATUS) reaches its crossing with 15 pending: it is lost, the domain's bit of
CLK_XOVR is set, and a record is written at most once per domain and second. `f` is the domain's field of CLK_XOVR and
`bit` its bit in the field. -/
def xLost (f : Fld) (bit dom : Nat) (s : State) : State :=
  let s1 := if (s.get f).testBit bit then s else raiseInt intClk (setF f (s.get f ||| 2 ^ bit) s)
  let sec := s.clk.tod / 1000000000 + 1
  if tgetD 0 s.clk.xlogged dom = sec then s1
  else logOpen bCLK dom 0 (s1.modClk (fun c => { c with xlogged := tput 0 c.xlogged dom sec }))

end Sys2Proof.Machine
end

