-- ==== Sys2Proof/Machine/RegFile.lean ====
section
/-! DEFINITION. Writes and reads of the plain register fields, by the access codes of 00_scope.md R3, the reserved
encodings of R4 and the halves of R5. -/

namespace Sys2Proof.Machine

/-- The distance from the first register of the array to the one at offset `off`, if `off` is one of them. -/
def RegDesc.shiftTo (d : RegDesc) (off : Nat) : Option Nat :=
  if off < d.base then none
  else
    let e := off - d.base
    let q1 := if d.stride1 = 0 then 0 else min (e / d.stride1) (d.count1 - 1)
    let r1 := e - q1 * d.stride1
    let q2 := if d.stride2 = 0 then 0 else min (r1 / d.stride2) (d.count2 - 1)
    if r1 = q2 * d.stride2 then some e else none

/-- The register at offset `off`: its fields moved to it, and its width. -/
structure RegAt where
  off : Nat
  width : Nat
  flds : List Fld
  deriving DecidableEq, Repr

/-- Look a register up in a list of registers. -/
def findIn : List RegDesc → Nat → Option RegAt
  | [], _ => none
  | d :: t, off =>
    match d.shiftTo off with
    | some e => some ⟨off, d.width, d.flds.map (·.shift e)⟩
    | none => findIn t off

/-- The registers of the block at base `off` (R7). -/
def blockRegs (off : Nat) : List RegDesc :=
  let b := off / 0x10000
  if b = 0x00 then regsGLB
  else if b = 0x01 then regsHOST
  else if b = 0x02 then regsXLAT
  else if b = 0x03 then regsMAPC
  else if b = 0x04 then regsCOAL
  else if b ≤ 0x07 then regsDUR
  else if b ≤ 0x0F then regsFLD
  else if b ≤ 0x2F then regsMCH
  else if b = 0x30 then regsDRIFT
  else if b = 0x31 then regsWMEM
  else if b = 0x32 then regsECC
  else if b = 0x33 then regsCIPH
  else if b = 0x34 then regsMERID
  else if b = 0x35 then regsRING
  else if b = 0x36 then regsREG
  else if b = 0x37 then regsLEDG
  else if b = 0x38 then regsIMG
  else if b = 0x39 then regsDOME
  else if b = 0x3A then regsCLK
  else if b = 0x3B then regsSBUS
  else if b = 0x3C then regsSPEC
  else if b = 0x3D then regsLOG
  else if b = 0x3E then regsALM
  else if b = 0x3F then regsLCS
  else if b ≤ 0x4F then regsQP
  else []

/-- The register that occupies offset `off`. -/
def findReg (off : Nat) : Option RegAt := findIn (blockRegs off) off

/-- Image load is complete (R3, RWL; 12_voxsicel_image.md R296). -/
def State.loaded (s : State) : Bool := s.on F.IMG_STATUS_LOADED

/-- The value field `f` takes when the bits from `cover` upwards of value `v` are written to its register: bits below
`cover` are not written. `none`: the field counts as not written (R4). -/
def writtenVal (s : State) (f : Fld) (cover v : Nat) : Option Nat :=
  if f.lo + f.wid ≤ cover then none
  else
    let raw := v / 2 ^ f.lo % 2 ^ f.wid
    let keep := if cover ≤ f.lo then 0 else s.get f % 2 ^ (cover - f.lo)
    let w := if cover ≤ f.lo then raw else raw / 2 ^ (cover - f.lo) * 2 ^ (cover - f.lo) + keep
    match f.acc with
    | .rw | .wo => if f.legal.ok w then some w else none
    | .rwl => if s.loaded then none else if f.legal.ok w then some w else none
    | .w1c =>
      let ones := if cover ≤ f.lo then raw else raw / 2 ^ (cover - f.lo) * 2 ^ (cover - f.lo)
      some (s.get f - (s.get f &&& ones))
    | .w1s => some (s.get f ||| raw)
    | .ro | .rc => none

/-- The value a field would hold after the write. -/
def afterVal (s : State) (f : Fld) (cover v : Nat) : Nat := (writtenVal s f cover v).getD (s.get f)

/-- The reserved combinations of two fields (R4): in XLAT_POOL_CFG a CRIT_WM not below LOW_WM, in FLD_GC_CFG a STOP_PCT
not above START_PCT, in FLD_WEAR_CFG a HYST not below SPREAD. The first field must stay below the second. -/
def combos : List (Fld × Fld) :=
  [(F.XLAT_POOL_CFG_CRIT_WM, F.XLAT_POOL_CFG_LOW_WM), (F.FLD_GC_CFG_START_PCT, F.FLD_GC_CFG_STOP_PCT),
   (F.FLD_WEAR_CFG_HYST, F.FLD_WEAR_CFG_SPREAD)]

/-- Is `f` a field of a combination that is reserved once its fields hold what `new` gives? -/
def comboReserved (new : Fld → Nat) (f : Fld) : Bool :=
  combos.any (fun p => (p.1.key = f.key || p.2.key = f.key) && decide (new p.2 ≤ new p.1))

/-- Is `f` a field of a combination that the write would leave reserved? -/
def comboBad (s : State) (f : Fld) (cover v : Nat) : Bool := comboReserved (fun g => afterVal s g cover v) f

/-- The write of one field. -/
def writeFld (f : Fld) (cover v : Nat) (s0 s : State) : State :=
  match writtenVal s0 f cover v with
  | some w => if comboBad s0 f cover v then s else setF f w s
  | none => s

/-- Store `v` in the fields of register `r`, its bits from `cover` upwards written (R3, R4). CLK_TOD_ADJ is clamped to
21,474,836 either way (14_clocks_and_crossings.md R343). -/
def storeReg (r : RegAt) (cover v : Nat) (s : State) : State :=
  let v := if r.off = 0x3A0030 then
      if v < 2 ^ 31 then min v 21474836 else max v (2 ^ 32 - 21474836)
    else v
  seqAll (fun f t => writeFld f cover v s t) r.flds s

/-- The plain value of register `r`: the fields in their places, WO fields and reserved bits 0 (R3, R4). -/
def plainVal (r : RegAt) (s : State) : Nat :=
  r.flds.foldl (fun a f => if f.acc = .wo then a else a + s.get f * 2 ^ f.lo) 0

/-- Clear the RC fields of register `r` that lie in bits `lo` to `hi - 1` wholly or in part (R3, R5). -/
def clearRc (r : RegAt) (lo hi : Nat) (s : State) : State :=
  seqAll (fun f t => if f.acc = .rc ∧ f.lo < hi ∧ lo < f.lo + f.wid then setF f 0 t else t) r.flds s

/-! ### Register records (12_voxsicel_image.md R293) -/

/-- What the loader would leave in field `f` by a record of its register with value `v`: a reserved value is not stored (R4). -/
def recVal (s : State) (v : Nat) (f : Fld) : Nat :=
  let w := v / 2 ^ f.lo % 2 ^ f.wid
  if f.legal.ok w then w else s.get f

/-- The loader writes a record: fields that hold a value take it, a reserved value or combination apart (R4, both stages). -/
def recPut (r : RegRec) (s : State) : State :=
  match findReg r.off with
  | none => s
  | some x => seqAll (fun (f : Fld) t =>
      if (f.acc = .rw ∨ f.acc = .rwl) ∧ f.legal.ok (r.val / 2 ^ f.lo % 2 ^ f.wid) ∧ !comboReserved (recVal s r.val) f then
        setF f (r.val / 2 ^ f.lo) t else t) x.flds s

/-! ### Holds of low halves (R5) -/

/-- The low half a master holds for the 64-bit register at `off`. -/
def holdOf (s : State) (m : Master) (off : Nat) : Option Nat :=
  (s.holds.find? (fun h => decide (h.1 = m) && h.2.1 == off)).map (·.2.2)

/-- Drop the hold of a master for a register. -/
def dropHold (m : Master) (off : Nat) (s : State) : State :=
  s.modHolds (fun l => l.filter (fun h => !(decide (h.1 = m) && h.2.1 == off)))

/-- Hold a low half, in place of an earlier one. -/
def putHold (m : Master) (off v : Nat) (s : State) : State :=
  (dropHold m off s).modHolds ((m, off, v) :: ·)

/-- The value a write of the high half of the 64-bit register at `off` writes, and the lowest bit it covers: with a hold
it is one 64-bit write; without one the low half keeps its value (R5). -/
def highWrite (s : State) (m : Master) (off v : Nat) : Nat × Nat :=
  match holdOf s m off with
  | some lo => (v * 2 ^ 32 + lo, 0)
  | none => (v * 2 ^ 32, 32)

end Sys2Proof.Machine
end

