-- ==== Sys2Proof/Machine/Clocks.lean ====
section
/-! DEFINITION. Clocks, ephemeris time and the chronograph (14_clocks_and_crossings.md). -/

namespace Sys2Proof.Machine

/-! ### Time-of-day -/

/-- CORE runs: not in STANDBY, not in FAULT-HALT, not without power (R340). -/
def State.coreOn (s : State) : Bool :=
  match s.glb.mode with
  | .off | .standby | .faultHalt => false
  | _ => true

/-- CLK_TOD_ADJ as a signed number (R343). -/
def State.todAdj (s : State) : Int :=
  let v := s.get F.CLK_TOD_ADJ
  if v < 2 ^ 31 then v else (v : Int) - 2 ^ 32

/-- One EPH cycle of 10 ns: CLK_TOD advances by 10 ns + ADJ while CORE runs, fractions carried (R343); the AON ticks
advance while VDD_AON is present, one each 30,517.578125 ns = 1,953,125/64 ns (R340, R345). DESIGN CHOICE, notes/assumptions/1.md. -/
def ephCycle (s : State) : State :=
  let c := s.clk
  let f : Int := (c.frac : Int) + s.todAdj
  let tod := if s.coreOn then ((c.tod : Int) + 10 + f / 2 ^ 32).toNat % 2 ^ 64 else c.tod
  let frac := if s.coreOn then (f % 2 ^ 32).toNat else c.frac
  let acc := if s.start.aonDown then c.tickAcc else c.tickAcc + 640
  let c1 := { c with tod := tod, frac := frac, ticks := (c.ticks + acc / 1953125) % 2 ^ 48, tickAcc := acc % 1953125 }
  (s.modClk (fun _ => c1)).modNow (· + 10)

/-- A step of the time-of-day by source `src` of CLK_TOD_INFO.SRC (R344). -/
def todStep (v src : Nat) (s : State) : State :=
  let old := s.clk.tod
  s.modClk (fun c => { c with tod := v % 2 ^ 64, frac := 0, skipWin := true })
    |> setF F.CLK_TOD_INFO_VALID 2
    |> setF F.CLK_TOD_INFO_SRC src
    |> incF F.CLK_TOD_INFO_STEPS 1
    |> setErr F.CLK_ERR_STATUS_TOD_STEP intClk
    |> logPut sevNotice 0x1101 (old % 2 ^ 32) (old / 2 ^ 32) (v % 2 ^ 32) (v / 2 ^ 32)

/-- R344: a write of CLK_TOD_SET takes effect at its high half. DEDUCED, notes/assumptions/13.md. -/
def todSet (m : Master) (wide : Bool) (v : Nat) (s : State) : State :=
  let w := if wide then v
    else
      let hw := highWrite s m 0x3A0028 (v % 2 ^ 32)
      if hw.2 = 0 then hw.1 else hw.1 + s.get F.CLK_TOD_SET % 2 ^ 32
  s |> dropHold m 0x3A0028 |> setF F.CLK_TOD_SET w |> todStep w 2

def execTodSet (m : Master) (wide : Bool) (v : Word) (s : State) : Host.Outcome State Fault Refusal :=
  .next (todSet m wide v.toNat s)

/-- R343: a 32-bit read of the low half of CLK_TOD latches the high half for the master. -/
def todLowRead (m : Master) (s : State) : State :=
  s.modClk (fun c => { c with latch := (m, c.tod / 2 ^ 32) :: c.latch.filter (fun p => !(decide (p.1 = m))) })

def execTodLowRead (m : Master) (s : State) : Host.Outcome State Fault Refusal :=
  .next (emit (.regData m 0x3A0020 (BitVec.ofNat 64 (s.clk.tod % 2 ^ 32))) (todLowRead m s))

/-- The next 32-bit read of the high half returns the latched value (R343), the running one where nothing is latched. -/
def todHigh (s : State) (m : Master) : Nat :=
  ((s.clk.latch.find? (fun p => decide (p.1 = m))).map (·.2)).getD (s.clk.tod / 2 ^ 32)

/-- That read uses the latched value up. -/
def todHighRead (m : Master) (s : State) : State := s.modClk (fun c => { c with latch := c.latch.filter (fun p => !(decide (p.1 = m))) })

/-- The always-on domain records CLK_TOD and CLK_AON_TICKS on the entry into STANDBY or FAULT-HALT (R345). DEDUCED, notes/assumptions/63.md. -/
def todRecord (s : State) : State :=
  s.modClk (fun c => { c with recTod := c.tod, recTicks := c.ticks, recOk := true })

/-- The time at a cold start (R345). `restore` is CLK_CTL.TOD_RESTORE. DEDUCED, notes/assumptions/63.md. -/
def todRestore (restore : Bool) (s : State) : State :=
  if restore && s.clk.recOk && !s.start.aonLost then
    s.modClk (fun c =>
      { c with tod := (c.recTod + (c.ticks - c.recTicks) * 1953125 / 64) % 2 ^ 64, frac := 0 })
      |> setF F.CLK_TOD_INFO_VALID 1 |> setF F.CLK_TOD_INFO_SRC 1
  else
    s.modClk (fun c => { c with tod := 0, frac := 0 })
      |> setF F.CLK_TOD_INFO_VALID 0 |> setF F.CLK_TOD_INFO_SRC 0

/-! ### The DPLL (R336 to R339) -/

def dpllXtal : Nat := 0
def dpllRec : Nat := 1
def dpllHoldover : Nat := 2

/-- REC becomes qualified, with port 0 in L0 and REC_EN: the DPLL slews from XTAL or from the held frequency to REC (R336, R337).
DEDUCED, notes/assumptions/13.md. -/
def recQualified (ofs : Nat) (s : State) : State :=
  if s.on F.CLK_CTL_REC_EN && (s.port 0).up && !(s.port 0).l1 then
    let s1 := s |> setF F.CLK_DPLL_STATUS_REC_QUAL 1 |> setF F.CLK_DPLL_STATUS_SSC 0 |> setF F.CLK_DPLL_STATUS_REC_OFS ofs
    if s.get F.CLK_DPLL_STATUS_STATE = dpllRec then s1
    else s1 |> setF F.CLK_DPLL_STATUS_STATE dpllRec |> setF F.CLK_DPLL_STATUS_SLEWING 1
  else s

def execRecQualified (ofs : BitVec 16) (s : State) : Host.Outcome State Fault Refusal :=
  .next (recQualified ofs.toNat s)

/-- REC is disqualified: from REC the DPLL enters HOLDOVER with its frequency frozen, and REC_LOST is set; modulation
sets SSC (R336, R337). -/
def recDisqualified (ssc : Bool) (s : State) : State :=
  let s1 := s |> setF F.CLK_DPLL_STATUS_REC_QUAL 0 |> when ssc (setF F.CLK_DPLL_STATUS_SSC 1)
  if s.get F.CLK_DPLL_STATUS_STATE = dpllRec then
    s1 |> setF F.CLK_DPLL_STATUS_STATE dpllHoldover |> setF F.CLK_DPLL_STATUS_SLEWING 0
      |> setErr F.CLK_ERR_STATUS_REC_LOST intClk
  else s1

def execRecDisqualified (ssc : Bool) (s : State) : Host.Outcome State Fault Refusal :=
  .next (recDisqualified ssc s)

/-- The DPLL leaves REC or HOLDOVER for XTAL, slewing (R337). -/
def dpllToXtal (s : State) : State :=
  if s.get F.CLK_DPLL_STATUS_STATE = dpllXtal then s
  else s |> setF F.CLK_DPLL_STATUS_STATE dpllXtal |> setF F.CLK_DPLL_STATUS_SLEWING 1

/-- R337: HOLD_MS has passed in HOLDOVER. -/
def execHoldoverExpiry (s : State) : Host.Outcome State Fault Refusal :=
  .next (if s.get F.CLK_DPLL_STATUS_STATE = dpllHoldover then dpllToXtal s else s)

/-- R337: REC_EN := 0 sends REC and HOLDOVER to XTAL; REC is no longer qualified (R336). -/
def recDisable (s : State) : State :=
  if s.on F.CLK_CTL_REC_EN then s else s |> setF F.CLK_DPLL_STATUS_REC_QUAL 0 |> dpllToXtal

/-- R338: the output reaches its target. -/
def execSlewDone (s : State) : Host.Outcome State Fault Refusal :=
  .next (setF F.CLK_DPLL_STATUS_SLEWING 0 s)

/-! ### The gating tree (R341) -/

/-- A PLL is to stop whose only child is the domain `d` of CLK_STATUS: refused while a crossing into the child holds a word. The record
names the child, and the PLL as 64 plus the child's number. DESIGN CHOICE, notes/assumptions/46.md. -/
def pllStop (d : Nat) (s : State) : State :=
  when (s.clk.held.any (fun a => a.dom == d)) (fun t => logOpen bCLK d (64 + d) (setErr F.CLK_ERR_STATUS_GATE_REFUSE intClk t)) s

/-! ### The chronograph (R346, R347) -/

/-- A GO starts a measurement unless one runs, the gate is out of range or a clock code is reserved. -/
def chronoGo (v : Nat) (s : State) : State :=
  if v.testBit 31 && !s.on F.CLK_CHRONO_CTL_BUSY && decide (4 ≤ s.get F.CLK_CHRONO_CTL_GATE_LOG2)
      && decide (s.get F.CLK_CHRONO_CTL_GATE_LOG2 ≤ 24) && decide (s.get F.CLK_CHRONO_CTL_MEAS < 0x18)
      && decide (s.get F.CLK_CHRONO_CTL_REF < 0x18) then
    s |> setF F.CLK_CHRONO_CTL_BUSY 1 |> setF F.CLK_CHRONO_RESULT_DONE 0
  else s

/-- Store a 32-bit value in the plain register at `off`. -/
def storeAt (off v : Nat) (s : State) : State :=
  match findReg off with
  | some r => storeReg r 0 v s
  | none => s

def execChrono (_m : Master) (v : BitVec 32) (s : State) : Host.Outcome State Fault Refusal :=
  .next (s |> storeAt 0x3A0058 v.toNat |> chronoGo v.toNat)

/-- The measurement ends with `count` edges; `dead`: the gate did not end (R347). DEDUCED, notes/assumptions/13.md. -/
def chronoEnd (count : Nat) (dead : Bool) (s : State) : State :=
  if s.on F.CLK_CHRONO_CTL_BUSY then
    s |> setF F.CLK_CHRONO_CTL_BUSY 0 |> setF F.CLK_CHRONO_RESULT_DONE 1 |> setB F.CLK_CHRONO_RESULT_REF_DEAD dead
      |> setF F.CLK_CHRONO_RESULT_COUNT count
  else s

def execChronoGateEnd (count : Nat) (s : State) : Host.Outcome State Fault Refusal := .next (chronoEnd count false s)

def execChronoRefDead (count : Nat) (s : State) : Host.Outcome State Fault Refusal := .next (chronoEnd count true s)

end Sys2Proof.Machine
end

