-- ==== Sys2Proof/Machine/Wmem.lean ====
section
/-! DEFINITION. Working memory, its error tables, the merge buffer, the scrambling, tags, counters and cache of the Meridian
(08_working_memory.md, 09_cipher_and_meridian.md R233 to R240). -/

namespace Sys2Proof.Machine

/-! ### Addresses (R196) -/

/-- The channel of a working-memory byte address. -/
def wmChan (a : Nat) : Nat := (a / 256 % 4) ^^^ (a / 65536 % 4)

/-- Bit `i` of the address bits that remain beside those of the line's byte, its subchannel and the granule's channel, lowest first. -/
def wmRest (a i : Nat) : Bool := a.testBit (if i = 0 then 7 else 9 + i)

/-- The slot, rank, bank group, bank, row and column bits of an address as WMEM_CE_ENTRY lays them out from bit 29 upwards: entry i of the
image's WMAP table names the one that remaining bit i goes to. DEDUCED, notes/assumptions/81.md. -/
def State.wmBits (s : State) (a : Nat) : Nat :=
  (s.img.wmap.zipIdx.foldl (fun (v : Nat) (e : Nat × Nat) => if wmRest a e.2 then v ||| 2 ^ (e.1 % 32) else v) 0)

/-- The location of a line: `dev` is the device. DEDUCED, notes/assumptions/81.md. -/
def State.wmLoc (s : State) (line dev : Nat) : WmLoc :=
  ⟨⟨wmChan (line * 64) % 4, Nat.mod_lt _ (by decide)⟩, ⟨line % 2, Nat.mod_lt _ (by decide)⟩, s.wmBits (line * 64), dev⟩

/-- The outcome of the decode of a line, at the line's own location: where the line was stored with the poison marker, a decode without
further error is POISONED (R204). -/
def State.wmOut (s : State) (line : Nat) (o : WmOut) : WmOut :=
  match o with
  | .clean => if s.wm.markers.contains line then .poisoned (s.wmLoc line 0) else .clean
  | .corrected l => .corrected (s.wmLoc line l.dev)
  | .uncorrectable l => .uncorrectable (s.wmLoc line l.dev)
  | .poisoned l => .poisoned (s.wmLoc line l.dev)

/-! ### Error tables -/

/-- An entry as WMEM_CE_ENTRY lays it out (R213). -/
def ceWord (e : CeEnt) : Nat :=
  2 ^ 63 + e.hot.toNat * 2 ^ 62 + e.loc.sub.val * 2 ^ 61 + e.loc.bits % 2 ^ 32 * 2 ^ 29 + e.loc.dev % 16 * 2 ^ 25
    + e.count % 256 * 2 ^ 17 + e.last % 2 ^ 16

/-- The victim of a full table: the lowest count, the oldest LAST breaking ties (R208); keys are (count, last). LAST of WMEM_CE_ENTRY is
DRIFT_MINUTES cut to 16 bits: its smallest value counts as the oldest also where the minutes have wrapped. DESIGN CHOICE, notes/assumptions/79.md. -/
def lowest {α : Type} (key : α → Nat × Nat) : List α → Option α
  | [] => none
  | a :: t =>
    match lowest key t with
    | none => some a
    | some b => if (key b).1 < (key a).1 ∨ ((key b).1 = (key a).1 ∧ (key b).2 < (key a).2) then some b else some a

/-- Replace the first element equal to `a`. -/
def replaceFirst {α : Type} [DecidableEq α] (a b : α) : List α → List α
  | [] => []
  | x :: t => if x = a then b :: t else x :: replaceFirst a b t

/-- The DRIFT_MINUTES stamp of LAST. -/
def State.minutes16 (s : State) : Nat := s.get F.DRIFT_MINUTES_MINUTES % 2 ^ 16

/-- A CORRECTED decode enters the channel's table (R208). -/
def ceRecord (loc : WmLoc) (s : State) : State :=
  let c := loc.chan.val
  let t := tgetD [] s.wm.ce c
  let s1 := s |> incF (F.WMEM_CE_CNT_CE c) 1 |> cnt bWMEM 2 1
  let now := s.minutes16
  let put (l : List CeEnt) (u : State) : State := u.modWm (fun w => { w with ce := tput [] w.ce c l })
  let heat (e : CeEnt) (u : State) : CeEnt × State :=
    if !e.hot && decide (s.get (F.WMEM_CE_CTL_THRESH c) ≤ e.count) then
      ({ e with hot := true }, u |> setErr F.WMEM_ERR_STATUS_HOT intWmem |> logOpen bWMEM c e.loc.dev)
    else (e, u)
  match t.find? (fun e => decide (e.loc = loc)) with
  | some e =>
    let (e1, s2) := heat { e with count := min 255 (e.count + 1), last := now } s1
    put (replaceFirst e e1 t) s2
  | none =>
    let (e1, s2) := heat ⟨loc, false, 1, now⟩ s1
    if t.length < 32 then put (t ++ [e1]) s2
    else
      match lowest (fun e => (e.count, e.last)) t with
      | some v => put (replaceFirst v e1 t) (setErr F.WMEM_ERR_STATUS_CE_OVF intWmem s2)
      | none => s2

/-- An UNCORRECTABLE or POISONED line is delivered (R207). -/
def wmUe (loc : WmLoc) (s : State) : State :=
  let c := loc.chan.val
  let n := match tget s.wm.ue c with
    | some (l, k) => if l = loc then k + 1 else 1
    | none => 1
  let w := ceWord ⟨loc, false, min 255 n, s.minutes16⟩
  (s.modWm (fun x => { x with ue := tset x.ue c (loc, n) }))
    |> setErr F.WMEM_ERR_STATUS_UE intWmem |> incF (F.WMEM_CE_CNT_UE c) 1 |> setF (F.WMEM_UE_ADDR c) w
    |> cnt bWMEM 3 1 |> logPut sevError 0x0801 (w % 2 ^ 32) (w / 2 ^ 32) 0 0

/-- The outcome of a decode: whether the line is usable, and the tables updated (R201, R207, R208). PRESUMED, notes/assumptions/9.md. -/
def wmDecode (line : Nat) (o : WmOut) (s : State) : Bool × State :=
  match s.wmOut line o with
  | .clean => (true, s)
  | .corrected loc => (true, ceRecord loc s)
  | .uncorrectable loc => (false, wmUe loc s)
  | .poisoned loc => (false, wmUe loc s)

/-- R208: WMEM_CE_CTL.CLEAR empties the channel's table. -/
def ceClear (c v : Nat) (s : State) : State :=
  if v.testBit 31 then s.modWm (fun w => { w with ce := terase w.ce c }) else s

def execCeTableClear (_m : Master) (c : Fin 4) (v : BitVec 32) (s : State) : Host.Outcome State Fault Refusal :=
  .next (s |> storeAt (0x310010 + c.val * 0x4000) v.toNat |> ceClear c.val v.toNat)

/-- A leaf event enters the media error table (R209): served at `step` with `bits` corrected bits. -/
def mediaErr (pfa leaf step bits : Nat) (s : State) : State :=
  if s.get F.ECC_MEDIA_CFG_BITS ≤ bits ∨ 1 ≤ step then
    let t := s.wm.media
    let put (l : List MedErr) (u : State) : State :=
      (u.modWm (fun w => { w with media := l })) |> setF F.ECC_MEDIA_STATUS_ENTRIES l.length
    match t.find? (fun e => e.pfa == pfa && e.leaf == leaf) with
    | some e =>
      put (replaceFirst e ⟨pfa, leaf, max e.step step, max e.bits bits, min 4095 (e.count + 1), s.clk.tod⟩ t) s
    | none =>
      let n : MedErr := ⟨pfa, leaf, step, bits, 1, s.clk.tod⟩
      if t.length < 64 then put (t ++ [n]) s
      else
        match lowest (fun e : MedErr => (e.count, e.last)) t with
        | some v => put (replaceFirst v n t) (incF F.ECC_MEDIA_STATUS_REPLACED 1 s)
        | none => s
  else s

/-- R209: ECC_MEDIA_CTL.CLEAR empties the media error table. -/
def mediaClear (v : Nat) (s : State) : State :=
  if v.testBit 31 then
    (s.modWm (fun w => { w with media := [] })) |> setF F.ECC_MEDIA_STATUS_ENTRIES 0 |> setF F.ECC_MEDIA_STATUS_REPLACED 0
  else s

def execMediaTableClear (_m : Master) (v : BitVec 32) (s : State) : Host.Outcome State Fault Refusal :=
  .next (s |> storeAt 0x320008 v.toNat |> mediaClear v.toNat)

/-! ### The Meridian's counters (09_cipher_and_meridian.md R235 to R240) -/

/-- The key of a counter line: level and index. -/
def ctrKey (level idx : Nat) : Nat := level * 2 ^ 40 + idx

/-- A counter line: MAJOR and its minors. -/
def State.ctrLine (s : State) (level idx : Nat) : Nat × Tbl Nat := tgetD (0, []) s.ciph.ctr (ctrKey level idx)

/-- The counter of child j of a line (R235). -/
def State.counterOf (s : State) (level idx j : Nat) : Nat :=
  let l := s.ctrLine level idx
  l.1 * 128 + tgetD 0 l.2 j

def setCtr (level idx : Nat) (l : Nat × Tbl Nat) (s : State) : State :=
  s.modCiph (fun c => { c with ctr := tput (0, []) c.ctr (ctrKey level idx) l })

/-- The random bit generator makes a new scramble key SK and tag key TK (R233). -/
def meridKeys (s : State) : State :=
  let (a, s1) := takeNat s
  let (b, s2) := takeNat s1
  s2.modCiph (fun c => { c with sk := a % 2 ^ 256, tk := b % 2 ^ 256 })

/-- A wrap fault: the re-key starts, under new keys (R240). -/
def meridWrap (s : State) : State :=
  s |> setErr F.MERID_ERR_STATUS_WRAP intMerid |> setF F.MERID_STATUS_REKEY 1 |> logOpen bMERID 0 0 |> meridKeys

/-- A child of a counter line is written: its minor rises, or the line overflows and the other 63 children are
re-scrambled under the new MAJOR (R238), or MAJOR wraps (R240). -/
def ctrBump (level idx j : Nat) (s : State) : State :=
  let l := s.ctrLine level idx
  let m := tgetD 0 l.2 j
  if m < 127 then setCtr level idx (l.1, tput 0 l.2 j (m + 1)) s
  else if l.1 = 2 ^ 64 - 1 then meridWrap s
  else
    s |> setCtr level idx (l.1 + 1, [])
      |> incF (if level = 0 then F.MERID_OVF_CNT_L0 else F.MERID_OVF_CNT_UPPER) 1
      |> setF F.MERID_HWM (max (s.get F.MERID_HWM) (l.1 + 1))
      |> cnt bMERID 2 1 |> cnt bWMEM 0 63 |> cnt bWMEM 1 63

/-- Does the Meridian protect the byte address (R234)? -/
def State.protectedAddr (s : State) (a : Nat) : Bool :=
  let base := s.get F.MERID_BASE * 2 ^ 30
  decide (base ≤ a) && decide (a < base + s.get F.MERID_CFG_SIZE_GIB * 2 ^ 30)

/-! ### Scrambling and tags (R233) -/

/-- The eight words of a line as one value. -/
def State.plainLine (s : State) (line : Nat) : Line :=
  BitVec.ofNat 512 ((List.range 8).foldl (fun a i => a + tgetD 0 s.wm.words (line * 8 + i) % 2 ^ 64 * 2 ^ (64 * i)) 0)

/-- The mask of a line under SK. -/
def State.mask (s : State) (index level counter : Nat) : Line := Config.mix (BitVec.ofNat 256 s.ciph.sk) index level counter

/-- A product in GF(2^128) as GHASH takes it: the highest bit is the constant term, x^128 = x^7 + x^2 + x + 1. PRESUMED,
notes/assumptions/82.md. -/
def ghashMulN : Nat → Nat → Nat → Nat
  | 0, _, _ => 0
  | n + 1, x, v =>
    (if x.testBit n then v else 0) ^^^ ghashMulN n x (if v.testBit 0 then (v / 2) ^^^ (0xE1 * 2 ^ 120) else v / 2)

/-- GHASH of blocks of 128 bits under H. -/
def ghash (h : Nat) (blocks : List Nat) : Nat := blocks.foldl (fun y b => ghashMulN 128 (y ^^^ b) h) 0

/-- The tag of a stored line at a byte address. PRESUMED, notes/assumptions/82.md. -/
def State.tagOf (s : State) (stored : Line) (addr index level counter : Nat) : Nat :=
  let tk := BitVec.ofNat 256 s.ciph.tk
  let h := (Config.aes256 tk 0).toNat
  let blocks := (List.range 4).map (fun i => stored.toNat / 2 ^ (128 * i) % 2 ^ 128)
  let pad := Config.aes256 tk (BitVec.ofNat 128 (index % 2 ^ 40 * 2 ^ 88 + level % 8 * 2 ^ 85 + counter % 2 ^ 71 * 2 ^ 14))
  (ghash h (blocks ++ [addr]) ^^^ pad.toNat) / 2 ^ 64

/-- A protected data line as it is stored, and its tag. The model keeps lines plain: what stands in a DIMM is this function of them and of
the keys. PRESUMED, notes/assumptions/82.md. -/
def State.storedLine (s : State) (line : Nat) : Line :=
  let d := line - s.get F.MERID_BASE * 2 ^ 24
  s.plainLine line ^^^ s.mask d Config.dataLevel (s.counterOf 0 (d / 64) (d % 64))

/-- The tag of a protected data line as it is stored. PRESUMED, notes/assumptions/82.md. -/
def State.lineTag (s : State) (line : Nat) : Nat :=
  let d := line - s.get F.MERID_BASE * 2 ^ 24
  s.tagOf (s.storedLine line) (line * 64) d Config.dataLevel (s.counterOf 0 (d / 64) (d % 64))

/-- A counter line as its 64 B (R235). -/
def State.ctrBits (s : State) (level idx : Nat) : Line :=
  let l := s.ctrLine level idx
  BitVec.ofNat 512 (l.1 * 2 ^ 448 + (List.range 64).foldl (fun a j => a + tgetD 0 l.2 j % 128 * 2 ^ (7 * j)) 0)

/-! ### The counter/tag cache (R236, R237) -/

/-- Lines of the metadata arrays before L1, L2, TAG and CTAG, in 64 B lines from MERID_META_BASE. -/
def State.l1At (s : State) : Nat := s.get F.MERID_CFG_SIZE_GIB * 2 ^ 18
def State.l2At (s : State) : Nat := s.l1At + s.get F.MERID_CFG_SIZE_GIB * 2 ^ 12
def State.tagAt (s : State) : Nat := s.l2At + s.get F.MERID_CFG_SIZE_GIB * 2 ^ 6
def State.ctagAt (s : State) : Nat := s.tagAt + s.get F.MERID_CFG_SIZE_GIB * 2 ^ 21

/-- The metadata line of a counter line; a line of the metadata as the counter line it is. -/
def State.metaOf (s : State) (level idx : Nat) : Nat :=
  idx + (if level = 0 then 0 else if level = 1 then s.l1At else s.l2At)

def State.metaCtr (s : State) (n : Nat) : Option (Nat × Nat) :=
  if n < s.l1At then some (0, n) else if n < s.l2At then some (1, n - s.l1At) else if n < s.tagAt then some (2, n - s.l2At) else none

/-- The line that holds the tag of counter line `n` of the metadata. -/
def State.ctagOf (s : State) (n : Nat) : Nat := s.ctagAt + n / 8

/-- The cache's bank and set of a metadata line, as one number. DESIGN CHOICE, notes/assumptions/83.md. -/
def ccSet (n : Nat) : Nat := n % 8 * 1024 + n / 8 % 1024

/-- The pseudo-LRU tree after a use of a way: every node on its path points away from it. DESIGN CHOICE, notes/assumptions/83.md. -/
def lruTouch (t w : Nat) : Nat :=
  ([3, 2, 1, 0].foldl (fun (p : Nat × Nat) l =>
    let right := w.testBit l
    (2 * p.1 + right.toNat, if right then p.2 &&& (2 ^ 16 - 1 - 2 ^ p.1) else p.2 ||| 2 ^ p.1)) (1, t)).2

/-- The way that the tree points to. DESIGN CHOICE, notes/assumptions/83.md. -/
def lruWay (t : Nat) : Nat := ([3, 2, 1, 0].foldl (fun (n : Nat) _ => 2 * n + (t.testBit n).toNat) 1) - 16

def CcSet.reset : CcSet := ⟨[], 0⟩

def State.ccSetOf (s : State) (n : Nat) : CcSet := tgetD CcSet.reset s.ciph.cache (ccSet n)

/-- The way that holds a metadata line. -/
def CcSet.find (c : CcSet) (n : Nat) : Option Nat := ((c.ways.find? (fun p => p.2.1 == n))).map (·.1)

/-- Is a metadata line cached? -/
def State.metaCached (s : State) (n : Nat) : Bool := ((s.ccSetOf n).find n).isSome

/-- The way that a fill takes: a free one, otherwise the one the tree points to or, where that is pinned, the next that is not. Lines of
L2 are pinned. DESIGN CHOICE, notes/assumptions/83.md. -/
def State.ccVictim (s : State) (c : CcSet) : Option Nat :=
  match (List.range 16).find? (fun w => (tget c.ways w).isNone) with
  | some w => some w
  | none =>
    let w0 := lruWay c.lru
    ((List.range 16).map (fun i => (w0 + i) % 16)).find? (fun w =>
      (tget c.ways w).all (fun p => match s.metaCtr p.1 with | some (l, _) => decide (l ≠ 2) | none => true))

def putCcSet (n : Nat) (c : CcSet) (s : State) : State := s.modCiph (fun x => { x with cache := tput CcSet.reset x.cache (ccSet n) c })

/-- A line leaves the cache dirty: a counter line first raises its parent's minor, and its tag is updated. Answers the uses that this
makes. -/
def metaWriteback (n : Nat) (s : State) : List (Nat × Bool) × State :=
  match s.metaCtr n with
  | none => ([], cnt bWMEM 1 1 s)
  | some (l, i) =>
    let s1 := s |> ctrBump (l + 1) (i / 64) (i % 64) |> cnt bWMEM 1 1
    (if l < 2 then [(s.metaOf (l + 1) (i / 64), true), (s.ctagOf n, true)] else [(s.ctagOf n, true)], s1)

/-- One use of a metadata line. A miss fills it, and a counter line is verified against its parent counter and its tag then. -/
def metaUse (n : Nat) (dirty : Bool) (s : State) : List (Nat × Bool) × State :=
  let c := s.ccSetOf n
  match c.find n with
  | some w =>
    ([], s |> putCcSet n ⟨tset c.ways w (n, dirty || (tgetD (0, false) c.ways w).2), lruTouch c.lru w⟩
      |> incF F.MERID_CACHE_CNT_HITS 1 |> cnt bMERID 0 1)
  | none =>
    let s1 := s |> incF F.MERID_CACHE_CNT_MISSES 1 |> cnt bMERID 1 1 |> cnt bWMEM 0 1
    let check : List (Nat × Bool) := match s.metaCtr n with
      | some (l, i) => if l < 2 then [(s.metaOf (l + 1) (i / 64), false), (s.ctagOf n, false)] else [(s.ctagOf n, false)]
      | none => []
    match s.ccVictim c with
    | none => (check, s1)
    | some w =>
      let s2 := putCcSet n ⟨tset c.ways w (n, dirty), lruTouch c.lru w⟩ s1
      match tget c.ways w with
      | some (v, true) =>
        let (more, s3) := metaWriteback v s2
        (check ++ more, s3)
      | _ => (check, s2)

/-- Uses of metadata lines one after another, with those that they make. -/
def metaRun : Nat → List (Nat × Bool) → State → State
  | 0, _, s => s
  | _, [], s => s
  | k + 1, (n, d) :: t, s =>
    let (more, s1) := metaUse n d s
    metaRun k (t ++ more) s1

/-- The dirty lines of the cache that are `p`. -/
def State.metaDirty (s : State) (p : Nat → Bool) : List Nat :=
  s.ciph.cache.flatMap (fun e => (e.2.ways.filter (fun w => w.2.2 && p w.2.1)).map (·.2.1))

/-- Write a cached line back; it stays, clean. -/
def metaClean (n : Nat) (s : State) : State :=
  let c := s.ccSetOf n
  let (more, s1) := metaWriteback n (putCcSet n { c with ways := c.ways.map (fun p => (p.1, if p.2.1 = n then (n, false) else p.2)) } s)
  metaRun 1024 more s1

/-- R234: every dirty line of the cache is written back at the entry into PARKED: L0 lines, then L1, L2, tag lines. -/
def metaFlush (s : State) : State :=
  let level (l : Nat) (t : State) : State := seqAll metaClean (t.metaDirty (fun n => (t.metaCtr n).any (fun x => x.1 == l))) t
  (fun t => seqAll metaClean (t.metaDirty (fun n => (t.metaCtr n).isNone)) t) (level 2 (level 1 (level 0 s)))

/-! ### Lines read and written -/

/-- The counter and the tag of a protected line are used: by a read, which verifies it, or by a write, under which its counter rises; an
overflow rewrites the tags of all 64 lines (R238). -/
def lineMeta (line : Nat) (wr : Bool) (s : State) : State :=
  if s.protectedAddr (line * 64) then
    let d := line - s.get F.MERID_BASE * 2 ^ 24
    let tags := if wr && decide (tgetD 0 (s.ctrLine 0 (d / 64)).2 (d % 64) = 127) then (List.range 8).map (fun k => (s.tagAt + d / 64 * 8 + k, true))
      else [(s.tagAt + d / 8, wr)]
    s |> when wr (ctrBump 0 (d / 64) (d % 64)) |> metaRun 1024 ((s.metaOf 0 (d / 64), wr) :: tags)
  else s

/-- A line (byte address / 64) is written to working memory. -/
def wmLineWritten (line : Nat) (s : State) : State := s |> cnt bWMEM 1 1 |> lineMeta line true

/-- The poison marker of a line goes with a write of the whole line (R204). -/
def unmark (line : Nat) (s : State) : State := s.modWm (fun w => { w with markers := w.markers.filter (· != line) })

/-- A line is read from working memory. -/
def wmLineRead (line : Nat) (s : State) : State := s |> cnt bWMEM 0 1 |> lineMeta line false

/-- The re-key ends: every counter is 0 (R240), and MERID_HWM counts anew (R238). -/
def rekeyDone (s : State) : State :=
  if s.on F.MERID_STATUS_REKEY then
    (s.modCiph (fun c => { c with ctr := [], cache := [] })) |> setF F.MERID_STATUS_REKEY 0 |> setF F.MERID_HWM 0
  else s

/-! ### Regions (09_cipher_and_meridian.md R234, R236) -/

/-- P: the bytes the Meridian protects, and where they begin. -/
def State.meridSize (s : State) : Nat := s.get F.MERID_CFG_SIZE_GIB * 2 ^ 30
def State.meridBase (s : State) : Nat := s.get F.MERID_BASE * 2 ^ 30

/-- The bytes of the metadata (R236). -/
def State.metaBytes (s : State) : Nat :=
  let p := s.meridSize
  p / 64 + p / 4096 + p / 262144 + p / 8 + p / 512 + p / 32768 + p / 2097152

/-- The regions that GLOBAL places, but the metadata and the mirror: address and length. The map region is as long as the arrays
that lie in it. -/
def State.regions (s : State) : List (Nat × Nat) :=
  [(s.get F.XLAT_MAP_BASE * 2 ^ 12, sumOver 16 (fun n => s.get (F.XLAT_LD_MAP_LEN n) * 8)),
   (s.get F.XLAT_POOL_BASE * 2 ^ 30, s.get F.XLAT_POOL_CFG_POOL_GIB * 2 ^ 30),
   (s.get F.COAL_STAGE_BASE * 2 ^ 14, s.get F.COAL_STAGE_CFG_FRAMES * 16384),
   (s.get F.DRIFT_SEE_BASE * 2 ^ 20, 2 ^ 26), (s.get F.FLD_HOLD_BASE * 2 ^ 20, s.get F.FLD_BUF_CFG_HOLD_SLOTS * 163840),
   (s.get F.FLD_TBL_BASE * 2 ^ 20, 2 ^ 27), (s.get F.DUR_JBUF_BASE * 2 ^ 20, 2 ^ 23), (s.get F.DUR_SNAP_BASE * 2 ^ 20, 2 ^ 27),
   (s.get F.IMG_STAGE_BASE * 2 ^ 24, 2 ^ 24)]

/-- Address `a` lies in a region whose contents the model holds in fields of their own: the regions of the GLOBAL segment other
than the map and the frame tables, and the Meridian metadata and mirror. DESIGN CHOICE, notes/assumptions/48.md. -/
def State.wmStruct (s : State) (a : Nat) : Bool :=
  let inside (r : Nat × Nat) : Bool := decide (r.1 ≤ a) && decide (a < r.1 + r.2)
  (s.regions.drop 2).any inside || inside (s.get F.MERID_META_BASE * 2 ^ 18, s.metaBytes) ||
    inside (s.get F.MERID_MIRROR_BASE * 2 ^ 18, s.get F.MERID_LAYOUT_MIRROR_KIB * 1024)

/-! ### The merge buffer (R205, R206) -/

/-- Store the bytes of `mask` in the words of a line; what stands in a region with fields of its own stands there. -/
def wmStoreBytes (line mask : Nat) (bytes : Tbl Nat) (s : State) : State :=
  if s.wmStruct (line * 64) then s
  else s.modWm (fun w =>
    { w with words := (List.range 8).foldl (fun t i =>
        let old := tgetD 0 t (line * 8 + i)
        let new := (List.range 8).foldl (fun v j =>
          if mask.testBit (8 * i + j) then
            v - v / 2 ^ (8 * j) % 256 * 2 ^ (8 * j) + tgetD 0 bytes (8 * i + j) % 256 * 2 ^ (8 * j)
          else v) old
        tput 0 t (line * 8 + i) new) w.words })

/-- Flush an entry: a full mask is written without a read, a partial one reads the line, merges and writes it; an
uncorrectable line is stored with the poison marker (R205, R207). -/
def mergeFlush (e : MergeEnt) (out : WmOut) (s : State) : State :=
  let s0 := s.modWm (fun w => { w with merge := w.merge.filter (fun x => x.line != e.line) })
  if e.mask = 2 ^ 64 - 1 then
    s0 |> wmStoreBytes e.line e.mask e.bytes |> incF F.WMEM_MERGE_CNT_FULL 1 |> unmark e.line |> wmLineWritten e.line
  else
    let (ok, s1) := wmDecode e.line out s0
    let s2 := s1 |> wmStoreBytes e.line e.mask e.bytes |> incF F.WMEM_MERGE_CNT_RMW 1 |> wmLineRead e.line |> cnt bWMEM 4 1
      |> unmark e.line |> wmLineWritten e.line
    if ok then s2
    else
      (s2.modWm (fun w => { w with markers := e.line :: w.markers })) |> setErr F.WMEM_ERR_STATUS_RMW_UE intWmem

/-- Flush every entry (a read of the line, a drain: R205). The reads of these flushes decode CLEAN here: the outcome of
a flush that the environment decides comes with MERGE_HOLD_EXPIRE. DESIGN CHOICE, notes/assumptions/48.md. -/
def mergeFlushAll (s : State) : State := seqAll (fun e t => mergeFlush e .clean t) s.wm.merge s

/-- A narrow write of the bytes of `mask` of a line (R205): it merges into an entry, takes a free one, or flushes the
oldest first; an entry whose mask becomes full is written. -/
def wmNarrow (line mask : Nat) (bytes : Tbl Nat) (s : State) : State :=
  let s0 := if s.wm.merge.length < 64 ∨ s.wm.merge.any (fun e => e.line == line) then s
    else match s.wm.merge with
      | e :: _ => mergeFlush e .clean s
      | [] => s
  let old := (s0.wm.merge.find? (fun e => e.line == line)).getD ⟨line, 0, []⟩
  let new : MergeEnt := ⟨line, old.mask ||| mask,
    (List.range 64).foldl (fun t i => if mask.testBit i then tput 0 t i (tgetD 0 bytes i) else t) old.bytes⟩
  let s1 := s0.modWm (fun w =>
    { w with merge := if w.merge.any (fun e => e.line == line) then w.merge.map (fun e => if e.line = line then new else e)
                      else w.merge ++ [new] })
  if new.mask = 2 ^ 64 - 1 then mergeFlush new .clean s1 else s1

/-- R205: HOLD × 16 ns after its allocation the oldest entry is flushed. -/
def execMergeHoldExpire (out : WmOut) (s : State) : Host.Outcome State Fault Refusal :=
  .next (match s.wm.merge with
    | e :: _ => mergeFlush e out s
    | [] => s)

/-- A read of a line arrives: an entry for it is flushed (R205, R206). DESIGN CHOICE, notes/assumptions/6.md. -/
def flushFor (line : Nat) (s : State) : State :=
  match s.wm.merge.find? (fun e => e.line == line) with
  | some e => mergeFlush e .clean s
  | none => s

def flushLines (lines : List Nat) (s : State) : State := seqAll flushFor lines s

/-- A read of a line. -/
def wmRead (line : Nat) (s : State) : State := wmLineRead line (flushFor line s)

/-- A word as a read of its line finds it: with the bytes of the merge buffer's entry. -/
def State.memWord (s : State) (word : Nat) : Nat :=
  let old := tgetD 0 s.wm.words word
  match s.wm.merge.find? (fun e => e.line == word / 8) with
  | some e => (List.range 8).foldl (fun v j =>
      if e.mask.testBit (8 * (word % 8) + j) then v - v / 2 ^ (8 * j) % 256 * 2 ^ (8 * j) + tgetD 0 e.bytes (8 * (word % 8) + j) % 256 * 2 ^ (8 * j)
      else v) old
  | none => old

/-- A narrow write of `n` bytes of the value `v` from a byte address; it lies in one line. -/
def wmWriteBytes (a n v : Nat) (s : State) : State :=
  wmNarrow (a / 64) ((2 ^ n - 1) * 2 ^ (a % 64)) ((List.range n).foldl (fun t j => tput 0 t (a % 64 + j) (v / 2 ^ (8 * j) % 256)) []) s

/-! ### Lines of the staging window (03_translation.md R72) and of the hold slots (06_field_management.md R139) -/

/-- The line `i` of the frame under a token. -/
def State.stageLine (s : State) (tok i : Nat) : Nat := s.get F.COAL_STAGE_BASE * 2 ^ 8 + tok * 256 + i

/-- Lines of a frame are written in the staging window, or all of it is read. -/
def stageWrite (tok : Nat) (ls : List Nat) (s : State) : State := seqAll (fun i t => wmLineWritten (t.stageLine tok i) t) ls s
def stageRead (tok : Nat) (s : State) : State := seqAll (fun i t => wmLineRead (t.stageLine tok i) t) (List.range 256) s

/-- The bytes of one accumulator: 65 leaf messages of 258 B. -/
def accBytes : Nat := 65 * 258

/-- The accumulator of a member in a hold slot is read, and written with a row's messages added. The eight lie one after another.
DEDUCED, notes/assumptions/48.md. -/
def holdTouch (slot member : Nat) (s : State) : State :=
  let a := s.get F.FLD_HOLD_BASE * 2 ^ 20 + slot * 163840 + member * accBytes
  seqAll (fun i t => wmLineWritten (a / 64 + i) (wmLineRead (a / 64 + i) t)) (List.range ((a + accBytes - 1) / 64 + 1 - a / 64)) s

/-! ### Refresh and patrol scrub (R197, R210) -/

def execMr4Poll (rates : List (Nat × Nat × Bool)) (s : State) : Host.Outcome State Fault Refusal :=
  .next (s.modWm (fun w => { w with refresh := rates.foldl (fun t r => tset t r.1 (r.2.1, r.2.2)) w.refresh }))

/-- The scrub moves to the next line, and starts a new pass after the last; the test regions, the top 4 KiB of each channel, lie
outside (R196). -/
def scrubAdvance (s : State) : State :=
  let n := s.get F.WMEM_SCRUB_POS_LINE + 1
  if n + 256 < s.get F.WMEM_CFG_TOTAL_GIB * 2 ^ 24 then setF F.WMEM_SCRUB_POS_LINE n s
  else s |> setF F.WMEM_SCRUB_POS_LINE 0 |> setF F.WMEM_SCRUB_POS_PASSES (s.get F.WMEM_SCRUB_POS_PASSES + 1)

/-- The outcome is a correction. -/
def correctedOut : WmOut → Bool
  | .corrected _ => true
  | .clean | .uncorrectable _ | .poisoned _ => false

/-- R210: the next line is read; a CORRECTED line is written back as stored, an uncorrectable one is recorded only. -/
def patrolScrub (out : WmOut) (s : State) : State :=
  if s.on F.WMEM_SCRUB_CFG_EN && (decide (s.glb.mode = .active) || decide (s.glb.mode = .quiet)) then
    let line := s.get F.WMEM_SCRUB_POS_LINE
    if s.wm.merge.any (fun e => e.line == line) then scrubAdvance s
    else
      let (ok, s1) := wmDecode line out (s |> cnt bWMEM 0 1 |> cnt bWMEM 5 1)
      scrubAdvance (if ok then (if correctedOut (s.wmOut line out) then cnt bWMEM 1 1 s1 else s1)
        else setErr F.WMEM_ERR_STATUS_SCRUB_UE intWmem s1)
  else s

def execPatrolScrub (out : WmOut) (s : State) : Host.Outcome State Fault Refusal := .next (patrolScrub out s)

/-! ### The split-write test mode (R211, R212) -/

/-- Eight 64-bit registers as 64 bytes. -/
def wordBytes (ws : List Nat) : List Nat := ws.flatMap (fun w => (List.range 8).map (fun j => w / 2 ^ (8 * j) % 256))

/-- Bytes as one number, the first byte lowest. -/
def bytesNum (l : List Nat) : Nat := l.foldr (fun b a => b + 256 * a) 0

/-- The number of a test line. -/
def testLine (c : Nat) (s : State) : Nat := (c * 2 + s.get (F.WMEM_TEST_CTL_SUB c)) * 32 + s.get (F.WMEM_TEST_CTL_LINE c)

/-- R211: WRITE stores WDATA on the data devices and the check bytes of CDATA XOR CHKX on the check devices. -/
def testWrite (c : Nat) (s : State) : State :=
  let data := bytesNum (wordBytes ((List.range 8).map (fun i => s.get (F.WMEM_TEST_WDATA c i))))
  let chk := rsCheck (wordBytes ((List.range 8).map (fun i => s.get (F.WMEM_TEST_CDATA c i))))
  let x := wordBytes ((List.range 2).map (fun i => s.get (F.WMEM_TEST_CHKX c i)))
  s.modWm (fun w => { w with test := tset w.test (testLine c s) (data, bytesNum (List.zipWith (· ^^^ ·) chk x)) })

/-- R211: READ decodes the line and fills RDATA and RESULT; a correction also reaches the check bytes. DEDUCED, notes/assumptions/48.md. -/
def testRead (c : Nat) (s : State) : State :=
  let (d, k) := tgetD (0, 0) s.wm.test (testLine c s)
  let bytes (v n : Nat) : List Nat := (List.range n).map (fun j => v / 2 ^ (8 * j) % 256)
  let r := rsDecode (s.on (F.WMEM_CH_STATUS_WIDTH c)) (bytes d 64 ++ bytes k 16)
  let out := bytesNum r.data
  let chk := bytesNum r.chk
  seqAll (fun i t => setF (F.WMEM_TEST_RDATA c i) (if i < 8 then out / 2 ^ (64 * i) else chk / 2 ^ (64 * (i - 8))) t)
    (List.range 10) s
    |> setF (F.WMEM_TEST_RESULT_DONE c) 1 |> setF (F.WMEM_TEST_RESULT_OUTCOME c) r.outcome
    |> setF (F.WMEM_TEST_RESULT_DEVICE c) r.device |> setF (F.WMEM_TEST_RESULT_SYMBOLS c) r.symbols

/-- A write of WMEM_TEST_CTL: its fields are stored; a GO while no operation runs starts OP, and clears DONE (R213). -/
def testCtl (c v : Nat) (s : State) : State :=
  if v.testBit 31 && s.on (F.WMEM_TEST_CTL_BUSY c) then s
  else
    let s1 := storeAt (0x310100 + c * 0x4000) v s
    if v.testBit 31 then
      let s2 := setF (F.WMEM_TEST_RESULT_DONE c) 0 s1
      match s1.get (F.WMEM_TEST_CTL_OP c) with
      | 1 => testWrite c s2
      | 2 => testRead c s2
      | _ => s1
    else s1

def execTestWrite (_m : Master) (c : Fin 4) (v : BitVec 32) (s : State) : Host.Outcome State Fault Refusal :=
  .next (testCtl c.val v.toNat s)

def execTestRead (_m : Master) (c : Fin 4) (v : BitVec 32) (s : State) : Host.Outcome State Fault Refusal :=
  .next (testCtl c.val v.toNat s)

end Sys2Proof.Machine
end

