-- ==== Sys2Proof/Machine/Regul.lean ====
section
/-! DEFINITION. Regulation: the buckets, admission, effective floors, misses (11_regulation_and_ledgers.md R269 to
R278), and what one idle EPH cycle does. -/

namespace Sys2Proof.Machine

/-! ### Which media serve (R92, R278) -/

def chOnline : Nat := 2
def chSleep : Nat := 3

/-- The channel takes commands: ONLINE or SLEEP. -/
def State.chUp (s : State) (c : Nat) : Bool :=
  let st := s.get (F.MCH_STATUS_STATE c)
  st == chOnline || st == chSleep

/-- A plate is out of service: its MGMT_VIEW is not ONLINE (15_shelf_bus.md R367). -/
def State.plateOut (s : State) (p : Nat) : Bool := s.get (F.SBUS_PLT_STATE_MGMT_VIEW p) != 3

/-- A die counts as busy without an operation of its own: FAILED, its channel not ONLINE or SLEEP, its plate out of
service (R92). -/
def State.dieOut (s : State) (c d : Nat) : Bool :=
  s.on (F.MCH_DIE_STATUS_FAILED c d) || !s.chUp c || s.plateOut (plateOf c)

/-- Does member k of group g count as busy without an operation of its own? -/
def State.memberOut (s : State) (g k : Nat) : Bool := s.dieOut (memberCh g k) (memberDie g)

/-- The populated channels that are ONLINE or SLEEP. -/
def State.readChannels (s : State) : Nat :=
  ((List.range 32).filter (fun c => s.img.chans.testBit c && s.chUp c)).length

/-- The channels the image declares populated. -/
def State.popChannels (s : State) : Nat := ((List.range 32).filter (fun c => s.img.chans.testBit c)).length

/-- The stripe groups with no member out. -/
def State.programGroups (s : State) : Nat :=
  ((List.range 32).filter (fun g => (List.range 8).all (fun k => !s.memberOut g k))).length

/-! ### Effective capacity and floors (R277, R278) -/

/-- The committed floor of class c in direction dir (0 read, 1 write). -/
def State.floorOf (s : State) (c dir : Nat) : Nat :=
  if dir = 0 then s.get (F.REG_ACT_RATE_RD_FLOOR c) else s.get (F.REG_ACT_RATE_WR_FLOOR c)

/-- Recompute REG_CAP_EFF, the effective floors, DERATED and SCALED (R277, R278). A direction is derated where its floors exceed
a capacity that stands below the configured one. DEDUCED, notes/assumptions/34.md. -/
def capRecompute (s : State) : State :=
  let pop := s.popChannels
  let rd0 := if pop = 0 then 0 else s.get F.REG_CAP_RD_CAP * s.readChannels / pop
  let wr0 := s.get F.REG_CAP_WR_CAP * s.programGroups / 32
  let quiet := decide (s.glb.mode = .quiet)
  let rd := if quiet then min rd0 300 else rd0
  let wr := if quiet then min wr0 300 else wr0
  let sr := sumOver 19 (fun c => s.floorOf c 0)
  let sw := sumOver 19 (fun c => s.floorOf c 1)
  let eff (f cap sum : Nat) : Nat := if sum ≤ cap then f else f * cap / sum
  let s1 := seqAll (fun c t =>
    t |> setF (F.REG_EFF_RD_FLOOR_EFF c) (eff (s.floorOf c 0) rd sr)
      |> setF (F.REG_EFF_WR_FLOOR_EFF c) (eff (s.floorOf c 1) wr sw)) (List.range 19) s
  let scaled := decide (rd < sr) || decide (wr < sw)
  let derated := (decide (rd < sr) && decide (rd < s.get F.REG_CAP_RD_CAP)) || (decide (wr < sw) && decide (wr < s.get F.REG_CAP_WR_CAP))
  s1 |> setF F.REG_CAP_EFF_RD_CAP rd |> setF F.REG_CAP_EFF_WR_CAP wr
    |> setB F.REG_STATUS_DERATED derated |> setB F.REG_STATUS_SCALED (scaled || s.on F.REG_STATUS_FORCED)

/-! ### Buckets (R270, R273) -/

/-- The key of a class's bucket in a direction. DEDUCED, notes/assumptions/14.md. -/
def bKey (c dir : Nat) : Nat := c * 2 + dir

def State.rateOf (s : State) (c dir : Nat) : Nat :=
  if dir = 0 then s.get (F.REG_ACT_RATE_RD_RATE c) else s.get (F.REG_ACT_RATE_WR_RATE c)

def State.effFloor (s : State) (c dir : Nat) : Nat :=
  if dir = 0 then s.get (F.REG_EFF_RD_FLOOR_EFF c) else s.get (F.REG_EFF_WR_FLOOR_EFF c)

/-- The full size of a grant bucket in bytes. -/
def State.burstOf (s : State) (c : Nat) : Nat := s.get (F.REG_ACT_LAT_BURST_KIB c) * 1024

/-- The floor bucket holds at most 64 KiB. DEDUCED, notes/assumptions/14.md. -/
def floorSize : Nat := 65536

/-- Credit in a floor bucket; a class without a floor has none (notes/assumptions/14.md). -/
def State.floorCredit (s : State) (c dir : Nat) : Nat :=
  if s.effFloor c dir = 0 then 0 else floorSize - tgetD 0 s.regu.floor (bKey c dir)

/-- The class of a CXL.mem request. -/
def HReq.dir (r : HReq) : Nat := if r.wr then 1 else 0

/-- The class of a ring command: the LD that owns its pair, or ASSIST for the FM-owned LD's pairs (R269). -/
def State.pairOwner (s : State) (p : Nat) : Option Nat :=
  (List.range 17).find? (fun n =>
    decide (s.get (F.RING_LD_ALLOC_FIRST n) ≤ p) &&
      decide (p < s.get (F.RING_LD_ALLOC_FIRST n) + s.get (F.RING_LD_ALLOC_COUNT n)))

def classMover : Nat := 16
def classAssist : Nat := 17
def classFinder : Nat := 18

/-- The regulation class of an owner. -/
def ownerClass (o : Nat) : Nat := if o = 16 then classAssist else o

/-- The direction a ring command's units need: COPY and FILL write, the others read. -/
def RCmd.dir (c : RCmd) : Nat := if c.op = 1 ∨ c.op = 2 then 1 else 0

/-- Has the command units that it has not yet issued? -/
def RCmd.unissued (c : RCmd) : Bool := c.final.isNone && decide (c.op ≤ 4) && decide (c.pos < c.len)

/-- The bucket of a class is short of n bytes: a limited rate, and less credit than that, in a bucket that is not full. An access larger
than its bucket goes when the bucket is full. DESIGN CHOICE, notes/assumptions/85.md. -/
def State.short (s : State) (c dir n : Nat) : Bool :=
  let d := tgetD 0 s.regu.grant (bKey c dir)
  s.on F.REG_CTL_EN && decide (s.rateOf c dir ≠ 0) && decide (s.burstOf c < d + n) && decide (d ≠ 0)

/-- A copying job has frames to read. -/
def State.moverWaits (s : State) : Bool := s.fld.movers.any (fun p => p.2.left != [])

/-- Is a class backlogged in a direction (R273)? -/
def State.backlogged (s : State) (c dir : Nat) : Bool :=
  (decide (c = classMover) && s.moverWaits && s.short c dir 16384) ||
  s.host.ingress.any (fun r => r.ld == c && r.dir == dir) ||
    s.ring.cmds.any (fun k => k.unissued && k.dir == dir &&
      decide ((s.pairOwner k.pair).map ownerClass = some c))

/-- The classes backlogged in either direction. -/
def State.backlogClasses (s : State) : List Nat :=
  (List.range 19).filter (fun c => s.backlogged c 0 || s.backlogged c 1)

/-- CONTEND: a backlogged class holds credit in its floor bucket (R273). -/
def State.contend (s : State) : Bool :=
  s.on F.REG_CTL_EN &&
    (List.range 19).any (fun c => (List.range 2).any (fun d => s.backlogged c d && decide (0 < s.floorCredit c d)))

/-- Bring CONTEND and BACKLOG of REG_STATUS up to date; a class that is no longer backlogged was not so throughout the
window. -/
def regStatus (s : State) : State :=
  (s.modRegu (fun r => { r with backSince := r.backSince.filter (fun k => s.backlogged (k / 2) (k % 2)) }))
    |> setB F.REG_STATUS_CONTEND s.contend
    |> setF F.REG_STATUS_BACKLOG (s.backlogClasses.foldl (fun a c => a ||| 2 ^ c) 0)

/-- May an access of class c take n bytes in a direction now (R270, R273)? -/
def State.mayTake (s : State) (c dir n : Nat) : Bool :=
  if s.on F.REG_CTL_EN then
    (decide (s.rateOf c dir = 0) || decide (tgetD 0 s.regu.grant (bKey c dir) + n ≤ s.burstOf c)) &&
      (!s.contend || decide (n ≤ s.floorCredit c dir)
        || decide (tgetD 0 s.regu.share (bKey c dir) + n ≤ floorSize))
  else true

/-- Take n bytes of credit. DEDUCED, notes/assumptions/14.md. -/
def takeCredit (c dir n : Nat) (s : State) : State :=
  let k := bKey c dir
  let add (t : Tbl Nat) : Tbl Nat := tmod 0 (· + n) t k
  let s1 := s.modRegu (fun r => { r with delivered := add r.delivered })
  if s.on F.REG_CTL_EN then
    let s2 := if s.rateOf c dir = 0 then s1 else s1.modRegu (fun r => { r with grant := add r.grant })
    if s.contend then
      if n ≤ s.floorCredit c dir then s2.modRegu (fun r => { r with floor := add r.floor })
      else s2.modRegu (fun r => { r with share := add r.share })
    else s2
  else s1

/-- May a mover, the checkpoint writer or an access of the finder go now (R270, R271, R273)? One larger than a bucket goes when the bucket
is full. -/
def State.mayGo (s : State) (c dir n : Nat) : Bool :=
  !s.short c dir n && (!s.contend || decide (n ≤ s.floorCredit c dir) || decide (tgetD 0 s.regu.share (bKey c dir) + n ≤ floorSize) ||
    decide (tgetD 0 s.regu.share (bKey c dir) = 0))

/-- One EPH cycle of 10 ns refills each bucket: 100 MB/s is 1 byte in 10 ns. -/
def regTick (s : State) : State :=
  let n := s.backlogClasses.length
  let drain (f : Nat → Nat → Nat) (t : Tbl Nat) : Tbl Nat :=
    t.foldl (fun a p => tput 0 a p.1 (p.2 - f (p.1 / 2) (p.1 % 2))) t
  let slack (d : Nat) : Nat :=
    (if d = 0 then s.get F.REG_CAP_EFF_RD_CAP else s.get F.REG_CAP_EFF_WR_CAP) - sumOver 19 (fun c => s.effFloor c d)
  s.modRegu (fun r =>
    { r with
      grant := drain s.rateOf r.grant
      floor := drain s.effFloor r.floor
      share := drain (fun _ d => if n = 0 then 0 else slack d / n) r.share })

/-- EPH cycles of 10 ns in a minute (05_drift_and_references.md R115). -/
def minuteCycles : Nat := 6000000000

/-- What an idle step does: one EPH cycle passes (notes/assumptions/1.md). -/
def idleTick (s : State) : State :=
  let s1 := (regTick (ephCycle s)) |> when (s.on F.COAL_STATUS_FRAME_EMPTY) (cnt bCOAL 7 10)
    |> when s.contend (cnt bREG 2 10) |> (fun t => seqAll (fun r u => cnt (bLD r.ld) 10 10 u) s.host.ingress t)
  if s.glb.mode = .active ∨ s.glb.mode = .quiet then
    if s1.drift.partMin + 1 < minuteCycles then s1.modDrift (fun d => { d with partMin := d.partMin + 1 })
    else (s1.modDrift (fun d => { d with partMin := 0 })) |> setF F.DRIFT_MINUTES_MINUTES (s1.get F.DRIFT_MINUTES_MINUTES + 1)
  else s1

/-- The DevLoad of a response of an LD (R272): 0 Light Load, 1 Optimal Load, 2 Moderate Overload, 3 Severe Overload. -/
def State.devLoad (s : State) (port ld dir : Nat) : Nat :=
  let waiting (l d : Nat) : Nat := (s.host.ingress.filter (fun r => r.port == port && r.ld == l && r.dir == d)).length
  if (List.range 16).any (fun l => decide (128 ≤ waiting l 0) || decide (64 ≤ waiting l 1)) then 3
  else if 0 < (s.host.ingress.filter (fun r => r.ld == ld)).length ∨
      s.ring.cmds.any (fun c => c.unissued && s.pairOwner c.pair == some ld && !s.mayTake ld c.dir 64) then 2
  else if s.on F.REG_CTL_EN && !decide (s.rateOf ld dir = 0) &&
      decide (s.burstOf ld < 2 * tgetD 0 s.regu.grant (bKey ld dir)) then 1
  else 0

/-- A write of REG_CTL: when EN is set every bucket starts full (R270). -/
def regCtl (old : Bool) (s : State) : State :=
  if s.on F.REG_CTL_EN && !old then s.modRegu (fun r => { r with grant := [], floor := [], share := [] }) else s

/-! ### Admission (R276, R277) -/

/-- Does the shadow entry of class c encode legal values? -/
def State.entryOk (s : State) (c : Nat) : Bool :=
  let lat := s.get (F.REG_GT_LAT_LAT_TARGET c)
  let fits (f r : Nat) : Bool := decide (r = 0) || decide (f ≤ r)
  decide (s.get (F.REG_GT_LAT_BURST_KIB c) ≠ 0) && (decide (lat = 0) || decide (20 ≤ lat))
    && fits (s.get (F.REG_GT_RATE_RD_FLOOR c)) (s.get (F.REG_GT_RATE_RD_RATE c))
    && fits (s.get (F.REG_GT_RATE_WR_FLOOR c)) (s.get (F.REG_GT_RATE_WR_RATE c))

/-- Commit all 19 entries in one step. -/
def commitEntries (s : State) : State :=
  seqAll (fun c t =>
    t |> setF (F.REG_ACT_RATE_WR_FLOOR c) (s.get (F.REG_GT_RATE_WR_FLOOR c))
      |> setF (F.REG_ACT_RATE_RD_FLOOR c) (s.get (F.REG_GT_RATE_RD_FLOOR c))
      |> setF (F.REG_ACT_RATE_WR_RATE c) (s.get (F.REG_GT_RATE_WR_RATE c))
      |> setF (F.REG_ACT_RATE_RD_RATE c) (s.get (F.REG_GT_RATE_RD_RATE c))
      |> setF (F.REG_ACT_LAT_LAT_TARGET c) (s.get (F.REG_GT_LAT_LAT_TARGET c))
      |> setF (F.REG_ACT_LAT_BURST_KIB c) (s.get (F.REG_GT_LAT_BURST_KIB c))) (List.range 19) s

/-- The admission check over the shadow entries, and the commit (R276, R277). DEDUCED, notes/assumptions/34.md. -/
def admitSet (force : Bool) (s : State) : State :=
  let s0 := s |> setF F.REG_ADMIT_OVER_RD 0 |> setF F.REG_ADMIT_OVER_WR 0 |> setF F.REG_ADMIT_BAD_CLASS 0
  match (List.range 19).find? (fun c => !s.entryOk c) with
  | some c => s0 |> setF F.REG_ADMIT_STATUS 3 |> setF F.REG_ADMIT_BAD_CLASS c
  | none =>
    let overR := decide (s.get F.REG_CAP_RD_CAP < sumOver 19 (fun c => s.get (F.REG_GT_RATE_RD_FLOOR c)))
    let overW := decide (s.get F.REG_CAP_WR_CAP < sumOver 19 (fun c => s.get (F.REG_GT_RATE_WR_FLOOR c)))
    if (overR || overW) && !force then
      s0 |> setF F.REG_ADMIT_STATUS 2 |> setB F.REG_ADMIT_OVER_RD overR |> setB F.REG_ADMIT_OVER_WR overW
    else
      s0 |> commitEntries |> setF F.REG_ADMIT_STATUS 1 |> setB F.REG_STATUS_FORCED (overR || overW) |> capRecompute

/-- A write of REG_ADMIT: FORCE is stored; GO checks and commits. -/
def admitWrite (v : Nat) (s : State) : State :=
  let s1 := storeAt 0x360020 v s
  if v.testBit 31 then admitSet (s1.on F.REG_ADMIT_FORCE) s1 else s1

def execRegAdmit (_m : Master) (v : BitVec 32) (s : State) : Host.Outcome State Fault Refusal :=
  .next (admitWrite v.toNat s)

/-! ### Misses (R274, R275) -/

/-- A miss of a class: `kind` 0 floor, 1 latency (R275). DEDUCED, notes/assumptions/34.md. -/
def regMiss (kind c : Nat) (s : State) : State :=
  let f := if kind = 0 then F.REG_FLOOR_MISS_CLASS else F.REG_LAT_MISS_CLASS
  let s1 := s |> incF (if kind = 0 then F.REG_CNT_FLOOR c else F.REG_CNT_LAT c) 1
    |> setF f (s.get f ||| 2 ^ c) |> cnt bREG kind 1
  let first := !s.regu.missed.contains (bKey c kind)
  let s2 := (when (first && s.on F.REG_CTL_MISS_IRQ) (raiseInt intReg) s1).modRegu
    (fun r => { r with missed := bKey c kind :: r.missed })
  let sec := s.clk.tod / 1000000000 + 1
  if tgetD 0 s.regu.logged c = sec then s2
  else (s2.modRegu (fun r => { r with logged := tput 0 r.logged c sec })) |> logPut sevWarning 0x0D01 c kind 0 0

/-- R275: a 1 ms window ends: a class backlogged in a direction throughout that delivered less than its committed floor
missed it. A window cut short by a time step counts nothing (14_clocks_and_crossings.md R344). A floor of 100 MB/s is
100,000 bytes a window. DEDUCED, notes/assumptions/34.md. -/
def floorWindow (s : State) : State :=
  let back : List Nat := (List.range 38).filter (fun k => s.backlogged (k / 2) (k % 2))
  let missed := if s.on F.REG_CTL_EN && !s.clk.skipWin then
      s.regu.backSince.filter (fun k => back.contains k &&
        decide (tgetD 0 s.regu.delivered k < s.floorOf (k / 2) (k % 2) * 100000))
    else []
  let s1 := seqAll (fun c t => regMiss 0 c t) ((missed.map (· / 2)).eraseDups) s
  (s1.modRegu (fun r => { r with delivered := [], backSince := back, missed := [] })).modClk
    (fun c => { c with skipWin := false })

def execFloorWindow (s : State) : Host.Outcome State Fault Refusal := .next (floorWindow s)

/-- A host read of class c ended after `ns`: a latency miss where its target is exceeded and every condition of R18
held, `ok` (R274). -/
def latencyMiss (c ns : Nat) (ok : Bool) (s : State) : State :=
  let t := s.get (F.REG_ACT_LAT_LAT_TARGET c)
  if ok && s.on F.REG_CTL_EN && decide (t ≠ 0) && decide (s.glb.mode = .active) && decide (t * 100 < ns) then regMiss 1 c s else s

end Sys2Proof.Machine
end

