-- ==== Sys2Proof/Machine/JrnRec.lean ====
section
/-! DEFINITION. The records of the rapid journal and their capture (07_durability.md R162, R166, R168). -/

namespace Sys2Proof.Machine

/-! ### Records -/

def recLine : Nat := 1
def recPart : Nat := 2
def recPline : Nat := 3
def recChunk : Nat := 4
def recFolio : Nat := 5
def recFrame : Nat := 6
def recField : Nat := 7
def recDiscard : Nat := 8
def recLsa : Nat := 9
def recKid : Nat := 10
def recLdcfg : Nat := 11

/-- The length of a record in bytes (R166). -/
def JRec.len (r : JRec) : Nat :=
  match r.typ with
  | 1 => 80
  | 2 => 88
  | 3 => 80
  | 4 => 528
  | 5 => 32
  | 6 => 40
  | 7 => 32
  | 8 => 24
  | 9 => 24 + (r.data.headD 0 + 7) / 8 * 8
  | _ => 32

/-- The record bytes of a list. -/
def recBytes (l : List JRec) : Nat := l.foldl (fun a r => a + r.len) 0

/-- The number of the key of a KID. DESIGN CHOICE, notes/assumptions/18.md. -/
def State.keyOf (s : State) (kid : Nat) : Nat := (tgetD Kid.reset s.ciph.kids kid).key

/-- The next ASEQ, and the state with it used (R162). -/
def takeAseq (s : State) : Nat × State :=
  let a := s.dur.aseq
  (a, (s.modDur (fun d => { d with aseq := d.aseq + 1 })) |> setF F.DUR_ASEQ (a + 1))

/-- Capture a record under a given ASEQ into the build area (R168). -/
def captureAt (aseq typ ld kid addr : Nat) (data : List Nat) (s : State) : State :=
  s.modDur (fun d => { d with build := d.build ++ [⟨aseq, typ, ld, kid, addr, data, s.keyOf kid, s.now⟩] })

/-- Capture a record under the next ASEQ. -/
def capture (typ ld kid addr : Nat) (data : List Nat) (s : State) : State :=
  let (a, s1) := takeAseq s
  captureAt a typ ld kid addr data s1

/-- The 32 FCHUNK records of a frame image (R166, R171): 512 B each, eight lines. -/
def captureChunks (f : Frame) (s : State) : State :=
  seqAll (fun i t =>
    captureAt f.seq recChunk f.ld f.kid (dpaOf f.folio f.frame (8 * i) / 512)
      ((List.range 8).map (fun j => (tgetD 0 f.lines (8 * i + j)).toNat)) t) (List.range 32) s

end Sys2Proof.Machine
end

