-- ==== Sys2Proof/Machine/HostOps.lean ====
section
/-! DEFINITION. What the host port does for every request: events, responses and their credits, write protection
(02_host_port.md R25, R32, R40, R42, R43). -/

namespace Sys2Proof.Machine

/-- The state of an LD, 0 to 15, 16 the FM-owned LD. -/
def State.ld (s : State) (n : Nat) : LdSt := tgetD LdSt.reset s.host.lds n

/-- Change an LD. -/
def modLd (n : Nat) (f : LdSt → LdSt) (s : State) : State :=
  s.modHost (fun h => { h with lds := tmod LdSt.reset f h.lds n })

def modPort (p : Nat) (f : PortSt → PortSt) (s : State) : State :=
  s.modHost (fun h => { h with ports := tmod PortSt.reset f h.ports p })

/-- The port that serves an LD (R20): port 0 in the x16 configuration. -/
def State.ldPort (s : State) (n : Nat) : Nat :=
  if s.get F.HOST_LINK_CFG_BIFUR = 1 ∧ (s.get F.HOST_LD_PORT_PORT).testBit n then 1 else 0

/-- Is an LD allocated? -/
def State.ldAllocated (s : State) (n : Nat) : Bool := decide (0 < (s.ld n).blocks + (s.ld n).dcRegion)

/-- The allocated LDs. -/
def State.lds (s : State) : List Nat := (List.range 16).filter s.ldAllocated

/-- The extents after a change of the region: `old` and `new` are its first blocks, `size` its new size. An extent keeps its place in
the DPA range as far as the new region holds it; what lies below the region has become static capacity. -/
def extRebase (old new size : Nat) (l : List (Nat × Nat)) : List (Nat × Nat) :=
  (l.map (fun e =>
    let a := max (old + e.1) new
    let b := min (old + e.1 + e.2) (new + size)
    (a - new, b - a))).filter (fun e => decide (0 < e.2))

/-- HOST_LDn_STATUS.CAP_BLOCKS: static capacity plus added extents (R46). -/
def LdSt.capBlocks (l : LdSt) : Nat := l.extents.foldl (fun a e => a + e.2) l.blocks

/-- The DPA range of an LD in blocks (03_translation.md R47). -/
def LdSt.rangeBlocks (l : LdSt) : Nat := l.blocks + l.dcRegion

/-- Bring HOST_LDn_STATUS of an LD up to date (R20, R46). -/
def ldStatus (n : Nat) (s : State) : State :=
  s |> setB (F.HOST_LD_STATUS_ENABLED n) (s.ldAllocated n && (s.port (s.ldPort n)).up)
    |> setF (F.HOST_LD_STATUS_PORT n) (s.ldPort n)
    |> setF (F.HOST_LD_STATUS_CAP_BLOCKS n) (s.ld n).capBlocks

def ldStatusAll (s : State) : State := seqAll ldStatus (List.range 16) s

/-- Is a block of the DPA range backed (R25)? -/
def LdSt.backedBlock (l : LdSt) (b : Nat) : Bool :=
  decide (b < l.blocks) || l.extents.any (fun e => decide (l.blocks + e.1 ≤ b) && decide (b < l.blocks + e.1 + e.2))

/-- Is a DPA backed? -/
def State.backed (s : State) (n dpa : Nat) : Bool := (s.ld n).backedBlock (dpa / 2 ^ 28)

/-! ### Events (R40) -/

def logInfo : Nat := 0
def logWarning : Nat := 1
def logFailure : Nat := 2
def logFatal : Nat := 3
def logDynCap : Nat := 4

/-- The severity of the logbook record of an event log (16_spectrograph_and_logbook.md R382). PRESUMED, notes/assumptions/11.md. -/
def logSeverity (log : Nat) : Nat := [sevInfo, sevWarning, sevError, sevFatal, sevNotice].getD log sevInfo

/-- Send the event interrupt of an LD's view where its policy asks for it (R35, R45). PRESUMED, notes/assumptions/11.md. -/
def eventIrq (n log : Nat) (s : State) : State :=
  when (decide ((s.ld n).irqPolicy / 2 ^ (8 * log) % 4 = 1)) (msixSend n 1) s

/-- Raise an event on an LD: its log takes a record or counts it as dropped, and the logbook takes one with the first
8 bytes of the CXL record, which the spec does not lay out. PRESUMED, notes/assumptions/11.md. -/
def event (n log kind arg : Nat) (s : State) : State :=
  let l := s.ld n
  let recs := tgetD [] l.logs log
  let s1 := if recs.length < 64 then
      modLd n (fun l => { l with logs := tset l.logs log (recs ++ [⟨kind, arg⟩]) }) s
    else modLd n (fun l => { l with drops := tmod 0 (· + 1) l.drops log }) s
  let (w, s2) := takeNat (eventIrq n log s1)
  logPut (logSeverity log) 0x0101 n log (w % 2 ^ 32) (w / 2 ^ 32) s2

/-- The number of the 1 ms window of ephemeris time, plus 1. -/
def State.msWindow (s : State) : Nat := s.clk.tod / 1000000 + 1

/-- R25: one Informational event per window and LD for unbacked accesses. -/
def unbackedEvent (n dpa : Nat) (s : State) : State :=
  let s1 := setErr F.HOST_ERR_STATUS_UNMAPPED intHost s
  if (s.ld n).lastUnbacked = s.msWindow then s1
  else event n logInfo 0x10 dpa (modLd n (fun l => { l with lastUnbacked := s.msWindow }) s1)

/-- 09_cipher_and_meridian.md R220, R221: one Informational event per window and LD for KID refusals. Whether the discarded writes of
R220 and the poisoned reads of R221 have a window each is not stated; the model gives an LD one window for both.
DESIGN CHOICE, notes/assumptions/69.md. -/
def kidEvent (n dpa : Nat) (s : State) : State :=
  if (s.ld n).lastKid = s.msWindow then s
  else event n logInfo 0x20 dpa (modLd n (fun l => { l with lastKid := s.msWindow }) s)

/-! ### Write protection (R32) -/

def wpLedger : Nat := 1
def wpReserve : Nat := 2
def wpSanitize : Nat := 4

/-- Capture an LDCFG record: the LD's allocation, dynamic capacity and write protection (07_durability.md R166). The
payload's layout is not stated; the model holds its parts as numbers. -/
def ldCfg (n : Nat) (s : State) : State :=
  let l := s.ld n
  capture recLdcfg n 0 0 ([l.blocks, l.dcRegion, s.get (F.HOST_LD_STATUS_WP_CAUSE n)] ++ l.extents.flatMap (fun e => [e.1, e.2])) s

/-- Set a cause of an LD's write protection. -/
def wpSet (n bit : Nat) (s : State) : State :=
  let w := s.get (F.HOST_LD_STATUS_WP_CAUSE n)
  if (w &&& bit) ≠ 0 then s
  else s |> setF (F.HOST_LD_STATUS_WP_CAUSE n) (w ||| bit) |> ldCfg n |> logPut sevWarning 0x0103 n (w ||| bit) 0 0

/-- Clear a cause. -/
def wpClear (n bit : Nat) (s : State) : State :=
  let w := s.get (F.HOST_LD_STATUS_WP_CAUSE n)
  if (w &&& bit) = 0 then s else s |> setF (F.HOST_LD_STATUS_WP_CAUSE n) (w &&& (7 - bit)) |> ldCfg n

def State.wpAny (s : State) (n : Nat) : Bool := s.on (F.HOST_LD_STATUS_WP_CAUSE n)

/-! ### Credits and responses (R42, R43) -/

/-- Credit classes. -/
def credReq : Nat := 0
def credRwd : Nat := 1
def credNdr : Nat := 6
def credDrs : Nat := 7

/-- The credit class of a request. -/
def HReq.cls (r : HReq) : Nat := if r.wr then credRwd else credReq

/-- The credits a port grants, by class (R42). -/
def credGrant (cls : Nat) : Nat := [1024, 512, 64, 512, 64, 16].getD cls 0

/-- The key of a credit ledger index (11_regulation_and_ledgers.md R286). -/
def credIndex (port cls : Nat) : Nat := port * 8 + cls

/-- An imbalance is reported to a ledger: its left side moves (11_regulation_and_ledgers.md R279). DESIGN CHOICE, notes/assumptions/55.md. -/
def ledgerAdd (ledger idx : Nat) (d : Int) (s : State) : State :=
  s.modLedg (fun l => { l with delta := tmod 0 (· + d) l.delta (ledger * 65536 + idx) })

/-- A balanced reset sets both sides of one index to their reset values (11_regulation_and_ledgers.md R279). -/
def balancedReset (ledger idx : Nat) (s : State) : State :=
  (s.modLedg (fun l => { l with delta := terase l.delta (ledger * 65536 + idx) })) |> incF F.LEDG_RESET_CNT 1

/-- A credit imbalance of `n` on a port (R43): the excess is discarded and reported. -/
def credOverflow (port cls n : Nat) (s : State) : State :=
  s |> setErr F.HOST_ERR_STATUS_CRED_OVF intHost |> ledgerAdd 0 (credIndex port cls) n

/-- Requests of a class in the port. DESIGN CHOICE, notes/assumptions/15.md. -/
def State.inPort (s : State) (port cls : Nat) : Nat := tgetD 0 (s.port port).inPort cls

/-- Credits of a class that the host holds, and those free in the device (R42). -/
def State.heldCred (s : State) (port cls : Nat) : Nat := tgetD 0 (s.port port).held cls
def PortSt.freeCred (p : PortSt) (cls : Nat) : Nat := tgetD (credGrant cls) p.credFree cls

/-- The line tokens of the coalescing buffer, and those free (03_translation.md R71). -/
def lineTokens : Nat := 393216
def State.lineFree (s : State) : Nat := lineTokens - s.coal.toks.length

/-- The credits of a class that are free in the device go to the host. -/
def PortSt.grantCred (cls : Nat) (p : PortSt) : PortSt :=
  { p with held := tmod 0 (· + p.freeCred cls) p.held cls, credFree := tput (credGrant cls) p.credFree cls 0 }

/-- A request enters the port on a credit of its class. DESIGN CHOICE, notes/assumptions/15.md. -/
def credTake (port cls : Nat) (s : State) : State :=
  modPort port (fun p => { p with held := tmod 0 (· - 1) p.held cls, inPort := tmod 0 (· + 1) p.inPort cls }) s

/-- Its credit goes back to the host; an RwD credit stays free in the device while no line token is free to back it (R28, R42).
DESIGN CHOICE, notes/assumptions/15.md. -/
def credBack (port cls : Nat) (s : State) : State :=
  let stays := decide (cls = credRwd) && decide (s.lineFree = 0)
  modPort port (fun p =>
    if stays then { p with inPort := tmod 0 (· - 1) p.inPort cls, credFree := tput (credGrant cls) p.credFree cls (p.freeCred cls + 1) }
    else { p with inPort := tmod 0 (· - 1) p.inPort cls, held := tmod 0 (· + 1) p.held cls }) s

/-- A line token is free: the RwD credits held back go to the host (R28). -/
def credRelease (s : State) : State :=
  let due (p : Nat) : Bool := (s.port p).up && decide (0 < (s.port p).freeCred credRwd)
  if s.lineFree = 0 then s else seqAll (fun p t => if due p then modPort p (PortSt.grantCred credRwd) t else t) [0, 1] s

/-- Which S2M class a response uses. -/
def Out.s2m : Out → Nat
  | .cmp .. => credNdr
  | _ => credDrs

/-- The port of a response. -/
def Out.port : Out → Nat
  | .cmp p .. => p
  | .drs p .. => p
  | _ => 0

/-- Send a response on one S2M credit, with the counters of R375 and HOST_POISON_SENT. DESIGN CHOICE, notes/assumptions/15.md. -/
def respSend (o : Out) (s : State) : State :=
  let c := o.s2m
  let s1 := modPort o.port (fun p => { p with s2mFree := tmod 0 (· - 1) p.s2mFree c, s2mUsed := tmod 0 (· + 1) p.s2mUsed c }) s
  let s2 := emit o s1
  match o with
  | .drs _ ld _ _ poison _ =>
    let s3 := cnt bHOST 4 1 s2
    if poison then s3 |> incF F.HOST_POISON_SENT 1 |> cnt bHOST 6 1 |> cnt (bLD ld) 3 1 else s3
  | _ => cnt bHOST 5 1 s2

/-- A response leaves at once when a credit of its class is there and none waits before it; otherwise it waits (R42: the
device never sends beyond the credits granted). A port that is down sends nothing. -/
def respond (o : Out) (s : State) : State :=
  let p := s.port o.port
  if !p.up then s
  else if p.respQ.any (fun x => x.s2m == o.s2m) || decide (tgetD 0 p.s2mFree o.s2m = 0) then
    modPort o.port (fun p => { p with respQ := p.respQ ++ [o] }) s
  else respSend o s

/-- Responses that waited leave while credits last. -/
def respDrainN : Nat → Nat → State → State
  | 0, _, s => s
  | n + 1, p, s =>
    match (s.port p).respQ.find? (fun o => decide (0 < tgetD 0 (s.port p).s2mFree o.s2m)) with
    | some o => respDrainN n p (respSend o (modPort p (fun q => { q with respQ := q.respQ.erase o }) s))
    | none => s

def respDrain (p : Nat) (s : State) : State := respDrainN (s.port p).respQ.length p s

/-- Cmp for a write. -/
def sendCmp (r : HReq) (s : State) : State := respond (.cmp r.port r.ld r.tag (s.devLoad r.port r.ld 1)) s

/-- Data for a read. -/
def sendData (r : HReq) (d : Line) (poison : Bool) (s : State) : State :=
  respond (.drs r.port r.ld r.tag d poison (s.devLoad r.port r.ld 0)) s

/-- Poisoned data for a read: the data bits are not stated. -/
def sendPoison (r : HReq) (s : State) : State :=
  let (d, s1) := takeLine s
  sendData r d true s1

/-- A request answered at the link without service: poison for a read, Cmp and discard for a write. DEDUCED, notes/assumptions/27.md. -/
def refuseReq (r : HReq) (s : State) : State := if r.wr then sendCmp r s else sendPoison r s

/-- A write discarded under R25, R32 or R220, counted for its LD. -/
def discardWrite (r : HReq) (s : State) : State := s |> sendCmp r |> cnt (bLD r.ld) 4 1

/-- R11: a request while parked, or closing. DEDUCED, notes/assumptions/27.md. -/
def parkRefuse (r : HReq) (s : State) : State :=
  let s1 := s |> refuseReq r |> incF F.GLB_MODE_STATUS_REFUSED 1 |> setErr F.HOST_ERR_STATUS_PARK_REFUSE intHost
  let s2 := if s.glb.stayLds.contains r.ld then s1
    else event r.ld logWarning 0x30 r.dpa (s1.modGlb (fun g => { g with stayLds := r.ld :: g.stayLds }))
  if s.glb.stayAny then s2 else logOpen bGLB r.ld 0 (s2.modGlb (fun g => { g with stayAny := true }))

/-- R33: a request on a port after GPF phase 1, handled as R11 with the period up to the reset as one stay. -/
def gpfRefuse (r : HReq) (s : State) : State :=
  let s1 := s |> refuseReq r |> incF F.GLB_MODE_STATUS_REFUSED 1 |> setErr F.HOST_ERR_STATUS_PARK_REFUSE intHost
  let p := s.port r.port
  let s2 := if p.gpfLds.contains r.ld then s1
    else event r.ld logWarning 0x30 r.dpa (modPort r.port (fun p => { p with gpfLds := r.ld :: p.gpfLds }) s1)
  if p.gpfAny then s2 else logOpen bGLB r.ld 0 (modPort r.port (fun p => { p with gpfAny := true }) s2)

/-! ### The poison list (R31) -/

/-- Is a line on its LD's poison list? -/
def State.onPoisonList (s : State) (n dpa : Nat) : Bool := (s.ld n).poison.any (fun e => e.1 == dpa / 64)

/-- Enter a line on the list; a full list sets its overflow flag. -/
def poisonAdd (n dpa src : Nat) (s : State) : State :=
  let l := s.ld n
  if s.onPoisonList n dpa then s
  else if l.poison.length < 4096 then modLd n (fun l => { l with poison := l.poison ++ [(dpa / 64, src)] }) s
  else modLd n (fun l => { l with poisonOvf := true }) s

/-- Take a line off the list. -/
def poisonRemove (n dpa : Nat) (s : State) : State :=
  modLd n (fun l => { l with poison := l.poison.filter (fun e => e.1 != dpa / 64) }) s

end Sys2Proof.Machine
end

