-- ==== Sys2Proof/Machine/Journal.lean ====
section
/-! DEFINITION. The rapid journal: sequence numbers, capture, sealing, commit, forces (07_durability.md R162 to R171). -/

namespace Sys2Proof.Machine

/-! ### Sealing (R163, R165, R169) -/

/-- The records of one row: as many as fit 3,840 bytes. -/
def rowFill : Nat → List JRec → List JRec
  | _, [] => []
  | room, r :: t => if r.len ≤ room then r :: rowFill (room - r.len) t else []

/-- The groups with an open journal set. -/
def State.journalGroups (s : State) : List Nat :=
  ((s.fld.opens.filter (fun o => o.stream == 3 && (tgetD FRec.reset s.fld.tbl (setFieldNo o.set 0)).use == 1)).map (fun o => setGroup o.set)).eraseDups

/-- The group that a sealed row goes to: of those with an open journal quad the one whose next member can start soonest, that with the
fewest rows waiting, one whose dies run nothing first (R168). DESIGN CHOICE, notes/assumptions/16.md. -/
def State.journalGroup (s : State) (avoid : Option Nat) : Option Nat :=
  let busy (g : Nat) : Bool := (List.range 8).any (fun k => s.memberOut g k || decide ((tgetD DieSt.reset s.med.dies (memberCh g k * 8 + memberDie g)).op ≠ .none))
  lowest (fun g => ((s.dur.rows.filter (fun w => w.group == some g && !w.done)).length, (busy g).toNat))
    (s.journalGroups.filter (fun g => some g != avoid))

/-- Rows placed where `p` tells, that will not return DONE there, are sealed again into another group (R168). -/
def reseal (p : Nat → Bool) (s : State) : State :=
  let lost := s.dur.rows.filter (fun w => !w.done && w.placed.any p)
  seqAll (fun (w : Sealed) t =>
    let g := t.journalGroup (w.placed.map (fun a => setGroup (setOf a)))
    t.modDur (fun d => { d with rows := d.rows.map (fun x => if x.row.jseq = w.row.jseq then { x with placed := none, group := g } else x) })) lost s

/-- Seal one row of records with the given flags under the next JSEQ. -/
def sealRecs (drain drainEnd parkEnd : Bool) (recs : List JRec) (s : State) : State :=
  let d := s.dur
  let row : JRow := ⟨d.jseq, d.epoch, drain, drainEnd, parkEnd, s.get F.DUR_COMMIT_JSEQ, recs⟩
  (s.modDur (fun d => { d with
      jseq := (d.jseq + 1) % 2 ^ 48
      rows := d.rows ++ [⟨row, s.journalGroup none, none, false⟩]
      sinceCut := d.sinceCut + 3840 }))
    |> cnt bDUR 0 1 |> cnt bDUR 1 (recBytes recs)

/-- Seal the row that holds the oldest record of the build area, filled as far as records stand. DEDUCED, notes/assumptions/37.md. -/
def sealOne (drain : Bool) (s : State) : State :=
  match s.dur.build with
  | [] => s
  | r :: t =>
    let recs := r :: rowFill (3840 - r.len) t
    (s.modDur (fun d => { d with build := d.build.drop recs.length })) |> sealRecs drain false false recs

def sealAllN : Nat → Bool → State → State
  | 0, _, s => s
  | n + 1, drain, s => sealAllN n drain (sealOne drain s)

/-- Seal every record captured so far. -/
def sealAll (drain : Bool) (s : State) : State := sealAllN s.dur.build.length drain s

/-- R169: the oldest record of a partly filled row reaches LAG_US - 60 us. -/
def execJournalSealTimer (s : State) : Host.Outcome State Fault Refusal := .next (sealOne false s)

/-- The records of the build area take at most its 8 MiB (R168). What happens when a capture would overfill it the rules do not say;
the oldest row is sealed at once. DESIGN CHOICE, notes/assumptions/77.md. -/
def buildLimit (s : State) : State := if 2 ^ 23 < recBytes s.dur.build then sealOne false s else s

/-! ### Commit (R168, R170) -/

/-- The result a ring command waiting for a commit completes with (10_transit_rings.md R254, R259, R260). -/
def forceResult (s : State) (c : RCmd) : Nat := if c.op = 7 then s.get F.DUR_COMMIT_JSEQ else c.cntA

/-- A forced commit completes. -/
def forceDone (w : ForceFor) (s : State) : State :=
  match w with
  | .sync => setF F.DUR_SYNC_DONE 1 s
  | .ring id =>
    s.modRing (fun r => { r with cmds := r.cmds.map (fun c =>
      if c.id = id ∧ c.final = none then { c with waiting := 0, final := some (0, forceResult s c) } else c) })
  | .gpf p => emit (.gpfDone p) (modPort p (fun q => { q with gpf2 := false }) s)
  | .mbox v op => mboxDone v op 0 [] s
  | .mode => s

/-- The last JSEQ sealed. -/
def State.lastSealed (s : State) : Nat := s.dur.jseq - 1

/-- Complete every force that DUR_COMMIT covers. -/
def forcesCheck (s : State) : State :=
  let c := s.get F.DUR_COMMIT_JSEQ
  let ready := s.dur.forces.filter (fun f => decide (f.jseq ≤ c))
  seqAll (fun f t => forceDone f.what t) ready
    (s.modDur (fun d => { d with forces := d.forces.filter (fun f => decide (c < f.jseq)) }))

/-- Rows at the head that have returned DONE are committed, one after another (R168). -/
def commitRows : List Sealed → State → State
  | [], s => s
  | r :: t, s =>
    if r.done then
      commitRows t ((s.modDur (fun d => { d with rows := t }))
        |> setF F.DUR_COMMIT_JSEQ r.row.jseq |> incF F.DUR_LAG_CNT_COMMITS 1 |> cnt bDUR 2 1)
    else s

/-- Advance the commit. -/
def commitAdvance (s : State) : State := forcesCheck (commitRows s.dur.rows s)

/-- Has the record with this ASEQ been committed? -/
def State.committedAseq (s : State) (a : Nat) : Bool :=
  !(s.dur.build.any (fun r => r.aseq == a) || s.dur.rows.any (fun w => w.row.recs.any (fun r => r.aseq == a)))

/-- A journal row returns DONE: it stands on media; a row of the drain that ends it is noted (R168, R175). -/
def journalDone (jseq : Nat) (s : State) : State :=
  let done := s.dur.rows.filter (fun w => w.row.jseq == jseq)
  commitAdvance (s.modDur (fun d =>
    { d with
      rows := d.rows.map (fun w => if w.row.jseq = jseq then { w with done := true } else w)
      journal := done.foldl (fun t w => tset t w.row.jseq w.row) d.journal }))

/-- R169: a record is not committed within LAG_US. -/
def execLagMiss (ageUs : Nat) (s : State) : Host.Outcome State Fault Refusal :=
  .next (if s.dur.build = [] ∧ s.dur.rows = [] then s
    else s |> setErr F.DUR_ERR_STATUS_LAG_MISS intDur |> incF F.DUR_LAG_CNT_MISSES 1 |> cnt bDUR 3 1
      |> logPut sevWarning 0x0501 ageUs 0 0 0)

/-- A bypassed frame expires: its image is journalled (R171). -/
def bypassExpire (tok : Nat) (s : State) : State :=
  match tget s.coal.frames tok with
  | some f =>
    if f.bypass then
      (s.modCoal (fun c => { c with frames := tset c.frames tok { f with bypass := false } }))
        |> captureChunks f |> cnt bDUR 6 1
    else s
  | none => s

def execBypassExpire (tok : Nat) (s : State) : Host.Outcome State Fault Refusal :=
  .next (sealAll false (bypassExpire tok s))

/-- A forced commit (R170): bypassed frames expire, what was captured is sealed, the force completes when DUR_COMMIT
covers it. -/
def forceCommit (w : ForceFor) (s : State) : State :=
  let s1 := seqAll bypassExpire (s.coal.frames.map (·.1)) s
  let s2 := sealAll false s1
  forcesCheck ((s2.modDur (fun d => { d with forces := d.forces ++ [⟨s2.lastSealed, w⟩] })) |> cnt bDUR 4 1)

/-- Whether bypass is active (R171, R193). -/
def bypassStatus (s : State) : State :=
  setB F.DUR_STATUS_BYPASS_ACTIVE (s.on F.DUR_CTL_BYPASS_EN && s.on F.DUR_STATUS_HU_OK && s.dur.huRose) s

/-- HU_OK changes (R171): a fall suspends bypass, and sets HU_LOW while ACTIVE. -/
def huOkChange (level : Bool) (s : State) : State :=
  let fell := s.on F.DUR_STATUS_HU_OK && !level
  (s.modDur (fun d => { d with huRose := d.huRose || level })) |> setB F.DUR_STATUS_HU_OK level
    |> when (fell && decide (s.glb.mode = .active)) (setErr F.DUR_ERR_STATUS_HU_LOW intDur)
    |> (fun t => t.modDome (fun d => { d with huOk := level })) |> bypassStatus

def execHuOkChange (level : Bool) (s : State) : Host.Outcome State Fault Refusal := .next (huOkChange level s)

end Sys2Proof.Machine
end

