-- ==== Sys2Proof/Machine/Fields.lean ====
section
/-! DEFINITION. The field table: states, allocation, scores, wear, reserve and warnings (06_field_management.md R131 to
R145, R149, R156, R157). -/

namespace Sys2Proof.Machine

/-! ### Records -/

def fFree : Nat := 0
def fOpen : Nat := 1
def fClosed : Nat := 2
def fVerified : Nat := 3
def fRetired : Nat := 4
def fBad : Nat := 5

def causeProgram : Nat := 1
def causeErase : Nat := 2
def causeVerify : Nat := 3
def causeWorn : Nat := 4
def causeDie : Nat := 5
def causeWithSet : Nat := 6

def streamHost : Nat := 0
def streamCollect : Nat := 1
def streamCold : Nat := 2
def streamSystem : Nat := 3

/-- The record of a field. -/
def State.frec (s : State) (fno : Nat) : FRec := tgetD FRec.reset s.fld.tbl fno

/-- A field record as its 128 bits (R134). -/
def FRec.word (r : FRec) : Nat :=
  r.st * 2 ^ 125 + r.mode1.toNat * 2 ^ 124 + r.use * 2 ^ 121 + r.cause * 2 ^ 118 + r.stream * 2 ^ 116
    + r.victim.toNat * 2 ^ 115 + r.pinned.toNat * 2 ^ 114 + r.erasePend.toNat * 2 ^ 113 + r.ec * 2 ^ 96
    + r.valid * 2 ^ 83 + r.rows * 2 ^ 70 + r.openSeq

/-- A field record from its 128 bits. -/
def FRec.ofWord (w : Nat) : FRec where
  st := w / 2 ^ 125 % 8
  mode1 := w.testBit 124
  use := w / 2 ^ 121 % 8
  cause := w / 2 ^ 118 % 8
  stream := w / 2 ^ 116 % 4
  victim := w.testBit 115
  pinned := w.testBit 114
  erasePend := w.testBit 113
  ec := w / 2 ^ 96 % 2 ^ 17
  valid := w / 2 ^ 83 % 2 ^ 13
  rows := w / 2 ^ 70 % 2 ^ 13
  openSeq := w % 2 ^ 64

/-- Store a field record: a narrow write of 16 B to the field table (R134; 08_working_memory.md R205). -/
def putFrec (fno : Nat) (r : FRec) (s : State) : State :=
  wmWriteBytes (s.get F.FLD_TBL_BASE * 2 ^ 20 + fno * 16) 16 r.word (s.modFld (fun f => { f with tbl := tput FRec.reset f.tbl fno r }))

/-- Change a field record without a transition. -/
def modFrec (fno : Nat) (g : FRec → FRec) (s : State) : State := putFrec fno (g (s.frec fno)) s

/-- A state transition of a field, journalled as a FIELD record (07_durability.md R166). -/
def fieldTo (fno : Nat) (g : FRec → FRec) (s : State) : State :=
  let r := g (s.frec fno)
  capture recField 0 0 fno [r.word] (putFrec fno r s)

/-- The eight fields of a set. -/
def setFields (set : Nat) : List Nat := (List.range 8).map (setFieldNo set)

/-- The set a field number belongs to. -/
def fieldSet (fno : Nat) : Nat := setOf (fno * 8192)

/-- A transition of each of the set's fields that is not BAD. -/
def setTo (set : Nat) (g : FRec → FRec) (s : State) : State :=
  seqAll (fun fno t => if (s.frec fno).st = fBad then t else fieldTo fno g t) (setFields set) s

/-- A change of each of the set's fields. -/
def modSet (set : Nat) (g : FRec → FRec) (s : State) : State := seqAll (fun fno t => modFrec fno g t) (setFields set) s

/-- The state of a set: that of its fields that are not BAD (R131), BAD where all are. -/
def State.setState (s : State) (set : Nat) : Nat :=
  (((setFields set).map (fun f => (s.frec f).st)).find? (· != fBad)).getD fBad

/-- The valid units of a set (R135). -/
def State.setV (s : State) (set : Nat) : Nat := (setFields set).foldl (fun a f => a + (s.frec f).valid) 0

/-- The EC of a set: the highest ERASE_CNT among its fields that are not BAD (R144). -/
def State.setEc (s : State) (set : Nat) : Nat :=
  (setFields set).foldl (fun a f => if (s.frec f).st = fBad then a else max a (s.frec f).ec) 0

/-- wear_class (R144). -/
def wearClass (ec : Nat) : Nat := min 15 (ec * 16 / 5000)

/-- Is a field of the set BAD? -/
def State.setBad (s : State) (set : Nat) : Bool := (setFields set).any (fun f => (s.frec f).st == fBad)

/-! ### Regions and installed sets (R132, R137) -/

/-- A system set, as the image declares (12_voxsicel_image.md R293). -/
def State.isSystem (s : State) (set : Nat) : Bool := (tget s.img.sysSets set).isSome

/-- The mode that the field manager erases a set for (04_media_channels.md R81): what the image declares of a system set, 4-bit
otherwise. -/
def State.setMode1 (s : State) (set : Nat) : Bool := (tget s.img.sysSets set).any (·.2)

/-- The plates that are present. -/
def State.plateHere (s : State) (p : Nat) : Bool := s.dome.prsnt.testBit p

/-- The sets of groups 0 to 15, or 16 to 31, are installed: all eight plates of the half are present. -/
def State.halfHere (s : State) (h : Nat) : Bool := (List.range 8).all (fun i => s.plateHere (8 * h + i))

def State.setInstalled (s : State) (set : Nat) : Bool := s.halfHere (setGroup set / 16)

/-- The number of installed sets. -/
def State.installedSets (s : State) : Nat := ((s.halfHere 0).toNat + (s.halfHere 1).toNat) * 16 * 32768

/-- The number of installed fields: every field on a present plate. -/
def State.installedFields (s : State) : Nat := ((List.range 16).filter s.plateHere).length * 524288

/-- The number of installed data sets. -/
def State.dataSets (s : State) : Nat :=
  s.installedSets - (s.img.sysSets.filter (fun p => s.setInstalled p.1)).length

/-- The data sets that some field record names, installed or not. -/
def State.namedSets (s : State) : List Nat := ((s.fld.tbl.map (fun p => fieldSet p.1)).eraseDups).filter (fun x => !s.isSystem x)

/-- The installed data sets that some field record names. -/
def State.listedSets (s : State) : List Nat := s.namedSets.filter s.setInstalled

/-- A FREE set: every field FREE. -/
def State.setFree (s : State) (set : Nat) : Bool := (setFields set).all (fun f => (s.frec f).st == fFree)

/-- F: the FREE data sets. -/
def State.freeSets (s : State) : Nat := s.dataSets - (s.listedSets.filter (fun x => !s.setFree x)).length

/-- The FREE fields on the plates present (R137): those without a record, and those whose record says so. -/
def State.fieldsFree (s : State) : Nat :=
  let here := s.fld.tbl.filter (fun p => s.plateHere (plateOf (pfaCh (p.1 * 8192))))
  (s.installedFields - here.length) + (here.filter (fun p => p.2.st == fFree)).length

/-- Fields in a state, FREE apart. -/
def State.fieldsIn (s : State) (st : Nat) : Nat :=
  (s.fld.tbl.filter (fun p => p.2.st == st && s.plateHere (plateOf (pfaCh (p.1 * 8192))))).length

/-! ### Warnings (R157, R158) -/

/-- A percentage of RES (R145). -/
def State.resPct (s : State) (p : Nat) : Nat := s.get F.FLD_RESERVE_RESERVE_SETS * p / 100

/-- Raise one level. -/
def levelRaise (lv : Nat) (s : State) : State :=
  let sev := [sevWarning, sevError, sevCritical].getD (lv - 1) sevCritical
  s |> setF F.FLD_STATUS_LEVEL lv |> logPut sev 0x0601 lv (s.get F.FLD_STATUS_FREE_SETS) 0 0
    |> (fun t => seqAll (fun n u => event n logWarning 0x50 lv u) t.lds t)
    |> when (decide (lv = 3)) (setErr F.FLD_ERR_STATUS_LAST_RESERVE intFld)

/-- Raise and clear the free-set warnings after F has changed (R157). -/
def freeWarn (s : State) : State :=
  let f := s.get F.FLD_STATUS_FREE_SETS
  if s.get F.FLD_RESERVE_RESERVE_SETS = 0 then s
  else
    let s1 := if f ≤ s.resPct 10 ∧ s.get F.FLD_STATUS_LEVEL < 1 then levelRaise 1 s else s
    let s2 := if f ≤ s.resPct 3 ∧ s1.get F.FLD_STATUS_LEVEL < 2 then levelRaise 2 s1 else s1
    let s3 := if f ≤ s.resPct 1 ∧ s2.get F.FLD_STATUS_LEVEL < 3 then levelRaise 3 s2 else s2
    let s4 := if s.resPct 3 < f then
        (seqAll (fun n t => wpClear n wpReserve t) (List.range 16)
          (if s3.get F.FLD_STATUS_LEVEL = 3 then setF F.FLD_STATUS_LEVEL 2 s3 else s3)) else s3
    let s5 := if s.resPct 10 < f ∧ s4.get F.FLD_STATUS_LEVEL = 2 then setF F.FLD_STATUS_LEVEL 1 s4 else s4
    if s.resPct (s.get F.FLD_GC_CFG_START_PCT) < f ∧ s5.get F.FLD_STATUS_LEVEL = 1 then setF F.FLD_STATUS_LEVEL 0 s5
    else s5

/-! ### Wear (R149, R150) -/

/-- A campaign starts or goes on. -/
def campaignStart (s : State) : State :=
  (s.modFld (fun f => { f with campaignEnd := false })) |> setF F.FLD_STATUS_WEAR_ACTIVE 1
    |> setF F.FLD_WEAR_STATUS_CAMPAIGN 1

/-- A campaign ends. -/
def campaignStop (s : State) : State :=
  (s.modFld (fun f => { f with campaignEnd := false })) |> setF F.FLD_STATUS_WEAR_ACTIVE 0
    |> setF F.FLD_WEAR_STATUS_CAMPAIGN 0

/-- The spread of EC over the data sets that are neither RETIRED nor hold a BAD field. -/
def wearStatus (s : State) : State :=
  let sets := s.listedSets.filter (fun x => s.setState x != fRetired && !s.setBad x)
  let ecs := sets.map s.setEc
  let hi := ecs.foldl max 0
  let lo := if s.listedSets.length < s.dataSets then 0 else ecs.foldl min hi
  let hit := decide (s.get F.FLD_WEAR_CFG_SPREAD ≤ hi - lo) && decide (0 < s.dataSets)
  let rose := hit && !s.on F.FLD_WEAR_STATUS_SPREAD_HIT
  s |> setF F.FLD_WEAR_STATUS_MAX_EC hi |> setF F.FLD_WEAR_STATUS_MIN_EC lo |> setB F.FLD_WEAR_STATUS_SPREAD_HIT hit
    |> when rose (raiseInt intWear)
    |> when (rose && s.on F.FLD_CTL_WEAR_AUTO) campaignStart
    |> when (s.on F.FLD_WEAR_STATUS_CAMPAIGN &&
        decide (hi - lo ≤ s.get F.FLD_WEAR_CFG_SPREAD - s.get F.FLD_WEAR_CFG_HYST)) campaignStop

/-- F has crossed START_PCT or STOP_PCT. DEDUCED, notes/assumptions/34.md. -/
def gcHyst (s : State) : State :=
  let f := s.get F.FLD_STATUS_FREE_SETS
  s.modFld (fun x => { x with
    gcOn := if s.resPct (s.get F.FLD_GC_CFG_STOP_PCT) ≤ f then false
            else x.gcOn || decide (f < s.resPct (s.get F.FLD_GC_CFG_START_PCT)) })

/-- Bring FLD_POP_A to C, F, the warnings and the spread up to date after a transition (R137, R157, R149). -/
def fldRecount (s : State) : State :=
  let n := s.fieldsIn
  s |> setF F.FLD_POP_A_FREE s.fieldsFree |> setF F.FLD_POP_A_OPEN (n fOpen)
    |> setF F.FLD_POP_B_CLOSED (n fClosed) |> setF F.FLD_POP_B_VERIFIED (n fVerified)
    |> setF F.FLD_POP_C_RETIRED (n fRetired) |> setF F.FLD_POP_C_BAD (n fBad)
    |> setF F.FLD_STATUS_FREE_SETS s.freeSets
    |> gcHyst |> freeWarn |> wearStatus

/-! ### Scores (R142, R143) -/

/-- The age class of a set: that of its record, 0 where it is invalid (05_drift_and_references.md R111). -/
def State.ageClass (s : State) (set : Nat) : Nat :=
  match tget s.drift.recs set with
  | some r => if r.valid then r.cls else 0
  | none => 0

/-- The victim score under weights A and W. -/
def scoreOf (v age wear a w : Nat) : Int :=
  Int.tdiv (1024 * ((setUnits : Int) - v)) setUnits + (a : Int) * age - (w : Int) * wear

def State.score (s : State) (set : Nat) : Int :=
  scoreOf (s.setV set) (s.ageClass set) (wearClass (s.setEc set)) (s.get F.FLD_WEIGHTS_A) (s.get F.FLD_WEIGHTS_W)

/-- Eligible as a victim (R142). -/
def State.eligible (s : State) (set : Nat) : Bool :=
  !s.isSystem set && s.setInstalled set &&
    (setFields set).any (fun f => (s.frec f).st == fVerified) &&
    (setFields set).all (fun f => let r := s.frec f
      (r.st == fBad || (r.st == fVerified && r.use == 0)) && !r.victim && !r.pinned)

/-- Move a set to its bin after V, its age class or its eligibility has changed; it enters the bin last. A set whose V
is 0 is not scored. While a rebin runs the set keeps the bin it stands in unless it leaves the scored sets. -/
def rescore (set : Nat) (s : State) : State :=
  if s.eligible set && decide (s.setV set ≠ 0) then
    let bin := (s.score set + 2048).toNat
    match tget s.fld.bins set with
    | some (b, _) =>
      if b = bin then s
      else s.modFld (fun f => { f with bins := tset f.bins set (bin, f.stamp), stamp := f.stamp + 1 })
    | none => s.modFld (fun f => { f with bins := tset f.bins set (bin, f.stamp), stamp := f.stamp + 1 })
  else s.modFld (fun f => { f with bins := terase f.bins set })

/-- The first set of the highest non-empty bin. DESIGN CHOICE, notes/assumptions/67.md. -/
def State.topVictim (s : State) : Option (Nat × Nat) :=
  s.fld.bins.foldl (fun best p =>
    match best with
    | none => some (p.1, p.2.1)
    | some (bs, bb) =>
      let st := (tgetD (0, 0) s.fld.bins bs).2
      if bb < p.2.1 ∨ (bb = p.2.1 ∧ p.2.2 < st) then some (p.1, p.2.1) else best) none

/-! ### Erase when V reaches 0 (R136, R143) -/

/-- A field of the set has reached RETIRE_EC. -/
def State.setWorn (s : State) (set : Nat) : Bool := (setFields set).any (fun f => decide (s.get F.FLD_WEAR_CFG_RETIRE_EC ≤ (s.frec f).ec))

/-- A CLOSED or VERIFIED set whose V is 0 waits for its erase; it retires when a member is BAD, a field has reached RETIRE_EC or
the set is pinned (R153), but not where a plate bears a new identity (R137). -/
def eraseCheck (set : Nat) (s : State) : State :=
  let st := s.setState set
  if (st = fClosed ∨ st = fVerified) ∧ s.setV set = 0 ∧ !s.isSystem set ∧ !s.fld.eraseQ.contains set then
    let retire := (s.setBad set || s.setWorn set || (setFields set).any (fun f => (s.frec f).pinned))
      && !s.fld.newPlate.contains set
    (seqAll (fun f t => if (s.frec f).st = fBad then t else modFrec f (fun r => { r with erasePend := true }) t)
      (setFields set) s).modFld (fun f =>
        { f with
          eraseQ := f.eraseQ ++ [set]
          verifyQ := f.verifyQ.filter (· != set)
          relocQ := f.relocQ.filter (· != set)
          holds := terase f.holds set
          toRetire := if retire then set :: f.toRetire else f.toRetire })
      |> rescore set
  else s

/-- A slot becomes valid: one unit more in its field. -/
def unitAdd (pfa : Nat) (s : State) : State :=
  rescore (setOf pfa) (modFrec (pfaFieldNo pfa) (fun r => { r with valid := r.valid + 1 }) s)

/-- A slot is no longer valid. -/
def unitSub (pfa : Nat) (s : State) : State :=
  eraseCheck (setOf pfa) (rescore (setOf pfa) (modFrec (pfaFieldNo pfa) (fun r => { r with valid := r.valid - 1 }) s))

/-- One retirement is charged to the spare (R156). -/
def chargeSpare (s : State) : State :=
  let n := s.get F.FLD_SPARE_RETIRED_SETS + 1
  let sp := s.get F.FLD_RESERVE_SPARE_SETS
  s |> setF F.FLD_SPARE_RETIRED_SETS n |> setF F.FLD_SPARE_SPARE_LEFT (sp - n) |> cnt bFLD 12 1
    |> when (decide (sp < n)) (fun t => t |> setF F.FLD_SPARE_SPARE_OUT 1 |> setErr F.FLD_ERR_STATUS_SPARE_OUT intFld)

/-- A set retires: its fields that are not BAD go RETIRED. Which field of a worn set is 'worn' and which 'retired with its set' the
table does not say; every field of the set takes the one cause. DESIGN CHOICE, notes/assumptions/76.md. -/
def retireSet (set : Nat) (s : State) : State :=
  let worn := !s.setBad set && s.setWorn set
  s |> setTo set (fun r => { r with st := fRetired, cause := if worn then causeWorn else causeWithSet, erasePend := false,
                                    victim := false, pinned := false, valid := 0 })
    |> chargeSpare
    |> (fun t => t.modFld (fun f => { f with toRetire := f.toRetire.filter (· != set), eraseQ := f.eraseQ.filter (· != set),
                                             erasing := f.erasing.filter (· != set), relocQ := f.relocQ.filter (· != set),
                                             verifyQ := f.verifyQ.filter (· != set), holds := terase f.holds set }))
    |> rescore set |> fldRecount

/-- SPARE_LEFT and SPARE_OUT follow SPARE_SETS and RETIRED_SETS (R156, R159). -/
def spareStatus (s : State) : State :=
  let n := s.get F.FLD_SPARE_RETIRED_SETS
  let sp := s.get F.FLD_RESERVE_SPARE_SETS
  s |> setF F.FLD_SPARE_SPARE_LEFT (sp - n) |> setB F.FLD_SPARE_SPARE_OUT (decide (sp < n))

/-- The last erase of a set has ended: its fields return to FREE, or retire (R136). -/
def eraseEnd (set : Nat) (s : State) : State :=
  if s.fld.toRetire.contains set || s.setBad set then retireSet set s
  else
    s |> setTo set (fun r => { FRec.reset with ec := r.ec, mode1 := r.mode1, use := if s.isSystem set then r.use else 0 })
      |> (fun t => t.modFld (fun f => { f with eraseQ := f.eraseQ.filter (· != set), erasing := f.erasing.filter (· != set),
                                               newPlate := f.newPlate.filter (· != set), holds := terase f.holds set }))
      |> rescore set |> fldRecount

/-! ### Allocation (R133, R138, R139) -/

/-- A FREE data set of the data region that may be opened. -/
def State.allocatable (s : State) (set : Nat) : Bool := s.setInstalled set && !s.isSystem set && s.setFree set

/-- The SET value of a group, plane and field. -/
def mkSet (g plane field : Nat) : Nat := g * 32768 + plane * 8192 + field

/-- The FIELD numbers of the free list of wear class w in group g, ascending. -/
def State.freeList (s : State) (g w : Nat) : List Nat :=
  if w = 0 then List.range 8192
  else ((s.fld.tbl.filter (fun p => decide (wearClass p.2.ec = w) && setGroup (fieldSet p.1) == g)).map
    (fun p => setField (fieldSet p.1))).eraseDups.mergeSort

/-- A set of the list. -/
def State.inList (s : State) (g w plane field : Nat) : Bool :=
  let x := mkSet g plane field
  s.allocatable x && decide (wearClass (s.setEc x) = w)

/-- The order in which a stream searches the lists (R138). -/
def wearOrder (stream : Nat) : List Nat := if stream = streamCold then (List.range 16).reverse else List.range 16

/-- The single set a stream takes: the lowest SET value in the first list that is not empty. -/
def State.pickOne (s : State) (g stream : Nat) : Option Nat :=
  (wearOrder stream).findSome? (fun w =>
    (List.range 4).findSome? (fun p => ((s.freeList g w).find? (fun f => s.inList g w p f)).map (fun f => mkSet g p f)))

/-- The sets the allocator opens in group g for a stream: a whole quad if one is free, otherwise a single set (R138).
DESIGN CHOICE, notes/assumptions/16.md. -/
def State.pickFree (s : State) (g stream : Nat) : List Nat :=
  match (wearOrder stream).findSome? (fun w =>
    (s.freeList g w).find? (fun f =>
      (List.range 4).any (fun p => s.inList g w p f) && (List.range 4).all (fun p => s.allocatable (mkSet g p f)))) with
  | some f => (List.range 4).map (fun p => mkSet g p f)
  | none => (s.pickOne g stream).toList

/-- How many hold slots are free (R139). -/
def State.holdsFree (s : State) : Nat := s.get F.FLD_BUF_CFG_HOLD_SLOTS - s.fld.holds.length

/-- The lowest free hold slot (R139). -/
def State.freeHold (s : State) : Option Nat :=
  (List.range (s.get F.FLD_BUF_CFG_HOLD_SLOTS)).find? (fun k => !s.fld.holds.any (fun p => p.2 == k))

/-- A set opens (R136): OPEN_SEQ, ROWS 0, a hold slot for a 4-bit set. A 4-bit set that finds no hold slot does not open. A field's
mode was set at its erase (04_media_channels.md R81); one that the device has never erased comes erased in the mode it opens in.
DESIGN CHOICE, notes/assumptions/34.md. -/
def openSet (stream use : Nat) (mode1 quad : Bool) (set : Nat) (s : State) : State :=
  if !mode1 && s.freeHold.isNone then setErr F.FLD_ERR_STATUS_HOLD_EMPTY intFld s
  else
    let (seq, s1) := takeAseq s
    let hold := if mode1 then none else s.freeHold
    let s2 := setTo set (fun r => { r with st := fOpen, mode1 := if r.ec = 0 then mode1 else r.mode1, use := use, cause := 0, stream := stream,
                                           victim := false, pinned := false, valid := 0, rows := 0, openSeq := seq }) s1
    let o : OpenSet := ⟨set, stream, 0, if mode1 then 2 ^ 16 - 1 else 0, 0, 0, hold, s2.dur.aseq - 1, quad⟩
    (s2.modFld (fun f =>
      { f with
        opens := f.opens ++ [o]
        holds := match hold with | some k => tset f.holds set k | none => f.holds
        jobs := if mode1 then f.jobs
          else (List.range 16).foldl (fun j i => tset j (setPfa set (i / 2) (i % 2)) RowJob.star) f.jobs }))
      |> cnt bFLD 0 1 |> rescore set |> fldRecount

/-- The COLD stream opens nothing at or below 1 % of RES but for SEAL jobs while the pool is critical (R158). -/
def State.mayOpen (s : State) (stream : Nat) : Bool :=
  stream != streamCold || s.get F.FLD_RESERVE_RESERVE_SETS == 0 || decide (s.resPct 1 < s.get F.FLD_STATUS_FREE_SETS)
    || s.on F.XLAT_POOL_STATUS_CRIT

/-- The open sets of a stream in a group. -/
def State.openOf (s : State) (g stream : Nat) : List OpenSet :=
  s.fld.opens.filter (fun o => o.stream == stream && setGroup o.set == g)

/-- The sets a stream opens next in a group, which holds at most one open quad or four open single sets (R138): a quad, or a single
set, where none is open; a single set where fewer than four are, or where hold slots are short of four (R139). -/
def State.pickNext (s : State) (g stream : Nat) : List Nat :=
  let n := (s.openOf g stream).length
  if n = 0 ∧ 4 ≤ s.holdsFree then s.pickFree g stream else if n < 4 then (s.pickOne g stream).toList else []

/-- A stream opens its next sets in a group. -/
def openStream (g stream : Nat) (s : State) : State :=
  let l := s.pickNext g stream
  if !s.mayOpen stream then s else seqAll (fun x t => openSet stream 0 false (l.length == 4) x t) l s

/-- Change an open set. -/
def modOpen (set : Nat) (f : OpenSet → OpenSet) (s : State) : State :=
  s.modFld (fun x => { x with opens := x.opens.map (fun o => if o.set = set then f o else o) })

/-! ### Closing and verify (R136, R141) -/

/-- A CLOSED set becomes VERIFIED: its hold slot is released. -/
def setVerified (set : Nat) (s : State) : State :=
  s |> setTo set (fun r => { r with st := fVerified })
    |> (fun t => t.modFld (fun f => { f with holds := terase f.holds set, verifyQ := f.verifyQ.filter (· != set) }))
    |> cnt bFLD 2 1 |> rescore set |> eraseCheck set |> fldRecount

/-- A set closes: a 4-bit set queues a VERIFY, or is VERIFIED at once while VERIFY_EN is 0 (R141); with `fail` it queues a
RELOCATE. Rows that were never programmed leave the job table. -/
def closeSet (set : Nat) (fail : Bool) (s : State) : State :=
  match s.fld.opens.find? (fun o => o.set == set) with
  | none => s
  | some o =>
    let mode1 := (setFields set).any (fun f => (s.frec f).mode1)
    let s1 := (s |> setTo set (fun r => { r with st := fClosed, rows := o.row })).modFld (fun f =>
      { f with
        opens := f.opens.filter (fun x => x.set != set)
        jobs := f.jobs.filter (fun p => setOf p.1 != set)
        relocQ := if fail && !s.isSystem set then f.relocQ ++ [set] else f.relocQ
        verifyQ := if fail || mode1 then f.verifyQ else f.verifyQ ++ [set] })
    let s2 := cnt bFLD 1 1 s1
    if !fail && !mode1 && !s.on F.FLD_CTL_VERIFY_EN then setVerified set s2
    else s2 |> eraseCheck set |> fldRecount

/-- A frame of the set could be read by no job (R153). -/
def State.setPinned (s : State) (set : Nat) : Bool := (setFields set).any (fun f => (s.frec f).pinned)

/-- A set is to be relocated, if it holds valid units; otherwise it is erased or retired (R136, R152). A pinned set is ineligible for
every job (R153). -/
def relocate (set : Nat) (s : State) : State :=
  if s.fld.relocQ.contains set then s
  else if s.setV set = 0 then eraseCheck set s
  else if s.setPinned set then s
  else s.modFld (fun f => { f with relocQ := f.relocQ ++ [set], verifyQ := f.verifyQ.filter (· != set) })

/-- A field goes BAD with a cause. -/
def fieldBad (fno cause : Nat) (s : State) : State :=
  s |> fieldTo fno (fun r => { r with st := fBad, cause := cause, erasePend := false })
    |> logPut sevError 0x0602 cause (fno * 8192 % 2 ^ 32) (fno * 8192 / 2 ^ 32) 0

end Sys2Proof.Machine
end

