-- ==== Sys2Proof/Machine/MapCache.lean ====
section
/-! DEFINITION. The map cache (03_translation.md R60 to R70): placement, replacement, line states, maintenance, and the
two ways a map word is reached: the lookup path with its misses, and the atomic access of the device's own units. -/

namespace Sys2Proof.Machine

/-! ### Placement (R60) -/

/-- The map line that holds an 8 B word (byte address / 8). -/
def mapLineOf (word : Nat) : Nat := word / 64
def mapSlice (l : Nat) : Nat := (l % 8) ^^^ (l / 2 ^ 9 % 8)
def mapBank (l : Nat) : Nat := (l / 8 % 8) ^^^ (l / 2 ^ 12 % 8)
def mapSet (l : Nat) : Nat := l / 64 % 64
def mapTag (l : Nat) : Nat := l / 2 ^ 12 % 2 ^ 19
/-- The number of a bank, slice × 8 + bank. -/
def bankNo (l : Nat) : Nat := mapSlice l * 8 + mapBank l
/-- The key of a way. -/
def wayKey (l way : Nat) : Nat := (bankNo l * 64 + mapSet l) * 16 + way
/-- The sector of a word in its line. -/
def sectorOf (word : Nat) : Nat := word / 8 % 8

/-- The line under a key of the cache. -/
def State.mline (s : State) (k : Nat) : MapLine := tgetD MapLine.reset s.xlat.lines k
/-- Change a line. -/
def modLine (k : Nat) (f : MapLine → MapLine) (s : State) : State :=
  s.modXlat (fun x => { x with lines := tmod MapLine.reset f x.lines k })
/-- The map line address of a cached line, from its key and tag. -/
def lineAddr (k tag : Nat) : Nat :=
  let set := k / 16 % 64
  tag * 4096 + set * 64 + ((k / 1024 % 8) ^^^ (tag % 8)) * 8 + ((k / 8192) ^^^ (set / 8))

/-- The ways lookups allocate into (R63, R69). -/
def State.cacheWays (s : State) : Nat := 16 - s.get F.MAPC_SCRATCH_WAYS

/-- The way that holds line `l`. -/
def State.findWay (s : State) (l : Nat) : Option Nat :=
  (List.range 16).find? (fun w => let m := s.mline (wayKey l w)
    m.st != .invalid && m.tag == mapTag l)

/-- Every lookup bypasses the cache: EN is 0 and its writeback has ended (R68). -/
def State.cacheBypass (s : State) : Bool := !s.on F.MAPC_CTL_EN && !s.on F.MAPC_STATUS_DRAINING

/-! ### Replacement (R63) -/

/-- One step of the LFSR. -/
def lfsrStep (v : Nat) : Nat :=
  let b (i : Nat) : Nat := v / 2 ^ i % 2
  v / 2 + (b 0 + b 2 + b 3 + b 5) % 2 * 2 ^ 15

/-- Is a fill in flight into the line? -/
def State.filling (s : State) (k : Nat) : Bool :=
  s.xlat.misses.any (fun m => !m.2.wait && m.2.way != 16 && wayKey m.2.line m.2.way == k)

/-- The line cannot be replaced now: it is FILLING or WRITEBACK, or a fill is in flight into it. -/
def State.lineBusy (s : State) (k : Nat) : Bool :=
  (s.mline k).st == .filling || (s.mline k).st == .writeback || s.filling k

/-- The first way from w on that is neither FILLING nor WRITEBACK. -/
def State.settleWay (s : State) (l c : Nat) : Nat → Nat → Option Nat
  | 0, _ => none
  | n + 1, w => if s.lineBusy (wayKey l w) then s.settleWay l c n ((w + 1) % c) else some w

/-- The way a lookup of line `l` allocates, and the state with the LFSR advanced. -/
def chooseWay (l : Nat) (s : State) : Option Nat × State :=
  let c := s.cacheWays
  match (List.range c).find? (fun w => (s.mline (wayKey l w)).st == .invalid) with
  | some w => (some w, s)
  | none =>
    let v := lfsrStep (s.get (F.MAPC_SLICE_LFSR_STATE (mapSlice l)))
    let s1 := setF (F.MAPC_SLICE_LFSR_STATE (mapSlice l)) v s
    (s1.settleWay l c c (v % 16 % c), s1)

/-! ### Words -/

/-- The words of the sectors of `mask` of a line, from working memory. -/
def memWords (s : State) (l mask : Nat) : Tbl Nat :=
  (List.range 64).foldl (fun t i => if mask.testBit (i / 8) then tput 0 t i (s.memWord (l * 64 + i)) else t) []

/-- Put the words of the sectors of `mask` from `src` over `dst`. -/
def overSectors (mask : Nat) (src dst : Tbl Nat) : Tbl Nat :=
  (List.range 64).foldl (fun t i => if mask.testBit (i / 8) then tput 0 t i (tgetD 0 src i) else t) dst

/-- The lines of the sectors of `mask` of a map line. -/
def sectorLines (l mask : Nat) : List Nat := ((List.range 8).filter (fun k => mask.testBit k)).map (fun k => l * 8 + k)

/-- Store the words of the sectors of `mask` in working memory: whole lines, which fill the mask of an entry in the merge buffer (R206 of
08_working_memory.md). -/
def storeSectors (l mask : Nat) (words : Tbl Nat) (s : State) : State :=
  let s1 := s.modWm (fun w =>
    { w with words := (List.range 64).foldl (fun t i =>
               if mask.testBit (i / 8) then tput 0 t (l * 64 + i) (tgetD 0 words i) else t) w.words
             merge := w.merge.filter (fun e => !(sectorLines l mask).contains e.line) })
  seqAll (fun k t => wmLineWritten k (unmark k t)) (sectorLines l mask) s1

/-- The newest value of a map word, wherever it lies (R64: only writebacks change working memory). DESIGN CHOICE, notes/assumptions/6.md. -/
def State.mapWord (s : State) (word : Nat) : Nat :=
  match s.findWay (mapLineOf word) with
  | some w =>
    let m := s.mline (wayKey (mapLineOf word) w)
    if !s.cacheBypass && m.valid.testBit (sectorOf word) then tgetD 0 m.words (word % 64)
    else s.memWord word
  | none => s.memWord word

/-! ### Writebacks -/

/-- What of a line is not in working memory yet: its dirty sectors and those in the writeback buffer. -/
def MapLine.unwritten (m : MapLine) : Nat := m.dirty ||| m.wbMask

/-- Write what a line holds unwritten to working memory at once. -/
def flushLine (k : Nat) (s : State) : State :=
  let m := s.mline k
  if m.unwritten = 0 then s
  else s |> storeSectors (lineAddr k m.tag) m.unwritten m.words |> cnt bMAPC 5 1

/-- A line leaves the cache. -/
def eraseLine (k : Nat) (s : State) : State := s.modXlat (fun x => { x with lines := terase x.lines k })

/-- Nothing of the line is unwritten any more, and it is CLEAN where it was DIRTY or WRITEBACK. -/
def MapLine.written (m : MapLine) : MapLine :=
  { m with st := if m.st = .dirty ∨ m.st = .writeback then .clean else m.st,
           dirty := 0, wbMask := 0, why := .none, redirty := false, wbuf := [] }

/-- A DIRTY line goes to WRITEBACK: its dirty sectors are copied to the writeback buffer (R64, R66). -/
def startWb (k : Nat) (why : WbWhy) (s : State) : State :=
  modLine k (fun m => { m with st := .writeback, wbuf := m.words, wbMask := m.dirty, dirty := 0, why := why, redirty := false }) s
    |> cnt bMAPC 5 1

/-- A way for an atomic access: a dirty victim is written back on the way; where every way is busy, the writeback of the first
that no miss waits for ends at once. -/
def takeWayNow (l : Nat) (s : State) : Option Nat × State :=
  let free (w : Nat) (t : State) : Option Nat × State := (some w, eraseLine (wayKey l w) (flushLine (wayKey l w) t))
  match chooseWay l s with
  | (some w, s1) => free w s1
  | (none, s1) =>
    let held (k : Nat) : Bool := s1.xlat.misses.any (fun m => m.2.way != 16 && wayKey m.2.line m.2.way == k)
    match (List.range s1.cacheWays).find? (fun w => (s1.mline (wayKey l w)).st == .writeback && !held (wayKey l w)) with
    | some w => free w s1
    | none => (none, s1)

/-! ### Atomic access of the device's own units -/

/-- Is the sector of a word being rebuilt, or lost? -/
def State.sectorBad (s : State) (word : Nat) : Bool :=
  s.xlat.rebuilding.any (fun r => decide (r.1 ≤ word / 8) && decide (word / 8 < r.1 + r.2)) || s.xlat.lost.contains (word / 8)

/-- A second miss in a bank stalls it (R62). -/
def stallCount (s : State) : State := s |> incF F.MAPC_STALL_CNT 1 |> cnt bMAPC 3 1

/-- A sector's line does not decode: it is to be rebuilt (R70). -/
def sectorUe (sector : Nat) (s : State) : State :=
  ((wmDecode sector .clean s).2.modXlat (fun x => { x with rebuilding := x.rebuilding ++ [(sector, 1)] })) |> setErr F.XLAT_ERR_STATUS_MAP_UE intXlat

/-- The sector of a word is brought into the cache, as a completed bank miss (R61); it counts a stall where a miss is outstanding
in its bank (R62). A sector that is being rebuilt is not installed (R70). DESIGN CHOICE, notes/assumptions/28.md. -/
def fillNow (word : Nat) (s : State) : State :=
  let l := mapLineOf word
  let miss (t : State) : State := when (tget s.xlat.misses (bankNo l)).isSome stallCount t
  if s.sectorBad word then s
  else if s.cacheBypass then wmRead (word / 8) s
  else if s.wm.markers.contains (word / 8) then sectorUe (word / 8) s
  else
    match s.findWay l with
    | some w =>
      let k := wayKey l w
      let m := s.mline k
      if m.valid.testBit (sectorOf word) then s |> cnt bMAPC 0 1
      else
        let bit := 2 ^ sectorOf word
        modLine k (fun m => { m with valid := m.valid ||| bit, words := overSectors bit (memWords s l bit) m.words }) s
          |> miss |> cnt bMAPC 1 1 |> wmRead (word / 8)
    | none =>
      match takeWayNow l s with
      | (some w, s1) =>
        let mask := if s.on F.MAPC_CTL_FILL_LINE then
            (List.range 8).foldl (fun a k => if s.wm.markers.contains (l * 8 + k) then a else a + 2 ^ k) 0 else 2 ^ sectorOf word
        modLine (wayKey l w) (fun m => { m with tag := mapTag l, st := .clean, valid := mask, dirty := 0,
                                                words := memWords s1 l mask }) s1
          |> miss |> cnt bMAPC 2 1 |> seqAll wmRead (sectorLines l mask)
      | (none, s1) => s1

/-- An entry is updated: in its cached line (R64, R66), or by a narrow write of working memory where no line holds it (R205 of
08_working_memory.md). -/
def mapPut (word v : Nat) (s : State) : State :=
  let s1 := if s.cacheBypass then s else fillNow word s
  let l := mapLineOf word
  let direct (t : State) : State := wmWriteBytes (word * 8) 8 v t
  match s1.findWay l with
  | some w =>
    let k := wayKey l w
    let m := s1.mline k
    if s1.cacheBypass || !m.valid.testBit (sectorOf word) then direct s1
    else
      modLine k (fun m =>
        { m with
          words := tput 0 m.words (word % 64) v
          dirty := m.dirty ||| 2 ^ sectorOf word
          st := if m.st = .clean then .dirty else m.st
          redirty := m.redirty || decide (m.st = .writeback) }) s1
  | none => direct s1

/-! ### The lookup path -/

/-- What a lookup found: the folio entry, the frame entry, or that its map word could not be read (R70, R192). -/
structure Found where
  look : Look
  fo : Nat
  fr : Nat
  bad : Bool
  deriving DecidableEq, Repr

/-- The word of a folio entry (R47). -/
def State.folioWord (s : State) (ld folio : Nat) : Nat :=
  s.get F.XLAT_MAP_BASE * 512 + s.get (F.XLAT_LD_MAP_OFF ld) * 512 + folio

/-- The word of a frame entry (R53). -/
def State.frameWord (s : State) (table i : Nat) : Nat := s.get F.XLAT_POOL_BASE * 2 ^ 27 + table * 64 + i

/-- The word a lookup now needs. -/
def State.lookWord (s : State) (k : Look) : Nat :=
  match k.folio with
  | none => s.folioWord k.ld (folioOf k.dpa)
  | some e => s.frameWord (foTable e) (frameOf k.dpa)

/-- The lookup is a write's: it reads the folio entry alone, and a sector that is being rebuilt holds the write later, in the
coalescing buffer (R70). -/
def Look.write (k : Look) : Bool := match k.user with | .host r => r.wr | _ => false

/-- The lookup meets a sector that is being rebuilt, or is lost: it returns poison (R70, 07_durability.md R192). -/
def Look.poisoned (k : Look) (s : State) : Bool := !k.write && s.sectorBad (s.lookWord k)

/-- A word has been read for a lookup: the lookup ends, or goes on to the frame entry. -/
def Look.got (k : Look) (v : Nat) : Look ⊕ Found :=
  match k.folio with
  | none =>
    if foType v = 2 ∧ !k.write then .inl { k with folio := some v }
    else .inr ⟨k, v, if foType v = 1 then mkFrame 1 (foPoisonAny v) (slotPfa (foSet v) (foSlot v + frameOf k.dpa)) else 0, false⟩
  | some e => .inr ⟨k, e, v, false⟩

/-- The bank is stalled: a second miss waits in it (R62). -/
def State.bankStalled (s : State) (l : Nat) : Bool := tgetD [] s.xlat.stalled (bankNo l) != []

/-- A lookup waits for its bank. -/
def lookStall (l : Nat) (k : Look) (first : Bool) (s : State) : State :=
  let s1 := if first then stallCount s else s
  s1.modXlat (fun x => { x with stalled := tmod [] (· ++ [k]) x.stalled (bankNo l) })

/-- A miss is outstanding in its bank. It goes out to working memory, unless it waits for its way. -/
def missStart (l way sectors : Nat) (wait : Bool) (k : Look) (s : State) : State :=
  (s.modXlat (fun x => { x with misses := tset x.misses (bankNo l) ⟨l, way, sectors, [{ k with misses := k.misses + 1 }], wait⟩ }))
    |> when (!wait) (flushLines (sectorLines l sectors))

/-- The way of a miss is free: its line is FILLING, and it goes out to working memory. -/
def wayFill (l way : Nat) (s : State) : State :=
  modLine (wayKey l way) (fun _ => { MapLine.reset with tag := mapTag l, st := .filling }) s

/-- A miss that allocates is given a way (R63, R64): a DIRTY victim is written back first, and the miss waits. -/
def wayTake (l way : Nat) (s : State) : Bool × State :=
  if (s.mline (wayKey l way)).st = .dirty then (true, startWb (wayKey l way) .victim s) else (false, wayFill l way s)

/-- One access of a lookup to the cache (R61 to R64): `.inl v` where the word is served at once. -/
def lookOnce (k : Look) (s : State) : Option Nat × State :=
  let word := s.lookWord k
  let l := mapLineOf word
  let sec := sectorOf word
  if s.bankStalled l then (none, lookStall l k false s)
  else
    let m := tget s.xlat.misses (bankNo l)
    let joins := m.any (fun m => m.line == l && m.sectors.testBit sec)
    let join (t : State) : State := t.modXlat (fun x =>
      { x with misses := tmod ⟨0, 0, 0, [], false⟩ (fun m => { m with users := m.users ++ [{ k with misses := k.misses + 1 }] }) x.misses (bankNo l) })
    if joins then (none, join s)
    else if s.cacheBypass then
      if m.isSome then (none, lookStall l k true s) else (none, missStart l 16 (2 ^ sec) false k s)
    else
      match s.findWay l with
      | some w =>
        let e := s.mline (wayKey l w)
        if e.valid.testBit sec then (some (tgetD 0 e.words (word % 64)), cnt bMAPC 0 1 s)
        else if m.isSome then (none, lookStall l k true s)
        else (none, s |> missStart l w (2 ^ sec) false k |> cnt bMAPC 1 1)
      | none =>
        if m.isSome then (none, lookStall l k true s)
        else
          match chooseWay l s with
          | (none, s1) => (none, lookStall l k true s1)
          | (some w, s1) =>
            let mask := if s.on F.MAPC_CTL_FILL_LINE then 255 else 2 ^ sec
            let (wait, s2) := wayTake l w s1
            (none, s2 |> missStart l w mask wait k |> cnt bMAPC 2 1)

/-- Run a lookup as far as it goes: at most two accesses. A lookup that ends is put on the list. DESIGN CHOICE, notes/assumptions/28.md. -/
def lookRun : Nat → Look → List Found × State → List Found × State
  | 0, _, r => r
  | n + 1, k, (fs, s) =>
    if k.poisoned s then (fs ++ [⟨k, k.folio.getD 0, 0, true⟩], s)
    else
      match lookOnce k s with
      | (none, s1) => (fs, s1)
      | (some v, s1) =>
        match k.got v with
        | .inl k1 => lookRun n k1 (fs, s1)
        | .inr f => (fs ++ [f], s1)

/-- A lookup starts; pipelines A and B serve even and odd folios (R54). DESIGN CHOICE, notes/assumptions/28.md. -/
def lookStart (k : Look) (s : State) : List Found × State :=
  lookRun 2 k ([], cnt bXLAT (folioOf k.dpa % 2) 1 s)

/-- Is the sector of a word in the cache? -/
def State.inCache (s : State) (word : Nat) : Bool :=
  match s.findWay (mapLineOf word) with
  | some w => (s.mline (wayKey (mapLineOf word) w)).valid.testBit (sectorOf word)
  | none => false

/-- Serve again the lookups that waited for a bank. -/
def lookRetry (bank : Nat) (s : State) : List Found × State :=
  let ks := tgetD [] s.xlat.stalled bank
  let s1 := s.modXlat (fun x => { x with stalled := terase x.stalled bank })
  ks.foldl (fun r k => lookRun 2 k r) ([], s1)

/-- A word arrived for a list of lookups. -/
def lookDeliver (ks : List Look) (val : Nat → Nat) (s : State) : List Found × State :=
  ks.foldl (fun r k =>
    match k.got (val (s.lookWord k)) with
    | .inl k1 => lookRun 1 k1 r
    | .inr f => (r.1 ++ [f], r.2)) ([], s)

/-- Does a fill of these sectors find its line as it left it? -/
def MapLine.awaits (e : MapLine) (m : Miss) : Bool := m.way != 16 && e.st != .invalid && e.tag == mapTag m.line

/-- The line of a fill that returned (R64, R65): the sectors of `good` that it lacks are installed, unless the fill is doomed. -/
def fillInstall (m : Miss) (good : Nat) (words : Tbl Nat) (s : State) : State :=
  let key := wayKey m.line m.way
  let e := s.mline key
  if !e.awaits m then s
  else if e.doom then
    let s1 := s |> incF F.MAPC_DOOM_CNT 1 |> cnt bMAPC 4 1
    if e.st = .writeback then modLine key (fun x => { x with doom := false, why := .inv }) s1
    else if e.dirty ≠ 0 then modLine key (fun x => { x with doom := false }) (startWb key .inv s1)
    else eraseLine key s1
  else
    let new := good - (good &&& e.valid)
    if e.st = .filling ∧ e.valid ||| new = 0 then eraseLine key s
    else
      modLine key (fun x =>
        { x with
          st := if x.st = .filling then (if x.dirty = 0 then .clean else .dirty) else x.st
          valid := x.valid ||| new
          words := overSectors new words x.words }) s

/-- A fill has returned: the sectors of `m` that are not in `lost` are installed, and its lookups go on; those of a lost sector
end with poison (R70). DESIGN CHOICE, notes/assumptions/28.md. -/
def fillReturn (bank : Nat) (m : Miss) (lost : Nat) (s : State) : List Found × State :=
  let good := (List.range 8).foldl (fun a i => if m.sectors.testBit i && !lost.testBit i then a + 2 ^ i else a) 0
  let e := s.mline (wayKey m.line m.way)
  let mem := memWords s m.line good
  let words := if e.awaits m then overSectors (good &&& e.valid) e.words mem else mem
  let s1 := fillInstall m good mem (s.modXlat (fun x => { x with misses := terase x.misses bank }))
  let isLost (k : Look) : Bool := lost.testBit (sectorOf (s.lookWord k))
  let bad := (m.users.filter isLost).map (fun k => (⟨k, k.folio.getD 0, 0, true⟩ : Found))
  let r1 := lookDeliver (m.users.filter (fun k => !isLost k)) (fun w => tgetD 0 words (w % 64)) s1
  let r2 := lookRetry bank r1.2
  (bad ++ r1.1 ++ r2.1, r2.2)

/-- The miss that waits for the line under `key`, with its bank. -/
def State.waiter (s : State) (key : Nat) : Option (Nat × Miss) :=
  s.xlat.misses.find? (fun m => m.2.wait && m.2.way != 16 && wayKey m.2.line m.2.way == key)

/-- The waiting miss of a bank goes out: to its way (16: without one). -/
def missGo (bank : Nat) (m : Miss) (way : Nat) (wait : Bool) (s : State) : State :=
  (s.modXlat (fun x => { x with misses := tset x.misses bank { m with way := way, wait := wait } })) |> when (!wait) (flushLines (sectorLines m.line m.sectors))

/-- A waiting allocation chooses again (R64); where every way is FILLING or WRITEBACK its lookups wait for their bank. -/
def missAgain (bank : Nat) (m : Miss) (s : State) : State :=
  match chooseWay m.line s with
  | (some w, s1) =>
    let (wait, s2) := wayTake m.line w s1
    missGo bank m w wait s2
  | (none, s1) =>
    s1.modXlat (fun x => { x with misses := terase x.misses bank, stalled := tmod [] (m.users ++ ·) x.stalled bank })

/-- A line that a waiting miss stands by has left the cache: the miss takes its way, if lookups still allocate into it (R69). -/
def missEnter (key : Nat) (s : State) : State :=
  match s.waiter key with
  | none => s
  | some (bank, m) =>
    if m.way < s.cacheWays then missGo bank m m.way false (wayFill m.line m.way s) else missAgain bank m s

/-- The lookups that wait for a bank with no miss outstanding are served again. -/
def lookFree (bank : Nat) (s : State) : List Found × State :=
  if (tget s.xlat.misses bank).isSome then ([], s) else lookRetry bank s

/-- A writeback ends (R64, R66): working memory takes what was copied when it began. -/
def writebackDone (key : Nat) (s : State) : List Found × State :=
  let m := s.mline key
  if m.st = .writeback then
    let s1 := storeSectors (lineAddr key m.tag) m.wbMask m.wbuf s
    let s2 :=
      if m.redirty then
        let s3 := modLine key (fun m => { m with st := .dirty, redirty := false, wbuf := [], wbMask := 0 }) s1 |> cnt bMAPC 6 1
        if m.why = .inv then startWb key .inv s3
        else
          match s3.waiter key with
          | some (bank, w) => missAgain bank w s3
          | none => s3
      else if m.why = .wb then modLine key MapLine.written s1
      else missEnter key (eraseLine key s1)
    lookFree (bankNo (lineAddr key m.tag)) s2
  else ([], s)

/-! ### Maintenance (R67), disable and enable (R68), scratchpad (R69) -/

/-- The keys of the lines that a range of map lines covers. -/
def State.keysIn (s : State) (p : Nat → MapLine → Bool) : List Nat :=
  (s.xlat.lines.filter (fun e => e.2.st != .invalid && p e.1 e.2)).map (·.1)

/-- Write back a line for a WB operation. -/
def wbLine (k : Nat) (s : State) : State := if (s.mline k).st = .dirty then startWb k .wb s else s

/-- Write back and invalidate a line, or doom its fill (R64, R65). -/
def invLine (k : Nat) (s : State) : State :=
  let m := s.mline k
  if m.st = .filling || s.filling k then modLine k (fun m => { m with doom := true }) s
  else if m.st = .dirty then startWb k .inv s
  else if m.st = .writeback then modLine k (fun m => { m with why := .inv }) s
  else eraseLine k s

/-- Does a range of `n` lines from `first` cover the line under key k? -/
def covers (first n k : Nat) (m : MapLine) : Bool :=
  let l := lineAddr k m.tag
  decide (first ≤ l) && decide (l < first + n)

/-- Is a way one of the ways given up to scratchpad: its number is at least `c`? -/
def wayFrom (c k : Nat) : Bool := decide (c ≤ k % 16)

/-- The ways released or taken by a conversion: lines of added ways are written back and invalidated. CONV_BUSY is set until
SCRATCH_CONVERT_DONE on a decrease too, of which the rule names no duration. DESIGN CHOICE, notes/assumptions/71.md. -/
def convStart (old new : Nat) (s : State) : State :=
  if old = new then s
  else
    let s1 := (s.modXlat (fun x => { x with conv := some new })) |> setF F.MAPC_STATUS_CONV_BUSY 1
    if old < new then seqAll invLine (s1.keysIn (fun k _ => wayFrom (16 - new) k)) s1
    else s1.modXlat (fun x => { x with scratch := x.scratch.filter (fun p => decide (p.1 / 2 ^ 21 < new)) })

/-- A write of MAPC_SCRATCH: ignored while a conversion runs (R69, R79). -/
def scratchConvert (v : Nat) (s : State) : State :=
  if s.on F.MAPC_STATUS_CONV_BUSY then s
  else
    let old := s.get F.MAPC_SCRATCH_WAYS
    let s1 := storeAt 0x30010 v s
    convStart old (s1.get F.MAPC_SCRATCH_WAYS) s1

def execScratchConvert (_m : Master) (v : BitVec 32) (s : State) : Host.Outcome State Fault Refusal :=
  .next (scratchConvert v.toNat s)

/-- The lines under `keys` are written out and leave the cache; misses that wait for them go on, and so do the lookups of banks
that wait for none. -/
def linesOut (keys : List Nat) (s : State) : List Found × State :=
  let s1 := seqAll (fun k t => missEnter k (eraseLine k (flushLine k t))) keys s
  (keys.map (fun k => k / 1024)).eraseDups.foldl (fun r b =>
    let q := lookFree b r.2
    (r.1 ++ q.1, q.2)) ([], s1)

/-- The conversion ends: the ways are scratchpad, zero-filled; what was still being written back of them is written. It does not
end while a fill is in flight into an added way. -/
def convertDone (s : State) : List Found × State :=
  match s.xlat.conv with
  | none => ([], s)
  | some n =>
    let keys := s.keysIn (fun k _ => wayFrom (16 - n) k)
    if keys.any (fun k => s.filling k || (s.mline k).st == .filling) then ([], s)
    else linesOut keys ((s.modXlat (fun x => { x with conv := none })) |> setF F.MAPC_STATUS_CONV_BUSY 0)

/-- A write of MAPC_INV_CTL: ignored with GO while an operation runs; otherwise the fields are stored, and GO starts OP
over LINES lines from LINE (R67). The whole write is ignored, its other fields too: the rule names the GO alone.
DESIGN CHOICE, notes/assumptions/72.md. -/
def maintGo (v : Nat) (s : State) : State :=
  if v.testBit 31 then
    if s.on F.MAPC_STATUS_INV_BUSY then s
    else
      let s1 := storeAt 0x30020 v s
      let op := s1.get F.MAPC_INV_CTL_OP
      let first := s1.get F.MAPC_INV_ADDR_LINE
      let n := if op = 2 then 2 ^ 31 else s1.get F.MAPC_INV_CTL_LINES
      let base := if op = 2 then 0 else first
      if n = 0 then setErr F.MAPC_INV_CTL_DONE intMapc s1
      else
        let s2 := (s1.modXlat (fun x => { x with maint := some ⟨op, base, n⟩ })) |> setF F.MAPC_STATUS_INV_BUSY 1
        let keys := s2.keysIn (fun k m => covers base n k m)
        if op = 0 then seqAll wbLine keys s2 else seqAll invLine keys s2
  else storeAt 0x30020 v s

def execMapcWb (_m : Master) (v : BitVec 32) (s : State) : Host.Outcome State Fault Refusal := .next (maintGo v.toNat s)
def execMapcInv (_m : Master) (v : BitVec 32) (s : State) : Host.Outcome State Fault Refusal := .next (maintGo v.toNat s)
def execMapcInvAll (_m : Master) (v : BitVec 32) (s : State) : Host.Outcome State Fault Refusal := .next (maintGo v.toNat s)

/-- May the running operation complete: WB has no dirty line left of those it started, INV and INV_ALL no line at all
(R65, R67)? -/
def State.maintReady (s : State) (m : Maint) : Bool :=
  if m.op = 0 then (s.keysIn (fun k e => covers m.first m.count k e && e.st == .writeback && e.why == .wb)).isEmpty
  else (s.keysIn (fun k e => covers m.first m.count k e && (e.doom || e.why == .inv))).isEmpty

/-- R67: the operation completes; INV_ALL clears STALE and STALE_EN (R68, R79). -/
def maintDone (s : State) : State :=
  match s.xlat.maint with
  | none => s
  | some m =>
    if s.maintReady m then
      (s.modXlat (fun x => { x with maint := none })) |> setF F.MAPC_STATUS_INV_BUSY 0 |> setErr F.MAPC_INV_CTL_DONE intMapc
        |> when (m.op == 2) (fun t => t |> setF F.MAPC_STATUS_STALE 0 |> setF F.MAPC_STATUS_STALE_EN 0)
    else s

def execMapcMaintDone (s : State) : Host.Outcome State Fault Refusal := .next (maintDone s)

/-- A write of MAPC_CTL (R68): clearing EN starts the drain, setting it enables. -/
def mapcCtl (v : Nat) (s : State) : State :=
  let old := s.on F.MAPC_CTL_EN
  let s1 := storeAt 0x30000 v s
  if old && !s1.on F.MAPC_CTL_EN then
    seqAll wbLine (s1.keysIn (fun _ m => m.st == .dirty)) (setF F.MAPC_STATUS_DRAINING 1 s1)
  else if !old && s1.on F.MAPC_CTL_EN then
    let s2 := setF F.MAPC_STATUS_DRAINING 0 s1
    if s2.on F.MAPC_STATUS_STALE then s2 |> setF F.MAPC_STATUS_STALE_EN 1 |> logPut sevWarning 0x0301 0 0 0 0 else s2
  else s1

def execMapcDisable (_m : Master) (v : BitVec 32) (s : State) : Host.Outcome State Fault Refusal := .next (mapcCtl v.toNat s)
def execMapcEnable (_m : Master) (v : BitVec 32) (s : State) : Host.Outcome State Fault Refusal := .next (mapcCtl v.toNat s)

/-- R68: every dirty line is written back and STALE is set; a line still dirty or in WRITEBACK is written now. An allocation that
waited for its way bypasses the cache. -/
def drainDone (s : State) : List Found × State :=
  if s.on F.MAPC_STATUS_DRAINING then
    let keys := s.keysIn (fun _ m => m.unwritten != 0 || m.st == .writeback)
    let s1 := seqAll (fun k t => modLine k MapLine.written (flushLine k t)) keys s
      |> setF F.MAPC_STATUS_DRAINING 0 |> setF F.MAPC_STATUS_STALE 1
    let s2 := seqAll (fun (m : Nat × Miss) t => missGo m.1 m.2 16 false t) (s1.xlat.misses.filter (fun m => m.2.wait)) s1
    (s2.xlat.stalled.map (·.1)).foldl (fun r b =>
      let q := lookFree b r.2
      (r.1 ++ q.1, q.2)) ([], s2)
  else ([], s)

/-- The device invalidates map lines itself, writing them back first (R48); a fill in flight is doomed. -/
def mapInvalidate (first n : Nat) (s : State) : State :=
  seqAll (fun k t =>
    if t.filling k || (t.mline k).st == .filling then modLine k (fun m => { m.written with doom := true }) (flushLine k t)
    else missEnter k (eraseLine k (flushLine k t)))
    (s.keysIn (fun k m => covers first n k m)) s

/-- Write every unwritten entry to working memory (a checkpoint, a hold-up drain, an orderly stop). A line in WRITEBACK stays
so. -/
def mapFlushAll (s : State) : State :=
  seqAll (fun k t => modLine k (fun m => if m.st = .writeback then { m with wbuf := m.words } else m.written) (flushLine k t))
    (s.keysIn (fun _ m => m.unwritten != 0)) s

end Sys2Proof.Machine
end

