-- ==== Sys2Proof/Machine/Xlat.lean ====
section
/-! DEFINITION. The folio map: entries and frame tables, the frame pool, KID references, splitting, unmapping and sealing
(03_translation.md R47 to R59, 09_cipher_and_meridian.md R227). -/

namespace Sys2Proof.Machine

/-! ### Folio arrays (R47) -/

/-- The folio array of an LD holds the folio. -/
def State.inArray (s : State) (ld f : Nat) : Bool := decide (f < s.get (F.XLAT_LD_MAP_LEN ld))

/-- The folio entry. -/
def State.folio (s : State) (ld f : Nat) : Nat := s.mapWord (s.folioWord ld f)

/-- Frame i of a folio, from its entry and its table. -/
def State.frameOfFolio (s : State) (e i : Nat) : Nat :=
  if foType e = 1 then mkFrame 1 (foPoisonAny e) (slotPfa (foSet e) (foSlot e + i))
  else if foType e = 2 then s.mapWord (s.frameWord (foTable e) i)
  else 0

/-- The frame entry of a folio of an LD. -/
def State.frame (s : State) (ld f i : Nat) : Nat := s.frameOfFolio (s.folio ld f) i

/-- The length of an array in 4 KiB units. -/
def arrayUnits (blocks : Nat) : Nat := (blocks * 256 * 8 + 4095) / 4096

/-- Lay the folio arrays out in LD order (R47). -/
def layArrays (s : State) : State :=
  ((List.range 16).foldl (fun (r : Nat × State) n =>
    let b := (s.ld n).rangeBlocks
    (r.1 + arrayUnits b, r.2 |> setF (F.XLAT_LD_MAP_LEN n) (b * 256) |> setF (F.XLAT_LD_MAP_OFF n) (if b = 0 then 0 else r.1)))
    (0, s)).2

/-! ### The frame pool (R59) -/

/-- The tables of the pool. -/
def State.poolSize (s : State) : Nat := s.get F.XLAT_POOL_CFG_POOL_GIB * 2 ^ 21

def State.poolFree (s : State) : Nat := s.poolSize - s.xlat.used.length

/-- Bring XLAT_POOL_STATUS up to date; entering LOW or CRIT raises the cause. -/
def poolStatus (s : State) : State :=
  let f := s.poolFree
  let low := decide (f * 256 < s.get F.XLAT_POOL_CFG_LOW_WM * s.poolSize)
  let crit := decide (f * 256 < s.get F.XLAT_POOL_CFG_CRIT_WM * s.poolSize)
  s |> setF F.XLAT_POOL_STATUS_FREE f
    |> when (low && !s.on F.XLAT_POOL_STATUS_LOW) (setErr F.XLAT_ERR_STATUS_POOL_LOW intXlat)
    |> when (crit && !s.on F.XLAT_POOL_STATUS_CRIT) (setErr F.XLAT_ERR_STATUS_POOL_CRIT intXlat)
    |> setB F.XLAT_POOL_STATUS_LOW low |> setB F.XLAT_POOL_STATUS_CRIT crit

/-- The lowest number that a list does not hold. DESIGN CHOICE, notes/assumptions/16.md. -/
def lowestFree (l : List Nat) : Nat := ((List.range (l.length + 1)).find? (fun i => !l.contains i)).getD 0

/-- Take a frame table. -/
def takeTable (s : State) : Nat × State :=
  let t := lowestFree s.xlat.used
  (t, (s.modXlat (fun x => { x with used := t :: x.used })) |> poolStatus |> cnt bXLAT 7 1)

/-- Return a frame table. -/
def freeTable (t : Nat) (s : State) : State :=
  (s.modXlat (fun x => { x with used := x.used.filter (· != t) })) |> poolStatus |> cnt bXLAT 8 1

/-- May a write take a table now; may the device itself? -/
def State.tableForWrite (s : State) : Bool := !s.on F.XLAT_POOL_STATUS_CRIT && decide (0 < s.poolFree)

/-! ### KID references (09_cipher_and_meridian.md R227) -/

/-- The state of a KID. -/
def State.kid (s : State) (k : Nat) : Kid := tgetD Kid.reset s.ciph.kids k

def modKid (k : Nat) (f : Kid → Kid) (s : State) : State :=
  s.modCiph (fun c => { c with kids := tmod Kid.reset f c.kids k })

def refAdd (k : Nat) (s : State) : State := modKid k (fun x => { x with refs := x.refs + 1 }) s
def refSub (k : Nat) (s : State) : State := modKid k (fun x => { x with refs := x.refs - 1 }) s

/-- The current KID of an LD, 0 where it has none. -/
def State.curKid (s : State) (ld : Nat) : Nat := tgetD 0 s.ciph.cur ld

/-! ### Changes to the map, with their journal records (07_durability.md R166) -/

/-- The KIDs that the key operation now running flushes (09_cipher_and_meridian.md R224). -/
def State.flushKids (s : State) : List Nat :=
  match s.ciph.ops.head? with
  | some o => if o.phase = 1 then o.was.map (·.1) else []
  | none => []

/-- Change a folio entry. -/
def setFolio (ld f e : Nat) (s : State) : State :=
  let old := s.folio ld f
  mapPut (s.folioWord ld f) e (capture recFolio ld 0 f [e, old] s)

/-- Change a frame entry in a table; `snap` is the snapshot ASEQ. -/
def setFrame (ld f table i e snap : Nat) (s : State) : State :=
  let old := s.mapWord (s.frameWord table i)
  mapPut (s.frameWord table i) e (capture recFrame ld 0 (f * 64 + i) [e, old, snap] s)

/-- The row at a PFA. -/
def State.row (s : State) (pfa : Nat) : Option MRow := tget s.med.rows pfa

/-- The line mask of a programmed row; 0 where there is none. DESIGN CHOICE, notes/assumptions/32.md. -/
def State.rowMask (s : State) (pfa : Nat) : Nat := ((s.row pfa).map (·.lmask)).getD 0

/-- Is a line of a folio on the poison list? -/
def State.folioOnList (s : State) (ld f : Nat) : Bool := (s.ld ld).poison.any (fun e => e.1 / 2 ^ 14 == f)

/-- Split a folio (R56): unmapped with `kid`, or whole. The table's entries are written before the folio entry names it.
DESIGN CHOICE, notes/assumptions/32.md. DEDUCED, notes/assumptions/37.md. -/
def folioSplit (ld f kid : Nat) (s : State) : State :=
  let e := s.folio ld f
  if foType e = 2 then s
  else
    let (t, s1) := takeTable s
    let entry (i : Nat) : Nat :=
      if foType e = 1 then
        let p := slotPfa (foSet e) (foSlot e + i)
        mkFrame 1 (s.rowMask p != 0) p
      else 0
    let s2 := seqAll (fun i u => mapPut (s.frameWord t i) (entry i) u) (List.range 64) s1
    let k := if foType e = 1 then foKid e else kid
    s2 |> setFolio ld f (mkFolio 2 k false (if foType e = 1 then foPoisonAny e else s.folioOnList ld f) t)
      |> when (foType e == 0) (refAdd k)
      |> (fun u => u.modXlat (fun x => { x with splits := x.splits ++ [(ld, f)] }))
      |> cnt bXLAT 2 1

/-- A write clears SEAL_PEND (R56). -/
def clearSealPend (ld f : Nat) (s : State) : State :=
  let e := s.folio ld f
  if foSealPend e then setFolio ld f (foSetSeal false e) s else s

/-- POISON_ANY of a mapped folio is brought up to date (R49). -/
def refreshPoisonAny (ld f : Nat) (s : State) : State :=
  let e := s.folio ld f
  if foType e = 1 ∨ foType e = 2 then
    let any := s.folioOnList ld f || (List.range 64).any (fun i =>
      if foType e = 1 then s.rowMask (slotPfa (foSet e) (foSlot e + i)) != 0
      else frLpois (s.frameOfFolio e i))
    if any == foPoisonAny e then s else setFolio ld f (foSetPoison any e) s
  else s

/-- The PFAs of the valid units of a folio (R52, R53). -/
def State.folioUnits (s : State) (e : Nat) : List Nat :=
  (List.range 64).filterMap (fun i =>
    let fe := s.frameOfFolio e i
    if frState fe = 1 then some (frLoc fe) else none)

/-- The map part of unmapping a folio (R58): its table returns to the pool, its units leave the valid counts, its KID
loses a reference. -/
def folioUnmap (ld f : Nat) (s : State) : State :=
  let e := s.folio ld f
  if foType e = 0 ∨ foType e = 3 then s
  else
    let units := s.folioUnits e
    s |> setFolio ld f 0
      |> when (foType e == 2) (fun t => (freeTable (foTable e) t).modXlat
            (fun x => { x with splits := x.splits.filter (· != (ld, f)) }))
      |> (fun t => seqAll unitSub units t)
      |> refSub (foKid e) |> cnt bXLAT 6 1

/-- A split folio becomes whole at a slot (R57): its table returns, its units move to the run. `old` are the units it
held. -/
def folioWhole (ld f set slot : Nat) (s : State) : State :=
  let e := s.folio ld f
  let old := s.folioUnits e
  let new := (List.range 64).map (fun i => slotPfa set (slot + i))
  s |> setFolio ld f (mkFolio 1 (foKid e) false (foPoisonAny e) (set * 2 ^ 16 + slot))
    |> freeTable (foTable e)
    |> (fun t => t.modXlat (fun x => { x with splits := x.splits.filter (· != (ld, f)) }))
    |> (fun t => seqAll unitAdd (new.filter (fun p => !old.contains p)) t)
    |> (fun t => seqAll unitSub (old.filter (fun p => !new.contains p)) t)

end Sys2Proof.Machine
end

