-- ==== Sys2Proof/Machine/Coal.lean ====
section
/-! DEFINITION. The coalescing buffer and the staging window (03_translation.md R71 to R74, R441; 02_host_port.md R28 to
R31; 07_durability.md R170, R171). -/

namespace Sys2Proof.Machine

/-! ### Tokens -/



/-- Frame tokens in use: held by frames, and by gathers whose old copy is being read. -/
def State.frameToksUsed (s : State) : List Nat := s.coal.frames.map (·.1) ++ s.coal.gathers.filterMap (·.merging)

def State.frameFree (s : State) : Nat := s.get F.COAL_STAGE_CFG_FRAMES - s.frameToksUsed.length

/-- Bring COAL_TOKENS up to date; a count that falls below its watermark, or to zero, sets its cause (R74, R80). -/
def coalStatus (s : State) : State :=
  let lf := s.lineFree
  let ff := s.frameFree
  let below (f wm : Fld) (n : Nat) : Bool := decide (n < s.get wm) && !decide (s.get f < s.get wm)
  s |> when (below F.COAL_TOKENS_LINE_FREE F.COAL_WM_LINE_LOW lf) (setErr F.COAL_STATUS_LINE_LOW_HIT intCoal)
    |> when (below F.COAL_TOKENS_FRAME_FREE F.COAL_WM_FRAME_LOW ff) (setErr F.COAL_STATUS_FRAME_LOW_HIT intCoal)
    |> when (decide (ff = 0) && decide (s.get F.COAL_TOKENS_FRAME_FREE ≠ 0)) (setErr F.COAL_STATUS_FRAME_EMPTY intCoal)
    |> setF F.COAL_TOKENS_LINE_FREE lf |> setF F.COAL_TOKENS_FRAME_FREE ff

/-- The line held for an address, if one is. -/
def State.cline (s : State) (ld dpa : Nat) : Option CLine := tget s.coal.lines (lineKey ld dpa)

/-- Release the line token of a line. -/
def dropLine (key : Nat) (s : State) : State :=
  match tget s.coal.lines key with
  | some l => s.modCoal (fun c => { c with lines := terase c.lines key, toks := c.toks.filter (· != l.tok) })
  | none => s

/-! ### Gathers (R71) -/

/-- Does a gather track the frame? -/
def Gather.isFor (g : Gather) (ld f i : Nat) : Bool := g.ld == ld && g.folio == f && g.frame == i

/-- Close an open gather, counting why (`idx` of R375). -/
def Gather.close (g : Gather) : Gather := { g with closed := true }

/-- Change the first open gather of a list; `none` where none is open. -/
def closeFirst : List Gather → Option (List Gather)
  | [] => none
  | g :: t => if g.closed then (closeFirst t).map (g :: ·) else some (g.close :: t)

/-- Close the oldest open gather. -/
def closeOldest (idx : Nat) (s : State) : State :=
  match closeFirst s.coal.gathers with
  | some l => (s.modCoal (fun c => { c with gathers := l })) |> cnt bCOAL idx 1
  | none => s

/-- Close every open gather that `p` picks (a SYNC, a drain, a RETIRE). DEDUCED, notes/assumptions/31.md. -/
def closeGathers (p : Gather → Bool) (s : State) : State :=
  let n := (s.coal.gathers.filter (fun g => !g.closed && p g)).length
  (s.modCoal (fun c => { c with gathers := c.gathers.map (fun g => if !g.closed && p g then g.close else g) }))
    |> cnt bCOAL 4 n

/-- Free line tokens below LINE_LOW: the oldest gather closes. -/
def linePressure (s : State) : State := if s.lineFree < s.get F.COAL_WM_LINE_LOW then closeOldest 4 s else s

/-- R71: GATHER_US has passed since the first line of the oldest open gather. -/
def execGatherTimeout (s : State) : Host.Outcome State Fault Refusal := .next (closeOldest 3 s)

def gatherMax : Nat := 16384

/-- Can a write be accepted now: a line token is free, or the line is held; and a descriptor is there for its frame (R28,
R71)? -/
def State.canAccept (s : State) (ld dpa : Nat) : Bool :=
  (s.cline ld dpa).isSome ||
    (decide (0 < s.lineFree) &&
      (s.coal.gathers.any (fun g => !g.closed && g.isFor ld (folioOf dpa) (frameOf dpa))
        || decide (s.coal.gathers.length < gatherMax)))

/-- A new frame finds no descriptor: the oldest gather closes (R71). -/
def gatherPressure (s : State) : State :=
  if s.coal.gathers.length < gatherMax then s
  else s |> setErr F.COAL_STATUS_GATHER_FULL intCoal |> closeOldest 4

/-- Put a line into its gather, opening one where none is open; the first write of an unmapped folio records the KID
(09_cipher_and_meridian.md R220, R227). -/
def gatherLine (ld dpa : Nat) (whole : Bool) (s : State) : State :=
  let f := folioOf dpa
  let i := frameOf dpa
  let isIt (g : Gather) : Bool := !g.closed && g.isFor ld f i
  if s.coal.gathers.any isIt then
    s.modCoal (fun c =>
      { c with gathers := c.gathers.map (fun g =>
          if isIt g then { g with lines := tset g.lines (lineOf dpa) (), whole := g.whole && whole } else g) })
  else
    let unmapped := foType (s.folio ld f) == 0
    let kid := if unmapped then s.curKid ld else foKid (s.folio ld f)
    let g : Gather := ⟨ld, f, i, [(lineOf dpa, ())], kid, unmapped, false, none, whole, s.now⟩
    (s.modCoal (fun c => { c with gathers := c.gathers ++ [g] })) |> when unmapped (refAdd kid)

/-- A gather whose frame is complete closes. -/
def gatherFull (ld dpa : Nat) (s : State) : State :=
  let isIt (g : Gather) : Bool := !g.closed && g.isFor ld (folioOf dpa) (frameOf dpa) && decide (256 ≤ g.lines.length)
  if s.coal.gathers.any isIt then
    (s.modCoal (fun c => { c with gathers := c.gathers.map (fun g => if isIt g then g.close else g) })) |> cnt bCOAL 2 1
  else s

/-- A write takes its line token and is captured into the journal (R28, R31, R71; 07_durability.md R166, R168). The
caller has made sure that it can. -/
def acceptLine (ld dpa mask : Nat) (data : Line) (poison : Bool) (s : State) : State :=
  let key := lineKey ld dpa
  let full := decide (mask = fullMask)
  let (a, s1) := takeAseq s
  let kid := if foType (s.folio ld (folioOf dpa)) = 0 then s.curKid ld else foKid (s.folio ld (folioOf dpa))
  let typ := if poison then recPline else if full then recLine else recPart
  let pay := if poison ∨ full then [data.toNat] else [mask, data.toNat]
  let s2 := buildLimit (captureAt a typ ld kid (dpa / 64) pay s1)
  let onList := s.onPoisonList ld dpa
  let s3 := match tget s.coal.lines key with
    | some l =>
      let n : CLine := { l with mask := l.mask ||| mask, full := l.full || full, data := mergeLine mask l.data data,
                                poison := poison || (l.poison && !full), aseq := a }
      s2.modCoal (fun c => { c with lines := tset c.lines key n })
    | none =>
      let t := lowestFree s.coal.toks
      s2.modCoal (fun c =>
        { c with toks := t :: c.toks, lines := tset c.lines key ⟨t, mask, full, mergeLine mask 0 data, poison || (onList && !full), a⟩ })
  let held := (tget s.coal.lines key).isSome
  let s4 := if held then
      s3.modCoal (fun c =>
        { c with gathers := c.gathers.map (fun g =>
            if g.isFor ld (folioOf dpa) (frameOf dpa) && g.lines.any (fun p => p.1 == lineOf dpa)
            then { g with whole := g.whole && full && !poison } else g) })
    else gatherLine ld dpa (full && !poison) (gatherPressure s3)
  let s5 := if poison then poisonAdd ld dpa 0 s4 else if full then poisonRemove ld dpa s4 else s4
  s5 |> when (poison || (onList && full)) (refreshPoisonAny ld (folioOf dpa))
    |> clearSealPend ld (folioOf dpa)
    |> cnt bCOAL 0 1 |> when (!full) (cnt bCOAL 1 1)
    |> gatherFull ld dpa |> coalStatus |> linePressure

/-! ### Staged frames (R73) -/

/-- The token of the frame in staging, STAGED or PROGRAMMING. -/
def State.stagedTok (s : State) (ld f i : Nat) : Option Nat :=
  (s.coal.frames.find? (fun p => p.2.ld == ld && p.2.folio == f && p.2.frame == i &&
    (p.2.st == .staged || p.2.st == .programming))).map (·.1)

/-- The lowest free frame token. DESIGN CHOICE, notes/assumptions/16.md. -/
def State.newFrameTok (s : State) : Nat := lowestFree s.frameToksUsed

def putFrame (t : Nat) (fr : Frame) (s : State) : State := s.modCoal (fun c => { c with frames := tset c.frames t fr })

/-- The plaintext of a line of a frame as the medium holds it: the line where the row holds this frame under the KID's
present key, otherwise an unstated value (R68, 09_cipher_and_meridian.md R215). -/
def mediaLine (pfa ld f i kid line : Nat) (s : State) : Line × State :=
  match s.row pfa with
  | some r =>
    if (r.kind == .data || r.kind == .filler) && r.ld == ld && r.folio == f && r.frame == i && r.kid == kid &&
        (r.key == s.keyOf kid || r.zero) then (tgetD 0 r.lines line, s)
    else takeLine s
  | none => takeLine s

/-- Every line of a frame on media. -/
def mediaLines (pfa ld f i kid : Nat) (s : State) : Tbl Line × State :=
  match s.row pfa with
  | some r =>
    if (r.kind == .data || r.kind == .filler) && r.ld == ld && r.folio == f && r.frame == i && r.kid == kid &&
        (r.key == s.keyOf kid || r.zero) then (r.lines, s)
    else (List.range 256).foldl (fun (a : Tbl Line × State) k =>
      let (v, t) := takeLine a.2
      (tput 0 a.1 k v, t)) ([], s)
  | none => (List.range 256).foldl (fun (a : Tbl Line × State) k =>
      let (v, t) := takeLine a.2
      (tput 0 a.1 k v, t)) ([], s)

/-- The lines of a gather with the numbers of their lines in the frame. -/
def State.gatherLines (s : State) (g : Gather) : List (Nat × CLine) :=
  g.lines.filterMap (fun p => (s.cline g.ld (dpaOf g.folio g.frame p.1)).map (fun l => (p.1, l)))

/-- Merge the lines of a gather over an image with its line mask: a full line without poison clears its mask bit. -/
def mergeOver (ls : List (Nat × CLine)) (img : Tbl Line) (mask : Nat) : Tbl Line × Nat :=
  ls.foldl (fun r p =>
    let new := mergeLine p.2.mask (tgetD 0 r.1 p.1) p.2.data
    let clean := r.2 - (r.2 &&& 2 ^ p.1)
    (tput 0 r.1 p.1 new,
      if p.2.poison then r.2 ||| 2 ^ p.1 else if p.2.full then clean else r.2)) (img, mask)

/-- The highest ASEQ of a gather's lines. -/
def maxAseq (ls : List (Nat × CLine)) : Nat := ls.foldl (fun a p => max a p.2.aseq) 0

/-- A gather is done: its line tokens are released, and the reference it held goes (R72, R227). -/
def gatherRemove (g : Gather) (s : State) : State :=
  let s1 := seqAll (fun p t => dropLine (lineKey g.ld (dpaOf g.folio g.frame p.1)) t) g.lines s
  coalStatus ((s1.modCoal (fun c => { c with gathers := c.gathers.erase g })) |> when g.kidRef (refSub g.kid))

/-- The gather closed complete with 256 full lines without poison while bypass is active: it bypasses the journal (R171). -/
def State.bypasses (s : State) (g : Gather) : Bool :=
  g.whole && decide ((s.gatherLines g).length = 256) && s.on F.DUR_STATUS_BYPASS_ACTIVE

/-- A bypassing frame: the LINE records of its lines that are not sealed are dropped, those of lines written twice too (R171). -/
def dropLineRecords (g : Gather) (s : State) : State :=
  (s.modDur (fun d =>
    { d with build := d.build.filter (fun r => !(r.typ == recLine && r.ld == g.ld && folioOf (r.addr * 64) == g.folio &&
        frameOf (r.addr * 64) == g.frame)) })) |> cnt bDUR 5 1

/-- Does the merge of a gather need the frame's old data (R72)? -/
def Gather.needsOld (ls : List (Nat × CLine)) : Bool := decide (ls.length < 256) || ls.any (fun p => !p.2.full)

/-- Stage a gather's frame under token `t` over the old copy `img`, `mask` (R56, R72). The FRAME record that names a token
switches nothing to media: its snapshot is 0, so that replay raises no floor by it (07_durability.md R162, R188). DEDUCED, notes/assumptions/37.md. -/
def stageGather (g : Gather) (t : Nat) (img : Tbl Line) (mask : Nat) (s : State) : State :=
  let ls := s.gatherLines g
  let (lines, lmask) := mergeOver ls img mask
  let s1 := folioSplit g.ld g.folio g.kid s
  let e := s1.folio g.ld g.folio
  let fe := s1.frameOfFolio e g.frame
  let seq := maxAseq ls
  let byp := s.bypasses g
  let fr : Frame := { ld := g.ld, folio := g.folio, frame := g.frame, kid := foKid e, key := s.keyOf (foKid e), st := .staged,
                      redirty := false, lines := lines, lmask := lmask, seq := seq, placed := none, bypass := byp,
                      free := false, order := s.coal.nextOrder, src := 0, zero := false, run := false }
  s1 |> setFrame g.ld g.folio (foTable e) g.frame (mkFrame 2 (lmask != 0) t) 0
    |> when (frState fe == 1) (unitSub (frLoc fe))
    |> clearSealPend g.ld g.folio
    |> (fun u => u.modCoal (fun c => { c with nextOrder := c.nextOrder + 1, entered := c.entered + 1 }))
    |> putFrame t fr |> stageWrite t (List.range 256)
    |> when byp (dropLineRecords g)
    |> cnt bCOAL 5 1 |> gatherRemove g
    |> refreshPoisonAny g.ld g.folio

/-- Merge a gather into its staged frame (R72, R73); a complete one bypasses the journal there too (07_durability.md R171). -/
def mergeStaged (g : Gather) (t : Nat) (fr : Frame) (s : State) : State :=
  let ls := s.gatherLines g
  let (lines, lmask) := mergeOver ls fr.lines fr.lmask
  let e := s.folio g.ld g.folio
  let s1 := putFrame t { fr with lines := lines, lmask := lmask, seq := max fr.seq (maxAseq ls),
                                 redirty := fr.redirty || decide (fr.st = .programming), bypass := fr.bypass || s.bypasses g } s
    |> stageWrite t (ls.map (·.1)) |> when (s.bypasses g) (dropLineRecords g)
  let s2 := if foType e = 2 ∧ (decide (lmask ≠ 0) ≠ decide (fr.lmask ≠ 0)) then
      setFrame g.ld g.folio (foTable e) g.frame (mkFrame 2 (lmask != 0) t) 0 s1 else s1
  s2 |> clearSealPend g.ld g.folio |> gatherRemove g |> refreshPoisonAny g.ld g.folio

/-- What a closed gather can do now. -/
inductive MergeHow where
  | wait
  /-- merge into the frame under this token -/
  | into (t : Nat) (fr : Frame)
  /-- stage over zeros, over poison, or after a media read of this PFA -/
  | zeros
  | poisoned
  | media (pfa : Nat)
  deriving DecidableEq, Repr

/-- How the oldest closed gather of a frame merges (R59, R70, R72). -/
def State.mergeHow (s : State) (g : Gather) : MergeHow :=
  let e := s.folio g.ld g.folio
  if s.sectorBad (s.folioWord g.ld (g.folio)) then .wait
  else
    match s.stagedTok g.ld g.folio g.frame with
    | some t => (match tget s.coal.frames t with | some fr => .into t fr | none => .wait)
    | none =>
      if s.frameFree = 0 then .wait
      else if foType e ≠ 2 ∧ !s.tableForWrite then .wait
      else if foType e = 2 ∧ s.sectorBad (s.frameWord (foTable e) g.frame) then .wait
      else
        let fe := s.frameOfFolio e g.frame
        if !Gather.needsOld (s.gatherLines g) then .zeros
        else if frState fe = 1 then .media (frLoc fe)
        else if frState fe = 3 then .poisoned
        else .zeros

/-- The oldest closed gather that can proceed: no older closed gather of its frame waits before it. -/
def State.mergeable (s : State) : List Gather → List Gather → Option Gather
  | _, [] => none
  | seen, g :: t =>
    if g.closed && g.merging.isNone && !seen.any (fun h => h.isFor g.ld g.folio g.frame) && decide (s.mergeHow g ≠ .wait)
    then some g else s.mergeable (g :: seen) t

/-- Every line poisoned. -/
def allPoison : Nat := 2 ^ 256 - 1

/-- R72: the oldest closed gather that can proceed takes a frame token and merges, or its media read starts. -/
def gatherMerge (s : State) : State :=
  match s.mergeable [] s.coal.gathers with
  | none => s
  | some g =>
    match s.mergeHow g with
    | .wait => s
    | .into t fr => coalStatus (mergeStaged g t fr s)
    | .zeros => coalStatus (stageGather g s.newFrameTok [] 0 s)
    | .poisoned => coalStatus (stageGather g s.newFrameTok [] allPoison s)
    | .media _ =>
      let t := s.newFrameTok
      coalStatus (s.modCoal (fun c =>
        { c with gathers := c.gathers.map (fun x => if x = g then { x with merging := some t } else x) }))

/-! ### Drains and holds -/

/-- Every run hold ends (R441). -/
def releaseHolds (p : Frame → Bool) (s : State) : State :=
  s.modCoal (fun c => { c with frames := c.frames.map (fun e => if p e.2 then (e.1, { e.2 with free := true }) else e) })

/-- A SYNC, a GPF or a mode-entry drain: gathers close, holds end, and the commit is forced (R71, R170, R441). -/
def syncDrain (w : ForceFor) (s : State) : State :=
  s |> closeGathers (fun _ => true) |> releaseHolds (fun _ => true) |> forceCommit w

/-- R170: a write of DUR_SYNC with GO starts a SYNC; DONE is W1C. -/
def durSync (v : Nat) (s : State) : State :=
  let s1 := storeAt 0x50060 v s
  if v.testBit 31 then syncDrain .sync (setF F.DUR_SYNC_DONE 0 s1) else s1

def execDurSyncGo (_m : Master) (v : BitVec 32) (s : State) : Host.Outcome State Fault Refusal := .next (durSync v.toNat s)

/-- R441: the hold of the frame that has been STAGED longest ends. DEDUCED, notes/assumptions/31.md. -/
def runHoldExpiry (s : State) : State :=
  let held := s.coal.frames.filter (fun e => e.2.st == .staged && e.2.placed.isNone && !e.2.free)
  match held.foldl (fun (b : Option (Nat × Frame)) e =>
      match b with
      | none => some e
      | some x => if e.2.order < x.2.order then some e else some x) none with
  | some e => putFrame e.1 { e.2 with free := true } s
  | none => s

def execRunHoldExpiry (s : State) : Host.Outcome State Fault Refusal := .next (runHoldExpiry s)

/-! ### Unmapping a folio (R58) -/

/-- A frame of staging is dropped: its token is released; a slot given to it and not yet programmed becomes a filler.
DEDUCED, notes/assumptions/31.md. -/
def dropFrame (t : Nat) (s : State) : State :=
  match tget s.coal.frames t with
  | none => s
  | some fr =>
    let s1 := s.modCoal (fun c => { c with frames := terase c.frames t, dropped := c.dropped + 1 })
    coalStatus (match fr.placed with
      | some p => if tget s1.fld.jobs p = some (.frame t) then
          s1.modFld (fun f => { f with jobs := tset f.jobs p .filler }) else s1
      | none => s1)

/-- DISCARD of a folio: its gathers and staged frames are dropped and it is unmapped (R58). -/
def discardFolio (ld f : Nat) (s : State) : State :=
  let gs := s.coal.gathers.filter (fun g => g.ld == ld && g.folio == f)
  let s1 := seqAll gatherRemove gs s
  let ts := (s1.coal.frames.filter (fun e => e.2.ld == ld && e.2.folio == f &&
    (e.2.st == .staged || e.2.st == .programming))).map (·.1)
  coalStatus (folioUnmap ld f (seqAll dropFrame ts s1))

/-- Is a folio mapped? -/
def State.mapped (s : State) (ld f : Nat) : Bool := let t := foType (s.folio ld f); t == 1 || t == 2

/-! ### Reading the newest copy (R55) -/

/-- Where the newest copy of a line lies. -/
inductive Newest where
  | poison
  | line (d : Line)
  | zeros
  /-- on media at a PFA; bytes of a partial line are merged over it -/
  | media (pfa : Nat)
  deriving DecidableEq, Repr

/-- The place after the coalescing buffer that holds the line (R55): staging, then the map's word on it. -/
def State.below (s : State) (ld dpa e fe : Nat) : Newest :=
  match s.stagedTok ld (folioOf dpa) (frameOf dpa) with
  | some t =>
    match tget s.coal.frames t with
    | some fr => if fr.lmask.testBit (lineOf dpa) then .poison else .line (tgetD 0 fr.lines (lineOf dpa))
    | none => .zeros
  | none =>
    if foType e = 3 then .poison
    else if foType e = 0 then .zeros
    else if frState fe = 1 then .media (frLoc fe)
    else if frState fe = 3 then .poison
    else .zeros

end Sys2Proof.Machine
end

