-- ==== Sys2Proof/Machine/Drift.lean ====
section
/-! DEFINITION. Drift records, measurements, reference positions, seeing, the rewrite queue and the scrub pass
(05_drift_and_references.md R110 to R130). -/

namespace Sys2Proof.Machine

/-! ### Records and positions -/

/-- The record of a set. -/
def State.drec (s : State) (set : Nat) : DRec := tgetD DRec.reset s.drift.recs set

def putDrec (set : Nat) (r : DRec) (s : State) : State :=
  s.modDrift (fun d => { d with recs := tput DRec.reset d.recs set r })

/-- A drift record as its 32 bits (R113). -/
def DRec.word (r : DRec) : Nat :=
  r.valid.toNat * 2 ^ 31 + r.src * 2 ^ 29 + r.member * 2 ^ 26 + r.cls * 2 ^ 22 + r.mtime

/-- DRIFT_MINUTES[17:0]. -/
def State.mtime (s : State) : Nat := s.get F.DRIFT_MINUTES_MINUTES % 2 ^ 18

/-- Write the record of a set, and rescore the set under its new age class. -/
def writeDrec (set src member cls : Nat) (s : State) : State :=
  rescore set (putDrec set ⟨true, src, member, cls, s.mtime⟩ s)

/-- Is the field in 1-bit mode (R119)? -/
def State.oneBit (s : State) (pfa : Nat) : Bool := (s.frec (pfaFieldNo pfa)).mode1

/-- A 4-bit set: none of its fields is in 1-bit mode. -/
def State.set4 (s : State) (set : Nat) : Bool := !(setFields set).any (fun f => (s.frec f).mode1)

/-- The cells of a star leaf at a level (R109): leaf 0 of both rows holds 288 at level 14 and 288 at level 15, in row 0 beginning with
level 14 and in row 1 with level 15; every other leaf 36 at each of the 16 levels, in an order that the CHAN segment gives. -/
def starCells (leaf level : Nat) : Nat := if leaf = 0 then (if level = 14 ∨ level = 15 then 288 else 0) else 36

/-- The level of a cell of leaf 0 of star row 0 or 1. -/
def starLevel (row cell : Nat) : Nat := if (row + cell) % 2 = 0 then 14 else 15

/-- Does a read of the PFA wait for a measurement (R120, R121)? -/
def State.unmeasured (s : State) (pfa : Nat) : Bool :=
  !s.oneBit pfa && !s.on F.DRIFT_CTL_FORCE_EN && !(s.drec (setOf pfa)).valid

/-- The age position of the reads of a set (R112, R121). -/
def State.agePos (s : State) (set : Nat) : Nat :=
  4 * (if s.on F.DRIFT_CTL_FORCE_EN then s.get F.DRIFT_CTL_FORCE_CLASS else (s.drec set).cls) + 2

/-- Entry (class, k) of a channel's table (R117, R130). -/
def State.tblEntry (s : State) (c cls k : Nat) : Int :=
  let b := cls * 15 + k - 1
  sbyte (s.get (F.DRIFT_TBL c (b / 4)) / 2 ^ (8 * (b % 4)))

/-- The age position of ladder step 0 to 3 (R123). -/
def stepPos (pos step : Nat) : Nat :=
  match step with
  | 1 => pos + 4
  | 2 => pos - 4
  | 3 => pos + 8
  | _ => pos

/-- The offsets of a READ of a PFA at a position and ladder step (R118, R119, R123). -/
def State.readOffsets (s : State) (pfa pos step : Nat) : List Int :=
  if s.oneBit pfa then [[0, 32, -32, 64].getD step 0]
  else refOffsets (fun c k => s.tblEntry (pfaCh pfa) c k) (stepPos pos step)

/-! ### Which members can be measured (R92, R120) -/

/-- The die runs a program or an erase; a journal program that still waits in the page register does not count (R92; 07_durability.md
R164). -/
def State.dieWorks (s : State) (dieNo : Nat) : Bool :=
  match (tgetD DieSt.reset s.med.dies dieNo).op with
  | .program _ _ => !(tgetD DieSt.reset s.med.dies dieNo).hold
  | .erase _ _ => true
  | _ => false

/-- Member k of group g counts as busy (R92). -/
def State.memberBusy (s : State) (g k : Nat) : Bool :=
  s.memberOut g k || s.dieWorks (memberCh g k * 8 + memberDie g)

/-- The measuring member: the preferred one if it is not busy, otherwise the first that is not in the order given; the
preferred one, read under suspend, where none is. -/
def State.measMember (s : State) (set pref : Nat) (order : List Nat) : Nat :=
  if !s.memberBusy (setGroup set) pref then pref
  else (order.find? (fun k => !s.memberBusy (setGroup set) k)).getD pref

/-- The measuring member of a sweep, due or scrub measurement. Where member FIELD mod 8 is busy the rule names no other for a set
without SRC 0b10: the lowest-numbered that is not busy measures it. DESIGN CHOICE, notes/assumptions/73.md. -/
def State.measOwn (s : State) (set : Nat) : Nat :=
  let r := s.drec set
  if r.valid && r.src == 2 then
    let p := (r.member + 1) % 8
    s.measMember set p ((List.range 8).map (fun i => (p + i) % 8))
  else s.measMember set (setField set % 8) (List.range 8)

/-- SWEEP_BUSY: the sweep still measures. -/
def sweepStatus (s : State) : State := setB F.DRIFT_STATUS_SWEEP_BUSY (s.drift.meas.any (·.sweep)) s

/-- Start a measurement, or join the one in flight, promoting it (R121). -/
def measStart (set member cls : Nat) (sweep : Bool) (s : State) : State :=
  if s.on F.DRIFT_CTL_FORCE_EN || !s.set4 set then s
  else if s.drift.meas.any (fun m => m.set == set) then
    s.modDrift (fun d => { d with meas := d.meas.map (fun m => if m.set = set then { m with cls := min m.cls cls } else m) })
  else sweepStatus (s.modDrift (fun d => { d with meas := d.meas ++ [⟨set, member, cls, 0, 0, 15, 576, sweep⟩] }))

/-- A measurement of class 6 for a set. -/
def measOwnStart (set : Nat) (sweep : Bool) (s : State) : State := measStart set (s.measOwn set) 6 sweep s

/-- The sets of 4-bit fields that are not FREE and have no record, of those that `p` picks: the sweep measures them (R122). -/
def sweepStart (p : Nat → Bool) (s : State) : State :=
  if s.on F.DRIFT_CTL_SWEEP_EN then
    let used := (((s.fld.tbl.filter (fun e => e.2.st != fFree)).map (fun e => fieldSet e.1)).eraseDups).mergeSort
    seqAll (fun x t => measOwnStart x true t) (used.filter (fun x => p x && s.set4 x && !(s.drec x).valid)) s
  else s

/-- Reads that waited for a set go on at its position. -/
def measServe (set : Nat) (s : State) : State :=
  s.modMed (fun m => { m with reads := m.reads.map (fun r =>
    if r.waitMeas && setOf r.pfa == set then { r with waitMeas := false, pos := s.agePos set } else r) })

/-- The measurement of a set ends. -/
def measRemove (set : Nat) (s : State) : State :=
  sweepStatus (s.modDrift (fun d => { d with meas := d.meas.filter (fun m => m.set != set) }))

/-! ### Seeing and the rewrite queue (R126 to R128) -/

/-- The seeing record of a field: as the seeing cache holds it, otherwise as working memory does. -/
def State.see (s : State) (fno : Nat) : See :=
  match s.drift.cache.find? (fun e => e.1 == fno) with
  | some e => e.2
  | none => tgetD See.reset s.drift.see fno

/-- Every seeing record that is not zero, wherever it lies. -/
def State.seeAll (s : State) : Tbl See := s.drift.cache.foldl (fun t e => tput See.reset t e.1 e.2) s.drift.see

/-- A seeing record as its 64 bits (R126). -/
def See.word (r : See) : Nat :=
  r.maxBits * 2 ^ 59 + r.maxStep * 2 ^ 56 + r.rwReq.toNat * 2 ^ 55 + r.rwPosted.toNat * 2 ^ 54 + r.retried * 2 ^ 42
    + r.disturb * 2 ^ 18 + r.corr

/-- A seeing record from its 64 bits. -/
def See.ofWord (w : Nat) : See where
  maxBits := w / 2 ^ 59 % 32
  maxStep := w / 2 ^ 56 % 8
  rwReq := w.testBit 55
  rwPosted := w.testBit 54
  retried := w / 2 ^ 42 % 4096
  disturb := w / 2 ^ 18 % 2 ^ 24
  corr := w % 2 ^ 18

/-- A seeing record is written to the table in working memory. -/
def seeStore (fno : Nat) (r : See) (s : State) : State :=
  wmWriteBytes (s.get F.DRIFT_SEE_BASE * 2 ^ 20 + fno * 8) 8 r.word (s.modDrift (fun d => { d with see := tput See.reset d.see fno r }))

/-- A record's update goes to the seeing cache of 4,096 entries; the oldest entry is written back where none is free (R126). DESIGN
CHOICE, notes/assumptions/84.md. -/
def modSee (fno : Nat) (f : See → See) (s : State) : State :=
  let r := f (s.see fno)
  if s.drift.cache.any (fun e => e.1 == fno) then
    s.modDrift (fun d => { d with cache := d.cache.map (fun e => if e.1 = fno then (fno, r) else e) })
  else
    let s1 := match s.drift.cache with
      | e :: t => if 4096 ≤ s.drift.cache.length then seeStore e.1 e.2 (s.modDrift (fun d => { d with cache := t })) else s
      | [] => s
    s1.modDrift (fun d => { d with cache := d.cache ++ [(fno, r)] })

/-- Post a field that has RW_REQ and is not posted, while AUTO_RW is 1 (R128). DEDUCED, notes/assumptions/36.md. -/
def rwPost (fno : Nat) (s : State) : State :=
  let r := s.see fno
  if s.on F.DRIFT_CTL_AUTO_RW && r.rwReq && !r.rwPosted then
    if s.drift.rwq.length < 1024 then
      (modSee fno (fun r => { r with rwPosted := true }) s).modDrift (fun d => { d with rwq := d.rwq ++ [fno] })
        |> setF F.DRIFT_RWQ_DEPTH (s.drift.rwq.length + 1)
    else setErr F.DRIFT_ERR_STATUS_RWQ_OVF intDrift s
  else s

/-- A trigger sets RW_REQ while AUTO_RW is 1, and posts the field. DEDUCED, notes/assumptions/36.md. -/
def rwTrigger (fno : Nat) (s : State) : State :=
  if s.on F.DRIFT_CTL_AUTO_RW then rwPost fno (modSee fno (fun r => { r with rwReq := true }) s) else s

/-- `n` array reads of a field. -/
def seeReads (fno n : Nat) (s : State) : State :=
  let s1 := modSee fno (fun r => { r with disturb := min 0xFFFFFF (r.disturb + n) }) s
  if s.get F.DRIFT_RW_CFG_DISTURB * 65536 ≤ (s1.see fno).disturb then rwTrigger fno s1 else s1

/-- An array read of a row. -/
def arrayRead (pfa : Nat) (s : State) : State := s |> seeReads (pfaFieldNo pfa) 1 |> cnt (bMCH (pfaCh pfa)) 1 1

/-- A leaf was decoded and served at ladder step `step` with `bits` corrected bits: seeing, the media error table, the
channel's counters (R127, R128; 08_working_memory.md R209). -/
def leafServed (pfa leaf step bits : Nat) (s : State) : State :=
  let fno := pfaFieldNo pfa
  let s1 := modSee fno (fun r =>
    { r with maxBits := max r.maxBits bits, maxStep := max r.maxStep step, corr := min 0x3FFFF (r.corr + bits),
             retried := if 1 ≤ step then min 4095 (r.retried + 1) else r.retried }) s
  let s2 := if s.get F.DRIFT_RW_CFG_BITS ≤ bits ∨ s.get F.DRIFT_RW_CFG_STEPS ≤ step then rwTrigger fno s1 else s1
  let s3 := if step = 0 then s2
    else if step ≤ 2 then s2 |> incF F.DRIFT_STEP_CNT_STEP12 1 |> cnt bDRIFT (3 + step) 1
    else if step = 3 then s2 |> incF F.DRIFT_STEP_CNT_STEP3 1 |> cnt bDRIFT 6 1
    else s2 |> incF F.DRIFT_STEP_CNT_STEP4 1 |> cnt bDRIFT 7 1
  s3 |> mediaErr pfa leaf step bits
    |> when (decide (0 < bits)) (fun t => t |> cnt (bMCH (pfaCh pfa)) 12 1 |> cnt (bMCH (pfaCh pfa)) 13 bits)

/-- A leaf was UNCORRECTABLE or MISCORRECTED at its first reading; the latter is handled as the former too (R90). -/
def leafFirstFail (pfa : Nat) (miscorr : Bool) (s : State) : State :=
  let c := pfaCh pfa
  s |> when miscorr (setErr (F.MCH_ERR_STATUS_MISCORR c) intMch) |> setErr (F.MCH_ERR_STATUS_UNCORR c) intMch |> cnt (bMCH c) 14 1

/-- A leaf reaches step 5 (R125). -/
def leafFailed (pfa leaf : Nat) (s : State) : State :=
  let fno := pfaFieldNo pfa
  s |> modSee fno (fun r => { r with maxStep := 5 }) |> rwTrigger fno
    |> incF F.DRIFT_STEP_CNT_FAILED 1 |> cnt bDRIFT 8 1
    |> setErr F.DRIFT_ERR_STATUS_LADDER_FAIL intDrift
    |> logPut sevError 0x0702 (pfa % 2 ^ 32) (pfa / 2 ^ 32) leaf 0

/-! ### What waits on a plane (R91, R96, R100) -/

/-- The leaves a read still wants: its data leaf, and the header leaf where it needs that too. -/
def RdReq.needs (q : RdReq) : List Nat := (if q.got then [] else [q.leaf]) ++ (if q.hdr && !q.hgot then [64] else [])

/-- The read stands in its plane's queue: it wants an array read of its own die. -/
def RdReq.queued (q : RdReq) : Bool := !q.waitMeas && q.mode != .rebuild && decide (q.step < 4)

/-- Does the read want what this READ brings: its row, its leaves, its offsets? -/
def State.wants (s : State) (q : RdReq) (pfa mask : Nat) (offs : List Int) : Bool :=
  q.pfa == pfa && q.queued && q.needs.all mask.testBit && decide (s.readOffsets pfa q.pos q.step = offs)

/-- The plane serves the read now. -/
def State.serving (s : State) (q : RdReq) : Bool :=
  match tget s.med.planes (pfaPlaneNo q.pfa) with
  | some (.read pfa mask offs _) => s.wants q pfa mask offs
  | _ => false

/-- The read at the head of a plane's queue: the lowest class, the oldest within it (R91). -/
def State.headRead (s : State) (plane : Nat) : Option RdReq :=
  (s.med.reads.filter (fun q => q.queued && pfaPlaneNo q.pfa == plane && !s.serving q)).foldl (fun b q =>
    match b with
    | none => some q
    | some x => if q.cls < x.cls ∨ (q.cls = x.cls ∧ q.id < x.id) then some q else some x) none

/-- The lowest class of the measurements that probe a plane. -/
def State.headMeas (s : State) (plane : Nat) : Option Nat :=
  (s.drift.meas.filter (fun m => pfaPlaneNo (setPfa m.set m.member m.row) == plane)).foldl (fun b m =>
    match b with
    | none => some m.cls
    | some x => some (min x m.cls)) none

/-- A READ may start: it serves the head of its plane's queue, and no probe of a lower class waits. With no read in the queue it is
one of a unit that reads for itself. -/
def State.readTurn (s : State) (pfa mask : Nat) (offs : List Int) : Bool :=
  match s.headRead (pfaPlaneNo pfa) with
  | some q => s.wants q pfa mask offs && (match s.headMeas (pfaPlaneNo pfa) with | some c => decide (q.cls ≤ c) | none => true)
  | none => true

/-- A probe of the plane may start: no read of a lower or the same class waits. -/
def State.starTurn (s : State) (plane : Nat) : Bool :=
  match s.headRead plane, s.headMeas plane with
  | some q, some c => decide (c < q.cls)
  | some _, none => false
  | none, _ => true

/-! ### The leaf buffer (R101) -/

/-- Is the leaf in its channel's leaf buffer? DESIGN CHOICE, notes/assumptions/29.md. -/
def State.inBuffer (s : State) (pfa leaf : Nat) : Bool :=
  s.on (F.MCH_CTL_LBUF_EN (pfaCh pfa)) &&
    (tgetD [] s.med.lbuf (pfaCh pfa)).any (fun e => e.pfa == pfa && e.leaf == leaf)

/-- Entries of a leaf buffer. -/
def bufferSize : Nat := 256

/-- How many entries a list has too many. -/
def bufferOver (l : List LbEnt) : Nat := l.length - bufferSize

/-- Read-ahead leaves of a channel that were not used. -/
def wasteAhead (c n : Nat) (s : State) : State :=
  if n = 0 then s else s |> incF (F.MCH_RA_CNT_WASTED c) n |> cnt (bMCH c) 11 n

/-- Put decoded data leaves of a row into the leaf buffer of its channel while that is ONLINE; the oldest entries go, and count
as wasted where they were read ahead and not used (R101, R104). -/
def bufferLeaves (pfa : Nat) (leaves : List Nat) (ahead : Bool) (s : State) : State :=
  let c := pfaCh pfa
  let l := tgetD [] s.med.lbuf c
  let new := leaves.filter (fun j => decide (j < 64) && !l.any (fun e => e.pfa == pfa && e.leaf == j))
  if !s.on (F.MCH_CTL_LBUF_EN c) || decide (s.get (F.MCH_STATUS_STATE c) ≠ 2) || new.isEmpty then s
  else
    let l1 := l ++ new.map (fun j => (⟨pfa, j, ahead⟩ : LbEnt))
    let gone := l1.take (bufferOver l1)
    wasteAhead c (gone.filter (·.ahead)).length
      (s.modMed (fun m => { m with lbuf := tset m.lbuf c (l1.drop (bufferOver l1)) }))

/-- The other members of the stripe set of a PFA. -/
def partners (pfa : Nat) : List Nat := (List.range 8).filter (· != memberOf (pfaCh pfa))

/-- The reads of a rebuild that runs to its end beside a ladder: an array read of each partner in service; without one of them it
fails (R95). -/
def partnerReads (pfa : Nat) (s : State) : State :=
  let g := setGroup (setOf pfa)
  let ks := (partners pfa).filter (fun k => !s.memberOut g k)
  let s1 := seqAll (fun k t => arrayRead (setPfa (setOf pfa) k (pfaRow pfa)) t) ks (cnt (bMCH (pfaCh pfa)) 9 1 s)
  if ks.length < 7 then setErr (F.MCH_ERR_STATUS_REBUILD_FAIL (pfaCh pfa)) intMch s1 else s1

/-- The outcome of the whole ladder of a leaf that a mover, VERIFY, the scrub, a merge or a ring command read (R123): `step` 5
failed, `mis`: its first decode was MISCORRECTED. From step 1 on the rebuild's reads run, and the set is measured anew where the leaf
was served (R114). -/
def leafLadder (pfa leaf step bits : Nat) (mis : Bool) (s : State) : State :=
  let n := min step 3
  let s1 := if step = 0 then s
    else s |> leafFirstFail pfa mis |> seeReads (pfaFieldNo pfa) n |> cnt (bMCH (pfaCh pfa)) 1 n |> partnerReads pfa
  if step < 5 then
    s1 |> when (decide (0 < step)) (measOwnStart (setOf pfa) false) |> leafServed pfa leaf step bits |> bufferLeaves pfa [leaf] false
  else leafFailed pfa leaf s1

/-! ### The result of a measurement (R114, R120) -/

/-- A star row is rejected: row 1 is measured, or the fallback is written. DEDUCED, notes/assumptions/36.md. -/
def measReject (m : Meas) (s : State) : State :=
  let s0 := cnt bDRIFT 2 1 s
  if m.row = 0 then
    s0.modDrift (fun d => { d with meas := d.meas.map (fun x =>
      if x.set = m.set then { x with row := 1, lo := 0, hi := 15, best := 576 } else x) })
  else
    s0 |> writeDrec m.set 2 m.member (s.get F.DRIFT_MEAS_CFG_FAIL_CLASS)
      |> setErr F.DRIFT_ERR_STATUS_MEAS_FAIL intDrift |> logPut sevError 0x0701 m.set 0 0 0
      |> (fun t => seqAll rwTrigger (setFields m.set) t)
      |> measRemove m.set |> measServe m.set |> cnt bDRIFT 0 1

/-- A probe returns E14 and E15: the search goes on, or the row is accepted or rejected. -/
def measProbe (m : Meas) (e14 e15 : Nat) (s : State) : State :=
  let mid := (m.lo + m.hi + 1) / 2
  let best := min m.best (e14 + e15)
  let lo := if e15 < e14 then mid else m.lo
  let hi := if e15 < e14 then m.hi else mid - 1
  let s0 := cnt bDRIFT 1 1 s
  if lo < hi then
    s0.modDrift (fun d => { d with meas := d.meas.map (fun x =>
      if x.set = m.set then { x with lo := lo, hi := hi, best := best } else x) })
  else if s.get F.DRIFT_MEAS_CFG_MAX_ERR < best then measReject m s0
  else s0 |> writeDrec m.set m.row m.member lo |> measRemove m.set |> measServe m.set |> cnt bDRIFT 0 1

/-- The sweep offset of the probe a measurement waits for. -/
def State.measSweep (s : State) (m : Meas) : Int :=
  s.tblEntry (memberCh (setGroup m.set) m.member) ((m.lo + m.hi + 1) / 2) 15

/-- A probe of a measurement is in flight. -/
def State.probing (s : State) (m : Meas) : Bool :=
  s.med.planes.any (fun e => match e.2 with
    | .star pfa _ _ => pfa == setPfa m.set m.member m.row
    | _ => false)

/-- R121: the chosen measurements whose member is out go on at another member. DEDUCED, notes/assumptions/36.md. -/
def measShift (p : Meas → Bool) (s : State) : State :=
  s.modDrift (fun d => { d with meas := d.meas.map (fun m =>
    if p m && s.memberOut (setGroup m.set) m.member then { m with member := s.measMember m.set m.member (List.range 8) } else m) })

/-! ### Clearing records -/

/-- VALID of the record of a set is cleared when its first field is erased; a measurement in flight is discarded, and the reads
that waited for it wait for a new one (R114). -/
def drecClear (set : Nat) (s : State) : State := s |> putDrec set { s.drec set with valid := false } |> measRemove set |> rescore set

/-- VALID of every record is cleared (R114). -/
def drecClearAll (s : State) : State :=
  let s1 := sweepStatus (s.modDrift (fun d => { d with recs := d.recs.map (fun p => (p.1, { p.2 with valid := false })), meas := [] }))
  seqAll (fun p t => rescore p.1 t) s.drift.recs s1

/-! ### Minutes, due records, the scrub -/

/-- R115: a whole minute of ACTIVE or QUIET time. -/
def execDriftMinuteTick (s : State) : Host.Outcome State Fault Refusal :=
  .next (if s.glb.mode = .active ∨ s.glb.mode = .quiet then
    (s.modDrift (fun d => { d with partMin := 0 })) |> setF F.DRIFT_MINUTES_MINUTES (s.get F.DRIFT_MINUTES_MINUTES + 1)
    else s)

/-- The re-measurement interval of a class in minutes (R111). -/
def dueAfter (cls : Nat) : Nat := [1, 2, 6, 20, 60, 180, 600, 1800, 5760].getD cls 0

/-- Is the record of a set due? -/
def State.isDue (s : State) (set : Nat) : Bool :=
  let r := s.drec set
  r.valid && decide (r.cls ≤ 8) && decide (dueAfter r.cls ≤ (s.mtime + 2 ^ 18 - r.mtime) % 2 ^ 18)

/-- R115: in ACTIVE a due record is re-measured. -/
def execDriftDue (set : Fin 1048576) (s : State) : Host.Outcome State Fault Refusal :=
  .next (if s.glb.mode = .active ∧ s.dur.drain = 0 ∧ s.isDue set.val then measOwnStart set.val false s else s)

/-- The sets whose fields are not FREE, rising. -/
def State.usedSets (s : State) : List Nat :=
  (((s.fld.tbl.filter (fun p => p.2.st != fFree)).map (fun p => fieldSet p.1)).eraseDups).mergeSort

/-- The set the scrub visits next, and whether the pass starts anew with it. -/
def State.scrubNext (s : State) : Option (Nat × Bool) :=
  match s.usedSets.find? (fun x => decide (s.get F.DRIFT_SCRUB_POS_SET ≤ x)) with
  | some x => some (x, false)
  | none => s.usedSets.head?.map (fun x => (x, true))

/-- The row and leaf of sample i of a field. -/
def scrubRow (sample i : Nat) : Nat := 2 + i * 8190 / sample

/-- The samples of a member that stand on programmed rows of a die in service. -/
def State.scrubSamples (s : State) (set k : Nat) : List Nat :=
  let n := s.get F.DRIFT_SCRUB_CFG_SAMPLE
  if s.memberOut (setGroup set) k then []
  else (List.range n).filter (fun i => (s.row (setPfa set k (scrubRow n i))).isSome)

/-- The scrub's reads of a set wait: for its first measurement (R120), or for a program or erase of one of its dies, which class 6
never suspends (04_media_channels.md R91). -/
def State.scrubWaits (s : State) (set : Nat) : Bool :=
  s.unmeasured (setPfa set 0 2) || (List.range 8).any (fun k => s.dieWorks (memberCh (setGroup set) k * 8 + memberDie (setGroup set)))

/-- R129: the next set is re-measured, sampled and posted. Samples that are not listed decode CLEAN at step 0. -/
def scrubVisit (leaves : List ScrubLeaf) (s : State) : State :=
  if s.on F.DRIFT_CTL_SCRUB_EN && decide (s.glb.mode = .active) && s.dur.drain == 0 then
    match s.scrubNext with
    | none => s
    | some (set, wrapped) =>
      let last := !s.usedSets.any (fun x => decide (set < x))
      if s.scrubWaits set then measOwnStart set false s else
      let n := s.get F.DRIFT_SCRUB_CFG_SAMPLE
      let s1 := measOwnStart set false s
      let s2 := seqAll (fun k t =>
          let m := (s.scrubSamples set k).length
          t |> seeReads (setFieldNo set k) m |> cnt (bMCH (memberCh (setGroup set) k)) 1 m) (List.range 8) s1
      let s3 := seqAll (fun (l : ScrubLeaf) t =>
          if (s.scrubSamples set l.member.val).contains l.i then
            let p := setPfa set l.member.val (scrubRow n l.i)
            let bits := match l.out with | .corrected b => b | _ => 0
            leafLadder p (l.i % 64) l.step bits (l.out == .miscorrected) t
          else t) leaves s2
      seqAll rwPost (setFields set) s3
        |> setF F.DRIFT_SCRUB_POS_SET (if last then 0 else set + 1)
        |> incF F.DRIFT_SCRUB_POS_PASSES (wrapped.toNat + last.toNat)
  else s

def execScrubVisit (leaves : List ScrubLeaf) (s : State) : Host.Outcome State Fault Refusal := .next (scrubVisit leaves s)

/-! ### Registers -/

/-- R130: DRIFT_QUERY with GO fetches one record. -/
def driftQuery (n : Nat) (s : State) : State :=
  if n.testBit 63 then s |> setF F.DRIFT_QUERY_RESULT_RECORD (s.drec (n % 2 ^ 20)).word |> setF F.DRIFT_QUERY_RESULT_DONE 1 else s

def execDriftQuery (_m : Master) (v : Word) (s : State) : Host.Outcome State Fault Refusal := .next (driftQuery v.toNat s)

/-- A write of DRIFT_CTL: setting FORCE_EN ends the measurements, and the reads that waited run at the forced class
(R121). What becomes of a measurement in flight the rule does not say: it is dropped. DESIGN CHOICE, notes/assumptions/74.md. -/
def driftCtl (v : Nat) (s : State) : State :=
  let old := s.on F.DRIFT_CTL_FORCE_EN
  let s1 := storeAt 0x300000 v s
  if s1.on F.DRIFT_CTL_FORCE_EN && !old then
    let sets := s1.drift.meas.map (·.set)
    let s2 := sweepStatus (s1.modDrift (fun d => { d with meas := [] }))
    seqAll measServe sets s2 |> logPut sevWarning 0x0703 (s1.get F.DRIFT_CTL_FORCE_CLASS) 0 0 0
  else s1

def execDriftCtlWrite (_m : Master) (v : BitVec 32) (s : State) : Host.Outcome State Fault Refusal :=
  .next (driftCtl v.toNat s)

end Sys2Proof.Machine
end

