-- ==== Sys2Proof/Machine/Media.lean ====
section
/-! DEFINITION. The fabric commands: what a die is told to do, when it may start, and suspend (04_media_channels.md R81 to
R100). A command that the scheduler's rules do not let start has no effect. -/

namespace Sys2Proof.Machine

/-! ### Dies and planes -/

def dieNo (c d : Nat) : Nat := c * 8 + d
def planeNo (c d p : Nat) : Nat := dieNo c d * 4 + p

def State.die (s : State) (n : Nat) : DieSt := tgetD DieSt.reset s.med.dies n
def modDie (n : Nat) (f : DieSt → DieSt) (s : State) : State :=
  s.modMed (fun m => { m with dies := tmod DieSt.reset f m.dies n })

/-- The row latches of a die are no longer valid (R100). -/
def dropLatches (n : Nat) (s : State) : State :=
  s.modMed (fun m => { m with latches := m.latches.filter (fun e => e.1 / 4 != n) })

/-- Does a plane of the die run a read? -/
def State.dieReads (s : State) (n : Nat) : Bool := s.med.planes.any (fun e => e.1 / 4 == n)

/-- A command wakes a sleeping channel's PHY (R105). -/
def wakeCh (c : Nat) (s : State) : State :=
  if s.get (F.MCH_STATUS_STATE c) = chSleep then setF (F.MCH_STATUS_STATE c) chOnline s else s

/-- May commands go to the channel: ONLINE or SLEEP, or TRAINING, RETRAIN or CHECK for what R88 and R105 run there? -/
def State.chTakes (s : State) (c : Nat) (setup : Bool) : Bool :=
  let st := s.get (F.MCH_STATUS_STATE c)
  s.chUp c || (setup && (st == 1 || st == 6 || st == 7))

/-- Is the die suspended: a program or erase stands in the readable state? -/
def State.dieSuspended (s : State) (c d : Nat) : Bool := s.on (F.MCH_DIE_STATUS_SUSPENDED c d)

/-- Fields of rows a program writes, and of an erase (PFA / 8,192). -/
def DieOp.fields : DieOp → List Nat
  | .program _ rows => rows.map (fun r => pfaFieldNo r.1)
  | .erase _ fs => fs
  | _ => []

/-- May a READ start on the plane now: no read runs there, and the die is idle or suspended (R82)? -/
def State.readStarts (s : State) (c d p : Nat) (setup : Bool) : Bool :=
  s.dur.drain == 0 && s.chTakes c setup && !s.on (F.MCH_DIE_STATUS_FAILED c d) && (setup || !s.plateOut (plateOf c)) &&
    (tget s.med.planes (planeNo c d p)).isNone &&
    (match (s.die (dieNo c d)).op with
      | .none => true
      | .program _ _ => s.dieSuspended c d
      | .erase _ _ => s.dieSuspended c d
      | _ => false)

/-- The fabric reports a command's result (R87). -/
def fabricOut (c d op res : Nat) (s : State) : State := emit (.fabric c d op res) s

/-- A READ of a field that the suspended program writes is refused (R82). -/
def State.readRefused (s : State) (c d : Nat) (pfa : Nat) : Bool :=
  (s.die (dieNo c d)).op.fields.contains (pfaFieldNo pfa)

def putPlane (n : Nat) (op : PlaneOp) (s : State) : State :=
  s.modMed (fun m => { m with planes := tset m.planes n op, latches := terase m.latches n })

/-! ### READ, READ_LATCH, READ_STAR -/

/-- A suspended die serves reads of classes 1 to 3 alone, and at most WIN_READS in a window (R97). -/
def State.windowOpen (s : State) (c d p : Nat) : Bool :=
  !s.dieSuspended c d ||
    (decide ((s.die (dieNo c d)).win < s.get (F.MCH_SCHED_CFG_WIN_READS c)) &&
      (match s.headRead (planeNo c d p), s.headMeas (planeNo c d p) with
        | some q, some m => decide (q.cls ≤ 3) || decide (m ≤ 3)
        | some q, none => decide (q.cls ≤ 3)
        | none, some m => decide (m ≤ 3)
        | none, none => true))

/-- A read starts in a suspend window. -/
def windowCount (c d : Nat) (s : State) : State :=
  if s.dieSuspended c d then modDie (dieNo c d) (fun x => { x with win := x.win + 1 }) s else s

/-- Read-ahead leaves that a READ transfers are issued now (R108). -/
def aheadCount (c pfa mask : Nat) (offs : List Int) (s : State) : State :=
  let n := (s.med.reads.filter (fun q => q.src == .ahead && s.wants q pfa mask offs)).length
  if n = 0 then s else s |> incF (F.MCH_RA_CNT_ISSUED c) n |> cnt (bMCH c) 10 n

/-- Transfer leaves from a plane's latch. -/
def latchRead (c d p pfa mask : Nat) (offs : List Int) (s : State) : State :=
  (s.modMed (fun m => { m with planes := tset m.planes (planeNo c d p) (.read pfa mask offs true) }))
    |> aheadCount c pfa mask offs |> wakeCh c |> windowCount c d |> incF (F.MCH_LBUF_CNT_LATCH_HIT c) 1 |> cnt (bMCH c) 3 1

/-- R87: READ senses a row at the given offsets and transfers the leaves of the mask. Where the plane's latch holds the row at
these offsets and a queued read wants it, READ_LATCH is used in its place (R100). -/
def fabRead (c d p f r mask : Nat) (offs : List Int) (s : State) : State :=
  let pfa := mkPfa c d p f r
  let n := planeNo c d p
  if s.readStarts c d p false then
    if s.readRefused c d pfa then fabricOut c d 1 1 (wakeCh c s)
    else if !s.readTurn pfa mask offs || !s.windowOpen c d p then s
    else if tget s.med.latches n = some (pfa, offs) ∧ (s.headRead n).isSome then latchRead c d p pfa mask offs s
    else s |> aheadCount c pfa mask offs |> wakeCh c |> windowCount c d |> putPlane n (.read pfa mask offs false) |> arrayRead pfa
  else s

def execFabRead (c : Fin 32) (d : Fin 8) (p : Fin 4) (f r : Fin 8192) (mask : BitVec 65) (offs : List Int) (s : State) :
    Host.Outcome State Fault Refusal := .next (fabRead c.val d.val p.val f.val r.val mask.toNat offs s)

/-- R87, R100: READ_LATCH transfers leaves from the latched row. -/
def fabReadLatch (c d p mask : Nat) (s : State) : State :=
  match tget s.med.latches (planeNo c d p) with
  | some (pfa, offs) =>
    if s.readStarts c d p false && s.readTurn pfa mask offs && s.windowOpen c d p then latchRead c d p pfa mask offs s else s
  | none => s

def execFabReadLatch (c : Fin 32) (d : Fin 8) (p : Fin 4) (mask : BitVec 65) (s : State) :
    Host.Outcome State Fault Refusal := .next (fabReadLatch c.val d.val p.val mask.toNat s)

/-- The measurement that a probe of a set's member serves. -/
def State.measAt (s : State) (pfa : Nat) : Option Meas :=
  s.drift.meas.find? (fun m => setPfa m.set m.member m.row == pfa)

/-- R87, R110: READ_STAR probes star leaf 0; a refused probe rejects its row (R120). -/
def fabReadStar (c d p f r level : Nat) (sweep : Int) (s : State) : State :=
  let pfa := mkPfa c d p f r
  if s.readStarts c d p true then
    if s.readRefused c d pfa then
      let s1 := fabricOut c d 3 1 (wakeCh c s)
      match s.measAt pfa with
      | some m => measReject m s1
      | none => s1
    else if !s.starTurn (planeNo c d p) || !s.windowOpen c d p then s
    else s |> wakeCh c |> windowCount c d |> putPlane (planeNo c d p) (.star pfa level sweep) |> arrayRead pfa
  else s

def execFabReadStar (c : Fin 32) (d : Fin 8) (p : Fin 4) (f : Fin 8192) (r : Fin 2) (level : Fin 16) (sweep : BitVec 8)
    (s : State) : Host.Outcome State Fault Refusal :=
  .next (fabReadStar c.val d.val p.val f.val r.val level.val (sbyte sweep.toNat) s)

/-- A probe returns (R120): it counts for the measurement that asked for this level and sweep. -/
def starComplete (n res e14 e15 : Nat) (s : State) : State :=
  match tget s.med.planes n with
  | some (.star pfa level sweep) =>
    let s1 := s.modMed (fun m => { m with planes := terase m.planes n })
    match s.measAt pfa with
    | some m =>
      measShift (·.set == m.set) (if res ≠ 0 then measReject m s1
        else if level = 15 ∧ sweep = s.measSweep m then measProbe m (min e14 (starCells 0 14)) (min e15 (starCells 0 15)) s1 else s1)
    | none => s1
  | _ => s

/-- The fabric reports the end of a read in a plane, if one runs there (R87). -/
def planeOut (plane : Nat) (star : Bool) (s : State) : State :=
  match tget s.med.planes plane with
  | some (.read _ _ _ l) => if star then s else fabricOut (plane / 32) (plane / 4 % 8) (if l then 2 else 1) 0 s
  | some (.star _ _ _) => if star then fabricOut (plane / 32) (plane / 4 % 8) 3 0 s else s
  | none => s

def execReadStarComplete (plane : Fin 1024) (refused : Bool) (e14 e15 : Fin 577) (s : State) :
    Host.Outcome State Fault Refusal :=
  .next (starComplete plane.val refused.toNat e14.val e15.val (if refused then s else planeOut plane.val true s))

/-! ### PROGRAM (R82, R87, R91 to R93) -/

/-- Do a group's programs stop at this die: another member busy, or the die itself out (R92)? -/
def State.mayProgram (s : State) (c d : Nat) : Bool :=
  let g := groupOf c d
  !s.dieOut c d && decide ((s.die (dieNo c d)).op = .none) && !s.dieReads (dieNo c d) &&
    (List.range 8).all (fun k => k == memberOf c || !s.memberBusy g k)

/-- Is a group frozen by a live reload of one of its channels, in QUIESCE, RELOAD, RETRAIN or CHECK (R106)? -/
def State.groupFrozen (s : State) (g : Nat) : Bool :=
  (List.range 8).any (fun k => let st := s.get (F.MCH_STATUS_STATE (memberCh g k)); decide (4 ≤ st) && decide (st ≤ 7))

/-- May an ERASE start on the die: no other member runs a program or erase (R92)? `draining`: plates that drain. -/
def State.mayErase (s : State) (c d draining : Nat) : Bool :=
  let g := groupOf c d
  s.dur.drain == 0 && !s.dieOut c d && decide ((s.die (dieNo c d)).op = .none) && !s.dieReads (dieNo c d) && !s.groupFrozen g &&
    (List.range 8).all (fun k => k == memberOf c ||
      (!s.dieWorks (memberCh g k * 8 + memberDie g) && !draining.testBit (plateOf (memberCh g k))))

/-- A sealed journal row waits in the group until it has completed (07_durability.md R168). -/
def State.sealedWaits (s : State) (g : Nat) : Bool := s.dur.rows.any (fun w => w.group == some g && !w.done)

/-- The nominal time of a loop in ns, and the loops after which the operation fails (R81). -/
def DieOp.loopNs : DieOp → Nat
  | .program true _ => 2000
  | _ => 2500
def DieOp.loopMax : DieOp → Nat
  | .program true _ => 8
  | .program false _ => 32
  | .erase _ _ => 1600
  | _ => 0

/-- The loops that the operation of a die has completed at a time, while it runs. -/
def DieSt.loopsAt (x : DieSt) (now : Nat) : Nat := if x.hold then 0 else min x.op.loopMax (x.loops + (now - x.since) / x.op.loopNs)

/-- LOOPS of a die (R108). -/
def State.dieLoops (s : State) (c d : Nat) : Nat :=
  let x := s.die (dieNo c d)
  if s.dieSuspended c d then x.loops else x.loopsAt s.now

/-- The fields common to every programmed row. -/
def MRow.base (s : State) (pfa : Nat) (k : RowKind) : MRow :=
  { MRow.reset with kind := k, eraseCnt := (s.frec (pfaFieldNo pfa)).ec, openSeq := (s.frec (pfaFieldNo pfa)).openSeq }

/-- The row of a frame (R173), encrypted under its KID's key; a copy keeps the ciphertext of its source (R216). -/
def frameRow (pfa : Nat) (fr : Frame) (s : State) : MRow :=
  let copy := match fr.st with | .mover _ => true | _ => false
  { MRow.base s pfa .data with
    copy := copy, zero := fr.zero, run := fr.run, ld := fr.ld, kid := fr.kid,
    key := if copy && !fr.zero then fr.key else s.keyOf fr.kid,
    seq := fr.seq, folio := fr.folio, frame := fr.frame, lmask := fr.lmask, src := fr.src, lines := fr.lines }

/-- A cipher lane is powered. -/
def State.laneOn (s : State) (n : Nat) : Bool := tgetD PdState.off s.dome.pd (32 + n) == .on

/-- A cipher lane is powered and has passed its tests. -/
def State.laneOk (s : State) (n : Nat) : Bool := s.laneOn n && !s.dome.laneBad.testBit n

/-- The number of a cipher lane: the lowest that is powered and passing (R217). DESIGN CHOICE, notes/assumptions/18.md. -/
def State.lane (s : State) : Nat := ((List.range 8).find? s.laneOk).getD 0

/-- Leaves pass through a cipher lane. -/
def laneCount (n : Nat) (s : State) : State := cnt bCIPH s.lane n s

/-- The image a 4-bit PROGRAM of a row carries, if the row may be programmed now (R93, R172). -/
def image4 (pfa : Nat) (s : State) : Option (MRow × State) :=
  let set := setOf pfa
  let k := memberOf (pfaCh pfa)
  if s.dur.drain ≠ 0 then none else
  match s.fld.opens.find? (fun o => o.set == set), tget s.fld.jobs pfa with
  | some o, some job =>
    let take (r : MRow) (t : State) : Option (MRow × State) :=
      some (r, t.modFld (fun f => { f with jobs := terase f.jobs pfa }))
    match job with
    | .star =>
      if pfaRow pfa = 0 ∨ o.stars.testBit (2 * k) then take (MRow.base s pfa .star) s else none
    | _ =>
      if o.stars = 2 ^ 16 - 1 ∧ s.committedAseq o.openAseq ∧ pfaRow pfa = o.row + 2 ∧ !o.done.testBit k then
        match job with
        | .frame t =>
          match tget s.coal.frames t with
          | some fr =>
            let fr1 := match fr.st with
              | .mover _ => fr
              | _ => { fr with st := .programming, redirty := false }
            take (frameRow pfa fr s) (stageRead t (laneCount 64 (putFrame t fr1 s)))
          | none => take (MRow.base s pfa .filler) s
        | .filler => take (MRow.base s pfa .filler) s
        | .parity => if o.done = 255 - 2 ^ k then take (MRow.base s pfa .parity) s else none
        | _ => none
      else none
  | _, _ => none

/-- The members of a data row of a set whose dies program it now, as a mask. -/
def State.rowInFlight (s : State) (set row : Nat) : Nat :=
  (List.range 8).foldl (fun a k =>
    match (s.die (dieNo (memberCh (setGroup set) k) (memberDie (setGroup set)))).op with
    | .program _ rows => if rows.any (fun r => r.1 == setPfa set k (row + 2)) then a ||| 2 ^ k else a
    | _ => a) 0

/-- The image a 1-bit PROGRAM carries: the oldest sealed row of its group without a place, or the parity of its data row once the other
members have been sent (R163, R164, R168). -/
def image1 (pfa : Nat) (s : State) : Option (MRow × State) :=
  let set := setOf pfa
  let k := memberOf (pfaCh pfa)
  match s.fld.opens.find? (fun o => o.set == set) with
  | some o =>
    if pfaRow pfa = o.row + 2 ∧ !(o.done ||| s.rowInFlight set o.row).testBit k then
      if k = parityOf o.row then
        if o.done ||| s.rowInFlight set o.row = 255 - 2 ^ k then some (MRow.base s pfa .parity, s) else none
      else
        match s.dur.rows.find? (fun w => w.placed.isNone && (w.group.isNone || w.group == some (setGroup set))) with
        | some w =>
          some ({ MRow.base s pfa .journal with seq := w.row.jseq, jrow := some w.row },
            s.modDur (fun d => { d with rows := d.rows.map (fun x => if x.row.jseq = w.row.jseq then { x with placed := some pfa } else x) }))
        | none => none
    else none
  | none => none

/-- The images of a multi-plane PROGRAM; `none` where one of its rows may not be programmed. -/
def images (mode1 : Bool) : List Nat → State → Option (List (Nat × MRow) × State)
  | [], s => some ([], s)
  | p :: t, s =>
    match (if mode1 then image1 p s else image4 p s) with
    | none => none
    | some (r, s1) =>
      match images mode1 t s1 with
      | none => none
      | some (rs, s2) => some ((p, r) :: rs, s2)

/-- The plane mask of a list of PFAs. -/
def planeMask (l : List Nat) : Nat := l.foldl (fun a p => a ||| 2 ^ pfaPlane p) 0

/-- The field of the lowest-numbered plane. -/
def lowField (l : List Nat) : Nat :=
  ((List.range 4).findSome? (fun p => (l.find? (fun x => pfaPlane x == p)).map pfaField)).getD 0

/-- A die starts a program (1) or erase (2). DESIGN CHOICE, notes/assumptions/33.md. -/
def dieStart (c d op : Nat) (pfas : List Nat) (s : State) : State :=
  s |> dropLatches (dieNo c d) |> wakeCh c
    |> setF (F.MCH_DIE_STATUS_OP c d) op |> setF (F.MCH_DIE_STATUS_SUSPENDED c d) 0 |> setF (F.MCH_DIE_STATUS_SLICE c d) 0
    |> setF (F.MCH_DIE_STATUS_SUSP_COUNT c d) 0 |> setF (F.MCH_DIE_STATUS_PLANES c d) (planeMask pfas)
    |> setF (F.MCH_DIE_STATUS_FIELD c d) (lowField pfas)

/-- A journal program that waited in a die's page register starts its array program (07_durability.md R164). -/
def holdStart (c d : Nat) (s : State) : State :=
  match (s.die (dieNo c d)).op with
  | .program _ rows =>
    if (s.die (dieNo c d)).hold then dieStart c d 1 (rows.map (·.1)) s |> modDie (dieNo c d) (fun x => { x with hold := false, since := s.now })
    else s
  | _ => s

/-- The group's member that waits for the one before it starts, now that none runs. -/
def groupNext (g : Nat) (s : State) : State :=
  if (List.range 8).any (fun k => s.dieWorks (memberCh g k * 8 + memberDie g)) then s
  else seqAll (fun k t => holdStart (memberCh g k) (memberDie g) t) (List.range 8) s

/-- A die's operation has ended. -/
def dieIdle (c d : Nat) (s : State) : State :=
  groupNext (groupOf c d) (modDie (dieNo c d) (fun _ => DieSt.reset) s)
    |> setF (F.MCH_DIE_STATUS_OP c d) 0 |> setF (F.MCH_DIE_STATUS_SUSPENDED c d) 0 |> setF (F.MCH_DIE_STATUS_SLICE c d) 0
    |> setF (F.MCH_DIE_STATUS_SUSP_COUNT c d) 0 |> setF (F.MCH_DIE_STATUS_PLANES c d) 0
    |> setF (F.MCH_DIE_STATUS_FIELD c d) 0

/-- No plane twice. -/
def onePerPlane (rows : List PlaneRow) : Bool := (rows.map (·.plane)).Nodup

/-- The stream of the open set a row lies in. -/
def State.streamOf (s : State) (pfa : Nat) : Option Nat := (s.fld.opens.find? (fun o => o.set == setOf pfa)).map (·.stream)

/-- A row of the HOST stream waits for its program, of those that `p` picks. -/
def State.hostWaits (s : State) (p : Nat → Bool) : Bool :=
  s.fld.jobs.any (fun j => p j.1 && s.streamOf j.1 == some streamHost && (image4 j.1 s).isSome)

/-- A staging program waits for this die, of class 5 before the class 6 of movers (R91); or free frame tokens are below FRAME_LOW,
and one waits for any die of its group: staged frames go before collection traffic (03_translation.md R80). -/
def State.hostFirst (s : State) (c d : Nat) : Bool :=
  s.hostWaits (fun p => pfaCh p == c && pfaDie p == d) ||
    (decide (s.get F.COAL_TOKENS_FRAME_FREE < s.get F.COAL_WM_FRAME_LOW) && s.hostWaits (fun p => setGroup (setOf p) == groupOf c d))

/-- A 4-bit program waits for this die and may start: it goes before an erase (R91). -/
def State.programWaits (s : State) (c d : Nat) : Bool :=
  s.mayProgram c d && s.fld.jobs.any (fun j => pfaCh j.1 == c && pfaDie j.1 == d && (image4 j.1 s).isSome)

/-- The set is open as a plane of a quad. -/
def State.inQuad (s : State) (set : Nat) : Bool := (s.fld.opens.find? (fun o => o.set == set)).any (·.quad)

/-- The planes in which rows of the quad of FIELD `f` may be programmed on the die now. -/
def State.quadReady (s : State) (c d f : Nat) : List Nat :=
  (s.fld.jobs.filter (fun j => pfaCh j.1 == c && pfaDie j.1 == d && pfaField j.1 == f && s.inQuad (setOf j.1) && (image4 j.1 s).isSome)).map
    (fun j => pfaPlane j.1)

/-- R133: rows of a quad are programmed together, in every plane that has one ready; those of a single set alone. -/
def State.quadWhole (s : State) (c d : Nat) (pfas : List Nat) : Bool :=
  if pfas.any (fun p => s.inQuad (setOf p)) then
    pfas.all (fun p => s.inQuad (setOf p) && pfaField p == lowField pfas) &&
      (s.quadReady c d (lowField pfas)).all (fun k => pfas.any (fun p => pfaPlane p == k))
  else decide (pfas.length = 1)

/-- The PFAs a die's program writes. -/
def State.dieRows (s : State) (n : Nat) : List Nat :=
  match (s.die n).op with
  | .program _ rows => rows.map (·.1)
  | _ => []

/-- R163: a journal quad's rows are programmed in one command: of one FIELD, in every open plane as far as rows wait. -/
def State.quadWhole1 (s : State) (c d : Nat) (pfas : List Nat) : Bool :=
  let f := lowField pfas
  let g := groupOf c d
  let k := memberOf c
  let ready := (List.range 4).filter (fun p => (s.fld.opens.find? (fun o => o.set == mkSet g p f)).any (fun o =>
    !(o.done ||| s.rowInFlight o.set o.row).testBit k &&
      (k != parityOf o.row || (o.done ||| s.rowInFlight o.set o.row) == 255 - 2 ^ k)))
  let waits := (s.dur.rows.filter (fun w => w.placed.isNone && (w.group.isNone || w.group == some g))).length
  pfas.all (fun p => pfaField p == f) &&
    (ready.all (fun p => pfas.any (fun a => pfaPlane a == p)) ||
      decide ((pfas.filter (fun a => memberOf (pfaCh a) != parityOf (pfaRow a - 2))).length = waits))

/-- R164: the leaves of a journal row may be sent to a die's page register while the one other member that is busy programs the same data
rows. -/
def State.mayHold (s : State) (c d : Nat) (pfas : List Nat) : Bool :=
  let g := groupOf c d
  !s.dieOut c d && decide ((s.die (dieNo c d)).op = .none) && !s.dieReads (dieNo c d) &&
    (List.range 8).all (fun k => k == memberOf c ||
      (let n := memberCh g k * 8 + memberDie g
       !s.memberOut g k && !(s.die n).hold &&
        (!s.dieWorks n || pfas.all (fun a => (s.dieRows n).any (fun b => setOf b == setOf a && pfaRow b == pfaRow a)))))

/-- R87: PROGRAM writes a row in up to four planes. -/
def fabProgram (c d : Nat) (mode1 : Bool) (rows : List PlaneRow) (s : State) : State :=
  let pfas := rows.map (fun r => mkPfa c d r.plane.val r.field.val r.row.val)
  if !rows.isEmpty && onePerPlane rows && (s.mayProgram c d || (mode1 && s.mayHold c d pfas)) && pfas.all (fun p => s.oneBit p == mode1) &&
      (if mode1 then s.quadWhole1 c d pfas else (!s.sealedWaits (groupOf c d) && s.quadWhole c d pfas)) && !(s.hostFirst c d && pfas.any (fun p => s.streamOf p == some streamCollect || s.streamOf p == some streamCold)) then
    match images mode1 pfas s with
    | some (rs, s1) =>
      if s.mayProgram c d then
        dieStart c d 1 pfas s1 |> modDie (dieNo c d) (fun _ => { DieSt.reset with op := .program mode1 rs, since := s.now })
      else
        dropLatches (dieNo c d) (wakeCh c s1) |> modDie (dieNo c d) (fun _ => { DieSt.reset with op := .program mode1 rs, hold := true })
    | none => s
  else s

def execFabProgram (c : Fin 32) (d : Fin 8) (mode1 : Bool) (rows : List PlaneRow) (s : State) :
    Host.Outcome State Fault Refusal := .next (fabProgram c.val d.val mode1 rows s)

/-! ### ERASE -/

/-- The requests in flight to a plate: reads in its planes, programs and erases on its dies (15_shelf_bus.md R369). -/
def State.plateWork (s : State) (p : Nat) : Nat :=
  (s.med.planes.filter (fun e => e.1 / 64 == p)).length +
    (s.med.dies.filter (fun e => e.1 / 16 == p && e.2.op != .none)).length

/-- The plates that drain work in flight (15_shelf_bus.md R369): DATA_VIEW is FLUSHING. -/
def State.drainingPlates (s : State) : Nat :=
  (List.range 16).foldl (fun a p => if s.plateOut p && decide (0 < s.plateWork p) then a ||| 2 ^ p else a) 0

/-- A plane's field of the set waits for its erase on this die. -/
def State.eraseWaits (s : State) (pfa : Nat) : Bool :=
  s.fld.erasing.contains (setOf pfa) && (s.frec (pfaFieldNo pfa)).erasePend && (s.frec (pfaFieldNo pfa)).st != fBad

/-- R87, R143: ERASE erases fields of sets whose erase runs, of one FIELD and in every plane of it that waits for its erase, in the mode
the field manager chose for their next opening (R81). -/
def fabErase (c d : Nat) (mode1 : Bool) (rows : List PlaneRow) (s : State) : State :=
  let pfas := rows.map (fun r => mkPfa c d r.plane.val r.field.val 0)
  if !rows.isEmpty && onePerPlane rows && s.mayErase c d s.drainingPlates && !s.sealedWaits (groupOf c d) && !s.programWaits c d &&
      pfas.all (fun p => s.eraseWaits p && mode1 == s.setMode1 (setOf p) && pfaField p == lowField pfas) &&
      (List.range 4).all (fun k => !s.eraseWaits (mkPfa c d k (lowField pfas) 0) || pfas.any (fun p => pfaPlane p == k)) then
    dieStart c d 2 pfas s |> modDie (dieNo c d) (fun _ => { DieSt.reset with op := .erase mode1 (pfas.map pfaFieldNo), since := s.now })
  else s

def execFabErase (c : Fin 32) (d : Fin 8) (mode1 : Bool) (rows : List PlaneRow) (s : State) :
    Host.Outcome State Fault Refusal := .next (fabErase c.val d.val mode1 rows s)

/-! ### SUSPEND and RESUME (R97) -/

/-- The loop that the die repeats since its RESUME has completed; one that has not been suspended repeats none. -/
def State.loopRepeated (s : State) (c d : Nat) : Bool :=
  let x := s.die (dieNo c d)
  decide (s.get (F.MCH_DIE_STATUS_SUSP_COUNT c d) = 0) || decide (x.op.loopNs ≤ s.now - x.since)

/-- A program or erase runs on the die, not suspended, not in a forced progress slice and not in a loop that it repeats. -/
def State.suspendable (s : State) (c d : Nat) : Bool :=
  s.dur.drain == 0 && s.dieWorks (dieNo c d) && !s.dieSuspended c d && !s.on (F.MCH_DIE_STATUS_SLICE c d) && !(s.die (dieNo c d)).suspending &&
    s.loopRepeated c d

/-- R97: SUSPEND brings a die to a readable state. DESIGN CHOICE, notes/assumptions/33.md. -/
def fabSuspend (c d : Nat) (s : State) : State :=
  if s.suspendable c d then
    s |> modDie (dieNo c d) (fun x => { x with suspending := true }) |> dropLatches (dieNo c d)
      |> setF (F.MCH_DIE_STATUS_SUSP_COUNT c d) (min 8 (s.get (F.MCH_DIE_STATUS_SUSP_COUNT c d) + 1))
      |> incF (F.MCH_SUSP_CNT_SUSPENDS c) 1 |> cnt (bMCH c) 7 1
  else s

def execFabSuspend (c : Fin 32) (d : Fin 8) (s : State) : Host.Outcome State Fault Refusal := .next (fabSuspend c.val d.val s)

/-- R97: the die is readable: the loops completed stand, and its suspend window begins. DESIGN CHOICE, notes/assumptions/33.md. -/
def suspendDone (c d : Nat) (s : State) : State :=
  if (s.die (dieNo c d)).suspending then
    s |> modDie (dieNo c d) (fun x => { x with suspending := false, loops := x.loopsAt s.now, win := 0, winAt := s.now })
      |> setF (F.MCH_DIE_STATUS_SUSPENDED c d) 1 |> fabricOut c d 6 0
  else s

def execSuspendDone (c : Fin 32) (d : Fin 8) (s : State) : Host.Outcome State Fault Refusal := .next (suspendDone c.val d.val s)

/-- The die resumes: the interrupted loop is repeated in full; after 8 suspends a forced progress slice starts. -/
def dieResume (c d : Nat) (s : State) : State :=
  if s.dieSuspended c d && !s.dieReads (dieNo c d) then
    s |> dropLatches (dieNo c d) |> setF (F.MCH_DIE_STATUS_SUSPENDED c d) 0
      |> modDie (dieNo c d) (fun x => { x with since := s.now }) |> fabricOut c d 7 0
      |> when (decide (8 ≤ s.get (F.MCH_DIE_STATUS_SUSP_COUNT c d))) (fun t => t |> setF (F.MCH_DIE_STATUS_SLICE c d) 1
          |> incF (F.MCH_SUSP_CNT_SLICES c) 1 |> cnt (bMCH c) 8 1)
  else s

/-- Does a read or probe of classes 1 to 3 wait on a plane of the die? -/
def State.windowReads (s : State) (c d : Nat) : Bool :=
  (List.range 4).any (fun p => ((s.headRead (planeNo c d p)).any (fun q => decide (q.cls ≤ 3))) ||
    ((s.headMeas (planeNo c d p)).any (fun m => decide (m ≤ 3))))

/-- R97: the scheduler issues RESUME when no such read waits, WIN_READS have been served, or WIN_US has passed. DESIGN CHOICE, notes/assumptions/33.md. -/
def fabResume (c d : Nat) (s : State) : State :=
  let x := s.die (dieNo c d)
  if !s.windowReads c d || decide (s.get (F.MCH_SCHED_CFG_WIN_READS c) ≤ x.win) ||
      decide (s.get (F.MCH_SCHED_CFG_WIN_US c) * 1000 ≤ s.now - x.winAt) then dieResume c d s
  else s

def execFabResume (c : Fin 32) (d : Fin 8) (s : State) : Host.Outcome State Fault Refusal := .next (fabResume c.val d.val s)

/-- R97: WIN_US of the suspend window has passed, and RESUME is issued. -/
def execSuspendWindowEnd (c : Fin 32) (d : Fin 8) (s : State) : Host.Outcome State Fault Refusal :=
  .next (dieResume c.val d.val s)

/-- R97: the slice has run its 4 loops, and the count returns to 0. -/
def execProgressSliceEnd (c : Fin 32) (d : Fin 8) (s : State) : Host.Outcome State Fault Refusal :=
  .next (if s.on (F.MCH_DIE_STATUS_SLICE c.val d.val) then
    s |> setF (F.MCH_DIE_STATUS_SLICE c.val d.val) 0 |> setF (F.MCH_DIE_STATUS_SUSP_COUNT c.val d.val) 0
      |> modDie (dieNo c.val d.val) (fun x => { x with loops := max (x.loops + 4) (x.loopsAt s.now), since := s.now })
    else s)

/-! ### IDENT, TRAIN -/

/-- R87: IDENT reads the die's parameter page. -/
def fabIdent (c d : Nat) (s : State) : State :=
  if s.chTakes c true && decide ((s.die (dieNo c d)).op = .none) && !s.dieReads (dieNo c d) then
    s |> wakeCh c |> dropLatches (dieNo c d) |> modDie (dieNo c d) (fun _ => { DieSt.reset with op := .ident })
  else s

def execFabIdent (c : Fin 32) (d : Fin 8) (s : State) : Host.Outcome State Fault Refusal := .next (fabIdent c.val d.val s)

/-- R88: TRAIN runs one PHY training step, 1 to 5; there is no step 0. -/
def fabTrain (c step : Nat) (s : State) : State :=
  if s.chTakes c true && decide (1 ≤ step) && (tget s.med.training c).isNone then
    (s.modMed (fun m => { m with training := tset m.training c step })) |> wakeCh c
  else s

def execFabTrain (c : Fin 32) (step : Fin 6) (s : State) : Host.Outcome State Fault Refusal := .next (fabTrain c.val step.val s)

/-! ### Units that read for themselves, and rebuilds at once (R91, R94 to R97, R107, R120) -/

/-- Why a host read is rebuilt at once. -/
inductive RbWhy where
  | no
  /-- its die, channel or plate serves no reads; `reload`: its channel is being reconfigured -/
  | out (reload : Bool)
  /-- open data of a busy die (R94) -/
  | busy
  /-- a host read waits on the plane already (R96) -/
  | congest
  deriving DecidableEq, Repr

/-- A read of the plane is in its array, and another host read waits on it (R96). -/
def State.planeQueued (s : State) (pfa : Nat) : Bool :=
  (tget s.med.planes (pfaPlaneNo pfa)).isSome &&
    s.med.reads.any (fun q => q.cls == 2 && q.queued && pfaPlaneNo q.pfa == pfaPlaneNo pfa && !s.serving q)

def State.rebuildWhy (s : State) (pfa : Nat) : RbWhy :=
  let c := pfaCh pfa
  let d := pfaDie pfa
  let st := s.get (F.MCH_STATUS_STATE c)
  let g := setGroup (setOf pfa)
  let open_ := match (s.die (dieNo c d)).op with
    | .program _ rows => rows.any (fun r => pfaFieldNo r.1 == pfaFieldNo pfa)
    | _ => false
  if s.dieOut c d then .out (decide (4 ≤ st) && decide (st ≤ 7))
  else if open_ then .busy
  else if s.planeQueued pfa && (partners pfa).all (fun k => !s.memberBusy g k) then .congest
  else .no

/-- A READ of a 4-bit set without a record waits for its measurement, in class 3: of its own member for a host read, else of the
lowest-numbered that is not busy (R120). -/
def measWait (pfa : Nat) (host : Bool) (s : State) : State :=
  let set := setOf pfa
  let low := ((List.range 8).find? (fun k => !s.memberBusy (setGroup set) k)).getD (memberOf (pfaCh pfa))
  measStart set (if host then s.measMember set (memberOf (pfaCh pfa)) (List.range 8) else low) 3 false s

/-- Rebuilds of a read that is rebuilt at once count by their cause (R108). -/
def rebuildCount (c : Nat) (w : RbWhy) (s : State) : State :=
  s |> when (w == .congest) (incF (F.MCH_REBUILD_CNT_CONGEST c) 1)
    |> when (w == .busy || w == .out true) (incF (F.MCH_REBUILD_CNT_BUSY c) 1)

/-- Can the die never serve this read again (R95): it or its channel is FAILED or OFF, or its plate is out of service? -/
def State.dieGone (s : State) (pfa : Nat) : Bool :=
  let c := pfaCh pfa
  let st := s.get (F.MCH_STATUS_STATE c)
  s.on (F.MCH_DIE_STATUS_FAILED c (pfaDie pfa)) || st == 0 || st == 8 || s.plateOut (plateOf c)

/-- How a unit that reads a row for itself can read it now: a host read (of a ring command or a merge), or one of class 6. -/
inductive UnitRead where
  /-- its die, plane or measurement does not serve it yet -/
  | wait
  | array
  /-- from the seven other members, and why -/
  | rebuilt (w : RbWhy)
  /-- no means can read it -/
  | gone
  deriving DecidableEq, Repr

/-- A read or a probe of the same or a lower class stands in the plane's queue before a unit's read (R91). -/
def State.queueBefore (s : State) (plane cls : Nat) : Bool :=
  (s.headRead plane).any (fun q => decide (q.cls ≤ cls)) || (s.headMeas plane).any (fun m => decide (m ≤ cls))

/-- R82, R91, R94 to R97, R107, R120: a die that runs a program or an erase serves a host read only in a suspend window, and never
one of class 6; a host read is rebuilt where it cannot or must not wait; one of class 6 where its die is out of service. -/
def State.unitHow (s : State) (pfa : Nat) (host : Bool) : UnitRead :=
  let c := pfaCh pfa
  let d := pfaDie pfa
  let whole := (partners pfa).all (fun k => !s.memberOut (setGroup (setOf pfa)) k)
  let w := s.rebuildWhy pfa
  if s.dur.drain ≠ 0 then .wait
  else if s.dieOut c d || (host && decide (w ≠ .no)) then
    if whole then .rebuilt w else if s.dieGone pfa then .gone else .wait
  else if decide ((s.die (dieNo c d)).op ≠ .none) && !(host && s.dieWorks (dieNo c d) && s.dieSuspended c d) then .wait
  else if (tget s.med.planes (pfaPlaneNo pfa)).isSome || s.unmeasured pfa || s.queueBefore (pfaPlaneNo pfa) (if host then 2 else 6) then .wait
  else .array

/-- A unit that must wait asks for the measurement it waits for. -/
def unitWait (pfa : Nat) (host : Bool) (s : State) : State :=
  if s.unmeasured pfa && !s.dieOut (pfaCh pfa) (pfaDie pfa) then measWait pfa host s else s

/-- The row is sensed, unless the plane's latch holds it at its position (R100). -/
def unitSense (pfa : Nat) (s : State) : State :=
  let n := pfaPlaneNo pfa
  let offs := s.readOffsets pfa (s.agePos (setOf pfa)) 0
  if tget s.med.latches n = some (pfa, offs) then
    s |> incF (F.MCH_LBUF_CNT_LATCH_HIT (pfaCh pfa)) 1 |> cnt (bMCH (pfaCh pfa)) 3 1
  else (arrayRead pfa s).modMed (fun m => { m with latches := tset m.latches n (pfa, offs) })

/-- A unit reads a row: `leaves` that did not decode CLEAN at step 0 climb their ladders; all of `all_` enter the leaf buffer. -/
def unitRow (pfa : Nat) (how : UnitRead) (leaves : List LeafRes) (all_ : List Nat) (s : State) : State :=
  match how with
  | .array =>
    bufferLeaves pfa (all_.filter (fun j => !leaves.any (fun l => l.leaf.val == j))) false
      (seqAll (fun (l : LeafRes) t => leafLadder pfa l.leaf.val l.step l.bits l.mis t) leaves (unitSense pfa s))
  | .rebuilt w => rebuildCount (pfaCh pfa) w (partnerReads pfa s)
  | _ => s

end Sys2Proof.Machine
end

