-- ==== Sys2Proof/Machine/Stage.lean ====
section
/-! DEFINITION. The staging programmer, what a completed or failed row program does to frames and sets, copy switches and
the end of mover jobs (03_translation.md R57, R73, R441; 06_field_management.md R136 to R148). -/

namespace Sys2Proof.Machine

/-! ### Placing frames in open sets -/

/-- A row job. -/
def putJob (pfa : Nat) (j : RowJob) (s : State) : State := s.modFld (fun f => { f with jobs := tset f.jobs pfa j })

/-- The parity row of a data row. -/
def parityPfa (set r : Nat) : Nat := setPfa set (parityOf r) (r + 2)

/-- A slot is given; the seventh of a data row brings the parity job (R93). -/
def slotGiven (set slot : Nat) (j : RowJob) (s : State) : State :=
  s |> putJob (slotPfa set slot) j |> when (slot % 7 == 6) (putJob (parityPfa set (slot / 7)) .parity)
    |> modOpen set (fun o => { o with next := slot + 1 })

/-- Close a set whose slots are all given and whose rows are all complete. -/
def closeIfDone (set : Nat) (s : State) : State :=
  match s.fld.opens.find? (fun o => o.set == set) with
  | some o =>
    if o.next = setUnits ∧ o.done = 0 ∧ o.stars = 2 ^ 16 - 1 ∧ !s.fld.jobs.any (fun j => setOf j.1 == set) then closeSet set false s
    else s
  | none => s

/-- Filler members complete the current data row (R441). -/
def fillRow (set : Nat) (s : State) : State :=
  match s.fld.opens.find? (fun o => o.set == set) with
  | some o =>
    if o.next % 7 = 0 then s
    else seqAll (fun i t => slotGiven set (o.next + i) .filler t) (List.range (7 - o.next % 7)) s
  | none => s

/-- The slots left in an open set stay unprogrammed, and it closes early (R138). -/
def padSet (set : Nat) (s : State) : State :=
  closeIfDone set (modOpen set (fun o => { o with next := setUnits }) (fillRow set s))

/-- An open set of the stream in a group that has at least `n` slots left, the smallest next slot first. -/
def State.roomIn (s : State) (g stream n : Nat) : Option OpenSet :=
  (s.openOf g stream).foldl (fun b o =>
    if o.next + n ≤ setUnits then
      match b with
      | none => some o
      | some x => if o.next < x.next then some o else some x
    else b) none

/-- Make room for `n` consecutive slots: sets with fewer slots left close early, and the stream opens its next sets as soon as it may
(R138). -/
def makeRoom (g stream n : Nat) (s : State) : State :=
  if (s.roomIn g stream n).isSome then s
  else openStream g stream (seqAll (fun o t => padSet o.set t) (s.openOf g stream) s)

/-- Place a frame, by its token, in the next slot. -/
def placeAt (set slot t : Nat) (run : Bool) (s : State) : State :=
  match tget s.coal.frames t with
  | some fr => putFrame t { fr with placed := some (slotPfa set slot), run := run } (slotGiven set slot (.frame t) s)
  | none => s

/-- Place frames one after another: in consecutive slots of one set as a run, or singly. DEDUCED, notes/assumptions/31.md. -/
def placeAll (g stream : Nat) (toks : List Nat) (run : Bool) (s : State) : State :=
  let s1 := makeRoom g stream (if run then toks.length else 1) s
  if run then
    match s1.roomIn g stream toks.length with
    | some o => (toks.foldl (fun (r : Nat × State) t => (r.1 + 1, placeAt o.set r.1 t true r.2)) (o.next, s1)).2
    | none => s1
  else
    toks.foldl (fun u t =>
      let u1 := makeRoom g stream 1 u
      match u1.roomIn g stream 1 with
      | some o => placeAt o.set o.next t false u1
      | none => u1) s1

/-- A group is blocked: a member is out of service, or a live reload freezes it (R92). -/
def State.groupBlocked (s : State) (g : Nat) : Bool := s.groupFrozen g || (List.range 8).any (fun k => s.memberOut g k)

/-- The group that takes work meant for `g`: another one while g is blocked (R92). DESIGN CHOICE, notes/assumptions/16.md. -/
def State.placeGroup (s : State) (g : Nat) : Nat :=
  if s.groupBlocked g then ((List.range 32).find? (fun k => !s.groupBlocked k)).getD g else g

/-! ### The staging programmer (R441) -/

/-- STAGED and without a slot. -/
def Frame.waits (f : Frame) : Bool := f.st == .staged && f.placed.isNone

/-- The tokens of a folio's STAGED frames, in frame order. -/
def State.folioFrames (s : State) (ld f : Nat) : List Nat :=
  (List.range 64).filterMap (fun i => (s.coal.frames.find? (fun e =>
    e.2.ld == ld && e.2.folio == f && e.2.frame == i && e.2.waits)).map (·.1))

/-- Does a gather of the folio stand? -/
def State.folioGathers (s : State) (ld f : Nat) : Bool := s.coal.gathers.any (fun g => g.ld == ld && g.folio == f)

/-- The frame's folio can be placed as a run. -/
def State.runnable (s : State) (fr : Frame) : Bool :=
  decide ((s.folioFrames fr.ld fr.folio).length = 64) && !s.folioGathers fr.ld fr.folio

/-- The frame is held for its folio's run. -/
def State.held (s : State) (t : Nat) (fr : Frame) : Bool :=
  decide (s.get F.COAL_CTL_RUN_US ≠ 0) && !fr.free && !s.flushKids.contains fr.kid &&
    !decide (s.get F.COAL_TOKENS_FRAME_FREE < s.get F.COAL_WM_FRAME_LOW) &&
    (s.folioGathers fr.ld fr.folio ||
      s.coal.frames.any (fun e => e.1 != t && e.2.ld == fr.ld && e.2.folio == fr.folio && e.2.st == .staged))

/-- The oldest frame that can be placed now; frames under a KID being flushed go first (09_cipher_and_meridian.md R224). -/
def State.nextToPlace (s : State) : Option (Nat × Frame) :=
  let key (fr : Frame) : Nat × Nat := ((!s.flushKids.contains fr.kid).toNat, fr.order)
  (s.coal.frames.filter (fun e => e.2.waits && (s.runnable e.2 || !s.held e.1 e.2))).foldl (fun b e =>
    match b with
    | none => some e
    | some x => if (key e.2).1 < (key x.2).1 ∨ ((key e.2).1 = (key x.2).1 ∧ (key e.2).2 < (key x.2).2) then some e else some x) none

/-- R441: the oldest frame that can be placed is placed in group g, or in another while g is blocked, with its folio's run or singly. -/
def stagingPlace (g : Nat) (s : State) : State :=
  if s.dur.drain ≠ 0 then s else
  match s.nextToPlace with
  | some (t, fr) =>
    if s.runnable fr then placeAll (s.placeGroup g) streamHost (s.folioFrames fr.ld fr.folio) true s
    else placeAll (s.placeGroup g) streamHost [t] false s
  | none => s

def execStagingPlace (g : Fin 32) (s : State) : Host.Outcome State Fault Refusal := .next (stagingPlace g.val s)

/-- R441: GATHER_US has passed since a row's first member was placed, and no frame waits to be placed. -/
def execFillerTimeout (set : Fin 1048576) (s : State) : Host.Outcome State Fault Refusal :=
  .next (if s.nextToPlace.isSome then s else fillRow set.val s)

/-! ### Mover jobs: their end (R152, R155) -/

def jobGc : Nat := 1
def jobWear : Nat := 2
def jobRewrite : Nat := 3
def jobVerify : Nat := 4
def jobSeal : Nat := 5
def jobRelocate : Nat := 6

def State.mover (s : State) (m : Nat) : Mover := tgetD Mover.reset s.fld.movers m
def modMover (m : Nat) (f : Mover → Mover) (s : State) : State :=
  s.modFld (fun x => { x with movers := tmod Mover.reset f x.movers m })

/-- The tokens a mover holds. -/
def State.moverToks (s : State) (m : Nat) : List Nat :=
  (s.coal.frames.filter (fun e => e.2.st == .mover m)).map (·.1)

/-- GC_ACTIVE: a GC job is running. -/
def gcActive (s : State) : State := setB F.FLD_STATUS_GC_ACTIVE (s.fld.movers.any (fun p => p.2.job == jobGc)) s

/-- A mover becomes idle. -/
def moverIdle (m : Nat) (s : State) : State :=
  let j := (s.mover m).job
  gcActive (modMover m (fun _ => Mover.reset) (s |> setF (F.FLD_MOV_STATUS_BUSY m) 0 |> setF (F.FLD_MOV_STATUS_JOB m) 0
    |> cnt bFLD (3 + j) 1))

/-- The end of a SEAL queued by a ring command: its command counts the folio (10_transit_rings.md R254, R259). `ok`: sealed. One that was
stopped meanwhile is left to end at its next step. -/
def ringSealed (ctx : Option Nat) (ok : Bool) (s : State) : State :=
  match ctx with
  | none => s
  | some id => s.modRing (fun r => { r with cmds := r.cmds.map (fun c =>
      if c.id = id then
        let c1 := { c with waiting := c.waiting - 1, cntA := c.cntA + ok.toNat, cntB := c.cntB + (!ok).toNat }
        if c1.waiting = 0 ∧ c1.final = none ∧ c1.cntA + c1.cntB = c1.len / 2 ^ 20 then { c1 with final := some (0, c1.cntB * 2 ^ 32 + c1.cntA) } else c1
      else c) })

/-- A copying job ends when no slot is left to look at and no copy is held; the set is no longer a victim, a campaign
whose STOP was written ends with its WEAR job (R150), a RELOCATE that leaves V = 0 retires its set. -/
def moverEnd (m : Nat) (s : State) : State :=
  let v := s.mover m
  if v.job = 0 ∨ v.job = jobVerify ∨ v.job = jobSeal ∨ v.left ≠ [] ∨ s.moverToks m ≠ [] then s
  else
    let s1 := modSet v.set (fun r => { r with victim := false }) s
    let s2 := if v.job = jobRelocate then
        let s3 := s1.modFld (fun f => { f with holds := terase f.holds v.set })
        if s1.fld.eraseQ.contains v.set && !s1.fld.newPlate.contains v.set then
          s3.modFld (fun f => { f with toRetire := if f.toRetire.contains v.set then f.toRetire else v.set :: f.toRetire })
        else s3
      else s1
    let s4 := if v.job = jobWear ∧ s2.fld.campaignEnd then campaignStop s2 else s2
    moverIdle m (rescore v.set s4)

/-- Units switched by a mover. -/
def moverDone (m n : Nat) (s : State) : State := s |> incF (F.FLD_MOV_STATUS_DONE_UNITS m) n |> cnt bFLD 10 n

def moverSkip (m n : Nat) (s : State) : State := incF (F.FLD_MOV_STATUS_SKIPPED m) n s

/-! ### Switches (R57, R72, R73, R147) -/

/-- Release a frame token. -/
def freeFrame (t : Nat) (s : State) : State := coalStatus (s.modCoal (fun c => { c with frames := terase c.frames t }))

/-- The 64 frames of a placed run stand on media in order: the folio becomes whole in place (R57). -/
def sealInPlace (fr : Frame) (pfa : Nat) (s : State) : State :=
  match slotOf pfa with
  | some slot =>
    if fr.run && decide (fr.frame ≤ slot) then
      let set := setOf pfa
      let s0 := slot - fr.frame
      let e := s.folio fr.ld fr.folio
      if foType e = 2 ∧ s0 + 64 ≤ setUnits ∧ (List.range 64).all (fun i =>
          let x := s.frameOfFolio e i
          frState x == 1 && frLoc x == slotPfa set (s0 + i)) then
        folioWhole fr.ld fr.folio set s0 s |> cnt bXLAT 3 1
      else s
    else s
  | none => s

/-- A host frame's row has completed (R72, R73): its entry switches to the PFA, unless a merge has set REDIRTY. -/
def switchHost (t : Nat) (fr : Frame) (pfa : Nat) (s : State) : State :=
  let e := s.folio fr.ld fr.folio
  if fr.redirty || fr.st != .programming then
    putFrame t { fr with st := .staged, redirty := false, placed := none } s
  else if foType e = 2 ∧ frState (s.frameOfFolio e fr.frame) = 2 ∧ frLoc (s.frameOfFolio e fr.frame) = t then
    s |> setFrame fr.ld fr.folio (foTable e) fr.frame (mkFrame 1 (fr.lmask != 0) pfa) fr.seq |> unitAdd pfa
      |> freeFrame t |> (fun u => u.modCoal (fun c => { c with switched := c.switched + 1 })) |> cnt bCOAL 6 1
      |> sealInPlace fr pfa
  else freeFrame t s

/-- A copy of one frame switches if its entry is unchanged (R147). -/
def switchOne (m t : Nat) (fr : Frame) (pfa : Nat) (s : State) : State :=
  let e := s.folio fr.ld fr.folio
  let fe := s.frameOfFolio e fr.frame
  let s1 := freeFrame t s
  if foType e = 2 ∧ frState fe = 1 ∧ frLoc fe = fr.src then
    s1 |> setFrame fr.ld fr.folio (foTable e) fr.frame (mkFrame 1 (frLpois fe) pfa) fr.seq |> unitAdd pfa |> unitSub fr.src
      |> moverDone m 1
  else moverSkip m 1 s1

/-- The frames of a mover's run, by token. -/
def State.runFrames (s : State) (m ld f : Nat) : List (Nat × Frame) :=
  s.coal.frames.filter (fun e => e.2.st == .mover m && e.2.run && e.2.ld == ld && e.2.folio == f)

/-- A SEAL's run is programmed: the switch succeeds if SEAL_PEND is still set (R57, R154). -/
def switchSeal (m : Nat) (fr : Frame) (set slot : Nat) (s : State) : State :=
  let e := s.folio fr.ld fr.folio
  let ctx := (s.mover m).ctx
  if foType e = 2 ∧ foSealPend e then
    s |> folioWhole fr.ld fr.folio set slot |> cnt bXLAT 4 1 |> incF (F.FLD_MOV_STATUS_DONE_UNITS m) 1
      |> ringSealed ctx true |> moverIdle m
  else s |> setErr F.FLD_ERR_STATUS_SEAL_PREEMPT intFld |> cnt bXLAT 5 1 |> ringSealed ctx false |> moverIdle m

/-- A copied run is programmed (R147): a whole folio that is unchanged switches whole; of one split since, the frames that
still name their source switch. -/
def switchRun (m : Nat) (fr : Frame) (set slot : Nat) (fs : List (Nat × Frame)) (s : State) : State :=
  let e := s.folio fr.ld fr.folio
  if foType e = 1 ∧ fs.all (fun x => slotPfa (foSet e) (foSlot e + x.2.frame) == x.2.src) then
    let old := s.folioUnits e
    let new := (List.range 64).map (fun i => slotPfa set (slot + i))
    s |> setFolio fr.ld fr.folio (mkFolio 1 (foKid e) false (foPoisonAny e) (set * 2 ^ 16 + slot))
      |> (fun t => seqAll unitAdd new t) |> (fun t => seqAll unitSub old t) |> moverDone m 64
  else if foType e = 2 then
    seqAll (fun (x : Nat × Frame) t =>
      let fe := t.frameOfFolio (t.folio fr.ld fr.folio) x.2.frame
      if frState fe = 1 ∧ frLoc fe = x.2.src then
        let p := slotPfa set (slot + x.2.frame)
        t |> setFrame fr.ld fr.folio (foTable e) x.2.frame (mkFrame 1 (frLpois fe) p) x.2.seq |> unitAdd p |> unitSub x.2.src
          |> moverDone m 1
      else moverSkip m 1 t) fs s
  else moverSkip m 64 s

/-- A mover's copy has been programmed and its row is verified: a single copy switches at once, a run when all 64 are.
DESIGN CHOICE, notes/assumptions/32.md. -/
def switchCopy (m t : Nat) (fr : Frame) (pfa : Nat) (s : State) : State :=
  if fr.run then
    let s1 := putFrame t { fr with free := true } s
    let fs := s1.runFrames m fr.ld fr.folio
    if fs.length = 64 ∧ fs.all (·.2.free) then
      let s2 := seqAll (fun (x : Nat × Frame) u => freeFrame x.1 u) fs s1
      match slotOf pfa with
      | some slot =>
        let s0 := slot - fr.frame
        if (s.mover m).job = jobSeal then switchSeal m fr (setOf pfa) s0 s2
        else moverEnd m (switchRun m fr (setOf pfa) s0 fs s2)
      | none => s2
    else s1
  else moverEnd m (switchOne m t fr pfa s)

/-- A frame whose row has completed under R93. -/
def switchFrame (t : Nat) (pfa : Nat) (s : State) : State :=
  match tget s.coal.frames t with
  | some fr =>
    if fr.placed = some pfa then
      match fr.st with
      | .mover m => switchCopy m t fr pfa s
      | _ => switchHost t fr pfa s
    else s
  | none => s

/-! ### A row program ends (R93, R136) -/

/-- The open set. -/
def State.openSetOf (s : State) (set : Nat) : Option OpenSet := s.fld.opens.find? (fun o => o.set == set)

/-- The system sets of a USE in a group that are FREE, those of a quad whose four sets are FREE apart (R133). -/
def State.freeSystem (s : State) (g use : Nat) (quad : Bool) : List Nat :=
  let free := (s.img.sysSets.filter (fun p => p.2.1 == use && setGroup p.1 == g && s.setInstalled p.1 && s.setFree p.1)).map (·.1)
  let whole (x : Nat) : Bool := (List.range 4).all (fun p => free.contains (mkSet g p (setField x)))
  free.filter (fun x => whole x == quad)

/-- The next system sets of a USE that a group opens: the least worn quad, otherwise the least worn single set, the lowest number
first among equals (R138). -/
def State.nextSystem (s : State) (g use : Nat) : List Nat :=
  let key (x : Nat) : Nat × Nat := (wearClass (s.setEc x), setField x)
  match lowest key (s.freeSystem g use true) with
  | some x => (List.range 4).map (fun p => mkSet g p (setField x))
  | none => (lowest (fun x => (wearClass (s.setEc x), x)) (s.freeSystem g use false)).toList

/-- The SYSTEM stream opens the next sets of a USE in a group, in 1-bit mode. -/
def openSystem (g use : Nat) (s : State) : State :=
  let l := s.nextSystem g use
  seqAll (fun x t => openSet streamSystem use true (l.length == 4) x t) l s

/-- The SYSTEM stream opens the next journal quad of a group where none is open. DEDUCED, notes/assumptions/31.md. -/
def openJournal (g : Nat) (s : State) : State :=
  if s.fld.opens.any (fun o => o.stream == streamSystem && setGroup o.set == g && (s.frec (setFieldNo o.set 0)).use == 1) then s
  else openSystem g 1 s

/-- A data row's parity member has completed: its frames switch, the row counts, and the set closes after its last row; a
journal quad with fewer than 400 rows left closes and the next opens (07_durability.md R163). -/
def rowComplete (o : OpenSet) (s : State) : State :=
  let set := o.set
  let s1 := (modOpen set (fun x => { x with row := o.row + 1, done := 0 }) s) |> modSet set (fun r => { r with rows := o.row + 1 })
  if o.stream = streamSystem then
    if 8190 - (o.row + 1) < 400 then openJournal (setGroup set) (closeSet set false s1) else s1
  else
    let slots := (List.range 7).map (fun m => slotPfa set (o.row * 7 + m))
    let s2 := seqAll (fun p t =>
      match (t.coal.frames.find? (fun e => e.2.placed == some p)).map (·.1) with
      | some tok => switchFrame tok p t
      | none => t) slots s1
    closeIfDone set s2

/-- A member row returned DONE. -/
def rowDone (pfa : Nat) (r : MRow) (s : State) : State :=
  let set := setOf pfa
  let k := memberOf (pfaCh pfa)
  let s0 := s.modMed (fun m => { m with rows := tset m.rows pfa r })
  let s1 := match (s.openSetOf set).bind (·.hold) with
    | some h => if 2 ≤ pfaRow pfa then holdTouch h k s0 else s0
    | none => s0
  match r.kind, s1.openSetOf set with
  | .star, some o =>
    let st := o.stars ||| 2 ^ (2 * k + pfaRow pfa)
    let s2 := modOpen set (fun x => { x with stars := st }) s1
    if st = 2 ^ 16 - 1 then writeDrec set 3 0 0 s2 else s2
  | .parity, some o => if pfaRow pfa = o.row + 2 then rowComplete o s1 else s1
  | .journal, some o =>
    let s2 := if pfaRow pfa = o.row + 2 then modOpen set (fun x => { x with done := x.done ||| 2 ^ k }) s1 else s1
    match r.jrow with
    | some j => journalDone j.jseq s2
    | none => s2
  | .journal, none => (match r.jrow with | some j => journalDone j.jseq s1 | none => s1)
  | _, some o => if pfaRow pfa = o.row + 2 then modOpen set (fun x => { x with done := x.done ||| 2 ^ k }) s1 else s1
  | _, none => s1

/-- The frames placed in a set and not switched; of a run all 64. -/
def State.placedIn (s : State) (set : Nat) : Tbl Frame :=
  let inSet (fr : Frame) : Bool := match fr.placed with | some p => setOf p == set | none => false
  let runs := (s.coal.frames.filter (fun e => inSet e.2 && e.2.run)).map (fun e => (e.2.st, e.2.ld, e.2.folio))
  s.coal.frames.filter (fun e =>
    inSet e.2 || (e.2.run && runs.contains (e.2.st, e.2.ld, e.2.folio) && e.2.placed.isSome && e.2.st != .staged))

/-- Frames placed in a set and not switched go back without a slot: host frames to STAGED; copies are to be programmed elsewhere
before their job goes on (R148). DEDUCED, notes/assumptions/31.md. -/
def unplace (set : Nat) (s : State) : State :=
  let lost := s.placedIn set
  let s1 := s.modCoal (fun c => { c with frames := c.frames.map (fun e =>
      if lost.any (fun x => x.1 == e.1) then
        (e.1, { e.2 with placed := none, redirty := false, free := false,
                         st := match e.2.st with | .programming => .staged | x => x })
      else e) })
  let s2 := seqAll (fun m t =>
    let ts := (lost.filter (fun e => e.2.st == .mover m)).map (·.1)
    if ts = [] then t else modMover m (fun v => { v with retry := v.retry.filter (fun x => !ts.contains x) ++ ts }) t) (List.range 4) s1
  reseal (fun p => setOf p == set) s2

/-- The stream that a job's copies go to (R138). -/
def jobStream (job : Nat) : Nat := if job = jobGc ∨ job = jobRelocate then streamCollect else streamCold

/-- Copies of a mover without a place are placed in group g, in a newly opened set of their stream where it may open one (R138, R148).
DEDUCED, notes/assumptions/31.md. -/
def retarget (g : Nat) (m : Nat) (s : State) : State :=
  let stream := jobStream (s.mover m).job
  let lost := (s.coal.frames.filter (fun e => e.2.st == .mover m && e.2.placed.isNone))
  let singles := (lost.filter (fun e => !e.2.run)).map (·.1)
  let runs := ((lost.filter (·.2.run)).map (fun e => (e.2.ld, e.2.folio))).eraseDups
  let s0 := if lost = [] then s else openStream g stream s
  let s1 := if singles = [] then s0 else placeAll g stream singles false s0
  seqAll (fun (x : Nat × Nat) t =>
    let toks := (List.range 64).filterMap (fun i =>
      ((t.runFrames m x.1 x.2).find? (fun e => e.2.frame == i)).map (·.1))
    placeAll g stream toks true t) runs s1

/-- An open set closes early because a member failed or left (R136, R148): frames without a completed row lose their
place. -/
def closeEarly (set : Nat) (fail : Bool) (s : State) : State :=
  let s1 := closeSet set fail (unplace set s)
  if s.isSystem set then openJournal (setGroup set) s1 else s1

/-- A member row returned PROG_FAIL, or was aborted (R136, R148): the row is unreadable, its field BAD, the set closes.
DEDUCED, notes/assumptions/31.md. -/
def rowFail (pfa : Nat) (r : MRow) (s : State) : State :=
  let set := setOf pfa
  (s.modMed (fun m => { m with rows := tset m.rows pfa { r with kind := .bad } }))
    |> setErr (F.MCH_ERR_STATUS_PROG_FAIL (pfaCh pfa)) intMch |> setErr F.FLD_ERR_STATUS_PROG_FAIL intFld |> cnt bFLD 11 1
    |> fieldBad (pfaFieldNo pfa) causeProgram |> closeEarly set true

/-- The end of a die's program: which planes failed. -/
def programEnd (c d : Nat) (fails : List Nat) (s : State) : State :=
  match (s.die (dieNo c d)).op with
  | .program mode1 rows =>
    let s1 := dieIdle c d s |> cnt (bMCH c) (if mode1 then 5 else 4) 1
    let s2 := seqAll (fun (x : Nat × MRow) t => if fails.contains (pfaPlane x.1) then t else rowDone x.1 x.2 t) rows s1
    seqAll (fun (x : Nat × MRow) t => if fails.contains (pfaPlane x.1) then rowFail x.1 x.2 t else t) rows s2
  | _ => s

/-! ### Erases (R135, R136, R143) -/

/-- The seeing record of a field is zeroed, and the field leaves the rewrite queue (05_drift_and_references.md R126). -/
def seeClear (fno : Nat) (s : State) : State :=
  (modSee fno (fun _ => See.reset) s).modDrift (fun d => { d with rwq := d.rwq.filter (· != fno) })

/-- What an erase does to the medium and to the tables that describe a field: rows, leaf buffer, seeing, drift. -/
def fieldErased (fno : Nat) (s : State) : State :=
  seeClear fno (s.modMed (fun m =>
    { m with
      rows := m.rows.filter (fun e => pfaFieldNo e.1 != fno)
      lbuf := m.lbuf.map (fun e => (e.1, e.2.filter (fun l => pfaFieldNo l.pfa != fno))) }))

/-- A set's erase is over when none of its sound fields on a plate that is present waits any more. -/
def eraseSetCheck (set : Nat) (s : State) : State :=
  if s.fld.erasing.contains set && (setFields set).all (fun f => (s.frec f).st == fBad || !(s.frec f).erasePend || !s.plateHere (plateOf (pfaCh (f * 8192)))) then eraseEnd set s
  else s

/-- The end of a die's erase: which planes failed. -/
def eraseDone (c d : Nat) (fails : List Nat) (s : State) : State :=
  match (s.die (dieNo c d)).op with
  | .erase mode1 fs =>
    let s1 := dieIdle c d s |> cnt (bMCH c) 6 1
    let s2 := seqAll (fun f t =>
      if fails.contains (pfaPlane (f * 8192)) then
        t |> setErr (F.MCH_ERR_STATUS_ERASE_FAIL c) intMch |> setErr F.FLD_ERR_STATUS_ERASE_FAIL intFld |> fieldBad f causeErase
      else
        t |> fieldErased f |> drecClear (fieldSet f) |> cnt bFLD 3 1
          |> fieldTo f (fun r => { r with ec := r.ec + 1, erasePend := false, mode1 := mode1, rows := 0 })) fs s1
    fldRecount (seqAll eraseSetCheck ((fs.map fieldSet).eraseDups) (setF F.DRIFT_RWQ_DEPTH s2.drift.rwq.length s2))
  | _ => s

/-- R135, R136: an erase returns. -/
def execEraseComplete (c : Fin 32) (d : Fin 8) (fails : List (Fin 4)) (s : State) : Host.Outcome State Fault Refusal :=
  .next (if s.dieSuspended c.val d.val then s else eraseDone c.val d.val (fails.map (·.val))
    (match (s.die (dieNo c.val d.val)).op with
      | .erase _ _ => fabricOut c.val d.val 5 (if fails = [] then 0 else 4) s
      | _ => s))

/-- A CLOSED system set that its unit no longer needs is erased; one with a BAD field, or worn, retires then (R136, R184). -/
def sysErase (set : Nat) (s : State) : State :=
  if s.setState set = fClosed ∧ !s.fld.eraseQ.contains set ∧ !s.fld.erasing.contains set then
    (seqAll (fun f t => if (s.frec f).st = fBad then t else modFrec f (fun r => { r with erasePend := true }) t) (setFields set) s).modFld
      (fun f => { f with eraseQ := f.eraseQ ++ [set], toRetire := if s.setBad set || s.setWorn set then set :: f.toRetire else f.toRetire })
  else s

/-- Is a read of the set still in flight or waiting? -/
def State.setRead (s : State) (set : Nat) : Bool :=
  s.med.reads.any (fun r => setOf r.pfa == set) || s.med.planes.any (fun p =>
    match p.2 with | .read pfa _ _ _ => setOf pfa == set | .star pfa _ _ => setOf pfa == set)

/-- R143: a set that waits for its erase starts it once every read issued to it has completed. -/
def setErase (set : Nat) (s : State) : State :=
  if s.fld.eraseQ.contains set && !s.setRead set then
    s.modFld (fun f => { f with eraseQ := f.eraseQ.filter (· != set), erasing := f.erasing ++ [set] })
  else s

def execSetErase (set : Fin 1048576) (s : State) : Host.Outcome State Fault Refusal := .next (setErase set.val s)

/-- RESET_DIE aborts what the die runs (R87): a program's rows are unreadable, an erase is done again, reads return no
data. DEDUCED, notes/assumptions/41.md. -/
def abortDie (c d : Nat) (s : State) : State :=
  let n := dieNo c d
  let s1 := (s.modMed (fun m => { m with planes := m.planes.filter (fun e => e.1 / 4 != n) })) |> dropLatches n
  match (s.die n).op with
  | .program _ rows =>
    if (s.die n).hold then reseal (fun p => rows.any (fun r => r.1 == p)) (dieIdle c d s1)
    else seqAll (fun (x : Nat × MRow) t => rowFail x.1 x.2 t) rows (dieIdle c d s1)
  | _ => dieIdle c d s1

/-- R87: RESET_DIE. -/
def fabResetDie (c d : Nat) (s : State) : State :=
  if s.chTakes c true then modDie (dieNo c d) (fun _ => { DieSt.reset with op := .resetDie }) (wakeCh c (abortDie c d s)) else s

def execFabResetDie (c : Fin 32) (d : Fin 8) (s : State) : Host.Outcome State Fault Refusal := .next (fabResetDie c.val d.val s)

end Sys2Proof.Machine
end

