-- ==== Sys2Proof/Machine/Movers.lean ====
section
/-! DEFINITION. The mover jobs: GC, WEAR, REWRITE, VERIFY, SEAL and RELOCATE, their choice and priority, scores and
campaigns (06_field_management.md R140 to R155, R159). -/

namespace Sys2Proof.Machine

/-! ### Which jobs are pending (R145, R155) -/

/-- A 12-bit signed register value. -/
def signed12 (v : Nat) : Int := if v < 2048 then (v : Int) else (v : Int) - 4096

/-- A signed number as a field of 12 bits. -/
def field12 (v : Int) : Nat := (v % 4096).toNat

/-- The GC level: how many movers GC may use now, the lowest score it picks, and its priority (R145, R155). DEDUCED, notes/assumptions/34.md. -/
def State.gcLevel (s : State) : Nat × Option Int × Nat :=
  let f := s.get F.FLD_STATUS_FREE_SETS
  if f ≤ s.resPct 3 then (4, none, 3)
  else if !s.on F.FLD_CTL_GC_EN then (0, none, 7)
  else if f ≤ s.resPct 10 then (4, none, 3)
  else if s.fld.gcOn then
    (s.get F.FLD_GC_CFG_MOVERS + 1, some (signed12 (s.get F.FLD_GC_CFG_MIN_SCORE)), 7)
  else (0, none, 7)

/-- The victim GC would take. -/
def State.gcVictim (s : State) : Option (Nat × Int) :=
  match s.topVictim with
  | some (set, bin) =>
    let sc : Int := (bin : Int) - 2048
    match s.gcLevel.2.1 with
    | some lo => if lo ≤ sc then some (set, sc) else none
    | none => some (set, sc)
  | none => none

/-- A GC job is pending: a new one, as the level allows, or one that yielded, which goes on at any level (R145, R155). -/
def State.gcPending (s : State) : Bool :=
  let n := (s.fld.movers.filter (fun p => p.2.job == jobGc)).length
  (decide (n < max 1 s.gcLevel.1) && s.fld.paused.any (fun v => v.job == jobGc)) || (decide (n < s.gcLevel.1) && s.gcVictim.isSome)

/-- Copies of WEAR and REWRITE jobs, and of SEAL jobs while the pool is not critical, wait while F is at or below 1 % of RES (R158). -/
def State.coldWaits (s : State) (job : Nat) : Bool :=
  (job == jobWear || job == jobRewrite || (job == jobSeal && !s.on F.XLAT_POOL_STATUS_CRIT)) &&
    decide (s.get F.FLD_RESERVE_RESERVE_SETS ≠ 0) && decide (s.get F.FLD_STATUS_FREE_SETS ≤ s.resPct 1)

/-- A mover works on the folio. -/
def State.folioHeld (s : State) (ld f : Nat) : Bool :=
  s.fld.movers.any (fun p => p.2.job == jobSeal && p.2.ld == ld && p.2.folio == f)

/-- The oldest split folio that no job holds. -/
def State.sealFromList (s : State) : Option (Nat × Nat) := s.xlat.splits.find? (fun p => !s.folioHeld p.1 p.2)

/-- The eligible VERIFIED set with the lowest EC, the oldest OPEN_SEQ breaking ties (R150). DESIGN CHOICE, notes/assumptions/67.md. -/
def State.wearPick (s : State) : Option Nat :=
  let key (x : Nat) : Nat × Nat := (s.setEc x, ((setFields x).map (fun f => (s.frec f).openSeq)).foldl max 0)
  lowest key (s.listedSets.filter (fun x => s.eligible x))

/-- The first field of the rewrite queue whose set can be rewritten now (R151). DESIGN CHOICE, notes/assumptions/67.md. -/
def State.rewritePick (s : State) : Option Nat :=
  s.drift.rwq.find? (fun f =>
    let x := fieldSet f
    let st := s.setState x
    (st == fVerified || st == fBad || st == fRetired) && !(s.frec f).erasePend &&
      !(setFields x).any (fun g => (s.frec g).victim || (s.frec g).pinned))

/-- The priority of a pending job, by its code in FLD_MOVm_STATUS (R155). DESIGN CHOICE, notes/assumptions/67.md. -/
def State.jobPrio (s : State) (job : Nat) : Option Nat :=
  if s.coldWaits job then none
  else
    match job with
    | 1 => if s.gcPending then some s.gcLevel.2.2 else none
    | 2 => if !s.fld.movers.any (fun p => p.2.job == jobWear) && (s.fld.paused.any (fun v => v.job == jobWear) ||
              (s.on F.FLD_WEAR_STATUS_CAMPAIGN && s.wearPick.isSome)) then some 8 else none
    | 3 => if s.on F.FLD_CTL_REWRITE_EN && s.rewritePick.isSome then some 4 else none
    | 4 => if s.fld.verifyQ ≠ [] then some 5 else none
    | 5 => if s.on F.XLAT_POOL_STATUS_CRIT && s.sealFromList.isSome then some 2
           else if (s.on F.XLAT_POOL_STATUS_LOW && s.sealFromList.isSome) || s.fld.sealQ ≠ [] then some 6 else none
    | 6 => if s.fld.relocQ ≠ [] then some 1 else none
    | _ => none

/-- The mode lets the job run (R10, R12, R155; none during a re-key, 09_cipher_and_meridian.md R240): all in ACTIVE; in QUIET, and on the way to it, GC at or below 3 % of RES and
SEAL while LOW; none on the way to PARKED or STANDBY. -/
def State.jobMode (s : State) (job : Nat) : Bool :=
  let quiet := (job == jobGc && decide (s.get F.FLD_STATUS_FREE_SETS ≤ s.resPct 3))
    || (job == jobSeal && s.on F.XLAT_POOL_STATUS_LOW)
  s.dur.drain == 0 && !s.on F.MERID_STATUS_REKEY &&
    match s.glb.mode, s.glb.transTo with
    | .active, none => true
    | .active, some .quiet => quiet
    | .quiet, none => quiet
    | .quiet, some .active => quiet
    | _, _ => false

/-- The job is pending and no pending job that may run has a higher priority. -/
def State.jobNext (s : State) (job : Nat) : Bool :=
  match s.jobPrio job with
  | none => false
  | some p => s.jobMode job && [1, 2, 3, 4, 5, 6].all (fun j =>
      match s.jobPrio j with
      | some q => !(s.jobMode j && decide (q < p))
      | none => true)

/-- A GC or WEAR job yields at a folio boundary: it is queued again with its progress (R155). -/
def moverYield (m : Nat) (s : State) : State :=
  let v := { s.mover m with done := s.get (F.FLD_MOV_STATUS_DONE_UNITS m), skipped := s.get (F.FLD_MOV_STATUS_SKIPPED m) }
  gcActive (modMover m (fun _ => Mover.reset) ((s.modFld (fun f => { f with paused := f.paused ++ [v] }))
    |> setF (F.FLD_MOV_STATUS_BUSY m) 0 |> setF (F.FLD_MOV_STATUS_JOB m) 0))

/-- Mover m is free for a job, or yields to it; `none` where it is not. -/
def moverTake (m job : Nat) (s : State) : Option State :=
  let v := s.mover m
  if v.job = 0 then some s
  else
    let prio := (s.jobPrio job).getD 9
    if (v.job = jobGc ∨ v.job = jobWear) ∧ prio ≤ 3 ∧ s.moverToks m = [] ∧ (List.range 4).all (fun k => (s.mover k).job != 0) then
      some (moverYield m s)
    else none

/-- A mover starts a job, or goes on with one that yielded. -/
def moverStart (m : Nat) (v : Mover) (s : State) : State :=
  gcActive (modMover m (fun _ => v) s |> setF (F.FLD_MOV_STATUS_BUSY m) 1 |> setF (F.FLD_MOV_STATUS_JOB m) v.job
    |> setF (F.FLD_MOV_STATUS_DONE_UNITS m) v.done |> setF (F.FLD_MOV_STATUS_SKIPPED m) v.skipped |> setF (F.FLD_MOV_STATUS_SET m) v.set)

/-- The completed data rows of a set. -/
def State.setRows (s : State) (set : Nat) : Nat := (setFields set).foldl (fun a f => max a (s.frec f).rows) 0

/-- The slots of a set's completed data rows that hold a row, rising. -/
def State.dataSlots (s : State) (set : Nat) : List Nat :=
  ((s.med.rows.filter (fun e => setOf e.1 == set && (e.2.kind == .data || e.2.kind == .bad))).filterMap
    (fun e => (slotOf e.1).bind (fun x => if x < 7 * s.setRows set then some x else none))).mergeSort

/-- A mover takes a set for a copying job: its fields become VICTIM. -/
def takeSet (m job set : Nat) (s : State) : State :=
  s |> modSet set (fun r => { r with victim := true }) |> rescore set
    |> moverStart m { Mover.reset with job := job, set := set, left := s.dataSlots set }

/-! ### Copying (R146, R152, R153) -/

/-- The frame of a programmed row as a mover's copy. -/
def copyOf (m pfa : Nat) (r : MRow) (s : State) : Frame :=
  { ld := r.ld, folio := r.folio, frame := r.frame, kid := r.kid, key := r.key, st := .mover m, redirty := false,
    lines := r.lines, lmask := r.lmask, seq := r.seq, placed := none, bypass := false, free := false,
    order := s.coal.nextOrder, src := pfa, zero := r.zero, run := false }

/-- The listed leaves of a slot, as a row's. -/
def slotRes (leaves : List SlotLeaf) (slot : Nat) : List LeafRes :=
  (leaves.filter (fun l => l.slot.val == slot)).map (fun l => ⟨l.leaf, l.step, l.bits, l.mis⟩)

/-- A leaf that neither its ladder nor, for a RELOCATE of a set with a hold slot, the held parity delivers (R139, R152). -/
def State.lostLeaf (s : State) (m : Nat) (leaves : List SlotLeaf) (slot : Nat) : Option Nat :=
  let v := s.mover m
  (leaves.find? (fun l => l.slot.val == slot && decide (5 ≤ l.step) &&
    !(l.held && v.job == jobRelocate && (tget s.fld.holds v.set).isSome))).map (·.leaf.val)

/-- The held parity rebuilds a leaf from the same leaf of every other completed row of its field (R141). -/
def heldReads (pfa : Nat) (s : State) : State :=
  let n := s.setRows (setOf pfa) - 1
  s |> seeReads (pfaFieldNo pfa) n |> cnt (bMCH (pfaCh pfa)) 1 n

/-- How a mover can read a row (R152): one of a BAD field, or one that a failed program or a new plate left unreadable, by rebuild. -/
def State.moverHow (s : State) (pfa : Nat) : UnitRead :=
  let ks := partners pfa
  let set := setOf pfa
  if (s.frec (pfaFieldNo pfa)).st = fBad ∨ (s.row pfa).any (·.kind == .bad) then
    if ks.all (fun k => !s.memberOut (setGroup set) k) then .rebuilt .no
    else if ks.any (fun k => s.dieGone (setPfa set k (pfaRow pfa))) then .gone
    else .wait
  else s.unitHow pfa false

/-- A frame that no means can read stays where it is: its field is pinned, and its set leaves the scored ones (R153). -/
def framePin (pfa : Nat) (s : State) : State :=
  s |> modFrec (pfaFieldNo pfa) (fun r => { r with pinned := true }) |> rescore (setOf pfa)
    |> setErr F.FLD_ERR_STATUS_RELOC_FAIL intFld |> logPut sevError 0x0602 0 (pfa % 2 ^ 32) (pfa / 2 ^ 32) 0

/-- A mover has read a frame in vain: leaf `leaf` failed. -/
def frameVain (pfa leaf : Nat) (how : UnitRead) (leaves : List LeafRes) (s : State) : State :=
  let s1 := unitRow pfa how leaves (List.range 64) s
  framePin pfa (if how = .array then s1 else leafFailed pfa leaf s1)

/-- A mover reads a frame and holds its copy under a token; the read and the program take MOVER credit. -/
def takeCopy (m pfa : Nat) (r : MRow) (how : UnitRead) (leaves : List LeafRes) (s : State) : Nat × State :=
  let t := s.newFrameTok
  (t, coalStatus (stageWrite t (List.range 256) (putFrame t (copyOf m pfa r s) (unitRow pfa how leaves (List.range 64) s)))
    |> when (leaves.any (fun l => decide (5 ≤ l.step))) (heldReads pfa) |> takeCredit classMover 0 16384 |> takeCredit classMover 1 16384)

/-- Is there credit for the copies of `n` frames (11_regulation_and_ledgers.md R270, R271)? -/
def State.copyMay (s : State) (n : Nat) : Bool := s.mayGo classMover 0 (n * 16384) && s.mayGo classMover 1 (n * 16384)

/-- How many more tokens a mover may take. -/
def State.moverRoom (s : State) (m : Nat) : Nat :=
  min (s.get F.FLD_BUF_CFG_MOV_TOKENS - (s.moverToks m).length) s.frameFree

/-- Whether a slot of a set is current, and how (R146). -/
inductive Current where
  | no
  | single
  | whole (slot : Nat)
  deriving DecidableEq, Repr

def State.current (s : State) (set slot : Nat) (r : MRow) : Current :=
  let e := s.folio r.ld r.folio
  if foType e = 1 ∧ foSet e = set ∧ foSlot e ≤ slot ∧ slot < foSlot e + 64 then .whole (foSlot e)
  else if foType e = 2 ∧ s.frameOfFolio e r.frame % 2 ^ 61 = slotPfa set slot ∧ frState (s.frameOfFolio e r.frame) = 1 then .single
  else .no

/-- The frames of a run of slots are copied under tokens, in order. -/
def takeRun (m : Nat) (leaves : List SlotLeaf) (slots : List Nat) (s : State) : List Nat × State :=
  slots.foldl (fun (a : List Nat × State) x =>
    let p := slotPfa (s.mover m).set x
    match s.row p with
    | some r =>
      let (t, u) := takeCopy m p r (s.moverHow p) (slotRes leaves x) a.2
      (a.1 ++ [t], putFrame t { copyOf m p r a.2 with run := true } u)
    | none => a) ([], s)

/-- One slot of a job's set: its header leaf is read, and it is copied, skipped or pinned; a whole folio's run together (R146, R153).
Where tokens, credit, a table for a split, a die or a measurement are short, the slot stays to be looked at. Whether the next slot's turn has
come, and the state after it. -/
def copySlot (m g : Nat) (leaves : List SlotLeaf) (s : State) : Bool × State :=
  let v := s.mover m
  let stream := jobStream v.job
  match v.left with
  | [] => (false, s)
  | slot :: rest =>
    let pfa := slotPfa v.set slot
    let next (l : List Nat) (t : State) : State := modMover m (fun x => { x with left := l }) t
    match s.row pfa with
    | none => (true, next rest s)
    | some r =>
      let how := s.moverHow pfa
      if how = .wait then (false, unitWait pfa false s)
      else
        match s.current v.set slot r with
        | .no => (true, moverSkip m 1 (next rest (unitRow pfa how ((slotRes leaves slot).filter (fun l => l.leaf.val == 64)) [] s)))
        | .single =>
          if s.moverRoom m = 0 ∨ !s.copyMay 1 then (false, s)
          else
            match (if how = .gone then some 0 else s.lostLeaf m leaves slot) with
            | some leaf => (true, frameVain pfa leaf how (slotRes leaves slot) (next rest s))
            | none =>
              let (t, s1) := takeCopy m pfa r how (slotRes leaves slot) (next rest s)
              (true, placeAll g stream [t] false s1)
        | .whole s0 =>
          let slots := (List.range 64).map (s0 + ·)
          match slots.find? (fun x => s.moverHow (slotPfa v.set x) == .wait) with
          | some x => (false, unitWait (slotPfa v.set x) false s)
          | none =>
            if slots.any (fun x => s.moverHow (slotPfa v.set x) == .gone || (s.lostLeaf m leaves x).isSome) then
              if s.poolFree = 0 then (false, s) else (true, folioSplit r.ld r.folio 0 s)
            else if s.moverRoom m < 64 ∨ !s.copyMay 64 then (false, s)
            else
              let (ts, s1) := takeRun m leaves slots s
              (true, placeAll g stream ts true (next (rest.filter (fun x => !slots.contains x)) s1))

/-- Slots one after another, until one must wait. -/
def copySlots (m g : Nat) (leaves : List SlotLeaf) : Nat → State → State
  | 0, s => s
  | n + 1, s =>
    match copySlot m g leaves s with
    | (true, t) => copySlots m g leaves n t
    | (false, t) => t

/-- One batch of a copying job, as far as tokens reach; copies that lost their place come first, and the job goes on once they are
programmed (R148); the job ends where nothing is left (R152, R155). -/
def copyBatch (m g : Nat) (leaves : List SlotLeaf) (s : State) : State :=
  if s.coldWaits (s.mover m).job then moverEnd m s
  else
    let s1 := retarget (s.placeGroup g) m s
    if (s1.mover m).retry.any (fun t => (s1.moverToks m).contains t) then s1
    else moverEnd m (copySlots m (s.placeGroup g) leaves (2 * (s1.mover m).left.length) (modMover m (fun v => { v with retry := [] }) s1))

/-- Start a copying job on the set that `pick` gives, or continue the one the mover runs. -/
def copyJob (m g job : Nat) (leaves : List SlotLeaf) (pick : State → Option (Nat × State)) (s : State) : State :=
  if (s.mover m).job = job then if s.jobMode job then copyBatch m g leaves s else s
  else if s.jobNext job then
    match moverTake m job s with
    | none => s
    | some s1 =>
      match s1.fld.paused.find? (fun v => v.job == job) with
      | some v => copyBatch m g leaves (moverStart m v (s1.modFld (fun f => { f with paused := f.paused.erase v })))
      | none =>
        match pick s1 with
        | some (set, s2) => copyBatch m g leaves (takeSet m job set s2)
        | none => s
  else s

/-! ### The jobs -/

/-- FLD_VICTIM shows a picked victim (R159). -/
def victimShow (set job : Nat) (sc : Int) (s : State) : State :=
  s |> setF F.FLD_VICTIM_VALID 1 |> setF F.FLD_VICTIM_JOB job |> setF F.FLD_VICTIM_SCORE (field12 sc) |> setF F.FLD_VICTIM_SET set

/-- R146: GC on the highest-scored victim. -/
def execGcJob (m : Fin 4) (g : Fin 32) (leaves : List SlotLeaf) (s : State) : Host.Outcome State Fault Refusal :=
  .next (copyJob m.val g.val jobGc leaves
    (fun t => t.gcVictim.map (fun p => (p.1, victimShow p.1 jobGc p.2 t))) s)

/-- R150: WEAR on the least-worn eligible set. -/
def execWearJob (m : Fin 4) (g : Fin 32) (leaves : List SlotLeaf) (s : State) : Host.Outcome State Fault Refusal :=
  .next (copyJob m.val g.val jobWear leaves
    (fun t => t.wearPick.map (fun x => (x, victimShow x jobWear (t.score x) t))) s)

/-- Fields of sets that a job already holds leave the rewrite queue without a job (R151). -/
def rwqDrop (s : State) : State :=
  let q := s.drift.rwq.filter (fun f => !(setFields (fieldSet f)).any (fun g => (s.frec g).victim))
  (s.modDrift (fun d => { d with rwq := q })) |> setF F.DRIFT_RWQ_DEPTH q.length

/-- R151: REWRITE on the set of the first field that can be taken. -/
def execRewriteJob (m : Fin 4) (g : Fin 32) (leaves : List SlotLeaf) (s : State) : Host.Outcome State Fault Refusal :=
  .next (copyJob m.val g.val jobRewrite leaves
    (fun t => t.rewritePick.map (fun f => (fieldSet f,
      victimShow (fieldSet f) jobRewrite (t.score (fieldSet f))
        (t.modDrift (fun d => { d with rwq := d.rwq.filter (· != f) }) |> setF F.DRIFT_RWQ_DEPTH (t.drift.rwq.length - 1)))))
    (if (s.mover m.val).job ≠ jobRewrite ∧ s.on F.FLD_CTL_REWRITE_EN ∧ s.jobMode jobRewrite then rwqDrop s else s))

/-- R152: RELOCATE on the first set queued. -/
def execRelocateJob (m : Fin 4) (g : Fin 32) (leaves : List SlotLeaf) (s : State) : Host.Outcome State Fault Refusal :=
  .next (copyJob m.val g.val jobRelocate leaves
    (fun t => t.fld.relocQ.head?.map (fun x => (x,
      victimShow x jobRelocate (t.score x) (t.modFld (fun f => { f with relocQ := f.relocQ.filter (· != x) }))))) s)

/-- The outcome of one leaf of VERIFY (R141): seeing, a rewrite request, or the field BAD. -/
def verifyLeaf (set : Nat) (l : BadLeaf) (s : State) : State :=
  let pfa := setPfa set l.member.val l.row
  let fno := pfaFieldNo pfa
  let s1 := leafLadder pfa l.leaf l.step l.bits l.mis s
    |> when (decide (5 ≤ l.step) && l.held && (tget s.fld.holds set).isSome) (heldReads pfa)
  if 4 ≤ l.step then
    if (s1.frec fno).st = fBad then s1
    else s1 |> setErr F.FLD_ERR_STATUS_VERIFY_FAIL intFld |> fieldBad fno causeVerify
  else if 1 ≤ l.step ∨ s.get F.FLD_VERIFY_CFG_BITS < l.bits then rwPost fno (modSee fno (fun r => { r with rwReq := true }) s1)
  else s1

/-- The members that VERIFY reads: those that hold completed rows and are not BAD. -/
def State.verifyMembers (s : State) (set : Nat) : List Nat :=
  if s.setRows set = 0 then [] else (List.range 8).filter (fun k => (s.frec (setFieldNo set k)).st != fBad)

/-- R140, R141: VERIFY reads every completed data row of the first queued set, the parity members too, and decides the set. Leaves not
listed decode CLEAN. It waits until every member serves reads of class 6, the set has its record, and the bucket its credit. -/
def verifyJob (m : Nat) (leaves : List BadLeaf) (s : State) : State :=
  if s.jobNext jobVerify then
    match moverTake m jobVerify s, s.fld.verifyQ with
    | some s1, set :: _ =>
      let ks := s1.verifyMembers set
      let n := s1.setRows set * ks.length * 16384
      if !s1.mayGo classMover 0 n then s else
      match ks.find? (fun k => s1.unitHow (setPfa set k 2) false != .array) with
      | some k => unitWait (setPfa set k 2) false s
      | none =>
        let rows := s1.setRows set
        let s2 := seqAll (fun k t => t |> seeReads (setFieldNo set k) rows |> cnt (bMCH (memberCh (setGroup set) k)) 1 rows) ks
          (takeCredit classMover 0 n (moverStart m { Mover.reset with job := jobVerify, set := set } s1))
        let s3 := seqAll (verifyLeaf set) (leaves.filter (fun l => ks.contains l.member.val && decide (2 ≤ l.row) && decide (l.row < rows + 2))) s2
        let s4 := incF (F.FLD_MOV_STATUS_DONE_UNITS m) (7 * rows) s3
        let s5 := if s4.setBad set then fldRecount (relocate set (s4.modFld (fun f => { f with verifyQ := f.verifyQ.filter (· != set) })))
          else setVerified set s4
        moverIdle m s5
    | _, _ => s
  else s

def execVerifyJob (m : Fin 4) (leaves : List BadLeaf) (s : State) : Host.Outcome State Fault Refusal :=
  .next (verifyJob m.val leaves s)

/-- What a SEAL does with a folio (R154; a zero frame under a destroyed key, 09_cipher_and_meridian.md R226). -/
inductive SealHow where
  | skip
  | go
  deriving DecidableEq, Repr

def State.sealHow (s : State) (ld f : Nat) : SealHow :=
  let e := s.folio ld f
  let frames := (List.range 64).map (fun i => frState (s.frameOfFolio e i))
  let kst := (s.kid (foKid e)).st
  if foType e ≠ 2 ∨ frames.any (fun x => x == 2 || x == 3) ∨ (frames.any (· == 0) ∧ (kst = 4 ∨ kst = 5)) then .skip else .go

/-- Copy a split folio to a run in the COLD stream. -/
def sealCopy (m g ld f : Nat) (ctx : Option Nat) (leaves : List SlotLeaf) (s : State) : State :=
  let e := s.folio ld f
  let s1 := setFolio ld f (foSetSeal true e) s
  let s2 := moverStart m { Mover.reset with job := jobSeal, ld := ld, folio := f, ctx := ctx } s1
  let (ts, s3) := (List.range 64).foldl (fun (a : List Nat × State) i =>
    let fe := a.2.frameOfFolio e i
    let t := a.2.newFrameTok
    let blank : Frame :=
      { ld := ld, folio := f, frame := i, kid := foKid e, key := s.keyOf (foKid e), st := .mover m, redirty := false, lines := [],
        lmask := 0, seq := 0, placed := none, bypass := false, free := false, order := 0, src := 0, zero := true, run := true }
    let fr : Frame := match (if frState fe = 1 then a.2.row (frLoc fe) else none) with
      | some r => { copyOf m (frLoc fe) r a.2 with ld := ld, folio := f, frame := i, run := true }
      | none => blank
    let u := coalStatus (stageWrite t (List.range 256) (putFrame t fr a.2)) |> takeCredit classMover 0 16384 |> takeCredit classMover 1 16384
    (a.1 ++ [t], if frState fe = 1 then unitRow (frLoc fe) (s.moverHow (frLoc fe)) (slotRes leaves i) (List.range 64) u else u)) ([], s2)
  let s4 := placeAll g streamCold ts true s3
  match (ts.head?.bind (fun t => tget s4.coal.frames t)).bind (·.placed) with
  | some p => setF (F.FLD_MOV_STATUS_SET m) (setOf p) s4
  | none => s4

/-- R154: SEAL of the next folio: of a ring command, or from the list of split folios. A source that its die or a measurement does not
serve yet is waited for. -/
def sealJob (m g : Nat) (leaves : List SlotLeaf) (s : State) : State :=
  if (s.mover m).job = jobSeal then (if s.coldWaits jobSeal || !s.jobMode jobSeal then s else retarget (s.placeGroup g) m s)
  else if s.jobNext jobSeal && decide (64 ≤ min (s.get F.FLD_BUF_CFG_MOV_TOKENS) s.frameFree) && s.copyMay 64 then
    match moverTake m jobSeal s with
    | none => s
    | some s1 =>
      let fromList := (s1.on F.XLAT_POOL_STATUS_CRIT || s1.fld.sealQ == []) && s1.sealFromList.isSome
      let cand : Option (Option Nat × Nat × Nat) :=
        if fromList then s1.sealFromList.map (fun p => (none, p.1, p.2)) else s1.fld.sealQ.head?.map (fun p => (some p.1, p.2.1, p.2.2))
      match cand with
      | none => s
      | some (ctx, ld, f) =>
        let s2 := if fromList then s1.modXlat (fun x => { x with splits := x.splits.filter (· != (ld, f)) ++ [(ld, f)] })
          else s1.modFld (fun x => { x with sealQ := x.sealQ.drop 1 })
        let e := s2.folio ld f
        let src (i : Nat) : Nat := frLoc (s2.frameOfFolio e i)
        let done (t : State) : State := t |> moverSkip m 1 |> ringSealed ctx false |> cnt bFLD (3 + jobSeal) 1
        match s2.sealHow ld f with
        | .skip => done s2
        | .go =>
          let here := (List.range 64).filter (fun i => frState (s2.frameOfFolio e i) == 1)
          match here.find? (fun i => s2.moverHow (src i) == .wait) with
          | some i => unitWait (src i) false s
          | none =>
            match here.filter (fun i => s2.moverHow (src i) == .gone || (s2.lostLeaf m leaves i).isSome) with
            | [] => sealCopy m (s.placeGroup g) ld f ctx leaves s2
            | lost => done (seqAll (fun i t =>
                frameVain (src i) ((s2.lostLeaf m leaves i).getD 0) (s2.moverHow (src i)) (slotRes leaves i) t) lost s2)
  else s

def execSealJob (m : Fin 4) (g : Fin 32) (leaves : List SlotLeaf) (s : State) : Host.Outcome State Fault Refusal :=
  .next (sealJob m.val g.val leaves s)

/-! ### Scores, weights, campaigns (R143, R150, R159) -/

/-- R143: a write of FLD_WEIGHTS starts a rebin. -/
def execWeightsWrite (_m : Master) (v : BitVec 32) (s : State) : Host.Outcome State Fault Refusal :=
  .next ((storeAt 0x80010 v.toNat s).modFld (fun f => { f with rebin := true }))

/-- R143: the rebin ends: every scored set stands in the bin of the present weights. -/
def execRebinDone (s : State) : Host.Outcome State Fault Refusal :=
  .next (if s.fld.rebin then
      (seqAll (fun p t => rescore p.1 t) s.fld.bins s).modFld (fun f => { f with rebin := false })
    else s)

/-- STOP ends the campaign after the current WEAR job. -/
def wearStop (s : State) : State :=
  if s.fld.movers.any (fun p => p.2.job == jobWear) || s.fld.paused.any (fun v => v.job == jobWear) then
    s.modFld (fun f => { f with campaignEnd := true })
  else campaignStop s

/-- A write of FLD_WEAR_CMD (R150, R159): where both bits are 1, STOP takes effect. -/
def wearCmd (v : Nat) (s : State) : State :=
  if v.testBit 1 then wearStop s else if v.testBit 0 then campaignStart s else s

def execWearStart (_m : Master) (v : BitVec 32) (s : State) : Host.Outcome State Fault Refusal := .next (wearCmd v.toNat s)

def execWearStop (_m : Master) (v : BitVec 32) (s : State) : Host.Outcome State Fault Refusal := .next (wearCmd v.toNat s)

/-- R159: FLD_SCORE_Q with GO scores one set. -/
def scoreQuery (v : Nat) (s : State) : State :=
  if v.testBit 63 then
    let x := v % 2 ^ 20
    s |> setB F.FLD_SCORE_R_ELIGIBLE (s.eligible x) |> setF F.FLD_SCORE_R_SCORE (field12 (s.score x))
      |> setF F.FLD_SCORE_R_V (s.setV x) |> setF F.FLD_SCORE_R_AGE (s.ageClass x) |> setF F.FLD_SCORE_R_WEAR (wearClass (s.setEc x))
      |> setF F.FLD_SCORE_R_EC (min 8191 (s.setEc x)) |> setF F.FLD_SCORE_R_DONE 1
  else s

def execScoreQuery (_m : Master) (v : Word) (s : State) : Host.Outcome State Fault Refusal := .next (scoreQuery v.toNat s)

/-- R141: a write of FLD_CTL; clearing VERIFY_EN makes every CLOSED 4-bit set VERIFIED at once. Setting WEAR_AUTO on a
spread already hit starts a campaign at the next rise. -/
def fldCtl (v : Nat) (s : State) : State :=
  let old := s.on F.FLD_CTL_VERIFY_EN
  let s1 := storeAt 0x80000 v s
  if old && !s1.on F.FLD_CTL_VERIFY_EN then
    let q := s1.fld.verifyQ
    seqAll setVerified q (logPut sevWarning 0x0603 q.length 0 0 0 s1)
  else s1

def execFldCtlWrite (_m : Master) (v : BitVec 32) (s : State) : Host.Outcome State Fault Refusal := .next (fldCtl v.toNat s)

end Sys2Proof.Machine
end

