-- ==== Sys2Proof/Machine/Reads.lean ====
section
/-! DEFINITION. CXL.mem requests from the link to their answer: ingress, the order of one line, the newest copy, media reads
with the retry ladder, rebuilds and read-ahead, translation probes (02_host_port.md R25 to R32; 03_translation.md R54, R55,
R70, R78, R440; 04_media_channels.md R90 to R104; 05_drift_and_references.md R121 to R125; 09_cipher_and_meridian.md R220,
R221; 11_regulation_and_ledgers.md R270 to R274). -/

namespace Sys2Proof.Machine

/-! ### Requests in flight, and the order of one line (R54) -/

/-- Two requests name the same 64 B line. -/
def HReq.sameLine (a b : HReq) : Bool := a.ld == b.ld && a.dpa / 64 == b.dpa / 64

def LookUser.reqs : LookUser → List HReq
  | .host r => [r]
  | .probe | .ring => []

def RdReq.reqs (q : RdReq) : List HReq := match q.src with | .host r => [r] | _ => []

/-- The requests that translation, the media or the write queue hold. -/
def State.inFlight (s : State) : List HReq :=
  s.xlat.misses.flatMap (fun m => m.2.users.flatMap (·.user.reqs)) ++
    s.xlat.stalled.flatMap (fun p => p.2.flatMap (·.user.reqs)) ++
    s.med.reads.flatMap (·.reqs) ++ s.host.writeQ

/-- The running probe translates this line. -/
def State.probeOn (s : State) (r : HReq) : Bool := s.xlat.probe.any (fun p => p.ld == r.ld && p.dpa / 64 == r.dpa / 64)

/-- The request waits: for an earlier one of its line, or for the move of its LD's folio array
(03_translation.md R48). -/
def State.mustWait (s : State) (r : HReq) : Bool :=
  (s.inFlight ++ s.host.parked).any (·.sameLine r) || s.probeOn r || s.host.moving.contains r.ld

/-- It waits, behind those that wait already. -/
def park (r : HReq) (s : State) : State := s.modHost (fun h => { h with parked := h.parked ++ [r] })

/-! ### Answers to reads -/

/-- The latency of a read that no media read times, in ns, added to the LD's sum (R75). DESIGN CHOICE, notes/assumptions/29.md. -/
def readNs (r : HReq) (ns : Nat) (s : State) : State := cnt (bLD r.ld) 9 (ns + r.wait) s

/-- Poisoned data at the end of translation. -/
def answerPoison (r : HReq) (misses : Nat) (s : State) : State := s |> sendPoison r |> readNs r (280 + 110 * misses)

/-- Data from the coalescing buffer or staging. -/
def answerHere (r : HReq) (d : Line) (misses : Nat) (s : State) : State := s |> sendData r d false |> readNs r (360 + 110 * misses)

/-! ### Media reads: rebuilds, streams, issue -/

/-- The leaf of a DPA in its frame. -/
def leafOf (dpa : Nat) : Nat := lineOf dpa / 4

/-- Add a read. -/
def addRead (q : RdReq) (s : State) : State := s.modMed (fun m => { m with reads := m.reads ++ [q], nextId := m.nextId + 1 })

/-- A read of one leaf, as it is first issued. -/
def newRead (src : RSrc) (cls pfa leaf line : Nat) (hdr : Bool) (s : State) : RdReq :=
  { id := s.med.nextId, src := src, cls := cls, pfa := pfa, leaf := leaf, line := line, hdr := hdr, mode := .ladder, step := 0,
    pos := s.agePos (setOf pfa), rb := none, hrb := none, got := false, hgot := false, waitMeas := false, ext := false, ovMask := 0, ovData := 0 }

/-- R95: a rebuild of a leaf issues a READ on the seven other members in class 1. One that is out of service fails it.
DESIGN CHOICE, notes/assumptions/30.md. -/
def rebuildStart (pfa leaf : Nat) (s : State) : Nat × State :=
  let id := s.med.nextId
  let g := setGroup (setOf pfa)
  let out := (partners pfa).any (fun k => s.memberOut g k)
  let s1 := (s.modMed (fun m =>
    { m with nextId := m.nextId + 1, rebuilds := m.rebuilds ++ [⟨id, pfa, leaf, partners pfa, out, false⟩] }))
    |> cnt (bMCH (pfaCh pfa)) 9 1
  (id, if out then s1
    else seqAll (fun k t => addRead (newRead (.rebuild id k) 1 (setPfa (setOf pfa) k (pfaRow pfa)) leaf 0 false t) t) (partners pfa) s1)

/-- Start the rebuilds of some of the leaves that a read wants. -/
def rebuildParts (q : RdReq) (parts : List Nat) (s : State) : RdReq × State :=
  parts.foldl (fun (a : RdReq × State) j =>
    let (id, t) := rebuildStart q.pfa j a.2
    (if j = q.leaf then { a.1 with rb := some id } else { a.1 with hrb := some id }, t)) (q, s)

/-- Issue a host read: by its die, or rebuilt. A 4-bit set without a record is measured first (R120, R121). -/
def issueRead (q : RdReq) (s : State) : State :=
  let c := pfaCh q.pfa
  match s.rebuildWhy q.pfa with
  | .no =>
    if s.unmeasured q.pfa then
      let s1 := addRead { q with waitMeas := true, ext := true } s |> incF F.DRIFT_EXT_CNT_MEAS_WAIT 1 |> cnt bDRIFT 3 1
      measWait q.pfa true (seqAll (fun r t => cnt (bLD r.ld) 11 1 t) q.reqs s1)
    else addRead q s
  | w =>
    let (q1, s1) := rebuildParts q q.needs s
    s1 |> addRead { q1 with id := s1.med.nextId, mode := .rebuild } |> rebuildCount c w

/-- The mark of a read-ahead leaf is cleared by the read that uses it. -/
def unmarkAhead (pfa leaf : Nat) (s : State) : State :=
  s.modMed (fun m => { m with lbuf := tmod [] (fun l =>
    l.map (fun e => if e.pfa = pfa ∧ e.leaf = leaf then { e with ahead := false } else e)) m.lbuf (pfaCh pfa) })

/-- R103: a host read extends its stream or begins one; the streams of a channel, most recently used first. DESIGN CHOICE, notes/assumptions/29.md. -/
def streamTouch (ld folio leaf : Nat) (l : List RaStream) : List RaStream × Nat :=
  match l.find? (fun x => x.ld == ld && x.folio == folio && (x.leaf == leaf || x.leaf + 1 == leaf)) with
  | some x =>
    let y : RaStream := if x.leaf = leaf then x else { x with leaf := leaf, len := x.len + 1 }
    (y :: l.erase x, if x.leaf = leaf then 0 else y.len)
  | none => ((⟨ld, folio, leaf, 1⟩ : RaStream) :: (l.filter (fun x => !(x.ld == ld && x.folio == folio))).take 63, 1)

/-- A leaf is read ahead unless it is in the buffer, is being read, or cannot be read now. -/
def aheadIssue (ld folio leaf : Nat) (s : State) : State :=
  let fe := s.frameOfFolio (s.folio ld folio) (leaf / 64)
  let pfa := frLoc fe
  let c := pfaCh pfa
  if frState fe ≠ 1 || s.inBuffer pfa (leaf % 64) || s.unmeasured pfa || s.dieOut c (pfaDie pfa) ||
      s.med.reads.any (fun q => q.pfa == pfa && q.leaf == leaf % 64) then s
  else addRead (newRead .ahead 7 pfa (leaf % 64) 0 false s) s

/-- R103: streams of the channel and what they read ahead. DESIGN CHOICE, notes/assumptions/29.md. -/
def readAhead (c ld folio leaf : Nat) (s : State) : State :=
  if s.on (F.MCH_CTL_RA_EN c) then
    let (l, len) := streamTouch ld folio leaf (tgetD [] s.med.streams c)
    let s1 := s.modMed (fun m => { m with streams := tset m.streams c l })
    if s.get (F.MCH_SCHED_CFG_RA_TRIGGER c) ≤ len then
      seqAll (fun i t => if leaf + i + 1 < 4096 then aheadIssue ld folio (leaf + i + 1) t else t)
        (List.range (s.get (F.MCH_SCHED_CFG_RA_DEPTH c))) s1
    else s1
  else s

/-- A host read goes to media (R55, R101): from the leaf buffer, or to its plane. `ovMask` bytes of a partial line are
merged over it. -/
def mediaRead (r : HReq) (pfa kid : Nat) (hdr : Bool) (ovMask : Nat) (ovData : Line) (misses : Nat) (s : State) : State :=
  let c := pfaCh pfa
  let f := folioOf r.dpa
  let leaf := leafOf r.dpa
  let s0 := cnt (bMCH c) 0 1 s
  let s1 :=
    if s.inBuffer pfa leaf && !hdr then
      let (d, t) := mediaLine pfa r.ld f (frameOf r.dpa) kid (lineOf r.dpa) s0
      t |> unmarkAhead pfa leaf |> incF (F.MCH_LBUF_CNT_LBUF_HIT c) 1 |> cnt (bMCH c) 2 1 |> laneCount 1
        |> sendData r (mergeLine ovMask d ovData) false |> readNs r (340 + 110 * misses)
    else issueRead { newRead (.host r) 2 pfa leaf (lineOf r.dpa) hdr s0 with ovMask := ovMask, ovData := ovData } s0
  readAhead c r.ld f (frameOf r.dpa * 64 + leaf) s1

/-! ### The newest copy (R55, R221, R440) -/

/-- Reads under a destroyed or free KID (R221): `none` where the read goes on. DESIGN CHOICE, notes/assumptions/18.md. -/
def kidRead (r : HReq) (fo : Nat) (s : State) : Option State :=
  if foType fo ≠ 1 ∧ foType fo ≠ 2 then none
  else
    let k := s.kid (foKid fo)
    if k.st = 5 ∨ (k.st = 4 ∧ !k.held) then
      some (s |> setErr F.CIPH_ERR_STATUS_KID_RD intCiph |> incF F.CIPH_DROP_CNT_POISONED 1 |> cnt bCIPH 9 1 |> kidEvent r.ld r.dpa)
    else if k.st = 0 then some (setErr F.CIPH_ERR_STATUS_KID_BAD intCiph s)
    else none

/-- A read whose lookups have ended: the first place that holds the line serves it. -/
def readFound (r : HReq) (fo fr : Nat) (misses : Nat) (s : State) : State :=
  if foType fo = 3 then s |> setErr F.XLAT_ERR_STATUS_TYPE_BAD intXlat |> answerPoison r misses
  else
    match kidRead r fo s with
    | some t => answerPoison r misses t
    | none =>
      if s.onPoisonList r.ld r.dpa then answerPoison r misses s
      else
        let under := s.below r.ld r.dpa fo fr
        match s.cline r.ld r.dpa with
        | some l =>
          if l.poison then answerPoison r misses s
          else if l.full then answerHere r l.data misses s
          else
            match under with
            | .poison => answerPoison r misses s
            | .line d => answerHere r (mergeLine l.mask d l.data) misses s
            | .zeros => answerHere r (mergeLine l.mask 0 l.data) misses s
            | .media p =>
              if l.mask = fullMask ∧ !frLpois fr then answerHere r l.data misses s
              else mediaRead r p (foKid fo) (frLpois fr) l.mask l.data misses s
        | none =>
          match under with
          | .poison => answerPoison r misses s
          | .line d => answerHere r d misses s
          | .zeros => s |> sendData r 0 false |> readNs r (280 + 110 * misses)
          | .media p => mediaRead r p (foKid fo) (frLpois fr) 0 0 misses s

/-! ### Writes (R25, R28, R31, R32, R158, R220) -/

/-- R104: a write's line token cancels read-ahead of the leaf that holds the line. -/
def raCancel (ld dpa : Nat) (s : State) : State :=
  let fe := s.frame ld (folioOf dpa) (frameOf dpa)
  let pfa := frLoc fe
  let c := pfaCh pfa
  let leaf := leafOf dpa
  if frState fe ≠ 1 then s
  else
    let waiting := s.med.reads.any (fun q => q.src == .ahead && q.pfa == pfa && q.leaf == leaf)
    let marked := (tgetD [] s.med.lbuf c).any (fun e => e.pfa == pfa && e.leaf == leaf && e.ahead)
    if !waiting && !marked then s
    else
      let flying := waiting && (match tget s.med.planes (pfaPlaneNo pfa) with
        | some (.read p mask _ _) => p == pfa && mask.testBit leaf
        | _ => false)
      (s.modMed (fun m =>
        { m with
          reads := m.reads.filter (fun q => !(q.src == .ahead && q.pfa == pfa && q.leaf == leaf))
          cancelled := if flying then m.cancelled ++ [(pfa, leaf)] else m.cancelled
          lbuf := tmod [] (fun l => l.filter (fun e => !(e.pfa == pfa && e.leaf == leaf && e.ahead))) m.lbuf c }))
        |> incF (F.MCH_RA_CNT_WASTED c) 1 |> cnt (bMCH c) 11 1

/-- A write is discarded: Cmp, its credit goes back, and it is counted. -/
def dropWrite (r : HReq) (s : State) : State := s |> credBack r.port credRwd |> discardWrite r

/-- Why a write is discarded, with what the discard sets; `none`: it may take a line token. A write to an unbacked DPA of a
write-protected LD falls under both R25 and R32, and no rule orders them; the model takes R25 (UNMAPPED, no WP_DISCARD).
DESIGN CHOICE, notes/assumptions/70.md. -/
def writeRefused (r : HReq) (s : State) : Option State :=
  let e := s.folio r.ld (folioOf r.dpa)
  if !s.backed r.ld r.dpa then some (unbackedEvent r.ld r.dpa s)
  else if s.wpAny r.ld then some (setErr F.HOST_ERR_STATUS_WP_DISCARD intHost s)
  else if s.get F.FLD_RESERVE_RESERVE_SETS ≠ 0 ∧ s.get F.FLD_STATUS_FREE_SETS ≤ s.resPct 1 then
    some (s |> wpSet r.ld wpReserve |> event r.ld logWarning 0x40 r.dpa |> setErr F.HOST_ERR_STATUS_WP_DISCARD intHost)
  else if s.xlat.lost.contains (s.folioWord r.ld (folioOf r.dpa) / 8) ∨
      (foType e = 2 ∧ s.xlat.lost.contains (s.frameWord (foTable e) (frameOf r.dpa) / 8)) then some s
  else if foType e = 3 then some (setErr F.XLAT_ERR_STATUS_TYPE_BAD intXlat s)
  else
    let mapped := foType e == 1 || foType e == 2
    let kidDrop (f : Fld) : State :=
      s |> setErr f intCiph |> incF F.CIPH_DROP_CNT_DISCARDED 1 |> cnt bCIPH 8 1 |> kidEvent r.ld r.dpa
    if mapped then
      if (s.kid (foKid e)).st = 1 then none else some (kidDrop F.CIPH_ERR_STATUS_KID_WR)
    else if s.curKid r.ld = 0 then some (kidDrop F.CIPH_ERR_STATUS_NO_KID)
    else none

/-- A write that holds its token is acknowledged. -/
def writeTake (r : HReq) (s : State) : State :=
  s |> raCancel r.ld r.dpa |> acceptLine r.ld r.dpa r.mask r.data r.poison
    |> when r.poison (setErr F.HOST_ERR_STATUS_POISON_RX intHost) |> credBack r.port credRwd |> sendCmp r

/-- A write is checked and takes its token, or waits for one (R28). -/
def writeTry (r : HReq) (s : State) : State :=
  match writeRefused r s with
  | some t => dropWrite r t
  | none =>
    if s.canAccept r.ld r.dpa then writeTake r s
    else
      let s1 := if s.lineFree = 0 then s else gatherPressure s
      s1.modHost (fun h => { h with writeQ := h.writeQ ++ [r] })

/-- What a lookup found goes to its user. A map word that cannot be read poisons a read and discards a write (R70); the unit of a
ring command looks again. -/
def foundGo (f : Found) (s : State) : State :=
  match f.look.user with
  | .host r =>
    if r.wr then (if f.bad then dropWrite r s else writeTry r s)
    else if f.bad then answerPoison r f.look.misses s else readFound r f.fo f.fr f.look.misses s
  | .probe => s.modXlat (fun x => { x with probe := x.probe.map (fun p => { p with found := some (f.fo, f.fr), bad := f.bad }) })
  | .ring => s

/-- A list of lookups that have ended. -/
def foundAll (r : List Found × State) : State := seqAll foundGo r.1 r.2

/-- A request that has its regulation credit enters its pipeline (R54): a write reads its folio entry, a read what it needs. An
unbacked address has no entry (R25). -/
def hostGo (r : HReq) (s : State) : State :=
  if s.mustWait r then park r s
  else if s.backed r.ld r.dpa then foundAll (lookStart ⟨.host r, r.ld, r.dpa, none, 0⟩ s)
  else if r.wr then writeTry r s
  else s |> unbackedEvent r.ld r.dpa |> sendPoison r |> readNs r 240

/-- Can the class take 64 B from its floor bucket (R273)? -/
def State.floorFirst (s : State) (r : HReq) : Bool := s.on F.REG_CTL_EN && decide (64 ≤ s.floorCredit r.ld r.dir)

/-- The order at an arbitration point: first those with floor credit, each part by age. DESIGN CHOICE, notes/assumptions/16.md. -/
def State.arbOrder (s : State) (l : List HReq) : List HReq := l.filter s.floorFirst ++ l.filter (fun r => !s.floorFirst r)

/-- Requests that waited for a token, a line or a move are tried again. -/
def settle (s : State) : State :=
  let ws := s.arbOrder s.host.writeQ
  let s1 := seqAll writeTry ws (s.modHost (fun h => { h with writeQ := [] }))
  let ps := s1.host.parked
  credRelease (seqAll hostGo ps (s1.modHost (fun h => { h with parked := [] })))

/-! ### Ingress (R27, R271) -/

/-- A request leaves ingress with its credit. -/
def ingressGo (r : HReq) (s : State) : State :=
  let s1 := takeCredit r.ld r.dir 64 s
  settle (hostGo r (if r.wr then s1 else credBack r.port credReq s1))

/-- Is the waiting limit of R271 reached on a port? -/
def State.ingressFull (s : State) (port : Nat) : Bool :=
  (List.range 16).any (fun l =>
    let w := s.host.ingress.filter (fun r => r.port == port && r.ld == l)
    decide (128 ≤ (w.filter (fun r => !r.wr)).length) || decide (64 ≤ (w.filter (·.wr)).length))

/-- May the request take its credit now: none of its class waits before it, and no re-key runs (R271;
09_cipher_and_meridian.md R240)? -/
def State.ingressMay (s : State) (r : HReq) : Bool := s.mayTake r.ld r.dir 64 && !s.on F.MERID_STATUS_REKEY

/-- The port accepts a request that holds its credit: it takes its regulation credit, or waits at ingress. -/
def ingressTake (r : HReq) (s : State) : State :=
  if s.ingressMay r && !s.host.ingress.any (fun x => x.ld == r.ld) then regStatus (ingressGo r s)
  else regStatus ((s.modHost (fun h => { h with ingress := h.ingress ++ [{ r with waited := true, wait := s.now }] })) |> cnt bHOST 7 1)

/-- CXL.mem has become ready and no start runs (18_start_up.md R418). -/
def State.memReady (s : State) : Bool :=
  !(decide (s.glb.mode = .off) || decide (s.glb.mode = .starting)) && !s.start.warm

/-- CXL.mem was negotiated on a port (R22): without it no CXL.mem request is taken. -/
def State.cxlMem (s : State) (port : Nat) : Bool := if port = 0 then s.on F.HOST_LINK_STATUS_P0_CXLMEM else s.on F.HOST_LINK_STATUS_P1_CXLMEM

/-- A request arrives from the link on a credit that the host holds. DESIGN CHOICE, notes/assumptions/15.md. DEDUCED, notes/assumptions/27.md. -/
def memReq (r : HReq) (s : State) : State :=
  let p := s.port r.port
  if !p.up || decide (s.ldPort r.ld ≠ r.port) || !s.cxlMem r.port then s
  else if p.insecure then cnt bHOST 9 1 s
  else if s.heldCred r.port r.cls = 0 then credOverflow r.port r.cls 1 s
  else
    let s1 := s |> cnt bHOST (2 * r.port + r.wr.toNat) 1 |> cnt (bLD r.ld) r.wr.toNat 1
      |> when (r.wr && decide (r.mask ≠ fullMask)) (cnt (bLD r.ld) 2 1)
    if !s.memReady then s1 |> refuseReq r |> incF F.GLB_START_STATUS_EARLY 1
    else if s.dur.drain ≠ 0 then s1
    else if p.gpf then gpfRefuse r s1
    else if s.glb.ingressClosed || s.glb.mode = .parked || s.glb.mode = .standby then parkRefuse r s1
    else
      let s2 := credTake r.port r.cls s1
      if s.ingressFull r.port || !p.linkQ.isEmpty then modPort r.port (fun q => { q with linkQ := q.linkQ ++ [r] }) s2
      else ingressTake r s2

/-- MEM_READ: an M2S read. The address is that of its line. -/
def execMemRead (port : Fin 2) (ld : Fin 16) (tag : BitVec 16) (dpa : BitVec 52) (s : State) : Host.Outcome State Fault Refusal :=
  .next (memReq ⟨port.val, ld.val, tag.toNat, dpa.toNat / 64 * 64, false, 0, 0, false, false, 0⟩ s)

/-- MEM_WRITE: an M2S RwD write with its byte mask, data and poison bit. -/
def execMemWrite (port : Fin 2) (ld : Fin 16) (tag : BitVec 16) (dpa : BitVec 52) (mask : BitVec 64) (data : Line) (poison : Bool)
    (s : State) : Host.Outcome State Fault Refusal :=
  .next (memReq ⟨port.val, ld.val, tag.toNat, dpa.toNat / 64 * 64, true, mask.toNat, data, poison, false, 0⟩ s)

/-- The requests that can leave ingress now: the first of each class that finds its credit. -/
def State.releasable (s : State) : List HReq :=
  (List.range 16).filterMap (fun l => (s.host.ingress.find? (fun r => r.ld == l)).filter s.ingressMay)

/-- The request that leaves next: floor credit first, then the oldest. -/
def State.releaseNext (s : State) : Option HReq :=
  (s.arbOrder (s.host.ingress.filter (fun r => s.releasable.contains r))).head?

/-- The link's next request enters a port with room. -/
def linkNext (port : Nat) (s : State) : State :=
  match (s.port port).linkQ with
  | r :: t => if s.ingressFull port || (s.port port).insecure then s else ingressTake r (modPort port (fun q => { q with linkQ := t }) s)
  | [] => s

/-- R271: a waiting access finds its credit. -/
def ingressRelease (s : State) : State :=
  match s.releaseNext with
  | some r =>
    let s1 := s.modHost (fun h => { h with ingress := h.ingress.erase r })
    linkNext r.port (regStatus (ingressGo { r with wait := s.now - r.wait } s1))
  | none => s

def execIngressRelease (s : State) : Host.Outcome State Fault Refusal := .next (ingressRelease s)

/-! ### Leaves arrive (R90, R95, R101, R123 to R125) -/

/-- Take a read off the list. -/
def dropRead (q : RdReq) (s : State) : State := s.modMed (fun m => { m with reads := m.reads.filter (fun x => x.id != q.id) })

/-- Change a read. -/
def modRead (q : RdReq) (f : RdReq → RdReq) (s : State) : State :=
  s.modMed (fun m => { m with reads := m.reads.map (fun x => if x.id = q.id then f x else x) })

/-- A member of a rebuild has been read, or cannot be. -/
def memberDone (id k : Nat) (ok : Bool) (s : State) : State :=
  s.modMed (fun m => { m with rebuilds := m.rebuilds.map (fun r =>
    if r.id = id then { r with left := r.left.filter (· != k), failed := r.failed || !ok } else r) })

/-- The data of a leaf serves a read (R125, R440, R274). One served at step 1 or higher counts, and its set is measured anew
(R114, R130). -/
def serveRead (q : RdReq) (ns : Nat) (s : State) : State :=
  let s1 := dropRead q s
  match q.src with
  | .host r =>
    let f := folioOf r.dpa
    let poisoned := q.hdr && (s.rowMask q.pfa).testBit q.line
    let kid := ((s.row q.pfa).map (·.kid)).getD 0
    let (d, s2) := mediaLine q.pfa r.ld f (frameOf r.dpa) kid q.line (laneCount 1 s1)
    let s3 := if poisoned then sendPoison r s2 else sendData r (mergeLine q.ovMask d q.ovData) false s2
    let c := pfaCh q.pfa
    s3 |> cnt (bLD r.ld) 9 ns
      |> when (decide (1 ≤ q.step)) (fun t => measOwnStart (setOf q.pfa) false (incF F.DRIFT_EXT_CNT_LADDER 1 t))
      |> latencyMiss r.ld ns (!r.waited && !q.ext && decide (q.step = 0) && decide (s.get (F.MCH_UTIL_LAST c) ≤ 700) && s.chUp c)
  | .rebuild id k => memberDone id k true s1
  | .ahead => s1

/-- A read ends in failure (R125): poisoned data and a General Media event. -/
def failRead (q : RdReq) (ns : Nat) (s : State) : State :=
  let s1 := dropRead q s
  match q.src with
  | .host r => s1 |> sendPoison r |> cnt (bLD r.ld) 9 ns |> event r.ld logFailure 0x60 r.dpa
  | .rebuild id k => memberDone id k false s1
  | .ahead => s1

/-- The rebuild of leaf j that a read has. -/
def State.rebuildOf (s : State) (q : RdReq) (j : Nat) : Option Rebuild :=
  (if j = q.leaf then q.rb else q.hrb).bind (fun id => s.med.rebuilds.find? (fun r => r.id == id))

/-- The rebuild of leaf j has failed, or there is none. -/
def State.rebuildLost (s : State) (q : RdReq) (j : Nat) : Bool :=
  match s.rebuildOf q j with
  | some r => r.failed && r.left.isEmpty
  | none => true

/-- Step 5 of a read: the leaves whose rebuild failed have failed. -/
def failParts (q : RdReq) (ns : Nat) (s : State) : State :=
  failRead q ns (seqAll (fun j t => leafFailed q.pfa j t) (q.needs.filter (s.rebuildLost q)) s)

/-- The leaves of a read whose rebuild is done are got, on the ladder at step 4; the read is served once it has what it wants. -/
def takeRebuilt (q : RdReq) (ns : Nat) (s : State) : State :=
  let done := q.needs.filter (fun j => (s.rebuildOf q j).any (·.done))
  let q1 := { q with got := q.got || done.contains q.leaf, hgot := q.hgot || done.contains 64 }
  let s1 := if q.mode = .rebuild then s else seqAll (fun j t => leafServed q.pfa j 4 0 t) done s
  if q1.needs = [] then serveRead q1 ns s1 else modRead q (fun _ => q1) s1

/-- A read whose die, channel or plate has left (R95, R105; 15_shelf_bus.md R369): it goes on by its rebuilds, or by those that
start now; one that waited for its die alone ends; a member of a rebuild fails it. -/
def leaveRead (q : RdReq) (s : State) : State :=
  match q.src with
  | .ahead => dropRead q s
  | .rebuild id k => memberDone id k false (dropRead q s)
  | .host _ =>
    match q.mode with
    | .rebuild => s
    | .die => if s.dieGone q.pfa then failRead q 0 s else s
    | .ladder =>
      if q.rb.isSome || q.hrb.isSome then
        if q.needs.any (s.rebuildLost q) then failParts q 0 s
        else if q.needs.all (fun j => (s.rebuildOf q j).any (·.done)) then takeRebuilt { q with step := 4 } 0 s
        else takeRebuilt { q with mode := .rebuild } 0 s
      else
        let (q1, u) := rebuildParts q q.needs s
        modRead q (fun _ => { q1 with mode := .rebuild, waitMeas := false }) u

/-- A read climbs one step after leaves of it, `bad`, did not decode (R123); of a plate out of service it is rebuilt at once
(15_shelf_bus.md R369). The data leaf and the header leaf climb beside each other. DESIGN CHOICE, notes/assumptions/33.md. -/
def climb (q : RdReq) (bad : List Nat) (ns : Nat) (s : State) : State :=
  let member := match q.src with | .rebuild _ _ => true | _ => false
  if s.plateOut (plateOf (pfaCh q.pfa)) then leaveRead q s
  else match q.step, q.src with
  | _, .ahead => dropRead q s
  | 0, _ =>
    let s0 := if member || q.ext then s else seqAll (fun r t => cnt (bLD r.ld) 11 1 t) q.reqs s
    let q0 := { q with step := 1, ext := true }
    let (q1, s1) := if member || q.mode == .die then (q0, s0) else rebuildParts q0 bad s0
    modRead q (fun _ => q1) s1
  | 1, _ => modRead q (fun _ => { q with step := 2 }) s
  | 2, _ => modRead q (fun _ => { q with step := 3 }) s
  | _, _ =>
    let q4 := { q with step := 4 }
    if member then failRead q ns s
    else if q.needs.any (s.rebuildLost q) then failParts q4 ns s
    else takeRebuilt q4 ns s

/-- The outcome of leaf j among those listed; a leaf not listed decodes CLEAN. -/
def outOf (outs : List (Nat × LeafOut)) (j : Nat) : LeafOut := ((outs.find? (fun p => p.1 == j)).map (·.2)).getD .clean

/-- Corrected bits of an outcome, `none` where the leaf is not delivered. -/
def LeafOut.bits : LeafOut → Option Nat
  | .clean => some 0
  | .corrected n => some n
  | _ => none

/-- One leaf of a completed READ: its decode counts, it enters the buffer (R90, R101, R104, R127). -/
def leafArrived (pfa leaf : Nat) (out : LeafOut) (step : Nat) (host ahead : Bool) (s : State) : State :=
  match out with
  | .clean | .corrected _ =>
    let s1 := leafServed pfa leaf step (out.bits.getD 0) s
    if s1.med.cancelled.contains (pfa, leaf) && !host then s1 else bufferLeaves pfa [leaf] (ahead && !host) s1
  | .erased => s
  | .miscorrected => if step = 0 then leafFirstFail pfa true s else s
  | .uncorrectable => if step = 0 then leafFirstFail pfa false s else s

/-- What a READ brought a read: it is served, or climbs. An ERASED leaf climbs no ladder (R90). -/
def readGot (q : RdReq) (outs : List (Nat × LeafOut)) (ns : Nat) (s : State) : State :=
  let bad := q.needs.filter (fun j => (outOf outs j).bits.isNone)
  let q1 := { q with got := q.got || !bad.contains q.leaf, hgot := q.hgot || !bad.contains 64 }
  if bad = [] then serveRead q1 ns s
  else if bad.any (fun j => outOf outs j == .erased) then failRead q ns s
  else climb q1 bad ns s

/-- A READ or READ_LATCH returns its leaves (R90). -/
def readComplete (plane : Nat) (outs : List (Nat × LeafOut)) (ns : Nat) (s : State) : State :=
  match tget s.med.planes plane with
  | some (.read pfa mask offs _) =>
    let s0 := s.modMed (fun m => { m with planes := terase m.planes plane, latches := tset m.latches plane (pfa, offs) })
    let qs := s.med.reads.filter (fun q => s.wants q pfa mask offs)
    let s1 := seqAll (fun j t =>
        if mask.testBit j then
          let mine := qs.filter (fun q => q.needs.contains j)
          leafArrived pfa j (outOf outs j) (mine.foldl (fun a q => min a q.step) (if mine = [] then 0 else 3))
            (mine.any (fun q => q.src != .ahead)) (mine.any (fun q => q.src == .ahead)) t
        else t) (List.range 65) s0
    let s2 := s1.modMed (fun m => { m with cancelled := m.cancelled.filter (fun p => !(p.1 == pfa && mask.testBit p.2)) })
    settle (seqAll (fun q t => readGot q outs ns t) qs s2)
  | _ => s

/-- READ_COMPLETE: the plane, the leaves that did not decode CLEAN, and the latency in ns of the reads served. -/
def execReadComplete (plane : Fin 1024) (outs : List (Nat × LeafOut)) (ns : Nat) (s : State) :
    Host.Outcome State Fault Refusal := .next (readComplete plane.val outs ns (planeOut plane.val false s))

/-! ### Rebuilds (R95, R107) -/

/-- A rebuild was not usable: a read that had only it waits for its die, or ends where the die is gone; a read on the ladder
goes on without it. -/
def rebuildFailed (id : Nat) (q : RdReq) (s : State) : State :=
  let j := if q.rb = some id then q.leaf else 64
  if (q.rb ≠ some id ∧ q.hrb ≠ some id) ∨ !q.needs.contains j then s
  else if q.mode = .rebuild then
    if s.dieGone q.pfa then failRead q 0 s else modRead q (fun x => { x with mode := .die, rb := none, hrb := none }) s
  else if q.step = 4 then failParts q 0 s
  else s

/-- The rebuilds that some read still has. -/
def keepRebuilds (s : State) : State :=
  s.modMed (fun m => { m with rebuilds := m.rebuilds.filter (fun x => m.reads.any (fun q => q.rb == some x.id || q.hrb == some x.id)) })

/-- The seven members of a rebuild are in, or it has failed. DESIGN CHOICE, notes/assumptions/30.md. -/
def rebuildComplete (id : Nat) (crcOk : Bool) (ns : Nat) (s : State) : State :=
  match s.med.rebuilds.find? (fun r => r.id == id) with
  | some r =>
    if r.failed || (r.left.isEmpty && !crcOk) then
      let s1 := s.modMed (fun m =>
        { m with
          rebuilds := m.rebuilds.map (fun x => if x.id = id then { x with failed := true, left := [] } else x)
          reads := m.reads.filter (fun q => match q.src with | .rebuild i _ => i != id | _ => true) })
        |> setErr (F.MCH_ERR_STATUS_REBUILD_FAIL (pfaCh r.pfa)) intMch
      let s2 := seqAll (rebuildFailed id) s1.med.reads s1
      settle (keepRebuilds s2)
    else if r.left.isEmpty then
      let s1 := s.modMed (fun m => { m with rebuilds := m.rebuilds.map (fun x => if x.id = id then { x with done := true } else x) })
        |> bufferLeaves r.pfa [r.leaf] false
      let s2 := seqAll (fun (q : RdReq) t =>
        if (q.rb = some id ∨ q.hrb = some id) ∧ (q.mode = .rebuild ∨ q.step = 4) then takeRebuilt q ns t else t) s1.med.reads s1
      settle (keepRebuilds s2)
    else s
  | none => s

/-- REBUILD_COMPLETE: the rebuild, whether the CRC of the result holds, the latency in ns of the reads served. -/
def execRebuildComplete (id : Nat) (crcOk : Bool) (ns : Nat) (s : State) : Host.Outcome State Fault Refusal :=
  .next (rebuildComplete id crcOk ns s)

/-- The reads of a die, channel or plate that has left. `gone` tells which PFAs. -/
def orphanReads (gone : Nat → Bool) (s : State) : State :=
  let s0 := s.modMed (fun m => { m with planes := m.planes.filter (fun p =>
    match p.2 with | .read pfa _ _ _ => !gone pfa | .star pfa _ _ => !gone pfa) })
  settle (seqAll leaveRead (s.med.reads.filter (fun q => gone q.pfa)) s0)

/-! ### Gathers that wait (R72) -/

def execGatherMerge (s : State) : Host.Outcome State Fault Refusal := .next (if s.dur.drain = 0 then settle (gatherMerge s) else s)

/-- R72: the media read of a partial frame's current copy ends: `leaves` are those that did not decode CLEAN at step 0. A leaf
that no step served poisons its four lines in the mask. A merge that needs a table waits for one (R59), and for its die as a host read
does. -/
def mergeRead (tok : Nat) (leaves : List LeafRes) (s : State) : State :=
  match s.coal.gathers.find? (fun g => g.merging == some tok) with
  | none => s
  | some g =>
    let e := s.folio g.ld g.folio
    let fe := s.frameOfFolio e g.frame
    if foType e ≠ 2 ∧ !s.tableForWrite then s else
    let g1 : Gather := { g with merging := none }
    let s0 := s.modCoal (fun c => { c with gathers := c.gathers.map (fun x => if x = g then g1 else x) })
    if frState fe = 1 then
      let pfa := frLoc fe
      match s.unitHow pfa true with
      | .wait => unitWait pfa true s
      | .gone => coalStatus (stageGather g1 tok [] allPoison (leafFailed pfa 0 s0))
      | how =>
        let s1 := unitRow pfa how leaves (List.range 64) s0
        let (img, s2) := mediaLines pfa g.ld g.folio g.frame (foKid e) (laneCount 64 s1)
        let failed := (leaves.filter (fun l => decide (5 ≤ l.step) && decide (l.leaf.val < 64))).foldl (fun m l => m ||| 15 * 2 ^ (4 * l.leaf.val)) 0
        let header := leaves.any (fun l => decide (5 ≤ l.step) && decide (l.leaf.val = 64))
        let mask := if header then allPoison else s.rowMask pfa ||| failed
        coalStatus (stageGather g1 tok img mask s2)
    else if frState fe = 3 then coalStatus (stageGather g1 tok [] allPoison s0)
    else coalStatus (stageGather g1 tok [] 0 s0)

def execMergeMediaReadDone (tok : Fin 65536) (leaves : List LeafRes) (s : State) : Host.Outcome State Fault Refusal :=
  .next (settle (mergeRead tok.val leaves s))

/-! ### Translation probes (R78) -/

/-- A write of XLAT_PROBE with GO: the probe takes the lookup path. A probe still running is replaced. DESIGN CHOICE, notes/assumptions/28.md. -/
def xlatProbe (v : Nat) (s : State) : State :=
  if v.testBit 63 then
    let ld := v / 2 ^ 52 % 16
    let dpa := v % 2 ^ 52 / 64 * 64
    let isP (k : Look) : Bool := k.user == .probe
    let s1 := (s.modXlat (fun x =>
      { x with
        misses := x.misses.map (fun m => (m.1, { m.2 with users := m.2.users.filter (fun k => !isP k) }))
        stalled := (x.stalled.map (fun p => (p.1, p.2.filter (fun k => !isP k)))).filter (fun p => p.2 != [])
        probe := some ⟨ld, dpa, none, false⟩ })) |> setF F.XLAT_PROBE_RESULT_DONE 0
    if s.backed ld dpa then foundAll (lookStart ⟨.probe, ld, dpa, none, 0⟩ s1) else s1
  else s

def execXlatProbe (_m : Master) (v : Word) (s : State) : Host.Outcome State Fault Refusal := .next (xlatProbe v.toNat s)

/-- SOURCE, KID and LOC of a probe (R55, R78, R440). -/
def State.probeOf (s : State) (p : Probe) : Option (Nat × Nat × Nat) :=
  if !s.backed p.ld p.dpa then some (0, 0, 0)
  else
    match p.found with
    | none => none
    | some (fo, fr) =>
      let kid := foKid fo
      if p.bad ∨ foType fo = 3 then some (5, kid, 0)
      else
        match s.cline p.ld p.dpa with
        | some l => some (1, kid, l.tok)
        | none =>
          match s.stagedTok p.ld (folioOf p.dpa) (frameOf p.dpa) with
          | some t => some (2, kid, t)
          | none =>
            if s.onPoisonList p.ld p.dpa then some (5, kid, 0)
            else
              match s.below p.ld p.dpa fo fr with
              | .poison => some (5, kid, 0)
              | .media pfa => some (if foType fo = 1 then 3 else 4, kid, pfa)
              | _ => some (6, kid, 0)

/-- R78: the probe ends, after the requests for its line that came before it. DESIGN CHOICE, notes/assumptions/28.md. -/
def probeResult (s : State) : State :=
  match s.xlat.probe with
  | none => s
  | some p =>
    if s.inFlight.any (fun r => r.ld == p.ld && r.dpa / 64 == p.dpa / 64) then s
    else
      match s.probeOf p with
      | none => s
      | some (src, kid, loc) =>
        settle ((s.modXlat (fun x => { x with probe := none })) |> setF F.XLAT_PROBE_RESULT_SOURCE src
          |> setF F.XLAT_PROBE_RESULT_KID kid |> setF F.XLAT_PROBE_RESULT_LOC loc |> setF F.XLAT_PROBE_RESULT_DONE 1)

def execProbeResult (s : State) : Host.Outcome State Fault Refusal := .next (probeResult s)

/-- R64: a writeback of a map line ends, and the lookups that waited for its bank go on. -/
def execMapWritebackDone (way : Fin 65536) (s : State) : Host.Outcome State Fault Refusal :=
  .next (settle (foundAll (writebackDone way.val s)))

/-- R68: MAPC_DRAIN_DONE. -/
def execMapcDrainDone (s : State) : Host.Outcome State Fault Refusal := .next (settle (foundAll (drainDone s)))

/-- R69: SCRATCH_CONVERT_DONE. -/
def execScratchConvertDone (s : State) : Host.Outcome State Fault Refusal := .next (settle (foundAll (convertDone s)))

end Sys2Proof.Machine
end

