-- ==== Sys2Proof/Machine/Station.lean ====
section
/-! DEFINITION. Spectrograph and logbook commands (16_spectrograph_and_logbook.md). -/

namespace Sys2Proof.Machine

/-! ### Counter words and snapshots -/

/-- The 8 B word of counter `id` (R378): CHAINED in [63], WRAPPED in [62], VALUE in [47:0]. -/
def SpecBank.word (b : SpecBank) (id : Nat) : Nat :=
  tgetD 0 b.cnt id
    + (if (tgetD 0 b.wrap (id / 32)).testBit (id % 32) then 2 ^ 62 else 0)
    + (if (tgetD 0 b.chain (id / 32)).testBit (id % 32 / 2) then 2 ^ 63 else 0)

/-- The counters as they stand now. -/
def SpecSt.live (p : SpecSt) : SpecBank := ⟨p.cnt, p.wrap, p.chain⟩

/-- The published bank. -/
def SpecSt.published (p : SpecSt) : SpecBank := if p.bank = 0 then p.bank0 else p.bank1

/-- Start a snapshot: every counter is frozen in one clock; a request while BUSY joins the one in progress (R376). -/
def snapStart (s : State) : State :=
  if s.spec.busy then s
  else s.modSpec (fun p => { p with busy := true, frozen := p.live, frozenAt := s.clk.tod })

/-- R376: every PERIOD_MS in ACTIVE, QUIET and PARKED; PERIOD_MS 0 means no timer. -/
def execSnapTimer (s : State) : Host.Outcome State Fault Refusal :=
  .next (if s.get F.SPEC_SNAP_CFG_PERIOD_MS ≠ 0 ∧ (s.glb.mode = .active ∨ s.glb.mode = .quiet ∨ s.glb.mode = .parked)
    then snapStart s else s)

/-- A write of SPEC_SNAP_CMD with its GO bit set starts or joins a snapshot (R376). -/
def snapGo (v : Nat) (s : State) : State := if v.testBit 0 then snapStart s else s

def execSnapGo (_m : Master) (v : BitVec 32) (s : State) : Host.Outcome State Fault Refusal :=
  .next (snapGo v.toNat s)

/-- R376: the copy completes; the bank that is not published takes the frozen values, BANK flips, SEQ increments and
SPEC_SNAP_TIME takes the time of the freeze. DEDUCED, notes/assumptions/66.md. -/
def snapPublish (s : State) : State :=
  if s.spec.busy then
    s.modSpec (fun p =>
      { p with
        bank0 := if p.bank = 0 then p.bank0 else p.frozen
        bank1 := if p.bank = 0 then p.frozen else p.bank1
        bank := 1 - p.bank
        seq := (p.seq + 1) % 2 ^ 32
        busy := false
        time := p.frozenAt })
  else s

def execSnapPublish (s : State) : Host.Outcome State Fault Refusal := .next (snapPublish s)

/-- Zero counter 2k of block `b` for every pair k whose chain bit changes (R374). -/
def chainZero (b old new : Nat) (c : Tbl Nat) : Tbl Nat :=
  (List.range 16).foldl
    (fun t k => if old.testBit k = new.testBit k then t else terase t (b * 32 + 2 * k)) c

/-- R374: a write of SPEC_CHAINb sets the chain bits of block `b`. -/
def chainWrite (b v : Nat) (s : State) : State :=
  s.modSpec (fun p =>
    let old := tgetD 0 p.chain b
    let new := v % 2 ^ 16
    { p with chain := tput 0 p.chain b new, cnt := chainZero b old new p.cnt })

def execChainWrite (_m : Master) (b : Fin 128) (v : BitVec 32) (s : State) : Host.Outcome State Fault Refusal :=
  .next (chainWrite b.val v.toNat s)

/-! ### The logbook -/

/-- The 8 B word `i` of a record (R380). -/
def LogRec.word (r : LogRec) (i : Nat) : Nat :=
  if i = 0 then r.seq + r.code * 2 ^ 32 + r.source * 2 ^ 48 + r.sev * 2 ^ 56
  else if i = 1 then r.time
  else if i = 2 then r.p0 + r.p1 * 2 ^ 32
  else r.p2 + r.p3 * 2 ^ 32

/-- The record whose four words are given (R380). -/
def LogRec.ofWords (w0 w1 w2 w3 : Nat) : LogRec where
  seq := w0 % 2 ^ 32
  code := w0 / 2 ^ 32 % 2 ^ 16
  source := w0 / 2 ^ 48 % 2 ^ 8
  sev := w0 / 2 ^ 56 % 2 ^ 8
  time := w1
  p0 := w2 % 2 ^ 32
  p1 := w2 / 2 ^ 32 % 2 ^ 32
  p2 := w3 % 2 ^ 32
  p3 := w3 / 2 ^ 32 % 2 ^ 32

/-- May this master write LOG_PUT0 to 3 (R387)? -/
def Master.isAssist : Master → Bool
  | .assistA | .assistB => true
  | _ => false

/-- R381: a write of LOG_PUT3 by a night assistant queues the record; one that finds the queue full is lost and counted
in LOG_DROP_CNT. A write of another master is discarded (R387). DEDUCED, notes/assumptions/13.md. -/
def logPutWrite (m : Master) (v : Nat) (full : Bool) (s : State) : State :=
  if m.isAssist then
    if full then
      s.modLog (fun l => { l with drops := min (2 ^ 32 - 1) (l.drops + 1), lost := l.lost + 1 })
    else
      let r := LogRec.ofWords (s.log.put.getD 0 0) (s.log.put.getD 1 0) (s.log.put.getD 2 0) v
      logFrom r.source r.sev r.code r.p0 r.p1 r.p2 r.p3 s
  else s

def execLogPut (m : Master) (v : Word) (full : Bool) (s : State) : Host.Outcome State Fault Refusal :=
  .next (logPutWrite m v.toNat full s)

/-- The record slot at the cursor (R383); an empty slot latches nothing. -/
def logAtCursor (s : State) : Option LogRec := tget s.log.slots (s.get F.LOG_CURSOR_SEQ % 4096)

/-- What LOG_WINw returns: word `w` of the latched copy, 0 where the slot was empty (R383). DEDUCED, notes/assumptions/13.md. -/
def logWin (s : State) (w : Nat) : Nat :=
  match s.log.win with
  | some r => r.word w
  | none => 0

/-- R383: a read of LOG_WIN0 latches the slot at the cursor whole. -/
def logWin0Read (s : State) : State := s.modLog (fun l => { l with win := logAtCursor s })

def execLogWin0Read (m : Master) (s : State) : Host.Outcome State Fault Refusal :=
  let s1 := logWin0Read s
  .next (emit (.regData m 0x3D0100 (BitVec.ofNat 64 (logWin s1 0))) s1)

/-- R383: with AUTO 1, a read of LOG_WIN3 whose latched SEQ equals the cursor advances the cursor by 1. -/
def logWin3Read (s : State) : State :=
  match s.log.win with
  | some r =>
    if s.on F.LOG_CURSOR_AUTO ∧ r.seq = s.get F.LOG_CURSOR_SEQ then setF F.LOG_CURSOR_SEQ (r.seq + 1) s else s
  | none => s

def execLogWin3Read (m : Master) (s : State) : Host.Outcome State Fault Refusal :=
  .next (emit (.regData m 0x3D0118 (BitVec.ofNat 64 (logWin s 3))) (logWin3Read s))

end Sys2Proof.Machine
end

