-- ==== Sys2Proof/Machine/Almanac.lean ====
section
/-! DEFINITION. The almanac: its bytes, checks, records and odometers, the host's accesses, the logbook tail
(17_almanac_life_cycle_finder.md R388 to R396; 16_spectrograph_and_logbook.md R384, R385). The device's own accesses are
whole inside the step that makes them. -/

namespace Sys2Proof.Machine

/-! ### Bytes and words -/

/-- The byte at an address; one that is not listed reads 0. DESIGN CHOICE, notes/assumptions/5.md. Bit 0 of retirement list 0 is always 1
(09_cipher_and_meridian.md R229). -/
def AlmSt.byte (a : AlmSt) (k : Nat) : Nat := (tgetD 0#8 a.bytes k).toNat ||| (decide (k = 0x2E00)).toNat

/-- `n` bytes from an address. -/
def State.almBytes (s : State) (k n : Nat) : List Nat := (List.range n).map (fun i => s.alm.byte (k + i))

/-- A little-endian number of `n` bytes. -/
def State.almNum (s : State) (k n : Nat) : Nat := bytesNum (s.almBytes k n)

/-- Store bytes from an address upwards. DESIGN CHOICE, notes/assumptions/5.md. -/
def almStore (k : Nat) (l : List Nat) (s : State) : State :=
  s.modAlm (fun a => { a with bytes := (l.foldl (fun (p : Nat × Tbl (BitVec 8)) b =>
    (p.1 + 1, tput 0#8 p.2 p.1 (BitVec.ofNat 8 b))) (k, a.bytes)).2 })

/-- A number as `n` bytes, little-endian. -/
def numBytes (n v : Nat) : List Nat := (List.range n).map (fun i => v / 2 ^ (8 * i) % 256)

/-- The little-endian number of a list of bytes. -/
def leNum : List Nat → Nat
  | [] => 0
  | b :: t => b % 256 + 256 * leNum t

/-! ### Checks -/

/-- One bit step of the CRC-32 of IEEE 802.3, reflected. -/
def crc32Step (c : Nat) : Nat := if c % 2 = 1 then (c / 2) ^^^ 0xEDB88320 else c / 2

/-- The CRC-32 of IEEE 802.3 (R391). -/
def crc32 (l : List Nat) : Nat :=
  (l.foldl (fun c b => crc32Step (crc32Step (crc32Step (crc32Step (crc32Step (crc32Step (crc32Step (crc32Step (c ^^^ b)))))))))
    0xFFFFFFFF) ^^^ 0xFFFFFFFF

/-! ### Regions (R390) -/

/-- A region that ALM_WP# protects (R390, R392): all but the odometers and the shutdown record. -/
def almProtected (k : Nat) : Bool := !(decide (0x2800 ≤ k) && decide (k < 0x2C00))

def almReserved (k : Nat) : Bool := decide (0x5000 ≤ k) && decide (k < 0x38000)

/-- Bytes that read 0 to the host: the shelf key record and the vault records. -/
def almHidden (k : Nat) : Bool :=
  (decide (0x100 ≤ k) && decide (k < 0x200)) || (decide (0x2C00 ≤ k) && decide (k < 0x2E00))

/-- A write of the device itself: refused while ALM_WP# is asserted and the region protected (R392). DEDUCED, notes/assumptions/17.md.
DESIGN CHOICE, notes/assumptions/64.md. -/
def almDevice (k : Nat) (l : List Nat) (s : State) : Bool × State :=
  if s.alm.wp && almProtected k then (false, setErr F.ALM_ERR_STATUS_WP_REFUSE intAlm s) else (true, almStore k l s)

/-- New training records go to the almanac (08_working_memory.md R198); their bytes are not laid out. A refused write has the next start train
in full. DESIGN CHOICE, notes/assumptions/19.md. DEDUCED, notes/assumptions/47.md. -/
def trainRecords (s : State) : State :=
  match s.wm.recPend with
  | some ids =>
    let p := (List.range 16).foldl (fun (p : Bool × State) i =>
      if p.1 then
        let (v, t) := takeNat p.2
        almDevice (0x3000 + 256 * i) (numBytes 256 v) t
      else p) (true, s.modWm (fun w => { w with recPend := none }))
    if p.1 then p.2.modAlm (fun a => { a with train := some (ids, p.2.get F.WMEM_CFG_MTS, p.2.almBytes 0x3000 4096) })
    else setF F.WMEM_STATUS_REC_FAIL 1 (p.2.modAlm (fun a => { a with train := none }))
  | none => s

/-- A record of 256 B with its REC_CRC over the 252 bytes of `l` (R391). -/
def almRecord (l : List Nat) : List Nat :=
  let b := (l ++ List.replicate 252 0).take 252
  b ++ numBytes 4 (crc32 b)

/-- A record is usable: KIND, VERSION and REC_CRC are right. -/
def State.recordOk (s : State) (k kind : Nat) : Bool :=
  s.almNum k 2 == kind && s.alm.byte (k + 2) == 1 && s.almNum (k + 252) 4 == crc32 (s.almBytes k 252)

/-! ### Odometers (R394 to R396) -/

def odoEpoch : Nat := 0
def odoDirty : Nat := 1
def odoHours : Nat := 2
def odoLc : Nat := 3
def odoPark : Nat := 4
def odoUnlocks : Nat := 5

def odoAddr (i : Nat) : Nat := 0x2800 + 16 * i

/-- HIGH × 2^32 + LOW. -/
def State.odo (s : State) (i : Nat) : Nat := s.almNum (odoAddr i + 4) 4 * 2 ^ 32 + s.almNum (odoAddr i) 4

/-- Store a value in an odometer, its intent word 1 cleared. -/
def odoPut (i v : Nat) (s : State) : State :=
  almStore (odoAddr i) (numBytes 4 (v % 2 ^ 32) ++ numBytes 4 (v / 2 ^ 32) ++ numBytes 4 (v / 2 ^ 32) ++ [0, 0, 0, 0]) s

/-- Increment an odometer by 1 (R395); the intent cell keeps NEW_HIGH, and its mark is cleared at the end. DEDUCED, notes/assumptions/17.md. -/
def odoInc (i : Nat) (s : State) : State := odoPut i ((s.odo i + 1) % 2 ^ 64) s

/-- R396: repair one odometer. -/
def odoRepair (i : Nat) (s : State) : State :=
  let k := odoAddr i
  let newHigh := s.almNum (k + 8) 4
  let word1 := s.almNum (k + 12) 4
  if word1 / 2 ^ 24 ≠ 0xA5 then s
  else
    let ok (l : Nat) : Bool := crc16 (numBytes 8 (newHigh * 2 ^ 32 + l)) == word1 % 65536
    let l0 := s.almNum k 4
    let l1 := if ok l0 then l0 else (l0 + 1) % 2 ^ 32
    if ok l1 then odoPut i (newHigh * 2 ^ 32 + l1) s |> setErr F.ALM_ERR_STATUS_ODO_REPAIR intAlm
    else s |> setErr F.ALM_ERR_STATUS_ODO_BAD intAlm |> almStore (k + 12) [0, 0, 0, 0]

/-- R396: repair them all. -/
def odoRepairAll (s : State) : State := seqAll odoRepair (List.range 16) s

/-- The shutdown record (R394). -/
def State.countedEpoch (s : State) : Nat := s.almNum 0x2900 4
def State.hostDirty (s : State) : Bool := s.almNum 0x2904 4 != 0
def State.scanNext (s : State) : Bool := s.almNum 0x2908 4 != 0

def setCounted (e : Nat) (s : State) : State := almStore 0x2900 (numBytes 4 e) s
def setHostDirty (b : Bool) (s : State) : State := almStore 0x2904 (numBytes 4 b.toNat) s

/-- SCAN_NEXT is held in the almanac and shown in DUR_CTL (07_durability.md R191). -/
def setScanNext (b : Bool) (s : State) : State := almStore 0x2908 (numBytes 4 b.toNat) s |> setB F.DUR_CTL_SCAN_NEXT b

/-! ### The logbook tail (16_spectrograph_and_logbook.md R384, R385) -/

/-- A logbook record as its 32 bytes. -/
def LogRec.bytes (r : LogRec) : List Nat := (List.range 4).flatMap (fun i => numBytes 8 (r.word i))

/-- The bytes of place q of the tail: the record among the 128 below LOG_HEAD with that place, empty where there is none. -/
def State.tailPlace (s : State) (q : Nat) : List Nat :=
  let s0 := s.log.head + 2 ^ 32 - 128
  let seq := (s0 + (q + 2 ^ 32 - s0 % 128) % 128) % 2 ^ 32
  match tget s.log.slots (seq % 4096) with
  | some r => if r.seq = seq then r.bytes else List.replicate 32 0
  | none => List.replicate 32 0

/-- The 16 writes of the copy in ascending SEQ order: address and bytes. -/
def State.tailBlocks (s : State) : List (Nat × List Nat) :=
  let b0 := (s.log.head + 2 ^ 32 - 128) / 8
  (List.range 16).map (fun i =>
    let b := (b0 + i) % 16
    (0x4000 + 256 * b, (List.range 8).flatMap (fun j => s.tailPlace (8 * b + j))))

/-- The whole copy, on the entry into STANDBY; a refused write ends it. DEDUCED, notes/assumptions/17.md. -/
def tailCopy (s : State) : State :=
  (s.tailBlocks.foldl (fun (p : Bool × State) w => if p.1 then almDevice w.1 w.2 p.2 else p) (true, s)).2

/-- R385: the records of the tail come back at a cold start. DEDUCED, notes/assumptions/38.md. -/
def tailRestore (s : State) : State :=
  let recs := (List.range 128).filterMap (fun q =>
    let k := 0x4000 + 32 * q
    let w (i : Nat) : Nat := s.almNum (k + 8 * i) 8
    let r := LogRec.ofWords (w 0) (w 1) (w 2) (w 3)
    if r.code = 0 then none else some r)
  let last := recs.foldl (fun a r => max a r.seq) 0
  let first := recs.foldl (fun a r => min a r.seq) (2 ^ 32)
  let head := if recs = [] then 0 else (last + 1) % 2 ^ 32
  (s.modLog (fun l => { l with slots := recs.foldl (fun t r => tset t (r.seq % 4096) r) l.slots, head := head }))
    |> setF F.LOG_TAIL_COUNT recs.length |> setF F.LOG_TAIL_LAST last
    |> setB F.LOG_TAIL_GAP (decide (recs ≠ []) && decide (last + 1 - first ≠ recs.length))

/-! ### Accesses of the management view (R389, R390) -/

/-- Is a host command still running? -/
def AlmSt.hostBusy (a : AlmSt) : Bool := (a.queue ++ a.waiting ++ a.run.toList).any (fun j => j.src == .host)

/-- Bring ALM_STATUS up to date. -/
def almStatus (s : State) : State :=
  s |> setB F.ALM_STATUS_BUSY s.alm.run.isSome |> setF F.ALM_STATUS_QUEUE s.alm.queue.length |> setB F.ALM_STATUS_WP s.alm.wp

/-- A host command ends. -/
def almHostEnd (st : Nat) (s : State) : State := s |> setF F.ALM_CMD_STATUS st |> setF F.ALM_CMD_DONE 1

/-- Bytes into ALM_DATA. -/
def almToData (l : List Nat) (s : State) : State :=
  seqAll (fun w t =>
    let old := t.get (F.ALM_DATA w)
    let new := (List.range 8).foldl (fun (a : Nat) j =>
      match l[8 * w + j]? with
      | some b => a - a / 2 ^ (8 * j) % 256 * 2 ^ (8 * j) + b * 2 ^ (8 * j)
      | none => a) old
    setF (F.ALM_DATA w) new t) (List.range 32) s

/-- Bytes of ALM_DATA. -/
def State.almFromData (s : State) (n : Nat) : List Nat :=
  (List.range n).map (fun i => s.get (F.ALM_DATA (i / 8)) / 2 ^ (8 * (i % 8)) % 256)

/-- The tail copy of a drain is over: DRAIN_DOWN may take the device down (13_dome_power.md R324). -/
def tailEnd (s : State) : State :=
  (s.modLog (fun l => { l with tailCopy := [] })).modAlm (fun a =>
    { a with queue := a.queue.filter (fun j => j.src != .tail), waiting := a.waiting.filter (fun j => j.src != .tail) })

/-- One access is served: a read at once; a write starts, or is refused (R392). -/
def almServe (j : AlmJob) (s : State) : State :=
  let shown := (s.almBytes j.addr j.len).mapIdx (fun i b => if almHidden (j.addr + i) then 0 else b)
  if j.src = .finder then s.modFind (fun f => { f with status := 0, data := bytesNum shown })
  else if j.wr then
    if s.alm.wp && almProtected j.addr then
      let s1 := setErr F.ALM_ERR_STATUS_WP_REFUSE intAlm s
      match j.src with
      | .tail => tailEnd s1
      | _ => almHostEnd 1 s1
    else s.modAlm (fun a => { a with run := some { j with started := s.now } })
  else almHostEnd 0 (almToData shown s)

/-- The port serves its queue in order until a write runs; waiting sources enter as places come free. -/
def almPump : Nat → State → State
  | 0, s => almStatus s
  | n + 1, s =>
    if s.alm.run.isSome then almStatus s
    else
      match s.alm.queue with
      | [] => almStatus s
      | j :: t => almPump n (almServe j (s.modAlm (fun a => { a with queue := t ++ a.waiting.take 1, waiting := a.waiting.drop 1 })))

/-- A request enters the port queue, or waits at its source. DEDUCED, notes/assumptions/17.md. -/
def almEnqueue (j : AlmJob) (s : State) : State :=
  let s1 := s.modAlm (fun a => if a.queue.length < 16 then { a with queue := a.queue ++ [j] } else { a with waiting := a.waiting ++ [j] })
  almPump (s1.alm.queue.length + s1.alm.waiting.length) s1

/-- A write of ALM_CMD (R409). -/
def almCmd (v : Nat) (s : State) : State :=
  let s1 := storeAt 0x3E0010 v s
  let op := v / 2 ^ 28 % 4
  let len := v % 512
  let addr := s1.get F.ALM_ADDR_ADDR * 4
  if !v.testBit 31 || op == 0 || op == 3 || s.alm.hostBusy then s1
  else
    let s2 := setF F.ALM_CMD_DONE 0 s1
    if len = 0 ∨ 256 < len ∨ len % 4 ≠ 0 ∨ 256 < addr % 256 + len then almHostEnd 3 s2
    else if op = 2 then
      if almReserved addr then almHostEnd 3 s2
      else if addr < 0x38000 then almHostEnd 2 s2
      else almEnqueue ⟨.host, true, addr, len, s2.almFromData len, 0⟩ s2
    else almEnqueue ⟨.host, false, addr, len, [], 0⟩ s2

def execAlmRead (_m : Master) (v : BitVec 32) (s : State) : Host.Outcome State Fault Refusal := .next (almCmd v.toNat s)
def execAlmWrite (_m : Master) (v : BitVec 32) (s : State) : Host.Outcome State Fault Refusal := .next (almCmd v.toNat s)

/-- How many words of a write have begun their commit by now (R389). -/
def AlmJob.words (j : AlmJob) (now : Nat) : Nat :=
  let e := now - j.started
  if e < 280000 then 0 else min (j.len / 4) ((e - 280000) / 35000 + 1)

/-- R393: the write in flight is stopped; words whose commit has begun stand. DEDUCED, notes/assumptions/17.md.
DESIGN CHOICE, notes/assumptions/64.md. -/
def almCut (s : State) : State :=
  let s1 := match s.alm.run with
    | some j => (almStore j.addr (j.data.take (4 * j.words s.now)) s).modAlm (fun a => { a with cut := true })
    | none => s
  almStatus (s1.modAlm (fun a => { a with run := none, queue := [], waiting := [] }))

/-- A collapse in native mode completes the record being written (R393; 13_dome_power.md R330). DESIGN CHOICE, notes/assumptions/64.md. -/
def almFinish (s : State) : State :=
  let s1 := match s.alm.run with
    | some j => almStore j.addr j.data s
    | none => s
  almStatus (s1.modAlm (fun a => { a with run := none, queue := [], waiting := [] }))

/-- The drain's tail copy starts: 16 writes through the port. -/
def tailStart (s : State) : State :=
  seqAll (fun w t => almEnqueue ⟨.tail, true, w.1, 256, w.2, 0⟩ t) s.tailBlocks
    (s.modLog (fun l => { l with tailCopy := (List.range 128).map (fun i => (s.log.head + 2 ^ 32 - 128 + i) % 2 ^ 32) }))

/-- Is a tail copy running? -/
def State.tailRuns (s : State) : Bool := (s.alm.queue ++ s.alm.waiting ++ s.alm.run.toList).any (fun j => j.src == .tail)

/-- R389: an almanac write completes, and the next access is served. -/
def almWriteDone (s : State) : State :=
  match s.alm.run with
  | none => s
  | some j =>
    let s1 := (almStore j.addr j.data s).modAlm (fun a => { a with run := none })
    let s2 := match j.src with
      | .tail => s1.modLog (fun l => { l with tailCopy := l.tailCopy.drop 8 })
      | _ => almHostEnd 0 s1
    almPump (s2.alm.queue.length + s2.alm.waiting.length) s2

end Sys2Proof.Machine
end

