-- ==== Sys2Proof/Machine/Keys.lean ====
section
/-! DEFINITION. The key vault, the retirement list and the key operations (09_cipher_and_meridian.md R218 to R232). What
waits for a flush or a commit goes on in Machine/KeyRun.lean. -/

namespace Sys2Proof.Machine

/-! ### Names -/

def kFree : Nat := 0
def kActive : Nat := 1
def kRetiring : Nat := 2
def kRetired : Nat := 3
def kDestroying : Nat := 4
def kDestroyed : Nat := 5

/-- The statuses of R222 as ring completions carry them (10_transit_rings.md R256). -/
def stNoKid : Nat := 0x30
def stBadKid : Nat := 0x31
def stNotOwner : Nat := 0x32
def stBadState : Nat := 0x33
def stAlmProtect : Nat := 0x34
def stEntropy : Nat := 0x35

/-! ### Retirement list (R229) -/

/-- The byte of KID k's retirement bit. -/
def retAddr (k : Nat) : Nat := 0x2E00 + k / 8

/-- Is a KID's retirement bit set? Bit 0 of list 0 is always 1. -/
def State.retBit (s : State) (k : Nat) : Bool := k == 0 || (s.alm.byte (retAddr k)).testBit (k % 8)

/-- Set the bit of a KID; false where the almanac refuses. -/
def setRetBit (k : Nat) (s : State) : Bool × State :=
  if s.retBit k then (true, s) else almDevice (retAddr k) [s.alm.byte (retAddr k) ||| 2 ^ (k % 8)] s

def setRetBits (ks : List Nat) (s : State) : Bool × State :=
  ks.foldl (fun (p : Bool × State) k => if p.1 then setRetBit k p.2 else p) (true, s)

/-! ### The vault (R228, R229) -/

/-- The address of vault record A (0) or B (1). -/
def vaultAddr (i : Nat) : Nat := 0x2C00 + 0x100 * i

def State.vaultGen (s : State) : Nat := s.get F.CIPH_VAULT_GEN
def State.vaultRec (s : State) : Nat := s.get F.CIPH_VAULT_RECORD

/-- The vault image of a generation. -/
def State.vaultOf (s : State) (g : Nat) : Option Vault := s.ciph.vaults.find? (fun v => v.gen == g)

/-- The keys in the key store, by KID. -/
def State.heldKeys (s : State) : Tbl Nat := (s.ciph.kids.filter (fun p => p.2.held)).map (fun p => (p.1, p.2.key))

/-- The next key number: keys are known by their numbers. -/
def takeKey (s : State) : Nat × State := (s.ciph.nextKey, s.modCiph (fun c => { c with nextKey := c.nextKey + 1 }))

/-- The entry of a KID in the image: 80 B. -/
def Vault.entry (v : Vault) (k : Nat) : List Nat :=
  match tget v.keys k with
  | some n => numBytes 2 k ++ List.replicate 6 0 ++ numBytes 72 (Config.wrapEntry v.vkey n).toNat
  | none => List.replicate 80 0

/-- The image: 320 KiB. -/
def Vault.image (v : Vault) : List Nat :=
  let hdr := [0x01, 0x0B, 0x01, 0] ++ numBytes 4 v.gen ++ List.replicate 68 0
  let body := (List.range 4095).flatMap (fun k => v.entry (k + 1))
  hdr ++ numBytes 4 (crc32 (hdr ++ List.replicate 4 0 ++ body)) ++ body

/-- The FREE system sets that an image can go to. -/
def State.vaultFree (s : State) : List Nat := (List.range 32).flatMap (fun g => s.freeSystem g 4 true ++ s.freeSystem g 4 false)

/-- The two sets that the next image goes to, the least worn first, and the first slots of its copies, on different plates. -/
def State.vaultPlace (s : State) : List (Nat × Nat) :=
  let key (x : Nat) : Nat × Nat := (wearClass (s.setEc x), x)
  match lowest key s.vaultFree with
  | none => []
  | some x =>
    let plate (a : Nat) : Nat := plateOf (pfaCh a)
    match lowest key (s.vaultFree.filter (· != x)) with
    | none => [(x, 0)]
    | some y => [(x, 0), (y, ((List.range 7).find? (fun i => plate (slotPfa y i) != plate (slotPfa x 0))).getD 0)]

/-- `n` member rows of an open system set from a slot on have been programmed; the set closes with the rows they fill. -/
def sysFilled (set slot n : Nat) (s : State) : State := setTo set (fun r => { r with rows := (slot + n + 6) / 7 }) (closeSet set false s)

/-- One copy of an image is written to a system set: 80 rows of 4 KiB from a slot on. -/
def vaultStore (v : Vault) (set slot : Nat) (s : State) : State :=
  let s1 := openSet streamSystem 4 true false set s
  let line (i j : Nat) : Line := BitVec.ofNat 512 (leNum ((v.image.drop (4096 * i + 64 * j)).take 64))
  let row (i : Nat) : MRow :=
    { MRow.base s1 (slotPfa set (slot + i)) .system with lines := (List.range 64).foldl (fun t j => tput 0 t j (line i j)) [] }
  sysFilled set slot 80 (s1.modMed (fun m =>
    { m with rows := (List.range 80).foldl (fun t i => tset t (slotPfa set (slot + i)) (row i)) m.rows }))

/-- Write an image of the next generation to its two sets, and the almanac record not in use; a refused record leaves the vault as it
stands. `fresh`: under a new vault key. DEDUCED, notes/assumptions/39.md. -/
def vaultWrite (fresh : Bool) (keys : Tbl Nat) (s : State) : Bool × State :=
  let g := (s.vaultGen + 1) % 2 ^ 32
  let old := ((s.vaultOf s.vaultGen).map (·.vkey)).getD 0
  let (vk, s1) := if fresh || old == 0 then takeKey s else (old, s)
  let place := s1.vaultPlace
  let v : Vault := ⟨g, vk, keys, place.map (·.1), place.map (fun p => slotPfa p.1 p.2)⟩
  let s2 := seqAll (fun (p : Nat × Nat) t => vaultStore v p.1 p.2 t) place s1
  let (p0, s3) := match v.first with | a :: _ => (a, s2) | [] => takeNat s2
  let (p1, s3) := match v.first with | _ :: a :: _ => (a, s3) | _ => takeNat s3
  let rec1 := 1 - s.vaultRec
  let wrapped := ((Config.wrapKey (BitVec.ofNat 256 vk)).map (·.toNat)).take 40
  let (ok, s4) := almDevice (vaultAddr rec1)
    (almRecord ([0x0A, 0x0B, 1, 0] ++ numBytes 4 g ++ numBytes 8 (p0 % 2 ^ 36) ++ numBytes 8 (p1 % 2 ^ 36) ++ wrapped)) s3
  if ok then
    (true, (s4.modCiph (fun c => { c with vaults := v :: c.vaults.filter (fun x => x.gen != g) }))
      |> setF F.CIPH_VAULT_GEN g |> setF F.CIPH_VAULT_RECORD rec1)
  else (false, seqAll sysErase v.sets s4)

/-- Images of earlier generations are released once the present one is recorded (R228). DEDUCED, notes/assumptions/39.md. -/
def vaultRelease (s : State) : State :=
  let old := (s.ciph.vaults.filter (fun v => v.gen != s.vaultGen)).flatMap (·.sets)
  seqAll sysErase old (s.modCiph (fun c => { c with vaults := c.vaults.filter (fun v => v.gen == s.vaultGen) }))

/-- Zero the almanac vault record that is not in use; false where it is refused. A record that is zero stays so. -/
def vaultZeroOther (s : State) : Bool × State :=
  let k := vaultAddr (1 - s.vaultRec)
  if (s.almBytes k 256).all (· == 0) then (true, s) else almDevice k (List.replicate 256 0) s

/-! ### KIDs -/

def State.kidSt (s : State) (k : Nat) : Nat := (s.kid k).st

def kidTo (k st : Nat) (s : State) : State := modKid k (fun x => { x with st := st }) s

/-- The KIDs with a state other than FREE. -/
def State.usedKids (s : State) : List Nat := (s.ciph.kids.filter (fun p => p.2.st != kFree)).map (·.1)

/-- CIPH_LDn_KID.OWNED. -/
def State.ownedKids (s : State) (ld : Nat) : Nat := (s.ciph.kids.filter (fun p => p.2.st != kFree && p.2.owner == ld)).length

def setCur (ld k : Nat) (s : State) : State := s.modCiph (fun c => { c with cur := tput 0 c.cur ld k })

/-- What CIPH_KID_RESULT shows for a KID (R245). -/
def State.kidResult (s : State) (k : Nat) : Nat :=
  let x := s.kid k
  2 ^ 63 + x.st * 2 ^ 60 + x.owner * 2 ^ 56 + (decide (k ≠ 0) && s.curKid x.owner == k && x.st != kFree).toNat * 2 ^ 55
    + x.refs % 2 ^ 30

/-- CIPH_KID_QUERY.GO: the state of one KID (R245). -/
def kidQuery (v : Nat) (s : State) : State :=
  if v.testBit 63 then
    let r := s.kidResult (v % 4096)
    s |> setF F.CIPH_KID_RESULT_DONE 1 |> setF F.CIPH_KID_RESULT_STATE (r / 2 ^ 60 % 8) |> setF F.CIPH_KID_RESULT_OWNER (r / 2 ^ 56 % 16)
      |> setF F.CIPH_KID_RESULT_CURRENT (r / 2 ^ 55 % 2) |> setF F.CIPH_KID_RESULT_REFS (r % 2 ^ 30)
  else s

def execKidQuery (_m : Master) (v : Word) (s : State) : Host.Outcome State Fault Refusal := .next (kidQuery v.toNat s)

/-- R228: an entropy health test fails. -/
def execDrbgHealthFail (s : State) : Host.Outcome State Fault Refusal :=
  .next (setErr F.CIPH_ERR_STATUS_DRBG_FAIL intCiph (s.modCiph (fun c => { c with drbgOk := false })))

/-- Journal a KID record (R231). -/
def kidRecord (op k ld next : Nat) (flag : Bool) (s : State) : State :=
  capture recKid ld k 0 [op, flag.toNat, next, s.vaultGen] s

/-- Some KID stands DESTROYING with its key zeroised, and no operation runs: step 7 of R225 is tried again (R219). -/
def retryStep7 (s : State) : State :=
  if s.ciph.kids.any (fun p => p.2.st == kDestroying && !p.2.held) then
    let (ok, s1) := vaultZeroOther s
    if ok then
      s1.modCiph (fun c => { c with kids := c.kids.map (fun p =>
        if p.2.st = kDestroying ∧ !p.2.held then (p.1, { p.2 with st := kDestroyed }) else p) })
    else s1
  else s

/-! ### The queue of key operations (R223) -/

/-- What an operation does next. -/
inductive KeyNext where
  /-- it waits for a flush or a commit -/
  | wait
  /-- it ends with a status and a result -/
  | done (st res : Nat)
  deriving DecidableEq, Repr

/-- Change the operation at the head. -/
def modHead (f : KeyOp → KeyOp) (s : State) : State :=
  s.modCiph (fun c => { c with ops := match c.ops with | [] => [] | o :: t => f o :: t })

/-- The records of an operation are captured: it waits for their commit (R170, R223). -/
def keyCommit (s : State) : KeyNext × State :=
  let s1 := forceCommit .mode s
  (.wait, modHead (fun o => { o with phase := 2, jseq := s1.lastSealed }) s1)

/-- A KID is FREE, not on the retirement list, and not KID 0. -/
def State.issuable (s : State) (k : Nat) : Bool := !s.retBit k && s.kidSt k == kFree

/-- The KID an ISSUE takes: the one named, or the lowest that can be issued. -/
def State.issuePick (s : State) (kid : Nat) : Option Nat :=
  if kid = 0 then (List.range 4096).find? s.issuable else if s.issuable kid then some kid else none

/-- Is a NEXT operand in order (R222)? -/
def State.nextOk (s : State) (kid next ld : Nat) : Bool :=
  next == 0 || (next != kid && s.kidSt next == kActive && (s.kid next).owner == ld)

/-- States in which KEY ISSUE completes with BAD_STATE (17_almanac_life_cycle_finder.md R398): RETURN, DECOMMISSION. -/
def State.noIssue (s : State) : Bool := decide (4 ≤ s.get F.LCS_STATUS_STATE)

/-- ISSUE (R222, R228). DEDUCED, notes/assumptions/39.md. -/
def keyIssue (o : KeyOp) (s : State) : KeyNext × State :=
  if s.noIssue then (.done stBadState 0, s)
  else
    match s.issuePick o.kid with
    | none => (.done (if o.kid = 0 then stNoKid else stBadKid) 0, s)
    | some k =>
      if s.get (F.CIPH_LD_QUOTA_QUOTA o.ld) ≤ s.ownedKids o.ld then (.done stNoKid 0, s)
      else if !s.ciph.drbgOk then (.done stEntropy 0, s)
      else
        let (n, s1) := takeKey s
        let (ok, s2) := vaultWrite false (tset s1.heldKeys k n) s1
        if !ok then (.done stAlmProtect 0, s2)
        else
          keyCommit (s2 |> modKid k (fun x => { x with st := kActive, owner := o.ld, key := n, held := true, refs := 0 })
            |> when o.flag (setCur o.ld k) |> kidRecord 1 k o.ld 0 o.flag
            |> modHead (fun h => { h with kid := k }))

/-- The checks of an operation on a KID (R222). -/
def State.keyCheck (s : State) (o : KeyOp) (states : List Nat) : Option Nat :=
  if o.kid = 0 then some stBadKid
  else if s.kidSt o.kid ≠ kFree ∧ (s.kid o.kid).owner ≠ o.ld then some stNotOwner
  else if states.contains (s.kidSt o.kid) && s.nextOk o.kid o.next o.ld then none
  else some stBadState

/-- Steps 1 and 2 of R224 for KIDs: they leave their state for `st`, a current one gives way to NEXT, and the flush of what
stands under them starts. -/
def keyFlush (ks : List Nat) (st next : Nat) (s : State) : KeyNext × State :=
  let was := ks.map (fun k => (k, s.kidSt k))
  let s1 := modHead (fun o => { o with was := was, cur := s.ciph.cur, phase := 1 }) s
  let s2 := seqAll (fun k t =>
    t |> when (t.curKid (t.kid k).owner == k) (setCur (t.kid k).owner next) |> kidTo k st) ks s1
  (.wait, s2 |> closeGathers (fun g => ks.contains g.kid || ks.contains (foKid (s.folio g.ld g.folio)))
    |> releaseHolds (fun fr => ks.contains fr.kid))

/-- Is every gather and staged frame under the KIDs of the flush programmed (R224 step 2)? -/
def State.flushed (s : State) (ks : List Nat) : Bool :=
  !s.coal.gathers.any (fun g => ks.contains g.kid || ks.contains (foKid (s.folio g.ld g.folio))) &&
    !s.coal.frames.any (fun e => ks.contains e.2.kid && (e.2.st == .staged || e.2.st == .programming))

/-- A refused almanac write before step 5 of R225, or in R224: everything is as before (R219). DEDUCED, notes/assumptions/39.md. -/
def keyUndo (o : KeyOp) (s : State) : State :=
  (seqAll (fun (p : Nat × Nat) t => kidTo p.1 p.2 t) o.was s).modCiph (fun c => { c with cur := o.cur })

/-- Steps 3 and 4 of R224. -/
def keyRetired (o : KeyOp) (s : State) : KeyNext × State :=
  let (ok, s1) := setRetBit o.kid s
  if ok then keyCommit (s1 |> kidTo o.kid kRetired |> kidRecord 4 o.kid o.ld (s1.curKid o.ld) (decide (o.next ≠ 0 ∧ s1.curKid o.ld = o.next)))
  else (.done stAlmProtect 0, keyUndo o s1)

/-- Steps 1 to 6 of R225 for the KIDs of the operation. DEDUCED, notes/assumptions/39.md. -/
def keyDestroy (o : KeyOp) (s : State) : KeyNext × State :=
  let ks := o.was.map (·.1)
  if !s.ciph.drbgOk then (.done stEntropy 0, keyUndo o s)
  else
    let (ok, s1) := vaultWrite true (s.heldKeys.filter (fun p => !ks.contains p.1)) s
    if !ok then (.done stAlmProtect 0, keyUndo o s1)
    else
      let (_, s2) := setRetBits ks s1
      keyCommit (seqAll (fun k t =>
        t |> modKid k (fun x => { x with held := false }) |> kidRecord 5 k (t.kid k).owner (t.curKid (t.kid k).owner) false) ks s2)

/-- The KIDs an internal operation destroys (R38, 17_almanac_life_cycle_finder.md R400). -/
def State.destroyList (s : State) (o : KeyOp) : List Nat :=
  (s.ciph.kids.filter (fun p => (o.op == 8 || p.2.owner == o.ld) && p.2.st != kFree && p.2.st != kDestroyed &&
    p.2.st != kDestroying)).map (·.1)

/-- The operation at the head starts. An internal one that finds only KIDs left DESTROYING by a step 7 that was refused again ends as
that refusal does (02_host_port.md R38). -/
def keyStart (o : KeyOp) (s : State) : KeyNext × State :=
  match o.op with
  | 1 => keyIssue o s
  | 2 =>
    match s.keyCheck o [kActive] with
    | some st => (.done st 0, s)
    | none => keyCommit (s |> setCur o.ld o.kid |> kidRecord 2 o.kid o.ld 0 true)
  | 3 => keyCommit (s |> setCur o.ld 0 |> kidRecord 3 0 o.ld 0 false)
  | 4 =>
    match s.keyCheck o [kActive] with
    | some st => (.done st 0, s)
    | none => keyFlush [o.kid] kRetiring o.next s
  | 5 =>
    match s.keyCheck o [kActive, kRetired] with
    | some st => (.done st 0, s)
    | none => keyFlush [o.kid] kDestroying o.next s
  | 6 =>
    if o.kid = 0 then (.done stBadKid 0, s)
    else if s.kidSt o.kid ≠ kFree ∧ (s.kid o.kid).owner ≠ o.ld then (.done stNotOwner 0, s)
    else (.done 0 (s.kidResult o.kid), s)
  | _ =>
    let ks := s.destroyList o
    if ks = [] then
      (.done (if s.ciph.kids.any (fun p => (o.op == 8 || p.2.owner == o.ld) && p.2.st == kDestroying) then stAlmProtect else 0) 0, s)
    else keyFlush ks kDestroying 0 s

/-- Step 7 of R225, once the records are committed. -/
def keyStep7 (s : State) : KeyNext × State :=
  let s1 := retryStep7 s
  if s1.ciph.kids.any (fun p => p.2.st == kDestroying && !p.2.held) then (.done stAlmProtect 0, s1)
  else (.done 0 0, vaultRelease s1)

/-- The commit of an operation has come: it completes. -/
def keyCommitted (o : KeyOp) (s : State) : KeyNext × State :=
  match o.op with
  | 1 => (.done 0 o.kid, vaultRelease s)
  | 2 | 3 | 4 => (.done 0 0, s)
  | _ => keyStep7 s

/-- What the operation at the head does now. -/
def keyStep (o : KeyOp) (s : State) : KeyNext × State :=
  if o.phase = 0 then keyStart o (retryStep7 s)
  else if o.phase = 1 then
    if s.flushed (o.was.map (·.1)) then (if o.op = 4 then keyRetired o s else keyDestroy o s) else (.wait, s)
  else if o.jseq ≤ s.get F.DUR_COMMIT_JSEQ then keyCommitted o s
  else (.wait, s)

/-- The operation at the head leaves; a ring command gets its status and result. -/
def keyPop (o : KeyOp) (st res : Nat) (s : State) : State :=
  let s1 := s.modCiph (fun c => { c with ops := c.ops.drop 1 })
  match o.ctx with
  | some id => s1.modRing (fun r => { r with cmds := r.cmds.map (fun c =>
      if c.id = id ∧ c.final = none then { c with waiting := 0, final := some (st, res) } else c) })
  | none => s1

/-! ### The key load at a start (R230) -/

/-- A vault record is usable and has this generation. -/
def State.vaultUsable (s : State) (i g : Nat) : Bool := s.recordOk (vaultAddr i) 0x0B0A && s.almNum (vaultAddr i + 4) 4 == g

/-- The retirement list and the committed records decide each KID (R224, R226, R230). `keys` are the keys the vault gives. -/
def kidSettle (keys : Tbl Nat) (k : Nat) (x : Kid) (bit : Bool) : Kid :=
  match tget keys k with
  | some n =>
    { x with
      key := n
      held := true
      st := if x.st = kDestroyed then kDestroyed else if bit then kRetired
            else if x.st = kDestroying ∨ x.st = kRetiring then kActive else x.st }
  | none => { x with held := false, st := if x.st = kFree then kFree else if x.st = kDestroyed then kDestroyed else kDestroying }

/-- R230: the vault could not be loaded; every KID that was not FREE is DESTROYED. -/
def vaultFail (s : State) : State :=
  (s.modCiph (fun c => { c with kids := c.kids.map (fun p =>
      (p.1, if p.2.st = kFree then p.2 else { p.2 with st := kDestroyed, held := false })), cur := [] }))
    |> setErr F.CIPH_ERR_STATUS_VAULT_FAIL intCiph
    |> (fun t => seqAll (fun n u => event n logFatal 0x80 0 u) t.lds t)
    |> (fun t => t.modStart (fun x => { x with vaultHandled := true }))

/-- R230: the key load for generation g, which replay yields. `ok`: an image copy of that generation can be read. Where no
vault was ever written there is nothing to load. -/
def keyLoad (g : Nat) (ok : Bool) (s : State) : State :=
  let s0 := setF F.CIPH_VAULT_GEN g s
  let loaded (t : State) : State := setF F.CIPH_STATUS_KEYS_LOADED 1 t
  if g = 0 ∧ s.usedKids = [] then
    loaded (seqAll (fun i t =>
      if (t.almBytes (vaultAddr i) 256).all (· == 0) then t else (almDevice (vaultAddr i) (List.replicate 256 0) t).2) [0, 1] s0)
  else
    let r := if s.vaultUsable 0 g then some 0 else if s.vaultUsable 1 g then some 1 else none
    match r, s.vaultOf g with
    | some i, some v =>
      if !ok then vaultFail s0
      else
        let s1 := setF F.CIPH_VAULT_RECORD i s0
        let s2 := s1.modCiph (fun c =>
          { c with kids := c.kids.map (fun p => if p.2.st = kFree then p else (p.1, kidSettle v.keys p.1 p.2 (s.retBit p.1))) })
        let s3 := s2.modCiph (fun c => { c with cur := c.cur.filter (fun p => s2.kidSt p.2 == kActive) })
        let (_, s4) := vaultZeroOther s3
        loaded (vaultRelease (retryStep7 s4))
    | _, _ => vaultFail s0

end Sys2Proof.Machine
end

