-- ==== Sys2Proof/Machine/Durable.lean ====
section
/-! DEFINITION. Checkpoints, their pointers, the hold-up drain's journal and replay (07_durability.md R174 to R192). -/

namespace Sys2Proof.Machine

/-! ### Moving the folio arrays (03_translation.md R48) -/

/-- Every folio entry of these LDs that is not 0 in working memory, with its LD and folio. -/
def State.arrayEntries (s : State) (lds : List Nat) : List (Nat × Nat × Nat) :=
  lds.flatMap (fun ld =>
    let b := s.folioWord ld 0
    ((mergeFlushAll s).wm.words.filter (fun p => decide (b ≤ p.1) && decide (p.1 < b + s.get (F.XLAT_LD_MAP_LEN ld)))).map
      (fun p => (ld, p.1 - b, p.2)))

/-- The lines of the folio array of an LD leave the map cache. -/
def arrayInvalidate (at' : State) (ld : Nat) (s : State) : State :=
  mapInvalidate (mapLineOf (at'.folioWord ld 0)) ((at'.get (F.XLAT_LD_MAP_LEN ld) + 511) / 512 * 8) s

/-- Change allocations: the arrays are laid out anew, and the entries of those whose place or length changes move with them. The
device invalidates the ranges that they leave and enter. -/
def moveArrays (change : State → State) (s : State) : State :=
  let t := layArrays (change s)
  let lds := (List.range 16).filter (fun n => t.get (F.XLAT_LD_MAP_OFF n) != s.get (F.XLAT_LD_MAP_OFF n) ||
    t.get (F.XLAT_LD_MAP_LEN n) != s.get (F.XLAT_LD_MAP_LEN n))
  let s0 := mergeFlushAll (seqAll (arrayInvalidate t) lds (seqAll (arrayInvalidate s) lds s))
  let old := s0.arrayEntries lds
  let s1 := layArrays (change s0)
  let cleared := old.foldl (fun w e => terase w (s0.folioWord e.1 e.2.1)) s1.wm.words
  let moved := old.foldl (fun w e => if s1.inArray e.1 e.2.1 then tput 0 w (s1.folioWord e.1 e.2.1) e.2.2 else w) cleared
  s1.modWm (fun w => { w with words := moved })

/-! ### Checkpoints (R181 to R186) -/

/-- The map region as a checkpoint's sections hold it: every word's newest value. -/
def State.mapImage (s : State) : Tbl Nat :=
  (s.keysIn (fun _ m => m.unwritten != 0)).foldl (fun t k =>
    let m := s.mline k
    (List.range 64).foldl (fun t i =>
      if m.valid.testBit (i / 8) then tput 0 t (lineAddr k m.tag * 64 + i) (tgetD 0 m.words i) else t) t) (mergeFlushAll s).wm.words

/-- Every folio entry that is not 0 as it stands now, in the map cache or in working memory, with its LD and folio. -/
def State.liveEntries (s : State) : List (Nat × Nat × Nat) :=
  let words := s.mapImage
  (List.range 16).flatMap (fun ld =>
    let b := s.folioWord ld 0
    (words.filter (fun p => decide (b ≤ p.1) && decide (p.1 < b + s.get (F.XLAT_LD_MAP_LEN ld)))).map (fun p => (ld, p.1 - b, p.2)))

/-- The frames with a line in the coalescing buffer or a staged copy (R182). -/
def State.stagingList (s : State) : List (Nat × Nat × Nat) :=
  (s.coal.gathers.map (fun g => (g.ld, g.folio, g.frame)) ++
    (s.coal.frames.filter (fun e => e.2.st == .staged || e.2.st == .programming)).map (fun e => (e.2.ld, e.2.folio, e.2.frame))).eraseDups

/-- The frame a record tells of: LD, folio, frame. -/
def JRec.frame? (r : JRec) : Option (Nat × Nat × Nat) :=
  if r.typ = recLine ∨ r.typ = recPart ∨ r.typ = recPline then some (r.ld, folioOf (r.addr * 64), frameOf (r.addr * 64))
  else if r.typ = recChunk then some (r.ld, folioOf (r.addr * 512), frameOf (r.addr * 512))
  else if r.typ = recFrame then some (r.ld, r.addr / 64, r.addr % 64)
  else none

/-- JRN_TAIL (R183). -/
def State.jrnTail (s : State) (staging : List (Nat × Nat × Nat)) : Nat :=
  let rows := s.dur.journal.map (·.2) ++ s.dur.rows.map (·.row)
  (rows.filter (fun r => r.recs.any (fun x => match x.frame? with | some f => staging.contains f | none => false))).foldl
    (fun a r => min a r.jseq) s.dur.jseq

/-- A KID as the CIPHER section holds it (09_cipher_and_meridian.md R232). -/
def Kid.word (k : Kid) : Nat := k.st * 2 ^ 61 + k.owner * 2 ^ 56 + k.refs % 2 ^ 30

def Kid.ofWord (w : Nat) : Kid where
  st := w / 2 ^ 61 % 8
  owner := w / 2 ^ 56 % 16
  refs := w % 2 ^ 30
  key := 0
  held := false

/-- What LDSTATE keeps of an LD. -/
def LdSt.kept (l : LdSt) : LdSt :=
  { LdSt.reset with blocks := l.blocks, dcRegion := l.dcRegion, extents := l.extents, poison := l.poison, poisonOvf := l.poisonOvf,
                    lsa := l.lsa }

/-- The address of a pointer copy in the almanac, and whether it is usable (R185, R187). -/
def ptrAddr (i : Nat) : Nat := 0x2600 + 0x100 * i
def State.ptrUsable (s : State) (i : Nat) : Bool := s.recordOk (ptrAddr i) 0x0C0A
/-- PSEQ of a pointer copy (R185). The rules compare the copies' PSEQ and say nothing of a copy that is not usable: the model takes its
PSEQ as 0. DESIGN CHOICE, notes/assumptions/78.md. -/
def State.ptrSeq (s : State) (i : Nat) : Nat := if s.ptrUsable i then s.almNum (ptrAddr i + 8) 8 else 0
def State.ptrCut (s : State) (i : Nat) : Nat := s.almNum (ptrAddr i + 16) 8

/-- The checkpoint taken at this cut (R181, R182). -/
def State.cut (s : State) (clean : Bool) : Ckpt where
  pseq := max (s.ptrSeq 0) (s.ptrSeq 1) + 1
  cutAseq := s.dur.aseq - 1
  jrnTail := s.jrnTail s.stagingList
  clean := clean
  fields := s.fld.tbl
  staging := s.stagingList
  words := s.mapImage
  used := s.xlat.used
  splits := s.xlat.splits
  see := s.seeAll
  scrubPos := s.get F.DRIFT_SCRUB_POS_PASSES * 2 ^ 32 + s.get F.DRIFT_SCRUB_POS_SET
  lds := s.host.lds.map (fun p => (p.1, p.2.kept))
  wp := (List.range 16).map (fun n => s.get (F.HOST_LD_STATUS_WP_CAUSE n))
  kids := s.ciph.kids.map (fun p => (p.1, p.2.word))
  cur := s.ciph.cur
  gen := s.vaultGen
  epoch := s.dur.epoch
  sets := []
  hdr := []

/-! ### Checkpoints on media (R182, R183) -/

/-- The sections, in their order, by TYPE: FIELDS, STAGING, MAP, POOL, SEEING, LDSTATE, CIPHER. -/
def ckptTypes : List Nat := [1, 2, 3, 4, 5, 6, 7]

/-- The LENGTH of a section whose layout the rules give: the whole field table, a map line with its address for every one that is not
zero, the bitmap of the frame pool with every table in use, the seeing table with DRIFT_SCRUB_POS, the CIPHER section
(09_cipher_and_meridian.md R232). -/
def State.ckptLen (s : State) (c : Ckpt) (typ : Nat) : Option Nat :=
  match typ with
  | 1 => some (2 ^ 23 * 16)
  | 3 => some (520 * ((c.words.map (fun p => p.1 / 64)).eraseDups.filter (fun l => l * 64 < s.get F.XLAT_POOL_BASE * 2 ^ 27)).length)
  | 4 => some (s.poolSize / 8 + 512 * c.used.length)
  | 5 => some (2 ^ 23 * 8 + 8)
  | 7 => some 32864
  | _ => none

/-- The bytes of the sections whose length is known. -/
def State.ckptBytes (s : State) (c : Ckpt) : Nat := ckptTypes.foldl (fun a t => a + (s.ckptLen c t).getD 0) 0

/-- The bytes that a quad of 1-bit sets holds: 8,190 data rows of seven members of 16 leaves in four planes. -/
def quadBytes : Nat := 4 * 8190 * 7 * 16 * 256

/-- The first row that a set's data takes. -/
def firstRow (set slot : Nat) : Nat := slotPfa set slot

/-- The section table of the header: TYPE, CRC-32 and LENGTH of each section. What the layouts of the sections leave open is a free
value. -/
def ckptTable (c : Ckpt) (s : State) : List Nat × State :=
  ckptTypes.foldl (fun (a : List Nat × State) t =>
    let (crc, s1) := takeNat a.2
    let (len, s2) := match s.ckptLen c t with
      | some n => (n, s1)
      | none => takeNat s1
    (a.1 ++ [t, 0, 0, 0] ++ numBytes 4 (crc % 2 ^ 32) ++ numBytes 8 (len % 2 ^ 40), s2)) ([], s)

/-- Header leaves 0 and 1 of a checkpoint (R183). -/
def ckptHeader (c : Ckpt) (table : List Nat) : List Nat :=
  let quads := (c.sets.filter (fun x => setPlane x == 0)).take 64
  (([0x01, 0x0C, 0x01, c.clean.toNat] ++ numBytes 4 c.epoch ++ numBytes 8 c.pseq ++ numBytes 8 c.cutAseq ++ numBytes 6 c.jrnTail ++
    numBytes 2 quads.length ++ table) ++ List.replicate 256 0).take 256 ++
  (quads.flatMap (numBytes 4) ++ List.replicate 256 0).take 256

/-- Groups whose next checkpoint quad is FREE. -/
def State.ckptGroups (s : State) : List Nat := (List.range 32).filter (fun g => decide ((s.nextSystem g 2).length = 4))

/-- The quads that a checkpoint of `n` quads is written to, and a set for its header copy on another plate. -/
def State.ckptPlace (s : State) (n : Nat) : List Nat × List Nat :=
  let gs := s.ckptGroups.take n
  let sets := gs.flatMap (fun g => s.nextSystem g 2)
  match sets.head? with
  | none => ([], [])
  | some x =>
    let here (a : Nat) : Nat := plateOf (pfaCh a)
    let other := (((List.range 32).filter (fun g => !gs.contains g)).flatMap (fun g => (s.nextSystem g 2).take 1) ++ sets.drop 1).head?
    match other with
    | none => (sets, [firstRow x 0])
    | some y => (if sets.contains y then sets else sets ++ [y],
        [firstRow x 0, ((List.range 7).map (firstRow y)).find? (fun a => here a != here (firstRow x 0)) |>.getD (firstRow y 0)])

/-- The sets of a checkpoint open (R136). -/
def ckptOpen (sets : List Nat) (s : State) : State :=
  seqAll (fun x t => openSet streamSystem 2 true (sets.contains (mkSet (setGroup x) 3 (setField x))) x t) sets s

/-- A checkpoint starts, provided the previous one has completed. DEDUCED, notes/assumptions/37.md. -/
def ckptStart (clean : Bool) (s : State) : State :=
  if s.dur.writing.isSome then s
  else
    let (sets, hdr) := s.ckptPlace (s.ckptBytes (s.cut clean) / quadBytes + 1)
    let t := ckptOpen sets s
    (t.modDur (fun d => { d with writing := some { t.cut clean with sets := sets, hdr := hdr }, sinceCut := 0, ckptDue := false }))
      |> setF F.DUR_STATUS_CKPT_BUSY 1 |> setF F.DUR_CKPT_STATUS_PROGRESS 0

/-- R181: DUR_CKPT_CMD.GO. -/
def ckptCmd (v : Nat) (s : State) : State := if v.testBit 0 then ckptStart false s else s

def execCkptGo (_m : Master) (v : BitVec 32) (s : State) : Host.Outcome State Fault Refusal := .next (ckptCmd v.toNat s)

/-- R181: PERIOD_S has passed since the last cut; the checkpoint starts once the previous one has completed. -/
def execCkptPeriod (s : State) : Host.Outcome State Fault Refusal :=
  .next (if s.on F.DUR_CTL_CKPT_AUTO && decide (s.dur.drain = 0) && (decide (s.glb.mode = .active) || decide (s.glb.mode = .quiet)) then
      if s.dur.writing.isSome then s.modDur (fun d => { d with ckptDue := true }) else ckptStart false s
    else s)

/-- R181: the journal since the cut exceeds JMAX_GIB. -/
def ckptJmax (s : State) : State :=
  if s.get F.DUR_CKPT_CFG_JMAX_GIB * 2 ^ 30 < s.dur.sinceCut ∧ s.dur.drain = 0 then ckptStart false s else s

/-- The journal rows below a JSEQ are released with the sets that hold no other (R184). -/
def jrnRelease (tail : Nat) (s : State) : State :=
  let s1 := s.modDur (fun d => { d with journal := d.journal.filter (fun p => decide (tail ≤ p.1)) })
  let sets := (s.img.sysSets.filter (fun p => p.2.1 == 1)).map (·.1)
  let need (set : Nat) : Bool := s.med.rows.any (fun e => setOf e.1 == set && e.2.kind == .journal && decide (tail ≤ e.2.seq))
  seqAll (fun x t => if need x then t else sysErase x t) sets s1

/-- Keep the two newest checkpoints, and the journal from the older one's tail; the sets of other checkpoints are released (R184). -/
def ckptKeep (s : State) : State :=
  let keep := s.dur.ckpts.take 2
  let held := keep.flatMap (·.sets)
  let old := ((s.img.sysSets.filter (fun p => p.2.1 == 2)).map (·.1)).filter (fun x => !held.contains x)
  jrnRelease (keep.foldl (fun a c => min a c.jrnTail) s.dur.jseq) (seqAll sysErase old (s.modDur (fun d => { d with ckpts := keep })))

/-- A trigger that came while the checkpoint was written acts now (R181). -/
def ckptNext (s : State) : State := if s.dur.ckptDue then ckptStart false s else ckptJmax s

/-- R186: the checkpoint has been written with its header rows, under the credit of its class (11_regulation_and_ledgers.md R270), and its pointer goes into the copy with the lower PSEQ. DESIGN CHOICE, notes/assumptions/30.md.
DEDUCED, notes/assumptions/37.md. -/
def ckptComplete (s : State) : State :=
  match s.dur.writing with
  | none => s
  | some c =>
    if !c.clean && !s.mayGo classMover 1 (s.ckptBytes c) then s else
    let s0 := (s.modDur (fun d => { d with writing := none })) |> setF F.DUR_STATUS_CKPT_BUSY 0 |> setF F.DUR_CKPT_STATUS_PROGRESS 0
    let (table, s1) := ckptTable c s0
    let hdr := ckptHeader c table
    let line (i : Nat) : Line := BitVec.ofNat 512 (leNum ((hdr.drop (64 * i)).take 64))
    let row (a : Nat) : MRow := { MRow.base s a .system with lines := (List.range 8).foldl (fun t i => tput 0 t i (line i)) [] }
    let s2 := s1.modMed (fun m => { m with rows := c.hdr.foldl (fun t a => tset t a (row a)) m.rows })
    let (p0, s3) := match c.hdr with | a :: _ => (a, s2) | [] => takeNat s2
    let (p1, s4) := match c.hdr with | _ :: a :: _ => (a, s3) | _ => takeNat s3
    let s5 := seqAll (fun x t => closeSet x false t) c.sets s4 |> when (!c.clean) (takeCredit classMover 1 (s.ckptBytes c))
    let i := if s.ptrSeq 1 < s.ptrSeq 0 then 1 else 0
    let (ok, s6) := almDevice (ptrAddr i) (almRecord ([0x0A, 0x0C, 1, c.clean.toNat, 0, 0, 0, 0] ++ numBytes 8 c.pseq ++
      numBytes 8 c.cutAseq ++ numBytes 8 (c.jrnTail % 2 ^ 48) ++ numBytes 8 (p0 % 2 ^ 36) ++ numBytes 8 (p1 % 2 ^ 36) ++
      numBytes 4 (crc32 hdr))) s5
    if ok then
      ckptNext (ckptKeep ((s6.modDur (fun d => { d with ckpts := c :: d.ckpts })) |> setF F.DUR_CKPT_STATUS_PSEQ (c.pseq % 2 ^ 48)
        |> setB F.DUR_CKPT_STATUS_LAST_CLEAN c.clean |> cnt bDUR 7 1))
    else ckptNext (setErr F.DUR_ERR_STATUS_CKPT_FAIL intDur s6)

/-! ### The drain's journal (R174, R175) -/

/-- A row without records is sealed: DRAIN_END or PARK_END. -/
def endRow (drain park : Bool) (s : State) : State := sealRecs drain drain park [] s

/-- Step 4 of R175: the images of frames that are not programmed are captured, and everything is sealed as drain rows. -/
def drainRows (s : State) : State :=
  let fs := (s.coal.frames.filter (fun e => e.2.st == .staged || e.2.st == .programming)).map (·.2)
  sealAll true (seqAll (fun f t => captureChunks f t) fs s)

/-- Does a die still run a 4-bit program? -/
def State.prog4Runs (s : State) : Bool := s.med.dies.any (fun p => match p.2.op with | .program m _ => !m | _ => false)

/-- The drain's times in us. -/
def State.drainUs (s : State) : Nat := min (2 ^ 32 - 1) ((s.now - s.dur.drainStart) / 1000)

/-- DEDUCED, notes/assumptions/41.md. -/
def drainShow (res : Nat) (s : State) : State :=
  let g := s.get F.DUR_DRAIN_GUARANTEED
  (s.modDur (fun d => { d with lastDrain := (res, g, s.drainUs) })) |> setF F.DUR_DRAIN_RESULT res |> setF F.DUR_DRAIN_TIME_US s.drainUs

/-- The drain goes on: step 3 ends, step 4 ends, the DRAIN_END row is done (R175). -/
def drainStep (s : State) : State :=
  if s.dur.drain = 1 ∧ !s.prog4Runs then drainRows (s.modDur (fun d => { d with drain := 2 }))
  else s

def drainStep2 (s : State) : State :=
  if s.dur.drain = 2 ∧ s.dur.rows = [] ∧ s.dur.build = [] then endRow true false (s.modDur (fun d => { d with drain := 3 }))
  else if s.dur.drain = 3 ∧ s.dur.rows = [] then
    drainShow 1 (setF F.DUR_STATUS_DRAIN_ACTIVE 0 (s.modDur (fun d => { d with drain := 4 })))
  else s

/-- As far as it goes now. DEDUCED, notes/assumptions/41.md. -/
def drainGo (s : State) : State := drainStep2 (drainStep2 (drainStep s))

/-! ### Choice of a checkpoint (R187) -/

/-- The outcome of a checkpoint's validation and load: 0 it loads, 1 it does not validate, 2 a section CRC fails. -/
abbrev CkptOut := Nat

/-- The checkpoint a pointer copy names. -/
def State.ckptOf (s : State) (i : Nat) : Option Ckpt := s.dur.ckpts.find? (fun c => c.pseq == s.ptrSeq i && c.cutAseq == s.ptrCut i)

/-- Does a copy's checkpoint validate? -/
def State.ckptValid (s : State) (out : Nat → CkptOut) (i : Nat) : Bool := s.ptrUsable i && (s.ckptOf i).isSome && out i != 1

/-- The copies to try, in the order of the table. -/
def State.choices (s : State) : List Nat :=
  match s.ptrUsable 0, s.ptrUsable 1 with
  | false, false => []
  | true, false => [0]
  | false, true => [1]
  | true, true =>
    if s.ptrSeq 1 < s.ptrSeq 0 then [0, 1]
    else if s.ptrSeq 0 < s.ptrSeq 1 then [1, 0]
    else if s.almBytes (ptrAddr 0) 256 = s.almBytes (ptrAddr 1) 256 then [0]
    else [0, 1]

/-- Both copies have one PSEQ, differ, and both validate. -/
def State.ptrSame (s : State) (out : Nat → CkptOut) : Bool :=
  s.ckptValid out 0 && s.ckptValid out 1 && s.ptrSeq 0 == s.ptrSeq 1 && s.almBytes (ptrAddr 0) 256 != s.almBytes (ptrAddr 1) 256

/-- Try the copies in order. -/
def chooseIn (out : Nat → CkptOut) : List Nat → State → Option (Nat × Ckpt) × State
  | [], s => (none, s)
  | i :: t, s =>
    match s.ckptOf i with
    | some c => if out i = 0 then (some (i, c), s) else chooseIn out t (setErr F.DUR_ERR_STATUS_CKPT_FAIL intDur s)
    | none => chooseIn out t (setErr F.DUR_ERR_STATUS_CKPT_FAIL intDur s)

def choose (out : Nat → CkptOut) (s : State) : Option (Nat × Ckpt) × State :=
  let s1 := if s.ptrSame out then s |> setErr F.DUR_ERR_STATUS_PTR_SAME intDur |> logPut sevError 0x0503 7 0 0 0 else s
  chooseIn out s1.choices s1

/-! ### The journal pass (R188) -/

/-- What replay carries: the cut, the frames of the STAGING list, frame floors by LD × 2^50 + folio × 64 + frame, discarded
ranges (LD, first folio, count, ASEQ), the data records, the sets to scan, one above the highest row named per set, the
records counted, the highest ASEQ, KIDs named by the records' generation. -/
structure Rep where
  cut : Nat
  staging : List (Nat × Nat × Nat)
  floors : Tbl Nat
  discs : List (Nat × Nat × Nat × Nat)
  overlay : List JRec
  sets : List Nat
  named : Tbl Nat
  count : Nat
  high : Nat
  gen : Nat
  lastFlags : Nat × Bool
  deriving DecidableEq, Repr

def frameKey (ld folio frame : Nat) : Nat := ld * 2 ^ 50 + folio * 64 + frame

/-- The floor of a frame. -/
def Rep.floor (r : Rep) (ld folio frame : Nat) : Nat :=
  r.discs.foldl (fun a d => if d.1 = ld ∧ d.2.1 ≤ folio ∧ folio < d.2.1 + d.2.2.1 then max a d.2.2.2 else a)
    (tgetD 0 r.floors (frameKey ld folio frame))

/-- A map record names a row. -/
def Rep.name (r : Rep) (pfa : Nat) : Rep := { r with named := tput 0 r.named (setOf pfa) (max (tgetD 0 r.named (setOf pfa)) (pfaRow pfa + 1)) }

/-- A word of the map as replay writes it. -/
def rawPut (w v : Nat) (s : State) : State := s.modWm (fun x => { x with words := tput 0 x.words w v })

/-- The word of a frame entry of a split folio. -/
def State.frameSlot (s : State) (ld f i : Nat) : Option Nat :=
  let e := s.folio ld f
  if foType e = 2 then some (s.frameWord (foTable e) i) else none

/-- A FOLIO record sets the entry; a table it names is taken, with the entries the split gave it, and one it drops
returns. DEDUCED, notes/assumptions/37.md. -/
def applyFolio (ld f new : Nat) (s : State) : State :=
  let old := s.folio ld f
  let s1 := if foType old = 2 ∧ (foType new ≠ 2 ∨ foTable new ≠ foTable old) then
      s.modXlat (fun x => { x with used := x.used.filter (· != foTable old), splits := x.splits.filter (· != (ld, f)) }) else s
  let s2 := if foType new = 2 ∧ (foType old ≠ 2 ∨ foTable new ≠ foTable old) then
      let t := foTable new
      let entry (i : Nat) : Nat :=
        if foType old = 1 then
          let p := slotPfa (foSet old) (foSlot old + i)
          mkFrame 1 (s.rowMask p != 0) p
        else 0
      (seqAll (fun i u => rawPut (s.frameWord t i) (entry i) u) (List.range 64) s1).modXlat
        (fun x => { x with used := t :: x.used.filter (· != t), splits := x.splits ++ [(ld, f)] })
    else s1
  rawPut (s.folioWord ld f) new s2

/-- A KID record (09_cipher_and_meridian.md R231). Other OP values are reserved. -/
def applyKid (r : JRec) (s : State) : State :=
  let k := r.kid
  let op := r.data.getD 0 0
  let cur := r.data.getD 1 0 = 1
  let next := r.data.getD 2 0
  let unset (t : State) : State := if t.curKid r.ld = k then setCur r.ld next t else t
  match op with
  | 1 => s |> modKid k (fun x => { x with st := kActive, owner := r.ld }) |> when cur (setCur r.ld k)
  | 2 => setCur r.ld k s
  | 3 => setCur r.ld 0 s
  | 4 => s |> modKid k (fun x => { x with st := kRetired }) |> unset |> when cur (setCur r.ld next)
  | 5 => s |> modKid k (fun x => { x with st := kDestroying }) |> unset
  | _ => s

/-- An LDCFG record. -/
def applyLdcfg (r : JRec) (s : State) : State :=
  let rec pairs : List Nat → List (Nat × Nat)
    | a :: b :: t => (a, b) :: pairs t
    | _ => []
  moveArrays (fun t => modLd r.ld (fun l =>
      { l with blocks := r.data.getD 0 0, dcRegion := r.data.getD 1 0, extents := pairs (r.data.drop 3) }) t) s
    |> setF (F.HOST_LD_STATUS_WP_CAUSE r.ld) (r.data.getD 2 0)

/-- The bytes of an LSA record. -/
def applyLsa (r : JRec) (s : State) : State :=
  modLd r.ld (fun l => { l with lsa := ((r.data.drop 1).foldl (fun (p : Nat × Tbl Nat) b => (p.1 + 1, tput 0 p.2 p.1 b)) (r.addr, l.lsa)).2 }) s

/-- A FRAME record: an entry that names a place on media, or nothing, is set; one that names a token keeps the copy on media
as the base of the restage. -/
def applyFrame (r : JRec) (rep : Rep) (s : State) : Rep × State :=
  let ld := r.ld
  let f := r.addr / 64
  let i := r.addr % 64
  let new := r.data.getD 0 0
  let rep1 := if frState new = 1 then rep.name (frLoc new) else rep
  let rep2 := { rep1 with floors := tput 0 rep1.floors (frameKey ld f i) (max (tgetD 0 rep1.floors (frameKey ld f i)) (r.data.getD 2 0)) }
  match s.frameSlot ld f i with
  | some w => if frState new = 2 then (rep1, s) else (rep2, rawPut w new s)
  | none => (rep1, s)

/-- Apply a record that carries no line data. -/
def applyRec (r : JRec) (rep : Rep) (s : State) : Rep × State :=
  match r.typ with
  | 5 =>
    let new := r.data.getD 0 0
    let rep1 := if foType new = 1 then rep.name (slotPfa (foSet new) (foSlot new + 63)) else rep
    (rep1, applyFolio r.ld r.addr new s)
  | 6 => applyFrame r rep s
  | 7 =>
    let x := FRec.ofWord (r.data.getD 0 0)
    ({ rep with sets := if x.st = fOpen ∧ !rep.sets.contains (fieldSet r.addr) then rep.sets ++ [fieldSet r.addr] else rep.sets,
                high := max rep.high x.openSeq },
      putFrec r.addr x (if (s.frec r.addr).ec < x.ec then drecClear (fieldSet r.addr) (seeClear r.addr s) else s))
  | 8 => ({ rep with discs := (r.ld, r.addr, r.data.getD 0 0, r.aseq) :: rep.discs }, s)
  | 9 => (rep, applyLsa r s)
  | 10 => ({ rep with gen := max rep.gen (r.data.getD 3 0) }, applyKid r s)
  | 11 => (rep, applyLdcfg r s)
  | _ => (rep, s)

/-- A frame that stands in staging in the loaded map takes the copy its FRAME record names as the old one. -/
def applyBase (r : JRec) (rep : Rep) (s : State) : State :=
  match r.frame? with
  | some (ld, f, i) =>
    let old := r.data.getD 1 0
    if r.typ = recFrame ∧ rep.staging.contains (ld, f, i) ∧ frState (r.data.getD 0 0) = 2 ∧ frState old ≠ 2 then
      match s.frameSlot ld f i with
      | some w => if frState (s.mapWord w) = 2 then rawPut w old s else s
      | none => s
    else s
  | none => s

/-- One record of the pass. DEDUCED, notes/assumptions/37.md. -/
def replayRec (r : JRec) (p : Rep × State) : Rep × State :=
  let rep := { p.1 with high := max p.1.high r.aseq }
  if r.typ ≤ 4 then
    if decide (rep.cut < r.aseq) || (match r.frame? with | some f => rep.staging.contains f | none => false) then
      ({ rep with overlay := rep.overlay ++ [r], count := rep.count + 1 }, p.2)
    else (rep, p.2)
  else if rep.cut < r.aseq then applyRec r { rep with count := rep.count + 1 } p.2
  else (rep, applyBase r rep p.2)

/-- A record of a row can be read on from: END or a reserved TYPE ends the row's records (R166). -/
def JRec.goes (r : JRec) : Bool :=
  decide (1 ≤ r.typ) && decide (r.typ ≤ 11) &&
    (decide (r.typ ≠ recKid) || (decide (1 ≤ r.data.headD 0) && decide (r.data.headD 0 ≤ 5)))

/-- The records of a row that replay reads. -/
def JRow.live (w : JRow) : List JRec := w.recs.takeWhile JRec.goes

/-- The row's records end at a reserved TYPE. -/
def JRow.reserved (w : JRow) : Bool := (w.recs.find? (fun r => !r.goes)).any (fun r => decide (r.typ ≠ 0))

/-- The pass from JSEQ `j` while rows stand in sequence and epochs do not fall. Answers the first JSEQ not in the prefix. -/
def journalPass (bad : Nat → Bool) : Nat → Nat → Nat → Rep × State → Nat × Rep × State
  | 0, j, _, p => (j, p)
  | n + 1, j, e, p =>
    match tget p.2.dur.journal j with
    | some row =>
      if bad j ∨ row.epoch < e then (j, p)
      else
        let (rep, s) := row.live.foldl (fun q r => replayRec r q) p
        let s1 := if row.reserved then s |> setErr F.DUR_ERR_STATUS_JRN_BAD intDur |> logPut sevError 0x0503 4 0 0 0 else s
        journalPass bad n (j + 1) row.epoch ({ rep with lastFlags := (row.epoch, row.drainEnd || row.parkEnd) }, s1)
    | none => (j, p)

/-! ### Loading a checkpoint -/

/-- Load every section (R182). -/
def ckptLoad (c : Ckpt) (s : State) : State :=
  let s1 := (s.modFld (fun f => { f with tbl := c.fields })).modHost (fun h =>
    { h with lds := c.lds.foldl (fun t p => tset t p.1
        { (tgetD LdSt.reset h.lds p.1) with blocks := p.2.blocks, dcRegion := p.2.dcRegion, extents := p.2.extents,
                                            poison := p.2.poison, poisonOvf := p.2.poisonOvf, lsa := p.2.lsa }) h.lds })
  let s2 := (List.range 16).foldl (fun t n => setF (F.HOST_LD_STATUS_WP_CAUSE n) (c.wp.getD n 0) t) s1
  let s3 := (layArrays s2).modWm (fun w => { w with words := c.words })
  let s4 := (s3.modXlat (fun x => { x with used := c.used, splits := c.splits })).modCiph (fun x =>
    { x with kids := c.kids.map (fun p => (p.1, Kid.ofWord p.2)), cur := c.cur })
  (s4.modDrift (fun d => { d with see := c.see.map (fun p => (p.1, { p.2 with rwPosted := false })), cache := [] }))
    |> setF F.DRIFT_SCRUB_POS_PASSES (c.scrubPos / 2 ^ 32) |> setF F.DRIFT_SCRUB_POS_SET (c.scrubPos % 2 ^ 32)

/-! ### The scan of open sets (R189) -/

/-- A member row decodes as a header of the kind. -/
def State.hdrRow (s : State) (badHdr : Nat → Bool) (pfa : Nat) (k : RowKind) : Option MRow :=
  match s.row pfa with
  | some r => if r.kind = k ∧ !badHdr pfa then some r else none
  | none => none

/-- Adopt a row: its frame entry names it, a folio that is not split is split first, the floor rises. -/
def adopt (pfa : Nat) (r : MRow) (p : Rep × State) : Rep × State :=
  let s := p.2
  let s1 := if foType (s.folio r.ld r.folio) = 2 then s else folioSplit r.ld r.folio r.kid s
  let e := s1.folio r.ld r.folio
  let s2 := setFrame r.ld r.folio (foTable e) r.frame (mkFrame 1 (r.lmask != 0) pfa) r.seq s1
  ({ p.1 with floors := tput 0 p.1.floors (frameKey r.ld r.folio r.frame) r.seq, high := max p.1.high r.seq },
    incF F.DUR_REPLAY_CNT_ADOPTED 1 s2)

/-- May a row be adopted: not a copy, not a filler, newer than the cut and the floor, its folio in the LD's range? -/
def adoptable (rep : Rep) (s : State) (r : MRow) : Bool :=
  !r.copy && decide (rep.cut < r.seq) && decide (rep.floor r.ld r.folio r.frame < r.seq) && s.inArray r.ld r.folio

/-- Scan one set upwards from a row until a header decodes ERASED. DEDUCED, notes/assumptions/38.md. -/
def scanSet (badHdr : Nat → Bool) (set : Nat) : Nat → Nat → Rep × State → Rep × State
  | 0, _, p => p
  | n + 1, row, p =>
    let pfas := (List.range 8).map (fun k => setPfa set k row)
    let q := if (p.2.hdrRow badHdr (setPfa set (parityOf (row - 2)) row) .parity).isSome then
        pfas.foldl (fun (q : Rep × State) a =>
          match q.2.hdrRow badHdr a .data with
          | some r => if adoptable q.1 q.2 r then adopt a r q else q
          | none => q) p
      else p
    if pfas.any (fun a => (p.2.row a).isNone) then q else scanSet badHdr set n (row + 1) q

/-- The complete data rows of a set: those whose parity member stands, and decodes where its header is read. -/
def State.completeRows (s : State) (badHdr : Nat → Bool) (set : Nat) : Nat :=
  ((s.med.rows.filter (fun e => setOf e.1 == set && e.2.kind == .parity && !badHdr e.1)).map (fun e => pfaRow e.1 - 1)).foldl max 0

/-- Do the set's 16 star rows stand? -/
def State.starsStand (s : State) (set : Nat) : Bool :=
  (List.range 16).all (fun i => match s.row (setPfa set (i / 2) (i % 2)) with | some r => r.kind == .star | none => false)

/-- Close a set that was OPEN when working memory was lost (R136). -/
def closeLost (set : Nat) (s : State) : State :=
  let rows := s.completeRows (fun _ => false) set
  let s1 := setTo set (fun r => { r with st := fClosed, rows := rows }) s |> cnt bFLD 1 1
  if s.isSystem set then s1
  else if rows = 0 ∨ !s.starsStand set then eraseCheck set (modSet set (fun r => { r with valid := 0 }) s1)
  else s1

/-! ### Putting the tables in order after the pass -/

/-- The frame entries of a mapped folio as valid units. -/
def State.allUnits (s : State) : List Nat := (s.arrayEntries (List.range 16)).flatMap (fun e => s.folioUnits e.2.2)

/-- Frames still named as staged in the loaded map and never settled hold nothing. -/
def dropTokens (staging : List (Nat × Nat × Nat)) (s : State) : State :=
  seqAll (fun (x : Nat × Nat × Nat) t =>
    match t.frameSlot x.1 x.2.1 x.2.2 with
    | some w => if frState (t.mapWord w) = 2 then rawPut w 0 t else t
    | none => t) staging s

/-- VALID of every field and REFS of every KID follow from the map (R52, R227). -/
def recountUnits (s : State) : State :=
  let units := s.allUnits
  let kids := (s.arrayEntries (List.range 16)).filterMap (fun e => if foType e.2.2 = 1 ∨ foType e.2.2 = 2 then some (foKid e.2.2) else none)
  let s1 := s.modFld (fun f => { f with tbl := f.tbl.map (fun p => (p.1, { p.2 with valid := 0, victim := false })) })
  let s2 := seqAll (fun p t => modFrec (pfaFieldNo p) (fun r => { r with valid := r.valid + 1 }) t) units s1
  let s3 := s2.modCiph (fun c => { c with kids := c.kids.map (fun p => (p.1, { p.2 with refs := 0 })) })
  seqAll refAdd kids s3

/-- Every listed set finds its queue again: erase, relocation, verify (at once VERIFIED while VERIFY_EN is 0, R141), score; the sets
that are RETIRED are charged to the spare (R156). -/
def requeue (s : State) : State :=
  let s1 := seqAll (fun set t =>
    let u := eraseCheck set (rescore set t)
    if u.fld.eraseQ.contains set then u
    else if u.setBad set && decide (0 < u.setV set) then relocate set u
    else if u.setState set = fClosed ∧ !(setFields set).any (fun f => (u.frec f).mode1) ∧ !u.fld.verifyQ.contains set then
      if u.on F.FLD_CTL_VERIFY_EN then u.modFld (fun f => { f with verifyQ := f.verifyQ ++ [set] }) else setVerified set u
    else u) s.listedSets s
  let s2 := seqAll (fun (p : Nat × See) t => if p.2.rwReq then rwPost p.1 t else t) s1.seeAll s1
  let retired := (s2.fld.tbl.filter (fun p => p.2.st == fRetired)).map (fun p => fieldSet p.1)
  fldRecount (spareStatus (setF F.FLD_SPARE_RETIRED_SETS retired.eraseDups.length s2))

/-! ### Restaging (R188) -/

/-- A line of the overlay enters the coalescing buffer. -/
def overlayLine (ld kid dpa mask : Nat) (data : Line) (poison : Bool) (aseq : Nat) (s : State) : State :=
  let key := lineKey ld dpa
  let full := decide (mask = fullMask)
  let f := folioOf dpa
  let i := frameOf dpa
  let s1 := match tget s.coal.lines key with
    | some l =>
      let n : CLine := { l with mask := l.mask ||| mask, full := l.full || full, data := mergeLine mask l.data data,
                                poison := poison || (l.poison && !full), aseq := max l.aseq aseq }
      s.modCoal (fun c => { c with lines := tset c.lines key n })
    | none =>
      let t := lowestFree s.coal.toks
      s.modCoal (fun c => { c with toks := t :: c.toks, lines := tset c.lines key ⟨t, mask, full, mergeLine mask 0 data, poison, aseq⟩ })
  let isIt (g : Gather) : Bool := g.isFor ld f i
  if s1.coal.gathers.any isIt then
    s1.modCoal (fun c => { c with gathers := c.gathers.map (fun g =>
      if isIt g then { g with lines := tset g.lines (lineOf dpa) () } else g) })
  else
    let unmapped := foType (s.folio ld f) == 0
    let k := if unmapped then kid else foKid (s.folio ld f)
    (s1.modCoal (fun c => { c with gathers := c.gathers ++ [⟨ld, f, i, [(lineOf dpa, ())], k, unmapped, true, none, false, s.now⟩] }))
      |> when unmapped (refAdd k)

/-- One data record: a record under a key the key store does not hold, or at or below its frame's floor, is dropped (R167,
R188). -/
def overlayRec (rep : Rep) (r : JRec) (s : State) : State :=
  match r.frame? with
  | none => s
  | some (ld, f, i) =>
    let k := s.kid r.kid
    if r.aseq ≤ rep.floor ld f i ∨ !k.held ∨ k.key ≠ r.key ∨ !s.inArray ld f then s
    else
      let line (j : Nat) : Line := BitVec.ofNat 512 (r.data.getD j 0)
      match r.typ with
      | 1 => poisonRemove ld (r.addr * 64) (overlayLine ld r.kid (r.addr * 64) fullMask (line 0) false r.aseq s)
      | 2 => overlayLine ld r.kid (r.addr * 64) (r.data.getD 0 0) (line 1) (s.onPoisonList ld (r.addr * 64)) r.aseq s
      | 3 => poisonAdd ld (r.addr * 64) 0 (overlayLine ld r.kid (r.addr * 64) fullMask (line 0) true r.aseq s)
      | _ => seqAll (fun j t =>
          let dpa := r.addr * 512 + j * 64
          overlayLine ld r.kid dpa fullMask (line j) (t.onPoisonList ld dpa) r.aseq t) (List.range 8) s

/-- Insert by ASEQ, after those with the same. -/
def insertRec (r : JRec) : List JRec → List JRec
  | [] => [r]
  | a :: t => if r.aseq < a.aseq then r :: a :: t else a :: insertRec r t

def sortRecs (l : List JRec) : List JRec := l.foldl (fun t r => insertRec r t) []

/-- Gathers merge into staging while frame tokens last. -/
def restageN : Nat → State → State
  | 0, s => s
  | n + 1, s =>
    let s1 := gatherMerge s
    restageN n (seqAll (fun t u => mergeRead t [] u) (s1.coal.gathers.filterMap (·.merging)) s1)

/-- Restage the overlay. -/
def restage (rep : Rep) (s : State) : State :=
  let s1 := seqAll (fun r t => overlayRec rep r t) (sortRecs rep.overlay) s
  coalStatus (restageN s1.coal.gathers.length s1)

/-! ### Full scan (R191) -/

/-- The rows a full scan reads: data member rows at or below the last complete data row of their set. -/
def State.scanRows (s : State) (badHdr : Nat → Bool) : List (Nat × MRow) :=
  s.med.rows.filter (fun e => e.2.kind == .data && !badHdr e.1 && decide (pfaRow e.1 - 1 ≤ s.completeRows badHdr (setOf e.1)) &&
    s.inArray e.2.ld e.2.folio)

/-- Is row `b` a better copy of its frame than row `a`: a higher SEQ, or the same without COPY? -/
def betterRow (a b : MRow) : Bool := decide (a.seq < b.seq) || (a.seq == b.seq && a.copy && !b.copy)

/-- The row kept for each frame. -/
def State.bestRows (s : State) (badHdr : Nat → Bool) : Tbl (Nat × MRow) :=
  (s.scanRows badHdr).foldl (fun t e =>
    let k := frameKey e.2.ld e.2.folio e.2.frame
    match tget t k with
    | some (_, r) => if betterRow r e.2 then tset t k e else t
    | none => tset t k e) []

/-- The sets that hold a programmed row. -/
def State.rowSets (s : State) : List Nat := (s.med.rows.map (fun e => setOf e.1)).eraseDups

/-- Field states by what the medium holds; ERASE_CNT from the headers. DEDUCED, notes/assumptions/38.md. -/
def scanFields (badHdr : Nat → Bool) (s : State) : State :=
  let s1 := seqAll (fun set t =>
    let mode1 := t.isSystem set
    let use := ((tget t.img.sysSets set).map (·.1)).getD 0
    seqAll (fun fno u =>
      let rows := u.med.rows.filter (fun e => pfaFieldNo e.1 == fno)
      let ec := rows.foldl (fun a e => max a e.2.eraseCnt) 0
      let seq := rows.foldl (fun a e => max a e.2.openSeq) 0
      putFrec fno { FRec.reset with st := fClosed, mode1 := mode1, use := use, ec := ec, openSeq := seq,
                                    rows := if mode1 then 8190 else t.completeRows badHdr set } u) (setFields set) t) s.rowSets s
  let high (die : Nat) : Nat := s1.fld.tbl.foldl (fun a p => if pfaDieNo (p.1 * 8192) = die then max a p.2.ec else a) 0
  let dies := (s1.fld.tbl.map (fun p => pfaDieNo (p.1 * 8192))).eraseDups
  let erased := dies.flatMap (fun d => ((List.range 32768).map (fun k => d * 32768 + k)).filter
    (fun f => (tget s1.fld.tbl f).isNone && decide (0 < high d)))
  let s2 := if erased = [] then s1 else logOpen bDUR 5 0 s1
  seqAll (fun f t => putFrec f { FRec.reset with ec := high (pfaDieNo (f * 8192)) } t) erased s2

/-- KIDs that row headers name are taken as ACTIVE, owned by the header's LD, until a record says otherwise. DEDUCED, notes/assumptions/38.md. -/
def scanKids (s : State) : State :=
  seqAll (fun (e : Nat × MRow) t =>
    if e.2.kind = .data ∧ e.2.kid ≠ 0 ∧ t.kidSt e.2.kid = kFree then
      modKid e.2.kid (fun x => { x with st := kActive, owner := e.2.ld }) t else t) s.med.rows s

/-- The newer generation of the usable vault records. -/
def State.newestGen (s : State) : Nat :=
  [0, 1].foldl (fun a i => if s.recordOk (vaultAddr i) 0x0B0A then max a (s.almNum (vaultAddr i + 4) 4) else a) 0

/-- The frame's entry names a row at least as new. -/
def State.namesNewer (s : State) (r : MRow) : Bool :=
  let e := s.folio r.ld r.folio
  let fe := s.frameOfFolio e r.frame
  (foType e == 1 || (foType e == 2 && frState fe == 1)) && (s.row (frLoc fe)).any (fun x => decide (r.seq ≤ x.seq))

/-- Adopt the best rows above their floors; a row that an entry names already raises its frame's floor. DEDUCED,
notes/assumptions/38.md. -/
def adoptBest (badHdr : Nat → Bool) (p : Rep × State) : Rep × State :=
  (p.2.bestRows badHdr).foldl (fun q e =>
    let r := e.2.2
    if q.2.namesNewer r then ({ q.1 with floors := tput 0 q.1.floors (frameKey r.ld r.folio r.frame) (max r.seq (q.1.floor r.ld r.folio r.frame)) }, q.2)
    else if q.1.floor r.ld r.folio r.frame < r.seq then adopt e.2.1 r q else q) p

/-- The LD configuration that the journal's LDCFG records restore (R191). -/
def scanLds (s : State) : State :=
  seqAll (fun r t => if r.typ = recLdcfg then applyLdcfg r t else t) (s.dur.journal.flatMap (fun p => p.2.live)) s

/-! ### Replay (R188, R190) -/

/-- DEDUCED, notes/assumptions/38.md. -/
def Rep.start (cut : Nat) (staging : List (Nat × Nat × Nat)) (sets : List Nat) (gen : Nat) : Rep :=
  ⟨cut, staging, [], [], [], sets, [], 0, cut, gen, (0, false)⟩

/-- The counters resume above the highest ASEQ that records and row headers carry (R162). -/
def countersResume (badHdr : Nat → Bool) (j : Nat) (rep : Rep) (s : State) : State :=
  let recs := (s.dur.journal.flatMap (fun p => p.2.recs)).foldl (fun a r => max a r.aseq) rep.high
  let high := (s.med.rows.filter (fun e => e.2.kind == .data && !badHdr e.1)).foldl (fun a e => max a (max e.2.seq e.2.openSeq)) recs
  (s.modDur (fun d => { d with aseq := high + 2 ^ 32, jseq := j, epoch := s.odo odoEpoch % 2 ^ 32, build := [], rows := [], forces := [] }))
    |> setF F.DUR_ASEQ (high + 2 ^ 32) |> setF F.DUR_COMMIT_JSEQ (j - 1)

/-- The registers of the last replay, and whether the power-off before it was clean (R179). -/
def replayShow (src us j : Nat) (first : Bool) (rep : Rep) (s : State) : State :=
  let rows := (s.dur.journal.filter (fun p => decide (j ≤ p.1))).length
  let clean := first || (rows == 0 && rep.lastFlags.2 && rep.lastFlags.1 == s.dur.runEpoch)
  (s.modDur (fun d => { d with prevDirty := !clean }))
    |> setF F.DUR_REPLAY_SOURCE src |> setB F.DUR_REPLAY_PREV_DIRTY (!clean) |> setB F.DUR_REPLAY_GAP (decide (0 < rows))
    |> setF F.DUR_REPLAY_TIME_US (min (2 ^ 32 - 1) us) |> setF F.DUR_REPLAY_CNT_RECORDS (min (2 ^ 32 - 1) rep.count)
    |> setF F.DUR_REPLAY_CNT_DISCARDED (min 65535 rows) |> setF F.DUR_REPLAY_CNT_ADOPTED 0
    |> setF F.DUR_DRAIN_RESULT s.dur.lastDrain.1 |> setF F.DUR_DRAIN_GUARANTEED s.dur.lastDrain.2.1
    |> setF F.DUR_DRAIN_TIME_US s.dur.lastDrain.2.2

/-- The OPEN sets of the field table. -/
def State.openListed (s : State) : List Nat :=
  ((s.fld.tbl.filter (fun p => p.2.st == fOpen)).map (fun p => fieldSet p.1)).eraseDups

/-- What follows the scan: counts, keys, restage, the journal's open sets, the checkpoint, the sweep (05_drift_and_references.md R122). DEDUCED, notes/assumptions/38.md. -/
def replayEnd (vaultOk : Bool) (gen : Nat) (rep : Rep) (s : State) : State :=
  s |> (fun t => seqAll closeLost t.openListed t) |> recountUnits |> requeue
    |> poolStatus |> ldStatusAll |> keyLoad gen vaultOk |> restage rep
    |> (fun t => seqAll openJournal (List.range 32) t)
    |> ckptStart false |> (fun t => t.modStart (fun x => { x with replayed := true }))
    |> (fun t => sweepStart (fun x => (List.range 8).any (fun k => t.chUp (memberCh (setGroup x) k))) t)

/-- R188: replay. `out`: what became of each pointer copy's checkpoint; `bad`: JSEQs that no copy and no parity gives;
`badHdr`: rows whose header does not decode at step 3 or lower; `vaultOk`: a vault image can be read; `us`: the time it
took. DEDUCED, notes/assumptions/38.md. -/
def replay (out : Nat → CkptOut) (bad badHdr : Nat → Bool) (vaultOk : Bool) (us : Nat) (s : State) : State :=
  let (pick, s1) := if s.scanNext then (none, s) else choose out s
  match pick with
  | some (i, c) =>
    let s2 := ckptLoad c s1
    let n := s2.dur.journal.length + 1
    let (j, rep, s3) := journalPass bad n c.jrnTail 0 (Rep.start c.cutAseq c.staging s2.openListed c.gen, s2)
    let s4 := replayShow (i + 1) us j false rep (countersResume badHdr j rep (dropTokens c.staging s3))
      |> setF F.DUR_CKPT_STATUS_PSEQ (c.pseq % 2 ^ 48) |> setB F.DUR_CKPT_STATUS_LAST_CLEAN c.clean
    let (rep2, s5) := rep.sets.foldl (fun q set =>
      scanSet badHdr set 8192 (max (q.2.frec (setFieldNo set 0)).rows (tgetD 2 rep.named set - 2) + 2) q) (rep, s4)
    replayEnd vaultOk rep.gen rep2 s5
  | none =>
    let fresh := !s.ptrUsable 0 && !s.ptrUsable 1 && s.dur.journal == []
    let first := fresh && !s.scanNext
    let s2 := if first then s1 else
      s1 |> setErr F.DUR_ERR_STATUS_FULL_SCAN intDur |> logPut sevError 0x0503 5 0 0 0 |> setF F.GLB_START_STATUS_FULL_SCAN 1
    let s3 := (adoptBest badHdr (Rep.start 0 [] [] 0, scanKids (scanFields badHdr (scanLds s2)))).2
    let j0 := (s3.dur.journal.map (·.1)).headD s3.dur.jseq
    let (j, rep, s4) := journalPass bad (s3.dur.journal.length + 1) j0 0 (Rep.start 0 [] [] 0, s3)
    let s5 := replayShow (if first then 0 else 3) us j fresh rep (countersResume badHdr j rep s4)
    let (rep2, s6) := adoptBest badHdr (rep, s5)
    let s7 := replayEnd vaultOk (if rep.gen = 0 then s6.newestGen else rep.gen) rep2 s6
    if first then s7 else setScanNext false s7

/-- R179: the dirty-shutdown count is settled, at most once a start, when CXL.mem is ready. -/
def dirtySettle (s : State) : State :=
  let prev := s.dur.runEpoch
  let s1 := if (s.dur.prevDirty && decide (s.countedEpoch ≠ prev)) || s.hostDirty then
      s |> odoInc odoDirty |> setCounted prev |> setErr F.DUR_ERR_STATUS_DIRTY intDur |> logPut sevNotice 0x0502 prev 0 0 0
    else s
  s1.modDur (fun d => { d with runEpoch := d.epoch, prevDirty := false })

/-! ### Sector rebuilds (R70, R192) -/

/-- A word of the frame table that a split gave a folio (03_translation.md R56): the entries of the whole folio it was, or none. -/
def splitWord (r : JRec) (w v : Nat) (s : State) : Nat :=
  let new := r.data.getD 0 0
  let old := r.data.getD 1 0
  let b := s.frameWord (foTable new) 0
  if foType new = 2 ∧ foType old ≠ 2 ∧ b ≤ w ∧ w < b + 64 then
    if foType old = 1 then
      let p := slotPfa (foSet old) (foSlot old + (w - b))
      mkFrame 1 (s.rowMask p != 0) p
    else 0
  else v

/-- A sector (byte address / 64) of a checkpoint brought up to date by the journal and the build area. -/
def State.sectorWords (s : State) (c : Ckpt) (sector : Nat) : List Nat :=
  let recs := ((s.dur.journal.map (·.2.recs)).flatten ++ (s.dur.rows.map (·.row.recs)).flatten ++ s.dur.build).filter
    (fun r => decide (c.cutAseq < r.aseq))
  (List.range 8).map (fun k =>
    let w := sector * 8 + k
    (sortRecs recs).foldl (fun v r =>
      if r.typ = recFolio ∧ s.folioWord r.ld r.addr = w then r.data.getD 0 0
      else if r.typ = recFolio then splitWord r w v s
      else if r.typ = recFrame then
        (match s.frameSlot r.ld (r.addr / 64) (r.addr % 64) with
          | some x => if x = w then r.data.getD 0 0 else v
          | none => v)
      else v) (tgetD 0 c.words w))

end Sys2Proof.Machine
end

