-- ==== Sys2Proof/Machine/Dome.lean ====
section
/-! DEFINITION. The dome: power domains, rails, scripts and sequencers, margins, fans (13_dome_power.md R313 to R335). What
a fault or a finished sequence does to the rest of the device is in Machine/Plates.lean and Machine/Modes.lean. -/

namespace Sys2Proof.Machine

/-! ### Rails (R316, R319) -/

def State.rail (s : State) (n : Nat) : Rail := tgetD Rail.reset s.dome.rails n
def modRail (n : Nat) (f : Rail → Rail) (s : State) : State :=
  s.modDome (fun d => { d with rails := tmod Rail.reset f d.rails n })

def State.seq (s : State) (q : Nat) : SeqSt := tgetD SeqSt.reset s.dome.seqs q
def modSeq (q : Nat) (f : SeqSt → SeqSt) (s : State) : State :=
  s.modDome (fun d => { d with seqs := tmod SeqSt.reset f d.seqs q })

/-- The device's sequencer. -/
def devSeq : Nat := 16

/-- The rail a script of a sequencer names: in plate scripts 0 is VPP_PLATE and 1 VCC_PLATE (R320). -/
def scriptRail (q r : Nat) : Nat := if q = devSeq then r else 8 + 2 * q + r

/-- The sequencer of a rail. -/
def railSeq (n : Nat) : Nat := if n < 8 then devSeq else (n - 8) / 2

/-- An enable goes high. -/
def railEnable (n : Nat) (s : State) : State :=
  modRail n (fun r => { r with phase := .rising, en := true, disch := false, offMin := false, bad := 0 }) s

/-- An enable goes low: the margin returns to 0, and a margin change under way ends (R333). -/
def railDisable (n : Nat) (s : State) : State :=
  if (s.rail n).en then
    let s1 := modRail n (fun r => { r with phase := .falling, en := false, margin := 0, bad := 0 }) s
    if s1.dome.marginRail.any (fun p => p.1 == n) then s1.modDome (fun d => { d with marginRail := none, marginWait := false })
    else s1
  else s

/-- A sequence disables a rail; a margin that goes back to 0 with it is a change, and is logged (R333). -/
def railOff (n : Nat) (s : State) : State :=
  when ((s.rail n).en && (s.rail n).margin != 0) (logOpen bDOME n 0) (railDisable n s)

/-- May the rail be enabled again (R319)? -/
def Rail.ready (r : Rail) : Bool := r.disch && r.offMin && !r.en

/-- Rails 0 to 7 are running (R323). -/
def State.railsUp (s : State) : Bool := (List.range 8).all (fun n => (s.rail n).phase == .running)

/-- PLT_RST#[p] is asserted or released. -/
def pltReset (p : Nat) (assert : Bool) (s : State) : State :=
  s.modDome (fun d => { d with pltRst := (d.pltRst ||| 2 ^ p) - (if assert then 0 else 2 ^ p) })

/-! ### Scripts and sequencers (R320 to R325) -/

def State.scripts (s : State) : Scripts := if s.dome.bank = 0 then s.dome.bank0 else s.dome.bank1

/-- The device power-up is built in (R321). -/
def deviceUp : List ScriptStep :=
  (List.range 8).flatMap (fun r => [⟨.enable, r, 0⟩, ⟨.waitUp, r, if r = 7 then 10000 else 5000⟩, ⟨.delay, 0, 500⟩])

def State.upSteps (s : State) (q : Nat) : List ScriptStep := if q = devSeq then deviceUp else s.scripts.plateUp
def State.downSteps (s : State) (q : Nat) : List ScriptStep := if q = devSeq then s.scripts.deviceDown else s.scripts.plateDown

/-- The rails an up sequence raises, in order. -/
def State.upRails (s : State) (q : Nat) : List Nat :=
  ((s.upSteps q).filter (fun x => x.op == .enable)).map (fun x => scriptRail q x.rail)

/-- May the up sequence run: every rail it raises meets R319; a plate is present and the device rails run (R323); the
input and VDD_AON are there? -/
def State.mayUp (s : State) (q : Nat) : Bool :=
  (s.upRails q).all (fun n => (s.rail n).ready) && !s.start.aonDown &&
    (if q = devSeq then s.start.vin else s.dome.prsnt.testBit q && s.railsUp)

/-- May a channel be brought up: before an image every channel of a plate, afterwards those it declares populated? -/
def State.chPopulated (s : State) (c : Nat) : Bool := !s.loaded || s.img.chans.testBit c

/-- Channels of a plate whose reset has been released enter TRAINING (R323; 04_media_channels.md R105). -/
def chanStart (p : Nat) (s : State) : State :=
  seqAll (fun c t =>
    if t.chPopulated c && decide (t.get (F.MCH_STATUS_STATE c) = 0) then
      seqAll (fun d u => u |> setF (F.MCH_DIE_STATUS_PRESENT c d) 0 |> setF (F.MCH_DIE_STATUS_FAILED c d) 0) (List.range 8)
        (setF (F.MCH_STATUS_STATE c) 1 t)
    else t) [2 * p, 2 * p + 1] s

/-- Run the step at the head of a sequence; `none` where it waits. -/
def seqStep (q : Nat) (s : State) : Option State :=
  match (s.seq q).steps with
  | [] => none
  | x :: t =>
    let n := scriptRail q x.rail
    let next (u : State) : Option State := some (modSeq q (fun y => { y with steps := t }) u)
    match x.op with
    | .enable => next (railEnable n s)
    | .disable => next (railOff n s)
    | .waitUp => if (s.rail n).phase = .running then next s else none
    | .waitDown => if (s.rail n).disch then next s else none
    | .delay => none
    | .rstAssert => next (pltReset q true s)
    | .rstRelease => next (chanStart q (pltReset q false s))

/-- A sequence with no step left ends; a held on request starts the up sequence as soon as it may (R325). -/
def seqEnd (q : Nat) (s : State) : State :=
  let x := s.seq q
  if x.steps ≠ [] then s
  else
    match x.phase with
    | .up => modSeq q (fun y => { y with phase := .on }) s
    | .down =>
      if x.held then
        if s.mayUp q then modSeq q (fun _ => ⟨.up, s.upSteps q, false⟩) s else s
      else modSeq q (fun y => { y with phase := .off }) s
    | _ => s

/-- Run a sequence as far as it goes now. -/
def seqRunN : Nat → Nat → State → State
  | 0, _, s => s
  | n + 1, q, s =>
    match seqStep q s with
    | some t => seqRunN n q t
    | none =>
      let t := seqEnd q s
      if t.seq q = s.seq q then s else seqRunN n q t

/-- DEDUCED, notes/assumptions/45.md. -/
def seqRun (q : Nat) (s : State) : State := seqRunN 300 q s

/-- Disable rails, each followed by WAIT_DOWN. -/
def downOf (q : Nat) (rails : List Nat) : List ScriptStep :=
  rails.flatMap (fun n => let r := if q = devSeq then n else n - (8 + 2 * q); [⟨.disable, r, 0⟩, ⟨.waitDown, r, 0⟩])

/-- An on request (R325). One for a plate that is absent has no effect. DEDUCED, notes/assumptions/45.md. -/
def seqOn (q : Nat) (s : State) : State :=
  match (s.seq q).phase with
  | .off | .down =>
    if q = devSeq ∨ s.dome.prsnt.testBit q then seqRun q (modSeq q (fun y => { y with phase := .down, held := true }) s) else s
  | _ => s

/-- An off request (R325): from on the down sequence runs; an up sequence is reversed, the rail being raised first.
DEDUCED, notes/assumptions/45.md. -/
def seqOff (q : Nat) (s : State) : State :=
  match (s.seq q).phase with
  | .on => seqRun q (modSeq q (fun _ => ⟨.down, s.downSteps q, false⟩) s)
  | .up => seqRun q (modSeq q (fun _ => ⟨.down, downOf q ((s.upRails q).filter (fun n => (s.rail n).en)).reverse, false⟩) s)
  | _ => s

/-- Does a sequence run? -/
def State.seqBusy (s : State) (q : Nat) : Bool := (s.seq q).phase == .up || (s.seq q).phase == .down

/-- Does any sequence run? -/
def State.seqsBusy (s : State) : Bool := (List.range 17).any s.seqBusy

/-- A script DELAY ends (R320). -/
def delayEnd (q : Nat) (s : State) : State :=
  match (s.seq q).steps with
  | x :: t => if x.op = .delay then seqRun q (modSeq q (fun y => { y with steps := t }) s) else s
  | [] => s

/-- The sequence of a plate ends at once: both enables low, PLT_RST# asserted (R318, R326). DEDUCED, notes/assumptions/45.md. -/
def plateCut (p : Nat) (s : State) : State :=
  s |> railOff (8 + 2 * p) |> railOff (9 + 2 * p) |> pltReset p true |> modSeq p (fun _ => SeqSt.reset)

/-- Every enable goes low and every plate reset is asserted (R327, R330); no sequence goes on. -/
def railsCut (s : State) : State :=
  (seqAll railDisable (List.range 40) s).modDome (fun d => { d with pltRst := 0xFFFF, huEn := false, seqs := [], legacy := false, drainTail := false })

/-! ### Power domains (R313 to R315) -/

def State.pd (s : State) (d : Nat) : PdState := tgetD PdState.off s.dome.pd d
def setPd (d : Nat) (x : PdState) (s : State) : State := s.modDome (fun m => { m with pd := tput .off m.pd d x })

/-- The domains that must be ON before domain d enters RAMP: its parent and its prerequisites (R314). -/
def State.pdNeeds (s : State) (d : Nat) : List Nat :=
  match tget s.img.pdTree d with
  | some (par, pre) => (if par = 0 then [] else [par - 1]) ++ pre
  | none => []

/-- The column of R315 in force: on the way out of PARKED, and back to ACTIVE, that of the mode to come. -/
def State.pdMode (s : State) : Mode :=
  match s.glb.transTo with
  | some .active => .active
  | some .quiet => if s.glb.mode = .parked then .quiet else s.glb.mode
  | _ => s.glb.mode

/-- Movers are forced in QUIET (R10). -/
def State.moversForced (s : State) : Bool := decide (s.get F.FLD_STATUS_FREE_SETS ≤ s.resPct 3) || s.on F.XLAT_POOL_STATUS_LOW

/-- Some margin is non-zero. -/
def State.marginOn (s : State) : Bool := s.dome.rails.any (fun p => p.2.margin != 0)

/-- What R315 asks of a domain. -/
def State.pdWant (s : State) (d : Nat) : PdState :=
  let on (b : Bool) : PdState := if b then .on else .off
  let parked := decide (s.pdMode = .parked)
  let quiet := decide (s.pdMode = .quiet)
  if (s.seq devSeq).phase ≠ .on ∧ s.dur.drain < 5 then .off
  else if d < 32 then on (!parked && s.chPopulated d && decide ((s.seq (plateOf d)).phase = .on))
  else if d < 34 then on (!parked && !s.dome.laneBad.testBit (d - 32))
  else if d < 40 then on (!parked && !quiet && !s.dome.laneBad.testBit (d - 32))
  else if d < 48 ∨ d = 78 then (if parked then .retention else .on)
  else if d = 58 then .on
  else if d = 59 then on (decide (s.get F.HOST_LINK_CFG_BIFUR = 1))
  else if d < 64 then on (!parked)
  else if d < 68 then on (!parked && (!quiet || s.moversForced))
  else if d = 68 then on (!parked || !s.on F.IMG_ASSIST_RUNNING)
  else if d = 69 then on (!parked || s.on F.IMG_ASSIST_RUNNING)
  else if d < 73 then on (!parked)
  else if d = 74 then on (s.on F.LCS_FINDER_ENABLED)
  else if d = 79 then on (s.marginOn || (List.range 4).any (fun c => s.on (F.WMEM_TEST_CTL_BUSY c)))
  else .on

/-- The domains of a list that may be turned off together: no ON or RAMP domain that stays depends on one of them (R314). -/
def pdFree (s : State) : Nat → List Nat → List Nat
  | 0, l => l
  | n + 1, l =>
    let l1 := l.filter (fun d => (List.range 80).all (fun e =>
      l.contains e || !(s.pd e == .on || s.pd e == .ramp) || !(s.pdNeeds e).contains d))
    if l1.length = l.length then l else pdFree s n l1

/-- A switch-off is refused: PD_REFUSE, and a record that names both domains (R314). -/
def pdRefuse (d : Nat) (s : State) : State :=
  let e := ((List.range 80).find? (fun e => (s.pd e == .on || s.pd e == .ramp) && (s.pdNeeds e).contains d)).getD d
  s |> setErr F.DOME_ERR_STATUS_PD_REFUSE intDome |> logOpen bDOME d e

/-- Domains with a wish enter RAMP in number order, eight at most at once; those in RETENTION return to ON. -/
def pdRamp (d : Nat) (s : State) : State :=
  if s.pdWant d = .on then
    match s.pd d with
    | .retention => setPd d .on s
    | .off =>
      if (s.dome.pd.filter (fun p => p.2 == .ramp)).length < 8 ∧ (s.pdNeeds d).all (fun e => s.pd e == .on) then setPd d .ramp s else s
    | _ => s
  else s

/-- Bring the domains to what R315 asks. DESIGN CHOICE, notes/assumptions/46.md. -/
def pdSettle (s : State) : State :=
  let off := (List.range 80).filter (fun d => s.pd d != .off && s.pdWant d == .off)
  let may := pdFree s 80 off
  let s1 := seqAll (fun d t => setPd d .off t) may s
  let s2 := seqAll (fun d t => if may.contains d then t else pdRefuse d t) off s1
  let s3 := seqAll (fun d t => if t.pd d = .on ∧ t.pdWant d = .retention then setPd d .retention t else t) (List.range 80) s2
  seqAll pdRamp (List.range 80) s3

/-- R313, R217: a domain completes RAMP; a cipher lane runs its known-answer tests. DESIGN CHOICE, notes/assumptions/46.md. -/
def rampDone (d : Nat) (katOk : Bool) (s : State) : State :=
  if s.pd d = .ramp then
    let s1 := setPd d .on s
    let s2 := if 32 ≤ d ∧ d < 40 ∧ !katOk then
        (s1.modDome (fun m => { m with laneBad := m.laneBad ||| 2 ^ (d - 32) })) |> setErr F.CIPH_ERR_STATUS_KAT_FAIL intCiph
          |> logOpen bCIPH (d - 32) 0
      else s1
    pdSettle s2
  else s

/-- The device rails run and no domain is in RAMP: step 3 of R321 is done. -/
def State.poweredUp (s : State) : Bool := (s.seq devSeq).phase == .on && !s.dome.pd.any (fun p => p.2 == .ramp)

/-- HU_EN under R331. -/
def huEnable (level : Bool) (s : State) : State := s.modDome (fun d => { d with huEn := level && s.on F.DOME_CTL_HU_AUTO })

/-! ### Readings (R317, R333) -/

/-- Five bits as a signed number. -/
def signed5 (v : Nat) : Int := if v < 16 then (v : Int) else (v : Int) - 32

/-- The margin that shifts a rail's window: the one being set counts from the write of the regulator. -/
def State.windowMargin (s : State) (n : Nat) : Int :=
  match s.dome.marginRail with
  | some (r, v) => if r = n ∧ !s.dome.marginWait then signed5 v else signed5 (s.rail n).margin
  | none => signed5 (s.rail n).margin

/-- Is a reading above the window, or below it? Limits and margin are in 0.5 % of nominal. -/
def State.railOver (s : State) (n mv : Nat) : Bool :=
  decide ((s.get (F.DOME_RAIL_CFG_NOM_MV n) : Int) * (200 + s.get (F.DOME_RAIL_CFG_OV n) + s.windowMargin n) < 200 * mv)
def State.railUnder (s : State) (n mv : Nat) : Bool :=
  decide ((200 * mv : Int) < (s.get (F.DOME_RAIL_CFG_NOM_MV n) : Int) * (200 - (s.get (F.DOME_RAIL_CFG_UV n) : Int) + s.windowMargin n))

/-- A rail's reading. DESIGN CHOICE, notes/assumptions/46.md. -/
def railRead (n mv : Nat) (s : State) : State := modRail n (fun r => { r with mv := mv }) s

/-- A reading shows the rail of a margin change inside the shifted window: the margin takes effect (R333). DESIGN CHOICE, notes/assumptions/46.md. -/
def marginSettle (n mv : Nat) (s : State) : State :=
  match s.dome.marginRail with
  | some (r, v) =>
    if r = n ∧ !s.dome.marginWait ∧ !s.railOver n mv ∧ !s.railUnder n mv then
      pdSettle ((modRail n (fun x => { x with margin := v }) s).modDome (fun d => { d with marginRail := none }))
    else s
  | none => s

/-- The regulator is written. DESIGN CHOICE, notes/assumptions/46.md. -/
def marginGo (s : State) : State :=
  match s.dome.marginRail with
  | some (r, v) =>
    if s.dome.marginWait ∧ !s.seqBusy (railSeq r) then
      logOpen bDOME r v (emit (.pmbus r v) (s.modDome (fun d => { d with marginWait := false })))
    else s
  | none => s

/-- R333: a write of DOME_MARGIN. -/
def marginWrite (v : Nat) (s : State) : State :=
  let s1 := storeAt 0x390060 v s
  if v.testBit 31 then
    let n := s1.get F.DOME_MARGIN_RAIL
    if s1.on F.DOME_CTL_PMB_EN && s1.on (F.DOME_RAIL_CFG_PMB_VALID n) && decide ((s1.rail n).phase = .running) &&
        s1.dome.marginRail.isNone then
      marginGo (s1.modDome (fun d => { d with marginRail := some (n, s1.get F.DOME_MARGIN_STEPS), marginWait := true }))
    else setErr F.DOME_ERR_STATUS_MARGIN_NA intDome s1
  else s1

def execMargin (_m : Master) (v : BitVec 32) (s : State) : Host.Outcome State Fault Refusal := .next (marginWrite v.toNat s)

/-! ### Hold-up estimate (R332) -/

/-- R332: the estimate from the bank voltage. -/
def huEstimate (s : State) : State :=
  let cap := s.get F.DOME_HU_CFG_CAP_MF
  let v := tgetD 1 s.dome.adc 9 - 1
  let vmin := s.get F.DOME_HU_CFG_VMIN_MV
  if cap = 0 then s
  else setF F.DOME_HU_STATUS_EST_CJ (min 65535 (if v < vmin then 0 else cap * (v * v - vmin * vmin) / 20000000)) s

def execHuEstimate (s : State) : Host.Outcome State Fault Refusal := .next (huEstimate s)

/-- R332: HU_OK has disagreed with the estimate for 1 s. -/
def execHuMismatchTimer (s : State) : Host.Outcome State Fault Refusal :=
  .next (if s.on F.DOME_HU_CFG_CAP_MF && s.dome.huOk != decide (s.get F.DOME_HU_CFG_EREQ_CJ ≤ s.get F.DOME_HU_STATUS_EST_CJ) then
      s |> setErr F.DOME_ERR_STATUS_HU_MISMATCH intDome |> logOpen bDOME s.dome.huOk.toNat (s.get F.DOME_HU_STATUS_EST_CJ)
    else s)

/-! ### Fans (R334) -/

def State.fan (s : State) (f : Nat) : Fan := tgetD Fan.reset s.dome.fans f
def modFan (f : Nat) (g : Fan → Fan) (s : State) : State := s.modDome (fun d => { d with fans := tmod Fan.reset g d.fans f })

/-- The hardware overrides a fan's duty: by temperature, or because another fan has stalled. -/
def State.fanOver (s : State) (f : Nat) : Bool :=
  s.dome.thermOvr || (List.range 4).any (fun g => g != f && (s.fan g).stall)

/-- The duty in force. -/
def State.duty (s : State) (f : Nat) : Nat :=
  if s.glb.mode = .standby then 0
  else if s.glb.mode = .faultHalt then (if s.dome.haltFan then 255 else 0)
  else if s.fanOver f then 255
  else if (s.fan f).failsafe then s.get (F.DOME_FAN_CTL_FAILSAFE f)
  else s.get (F.DOME_FAN_CTL_DUTY f)

/-- A fan's tach window ends. -/
def fanTach (f pulses : Nat) (s : State) : State :=
  let rpm := pulses * 60 / (s.get (F.DOME_FAN_CTL_PPR f) + 1)
  let slow := decide (rpm < s.get (F.DOME_FAN_CTL_MIN_RPM f) * 100) && decide (51 ≤ s.duty f)
  let s1 := modFan f (fun x => { x with rpm := min rpm 65535, stall := slow }) s
  if slow && !(s.fan f).stall then
    let (c, s2) := takeNat (setErr F.DOME_ERR_STATUS_FAN_STALL intDome s1)
    logPut sevError 0x1002 c f 0 0 s2
  else s1

def execFanTachWindow (pulses : List Nat) (s : State) : Host.Outcome State Fault Refusal :=
  .next (seqAll (fun f t => match pulses[f]? with | some n => fanTach f n t | none => t) (List.range 4) s)

/-- R334: no write of DUTY for 2 s. -/
def execFanWatchdog (fan : Fin 4) (s : State) : Host.Outcome State Fault Refusal :=
  .next (modFan fan.val (fun x => { x with failsafe := true }) s)

/-- R327 step 5: the fans go low. -/
def execHaltFanExpiry (s : State) : Host.Outcome State Fault Refusal := .next (s.modDome (fun d => { d with haltFan := false }))

end Sys2Proof.Machine
end

