-- ==== Sys2Proof/Machine/Plates.lean ====
section
/-! DEFINITION. The plates as the shelf sees them: admission, service, leaving service with work in flight
(15_shelf_bus.md R365 to R370; 13_dome_power.md R318, R323 to R326; 04_media_channels.md R105; 06_field_management.md R137). -/

namespace Sys2Proof.Machine

/-! ### Views (R367) -/

def pAbsent : Nat := 0
def pPresent : Nat := 1
def pPowering : Nat := 2
def pOnline : Nat := 3
def pDraining : Nat := 4
def pOffline : Nat := 5
def pFailed : Nat := 6

def State.mgmt (s : State) (p : Nat) : Nat := s.get (F.SBUS_PLT_STATE_MGMT_VIEW p)
def setMgmt (p v : Nat) (s : State) : State := setF (F.SBUS_PLT_STATE_MGMT_VIEW p) v s
def setCause (p v : Nat) (s : State) : State := setF (F.SBUS_PLT_STATE_CAUSE p) v s

/-- The channels of a plate. -/
def plateChs (p : Nat) : List Nat := [2 * p, 2 * p + 1]

/-- DATA_VIEW: 0 NONE, 1 SERVING, 2 PARTIAL, 3 FLUSHING. A channel that is neither up nor FAILED counts as PARTIAL's other. -/
def State.dataView (s : State) (p : Nat) : Nat :=
  let up := ((plateChs p).filter s.chUp).length
  if s.plateOut p && decide (0 < s.plateWork p) then 3
  else if up = 2 then 1
  else if up = 1 then 2
  else 0

/-- A disagreement exists (R369); plates that are down because the device is PARKED do not disagree. DEDUCED, notes/assumptions/51.md. -/
def State.disagrees (s : State) (p : Nat) : Bool :=
  if s.mgmt p = pOnline then decide (s.dataView p = 0) && decide (s.glb.mode ≠ .parked) && s.glb.transTo.isNone
  else decide (s.dataView p = 3)

/-! ### Channels go OFF (04_media_channels.md R105) -/

/-- The leaf buffer and the read streams of a channel go. -/
def chBufferDrop (c : Nat) (s : State) : State :=
  s.modMed (fun m => { m with lbuf := terase m.lbuf c, streams := terase m.streams c })

/-- A reload of the channel is abandoned. -/
def reloadAbandon (c : Nat) (s : State) : State :=
  if s.on (F.MCH_RECONF_BUSY c) then
    let s1 := s |> setF (F.MCH_RECONF_BUSY c) 0 |> setF (F.MCH_RECONF_RESULT c) 3 |> setErr (F.MCH_ERR_STATUS_RELOAD_FAIL c) intMch
    if s1.img.reload.any (fun r => r.unit == 1 && r.chan == c) then
      (s1.modImg (fun i => { i with reload := none })) |> setF F.IMG_RELOAD_STATUS_BUSY 0 |> setF F.IMG_RELOAD_STATUS_RESULT 3
    else s1
  else s

/-- A channel goes OFF: nothing runs on its dies any more. ROLLBACK, which shows that the previous segment runs, is cleared, as no
segment runs. DESIGN CHOICE, notes/assumptions/75.md. -/
def channelOff (c : Nat) (s : State) : State :=
  let s1 := seqAll (fun d t => dropLatches (dieNo c d) (dieIdle c d t)) (List.range 8) s
  let s2 := reloadAbandon c (chBufferDrop c s1)
  (s2.modMed (fun m => { m with planes := m.planes.filter (fun e => e.1 / 32 != c), training := terase m.training c }))
    |> setF (F.MCH_STATUS_STATE c) 0 |> setF (F.MCH_STATUS_DIE_OK c) 0 |> setF (F.MCH_STATUS_ROLLBACK c) 0
    |> pllStop c |> orphanReads (fun a => pfaCh a == c)

def channelsOff (p : Nat) (s : State) : State := capRecompute (seqAll channelOff (plateChs p) s)

/-! ### Leaving service with work in flight (R369) -/

def onPlate (p pfa : Nat) : Bool := plateOf (pfaCh pfa) == p

/-- The groups with a member on the plate. -/
def plateGroups (p : Nat) : List Nat := (List.range 32).filter (fun g => g / 16 == p / 8)

/-- A program of a row kind of the set runs on the plate. -/
def State.plateProgram (s : State) (p set : Nat) (parity : Bool) : Bool :=
  s.med.dies.any (fun e => e.1 / 16 == p &&
    (match e.2.op with
      | .program _ rows => rows.any (fun r => setOf r.1 == set && (r.2.kind == .parity || !parity))
      | _ => false))

/-- Frames stand placed in a set, or its data row is partly programmed. -/
def State.partRow (s : State) (o : OpenSet) : Bool :=
  o.done != 0 || s.coal.frames.any (fun e => match e.2.placed with | some a => setOf a == o.set | none => false)

/-- Data sets of the plate's groups whose data row cannot be completed close early. DEDUCED, notes/assumptions/51.md. -/
def closeBlocked (p : Nat) (s : State) : State :=
  let sets := (s.fld.opens.filter (fun o => o.stream != streamSystem && (plateGroups p).contains (setGroup o.set) && s.partRow o &&
    !s.plateProgram p o.set true)).map (·.set)
  seqAll (fun x t => closeEarly x false t) sets s

/-- Measurements on the plate start again on another member. DEDUCED, notes/assumptions/36.md. -/
def measMove (p : Nat) (s : State) : State :=
  seqAll (fun (m : Meas) t => measOwnStart m.set m.sweep (measRemove m.set t))
    (s.drift.meas.filter (fun m => onPlate p (setPfa m.set m.member 0))) s

/-- The plate has left service: what has not started is rebuilt, erases on its dies are reset. -/
def leaveService (p : Nat) (s : State) : State :=
  let s1 := seqAll leaveRead (s.med.reads.filter (fun q => onPlate p q.pfa && !s.serving q)) s
  let erasing := (s1.med.dies.filter (fun e => e.1 / 16 == p && (match e.2.op with | .erase _ _ => true | _ => false))).map (·.1)
  let s2 := seqAll (fun n t => dieIdle (n / 8) (n % 8) t) erasing s1
  s2 |> measMove p |> closeBlocked p |> capRecompute |> settle

/-- The dies of the plate are reset: programs end without a bad field; a journal row they carried is sealed again on another
group, a data row is not completed. -/
def resetPrograms (p : Nat) (s : State) : State :=
  seqAll (fun (e : Nat × DieSt) t =>
    let t1 := dieIdle (e.1 / 8) (e.1 % 8) t
    match e.2.op with
    | .program _ rows =>
      seqAll (fun (x : Nat × MRow) u =>
        let u1 := reseal (· == x.1) (if e.2.hold then u else u.modMed (fun m => { m with rows := tset m.rows x.1 { x.2 with kind := .bad } }))
        if x.2.kind = .star ∨ (u1.openSetOf (setOf x.1)).isNone then u1 else closeEarly (setOf x.1) false u1) rows t1
    | _ => t1) (s.med.dies.filter (fun e => e.1 / 16 == p)) s

/-- The rails of the plate are down: nothing answers. -/
def plateDead (p : Nat) (s : State) : State := channelsOff p (resetPrograms p (leaveService p s))

/-! ### Power -/

/-- DOME_PLT_REQ.ON of a plate. -/
def setReq (p : Nat) (b : Bool) (s : State) : State :=
  let v := s.get F.DOME_PLT_REQ_ON
  setF F.DOME_PLT_REQ_ON ((v ||| 2 ^ p) - (if b then 0 else 2 ^ p)) s

/-- PLATE_UP is requested. -/
def platePower (p : Nat) (s : State) : State := seqOn p (setReq p true s)

/-- PLATE_DOWN, after the channels are OFF (R324). -/
def plateDown (p : Nat) (s : State) : State := seqOff p (channelsOff p (setReq p false s))

/-- A plate enters POWERING. -/
def powering (p : Nat) (s : State) : State := platePower p (setMgmt p pPowering s)

/-! ### Identity (R365, R368) -/

/-- The identity record of a plate as last read. -/
def State.identOf (s : State) (p : Nat) : List Nat := tgetD [] s.sbus.ident p

def State.serial (s : State) (p : Nat) : List Nat := ((s.identOf p).drop 8).take 16
def State.mediaGen (s : State) (p : Nat) : Nat := leNum (((s.identOf p).drop 4).take 2)

/-- KIND and CRC-32 of the record are right. -/
def State.identOk (s : State) (p : Nat) : Bool :=
  let l := s.identOf p
  decide (l.length = 128) && decide (leNum (l.take 2) = 0x1F01) && decide (leNum (l.drop 124) = crc32 (l.take 124))

def rosterAddr (p : Nat) : Nat := 0x200 + 16 * p

/-- The plate's SERIAL is that of the roster. -/
def State.plateKnown (s : State) (p : Nat) : Bool := s.identOk p && decide (s.serial p = s.almBytes (rosterAddr p) 16)

/-- The HOLD that the identity gives: 1 unreadable, 2 media generation, 3 awaiting ADMIT, 0 none. Before an image is loaded no
segment is there to differ from. -/
def State.identHold (s : State) (p : Nat) : Nat :=
  if !s.identOk p then 1
  else if (plateChs p).any (fun c => match tget s.img.segs c with | some g => g.gen != s.mediaGen p | none => false) then 2
  else if !s.plateKnown p then 3
  else 0

/-- The identity record is read. -/
def identRead (p : Nat) (s : State) : State :=
  s |> setF (F.SBUS_PLT_STATE_HOLD p) (s.identHold p)
    |> setF (F.SBUS_PLT_ID_MEDIA_GEN p) (s.mediaGen p) |> setB (F.SBUS_PLT_ID_KNOWN p) (s.plateKnown p)
    |> setF (F.SBUS_PLT_ID_SERIAL_CRC p) (crc32 (s.serial p))

/-- A plate is PRESENT: a known one is powered where AUTO_ON says so. -/
def platePresent (p : Nat) (s : State) : State :=
  let s1 := identRead p (setMgmt p pPresent s)
  if s1.get (F.SBUS_PLT_STATE_HOLD p) = 0 ∧ (s1.get F.SBUS_PLT_CFG_AUTO_ON).testBit p then powering p s1 else s1

/-! ### New identities (06_field_management.md R137) -/

/-- The fields listed on a plate. -/
def State.plateFields (s : State) (p : Nat) : List Nat := (s.fld.tbl.map (·.1)).filter (fun f => onPlate p (f * 8192))

/-- A plate with a new identity has come ONLINE: its fields are erased, and the sets that had a member on the departed plate
are relocated with cause PLATE_NEW: the departed member's rows, which the model keeps as unreadable, are rebuilt from the others (R95).
DEDUCED, notes/assumptions/51.md. -/
def newPlate (p : Nat) (s : State) : State :=
  let fs := s.plateFields p
  let s0 := s.modMed (fun m => { m with rows := m.rows.map (fun e => if onPlate p e.1 then (e.1, { e.2 with kind := .bad }) else e) })
  let s2 := seqAll (fun f t =>
    let r := t.frec f
    if r.st = fBad ∨ r.st = fRetired then putFrec f FRec.reset (fieldErased f t)
    else if r.st = fFree then putFrec f { r with ec := 0 } (fieldErased f t)
    else seeClear f (putFrec f { r with ec := 0 } t)) fs s0
  let sets := ((fs.map fieldSet).eraseDups).filter (fun x => s2.setState x != fFree)
  fldRecount (seqAll (fun x t => relocate x (t.modFld (fun f =>
    { f with newPlate := if f.newPlate.contains x then f.newPlate else f.newPlate ++ [x] }))) sets
      (s2.modSbus (fun b => { b with newId := b.newId.filter (· != p) })))

/-! ### The state machine (R368) -/

/-- A channel has left TRAINING; one that is not populated has nothing to train. -/
def State.chSettled (s : State) (c : Nat) : Bool := !s.chPopulated c || decide (2 ≤ s.get (F.MCH_STATUS_STATE c))
def State.chFailed (s : State) (c : Nat) : Bool := !s.chPopulated c || decide (s.get (F.MCH_STATUS_STATE c) = 8)

/-- ONLINE to DRAINING. -/
def plateDrain (p cause : Nat) (s : State) : State := s |> setMgmt p pDraining |> setCause p cause |> leaveService p

/-- DRAINING to OFFLINE: channels OFF, PLATE_DOWN; an ON request held meanwhile is acted on. -/
def plateOffline (p : Nat) (s : State) : State :=
  let s1 := plateDown p (setMgmt p pOffline (closeBlocked p s))
  if s1.sbus.heldOn.contains p then powering p (s1.modSbus (fun b => { b with heldOn := b.heldOn.filter (· != p) })) else s1

/-- What the state machine does now for a plate. DEDUCED, notes/assumptions/51.md. -/
def plateStep (p : Nat) (s : State) : State :=
  let m := s.mgmt p
  let cs := plateChs p
  if m = pPowering then
    if !cs.all s.chSettled then s
    else if cs.all s.chFailed then plateDown p (setCause p 4 (setMgmt p pFailed s))
    else
      let s1 := capRecompute (setMgmt p pOnline s)
      if s1.sbus.newId.contains p then newPlate p s1 else s1
  else if m = pOnline then (if cs.all s.chFailed then plateDrain p 4 s else s)
  else if m = pDraining then (if s.plateWork p = 0 then plateOffline p s else s)
  else s

/-- DISAGREE ends with its episode. -/
def disagreeEnd (p : Nat) (s : State) : State :=
  if s.disagrees p then s
  else setF (F.SBUS_PLT_STATE_DISAGREE p) 0 (s.modSbus (fun b => { b with flagged := b.flagged.filter (· != p) }))

/-- An assistant core: 0 core A, 1 core B. -/
def FindSt.core (f : FindSt) (k : Nat) : CoreSt := if k = 0 then f.coreA else f.coreB

/-- The running assistant serves nothing: the assistants swap roles, or the finder has halted it (12_voxsicel_image.md R309,
17_almanac_life_cycle_finder.md R406). DEDUCED, notes/assumptions/52.md. -/
def State.asstStalled (s : State) : Bool := s.on F.IMG_ASSIST_SWAP_BUSY || (s.find.core (s.get F.IMG_ASSIST_RUNNING)).halted

/-- Every plate's state machine goes on, while the running assistant serves it. DEDUCED, notes/assumptions/52.md. -/
def platesSettle (s : State) : State :=
  if s.asstStalled then s else seqAll (fun p t => disagreeEnd p (plateStep p (plateStep p t))) (List.range 16) s

/-- A plate fault (13_dome_power.md R318). `cause` as DOME_FAULT encodes it. DEDUCED, notes/assumptions/51.md. -/
def plateFault (p cause rail : Nat) (s : State) : State :=
  let m := s.mgmt p
  let s1 := s |> plateCut p |> setReq p false |> setErr F.DOME_ERR_STATUS_PLATE_FAULT intDome |> logPut sevError 0x1002 cause rail 0 0
  let s2 := if m = pOnline ∨ m = pPowering ∨ m = pDraining then setCause p 3 (setMgmt p pFailed s1) else s1
  platesSettle (plateDead p s2)

/-! ### Requests (R368) -/

/-- May the request act now: does the table give it a row? -/
def State.reqOk (s : State) (r : PltReq) : Bool :=
  let m := s.mgmt r.plate
  match r.action with
  | 1 => (decide (m = pPresent) && decide (s.get (F.SBUS_PLT_STATE_HOLD r.plate) = 0)) || decide (m = pOffline) || decide (m = pFailed) ||
      decide (m = pDraining)
  | 2 => decide (m = pOnline) || decide (m = pPowering)
  | 3 => decide (m = pPresent) && decide (s.get (F.SBUS_PLT_STATE_HOLD r.plate) = 3)
  | _ => false

/-- ADMIT: the roster entry is written. -/
def plateAdmit (p : Nat) (s : State) : State :=
  let (ok, s1) := almDevice (rosterAddr p) (s.serial p) s
  if ok then
    (s1.modSbus (fun b => { b with newId := if b.newId.contains p then b.newId else p :: b.newId }))
      |> setF (F.SBUS_PLT_STATE_HOLD p) 0 |> setF (F.SBUS_PLT_ID_KNOWN p) 1 |> powering p
  else setF (F.SBUS_PLT_STATE_HOLD p) 4 s1

/-- A request acts. DEDUCED, notes/assumptions/51.md. -/
def plateAct (r : PltReq) (s : State) : State :=
  let p := r.plate
  let m := s.mgmt p
  if !s.reqOk r then s
  else
    match r.action with
    | 1 =>
      if m = pDraining then s.modSbus (fun b => { b with heldOn := if b.heldOn.contains p then b.heldOn else b.heldOn ++ [p] })
      else powering p (when (decide (m = pFailed)) (logOpen bSBUS p m) s)
    | 2 => if m = pOnline then plateDrain p r.cause s else plateDown p (setMgmt p pOffline s)
    | _ => plateAdmit p s

/-- A request to a plate; while the assistants swap roles or the running core is halted it waits in the queue of 256 entries
(12_voxsicel_image.md R309, 17_almanac_life_cycle_finder.md R406). DEDUCED, notes/assumptions/51.md. -/
def plateReq (r : PltReq) (s : State) : State :=
  if s.asstStalled then s.modSbus (fun b => { b with reqs := (b.reqs ++ [r]).take 256 })
  else platesSettle (plateAct r s)

/-- The assistants run: a cold start has loaded an image and no power has gone. -/
def State.assistRuns (s : State) : Bool :=
  decide (s.glb.mode = .active) || decide (s.glb.mode = .quiet) || decide (s.glb.mode = .parked)

/-- A write of SBUS_PLT_CMD with GO. -/
def pltCmd (v : Nat) (s : State) : State :=
  if v.testBit 31 ∧ 1 ≤ v / 256 % 16 ∧ v / 256 % 16 ≤ 3 ∧ s.assistRuns then plateReq ⟨v % 16, v / 256 % 16, 2⟩ s else s

def execPltCmdOn (_m : Master) (v : BitVec 32) (s : State) : Host.Outcome State Fault Refusal :=
  .next (pltCmd (putBits 8 4 1 v.toNat) s)

def execPltCmdOut (_m : Master) (v : BitVec 32) (s : State) : Host.Outcome State Fault Refusal :=
  .next (pltCmd (putBits 8 4 2 v.toNat) s)

def execPltCmdAdmit (_m : Master) (v : BitVec 32) (s : State) : Host.Outcome State Fault Refusal :=
  .next (pltCmd (putBits 8 4 3 v.toNat) s)


/-- R325, R335: a write of DOME_PLT_REQ; only the night assistants may write it. -/
def pltReqWrite (m : Master) (v : Nat) (s : State) : State :=
  if m.isAssist then
    let old := s.get F.DOME_PLT_REQ_ON
    platesSettle (seqAll (fun p t =>
      if v.testBit p && !old.testBit p then seqOn p t
      else if !v.testBit p && old.testBit p then seqOff p (channelsOff p t)
      else t) (List.range 16) (setF F.DOME_PLT_REQ_ON v s))
  else s

def execPlatePowerReq (m : Master) (v : BitVec 32) (s : State) : Host.Outcome State Fault Refusal := .next (pltReqWrite m v.toNat s)

/-- PLT_PRSNT#[p] has been asserted for 100 ms; `ident` are the bytes of the plate's identity record. -/
def plateInserted (p : Nat) (ident : List Nat) (s : State) : State :=
  if s.dome.prsnt.testBit p then s
  else
    let s1 := (s.modDome (fun d => { d with prsnt := d.prsnt ||| 2 ^ p })).modSbus (fun b => { b with ident := tset b.ident p ident })
    if s1.assistRuns then capRecompute (fldRecount (platePresent p s1)) else s1

def execPlateInserted (plate : Fin 16) (ident : List Byte) (s : State) : Host.Outcome State Fault Refusal :=
  .next (plateInserted plate.val (ident.map (·.toNat)) s)

/-- R326: PLT_PRSNT#[p] is released. DEDUCED, notes/assumptions/51.md. -/
def plateRemoved (p : Nat) (s : State) : State :=
  if s.dome.prsnt.testBit p then
    let m := s.mgmt p
    let s1 := (plateCut p s).modDome (fun d => { d with prsnt := d.prsnt - 2 ^ p })
    let s2 := (s1.modSbus (fun b => { b with newId := b.newId.filter (· != p), heldOn := b.heldOn.filter (· != p) }))
      |> setReq p false |> when (decide (m = pOnline)) (setCause p 5) |> setMgmt p pAbsent |> setF (F.SBUS_PLT_STATE_HOLD p) 0
      |> setF (F.SBUS_PLT_ID_KNOWN p) 0 |> setF (F.SBUS_PLT_ID_MEDIA_GEN p) 0 |> setF (F.SBUS_PLT_ID_SERIAL_CRC p) 0
    let s3 := plateDead p s2
    let sets := s3.namedSets.filter (fun x => (plateGroups p).contains (setGroup x) && decide (0 < s3.setV x))
    platesSettle (fldRecount (seqAll relocate sets s3))
  else s

def execPlateRemoved (plate : Fin 16) (s : State) : Host.Outcome State Fault Refusal := .next (plateRemoved plate.val s)

/-- R369: 5 ms after it left service, reads in flight are poisoned, programs are reset, and the plate goes OFFLINE.
DEDUCED, notes/assumptions/51.md. -/
def drainTimeout (p : Nat) (s : State) : State :=
  if s.mgmt p = pDraining then
    let rs := s.med.reads.filter (fun q => onPlate p q.pfa && q.mode != .rebuild)
    let s1 := seqAll (fun q t => failRead q 0 t) rs s
    let s2 := s1.modMed (fun m => { m with planes := m.planes.filter (fun e => e.1 / 64 != p) })
    platesSettle (plateOffline p (settle (resetPrograms p s2)))
  else s

def execPlateDrainTimeout (plate : Fin 16) (s : State) : Host.Outcome State Fault Refusal := .next (drainTimeout plate.val s)

/-- R368: the plate sensor has stood at or above HOT_C for 10 s. -/
def plateHot (p temp : Nat) (s : State) : State :=
  let s1 := setF (F.SBUS_PLT_STATE_TEMP p) temp s
  if s1.mgmt p = pOnline ∧ s1.get F.SBUS_PLT_CFG_HOT_C ≤ temp then platesSettle (plateDrain p 6 s1) else s1

def execPlateHot (plate : Fin 16) (temp : BitVec 8) (s : State) : Host.Outcome State Fault Refusal := .next (plateHot plate.val temp.toNat s)

/-- R369: a disagreement has lasted 5 ms. -/
def plateDisagree (p : Nat) (s : State) : State :=
  if s.disagrees p ∧ !s.sbus.flagged.contains p then
    (s.modSbus (fun b => { b with flagged := p :: b.flagged })) |> setF (F.SBUS_PLT_STATE_DISAGREE p) 1
      |> setErr F.SBUS_ERR_STATUS_PLT_DISAGREE intSbus |> logPut sevError 0x1202 p (s.mgmt p) (s.dataView p) 0
  else s

def execPlateDisagree (plate : Fin 16) (s : State) : Host.Outcome State Fault Refusal := .next (plateDisagree plate.val s)

end Sys2Proof.Machine
end

