-- ==== Sys2Proof/Machine/Channels.lean ====
section
/-! DEFINITION. Media channels and dies as they come and go: ends of fabric commands, lost dies, training, sleep, the live
reload of a channel (04_media_channels.md R87, R88, R99, R105 to R107; 06_field_management.md R136; 07_durability.md R168). -/

namespace Sys2Proof.Machine

/-! ### Dies that fail (R88, R105; 06_field_management.md R136) -/

/-- The field numbers of a die. -/
def dieFields (c d : Nat) : List Nat :=
  (List.range 4).flatMap (fun p => (List.range 8192).map (fun f => pfaFieldNo (mkPfa c d p f 0)))

/-- What the loss of a field's die does to the rest of its set, which stood in state `st`. DEDUCED, notes/assumptions/53.md. -/
def setDieLost (set st : Nat) (s : State) : State :=
  if st = fOpen then closeEarly set true s
  else if 0 < s.setV set then relocate set s
  else if st = fFree ∨ s.isSystem set then retireSet set s
  else eraseCheck set s

/-- A field of a lost or failed die goes BAD. DEDUCED, notes/assumptions/53.md. -/
def fieldDieLost (fno : Nat) (s : State) : State :=
  let st := (s.frec fno).st
  if st = fFree ∨ st = fOpen ∨ st = fClosed ∨ st = fVerified then
    s |> fieldTo fno (fun r => { r with st := fBad, cause := causeDie, erasePend := false }) |> setDieLost (fieldSet fno) st
      |> eraseSetCheck (fieldSet fno)
  else s

/-- Every field of a die. Before replay the field table is not there yet; replay looks at the dies itself. -/
def dieFieldsBad (c d : Nat) (s : State) : State :=
  if s.start.replayed then fldRecount (seqAll fieldDieLost (dieFields c d) s) else s

/-- Every field of a die that has failed in this start. DEDUCED, notes/assumptions/53.md. -/
def failedDiesBad (s : State) : State :=
  seqAll (fun n t =>
    if t.on (F.MCH_DIE_STATUS_FAILED (n / 8) (n % 8)) && decide (2 ≤ t.get (F.MCH_STATUS_STATE (n / 8))) then dieFieldsBad (n / 8) (n % 8) t
    else t) (List.range 256) s

/-- A die is FAILED. -/
def dieFail (c d : Nat) (s : State) : State :=
  let ok := s.get (F.MCH_STATUS_DIE_OK c)
  s |> setF (F.MCH_DIE_STATUS_FAILED c d) 1 |> setF (F.MCH_STATUS_DIE_OK c) ((ok ||| 2 ^ d) - 2 ^ d)

/-- What the die ran ends: a row it programmed is unreadable, and a journal row it carried is sealed again (R168); reads go on
by rebuild. -/
def dieGoneWork (c d : Nat) (s : State) : State :=
  let rows := match (s.die (dieNo c d)).op with | .program _ rs => rs | _ => []
  let held := (s.die (dieNo c d)).hold
  let s1 := dropLatches (dieNo c d) (dieIdle c d s)
  let s2 := reseal (fun p => rows.any (fun x => x.1 == p)) (if held then s1
    else seqAll (fun (x : Nat × MRow) u => u.modMed (fun m => { m with rows := tset m.rows x.1 { x.2 with kind := .bad } })) rows s1)
  let here (a : Nat) : Bool := pfaCh a == c && pfaDie a == d
  let moved := s2.drift.meas.filter (fun m => here (setPfa m.set m.member 0))
  seqAll (fun (m : Meas) t => measOwnStart m.set m.sweep (measRemove m.set t)) moved (orphanReads here s2)

/-- The channel is FAILED: it takes no commands. -/
def chanFail (c : Nat) (s : State) : State :=
  orphanReads (fun a => pfaCh a == c) (pllStop c (chBufferDrop c (setF (F.MCH_STATUS_STATE c) 8 s)))

/-- The last die of an ONLINE or SLEEP channel that is not FAILED has gone: the channel is FAILED (R105). -/
def chanCheck (c : Nat) (s : State) : State :=
  let st := s.get (F.MCH_STATUS_STATE c)
  if (st = chOnline ∨ st = chSleep) ∧ (List.range 8).all (fun k => s.on (F.MCH_DIE_STATUS_FAILED c k)) then chanFail c s else s

/-- A die goes out of service: what it ran ends, its fields go BAD. -/
def dieOutNow (c d : Nat) (s : State) : State := s |> dieFail c d |> dieGoneWork c d |> dieFieldsBad c d |> chanCheck c

/-- R105: a present die stops answering. -/
def dieLost (c d : Nat) (s : State) : State :=
  let st := s.get (F.MCH_STATUS_STATE c)
  if 2 ≤ st ∧ st < 8 ∧ !s.on (F.MCH_DIE_STATUS_FAILED c d) then
    settle (capRecompute (dieOutNow c d (setErr (F.MCH_ERR_STATUS_DIE_LOST c) intMch s)))
  else s

/-! ### Training (R88, R105) -/

/-- The training steps that a die has passed, as a mask (R88). -/
def modPhy (c d v : Nat) (s : State) : State := s.modMed (fun m => { m with phy := tput 0 m.phy (dieNo c d) v })

/-- The eight groups with a member on a channel. -/
def chanGroups (c : Nat) : List Nat := (List.range 8).map (fun d => groupOf c d)

/-- R105: a channel ends TRAINING. `present` are the dies that answered IDENT, `pass` those that passed every step; a die that a
TRAIN command has failed stays FAILED. -/
def trainingDone (c present pass : Nat) (s : State) : State :=
  if s.get (F.MCH_STATUS_STATE c) = 1 then
    let good (d : Nat) : Bool := present.testBit d && pass.testBit d && !s.on (F.MCH_DIE_STATUS_FAILED c d)
    let s1 := seqAll (fun d t =>
        t |> setB (F.MCH_DIE_STATUS_PRESENT c d) (present.testBit d) |> setB (F.MCH_DIE_STATUS_FAILED c d) (!good d)) (List.range 8) s
    let ok := (List.range 8).foldl (fun a d => if good d then a + 2 ^ d else a) 0
    let s2 := (s1.modMed (fun m => { m with training := terase m.training c })) |> setF (F.MCH_STATUS_DIE_OK c) ok
      |> setF (F.MCH_STATUS_STATE c) (if ok = 0 then 8 else 2)
      |> when (decide (ok ≠ 255)) (setErr (F.MCH_ERR_STATUS_TRAIN_FAIL c) intMch)
    let s3 := seqAll (fun d t => modPhy c d (if good d then 62 else 0) t) (List.range 8) s2
    let s4 := seqAll (fun d t => if good d then t else dieFieldsBad c d t) (List.range 8) s3
    settle (capRecompute (sweepStart (fun x => ok != 0 && (chanGroups c).contains (setGroup x)) s4))
  else s

/-! ### Ends of fabric commands (R87) -/

/-- R93, R87: a PROGRAM returns; `fails` are the planes with PROG_FAIL. -/
def programComplete (c d : Nat) (fails : List Nat) (s : State) : State :=
  if s.dieSuspended c d then s
  else
    match (s.die (dieNo c d)).op with
    | .program _ _ => settle (programEnd c d fails (fabricOut c d 4 (if fails = [] then 0 else 3) s))
    | _ => s

/-- A TRAIN step ends: the dies in service have passed it, but for `bad` (R88). -/
def stepPassed (c step : Nat) (bad : Option Nat) (s : State) : State :=
  seqAll (fun d t => if some d = bad ∨ s.on (F.MCH_DIE_STATUS_FAILED c d) then t
    else modPhy c d (tgetD 0 s.med.phy (dieNo c d) ||| 2 ^ step) t) (List.range 8) s

/-- R87: IDENT (0), RESET_DIE (1) or TRAIN (2) completes; `ok`: the die answered, or the channel passed the step; otherwise die d did
not: an IDENT exceeds its time and RESET_DIE goes to the die, a TRAIN leaves the die FAILED (R88). -/
def dieCmdDone (c d op : Nat) (ok : Bool) (s : State) : State :=
  let x := (s.die (dieNo c d)).op
  if op = 0 ∧ x = .ident then
    let s1 := modDie (dieNo c d) (fun _ => DieSt.reset) s
    if ok then fabricOut c d 8 0 (setF (F.MCH_DIE_STATUS_PRESENT c d) 1 s1)
    else modDie (dieNo c d) (fun _ => { DieSt.reset with op := .resetDie }) (fabricOut c d 8 2 (setErr (F.MCH_ERR_STATUS_TIMEOUT c) intMch s1))
  else if op = 1 ∧ x = .resetDie then fabricOut c d 9 0 (modDie (dieNo c d) (fun _ => DieSt.reset) s)
  else if op = 2 then
    match tget s.med.training c with
    | some step =>
      let s1 := stepPassed c step (if ok then none else some d) (s.modMed (fun m => { m with training := terase m.training c }))
      if ok then fabricOut c d 10 0 s1
      else settle (capRecompute (dieOutNow c d (fabricOut c d 10 5 (setErr (F.MCH_ERR_STATUS_TRAIN_FAIL c) intMch s1))))
    | none => s
  else s

/-- Every leaf of a row fails to decode. -/
def allUncorrectable : List (Nat × LeafOut) := (List.range 65).map (fun j => (j, .uncorrectable))

/-- R87: the command on a plane, or the die's own, exceeds its time: it counts as failed, and RESET_DIE goes to the die. -/
def fabricTimeout (c d : Nat) (plane : Option Nat) (ns : Nat) (s : State) : State :=
  let n := dieNo c d
  let out (op : Nat) (t : State) : State :=
    modDie n (fun _ => { DieSt.reset with op := .resetDie })
      (abortDie c d (fabricOut c d op 2 (setErr (F.MCH_ERR_STATUS_TIMEOUT c) intMch t)))
  match plane with
  | some p =>
    match tget s.med.planes (planeNo c d p) with
    | some (.read _ _ _ l) => settle (out (if l then 2 else 1) (readComplete (planeNo c d p) allUncorrectable ns s))
    | some (.star _ _ _) => settle (out 3 (starComplete (planeNo c d p) 2 0 0 s))
    | none => s
  | none =>
    if s.dieSuspended c d then s
    else
      match (s.die n).op with
      | .program _ _ => settle (out 4 (programEnd c d [0, 1, 2, 3] s))
      | .erase _ _ => settle (out 5 (eraseDone c d [0, 1, 2, 3] s))
      | .ident => out 8 s
      | _ => s

/-! ### Sleep and utilisation (R99, R105) -/

/-- R105: an ONLINE channel has been idle for SLEEP_US in QUIET; its leaf buffer is invalidated (R101). -/
def channelSleep (c : Nat) (s : State) : State :=
  if s.get (F.MCH_STATUS_STATE c) = chOnline ∧ s.glb.mode = .quiet ∧ !s.med.planes.any (fun e => e.1 / 32 == c) ∧
      !s.med.dies.any (fun e => e.1 / 8 == c && e.2.op != .none) then
    chBufferDrop c (setF (F.MCH_STATUS_STATE c) chSleep s)
  else s

def execChannelSleep (c : Fin 32) (s : State) : Host.Outcome State Fault Refusal := .next (channelSleep c.val s)

/-- The device leaves QUIET: sleeping channels wake. -/
def wakeAll (s : State) : State := seqAll wakeCh (List.range 32) s

/-- R99: a window of 1 ms ends: its occupation in 0.1 % units, and the bus cycles occupied. -/
def utilWindow (c permille cycles : Nat) (s : State) : State :=
  s |> setF (F.MCH_UTIL_LAST c) permille |> setF (F.MCH_UTIL_PEAK c) (max permille (s.get (F.MCH_UTIL_PEAK c))) |> cnt (bMCH c) 15 cycles

def execUtilWindow (c : Fin 32) (permille : Fin 1001) (cycles : BitVec 32) (s : State) : Host.Outcome State Fault Refusal :=
  .next (utilWindow c.val permille.val cycles.toNat s)

/-! ### Segments and live reload (R105 to R107; 12_voxsicel_image.md R294, R306, R307) -/

/-- The CHAN body that covers a channel. -/
def Image.segOf (i : Image) (c : Nat) : Option ChanSeg := (i.chan.find? (fun p => p.1.testBit c)).map (·.2)

/-- The populated channels of an image. -/
def Image.popChans (i : Image) : List Nat := (List.range 32).filter (fun c => i.chans.testBit c)

/-- Does a unit run another segment than the running image's? -/
def State.mixed (s : State) : Bool :=
  match s.img.run with
  | none => false
  | some i =>
    i.popChans.any (fun c => tget s.img.segs c != i.segOf c) || s.img.dome != some i.dome || s.img.reg != some i.reg ||
      s.img.asstA.any (· != i.asstA) || s.img.asstB.any (· != i.asstB)

def mixedShow (s : State) : State := setB F.IMG_STATUS_MIXED s.mixed s

/-- A reload ends with a RESULT. DEDUCED, notes/assumptions/49.md. -/
def reloadEnd (res : Nat) (s : State) : State :=
  match s.img.reload with
  | none => s
  | some r =>
    (s.modImg (fun i => { i with reload := none })) |> setB F.IMG_RELOAD_STATUS_BUSY s.img.act.isSome
      |> setF F.IMG_RELOAD_STATUS_RESULT res |> setF F.IMG_RELOAD_STATUS_TIME_US (min (2 ^ 24 - 1) ((s.now - r.started) / 1000)) |> mixedShow

/-- A channel runs a segment: DRIFT_TBLc, MCHc_SCHED_CFG, MCHc_FABRIC_ID. -/
def applySeg (c : Nat) (g : ChanSeg) (s : State) : State :=
  let s1 := seqAll (fun w t => setF (F.DRIFT_TBL c w) (leNum ((g.table.drop (4 * w)).take 4)) t) (List.range 60)
    (s.modImg (fun i => { i with segs := tset i.segs c g }))
  s1 |> recPut ⟨0x100010 + c * 0x10000, 4, g.cfg⟩ |> setF (F.MCH_FABRIC_ID_SEG_VER c) g.ver |> setF (F.MCH_FABRIC_ID_MEDIA_GEN c) g.gen

/-- The dies of those groups. -/
def groupDies (c : Nat) : List Nat :=
  (chanGroups c).flatMap (fun g => (List.range 8).map (fun k => dieNo (memberCh g k) (memberDie g)))

/-- Steps 1 and 2 of R106: QUIESCE; erases in the eight groups are reset and wait for another. -/
def quiesceStart (c : Nat) (g : ChanSeg) (s : State) : State :=
  let s1 := (s.modImg (fun i => { i with
      nextSegs := tset i.nextSegs c g
      oldSegs := match tget i.segs c with | some o => tset i.oldSegs c o | none => i.oldSegs }))
    |> setF (F.MCH_STATUS_STATE c) 4 |> setF (F.MCH_STATUS_ROLLBACK c) 0 |> setF (F.MCH_RECONF_BUSY c) 1
  let erasing := (groupDies c).filter (fun n => match (s1.die n).op with | .erase _ _ => true | _ => false)
  settle (capRecompute (measShift (fun m => !s1.probing m && decide (memberCh (setGroup m.set) m.member = c))
    (seqAll (fun n t => dieIdle (n / 8) (n % 8) t) erasing s1)))

/-- Steps 3 and 4: programs of the groups and reads on the channel have ended; reads of its data are rebuilt from now on. -/
def quiesceDone (c : Nat) (s : State) : State :=
  let prog := (groupDies c).any (fun n => match (s.die n).op with | .program _ _ => true | _ => false)
  if s.get (F.MCH_STATUS_STATE c) = 4 ∧ !prog ∧ !s.med.planes.any (fun e => e.1 / 32 == c) then
    (s.modMed (fun m => { m with quiesced := tset m.quiesced c s.now })) |> setF (F.MCH_STATUS_STATE c) 5 |> chBufferDrop c
      |> orphanReads (fun a => pfaCh a == c)
  else s

/-- A failure in RELOAD, RETRAIN or CHECK: the previous segment is loaded, or the channel is FAILED; either is a reload that
failed (R108). DEDUCED, notes/assumptions/50.md. -/
def reloadFail (c : Nat) (s : State) : State :=
  if !s.on (F.MCH_STATUS_ROLLBACK c) ∧ (tget s.img.oldSegs c).isSome then
    s |> setF (F.MCH_STATUS_STATE c) 5 |> setF (F.MCH_STATUS_ROLLBACK c) 1 |> setErr (F.MCH_ERR_STATUS_RELOAD_FAIL c) intMch
  else
    s |> setF (F.MCH_RECONF_RESULT c) 3 |> setF (F.MCH_RECONF_BUSY c) 0 |> setErr (F.MCH_ERR_STATUS_RELOAD_FAIL c) intMch
      |> logOpen (bMCH c) c 0 |> chanFail c |> reloadEnd 3 |> capRecompute |> settle

/-- The segment to load: the staged one, or the previous one. -/
def State.loadingSeg (s : State) (c : Nat) : Option ChanSeg :=
  if s.on (F.MCH_STATUS_ROLLBACK c) then tget s.img.oldSegs c else tget s.img.nextSegs c

/-- R105: the segment is in the fabric memory; `ok` tells whether it could be written. -/
def segmentLoaded (c : Nat) (ok : Bool) (s : State) : State :=
  if s.get (F.MCH_STATUS_STATE c) = 5 then
    match ok, s.loadingSeg c with
    | true, some g => setF (F.MCH_STATUS_STATE c) 6 (seqAll (fun d t => modPhy c d 0 t) (List.range 8) (applySeg c g s))
    | _, _ => reloadFail c s
  else s

/-- R105: retraining ends: dies that a TRAIN failed are FAILED, and without a die that passed it fails. -/
def retrainDone (c : Nat) (ok : Bool) (s : State) : State :=
  if s.get (F.MCH_STATUS_STATE c) = 6 then 
    (if ok && (List.range 8).any (fun d => !s.on (F.MCH_DIE_STATUS_FAILED c d)) then setF (F.MCH_STATUS_STATE c) 7 s else reloadFail c s) else s

/-- R105: CHECK ends: every present die passes, or not. -/
def checkDone (c : Nat) (ok : Bool) (s : State) : State :=
  if s.get (F.MCH_STATUS_STATE c) = 7 then
    if ok then
      let rb := s.on (F.MCH_STATUS_ROLLBACK c)
      s |> setF (F.MCH_STATUS_STATE c) chOnline |> setF (F.MCH_RECONF_BUSY c) 0 |> setF (F.MCH_RECONF_RESULT c) (if rb then 2 else 1)
        |> setF (F.MCH_RECONF_LAST_US c) (min (2 ^ 24 - 1) ((s.now - tgetD s.now s.med.quiesced c) / 1000))
        |> reloadEnd (if rb then 2 else 1) |> capRecompute |> settle
    else reloadFail c s
  else s

end Sys2Proof.Machine
end

