-- ==== Sys2Proof/Machine/Layout.lean ====
section
/-! DEFINITION. The bytes of what the model holds as data: journal records and rows, row headers and leaves, hold slots, the tables in
working memory (00_scope.md R2; 04_media_channels.md R83, R89, R90; 05_drift_and_references.md R126; 06_field_management.md R134, R139;
07_durability.md R165 to R167, R173; 09_cipher_and_meridian.md R215, R235, R236). -/

namespace Sys2Proof.Machine

/-! ### Ciphertext (09_cipher_and_meridian.md R215; 07_durability.md R167) -/

/-- Bytes encrypted as one data unit under the key with a number. -/
def encrypt (key tweak : Nat) (l : List Nat) : List Nat :=
  numBytes l.length (Config.xts key (BitVec.ofNat 128 tweak) (BitVec.ofNat (8 * l.length) (leNum l))).toNat

/-- The tweak of the leaf whose first byte has this address in its LD. -/
def leafTweak (ld dpa : Nat) : Nat := 2 ^ 59 + ld * 2 ^ 60 + dpa / 256

/-- The tweak of a journal record's payload. -/
def recTweak (r : JRec) : Nat := r.aseq * 2 ^ 64 + r.ld * 2 ^ 60 + r.addr

/-- A line as its 64 bytes. -/
def oneLine (l : Line) : List Nat := numBytes 64 l.toNat

/-- Bytes filled up with zeros. -/
def padTo (n : Nat) (l : List Nat) : List Nat := (l ++ List.replicate n 0).take n

/-! ### Journal records and rows (07_durability.md R165, R166) -/

/-- The 16 B head of a record. -/
def JRec.head (r : JRec) : List Nat := numBytes 8 (r.typ * 2 ^ 60 + r.ld * 2 ^ 56 + r.kid * 2 ^ 44 + r.addr) ++ numBytes 8 r.aseq

/-- The payload of a record; line data are encrypted. -/
def JRec.payload (r : JRec) : List Nat :=
  let d (i : Nat) : Nat := r.data.getD i 0
  match r.typ with
  | 1 => encrypt r.key (recTweak r) (numBytes 64 (d 0))
  | 2 => encrypt r.key (recTweak r) (numBytes 8 (d 0) ++ numBytes 64 (d 1))
  | 3 => encrypt r.key (recTweak r) (numBytes 64 (d 0))
  | 4 => encrypt r.key (recTweak r) ((List.range 8).flatMap (fun i => numBytes 64 (d i)))
  | 5 => numBytes 8 (d 0) ++ numBytes 8 (d 1)
  | 6 => numBytes 8 (d 0) ++ numBytes 8 (d 1) ++ numBytes 8 (d 2)
  | 7 => numBytes 16 (d 0)
  | 8 => numBytes 8 (d 0)
  | 9 => numBytes 8 (d 0) ++ padTo ((d 0 + 7) / 8 * 8) (r.data.drop 1)
  | 10 => [d 0, d 1] ++ numBytes 2 (d 2) ++ numBytes 4 (d 3) ++ numBytes 8 0
  | 11 => numBytes 16 (Config.ldcfgPayload r.data).toNat
  | _ => []

def JRec.bytes (r : JRec) : List Nat := r.head ++ r.payload

/-- The journal row header in the data part of leaf 0. -/
def JRow.header (w : JRow) : List Nat :=
  padTo 256 ([0x01, 0x0A, 0x01, w.drain.toNat + 2 * w.drainEnd.toNat + 4 * w.parkEnd.toNat] ++ numBytes 4 w.epoch ++ numBytes 6 w.jseq ++
    numBytes 2 (recBytes w.recs) ++ numBytes 6 w.committed)

/-- The data part of leaf `j` of a journal row: the header, or its stretch of the records; what follows them reads as END. -/
def JRow.leafData (w : JRow) (j : Nat) : List Nat :=
  if j = 0 then w.header else padTo 256 (((w.recs.flatMap JRec.bytes).drop (256 * (j - 1))).take 256)

/-! ### Rows of the media (04_media_channels.md R83, R90; 07_durability.md R173) -/

/-- The header leaf of a 4-bit data row; a filler member's owner fields are 0. -/
def MRow.header (r : MRow) : List Nat :=
  let fill := decide (r.kind = .filler)
  let v (n : Nat) : Nat := if fill then 0 else n
  padTo 256 ([0x01, 0x0D, 0x01, r.copy.toNat + 2 * r.zero.toNat + 4 * r.run.toNat + 8 * fill.toNat, v r.ld, 0] ++ numBytes 2 (v r.kid) ++
    numBytes 8 (v r.seq) ++ numBytes 8 (v r.folio) ++ [v r.frame, 0, 0, 0] ++ numBytes 4 r.eraseCnt ++ numBytes 32 (v r.lmask) ++
    numBytes 8 r.openSeq ++ numBytes 8 r.src)

/-- The data part of a leaf as the media holds it: ciphertext but for header leaves, filler members and system rows. A star row has no
leaves, and a parity row's are the XOR of its members'. -/
def MRow.leafData (r : MRow) (leaf : Nat) : List Nat :=
  let plain := (List.range 4).flatMap (fun i => oneLine (tgetD 0 r.lines (4 * leaf + i)))
  match r.kind with
  | .data => if leaf = 64 then r.header else encrypt r.key (leafTweak r.ld (dpaOf r.folio r.frame (4 * leaf))) plain
  | .filler => if leaf = 64 then r.header else List.replicate 256 0
  | .journal => (match r.jrow with | some w => w.leafData leaf | none => List.replicate 256 0)
  | .system => plain
  | .star | .parity | .bad => []

/-- The 258 B message of a leaf of a row: of a parity member, the XOR of the same leaf's messages on the seven others (R90). -/
def State.leafMsg (s : State) (pfa leaf : Nat) : List Nat :=
  let own (a : Nat) : List Nat := match s.row a with | some r => leafMessage (r.leafData leaf) | none => List.replicate 258 0
  if (s.row pfa).any (fun r => r.kind == .parity) then
    xorBytes 258 ((((List.range 8).map (fun k => setPfa (setOf pfa) k (pfaRow pfa))).filter (· != pfa)).map own)
  else own pfa

/-- The 288 B of a leaf on media (R89). -/
def State.leafOnMedia (s : State) (pfa leaf : Nat) : List Nat := leafCodeword (s.leafMsg pfa leaf)

/-- An accumulator of held parity (06_field_management.md R139): the XOR of a leaf's messages over the completed rows of a set's member. -/
def State.heldMsg (s : State) (set member leaf : Nat) : List Nat :=
  let rows := s.med.rows.filter (fun e => decide (pfaFieldNo e.1 = setFieldNo set member) && decide (2 ≤ pfaRow e.1) && e.2.kind != .bad)
  xorBytes 258 (rows.map (fun e => s.leafMsg e.1 leaf))

/-! ### Tables and windows in working memory -/

/-- Byte `i` of a number. -/
def byteAt (v i : Nat) : Nat := v / 2 ^ (8 * i) % 256

/-- The byte at an address of a region that the model holds in fields of its own, where the rules say what stands there: the staging
window, the field table, the seeing table, the hold slots in use, the counter lines of the Meridian and the tags of data lines. What the
rules do not lay out, or what nothing has written, is none. DESIGN CHOICE, notes/assumptions/48.md. -/
def State.structByte (s : State) (a : Nat) : Option Nat :=
  let stage := s.get F.COAL_STAGE_BASE * 2 ^ 14
  let tbl := s.get F.FLD_TBL_BASE * 2 ^ 20
  let see := s.get F.DRIFT_SEE_BASE * 2 ^ 20
  let hold := s.get F.FLD_HOLD_BASE * 2 ^ 20
  let md := s.get F.MERID_META_BASE * 2 ^ 18
  if stage ≤ a ∧ a < stage + s.get F.COAL_STAGE_CFG_FRAMES * 16384 then
    (tget s.coal.frames ((a - stage) / 16384)).map (fun f => byteAt (tgetD 0 f.lines ((a - stage) % 16384 / 64)).toNat (a % 64))
  else if tbl ≤ a ∧ a < tbl + 2 ^ 27 then some (byteAt (s.frec ((a - tbl) / 16)).word ((a - tbl) % 16))
  else if see ≤ a ∧ a < see + 2 ^ 26 then some (byteAt (tgetD See.reset s.drift.see ((a - see) / 8)).word ((a - see) % 8))
  else if hold ≤ a ∧ a < hold + s.get F.FLD_BUF_CFG_HOLD_SLOTS * 163840 then
    let o := (a - hold) % 163840
    match s.fld.holds.find? (fun p => p.2 == (a - hold) / 163840) with
    | some p => if o < 8 * accBytes then some ((s.heldMsg p.1 (o / accBytes) (o % accBytes / 258)).getD (o % accBytes % 258) 0) else none
    | none => none
  else if md ≤ a ∧ (a - md) / 64 < s.tagAt then
    (s.metaCtr ((a - md) / 64)).map (fun c => byteAt (s.ctrBits c.1 c.2).toNat (a % 64))
  else if md ≤ a ∧ (a - md) / 64 < s.ctagAt then
    some (byteAt (s.lineTag (s.get F.MERID_BASE * 2 ^ 24 + ((a - md) / 64 - s.tagAt) * 8 + (a - md) % 64 / 8)) (a % 8))
  else none

/-- `n` bytes of a number replaced, from byte `i` on. -/
def overBytes (v i n w : Nat) : Nat := v - v / 2 ^ (8 * i) % 2 ^ (8 * n) * 2 ^ (8 * i) + w % 2 ^ (8 * n) * 2 ^ (8 * i)

/-- A write of `n` bytes into such a region: the staging window, the field table and the seeing table take it. DESIGN CHOICE,
notes/assumptions/48.md. -/
def structWrite (a n v : Nat) (s : State) : State :=
  let stage := s.get F.COAL_STAGE_BASE * 2 ^ 14
  let tbl := s.get F.FLD_TBL_BASE * 2 ^ 20
  let see := s.get F.DRIFT_SEE_BASE * 2 ^ 20
  if stage ≤ a ∧ a < stage + s.get F.COAL_STAGE_CFG_FRAMES * 16384 then
    let t := (a - stage) / 16384
    match tget s.coal.frames t with
    | some f =>
      let i := (a - stage) % 16384 / 64
      let l := BitVec.ofNat 512 (overBytes (tgetD 0 f.lines i).toNat (a % 64) n v)
      wmWriteBytes a n v (putFrame t { f with lines := tput 0 f.lines i l } s)
    | none => wmWriteBytes a n v s
  else if tbl ≤ a ∧ a < tbl + 2 ^ 27 then
    let f := (a - tbl) / 16
    putFrec f (FRec.ofWord (overBytes (s.frec f).word ((a - tbl) % 16) n v)) s
  else if see ≤ a ∧ a < see + 2 ^ 26 then
    let f := (a - see) / 8
    seeStore f (See.ofWord (overBytes (tgetD See.reset s.drift.see f).word ((a - see) % 8) n v)) s
  else s

end Sys2Proof.Machine
end

