-- ==== Sys2Proof/Machine/Sha.lean ====
section
/-! DEFINITION. SHA-256 and SHA-384 as FIPS 180-4 gives them (10_transit_rings.md R258). A digest is a number whose most
significant byte is the first. -/

namespace Sys2Proof.Machine

/-- The first 80 prime numbers: each below 410, and a prime is divided by no number from 2 to 20 but itself. -/
def shaPrimes : List Nat := (List.range 410).filter (fun n => 2 ≤ n && (List.range 21).all (fun d => d < 2 || d = n || n % d ≠ 0))

/-- The whole part of the `k`-th root of `x`, found bit by bit from bit `n - 1` downwards; `r` is what is found so far. -/
def shaRoot (k x : Nat) : Nat → Nat → Nat
  | 0, r => r
  | n + 1, r => shaRoot k x n (if (r + 2 ^ n) ^ k ≤ x then r + 2 ^ n else r)

/-- The first 64 bits of the fractional part of the `k`-th root of `p`. -/
def shaFrac (k p : Nat) : Nat := shaRoot k (p * 2 ^ (64 * k)) 70 0 % 2 ^ 64

/-- The round constants of SHA-384: of the cube roots of the first 80 primes. -/
def shaKL : List (BitVec 64) := shaPrimes.map (fun p => BitVec.ofNat 64 (shaFrac 3 p))

/-- The round constants of SHA-256: the first 32 bits of the same roots, of the first 64 primes. -/
def shaKS : List (BitVec 32) := (shaKL.take 64).map (·.extractLsb' 32 32)

/-- The initial values of SHA-256: 32 bits of the square roots of the first eight primes. -/
def shaHS : List (BitVec 32) := (shaPrimes.take 8).map (fun p => BitVec.ofNat 32 (shaFrac 2 p / 2 ^ 32))

/-- The initial values of SHA-384: 64 bits of the square roots of the ninth to sixteenth primes. -/
def shaHL : List (BitVec 64) := ((shaPrimes.drop 8).take 8).map (fun p => BitVec.ofNat 64 (shaFrac 2 p))

/-- The parameters of a SHA-2 function: rotations and shifts of the two schedule functions and the two round functions. -/
structure ShaPar (w : Nat) where
  s0 : Nat × Nat × Nat
  s1 : Nat × Nat × Nat
  b0 : Nat × Nat × Nat
  b1 : Nat × Nat × Nat

def shaParS : ShaPar 32 := ⟨(7, 18, 3), (17, 19, 10), (2, 13, 22), (6, 11, 25)⟩
def shaParL : ShaPar 64 := ⟨(1, 8, 7), (19, 61, 6), (28, 34, 39), (14, 18, 41)⟩

def shaSmall {w : Nat} (p : Nat × Nat × Nat) (x : BitVec w) : BitVec w := x.rotateRight p.1 ^^^ x.rotateRight p.2.1 ^^^ (x >>> p.2.2)
def shaBig {w : Nat} (p : Nat × Nat × Nat) (x : BitVec w) : BitVec w := x.rotateRight p.1 ^^^ x.rotateRight p.2.1 ^^^ x.rotateRight p.2.2

/-- One more word of the schedule; `l` holds the last 16 words, oldest first. -/
def shaNext {w : Nat} (p : ShaPar w) (l : List (BitVec w)) : BitVec w :=
  shaSmall p.s1 (l.getD 14 0) + l.getD 9 0 + shaSmall p.s0 (l.getD 1 0) + l.getD 0 0

/-- The rounds of one block: `win` is the schedule's window, `v` the eight working words. -/
def shaRounds {w : Nat} (p : ShaPar w) : List (BitVec w) → List (BitVec w) → List (BitVec w) → List (BitVec w)
  | [], _, v => v
  | k :: ks, win, v =>
    let a := v.getD 0 0
    let b := v.getD 1 0
    let c := v.getD 2 0
    let e := v.getD 4 0
    let f := v.getD 5 0
    let g := v.getD 6 0
    let t1 := v.getD 7 0 + shaBig p.b1 e + ((e &&& f) ^^^ (~~~e &&& g)) + k + win.getD 0 0
    let t2 := shaBig p.b0 a + ((a &&& b) ^^^ (a &&& c) ^^^ (b &&& c))
    shaRounds p ks (win.drop 1 ++ [shaNext p win]) [t1 + t2, a, b, c, v.getD 3 0 + t1, e, f, g]

/-- A big-endian word of bytes. -/
def beNum (l : List Nat) : Nat := l.foldl (fun a b => a * 256 + b) 0

/-- The blocks of a padded message: `n` blocks of 16 words of `nb` bytes each. -/
def shaBlocks {w : Nat} (p : ShaPar w) (ks : List (BitVec w)) (nb : Nat) : Nat → List Nat → List (BitVec w) → List (BitVec w)
  | 0, _, h => h
  | n + 1, msg, h =>
    let win := (List.range 16).map (fun i => BitVec.ofNat w (beNum ((msg.drop (i * nb)).take nb)))
    shaBlocks p ks nb n (msg.drop (16 * nb)) (List.zipWith (· + ·) h (shaRounds p ks win h))

/-- A message with its padding; blocks of `bs` bytes, a length field of `lf` bytes. -/
def shaPad (bs lf : Nat) (msg : List Nat) : List Nat :=
  let n := msg.length
  let z := (bs - (n + 1 + lf) % bs) % bs
  let bits := n * 8
  msg ++ [0x80] ++ List.replicate z 0 ++ (List.range lf).map (fun i => bits / 256 ^ (lf - 1 - i) % 256)

/-- SHA-256 of bytes. DESIGN CHOICE, notes/assumptions/10.md. -/
def sha256 (msg : List Nat) : Nat :=
  let m := shaPad 64 8 msg
  (shaBlocks shaParS shaKS 4 (m.length / 64) m shaHS).foldl (fun a x => a * 2 ^ 32 + x.toNat) 0

/-- SHA-384 of bytes. DESIGN CHOICE, notes/assumptions/10.md. -/
def sha384 (msg : List Nat) : Nat :=
  let m := shaPad 128 16 msg
  ((shaBlocks shaParL shaKL 8 (m.length / 128) m shaHL).take 6).foldl (fun a x => a * 2 ^ 64 + x.toNat) 0

/-- The first `n` bytes of a digest of `len` bytes, in order. -/
def digestBytes (len d : Nat) : List Nat := (List.range len).map (fun i => d / 256 ^ (len - 1 - i) % 256)

end Sys2Proof.Machine
end

