-- ==== Sys2Proof/Machine/Rings.lean ====
section
/-! DEFINITION. Transit rings: pairs, doorbells, fetch, execution unit by unit, completions (10_transit_rings.md R247 to R268).
The KEY commands are in Machine/KeyRun.lean. -/

namespace Sys2Proof.Machine

/-! ### Pairs (R247 to R250) -/

def qDisabled : Nat := 0
def qActive : Nat := 1
def qDraining : Nat := 2
def qError : Nat := 3
def qStopped : Nat := 4

def errCfg : Nat := 1
def errDoorbell : Nat := 2
def errDma : Nat := 3
def errStop : Nat := 4

def State.qSt (s : State) (q : Nat) : Nat := s.get (F.QP_STATUS_STATE q)
def setQ (q st : Nat) (s : State) : State := setF (F.QP_STATUS_STATE q) st s
def State.outstanding (s : State) (q : Nat) : Nat := s.get (F.QP_STATUS_OUTSTANDING q)
def State.sqSize (s : State) (q : Nat) : Nat := 2 ^ s.get (F.QP_CFG_SQ_LOG2 q)
def State.cqSize (s : State) (q : Nat) : Nat := 2 ^ s.get (F.QP_CFG_CQ_LOG2 q)

/-- Completions posted and not yet consumed. -/
def State.unconsumed (s : State) (q : Nat) : Nat :=
  (s.get (F.QP_STATUS_CQ_TAIL q) + s.cqSize q - s.get (F.QP_CQ_HEAD_INDEX q)) % s.cqSize q

/-- The view whose MSI-X table the pair's vector names. -/
def State.pairView (s : State) (q : Nat) : Nat := (s.pairOwner q).getD mgmtView

/-- Send the pair's interrupt: its count and timer start anew (R265). -/
def pairIrq (q : Nat) (s : State) : State :=
  (msixSend (s.pairView q) (s.get (F.QP_CFG_VECTOR q)) s).modRing (fun r => { r with since := terase r.since q })
    |> cnt bRING 5 1

/-- The global pair of a doorbell write; through BAR0 the pairs of LDs are read only, but for LD0's in the single-LD
configuration (R248). -/
def State.bar0Ok (s : State) (q : Nat) : Bool :=
  match s.pairOwner q with
  | some 16 => true
  | some 0 => decide (s.lds = [0])
  | some _ => false
  | none => true

/-- RING_STATUS and the pairs' OUTSTANDING follow the commands. -/
def ringStatus (s : State) : State :=
  s |> setF F.RING_STATUS_IN_FLIGHT s.ring.cmds.length
    |> setF F.RING_STATUS_HASH_BUSY (s.ring.cmds.filter (·.engine)).length

/-- ERROR or STOPPED with EN 0, and DRAINING, end where nothing is outstanding. -/
def pairRest (q : Nat) (s : State) : State :=
  let st := s.qSt q
  if s.outstanding q = 0 ∧ (st = qDraining ∨ ((st = qError ∨ st = qStopped) ∧ !s.on (F.QP_CFG_EN q))) then
    s |> setQ q qDisabled |> setF (F.QP_STATUS_ERR q) 0 |> setF (F.QP_CFG_EN q) 0
  else s

/-- A pair enters ERROR. -/
def pairError (q err : Nat) (s : State) : State :=
  s |> setQ q qError |> setF (F.QP_STATUS_ERR q) err |> setErr F.RING_ERR_STATUS_PAIR_ERROR intRing |> pairIrq q

/-- Every outstanding command of the pairs that `p` picks ends without posting, its seals still queued with it: a balanced reset of each
pair (R267). -/
def dropCmds (p : Nat → Bool) (s : State) : State :=
  let mine := s.ring.cmds.filter (fun c => p c.pair)
  let qs := (mine.map (·.pair)).eraseDups
  let ids := mine.map (·.id)
  let s1 := (s.modRing (fun r =>
    { r with
      cmds := r.cmds.filter (fun c => !p c.pair)
      fetched := r.fetched.filter (fun e => !qs.contains e.1)
      posted := r.posted.filter (fun e => !qs.contains e.1) })).modFld (fun f =>
    { f with sealQ := f.sealQ.filter (fun e => !ids.contains e.1) })
  ringStatus (seqAll (fun q t => balancedReset 3 q (setF (F.QP_STATUS_OUTSTANDING q) 0 t)) qs s1)

/-- A DMA of the pair failed: what is in flight ends without posting. -/
def pairDmaFail (q : Nat) (s : State) : State :=
  let s1 := setErr F.RING_ERR_STATUS_HOST_DMA intRing s
  if s1.qSt q = qActive ∨ s1.qSt q = qDraining then dropCmds (· == q) (pairError q errDma s1) else s1

def execHostDmaFail (pair : Fin 16384) (s : State) : Host.Outcome State Fault Refusal := .next (pairDmaFail pair.val s)

/-- The bytes of a doorbell slot register. -/
def slotOff (q w : Nat) : Nat := 0x400000 + q * 64 + w

/-- The configuration is valid. -/
def State.cfgValid (s : State) (q : Nat) : Bool :=
  let sl := s.get (F.QP_CFG_SQ_LOG2 q)
  let cl := s.get (F.QP_CFG_CQ_LOG2 q)
  let v := s.get (F.QP_CFG_VECTOR q)
  decide (4 ≤ sl) && decide (sl ≤ 12) && decide (4 ≤ cl) && decide (cl ≤ 12) && s.on (F.QP_SQ_BASE_ADDR q) && s.on (F.QP_CQ_BASE_ADDR q) &&
    (match s.pairOwner q with
      | some 16 => decide (3 ≤ v)
      | some _ => decide (2 ≤ v) && decide (v ≤ 127)
      | none => false)

/-- EN := 1 in DISABLED. DESIGN CHOICE, notes/assumptions/40.md. -/
def pairOn (q : Nat) (s : State) : State :=
  if s.cfgValid q then
    (s |> setQ q qActive |> setF (F.QP_STATUS_SQ_HEAD q) 0 |> setF (F.QP_SQ_TAIL_INDEX q) 0 |> setF (F.QP_STATUS_CQ_TAIL q) 0
      |> setF (F.QP_CQ_HEAD_INDEX q) 0 |> setF (F.QP_STATUS_PHASE q) 1 |> setF (F.QP_DONE_CNT_ERRORS q) 0
      |> setF (F.QP_DONE_CNT_COMPLETED q) 0).modRing (fun r =>
        { r with since := terase r.since q, fetched := terase r.fetched q, posted := terase r.posted q })
  else pairError q errCfg s

/-- A write of QP_CFG. -/
def qpCfgWrite (q v : Nat) (s : State) : State :=
  let st := s.qSt q
  if st = qDisabled then
    let s1 := storeAt (slotOff q 0x10) v s
    if s1.on (F.QP_CFG_EN q) then pairOn q s1 else s1
  else if v.testBit 31 then s
  else if st = qActive then pairRest q (setQ q qDraining s)
  else if st = qDraining then s
  else pairRest q (setF (F.QP_CFG_EN q) 0 s)

/-- A write of a slot word of the pair. `bar0`: through the management view. -/
def slotGuard (bar0 : Bool) (q : Nat) (f : State → State) (s : State) : State := if bar0 && !s.bar0Ok q then s else f s

def execPairEnable (bar0 : Bool) (pair : Fin 16384) (v : Word) (s : State) : Host.Outcome State Fault Refusal :=
  .next (slotGuard bar0 pair.val (qpCfgWrite pair.val v.toNat) s)
def execPairDisable (bar0 : Bool) (pair : Fin 16384) (v : Word) (s : State) : Host.Outcome State Fault Refusal :=
  .next (slotGuard bar0 pair.val (qpCfgWrite pair.val v.toNat) s)

/-- A bad doorbell write. DESIGN CHOICE, notes/assumptions/40.md. -/
def badDoorbell (q : Nat) (s : State) : State :=
  if s.qSt q = qActive ∨ s.qSt q = qDraining then pairError q errDoorbell s else s

/-- A write of QP_SQ_TAIL (R251). DESIGN CHOICE, notes/assumptions/40.md. -/
def sqDoorbell (q v : Nat) (s : State) : State :=
  let i := v % 2 ^ 13
  if s.sqSize q ≤ i then badDoorbell q s else setF (F.QP_SQ_TAIL_INDEX q) i s

def execSqDoorbell (bar0 : Bool) (pair : Fin 16384) (v : Word) (s : State) : Host.Outcome State Fault Refusal :=
  .next (slotGuard bar0 pair.val (sqDoorbell pair.val v.toNat) s)

/-- A write of QP_CQ_HEAD (R251). An index at or beyond the CQ size is not a place of the queue and is bad too.
DESIGN CHOICE, notes/assumptions/40.md. -/
def cqDoorbell (q v : Nat) (s : State) : State :=
  let i := v % 2 ^ 13
  let n := s.cqSize q
  let old := s.get (F.QP_CQ_HEAD_INDEX q)
  if n ≤ i ∨ s.unconsumed q < (i + n - old) % n then badDoorbell q s else setF (F.QP_CQ_HEAD_INDEX q) i s

def execCqDoorbell (bar0 : Bool) (pair : Fin 16384) (v : Word) (s : State) : Host.Outcome State Fault Refusal :=
  .next (slotGuard bar0 pair.val (cqDoorbell pair.val v.toNat) s)

/-! ### Allocation of pairs (R247) -/

/-- Every pair of a run is DISABLED. -/
def State.runIdle (s : State) (first count : Nat) : Bool := (List.range count).all (fun i => s.qSt (first + i) == qDisabled)

/-- A write of RING_LDn_ALLOC. -/
def ringAlloc (n v : Nat) (s : State) : State :=
  let first := v % 2 ^ 14
  let count := v / 2 ^ 32 % 2 ^ 15
  let clash := (List.range 17).any (fun m => m != n && decide (0 < count) && decide (0 < s.get (F.RING_LD_ALLOC_COUNT m)) &&
    decide (first < s.get (F.RING_LD_ALLOC_FIRST m) + s.get (F.RING_LD_ALLOC_COUNT m)) &&
    decide (s.get (F.RING_LD_ALLOC_FIRST m) < first + count))
  if 16384 < first + count ∨ clash ∨ !s.runIdle first (min count 16384) ∨
      !s.runIdle (s.get (F.RING_LD_ALLOC_FIRST n)) (s.get (F.RING_LD_ALLOC_COUNT n)) then
    setErr F.RING_ERR_STATUS_ALLOC_BAD intRing s
  else storeAt (0x350100 + 8 * n) v s

def execRingAllocWrite (_m : Master) (n : Fin 17) (v : Word) (s : State) : Host.Outcome State Fault Refusal :=
  .next (ringAlloc n.val v.toNat s)

/-! ### Fetch (R252 to R254, R263) -/

/-- A command that has ended, in the state's list. -/
def modCmd (id : Nat) (f : RCmd → RCmd) (s : State) : State :=
  s.modRing (fun r => { r with cmds := r.cmds.map (fun c => if c.id = id then f c else c) })

/-- A command's status and result are decided; it gives up its SHA-2 engine. -/
def cmdEnd (c : RCmd) (st res : Nat) (s : State) : State :=
  ringStatus (modCmd c.id (fun x => if x.final.isSome then x else { x with final := some (st, res), engine := false, waiting := 0 }) s)

/-- May the pair fetch now, its owner being `o`? -/
def State.mayFetch (s : State) (q o : Nat) : Bool :=
  decide (s.qSt q = qActive) && decide (s.get (F.QP_STATUS_SQ_HEAD q) ≠ s.get (F.QP_SQ_TAIL_INDEX q)) &&
    decide (s.outstanding q + s.unconsumed q < s.cqSize q - 1) &&
    decide ((s.ring.cmds.filter (fun c => s.pairOwner c.pair == some o)).length < s.get (F.RING_LD_ALLOC_MAX_OUT o)) &&
    decide ((s.ring.cmds.filter (fun c => c.pair / 4096 == q / 4096)).length < 4096) && !s.on F.MERID_STATUS_REKEY

/-- The pairs of an owner with a PRIO that may fetch now. -/
def State.fetchable (s : State) (o prio : Nat) : List Nat :=
  ((List.range (s.get (F.RING_LD_ALLOC_COUNT o))).map (s.get (F.RING_LD_ALLOC_FIRST o) + ·)).filter
    (fun p => s.get (F.QP_CFG_PRIO p) == prio && s.mayFetch p o)

/-- Whose turn it is among the pairs of one PRIO (R263): the pair last served, until its turn has fetched WEIGHT + 1 commands; then the
next in order, round robin. -/
def State.turnOf (s : State) (o prio : Nat) : Option Nat :=
  let ps := s.fetchable o prio
  match tget s.ring.turn (4 * o + prio) with
  | none => ps.head?
  | some (p, n) =>
    if ps.contains p && decide (n ≤ s.get (F.QP_CFG_WEIGHT p)) then some p
    else match ps.find? (fun x => decide (p < x)) with
      | some x => some x
      | none => ps.head?

/-- The owner's arbiter serves pair q next: no pair of a higher PRIO may fetch, and it is q's turn (R263). DESIGN CHOICE,
notes/assumptions/16.md. -/
def State.fetchFirst (s : State) (q o : Nat) : Bool :=
  let prio := s.get (F.QP_CFG_PRIO q)
  (List.range prio).all (fun k => s.fetchable o k == []) && s.turnOf o prio == some q

/-- A pair fetches a command of its turn. -/
def turnTake (q o : Nat) (s : State) : State :=
  let k := 4 * o + s.get (F.QP_CFG_PRIO q)
  let n := match tget s.ring.turn k with
    | some (p, n) => if p = q ∧ n ≤ s.get (F.QP_CFG_WEIGHT q) then n + 1 else 1
    | none => 1
  s.modRing (fun r => { r with turn := tset r.turn k (q, n) })

/-- The range of a command lies wholly within its LD's backed capacity. -/
def State.rangeBacked (s : State) (ld a n : Nat) : Bool :=
  (List.range ((a + n - 1) / 2 ^ 28 + 1 - a / 2 ^ 28)).all (fun i => s.backed ld ((a / 2 ^ 28 + i) * 2 ^ 28))

/-- Some byte is not 0. -/
def anyByte (l : List Nat) : Bool := l.any (· != 0)

/-- What an opcode must leave 0, and its alignment: (a field is not 0, an address or length is off). DPAs and lengths of line
ranges are 64 B aligned. -/
def RCmd.shape (c : RCmd) : Bool × Bool :=
  let nz (n : Nat) : Bool := n != 0
  match c.op with
  | 1 => (nz c.opt || anyByte c.param, nz (c.a0 % 64) || nz (c.a1 % 64) || nz (c.len % 64))
  | 2 => (decide (3 ≤ c.opt) || nz c.a1 || anyByte (c.param.drop (8 * 2 ^ (c.opt % 4))), nz (c.a0 % 64) || nz (c.len % 64))
  | 3 => (nz c.opt || nz c.a1 || anyByte c.param, nz (c.a0 % 64) || nz (c.len % 64))
  | 4 => (decide (2 ≤ c.opt) || anyByte c.param, nz (c.a0 % 64) || nz (c.len % 64) || nz (c.a1 % 8))
  | 5 | 6 => (nz c.opt || nz c.a1 || anyByte c.param, nz (c.a0 % 2 ^ 20) || nz (c.len % 2 ^ 20))
  | 7 => (nz c.a0 || nz c.a1 || nz c.len || nz c.opt || anyByte c.param, false)
  | 8 => (decide (4 ≤ c.opt) || nz c.a1 || anyByte c.param, nz (c.a0 % 64) || nz (c.len % 64))
  | 9 => (nz c.a0 || nz c.a1 || nz c.len || nz (c.opt / 2 ^ 12) || nz (c.opt / 32 % 8) || nz (c.param.getD 1 0 / 16) ||
      nz (c.param.getD 3 0 / 16) || anyByte (c.param.drop 4), false)
  | 10 => (nz c.a0 || nz (c.opt / 16) || anyByte c.param, nz (c.a1 % 4096))
  | _ => (nz (c.a0 / 2 ^ 16) || nz c.a1 || nz c.len || nz c.opt || anyByte (c.param.drop 2), false)

/-- An operation not open to its owner: a KEY operation or a TELEMETRY kind (R260, R261). -/
def State.notOpen (s : State) (o : Nat) (c : RCmd) : Bool :=
  if c.op = 9 then
    decide (c.opt % 16 = 0) || decide (6 < c.opt % 16) || (if o = 16 then !s.on F.CIPH_POLICY_FM_ACT else decide (c.opt / 256 % 16 ≠ o))
  else if c.op = 10 then
    decide (c.opt = 0) || decide (5 < c.opt) || (decide (c.opt = 5) && decide (o = 16)) ||
      (decide (2 ≤ c.opt) && decide (c.opt ≤ 4) && decide (o ≠ 16))
  else false

/-- The status a command ends with at its fetch, if it does. DESIGN CHOICE, notes/assumptions/40.md. -/
def State.fetchStatus (s : State) (o : Nat) (c : RCmd) : Option Nat :=
  let range := decide (c.op ≤ 6) || decide (c.op = 8)
  if c.op = 0 ∨ 11 < c.op then some 0x10
  else if s.ring.cmds.any (fun x => x.pair == c.pair && x.cid == c.cid) then some 0x14
  else if c.shape.1 || s.notOpen o c then some 0x11
  else if c.shape.2 then some 0x12
  else if !range then none
  else if c.len = 0 then some 0
  else if c.op = 1 ∧ c.a0 < c.a1 + c.len ∧ c.a1 < c.a0 + c.len then some 0x13
  else if !s.rangeBacked o c.a0 c.len then some 0x13
  else if c.op = 1 ∧ !s.rangeBacked o c.a1 c.len then some 0x13
  else none

/-- A submission entry as a command; FLAGS [7:2] not 0 is a bad field. -/
def RCmd.ofEntry (id q : Nat) (e : List Nat) : RCmd where
  id := id
  pair := q
  cid := leNum ((e.drop 2).take 2)
  op := e.getD 0 0
  fence := (e.getD 1 0).testBit 0
  irqNow := (e.getD 1 0).testBit 1
  opt := leNum ((e.drop 4).take 4)
  a0 := leNum ((e.drop 8).take 8)
  a1 := leNum ((e.drop 16).take 8)
  len := leNum ((e.drop 24).take 8)
  param := (e.drop 32).take 32
  pos := 0
  pre := 0
  cntA := 0
  cntB := 0
  fed := []
  engine := false
  marked := false
  final := none
  waiting := 0
  started := false

/-- The device fetches an entry. -/
def cmdFetch (q : Nat) (e : List Nat) (s : State) : State :=
  match s.pairOwner q with
  | some o =>
    if s.mayFetch q o && s.fetchFirst q o then
      let c := RCmd.ofEntry s.ring.nextId q e
      let flags := decide (4 ≤ e.getD 1 0)
      let st := match s.fetchStatus o c with
        | some x => some (if flags && decide (x ≠ 0x10 ∧ x ≠ 0x14) then 0x11 else x)
        | none => if flags then some 0x11 else none
      let c1 := { c with final := st.map (fun x => (x, 0)),
                         engine := decide (c.op = 4) && st.isNone && decide ((s.ring.cmds.filter (·.engine)).length < 32) &&
                           !s.ring.cmds.any (fun x => x.op == 4 && x.final.isNone && !x.engine) }
      let h := (s.get (F.QP_STATUS_SQ_HEAD q) + 1) % s.sqSize q
      let s1 := (turnTake q o s).modRing (fun r =>
        { r with cmds := r.cmds ++ [c1], nextId := r.nextId + 1, fetched := tmod 0 (· + 1) r.fetched q })
      ringStatus s1 |> setF (F.QP_STATUS_SQ_HEAD q) h |> incF (F.QP_STATUS_OUTSTANDING q) 1 |> cnt bRING 0 1
    else s
  | none => s

def execCommandFetch (pair : Fin 16384) (entry : List Byte) (s : State) : Host.Outcome State Fault Refusal :=
  .next (cmdFetch pair.val (entry.map (·.toNat)) s)

/-! ### Finding a command to run -/

/-- The command of a pair with this CID and opcode whose status is open. -/
def State.cmdOf (s : State) (q cid op : Nat) : Option RCmd :=
  s.ring.cmds.find? (fun c => c.pair == q && c.cid == cid && c.op == op && c.final.isNone)

/-- Something holds a command back: FENCE, while an earlier command of its SQ has not completed (R253); an earlier command of its SQ
that has not started, other than a HASH that waits for an engine (R252, R258); a re-key (09_cipher_and_meridian.md R240). -/
def State.heldBack (s : State) (c : RCmd) : Bool :=
  s.ring.cmds.any (fun x => x.pair == c.pair && decide (x.id < c.id) &&
    (c.fence || (!x.started && x.final.isNone && !(x.op == 4 && !x.engine)))) || s.on F.MERID_STATUS_REKEY

/-- The LD a command acts in. -/
def State.cmdLd (s : State) (c : RCmd) : Nat := (s.pairOwner c.pair).getD 16

/-- Run one step of a command, if it may. -/
def cmdStep (q cid op : Nat) (f : RCmd → State → State) (s : State) : State :=
  match s.cmdOf q cid op with
  | some c => if s.heldBack c then s else f { c with started := true } (modCmd c.id (fun x => { x with started := true }) s)
  | none => s

/-- A command that a unit boundary stops: ABORT, the stop of its pair, or write protection of a writing command (R262, R264, R266). -/
def stopAtUnit (c : RCmd) (s : State) : Option (Nat × Nat) :=
  if c.marked then some (3, c.pre)
  else if s.qSt c.pair = qStopped then some (0x24, c.pre)
  else if (c.op = 1 ∨ c.op = 2 ∨ c.op = 5) ∧ s.wpAny (s.cmdLd c) then some (0x20, c.pre)
  else if c.op = 6 ∧ s.wpAny (s.cmdLd c) ∧ s.get (F.HOST_LD_STATUS_WP_CAUSE (s.cmdLd c)) ≠ 2 then some (0x20, c.pre)
  else none

/-! ### Lines of a ring command -/

/-- The request that a line of a command would be on CXL.mem. -/
def ringReq (ld dpa : Nat) (wr : Bool) (data : Line) (poison : Bool) : HReq :=
  { port := 0, ld := ld, tag := 0, dpa := dpa, wr := wr, mask := fullMask, data := data, poison := poison, waited := false, wait := 0 }

/-- The host read of a leaf by a ring command (04_media_channels.md R91, R101, R103): from the leaf buffer, or as its die serves it; it
extends its stream. -/
def ringLeafRead (ld dpa pfa : Nat) (l : Option RingLeaf) (s : State) : State :=
  let c := pfaCh pfa
  let leaf := leafOf dpa
  let s0 := s |> cnt (bMCH c) 0 1 |> laneCount 1
  let s1 :=
    if s.inBuffer pfa leaf then s0 |> unmarkAhead pfa leaf |> incF (F.MCH_LBUF_CNT_LBUF_HIT c) 1 |> cnt (bMCH c) 2 1
    else match s.unitHow pfa true with
      | .gone => leafFailed pfa leaf s0
      | how => unitRow pfa how (l.toList.map (fun x => ⟨Fin.ofNat 65 leaf, x.step, x.bits, x.mis⟩)) [leaf] s0
  readAhead c ld (folioOf dpa) (frameOf dpa * 64 + leaf) s1

/-- What a line of the range reads: from media through the ladder. `leaves` are the leaves that did not decode CLEAN. Answers
the line, whether it is poisoned, whether its leaf was served at step 1 or higher (counted at the leaf's first line). -/
def ringMedia (ld dpa pfa : Nat) (kid : Nat) (hdr : Bool) (leaves : List RingLeaf) (first : Bool) (s : State) : (Line × Bool × Bool) × State :=
  let held := s.inBuffer pfa (leafOf dpa)
  let l := if held then none else leaves.find? (fun x => x.dpa / 256 == dpa / 256)
  let step := (l.map (·.step)).getD 0
  let lost := decide (5 ≤ step) || (!held && s.unitHow pfa true == .gone)
  let (d, s2) := mediaLine pfa ld (folioOf dpa) (frameOf dpa) kid (lineOf dpa) (if first then ringLeafRead ld dpa pfa l s else s)
  ((d, lost || (hdr && (s.rowMask pfa).testBit (lineOf dpa)), decide (1 ≤ step) && decide (step ≤ 4) && first), s2)

/-- Is a map word of the line being rebuilt, or lost (03_translation.md R70)? -/
def State.mapBad (s : State) (ld dpa : Nat) : Bool :=
  s.sectorBad (s.folioWord ld (folioOf dpa)) ||
    (let fo := s.folio ld (folioOf dpa)
     foType fo == 2 && s.sectorBad (s.frameWord (foTable fo) (frameOf dpa)))

/-- The newest copy of a line (R55), read by a ring command. -/
def ringRead (ld dpa : Nat) (leaves : List RingLeaf) (first : Bool) (s : State) : (Line × Bool × Bool) × State :=
  let fo := s.folio ld (folioOf dpa)
  let fe := s.frameOfFolio fo (frameOf dpa)
  if s.mapBad ld dpa then ((0, true, false), s)
  else if foType fo = 3 then ((0, true, false), setErr F.XLAT_ERR_STATUS_TYPE_BAD intXlat s)
  else
    match kidRead (ringReq ld dpa false 0 false) fo s with
    | some t => ((0, true, false), t)
    | none =>
      if s.onPoisonList ld dpa then ((0, true, false), s)
      else
        let under (t : State) : (Line × Bool × Bool) × State :=
          match t.below ld dpa fo fe with
          | .poison => ((0, true, false), t)
          | .line d => ((d, false, false), t)
          | .zeros => ((0, false, false), t)
          | .media p => ringMedia ld dpa p (foKid fo) (frLpois fe) leaves first t
        match s.cline ld dpa with
        | some l =>
          if l.poison then ((0, true, false), s)
          else if l.full then ((l.data, false, false), s)
          else
            let (x, t) := under s
            ((mergeLine l.mask x.1 l.data, x.2.1, x.2.2), t)
        | none => under s

/-- The row that a ring command must read for a line: its newest copy lies on media (R55). -/
def State.ringRow (s : State) (ld dpa : Nat) : Option Nat :=
  let fo := s.folio ld (folioOf dpa)
  let here := match s.cline ld dpa with | some l => l.poison || l.full | none => false
  if here || s.mapBad ld dpa || foType fo == 3 || (kidRead (ringReq ld dpa false 0 false) fo s).isSome || s.onPoisonList ld dpa then none
  else
    match s.below ld dpa fo (s.frameOfFolio fo (frameOf dpa)) with
    | .media p => some p
    | _ => none

/-- Does the leaf of a line wait for its die or its measurement (04_media_channels.md R94; 05_drift_and_references.md R120)? -/
def ringReady (ld dpa : Nat) (first : Bool) (s : State) : Bool × State :=
  match (if first then s.ringRow ld dpa else none) with
  | some p =>
    if !s.inBuffer p (leafOf dpa) && s.unitHow p true == .wait then (false, unitWait p true s) else (true, s)
  | none => (true, s)

/-- The outcome of a line's write: `none` it took its token, otherwise why not. -/
inductive LineW where
  | taken
  | wait
  | stop (st : Nat)
  deriving DecidableEq, Repr

/-- A line of COPY or FILL is written (R28, R220, R257). -/
def ringWrite (ld dpa : Nat) (data : Line) (poison : Bool) (s : State) : LineW × State :=
  let r := ringReq ld dpa true data poison
  match writeRefused r s with
  | some t =>
    if !s.backed ld dpa then (.stop 0x13, t)
    else if t.wpAny ld then (.stop 0x20, t)
    else
      let e := s.folio ld (folioOf dpa)
      if foType e = 3 ∨ s.xlat.lost.contains (s.folioWord ld (folioOf dpa) / 8) then (.taken, t) else (.stop 0x21, t)
  | none =>
    if s.canAccept ld dpa then
      (.taken, s |> raCancel ld dpa |> acceptLine ld dpa fullMask data poison |> when poison (setErr F.HOST_ERR_STATUS_POISON_RX intHost))
    else (.wait, if s.lineFree = 0 then s else gatherPressure s)

/-! ### Units (R257) -/

/-- The address whose frame bounds a command's units: the destination of COPY, the only range otherwise. -/
def RCmd.unitAddr (c : RCmd) : Nat := if c.op = 1 then c.a1 else c.a0

/-- `pos` stands at a unit boundary. -/
def RCmd.atUnit (c : RCmd) : Bool := decide (c.pos = 0) || decide (c.pos = c.len) || decide ((c.unitAddr + c.pos) % 16384 = 0)

/-- A line has been done: `pos` advances, and at a unit boundary the prefix. -/
def RCmd.advance (c : RCmd) : RCmd :=
  let c1 := { c with pos := c.pos + 64 }
  if c1.atUnit then { c1 with pre := c1.pos } else c1

/-- What a line of a command does, and the state: `none` where it cannot go on now, `.inr` where the command ends. -/
abbrev LineStep := RCmd → State → Option (RCmd ⊕ (Nat × Nat)) × State

/-- Lines of one unit, until its boundary. Answers the command as it stands, or its end. -/
def unitRun (f : LineStep) : Nat → RCmd → State → (RCmd ⊕ (Nat × Nat)) × State
  | 0, c, s => (.inl c, s)
  | n + 1, c, s =>
    match f c s with
    | (none, t) => (.inl c, t)
    | (some (.inr e), t) => (.inr e, t)
    | (some (.inl c1), t) =>
      let c2 := c1.advance
      if c2.atUnit then (.inl c2, t) else unitRun f n c2 t

/-- One step of a data command: stops are taken at unit boundaries; then one unit, as far as tokens and credit reach. `fin`
gives the end of a command whose range is done. -/
def dataStep (f : LineStep) (fin : RCmd → State → Option (Nat × Nat) × State) (c : RCmd) (s : State) : State :=
  match (if c.atUnit then stopAtUnit c s else none) with
  | some e => cmdEnd c e.1 e.2 s
  | none =>
    let (r, s1) := if c.pos < c.len then unitRun f 256 c s else (.inl c, s)
    match r with
    | .inr e => cmdEnd c e.1 e.2 s1
    | .inl c1 =>
      let s2 := modCmd c.id (fun _ => c1) s1
      if c1.pos < c1.len then regStatus s2
      else
        match fin c1 s2 with
        | (some e, t) => regStatus (cmdEnd c1 e.1 e.2 t)
        | (none, t) => t

/-- A line's credit is there in the directions it needs (R270), and no older access to the line is in flight (R54). -/
def State.lineMay (s : State) (cls rd wr : Nat) : Bool := (decide (rd = 0) || s.mayTake cls 0 rd) && (decide (wr = 0) || s.mayTake cls 1 wr)

/-- Is this the first line of its leaf, or of the range? -/
def firstOfLeaf (c : RCmd) (a : Nat) : Bool := decide (a % 256 = 0) || decide (c.pos = 0)

/-- One map word of a unit's lookup: it is there, or comes as a completed miss; where its bank is stalled, or serves another miss
while the word is not cached, the unit waits and its lookup stands in the bank (03_translation.md R62). DESIGN CHOICE, notes/assumptions/28.md. -/
def ringWord (k : Look) (s : State) : Bool × State :=
  let word := s.lookWord k
  let l := mapLineOf word
  let waits := s.xlat.misses.any (fun m => m.2.users.any (fun x => x.user == .ring && x.ld == k.ld && x.dpa == k.dpa)) ||
    s.xlat.stalled.any (fun p => p.2.any (fun x => x.user == .ring && x.ld == k.ld && x.dpa == k.dpa))
  if s.sectorBad word then (true, s)
  else if s.bankStalled l || ((tget s.xlat.misses (bankNo l)).isSome && (s.cacheBypass || !s.inCache word)) then
    (false, if waits then s else (lookOnce k s).2)
  else (true, fillNow word s)

/-- The lookups of a unit in a frame: its folio entry, and for a read of a split folio its frame entry. -/
def ringLook (ld dpa : Nat) (wr : Bool) (s : State) : Bool × State :=
  let k : Look := ⟨.ring, ld, dpa, none, 0⟩
  match ringWord k s with
  | (false, s1) => (false, s1)
  | (true, s1) =>
    let e := s1.folio ld (folioOf dpa)
    let (ok, s2) := if foType e = 2 ∧ !wr then ringWord { k with folio := some e } s1 else (true, s1)
    (ok, if ok then cnt bXLAT (folioOf dpa % 2) 1 s2 else s2)

/-- A command looks up once per frame of a range: at its first line there. -/
def ringEnter (c : RCmd) (dpa : Nat) (wr : Bool) (s : State) : Bool × State :=
  if dpa % 16384 = 0 ∨ c.pos = 0 then ringLook (s.cmdLd c) dpa wr s else (true, s)

def copyLine (leaves : List RingLeaf) : LineStep := fun c s =>
  let ld := s.cmdLd c
  let cls := ownerClass ld
  let src := c.a0 + c.pos
  let dst := c.a1 + c.pos
  if !s.lineMay cls 64 64 || s.mustWait (ringReq ld src false 0 false) || s.mustWait (ringReq ld dst true 0 false) then (none, s)
  else if !s.backed ld src then (some (.inr (0x13, c.pre)), s)
  else
    match ringEnter c src false s with
    | (false, s1) => (none, s1)
    | (true, s1) =>
      match ringEnter c dst true s1 with
      | (false, s2) => (none, s2)
      | (true, s2) =>
        if (writeRefused (ringReq ld dst true 0 false) s2).isNone && !s2.canAccept ld dst then
          (none, if s2.lineFree = 0 then s2 else gatherPressure s2)
        else
          match ringReady ld src (firstOfLeaf c src) s2 with
          | (false, s3) => (none, s3)
          | (true, s3) =>
            let (x, s4) := ringRead ld src leaves (firstOfLeaf c src) s3
            match ringWrite ld dst x.1 x.2.1 s4 with
            | (.wait, t) => (none, t)
            | (.stop st, t) => (some (.inr (st, c.pre)), t)
            | (.taken, t) =>
              (some (.inl c), t |> takeCredit cls 0 64 |> takeCredit cls 1 64 |> cnt bRING 4 64 |> cnt (bLD ld) 6 64 |> cnt (bLD ld) 7 64)

/-- R257: COPY, one unit. `leaves` are the source leaves that did not decode CLEAN at step 0. -/
def execRingCopy (pair : Fin 16384) (cid : BitVec 16) (leaves : List RingLeaf) (s : State) : Host.Outcome State Fault Refusal :=
  .next (cmdStep pair.val cid.toNat 1 (dataStep (copyLine leaves) (fun c t => (some (0, c.len), t))) s)

/-- The pattern of a FILL, repeated over a line. -/
def RCmd.pattern (c : RCmd) : Line :=
  let n := 8 * 2 ^ c.opt
  BitVec.ofNat 512 (leNum ((List.range 64).map (fun i => c.param.getD (i % n) 0)))

def fillLine : LineStep := fun c s =>
  let ld := s.cmdLd c
  let cls := ownerClass ld
  let dst := c.a0 + c.pos
  if !s.lineMay cls 0 64 || s.mustWait (ringReq ld dst true 0 false) then (none, s)
  else
    match ringEnter c dst true s with
    | (false, s1) => (none, s1)
    | (true, s1) =>
      match ringWrite ld dst c.pattern false s1 with
      | (.wait, t) => (none, t)
      | (.stop st, t) => (some (.inr (st, c.pre)), t)
      | (.taken, t) => (some (.inl c), t |> takeCredit cls 1 64 |> cnt (bLD ld) 7 64)

/-- R257: FILL, one unit. -/
def execRingFill (pair : Fin 16384) (cid : BitVec 16) (s : State) : Host.Outcome State Fault Refusal :=
  .next (cmdStep pair.val cid.toNat 2 (dataStep fillLine (fun c t => (some (0, c.len), t))) s)

/-- A line read by VERIFY or HASH. -/
def readLine (leaves : List RingLeaf) (use : RCmd → Line × Bool × Bool → RCmd ⊕ (Nat × Nat)) : LineStep := fun c s =>
  let ld := s.cmdLd c
  let cls := ownerClass ld
  let a := c.a0 + c.pos
  if !s.lineMay cls 64 0 || s.mustWait (ringReq ld a false 0 false) then (none, s)
  else if !s.backed ld a then (some (.inr (0x13, c.pre)), s)
  else
    match ringEnter c a false s with
    | (false, s1) => (none, s1)
    | (true, s1) =>
      match ringReady ld a (firstOfLeaf c a) s1 with
      | (false, s2) => (none, s2)
      | (true, s2) =>
      let (x, s3) := ringRead ld a leaves (firstOfLeaf c a) s2
      (some (use c x), s3 |> takeCredit cls 0 64 |> cnt (bLD ld) 6 64)

/-- R258: VERIFY, one unit. -/
def execRingVerify (pair : Fin 16384) (cid : BitVec 16) (leaves : List RingLeaf) (s : State) : Host.Outcome State Fault Refusal :=
  .next (cmdStep pair.val cid.toNat 3 (dataStep
    (readLine leaves (fun c x => .inl { c with cntA := c.cntA + x.2.2.toNat, cntB := c.cntB + x.2.1.toNat }))
    (fun c t => (some (if c.cntB = 0 then 0 else 0x22, c.cntA * 2 ^ 32 + c.cntB), t))) s)

/-- The bytes of lines in address order. -/
def lineBytes (l : List Line) : List Nat := l.flatMap (fun x => numBytes 64 x.toNat)

/-- The digest is complete: it is written to ADDR1, then the command ends. -/
def hashEnd (dmaOk : Bool) (c : RCmd) (s : State) : Option (Nat × Nat) × State :=
  let msg := lineBytes c.fed.reverse
  let bytes := if c.opt = 0 then digestBytes 32 (sha256 msg) else digestBytes 48 (sha384 msg)
  if dmaOk then (some (0, leNum (bytes.take 8)), emit (.hostWrite c.a1 bytes) s)
  else (some (0x23, 0), setErr F.RING_ERR_STATUS_HOST_DMA intRing s)

/-- R258: HASH, one unit. A HASH without an engine waits. `dmaOk`: the write of the digest succeeds. -/
def execRingHash (pair : Fin 16384) (cid : BitVec 16) (leaves : List RingLeaf) (dmaOk : Bool) (s : State) :
    Host.Outcome State Fault Refusal :=
  .next (cmdStep pair.val cid.toNat 4 (fun c t =>
    if c.engine then
      dataStep (readLine leaves (fun c x => if x.2.1 then .inr (0x22, c.pos) else .inl { c with fed := x.1 :: c.fed }))
        (hashEnd dmaOk) c (cnt bRING 3 (min c.len (c.pos + 16384) - c.pos) t)
    else
      match stopAtUnit c t with
      | some e => cmdEnd c e.1 e.2 t
      | none => t) s)

/-- R258: the oldest HASH that waits for an engine takes one. -/
def execHashEngineGrant (s : State) : Host.Outcome State Fault Refusal :=
  .next (if (s.ring.cmds.filter (·.engine)).length < 32 then
      match s.ring.cmds.find? (fun c => c.op == 4 && c.final.isNone && !c.engine) with
      | some c => ringStatus (modCmd c.id (fun x => { x with engine := true }) s)
      | none => s
    else s)

/-! ### Folio and journal commands (R259) -/

/-- A SEAL stops early: its queued folios leave the queue, its prefix ends before the first of them, and it ends once no mover works for
it (R257, R264). -/
def sealStop (c : RCmd) (st : Nat) (s : State) : State :=
  let pre := ((s.fld.sealQ.filter (fun e => e.1 == c.id)).map (fun e => e.2.2 * 2 ^ 20 - c.a0)).foldl min c.pre
  let n := (s.fld.movers.filter (fun p => p.2.ctx == some c.id)).length
  let s1 := s.modFld (fun f => { f with sealQ := f.sealQ.filter (fun e => e.1 != c.id) })
  if n = 0 then cmdEnd c st (pre / 2 ^ 20) s1 else modCmd c.id (fun x => { x with waiting := n, pre := pre }) s1

/-- R259: SEAL queues its folios; queued, it can be stopped as any command. One whose write protection went again meanwhile ends under
it. -/
def ringSeal (c : RCmd) (s : State) : State :=
  match stopAtUnit c s with
  | some e => sealStop c e.1 s
  | none =>
    if c.pos = 0 then
      let n := c.len / 2 ^ 20
      let ld := s.cmdLd c
      (modCmd c.id (fun x => { x with waiting := n, pos := c.len, pre := c.len }) s).modFld (fun f =>
        { f with sealQ := f.sealQ ++ (List.range n).map (fun i => (c.id, ld, c.a0 / 2 ^ 20 + i)) })
    else if c.waiting = 0 then cmdEnd c 0x20 (c.pre / 2 ^ 20) s
    else s

def execRingSeal (pair : Fin 16384) (cid : BitVec 16) (s : State) : Host.Outcome State Fault Refusal :=
  .next (cmdStep pair.val cid.toNat 5 ringSeal s)

/-- R259: DISCARD unmaps its next folio; after the last one it forces a commit. DESIGN CHOICE, notes/assumptions/40.md. -/
def ringDiscard (c : RCmd) (s : State) : State :=
  if c.waiting ≠ 0 then s
  else
    match stopAtUnit c s with
    | some e => cmdEnd c e.1 (c.pre / 2 ^ 20) s
    | none =>
      let ld := s.cmdLd c
      let f := c.a0 / 2 ^ 20 + c.pos / 2 ^ 20
      if !s.backed ld (f * 2 ^ 20) then cmdEnd c 0x13 (c.pre / 2 ^ 20) s
      else
        let was := s.mapped ld f
        let s0 := if c.pos = 0 then capture recDiscard ld 0 (c.a0 / 2 ^ 20) [c.len / 2 ^ 20] s else s
        let s1 := discardFolio ld f s0
        let c1 := { c with pos := c.pos + 2 ^ 20, pre := c.pre + 2 ^ 20, cntA := c.cntA + was.toNat }
        if c1.pos < c1.len then modCmd c.id (fun _ => c1) s1
        else forceCommit (.ring c.id) (modCmd c.id (fun _ => { c1 with waiting := 1 }) s1)

def execRingDiscard (pair : Fin 16384) (cid : BitVec 16) (s : State) : Host.Outcome State Fault Refusal :=
  .next (settle (cmdStep pair.val cid.toNat 6 ringDiscard s))

/-- R259: SYNC forces a commit. -/
def execRingSync (pair : Fin 16384) (cid : BitVec 16) (s : State) : Host.Outcome State Fault Refusal :=
  .next (cmdStep pair.val cid.toNat 7 (fun c t =>
    if c.waiting ≠ 0 then t else syncDrain (.ring c.id) (modCmd c.id (fun x => { x with waiting := 1 }) t)) s)

/-! ### PREFETCH (R258) -/

/-- The map words of a frame: its folio entry and, where the folio is split, its frame entry. -/
def State.mapWords (s : State) (ld dpa : Nat) : List Nat :=
  let e := s.folio ld (folioOf dpa)
  s.folioWord ld (folioOf dpa) :: (if foType e = 2 then [s.frameWord (foTable e) (frameOf dpa)] else [])

/-- One frame of the range: sectors filled, sets whose measurement starts. -/
def prefetchUnit (c : RCmd) (s : State) : RCmd × State :=
  let ld := s.cmdLd c
  let a := c.a0 + c.pos
  let words := if c.opt.testBit 0 then (s.mapWords ld a).filter (fun w => !s.inCache w && !s.sectorBad w) else []
  let s1 := seqAll fillNow words s
  let fe := s1.frameOfFolio (s1.folio ld (folioOf a)) (frameOf a)
  let (n, s2) := if c.opt.testBit 1 && decide (frState fe = 1) && s1.unmeasured (frLoc fe) then
      (1, measOwnStart (setOf (frLoc fe)) false s1) else (0, s1)
  let step := 16384 - a % 16384
  ({ c with pos := min c.len (c.pos + step), pre := min c.len (c.pos + step), cntB := c.cntB + words.length, cntA := c.cntA + n,
            fed := if n = 0 then c.fed else BitVec.ofNat 512 (setOf (frLoc fe)) :: c.fed }, s2)

/-- R258: PREFETCH, one frame; once the range is done it completes when no measurement it started runs. -/
def ringPrefetch (c : RCmd) (s : State) : State :=
  match stopAtUnit c s with
  | some e => cmdEnd c e.1 e.2 s
  | none =>
    if c.pos < c.len then
      if !s.backed (s.cmdLd c) (c.a0 + c.pos) then cmdEnd c 0x13 c.pre s
      else
        let (c1, s1) := prefetchUnit c s
        modCmd c.id (fun _ => c1) s1
    else if c.fed.any (fun x => s.drift.meas.any (fun m => m.set == x.toNat)) then s
    else cmdEnd c 0 (c.cntA * 2 ^ 32 + c.cntB) s

def execRingPrefetch (pair : Fin 16384) (cid : BitVec 16) (s : State) : Host.Outcome State Fault Refusal :=
  .next (cmdStep pair.val cid.toNat 8 ringPrefetch s)

/-! ### TELEMETRY (R261) -/

/-- The installed fields, ascending. -/
def State.fieldList (s : State) : List Nat :=
  (List.range 256).flatMap (fun d => if s.plateHere (d / 16) then (List.range 32768).map (fun k => d * 32768 + k) else [])

/-- The records of a snapshot: their number and bytes. -/
def State.telemetry (s : State) (o kind : Nat) : Nat × List Nat :=
  match kind with
  | 1 =>
    let ids := if o = 16 then List.range 4096 else (List.range 32).map (fun i => bLD o * 32 + i)
    (ids.length, ids.flatMap (fun i => numBytes 8 (s.spec.live.word i)))
  | 2 => (s.fieldList.length, s.fieldList.flatMap (fun f => numBytes 16 (s.frec f).word))
  | 3 => (1048576, (List.range 1048576).flatMap (fun x => numBytes 4 (s.drec x).word))
  | 4 => (s.fieldList.length, s.fieldList.flatMap (fun f => numBytes 8 (s.see f).word))
  | _ =>
    let l := s.ld o
    let fs := (List.range (l.rangeBlocks * 256))
    (1, [l.capBlocks, (fs.filter (fun f => s.mapped o f)).length, (fs.filter (fun f => foType (s.folio o f) == 2)).length,
      s.curKid o + (if s.curKid o = 0 then 0 else 2 ^ 63), s.ownedKids o, s.get (F.HOST_LD_STATUS_WP_CAUSE o), l.poison.length,
      l.poisonOvf.toNat].flatMap (numBytes 8))

/-- R261: TELEMETRY. `dmaOk`: the write of the buffer succeeds. DESIGN CHOICE, notes/assumptions/40.md. -/
def ringTelemetry (dmaOk : Bool) (c : RCmd) (s : State) : State :=
  let o := s.cmdLd c
  let (n, body) := s.telemetry o c.opt
  let size := 64 + body.length
  if c.marked then cmdEnd c 3 0 s
  else if c.len < size then cmdEnd c 0x15 size s
  else if dmaOk then
    let hdr := [c.opt] ++ List.replicate 7 0 ++ numBytes 8 n ++ numBytes 8 s.dur.aseq ++ numBytes 8 s.dur.aseq ++ numBytes 8 s.clk.tod ++
      List.replicate 24 0
    cmdEnd c 0 size (emit (.hostWrite c.a1 (hdr ++ body)) s)
  else cmdEnd c 0x23 0 (setErr F.RING_ERR_STATUS_HOST_DMA intRing s)

def execRingTelemetry (pair : Fin 16384) (cid : BitVec 16) (dmaOk : Bool) (s : State) : Host.Outcome State Fault Refusal :=
  .next (cmdStep pair.val cid.toNat 10 (ringTelemetry dmaOk) s)

/-! ### ABORT (R264) -/

/-- R264: the target of an ABORT is marked, if its status is open. `cntA` keeps the target whose completion must come first.
DESIGN CHOICE, notes/assumptions/40.md. -/
def ringAbort (c : RCmd) (s : State) : State :=
  let o := s.cmdLd c
  let q := s.get (F.RING_LD_ALLOC_FIRST o) + c.a0
  let cid := leNum (c.param.take 2)
  match s.ring.cmds.find? (fun x => x.pair == q && x.cid == cid && s.pairOwner q == some o) with
  | some t =>
    if t.final.isSome || t.marked || t.op == 7 || t.op == 9 || t.op == 11 then cmdEnd c 1 0 s
    else
      let s1 := modCmd t.id (fun x => { x with marked := true }) s
      let s2 := if t.op = 5 then sealStop t 3 s1
        else if t.op = 6 then (if t.waiting ≠ 0 then cmdEnd t 3 (t.pre / 2 ^ 20) s1 else s1)
        else if t.atUnit then cmdEnd t 3 t.pre s1 else s1
      cmdEnd c 2 0 (modCmd c.id (fun x => { x with cntA := t.id + 1 }) s2)
  | none => cmdEnd c 1 0 s

def execRingAbort (pair : Fin 16384) (cid : BitVec 16) (s : State) : Host.Outcome State Fault Refusal :=
  .next (cmdStep pair.val cid.toNat 11 ringAbort s)

/-! ### Completions (R255, R265) -/

/-- The completion entry of 16 B. -/
def State.cqEntry (s : State) (c : RCmd) (st res : Nat) : List Nat :=
  numBytes 2 c.cid ++ numBytes 2 (s.get (F.QP_STATUS_SQ_HEAD c.pair)) ++ numBytes 2 st ++ [s.get (F.QP_STATUS_PHASE c.pair), 0] ++ numBytes 8 res

/-- Does a posted completion send the interrupt? -/
def State.irqNow (s : State) (c : RCmd) (st : Nat) : Bool :=
  decide (s.get (F.QP_COAL_COUNT c.pair) ≤ tgetD 0 s.ring.since c.pair) || c.irqNow || (decide (st ≠ 0) && s.on (F.QP_CFG_IRQ_ERR c.pair))

/-- A completion is posted: its CQ slot counts as taken, its context is free. -/
def cmdPost (dmaOk : Bool) (c : RCmd) (st res : Nat) (s : State) : State :=
  let q := c.pair
  let tail := s.get (F.QP_STATUS_CQ_TAIL q)
  let next := (tail + 1) % s.cqSize q
  let s1 := if dmaOk then emit (.hostWrite (s.get (F.QP_CQ_BASE_ADDR q) * 4096 + tail * 16) (s.cqEntry c st res)) s else s
  let s2 := s1.modRing (fun r =>
    { r with cmds := r.cmds.filter (fun x => x.id != c.id), posted := tmod 0 (· + 1) r.posted q, since := tmod 0 (· + 1) r.since q })
  let s3 := ringStatus s2 |> setF (F.QP_STATUS_CQ_TAIL q) next
    |> when (decide (next = 0)) (setF (F.QP_STATUS_PHASE q) (1 - s.get (F.QP_STATUS_PHASE q)))
    |> setF (F.QP_STATUS_OUTSTANDING q) (s.outstanding q - 1) |> incF (F.QP_DONE_CNT_COMPLETED q) 1 |> incF F.RING_CMD_CNT_ALL 1
    |> cnt bRING 1 1 |> when (decide (s.cmdLd c < 16)) (cnt (bLD (s.cmdLd c)) 5 1)
  let s4 := if st = 0 then s3 else
      s3 |> incF (F.QP_DONE_CNT_ERRORS q) 1 |> incF F.RING_CMD_CNT_NOT_DONE 1 |> cnt bRING 2 1
  let s5 := if s4.irqNow c st then pairIrq q s4 else s4
  pairRest q (if dmaOk then s5 else pairDmaFail q s5)

/-- R255: the completion of a command whose status is decided is written; an ABORT's comes after that of its target. -/
def completionPost (q cid : Nat) (dmaOk : Bool) (s : State) : State :=
  let ready (c : RCmd) : Bool := c.pair == q && c.cid == cid && c.final.isSome &&
    !(c.op == 11 && s.ring.cmds.any (fun x => x.id + 1 == c.cntA))
  match s.ring.cmds.find? ready with
  | some c =>
    match c.final with
    | some (st, res) => regStatus (cmdPost dmaOk c st res s)
    | none => s
  | none => s

def execCompletionPost (pair : Fin 16384) (cid : BitVec 16) (dmaOk : Bool) (s : State) : Host.Outcome State Fault Refusal :=
  .next (completionPost pair.val cid.toNat dmaOk s)

/-- R265: the oldest counted completion of the pair has waited TIME_US. -/
def execCoalesceTimer (pair : Fin 16384) (s : State) : Host.Outcome State Fault Refusal :=
  .next (if s.on (F.QP_COAL_TIME_US pair.val) && decide (0 < tgetD 0 s.ring.since pair.val) then pairIrq pair.val s else s)

/-! ### Disturbances (R266) -/

/-- The pairs that are not at rest. -/
def State.busyPairs (s : State) : List Nat :=
  ((List.range 17).flatMap (fun n => (List.range (s.get (F.RING_LD_ALLOC_COUNT n))).map (fun i => s.get (F.RING_LD_ALLOC_FIRST n) + i))).filter
    (fun q => s.qSt q != qDisabled)

/-- Ingress closes: every pair that is ACTIVE or DRAINING stops, and commands in flight complete with MODE_STOP and their
prefix, those inside a unit at its end; KEY, SYNC and a DISCARD that waits for its commit run to their ends. DESIGN CHOICE,
notes/assumptions/40.md. -/
def ringsStop (s : State) : State :=
  let s1 := seqAll (fun q t => if t.qSt q = qActive ∨ t.qSt q = qDraining then t |> setQ q qStopped |> setF (F.QP_STATUS_ERR q) errStop else t)
    s.busyPairs s
  let s2 := seqAll (fun (c : RCmd) t =>
    if c.final.isSome ∨ c.op = 7 ∨ c.op = 9 ∨ c.waiting ≠ 0 ∧ c.op = 6 then t
    else if c.op = 5 then sealStop c 0x24 t
    else if c.op ≤ 4 ∧ !c.atUnit then t
    else cmdEnd c 0x24 (if c.op = 6 then c.pre / 2 ^ 20 else c.pre) t) s1.ring.cmds s1
  regStatus s2

/-- The pair whose slot holds a register file key, if one does. -/
def slotPair (k : Nat) : Option Nat := if 0x400000 ≤ k / 64 ∧ k / 64 < 0x500000 then some ((k / 64 - 0x400000) / 64) else none

/-- The slots of the pairs that `p` picks take their reset values, which drops the halves held for them (00_scope.md R5); their
counts start anew. -/
def slotsClear (p : Nat → Bool) (s : State) : State :=
  ((s.modRegs (fun r => r.filter (fun e => match slotPair e.1 with | some q => !p q | none => true))).modHolds
    (fun l => l.filter (fun h => !(decide (0x400000 ≤ h.2.1) && decide (h.2.1 < 0x500000) && p ((h.2.1 - 0x400000) / 64))))).modRing (fun r =>
    { r with since := r.since.filter (fun e => !p e.1), fetched := r.fetched.filter (fun e => !p e.1), posted := r.posted.filter (fun e => !p e.1) })

/-- Every slot takes its reset values. -/
def slotsReset (s : State) : State := regStatus (slotsClear (fun _ => true) (dropCmds (fun _ => true) s))

/-- The pairs of some owners stop fetching; what is in flight ends without posting, a balanced reset of each pair that is in use
(R267); their slots return to their reset values. -/
def ringsDrop (own : Nat → Bool) (s : State) : State :=
  let mine (q : Nat) : Bool := match s.pairOwner q with | some o => own o | none => false
  let idle := (s.busyPairs.filter mine).filter (fun q => !s.ring.cmds.any (fun c => c.pair == q))
  regStatus (slotsClear mine (seqAll (balancedReset 3) idle (dropCmds mine s)))

end Sys2Proof.Machine
end

