-- ==== Sys2Proof/Machine/HostPort.lean ====
section
/-! DEFINITION. The links of the host port: up, down, resets, credits, IDE, the global persistent flush
(02_host_port.md R20, R33, R39, R41 to R43; 10_transit_rings.md R266; 18_start_up.md R411, R417). -/

namespace Sys2Proof.Machine

/-! ### Requests lost with a link -/

/-- Requests that `p` picks leave translation, the media and the queues without an answer. -/
def dropReqs (p : HReq → Bool) (s : State) : State :=
  let keep (k : Look) : Bool := !k.user.reqs.any p
  let s1 := s.modHost (fun h =>
    { h with ingress := h.ingress.filter (fun r => !p r), parked := h.parked.filter (fun r => !p r), writeQ := h.writeQ.filter (fun r => !p r) })
  let s2 := s1.modXlat (fun x =>
    { x with misses := x.misses.map (fun m => (m.1, { m.2 with users := m.2.users.filter keep })),
             stalled := (x.stalled.map (fun q => (q.1, q.2.filter keep))).filter (fun q => q.2 != []) })
  s2.modMed (fun m => { m with reads := m.reads.filter (fun q => !q.reqs.any p) })

/-- Mailbox commands in progress on the views that `p` picks abort (HOST_ERR_STATUS.MBOX_ABORT). DESIGN CHOICE, notes/assumptions/24.md. -/
def mboxAbort (p : Nat → Bool) (s : State) : State :=
  let queued := [0, 1].any (fun k => (s.port k).mboxQ.any (fun c => p c.view))
  let move := s.host.movingCmd && p mgmtView
  let rel := s.host.releases.any (fun c => p c.view)
  let act := s.img.act.any (fun a => p a.view)
  let isMbox (f : Force) : Bool := match f.what with | .mbox v _ => p v | _ => false
  let forced := s.dur.forces.any isMbox
  let s1 := seqAll (fun k t => if (t.port k).mboxQ = [] then t else modPort k (fun q => { q with mboxQ := q.mboxQ.filter (fun c => !p c.view) }) t) [0, 1] s
  let s2 := if move || rel then
      s1.modHost (fun h => { h with movingCmd := h.movingCmd && !move, releases := h.releases.filter (fun c => !p c.view) }) else s1
  let s3 := if act then s2.modImg (fun i => { i with act := i.act.map (fun a => { a with view := mgmtView + 1 }) }) else s2
  let s4 := if forced then s3.modDur (fun d => { d with forces := d.forces.filter (fun f => !isMbox f) }) else s3
  when (queued || move || rel || act || forced) (setErr F.HOST_ERR_STATUS_MBOX_ABORT intHost) s4

/-- The views whose mailbox lies on a port. -/
def State.viewOn (s : State) (port view : Nat) : Bool := decide (s.ldPort view = port)

/-- HOST_LINK_STATUS of a port. -/
def linkShow (port speed width : Nat) (mem : Bool) (s : State) : State :=
  if port = 0 then
    s |> setF F.HOST_LINK_STATUS_P0_SPEED speed |> setF F.HOST_LINK_STATUS_P0_WIDTH width |> setB F.HOST_LINK_STATUS_P0_CXLMEM mem
  else
    s |> setF F.HOST_LINK_STATUS_P1_SPEED speed |> setF F.HOST_LINK_STATUS_P1_WIDTH width |> setB F.HOST_LINK_STATUS_P1_CXLMEM mem

/-- R43, R266, 14_clocks_and_crossings.md R336: a port leaves L0 other than through ASPM. Requests not yet answered are lost with the link; its credits return
to the device. -/
def linkDown (port : Nat) (s : State) : State :=
  if (s.port port).up then
    let s1 := dropReqs (fun r => r.port == port) s
    let s2 := mboxAbort (s1.viewOn port) s1
    let s3 := modPort port (fun q => { PortSt.reset with insecure := q.insecure }) s2
    let s4 := seqAll (fun c t => balancedReset 0 (credIndex port c) t) (List.range 8) s3
      |> when (decide (port = 0)) (recDisqualified false)
      |> setErr F.HOST_ERR_STATUS_LINK_DOWN intHost |> linkShow port 0 0 false |> ringsDrop (fun o => s.viewOn port o)
    settle (regStatus (ldStatusAll s4))
  else s

def execLinkDown (port : Fin 2) (s : State) : Host.Outcome State Fault Refusal := .next (linkDown port.val s)

/-- May a port train: PERST# is released, the image has loaded or the loader waits for the mailbox (R302, R417); port 1 exists
in the 2 × x8 configuration. -/
def State.linkMay (s : State) (port : Nat) : Bool :=
  !s.glb.perst && (decide (port = 0) || decide (s.get F.HOST_LINK_CFG_BIFUR = 1)) &&
    (decide (s.glb.mode = .active) || decide (s.glb.mode = .quiet) || decide (s.glb.mode = .parked) ||
      (decide (s.glb.mode = .starting) && (s.loaded || decide (s.get F.GLB_START_STATUS_STAGE = 0xB))))

/-- Widths 1 to 5 are x1 to x16; with two ports each has eight lanes (R19, R22). -/
def State.widthOk (s : State) (port width : Nat) : Bool :=
  decide (width ≤ 4) || (decide (port = 0) && decide (s.get F.HOST_LINK_CFG_BIFUR ≠ 1))

/-- The port grants its credits to the host, the host its S2M credits to the device (R42). -/
def linkCredits (ndr drs : Nat) (q : PortSt) : PortSt :=
  let s2m := tput 0 (tput 0 [] credNdr ndr) credDrs drs
  (List.range 6).foldl (fun p c => p.grantCred c) { q with s2mGrant := s2m, s2mFree := s2m, s2mUsed := [] }

/-- R20: a port reaches L0 and its LDs become reachable; credits are granted both ways. -/
def linkUp (port speed width : Nat) (mem : Bool) (ndr drs : Nat) (s : State) : State :=
  if s.linkMay port && !(s.port port).up && s.widthOk port width then
    s |> modPort port (fun q => linkCredits ndr drs { q with up := true })
      |> linkShow port speed width mem |> ldStatusAll
  else s

def execLinkUp (port : Fin 2) (speed : Fin 6) (width : Fin 5) (mem : Bool) (ndr drs : BitVec 16) (s : State) :
    Host.Outcome State Fault Refusal :=
  .next (linkUp port.val (speed.val + 1) (width.val + 1) mem ndr.toNat drs.toNat s)

/-! ### Credits (R43) -/

/-- The host returns `n` S2M credits of a class. What was never consumed is discarded and reported. -/
def creditBack (port cls n : Nat) (s : State) : State :=
  let used := tgetD 0 (s.port port).s2mUsed cls
  let k := min n used
  modPort port (fun q => { q with s2mUsed := tput 0 q.s2mUsed cls (used - k), s2mFree := tmod 0 (· + k) q.s2mFree cls }) s
    |> when (decide (used < n)) (credOverflow port cls (n - used))

/-- DESIGN CHOICE, notes/assumptions/15.md. -/
def creditReturn (port ndr drs : Nat) (s : State) : State :=
  if (s.port port).up then s |> creditBack port credNdr ndr |> creditBack port credDrs drs |> respDrain port else s

def execCreditReturn (port : Fin 2) (ndr drs : BitVec 16) (s : State) : Host.Outcome State Fault Refusal :=
  .next (creditReturn port.val ndr.toNat drs.toNat s)

/-! ### Resets of an LD (R266) -/

/-- Hot reset (0) of the LD's port, FLR (1) or CXL reset (2) of the LD. The first and the last uncommit the HDM decoders.
PRESUMED, notes/assumptions/22.md. -/
def ldReset (n kind : Nat) (s : State) : State :=
  let port := s.ldPort n
  let s1 := ringsDrop (fun o => if kind = 0 then s.viewOn port o else o == n) s
  let s2 := if kind = 1 then s1
    else seqAll (fun k t => modLd k (fun l => { l with hdm := LdSt.reset.hdm }) t)
      ((List.range 17).filter (fun k => if kind = 0 then s.viewOn port k else k == n))
      (modPort port (fun q => { q with gpf := false, gpfLds := [], gpfAny := false, gpf2 := false }) s1)
  if kind = 1 then mboxAbort (· == n) s2 else s2

def execLdReset (n : Fin 17) (kind : Fin 3) (s : State) : Host.Outcome State Fault Refusal := .next (ldReset n.val kind.val s)

/-! ### IDE (R41) -/

/-- A flit fails its IDE MAC check. The Fatal event is raised on every LD of the port. DEDUCED, notes/assumptions/41.md. -/
def ideFail (port : Nat) (s : State) : State :=
  if (s.port port).up then
    let s1 := modPort port (fun q => { q with insecure := true }) s |> setErr F.HOST_ERR_STATUS_IDE_FAIL intHost |> logPut sevError 0x0102 port 0 0 0
    seqAll (fun n t => event n logFatal 0x80 port t) (s1.lds.filter (s1.viewOn port)) s1
  else s

def execIdeMacFail (port : Fin 2) (s : State) : Host.Outcome State Fault Refusal := .next (ideFail port.val s)

/-- New keys: the port accepts CXL.mem requests again, those the link holds first. -/
def ideKeys (port : Nat) (s : State) : State :=
  if (s.port port).up then
    seqAll (fun _ t => linkNext port t) (s.port port).linkQ (modPort port (fun q => { q with insecure := false }) s)
  else s

def execIdeKeySetup (port : Fin 2) (s : State) : Host.Outcome State Fault Refusal := .next (ideKeys port.val s)

/-! ### Data object exchange (R22, R23) -/

/-- The CDAT figures of an LD: DSMAS and DSEMTS give its static capacity in bytes; DSLBIS the typical read and write latency in ns,
and the read and write bandwidth in units of 100 MB/s, the LD's regulation floor or, where none is set, 100 GB/s.
DESIGN CHOICE, notes/assumptions/62.md. -/
def State.cdat (s : State) (n : Nat) : List Nat :=
  let bw (f : Nat) : Nat := if f = 0 then 1000 else f
  [(s.ld n).capBlocks * 2 ^ 28, 1300, 900, bw (s.get (F.REG_ACT_RATE_RD_FLOOR n)), bw (s.get (F.REG_ACT_RATE_WR_FLOOR n))]

/-- The protocols of R22 as discovery lists them: 0 discovery, 1 CMA/SPDM, 2 secured CMA/SPDM, 3 CDAT table access, 4 IDE_KM.
DESIGN CHOICE, notes/assumptions/62.md. -/
def doeProtocols : List Nat := [0, 1, 2, 3, 4]

/-- A request on a port whose link is up is answered. Discovery answers the protocol of an index and the next index, 0 after the
last; CMA/SPDM answers under the device's certificate chain (R41), the rest of its answer is not given. DESIGN CHOICE, notes/assumptions/62.md. -/
def doeRequest (port : Nat) (r : DoeReq) (s : State) : State :=
  if (s.port port).up then
    match r with
    | .discovery i => emit (.doe port 0 (match doeProtocols[i]? with | some p => [p, (i + 1) % doeProtocols.length] | none => [])) s
    | .spdm secured =>
      let (n, s1) := takeNat s
      emit (.doe port (if secured then 2 else 1) [n, Config.certChain]) s1
    | .cdat n => if s.viewOn port n.val then emit (.doe port 3 (s.cdat n.val)) s else s
  else s

def execDoeRequest (port : Fin 2) (r : DoeReq) (s : State) : Host.Outcome State Fault Refusal := .next (doeRequest port.val r s)

/-! ### Global persistent flush (R33) -/

/-- Phase 1: the port accepts no M2S request until its next reset; those the link holds are handled as R11 states.
DEDUCED, notes/assumptions/41.md. -/
def gpfPhase1 (port : Nat) (s : State) : State :=
  if (s.port port).up then
    let q := (s.port port).linkQ
    seqAll (fun r t => gpfRefuse r (credBack r.port r.cls t)) q (modPort port (fun p => { p with gpf := true, gpfLds := [], gpfAny := false, linkQ := [] }) s)
  else s

def execGpfPhase1 (port : Fin 2) (s : State) : Host.Outcome State Fault Refusal := .next (gpfPhase1 port.val s)

/-- Phase 2 commits the journal as a SYNC does; during an entry into PARKED it completes with that entry's commit.
DEDUCED, notes/assumptions/41.md. -/
def gpfPhase2 (port : Nat) (s : State) : State :=
  if (s.port port).gpf && !(s.port port).gpf2 then
    let s1 := modPort port (fun q => { q with gpf2 := true }) s
    if s1.glb.transTo = some .parked then
      match s1.dur.forces.find? (fun f => decide (f.what = .mode)) with
      | some f => s1.modDur (fun d => { d with forces := d.forces ++ [⟨f.jseq, .gpf port⟩] })
      | none => forceDone (.gpf port) s1
    else syncDrain (.gpf port) s1
  else s

def execGpfPhase2 (port : Fin 2) (s : State) : Host.Outcome State Fault Refusal := .next (gpfPhase2 port.val s)

end Sys2Proof.Machine
end

