-- ==== Sys2Proof/Machine/CoreLoss.lean ====
section
/-! DEFINITION. Losing the core: what is left when every domain but the always-on domain goes off, FAULT-HALT and the
collapse (01_the_shelf_controller.md R10, R12; 13_dome_power.md R318, R327, R330; 07_durability.md R178, R179). -/

namespace Sys2Proof.Machine

/-- A row under a program, and every row of a field under an erase, is unreadable once power is gone: neither ran to its
end. -/
def diesCut (s : State) : State :=
  s.modMed (fun m =>
    let fields := m.dies.flatMap (fun e => match e.2.op with | .erase _ fs => fs | _ => [])
    let rows := m.dies.flatMap (fun e => match e.2.op with | .program _ rs => rs | _ => [])
    let m1 := rows.foldl (fun t r => tset t r.1 { r.2 with kind := .bad }) m.rows
    { m with rows := m1.map (fun e => if fields.contains (pfaFieldNo e.1) then (e.1, { e.2 with kind := .bad }) else e) })

/-- What the shelf bus runs by, from VDD_AON in every mode (15_shelf_bus.md R353). -/
def sbusFields : List Fld :=
  [F.SBUS_CTL_TS_EN, F.SBUS_CTL_UNAUTH_RESP, F.SBUS_CTL_EN, F.SBUS_PLCA_CFG_ROLE, F.SBUS_PLCA_CFG_NODE_CNT, F.SBUS_PLCA_CFG_TO_TIMER,
   F.SBUS_PLCA_CFG_NODE_ID, F.SBUS_MAC_ADDR]

/-- The register fields that the always-on domain keeps (13_dome_power.md R327; 14_clocks_and_crossings.md R345;
18_start_up.md R413; 15_shelf_bus.md R353). DEDUCED, notes/assumptions/63.md. -/
def aonFields : List Fld :=
  [F.DOME_FAULT_VALID, F.DOME_FAULT_CAUSE, F.DOME_FAULT_IN_SEQ, F.DOME_FAULT_RAIL, F.DOME_FAULT_MV, F.GLB_STRAPS_XSPI_EN,
   F.GLB_STRAPS_SHELF_ID, F.CLK_CTL_TOD_RESTORE] ++ sbusFields

/-- The shelf bus's registers at their reset values; the MAC address is the one of R355. DEDUCED, notes/assumptions/63.md. -/
def sbusRegsReset (s : State) : State :=
  setF F.SBUS_MAC_ADDR (0x0AF072400000 + s.get F.GLB_STRAPS_SHELF_ID) (seqAll (fun f t => setF f f.rst t) sbusFields s)

/-- What stays of the global state. -/
def Glb.aon (g : Glb) : Glb :=
  { Glb.reset with mode := g.mode, wake := g.wake, perst := g.perst, perstHeld := g.perstHeld, perstPme := g.perstPme }

def Start.aon (x : Start) : Start :=
  { x with ddrTrained := false, replayed := false, vaultHandled := false, warm := false, memActive := false }

def ClkSt.aon (c : ClkSt) : ClkSt :=
  { ClkSt.reset with ticks := c.ticks, tickAcc := c.tickAcc, recTod := c.recTod, recTicks := c.recTicks, recOk := c.recOk }

/-- The almanac's bytes stay; nothing waits at its port. -/
def AlmSt.aon (a : AlmSt) : AlmSt := { AlmSt.reset with bytes := a.bytes, wp := a.wp, cut := a.cut, train := a.train }

/-- The OTP stays. -/
def LcsSt.aon (l : LcsSt) : LcsSt := { LcsSt.reset with slots := l.slots, fused := l.fused, revoked := l.revoked, hashes := l.hashes }

def FindSt.aon (f : FindSt) : FindSt := { FindSt.reset with ir := f.ir, boundary := f.boundary, drive := f.drive }

/-- Rails, sequencers and pins stay; the script banks are built-in again. -/
def DomeSt.aon (d : DomeSt) : DomeSt :=
  { d with
    bank0 := DomeSt.reset.bank0
    bank1 := DomeSt.reset.bank1
    bank := 0
    flip := false
    marginRail := none
    marginWait := false
    fans := []
    thermOvr := false
    tj := DomeSt.reset.tj
    hot110 := 0
    hot105 := false }

/-- The wake matcher's key, nonces and floor stay, and who coordinates the bus. -/
def SbusSt.aon (b : SbusSt) : SbusSt :=
  { SbusSt.reset with nonces := b.nonces, floor := b.floor, key := b.key, ident := b.ident, yielded := b.yielded, csma := b.csma,
                        fails := b.fails, quar := b.quar, tx := b.tx.filter (·.ready), txq := b.txq }

/-- The medium keeps its rows. -/
def MedSt.aon (m : MedSt) : MedSt := { MedSt.reset with rows := m.rows }

/-- The journal and the checkpoints stand on media. -/
def DurSt.aon (d : DurSt) : DurSt :=
  { DurSt.reset with journal := d.journal, ckpts := d.ckpts, lastDrain := d.lastDrain, runEpoch := d.runEpoch }

def CiphSt.aon (c : CiphSt) : CiphSt := { CiphSt.reset with vaults := c.vaults, nextKey := c.nextKey }

def ImgSt.aon (i : ImgSt) : ImgSt := { ImgSt.reset with copies := i.copies, bootSets := i.bootSets }

/-- Every domain but the always-on domain is off: registers, SRAM and working memory are lost. What the almanac, the OTP, the
medium, the rails and the always-on domain hold stays. DEDUCED, notes/assumptions/63.md. -/
def loseCore (s : State) : State :=
  let c := diesCut s
  { c with
    regs := aonFields.foldl (fun t f => tput f.rst t f.key (s.get f)) []
    holds := []
    glb := c.glb.aon
    start := c.start.aon
    log := LogSt.reset
    spec := SpecSt.reset
    clk := c.clk.aon
    alm := c.alm.aon
    lcs := c.lcs.aon
    find := c.find.aon
    dome := c.dome.aon
    sbus := c.sbus.aon
    host := HostSt.reset
    xlat := XlatSt.reset
    coal := CoalSt.reset
    med := c.med.aon
    drift := DriftSt.reset
    fld := FldSt.reset
    dur := c.dur.aon
    wm := WmSt.reset
    ciph := c.ciph.aon
    regu := RegSt.reset
    ledg := LedgSt.reset
    ring := RingSt.reset
    img := c.img.aon }

/-- Every domain is off: the known-answer tests of the cipher lanes count from the next power-up. -/
def domainsOff (s : State) : State := s.modDome (fun d => { d with pd := [], laneBad := 0 })

/-- The mode that GLB_MODE_STATUS shows in FAULT-HALT (R15). -/
def haltShow (s : State) : State := s |> setF F.GLB_MODE_STATUS_CURRENT 4 |> setF F.GLB_MODE_STATUS_LAST_SRC 3

/-- DOME_FAULT takes the first failure (13_dome_power.md R327). DEDUCED, notes/assumptions/44.md. -/
def faultWrite (cause rail mv : Nat) (inSeq : Bool) (s : State) : State :=
  s |> setF F.DOME_FAULT_VALID 1 |> setF F.DOME_FAULT_CAUSE cause |> setB F.DOME_FAULT_IN_SEQ inSeq |> setF F.DOME_FAULT_RAIL rail
    |> setF F.DOME_FAULT_MV mv

/-- A rail fault or a thermal trip: FAULT-HALT (R327, R12). The almanac counts the power-off at once. `cause` as DOME_FAULT
encodes it. DEDUCED, notes/assumptions/44.md. -/
def railFault (cause rail mv : Nat) (s : State) : State :=
  if s.glb.mode = .faultHalt then s
  else
    let fan := s.on F.DOME_CTL_HALT_FAN_S
    let s1 := almCut (railsCut (faultWrite cause rail mv s.seqsBusy s))
    let s2 := odoInc odoDirty (if s1.coreOn then todRecord s1 else s1)
    let s3 := loseCore (domainsOff (setCounted (s2.odo odoEpoch % 2 ^ 32) s2))
    (s3.modGlb (fun g => { g with mode := .faultHalt, perstHeld := false, perstPme := false, wake := false })).modStart
        (fun x => { x with source := 0, relPend := false })
      |> (fun t => t.modDome (fun d => { d with haltFan := fan })) |> haltShow

/-- The failure of a rail: a device rail's, or a plate's while DOME_CTL.PLATE_HALT is 1, leads to FAULT-HALT; otherwise it is
a plate fault (R318). -/
def railFail (cause rail mv : Nat) (s : State) : State :=
  let s1 := modRail rail (fun r => { r with phase := .failed, mv := mv }) s
  if rail < 8 ∨ s.on F.DOME_CTL_PLATE_HALT then railFault cause rail mv s1
  else
    let s2 := plateFault ((rail - 8) / 2) cause rail s1
    modRail rail (fun r => { r with phase := .failed }) s2

/-- Power is gone: nothing but what survives it (07_durability.md R178). DEDUCED, notes/assumptions/41.md. DEDUCED, notes/assumptions/44.md. -/
def powerGone (s : State) : State :=
  (loseCore (domainsOff s)).modGlb (fun g => { g with mode := .off, wake := false, perstHeld := false, perstPme := false })

/-- R330, native: every enable is released at once, the record being written completes, the rows in flight are lost.
DEDUCED, notes/assumptions/44.md. -/
def collapseNative (s : State) : State :=
  (powerGone (railsCut (almFinish (faultWrite 6 0xFF (tgetD 1 s.dome.adc 9 - 1) s.seqsBusy s)))).modStart
    (fun x => { x with collapsed := true, relPend := false })

/-- Every WAIT_DOWN of the sequence that runs becomes a delay of 50 us. DEDUCED, notes/assumptions/44.md. -/
def legacySteps (l : List ScriptStep) : List ScriptStep := l.map (fun x => if x.op = .waitDown then ⟨.delay, 0, 50⟩ else x)

end Sys2Proof.Machine
end

