-- ==== Sys2Proof/Machine/Start.lean ====
section
/-! DEFINITION. The cold start up to the image load, and the life-cycle records it settles (18_start_up.md R411 to R421;
17_almanac_life_cycle_finder.md R397 to R403). -/

namespace Sys2Proof.Machine

/-! ### Life cycle in the OTP and its mirror (R397, R401) -/

def lcManufacture : Nat := 0
def lcProvision : Nat := 1
def lcDevelop : Nat := 2
def lcService : Nat := 3
def lcReturn : Nat := 4
def lcDecommission : Nat := 5

/-- The state of an OTP slot: the one bit it reads, DECOMMISSION where it reads more. -/
def slotState (bits : Nat) : Nat :=
  match (List.range 6).filter (fun k => bits.testBit k) with
  | [k] => k
  | _ => lcDecommission

/-- The state of the highest slot that is not blank. -/
def LcsSt.state (l : LcsSt) : Nat := slotState (l.slots.getLastD 1)

def mirrorAddr : Nat := 0x2000

/-- The mirror record. -/
def State.mirrorBytes (s : State) (st pend : Nat) : List Nat :=
  almRecord ([0x0A, 0x1C, 1, st, pend, s.lcs.slots.length, 0, 0] ++ numBytes 8 s.clk.tod)

/-- Write the mirror; a refused write leaves it as it stands. -/
def mirrorWrite (st pend : Nat) (s : State) : State := (almDevice mirrorAddr (s.mirrorBytes st pend) s).2

/-- Zero a range of the almanac. -/
def almZero (k n : Nat) (s : State) : State := (almDevice k (List.replicate n 0) s).2

/-- Vault records A and B. -/
def vaultsZero (s : State) : State := s |> almZero (vaultAddr 0) 256 |> almZero (vaultAddr 1) 256

/-- The shelf key record; without it there is no key. -/
def shelfKeyZero (s : State) : State :=
  (almZero 0x100 256 s).modSbus (fun b => { b with key := none })

/-- The customer area. -/
def customerZero (s : State) : State := seqAll (fun i t => almZero (0x38000 + 256 * i) 256 t) (List.range 128) s

/-- The retirement lists, bit 0 of list 0 staying 1, and with them every KID of the tables on media: a life-cycle reset
(09_cipher_and_meridian.md R219). -/
def retireZero (s : State) : State :=
  let s1 := (almDevice 0x2E00 (1 :: List.replicate 511 0) s).2
  s1.modDur (fun d => { d with ckpts := d.ckpts.map (fun c => { c with kids := [], cur := [] }) })

/-- Step 5 of R400: the records zeroed or changed between two states (R399). -/
def lcRecords (old new : Nat) (s : State) : State :=
  if new = lcDecommission then customerZero (shelfKeyZero (vaultsZero s))
  else if old = lcService ∧ new = lcReturn then
    (shelfKeyZero (vaultsZero s)).modLcs (fun l => { l with revoked := l.revoked ||| (l.fused &&& 0xC) })
  else if old = lcReturn ∧ new = lcProvision then customerZero (almZero (rosterAddr 0) 256 (retireZero s))
  else s

/-- The keys leave the key store (R400 step 8). DEDUCED, notes/assumptions/53.md. -/
def keysZeroise (s : State) : State :=
  s.modCiph (fun c => { c with kids := c.kids.map (fun p => (p.1, { p.2 with held := false })) })

/-- LCS_STATUS and LCS_FINDER follow the OTP (R398, R410). -/
def lcShow (s : State) : State :=
  let st := s.lcs.state
  let open_ := decide (st = lcManufacture) || decide (st = lcDevelop)
  s |> setF F.LCS_STATUS_STATE st |> setF F.LCS_STATUS_SLOTS s.lcs.slots.length |> setF F.LCS_STATUS_KEY_FUSED s.lcs.fused
    |> setF F.LCS_STATUS_KEY_REVOKED s.lcs.revoked |> setB F.LCS_FINDER_ENABLED (open_ || s.on F.LCS_FINDER_UNLOCKED)
    |> (fun t => if s.on F.LCS_FINDER_UNLOCKED then t else setF F.LCS_FINDER_SCOPE (if open_ then 7 else 0) t)

/-- What a start finds in the mirror and does with it (R401). -/
def mirrorSettle (s : State) : State :=
  let st := s.lcs.state
  let old := s.alm.byte (mirrorAddr + 3)
  let pend := s.alm.byte (mirrorAddr + 4)
  let s1 :=
    if !s.recordOk mirrorAddr 0x1C0A then mirrorWrite st 0xFF s |> setF F.LCS_STATUS_MIRROR_FIX 1
    else if pend = 0xFF ∧ old = st ∧ s.alm.byte (mirrorAddr + 5) = s.lcs.slots.length then s
    else if pend ≠ 0xFF ∧ old = st then
      mirrorWrite st 0xFF s |> setF F.LCS_RESULT_STATUS 6 |> setF F.LCS_RESULT_OP 1
    else if pend = st then
      s |> lcRecords old st |> mirrorWrite st 0xFF |> odoInc odoLc |> keysZeroise |> setF F.LCS_RESULT_STATUS 0 |> setF F.LCS_RESULT_OP 1
    else mirrorWrite st 0xFF s |> setF F.LCS_STATUS_MIRROR_FIX 1
  lcShow s1

/-- A new token challenge (R407). -/
def newChallenge (s : State) : State :=
  let (c, s1) := takeNat s
  setF F.LCS_CHALLENGE c s1

/-! ### Stages (R417, R421) -/

def stageWipe : Nat := 1
def stageImage : Nat := 2
def stageTrain : Nat := 3
def stageReplay : Nat := 4
def stageReady : Nat := 5
def stageWarm : Nat := 6
def stageHaltWipe : Nat := 8
def stageHaltPop : Nat := 9
def stageHaltCipher : Nat := 0xA
def stageMailbox : Nat := 0xB

def State.stage (s : State) : Nat := s.get F.GLB_START_STATUS_STAGE
def setStage (v : Nat) (s : State) : State := setF F.GLB_START_STATUS_STAGE v s

/-! ### The cold start (R414) -/

/-- Sources of a start (R421). -/
def srcPowerOn : Nat := 0
def srcPerst : Nat := 1
def srcRestart : Nat := 2
def srcLife : Nat := 3
def srcPerstCold : Nat := 4
def srcPerstWarm : Nat := 5
def srcPerstStart : Nat := 6

/-- The DOME_FAULT record of the last power-off (13_dome_power.md R327, R335). DEDUCED, notes/assumptions/44.md. -/
def faultRecord (s : State) : State :=
  if s.on F.DOME_FAULT_VALID then
    let c := s.get F.DOME_FAULT_CAUSE
    s |> logPut sevFatal 0x1001 c (s.get F.DOME_FAULT_RAIL) (s.get F.DOME_FAULT_MV) 0
      |> setErr (if c = 5 then F.DOME_ERR_STATUS_THERMAL else if c = 6 then F.DOME_ERR_STATUS_COLLAPSE else F.DOME_ERR_STATUS_RAIL_FAULT) intDome
  else s

/-- Step 2: the built-in PLATE_UP on every plate present; a plate whose rails already stand is not sequenced again. -/
def platesUp (s : State) : State :=
  seqAll (fun p t =>
    if t.dome.prsnt.testBit p then
      let t1 := setMgmt p pPresent (setReq p true t)
      if (t1.seq p).phase = .on then chanStart p t1 else seqOn p t1
    else t) (List.range 16) s

/-- Straps are sampled (R413). -/
def strapsTake (v : Nat) (s : State) : State :=
  s |> setF F.GLB_STRAPS_XSPI_EN (v / 128) |> setF F.GLB_STRAPS_SHELF_ID v

/-- Steps 1 to 5 of a cold start by `source`. `us` and `fail` are the time and the outcome of the SRAM wipe; where it fails the
start stops before the image load (R402). DEDUCED, notes/assumptions/43.md. -/
def coldStart (source us : Nat) (fail : Bool) (s : State) : State :=
  let restore := s.on F.CLK_CTL_TOD_RESTORE
  let cut := s.alm.cut
  let lost := s.start.aonLost
  let s1 := (setF F.CLK_CTL_TOD_RESTORE F.CLK_CTL_TOD_RESTORE.rst (loseCore s)).modAlm (fun a => { a with cut := false })
  s1 |> odoRepairAll |> when cut (setErr F.ALM_ERR_STATUS_CUT intAlm) |> almStatus
    |> platesUp |> mirrorSettle
    |> setF F.LCS_WIPE_SRAM_US us |> setB F.LCS_WIPE_FAIL fail
    |> tailRestore |> faultRecord |> todRestore restore
    |> odoInc odoEpoch |> newChallenge |> meridKeys |> setB F.DUR_STATUS_HU_OK s.dome.huOk
    |> setF F.GLB_RESET_STATUS_SOURCE source |> setB F.GLB_RESET_STATUS_AON_LOST lost
    |> setB F.DUR_CTL_SCAN_NEXT s.scanNext |> sbusRegsReset |> setF F.ALM_STATUS_READY 1
    |> setStage (if fail then stageHaltWipe else stageImage)
    |> (fun t => t.modStart (fun x => { x with relAt := t.now, relPend := false, source := 0, aonLost := false, collapsed := false }))
    |> (fun t => t.modGlb (fun g => { g with mode := .starting, wake := false, perstHeld := false, perstPme := false }))
    |> pdSettle

/-- A cold start from outside: PERST# is released with these straps, and the rails stand (R413, R414). DEDUCED, notes/assumptions/43.md. -/
def perstStart (straps us : Nat) (fail : Bool) (s : State) : State :=
  coldStart s.start.source us fail (strapsTake straps s)

end Sys2Proof.Machine
end

