-- ==== Sys2Proof/Machine/Modes.lean ====
section
/-! DEFINITION. The device modes: targets, entries and exits, STANDBY, PERST# while running (01_the_shelf_controller.md R10
to R15, R17; 07_durability.md R180; 18_start_up.md R411 to R420; 02_host_port.md R38; 12_voxsicel_image.md R310). -/

namespace Sys2Proof.Machine

/-- CURRENT's code of a mode (R15). -/
def Mode.code : Mode → Nat
  | .quiet => 1
  | .parked => 2
  | .standby => 3
  | .faultHalt => 4
  | _ => 0

/-- Targets as GLB_MODE_CTL encodes them. -/
def tActive : Nat := 0
def tQuiet : Nat := 1
def tParked : Nat := 2
def tStandby : Nat := 3

def targetMode (t : Nat) : Mode := if t = 0 then .active else if t = 1 then .quiet else if t = 2 then .parked else .standby

/-! ### Pending targets (R13) -/

/-- PENDING and PEND_VALID show the pending target; while the device starts GLB_MODE_STATUS reads 0 (R15). -/
def pendShow (s : State) : State :=
  match s.glb.heldTarget with
  | some p =>
    if s.glb.mode = .starting then s else s |> setF F.GLB_MODE_STATUS_PEND_VALID 1 |> setF F.GLB_MODE_STATUS_PENDING p.1
  | none => s |> setF F.GLB_MODE_STATUS_PEND_VALID 0 |> setF F.GLB_MODE_STATUS_PENDING 0

/-- A target is held. DEDUCED, notes/assumptions/42.md. -/
def pendSet (t src : Nat) (s : State) : State := pendShow (s.modGlb (fun g => { g with heldTarget := some (t, src) }))
def pendClear (s : State) : State := pendShow (s.modGlb (fun g => { g with heldTarget := none }))

/-- PARKED with PENDING = STANDBY: the device waits for the handshake. -/
def State.awaitsPme (s : State) : Bool :=
  decide (s.glb.mode = .parked) && s.glb.transTo.isNone && s.glb.heldTarget.any (fun p => p.1 == tStandby)

/-- A Sanitize runs (02_host_port.md R38). -/
def State.sanitizeRuns (s : State) : Bool := s.host.lds.any (fun p => p.2.bg.any (fun b => b.opcode == 0x4400 || b.opcode == 0x4401))

/-- A reload, an activation or a swap runs (12_voxsicel_image.md R310). -/
def State.reloadRuns (s : State) : Bool := s.on F.IMG_RELOAD_STATUS_BUSY || s.img.act.isSome || s.on F.IMG_ASSIST_SWAP_BUSY

/-- The target waits for something other than a transition. DESIGN CHOICE, notes/assumptions/26.md. -/
def State.targetHeld (s : State) (t : Nat) : Bool := s.reloadRuns || (decide (tParked ≤ t) && s.sanitizeRuns)

/-! ### Starts of transitions (R12) -/

/-- Ingress closes: a mode stay begins, and the requests that wait for credit or at the link are handled as R11 states.
DEDUCED, notes/assumptions/27.md. -/
def ingressClose (s : State) : State :=
  let waiting := s.host.ingress
  let link := [0, 1].flatMap (fun p => (s.port p).linkQ)
  let s1 := (s.modGlb (fun g => { g with ingressClosed := true, stayLds := [], stayAny := false })).modHost (fun h => { h with ingress := [] })
  let s2 := seqAll (fun p t => if (t.port p).linkQ = [] then t else modPort p (fun q => { q with linkQ := [] }) t) [0, 1] s1
  regStatus (seqAll (fun (r : HReq) t => parkRefuse r (credBack r.port r.cls t)) (waiting ++ link) s2)

/-- The entry into PARKED: ingress closes, the rings stop, the gathers close and the commit is forced (R12; 07_durability.md
R180). -/
def parkStart (s : State) : State := s |> ingressClose |> ringsStop |> mergeFlushAll |> syncDrain .mode

/-- The plates that an entry into PARKED took down and its exit powers again (15_shelf_bus.md R368). -/
def State.parkedPlates (s : State) : List Nat :=
  (List.range 16).filter (fun p => decide (s.mgmt p = pOnline) || decide (s.mgmt p = pPowering))

/-- The standby core is reloaded from the running image's boot slot; with an image from the mailbox it stays empty
(12_voxsicel_image.md R309). STANDBY_READY follows from its firmware. -/
def standbyReload (s : State) : State :=
  let b := !s.on F.IMG_ASSIST_RUNNING
  if s.get F.IMG_STATUS_SOURCE = 7 then s
  else
    match s.img.run with
    | some i =>
      if b then (s.modImg (fun x => { x with asstB := some i.asstB })) |> setF F.IMG_ASSIST_VER_B i.asstB.ver
      else (s.modImg (fun x => { x with asstA := some i.asstA })) |> setF F.IMG_ASSIST_VER_A i.asstA.ver
    | none => s

/-- The exit from PARKED: HU_EN goes high, the plates are powered, DDR5 leaves self-refresh, every drift record and ring slot
is at its reset value (R12; 05_drift_and_references.md R114; 08_working_memory.md R199; 10_transit_rings.md R266). -/
def unparkStart (s : State) : State :=
  s |> huEnable true |> (fun t => seqAll seqOn t.parkedPlates t) |> drecClearAll |> slotsReset
    |> (fun t => seqAll (fun c u => setF (F.WMEM_CH_STATUS_SELF_REF c) 0 u) (List.range 4) t) |> setF F.WMEM_STATUS_TRAIN_SRC 3
    |> standbyReload |> pdSettle

/-- A transition starts. DEDUCED, notes/assumptions/42.md. -/
def modeStart (t src : Nat) (s : State) : State :=
  let dest := if t = tStandby then Mode.parked else targetMode t
  let old := s.glb.mode
  let s1 := (pendClear s).modGlb (fun g => { g with transTo := some dest, transSrc := src })
    |> setF F.GLB_MODE_STATUS_IN_TRANSITION 1 |> setF F.GLB_MODE_STATUS_LAST_SRC src
    |> when (decide (t = tStandby)) (pendSet tStandby src)
  if dest = .parked then parkStart s1
  else if old = .parked then unparkStart s1
  else pdSettle s1

/-! ### STANDBY (R12, R17) -/

/-- Mode transition complete: the record and MODE_DONE (16_spectrograph_and_logbook.md R382; R15). -/
def modeRecord (old new : Mode) (s : State) : State :=
  s |> setErr F.GLB_MODE_STATUS_MODE_DONE intMode
    |> logPut (if new = .active ∨ new = .quiet then sevInfo else sevNotice) 0x0001 old.code new.code (s.get F.GLB_MODE_STATUS_LAST_SRC) 0

/-- The entry into STANDBY: the logbook tail is copied, the time recorded, every domain but the always-on domain goes off and
DEVICE_DOWN runs. `source` is the source of the start to come; a PERST# that is already asserted powers the device up again
(13_dome_power.md R321, R322). DEDUCED, notes/assumptions/42.md. DEDUCED, notes/assumptions/43.md. -/
def standbyEnter (source : Nat) (s : State) : State :=
  let src := (s.glb.heldTarget.map (·.2)).getD s.glb.transSrc
  let s1 := todRecord (tailCopy (modeRecord .parked .standby (setF F.GLB_MODE_STATUS_LAST_SRC src (setHostDirty false s))))
  let s2 := seqOff devSeq ((domainsOff s1).modDome (fun d => { d with huEn := false }))
  let s3 := (loseCore s2).modGlb (fun g => { g with mode := .standby, perstHeld := false, perstPme := false })
  let s4 := (s3.modStart (fun x => { x with source := source })) |> setF F.GLB_MODE_STATUS_CURRENT 3 |> setF F.GLB_MODE_STATUS_LAST_SRC src
  if s4.glb.perst ∨ s4.start.relPend then seqOn devSeq s4 else s4

/-- The handshake of PME_Turn_Off, or PERST# in its place, completes (R12, R412). -/
def pmeAck (source : Nat) (s : State) : State := if s.awaitsPme then standbyEnter source s else s

/-! ### Targets (R12 to R14) -/

/-- A target is written by source `src` (1 host, 2 shelf bus). DEDUCED, notes/assumptions/42.md. -/
def modeTarget (t src : Nat) (s : State) : State :=
  match s.glb.mode with
  | .off | .standby | .faultHalt => s
  | .starting => if s.lcs.trans.isSome then s else pendSet t src s
  | m =>
    if s.lcs.trans.isSome ∨ s.dur.drain ≠ 0 then s
    else if s.glb.transTo.isSome ∨ s.targetHeld t then pendSet t src s
    else if t = m.code then (if t = tParked ∨ !s.awaitsPme then pendClear s else s)
    else if m = .parked ∧ t = tStandby then (if s.awaitsPme then s else pendSet t src s)
    else modeStart t src s

/-- A pending target that nothing holds any more starts; PARKED with PENDING = STANDBY waits for the handshake, which PERST#
may have given, unless the shelf bus forces it (R13, R14, R412). -/
def pendGo (s : State) : State :=
  match s.glb.heldTarget with
  | none => s
  | some (t, src) =>
    if s.glb.mode = .starting ∨ s.glb.transTo.isSome ∨ s.lcs.trans.isSome ∨ s.dur.drain ≠ 0 ∨ s.targetHeld t then s
    else if s.glb.mode = .parked ∧ t = tStandby then (
      if s.glb.perstPme then standbyEnter srcPerstCold s
      else if s.glb.force then standbyEnter srcPerst (seqAll linkDown [0, 1] (s.modGlb (fun g => { g with force := false }))) else s)
    else modeTarget t src (pendClear s)

/-- A write of GLB_MODE_CTL: TARGET is stored; a reserved encoding is no request. From step 2 of a life-cycle transition until
its reset such writes are ignored (17_almanac_life_cycle_finder.md R400). -/
def modeCtl (v : Nat) (s : State) : State :=
  if s.lcs.trans.isSome ∨ 3 < v % 8 then s
  else modeTarget (v % 8) 1 ((storeAt 0x40 v s).modGlb (fun g => { g with force := false }))

/-! ### PERST# while running (R412) -/

/-- A warm start: the ports go down, mailbox commands abort, the host's own settings return to their reset values; everything
else stays. DEDUCED, notes/assumptions/43.md. -/
def warmStart (s : State) : State :=
  let s1 := seqAll linkDown [0, 1] (mboxAbort (fun _ => true) s)
  let s2 := s1.modHost (fun h =>
    { h with msix := [], pba := [], lds := h.lds.map (fun p => (p.1, { p.2 with irqPolicy := LdSt.reset.irqPolicy, hdm := LdSt.reset.hdm })) })
  let s3 := seqAll (fun p t => modPort p (fun _ => PortSt.reset) t) [0, 1] s2
  (s3.modStart (fun x => { x with memActive := false, warm := true })) |> setStage stageWarm |> setF F.GLB_START_STATUS_WARM 1
    |> setF F.GLB_RESET_STATUS_SOURCE srcPerstWarm

/-- PERST# takes effect in a running device that is in no transition. -/
def perstEffect (s : State) : State :=
  if s.awaitsPme then standbyEnter srcPerstCold s
  else if s.on F.GLB_RESET_CTL_PERST_COLD then
    pendGo (modeTarget tStandby 1 (s.modGlb (fun g => { g with perstPme := true })))
  else warmStart s

/-- PERST# is asserted. DEDUCED, notes/assumptions/43.md. -/
def perstAssert (s : State) : State :=
  if s.glb.perst then s
  else
    let s1 := (s.modGlb (fun g => { g with perst := true, wake := false })).modStart (fun x => { x with relPend := false })
    match s1.glb.mode with
    | .off => s1
    | .standby => seqOn devSeq s1
    | .faultHalt => if s1.start.source = srcRestart then seqOn devSeq s1 else s1
    | .starting => seqAll linkDown [0, 1] (s1.modStart (fun x => { x with source := srcPerstStart }))
    | _ => if s1.glb.transTo.isSome then s1.modGlb (fun g => { g with perstHeld := true }) else perstEffect s1

/-- A PERST# that has been released begins the start it governs, as soon as the rails stand; a warm start is timed from it. -/
def perstGo (s : State) : State :=
  let x := s.start
  let begin_ (t : State) : State := perstStart x.relStraps x.relUs x.relFail t
  match s.glb.mode with
  | .off => if !s.glb.perst && s.poweredUp && s.start.vin then begin_ s else s
  | .standby => if x.relPend && s.poweredUp then begin_ s else s
  | .faultHalt => if x.relPend && s.poweredUp && decide (x.source = srcRestart) then begin_ s else s
  | .starting => if x.relPend then begin_ s else s
  | _ => if x.relPend && x.warm && !s.glb.perstHeld then s.modStart (fun y => { y with relPend := false, relAt := s.now }) else s

/-- PERST# is released, with the straps, the time and the outcome of the wipe of the cold start that may follow. DEDUCED, notes/assumptions/43.md. -/
def perstRelease (straps us : Nat) (fail : Bool) (s : State) : State :=
  if s.glb.perst then
    perstGo ((s.modGlb (fun g => { g with perst := false })).modStart
      (fun x => { x with relPend := decide (s.glb.mode ≠ .faultHalt) || decide (x.source = srcRestart), relStraps := straps, relUs := us,
                         relFail := fail }))
  else s

/-! ### Ends of transitions (R12, R13; 07_durability.md R180) -/

/-- What the data path still has to do before an entry into PARKED ends: the forced commit, the coalescing buffer and the
staging, reads and die operations. -/
def State.parkReady (s : State) : Bool :=
  s.coal.gathers == [] && !s.coal.frames.any (fun e => e.2.st == .staged || e.2.st == .programming) && s.host.writeQ == [] &&
    s.med.reads == [] && s.med.planes == [] &&
    !s.med.dies.any (fun e => match e.2.op with | .program _ _ => true | .erase _ _ => true | _ => false) &&
    !s.dur.forces.any (fun f => decide (f.what = .mode)) && s.ciph.ops == []

/-- No domain is in RAMP. -/
def State.noRamp (s : State) : Bool := !s.dome.pd.any (fun p => p.2 == .ramp)

/-- What was captured since the forced commit is sealed and stands on media: the entry's checkpoint and PARK_END row come after
it. -/
def commitAll (s : State) : State :=
  let s1 := sealAll false s
  seqAll (fun w t => if w.done then t else journalDone w.row.jseq t) s1.dur.rows s1

/-- Steps 3 and 4 of R180: the CLEAN checkpoint and the PARK_END row. -/
def parkMedia (s : State) : State :=
  let s1 := ckptComplete (commitAll s)
  let s2 := ckptComplete (ckptStart true s1)
  commitAll (endRow false true s2)

/-- PLATE_DOWN of a plate whose rails stand or rise; its request and its MGMT_VIEW stay (15_shelf_bus.md R368). -/
def parkPlate (p : Nat) (s : State) : State :=
  match (s.seq p).phase with
  | .on | .up => seqOff p (channelsOff p s)
  | _ => s

/-- The standby core loses its memory with its power. -/
def standbyLost (s : State) : State :=
  let s1 := setF F.IMG_ASSIST_STANDBY_READY 0 s
  if s.on F.IMG_ASSIST_RUNNING then (s1.modImg (fun i => { i with asstA := none })) |> setF F.IMG_ASSIST_VER_A 0
  else (s1.modImg (fun i => { i with asstB := none })) |> setF F.IMG_ASSIST_VER_B 0

/-- The rest of an entry into PARKED: the Meridian writes its dirty lines back (09_cipher_and_meridian.md R234); with the link in L1.2 the DPLL runs in XTAL (14_clocks_and_crossings.md R336, R339). -/
def parkEnd (s : State) : State :=
  let s1 := setHostDirty false (metaFlush (mergeFlushAll (parkMedia s)))
  let s2 := seqAll parkPlate (List.range 16) (odoInc odoPark s1)
  let s3 := (huEnable false (standbyLost s2)).modDrift (fun d => { d with meas := [] })
  let s4 := seqAll (fun p t => if (t.port p).up then modPort p (fun q => { q with l1 := true }) t else t) [0, 1] s3
  seqAll (fun c t => pllStop (34 + c) (setF (F.WMEM_CH_STATUS_SELF_REF c) 1 t)) (List.range 4) (sweepStatus (dpllToXtal (recDisqualified false s4)))

/-- May the transition to `dest` end now? -/
def State.modeReady (s : State) (dest : Mode) : Bool :=
  s.noRamp &&
    match dest with
    | .parked => s.parkReady
    | _ => decide (s.glb.mode ≠ .parked) ||
        s.parkedPlates.all (fun p => decide ((s.seq p).phase = .on) && (plateChs p).all s.chSettled)

/-- A transition ends: CURRENT, MODE_DONE, the record; PERST# that waited takes effect, otherwise the pending target starts.
DEDUCED, notes/assumptions/42.md. -/
def modeFinish (dest : Mode) (s : State) : State :=
  let old := s.glb.mode
  let s1 := (s.modGlb (fun g => { g with mode := dest, transTo := none, ingressClosed := decide (dest = .parked) }))
    |> setF F.GLB_MODE_STATUS_IN_TRANSITION 0 |> setF F.GLB_MODE_STATUS_CURRENT dest.code
  let s2 := pdSettle (modeRecord old dest (when (decide (old = .quiet)) wakeAll (when (decide (old = .parked)) trainRecords s1)))
  if s2.glb.perstHeld then perstGo (perstEffect (s2.modGlb (fun g => { g with perstHeld := false }))) else pendGo s2

/-- R13: a mode transition completes. -/
def modeDone (s : State) : State :=
  match s.glb.transTo with
  | none => s
  | some dest =>
    if s.modeReady dest then modeFinish dest (if dest = .parked then parkEnd s else s) else s

end Sys2Proof.Machine
end

