-- ==== Sys2Proof/Machine/KeyRun.lean ====
section
/-! DEFINITION. Key operations as they go on, and what ends with them: KEY ring commands, Sanitize and Secure Erase, a
life-cycle transition (09_cipher_and_meridian.md R222 to R226; 10_transit_rings.md R260; 02_host_port.md R38;
17_almanac_life_cycle_finder.md R400). -/

namespace Sys2Proof.Machine

/-! ### Sanitize and Secure Erase (R38) -/

/-- Return codes of the mailbox (PRESUMED: those of CXL 3.1). PRESUMED, notes/assumptions/23.md. -/
def rcOk : Nat := 0
def rcBackground : Nat := 1
def rcInvalidInput : Nat := 2
def rcUnsupported : Nat := 3
def rcBusy : Nat := 6
def rcFwInvalid : Nat := 0xA
def rcSlot : Nat := 0xB
def rcRolledBack : Nat := 0xC
def rcColdReset : Nat := 0xD
def rcHandle : Nat := 0xE
def rcAddress : Nat := 0xF
def rcPoisonLimit : Nat := 0x10
def rcAborted : Nat := 0x12
def rcSecurity : Nat := 0x13

/-- The folios of an LD that something maps or that writes stand for. -/
def State.ldFolios (s : State) (ld : Nat) : List Nat :=
  ((s.liveEntries.filter (fun e => e.1 == ld)).map (fun e => e.2.1) ++
    (s.coal.gathers.filter (fun g => g.ld == ld)).map (·.folio) ++
    (s.coal.frames.filter (fun e => e.2.ld == ld && (e.2.st == .staged || e.2.st == .programming))).map (fun e => e.2.folio)).eraseDups

/-- Unmap folios of an LD as DISCARD does; one record for all of its range. -/
def unmapAll (ld : Nat) (s : State) : State :=
  seqAll (fun f t => discardFolio ld f t) (s.ldFolios ld) (capture recDiscard ld 0 0 [(s.ld ld).rangeBlocks * 256] s)

/-- The background operation of an LD ends: vector 0 of its view tells of it (R45). -/
def bgEnd (n rc : Nat) (s : State) : State :=
  msixSend n 0 (modLd n (fun l => { l with bg := none, lastBg := l.bg.map (fun b => { b with pct := 100, rc := rc }) }) s)

/-- Step 5 of R38. -/
def sanitizeEnd (n : Nat) (s : State) : State :=
  bgEnd n rcOk (modLd n (fun l => { l with poison := [], poisonOvf := false, logs := [], drops := [] }) (wpClear n wpSanitize s))

/-- Step 3 of R38, once the KIDs are destroyed. Secure Erase then completes. -/
def sanitizeUnmap (n : Nat) (s : State) : State :=
  let s1 := settle (unmapAll n s)
  match (s1.ld n).bg with
  | some b => if b.opcode = 0x4401 then sanitizeEnd n s1 else modLd n (fun l => { l with bg := some { b with pct := 50 } }) s1
  | none => s1

/-- A refused almanac write, or no entropy: the operation stops (R38). -/
def sanitizeFail (n : Nat) (s : State) : State := logOpen bHOST n 0 (bgEnd n rcSecurity (wpClear n wpSanitize s))

/-- Step 4 of R38: a Sanitize that has unmapped its folios completes when no field waits for its erase. DESIGN CHOICE, notes/assumptions/26.md. -/
def sanitizeStep (s : State) : State :=
  if s.fld.eraseQ ≠ [] ∨ s.fld.erasing ≠ [] then s
  else seqAll (fun n t => if (t.ld n).bg.any (fun b => b.opcode == 0x4400 && b.pct == 50) then sanitizeEnd n t else t) (List.range 16) s

/-! ### A life-cycle transition from step 3 on (17_almanac_life_cycle_finder.md R400) -/

/-- A request of LCS_CMD ends. -/
def lcsEnd (op st : Nat) (s : State) : State :=
  let s1 := s |> setF F.LCS_CMD_DONE 1 |> setF F.LCS_RESULT_STATUS st |> setF F.LCS_RESULT_OP op |> setF F.LCS_STATUS_BUSY 0
  if s.on F.LCS_CMD_DONE then s1 else raiseInt intLcs s1

/-- Step 6: the target's bit of the next OTP slot is blown, and the transition is over but for the reset. -/
def LcsSt.blow (l : LcsSt) : LcsSt :=
  match l.trans with
  | some target => { l with slots := l.slots ++ [2 ^ target], trans := none }
  | none => l

/-- Steps 4 to 9: mirror, records, OTP slot, key store, cold reset. DEDUCED, notes/assumptions/59.md. -/
def lcFinish (s : State) : State :=
  match s.lcs.trans with
  | none => s
  | some target =>
    let old := s.lcs.state
    let s1 := s |> mirrorWrite old target |> lcRecords old target
    let s2 := s1.modLcs LcsSt.blow
    let s3 := s2 |> mirrorWrite target 0xFF |> odoInc odoLc |> keysZeroise
    let (us, s4) := takeNat s3
    coldStart srcLife us false s4

/-- Step 3: the device enters PARKED; before CXL.mem ready there is nothing to park. -/
def lcPark (s : State) : State :=
  if s.lcs.trans.isSome then
    if s.glb.mode = .starting ∨ (s.glb.mode = .parked ∧ s.glb.transTo = none) then lcFinish s
    else if s.glb.transTo = some .parked then s
    else modeStart tParked 1 s
  else s

/-- Step 2 could not be done: the transition ends, and nothing else has changed. DEDUCED, notes/assumptions/59.md. -/
def lcFail (st : Nat) (s : State) : State :=
  let s1 := s.modLcs (fun l => { l with trans := none })
  if st = stAlmProtect then lcsEnd 1 3 s1
  else
    let (v, s2) := takeNat s1
    lcsEnd 1 (v % 8) s2

/-! ### The operation at the head (R223) -/

/-- The operation at the head ends; those of the device go on with what they are part of. -/
def keyEnd (o : KeyOp) (st res : Nat) (s : State) : State :=
  let s1 := keyPop o st res s
  if o.op = 7 then (if st = 0 then sanitizeUnmap o.ld s1 else sanitizeFail o.ld s1)
  else if o.op = 8 then (if st = 0 then lcPark s1 else lcFail st s1)
  else s1

/-- As far as the operations go now. -/
def keyRunN : Nat → State → State
  | 0, s => s
  | n + 1, s =>
    match s.ciph.ops with
    | [] => s
    | o :: _ =>
      match keyStep o s with
      | (.done st res, t) => keyRunN n (keyEnd o st res t)
      | (.wait, t) => if t.ciph.ops.head? = some o then s else keyRunN n t

def keyAdvance (s : State) : State := sanitizeStep (keyRunN (4 * s.ciph.ops.length) s)

/-- An operation is queued. -/
def keyPush (o : KeyOp) (s : State) : State := s.modCiph (fun c => { c with ops := c.ops ++ [o] })

/-- An operation of the device itself: 7 for an LD, 8 for every KID. -/
def keyOwn (op ld : Nat) (s : State) : State := keyPush ⟨none, op, 0, 0, ld, false, [], [], 0, 0⟩ s

/-- R260: a KEY command with operation `op` joins the queue once. -/
def ringKey (op : Nat) (c : RCmd) (s : State) : State :=
  if c.opt % 16 ≠ op ∨ c.waiting ≠ 0 then s
  else
    let n (i : Nat) : Nat := c.param.getD i 0 + 256 * c.param.getD (i + 1) 0
    keyAdvance (keyPush ⟨some c.id, op, n 0 % 4096, n 2 % 4096, c.opt / 256 % 16, c.opt.testBit 4, [], [], 0, 0⟩
      (modCmd c.id (fun x => { x with waiting := 1 }) s))

end Sys2Proof.Machine
end

