-- ==== Sys2Proof/Machine/Image.lean ====
section
/-! DEFINITION. The Voxsicel image: its checks, what loading it does, boot pointers, staging, live reload and online activation
(12_voxsicel_image.md R287 to R311). -/

namespace Sys2Proof.Machine

/-! ### Register records (R293) -/

/-- DESIGN CHOICE, notes/assumptions/65.md. -/
def recsPut (l : List RegRec) (s : State) : State := seqAll recPut l s

/-- The register exists and the record has its width. -/
def recFits (r : RegRec) : Bool :=
  match findReg r.off with
  | some x => decide (x.width = 8 * r.size)
  | none => false

/-- Does a record set an RWL field to another value than the running one (R297)? -/
def State.recLocked (s : State) (r : RegRec) : Bool :=
  match findReg r.off with
  | none => false
  | some x => x.flds.any (fun f => f.acc == .rwl && s.get f != r.val / 2 ^ f.lo % 2 ^ f.wid)

/-- The blocks each segment may write. -/
def inGlobal (r : RegRec) : Bool :=
  let b := r.off / 0x10000
  (b ≤ 0x0F && b != 0x03) || (b == 0x30 && !(decide (0x301000 ≤ r.off))) || [0x31, 0x34, 0x35, 0x38, 0x3A].contains b
def inReg (r : RegRec) : Bool := r.off / 0x10000 == 0x36
def inSbus (r : RegRec) : Bool := r.off / 0x10000 == 0x3B
def inPolicy (r : RegRec) : Bool := decide (0x330200 ≤ r.off) && decide (r.off < 0x330300)
def inDome (r : RegRec) : Bool := r.off / 0x10000 == 0x39

/-! ### Scripts (13_dome_power.md R320) -/

/-- Every ENABLE is followed by WAIT_UP of its rail before the next ENABLE. -/
def enablesOk : List ScriptStep → Bool
  | [] => true
  | x :: t =>
    (x.op != .enable || (t.takeWhile (fun y => y.op != .enable)).any (fun y => y.op == .waitUp && y.rail == x.rail)) && enablesOk t

/-- Every DISABLE is followed by WAIT_DOWN of its rail. -/
def disablesOk : List ScriptStep → Bool
  | [] => true
  | x :: t => (x.op != .disable || t.any (fun y => y.op == .waitDown && y.rail == x.rail)) && disablesOk t

def railsOf (op : ScriptOp) (l : List ScriptStep) : List Nat := (l.filter (fun x => x.op == op)).map (·.rail)

/-- Length and arguments of a script. -/
def scriptFits (l : List ScriptStep) : Bool := decide (l.length ≤ 64) && l.all (fun x => decide (x.arg ≤ 100000)) && enablesOk l

def Scripts.ok (d : Scripts) : Bool :=
  scriptFits d.plateUp && scriptFits d.plateDown && scriptFits d.deviceDown && scriptFits d.drainDown &&
    disablesOk d.plateUp && disablesOk d.plateDown && disablesOk d.deviceDown &&
    (d.plateUp.getLast?.map (·.op) == some .rstRelease) && (d.plateDown.head?.map (·.op) == some .rstAssert) &&
    (railsOf .disable d.plateDown == (railsOf .enable d.plateUp).reverse) &&
    (railsOf .disable d.deviceDown == (List.range 8).reverse)

/-! ### Checks (R290, R292, R293) -/

def Image.covers (i : Image) : Bool := i.popChans.all (fun c => (i.chan.filter (fun p => p.1.testBit c)).length == 1)

/-- The segment table and the bodies the loader reads itself; a BAD_ENTRY in REG fails the image as well (R296). DEDUCED, notes/assumptions/49.md. -/
def State.tableCheck (s : State) (i : Image) : Bool :=
  i.tableOk && i.covers && i.dome.ok &&
    i.global.all (fun r => inGlobal r && recFits r) && i.reg.all (fun r => inReg r && recFits r) &&
    i.sbus.all (fun r => inSbus r && recFits r) && i.policy.all (fun r => inPolicy r && recFits r) &&
    i.domeRegs.all (fun r => inDome r && recFits r) &&
    (let t := recsPut i.reg s
     (List.range 19).all t.entryOk)

/-! ### Boot pointers (R299) -/

def bootAddr (slot : Nat) : Nat := 0x2400 + 0x100 * slot
def State.bootUsable (s : State) (slot : Nat) : Bool := s.recordOk (bootAddr slot) 0x1E0A
/-- STATE of a slot: 0 EMPTY, 1 STAGED, 2 TRIAL, 3 GOOD, 4 BAD. -/
def State.bootState (s : State) (slot : Nat) : Nat := if s.bootUsable slot then s.alm.byte (bootAddr slot + 3) else 0
def State.bootTries (s : State) (slot : Nat) : Nat := s.alm.byte (bootAddr slot + 4)
def State.bootSeq (s : State) (slot : Nat) : Nat := if s.bootUsable slot then s.almNum (bootAddr slot + 8) 8 else 0
def State.bootSvn (s : State) (slot : Nat) : Nat := s.almNum (bootAddr slot + 20) 4
def State.bootDigest (s : State) (slot : Nat) : Nat := s.almNum (bootAddr slot + 32) 48

/-- MIN_SVN: the higher of the two usable records. -/
def State.minSvn (s : State) : Nat :=
  (List.range 2).foldl (fun a k => if s.bootUsable k then max a (s.almNum (bootAddr k + 28) 4) else a) 0

/-- Replace bytes of a list from position k on. -/
def putBytes (k : Nat) (new l : List Nat) : List Nat := l.take k ++ new ++ l.drop (k + new.length)

/-- Write a boot pointer, changing its record; every write carries MIN_SVN. A refused write sets PTR_FAIL. -/
def bootWrite (slot minSvn : Nat) (f : List Nat → List Nat) (s : State) : Bool × State :=
  let old := if s.bootUsable slot then s.almBytes (bootAddr slot) 252 else [0x0A, 0x1E, 1] ++ List.replicate 249 0
  let (ok, t) := almDevice (bootAddr slot) (almRecord (putBytes 28 (numBytes 4 minSvn) (f old))) s
  if ok then (true, setF F.IMG_SVN_MIN_SVN minSvn t) else (false, setErr F.IMG_ERR_STATUS_PTR_FAIL intImg t)

/-- Set a slot's STATE. -/
def bootMark (slot st : Nat) (s : State) : State := (bootWrite slot s.minSvn (putBytes 3 [st]) s).2

/-- The next ACT_SEQ. -/
def State.nextSeq (s : State) : Nat := max (s.bootSeq 0) (s.bootSeq 1) + 1

/-- The slot of the running image. -/
def State.runSlot (s : State) : Option Nat :=
  if s.on F.IMG_RUN_ID_VALID && s.on F.IMG_RUN_ID_PERSISTED then some (s.get F.IMG_RUN_ID_SLOT) else none

/-- The slot a staged or persisted image is written to (R301, R304). -/
def State.freeSlot (s : State) : Nat :=
  match s.runSlot with
  | some k => 1 - k
  | none =>
    let blank (k : Nat) : Bool := decide (s.bootState k = 0) || decide (s.bootState k = 4)
    if blank 0 then 0 else if blank 1 then 1 else if s.bootSeq 0 < s.bootSeq 1 then 0 else 1

/-- The FREE boot sets of some groups. -/
def State.bootFree (s : State) (gs : List Nat) : List Nat := gs.flatMap (fun g => s.freeSystem g 3 true ++ s.freeSystem g 3 false)

/-- The sets the copies of an image go to, the least worn first: copy 0 in groups 0 to 15 and copy 1 in groups 16 to 31 where plates 8
to 15 are populated, otherwise in two different groups (R299). -/
def State.bootPlace (s : State) : Option Nat × Option Nat :=
  let key (x : Nat) : Nat × Nat := (wearClass (s.setEc x), x)
  let both := decide (256 ≤ s.img.plates)
  let a := lowest key (s.bootFree (List.range (if both then 16 else 32)))
  let gs := if both then (List.range 16).map (· + 16) else (List.range 32).filter (fun g => a.any (fun x => setGroup x != g))
  (a, lowest key (s.bootFree gs))

/-- The set of an overwritten copy is erased within the write; one with a BAD field, or worn, retires then (R136). -/
def bootErase (set : Nat) (s : State) : State :=
  let s1 := if s.setBad set || s.setWorn set then s.modFld (fun f => { f with toRetire := set :: f.toRetire }) else s
  eraseEnd set (seqAll (fun f t => if (s.frec f).st = fBad then t else
    t |> fieldErased f |> cnt bFLD 3 1 |> fieldTo f (fun r => { r with ec := r.ec + 1, mode1 := true, rows := 0 })) (setFields set)
      (drecClear set s1))

/-- A copy of an image is written to its set: member rows of 3,840 B in slot order, from slot 0 on. Their bytes are those of the
image that `ImgSt.copies` holds. Without a boot set the place of the copy is a free value. DEDUCED, notes/assumptions/49.md. -/
def copyStore (k : Nat) (i : Image) (place : Option Nat) (s : State) : Nat × State :=
  let s0 := s.modImg (fun x => { x with copies := tset x.copies k i })
  match place with
  | none => let (p, t) := takeNat s0; (p % 2 ^ 36, t)
  | some x =>
    let n := (i.len + 3839) / 3840
    let s1 := openSet streamSystem 3 true false x (s0.modImg (fun m => { m with bootSets := tset m.bootSets k x }))
    (slotPfa x 0, sysFilled x 0 n (s1.modMed (fun m =>
      { m with rows := (List.range n).foldl (fun t j => tset t (slotPfa x j) (MRow.base s1 (slotPfa x j) .system)) m.rows })))

/-- The sets that hold the copies of a slot are given up. -/
def slotClear (slot : Nat) (s : State) : State :=
  let ks := [2 * slot, 2 * slot + 1]
  (seqAll bootErase (ks.filterMap (tget s.img.bootSets)) s).modImg (fun m => { m with bootSets := ks.foldl terase m.bootSets })

/-- Both copies of a slot and its pointer are written: EMPTY, the copies, then STATE and ACT_SEQ. DEDUCED, notes/assumptions/49.md. -/
def slotWrite (slot st seq min : Nat) (i : Image) (s : State) : Bool × State :=
  let (ok, s1) := bootWrite slot s.minSvn (putBytes 3 [0, 0]) s
  if ok then
    let s2 := slotClear slot s1
    let place := s2.bootPlace
    let (p0, s3) := copyStore (2 * slot) i place.1 s2
    let (p1, s4) := copyStore (2 * slot + 1) i place.2 s3
    bootWrite slot min (fun l => l |> putBytes 3 [st, 0] |> putBytes 8 (numBytes 8 seq ++ numBytes 4 i.ver ++ numBytes 4 i.svn ++
      numBytes 4 i.len) |> putBytes 32 (numBytes 48 i.digest.toNat ++ numBytes 8 p0 ++ numBytes 8 p1)) s4
  else (false, s1)

/-! ### Authentication (R289, R290) -/

/-- The key slot of the image is fused and not revoked. -/
def State.keyOk (s : State) (i : Image) : Bool :=
  match i.key with
  | some k => s.lcs.fused.testBit k && !s.lcs.revoked.testBit k
  | none => false

/-- In MANUFACTURE and DEVELOP an image from xSPI or from the mailbox may fail its key or signature. -/
def State.unauthOk (s : State) (fromSlot : Bool) : Bool :=
  !fromSlot && (decide (s.lcs.state = 0) || decide (s.lcs.state = 2))

/-- The result of the checks as IMG_BOOT_LOG encodes it, and whether the image is unauthenticated. DEDUCED, notes/assumptions/49.md. -/
def State.imageCheck (s : State) (i : Image) (fromSlot : Bool) : Nat × Bool :=
  let bad := !s.keyOk i || !i.sigOk
  if !i.hdrOk then (2, false)
  else if !i.lcMask.testBit s.lcs.state then (6, false)
  else if i.svn < s.minSvn then (5, false)
  else if !s.keyOk i && !s.unauthOk fromSlot then (3, false)
  else if !i.sigOk && !s.unauthOk fromSlot then (4, false)
  else if !i.digestOk then (7, false)
  else if !i.compOk then (9, false)
  else if !s.tableCheck i then (8, false)
  else (0, bad)

/-- The error a result sets. -/
def imageErr (code : Nat) (s : State) : State :=
  match code with
  | 1 => setErr F.IMG_ERR_STATUS_COPY_READ intImg s
  | 2 => setErr F.IMG_ERR_STATUS_HDR_BAD intImg s
  | 3 => setErr F.IMG_ERR_STATUS_KEY_BAD intImg s
  | 4 => setErr F.IMG_ERR_STATUS_SIG_BAD intImg s
  | 5 => setErr F.IMG_ERR_STATUS_SVN_LOW intImg s
  | 6 => setErr F.IMG_ERR_STATUS_LC_DENY intImg s
  | 7 => setErr F.IMG_ERR_STATUS_DIGEST_BAD intImg s
  | 8 => setErr F.IMG_ERR_STATUS_TABLE_BAD intImg s
  | 9 => setErr F.IMG_ERR_STATUS_COMP_SIG_BAD intImg s
  | _ => s

/-! ### Applying an image (R296) -/

/-- The scripts of a DOME segment go to the inactive bank, which waits for its flip; its registers are written. -/
def domePut (d : Scripts) (regs : List RegRec) (s : State) : State :=
  recsPut regs (s.modDome (fun m => if m.bank = 0 then { m with bank1 := d, flip := true } else { m with bank0 := d, flip := true }))

/-- The banks flip while no sequence runs. -/
def domeFlip (s : State) : State :=
  if s.dome.flip && !s.seqsBusy then s.modDome (fun d => { d with bank := 1 - d.bank, flip := false }) else s

/-- Buckets keep their credit, clamped to a changed burst. -/
def bucketsClamp (old : State) (s : State) : State :=
  s.modRegu (fun r => { r with grant := (List.range 19).foldl (fun t c => [0, 1].foldl (fun u dir =>
    let credit := old.burstOf c - tgetD 0 old.regu.grant (bKey c dir)
    tput 0 u (bKey c dir) (s.burstOf c - min credit (s.burstOf c))) t) r.grant })

/-- The REG segment: its records, then the admission. -/
def regApply (l : List RegRec) (force : Bool) (s : State) : State :=
  let old := s.on F.REG_CTL_EN
  bucketsClamp s (regCtl old (admitSet force (recsPut l s)))

/-- A plate that was powered for the boot: a known one goes on, another is taken down and left PRESENT (18_start_up.md R420). -/
def bootPlate (p : Nat) (s : State) : State :=
  if s.dome.prsnt.testBit p then
    let s1 := identRead p s
    if s1.get (F.SBUS_PLT_STATE_HOLD p) = 0 ∧ (s1.get F.SBUS_PLT_CFG_AUTO_ON).testBit p then powering p s1 else plateDown p s1
  else s

/-- The channels the image does not declare populated are OFF. -/
def chansTrim (s : State) : State :=
  seqAll (fun c t => if t.img.chans.testBit c then t else setF (F.MCH_STATUS_STATE c) 0 t) (List.range 32) s

/-! ### The Meridian's layout (09_cipher_and_meridian.md R234, R236, R241) -/

/-- The numbers from the first to the last of each range, each counted once; the ranges stand by their first number. -/
def rangesCount : Nat → List (Nat × Nat) → Nat
  | _, [] => 0
  | from_, (a, b) :: t => let lo := max from_ a; (b + 1 - lo) + rangesCount (max from_ (b + 1)) t

def insertRange (r : Nat × Nat) : List (Nat × Nat) → List (Nat × Nat)
  | [] => [r]
  | x :: t => if r.1 ≤ x.1 then r :: x :: t else x :: insertRange r t

def rangesLen (l : List (Nat × Nat)) : Nat := rangesCount 0 (l.foldr insertRange [])

/-- The mirrored lines: those that cover the staging window or the build area, with the lines of their tags (R241). -/
def State.mirrorLines (s : State) : Nat :=
  let p := s.meridSize
  let byte (a n : Nat) : Nat × Nat := (a - s.meridBase, a - s.meridBase + n - 1)
  let areas := [byte (s.get F.COAL_STAGE_BASE * 2 ^ 14) (s.get F.COAL_STAGE_CFG_FRAMES * 16384), byte (s.get F.DUR_JBUF_BASE * 2 ^ 20) (2 ^ 23)]
  let lvl (k : Nat) : List (Nat × Nat) := areas.map (fun r => (r.1 / 2 ^ (12 + 6 * k), r.2 / 2 ^ (12 + 6 * k)))
  let first (k : Nat) : Nat := if k = 0 then 0 else if k = 1 then p / 4096 else p / 4096 + p / 262144
  let tags := [0, 1, 2].flatMap (fun k => (lvl k).map (fun r => ((first k + r.1) / 8, (first k + r.2) / 8)))
  rangesLen (lvl 0) + rangesLen (lvl 1) + rangesLen (lvl 2) + rangesLen tags

/-- MERID_LAYOUT. DESIGN CHOICE, notes/assumptions/65.md. -/
def meridLayout (s : State) : State :=
  s |> setF F.MERID_LAYOUT_META_MIB ((s.metaBytes + 2 ^ 20 - 1) / 2 ^ 20) |> setF F.MERID_LAYOUT_MIRROR_KIB ((s.mirrorLines + 3) / 4)

/-- Do the regions fit `total` bytes, the test regions at the top apart, and lie where R234 wants them? DEDUCED, notes/assumptions/47.md. -/
def State.regionsFit (s : State) (total : Nat) : Bool :=
  let top := total - 16384
  let b := s.meridBase
  let p := s.meridSize
  decide (b + p ≤ top) && decide (s.get F.MERID_META_BASE * 2 ^ 18 + s.metaBytes ≤ top) &&
    decide (s.get F.MERID_MIRROR_BASE * 2 ^ 18 + s.get F.MERID_LAYOUT_MIRROR_KIB * 1024 ≤ top) &&
    s.regions.all (fun r => decide (r.1 + r.2 ≤ top) && (p == 0 || (decide (b ≤ r.1) && decide (r.1 + r.2 ≤ b + p))))

/-- Lanes that failed their tests at power-up are reported again, the registers having been wiped since; without any lane the
start halts (R217; 18_start_up.md R420). DESIGN CHOICE, notes/assumptions/46.md. -/
def lanesShow (s : State) : State :=
  if s.dome.laneBad = 0 then s
  else
    let s1 := setErr F.CIPH_ERR_STATUS_KAT_FAIL intCiph s
    if s.dome.laneBad % 256 = 255 then setStage stageHaltCipher (logOpen bCIPH 0xFF 0 s1) else s1

/-- An image that has passed its checks is applied; `src` as IMG_STATUS.SOURCE, `ms` the time from the loader's start.
DESIGN CHOICE, notes/assumptions/65.md. -/
def imageApply (src ms : Nat) (unauth : Bool) (i : Image) (s : State) : State :=
  let s1 := s.modImg (fun x =>
    { x with chans := i.chans, plates := i.plates, wmap := i.wmap, pdTree := i.pdTree.foldl (fun t e => tset t e.1 e.2) [],
             sysSets := i.sysSets.foldl (fun t e => tset t e.1 e.2) [], dome := some i.dome, reg := some i.reg, asstA := some i.asstA,
             asstB := some i.asstB, run := some i })
  let s2 := s1 |> recsPut i.global |> recsPut i.policy |> recsPut i.sbus |> domePut i.dome i.domeRegs |> domeFlip
  let s3 := regApply i.reg true s2
  let s4 := seqAll (fun c t => match i.segOf c with | some g => applySeg c g t | none => t) i.popChans s3
  let slot := (src - 1) / 2 % 2
  let fromSlot := decide (1 ≤ src) && decide (src ≤ 4)
  s4 |> setF F.IMG_ASSIST_RUNNING 0 |> setF F.IMG_ASSIST_STANDBY_READY 0 |> setF F.IMG_ASSIST_VER_A i.asstA.ver
    |> setF F.IMG_ASSIST_VER_B i.asstB.ver
    |> setF F.IMG_STATUS_LOADED 1 |> setB F.IMG_STATUS_UNAUTH unauth |> setB F.LEDG_STATUS_UNAUTH unauth
    |> setF F.IMG_STATUS_SOURCE src |> setF F.IMG_STATUS_LOAD_MS (min 65535 ms)
    |> setF F.IMG_RUN_ID_VALID 1 |> setB F.IMG_RUN_ID_PERSISTED fromSlot |> setF F.IMG_RUN_ID_SLOT (if fromSlot then slot else 0)
    |> setF F.IMG_RUN_ID_KEY_SLOT (i.key.getD 0) |> setF F.IMG_RUN_ID_IMAGE_VER i.ver
    |> setF F.IMG_SVN_RUN_SVN i.svn |> setF F.IMG_SVN_MIN_SVN s.minSvn
    |> mixedShow |> chansTrim |> (fun t => seqAll bootPlate (List.range 16) t) |> poolStatus |> coalStatus |> capRecompute
    |> spareStatus |> meridLayout |> ldStatusAll |> setStage stageTrain |> lanesShow |> pdSettle

/-! ### Booting (R298) -/

/-- A boot attempt is recorded; those after the eighth are not. -/
def bootLog (k src code : Nat) (s : State) : State :=
  if k < 8 then
    let v := s.get F.IMG_BOOT_LOG_ATTEMPT
    setF F.IMG_BOOT_LOG_ATTEMPT (v - v / 2 ^ (8 * k) % 256 * 2 ^ (8 * k) + (src * 16 + code) * 2 ^ (8 * k)) s
  else s

/-- What a boot holds: the attempts made, and the image found with its source. -/
structure Boot where
  tries : Nat
  found : Option (Nat × Bool × Image)
  deriving DecidableEq, Repr

/-- One attempt; a slot's copy must have the digest of its pointer. -/
def bootTry (src : Nat) (img : Option Image) (digest : Option Nat) (p : Boot × State) : Boot × State :=
  let b := p.1
  let s := p.2
  if b.found.isSome then p
  else
    let (code, un) := match img with
      | none => (1, false)
      | some i => if digest.any (· != i.digest.toNat) then (7, false) else s.imageCheck i digest.isSome
    (⟨b.tries + 1, if code = 0 then img.map (fun i => (src, un, i)) else none⟩, bootLog b.tries src code (imageErr code s))

/-- The two copies of a slot. -/
def bootSlot (unread : Nat) (slot : Nat) (p : Boot × State) : Boot × State :=
  if p.1.found.isSome then p
  else
    let s0 := p.2
    let trial := decide (s0.bootState slot = 2)
    let s := if trial then (bootWrite slot s0.minSvn (putBytes 4 [s0.bootTries slot + 1]) s0).2 else s0
    let copy (k : Nat) : Option Image := if unread.testBit (2 * slot + k) then none else tget s.img.copies (2 * slot + k)
    let d := some (s.bootDigest slot)
    let q := bootTry (2 * slot + 2) (copy 1) d (bootTry (2 * slot + 1) (copy 0) d (p.1, s))
    if trial && q.1.found.isNone then (q.1, bootMark slot 4 q.2) else q

/-- The slots to try, in order. -/
def State.bootOrder (s : State) : List Nat :=
  let hi := if s.bootSeq 0 < s.bootSeq 1 then [1, 0] else [0, 1]
  hi.filter (fun k => decide (s.bootState k = 2) && !s.alm.wp && decide (s.bootTries k < 2)) ++ hi.filter (fun k => decide (s.bootState k = 3))

/-- A TRIAL slot with two tries is BAD; an unusable pointer is reported. -/
def bootPrepare (s : State) : State :=
  seqAll (fun k t =>
    let t1 := if t.bootUsable k then t else setErr F.IMG_ERR_STATUS_PTR_FAIL intImg t
    if t1.bootState k = 2 ∧ 2 ≤ t1.bootTries k ∧ !t1.alm.wp then bootMark k 4 t1 else t1) [0, 1] s

/-- R298: the loader tries its sources in order. `unread` marks the copies of the slots that cannot be read, `x0` and `x1` are
what the xSPI flash holds. DEDUCED, notes/assumptions/49.md. -/
def imageBoot (unread : Nat) (x0 x1 : Option Image) (ms : Nat) (s : State) : State :=
  if s.glb.mode = .starting ∧ s.stage = stageImage ∧ !s.glb.perst then
    let s0 := bootPrepare (setF F.IMG_BOOT_LOG_ATTEMPT F.IMG_BOOT_LOG_ATTEMPT.rst s)
    let q := s0.bootOrder.foldl (fun p k => bootSlot unread k p) (⟨0, none⟩, s0)
    let r := if s.on F.GLB_STRAPS_XSPI_EN then bootTry 6 x1 none (bootTry 5 x0 none q) else q
    match r.1.found with
    | some (src, un, i) => imageApply src ms un i r.2
    | none => setStage stageMailbox r.2
  else s

/-- The other slot is BAD where its SVN is below that of the running image (R300). -/
def oldSlotBad (k svn : Nat) (s : State) : State :=
  if s.bootUsable (1 - k) ∧ s.bootSvn (1 - k) < svn ∧ s.bootState (1 - k) ≠ 0 then bootMark (1 - k) 4 s else s

/-- What follows the start's end: TRIAL becomes GOOD, MIN_SVN rises (R300), an image booted from xSPI is written to a slot
(R301). An image that runs from no slot raises MIN_SVN through the pointer of the slot that would be written. DEDUCED,
notes/assumptions/49.md. -/
def imageReady (s : State) : State :=
  match s.img.run with
  | none => s
  | some i =>
    let src := s.get F.IMG_STATUS_SOURCE
    let min := if i.raiseSvn then max s.minSvn i.svn else s.minSvn
    match s.runSlot with
    | some k =>
      let s1 := if s.bootState k = 2 then bootMark k 3 s else s
      if i.raiseSvn then oldSlotBad k i.svn (bootWrite k min id s1).2 else s1
    | none =>
      let k := s.freeSlot
      if s.on F.IMG_STATUS_UNAUTH then s
      else if (src = 5 ∨ src = 6) ∧ s.on F.IMG_CTL_AUTO_PERSIST then
        let s1 := (slotWrite k 3 s.nextSeq min i s).2
        if i.raiseSvn then oldSlotBad k i.svn s1 else s1
      else if i.raiseSvn then (bootWrite k min id s).2
      else s

/-! ### Staging (R304) -/

/-- An image is staged and verified, and written to the inactive slot. Answers whether it verified. DEDUCED, notes/assumptions/49.md. -/
def imageStage (i : Image) (s : State) : Bool × State :=
  let (code, un) := s.imageCheck i false
  let k := s.freeSlot
  let s0 := (s.modImg (fun x => { x with stage := none })) |> setF F.IMG_STAGE_ID_VALID 0 |> setF F.IMG_STAGE_ID_PERSISTED 0
  if code ≠ 0 then (false, bootMark k 0 (imageErr code s0))
  else
    let s1 := (s0.modImg (fun x => { x with stage := some i })) |> setF F.IMG_STAGE_ID_VALID 1 |> setF F.IMG_STAGE_ID_SLOT k
      |> setF F.IMG_STAGE_ID_KEY_SLOT (i.key.getD 0) |> setF F.IMG_STAGE_ID_IMAGE_VER i.ver
    if un then (true, s1)
    else
      let (ok, s2) := slotWrite k 1 0 s1.minSvn i s1
      (true, setB F.IMG_STAGE_ID_PERSISTED ok s2)

/-! ### Live reload (R306 to R309) -/

/-- A reload is refused. -/
def reloadRefuse (reason : Nat) (s : State) : State :=
  s |> setF F.IMG_RELOAD_STATUS_RESULT 4 |> setF F.IMG_RELOAD_STATUS_REASON reason |> setF F.IMG_RELOAD_STATUS_TIME_US 0

/-- A reload begins. -/
def reloadBegin (unit c src : Nat) (s : State) : State :=
  (s.modImg (fun i => { i with reload := some ⟨unit, c, src, s.now⟩ })) |> setF F.IMG_RELOAD_STATUS_BUSY 1
    |> setF F.IMG_RELOAD_STATUS_RESULT 0 |> setF F.IMG_RELOAD_STATUS_REASON 0

/-- The image a reload takes its segment from. -/
def State.reloadImage (s : State) (src : Nat) : Option Image := if src = 0 then s.img.stage else s.img.run

/-- The standby core, 0 for A. -/
def State.standbyCore (s : State) : Nat := 1 - s.get F.IMG_ASSIST_RUNNING

/-- The segment of a core, and the core's memory loaded with it. -/
def Image.asst (i : Image) (core : Nat) : AsstSeg := if core = 0 then i.asstA else i.asstB
/-- DESIGN CHOICE, notes/assumptions/61.md. -/
def asstLoad (core : Nat) (g : Option AsstSeg) (s : State) : State :=
  let fresh (c : CoreSt) : CoreSt := { CoreSt.reset with bps := c.bps }
  if core = 0 then
    ((s.modImg (fun x => { x with asstA := g })).modFind (fun f => { f with coreA := fresh f.coreA }))
      |> setF F.IMG_ASSIST_VER_A ((g.map (·.ver)).getD 0)
  else
    ((s.modImg (fun x => { x with asstB := g })).modFind (fun f => { f with coreB := fresh f.coreB }))
      |> setF F.IMG_ASSIST_VER_B ((g.map (·.ver)).getD 0)

/-- A CHAN reload (unit 1). DEDUCED, notes/assumptions/50.md. -/
def chanReload (c src : Nat) (s : State) : State :=
  match s.reloadImage src with
  | none => reloadRefuse 1 s
  | some i =>
    match i.segOf c with
    | none => reloadRefuse 2 s
    | some g =>
      if s.glb.transTo.isSome then reloadRefuse 5 s
      else if !s.dome.huOk then reloadRefuse 4 s
      else if s.get (F.MCH_STATUS_STATE c) = 0 ∨ s.get (F.MCH_STATUS_STATE c) = 1 then reloadRefuse 7 s
      else quiesceStart c g (reloadBegin 1 c src s)

/-- A REG reload (unit 2). DEDUCED, notes/assumptions/34.md. DEDUCED, notes/assumptions/50.md. -/
def regReload (src : Nat) (s : State) : State :=
  match s.reloadImage src with
  | none => reloadRefuse 1 s
  | some i =>
    if s.glb.transTo.isSome then reloadRefuse 5 s
    else if i.reg.any s.recLocked then reloadRefuse 3 s
    else
      let s1 := regApply i.reg i.regForce (reloadBegin 2 0 src s)
      if s1.get F.REG_ADMIT_STATUS = 1 then reloadEnd 1 (s1.modImg (fun x => { x with reg := some i.reg }))
      else reloadRefuse 6 (reloadEnd 4 s1)

/-- A DOME reload (unit 3): it ends with the flip. DEDUCED, notes/assumptions/50.md. -/
def domeReload (src : Nat) (s : State) : State :=
  match s.reloadImage src with
  | none => reloadRefuse 1 s
  | some i =>
    if s.glb.transTo.isSome then reloadRefuse 5 s
    else if i.domeRegs.any s.recLocked then reloadRefuse 3 s
    else (domePut i.dome i.domeRegs (reloadBegin 3 0 src s)).modImg (fun x => { x with dome := some i.dome })

/-- A reload of the standby core (unit 4): it ends when the core signals ready. DEDUCED, notes/assumptions/50.md. -/
def asstReload (src : Nat) (s : State) : State :=
  match s.reloadImage src with
  | none => reloadRefuse 1 s
  | some i =>
    if s.glb.transTo.isSome then reloadRefuse 5 s
    else asstLoad s.standbyCore (some (i.asst s.standbyCore)) (setF F.IMG_ASSIST_STANDBY_READY 0 (reloadBegin 4 0 src s))

/-- A swap (unit 5). -/
def swapStart (src : Nat) (s : State) : State :=
  if s.glb.transTo.isSome then reloadRefuse 5 s
  else if !s.on F.IMG_ASSIST_STANDBY_READY then reloadRefuse 8 s
  else setF F.IMG_ASSIST_SWAP_BUSY 1 (reloadBegin 5 0 src s)

/-- A unit by its number. -/
def unitReload (unit c src : Nat) (s : State) : State :=
  match unit with
  | 1 => chanReload c src s
  | 2 => regReload src s
  | 3 => domeReload src s
  | 4 => asstReload src s
  | 5 => swapStart src s
  | _ => s

/-- R306: a write of IMG_RELOAD. GO is ignored while BUSY, and does nothing with a reserved UNIT. Without an image that runs
there is no source. -/
def imgReload (v : Nat) (s : State) : State :=
  if v.testBit 31 ∧ s.on F.IMG_RELOAD_STATUS_BUSY then s
  else
    let s1 := storeAt 0x380020 v s
    if v.testBit 31 then unitReload (s1.get F.IMG_RELOAD_UNIT) (s1.get F.IMG_RELOAD_CHANNEL) (s1.get F.IMG_RELOAD_SRC) s1 else s1

/-- R307: the script banks flip. -/
def domeBankFlip (s : State) : State :=
  let s1 := domeFlip s
  if s.dome.flip && !s1.dome.flip && s1.img.reload.any (fun r => r.unit == 3) then reloadEnd 1 s1 else s1

/-- R295: the standby core signals ready. -/
def standbyReady (s : State) : State :=
  if (if s.standbyCore = 0 then s.img.asstA else s.img.asstB).isSome then
    let s1 := setF F.IMG_ASSIST_STANDBY_READY 1 s
    if s.img.reload.any (fun r => r.unit == 4) then reloadEnd 1 s1 else s1
  else s

/-- R295: no signal within 50 ms: the core is held in reset. -/
def assistTimeout (s : State) : State :=
  if s.on F.IMG_ASSIST_STANDBY_READY then s
  else
    let s1 := asstLoad s.standbyCore none s
    if s.img.reload.any (fun r => r.unit == 4) then reloadEnd 3 s1 else s1

/-- R309: the swap is done: the roles change. -/
def swapDone (s : State) : State :=
  if s.on F.IMG_ASSIST_SWAP_BUSY then
    reloadEnd 1 (s |> setF F.IMG_ASSIST_SWAP_BUSY 0 |> setF F.IMG_ASSIST_RUNNING s.standbyCore |> setF F.IMG_ASSIST_STANDBY_READY 1)
  else s

/-- R309: step 3 did not end in 2 ms: the old core resumes. -/
def swapTimeout (s : State) : State :=
  if s.on F.IMG_ASSIST_SWAP_BUSY then
    reloadEnd 3 (s |> setF F.IMG_ASSIST_SWAP_BUSY 0 |> setErr F.IMG_ERR_STATUS_SWAP_FAIL intImg)
  else s

/-! ### Online activation (R305) -/

/-- The units that differ, in order: 0 DOME, 1 REG, 2 + c CHAN c, 34 the standby core, 35 the swap, 36 the former running core. -/
def State.actUnits (s : State) (i : Image) : List Nat :=
  (if s.img.dome = some i.dome ∧ i.domeRegs.all (fun r => !s.recLocked r) ∧ s.img.run.any (fun r => r.domeRegs == i.domeRegs) then [] else [0]) ++
  (if s.img.reg = some i.reg then [] else [1]) ++
  ((i.popChans.filter (fun c => tget s.img.segs c != i.segOf c)).map (· + 2)) ++
  (if s.img.asstA = some i.asstA ∧ s.img.asstB = some i.asstB then [] else [34, 35, 36])

/-- A unit of an activation. -/
def actUnit (u src : Nat) (s : State) : State :=
  if u = 0 then domeReload src s
  else if u = 1 then regReload src s
  else if u < 34 then chanReload (u - 2) src s
  else if u = 35 then swapStart src s
  else asstReload src s

/-- The activation ends. -/
def actEnd (s : State) : State :=
  (s.modImg (fun i => { i with act := none })) |> setF F.IMG_STATUS_ACTIVATING 0 |> setB F.IMG_RELOAD_STATUS_BUSY s.img.reload.isSome

/-- The mailbox command completes, unless it was aborted. -/
def actTell (view rc : Nat) (s : State) : State := when (decide (view ≤ mgmtView)) (mboxDone view 0x0202 rc []) s

/-- It has succeeded: the slot is GOOD with the next ACT_SEQ, and the staged image is the one that runs. -/
def actDone (view : Nat) (s : State) : State :=
  match s.img.stage with
  | none => s
  | some i =>
    let k := s.get F.IMG_STAGE_ID_SLOT
    let pers := s.on F.IMG_STAGE_ID_PERSISTED
    let s1 := if pers then (bootWrite k s.minSvn (fun l => putBytes 8 (numBytes 8 s.nextSeq) (putBytes 3 [3] l)) s).2 else s
    let s2 := (s1.modImg (fun x => { x with run := some i })) |> setB F.IMG_RUN_ID_PERSISTED pers |> setF F.IMG_RUN_ID_SLOT (if pers then k else 0)
      |> setF F.IMG_RUN_ID_KEY_SLOT (i.key.getD 0) |> setF F.IMG_RUN_ID_IMAGE_VER i.ver |> setF F.IMG_SVN_RUN_SVN i.svn |> mixedShow
    let s3 := if s.keyOk i && i.sigOk then s2 else s2 |> setF F.IMG_STATUS_UNAUTH 1 |> setF F.LEDG_STATUS_UNAUTH 1
    actTell view 0 (actEnd s3)

/-- Every unit is back, or as its own failure left it. -/
def actFailed (view : Nat) (s : State) : State :=
  actTell view 0xC (setErr F.IMG_ERR_STATUS_ACT_FAIL intImg (actEnd s))

/-- The next unit of an activation, once the one before it has ended. -/
def actStep (s : State) : State :=
  match s.img.act with
  | none => s
  | some a =>
    if s.img.reload.isSome then s
    else
      let failed := a.done.head?.isSome && s.get F.IMG_RELOAD_STATUS_RESULT != 1
      let s0 := if failed && a.back then logOpen bIMG (a.done.headD 0) 0 s else s
      let a1 : Act := if failed && !a.back then { a with left := a.done.tail, done := [], back := true } else a
      match a1.left with
      | [] => if a1.back then actFailed a.view s0 else actDone a.view s0
      | u :: t =>
        actUnit u (if a1.back then 1 else 0) (s0.modImg (fun i => { i with act := some { a1 with left := t, done := u :: a1.done } }))

/-- As far as it goes now. -/
def actGoN : Nat → State → State
  | 0, s => s
  | n + 1, s => if s.img.act.isSome ∧ s.img.reload.isNone then actGoN n (actStep s) else s
/-- DEDUCED, notes/assumptions/50.md. -/
def actGo (s : State) : State := actGoN 80 s

/-- Staged and running image differ in what an online activation cannot change. -/
def State.needsCold (s : State) (i : Image) : Bool :=
  s.img.run.any (fun r => r.global != i.global || r.sbus != i.sbus || r.policy != i.policy || r.chans != i.chans || r.plates != i.plates ||
    r.wmap != i.wmap || r.pdTree != i.pdTree || r.sysSets != i.sysSets)

/-- Everything in progress is abandoned (R310), but a channel reload past step 3 where `keep`. No pointer has changed. -/
def reloadsAbandon (keep : Bool) (s : State) : State :=
  match s.img.reload with
  | none => s.modImg (fun i => { i with act := none })
  | some r =>
    let s1 := (s.modImg (fun i => { i with act := none })) |> setF F.IMG_STATUS_ACTIVATING 0
    if r.unit = 1 ∧ keep ∧ s.get (F.MCH_STATUS_STATE r.chan) ≠ 4 then s1
    else
      let s2 := if r.unit = 1 ∧ s.get (F.MCH_STATUS_STATE r.chan) = 4 then
          s1 |> setF (F.MCH_STATUS_STATE r.chan) chOnline |> setF (F.MCH_RECONF_BUSY r.chan) 0 |> setF (F.MCH_RECONF_RESULT r.chan) 3
        else s1
      reloadEnd 3 (s2 |> setF F.IMG_ASSIST_SWAP_BUSY 0)

end Sys2Proof.Machine
end

