-- ==== Sys2Proof/Machine/Power.lean ====
section
/-! DEFINITION. Power and start-up: input power, the hold-up drain, the always-on supply, the steps of a start, and what goes on
by itself after an event (07_durability.md R174 to R179; 13_dome_power.md R313 to R334; 18_start_up.md R411 to R420). -/

namespace Sys2Proof.Machine

/-! ### The drain (07_durability.md R174, R175; 13_dome_power.md R324) -/

/-- DRAIN_DOWN begins; an on request is held where input power is back. DEDUCED, notes/assumptions/45.md. -/
def drainDown (s : State) : State :=
  let s1 := (seqAll channelsOff (List.range 16) s).modDome (fun d =>
    { d with seqs := [(devSeq, ⟨.down, if d.legacy then legacySteps s.scripts.drainDown else s.scripts.drainDown, false⟩)] })
  seqRun devSeq (s1.modDur (fun d => { d with drain := 5 }))

/-- DRAIN_DOWN has run: the logbook tail is copied, unless the almanac's domain is off. -/
def drainTail (s : State) : State :=
  let s1 := s.modDur (fun d => { d with drain := 6 })
  if s.dome.legacy then s1 else tailStart s1

/-- DEVICE_DOWN, steps 1 and 3: every domain goes off, then rails 6 to 0. -/
def drainOff (s : State) : State :=
  let steps := downOf devSeq (List.range 7).reverse
  let s1 := (powerGone s).modStart (fun x => { x with source := srcPowerOn, relPend := false })
  seqRun devSeq (s1.modDome (fun d =>
    { d with huEn := false, seqs := [(devSeq, ⟨.down, if s.dome.legacy then legacySteps steps else steps, s.start.vin⟩)] }))

/-- The drain goes on. -/
def drainAdvance (s : State) : State :=
  if s.dur.drain = 0 then s
  else
    let s1 := if s.dur.drain < 4 then drainGo s else s
    let s2 := if s1.dur.drain = 4 then drainDown s1 else s1
    let s3 := if s2.dur.drain = 5 ∧ (s2.seq devSeq).steps = [] then drainTail s2 else s2
    if s3.dur.drain = 6 ∧ !s3.tailRuns then drainOff s3 else s3

/-- Erases are reset; suspended programs resume. -/
def diesDrain (s : State) : State :=
  seqAll (fun n t =>
    match (t.die n).op with
    | .erase _ _ => dieIdle (n / 8) (n % 8) t
    | .program _ _ => fabResume (n / 8) (n % 8) t
    | _ => t) (List.range 256) s

/-- Steps 1 to 3 of R175. Nothing that has no acknowledgement yet gets one any more. -/
def drainBegin (s : State) : State :=
  let s1 := (pendClear (reloadsAbandon true s)).modGlb (fun g => { g with transTo := none, ingressClosed := true, perstHeld := false })
  let s2 := (s1.modHost (fun h => { h with ingress := [], parked := [], writeQ := [] })) |> setF F.GLB_MODE_STATUS_IN_TRANSITION 0
  let s3 := seqAll (fun p t => modPort p (fun q => { q with linkQ := [] }) t) [0, 1] s2
  let s4 := seqAll (fun p t => if (t.seq p).phase = .up then seqOff p (channelsOff p t) else t) (List.range 16) s3
  let g := s.dome.huOk
  let s5 := (s4.modDur (fun d => { d with drain := 1, drainStart := s.now, lastDrain := (2, g.toNat, 0) }))
    |> setF F.DUR_STATUS_DRAIN_ACTIVE 1 |> setB F.DUR_DRAIN_GUARANTEED g |> setF F.DUR_DRAIN_RESULT 2 |> setF F.DUR_DRAIN_TIME_US 0
  drainAdvance (closeGathers (fun _ => true) (diesDrain (mergeFlushAll s5)))

/-! ### What goes on by itself -/

/-- HU_EN under R331. -/
def huFollow (s : State) : State :=
  match s.glb.mode with
  | .off | .standby | .faultHalt => if s.poweredUp then huEnable true s else s
  | .starting | .active | .quiet => huEnable true s
  | .parked => huEnable s.glb.transTo.isSome s

/-- The checker runs in ACTIVE and QUIET; where it starts anew, every imbalance is new (11_regulation_and_ledgers.md R280, R283). -/
def checkFollow (s : State) : State :=
  let on := s.start.memActive && s.dur.drain == 0 && (decide (s.glb.mode = .active) || decide (s.glb.mode = .quiet))
  let s1 := if on && !s.on F.LEDG_STATUS_CHECKING then s.modLedg (fun l => { l with found := [] }) else s
  setB F.LEDG_STATUS_CHECKING on s1

/-- What follows from an event by itself: the plates' state machines, key operations, an activation, a checkpoint that is due, a
drain, a margin change, HU_EN, a start, a pending target. -/
def after (s : State) : State :=
  s |> platesSettle |> keyAdvance |> actGo |> ckptJmax |> drainAdvance |> marginGo |> huFollow |> checkFollow |> perstGo |> pendGo

/-- After an event of the dome the domains follow, too. -/
def domeAfter (s : State) : State := after (pdSettle s)

/-! ### Input power (R321, R325, R329, R330) -/

/-- R330: the bank is empty, or disconnected. DEDUCED, notes/assumptions/44.md. DEDUCED, notes/assumptions/45.md. -/
def collapse (s : State) : State :=
  let s0 := s.modStart (fun x => { x with vin := false })
  if s.glb.mode = .off ∨ s.glb.mode = .standby ∨ s.glb.mode = .faultHalt then
    if s.seqsBusy then
      (railsCut s0).modGlb (fun g => { g with mode := if g.mode = .standby then .off else g.mode })
    else s0
  else if s.on F.DOME_CTL_LEGACY_COLLAPSE then
    let s1 := (almCut (reloadsAbandon false (faultWrite 6 0xFF (tgetD 1 s.dome.adc 9 - 1) s.seqsBusy s0))).modDome (fun d => { d with legacy := true })
    if 5 ≤ s.dur.drain then
      domeAfter (s1.modDome (fun d => { d with seqs := d.seqs.map (fun p => (p.1, { p.2 with steps := legacySteps p.2.steps })) }))
    else domeAfter (drainDown (s1.modGlb (fun g => { g with transTo := none, ingressClosed := true })))
  else collapseNative s0

def execInputCollapse (mv : BitVec 16) (s : State) : Host.Outcome State Fault Refusal :=
  .next (collapse (s.modDome (fun d => { d with adc := tset d.adc 9 (mv.toNat + 1) })))

/-- R329: input loss. -/
def inputLoss (s : State) : State :=
  if s.start.vin then
    let s1 := setErr F.DOME_ERR_STATUS_INPUT_LOSS intDome ((s.modStart (fun x => { x with vin := false })).modDome (fun d => { d with onBank := true }))
    match s.glb.mode with
    | .off => domeAfter (seqOff devSeq s1)
    | .standby => domeAfter ((seqOff devSeq s1).modGlb (fun g => { g with mode := .off, wake := false }))
    | .faultHalt => seqOff devSeq s1
    | .starting => if s1.dome.huEn then domeAfter (drainDown (reloadsAbandon false s1)) else collapse s1
    | _ =>
      if s.dur.drain ≠ 0 then s1
      else if !s1.dome.huEn then collapse s1
      else if s1.glb.mode = .parked then domeAfter (drainDown (reloadsAbandon false s1))
      else domeAfter (drainBegin s1)
  else s

def execInputLoss (s : State) : Host.Outcome State Fault Refusal := .next (inputLoss s)

/-- Input power is there again: in a drain the on request is held; otherwise the device is powered up. -/
def vinBack (s : State) : State :=
  if s.start.vin then s
  else
    let s1 := (s.modStart (fun x => { x with vin := true })).modDome (fun d => { d with onBank := false })
    if s.glb.mode = .off ∨ s.glb.mode = .standby ∨ s.glb.mode = .faultHalt then
      domeAfter (seqOn devSeq (((s1.modGlb (fun g => { g with mode := .off, wake := false })).modStart
        (fun x => { x with source := srcPowerOn, relPend := false })).modFind (fun f => { f with drive := 0, ir := 2 })))
    else s1

def execInputReturn (s : State) : Host.Outcome State Fault Refusal := .next (vinBack s)

/-! ### The always-on supply (R427, R413) -/

/-- VDD_AON rises: the straps are sampled. -/
def aonUp (straps : Nat) (s : State) : State :=
  (strapsTake straps s).modStart (fun x => { x with aonDown := false, wakeId := straps % 64 })

/-- The always-on domain resets below 2.6 V. -/
def aonReset (s : State) : State :=
  ((sbusRegsReset (seqAll (fun f t => setF f f.rst t) aonFields s)).modClk (fun _ => ClkSt.reset)).modSbus
    (fun b => { SbusSt.reset with key := b.key, ident := b.ident })

/-- R427: an always-on loss. `reset`: it fell below 2.6 V. -/
def aonLoss (reset : Bool) (s : State) : State :=
  let s1 := (powerGone (railsCut (almFinish s))).modStart (fun x => { x with aonDown := true, aonLost := true, relPend := false })
  if reset then aonReset s1 else s1

def execAonLoss (reset : Bool) (s : State) : Host.Outcome State Fault Refusal := .next (aonLoss reset s)

/-- R427: VDD_AON returns. -/
def aonReturn (straps : Nat) (s : State) : State :=
  if s.start.aonDown then
    let s1 := (aonUp straps s).modStart (fun x => { x with source := srcPowerOn })
    if s.start.vin then domeAfter (seqOn devSeq s1) else s1
  else s

def execAonReturn (straps : BitVec 8) (s : State) : Host.Outcome State Fault Refusal := .next (aonReturn straps.toNat s)

/-- Power is applied: VDD_AON, if it is not there yet, and the shelf input. DEDUCED, notes/assumptions/45.md. -/
def powerOn (straps : Nat) (s : State) : State := vinBack (if s.start.aonDown then aonUp straps s else s)

def execPowerOn (straps : BitVec 8) (s : State) : Host.Outcome State Fault Refusal := .next (powerOn straps.toNat s)

/-! ### PERST# and modes -/

def execPerstAssert (s : State) : Host.Outcome State Fault Refusal := .next (domeAfter (perstAssert s))

def execPerstRelease (straps : BitVec 8) (wipeUs : BitVec 16) (wipeFail : Bool) (s : State) : Host.Outcome State Fault Refusal :=
  .next (domeAfter (perstRelease straps.toNat wipeUs.toNat wipeFail s))

def execModeTargetActive (_m : Master) (s : State) : Host.Outcome State Fault Refusal := .next (after (modeCtl 0 s))
def execModeTargetQuiet (_m : Master) (s : State) : Host.Outcome State Fault Refusal := .next (after (modeCtl 1 s))
def execModeTargetParked (_m : Master) (s : State) : Host.Outcome State Fault Refusal := .next (after (modeCtl 2 s))
def execModeTargetStandby (_m : Master) (s : State) : Host.Outcome State Fault Refusal := .next (after (modeCtl 3 s))

/-- R12: a transition completes; a life-cycle transition goes on from PARKED. -/
def modeTransitionDone (s : State) : State :=
  let s1 := modeDone s
  domeAfter (if s1.lcs.trans.isSome && decide (s1.glb.mode = .parked) && s1.glb.transTo.isNone && s1.ciph.ops == [] then lcFinish s1 else s1)

def execModeTransitionDone (s : State) : Host.Outcome State Fault Refusal := .next (modeTransitionDone s)

def execPmeToAck (s : State) : Host.Outcome State Fault Refusal := .next (domeAfter (pmeAck srcPerst s))

/-! ### The steps of a start (R414, R415) -/

/-- Does a start run, and is PERST# released? -/
def State.startRuns (s : State) : Bool := decide (s.glb.mode = .starting) && !s.glb.perst

def execImageLoaded (unread : BitVec 4) (xspi0 xspi1 : Option Image) (ms : BitVec 16) (s : State) : Host.Outcome State Fault Refusal :=
  .next (domeAfter (imageBoot unread.toNat xspi0 xspi1 ms.toNat s))

/-- GiB of a capacity code. -/
def capGib (code : Nat) : Nat := if code = 0 then 0 else 8 * 2 ^ code

/-- The installed working memory in GiB. -/
def totalGib (l : List DimmChan) : Nat := l.foldl (fun a x => a + (x.list.map (fun d => capGib d.2.cap.val)).sum) 0

/-- The data rate of a population (R194). -/
def ddrMts (l : List DimmChan) : Nat := if l.any (fun x => x.list.length == 2) then 5600 else 6400

/-- The identities of the DIMMs, by channel and slot. -/
def ddrIds (l : List DimmChan) : List (List (Nat × Nat)) := l.map (fun x => x.list.map (fun d => (d.1, d.2.ident)))

/-- The first DIMM with a fault: its channel and slot. -/
def dimmFault (l : List DimmChan) (p : Dimm → Bool) : Option (Nat × Nat) :=
  (l.zipIdx.flatMap (fun x => (x.1.list.filter (fun d => p d.2)).map (fun d => (x.2, d.1)))).head?

/-- Are two DIMMs alike in capacity, ranks and device width? -/
def Dimm.like (a b : Dimm) : Bool := a.ranks == b.ranks && a.x8 == b.x8 && a.cap == b.cap

/-- The first cause of R195, as POP_ERR encodes it, with its channel. The causes are looked for by kind: an SPD that cannot be read, an empty
channel, an unsupported DIMM, DIMMs of one channel that differ (no code names these: 0x3), channels that differ, a channel that did not
train, regions that do not fit. DEDUCED, notes/assumptions/47.md. DESIGN CHOICE, notes/assumptions/80.md. -/
def State.popErr (s : State) (l : List DimmChan) : Nat × Nat × Nat :=
  let head (x : DimmChan) : Option Dimm := (x.list.head?).map (·.2)
  let unlike (x : DimmChan) : Bool := x.list.any (fun d => (head x).any (fun y => !d.2.like y))
  let differ (x : DimmChan) : Bool :=
    l.head?.any (fun y => x.list.length != y.list.length || (head x).any (fun a => (head y).any (fun b => !a.like b)))
  match dimmFault l (fun d => !d.spd), l.findIdx? (fun x => x.list.isEmpty),
      dimmFault l (fun d => !d.supported || d.cap.val == 0 || d.ranks.val == 0), l.findIdx? unlike, l.findIdx? differ,
      l.findIdx? (fun x => !x.trained) with
  | some c, _, _, _, _, _ => (4, c)
  | _, some c, _, _, _, _ => (2, c, 0)
  | _, _, some c, _, _, _ => (3, c)
  | _, _, _, some c, _, _ => (3, c, 1)
  | _, _, _, _, some c, _ => (1, c, 0)
  | _, _, _, _, _, some c => (5, c, 0)
  | _, _, _, _, _, _ => if l.length = 4 ∧ s.regionsFit (totalGib l * 2 ^ 30) then (0, 0, 0) else (6, 0, 0)

/-- The channels' status after training. -/
def ddrShow (l : List DimmChan) (s : State) : State :=
  seqAll (fun (x : DimmChan × Nat) t =>
    let d : Dimm := ((x.1.list.head?).map (·.2)).getD ⟨false, false, 0, false, 0, 0⟩
    t |> setB (F.WMEM_CH_STATUS_TRAINED x.2) x.1.trained |> setF (F.WMEM_CH_STATUS_CAP x.2) d.cap.val |> setB (F.WMEM_CH_STATUS_WIDTH x.2) d.x8
      |> setF (F.WMEM_CH_STATUS_RANKS x.2) d.ranks.val |> setF (F.WMEM_CH_STATUS_DIMMS x.2) x.1.list.length) l.zipIdx s
    |> setF F.WMEM_CFG_TOTAL_GIB (totalGib l) |> setF F.WMEM_CFG_MTS (ddrMts l)

/-- Do the almanac's training records serve (R198): they stand as they were written, and name these DIMMs and this rate? -/
def State.recMatch (s : State) (l : List DimmChan) : Bool :=
  s.alm.train.any (fun r => r.1 == ddrIds l && r.2.1 == ddrMts l && r.2.2 == s.almBytes 0x3000 4096)

/-- R198, R195: DDR5 training ends on the four channels. `check`: where the records serve, the write-read check of step 3a passed; otherwise
training is full. The zeroer then runs (17_almanac_life_cycle_finder.md R402). At an exit from PARKED it tells of a failed check, after which
the block has trained in full (R199). DEDUCED, notes/assumptions/47.md. -/
def ddrTrained (l : List DimmChan) (check : Bool) (s : State) : State :=
  let rec_ := check && s.recMatch l
  if s.startRuns && s.stage == stageTrain && !s.start.ddrTrained then
    let s1 := ddrShow l s
    let (err, c, slot) := s.popErr l
    if err ≠ 0 then s1 |> setF F.WMEM_STATUS_POP_ERR err |> setStage stageHaltPop |> logOpen bWMEM c slot
    else
      (s1.modStart (fun x => { x with ddrTrained := true })).modWm (fun w => { w with recPend := if rec_ then none else some (ddrIds l) })
        |> setF F.WMEM_STATUS_TRAIN_SRC (if rec_ then 2 else 1) |> setF F.MERID_STATUS_WIPE_BUSY 1
  else if s.glb.mode = .parked ∧ (s.glb.transTo = some .active ∨ s.glb.transTo = some .quiet) ∧ !check then
    ((ddrShow l s).modWm (fun w => { w with recPend := some (ddrIds l) })) |> setF F.WMEM_STATUS_TRAIN_SRC 1
  else s

def execDdrTrainingDone (chans : List DimmChan) (fromRec : Bool) (s : State) : Host.Outcome State Fault Refusal :=
  .next (after (ddrTrained chans fromRec s))

/-- R402: the zeroer is done. -/
def execZeroerDone (s : State) : Host.Outcome State Fault Refusal := .next (setF F.MERID_STATUS_WIPE_BUSY 0 s)

/-- R414 step 10: replay, once the channels and DDR5 are trained. -/
def replayRun (out0 out1 : Nat) (bad : List Nat) (badHdr : List Nat) (vaultOk : Bool) (us : Nat) (s : State) : State :=
  if s.startRuns && s.stage == stageTrain && s.start.ddrTrained && s.img.chans != 0 &&
      (List.range 32).all (fun c => !s.img.chans.testBit c || s.get (F.MCH_STATUS_STATE c) != 1) then
    failedDiesBad (replay (fun i => if i = 0 then out0 else out1) (fun j => bad.contains j) (fun p => badHdr.contains p) vaultOk us
      (setStage stageReplay s))
  else s

def execReplay (out0 out1 : Fin 3) (bad badHdr : List Nat) (vaultOk : Bool) (us : BitVec 32) (s : State) : Host.Outcome State Fault Refusal :=
  .next (after (replayRun out0.val out1.val bad badHdr vaultOk us.toNat s))

/-- May CXL.mem become ready (R415)? -/
def State.readyMay (s : State) : Bool :=
  s.startRuns && s.loaded && s.start.ddrTrained && decide (s.get F.MERID_CFG_SIZE_GIB ≠ 0) && (List.range 8).any s.laneOk &&
    (s.on F.CIPH_STATUS_KEYS_LOADED || s.start.vaultHandled) && s.start.replayed

/-- R415: CXL.mem becomes ready. DEDUCED, notes/assumptions/42.md. -/
def memReadyGo (s : State) : State :=
  let s1 := (s.modGlb (fun g => { g with mode := .active, transTo := none, ingressClosed := false, stayLds := [], stayAny := false })).modStart
    (fun x => { x with memActive := true, warm := false })
  let s2 := s1 |> setF F.GLB_MODE_STATUS_CURRENT Mode.active.code |> setF F.GLB_MODE_STATUS_LAST_SRC 0
    |> setF F.GLB_START_STATUS_READY_US (min (2 ^ 32 - 1) ((s.now - s.start.relAt) / 1000)) |> setStage stageReady
  let (p0, s3) := takeNat s2
  let s4 := s3 |> setErr F.GLB_MODE_STATUS_MODE_DONE intMode |> logPut sevInfo 0x0001 p0 Mode.active.code 0 0
  s4 |> imageReady |> dirtySettle |> trainRecords |> ldStatusAll |> pdSettle

/-- A warm start ends: the links are up again. DEDUCED, notes/assumptions/43.md. -/
def warmReady (s : State) : State :=
  if s.start.warm && !s.glb.perst && s.stage == stageWarm then
    (s.modStart (fun x => { x with memActive := true, warm := false })) |> setStage stageReady
      |> setF F.GLB_START_STATUS_READY_US (min (2 ^ 32 - 1) ((s.now - s.start.relAt) / 1000))
  else s

def execCxlMemReady (s : State) : Host.Outcome State Fault Refusal :=
  .next (if s.readyMay then domeAfter (memReadyGo s) else after (warmReady s))

/-- R244: an uncorrectable error in the root engine's SRAM leads to FAULT-HALT. No rail has failed, and DOME_FAULT records
none. DEDUCED, notes/assumptions/44.md. -/
def rootUe (s : State) : State :=
  if s.glb.mode = .off ∨ s.glb.mode = .standby ∨ s.glb.mode = .faultHalt then s
  else
    let v := s.get F.DOME_FAULT_VALID
    let c := s.get F.DOME_FAULT_CAUSE
    let i := s.get F.DOME_FAULT_IN_SEQ
    let r := s.get F.DOME_FAULT_RAIL
    let m := s.get F.DOME_FAULT_MV
    railFault c r m (setErr F.MERID_ERR_STATUS_ROOT_UE intMerid s)
      |> setF F.DOME_FAULT_VALID v |> setF F.DOME_FAULT_IN_SEQ i

def execRootSramUe (s : State) : Host.Outcome State Fault Refusal := .next (rootUe s)

/-! ### Rails, sequencers and readings (13_dome_power.md R313, R317 to R320) -/

def execDomainRampDone (pd : Fin 80) (katOk : Bool) (s : State) : Host.Outcome State Fault Refusal :=
  .next (domeAfter (rampDone pd.val katOk s))

/-- A rail that rises has power good and its window. -/
def railGood (n mv : Nat) (s : State) : State :=
  if (s.rail n).phase = .rising ∧ !s.railOver n mv ∧ !s.railUnder n mv then
    domeAfter (seqRun (railSeq n) (modRail n (fun r => { r with phase := .running, pg := true, mv := mv }) s))
  else s

def execRailPowerGood (rail : Fin 40) (mv : BitVec 16) (s : State) : Host.Outcome State Fault Refusal := .next (railGood rail.val mv.toNat s)

/-- A rail has not come up in its WAIT_UP time. -/
def waitUpTimeout (n : Nat) (s : State) : State :=
  if (s.rail n).phase = .rising then domeAfter (railFail 2 n (s.rail n).mv s) else s

def execWaitUpTimeout (rail : Fin 40) (s : State) : Host.Outcome State Fault Refusal := .next (waitUpTimeout rail.val s)

/-- A disabled rail reads below 10 % of nominal (R319). -/
def railDown (n mv : Nat) (s : State) : State :=
  let r := s.rail n
  if !r.en ∧ !r.disch ∧ mv * 10 < s.get (F.DOME_RAIL_CFG_NOM_MV n) then
    domeAfter (seqRun (railSeq n) (modRail n (fun x => { x with disch := true, pg := false, mv := mv, phase := if x.phase = .failed then .failed else .off }) s))
  else s

def execRailDischarged (rail : Fin 40) (mv : BitVec 16) (s : State) : Host.Outcome State Fault Refusal := .next (railDown rail.val mv.toNat s)

/-- R319, R328: a rail misses its discharge timeout. -/
def dischargeTimeout (n : Nat) (s : State) : State :=
  let r := s.rail n
  if !r.en ∧ !r.disch then
    domeAfter (railFail 4 n r.mv (s |> setErr F.DOME_ERR_STATUS_DISCH_TO intDome |> logPut sevError 0x1002 4 n 0 0))
  else s

def execDischargeTimeout (rail : Fin 40) (s : State) : Host.Outcome State Fault Refusal := .next (dischargeTimeout rail.val s)

/-- R319: the minimum off time has passed. -/
def minOff (n : Nat) (s : State) : State :=
  if (s.rail n).en then s else domeAfter (seqRun (railSeq n) (modRail n (fun x => { x with offMin := true }) s))

def execMinOffExpiry (rail : Fin 40) (s : State) : Host.Outcome State Fault Refusal := .next (minOff rail.val s)

def execScriptDelayExpiry (seq : Fin 17) (s : State) : Host.Outcome State Fault Refusal := .next (domeAfter (delayEnd seq.val s))

/-- Power good of a running rail falls. -/
def powerGoodLost (n : Nat) (s : State) : State :=
  let s1 := modRail n (fun r => { r with pg := false }) s
  if (s.rail n).phase = .running then domeAfter (railFail 2 n (s.rail n).mv s1) else s1

def execPowerGoodLost (rail : Fin 40) (s : State) : Host.Outcome State Fault Refusal := .next (powerGoodLost rail.val s)

/-- The window of a device rail, on two consecutive samples. -/
def adcRail (n mv : Nat) (s : State) : State :=
  let out := s.railOver n mv || s.railUnder n mv
  let s1 := railRead n mv s
  if (s.rail n).phase ≠ .running then s1
  else if !out then marginSettle n mv (modRail n (fun r => { r with bad := 0 }) s1)
  else if (s.rail n).bad = 0 then modRail n (fun r => { r with bad := 1 }) s1
  else railFail (if s.railOver n mv then 1 else 0) n mv s1

/-- R317: the ADC samples its 16 inputs; the lowest-numbered failure is the first (R327). `lost`: the event that carries the
samples found its crossing full, and is lost. -/
def adcSample (mv : List Nat) (lost : Bool) (s : State) : State :=
  if lost then xLost F.CLK_XOVR_AON 0 42 s
  else
    let s1 := s.modDome (fun d => { d with adc := (List.range 16).foldl (fun t i => match mv[i]? with | some v => tset t i (v + 1) | none => t) d.adc })
    domeAfter (seqAll (fun n t => match mv[n]? with | some v => adcRail n v t | none => t) (List.range 8) s1)

def execAdcSample (mv : List Nat) (lost : Bool) (s : State) : Host.Outcome State Fault Refusal := .next (adcSample mv lost s)

/-- One answer of a regulator (R317). -/
def pmbReply (p : PmbReply) (s : State) : State :=
  let n := p.rail.val
  if !s.on (F.DOME_RAIL_CFG_PMB_VALID n) then s
  else if !p.answered then
    let k := (s.rail n).miss + 1
    let s1 := modRail n (fun r => { r with miss := min k 3 }) s
    if k = 3 then setErr F.DOME_ERR_STATUS_PMB_LOST intDome s1 else s1
  else
    let s1 := modRail n (fun r => { r with miss := 0, mv := p.mv, iout := p.iout }) s
    if p.fault ∧ (s.rail n).phase = .running then railFail 3 n p.mv s1 else marginSettle n p.mv s1

def pmbPoll (l : List PmbReply) (s : State) : State :=
  if s.on F.DOME_CTL_PMB_EN then domeAfter (seqAll pmbReply l s) else s

def execPmbusPoll (replies : List PmbReply) (s : State) : Host.Outcome State Fault Refusal := .next (pmbPoll replies s)
def execPmbAlert (replies : List PmbReply) (s : State) : Host.Outcome State Fault Refusal := .next (pmbPoll replies s)

/-- An LD's temperature alert (02_host_port.md R36): crossing the threshold raises a Warning event. DESIGN CHOICE, notes/assumptions/54.md. -/
def tempAlert (tj n : Nat) (s : State) : State :=
  match (s.ld n).tempWarn with
  | some w =>
    if w ≤ tj ∧ !(s.ld n).tempHit then event n logWarning 0x51 tj (modLd n (fun l => { l with tempHit := true }) s)
    else if tj < w ∧ (s.ld n).tempHit then modLd n (fun l => { l with tempHit := false }) s
    else s
  | none => s

/-- R334, R327: the junction sensors are read; `temps` in degrees Celsius. -/
def tempReading (temps : List Nat) (s : State) : State :=
  let tj := temps.foldl max 0
  let hot := if 110 ≤ tj then s.dome.hot110 + 1 else 0
  let s1 := s.modDome (fun d =>
    { d with tj := tj, hot110 := min hot 2, hot105 := decide (105 < tj), thermOvr := decide (100 ≤ tj) || (d.thermOvr && decide (95 ≤ tj)) })
  let s2 := if 105 < tj ∧ !s.dome.hot105 then
      let (c, t) := takeNat s1
      logPut sevWarning (0x1000 + c % 256) tj 0 0 0 t
    else s1
  let s3 := seqAll (tempAlert tj) (s2.lds ++ [mgmtView]) s2
  if 2 ≤ hot ∧ s.glb.mode ≠ .off then railFault 5 0xFF tj s3 else s3

def execTempReading (temps : List Nat) (s : State) : Host.Outcome State Fault Refusal := .next (tempReading temps s)

/-! ### Channels and dies -/

def execProgramComplete (c : Fin 32) (d : Fin 8) (fails : List (Fin 4)) (s : State) : Host.Outcome State Fault Refusal :=
  .next (after (programComplete c.val d.val (fails.map (·.val)) s))

def execDieCmdDone (c : Fin 32) (d : Fin 8) (op : Fin 3) (ok : Bool) (s : State) : Host.Outcome State Fault Refusal :=
  .next (after (dieCmdDone c.val d.val op.val ok s))

def execFabricTimeout (c : Fin 32) (d : Fin 8) (plane : Option (Fin 4)) (ns : Nat) (s : State) : Host.Outcome State Fault Refusal :=
  .next (after (fabricTimeout c.val d.val (plane.map (·.val)) ns s))

def execDieLost (c : Fin 32) (d : Fin 8) (s : State) : Host.Outcome State Fault Refusal := .next (after (dieLost c.val d.val s))

def execTrainingDone (c : Fin 32) (present pass : BitVec 8) (s : State) : Host.Outcome State Fault Refusal :=
  .next (after (trainingDone c.val present.toNat pass.toNat s))

def execQuiesceDone (c : Fin 32) (s : State) : Host.Outcome State Fault Refusal := .next (after (quiesceDone c.val s))
def execSegmentLoaded (c : Fin 32) (ok : Bool) (s : State) : Host.Outcome State Fault Refusal := .next (after (segmentLoaded c.val ok s))
def execRetrainDone (c : Fin 32) (ok : Bool) (s : State) : Host.Outcome State Fault Refusal := .next (after (retrainDone c.val ok s))
def execCheckDone (c : Fin 32) (ok : Bool) (s : State) : Host.Outcome State Fault Refusal := .next (after (checkDone c.val ok s))

/-! ### Live reload (12_voxsicel_image.md R306 to R309) -/

def execReloadChan (_m : Master) (v : BitVec 32) (s : State) : Host.Outcome State Fault Refusal :=
  .next (after (imgReload (putBits 24 4 1 v.toNat) s))

def execReloadReg (_m : Master) (v : BitVec 32) (s : State) : Host.Outcome State Fault Refusal :=
  .next (after (imgReload (putBits 24 4 2 v.toNat) s))

def execReloadDome (_m : Master) (v : BitVec 32) (s : State) : Host.Outcome State Fault Refusal :=
  .next (after (imgReload (putBits 24 4 3 v.toNat) s))

def execReloadStandbyAssist (_m : Master) (v : BitVec 32) (s : State) : Host.Outcome State Fault Refusal :=
  .next (after (imgReload (putBits 24 4 4 v.toNat) s))

def execSwap (_m : Master) (v : BitVec 32) (s : State) : Host.Outcome State Fault Refusal :=
  .next (after (imgReload (putBits 24 4 5 v.toNat) s))

/-- The UNIT of the write is a reserved one; where the operand names a unit, 0 stands for it. -/
def execReloadUnitInvalid (_m : Master) (v : BitVec 32) (s : State) : Host.Outcome State Fault Refusal :=
  let u := v.toNat / 2 ^ 24 % 16
  .next (after (imgReload (putBits 24 4 (if 1 ≤ u ∧ u ≤ 5 then 0 else u) v.toNat) s))

def execDomeBankFlip (s : State) : Host.Outcome State Fault Refusal := .next (after (domeBankFlip s))
def execStandbyReady (s : State) : Host.Outcome State Fault Refusal := .next (after (standbyReady s))
def execAssistReadyTimeout (s : State) : Host.Outcome State Fault Refusal := .next (after (assistTimeout s))
def execSwapTimeout (s : State) : Host.Outcome State Fault Refusal := .next (after (swapTimeout s))

/-! ### Almanac, checkpoint, hours -/

def execAlmWriteDone (s : State) : Host.Outcome State Fault Refusal := .next (after (almWriteDone s))
/-- The checkpoint writer waits for a sector rebuild (08_working_memory.md R207). -/
def execCkptComplete (s : State) : Host.Outcome State Fault Refusal :=
  .next (if s.xlat.rebuilding.isEmpty then after (ckptComplete s) else s)

/-- A whole hour in ACTIVE, QUIET or PARKED is over: the running assistant, unless it is halted, counts it
(17_almanac_life_cycle_finder.md R394, R406). -/
def powerHour (s : State) : State :=
  match s.glb.mode with
  | .active | .quiet | .parked => if s.asstStalled then s else odoInc odoHours s
  | _ => s

def execPowerHourTick (s : State) : Host.Outcome State Fault Refusal := .next (powerHour s)

def execRekeyDone (s : State) : Host.Outcome State Fault Refusal := .next (settle (rekeyDone s))

end Sys2Proof.Machine
end

