-- ==== Sys2Proof/Machine/Lcs.lean ====
section
/-! DEFINITION. Requests of LCS_CMD: life-cycle transitions, unlock, relock, owner key fusing (17_almanac_life_cycle_finder.md R397
to R400, R407, R410). -/

namespace Sys2Proof.Machine

/-! ### Results (R410) -/

def lrOk : Nat := 0
def lrBadToken : Nat := 1
def lrNotAllowed : Nat := 2
def lrWp : Nat := 3
def lrBusy : Nat := 4
def lrNoSlot : Nat := 5
def lrBadConfirm : Nat := 7

def lcOpTransition : Nat := 1
def lcOpUnlock : Nat := 2
def lcOpRelock : Nat := 3
def lcOpKeyfuse : Nat := 4

/-! ### Tokens (R407) -/

/-- The 256 bytes in LCS_TOKEN. -/
def State.tokenBytes (s : State) : List Nat := (List.range 32).flatMap (fun w => numBytes 8 (s.get (F.LCS_TOKEN w)))

/-- Put a token into LCS_TOKEN. -/
def tokenPut (b : List Nat) (s : State) : State :=
  seqAll (fun w t => setF (F.LCS_TOKEN w) (bytesNum ((b.drop (8 * w)).take 8)) t) (List.range 32) s

def tokenRange (b : List Nat) (i n : Nat) : List Nat := (b.drop i).take n

/-- The slot, of those allowed, that the token's key hashes to. -/
def State.keySlot (s : State) (b : List Nat) (slots : List Nat) : Option Nat :=
  let h := digestBytes 48 (sha384 (tokenRange b 64 96))
  slots.find? (fun k => s.lcs.fused.testBit k && !s.lcs.revoked.testBit k && decide (tgetD [] s.lcs.hashes k = h))

/-- The slot of an accepted token of a kind; `par` is what byte 3 holds. -/
def State.tokenSlot (s : State) (kind : Nat) (par : Nat → Bool) (slots : List Nat) : Option Nat :=
  let b := s.tokenBytes
  let bs (i n : Nat) : List Byte := (tokenRange b i n).map (BitVec.ofNat 8)
  match s.keySlot b slots with
  | none => none
  | some k =>
    if bytesNum (tokenRange b 0 2) = kind ∧ b.getD 2 0 = 1 ∧ par (b.getD 3 0) ∧ bytesNum (tokenRange b 8 8) = s.get F.LCS_CHALLENGE ∧
        tokenRange b 16 16 = s.almBytes 8 16 ∧ (tokenRange b 4 4 ++ tokenRange b 32 32).all (· == 0) ∧
        Config.sigOk (bs 0 160) (bs 64 96) (bs 160 96) then some k
    else none

/-! ### Transitions (R399, R400) -/

/-- What a transition between two states needs: a confirmation code, a token under one of the slots, or nothing will do. -/
inductive LcAuth where
  | confirm (code : Nat)
  | token (slots : List Nat)
  | never
  deriving DecidableEq, Repr

/-- The table of R399. -/
def lcAuth (old new : Nat) : LcAuth :=
  if old = lcManufacture ∧ (new = lcProvision ∨ new = lcDevelop) then .token [0, 1]
  else if old = lcProvision ∧ new = lcService then .confirm 0x5E21
  else if old = lcService ∧ new = lcReturn then .token [0, 1, 2, 3]
  else if old = lcReturn ∧ new = lcProvision then .token [0, 1]
  else if new = lcDecommission ∧ (old = lcProvision ∨ old = lcDevelop ∨ old = lcService ∨ old = lcReturn) then .confirm 0xDEC0
  else .never

/-- Step 1: the status of the first check that fails. A confirmation code is taken from the management view only. DEDUCED, notes/assumptions/59.md. -/
def State.lcCheck (s : State) (m : Master) (target confirm : Nat) : Option Nat :=
  let rest : Option Nat :=
    if s.alm.wp then some lrWp
    else if 8 ≤ s.lcs.slots.length then some lrNoSlot
    else if s.glb.transTo.isSome || s.reloadRuns || (decide (s.glb.mode = .starting) && decide (lcReturn ≤ target) && !s.start.replayed) then
      some lrBusy
    else none
  match lcAuth s.lcs.state target with
  | .never => some lrNotAllowed
  | .confirm c => if m ≠ .host then some lrNotAllowed else if confirm ≠ c then some lrBadConfirm else rest
  | .token slots => if (s.tokenSlot 0x1C12 (· == target) slots).isNone then some lrBadToken else rest

/-- Steps 1 to 3 of a transition; what follows goes on with the park. DEDUCED, notes/assumptions/59.md. -/
def lcTransition (m : Master) (target confirm : Nat) (s : State) : State :=
  match s.lcCheck m target confirm with
  | some st => lcsEnd lcOpTransition st s
  | none =>
    let s1 := match lcAuth s.lcs.state target with
      | .token _ => newChallenge s
      | _ => s
    let s2 := setF F.LCS_STATUS_BUSY 1 (s1.modLcs (fun l => { l with trans := some target }))
    if target = lcReturn ∨ target = lcDecommission then keyAdvance (keyOwn 8 0 s2) else lcPark s2

/-! ### Unlock, relock, key fusing (R400, R407) -/

/-- UNLOCK, in SERVICE. DEDUCED, notes/assumptions/59.md. -/
def lcUnlock (s : State) : State :=
  if s.lcs.state ≠ lcService then lcsEnd lcOpUnlock lrNotAllowed s
  else
    match s.tokenSlot 0x1C11 (fun x => decide (x < 8)) [0, 1, 2, 3] with
    | none => lcsEnd lcOpUnlock lrBadToken s
    | some k =>
      let scope := s.tokenBytes.getD 3 0
      lcsEnd lcOpUnlock lrOk (newChallenge (odoInc odoUnlocks (lcShow
        (s |> setF F.LCS_FINDER_UNLOCKED 1 |> setF F.LCS_FINDER_SCOPE scope |> setF F.LCS_FINDER_KEY_SLOT k))))

/-- RELOCK ends the unlock. DEDUCED, notes/assumptions/59.md. -/
def lcRelock (s : State) : State :=
  lcsEnd lcOpRelock lrOk (lcShow (s |> setF F.LCS_FINDER_UNLOCKED 0 |> setF F.LCS_FINDER_KEY_SLOT 0))

/-- The hash in LCS_KHASH. -/
def State.khash (s : State) : List Nat := (List.range 6).flatMap (fun w => numBytes 8 (s.get (F.LCS_KHASH w)))

/-- KEYFUSE blows the lowest owner slot that is neither fused nor revoked. -/
def lcKeyfuse (s : State) : State :=
  if s.lcs.state ≠ lcProvision then lcsEnd lcOpKeyfuse lrNotAllowed s
  else
    match [2, 3].find? (fun k => !s.lcs.fused.testBit k && !s.lcs.revoked.testBit k) with
    | none => lcsEnd lcOpKeyfuse lrNoSlot s
    | some k =>
      lcsEnd lcOpKeyfuse lrOk (lcShow (s.modLcs (fun l => { l with fused := l.fused ||| 2 ^ k, hashes := tset l.hashes k s.khash })))

/-! ### LCS_CMD (R410) -/

/-- GO with an operation; while a transition runs it completes with BUSY. -/
def lcsGo (m : Master) (op target confirm : Nat) (s : State) : State :=
  if s.lcs.trans.isSome then setF F.LCS_STATUS_BUSY 1 (lcsEnd op lrBusy s)
  else
    let s1 := setF F.LCS_CMD_DONE 0 s
    if op = lcOpTransition then lcTransition m target confirm s1
    else if op = lcOpUnlock then lcUnlock s1
    else if op = lcOpRelock then lcRelock s1
    else lcKeyfuse s1

/-- A write of LCS_CMD; only the management view and the finder write the block. -/
def lcsCmd (m : Master) (v : Nat) (s : State) : State :=
  if m ≠ .host ∧ m ≠ .finder then s
  else
    let s1 := storeAt 0x3F0010 v s
    let op := v / 2 ^ 24 % 16
    if v.testBit 31 ∧ 1 ≤ op ∧ op ≤ 4 then domeAfter (lcsGo m op (v / 2 ^ 21 % 8) (v % 2 ^ 16) s1) else s1

def execLcTransition (m : Master) (v : BitVec 32) (s : State) : Host.Outcome State Fault Refusal :=
  .next (lcsCmd m (putBits 24 4 lcOpTransition v.toNat) s)
def execUnlock (m : Master) (v : BitVec 32) (s : State) : Host.Outcome State Fault Refusal :=
  .next (lcsCmd m (putBits 24 4 lcOpUnlock v.toNat) s)
def execRelock (m : Master) (v : BitVec 32) (s : State) : Host.Outcome State Fault Refusal :=
  .next (lcsCmd m (putBits 24 4 lcOpRelock v.toNat) s)
def execKeyfuse (m : Master) (v : BitVec 32) (s : State) : Host.Outcome State Fault Refusal :=
  .next (lcsCmd m (putBits 24 4 lcOpKeyfuse v.toNat) s)

end Sys2Proof.Machine
end

