-- ==== Sys2Proof/Machine/Ledgers.lean ====
section
/-! DEFINITION. The ledger checker (11_regulation_and_ledgers.md R279 to R286; 10_transit_rings.md R267). -/

namespace Sys2Proof.Machine

/-- The key of a ledger's index. -/
def ledgKey (ledger idx : Nat) : Nat := ledger * 65536 + idx

/-- While map sectors are rebuilt or lost the map cannot be read whole, and the totals stand as the other side has them. -/
def State.mapWhole (s : State) : Bool := s.xlat.rebuilding.isEmpty && s.xlat.lost.isEmpty

/-- CREDIT: credits advertised, and those free in the device, held by the host or in the port; S2M credits on the same terms (R42). -/
def State.creditSides (s : State) (port cls : Nat) : Nat × Nat :=
  let p := s.port port
  if cls < 6 then (credGrant cls, p.freeCred cls + tgetD 0 p.held cls + tgetD 0 p.inPort cls)
  else (tgetD 0 p.s2mGrant cls, tgetD 0 p.s2mFree cls + tgetD 0 p.s2mUsed cls)

/-- The sum of the reference counts, and the mapped folios with the gathers that recorded a KID. -/
def State.kidSides (s : State) : Nat × Nat :=
  let refs := s.ciph.kids.foldl (fun a k => a + k.2.refs) 0
  (refs, if s.mapWhole then
    (s.liveEntries.filter (fun e => foType e.2.2 == 1 || foType e.2.2 == 2)).length + (s.coal.gathers.filter (·.kidRef)).length
   else refs)

/-- VALID: the sum over all fields, and the frames on media. -/
def State.validSides (s : State) : Nat × Nat :=
  let v := s.fld.tbl.foldl (fun a f => a + f.2.valid) 0
  (v, if s.mapWhole then (s.liveEntries.flatMap (fun e => s.folioUnits e.2.2)).length else v)

/-- The equations of a pair (10_transit_rings.md R267): commands fetched, reserved slots, the places of its CQ. -/
def State.pairSides (s : State) (q : Nat) : List (Nat × Nat) :=
  let out := s.outstanding q
  let held := (s.ring.cmds.filter (fun c => c.pair == q)).length
  let n := s.cqSize q - 1
  [(tgetD 0 s.ring.fetched q, out + tgetD 0 s.ring.posted q), (held, out), (held + s.unconsumed q + (n - held - s.unconsumed q), n)]

/-- The two sides of a ledger's index as its blocks keep them, of a pair those of its first equation that does not hold; `none` where the
ledger does not have the index. DESIGN CHOICE, notes/assumptions/55.md. -/
def State.ledgSides (s : State) (ledger idx : Nat) : Option (Nat × Nat) :=
  match ledger, idx with
  | 0, i => if i < 16 then some (s.creditSides (i / 8) (i % 8)) else none
  | 1, 0 => some (lineTokens, s.lineFree + s.coal.toks.length)
  | 2, 0 => some (s.get F.COAL_STAGE_CFG_FRAMES, s.frameFree + s.frameToksUsed.length)
  | 2, 1 =>
    some (s.coal.entered, s.coal.switched + s.coal.dropped + s.coal.lostN +
      (s.coal.frames.filter (fun f => f.2.st == .staged || f.2.st == .programming)).length)
  | 3, i =>
    if i < 16384 then ((s.pairSides i).find? (fun p => p.1 != p.2)).or (s.pairSides i).head?
    else if 0x8000 ≤ i ∧ i < 0x8004 then
      let n := (s.ring.cmds.filter (fun c => c.pair / 4096 == i - 0x8000)).length
      some (4096, n + (4096 - n))
    else none
  | 4, 0 => some (s.poolSize, s.poolFree + s.xlat.splits.length)
  | 5, 0 =>
    let n := s.fieldsIn fOpen + s.fieldsIn fClosed + s.fieldsIn fVerified + s.fieldsIn fRetired + s.fieldsIn fBad
    some (s.installedFields, s.fieldsFree + n)
  | 6, 0 => some s.validSides
  | 7, 0 => some s.kidSides
  | _, _ => none

/-- The difference of the sides: what an injection or a reported imbalance has added to the left side counts. -/
def State.ledgDiff (s : State) (ledger idx : Nat) : Int :=
  match s.ledgSides ledger idx with
  | some (l, r) => (l : Int) + tgetD 0 s.ledg.delta (ledgKey ledger idx) - r
  | none => 0

/-- A number as 64 bits of two's complement. -/
def intBits (i : Int) : Nat := (i % (2 ^ 64 : Int)).toNat

/-- The left side with what has been added to it, and the right side. -/
def State.ledgView (s : State) (ledger idx : Nat) : Nat × Nat :=
  match s.ledgSides ledger idx with
  | some (l, r) => (intBits ((l : Int) + tgetD 0 s.ledg.delta (ledgKey ledger idx)), r)
  | none => (0, 0)

/-- The indexes a snapshot compares. Pairs without a count are balanced unless something was added to them. -/
def State.ledgKeys (s : State) : List Nat :=
  ((List.range 16).map (ledgKey 0) ++ [ledgKey 1 0, ledgKey 2 0, ledgKey 2 1] ++ s.ring.fetched.map (fun p => ledgKey 3 p.1) ++
    s.ring.posted.map (fun p => ledgKey 3 p.1) ++ (List.range 4).map (fun i => ledgKey 3 (0x8000 + i)) ++
    [ledgKey 4 0, ledgKey 5 0, ledgKey 6 0, ledgKey 7 0] ++ s.ledg.delta.map (·.1) ++ s.ledg.found.map (·.1)).eraseDups

/-- R283, the first imbalance: the record, the write protection of every LD, the fault. -/
def ledgFault (ledger idx : Nat) (s : State) : State :=
  let v := s.ledgView ledger idx
  let s1 := s |> setF F.LEDG_FAULT_ID_LEDGER ledger |> setF F.LEDG_FAULT_ID_INDEX idx
    |> setB F.LEDG_FAULT_ID_INJECTED (s.ledg.injected.contains (ledgKey ledger idx))
    |> setF F.LEDG_FAULT_LHS v.1 |> setF F.LEDG_FAULT_RHS v.2 |> setF F.LEDG_FAULT_TIME s.clk.tod
  seqAll (fun n t => wpSet n wpLedger t) (List.range 16) s1 |> setF F.LEDG_STATUS_FAULT 1 |> raiseInt intLedger
    |> (fun t => seqAll (fun n u => event n logFailure 0x70 (ledgKey ledger idx) u) t.lds t)

/-- A new imbalance: it is counted and logged, at most once per ledger and millisecond after the first. -/
def ledgNew (ledger idx : Nat) (s : State) : State :=
  let v := s.ledgView ledger idx
  let first := !s.on F.LEDG_STATUS_FAULT
  let s1 := incF F.LEDG_FAULT_ID_COUNT 1 s
  let s2 := if first || tgetD 0 s.ledg.logged ledger != s.msWindow then
      (logPut sevCritical 0x0E01 (ledgKey ledger idx) (v.1 % 2 ^ 32) (v.2 % 2 ^ 32) (intBits (s.ledgDiff ledger idx) % 2 ^ 32) s1).modLedg
        (fun l => { l with logged := tset l.logged ledger s.msWindow })
    else s1
  if first then ledgFault ledger idx s2 else s2

/-- One index of a snapshot; `old` is the state the snapshot was taken of. DESIGN CHOICE, notes/assumptions/55.md. -/
def ledgCheck (old : State) (key : Nat) (s : State) : State :=
  let ledger := key / 65536
  let d := old.ledgDiff ledger (key % 65536)
  let was := tgetD 0 s.ledg.found key
  if s.get F.LEDG_STATUS_UNTRUSTED / 2 ^ ledger % 2 = 1 ∨ d = was then s
  else
    let s1 := s.modLedg (fun l => { l with found := tput 0 l.found key d })
    if d = 0 then s1 else ledgNew ledger (key % 65536) s1

/-- R280: a snapshot of every ledger is compared. -/
def ledgSnapshot (s : State) : State := if s.on F.LEDG_STATUS_CHECKING then seqAll (ledgCheck s) s.ledgKeys s else s

def execLedgerSnapshot (s : State) : Host.Outcome State Fault Refusal := .next (ledgSnapshot s)

/-- A signed 32-bit number. -/
def signed32 (v : Nat) : Int := if v % 2 ^ 32 < 2 ^ 31 then (v % 2 ^ 32 : Nat) else ((v % 2 ^ 32 : Nat) : Int) - 2 ^ 32

/-- R284: a write of LEDG_INJECT. DESIGN CHOICE, notes/assumptions/55.md. -/
def ledgInject (v : Nat) (s : State) : State :=
  let ledger := v / 2 ^ 48 % 8
  let idx := v / 2 ^ 32 % 65536
  if v.testBit 63 ∧ (s.lcs.state = lcManufacture ∨ s.lcs.state = lcDevelop) ∧ (s.ledgSides ledger idx).isSome then
    (ledgerAdd ledger idx (signed32 v) s).modLedg (fun l => { l with injected := (ledgKey ledger idx :: l.injected).eraseDups })
  else s

def execLedgerInject (_m : Master) (v : Word) (s : State) : Host.Outcome State Fault Refusal := .next (ledgInject v.toNat s)

/-- R286: a snapshot of the selected ledger for the live view. -/
def ledgLook (s : State) : State :=
  let v := s.ledgView (s.get F.LEDG_SEL_LEDGER) (s.get F.LEDG_SEL_INDEX)
  s |> setF F.LEDG_LHS v.1 |> setF F.LEDG_RHS v.2

def execLedgLhsRead (m : Master) (s : State) : Host.Outcome State Fault Refusal :=
  .next (emit (.regData m 0x370030 (BitVec.ofNat 64 (s.ledgView (s.get F.LEDG_SEL_LEDGER) (s.get F.LEDG_SEL_INDEX)).1)) (ledgLook s))

/-- R282: an uncorrectable error in a ledger's totals. -/
def ledgUe (n : Nat) (s : State) : State :=
  s |> setF F.LEDG_STATUS_UNTRUSTED (s.get F.LEDG_STATUS_UNTRUSTED ||| 2 ^ n) |> logOpen bLEDG n 0

def execLedgerSramUe (ledger : Fin 8) (s : State) : Host.Outcome State Fault Refusal := .next (ledgUe ledger.val s)

end Sys2Proof.Machine
end

