-- ==== Sys2Proof/Machine/Nodes.lean ====
section
/-! DEFINITION. Map fills as they return, lost nodes of the Meridian and the rebuild of map sectors (03_translation.md R64, R65,
R70; 07_durability.md R192; 09_cipher_and_meridian.md R241 to R243). -/

namespace Sys2Proof.Machine

/-! ### Lost nodes (09_cipher_and_meridian.md R242, R243) -/

/-- The bytes that a counter line covers: first and count. -/
def State.nodeRange (s : State) (level index : Nat) : Nat × Nat := (s.meridBase + index * 2 ^ (12 + 6 * level), 2 ^ (12 + 6 * level))

/-- Do two ranges meet? -/
def rangesMeet (a b : Nat × Nat) : Bool := decide (a.1 < b.1 + b.2) && decide (b.1 < a.1 + a.2)

/-- The bytes two ranges share. -/
def rangesShare (a b : Nat × Nat) : Nat × Nat := (max a.1 b.1, min (a.1 + a.2) (b.1 + b.2) - max a.1 b.1)

/-- The regions: staging window, journal build area, map region and frame pool, field table, seeing table, hold slots, field-table
snapshot. -/
def State.stageRegion (s : State) : Nat × Nat := (s.get F.COAL_STAGE_BASE * 2 ^ 14, s.get F.COAL_STAGE_CFG_FRAMES * 16384)
def State.jbufRegion (s : State) : Nat × Nat := (s.get F.DUR_JBUF_BASE * 2 ^ 20, 2 ^ 23)
def State.mapRegion (s : State) : Nat × Nat := (s.get F.XLAT_MAP_BASE * 2 ^ 12, sumOver 16 (fun n => s.get (F.XLAT_LD_MAP_LEN n) * 8))
def State.poolRegion (s : State) : Nat × Nat := (s.get F.XLAT_POOL_BASE * 2 ^ 30, s.get F.XLAT_POOL_CFG_POOL_GIB * 2 ^ 30)
def State.tblRegion (s : State) : Nat × Nat := (s.get F.FLD_TBL_BASE * 2 ^ 20, 2 ^ 27)
def State.seeRegion (s : State) : Nat × Nat := (s.get F.DRIFT_SEE_BASE * 2 ^ 20, 2 ^ 26)
def State.holdRegion (s : State) : Nat × Nat := (s.get F.FLD_HOLD_BASE * 2 ^ 20, s.get F.FLD_BUF_CFG_HOLD_SLOTS * 163840)
def State.snapRegion (s : State) : Nat × Nat := (s.get F.DUR_SNAP_BASE * 2 ^ 20, 2 ^ 27)

/-- Is a counter line mirrored (R241)? -/
def State.mirrored (s : State) (level index : Nat) : Bool :=
  rangesMeet (s.nodeRange level index) s.stageRegion || rangesMeet (s.nodeRange level index) s.jbufRegion

/-- The lines of the frame under a token that lie in a range of bytes, as a mask. -/
def State.frameLinesIn (s : State) (t : Nat) (r : Nat × Nat) : Nat :=
  (List.range 256).foldl (fun a i =>
    let b := s.stageRegion.1 + t * 16384 + i * 64
    if r.1 ≤ b ∧ b < r.1 + r.2 then a + 2 ^ i else a) 0

/-- How many bits a mask of 256 has set. -/
def bitsSet (m : Nat) : Nat := ((List.range 256).filter (fun i => m.testBit i)).length

/-- Lines of a frame are poisoned in its line mask, with LPOIS where its entry names the token. -/
def frameLinesLost (t mask : Nat) (s : State) : State :=
  match tget s.coal.frames t with
  | none => s
  | some fr =>
    let e := s.folio fr.ld fr.folio
    let fe := s.frameOfFolio e fr.frame
    let s1 := putFrame t { fr with lmask := fr.lmask ||| mask } s |> incF F.MERID_LOST_CNT_LINES (bitsSet mask)
    let s2 := if foType e = 2 ∧ fe / 2 ^ 62 = 2 ∧ frLoc fe = t then
        refreshPoisonAny fr.ld fr.folio (setFrame fr.ld fr.folio (foTable e) fr.frame (mkFrame 2 true t) 0 s1)
      else s1
    event fr.ld logFailure 0x60 (fr.folio * 2 ^ 20 + fr.frame * 16384) s2

/-- A staged frame is lost: its entry, its token. -/
def frameLost (t : Nat) (s : State) : State :=
  match tget s.coal.frames t with
  | none => s
  | some fr =>
    let e := s.folio fr.ld fr.folio
    let s1 := setFrame fr.ld fr.folio (foTable e) fr.frame (mkFrame 3 false 0) (s.dur.aseq - 1) s
    (dropFrame t s1).modCoal (fun c => { c with dropped := c.dropped - 1, lostN := c.lostN + 1 })
      |> incF F.MERID_LOST_CNT_FRAMES 1 |> incF F.LEDG_LOST 1 |> refreshPoisonAny fr.ld fr.folio
      |> event fr.ld logFailure 0x60 (fr.folio * 2 ^ 20 + fr.frame * 16384)

/-- A frame of staging under a lost node. A frame whose program has begun, and a mover's copy, keep their token; what they hold of
the covered lines is poisoned. -/
def nodeFrame (r : Nat × Nat) (t : Nat) (s : State) : State :=
  let m := s.frameLinesIn t r
  if m = 0 then s
  else if m = 2 ^ 256 - 1 ∧ (tget s.coal.frames t).any (fun fr => fr.st == .staged) then frameLost t s
  else frameLinesLost t m s

/-- A line of the coalescing buffer is journalled again with its own ASEQ. -/
def lineAgain (key : Nat) (l : CLine) (s : State) : State :=
  let ld := key / 2 ^ 46
  let dpa := key % 2 ^ 46 * 64
  let e := s.folio ld (folioOf dpa)
  let kid := if foType e = 0 then s.curKid ld else foKid e
  let typ := if l.poison then recPline else if l.full then recLine else recPart
  captureAt l.aseq typ ld kid (dpa / 64) (if l.poison ∨ l.full then [l.data.toNat] else [l.mask, l.data.toNat]) s

/-- The build area is covered: what staging and the coalescing buffer hold is journalled again; where other records stood there a
checkpoint starts at once. -/
def nodeBuild (s : State) : State :=
  let other := s.dur.build.any (fun r => r.typ != recLine && r.typ != recPart && r.typ != recPline && r.typ != recChunk)
  let s1 := s.modDur (fun d => { d with build := [] })
  let s2 := seqAll (fun p t => lineAgain p.1 p.2 t) s.coal.lines s1
  let s3 := seqAll (fun p t => match p.2.st with
    | .mover _ => t
    | _ => captureChunks p.2 t) s.coal.frames s2
  if other then ckptStart false s3 else s3

/-- A field record is lost: it reads as one with a reserved STATE (06_field_management.md R134). -/
def fieldRecLost (fno : Nat) (s : State) : State :=
  s |> putFrec fno { s.frec fno with st := 6 } |> setErr F.FLD_ERR_STATUS_TBL_BAD intFld |> logOpen bFLD fno 0

/-- A seeing record is zeroed (05_drift_and_references.md R127). DEDUCED, notes/assumptions/36.md. -/
def seeLost (fno : Nat) (s : State) : State :=
  (s.modDrift (fun d => { d with see := terase d.see fno })) |> setErr F.DRIFT_ERR_STATUS_SEE_UE intDrift

/-- The numbers of the records of `n` bytes in a region that lie in a range. -/
def recordsIn (region r : Nat × Nat) (n : Nat) : List Nat :=
  let x := rangesShare region r
  if x.2 = 0 then [] else (List.range ((x.1 + x.2 - 1 - region.1) / n + 1 - (x.1 - region.1) / n)).map (· + (x.1 - region.1) / n)

/-- The hold slots in a range give up their parity. -/
def holdsLost (r : Nat × Nat) (s : State) : State :=
  let ks := recordsIn s.holdRegion r 163840
  (s.modFld (fun f =>
    { f with holds := f.holds.filter (fun p => !ks.contains p.2),
             opens := f.opens.map (fun o => if o.hold.any ks.contains then { o with hold := none } else o) }))

/-- Words of the map in a range are gone, and are rebuilt (R70). -/
def mapLost (r : Nat × Nat) (s : State) : State :=
  if r.2 = 0 then s
  else
    (s.modWm (fun w => { w with words := w.words.filter (fun p => !(decide (r.1 ≤ p.1 * 8) && decide (p.1 * 8 < r.1 + r.2))) })).modXlat
      (fun x => { x with rebuilding := x.rebuilding ++ [(r.1 / 64, (r.2 + 63) / 64)] })

/-- R243. DESIGN CHOICE, notes/assumptions/30.md. DESIGN CHOICE, notes/assumptions/48.md. -/
def nodeLost (level index : Nat) (s : State) : State :=
  let r := s.nodeRange level index
  let major := s.get F.MERID_HWM + 1
  let below (p : Nat × Nat × Tbl Nat) : Bool :=
    let l := p.1 / 2 ^ 40
    decide (l < level) && p.1 % 2 ^ 40 / 2 ^ (6 * (level - l)) == index
  let s1 := setCtr level index (major, []) (s.modCiph (fun c => { c with ctr := c.ctr.filter (fun p => !below p) }))
    |> setF F.MERID_HWM major |> setErr F.MERID_ERR_STATUS_NODE_LOST intMerid
    |> incF F.MERID_LOST_COUNT 1 |> setF F.MERID_LOST_LEVEL level |> setF F.MERID_LOST_INDEX index
    |> logPut sevCritical 0x0B01 level index 0 0
  let s2 := s1 |> mapLost (rangesShare s.mapRegion r) |> mapLost (rangesShare s.poolRegion r)
  let s3 := seqAll (nodeFrame r) (s2.coal.frames.map (·.1)) s2
  let s4 := if rangesMeet s.jbufRegion r then nodeBuild s3 else s3
  let s5 := seqAll fieldRecLost (recordsIn s.tblRegion r 16) s4
  let s6 := seqAll seeLost (recordsIn s.seeRegion r 8) s5
  let s7 := if rangesMeet s.holdRegion r then holdsLost r s6 else s6
  if rangesMeet s.snapRegion r ∧ s7.dur.writing.isSome then
    ckptStart (s7.dur.writing.any (·.clean)) (s7.modDur (fun d => { d with writing := none }))
  else s7

/-- R242: a counter or tag line that failed. Answers whether its node is lost. -/
def ctrFailed (c : CtrFail) (s : State) : Bool × State :=
  let s1 := setErr F.MERID_ERR_STATUS_CTR_UE intMerid s
  if s.mirrored c.level.val c.index && c.mirrorOk then (false, cnt bMERID 3 1 (setErr F.MERID_ERR_STATUS_MIRROR_USED intMerid s1))
  else (true, nodeLost c.level.val c.index s1)

/-! ### Map fills (03_translation.md R64, R65, R70) -/

/-- A fill returns into a bank. `sector` is the one of the line that `out` tells of; a counter or tag line that is cached is trusted (R237).
DESIGN CHOICE, notes/assumptions/30.md. -/
def mapFill (bank sector : Nat) (out : WmOut) (ctr : Option CtrFail) (s : State) : State :=
  match tget s.xlat.misses bank with
  | none => s
  | some m =>
    if m.wait then s else
    let tells := if m.sectors.testBit sector then sector else ((List.range 8).find? (fun i => m.sectors.testBit i)).getD 0
    let (bad, s1) := ((List.range 8).filter (fun i => m.sectors.testBit i)).foldl (fun (p : Nat × State) k =>
      let (ok, t) := wmDecode (m.line * 8 + k) (if k = tells then out else .clean) p.2
      (if ok then p.1 else p.1 + 2 ^ k, t)) (0, s)
    let (lost, s2) := match ctr with
      | some c => if s1.metaCached (s1.metaOf c.level.val c.index) then (false, s1) else ctrFailed c s1
      | none => (false, s1)
    let s2 := seqAll wmLineRead (sectorLines m.line m.sectors) s2
    if bad = 0 && !lost then foundAll (fillReturn bank m 0 s2)
    else
      let s3 := if lost then s2 else s2.modXlat (fun x => { x with rebuilding := x.rebuilding ++ (sectorLines m.line bad).map (fun k => (k, 1)) })
      let s4 := setErr F.XLAT_ERR_STATUS_MAP_UE intXlat s3
      let s5 := match m.users with
        | k :: _ => event k.ld logFailure 0xA0 k.dpa s4
        | [] => s4
      foundAll (fillReturn bank m (if lost then 255 else bad) s5)

def execMapFillReturn (bank : Fin 64) (sector : Fin 8) (out : WmOut) (ctr : Option CtrFail) (s : State) : Host.Outcome State Fault Refusal :=
  .next (after (mapFill bank.val sector.val out ctr s))

/-! ### Sector rebuild (07_durability.md R192) -/

/-- The LDs whose folios a sector holds, or whose frames. -/
def State.sectorLds (s : State) (sector : Nat) : List Nat :=
  (List.range 16).filter (fun n =>
    let a := s.folioWord n 0
    (decide (a ≤ sector * 8) && decide (sector * 8 < a + s.get (F.XLAT_LD_MAP_LEN n))) ||
      s.xlat.splits.any (fun p => p.1 == n &&
        (let f := s.frameWord (foTable (s.folio n p.2)) 0; decide (f ≤ sector * 8) && decide (sector * 8 < f + 64))))

/-- The sector is lost for good: neither checkpoint gives it. DESIGN CHOICE, notes/assumptions/30.md. -/
def sectorGone (sector : Nat) (s : State) : State :=
  let s1 := (s.modXlat (fun x => { x with lost := x.lost ++ [sector] })) |> setErr F.DUR_ERR_STATUS_SECTOR_LOST intDur
    |> logPut sevError 0x0503 8 0 0 0 |> setScanNext true
  seqAll (fun n t => event n logFailure 0x70 sector t) (s.sectorLds sector) s1

/-- A sector takes its words from the newer checkpoint, or the older one. `bad0`, `bad1`: sectors whose section CRC fails there.
DESIGN CHOICE, notes/assumptions/30.md. -/
def sectorBuild (bad0 bad1 : List Nat) (sector : Nat) (s : State) : State :=
  let cs := s.dur.ckpts
  let newest := cs.foldl (fun (b : Option Ckpt) c => if b.any (fun x => decide (c.pseq ≤ x.pseq)) then b else some c) none
  let older := (cs.filter (fun c => newest.any (fun x => x.pseq != c.pseq))).foldl
    (fun (b : Option Ckpt) c => if b.any (fun x => decide (c.pseq ≤ x.pseq)) then b else some c) none
  let pick := if bad0.contains sector then (if bad1.contains sector then none else older) else newest
  match pick with
  | none => sectorGone sector s
  | some c =>
    let ws := s.sectorWords c sector
    let put (t : Tbl Nat) : Tbl Nat := (List.range 8).foldl (fun t k => tput 0 t (sector * 8 + k) (ws.getD k 0)) t
    (s.modWm (fun w => { w with words := put w.words })).modDur
      (fun d => { d with writing := d.writing.map (fun x => { x with words := put x.words }) })

/-- The oldest rebuild ends. -/
def rebuildSectors (bad0 bad1 : List Nat) (s : State) : State :=
  match s.xlat.rebuilding with
  | [] => s
  | r :: t =>
    settle (seqAll (sectorBuild bad0 bad1) ((List.range r.2).map (· + r.1)) (s.modXlat (fun x => { x with rebuilding := t })))

def execSectorRebuildDone (bad0 bad1 : List Nat) (s : State) : Host.Outcome State Fault Refusal :=
  .next (after (rebuildSectors bad0 bad1 s))

end Sys2Proof.Machine
end

