-- ==== Sys2Proof/Machine/Mailbox.lean ====
section
/-! DEFINITION. The mailboxes (02_host_port.md R24 to R26, R34 to R40; 03_translation.md R48; 12_voxsicel_image.md R302, R304, R305;
18_start_up.md R417). An answer's payload is a list of numbers: its fields in the order the definition gives. -/

namespace Sys2Proof.Machine

/-! ### What is served, and when (R35, R302, R417) -/

/-- The FM API's opcodes; those for the management view only. -/
def fmOps : List Nat := [0x5400, 0x5401, 0x5402, 0x5403]
def mgmtOps : List Nat := [0x0201, 0x0202, 0x0301]

/-- Every opcode of R35. -/
def allOps : List Nat :=
  [0x0001, 0x0002, 0x0003, 0x0100, 0x0101, 0x0102, 0x0103, 0x0200, 0x0201, 0x0202, 0x0300, 0x0301, 0x0400, 0x0401, 0x4000, 0x4100,
   0x4102, 0x4103, 0x4200, 0x4201, 0x4202, 0x4203, 0x4204, 0x4300, 0x4301, 0x4302, 0x4303, 0x4304, 0x4305, 0x4400, 0x4401, 0x4800,
   0x4801, 0x4802, 0x4803] ++ fmOps ++ [0xC000, 0xC001]

/-- Those served in TRAIN, REPLAY, WARM, HALT_POP and HALT_CIPHER, and those served in MAILBOX_WAIT. -/
def startOps : List Nat :=
  [0x0001, 0x0002, 0x0003, 0x0100, 0x0101, 0x0102, 0x0103, 0x0200, 0x0201, 0x0300, 0x0301, 0x0400, 0x0401, 0x4000, 0x4100, 0x4200]
def waitOps : List Nat := [0x0001, 0x0200, 0x0201, 0x0202]

/-- Is the view the management view: the FM-owned LD, or the one LD (00_scope.md R7)? DESIGN CHOICE, notes/assumptions/24.md. -/
def State.isMgmt (s : State) (view : Nat) : Bool := view == mgmtView || (view == 0 && (decide (s.lds = [0]) || decide (s.stage = stageMailbox)))

/-- Is the opcode supported on the view? DESIGN CHOICE, notes/assumptions/24.md. -/
def State.opSupported (s : State) (view op : Nat) : Bool :=
  allOps.contains op && (!fmOps.contains op || view == mgmtView) && (!mgmtOps.contains op || s.isMgmt view)

/-- Is the opcode served at this stage? DESIGN CHOICE, notes/assumptions/24.md. -/
def State.opServed (s : State) (op : Nat) : Bool :=
  if s.stage = stageReady then true
  else if s.stage = stageMailbox then waitOps.contains op
  else startOps.contains op

/-- Does a command reach the mailbox of the view: its port is up and it is there? DESIGN CHOICE, notes/assumptions/24.md. -/
def State.mboxReach (s : State) (view : Nat) : Bool :=
  (s.port (s.ldPort view)).up && (view == mgmtView || s.ldAllocated view || decide (s.stage = stageMailbox))

/-- A command completes. PRESUMED, notes/assumptions/23.md. -/
def reply (q : MboxReq) (rc : Nat) (out : List Nat) (s : State) : State := mboxDone q.view q.opcode rc out s

/-- Number i of the input payload. -/
def MboxReq.arg (q : MboxReq) (i : Nat) : Nat := q.payload.getD i 0

/-- Consecutive pairs, and triples, of a list. -/
def pairsOf : List Nat → List (Nat × Nat)
  | a :: b :: t => (a, b) :: pairsOf t
  | _ => []
def triplesOf : List Nat → List (Nat × Nat × Nat)
  | a :: b :: c :: t => (a, b, c) :: triplesOf t
  | _ => []

/-! ### Events (R40) -/

/-- Overflow, records dropped, records, then kind and argument of each. -/
def mboxGetEvents (q : MboxReq) (s : State) : State :=
  let log := q.arg 0
  if 4 < log then reply q rcInvalidInput [] s
  else
    let l := s.ld q.view
    let recs := tgetD [] l.logs log
    let drops := tgetD 0 l.drops log
    reply q rcOk ([(decide (0 < drops)).toNat, drops, recs.length] ++ recs.flatMap (fun e => [e.kind, e.arg])) s

/-- The oldest `n` records go, or all of them; the overflow is cleared with the last record. PRESUMED, notes/assumptions/23.md. -/
def mboxClearEvents (q : MboxReq) (s : State) : State :=
  let log := q.arg 0
  if 4 < log then reply q rcInvalidInput [] s
  else
    let old := tgetD [] (s.ld q.view).logs log
    let new := if q.arg 1 ≠ 0 then [] else old.drop (q.arg 2)
    if q.arg 1 = 0 ∧ old.length < q.arg 2 then reply q rcHandle [] s
    else
      reply q rcOk [] (modLd q.view (fun l =>
        { l with logs := tput [] l.logs log new, drops := if new = [] then terase l.drops log else l.drops }) s)

/-! ### Firmware (12_voxsicel_image.md R302, R304, R305) -/

/-- Slots, the running slot, the staged slot or 0, and the versions of both images. -/
def mboxFwInfo (q : MboxReq) (s : State) : State :=
  reply q rcOk [2, 1, if s.img.stage.isSome then 2 else 0, ((s.img.run.map (·.ver)).getD 0), ((s.img.stage.map (·.ver)).getD 0)] s

/-- R304; before an image runs the transfer only fills the stage buffer (R302). DESIGN CHOICE, notes/assumptions/26.md. -/
def mboxTransferFw (q : MboxReq) (s : State) : State :=
  if q.arg 0 ≠ 2 then reply q rcSlot [] s
  else if s.img.act.isSome || s.img.reload.any (fun r => r.src == 0) then reply q rcBusy [] s
  else
    match q.image with
    | none => reply q rcInvalidInput [] s
    | some i =>
      if s.stage = stageMailbox then reply q rcOk [] (s.modImg (fun x => { x with stage := some i }))
      else if (s.ld q.view).bg.isSome then reply q rcBusy [] s
      else
        let s1 := modLd q.view (fun l => { l with bg := some ⟨0x0201, 0, 0⟩ }) (reply q rcBackground [] s)
        let (ok, s2) := imageStage i s1
        bgEnd q.view (if ok then rcOk else rcFwInvalid) s2

/-- The slot whose pointer reads STAGED. -/
def State.stagedSlot (s : State) : Option Nat :=
  if s.on F.IMG_STAGE_ID_VALID && s.on F.IMG_STAGE_ID_PERSISTED && decide (s.bootState (s.get F.IMG_STAGE_ID_SLOT) = 1)
  then some (s.get F.IMG_STAGE_ID_SLOT) else [0, 1].find? (fun k => s.bootState k == 1)

/-- Activate FW on the next cold reset. -/
def activateCold (q : MboxReq) (s : State) : State :=
  if q.arg 1 ≠ 2 then reply q rcSlot [] s
  else
    match s.stagedSlot with
    | none => reply q rcSlot [] s
    | some k =>
      let seq := match s.runSlot with
        | some r => s.bootSeq r + 1
        | none => s.nextSeq
      let (ok, s1) := bootWrite k s.minSvn (fun l => putBytes 8 (numBytes 8 seq) (putBytes 3 [2, 0] l)) s
      reply q (if ok then rcOk else rcSecurity) [] s1

/-- Activate FW online with a running image. -/
def activateOnline (q : MboxReq) (s : State) : State :=
  match s.img.stage with
  | none => reply q rcSlot [] s
  | some i =>
    if s.needsCold i then reply q rcColdReset [] s
    else if s.alm.wp then reply q rcSecurity [] s
    else if !s.on F.IMG_CTL_ONLINE_EN || s.img.reload.isSome || s.img.act.isSome then reply q rcBusy [] s
    else
      actGo ((s.modImg (fun x => { x with act := some ⟨s.actUnits i, [], false, q.view⟩ })) |> setF F.IMG_STATUS_ACTIVATING 1
        |> setF F.IMG_RELOAD_STATUS_BUSY 1)

/-- Activate FW online while the loader waits for the mailbox: the image is verified and applied (R302). DEDUCED, notes/assumptions/50.md. -/
def activateWait (q : MboxReq) (s : State) : State :=
  match s.img.stage with
  | none => reply q rcSlot [] s
  | some i =>
    let (code, un) := s.imageCheck i false
    if code ≠ 0 then reply q rcRolledBack [] (imageErr code s)
    else
      let (ms, s0) := takeNat s
      let cfg (t : State) : Nat × Nat := (t.get F.HOST_LINK_CFG_BIFUR, t.get F.HOST_LINK_CFG_SRIS)
      let s1 := reply q rcOk [] (imageApply 7 (ms % 21) un i (s0.modImg (fun x => { x with stage := none })))
      if cfg s1 = cfg s then s1 else linkDown 0 s1

/-- Activate FW: action 0 online, 1 on the next cold reset. -/
def mboxActivateFw (q : MboxReq) (s : State) : State :=
  if q.arg 0 = 1 then (if s.stage = stageMailbox then reply q rcSlot [] s else activateCold q s)
  else if q.arg 1 ≠ 2 then reply q rcSlot [] s
  else if s.stage = stageMailbox then activateWait q s
  else activateOnline q s

/-! ### Labels (R37) -/

def lsaSize : Nat := 131072

def mboxGetLsa (q : MboxReq) (s : State) : State :=
  if lsaSize < q.arg 0 + q.arg 1 then reply q rcInvalidInput [] s
  else reply q rcOk ((List.range (q.arg 1)).map (fun i => tgetD 0 (s.ld q.view).lsa (q.arg 0 + i))) s

/-- LSA records of up to 256 bytes each. -/
def lsaRecords : Nat → Nat → Nat → List Nat → State → State
  | 0, _, _, _, s => s
  | n + 1, ld, off, l, s =>
    if l = [] then s else lsaRecords n ld (off + 256) (l.drop 256) (capture recLsa ld 0 off (l.take 256) s)

/-- Set LSA completes with the commit of its records. -/
def mboxSetLsa (q : MboxReq) (s : State) : State :=
  let off := q.arg 0
  let data := q.payload.drop 1
  if lsaSize < off + data.length then reply q rcInvalidInput [] s
  else
    let s1 := modLd q.view (fun l =>
      { l with lsa := (List.range data.length).foldl (fun t i => tput 0 t (off + i) (data.getD i 0 % 256)) l.lsa }) s
    forceCommit (.mbox q.view q.opcode) (lsaRecords data.length q.view off data s1)

/-! ### Health, alerts, shutdown (R34, R36) -/

/-- Life used, in percent. DESIGN CHOICE, notes/assumptions/54.md. -/
def State.lifeUsed (s : State) : Nat :=
  let four := s.fld.tbl.filter (fun p => !p.2.mode1)
  let n := s.installedFields - (s.fld.tbl.filter (fun p => p.2.mode1)).length
  min 100 (four.foldl (fun a p => a + p.2.ec) 0 * 100 / (n * 5000))

/-- Write-protected, life used, temperature, the dirty-shutdown count. -/
def mboxHealth (q : MboxReq) (s : State) : State :=
  reply q rcOk [(decide (q.view < 16) && s.wpAny q.view).toNat, s.lifeUsed, s.dome.tj, s.odo odoDirty] s

/-- The thresholds, plus 1; 0 where none is set. -/
def mboxGetAlerts (q : MboxReq) (s : State) : State :=
  let n (o : Option Nat) : Nat := (o.map (· + 1)).getD 0
  reply q rcOk [n (s.ld q.view).lifeWarn, n (s.ld q.view).tempWarn] s

/-- An LD's life-used alert (R36): crossing the threshold raises a Warning event. DESIGN CHOICE, notes/assumptions/54.md. -/
def lifeAlert (life n : Nat) (s : State) : State :=
  match (s.ld n).lifeWarn with
  | some w =>
    if w ≤ life ∧ !(s.ld n).lifeHit then event n logWarning 0x52 life (modLd n (fun l => { l with lifeHit := true }) s)
    else if life < w ∧ (s.ld n).lifeHit then modLd n (fun l => { l with lifeHit := false }) s
    else s
  | none => s

/-- Every LD's life-used alert follows the field table. DESIGN CHOICE, notes/assumptions/54.md. -/
def lifeFollow (s : State) : State :=
  let ns := (s.lds ++ [mgmtView]).filter (fun n => (s.ld n).lifeWarn.isSome)
  if ns = [] then s else seqAll (lifeAlert s.lifeUsed) ns s

def mboxSetAlerts (q : MboxReq) (s : State) : State :=
  let o (v : Nat) : Option Nat := if v = 0 then none else some (v - 1)
  let s1 := modLd q.view (fun l => { l with lifeWarn := o (q.arg 0), tempWarn := o (q.arg 1), lifeHit := false, tempHit := false }) s
  reply q rcOk [] (lifeAlert s1.lifeUsed q.view (tempAlert s1.dome.tj q.view s1))

/-- The host's flag, and the count. -/
def mboxGetShutdown (q : MboxReq) (s : State) : State := reply q rcOk [s.hostDirty.toNat, s.odo odoDirty] s

/-- PRESUMED, notes/assumptions/23.md. -/
def mboxSetShutdown (q : MboxReq) (s : State) : State := reply q rcOk [] (setHostDirty (q.arg 0 != 0) s)

/-! ### Poison and Scan Media (R31, R35) -/

/-- The lines of an LD (dpa / 64) that its frames' line masks or the coalescing buffer mark as poisoned. -/
def State.markedLines (s : State) (n : Nat) : List Nat :=
  let inFrame (f e i : Nat) : List Nat :=
    let fe := s.frameOfFolio e i
    let mask := if frState fe = 1 then s.rowMask (frLoc fe)
      else if frState fe = 2 then ((tget s.coal.frames (frLoc fe)).map (·.lmask)).getD 0 else 0
    if mask = 0 then [] else ((List.range 256).filter (fun j => mask.testBit j)).map (fun j => dpaOf f i j / 64)
  (s.liveEntries.filter (fun x => x.1 == n)).flatMap (fun x => (List.range 64).flatMap (inFrame x.2.1 x.2.2)) ++
    (s.coal.lines.filter (fun p => p.2.poison && p.1 / 2 ^ 46 == n)).map (fun p => p.1 % 2 ^ 46)

/-- The list is rebuilt: marked lines that it lacks enter it as far as it has room. -/
def poisonRebuild (n : Nat) (s : State) : State :=
  let have_ := (s.ld n).poison
  let new := (s.markedLines n).filter (fun x => !have_.any (fun e => e.1 == x))
  let all := have_ ++ new.map (fun x => (x, 0))
  modLd n (fun l => { l with poison := all.take 4096, poisonOvf := decide (4096 < all.length) }) s

/-- Overflow, entries, then line address and source of each in the range. -/
def mboxGetPoison (q : MboxReq) (s : State) : State :=
  let l := s.ld q.view
  let es := l.poison.filter (fun e => decide (q.arg 0 ≤ e.1 * 64) && decide (e.1 * 64 < q.arg 0 + q.arg 1))
  reply q rcOk ([l.poisonOvf.toNat, es.length] ++ es.flatMap (fun e => [e.1 * 64, e.2])) s

/-- PRESUMED, notes/assumptions/23.md. -/
def mboxInject (q : MboxReq) (s : State) : State :=
  let st := s.lcs.state
  let dpa := q.arg 0 / 64 * 64
  if st ≠ lcManufacture ∧ st ≠ lcDevelop ∧ st ≠ lcService then reply q rcSecurity [] s
  else if !s.backed q.view dpa then reply q rcAddress [] s
  else reply q rcOk [] (refreshPoisonAny q.view (folioOf dpa) (poisonAdd q.view dpa 1 s))

/-- The line is written with the data given, which removes its entry; where the write cannot be taken only the entry goes.
DESIGN CHOICE, notes/assumptions/26.md. -/
def mboxClearPoison (q : MboxReq) (s : State) : State :=
  let dpa := q.arg 0 / 64 * 64
  if !s.backed q.view dpa then reply q rcAddress [] s
  else
    let r : HReq := ⟨s.ldPort q.view, q.view, 0, dpa, true, fullMask, BitVec.ofNat 512 (q.arg 1), false, false, 0⟩
    let s1 := if (writeRefused r s).isNone && s.canAccept r.ld dpa then acceptLine r.ld dpa fullMask r.data false s
      else refreshPoisonAny q.view (folioOf dpa) (poisonRemove q.view dpa s)
    reply q rcOk [] (poisonRebuild q.view s1)

/-- VERIFY reads the line at DPA `a`: the lines found poisoned grow. -/
def scanLine (n : Nat) (leaves : List RingLeaf) (p : List Nat × State) (a : Nat) : List Nat × State :=
  if p.2.backed n a then
    let look (t : State) : State :=
      cnt bXLAT (folioOf a % 2) 1 (seqAll fillNow ((t.mapWords n a).filter (fun w => !t.sectorBad w)) t)
    let (x, s1) := ringRead n a leaves (a % 256 == 0) (if a % 16384 = 0 then look p.2 else p.2)
    (if x.2.1 then p.1 ++ [a] else p.1, s1)
  else p

/-- The range is verified line by line as VERIFY reads it (10_transit_rings.md R258): the results are the lines that read poisoned; the
list is rebuilt. The payload is the range, then the leaves that did not decode CLEAN at step 0, as three numbers each, the
last twice the corrected bits, one more where the leaf was MISCORRECTED first.
DESIGN CHOICE, notes/assumptions/26.md. -/
def mboxScan (q : MboxReq) (s : State) : State :=
  if (s.ld q.view).bg.isSome then reply q rcBusy [] s
  else
    let leaves := (triplesOf (q.payload.drop 2)).map (fun t => (⟨t.1, t.2.1, t.2.2 / 2, t.2.2 % 2 == 1⟩ : RingLeaf))
    let first := q.arg 0 / 64 * 64
    let lines := (List.range ((q.arg 0 + q.arg 1 + 63 - first) / 64)).map (fun i => first + 64 * i)
    let r := lines.foldl (scanLine q.view leaves) ([], modLd q.view (fun l => { l with bg := some ⟨0x4304, 0, 0⟩ }) (reply q rcBackground [] s))
    bgEnd q.view rcOk (modLd q.view (fun l => { l with scan := r.1 }) (poisonRebuild q.view r.2))

/-- Sanitize and Secure Erase begin (R38). DESIGN CHOICE, notes/assumptions/26.md. -/
def mboxErase (q : MboxReq) (s : State) : State :=
  if (s.ld q.view).bg.isSome then reply q rcBusy [] s
  else
    let s1 := modLd q.view (fun l => { l with bg := some ⟨q.opcode, 0, 0⟩ }) (reply q rcBackground [] s)
    if q.view < 16 then keyAdvance (keyOwn 7 q.view (wpSet q.view wpSanitize s1)) else bgEnd q.view rcOk s1

/-! ### Capacity (R24 to R26; 03_translation.md R48) -/

/-- The user capacity in blocks (06_field_management.md R156). DESIGN CHOICE, notes/assumptions/25.md. -/
def State.userBlocks (s : State) : Nat := (s.dataSets - s.get F.FLD_RESERVE_RESERVE_SETS) * 57330 / 16384

/-- Blocks of extents. -/
def extBlocks (l : List (Nat × Nat)) : Nat := l.foldl (fun a e => a + e.2) 0

/-- The sum of static capacity and added blocks over the LDs. -/
def State.usedBlocks (s : State) : Nat := sumOver 16 (fun n => (s.ld n).capBlocks)

/-- Do two extents meet? -/
def extMeet (a b : Nat × Nat) : Bool := decide (a.1 < b.1 + b.2) && decide (b.1 < a.1 + a.2)

/-- Add extents of a list, each within the region and clear of those before it. -/
def extAdd (region : Nat) : List (Nat × Nat) → List (Nat × Nat) → Option (List (Nat × Nat))
  | [], acc => some acc
  | e :: t, acc => if 0 < e.2 ∧ e.1 + e.2 ≤ region ∧ !acc.any (extMeet e) then extAdd region t (acc ++ [e]) else none

/-- Take an extent out of the extent that holds it. -/
def extCut (e : Nat × Nat) : List (Nat × Nat) → Option (List (Nat × Nat))
  | [] => none
  | x :: t =>
    if x.1 ≤ e.1 ∧ e.1 + e.2 ≤ x.1 + x.2 then
      some ((if x.1 < e.1 then [(x.1, e.1 - x.1)] else []) ++ (if e.1 + e.2 < x.1 + x.2 then [(e.1 + e.2, x.1 + x.2 - (e.1 + e.2))] else []) ++ t)
    else (extCut e t).map (x :: ·)

def extSub : List (Nat × Nat) → List (Nat × Nat) → Option (List (Nat × Nat))
  | [], acc => some acc
  | e :: t, acc => if e.2 = 0 then none else match extCut e acc with
    | some a => extSub t a
    | none => none

/-- A Dynamic Capacity event (R40), with CXL's number of what happened: 3 the region's configuration changed, 4 capacity was added,
5 capacity was released. PRESUMED, notes/assumptions/11.md. -/
def dcEvent (n kind : Nat) (s : State) : State := event n logDynCap 0x90 kind s

/-- Add DC Response: the extents are backed from now on. DESIGN CHOICE, notes/assumptions/25.md. -/
def mboxDcAdd (q : MboxReq) (s : State) : State :=
  let l := s.ld q.view
  let es := pairsOf q.payload
  match extAdd l.dcRegion es l.extents with
  | some acc =>
    if s.userBlocks < s.usedBlocks + extBlocks es then reply q rcInvalidInput [] s
    else reply q rcOk [] (modLd q.view (fun x => { x with extents := acc }) s |> ldCfg q.view |> ldStatus q.view |> dcEvent q.view 4)
  | none => reply q rcInvalidInput [] s

/-- Is a DPA in the blocks of extents of the LD's dynamic-capacity region? -/
def State.inExtents (s : State) (n : Nat) (es : List (Nat × Nat)) (dpa : Nat) : Bool :=
  es.any (fun e => extMeet e (dpa / 2 ^ 28 - (s.ld n).blocks, 1)) && decide ((s.ld n).blocks ≤ dpa / 2 ^ 28)

/-- Release Dynamic Capacity completes: the folios of the blocks are unmapped. -/
def dcRelease (q : MboxReq) (s : State) : State :=
  let n := q.view
  let es := pairsOf q.payload
  match extSub es (s.ld n).extents with
  | some acc =>
    let gone := (s.ldFolios n).filter (fun f => s.inExtents n es (f * 2 ^ 20))
    let s1 := seqAll (fun e t => capture recDiscard n 0 (((s.ld n).blocks + e.1) * 256) [e.2 * 256] t) es s
    let s2 := seqAll (fun f t => discardFolio n f t) gone s1
    reply q rcOk [] (settle (modLd n (fun x => { x with extents := acc }) s2 |> ldCfg n |> ldStatus n |> dcEvent n 5))
  | none => reply q rcInvalidInput [] s

/-- May a release complete: every request to its blocks that was accepted before has been served (R26)? -/
def State.releaseMay (s : State) (q : MboxReq) : Bool :=
  !(s.inFlight ++ s.host.parked ++ s.host.ingress).any (fun r => r.ld == q.view && s.inExtents q.view (pairsOf q.payload) r.dpa)

/-- Releases complete in their order. -/
def releaseGoN : Nat → State → State
  | 0, s => s
  | n + 1, s =>
    match s.host.releases with
    | [] => s
    | q :: t => if s.releaseMay q then releaseGoN n (dcRelease q (s.modHost (fun h => { h with releases := t }))) else s
/-- DESIGN CHOICE, notes/assumptions/25.md. -/
def releaseGo (s : State) : State := releaseGoN s.host.releases.length s

/-- DESIGN CHOICE, notes/assumptions/25.md. -/
def mboxDcRelease (q : MboxReq) (s : State) : State :=
  if (extSub (pairsOf q.payload) (s.ld q.view).extents).isNone then reply q rcInvalidInput [] s
  else releaseGo (s.modHost (fun h => { h with releases := h.releases ++ [q] }))

/-- The static and dynamic capacity an allocation gives LD n. -/
def State.allocOf (s : State) (l : List (Nat × Nat × Nat)) (n : Nat) : Nat × Nat :=
  match l.find? (fun a => a.1 == n) with
  | some a => a.2
  | none => ((s.ld n).blocks, (s.ld n).dcRegion)

/-- The start of LD n's array under an allocation, in 4 KiB units. -/
def State.allocOff (s : State) (l : List (Nat × Nat × Nat)) (n : Nat) : Nat :=
  sumOver n (fun k => arrayUnits ((s.allocOf l k).1 + (s.allocOf l k).2))

/-- The LDs whose arrays move. -/
def State.allocMoves (s : State) (l : List (Nat × Nat × Nat)) : List Nat :=
  s.lds.filter (fun n => decide (0 < (s.allocOf l n).1 + (s.allocOf l n).2) && s.allocOff l n != s.get (F.XLAT_LD_MAP_OFF n))

/-- The extents of LD n under an allocation. DESIGN CHOICE, notes/assumptions/25.md. -/
def State.allocExt (s : State) (l : List (Nat × Nat × Nat)) (n : Nat) : List (Nat × Nat) :=
  extRebase (s.ld n).blocks (s.allocOf l n).1 (s.allocOf l n).2 (s.ld n).extents

/-- The allocation takes effect; an LD whose dynamic-capacity region changes has an event. DESIGN CHOICE, notes/assumptions/25.md. -/
def allocApply (l : List (Nat × Nat × Nat)) (s : State) : State :=
  let ch (t : State) : State := seqAll (fun n u => modLd n (fun x =>
    { x with blocks := (s.allocOf l n).1, dcRegion := (s.allocOf l n).2, extents := s.allocExt l n }) u) (List.range 16) t
  let s1 := if s.allocMoves l = [] then layArrays (ch s) else moveArrays ch s
  let dc := (List.range 16).filter (fun n => (s.allocOf l n).2 != (s.ld n).dcRegion)
  settle (seqAll (fun n t => dcEvent n 3 t) dc (ldStatusAll (seqAll ldCfg (l.map (fun a => a.1 % 16)) s1)))

/-- The 4 KiB units that folio arrays may take: 7.2 GiB. DESIGN CHOICE, notes/assumptions/25.md. -/
def arrayLimit : Nat := 1887436

/-- Is a folio mapped in a block of LD n that an allocation removes (R24)? A block of an extent that the new region no longer holds is
removed too. DESIGN CHOICE, notes/assumptions/25.md. -/
def State.allocBusy (s : State) (l : List (Nat × Nat × Nat)) (n : Nat) : Bool :=
  let x := s.ld n
  let new := { x with blocks := (s.allocOf l n).1, dcRegion := (s.allocOf l n).2, extents := s.allocExt l n }
  (s.liveEntries.filter (fun e => e.1 == n && (foType e.2.2 == 1 || foType e.2.2 == 2))).any (fun e =>
    x.backedBlock (e.2.1 / 256) && !new.backedBlock (e.2.1 / 256))

/-- Set LD Allocations: LD, static blocks and blocks of the dynamic-capacity region of each. DESIGN CHOICE, notes/assumptions/25.md. -/
def mboxSetAlloc (q : MboxReq) (s : State) : State :=
  let l := triplesOf q.payload
  let total := sumOver 16 (fun n => (s.allocOf l n).1 + extBlocks (s.allocExt l n))
  if l.any (fun a => decide (16 ≤ a.1)) || decide (s.userBlocks < total) || decide (arrayLimit < s.allocOff l 16) then
    reply q rcInvalidInput [] s
  else if s.host.moveTo != [] || (List.range 16).any (s.allocBusy l) then reply q rcBusy [] s
  else if s.allocMoves l = [] then reply q rcOk [] (allocApply l s)
  else s.modHost (fun h => { h with moving := s.allocMoves l, moveTo := l, movingCmd := true })

/-- R48: the move of the arrays ends; lookups that had begun have ended before it. -/
def arrayMoveDone (s : State) : State :=
  if s.host.moveTo = [] || s.xlat.misses != [] || s.xlat.stalled != [] then s
  else
    let s1 := s.modHost (fun h => { h with moving := [], moveTo := [], movingCmd := false })
    let s2 := allocApply s.host.moveTo s1
    if s.host.movingCmd then mboxDone mgmtView 0x5402 rcOk [] s2 else s2

/-! ### The commands -/

/-- Run a command. DESIGN CHOICE, notes/assumptions/24.md. -/
def mboxRun (q : MboxReq) (s : State) : State :=
  let const (n : Nat) : List Nat := (List.range n).map (fun i => Config.deviceConst (q.opcode * 256 + i))
  let l := s.ld q.view
  match q.opcode with
  | 0x0001 => reply q rcOk (const 6) s
  | 0x0002 =>
    reply q rcOk (match l.bg, l.lastBg with
      | some b, _ => [1, b.pct, b.opcode, 0]
      | none, some b => [0, b.pct, b.opcode, b.rc]
      | none, none => [0, 0, 0, 0]) s
  | 0x0003 => reply q rcOk (const 1) s
  | 0x0100 => mboxGetEvents q s
  | 0x0101 => mboxClearEvents q s
  | 0x0102 => reply q rcOk [l.irqPolicy] s
  | 0x0103 => reply q rcOk [] (modLd q.view (fun x => { x with irqPolicy := q.arg 0 % 2 ^ 40 }) s)
  | 0x0200 => mboxFwInfo q s
  | 0x0201 => mboxTransferFw q s
  | 0x0202 => mboxActivateFw q s
  | 0x0300 => reply q rcOk [s.clk.tod] s
  | 0x0301 => reply q rcOk [] (todStep (q.arg 0) 2 s)
  | 0x0400 => reply q rcOk ([2, 4 * (allOps.filter (s.opSupported q.view)).length] ++ const 1) s
  | 0x0401 =>
    if q.arg 0 = 0 then reply q rcOk (allOps.filter (s.opSupported q.view)) s
    else if q.arg 0 = 1 then
      let (v, s1) := takeNat s
      reply q rcOk [v] s1
    else reply q rcInvalidInput [] s
  | 0x4000 => reply q rcOk [l.capBlocks, 0, l.capBlocks, 0, 64, 64, 64, 64, 64, lsaSize, 4096] s
  | 0x4100 => reply q rcOk [0, l.capBlocks, 0, 0] s
  | 0x4102 => mboxGetLsa q s
  | 0x4103 => mboxSetLsa q s
  | 0x4200 => mboxHealth q s
  | 0x4201 => mboxGetAlerts q s
  | 0x4202 => mboxSetAlerts q s
  | 0x4203 => mboxGetShutdown q s
  | 0x4204 => mboxSetShutdown q s
  | 0x4300 => mboxGetPoison q s
  | 0x4301 => mboxInject q s
  | 0x4302 => mboxClearPoison q s
  | 0x4303 => reply q rcOk (const 1) s
  | 0x4304 => mboxScan q s
  | 0x4305 => reply q rcOk (l.scan.length :: l.scan) s
  | 0x4400 => mboxErase q s
  | 0x4401 => mboxErase q s
  | 0x4800 => reply q rcOk [1, l.blocks * 2 ^ 28, l.dcRegion * 2 ^ 28, 2 ^ 28] s
  | 0x4801 => reply q rcOk (l.extents.length :: l.extents.flatMap (fun e => [(l.blocks + e.1) * 2 ^ 28, e.2 * 2 ^ 28])) s
  | 0x4802 => mboxDcAdd q s
  | 0x4803 => mboxDcRelease q s
  | 0x5400 => reply q rcOk ([s.userBlocks, 16] ++ const 2) s
  | 0x5401 => reply q rcOk ((List.range 16).flatMap (fun n => [(s.ld n).blocks, (s.ld n).dcRegion])) s
  | 0x5402 => mboxSetAlloc q s
  | 0x5403 => reply q rcOk (const 4) s
  | 0xC000 =>
    reply q rcOk ([s.dome.prsnt, s.img.chans] ++ (List.range 32).map (fun c =>
      (List.range 8).foldl (fun a d => a + s.get (F.MCH_DIE_STATUS_PRESENT c d) * 2 ^ d) 0)) s
  | 0xC001 => reply q rcOk (s.fieldsFree :: [fOpen, fClosed, fVerified, fRetired, fBad].map s.fieldsIn) s
  | _ => reply q rcUnsupported [] s

/-- A command arrives at a mailbox. While the device is PARKED it waits until the link leaves L1; a Sanitize, Secure Erase or Scan Media
completes with Busy (R39). -/
def mbox (q : MboxReq) (s : State) : State :=
  if !s.mboxReach q.view then s
  else if !s.opSupported q.view q.opcode then reply q rcUnsupported [] s
  else if !s.opServed q.opcode then reply q rcBusy [] s
  else if s.glb.mode = .parked then
    if q.opcode = 0x4400 ∨ q.opcode = 0x4401 ∨ q.opcode = 0x4304 then reply q rcBusy [] s
    else if (s.port (s.ldPort q.view)).l1 then modPort (s.ldPort q.view) (fun p => { p with mboxQ := p.mboxQ ++ [q] }) s
    else mboxRun q s
  else mboxRun q s

/-- R39: the link leaves L1. -/
def l1Exit (port : Nat) (s : State) : State :=
  let qs := (s.port port).mboxQ
  seqAll mboxRun qs (modPort port (fun p => { p with l1 := false, mboxQ := [] }) s)

def execAspmL1Exit (port : Fin 2) (s : State) : Host.Outcome State Fault Refusal := .next (after (l1Exit port.val s))

/-- A mailbox command with numbers as its input payload. -/
def mboxDo (view : Fin 17) (opcode : Nat) (payload : List Nat) (s : State) : Host.Outcome State Fault Refusal :=
  .next (after (mbox ⟨view.val, opcode, payload, none⟩ s))

/-- The opcode of the operand completes with Unsupported where it is not supported on the view. -/
def execMailboxUnsupported (view : Fin 17) (opcode : BitVec 16) (s : State) : Host.Outcome State Fault Refusal :=
  .next (if s.mboxReach view.val && !s.opSupported view.val opcode.toNat then reply ⟨view.val, opcode.toNat, [], none⟩ rcUnsupported [] s else s)

def execIdentify (view : Fin 17) (s : State) : Host.Outcome State Fault Refusal := mboxDo view 0x0001 [] s
def execBackgroundOperationStatus (view : Fin 17) (s : State) : Host.Outcome State Fault Refusal := mboxDo view 0x0002 [] s
def execGetResponseMessageLimit (view : Fin 17) (s : State) : Host.Outcome State Fault Refusal := mboxDo view 0x0003 [] s
def execGetEventRecords (view : Fin 17) (log : BitVec 8) (s : State) : Host.Outcome State Fault Refusal :=
  mboxDo view 0x0100 [log.toNat] s
def execClearEventRecords (view : Fin 17) (log : BitVec 8) (all : Bool) (n : BitVec 8) (s : State) : Host.Outcome State Fault Refusal :=
  mboxDo view 0x0101 [log.toNat, all.toNat, n.toNat] s
def execGetEventInterruptPolicy (view : Fin 17) (s : State) : Host.Outcome State Fault Refusal := mboxDo view 0x0102 [] s
def execSetEventInterruptPolicy (view : Fin 17) (policy : BitVec 40) (s : State) : Host.Outcome State Fault Refusal :=
  mboxDo view 0x0103 [policy.toNat] s
def execGetFwInfo (view : Fin 17) (s : State) : Host.Outcome State Fault Refusal := mboxDo view 0x0200 [] s
def execTransferFw (view : Fin 17) (slot : BitVec 8) (image : Image) (s : State) : Host.Outcome State Fault Refusal :=
  .next (after (mbox ⟨view.val, 0x0201, [slot.toNat], some image⟩ s))
def execActivateFwNextReset (view : Fin 17) (slot : BitVec 8) (s : State) : Host.Outcome State Fault Refusal :=
  mboxDo view 0x0202 [1, slot.toNat] s
def execActivateFwOnline (view : Fin 17) (slot : BitVec 8) (s : State) : Host.Outcome State Fault Refusal :=
  .next (domeAfter (mbox ⟨view.val, 0x0202, [0, slot.toNat], none⟩ s))
def execGetTimestamp (view : Fin 17) (s : State) : Host.Outcome State Fault Refusal := mboxDo view 0x0300 [] s
def execSetTimestamp (view : Fin 17) (t : BitVec 64) (s : State) : Host.Outcome State Fault Refusal := mboxDo view 0x0301 [t.toNat] s
def execGetSupportedLogs (view : Fin 17) (s : State) : Host.Outcome State Fault Refusal := mboxDo view 0x0400 [] s
def execGetLog (view : Fin 17) (log : BitVec 8) (s : State) : Host.Outcome State Fault Refusal := mboxDo view 0x0401 [log.toNat] s
def execIdentifyMemoryDevice (view : Fin 17) (s : State) : Host.Outcome State Fault Refusal := mboxDo view 0x4000 [] s
def execGetPartitionInfo (view : Fin 17) (s : State) : Host.Outcome State Fault Refusal := mboxDo view 0x4100 [] s
def execGetLsa (view : Fin 17) (off len : BitVec 32) (s : State) : Host.Outcome State Fault Refusal :=
  mboxDo view 0x4102 [off.toNat, len.toNat] s
def execSetLsa (view : Fin 17) (off : BitVec 32) (data : List Byte) (s : State) : Host.Outcome State Fault Refusal :=
  mboxDo view 0x4103 (off.toNat :: data.map (·.toNat)) s
def execGetHealthInfo (view : Fin 17) (s : State) : Host.Outcome State Fault Refusal := mboxDo view 0x4200 [] s
def execGetAlertConfiguration (view : Fin 17) (s : State) : Host.Outcome State Fault Refusal := mboxDo view 0x4201 [] s
def execSetAlertConfiguration (view : Fin 17) (life temp : Option (BitVec 16)) (s : State) : Host.Outcome State Fault Refusal :=
  mboxDo view 0x4202 [(life.map (·.toNat + 1)).getD 0, (temp.map (·.toNat + 1)).getD 0] s
def execGetShutdownState (view : Fin 17) (s : State) : Host.Outcome State Fault Refusal := mboxDo view 0x4203 [] s
def execSetShutdownState (view : Fin 17) (dirty : Bool) (s : State) : Host.Outcome State Fault Refusal := mboxDo view 0x4204 [dirty.toNat] s
def execGetPoisonList (view : Fin 17) (dpa len : BitVec 64) (s : State) : Host.Outcome State Fault Refusal :=
  mboxDo view 0x4300 [dpa.toNat, len.toNat] s
def execInjectPoison (view : Fin 17) (dpa : BitVec 64) (s : State) : Host.Outcome State Fault Refusal := mboxDo view 0x4301 [dpa.toNat] s
def execClearPoison (view : Fin 17) (dpa : BitVec 64) (data : Line) (s : State) : Host.Outcome State Fault Refusal :=
  mboxDo view 0x4302 [dpa.toNat, data.toNat] s
def execGetScanMediaCapabilities (view : Fin 17) (dpa len : BitVec 64) (s : State) : Host.Outcome State Fault Refusal :=
  mboxDo view 0x4303 [dpa.toNat, len.toNat] s
def execScanMedia (view : Fin 17) (dpa len : BitVec 64) (leaves : List RingLeaf) (s : State) : Host.Outcome State Fault Refusal :=
  mboxDo view 0x4304 ([dpa.toNat, len.toNat] ++ leaves.flatMap (fun r => [r.dpa, r.step, 2 * r.bits + r.mis.toNat])) s
def execGetScanMediaResults (view : Fin 17) (s : State) : Host.Outcome State Fault Refusal := mboxDo view 0x4305 [] s
def execSanitize (view : Fin 17) (s : State) : Host.Outcome State Fault Refusal := mboxDo view 0x4400 [] s
def execSecureErase (view : Fin 17) (s : State) : Host.Outcome State Fault Refusal := mboxDo view 0x4401 [] s
def execGetDynamicCapacityConfiguration (view : Fin 17) (s : State) : Host.Outcome State Fault Refusal := mboxDo view 0x4800 [] s
def execGetDynamicCapacityExtentList (view : Fin 17) (s : State) : Host.Outcome State Fault Refusal := mboxDo view 0x4801 [] s
def execAddDynamicCapacityResponse (view : Fin 17) (extents : List (Nat × Nat)) (s : State) : Host.Outcome State Fault Refusal :=
  mboxDo view 0x4802 (extents.flatMap (fun e => [e.1, e.2])) s
def execReleaseDynamicCapacity (view : Fin 17) (extents : List (Nat × Nat)) (s : State) : Host.Outcome State Fault Refusal :=
  mboxDo view 0x4803 (extents.flatMap (fun e => [e.1, e.2])) s
def execGetLdInfo (view : Fin 17) (s : State) : Host.Outcome State Fault Refusal := mboxDo view 0x5400 [] s
def execGetLdAllocations (view : Fin 17) (s : State) : Host.Outcome State Fault Refusal := mboxDo view 0x5401 [] s
def execSetLdAllocations (view : Fin 17) (alloc : List (Fin 16 × Nat × Nat)) (s : State) : Host.Outcome State Fault Refusal :=
  mboxDo view 0x5402 (alloc.flatMap (fun a => [a.1.val, a.2.1, a.2.2])) s
def execArrayMoveDone (s : State) : Host.Outcome State Fault Refusal := .next (after (arrayMoveDone s))
def execGetQosControl (view : Fin 17) (s : State) : Host.Outcome State Fault Refusal := mboxDo view 0x5403 [] s
def execIvhildGetPlateMap (view : Fin 17) (s : State) : Host.Outcome State Fault Refusal := mboxDo view 0xC000 [] s
def execIvhildGetFieldSummary (view : Fin 17) (s : State) : Host.Outcome State Fault Refusal := mboxDo view 0xC001 [] s

end Sys2Proof.Machine
end

