-- ==== Sys2Proof/Machine/Shelf.lean ====
section
/-! DEFINITION. The shelf bus (15_shelf_bus.md R353 to R364). -/

namespace Sys2Proof.Machine

/-! ### Frames (R355, R357) -/

/-- The bytes of `v`, `n` of them, most significant first. -/
def beBytes (n v : Nat) : List Nat := digestBytes n v

/-- Bytes `i` to `i + n - 1` as a little-endian number. -/
def leAt (b : List Nat) (i n : Nat) : Nat := leNum ((b.drop i).take n)

def etherShelf : List Nat := [0x88, 0xB5]
def etherPtp : List Nat := [0x88, 0xF7]
def macGroup : Nat := 0x0BF072400000
def macPtp : Nat := 0x0180C200000E

/-- The frame up to its tag: destination, source, EtherType, payload (R357). -/
def ShelfFrame.head (f : ShelfFrame) : List Nat :=
  beBytes 6 f.dst.toNat ++ beBytes 6 f.src.toNat ++ etherShelf ++ [f.ver.toNat, f.typ.toNat] ++ numBytes 2 f.opcode.toNat ++
    numBytes 2 f.len.toNat ++ [f.flags.toNat, f.target.toNat] ++ numBytes 8 f.nonce.toNat ++ numBytes 2 f.xid.toNat ++
    numBytes 2 f.status.toNat ++ f.body.map (·.toNat)

/-- The MAC pads a frame to 64 B with its FCS (R363). -/
def padFrame (b : List Nat) : List Nat := b ++ List.replicate (60 - b.length) 0

/-- The frame without its FCS. PRESUMED, notes/assumptions/56.md. -/
def ShelfFrame.bytes (f : ShelfFrame) : List Nat :=
  padFrame (f.head ++ if f.flags.getLsbD 0 then beBytes 16 f.tag.toNat else [])

/-- The frame that bytes spell; the body is shorter than LENGTH where the frame is. -/
def ShelfFrame.ofBytes (b : List Nat) : ShelfFrame where
  dst := BitVec.ofNat _ (beNum (b.take 6))
  src := BitVec.ofNat _ (beNum ((b.drop 6).take 6))
  ver := BitVec.ofNat _ (leAt b 14 1)
  typ := BitVec.ofNat _ (leAt b 15 1)
  opcode := BitVec.ofNat _ (leAt b 16 2)
  len := BitVec.ofNat _ (leAt b 18 2)
  flags := BitVec.ofNat _ (leAt b 20 1)
  target := BitVec.ofNat _ (leAt b 21 1)
  nonce := BitVec.ofNat _ (leAt b 22 8)
  xid := BitVec.ofNat _ (leAt b 30 2)
  status := BitVec.ofNat _ (leAt b 32 2)
  body := ((b.drop 34).take (leAt b 18 2)).map (BitVec.ofNat 8)
  tag := BitVec.ofNat _ (beNum ((b.drop (34 + leAt b 18 2)).take 16))

/-- HMAC-SHA-256. DESIGN CHOICE, notes/assumptions/10.md. -/
def hmac256 (key msg : List Nat) : List Nat :=
  let k := key ++ List.replicate (64 - key.length) 0
  digestBytes 32 (sha256 (k.map (· ^^^ 0x5C) ++ digestBytes 32 (sha256 (k.map (· ^^^ 0x36) ++ msg))))

/-- The tag of a frame under the shelf key (R359). PRESUMED, notes/assumptions/56.md. -/
def shelfTag (key : BitVec 256) (f : ShelfFrame) : Nat := beNum ((hmac256 (numBytes 32 key.toNat) f.head).take 16)

/-! ### Sending (R363) -/

/-- The free transmit banks. -/
def SbusSt.txFree (b : SbusSt) : List Nat := [0, 1].filter (fun k => !b.tx.any (fun f => f.bank == k))

/-- Frames of the device enter the banks as these come free. -/
def SbusSt.txFill (b : SbusSt) : SbusSt :=
  let n := min b.txFree.length b.txq.length
  { b with
    tx := b.tx ++ (b.txFree.zip b.txq).map (fun p => ⟨p.1, p.2, true, false, 0⟩)
    txq := b.txq.drop n }

/-- The device sends a frame. -/
def frameSend (f : List Nat) (s : State) : State := s.modSbus (fun b => { b with txq := b.txq ++ [f] }.txFill)

/-- A response to a command; fields that only authenticated frames use hold what they hold. -/
def shelfAnswer (f : ShelfFrame) (own st : Nat) (body : List Nat) (s : State) : State :=
  let (n, s1) := takeNat s
  let r : ShelfFrame :=
    { f with
      dst := f.src
      src := BitVec.ofNat _ (s.get F.SBUS_MAC_ADDR)
      ver := 1
      typ := 2
      len := BitVec.ofNat _ body.length
      flags := 0
      target := BitVec.ofNat _ own
      nonce := BitVec.ofNat _ n
      status := BitVec.ofNat _ st
      body := body.map (BitVec.ofNat 8)
      tag := 0 }
  frameSend r.bytes s1

/-! ### What is shown of plates and sensors (R371; 13_dome_power.md R335) -/

/-- SBUS_PLTp_STATE. -/
def State.pltState (s : State) (p : Nat) : Nat :=
  s.mgmt p * 2 ^ 29 + s.dataView p * 2 ^ 27 + s.get (F.SBUS_PLT_STATE_DISAGREE p) * 2 ^ 26 + s.get (F.SBUS_PLT_STATE_HOLD p) * 2 ^ 20 +
    s.get (F.SBUS_PLT_STATE_CAUSE p) * 2 ^ 16 + s.get (F.SBUS_PLT_STATE_TEMP p) * 2 ^ 8 + min 255 (s.plateWork p)

/-- DOME_ADCn: VALID and MV. -/
def State.adcWord (s : State) (n : Nat) : Nat :=
  match tget s.dome.adc n with
  | some v => 2 ^ 31 + (v - 1) % 2 ^ 16
  | none => 0

/-- CURRENT, which reads 0 while the device starts (01_the_shelf_controller.md R15). -/
def State.modeByte (s : State) : Nat := if s.glb.mode = .starting then 0 else s.glb.mode.code

/-- PRESUMED, notes/assumptions/56.md. -/
def statusBody (s : State) : List Nat :=
  s.modeByte :: ((List.range 16).flatMap (fun p => numBytes 4 (s.pltState p)) ++ [s.get F.FLD_STATUS_LEVEL, s.dome.tj % 256])
/-- PRESUMED, notes/assumptions/56.md. -/
def sensorsBody (s : State) : List Nat :=
  (List.range 16).flatMap (fun n => numBytes 4 (s.adcWord n)) ++ (List.range 4).flatMap (fun f => numBytes 2 (s.fan f).rpm) ++
    (List.range 16).map (fun p => s.get (F.SBUS_PLT_STATE_TEMP p))

/-! ### Authentication, nonces, quarantine (R356, R359) -/

/-- Statuses of a response (R360). -/
def rsOk : Nat := 0
def rsAuthFail : Nat := 1
def rsReplay : Nat := 2
def rsBadOpcode : Nat := 3
def rsBadLength : Nat := 4
def rsBadState : Nat := 5
def rsLinkActive : Nat := 6
def rsBadTarget : Nat := 7
def rsBadPlate : Nat := 8

/-- Is the NONCE above the last one of its source, or above the floor for a source that the table does not hold? -/
def SbusSt.nonceOk (b : SbusSt) (src n : Nat) : Bool :=
  match b.nonces.find? (fun e => e.1 == src) with
  | some e => decide (e.2 < n)
  | none => decide (b.floor < n)

/-- Accept a NONCE: its source is the most recently used; an entry that leaves the table raises the floor to its NONCE. -/
def SbusSt.nonceTake (b : SbusSt) (src n : Nat) : SbusSt :=
  let l := (src, n) :: b.nonces.filter (fun e => e.1 != src)
  { b with nonces := l.take 32, floor := (l.drop 32).foldl (fun a e => max a e.2) b.floor }

/-- 1 s in ns. -/
def oneSec : Nat := 1000000000

/-- An authentication or replay failure; the eighth of a source within 1 s puts it in quarantine. DEDUCED, notes/assumptions/57.md. -/
def authFailed (src : Nat) (s : State) : State :=
  let l := s.sbus.fails.filter (fun e => decide (s.now < e.2 + oneSec)) ++ [(src, s.now)]
  if (l.filter (fun e => e.1 == src)).length < 8 then s.modSbus (fun b => { b with fails := l })
  else
    logOpen bSBUS (src % 2 ^ 32) (src / 2 ^ 32)
      (s.modSbus (fun b =>
        { b with fails := l.filter (fun e => e.1 != src), quar := ((src, s.now) :: b.quar.filter (fun e => e.1 != src)).take 16 }))

/-- A source in quarantine; its frame makes its entry the most recently used. -/
def SbusSt.quarUse (b : SbusSt) (src : Nat) : Option SbusSt :=
  match b.quar.find? (fun e => e.1 == src) with
  | some e => some { b with quar := e :: b.quar.filter (fun x => x.1 != src) }
  | none => none

/-- The source of a shelf-protocol frame enters the seen table; a stranger is reported, by a record at most once per second.
DEDUCED, notes/assumptions/57.md. -/
def sourceSeen (src : Nat) (s : State) : State :=
  let known := s.sbus.seen.contains src
  let s1 := s.modSbus (fun b => { b with seen := (src :: b.seen.filter (· != src)).take 64 })
  if known then s1
  else
    let s2 := setErr F.SBUS_ERR_STATUS_STRANGER intSbus s1
    if s.sbus.strangerSec = 0 ∨ s.sbus.strangerSec + oneSec ≤ s.now + 1 then
      logPut sevNotice 0x1201 (src % 2 ^ 32) (src / 2 ^ 32) 0 0 (s2.modSbus (fun b => { b with strangerSec := s.now + 1 }))
    else s2

/-- Why a command that needs authentication fails, if it does: its status, and the state with the failure counted.
DEDUCED, notes/assumptions/57.md. -/
def authCheck (f : ShelfFrame) (s : State) : Option (Nat × State) :=
  let src := f.src.toNat
  let fail (t : State) : Option (Nat × State) := some (rsAuthFail, authFailed src t)
  match s.sbus.key with
  | none => fail s
  | some k =>
    if !f.flags.getLsbD 0 then fail s
    else if shelfTag k f ≠ f.tag.toNat then
      fail (s |> incF F.SBUS_AUTH_CNT_TAG 1 |> cnt bSBUS 2 1 |> setErr F.SBUS_ERR_STATUS_AUTH_FAIL intSbus)
    else if !s.sbus.nonceOk src f.nonce.toNat then
      some (rsReplay, authFailed src (s |> incF F.SBUS_AUTH_CNT_REPLAY 1 |> cnt bSBUS 3 1 |> setErr F.SBUS_ERR_STATUS_REPLAY intSbus))
    else none

/-! ### Commands (R358) -/

def opPing : Nat := 0x0001
def opStatus : Nat := 0x0002
def opSensors : Nat := 0x0003
def opMode : Nat := 0x0010
def opWake : Nat := 0x0011
def opRestart : Nat := 0x0012
def opPlate : Nat := 0x0020
def opSubscribe : Nat := 0x0030

/-- The body of each command in bytes. -/
def shelfLen (op : Nat) : Option Nat :=
  if op = opPing ∨ op = opStatus ∨ op = opSensors ∨ op = opWake ∨ op = opRestart then some 0
  else if op = opMode then some 1
  else if op = opPlate ∨ op = opSubscribe then some 2
  else none

/-- Does the command need authentication? DEDUCED, notes/assumptions/57.md. -/
def shelfAuth (op : Nat) : Bool := !(op == opPing || op == opStatus || op == opSensors)

/-- The link of a port is in L0 (R14). -/
def State.linkL0 (s : State) : Bool := [0, 1].any (fun p => (s.port p).up && !(s.port p).l1)

/-- MODE: its status and its effect (01_the_shelf_controller.md R14). -/
def shelfModeRun (t : Nat) (force : Bool) (s : State) : Nat × State :=
  if !s.assistRuns || s.lcs.trans.isSome || decide (3 < t) then (rsBadState, s)
  else if t = tStandby ∧ s.linkL0 ∧ !force then (rsLinkActive, s)
  else if t = tStandby ∧ s.awaitsPme then (rsOk, s)
  else (rsOk, pendGo (modeTarget t 2 (s.modGlb (fun g => { g with force := force && decide (t = tStandby) }))))

/-- PLATE: its status and its effect (R368). -/
def shelfPlateRun (p a : Nat) (s : State) : Nat × State :=
  if 15 < p ∨ !s.img.plates.testBit p then (rsBadPlate, s)
  else if !s.assistRuns || s.lcs.trans.isSome || decide (a < 1) || decide (3 < a) || !s.reqOk ⟨p, a, 1⟩ then (rsBadState, s)
  else (rsOk, plateReq ⟨p, a, 1⟩ s)

/-- RESTART in FAULT-HALT: PERST# governs the start (01_the_shelf_controller.md R12). -/
def shelfRestartRun (s : State) : State :=
  let s1 := s.modStart (fun x => { x with source := srcRestart })
  if s.glb.perst then seqOn devSeq s1 else s1

/-- What an accepted command does: the status and body of its response, and the state after it. -/
def shelfRun (f : ShelfFrame) (own : Nat) (s : State) : Nat × List Nat × State :=
  let op := f.opcode.toNat
  let arg (i : Nat) : Nat := ((f.body[i]?).map (·.toNat)).getD 0
  let noBody (r : Nat × State) : Nat × List Nat × State := (r.1, [], r.2)
  if op = opPing then (rsOk, [0x40, 0x72, own, s.modeByte], s)
  else if op = opStatus then if s.assistRuns then (rsOk, statusBody s, s) else (rsBadState, [], s)
  else if op = opSensors then if s.assistRuns then (rsOk, sensorsBody s, s) else (rsBadState, [], s)
  else if op = opMode then noBody (shelfModeRun (arg 0) (f.flags.getLsbD 1) s)
  else if op = opWake then (rsOk, [], if s.glb.mode = .standby then s.modGlb (fun g => { g with wake := true }) else s)
  else if op = opRestart then if s.glb.mode = .faultHalt then (rsOk, [], shelfRestartRun s) else (rsBadState, [], s)
  else if op = opPlate then noBody (shelfPlateRun (arg 0) (arg 1) s)
  else if s.assistRuns then
    (rsOk, [], s.modSbus (fun b => { b with sub := some (f.src.toNat, arg 0, arg 1 != 0), evSent := s.log.head }))
  else (rsBadState, [], s)

/-- An answer to an unauthenticated query: 32 of them per second (R356). DEDUCED, notes/assumptions/57.md. -/
def queryAnswer (f : ShelfFrame) (own st : Nat) (body : List Nat) (s : State) : State :=
  let sec := s.now / oneSec + 1
  let n := if s.sbus.answers.1 = sec then s.sbus.answers.2 else 0
  if n < 32 then shelfAnswer f own st body (s.modSbus (fun b => { b with answers := (sec, n + 1) }))
  else incF F.SBUS_CNT_DROP_OTHER 1 s

/-- A COMMAND; `wm`: the wake matcher serves it, not an assistant. DEDUCED, notes/assumptions/57.md. -/
def shelfCommand (wm : Bool) (f : ShelfFrame) (s : State) : State :=
  let op := f.opcode.toNat
  let own := if wm then s.start.wakeId else s.get F.GLB_STRAPS_SHELF_ID
  let all := decide (f.target.toNat = 0xFF)
  if wm && !(op == opPing || op == opWake || op == opRestart) then s
  else if f.target.toNat ≠ own ∧ !all then s
  else
    match shelfLen op with
    | none => shelfAnswer f own rsBadOpcode [] s
    | some n =>
      if f.len.toNat ≠ n ∨ f.body.length ≠ n then shelfAnswer f own rsBadLength [] s
      else if !shelfAuth op then
        if wm || s.on F.SBUS_CTL_UNAUTH_RESP then
          let (st, body, s1) := shelfRun f own s
          queryAnswer f own st body s1
        else s
      else
        match authCheck f s with
        | some (st, s1) => shelfAnswer f own st [] s1
        | none =>
          let s1 := s.modSbus (·.nonceTake f.src.toNat f.nonce.toNat)
          if all && op != opWake then shelfAnswer f own rsBadTarget [] s1
          else
            let (st, body, s2) := shelfRun f own s1
            shelfAnswer f own st body s2

/-- A frame of the shelf protocol is served (R356). DEDUCED, notes/assumptions/58.md. -/
def shelfServe (wm : Bool) (bytes : List Nat) (s : State) : State :=
  let f := ShelfFrame.ofBytes bytes
  let src := f.src.toNat
  match s.sbus.quarUse src with
  | some b => s.modSbus (fun _ => b)
  | none =>
    if f.ver.toNat ≠ 1 then incF F.SBUS_CNT_DROP_OTHER 1 s
    else
      let s1 := sourceSeen src s
      if f.typ.toNat = 1 then shelfCommand wm f s1 else s1

/-! ### Receiving (R355, R356, R361, R362) -/

/-- A night assistant serves the bus: it runs from image load until power goes (R358). DEDUCED, notes/assumptions/58.md. -/
def State.busServed (s : State) : Bool :=
  s.assistRuns || (decide (s.glb.mode = .starting) && s.loaded)

/-- The MAC accepts a destination. -/
def State.macAccepts (s : State) (dst : Nat) : Bool :=
  decide (dst = s.get F.SBUS_MAC_ADDR) || decide (dst = macGroup) || decide (dst = macPtp)

/-- The free receive banks. -/
def SbusSt.rxFree (b : SbusSt) : List Nat := [0, 1].filter (fun k => !b.rx.any (fun f => f.bank == k))

/-- The assistant serves the frame in a bank, and takes it from there where its reads are no commands of their own.
DEDUCED, notes/assumptions/58.md. -/
def rxServe (k : Nat) (s : State) : State :=
  match s.sbus.rx.find? (fun r => r.bank == k) with
  | none => s
  | some r =>
    let s1 := s.modSbus (fun b =>
      { b with rx := if r.own then b.rx.filter (fun x => x.bank != k)
                     else b.rx.map (fun x => if x.bank = k then { x with wait := false } else x) })
    if (r.bytes.drop 12).take 2 = etherShelf ∧ r.fcsOk then shelfServe false r.bytes s1 else s1

/-- A frame arrives; `own`: its reads are no commands. A frame that fails its FCS is dropped unless it has become readable before.
DEDUCED, notes/assumptions/58.md. DEDUCED, notes/assumptions/66.md. -/
def frameIn (bytes : List Nat) (fcsOk own : Bool) (s : State) : State :=
  let et := (bytes.drop 12).take 2
  let drop (t : State) : State := incF F.SBUS_CNT_DROP_OTHER 1 t
  if s.start.aonDown || !s.macAccepts (beNum (bytes.take 6)) then s
  else if bytes.length < 60 ∨ 1514 < bytes.length then drop s
  else if !s.busServed || !s.on F.SBUS_CTL_EN then
    if !fcsOk then drop s else if et = etherShelf then shelfServe true bytes s else s
  else if !fcsOk && decide (bytes.length < s.get F.SBUS_RXQ_CFG_CUT) then drop s
  else if et ≠ etherShelf ∧ et ≠ etherPtp then drop s
  else
    match s.sbus.rxFree with
    | [] => s |> setErr F.SBUS_ERR_STATUS_RX_OVF intSbus |> incF F.SBUS_CNT_DROP_OVF 1
    | k :: _ =>
      let swap := s.asstStalled
      let s1 := (s.modSbus (fun b => { b with rx := b.rx ++ [⟨k, bytes, 0, fcsOk, true, own⟩] })) |> incF F.SBUS_CNT_RX_OK 1 |> cnt bSBUS 0 1
        |> setF (F.SBUS_TS_RX k) (if et = etherPtp ∧ s.on F.SBUS_CTL_TS_EN then s.clk.tod else 0)
      if swap then s1 else rxServe k s1

/-- The frames that waited for an assistant are served in their order. DEDUCED, notes/assumptions/52.md. -/
def rxWaiting (s : State) : State :=
  if s.busServed && !s.asstStalled then seqAll rxServe ((s.sbus.rx.filter (·.wait)).map (·.bank)) s else s

/-- A COMMAND frame with opcode `op`. -/
def shelfCmd (op : Nat) (f : ShelfFrame) (s : State) : Host.Outcome State Fault Refusal :=
  .next (domeAfter (frameIn { f with ver := 1, typ := 1, opcode := BitVec.ofNat _ op }.bytes true true s))

def execShelfPing (f : ShelfFrame) (s : State) : Host.Outcome State Fault Refusal := shelfCmd opPing f s
def execShelfStatus (f : ShelfFrame) (s : State) : Host.Outcome State Fault Refusal := shelfCmd opStatus f s
def execShelfSensors (f : ShelfFrame) (s : State) : Host.Outcome State Fault Refusal := shelfCmd opSensors f s
def execShelfMode (f : ShelfFrame) (s : State) : Host.Outcome State Fault Refusal := shelfCmd opMode f s
def execShelfWake (f : ShelfFrame) (s : State) : Host.Outcome State Fault Refusal := shelfCmd opWake f s
def execShelfRestart (f : ShelfFrame) (s : State) : Host.Outcome State Fault Refusal := shelfCmd opRestart f s
def execShelfPlate (f : ShelfFrame) (s : State) : Host.Outcome State Fault Refusal := shelfCmd opPlate f s
def execShelfSubscribe (f : ShelfFrame) (s : State) : Host.Outcome State Fault Refusal := shelfCmd opSubscribe f s
def execShelfFrameOther (bytes : List Byte) (fcs : Bool) (s : State) : Host.Outcome State Fault Refusal :=
  .next (domeAfter (frameIn (bytes.map (·.toNat)) fcs false s))

/-- A source's 10 s of quarantine end: the oldest entry. -/
def quarExpire (s : State) : State :=
  let t := s.sbus.quar.foldl (fun a e => min a e.2) s.now
  match s.sbus.quar.find? (fun e => e.2 == t) with
  | some e => s.modSbus (fun b => { b with quar := b.quar.filter (fun x => x.1 != e.1) })
  | none => s

def execQuarantineExpiry (s : State) : Host.Outcome State Fault Refusal := .next (quarExpire s)

/-! ### Time synchronisation (R364; 14_clocks_and_crossings.md R344) -/

/-- The assistant disciplines CLK_TOD: beyond 1 ms it steps, within it slews. DEDUCED, notes/assumptions/58.md. -/
def todDiscipline (ofs adj : Int) (s : State) : State :=
  if 1000000 < ofs.natAbs then todStep (((s.clk.tod : Int) + ofs) % 2 ^ 64).toNat 3 s
  else storeAt 0x3A0030 (adj % 2 ^ 32).toNat s

/-- An 802.1AS frame; `disc` is the offset and the rate adjustment that the assistant derives from it. -/
def execPtpFrame (bytes : List Byte) (fcs : Bool) (disc : Option (Int × Int)) (s : State) : Host.Outcome State Fault Refusal :=
  let s1 := frameIn (bytes.map (·.toNat)) fcs false s
  let taken := decide (s.sbus.rx.length < s1.sbus.rx.length)
  .next (match disc with
    | some (o, a) => if taken && fcs && !s.asstStalled then todDiscipline o a s1 else s1
    | none => s1)

/-- Pdelay_Req: an 802.1AS frame with its transmit time captured. The rest of its contents is not stated. DEDUCED, notes/assumptions/58.md. -/
def pdelayReq (s : State) : State :=
  let (n, s1) := takeNat s
  let f := beBytes 6 macPtp ++ beBytes 6 (s.get F.SBUS_MAC_ADDR) ++ etherPtp ++ numBytes 46 n
  match s1.sbus.txFree with
  | [] => frameSend f s1
  | k :: _ => s1.modSbus (fun b => { b with tx := b.tx ++ [⟨k, f, true, true, 0⟩] })

def execPdelayTimer (s : State) : Host.Outcome State Fault Refusal := .next (if s.busServed && !s.asstStalled then pdelayReq s else s)

/-! ### PLCA (R354) -/

/-- The role that SBUS_PLCA_CFG and the strap give: coordinator? -/
def State.coordRole (s : State) : Bool :=
  let r := s.get F.SBUS_PLCA_CFG_ROLE
  decide (r = 1) || (decide (r = 0) && decide (s.get F.GLB_STRAPS_SHELF_ID = 0))

/-- The device acts as coordinator. -/
def State.coordNow (s : State) : Bool := s.coordRole && !s.sbus.yielded && !s.start.aonDown

/-- The node ID in use. -/
def State.nodeId (s : State) : Nat :=
  if s.coordNow then 0
  else if s.get F.SBUS_PLCA_CFG_NODE_ID = 0xFF then s.get F.GLB_STRAPS_SHELF_ID + 1
  else s.get F.SBUS_PLCA_CFG_NODE_ID

def execPlcaBeacon (s : State) : Host.Outcome State Fault Refusal := .next (if s.coordNow then emit .beacon s else s)
def execBeaconLoss (s : State) : Host.Outcome State Fault Refusal :=
  .next (if s.coordNow ∨ s.start.aonDown then s else s.modSbus (fun b => { b with csma := true }))
def execBeaconReceived (s : State) : Host.Outcome State Fault Refusal :=
  .next (if s.coordNow ∨ s.start.aonDown then s else s.modSbus (fun b => { b with csma := false }))
def execDupCoord (s : State) : Host.Outcome State Fault Refusal :=
  .next (if s.coordNow then
      s.modSbus (fun b => { b with yielded := true }) |> setErr F.SBUS_ERR_STATUS_DUP_COORD intSbus |> logOpen bSBUS 0 0
    else s)
def execCoordResume (s : State) : Host.Outcome State Fault Refusal :=
  .next (if s.sbus.yielded then s.modSbus (fun b => { b with yielded := false, csma := false }) else s)

/-- A collision in the device's own transmit opportunity: the frame is tried again, 16 times. -/
def plcaCollision (s : State) : State :=
  match s.sbus.tx.find? (·.ready) with
  | none => s
  | some f =>
    if s.sbus.csma ∨ !s.on F.SBUS_CTL_EN ∨ s.start.aonDown then s
    else
      let keep : TxFrame → Option TxFrame := fun x =>
        if x.bank = f.bank then (if 16 ≤ f.tries + 1 then none else some { x with tries := f.tries + 1 }) else some x
      (s.modSbus (fun b => { b with tx := b.tx.filterMap keep }.txFill)) |> setErr F.SBUS_ERR_STATUS_PLCA_COLL intSbus

def execPlcaCollision (s : State) : Host.Outcome State Fault Refusal := .next (plcaCollision s)

/-! ### Frame queues (R361 to R363) -/

/-- Is this master the running assistant? -/
def State.runsBus (s : State) (m : Master) : Bool :=
  s.busServed && !s.asstStalled && decide (m = (if s.on F.IMG_ASSIST_RUNNING then .assistB else .assistA))

/-- A read of SBUS_RXQ_DATA: the next 6 B of the oldest readable frame. -/
def rxqTake (m : Master) (s : State) : Nat × State :=
  match if s.runsBus m then s.sbus.rx.find? (fun r => !r.own) else none with
  | none => (0, s)
  | some r =>
    let d := (r.bytes.drop r.pos).take 6
    let last := decide (r.bytes.length ≤ r.pos + 6)
    (2 ^ 63 + (decide (r.pos = 0)).toNat * 2 ^ 62 + last.toNat * 2 ^ 61 + (last && !r.fcsOk).toNat * 2 ^ 60 + d.length * 2 ^ 48 + leNum d,
      s.modSbus (fun b =>
        { b with rx := if last then b.rx.filter (fun x => x.bank != r.bank)
                       else b.rx.map (fun x => if x.bank = r.bank then { x with pos := r.pos + 6 } else x) }))

def rxqRead (m : Master) (s : State) : State :=
  let (w, s1) := rxqTake m s
  emit (.regData m 0x3B0040 (BitVec.ofNat 64 w)) s1

def execRxqDataRead (m : Master) (s : State) : Host.Outcome State Fault Refusal := .next (rxqRead m s)

/-- SBUS_RXQ_CTL.DROP: the rest of the current frame goes, and its bank with it. -/
def rxqDrop (m : Master) (s : State) : State :=
  match if s.runsBus m then s.sbus.rx.find? (fun r => !r.own) else none with
  | none => s
  | some r => s.modSbus (fun b => { b with rx := b.rx.filter (fun x => x.bank != r.bank) })

def execRxqDrop (m : Master) (s : State) : Host.Outcome State Fault Refusal := .next (rxqDrop m s)

/-- A frame that is complete: after a cut TRACE item the next TRACE body says so in bit 0 of its first byte. -/
def SbusSt.txReady (b : SbusSt) (k : Nat) (cut : Bool) : SbusSt :=
  let fix (f : TxFrame) : TxFrame :=
    let tr := decide (leAt f.bytes 15 1 = 4)
    { f with ready := true, bytes := if b.cont && tr then f.bytes.set 34 (leAt f.bytes 34 1 ||| 1) else f.bytes }
  let was := b.tx.any (fun f => f.bank == k && leAt f.bytes 15 1 == 4)
  { b with tx := b.tx.map (fun f => if f.bank = k then fix f else f), cont := if was then cut else b.cont }

/-- A write of SBUS_TXQ_DATA: FIRST starts a frame in a free bank, LAST sends it. A word that belongs to no frame is discarded;
a bank holds 2 KiB. DEDUCED, notes/assumptions/58.md. -/
def txqWrite (m : Master) (w : Nat) (s : State) : State :=
  if !s.runsBus m then s
  else
    let n := min 6 (w / 2 ^ 48 % 8)
    let d := numBytes n (w % 2 ^ 48)
    let first := w.testBit 62
    let s0 := if first then s.modSbus (fun b => { b with tx := b.tx.filter (·.ready) }) else s
    let put (k : Nat) (t : State) : State :=
      when (w.testBit 61) (fun u => u.modSbus (·.txReady k false))
        (t.modSbus (fun b => { b with tx := b.tx.map (fun f => if f.bank = k then { f with bytes := (f.bytes ++ d).take 2048 } else f) }))
    match s0.sbus.tx.find? (fun f => !f.ready) with
    | some f => put f.bank s0
    | none =>
      match s0.sbus.txFree with
      | [] => setF F.SBUS_TXQ_CTL_LOST 1 s0
      | k :: _ => if first then put k (s0.modSbus (fun b => { b with tx := b.tx ++ [⟨k, [], false, w.testBit 60, 0⟩] })) else s0

def execTxqDataWrite (m : Master) (w : Word) (s : State) : Host.Outcome State Fault Refusal := .next (txqWrite m w.toNat s)

/-- SBUS_TXQ_CTL.FLUSH: the current frame ends at the last word written. -/
def txqFlush (m : Master) (s : State) : State :=
  match if s.runsBus m then s.sbus.tx.find? (fun f => !f.ready) else none with
  | none => s
  | some f => s.modSbus (·.txReady f.bank true)

def execTxqFlush (m : Master) (s : State) : Host.Outcome State Fault Refusal := .next (txqFlush m s)

/-- The oldest complete frame has been sent. -/
def txSent (s : State) : State :=
  match s.sbus.tx.find? (·.ready) with
  | none => s
  | some f =>
    if !s.on F.SBUS_CTL_EN ∨ s.start.aonDown then s
    else
      (s.modSbus (fun b => { b with tx := b.tx.filter (fun x => x.bank != f.bank) }.txFill)) |> emit (.frame (padFrame f.bytes))
        |> incF F.SBUS_CNT_TX_OK 1 |> cnt bSBUS 1 1 |> when (f.ts && s.on F.SBUS_CTL_TS_EN) (setF F.SBUS_TS_TX s.clk.tod)

def execTxFrameSent (s : State) : Host.Outcome State Fault Refusal := .next (txSent s)

/-! ### EVENT frames (R358) -/

/-- A record goes to the subscriber; its OPCODE, NONCE and XID are not stated. PRESUMED, notes/assumptions/56.md. -/
def eventFrame (dst : Nat) (r : LogRec) (s : State) : State :=
  let (n, s1) := takeNat s
  frameSend (ShelfFrame.bytes
    { dst := BitVec.ofNat _ dst, src := BitVec.ofNat _ (s.get F.SBUS_MAC_ADDR), ver := 1, typ := 3, opcode := BitVec.ofNat _ n,
      len := 32, flags := 0, target := BitVec.ofNat _ (s.get F.GLB_STRAPS_SHELF_ID), nonce := BitVec.ofNat _ (n / 2 ^ 16),
      xid := BitVec.ofNat _ (n / 2 ^ 80), status := 0, body := r.bytes.map (BitVec.ofNat 8), tag := 0 }) s1

/-- The records since the last look that reach the subscriber's floor. -/
def eventFrames (s : State) : State :=
  match s.sbus.sub with
  | none => s
  | some (dst, flr, _) =>
    if !s.assistRuns ∨ s.asstStalled ∨ s.sbus.evSent = s.log.head then s
    else
      let n := min 4096 ((s.log.head + 2 ^ 32 - s.sbus.evSent) % 2 ^ 32)
      let rs := (List.range n).filterMap (fun i => tget s.log.slots ((s.log.head + 2 ^ 32 - n + i) % 4096))
      seqAll (eventFrame dst) (rs.filter (fun r => decide (flr ≤ r.sev))) (s.modSbus (fun b => { b with evSent := s.log.head }))

/-! ### The shelf key (R359) -/

/-- SBUS_KEY0 to 3. PRESUMED, notes/assumptions/56.md. -/
def State.keyRegs (s : State) : Nat := (List.range 4).foldl (fun a i => a + s.get (F.SBUS_KEY i) * 2 ^ (64 * i)) 0

/-- The shelf key record of 17_almanac_life_cycle_finder.md R391. -/
def keyRecord (k : BitVec 256) : List Nat :=
  let w := ((Config.wrapKey k).map (·.toNat)).take 40
  almRecord (1 :: List.replicate 7 0 ++ w ++ List.replicate (244 - w.length) 0)

/-- COMMIT. PRESUMED, notes/assumptions/56.md. -/
def shelfKeyCommit (s : State) : State :=
  let k := BitVec.ofNat 256 s.keyRegs
  let fail (t : State) : State := setErr F.SBUS_ERR_STATUS_KEY_FAIL intSbus t
  if s.lcs.state = lcProvision ∨ s.lcs.state = lcService then
    let (ok, s1) := almDevice 0x100 (keyRecord k) s
    if ok then s1.modSbus (fun b => { b with key := some k }) else fail s1
  else fail s

def execKeyCommit (_m : Master) (s : State) : Host.Outcome State Fault Refusal := .next (shelfKeyCommit s)

/-! ### What waited for an assistant -/

/-- The plate requests that waited are taken in their order. DEDUCED, notes/assumptions/52.md. -/
def reqsGo (s : State) : State :=
  if s.sbus.reqs == [] || s.asstStalled then s
  else seqAll plateReq s.sbus.reqs (s.modSbus (fun b => { b with reqs := [] }))

end Sys2Proof.Machine
end

