-- ==== Sys2Proof/Machine/Views.lean ====
section
/-! DEFINITION. What the registers show that no field of their own holds: each reads it from the state it belongs to (00_scope.md
R3, and the "registers" section of each chapter). -/

namespace Sys2Proof.Machine

/-- Fields given as (lowest bit, value), put together. -/
def pack (l : List (Nat × Nat)) : Nat := l.foldl (fun a p => a + p.2 * 2 ^ p.1) 0
def packB (l : List (Nat × Bool)) : Nat := pack (l.map (fun p => (p.1, p.2.toNat)))

/-- Bit i of a mask of `n` bits. -/
def maskOf (n : Nat) (f : Nat → Bool) : Nat := (List.range n).foldl (fun a i => if f i then a + 2 ^ i else a) 0

/-! ### GLB, HOST (01_the_shelf_controller.md R16; 02_host_port.md R46) -/

/-- GLB_INT_MCH: the channels whose MCHn_ERR_STATUS is not zero. -/
def State.intMch (s : State) : Nat :=
  maskOf 32 (fun n => match findReg (0x100020 + n * 0x10000) with
    | some r => plainVal r s != 0
    | none => false)

/-- HOST_CRED_Pp: credits free in the device; port 1's reads 0 where there is no port 1. -/
def State.credWord (s : State) (p : Nat) : Nat :=
  if p = 1 ∧ s.get F.HOST_LINK_CFG_BIFUR ≠ 1 then 0 else pack [(16, (s.port p).freeCred credRwd), (0, (s.port p).freeCred credReq)]

/-! ### DRIFT, FLD, DUR (05 R122; 06 R134; 07 R193) -/

/-- 4-bit sets whose fields are not FREE and whose record is not valid. -/
def State.invalidSets (s : State) : Nat :=
  (s.listedSets.filter (fun x => !s.setFree x && (setFields x).all (fun f => !(s.frec f).mode1) && !(s.drec x).valid)).length

/-- Word `i` of the field table's export window. -/
def State.fldWindow (s : State) (i : Nat) : Nat :=
  let w := (s.frec (s.get F.FLD_TBL_SEL_FIRST * 4096 + i / 2)).word
  w / 2 ^ (64 * (i % 2)) % 2 ^ 64

/-- The age of the oldest uncommitted record in us. -/
def State.commitAge (s : State) : Nat :=
  let l := s.dur.build ++ (s.dur.rows.filter (fun r => !r.done)).flatMap (fun r => r.row.recs)
  min 0xFFFFFF (l.foldl (fun a r => max a (s.now - r.born)) 0 / 1000)

/-! ### WMEM, ECC (08_working_memory.md R208, R209, R213, R214) -/

def CeEnt.wordOf (e : CeEnt) : Nat :=
  pack [(63, 1), (62, e.hot.toNat), (61, e.loc.sub.val), (29, e.loc.bits % 2 ^ 32), (25, e.loc.dev % 16), (17, min 255 e.count), (0, e.last % 2 ^ 16)]

def State.ceEntry (s : State) (c : Nat) : Nat :=
  match (tgetD [] s.wm.ce c)[s.get (F.WMEM_CE_CTL_SEL c)]? with
  | some e => e.wordOf
  | none => 0

def State.mediaEntry (s : State) : Option MedErr := s.wm.media[s.get F.ECC_MEDIA_CTL_SEL]?

def MedErr.hi (e : MedErr) : Nat :=
  pack [(63, 1), (60, e.step), (55, min 31 e.bits), (48, e.leaf), (36, min 4095 e.count), (0, e.pfa)]

/-! ### CIPH, RING (09_cipher_and_meridian.md R233; 10_transit_rings.md R268) -/

/-- CIPH_KID_SUMMARY. -/
def State.kidSummary (s : State) : Nat :=
  let n (p : Nat → Bool) : Nat := (s.ciph.kids.filter (fun e => decide (e.1 ≠ 0) && p e.2.st)).length
  let act := n (fun x => x == 1 || x == 2)
  let ret := n (· == 3)
  let des := n (fun x => x == 4 || x == 5)
  pack [(48, 4095 - act - ret - des), (32, act), (16, ret), (0, des)]

/-- CIPH_LDn_KID. -/
def State.ldKid (s : State) (n : Nat) : Nat :=
  let c := tget s.ciph.cur n
  pack [(31, c.isSome.toNat), (16, s.ownedKids n % 4096), (0, c.getD 0)]

/-- RING_QP_OWNER. -/
def State.qpOwner (s : State) : Nat :=
  let q := s.get F.RING_QP_SEL_PAIR
  match s.pairOwner q with
  | some n => pack [(63, 1), (56, n), (0, q - s.get (F.RING_LD_ALLOC_FIRST n))]
  | none => 0

/-- A word of a doorbell slot; QP_CFG.EN reads 1 until the pair has drained (R250). -/
def State.slotWord (s : State) (q w : Nat) : Nat :=
  match findReg (slotOff q w) with
  | some r => plainVal r s
  | none => 0

/-! ### DOME (13_dome_power.md R335) -/

def SeqPhase.code : SeqPhase → Nat
  | .off => 0
  | .up => 1
  | .on => 2
  | .down => 3

def RailPhase.code : RailPhase → Nat
  | .off => 0
  | .rising => 1
  | .running => 2
  | .falling => 3
  | .failed => 4

/-- The state of a sequencer: `h` while an on request is held. -/
def SeqSt.code (q : SeqSt) (h : Nat) : Nat := if q.held ∧ (q.phase = .off ∨ q.phase = .down) then h else q.phase.code

def State.domeStatus (s : State) : Nat :=
  pack [(28, (s.seq devSeq).code 4), (0, s.dome.tj % 256)] +
    packB [(27, s.dome.huEn), (26, s.dome.huOk), (25, s.start.vin && !s.dome.onBank), (24, s.dome.onBank), (23, s.dome.thermOvr),
      (22, s.marginOn), (21, decide (s.dome.bank = 1))]

def State.pltStatus (s : State) : Nat := pack ((List.range 16).map (fun p => (2 * p, (s.seq p).code 3)))

def State.railWord (s : State) (n : Nat) : Nat :=
  let r := s.rail n
  pack [(61, r.phase.code), (60, r.pg.toNat), (59, r.en.toNat), (54, r.margin % 32), (16, r.iout % 2 ^ 16), (0, r.mv % 2 ^ 16)]

def State.fanWord (s : State) (f : Nat) : Nat :=
  packB [(31, (s.fan f).stall), (30, (s.fan f).failsafe), (29, s.fanOver f)] + (s.fan f).rpm % 2 ^ 16

/-! ### CLK (14_clocks_and_crossings.md R340, R352) -/

/-- Does the clock of a domain (its bit in CLK_STATUS) run? -/
def State.clkRuns (s : State) (d : Nat) : Bool :=
  if d < 32 then
    let st := s.get (F.MCH_STATUS_STATE d)
    s.coreOn && decide (st ≠ 0) && decide (st ≠ chSleep) && decide (st ≠ 8)
  else if d < 34 then s.coreOn && (decide (d = 32) || decide (s.get F.HOST_LINK_CFG_BIFUR = 1))
  else if d < 38 then s.coreOn && s.on (F.WMEM_CH_STATUS_TRAINED (d - 34)) && !s.on (F.WMEM_CH_STATUS_SELF_REF (d - 34))
  else if d < 40 then s.coreOn && decide (s.pd (68 + (d - 38)) = .on)
  else if d = 41 ∨ d = 42 then !s.start.aonDown
  else s.coreOn

/-! ### SBUS (15_shelf_bus.md R371) -/

def State.sbusStatus (s : State) : Nat :=
  packB [(31, !s.start.aonDown && !s.sbus.csma), (30, s.coordNow), (29, s.sbus.csma), (28, s.sbus.key.isSome)] + s.nodeId % 256

def State.rxReady (s : State) : Nat := maskOf 2 (fun k => s.sbus.rx.any (fun f => f.bank == k))
def State.txFreeBits (s : State) : Nat := maskOf 2 (fun k => s.sbus.txFree.contains k)

/-! ### The value of a register -/

/-- What the fields of register `r` do not hold themselves: the value the register shows, if it is such a register. -/
def State.viewOf (s : State) (r : RegAt) : Option Nat :=
  let o := r.off
  let at_ (base stride n : Nat) : Option Nat := if base ≤ o ∧ (o - base) % stride = 0 ∧ (o - base) / stride < n then some ((o - base) / stride) else none
  if o < 0x10000 then
    if o = 0x10 then some s.glb.intStatus.toNat else if o = 0x18 then some s.glb.intMask.toNat else if o = 0x20 then some s.intMch else none
  else if o = 0x10080 then some (s.credWord 0)
  else if o = 0x10088 then some (s.credWord 1)
  else if o = 0x50008 then some (plainVal r s - plainVal r s % 2 ^ 24 + s.commitAge)
  else if 0x100000 ≤ o ∧ o < 0x300000 then
    (at_ 0x100080 8 262144).bind (fun k =>
      let c := k / 8192
      if k % 8192 < 8 ∧ c < 32 then some (putBits 32 16 (s.dieLoops c (k % 8192)) (plainVal r s)) else none)
  else if 0x90000 ≤ o ∧ o < 0xA0000 then some (s.fldWindow ((o - 0x90000) / 8))
  else if o = 0x300008 then some (plainVal r s - plainVal r s % 2 ^ 21 + s.invalidSets % 2 ^ 21)
  else if 0x310000 ≤ o ∧ o < 0x320000 then (at_ 0x310018 0x4000 4).map s.ceEntry
  else if o = 0x320010 then some ((s.mediaEntry.map MedErr.hi).getD 0)
  else if o = 0x320018 then some ((s.mediaEntry.map (·.last)).getD 0 % 2 ^ 64)
  else if o = 0x330000 then some (plainVal r s % 2 ^ 8 + maskOf 8 s.laneOn * 2 ^ 8 + maskOf 8 s.laneOk * 2 ^ 16)
  else if o = 0x330018 then some s.kidSummary
  else if 0x330100 ≤ o ∧ o < 0x330200 then (at_ 0x330100 8 17).map s.ldKid
  else if o = 0x350020 then some s.qpOwner
  else if 0x350200 ≤ o ∧ o < 0x350240 then some (s.slotWord (s.get F.RING_QP_SEL_PAIR) (o - 0x350200))
  else if o / 0x10000 = 0x39 then
    if o = 0x390008 then some s.domeStatus
    else if o = 0x390028 then some s.pltStatus
    else if o = 0x390040 then some (plainVal r s + tgetD 1 s.dome.adc 9 - 1)
    else if o = 0x390048 then some (maskOf 64 (fun d => decide (s.pd d = .on)))
    else if o = 0x390050 then some (maskOf 16 (fun d => decide (s.pd (64 + d) = .on)))
    else if o = 0x390058 then some (maskOf 8 (fun d => decide (s.pd (40 + d) = .retention)) + (decide (s.pd 78 = .retention)).toNat * 2 ^ 8)
    else if o = 0x390060 then some (plainVal r s + s.dome.marginRail.isSome.toNat * 2 ^ 30)
    else if 0x390088 ≤ o ∧ o < 0x3900C8 then (at_ 0x390088 16 4).map s.fanWord
    else if 0x390108 ≤ o ∧ o < 0x390388 then (at_ 0x390108 16 40).map s.railWord
    else (at_ 0x390400 8 16).map s.adcWord
  else if o = 0x3A0008 then some (maskOf 44 s.clkRuns)
  else if o = 0x3A0020 then some s.clk.tod
  else if o = 0x3A0040 then some (s.clk.ticks % 2 ^ 48)
  else if o / 0x10000 = 0x3B then
    if o = 0x3B0008 then some s.sbusStatus
    else if o = 0x3B0048 then some s.rxReady
    else if o = 0x3B0058 then some (plainVal r s - plainVal r s % 4 + s.txFreeBits)
    else (at_ 0x3B0100 8 16).map s.pltState
  else if o / 0x10000 = 0x3C then
    if o = 0x3C0010 then some (s.spec.seq % 2 ^ 32 * 2 ^ 32 + packB [(31, s.spec.busy), (30, decide (s.spec.bank = 1))])
    else if o = 0x3C0018 then some s.spec.time
    else if o = 0x3C0030 then some (s.spec.live.word (s.get F.SPEC_LIVE_SEL))
    else if 0x3C1000 ≤ o ∧ o < 0x3C1400 then some (tgetD 0 s.spec.chain ((o - 0x3C1000) / 8))
    else if 0x3C1400 ≤ o ∧ o < 0x3C1800 then some (tgetD 0 s.spec.wrap ((o - 0x3C1400) / 8))
    else if 0x3C8000 ≤ o then some (s.spec.published.word ((o - 0x3C8000) / 8))
    else none
  else if o = 0x3D0008 then some s.log.head
  else if o = 0x3D0018 then some (min (2 ^ 32 - 1) s.log.drops)
  else if 0x3D0100 ≤ o ∧ o < 0x3D0120 then some (logWin s ((o - 0x3D0100) / 8))
  else if 0x3E0200 ≤ o ∧ o < 0x3E0280 then some (s.odo ((o - 0x3E0200) / 8))
  else none

/-- The value of register `r`. -/
def State.regValue (s : State) (r : RegAt) : Nat := (s.viewOf r).getD (plainVal r s)

end Sys2Proof.Machine
end

