-- ==== Sys2Proof/Machine/RegAccess.lean ====
section
/-! DEFINITION. Accesses to BAR0 and BAR2 (00_scope.md R3 to R7; 02_host_port.md R44; 14_clocks_and_crossings.md R350, R351): every
register is written and read here, and a write that starts something starts it by the operation of the row that names it. -/

namespace Sys2Proof.Machine

/-! ### Writes of a register -/

/-- All fields of a register as they stand, those of access WO included. -/
def rawVal (r : RegAt) (s : State) : Nat := r.flds.foldl (fun a f => a + s.get f * 2 ^ f.lo) 0

/-- A write of a doorbell slot word of pair `q` (10_transit_rings.md R249). -/
def pairSlotWrite (q : Nat) (r : RegAt) (cover v : Nat) (s : State) : State :=
  let full := if cover = 0 then v else v + rawVal r s % 2 ^ cover
  match r.off % 64 with
  | 0x10 => qpCfgWrite q full s
  | 0x18 => storeReg r cover v s
  | 0x20 => sqDoorbell q full s
  | 0x28 => cqDoorbell q full s
  | 0x00 => if s.qSt q = qDisabled then storeReg r cover v s else s
  | 0x08 => if s.qSt q = qDisabled then storeReg r cover v s else s
  | _ => s

/-- A write of GLB_INT_MASK: vector 2 where a bit is written 1 whose cause is set (01_the_shelf_controller.md R16).
DESIGN CHOICE, notes/assumptions/21.md. -/
def intMaskWrite (v : Nat) (s : State) : State :=
  let m := BitVec.ofNat 32 (v % 2 ^ 23)
  let s1 := s.modGlb (fun g => { g with intMask := m })
  if m &&& s.glb.intStatus ≠ 0 then msixSend mgmtView 2 s1 else s1

def execIntMaskWrite (_m : Master) (v : BitVec 32) (s : State) : Host.Outcome State Fault Refusal := .next (intMaskWrite v.toNat s)

/-- The write of a register whose fields are stored and whose change has a consequence. `old` is the state before. -/
def afterStore (o : Nat) (old s : State) : State :=
  if o = 0x50000 then
    let s1 := bypassStatus s
    if s1.on F.DUR_CTL_SCAN_NEXT = old.on F.DUR_CTL_SCAN_NEXT then s1 else setScanNext (s1.on F.DUR_CTL_SCAN_NEXT) s1
  else if o = 0x10010 ∨ o = 0x10000 then ldStatusAll s
  else if o = 0x20010 then poolStatus s
  else if o = 0x40010 then coalStatus s
  else if o = 0x80018 then gcHyst s
  else if o = 0x80030 then wearStatus s
  else if o = 0x360000 then regCtl (old.on F.REG_CTL_EN) s
  else if o = 0x360010 then capRecompute s
  else if o = 0x370028 then ledgLook s
  else if o = 0x3A0000 then (if old.on F.CLK_CTL_REC_EN ∧ !s.on F.CLK_CTL_REC_EN then recDisable s else s)
  else if 0x390080 ≤ o ∧ o < 0x3900C0 then modFan ((o - 0x390080) / 16) (fun f => { f with failsafe := false }) s
  else if 0x100000 ≤ o ∧ o < 0x300000 ∧ o % 0x10000 = 0 then
    let n := (o - 0x100000) / 0x10000
    if old.on (F.MCH_CTL_LBUF_EN n) ∧ !s.on (F.MCH_CTL_LBUF_EN n) then s.modMed (fun m => { m with lbuf := terase m.lbuf n }) else s
  else s

/-- The bits of `v` from `cover` upwards are written to register `r` by master `m` (R3, R4); `bar0`: a doorbell slot through BAR0. -/
def regPut (m : Master) (bar0 : Bool) (r : RegAt) (cover v : Nat) (s : State) : State :=
  let o := r.off
  let full := if cover = 0 then v else v + rawVal r s % 2 ^ cover
  let plain (t : State) : State := afterStore o t (storeReg r cover v t)
  if o < 0x10000 then
    if o = 0x10 then s.modGlb (fun g => { g with intStatus := g.intStatus &&& ~~~(BitVec.ofNat 32 v) })
    else if o = 0x18 then intMaskWrite v s
    else if o = 0x40 then modeCtl v s
    else plain s
  else if 0x400000 ≤ o then slotGuard bar0 ((o - 0x400000) / 64) (pairSlotWrite ((o - 0x400000) / 64) r cover v) s
  else if o = 0x20030 then xlatProbe full (plain s)
  else if o = 0x30000 then mapcCtl v s
  else if o = 0x30010 then scratchConvert v s
  else if o = 0x30020 then maintGo v s
  else if o = 0x50030 then ckptCmd v s
  else if o = 0x50060 then durSync v s
  else if o = 0x80000 then fldCtl v s
  else if o = 0x80010 then (plain s).modFld (fun f => { f with rebin := true })
  else if o = 0x80040 then wearCmd v s
  else if o = 0x80098 then scoreQuery full (plain s)
  else if o = 0x300000 then driftCtl v s
  else if o = 0x300060 then driftQuery full (plain s)
  else if o / 0x10000 = 0x31 then
    let c := (o - 0x310000) / 0x4000
    if o % 0x4000 = 0x10 then ceClear c v (plain s) else if o % 0x4000 = 0x100 then testCtl c v s else plain s
  else if o = 0x320008 then mediaClear v (plain s)
  else if o = 0x330028 then kidQuery full (plain s)
  else if 0x350100 ≤ o ∧ o < 0x350188 then ringAlloc ((o - 0x350100) / 8) full s
  else if o = 0x360020 then admitWrite v s
  else if o = 0x370050 then ledgInject full (plain s)
  else if o = 0x380020 then imgReload v s
  else if o = 0x390020 then pltReqWrite m v s
  else if o = 0x390060 then marginWrite v s
  else if o = 0x3A0028 then todSet m true full s
  else if o = 0x3A0058 then chronoGo v (plain s)
  else if o / 0x10000 = 0x3B then
    if o = 0x3B0038 then (if s.runsBus m then plain s else s)
    else if o = 0x3B0048 then (if v.testBit 31 then rxqDrop m s else s)
    else if o = 0x3B0050 then txqWrite m full (if s.runsBus m then plain s else s)
    else if o = 0x3B0058 then (if s.runsBus m then (if v.testBit 31 then txqFlush m (plain s) else plain s) else s)
    else if o = 0x3B0078 then (if v.testBit 31 then shelfKeyCommit s else s)
    else if o = 0x3B0200 then pltCmd v s
    else plain s
  else if o / 0x10000 = 0x3C then
    if o = 0x3C0008 then snapGo v s
    else if 0x3C1000 ≤ o ∧ o < 0x3C1400 then chainWrite ((o - 0x3C1000) / 8) v s
    else if 0x3C1400 ≤ o ∧ o < 0x3C1800 then
      s.modSpec (fun p => { p with wrap := tmod 0 (fun w => w - (w &&& v)) p.wrap ((o - 0x3C1400) / 8) })
    else plain s
  else if 0x3D0200 ≤ o ∧ o < 0x3D0218 then
    (if m.isAssist then (plain s).modLog (fun l => { l with put := l.put.set ((o - 0x3D0200) / 8) full }) else s)
  else if o = 0x3D0218 then (if m.isAssist then logPutWrite m full false (plain s) else s)
  else if o = 0x3E0010 then almCmd v s
  else if o / 0x10000 = 0x3F then
    if o = 0x3F0010 then lcsCmd m v s else if m = .host ∨ m = .finder then plain s else s
  else plain s

/-! ### Reads of a register -/

/-- The value of register `r` for master `m`, and the state after a read of its bits `lo` to `hi - 1` (R3, R5). -/
def regTake (m : Master) (r : RegAt) (lo hi : Nat) (s : State) : Nat × State :=
  let o := r.off
  if o = 0x3A0020 ∧ hi = 32 then (s.clk.tod, todLowRead m s)
  else if o = 0x3A0020 ∧ lo = 32 then (todHigh s m * 2 ^ 32, todHighRead m s)
  else if o = 0x3D0100 then (logWin (logWin0Read s) 0, logWin0Read s)
  else if o = 0x3D0118 then (logWin s 3, logWin3Read s)
  else if o = 0x370030 then ((s.ledgView (s.get F.LEDG_SEL_LEDGER) (s.get F.LEDG_SEL_INDEX)).1, ledgLook s)
  else if o = 0x3B0040 then rxqTake m s
  else if (o = 0x3B0038 ∨ o = 0x3B0048 ∨ o = 0x3B0050 ∨ o = 0x3B0058) ∧ !s.runsBus m then (0, s)
  else if o = 0x50038 ∧ s.dur.writing.isSome then
    let (n, s1) := takeNat s
    (plainVal r s - plainVal r s % 2 ^ 7 + n % 101, s1)
  else if o = 0x3D0018 then (s.regValue r, s.modLog (fun l => { l with drops := 0 }))
  else (s.regValue r, clearRc r lo hi s)

/-! ### Scratchpad window and MSI-X tables (00_scope.md R7; 02_host_port.md R44, R45; 03_translation.md R69) -/

/-- Bytes of the scratchpad window now mapped. -/
def State.scratchSize (s : State) : Nat := s.get F.MAPC_SCRATCH_WAYS * 2 ^ 21

/-- DESIGN CHOICE, notes/assumptions/6.md. -/
def scratchRead (off size : Nat) (s : State) : Nat := bytesNum ((List.range size).map (fun i => tgetD 0 s.xlat.scratch (off + i)))
def scratchWrite (off size v : Nat) (s : State) : State :=
  s.modXlat (fun x => { x with scratch := (List.range size).foldl (fun t i => tput 0 t (off + i) (v / 2 ^ (8 * i) % 256)) x.scratch })

/-- `size` bytes of a word, at byte `off` of what it is part of. -/
def partOf (off size w : Nat) : Nat := w / 2 ^ (8 * (off % 8)) % 2 ^ (8 * size)

/-- PRESUMED, notes/assumptions/21.md. -/
def msixRead (view off size : Nat) (s : State) : Nat := partOf off size (s.msixWord (msixKey view off))

/-- A write of a view's table; a pending vector that it unmasks is sent. PRESUMED, notes/assumptions/21.md. -/
def msixWrite (view off size v : Nat) (s : State) : State :=
  let k := msixKey view off
  let n := off / 16
  let s1 := s.modHost (fun h => { h with msix := tput (msixInit k) h.msix k (putBits (8 * (off % 8)) (8 * size) v (s.msixWord k)) })
  if (tgetD 0 s1.host.pba view).testBit n && !s1.msixMasked view n then
    msixSend view n (s1.modHost (fun h => { h with pba := tmod 0 (fun m => m - 2 ^ n) h.pba view }))
  else s1

/-- `size` bytes of a view's pending-bit array at byte `off` (R44, R45). -/
def pbaRead (view off size : Nat) (s : State) : Nat := tgetD 0 s.host.pba view / 2 ^ (8 * off) % 2 ^ (8 * size)

/-! ### The HDM decoders of a view's component registers (02_host_port.md R23, R44) -/

/-- Decoder `i` of LD `n`. -/
def State.hdm (s : State) (n i : Nat) : Hdm := (s.ld n).hdm.getD i Hdm.reset

/-- The HDM decoder registers lie as CXL 3.1 lays them out, from component offset 0x1200: capability and global control, then 32 B
for each decoder. PRESUMED, notes/assumptions/22.md. -/
def hdmBase : Nat := 0x1200

/-- Word `w` (4 B) of a decoder: base, size, control, DPA skip. PRESUMED, notes/assumptions/22.md. -/
def Hdm.word (d : Hdm) (w : Nat) : Nat :=
  match w with
  | 0 => d.base % 2 ^ 32
  | 1 => d.base / 2 ^ 32
  | 2 => d.size % 2 ^ 32
  | 3 => d.size / 2 ^ 32
  | 4 => d.gran + 16 * d.ways + (if d.committed then 2 ^ 9 + 2 ^ 10 else 0)
  | 5 => d.skip % 2 ^ 32
  | 6 => d.skip / 2 ^ 32
  | _ => 0

/-- A write of word `w`: addresses keep 28 low bits at 0; the control word takes a granularity of 256 B to 16 KiB and 1, 2, 4 or 8 ways
(R23), a reserved one apart (00_scope.md R4), and commits or uncommits; a committed decoder changes only by its control word.
PRESUMED, notes/assumptions/22.md. -/
def Hdm.put (d : Hdm) (w v : Nat) : Hdm :=
  let lo (x : Nat) : Nat := x / 2 ^ 32 * 2 ^ 32 + v % 2 ^ 32 / 2 ^ 28 * 2 ^ 28
  let hi (x : Nat) : Nat := x % 2 ^ 32 + v % 2 ^ 32 * 2 ^ 32
  if w = 4 then
    let c := v.testBit 9
    if d.committed && c then d
    else
      { d with gran := if v % 16 ≤ 6 then v % 16 else d.gran, ways := if v / 16 % 16 ≤ 3 then v / 16 % 16 else d.ways, committed := c }
  else if d.committed then d
  else match w with
    | 0 => { d with base := lo d.base }
    | 1 => { d with base := hi d.base }
    | 2 => { d with size := lo d.size }
    | 3 => { d with size := hi d.size }
    | 5 => { d with skip := lo d.skip }
    | 6 => { d with skip := hi d.skip }
    | _ => d

/-- The DPA of a host physical address under a committed decoder: the address less the base, with the interleave's other ways taken
out granule by granule, after the skip (the example of R46). PRESUMED, notes/assumptions/22.md. -/
def Hdm.dpa (d : Hdm) (hpa : Nat) : Option Nat :=
  if d.committed && decide (d.base ≤ hpa) && decide (hpa < d.base + d.size) then
    let g := 256 * 2 ^ d.gran
    let o := hpa - d.base
    some (d.skip + o / (g * 2 ^ d.ways) * g + o % g)
  else none

/-- The DPA that LD `n` gives a host physical address. -/
def State.hpaToDpa (s : State) (n hpa : Nat) : Option Nat := ((List.range 4).map (s.hdm n)).findSome? (·.dpa hpa)

/-- A 4 B word of the decoder registers: 4 decoders, no more ways than 8; global control enables them. -/
def State.hdmWord (s : State) (n w : Nat) : Nat :=
  if w = 0 then 2 + 16 + 2 ^ 8 + 2 ^ 9 else if w = 1 then 2 else if w < 4 then 0 else (s.hdm n ((w - 4) / 8)).word ((w - 4) % 8)

def hdmWrite (n w v : Nat) (s : State) : State :=
  if 4 ≤ w then modLd n (fun l => { l with hdm := l.hdm.set ((w - 4) / 8) ((s.hdm n ((w - 4) / 8)).put ((w - 4) % 8) v) }) s else s

/-- A byte offset of BAR2 lies in the decoder registers: the word of its offset. -/
def hdmAt (off : Nat) : Option Nat :=
  if 0x120000 + hdmBase ≤ off ∧ off < 0x120000 + hdmBase + 0x90 then some ((off - 0x120000 - hdmBase) / 4) else none

/-! ### Accesses by address (R5) -/

/-- A naturally aligned access of 4 or 8 bytes. DEDUCED, notes/assumptions/20.md. -/
def accessOk (off size : Nat) : Bool := (size == 4 || size == 8) && off % size == 0

/-- A 32-bit write at `off`: a whole register, a low half, which is held, or a high half. -/
def write32 (m : Master) (bar0 : Bool) (off v : Nat) (s : State) : State :=
  match findReg off with
  | some r => if r.width = 32 then regPut m bar0 r 0 v s else putHold m off v s
  | none =>
    match findReg (off - 4) with
    | some r =>
      if r.width = 64 ∧ 4 ≤ off then
        let w := highWrite s m (off - 4) v
        regPut m bar0 r w.2 w.1 (dropHold m (off - 4) s)
      else s
    | none => s

/-- A write in the registers of BAR0. DEDUCED, notes/assumptions/20.md. -/
def regWrite (m : Master) (bar0 : Bool) (off size v : Nat) (s : State) : State :=
  if size = 4 then write32 m bar0 off (v % 2 ^ 32) s
  else
    match findReg off with
    | some r =>
      if r.width = 64 then regPut m bar0 r 0 v (dropHold m off s)
      else write32 m bar0 (off + 4) (v / 2 ^ 32 % 2 ^ 32) (write32 m bar0 off (v % 2 ^ 32) s)
    | none => s

/-- A 32-bit read at `off`. -/
def read32 (m : Master) (off : Nat) (s : State) : Nat × State :=
  match findReg off with
  | some r =>
    let (v, s1) := regTake m r 0 32 s
    (v % 2 ^ 32, s1)
  | none =>
    match findReg (off - 4) with
    | some r =>
      if r.width = 64 ∧ 4 ≤ off then
        let (v, s1) := regTake m r 32 64 s
        (v / 2 ^ 32 % 2 ^ 32, s1)
      else (0, s)
    | none => (0, s)

/-- A read in the registers of BAR0. DEDUCED, notes/assumptions/20.md. -/
def regRead (m : Master) (off size : Nat) (s : State) : Nat × State :=
  if size = 4 then read32 m off s
  else
    match findReg off with
    | some r =>
      if r.width = 64 then
        let (v, s1) := regTake m r 0 64 s
        (v % 2 ^ 64, s1)
      else
        let (a, s1) := read32 m off s
        let (b, s2) := read32 m (off + 4) s1
        (a + b * 2 ^ 32, s2)
    | none => (0, s)

/-- The traffic class of a master's accesses to the scratchpad and to working memory (11_regulation_and_ledgers.md R269, R270); the
management view's take nothing. -/
def Master.cls : Master → Option Nat
  | .finder => some classFinder
  | .assistA | .assistB => some classAssist
  | _ => none

/-- An access of a class takes its 64 B. -/
def accCredit (m : Master) (dir : Nat) (s : State) : State := match m.cls with | some k => takeCredit k dir 64 s | none => s

/-- May the access go now, or does it wait for credit? -/
def State.accMay (s : State) (m : Master) (dir : Nat) : Bool := match m.cls with | some k => s.mayGo k dir 64 | none => true

/-- A BAR0 write that is not held. DEDUCED, notes/assumptions/20.md. -/
def bar0Write (m : Master) (off size v : Nat) (s : State) : State :=
  if 0x8000 ≤ off ∧ off < 0x9000 then msixWrite mgmtView (off - 0x8000) size v s
  else if 0x800000 ≤ off then (if off - 0x800000 < s.scratchSize then scratchWrite (off - 0x800000) size v (accCredit m 1 s) else s)
  else regWrite m true off size v s

/-- A BAR0 read that is not held. DEDUCED, notes/assumptions/20.md. -/
def bar0Read (m : Master) (off size : Nat) (s : State) : Nat × State :=
  if 0x8000 ≤ off ∧ off < 0x9000 then (msixRead mgmtView (off - 0x8000) size s, s)
  else if 0xC000 ≤ off ∧ off < 0xC020 then (pbaRead mgmtView (off - 0xC000) size s, s)
  else if 0x800000 ≤ off then (if off - 0x800000 < s.scratchSize then (scratchRead (off - 0x800000) size s, accCredit m 0 s) else (0, s))
  else regRead m off size s

/-! ### Accesses held on a stopped clock (14_clocks_and_crossings.md R350, R351) -/

/-- The number that stands for the map-cache slices beside the domains of CLK_STATUS. -/
def domSlices : Nat := 44

/-- The number that stands for an access that waits for the credit of its class (11_regulation_and_ledgers.md R271). -/
def domCredit : Nat := 45

/-- The domain whose stopped clock holds an access of a master at `off`, or the wait for its credit. -/
def State.heldOn (s : State) (m : Master) (dir off : Nat) : Option Nat :=
  if 0x100000 ≤ off ∧ off < 0x300000 then
    let n := (off - 0x100000) / 0x10000
    let w := off % 0x10000
    let st := s.get (F.MCH_STATUS_STATE n)
    if ((0x30 ≤ w ∧ w < 0x38) ∨ (0x80 ≤ w ∧ w < 0xC0)) ∧ (st = 0 ∨ st = 8) then some n else none
  else if 0x310000 ≤ off ∧ off < 0x320000 then
    let c := (off - 0x310000) / 0x4000
    let w := off % 0x4000
    if 0x100 ≤ w ∧ w < 0x210 ∧ !s.clkRuns (34 + c) then some (34 + c) else none
  else if 0x800000 ≤ off ∧ off - 0x800000 < s.scratchSize then
    if s.glb.mode = .parked then some domSlices else if s.accMay m dir then none else some domCredit
  else none

/-- An access to a register of a sleeping channel wakes it. -/
def mchWake (off : Nat) (s : State) : State :=
  if 0x100000 ≤ off ∧ off < 0x300000 then wakeCh ((off - 0x100000) / 0x10000) s else s

/-- An access waits for its domain. DESIGN CHOICE, notes/assumptions/61.md. -/
def holdAccess (a : HeldAccess) (s : State) : State := s.modClk (fun c => { c with held := c.held ++ [a] })

/-- The data of a read reaches its master: the finder keeps it for its next capture. -/
def readDone (m : Master) (off v : Nat) (s : State) : State :=
  if m = .finder then s.modFind (fun f => { f with data := v, status := 0 }) else emit (.regData m off (BitVec.ofNat 64 v)) s

/-! ### Working memory under the finder (17_almanac_life_cycle_finder.md R408; 08_working_memory.md R196, R207) -/

/-- A finder access of `size` bytes at byte address `a`, whose line decodes as `out`. DESIGN CHOICE, notes/assumptions/48.md. -/
def wmFinder (a size : Nat) (wr : Option Nat) (out : WmOut) (s : State) : State :=
  let done (st v : Nat) (t : State) : State := t.modFind (fun f => { f with status := st, data := v })
  match wr with
  | some v =>
    let s0 := accCredit .finder 1 s
    done 0 0 (if s0.wmStruct a then structWrite a size v s0 else wmWriteBytes a size v s0)
  | none =>
    let s1 := wmRead (a / 64) (accCredit .finder 0 s)
    let (ok, s2) := wmDecode (a / 64) out s1
    if !ok then done 2 0 s2
    else if s.wmStruct a then
      let bytes := (List.range size).map (fun i => s1.structByte (a + i))
      if bytes.all Option.isSome then done 0 (leNum (bytes.map (·.getD 0))) s2
      else
        let (n, s3) := takeNat s2
        done 0 (n % 2 ^ (8 * size)) s3
    else done 0 (s1.memWord (a / 8) / 2 ^ (8 * (a % 8)) % 2 ^ (8 * size)) s2

/-- A held access completes. One from 2^63 upwards is a finder access to working memory. -/
def heldGo (a : HeldAccess) (s : State) : State :=
  if 2 ^ 63 ≤ a.off then wmFinder (a.off - 2 ^ 63) a.size a.wr .clean s
  else match a.wr with
  | some v => (bar0Write a.master a.off a.size v s).modFind (fun f => if a.master = .finder then { f with status := 0 } else f)
  | none =>
    let (v, s1) := bar0Read a.master a.off a.size s
    readDone a.master a.off v s1

/-- A clock has restarted: the accesses held for its domain complete in their order, and with them those whose credit is there. DESIGN CHOICE, notes/assumptions/46.md. -/
def heldRelease (d : Nat) (s : State) : State :=
  let runs := if d = domSlices then decide (s.glb.mode ≠ .parked) && s.coreOn else s.clkRuns d
  let go (a : HeldAccess) : Bool := (runs && a.dom == d) || (a.dom == domCredit && s.accMay a.master (if a.wr.isSome then 1 else 0))
  seqAll heldGo (s.clk.held.filter go) (s.modClk (fun c => { c with held := c.held.filter (fun a => !go a) }))

def execHeldAccessRelease (dom : Fin 45) (s : State) : Host.Outcome State Fault Refusal := .next (domeAfter (heldRelease dom.val s))

/-- R350: the finder ends every held access. -/
def heldAbort (s : State) : State :=
  if s.clk.held == [] then s
  else
    let end_ (a : HeldAccess) (t : State) : State :=
      if a.master = .finder then t.modFind (fun f => { f with status := 4, data := 0 })
      else if a.wr.isNone || a.master != .host then emit (.accessAbort a.master a.off) t
      else t
    setErr F.CLK_ERR_STATUS_ABORTED intClk (seqAll end_ s.clk.held (s.modClk (fun c => { c with held := [] })))

/-! ### The access of a master -/

/-- A BAR0 write of a master: discarded where R5 admits none, held on a stopped clock. -/
def busWrite (m : Master) (off size v : Nat) (s : State) : State :=
  if !s.coreOn || !accessOk off size then s
  else
    match s.heldOn m 1 off with
    | some d => holdAccess ⟨m, d, off, size, some v⟩ s
    | none => domeAfter (bar0Write m off size v (mchWake off s))

/-- A BAR0 read of a master. -/
def busRead (m : Master) (off size : Nat) (s : State) : State :=
  if !s.coreOn then s
  else if !accessOk off size then readDone m off 0 s
  else
    match s.heldOn m 0 off with
    | some d => holdAccess ⟨m, d, off, size, none⟩ s
    | none =>
      let (v, s1) := bar0Read m off size (mchWake off s)
      readDone m off v s1

/-! ### BAR2 of a view (02_host_port.md R44; 16_spectrograph_and_logbook.md R379) -/

/-- The pair whose slot lies at BAR2 offset `off` of owner `n`. DESIGN CHOICE, notes/assumptions/22.md. -/
def State.localPair (s : State) (n off : Nat) : Option Nat :=
  if off / 64 < s.get (F.RING_LD_ALLOC_COUNT n) then some (s.get (F.RING_LD_ALLOC_FIRST n) + off / 64) else none

/-- The word of the counter view page at `off`. DESIGN CHOICE, notes/assumptions/22.md. -/
def State.countPage (s : State) (n off : Nat) : Nat :=
  if off = 0 then s.spec.seq % 2 ^ 32
  else if off = 8 then s.spec.time
  else if 0x40 ≤ off ∧ off < 0x140 then s.spec.published.word (bLD n * 32 + (off - 0x40) / 8)
  else 0

/-- DESIGN CHOICE, notes/assumptions/22.md. -/
def bar2Write (n off size v : Nat) (s : State) : State :=
  if off < 0x100000 then
    match s.localPair n off with
    | some q => regWrite .host false (slotOff q (off % 64)) size v s
    | none => s
  else if 0x110000 ≤ off ∧ off < 0x110800 then msixWrite n (off - 0x110000) size v s
  else match hdmAt off with
    | some w => if size = 4 then hdmWrite n w (v % 2 ^ 32) s else hdmWrite n (w + 1) (v / 2 ^ 32 % 2 ^ 32) (hdmWrite n w (v % 2 ^ 32) s)
    | none => s

/-- The CXL component and device registers other than the HDM decoders hold what their own specification gives them: they read free.
DESIGN CHOICE, notes/assumptions/22.md. -/
def bar2Read (n off size : Nat) (s : State) : Nat × State :=
  if off < 0x100000 then
    match s.localPair n off with
    | some q => regRead .host (slotOff q (off % 64)) size s
    | none => (0, s)
  else if off < 0x110000 then
    (if n < 16 ∧ (s.get F.SPEC_LD_VIEW).testBit n then
      s.countPage n ((off - 0x100000) / 8 * 8) / 2 ^ (8 * (off % 8)) % 2 ^ (8 * size) else 0, s)
  else if off < 0x110800 then (msixRead n (off - 0x110000) size s, s)
  else if 0x118000 ≤ off ∧ off < 0x118010 then (pbaRead n (off - 0x118000) size s % 2 ^ 128, s)
  else if let some w := hdmAt off then
    (if size = 4 then s.hdmWord n w else s.hdmWord n w + s.hdmWord n (w + 1) * 2 ^ 32, s)
  else if 0x120000 ≤ off ∧ off < 0x140000 then
    let (v, s1) := takeNat s
    (v % 2 ^ (8 * size), s1)
  else (0, s)

/-! ### The rows -/

/-- A write: `view` none is BAR0, some n BAR2 of LD n (16 the FM-owned LD). -/
def execRegisterWrite (m : Master) (view : Option (Fin 17)) (off size : Nat) (v : Word) (s : State) : Host.Outcome State Fault Refusal :=
  .next (match view with
    | none => busWrite m off size v.toNat s
    | some n => if s.coreOn && accessOk off size then domeAfter (bar2Write n.val off size v.toNat s) else s)

/-- A read; RC fields that it covers clear. -/
def execRcFieldRead (m : Master) (view : Option (Fin 17)) (off size : Nat) (s : State) : Host.Outcome State Fault Refusal :=
  .next (match view with
    | none => busRead m off size s
    | some n =>
      if !s.coreOn then s
      else if !accessOk off size then readDone m off 0 s
      else
        let (v, s1) := bar2Read n.val off size s
        readDone m off v s1)

end Sys2Proof.Machine
end

