-- ==== Sys2Proof/Machine/Finder.lean ====
section
/-! DEFINITION. The finder port: the TAP, the boundary register, core debug, the system bus (17_almanac_life_cycle_finder.md
R404 to R408; 18_start_up.md R411). Each row is one scan: what it shifts out is what Capture-DR holds before the row's
Update-DR. -/

namespace Sys2Proof.Machine

/-! ### The TAP (R404, R405) -/

/-- The TAP answers while the part has power. -/
def State.tapOn (s : State) : Bool := s.glb.mode != .off

/-- Is an instruction of the debug engines available (R404)? In SERVICE the unlock's SCOPE must cover it. DEDUCED, notes/assumptions/60.md. -/
def State.debugOn (s : State) (ir : Nat) : Bool :=
  let scope := s.get F.LCS_FINDER_SCOPE
  s.on F.LCS_FINDER_ENABLED && (if ir ≤ 0x22 then scope.testBit 0 else scope.testBit 1 || scope.testBit 2)

/-- EXTEST, CLAMP and HIGHZ take effect only with PERST# asserted in STANDBY or FAULT-HALT (R405). -/
def State.driveOn (s : State) : Bool := s.glb.perst && (decide (s.glb.mode = .standby) || decide (s.glb.mode = .faultHalt))

/-- DEDUCED, notes/assumptions/60.md. -/
def loadIr (ir : Nat) (s : State) : State := s.modFind (fun f => { f with ir := ir })

/-- The 1-bit bypass register captures 0. DEDUCED, notes/assumptions/60.md. -/
def bypassScan (s : State) : State := emit (.tdo 1 0) s

/-- An instruction that is not available acts as BYPASS and sets DENIED. -/
def tapDenied (ir : Nat) (s : State) : State := bypassScan (setF F.LCS_FINDER_DENIED 1 (loadIr ir s))

/-- Instructions that R404 lists and that are always available. -/
def irPublic : List Nat := [1, 2, 0x10, 0x11]
def irDrive : List Nat := [0, 3, 4]
def irDebug : List Nat := [0x20, 0x21, 0x22, 0x30, 0x31]

/-- An instruction of the debug engines: `f` where it is available. DEDUCED, notes/assumptions/60.md. -/
def debugScan (ir : Nat) (f : State → State) (s : State) : State :=
  if !s.tapOn then s else if s.debugOn ir then f (loadIr ir s) else tapDenied ir s

/-- An instruction under R405. -/
def driveScan (ir drive : Nat) (f : State → State) (s : State) : State :=
  if !s.tapOn then s
  else if s.driveOn then f ((loadIr ir s).modFind (fun x => { x with drive := drive }))
  else tapDenied ir s

def execTapReset (s : State) : Host.Outcome State Fault Refusal := .next (loadIr 2 s)

def execTapIdcode (s : State) : Host.Outcome State Fault Refusal := .next (if s.tapOn then emit (.tdo 32 0x17240793) (loadIr 2 s) else s)

/-- The row carries BYPASS, an instruction that is not listed, or one that is not available now. -/
def execTapBypass (ir : BitVec 8) (s : State) : Host.Outcome State Fault Refusal :=
  .next (let i := ir.toNat
    if !s.tapOn || irPublic.contains i then s
    else if irDrive.contains i then (if s.driveOn then s else tapDenied i s)
    else if irDebug.contains i then (if s.debugOn i then s else tapDenied i s)
    else bypassScan (loadIr i s))

/-- The boundary register's length is that of the BSDL file: the row's numbers stand for its cells. -/
def execTapSamplePreload (pins bits : Nat) (s : State) : Host.Outcome State Fault Refusal :=
  .next (if s.tapOn then (emit (.tdo 0 pins) (loadIr 1 s)).modFind (fun f => { f with boundary := bits }) else s)

/-- EXTEST captures pin levels that come from outside the part. -/
def execTapExtest (bits : Nat) (s : State) : Host.Outcome State Fault Refusal :=
  .next (driveScan 0 1 (fun t =>
    let (n, t1) := takeNat t
    (emit (.tdo 0 n) t1).modFind (fun f => { f with boundary := bits })) s)

def execTapClamp (s : State) : Host.Outcome State Fault Refusal := .next (driveScan 3 2 bypassScan s)
def execTapHighz (s : State) : Host.Outcome State Fault Refusal := .next (driveScan 4 3 bypassScan s)

def execLcStatus (s : State) : Host.Outcome State Fault Refusal :=
  .next (if s.tapOn then
    let word (off : Nat) : Nat := match findReg off with | some r => plainVal r s | none => 0
    emit (.tdo 128 (word 0x3F0008 * 2 ^ 64 + word 0x3F0000 * 2 ^ 32 + word 0x3F0020)) (loadIr 0x10 s)
  else s)

/-- GO submits the token as LCS_CMD with OP UNLOCK. What the data register captures is not given. -/
def execFinderUnlock (token : List Byte) (go : Bool) (s : State) : Host.Outcome State Fault Refusal :=
  .next (if s.tapOn then
    let (n, s1) := takeNat (loadIr 0x11 s)
    let s2 := tokenPut (token.map (·.toNat)) (emit (.tdo 2049 (n % 2 ^ 2049)) s1)
    if go && s.coreOn then domeAfter (lcsGo .finder lcOpUnlock 0 0 (setF F.LCS_CMD_OP lcOpUnlock s2)) else s2
  else s)

/-! ### Core debug (R406) -/

/-- Change a core. -/
def modCore (k : Nat) (g : CoreSt → CoreSt) (s : State) : State :=
  s.modFind (fun f => if k = 0 then { f with coreA := g f.coreA } else { f with coreB := g f.coreB })

/-- CORE_CTL captures the core that it last named: HALTED, CAUSE, PC. Bits 39 to 36, and the PC of a core that runs, are not given. -/
def coreCapture (s : State) : State :=
  let c := s.find.core s.find.ctlCore
  let (n, s1) := takeNat s
  let pc := if c.halted then c.pc else n / 16 % 2 ^ 32
  emit (.tdo 40 (n % 16 * 2 ^ 36 + (if c.halted then 2 ^ 35 + c.cause % 8 * 2 ^ 32 else 0) + pc)) s1

/-- DEDUCED, notes/assumptions/60.md. -/
def coreScan (k : Nat) (g : CoreSt → CoreSt) (s : State) : State :=
  debugScan 0x20 (fun t => modCore k g ((coreCapture t).modFind (fun f => { f with ctlCore := k }))) s

/-- A core halts at `pc`; what its registers and its memory hold then is its program's doing. DESIGN CHOICE, notes/assumptions/61.md. -/
def CoreSt.halt (c : CoreSt) (cause pc : Nat) : CoreSt := { c with halted := true, cause := cause, pc := pc, regs := [], mem := [] }

def execCoreHalt (core : Fin 2) (pc : BitVec 32) (s : State) : Host.Outcome State Fault Refusal :=
  .next (coreScan core.val (fun c => if c.halted then c else c.halt 1 pc.toNat) s)

def execCoreResume (core : Fin 2) (s : State) : Host.Outcome State Fault Refusal :=
  .next (coreScan core.val (fun c => { c with halted := false, cause := 0, pc := 0, regs := [], mem := [] }) s)

/-- STEP of a halted core executes one instruction and halts again. -/
def execCoreStep (core : Fin 2) (pc : BitVec 32) (s : State) : Host.Outcome State Fault Refusal :=
  .next (coreScan core.val (fun c => if c.halted then c.halt 4 pc.toNat else c) s)

/-- Register `r` of a halted core: x0 reads 0; one that neither its program's halt nor the finder has fixed reads a free value,
which it then keeps. -/
def coreRegRead (k r : Nat) (s : State) : Nat × State :=
  let c := s.find.core k
  if r = 32 then (c.pc, s)
  else if r = 0 ∨ 32 < r then (0, s)
  else
    match tget c.regs r with
    | some v => (v, s)
    | none =>
      let (n, s1) := takeNat s
      (n % 2 ^ 32, modCore k (fun c => { c with regs := tset c.regs r (n % 2 ^ 32) }) s1)

/-- DESIGN CHOICE, notes/assumptions/61.md. -/
def coreRegWrite (k r v : Nat) (s : State) : State :=
  if r = 32 then modCore k (fun c => { c with pc := v }) s
  else if r = 0 ∨ 32 < r then s
  else modCore k (fun c => { c with regs := tset c.regs r v }) s

/-- One access of CORE_REG; what it reads is captured by the next scan. DESIGN CHOICE, notes/assumptions/61.md. -/
def coreReg (dr : Nat) (s : State) : State :=
  let k := dr / 2 ^ 71 % 2
  let r := dr / 2 ^ 64 % 64
  let s1 := emit (.tdo 72 s.find.regRead) s
  let keep (v : Nat) (t : State) : State := t.modFind (fun f => { f with regRead := v })
  if !(s.find.core k).halted then keep 0 s1
  else if dr.testBit 70 then keep 0 (coreRegWrite k r (dr % 2 ^ 32) s1)
  else
    let (v, s2) := coreRegRead k r s1
    keep v s2

def execCoreReg (dr : BitVec 72) (s : State) : Host.Outcome State Fault Refusal := .next (debugScan 0x21 (coreReg dr.toNat) s)

/-- CORE_BP: breakpoints 0 to 3 of KIND 0 or 1, watchpoints 4 and 5 with MASK_LOG2 up to 12; other values are ignored. What the
register captures is not given. -/
def coreBp (dr : Nat) (s : State) : State :=
  let i := dr / 2 ^ 68 % 8
  let kind := dr / 2 ^ 66 % 4
  let mask := dr / 2 ^ 62 % 16
  let (n, s1) := takeNat s
  let s2 := emit (.tdo 72 (n % 2 ^ 72)) s1
  if (i ≤ 3 ∧ kind ≤ 1) ∨ ((i = 4 ∨ i = 5) ∧ mask ≤ 12) then
    modCore (dr / 2 ^ 71 % 2) (fun c => { c with bps := tset c.bps i (kind, mask, dr % 2 ^ 32) }) s2
  else s2

def execCoreBp (dr : BitVec 72) (s : State) : Host.Outcome State Fault Refusal := .next (debugScan 0x22 (coreBp dr.toNat) s)

/-- Is a breakpoint at `pc`, or any watchpoint, on? DESIGN CHOICE, notes/assumptions/61.md. -/
def CoreSt.armed (c : CoreSt) (watch : Bool) (pc : Nat) : Bool :=
  c.bps.any (fun b => decide (b.2.1 ≠ 0) &&
    if watch then decide (4 ≤ b.1) else decide (b.1 ≤ 3) && decide (b.2.2.2 = pc))

def execBreakpointHit (core : Fin 2) (watch : Bool) (pc : BitVec 32) (s : State) : Host.Outcome State Fault Refusal :=
  .next (modCore core.val (fun c =>
    if !c.halted && c.armed watch pc.toNat then c.halt (if watch then 3 else 2) pc.toNat else c) s)

/-! ### The system bus (R408) -/

/-- A byte of a core's memory: one that is not known reads a free value, kept while the core is halted. DESIGN CHOICE, notes/assumptions/61.md. -/
def coreByte (k a : Nat) (s : State) : Nat × State :=
  match tget (s.find.core k).mem a with
  | some v => (v, s)
  | none =>
    let (n, s1) := takeNat s
    (n % 256, if (s.find.core k).halted then modCore k (fun c => { c with mem := tset c.mem a (n % 256) }) s1 else s1)

/-- An access to an assistant's memory of 1 MiB. DESIGN CHOICE, notes/assumptions/61.md. -/
def coreMem (k a size : Nat) (wr : Option Nat) (s : State) : State :=
  let done (st v : Nat) (t : State) : State := t.modFind (fun f => { f with status := st, data := v })
  if 2 ^ 20 ≤ a then done 2 0 s
  else
    match wr with
    | some v =>
      done 0 0 (modCore k (fun c => if c.halted then
        { c with mem := (List.range size).foldl (fun t i => tset t (a + i) (v / 2 ^ (8 * i) % 256)) c.mem } else c) s)
    | none =>
      let r := (List.range size).foldl (fun (p : Nat × State) i =>
        let (b, t) := coreByte k (a + i) p.2
        (p.1 + b * 2 ^ (8 * i), t)) (0, s)
      done 0 r.1 r.2

/-- The accesses by space. DEDUCED, notes/assumptions/60.md. -/
def sysAccess (space a size : Nat) (wr : Option Nat) (out : WmOut) (s : State) : State :=
  let done (st v : Nat) (t : State) : State := t.modFind (fun f => { f with status := st, data := v })
  let scope := s.get F.LCS_FINDER_SCOPE
  if 4 < space ∨ a % size ≠ 0 then done 2 0 s
  else if !scope.testBit (if space = 0 then 2 else 1) then done 5 0 s
  else if space = 0 then
    if s.get F.WMEM_CFG_TOTAL_GIB * 2 ^ 30 ≤ a + 16384 then done 2 0 s
    else if !s.clkRuns (34 + wmChan a) then (holdAccess ⟨.finder, 34 + wmChan a, a + 2 ^ 63, size, wr⟩ s).modFind (fun f => { f with status := 3, data := 0 })
    else if !s.accMay .finder (if wr.isSome then 1 else 0) then
      (holdAccess ⟨.finder, domCredit, a + 2 ^ 63, size, wr⟩ s).modFind (fun f => { f with status := 1, data := 0 })
    else wmFinder a size wr out s
  else if space = 1 then
    match s.heldOn .finder (if wr.isSome then 1 else 0) a with
    | some d => (holdAccess ⟨.finder, d, a, size, wr⟩ s).modFind (fun f => { f with status := if d = domCredit then 1 else 3, data := 0 })
    | none =>
      match wr with
      | some v => domeAfter (done 0 0 (bar0Write .finder a size v (mchWake a s)))
      | none =>
        let (v, s1) := bar0Read .finder a size (mchWake a s)
        done 0 v s1
  else if space = 4 then
    if wr.isSome ∨ 2 ^ 18 ≤ a then done 2 0 s
    else
      almEnqueue ⟨.finder, false, a, size, [], 0⟩ (done 1 0 s)
  else coreMem (space - 2) a size wr s

/-- One scan of SYSBUS: status and data of the previous access come out; the new access starts, or is ignored while one is held.
DEDUCED, notes/assumptions/60.md. -/
def sysScan (dr : Nat) (wr : Bool) (out : WmOut) (s : State) : State :=
  let s1 := emit (.tdo 134 (s.find.data % 2 ^ 64 * 8 + s.find.status)) s
  if s.clk.held.any (fun a => decide (a.master = .finder)) || (s.alm.queue ++ s.alm.waiting).any (fun j => j.src == .finder) then s1.modFind (fun f => { f with status := 1 })
  else
    let size := if dr.testBit 131 then 8 else 4
    let v := dr / 8 % 2 ^ (8 * size)
    sysAccess (dr / 2 ^ 127 % 16) (dr / 2 ^ 67 % 2 ^ 60) size (if wr then some v else none) out s1

def execSysbusRead (dr : BitVec 134) (out : WmOut) (s : State) : Host.Outcome State Fault Refusal :=
  .next (debugScan 0x30 (sysScan dr.toNat false out) s)

def execSysbusWrite (dr : BitVec 134) (s : State) : Host.Outcome State Fault Refusal :=
  .next (debugScan 0x30 (sysScan dr.toNat true .clean) s)

def execBusAbort (bit0 : Bool) (s : State) : Host.Outcome State Fault Refusal :=
  .next (debugScan 0x31 (fun t => (fun u => if bit0 then heldAbort u else u) (bypassScan t)) s)

end Sys2Proof.Machine
end

