-- ==== Sys2Proof/Machine/KeyRows.lean ====
section
/-! DEFINITION. The KEY ring commands (09_cipher_and_meridian.md R222 to R226; 10_transit_rings.md R260). -/

namespace Sys2Proof.Machine

/-- A KEY command with operation `op` at the device's hands. -/
def keyRow (op : Nat) (pair : Fin 16384) (cid : BitVec 16) (s : State) : Host.Outcome State Fault Refusal :=
  .next (after (cmdStep pair.val cid.toNat 9 (ringKey op) s))

def execKeyIssue (pair : Fin 16384) (cid : BitVec 16) (s : State) : Host.Outcome State Fault Refusal := keyRow 1 pair cid s
def execKeySetCurrent (pair : Fin 16384) (cid : BitVec 16) (s : State) : Host.Outcome State Fault Refusal := keyRow 2 pair cid s
def execKeyClearCurrent (pair : Fin 16384) (cid : BitVec 16) (s : State) : Host.Outcome State Fault Refusal := keyRow 3 pair cid s
def execKeyRetire (pair : Fin 16384) (cid : BitVec 16) (s : State) : Host.Outcome State Fault Refusal := keyRow 4 pair cid s
def execKeyDestroy (pair : Fin 16384) (cid : BitVec 16) (s : State) : Host.Outcome State Fault Refusal := keyRow 5 pair cid s
def execKeyQuery (pair : Fin 16384) (cid : BitVec 16) (s : State) : Host.Outcome State Fault Refusal := keyRow 6 pair cid s

end Sys2Proof.Machine
end

