-- ==== Sys2Proof/Machine/Dispatch.lean ====
section
/-! DEFINITION. The dispatch: one arm for each command, each one direct call of its meaning. -/

namespace Sys2Proof.Machine

/-- The effect of a command on everything but the queue. -/
def exec (i : Instr) (s : State) : Host.Outcome State Fault Refusal :=
  match i with
  | .registerWrite m view off size v => Sys2Proof.Machine.execRegisterWrite m view off size v s
  | .rcFieldRead m view off size => Sys2Proof.Machine.execRcFieldRead m view off size s
  | .intMaskWrite m v => Sys2Proof.Machine.execIntMaskWrite m v s
  | .modeTargetActive m => Sys2Proof.Machine.execModeTargetActive m s
  | .modeTargetQuiet m => Sys2Proof.Machine.execModeTargetQuiet m s
  | .modeTargetParked m => Sys2Proof.Machine.execModeTargetParked m s
  | .modeTargetStandby m => Sys2Proof.Machine.execModeTargetStandby m s
  | .modeTransitionDone => Sys2Proof.Machine.execModeTransitionDone s
  | .pmeToAck => Sys2Proof.Machine.execPmeToAck s
  | .powerOn straps => Sys2Proof.Machine.execPowerOn straps s
  | .perstAssert => Sys2Proof.Machine.execPerstAssert s
  | .perstRelease straps wipeUs wipeFail => Sys2Proof.Machine.execPerstRelease straps wipeUs wipeFail s
  | .imageLoaded unread xspi0 xspi1 ms => Sys2Proof.Machine.execImageLoaded unread xspi0 xspi1 ms s
  | .ddrTrainingDone chans fromRec => Sys2Proof.Machine.execDdrTrainingDone chans fromRec s
  | .replay out0 out1 bad badHdr vaultOk us => Sys2Proof.Machine.execReplay out0 out1 bad badHdr vaultOk us s
  | .cxlMemReady => Sys2Proof.Machine.execCxlMemReady s
  | .memRead port ld tag dpa => Sys2Proof.Machine.execMemRead port ld tag dpa s
  | .memWrite port ld tag dpa mask data poison => Sys2Proof.Machine.execMemWrite port ld tag dpa mask data poison s
  | .ingressRelease => Sys2Proof.Machine.execIngressRelease s
  | .creditReturn port ndr drs => Sys2Proof.Machine.execCreditReturn port ndr drs s
  | .linkDown port => Sys2Proof.Machine.execLinkDown port s
  | .linkUp port speed width mem ndr drs => Sys2Proof.Machine.execLinkUp port speed width mem ndr drs s
  | .aspmL1Exit port => Sys2Proof.Machine.execAspmL1Exit port s
  | .ldReset n kind => Sys2Proof.Machine.execLdReset n kind s
  | .ideMacFail port => Sys2Proof.Machine.execIdeMacFail port s
  | .ideKeySetup port => Sys2Proof.Machine.execIdeKeySetup port s
  | .gpfPhase1 port => Sys2Proof.Machine.execGpfPhase1 port s
  | .gpfPhase2 port => Sys2Proof.Machine.execGpfPhase2 port s
  | .mailboxUnsupported view opcode => Sys2Proof.Machine.execMailboxUnsupported view opcode s
  | .identify view => Sys2Proof.Machine.execIdentify view s
  | .backgroundOperationStatus view => Sys2Proof.Machine.execBackgroundOperationStatus view s
  | .getResponseMessageLimit view => Sys2Proof.Machine.execGetResponseMessageLimit view s
  | .getEventRecords view log => Sys2Proof.Machine.execGetEventRecords view log s
  | .clearEventRecords view log all n => Sys2Proof.Machine.execClearEventRecords view log all n s
  | .getEventInterruptPolicy view => Sys2Proof.Machine.execGetEventInterruptPolicy view s
  | .setEventInterruptPolicy view policy => Sys2Proof.Machine.execSetEventInterruptPolicy view policy s
  | .getFwInfo view => Sys2Proof.Machine.execGetFwInfo view s
  | .transferFw view slot image => Sys2Proof.Machine.execTransferFw view slot image s
  | .activateFwNextReset view slot => Sys2Proof.Machine.execActivateFwNextReset view slot s
  | .activateFwOnline view slot => Sys2Proof.Machine.execActivateFwOnline view slot s
  | .getTimestamp view => Sys2Proof.Machine.execGetTimestamp view s
  | .setTimestamp view t => Sys2Proof.Machine.execSetTimestamp view t s
  | .getSupportedLogs view => Sys2Proof.Machine.execGetSupportedLogs view s
  | .getLog view log => Sys2Proof.Machine.execGetLog view log s
  | .identifyMemoryDevice view => Sys2Proof.Machine.execIdentifyMemoryDevice view s
  | .getPartitionInfo view => Sys2Proof.Machine.execGetPartitionInfo view s
  | .getLsa view off len => Sys2Proof.Machine.execGetLsa view off len s
  | .setLsa view off data => Sys2Proof.Machine.execSetLsa view off data s
  | .getHealthInfo view => Sys2Proof.Machine.execGetHealthInfo view s
  | .getAlertConfiguration view => Sys2Proof.Machine.execGetAlertConfiguration view s
  | .setAlertConfiguration view life temp => Sys2Proof.Machine.execSetAlertConfiguration view life temp s
  | .getShutdownState view => Sys2Proof.Machine.execGetShutdownState view s
  | .setShutdownState view dirty => Sys2Proof.Machine.execSetShutdownState view dirty s
  | .getPoisonList view dpa len => Sys2Proof.Machine.execGetPoisonList view dpa len s
  | .injectPoison view dpa => Sys2Proof.Machine.execInjectPoison view dpa s
  | .clearPoison view dpa data => Sys2Proof.Machine.execClearPoison view dpa data s
  | .getScanMediaCapabilities view dpa len => Sys2Proof.Machine.execGetScanMediaCapabilities view dpa len s
  | .scanMedia view dpa len leaves => Sys2Proof.Machine.execScanMedia view dpa len leaves s
  | .getScanMediaResults view => Sys2Proof.Machine.execGetScanMediaResults view s
  | .sanitize view => Sys2Proof.Machine.execSanitize view s
  | .secureErase view => Sys2Proof.Machine.execSecureErase view s
  | .getDynamicCapacityConfiguration view => Sys2Proof.Machine.execGetDynamicCapacityConfiguration view s
  | .getDynamicCapacityExtentList view => Sys2Proof.Machine.execGetDynamicCapacityExtentList view s
  | .addDynamicCapacityResponse view extents => Sys2Proof.Machine.execAddDynamicCapacityResponse view extents s
  | .releaseDynamicCapacity view extents => Sys2Proof.Machine.execReleaseDynamicCapacity view extents s
  | .getLdInfo view => Sys2Proof.Machine.execGetLdInfo view s
  | .getLdAllocations view => Sys2Proof.Machine.execGetLdAllocations view s
  | .setLdAllocations view alloc => Sys2Proof.Machine.execSetLdAllocations view alloc s
  | .arrayMoveDone => Sys2Proof.Machine.execArrayMoveDone s
  | .getQosControl view => Sys2Proof.Machine.execGetQosControl view s
  | .ivhildGetPlateMap view => Sys2Proof.Machine.execIvhildGetPlateMap view s
  | .ivhildGetFieldSummary view => Sys2Proof.Machine.execIvhildGetFieldSummary view s
  | .mapFillReturn bank sector out ctr => Sys2Proof.Machine.execMapFillReturn bank sector out ctr s
  | .mapWritebackDone way => Sys2Proof.Machine.execMapWritebackDone way s
  | .mapcWb m v => Sys2Proof.Machine.execMapcWb m v s
  | .mapcInv m v => Sys2Proof.Machine.execMapcInv m v s
  | .mapcInvAll m v => Sys2Proof.Machine.execMapcInvAll m v s
  | .mapcMaintDone => Sys2Proof.Machine.execMapcMaintDone s
  | .mapcDisable m v => Sys2Proof.Machine.execMapcDisable m v s
  | .mapcDrainDone => Sys2Proof.Machine.execMapcDrainDone s
  | .mapcEnable m v => Sys2Proof.Machine.execMapcEnable m v s
  | .scratchConvert m v => Sys2Proof.Machine.execScratchConvert m v s
  | .scratchConvertDone => Sys2Proof.Machine.execScratchConvertDone s
  | .xlatProbe m v => Sys2Proof.Machine.execXlatProbe m v s
  | .probeResult => Sys2Proof.Machine.execProbeResult s
  | .sectorRebuildDone bad0 bad1 => Sys2Proof.Machine.execSectorRebuildDone bad0 bad1 s
  | .gatherTimeout => Sys2Proof.Machine.execGatherTimeout s
  | .gatherMerge => Sys2Proof.Machine.execGatherMerge s
  | .mergeMediaReadDone tok leaves => Sys2Proof.Machine.execMergeMediaReadDone tok leaves s
  | .stagingPlace g => Sys2Proof.Machine.execStagingPlace g s
  | .runHoldExpiry => Sys2Proof.Machine.execRunHoldExpiry s
  | .fillerTimeout set => Sys2Proof.Machine.execFillerTimeout set s
  | .fabRead c d p f r mask offs => Sys2Proof.Machine.execFabRead c d p f r mask offs s
  | .fabReadLatch c d p mask => Sys2Proof.Machine.execFabReadLatch c d p mask s
  | .fabReadStar c d p f r level sweep => Sys2Proof.Machine.execFabReadStar c d p f r level sweep s
  | .fabProgram c d mode1 rows => Sys2Proof.Machine.execFabProgram c d mode1 rows s
  | .fabErase c d mode1 rows => Sys2Proof.Machine.execFabErase c d mode1 rows s
  | .fabSuspend c d => Sys2Proof.Machine.execFabSuspend c d s
  | .fabResume c d => Sys2Proof.Machine.execFabResume c d s
  | .fabIdent c d => Sys2Proof.Machine.execFabIdent c d s
  | .fabResetDie c d => Sys2Proof.Machine.execFabResetDie c d s
  | .fabTrain c step => Sys2Proof.Machine.execFabTrain c step s
  | .readComplete plane outs ns => Sys2Proof.Machine.execReadComplete plane outs ns s
  | .readStarComplete plane refused e14 e15 => Sys2Proof.Machine.execReadStarComplete plane refused e14 e15 s
  | .rebuildComplete id crcOk ns => Sys2Proof.Machine.execRebuildComplete id crcOk ns s
  | .programComplete c d fails => Sys2Proof.Machine.execProgramComplete c d fails s
  | .eraseComplete c d fails => Sys2Proof.Machine.execEraseComplete c d fails s
  | .suspendDone c d => Sys2Proof.Machine.execSuspendDone c d s
  | .suspendWindowEnd c d => Sys2Proof.Machine.execSuspendWindowEnd c d s
  | .progressSliceEnd c d => Sys2Proof.Machine.execProgressSliceEnd c d s
  | .dieCmdDone c d op ok => Sys2Proof.Machine.execDieCmdDone c d op ok s
  | .fabricTimeout c d plane ns => Sys2Proof.Machine.execFabricTimeout c d plane ns s
  | .dieLost c d => Sys2Proof.Machine.execDieLost c d s
  | .trainingDone c present pass => Sys2Proof.Machine.execTrainingDone c present pass s
  | .channelSleep c => Sys2Proof.Machine.execChannelSleep c s
  | .utilWindow c permille cycles => Sys2Proof.Machine.execUtilWindow c permille cycles s
  | .reloadChan m v => Sys2Proof.Machine.execReloadChan m v s
  | .quiesceDone c => Sys2Proof.Machine.execQuiesceDone c s
  | .segmentLoaded c ok => Sys2Proof.Machine.execSegmentLoaded c ok s
  | .retrainDone c ok => Sys2Proof.Machine.execRetrainDone c ok s
  | .checkDone c ok => Sys2Proof.Machine.execCheckDone c ok s
  | .driftMinuteTick => Sys2Proof.Machine.execDriftMinuteTick s
  | .driftDue set => Sys2Proof.Machine.execDriftDue set s
  | .scrubVisit leaves => Sys2Proof.Machine.execScrubVisit leaves s
  | .driftQuery m v => Sys2Proof.Machine.execDriftQuery m v s
  | .driftCtlWrite m v => Sys2Proof.Machine.execDriftCtlWrite m v s
  | .gcJob m g bad => Sys2Proof.Machine.execGcJob m g bad s
  | .wearJob m g bad => Sys2Proof.Machine.execWearJob m g bad s
  | .rewriteJob m g bad => Sys2Proof.Machine.execRewriteJob m g bad s
  | .verifyJob m leaves => Sys2Proof.Machine.execVerifyJob m leaves s
  | .sealJob m g bad => Sys2Proof.Machine.execSealJob m g bad s
  | .relocateJob m g bad => Sys2Proof.Machine.execRelocateJob m g bad s
  | .setErase set => Sys2Proof.Machine.execSetErase set s
  | .weightsWrite m v => Sys2Proof.Machine.execWeightsWrite m v s
  | .rebinDone => Sys2Proof.Machine.execRebinDone s
  | .wearStart m v => Sys2Proof.Machine.execWearStart m v s
  | .wearStop m v => Sys2Proof.Machine.execWearStop m v s
  | .scoreQuery m v => Sys2Proof.Machine.execScoreQuery m v s
  | .fldCtlWrite m v => Sys2Proof.Machine.execFldCtlWrite m v s
  | .journalSealTimer => Sys2Proof.Machine.execJournalSealTimer s
  | .lagMiss ageUs => Sys2Proof.Machine.execLagMiss ageUs s
  | .bypassExpire tok => Sys2Proof.Machine.execBypassExpire tok s
  | .durSyncGo m v => Sys2Proof.Machine.execDurSyncGo m v s
  | .huOkChange level => Sys2Proof.Machine.execHuOkChange level s
  | .inputLoss => Sys2Proof.Machine.execInputLoss s
  | .inputReturn => Sys2Proof.Machine.execInputReturn s
  | .inputCollapse mv => Sys2Proof.Machine.execInputCollapse mv s
  | .ckptGo m v => Sys2Proof.Machine.execCkptGo m v s
  | .ckptPeriod => Sys2Proof.Machine.execCkptPeriod s
  | .ckptComplete => Sys2Proof.Machine.execCkptComplete s
  | .powerHourTick => Sys2Proof.Machine.execPowerHourTick s
  | .mr4Poll rates => Sys2Proof.Machine.execMr4Poll rates s
  | .mergeHoldExpire out => Sys2Proof.Machine.execMergeHoldExpire out s
  | .patrolScrub out => Sys2Proof.Machine.execPatrolScrub out s
  | .testWrite m c v => Sys2Proof.Machine.execTestWrite m c v s
  | .testRead m c v => Sys2Proof.Machine.execTestRead m c v s
  | .ceTableClear m c v => Sys2Proof.Machine.execCeTableClear m c v s
  | .mediaTableClear m v => Sys2Proof.Machine.execMediaTableClear m v s
  | .rekeyDone => Sys2Proof.Machine.execRekeyDone s
  | .rootSramUe => Sys2Proof.Machine.execRootSramUe s
  | .zeroerDone => Sys2Proof.Machine.execZeroerDone s
  | .domainRampDone pd katOk => Sys2Proof.Machine.execDomainRampDone pd katOk s
  | .drbgHealthFail => Sys2Proof.Machine.execDrbgHealthFail s
  | .kidQuery m v => Sys2Proof.Machine.execKidQuery m v s
  | .keyIssue pair cid => Sys2Proof.Machine.execKeyIssue pair cid s
  | .keySetCurrent pair cid => Sys2Proof.Machine.execKeySetCurrent pair cid s
  | .keyClearCurrent pair cid => Sys2Proof.Machine.execKeyClearCurrent pair cid s
  | .keyRetire pair cid => Sys2Proof.Machine.execKeyRetire pair cid s
  | .keyDestroy pair cid => Sys2Proof.Machine.execKeyDestroy pair cid s
  | .keyQuery pair cid => Sys2Proof.Machine.execKeyQuery pair cid s
  | .sqDoorbell bar0 pair v => Sys2Proof.Machine.execSqDoorbell bar0 pair v s
  | .cqDoorbell bar0 pair v => Sys2Proof.Machine.execCqDoorbell bar0 pair v s
  | .pairEnable bar0 pair v => Sys2Proof.Machine.execPairEnable bar0 pair v s
  | .pairDisable bar0 pair v => Sys2Proof.Machine.execPairDisable bar0 pair v s
  | .ringAllocWrite m n v => Sys2Proof.Machine.execRingAllocWrite m n v s
  | .commandFetch pair entry => Sys2Proof.Machine.execCommandFetch pair entry s
  | .ringCopy pair cid leaves => Sys2Proof.Machine.execRingCopy pair cid leaves s
  | .ringFill pair cid => Sys2Proof.Machine.execRingFill pair cid s
  | .ringVerify pair cid leaves => Sys2Proof.Machine.execRingVerify pair cid leaves s
  | .ringHash pair cid leaves dmaOk => Sys2Proof.Machine.execRingHash pair cid leaves dmaOk s
  | .ringSeal pair cid => Sys2Proof.Machine.execRingSeal pair cid s
  | .ringDiscard pair cid => Sys2Proof.Machine.execRingDiscard pair cid s
  | .ringSync pair cid => Sys2Proof.Machine.execRingSync pair cid s
  | .ringPrefetch pair cid => Sys2Proof.Machine.execRingPrefetch pair cid s
  | .ringTelemetry pair cid dmaOk => Sys2Proof.Machine.execRingTelemetry pair cid dmaOk s
  | .ringAbort pair cid => Sys2Proof.Machine.execRingAbort pair cid s
  | .hashEngineGrant => Sys2Proof.Machine.execHashEngineGrant s
  | .completionPost pair cid dmaOk => Sys2Proof.Machine.execCompletionPost pair cid dmaOk s
  | .hostDmaFail pair => Sys2Proof.Machine.execHostDmaFail pair s
  | .coalesceTimer pair => Sys2Proof.Machine.execCoalesceTimer pair s
  | .regAdmit m v => Sys2Proof.Machine.execRegAdmit m v s
  | .floorWindow => Sys2Proof.Machine.execFloorWindow s
  | .ledgerSnapshot => Sys2Proof.Machine.execLedgerSnapshot s
  | .ledgerInject m v => Sys2Proof.Machine.execLedgerInject m v s
  | .ledgLhsRead m => Sys2Proof.Machine.execLedgLhsRead m s
  | .ledgerSramUe ledger => Sys2Proof.Machine.execLedgerSramUe ledger s
  | .reloadReg m v => Sys2Proof.Machine.execReloadReg m v s
  | .reloadDome m v => Sys2Proof.Machine.execReloadDome m v s
  | .domeBankFlip => Sys2Proof.Machine.execDomeBankFlip s
  | .reloadStandbyAssist m v => Sys2Proof.Machine.execReloadStandbyAssist m v s
  | .swap m v => Sys2Proof.Machine.execSwap m v s
  | .swapTimeout => Sys2Proof.Machine.execSwapTimeout s
  | .standbyReady => Sys2Proof.Machine.execStandbyReady s
  | .assistReadyTimeout => Sys2Proof.Machine.execAssistReadyTimeout s
  | .reloadUnitInvalid m v => Sys2Proof.Machine.execReloadUnitInvalid m v s
  | .platePowerReq m v => Sys2Proof.Machine.execPlatePowerReq m v s
  | .railPowerGood rail mv => Sys2Proof.Machine.execRailPowerGood rail mv s
  | .waitUpTimeout rail => Sys2Proof.Machine.execWaitUpTimeout rail s
  | .railDischarged rail mv => Sys2Proof.Machine.execRailDischarged rail mv s
  | .dischargeTimeout rail => Sys2Proof.Machine.execDischargeTimeout rail s
  | .minOffExpiry rail => Sys2Proof.Machine.execMinOffExpiry rail s
  | .scriptDelayExpiry seq => Sys2Proof.Machine.execScriptDelayExpiry seq s
  | .adcSample mv lost => Sys2Proof.Machine.execAdcSample mv lost s
  | .powerGoodLost rail => Sys2Proof.Machine.execPowerGoodLost rail s
  | .pmbusPoll replies => Sys2Proof.Machine.execPmbusPoll replies s
  | .pmbAlert replies => Sys2Proof.Machine.execPmbAlert replies s
  | .tempReading temps => Sys2Proof.Machine.execTempReading temps s
  | .haltFanExpiry => Sys2Proof.Machine.execHaltFanExpiry s
  | .aonLoss reset => Sys2Proof.Machine.execAonLoss reset s
  | .aonReturn straps => Sys2Proof.Machine.execAonReturn straps s
  | .huEstimate => Sys2Proof.Machine.execHuEstimate s
  | .huMismatchTimer => Sys2Proof.Machine.execHuMismatchTimer s
  | .margin m v => Sys2Proof.Machine.execMargin m v s
  | .fanTachWindow pulses => Sys2Proof.Machine.execFanTachWindow pulses s
  | .fanWatchdog fan => Sys2Proof.Machine.execFanWatchdog fan s
  | .recQualified ofs => Sys2Proof.Machine.execRecQualified ofs s
  | .recDisqualified ssc => Sys2Proof.Machine.execRecDisqualified ssc s
  | .holdoverExpiry => Sys2Proof.Machine.execHoldoverExpiry s
  | .slewDone => Sys2Proof.Machine.execSlewDone s
  | .todSet m wide v => Sys2Proof.Machine.execTodSet m wide v s
  | .todLowRead m => Sys2Proof.Machine.execTodLowRead m s
  | .chrono m v => Sys2Proof.Machine.execChrono m v s
  | .chronoGateEnd count => Sys2Proof.Machine.execChronoGateEnd count s
  | .chronoRefDead count => Sys2Proof.Machine.execChronoRefDead count s
  | .heldAccessRelease dom => Sys2Proof.Machine.execHeldAccessRelease dom s
  | .shelfPing f => Sys2Proof.Machine.execShelfPing f s
  | .shelfStatus f => Sys2Proof.Machine.execShelfStatus f s
  | .shelfSensors f => Sys2Proof.Machine.execShelfSensors f s
  | .shelfMode f => Sys2Proof.Machine.execShelfMode f s
  | .shelfWake f => Sys2Proof.Machine.execShelfWake f s
  | .shelfRestart f => Sys2Proof.Machine.execShelfRestart f s
  | .shelfPlate f => Sys2Proof.Machine.execShelfPlate f s
  | .shelfSubscribe f => Sys2Proof.Machine.execShelfSubscribe f s
  | .shelfFrameOther bytes fcs => Sys2Proof.Machine.execShelfFrameOther bytes fcs s
  | .ptpFrame bytes fcs disc => Sys2Proof.Machine.execPtpFrame bytes fcs disc s
  | .pdelayTimer => Sys2Proof.Machine.execPdelayTimer s
  | .plcaBeacon => Sys2Proof.Machine.execPlcaBeacon s
  | .beaconLoss => Sys2Proof.Machine.execBeaconLoss s
  | .dupCoord => Sys2Proof.Machine.execDupCoord s
  | .coordResume => Sys2Proof.Machine.execCoordResume s
  | .plcaCollision => Sys2Proof.Machine.execPlcaCollision s
  | .quarantineExpiry => Sys2Proof.Machine.execQuarantineExpiry s
  | .rxqDataRead m => Sys2Proof.Machine.execRxqDataRead m s
  | .rxqDrop m => Sys2Proof.Machine.execRxqDrop m s
  | .txqDataWrite m w => Sys2Proof.Machine.execTxqDataWrite m w s
  | .txqFlush m => Sys2Proof.Machine.execTxqFlush m s
  | .keyCommit m => Sys2Proof.Machine.execKeyCommit m s
  | .pltCmdOn m v => Sys2Proof.Machine.execPltCmdOn m v s
  | .pltCmdOut m v => Sys2Proof.Machine.execPltCmdOut m v s
  | .pltCmdAdmit m v => Sys2Proof.Machine.execPltCmdAdmit m v s
  | .plateInserted plate ident => Sys2Proof.Machine.execPlateInserted plate ident s
  | .plateRemoved plate => Sys2Proof.Machine.execPlateRemoved plate s
  | .plateDrainTimeout plate => Sys2Proof.Machine.execPlateDrainTimeout plate s
  | .plateHot plate temp => Sys2Proof.Machine.execPlateHot plate temp s
  | .plateDisagree plate => Sys2Proof.Machine.execPlateDisagree plate s
  | .logPut m v full => Sys2Proof.Machine.execLogPut m v full s
  | .logWin0Read m => Sys2Proof.Machine.execLogWin0Read m s
  | .logWin3Read m => Sys2Proof.Machine.execLogWin3Read m s
  | .snapTimer => Sys2Proof.Machine.execSnapTimer s
  | .snapGo m v => Sys2Proof.Machine.execSnapGo m v s
  | .snapPublish => Sys2Proof.Machine.execSnapPublish s
  | .chainWrite m b v => Sys2Proof.Machine.execChainWrite m b v s
  | .almRead m v => Sys2Proof.Machine.execAlmRead m v s
  | .almWrite m v => Sys2Proof.Machine.execAlmWrite m v s
  | .almWriteDone => Sys2Proof.Machine.execAlmWriteDone s
  | .lcTransition m v => Sys2Proof.Machine.execLcTransition m v s
  | .unlock m v => Sys2Proof.Machine.execUnlock m v s
  | .relock m v => Sys2Proof.Machine.execRelock m v s
  | .keyfuse m v => Sys2Proof.Machine.execKeyfuse m v s
  | .tapExtest bits => Sys2Proof.Machine.execTapExtest bits s
  | .tapSamplePreload pins bits => Sys2Proof.Machine.execTapSamplePreload pins bits s
  | .tapIdcode => Sys2Proof.Machine.execTapIdcode s
  | .tapClamp => Sys2Proof.Machine.execTapClamp s
  | .tapHighz => Sys2Proof.Machine.execTapHighz s
  | .lcStatus => Sys2Proof.Machine.execLcStatus s
  | .finderUnlock token go => Sys2Proof.Machine.execFinderUnlock token go s
  | .tapBypass ir => Sys2Proof.Machine.execTapBypass ir s
  | .coreHalt core pc => Sys2Proof.Machine.execCoreHalt core pc s
  | .coreResume core => Sys2Proof.Machine.execCoreResume core s
  | .coreStep core pc => Sys2Proof.Machine.execCoreStep core pc s
  | .coreReg dr => Sys2Proof.Machine.execCoreReg dr s
  | .coreBp dr => Sys2Proof.Machine.execCoreBp dr s
  | .breakpointHit core watch pc => Sys2Proof.Machine.execBreakpointHit core watch pc s
  | .sysbusRead dr out => Sys2Proof.Machine.execSysbusRead dr out s
  | .sysbusWrite dr => Sys2Proof.Machine.execSysbusWrite dr s
  | .busAbort bit0 => Sys2Proof.Machine.execBusAbort bit0 s
  | .tapReset => Sys2Proof.Machine.execTapReset s
  | .beaconReceived => Sys2Proof.Machine.execBeaconReceived s
  | .txFrameSent => Sys2Proof.Machine.execTxFrameSent s
  | .doeRequest port r => Sys2Proof.Machine.execDoeRequest port r s

end Sys2Proof.Machine
end

