-- ==== Sys2Proof/Machine/Idle.lean ====
section
/-! DEFINITION. What a step does on an empty queue: the work that waits for no command, and one EPH cycle
(14_clocks_and_crossings.md R343; notes/assumptions/1.md). -/

namespace Sys2Proof.Machine

/-- R309: a swap completes unless the core that runs is halted by the finder. DEDUCED, notes/assumptions/50.md. -/
def swapIdle (s : State) : State := if (s.find.core (s.get F.IMG_ASSIST_RUNNING)).halted then s else swapDone s

/-- The assistant's waiting requests and frames are served, a cycle passes, alerts, releases and EVENT frames follow.
DESIGN CHOICE, notes/assumptions/1.md. -/
def idleStep (s : State) : State := after (eventFrames (releaseGo (lifeFollow (idleTick (rxWaiting (reqsGo (swapIdle s)))))))

end Sys2Proof.Machine
end

