-- ==== Sys2Proof/Safety.lean ====
section
/-! DEFINITION. What a safe run is, and what every state of one keeps. -/

namespace Sys2Proof.Machine

/-- The step answered a next state: the block neither stopped nor met a command it cannot run. -/
def Safe (s : State) : Prop := ∃ t, step s = .next t

/-- OTP slots that may follow life-cycle state `k`: each holds one state bit, of a state that R399 allows after the state before. -/
def lcChain : Nat → List Nat → Bool
  | _, [] => true
  | k, b :: t => decide (slotState b < 6) && decide (b = 2 ^ slotState b) && decide (lcAuth k (slotState b) ≠ .never) && lcChain (slotState b) t

/-- A transition in progress is one that R399 allows, and a blank slot is left for it (17_almanac_life_cycle_finder.md R397, R400). -/
def LcsSt.transOk (l : LcsSt) : Bool :=
  match l.trans with
  | some t => decide (lcAuth l.state t ≠ .never) && decide (l.slots.length < 8)
  | none => true

/-- The OTP life-cycle field holds a history that R397 and R399 allow: MANUFACTURE first, at most eight slots. -/
def LcsSt.sound (l : LcsSt) : Bool :=
  (match l.slots with
   | [] => false
   | b :: t => decide (b = 1) && lcChain lcManufacture t) && decide (l.slots.length ≤ 8) && l.transOk

/-- The sparse tables that hold addressed bytes and registers are in their canonical form. -/
def State.memWf (s : State) : Bool := tsortedFrom 0 s.regs && twf 0#8 s.alm.bytes && twf 0 s.xlat.scratch

/-- The parts of the state that the rows of clocks, time, logbook, spectrograph and finder leave alone: hosts, data path, media,
fields, journal, keys, rings, ledgers, image, OTP, the queue and the time. -/
def State.sameCore (s t : State) : Prop :=
  t.start = s.start ∧ t.lcs = s.lcs ∧ t.dome = s.dome ∧ t.host = s.host ∧ t.xlat = s.xlat ∧ t.coal = s.coal ∧ t.med = s.med ∧
    t.drift = s.drift ∧ t.fld = s.fld ∧ t.dur = s.dur ∧ t.wm = s.wm ∧ t.ciph = s.ciph ∧ t.regu = s.regu ∧ t.ledg = s.ledg ∧
    t.ring = s.ring ∧ t.img = s.img ∧ t.pending = s.pending ∧ t.now = s.now

end Sys2Proof.Machine
end

