-- ==== Sys2Proof/Certificates/Slice0/Obligations.lean ====
section
/-! DEFINITION. The statements about the model, for the provers. -/

open Sys2Proof Sys2Proof.Machine

/-- R3, R4: a write stores each field as its access code states, a field that counts as not written keeps its value, and nothing else
changes. The fields of a register have different keys (the second hypothesis); CLK_TOD_ADJ is clamped first and is left out. -/
def Obligations.RegisterFieldsFollowTheirAccessCode : Prop :=
  ∀ (r : RegAt) (cover v : Nat) (s : State), r.off ≠ 0x3A0030 → (r.flds.map (·.key)).Nodup → (∀ f ∈ r.flds, s.get f < 2 ^ f.wid) →
    (∀ f ∈ r.flds,
      (writtenVal s f cover v = none ∨ comboBad s f cover v = true → (storeReg r cover v s).get f = s.get f) ∧
      (∀ w, writtenVal s f cover v = some w → comboBad s f cover v = false → (storeReg r cover v s).get f = w)) ∧
    (∀ f ∈ r.flds, cover ≤ f.lo →
      ((f.acc = .ro ∨ f.acc = .rc ∨ (f.acc = .rwl ∧ s.on F.IMG_STATUS_LOADED = true)) → writtenVal s f cover v = none) ∧
      ((f.acc = .rw ∨ f.acc = .wo ∨ (f.acc = .rwl ∧ s.on F.IMG_STATUS_LOADED = false)) →
        writtenVal s f cover v = if f.legal.ok (v / 2 ^ f.lo % 2 ^ f.wid) then some (v / 2 ^ f.lo % 2 ^ f.wid) else none) ∧
      (f.acc = .w1c → writtenVal s f cover v = some (s.get f - (s.get f &&& v / 2 ^ f.lo % 2 ^ f.wid))) ∧
      (f.acc = .w1s → writtenVal s f cover v = some (s.get f ||| v / 2 ^ f.lo % 2 ^ f.wid))) ∧
    (∀ g : Fld, (∀ f ∈ r.flds, g.key ≠ f.key) → (storeReg r cover v s).get g = s.get g) ∧
    (storeReg r cover v s).modRegs (fun _ => s.regs) = s

/-- R5: the halves of a 64-bit register. -/
def Obligations.HalvesOfAWideRegisterWriteAsOne : Prop :=
  ∀ (m : Master) (b : Bool) (off lo lo2 hi : Nat) (r : RegAt) (s : State), findReg off = some r → r.width = 64 → findReg (off + 4) = none →
    lo < 2 ^ 32 → lo2 < 2 ^ 32 → hi < 2 ^ 32 →
    (regWrite m b off 4 lo s).regs = s.regs ∧
    (regWrite m b off 4 lo s).modHolds (fun _ => s.holds) = s ∧
    regWrite m b (off + 4) 4 hi (regWrite m b off 4 lo s) = regWrite m b off 8 (hi * 2 ^ 32 + lo) s ∧
    regWrite m b off 4 lo2 (regWrite m b off 4 lo s) = regWrite m b off 4 lo2 s ∧
    holdOf (regWrite m b off 4 lo s) m off = some lo ∧
    (holdOf s m off = none → regWrite m b (off + 4) 4 hi s = regPut m b r 32 (hi * 2 ^ 32) (dropHold m off s))

/-- R5: accesses that no register takes complete, read 0 and write nothing. -/
def Obligations.BadAccessesAreDiscarded : Prop :=
  (∀ (m : Master) (off size : Nat) (v : Word) (s : State), s.coreOn = true → accessOk off size = false →
    exec (.registerWrite m none off size v) s = .next s ∧
    (m ≠ .finder → exec (.rcFieldRead m none off size) s = .next (emit (.regData m off 0) s))) ∧
  (∀ (m : Master) (n : Fin 17) (off size : Nat) (v : Word) (s : State), s.coreOn = true → accessOk off size = false →
    exec (.registerWrite m (some n) off size v) s = .next s ∧
    (m ≠ .finder → exec (.rcFieldRead m (some n) off size) s = .next (emit (.regData m off 0) s))) ∧
  (∀ (m : Master) (off : Nat) (s : State), s.coreOn = true → m ≠ .finder → 0x500000 ≤ off → off < 0x800000 → off % 4 = 0 →
    exec (.rcFieldRead m none off 4) s = .next (emit (.regData m off 0) s))

/-- R3, R15, R16: reads and writes of registers. -/
def Obligations.AnRcFieldClearsOnTheReadThatCoversIt : Prop :=
  (∀ (m : Master) (s : State), s.coreOn = true → m ≠ .finder →
    exec (.rcFieldRead m none 0x48 4) s =
      .next (emit (.regData m 0x48 (BitVec.ofNat 64 (plainVal ⟨0x48, 32, [F.GLB_MODE_STATUS_REFUSED, F.GLB_MODE_STATUS_MODE_DONE,
        F.GLB_MODE_STATUS_PEND_VALID, F.GLB_MODE_STATUS_PENDING, F.GLB_MODE_STATUS_LAST_SRC, F.GLB_MODE_STATUS_IN_TRANSITION,
        F.GLB_MODE_STATUS_CURRENT]⟩ s % 2 ^ 32))) (setF F.GLB_MODE_STATUS_REFUSED 0 s))) ∧
  (∀ (v : Word) (s : State), s.coreOn = true →
    exec (.registerWrite .host none 0x3D0000 4 v) s = .next (domeAfter
      (s |> setF F.LOG_CTL_FLOOR (v.toNat / 16 % 8)
        |> fun t => if v.toNat % 8 = 7 then t else setF F.LOG_CTL_IRQ_SEV (v.toNat % 8) t))) ∧
  (∀ (m : Master) (v : BitVec 32) (s : State), ∃ t, exec (.intMaskWrite m v) s = .next t ∧ t.glb.intMask = v &&& 0x7FFFFF#32 ∧
    t.glb.intStatus = s.glb.intStatus ∧ t.regs = s.regs ∧
    (t.outs = if v &&& 0x7FFFFF#32 &&& s.glb.intStatus = 0 ∨ s.msixMasked mgmtView 2 = true then s.outs else .msix mgmtView 2 :: s.outs) ∧
    (v &&& 0x7FFFFF#32 &&& s.glb.intStatus ≠ 0 → s.msixMasked mgmtView 2 = true → (tgetD 0 t.host.pba mgmtView).testBit 2 = true))

/-- GLB_MODE_CTL.TARGET := t, by the host. -/
def Says.modeAsked (t : Nat) (s : State) : State := (setF F.GLB_MODE_CTL_TARGET t s).modGlb (fun g => { g with force := false })

/-- The transition to `dest` has begun. -/
def Says.modeBegun (dest : Mode) (s : State) : State :=
  (pendClear s).modGlb (fun g => { g with transTo := some dest, transSrc := 1 })
    |> setF F.GLB_MODE_STATUS_IN_TRANSITION 1 |> setF F.GLB_MODE_STATUS_LAST_SRC 1

/-- R12, R13: MODE_TARGET_ACTIVE, MODE_TARGET_QUIET, MODE_TARGET_PARKED and MODE_TARGET_STANDBY. -/
def Obligations.ModeTargetsStartTheirTransitionOrWait : Prop :=
  (∀ (m : Master) (s : State) (t : Nat) (c : Instr),
    (t, c) ∈ [(0, Instr.modeTargetActive m), (1, .modeTargetQuiet m), (2, .modeTargetParked m), (3, .modeTargetStandby m)] →
    s.lcs.trans = none → s.dur.drain = 0 → (s.glb.mode = .active ∨ s.glb.mode = .quiet ∨ s.glb.mode = .parked) → s.glb.transTo.isSome = true →
    exec c s = .next (after (pendSet t 1 (Says.modeAsked t s))) ∧
    (pendSet t 1 (Says.modeAsked t s)).get F.GLB_MODE_STATUS_PEND_VALID = 1 ∧
    (pendSet t 1 (Says.modeAsked t s)).get F.GLB_MODE_STATUS_PENDING = t) ∧
  (∀ (m : Master) (s : State), s.lcs.trans = none → s.dur.drain = 0 → s.glb.transTo = none →
    (s.glb.mode = .active → (Says.modeAsked 1 s).targetHeld 1 = false →
      exec (.modeTargetQuiet m) s = .next (after (pdSettle (Says.modeBegun .quiet (Says.modeAsked 1 s))))) ∧
    (s.glb.mode = .quiet → (Says.modeAsked 0 s).targetHeld 0 = false →
      exec (.modeTargetActive m) s = .next (after (pdSettle (Says.modeBegun .active (Says.modeAsked 0 s))))) ∧
    ((s.glb.mode = .active ∨ s.glb.mode = .quiet) → (Says.modeAsked 2 s).targetHeld 2 = false →
      exec (.modeTargetParked m) s = .next (after (syncDrain .mode (mergeFlushAll (ringsStop (ingressClose (Says.modeBegun .parked (Says.modeAsked 2 s)))))))) ∧
    ((s.glb.mode = .active ∨ s.glb.mode = .quiet) → (Says.modeAsked 3 s).targetHeld 3 = false →
      exec (.modeTargetStandby m) s =
        .next (after (syncDrain .mode (mergeFlushAll (ringsStop (ingressClose (pendSet 3 1 (Says.modeBegun .parked (Says.modeAsked 3 s))))))))))

/-- R12, R13: the ends of transitions.
Where it rests on a choice of the model, that is: notes/assumptions/42.md. -/
def Obligations.TransitionsCompleteAndStandbyIsEntered : Prop :=
  (∀ (s : State) (dest : Mode), s.glb.transTo = some dest → dest ≠ .parked → s.glb.mode ≠ .parked → s.noRamp = true → s.lcs.trans = none →
    exec .modeTransitionDone s = .next (domeAfter (modeFinish dest s)) ∧
    ∃ u, modeFinish dest s = (if u.glb.perstHeld then perstGo (perstEffect (u.modGlb (fun g => { g with perstHeld := false }))) else pendGo u) ∧
      u = pdSettle (modeRecord s.glb.mode dest (when (decide (s.glb.mode = .quiet)) wakeAll
        (s.modGlb (fun g => { g with mode := dest, transTo := none, ingressClosed := false })
          |> setF F.GLB_MODE_STATUS_IN_TRANSITION 0 |> setF F.GLB_MODE_STATUS_CURRENT dest.code)))) ∧
  (∀ s : State, s.glb.mode = .parked → s.glb.transTo = none → (∃ src, s.glb.heldTarget = some (3, src)) → s.glb.perst = false → s.start.relPend = false →
    ∃ u, exec .pmeToAck s = .next (domeAfter u) ∧ u.glb.mode = .standby ∧ u.get F.GLB_MODE_STATUS_CURRENT = 3 ∧ u.start.source = srcPerst ∧
      u.pending = s.pending ∧ u.now = s.now)

/-- R321: the on request of the device sequencer when input power is there. -/
def Says.inputOn (s : State) : State :=
  seqOn devSeq (((((s.modStart (fun x => { x with vin := true })).modDome (fun d => { d with onBank := false })).modGlb
    (fun g => { g with mode := .off, wake := false })).modStart (fun x => { x with source := srcPowerOn, relPend := false })).modFind
      (fun f => { f with drive := 0, ir := 2 }))

/-- R321, R329, R330, R413, R427, R412: POWER_ON, INPUT_LOSS, INPUT_RETURN, INPUT_COLLAPSE, AON_LOSS, AON_RETURN, PERST_ASSERT and
PERST_RELEASE.
Where it rests on a choice of the model, that is: notes/assumptions/43.md, notes/assumptions/44.md, notes/assumptions/45.md. -/
def Obligations.PowerComesAndGoes : Prop :=
  (∀ (straps : BitVec 8) (s : State), s.start.vin = false → s.start.aonDown = false →
    (s.glb.mode = .off ∨ s.glb.mode = .standby ∨ s.glb.mode = .faultHalt) → exec (.powerOn straps) s = .next (domeAfter (Says.inputOn s))) ∧
  (∀ s : State, s.start.vin = false → (s.glb.mode = .off ∨ s.glb.mode = .standby ∨ s.glb.mode = .faultHalt) →
    exec .inputReturn s = .next (domeAfter (Says.inputOn s))) ∧
  (∀ s : State, s.start.vin = true → s.glb.mode = .standby →
    exec .inputLoss s = .next (domeAfter ((seqOff devSeq (setErr F.DOME_ERR_STATUS_INPUT_LOSS intDome
      ((s.modStart (fun x => { x with vin := false })).modDome (fun d => { d with onBank := true })))).modGlb
        (fun g => { g with mode := .off, wake := false })))) ∧
  (∀ (mv : BitVec 16) (s : State), s.glb.mode = .off → s.seqsBusy = false →
    exec (.inputCollapse mv) s = .next ((s.modDome (fun d => { d with adc := tset d.adc 9 (mv.toNat + 1) })).modStart (fun x => { x with vin := false }))) ∧
  (∀ s : State, ∃ t, exec (.aonLoss false) s = .next t ∧ t.start.aonDown = true ∧ t.start.aonLost = true ∧ t.glb.mode = .off ∧
    t.alm.run = none ∧ t.lcs.slots = s.lcs.slots ∧ t.pending = s.pending) ∧
  (∀ (straps : BitVec 8) (s : State), s.start.aonDown = true → s.start.vin = false →
    ∃ t, exec (.aonReturn straps) s = .next t ∧ t.start.aonDown = false ∧ t.start.wakeId = straps.toNat % 64 ∧
      t.get F.GLB_STRAPS_SHELF_ID = straps.toNat % 64 ∧ t.get F.GLB_STRAPS_XSPI_EN = straps.toNat / 128 ∧ t.start.source = srcPowerOn) ∧
  (∀ s : State, s.glb.perst = false → s.glb.mode = .off →
    exec .perstAssert s = .next (domeAfter ((s.modGlb (fun g => { g with perst := true, wake := false })).modStart (fun x => { x with relPend := false })))) ∧
  (∀ s : State, s.glb.perst = false → s.glb.mode = .standby →
    exec .perstAssert s =
      .next (domeAfter (seqOn devSeq ((s.modGlb (fun g => { g with perst := true, wake := false })).modStart (fun x => { x with relPend := false }))))) ∧
  (∀ (straps : BitVec 8) (us : BitVec 16) (fail : Bool) (s : State), s.glb.perst = true → s.glb.mode = .standby →
    exec (.perstRelease straps us fail) s = .next (domeAfter (perstGo ((s.modGlb (fun g => { g with perst := false })).modStart
      (fun x => { x with relPend := true, relStraps := straps.toNat, relUs := us.toNat, relFail := fail })))))

/-- R414, R415: the rows of a start, and R244.
Where it rests on a choice of the model, that is: notes/assumptions/43.md, notes/assumptions/47.md, notes/assumptions/49.md. -/
def Obligations.StartUpGoesThroughItsSteps : Prop :=
  (∀ (ms : BitVec 16) (s : State), s.glb.mode = .starting → s.stage = stageImage → s.glb.perst = false → s.on F.GLB_STRAPS_XSPI_EN = false →
    (bootPrepare (setF F.IMG_BOOT_LOG_ATTEMPT F.IMG_BOOT_LOG_ATTEMPT.rst s)).bootOrder = [] →
    exec (.imageLoaded 0 none none ms) s =
      .next (domeAfter (setStage stageMailbox (bootPrepare (setF F.IMG_BOOT_LOG_ATTEMPT F.IMG_BOOT_LOG_ATTEMPT.rst s))))) ∧
  (∀ (l : List DimmChan) (rec : Bool) (s : State), s.startRuns = true → s.stage = stageTrain → s.start.ddrTrained = false → s.popErr l = (0, 0, 0) →
    ∃ u, exec (.ddrTrainingDone l rec) s = .next (after u) ∧ u.start.ddrTrained = true ∧
      u.wm.recPend = (if rec && s.recMatch l then none else some (ddrIds l)) ∧
      u.get F.WMEM_STATUS_TRAIN_SRC = (if rec && s.recMatch l then 2 else 1) ∧ u.get F.MERID_STATUS_WIPE_BUSY = 1) ∧
  (∀ (l : List DimmChan) (rec : Bool) (c k : Nat) (s : State), s.startRuns = true → s.stage = stageTrain → s.start.ddrTrained = false → s.popErr l = (4, c, k) →
    ∃ u, exec (.ddrTrainingDone l rec) s = .next (after u) ∧ u.get F.WMEM_STATUS_POP_ERR = 4 ∧ u.stage = stageHaltPop ∧ u.start.ddrTrained = false) ∧
  (∀ s : State, exec .zeroerDone s = .next (setF F.MERID_STATUS_WIPE_BUSY 0 s)) ∧
  (∀ (o0 o1 : Fin 3) (bad badHdr : List Nat) (vaultOk : Bool) (us : BitVec 32) (s : State), s.startRuns = true → s.stage = stageTrain →
    s.start.ddrTrained = true → s.img.chans ≠ 0 → (∀ c < 32, s.img.chans.testBit c = true → s.get (F.MCH_STATUS_STATE c) ≠ 1) →
    exec (.replay o0 o1 bad badHdr vaultOk us) s = .next (after (failedDiesBad (replay (fun i => if i = 0 then o0.val else o1.val)
      (fun j => bad.contains j) (fun p => badHdr.contains p) vaultOk us.toNat (setStage stageReplay s))))) ∧
  (∀ s : State, s.readyMay = true → exec .cxlMemReady s = .next (domeAfter (memReadyGo s))) ∧
  (∀ s : State, s.readyMay = false → s.start.warm = true → s.glb.perst = false → s.stage = stageWarm →
    ∃ u, exec .cxlMemReady s = .next (after u) ∧ u.start.memActive = true ∧ u.start.warm = false ∧ u.stage = stageReady) ∧
  (∀ (pd : Fin 80) (s : State), (pd.val < 32 ∨ 40 ≤ pd.val) → s.pd pd.val = .ramp → exec (.domainRampDone pd true) s = .next (domeAfter (pdSettle (setPd pd.val .on s)))) ∧
  (∀ s : State, s.glb.mode = .active → ∃ t, exec .rootSramUe s = .next t ∧ t.glb.mode = .faultHalt ∧ t.get F.GLB_MODE_STATUS_CURRENT = 4 ∧
    t.get F.DOME_FAULT_VALID = s.get F.DOME_FAULT_VALID % 2 ∧ t.pending = s.pending)

/-- The port takes requests of the LD: it is up with CXL.mem, secure, serves the LD, nothing holds its link, and the host holds a credit
of the class. -/
def Says.open (r : HReq) (s : State) : Prop :=
  (s.port r.port).up = true ∧ s.ldPort r.ld = r.port ∧ s.cxlMem r.port = true ∧ (s.port r.port).insecure = false ∧
    (s.port r.port).linkQ = [] ∧ 0 < s.heldCred r.port r.cls

/-- CXL.mem serves: ready, no drain, no flush on the port, not parked, with room at ingress. -/
def Says.serves (r : HReq) (s : State) : Prop :=
  s.memReady = true ∧ s.dur.drain = 0 ∧ (s.port r.port).gpf = false ∧ s.glb.ingressClosed = false ∧ s.glb.mode ≠ .parked ∧
    s.glb.mode ≠ .standby ∧ s.ingressFull r.port = false

/-- What an arriving request is counted as (R375). -/
def Says.counted (r : HReq) (s : State) : State :=
  s |> cnt bHOST (2 * r.port + r.wr.toNat) 1 |> cnt (bLD r.ld) r.wr.toNat 1
    |> when (r.wr && decide (r.mask ≠ fullMask)) (cnt (bLD r.ld) 2 1)

/-- The read and the write that the two commands stand for. -/
def Says.rdReq (port : Fin 2) (ld : Fin 16) (tag : BitVec 16) (dpa : BitVec 52) : HReq :=
  ⟨port.val, ld.val, tag.toNat, dpa.toNat / 64 * 64, false, 0, 0, false, false, 0⟩

def Says.wrReq (port : Fin 2) (ld : Fin 16) (tag : BitVec 16) (dpa : BitVec 52) (mask : BitVec 64) (data : Line) (poison : Bool) : HReq :=
  ⟨port.val, ld.val, tag.toNat, dpa.toNat / 64 * 64, true, mask.toNat, data, poison, false, 0⟩

/-- R25, R27, R32, R42, R43: MEM_READ, MEM_WRITE, INGRESS_RELEASE, CREDIT_RETURN.
Where it rests on a choice of the model, that is: notes/assumptions/15.md, notes/assumptions/27.md. -/
def Obligations.RequestsFromTheLinkAreTaken : Prop :=
  (∀ (port : Fin 2) (ld : Fin 16) (tag : BitVec 16) (dpa : BitVec 52) (s : State), let r := Says.rdReq port ld tag dpa
    Says.open r s → Says.serves r s → exec (.memRead port ld tag dpa) s = .next (ingressTake r (credTake r.port credReq (Says.counted r s)))) ∧
  (∀ (port : Fin 2) (ld : Fin 16) (tag : BitVec 16) (dpa : BitVec 52) (mask : BitVec 64) (data : Line) (poison : Bool) (s : State),
    let r := Says.wrReq port ld tag dpa mask data poison
    Says.open r s → Says.serves r s → exec (.memWrite port ld tag dpa mask data poison) s = .next (ingressTake r (credTake r.port credRwd (Says.counted r s)))) ∧
  (∀ (r : HReq) (s : State), s.on F.REG_CTL_EN = false → s.on F.MERID_STATUS_REKEY = false → s.host.ingress = [] →
    ingressTake r s = regStatus (ingressGo r s)) ∧
  (∀ (r : HReq) (s : State), s.mustWait r = false → s.backed r.ld r.dpa = false → r.wr = false →
    hostGo r s = readNs r 240 (sendPoison r (unbackedEvent r.ld r.dpa s))) ∧
  (∀ (r : HReq) (s : State), s.mustWait r = false → s.backed r.ld r.dpa = false → r.wr = true →
    hostGo r s = cnt (bLD r.ld) 4 1 (sendCmp r (credBack r.port credRwd (unbackedEvent r.ld r.dpa s)))) ∧
  (∀ (port : Fin 2) (ld : Fin 16) (tag : BitVec 16) (dpa : BitVec 52) (s : State), let r := Says.rdReq port ld tag dpa
    Says.open r s → s.memReady = true → s.dur.drain = 0 → (s.port port.val).gpf = false → s.glb.mode = .parked →
    exec (.memRead port ld tag dpa) s = .next (parkRefuse r (Says.counted r s))) ∧
  (∀ (r : HReq) (s : State), s.releaseNext = some r →
    exec .ingressRelease s = .next (linkNext r.port (regStatus
      (ingressGo { r with wait := s.now - r.wait } (s.modHost (fun h => { h with ingress := h.ingress.erase r })))))) ∧
  (∀ (port : Fin 2) (ndr drs : BitVec 16) (s : State), (s.port port.val).up = true →
    exec (.creditReturn port ndr drs) s =
      .next (respDrain port.val (creditBack port.val credDrs drs.toNat (creditBack port.val credNdr ndr.toNat s)))) ∧
  (∀ (port cls n : Nat) (s : State), n ≤ tgetD 0 (s.port port).s2mUsed cls →
    creditBack port cls n s = modPort port (fun q => { q with
      s2mUsed := tput 0 q.s2mUsed cls (tgetD 0 (s.port port).s2mUsed cls - n), s2mFree := tmod 0 (· + n) q.s2mFree cls }) s)

/-- R20, R22, R33, R39, R41, R43, R266.
Where it rests on a choice of the model, that is: notes/assumptions/15.md, notes/assumptions/41.md, notes/assumptions/62.md. -/
def Obligations.LinksComeUpAndGoDown : Prop :=
  (∀ (port : Fin 2) (speed : Fin 6) (width : Fin 5) (mem : Bool) (ndr drs : BitVec 16) (s : State),
    s.linkMay port.val = true → (s.port port.val).up = false → s.widthOk port.val (width.val + 1) = true →
    exec (.linkUp port speed width mem ndr drs) s = .next (ldStatusAll (linkShow port.val (speed.val + 1) (width.val + 1) mem
      (modPort port.val (fun q => linkCredits ndr.toNat drs.toNat { q with up := true }) s)))) ∧
  (∀ (ndr drs cls : Nat) (q : PortSt), cls < 6 →
    (linkCredits ndr drs q).s2mFree = tput 0 (tput 0 [] credNdr ndr) credDrs drs ∧ (linkCredits ndr drs q).s2mUsed = [] ∧
      tgetD 0 (linkCredits ndr drs q).held cls = tgetD 0 q.held cls + q.freeCred cls) ∧
  (∀ (speed width : Nat) (mem : Bool) (s : State), speed < 8 → width < 8 →
    (linkShow 0 speed width mem s).get F.HOST_LINK_STATUS_P0_SPEED = speed ∧
    (linkShow 0 speed width mem s).get F.HOST_LINK_STATUS_P0_WIDTH = width ∧
    (linkShow 1 speed width mem s).get F.HOST_LINK_STATUS_P1_SPEED = speed ∧
    (linkShow 1 speed width mem s).get F.HOST_LINK_STATUS_P1_WIDTH = width) ∧
  (∀ (port : Fin 2) (s : State), (s.port port.val).up = true →
    ∃ u, exec (.linkDown port) s = .next (settle (regStatus (ldStatusAll (ringsDrop (fun o => s.viewOn port.val o)
        (linkShow port.val 0 0 false (setErr F.HOST_ERR_STATUS_LINK_DOWN intHost u)))))) ∧
      (u.port port.val).up = false ∧ (u.port port.val).respQ = [] ∧ (∀ r ∈ u.host.ingress, r.port ≠ port.val) ∧
      (∀ r ∈ u.host.writeQ, r.port ≠ port.val) ∧ u.coal = s.coal) ∧
  (∀ (port : Fin 2) (s : State), exec (.aspmL1Exit port) s =
    .next (after (seqAll mboxRun (s.port port.val).mboxQ (modPort port.val (fun p => { p with l1 := false, mboxQ := [] }) s)))) ∧
  (∀ (n : Fin 17) (s : State), exec (.ldReset n 1) s = .next (mboxAbort (· == n.val) (ringsDrop (· == n.val) s))) ∧
  (∀ (n : Fin 17) (s : State), exec (.ldReset n 0) s =
    .next (seqAll (fun k t => modLd k (fun l => { l with hdm := LdSt.reset.hdm }) t)
      ((List.range 17).filter (fun k => s.viewOn (s.ldPort n.val) k))
      (modPort (s.ldPort n.val) (fun q => { q with gpf := false, gpfLds := [], gpfAny := false, gpf2 := false })
        (ringsDrop (fun o => s.viewOn (s.ldPort n.val) o) s)))) ∧
  (∀ (n : Fin 17) (s : State), exec (.ldReset n 2) s =
    .next (seqAll (fun k t => modLd k (fun l => { l with hdm := LdSt.reset.hdm }) t) ((List.range 17).filter (· == n.val))
      (modPort (s.ldPort n.val) (fun q => { q with gpf := false, gpfLds := [], gpfAny := false, gpf2 := false }) (ringsDrop (· == n.val) s)))) ∧
  (∀ (port : Fin 2) (s : State), (s.port port.val).up = true →
    ∃ t, exec (.ideMacFail port) s = .next t ∧ (t.port port.val).insecure = true ∧ t.on F.HOST_ERR_STATUS_IDE_FAIL = true) ∧
  (∀ (port : Fin 2) (s : State), (s.port port.val).up = true →
    exec (.ideKeySetup port) s =
      .next (seqAll (fun _ t => linkNext port.val t) (s.port port.val).linkQ (modPort port.val (fun q => { q with insecure := false }) s))) ∧
  (∀ (port : Fin 2) (i : Nat) (s : State), (s.port port.val).up = true → i < 5 →
    exec (.doeRequest port (.discovery i)) s = .next (emit (.doe port.val 0 [i, (i + 1) % 5]) s)) ∧
  (∀ (port : Fin 2) (n : Fin 16) (s : State), (s.port port.val).up = true → s.ldPort n.val = port.val →
    exec (.doeRequest port (.cdat n)) s = .next (emit (.doe port.val 3 (s.cdat n.val)) s)) ∧
  (∀ (port : Fin 2) (s : State), (s.port port.val).up = true →
    exec (.gpfPhase1 port) s = .next (seqAll (fun r t => gpfRefuse r (credBack r.port r.cls t)) (s.port port.val).linkQ
      (modPort port.val (fun p => { p with gpf := true, gpfLds := [], gpfAny := false, linkQ := [] }) s))) ∧
  (∀ (port : Fin 2) (s : State), (s.port port.val).gpf = true → (s.port port.val).gpf2 = false → s.glb.transTo = none →
    exec (.gpfPhase2 port) s = .next (syncDrain (.gpf port.val) (modPort port.val (fun q => { q with gpf2 := true }) s)))

/-- R28, R31, R55, R71: what the buffer holds after a write. -/
def Obligations.AnAcceptedLineIsTheNewestCopy : Prop :=
  (∀ (ld dpa : Nat) (data : Line) (s : State), ∃ l, (acceptLine ld dpa fullMask data false s).cline ld dpa = some l ∧
    l.full = true ∧ l.poison = false ∧ l.data = data) ∧
  (∀ (ld dpa mask : Nat) (data : Line) (l : CLine) (s : State), s.cline ld dpa = some l → l.poison = false →
    ∃ n, (acceptLine ld dpa mask data false s).cline ld dpa = some n ∧ n.poison = false ∧ n.data = mergeLine mask l.data data ∧
      n.mask = l.mask ||| mask ∧ n.tok = l.tok) ∧
  (∀ (ld dpa ld' dpa' mask : Nat) (data : Line) (poison : Bool) (s : State), lineKey ld' dpa' ≠ lineKey ld dpa →
    (acceptLine ld dpa mask data poison s).cline ld' dpa' = s.cline ld' dpa') ∧
  (∀ (r : HReq) (fr misses : Nat) (l : CLine) (s : State), s.onPoisonList r.ld r.dpa = false →
    s.cline r.ld r.dpa = some l → l.poison = false → l.full = true →
    readFound r 0 fr misses s = readNs r (360 + 110 * misses) (sendData r l.data false s))

/-- R67 to R69: the map-cache rows.
Where it rests on a choice of the model, that is: notes/assumptions/28.md. -/
def Obligations.MapCacheMaintenanceRuns : Prop :=
  (∀ (m : Master) (v : BitVec 32) (s : State), let u := storeAt 0x30020 v.toNat s
    v.toNat.testBit 31 = true → s.on F.MAPC_STATUS_INV_BUSY = false → v.toNat / 2 ^ 24 % 4 = 0 → v.toNat % 2 ^ 24 ≠ 0 →
    exec (.mapcWb m v) s =
      (let t := setF F.MAPC_STATUS_INV_BUSY 1 (u.modXlat (fun x => { x with maint := some ⟨0, s.get F.MAPC_INV_ADDR_LINE, v.toNat % 2 ^ 24⟩ }))
      .next (seqAll wbLine (t.keysIn (fun k l => covers (s.get F.MAPC_INV_ADDR_LINE) (v.toNat % 2 ^ 24) k l)) t))) ∧
  (∀ (m : Master) (v : BitVec 32) (s : State), let u := storeAt 0x30020 v.toNat s
    v.toNat.testBit 31 = true → s.on F.MAPC_STATUS_INV_BUSY = false → v.toNat / 2 ^ 24 % 4 = 1 → v.toNat % 2 ^ 24 ≠ 0 →
    exec (.mapcInv m v) s =
      (let t := setF F.MAPC_STATUS_INV_BUSY 1 (u.modXlat (fun x => { x with maint := some ⟨1, s.get F.MAPC_INV_ADDR_LINE, v.toNat % 2 ^ 24⟩ }))
      .next (seqAll invLine (t.keysIn (fun k l => covers (s.get F.MAPC_INV_ADDR_LINE) (v.toNat % 2 ^ 24) k l)) t))) ∧
  (∀ (m : Master) (v : BitVec 32) (s : State), let u := storeAt 0x30020 v.toNat s
    v.toNat.testBit 31 = true → s.on F.MAPC_STATUS_INV_BUSY = false → v.toNat / 2 ^ 24 % 4 = 2 →
    exec (.mapcInvAll m v) s =
      (let t := setF F.MAPC_STATUS_INV_BUSY 1 (u.modXlat (fun x => { x with maint := some ⟨2, 0, 2 ^ 31⟩ }))
      .next (seqAll invLine (t.keysIn (fun k l => covers 0 (2 ^ 31) k l)) t))) ∧
  (∀ (k : Nat) (s : State), (s.mline k).st = .dirty → ((wbLine k s).mline k).st = .writeback ∧
    ((wbLine k s).mline k).wbuf = (s.mline k).words ∧ ((wbLine k s).mline k).wbMask = (s.mline k).dirty ∧ ((wbLine k s).mline k).dirty = 0) ∧
  (∀ (k : Nat) (s : State), (s.mline k).st = .clean → s.filling k = false → ((invLine k s).mline k) = MapLine.reset) ∧
  (∀ (m : Maint) (s : State), s.xlat.maint = some m → s.maintReady m = true →
    ∃ t, exec .mapcMaintDone s = .next t ∧ t.xlat.maint = none ∧ t.get F.MAPC_STATUS_INV_BUSY = 0 ∧ t.on F.MAPC_INV_CTL_DONE = true ∧
      (m.op = 2 → t.get F.MAPC_STATUS_STALE = 0 ∧ t.get F.MAPC_STATUS_STALE_EN = 0)) ∧
  (∀ (m : Master) (v : BitVec 32) (s : State), s.on F.MAPC_CTL_EN = true → v.toNat % 2 = 0 →
    exec (.mapcDisable m v) s = (let t := setF F.MAPC_STATUS_DRAINING 1 (storeAt 0x30000 v.toNat s)
      .next (seqAll wbLine ((storeAt 0x30000 v.toNat s).keysIn (fun _ l => l.st == .dirty)) t))) ∧
  (∀ (s : State), s.on F.MAPC_STATUS_DRAINING = true →
    ∃ r, exec .mapcDrainDone s = .next (settle (foundAll r)) ∧ r.2.get F.MAPC_STATUS_DRAINING = 0 ∧ r.2.get F.MAPC_STATUS_STALE = 1) ∧
  (∀ (m : Master) (v : BitVec 32) (s : State), s.on F.MAPC_CTL_EN = false → v.toNat % 2 = 1 →
    ∃ t, exec (.mapcEnable m v) s = .next t ∧ t.get F.MAPC_CTL_EN = 1 ∧ t.get F.MAPC_STATUS_DRAINING = 0 ∧
      (s.on F.MAPC_STATUS_STALE = true → t.get F.MAPC_STATUS_STALE_EN = 1)) ∧
  (∀ (m : Master) (v : BitVec 32) (s : State), s.on F.MAPC_STATUS_CONV_BUSY = false → v.toNat % 8 < 5 → v.toNat % 8 ≠ s.get F.MAPC_SCRATCH_WAYS →
    ∃ t, exec (.scratchConvert m v) s = .next t ∧ t.xlat.conv = some (v.toNat % 8) ∧ t.get F.MAPC_STATUS_CONV_BUSY = 1) ∧
  (∀ (n : Nat) (s : State), s.xlat.conv = some n → (∀ k ∈ s.keysIn (fun k _ => wayFrom (16 - n) k), s.filling k = false ∧ (s.mline k).st ≠ .filling) →
    ∃ r, exec .scratchConvertDone s = .next (settle (foundAll r)) ∧ r.2.xlat.conv = none ∧ r.2.get F.MAPC_STATUS_CONV_BUSY = 0) ∧
  (∀ (way : Fin 65536) (s : State), (s.mline way.val).st = .writeback → (s.mline way.val).redirty = false → (s.mline way.val).why = .wb →
    exec (.mapWritebackDone way) s = .next (settle (foundAll (lookFree (bankNo (lineAddr way.val (s.mline way.val).tag))
      (modLine way.val MapLine.written
        (storeSectors (lineAddr way.val (s.mline way.val).tag) (s.mline way.val).wbMask (s.mline way.val).wbuf s))))))

/-- R64, R65, R70, R78, R192.
Where it rests on a choice of the model, that is: notes/assumptions/28.md, notes/assumptions/30.md. -/
def Obligations.FillsProbesAndSectorRebuildsEnd : Prop :=
  (∀ (bank : Fin 64) (sector : Fin 8) (m : Miss) (s : State), tget s.xlat.misses bank.val = some m → m.wait = false → s.wm.markers = [] →
    exec (.mapFillReturn bank sector .clean none) s =
      .next (after (foundAll (fillReturn bank.val m 0 (seqAll wmLineRead (sectorLines m.line m.sectors) s))))) ∧
  (∀ (bank : Fin 64) (sector : Fin 8) (m : Miss) (k : Look) (l : List Look) (loc : WmLoc) (s : State), tget s.xlat.misses bank.val = some m → m.wait = false →
    s.wm.markers = [] → m.sectors = 2 ^ sector.val → m.users = k :: l →
    ∃ u, exec (.mapFillReturn bank sector (.uncorrectable loc) none) s = .next (after (foundAll (fillReturn bank.val m (2 ^ sector.val) u))) ∧
      u = event k.ld logFailure 0xA0 k.dpa (setErr F.XLAT_ERR_STATUS_MAP_UE intXlat
        ((seqAll wmLineRead (sectorLines m.line m.sectors) (wmUe (s.wmLoc (m.line * 8 + sector.val) loc.dev) s)).modXlat (fun x =>
          { x with rebuilding := x.rebuilding ++ [(m.line * 8 + sector.val, 1)] })))) ∧
  (∀ (m : Master) (v : Word) (s : State), let ld := v.toNat / 2 ^ 52 % 16; let dpa := v.toNat % 2 ^ 52 / 64 * 64
    v.toNat.testBit 63 = true → s.backed ld dpa = false →
    ∃ t, exec (.xlatProbe m v) s = .next t ∧ t.xlat.probe = some ⟨ld, dpa, none, false⟩ ∧ t.get F.XLAT_PROBE_RESULT_DONE = 0) ∧
  (∀ (m : Master) (v : Word) (s : State), let ld := v.toNat / 2 ^ 52 % 16; let dpa := v.toNat % 2 ^ 52 / 64 * 64
    v.toNat.testBit 63 = true → s.backed ld dpa = true → s.xlat.misses = [] → s.xlat.stalled = [] →
    exec (.xlatProbe m v) s = .next (foundAll (lookStart ⟨.probe, ld, dpa, none, 0⟩
      (setF F.XLAT_PROBE_RESULT_DONE 0 (s.modXlat (fun x => { x with probe := some ⟨ld, dpa, none, false⟩ })))))) ∧
  (∀ (p : Probe) (src kid loc : Nat) (s : State), s.xlat.probe = some p → s.inFlight = [] → s.probeOf p = some (src, kid, loc) →
    exec .probeResult s = .next (settle (setF F.XLAT_PROBE_RESULT_DONE 1 (setF F.XLAT_PROBE_RESULT_LOC loc
      (setF F.XLAT_PROBE_RESULT_KID kid (setF F.XLAT_PROBE_RESULT_SOURCE src (s.modXlat (fun x => { x with probe := none })))))))) ∧
  (∀ (p : Probe) (s : State), s.backed p.ld p.dpa = false → s.probeOf p = some (0, 0, 0)) ∧
  (∀ (p : Probe) (fo fr : Nat) (l : CLine) (s : State), s.backed p.ld p.dpa = true → p.found = some (fo, fr) → p.bad = false → foType fo ≠ 3 →
    s.cline p.ld p.dpa = some l → s.probeOf p = some (1, foKid fo, l.tok)) ∧
  (∀ (sector : Nat) (bad0 bad1 : List Nat) (s : State), s.xlat.rebuilding = [(sector, 1)] →
    exec (.sectorRebuildDone bad0 bad1) s = .next (after (settle (sectorBuild bad0 bad1 sector (s.modXlat (fun x => { x with rebuilding := [] })))))) ∧
  (∀ (sector k : Nat) (c : Ckpt) (s : State), s.dur.ckpts = [c] → k < 8 →
    tgetD 0 (sectorBuild [] [] sector s).wm.words (sector * 8 + k) = (s.sectorWords c sector).getD k 0) ∧
  (∀ (sector : Nat) (bad0 bad1 : List Nat) (s : State), s.dur.ckpts = [] → sectorBuild bad0 bad1 sector s = sectorGone sector s)

/-- R71, R72, R172, R441: the rows of coalescing and staging.
Where it rests on a choice of the model, that is: notes/assumptions/31.md. -/
def Obligations.GathersMergeAndFramesPlace : Prop :=
  (∀ (g : Gather) (l : List Gather) (s : State), s.coal.gathers = g :: l → g.closed = false →
    exec .gatherTimeout s = .next (cnt bCOAL 3 1 (s.modCoal (fun c => { c with gathers := { g with closed := true } :: l })))) ∧
  (∀ (g : Gather) (t : Nat) (fr : Frame) (s : State), s.dur.drain = 0 → s.mergeable [] s.coal.gathers = some g → s.mergeHow g = .into t fr →
    exec .gatherMerge s = .next (settle (coalStatus (mergeStaged g t fr s)))) ∧
  (∀ (g : Gather) (s : State), s.dur.drain = 0 → s.mergeable [] s.coal.gathers = some g → s.mergeHow g = .zeros →
    exec .gatherMerge s = .next (settle (coalStatus (stageGather g s.newFrameTok [] 0 s)))) ∧
  (∀ (g : Gather) (pfa : Nat) (s : State), s.dur.drain = 0 → s.mergeable [] s.coal.gathers = some g → s.mergeHow g = .media pfa →
    exec .gatherMerge s = .next (settle (coalStatus (s.modCoal (fun c =>
      { c with gathers := c.gathers.map (fun x => if x = g then { x with merging := some s.newFrameTok } else x) }))))) ∧
  (∀ (p : Nat × CLine) (img : Tbl Line) (mask : Nat), p.2.poison = false → p.2.full = false →
    mergeOver [p] img mask = (tput 0 img p.1 (mergeLine p.2.mask (tgetD 0 img p.1) p.2.data), mask)) ∧
  (∀ (tok : Fin 65536) (g : Gather) (s : State), s.coal.gathers = [g] → g.merging = some tok.val →
    (foType (s.folio g.ld g.folio) = 2 ∨ s.tableForWrite = true) → frState (s.frameOfFolio (s.folio g.ld g.folio) g.frame) = 0 →
    exec (.mergeMediaReadDone tok []) s = .next (settle (coalStatus (stageGather { g with merging := none } tok.val [] 0
      (s.modCoal (fun c => { c with gathers := [{ g with merging := none }] })))))) ∧
  (∀ (tok : Fin 65536) (g : Gather) (leaves : List LeafRes) (s : State), s.coal.gathers = [g] → g.merging = some tok.val →
    (foType (s.folio g.ld g.folio) = 2 ∨ s.tableForWrite = true) → frState (s.frameOfFolio (s.folio g.ld g.folio) g.frame) = 1 →
    s.unitHow (frLoc (s.frameOfFolio (s.folio g.ld g.folio) g.frame)) true ≠ .wait → (leaves.any fun l => decide (5 ≤ l.step) && decide (l.leaf.val = 64)) = true →
    ∃ img u, exec (.mergeMediaReadDone tok leaves) s = .next (settle (coalStatus (stageGather { g with merging := none } tok.val img allPoison u)))) ∧
  (∀ (g : Fin 32) (t : Nat) (fr : Frame) (s : State), s.dur.drain = 0 → s.nextToPlace = some (t, fr) → s.runnable fr = false →
    exec (.stagingPlace g) s = .next (placeAll (s.placeGroup g.val) streamHost [t] false s)) ∧
  (∀ (g : Fin 32) (t : Nat) (fr : Frame) (s : State), s.dur.drain = 0 → s.nextToPlace = some (t, fr) → s.runnable fr = true →
    exec (.stagingPlace g) s = .next (placeAll (s.placeGroup g.val) streamHost (s.folioFrames fr.ld fr.folio) true s)) ∧
  (∀ (g : Nat) (s : State), s.groupBlocked g = false → s.placeGroup g = g) ∧
  (∀ (t : Nat) (fr : Frame) (s : State), s.coal.frames = [(t, fr)] → fr.st = .staged → fr.placed = none → fr.free = false →
    exec .runHoldExpiry s = .next (s.modCoal (fun c => { c with frames := [(t, { fr with free := true })] }))) ∧
  (∀ (set : Fin 1048576) (s : State), s.nextToPlace = none → exec (.fillerTimeout set) s = .next (fillRow set.val s)) ∧
  (∀ (set : Nat) (o : OpenSet) (s : State), s.fld.opens.find? (fun o => o.set == set) = some o → o.next % 7 ≠ 0 →
    fillRow set s = seqAll (fun i t => slotGiven set (o.next + i) .filler t) (List.range (7 - o.next % 7)) s)

/-- R82, R87, R88, R97, R100: the starts of fabric commands.
Where it rests on a choice of the model, that is: notes/assumptions/33.md. -/
def Obligations.FabricCommandsStartAndSuspend : Prop :=
  (∀ (c : Fin 32) (d : Fin 8) (p : Fin 4) (f r : Fin 8192) (mask : BitVec 65) (offs : List Int) (s : State), s.readStarts c.val d.val p.val false = true →
    s.readRefused c.val d.val (mkPfa c.val d.val p.val f.val r.val) = false →
    s.readTurn (mkPfa c.val d.val p.val f.val r.val) mask.toNat offs = true → s.windowOpen c.val d.val p.val = true →
    tget s.med.latches (planeNo c.val d.val p.val) ≠ some (mkPfa c.val d.val p.val f.val r.val, offs) →
    exec (.fabRead c d p f r mask offs) s = .next (arrayRead (mkPfa c.val d.val p.val f.val r.val)
      (putPlane (planeNo c.val d.val p.val) (.read (mkPfa c.val d.val p.val f.val r.val) mask.toNat offs false)
        (windowCount c.val d.val (wakeCh c.val (aheadCount c.val (mkPfa c.val d.val p.val f.val r.val) mask.toNat offs s)))))) ∧
  (∀ (c : Fin 32) (d : Fin 8) (p : Fin 4) (f r : Fin 8192) (mask : BitVec 65) (offs : List Int) (s : State), s.readStarts c.val d.val p.val false = true →
    s.readRefused c.val d.val (mkPfa c.val d.val p.val f.val r.val) = true →
    exec (.fabRead c d p f r mask offs) s = .next (emit (.fabric c.val d.val 1 1) (wakeCh c.val s))) ∧
  (∀ (c : Fin 32) (d : Fin 8) (p : Fin 4) (mask : BitVec 65) (pfa : Nat) (offs : List Int) (s : State),
    tget s.med.latches (planeNo c.val d.val p.val) = some (pfa, offs) → s.readStarts c.val d.val p.val false = true →
    s.readTurn pfa mask.toNat offs = true → s.windowOpen c.val d.val p.val = true →
    ∃ t, exec (.fabReadLatch c d p mask) s = .next t ∧ tget t.med.planes (planeNo c.val d.val p.val) = some (.read pfa mask.toNat offs true) ∧
      t.med.latches = s.med.latches) ∧
  (∀ (c : Fin 32) (d : Fin 8) (p : Fin 4) (f : Fin 8192) (r : Fin 2) (level : Fin 16) (sweep : BitVec 8) (s : State),
    s.readStarts c.val d.val p.val true = true → s.readRefused c.val d.val (mkPfa c.val d.val p.val f.val r.val) = false →
    s.starTurn (planeNo c.val d.val p.val) = true → s.windowOpen c.val d.val p.val = true →
    exec (.fabReadStar c d p f r level sweep) s = .next (arrayRead (mkPfa c.val d.val p.val f.val r.val)
      (putPlane (planeNo c.val d.val p.val) (.star (mkPfa c.val d.val p.val f.val r.val) level.val (sbyte sweep.toNat))
        (windowCount c.val d.val (wakeCh c.val s))))) ∧
  (∀ (c : Fin 32) (d : Fin 8) (mode1 : Bool) (rows : List PlaneRow) (rs : List (Nat × MRow)) (u s : State),
    let pfas := rows.map (fun r => mkPfa c.val d.val r.plane.val r.field.val r.row.val)
    rows ≠ [] → onePerPlane rows = true → s.mayProgram c.val d.val = true → (pfas.all fun p => s.oneBit p == mode1) = true →
    (if mode1 then s.quadWhole1 c.val d.val pfas else !s.sealedWaits (groupOf c.val d.val) && s.quadWhole c.val d.val pfas) = true →
    (s.hostFirst c.val d.val = false ∨ ∀ p ∈ pfas, s.streamOf p ≠ some streamCollect ∧ s.streamOf p ≠ some streamCold) →
    images mode1 pfas s = some (rs, u) →
    ∃ t, exec (.fabProgram c d mode1 rows) s = .next t ∧ (t.die (dieNo c.val d.val)).op = .program mode1 rs ∧
      t.get (F.MCH_DIE_STATUS_OP c.val d.val) = 1 ∧ t.get (F.MCH_DIE_STATUS_SUSP_COUNT c.val d.val) = 0) ∧
  (∀ (c : Fin 32) (d : Fin 8) (mode1 : Bool) (r : PlaneRow) (s : State), let p := mkPfa c.val d.val r.plane.val r.field.val 0
    s.mayErase c.val d.val s.drainingPlates = true → s.sealedWaits (groupOf c.val d.val) = false → s.programWaits c.val d.val = false →
    s.eraseWaits p = true → mode1 = s.setMode1 (setOf p) →
    (∀ k < 4, s.eraseWaits (mkPfa c.val d.val k (pfaField p) 0) = true → k = pfaPlane p) →
    ∃ t, exec (.fabErase c d mode1 [r]) s = .next t ∧ (t.die (dieNo c.val d.val)).op = .erase mode1 [pfaFieldNo p] ∧
      t.get (F.MCH_DIE_STATUS_OP c.val d.val) = 2) ∧
  (∀ (c : Fin 32) (d : Fin 8) (s : State), s.suspendable c.val d.val = true →
    ∃ t, exec (.fabSuspend c d) s = .next t ∧ (t.die (dieNo c.val d.val)).suspending = true ∧
      t.get (F.MCH_DIE_STATUS_SUSP_COUNT c.val d.val) = min 8 (s.get (F.MCH_DIE_STATUS_SUSP_COUNT c.val d.val) + 1)) ∧
  (∀ (c : Fin 32) (d : Fin 8) (s : State), (s.die (dieNo c.val d.val)).suspending = true →
    ∃ t, exec (.suspendDone c d) s = .next t ∧ (t.die (dieNo c.val d.val)).suspending = false ∧ t.get (F.MCH_DIE_STATUS_SUSPENDED c.val d.val) = 1 ∧
      (t.die (dieNo c.val d.val)).op = (s.die (dieNo c.val d.val)).op) ∧
  (∀ (c : Fin 32) (d : Fin 8) (s : State), s.dieSuspended c.val d.val = true → s.dieReads (dieNo c.val d.val) = false →
    (s.windowReads c.val d.val = false ∨ s.get (F.MCH_SCHED_CFG_WIN_READS c.val) ≤ (s.die (dieNo c.val d.val)).win ∨
      s.get (F.MCH_SCHED_CFG_WIN_US c.val) * 1000 ≤ s.now - (s.die (dieNo c.val d.val)).winAt) →
    ∃ t, exec (.fabResume c d) s = .next t ∧ exec (.suspendWindowEnd c d) s = .next t ∧ t.get (F.MCH_DIE_STATUS_SUSPENDED c.val d.val) = 0 ∧
      (8 ≤ s.get (F.MCH_DIE_STATUS_SUSP_COUNT c.val d.val) → t.get (F.MCH_DIE_STATUS_SLICE c.val d.val) = 1) ∧
      (s.get (F.MCH_DIE_STATUS_SUSP_COUNT c.val d.val) < 8 → t.get (F.MCH_DIE_STATUS_SLICE c.val d.val) = s.get (F.MCH_DIE_STATUS_SLICE c.val d.val))) ∧
  (∀ (c : Fin 32) (d : Fin 8) (s : State), s.on (F.MCH_DIE_STATUS_SLICE c.val d.val) = true →
    ∃ t, exec (.progressSliceEnd c d) s = .next t ∧ t.get (F.MCH_DIE_STATUS_SLICE c.val d.val) = 0 ∧ t.get (F.MCH_DIE_STATUS_SUSP_COUNT c.val d.val) = 0) ∧
  (∀ (c : Fin 32) (d : Fin 8) (s : State), s.chTakes c.val true = true → (s.die (dieNo c.val d.val)).op = .none → s.dieReads (dieNo c.val d.val) = false →
    exec (.fabIdent c d) s = .next (modDie (dieNo c.val d.val) (fun _ => { DieSt.reset with op := .ident })
      (dropLatches (dieNo c.val d.val) (wakeCh c.val s)))) ∧
  (∀ (c : Fin 32) (d : Fin 8) (s : State), s.chTakes c.val true = true → exec (.fabResetDie c d) s =
    .next (modDie (dieNo c.val d.val) (fun _ => { DieSt.reset with op := .resetDie }) (wakeCh c.val (abortDie c.val d.val s)))) ∧
  (∀ (c : Fin 32) (step : Fin 6) (s : State), s.chTakes c.val true = true → 1 ≤ step.val → tget s.med.training c.val = none →
    exec (.fabTrain c step) s = .next (wakeCh c.val (s.modMed (fun m => { m with training := tset m.training c.val step.val }))))

/-- R87 to R107, R143: the ends of fabric commands.
Where it rests on a choice of the model, that is: notes/assumptions/29.md, notes/assumptions/30.md, notes/assumptions/33.md. -/
def Obligations.FabricCommandsEnd : Prop :=
  (∀ (plane : Fin 1024) (pfa : Nat) (offs : List Int) (l : Bool) (ns : Nat) (s : State), tget s.med.planes plane.val = some (.read pfa 1 offs l) →
    s.med.reads = [] →
    exec (.readComplete plane [] ns) s = .next (settle ((leafArrived pfa 0 .clean 0 false false
      ((emit (.fabric (plane.val / 32) (plane.val / 4 % 8) (if l then 2 else 1) 0) s).modMed (fun m =>
        { m with planes := terase m.planes plane.val, latches := tset m.latches plane.val (pfa, offs) }))).modMed (fun m =>
        { m with cancelled := m.cancelled.filter (fun p => !(p.1 == pfa && (1 : Nat).testBit p.2)) })))) ∧
  (∀ (q : RdReq) (r : HReq) (ns kid : Nat) (d : Line) (s t : State), q.src = .host r → q.hdr = false → (s.row q.pfa).map (·.kid) = some kid →
    mediaLine q.pfa r.ld (folioOf r.dpa) (frameOf r.dpa) kid q.line (laneCount 1 (dropRead q s)) = (d, t) →
    serveRead q ns s = latencyMiss r.ld ns (!r.waited && !q.ext && decide (q.step = 0) &&
      decide (s.get (F.MCH_UTIL_LAST (pfaCh q.pfa)) ≤ 700) && s.chUp (pfaCh q.pfa))
        (when (decide (1 ≤ q.step)) (fun u => measOwnStart (setOf q.pfa) false (incF F.DRIFT_EXT_CNT_LADDER 1 u))
          (cnt (bLD r.ld) 9 ns (sendData r (mergeLine q.ovMask d q.ovData) false t)))) ∧
  (∀ (plane : Fin 1024) (e14 e15 : Fin 577) (pfa : Nat) (sweep : Int) (m : Meas) (s : State),
    tget s.med.planes plane.val = some (.star pfa 15 sweep) → s.measAt pfa = some m → s.measSweep m = sweep →
    exec (.readStarComplete plane false e14 e15) s =
      .next (measShift (·.set == m.set) (measProbe m (min e14.val (starCells 0 14)) (min e15.val (starCells 0 15))
        ((emit (.fabric (plane.val / 32) (plane.val / 4 % 8) 3 0) s).modMed (fun m => { m with planes := terase m.planes plane.val }))))) ∧
  (∀ (id ns : Nat) (r : Rebuild) (s : State), s.med.rebuilds = [r] → r.id = id → r.failed = false → r.left = [] →
    s.med.reads = [] → exec (.rebuildComplete id false ns) s = .next (settle
      ((setErr (F.MCH_ERR_STATUS_REBUILD_FAIL (pfaCh r.pfa)) intMch (s.modMed (fun m =>
        { m with rebuilds := [{ r with failed := true, left := [] }], reads := [] }))).modMed (fun m => { m with rebuilds := [] })))) ∧
  (∀ (id ns : Nat) (r : Rebuild) (s : State), s.med.rebuilds = [r] → r.id = id → r.failed = false → r.left = [] → s.med.reads = [] →
    exec (.rebuildComplete id true ns) s = .next (settle
      ((bufferLeaves r.pfa [r.leaf] false (s.modMed (fun m => { m with rebuilds := [{ r with done := true }] }))).modMed (fun m => { m with rebuilds := [] })))) ∧
  (∀ (c : Fin 32) (d : Fin 8) (m1 : Bool) (x : Nat × MRow) (s : State), s.dieSuspended c.val d.val = false →
    (s.die (dieNo c.val d.val)).op = .program m1 [x] →
    exec (.programComplete c d []) s = .next (after (settle (rowDone x.1 x.2 (cnt (bMCH c.val) (if m1 then 5 else 4) 1
      (dieIdle c.val d.val (emit (.fabric c.val d.val 4 0) s))))))) ∧
  (∀ (c : Fin 32) (d : Fin 8) (p : Fin 4) (m1 : Bool) (x : Nat × MRow) (s : State), s.dieSuspended c.val d.val = false →
    (s.die (dieNo c.val d.val)).op = .program m1 [x] → pfaPlane x.1 = p.val →
    exec (.programComplete c d [p]) s = .next (after (settle (rowFail x.1 x.2 (cnt (bMCH c.val) (if m1 then 5 else 4) 1
      (dieIdle c.val d.val (emit (.fabric c.val d.val 4 3) s))))))) ∧
  (∀ (c : Fin 32) (d : Fin 8) (m1 : Bool) (f : Nat) (s : State), s.dieSuspended c.val d.val = false →
    (s.die (dieNo c.val d.val)).op = .erase m1 [f] →
    ∃ u, exec (.eraseComplete c d []) s = .next (fldRecount (eraseSetCheck (fieldSet f) (setF F.DRIFT_RWQ_DEPTH u.drift.rwq.length u))) ∧
      u = fieldTo f (fun r => { r with ec := r.ec + 1, erasePend := false, mode1 := m1, rows := 0 })
        (cnt bFLD 3 1 (drecClear (fieldSet f) (fieldErased f (cnt (bMCH c.val) 6 1 (dieIdle c.val d.val (emit (.fabric c.val d.val 5 0) s))))))) ∧
  (∀ (c : Fin 32) (d : Fin 8) (s : State), (s.die (dieNo c.val d.val)).op = .ident →
    exec (.dieCmdDone c d 0 true) s = .next (after (emit (.fabric c.val d.val 8 0)
      (setF (F.MCH_DIE_STATUS_PRESENT c.val d.val) 1 (modDie (dieNo c.val d.val) (fun _ => DieSt.reset) s))))) ∧
  (∀ (c : Fin 32) (d : Fin 8) (step : Nat) (s : State), tget s.med.training c.val = some step →
    exec (.dieCmdDone c d 2 false) s = .next (after (settle (capRecompute (dieOutNow c.val d.val (emit (.fabric c.val d.val 10 5)
      (setErr (F.MCH_ERR_STATUS_TRAIN_FAIL c.val) intMch (stepPassed c.val step (some d.val)
        (s.modMed (fun m => { m with training := terase m.training c.val })))))))))) ∧
  (∀ (c : Fin 32) (d : Fin 8) (ns : Nat) (s : State), s.dieSuspended c.val d.val = false → (s.die (dieNo c.val d.val)).op = .ident →
    exec (.fabricTimeout c d none ns) s = .next (after (modDie (dieNo c.val d.val) (fun _ => { DieSt.reset with op := .resetDie })
      (abortDie c.val d.val (emit (.fabric c.val d.val 8 2) (setErr (F.MCH_ERR_STATUS_TIMEOUT c.val) intMch s)))))) ∧
  (∀ (c : Fin 32) (d : Fin 8) (s : State), s.get (F.MCH_STATUS_STATE c.val) = chOnline → s.on (F.MCH_DIE_STATUS_FAILED c.val d.val) = false →
    exec (.dieLost c d) s = .next (after (settle (capRecompute (chanCheck c.val (dieFieldsBad c.val d.val
      (dieGoneWork c.val d.val (dieFail c.val d.val (setErr (F.MCH_ERR_STATUS_DIE_LOST c.val) intMch s)))))))) ∧
    (dieFail c.val d.val s).get (F.MCH_DIE_STATUS_FAILED c.val d.val) = 1) ∧
  (∀ (c : Fin 32) (s : State), s.get (F.MCH_STATUS_STATE c.val) = 1 → (∀ d < 8, s.on (F.MCH_DIE_STATUS_FAILED c.val d) = false) →
    ∃ u, exec (.trainingDone c 255 255) s = .next (after (settle (capRecompute (sweepStart (fun x => (chanGroups c.val).contains (setGroup x)) u)))) ∧
      u.get (F.MCH_STATUS_DIE_OK c.val) = 255 ∧
      u.get (F.MCH_STATUS_STATE c.val) = 2 ∧ u.glb = s.glb) ∧
  (∀ (c : Fin 32) (s : State), s.get (F.MCH_STATUS_STATE c.val) = chOnline → s.glb.mode = .quiet → s.med.planes = [] → s.med.dies = [] →
    exec (.channelSleep c) s = .next (chBufferDrop c.val (setF (F.MCH_STATUS_STATE c.val) chSleep s))) ∧
  (∀ (c : Fin 32) (permille : Fin 1001) (cycles : BitVec 32) (s : State), ∃ t, exec (.utilWindow c permille cycles) s = .next t ∧
    t.get (F.MCH_UTIL_LAST c.val) = permille.val ∧ t.get (F.MCH_UTIL_PEAK c.val) = max permille.val (s.get (F.MCH_UTIL_PEAK c.val)) % 1024)

/-- R105, R106, R295, R306 to R309: the reload rows.
Where it rests on a choice of the model, that is: notes/assumptions/50.md. -/
def Obligations.LiveReloadsRunPerUnit : Prop :=
  (∀ (m : Master) (v : BitVec 32) (s : State), v.toNat.testBit 31 = true → s.on F.IMG_RELOAD_STATUS_BUSY = false →
    let u (n : Nat) : State := storeAt 0x380020 (putBits 24 4 n v.toNat) s
    exec (.reloadChan m v) s = .next (after (chanReload ((u 1).get F.IMG_RELOAD_CHANNEL) ((u 1).get F.IMG_RELOAD_SRC) (u 1))) ∧
    exec (.reloadReg m v) s = .next (after (regReload ((u 2).get F.IMG_RELOAD_SRC) (u 2))) ∧
    exec (.reloadDome m v) s = .next (after (domeReload ((u 3).get F.IMG_RELOAD_SRC) (u 3))) ∧
    exec (.reloadStandbyAssist m v) s = .next (after (asstReload ((u 4).get F.IMG_RELOAD_SRC) (u 4))) ∧
    exec (.swap m v) s = .next (after (swapStart ((u 5).get F.IMG_RELOAD_SRC) (u 5)))) ∧
  (∀ (m : Master) (v : BitVec 32) (s : State), v.toNat.testBit 31 = true → s.on F.IMG_RELOAD_STATUS_BUSY = false → v.toNat / 2 ^ 24 % 16 = 0 →
    exec (.reloadUnitInvalid m v) s = .next (after (storeAt 0x380020 (putBits 24 4 0 v.toNat) s))) ∧
  (∀ (c src : Nat) (i : Image) (g : ChanSeg) (s : State), s.reloadImage src = some i → i.segOf c = some g → s.glb.transTo = none →
    s.dome.huOk = true → s.get (F.MCH_STATUS_STATE c) = chOnline →
    chanReload c src s = quiesceStart c g (reloadBegin 1 c src s)) ∧
  (∀ (c src : Nat) (i : Image) (s : State), s.reloadImage src = some i → i.segOf c = none → (chanReload c src s).get F.IMG_RELOAD_STATUS_RESULT = 4 ∧
    (chanReload c src s).get F.IMG_RELOAD_STATUS_REASON = 2) ∧
  (∀ (c : Fin 32) (s : State), s.get (F.MCH_STATUS_STATE c.val) = 4 → s.med.dies = [] → s.med.planes = [] →
    exec (.quiesceDone c) s = .next (after (orphanReads (fun a => pfaCh a == c.val) (chBufferDrop c.val (setF (F.MCH_STATUS_STATE c.val) 5
      (s.modMed (fun m => { m with quiesced := tset m.quiesced c.val s.now }))))))) ∧
  (∀ (c : Fin 32) (g : ChanSeg) (s : State), s.get (F.MCH_STATUS_STATE c.val) = 5 → s.on (F.MCH_STATUS_ROLLBACK c.val) = false →
    tget s.img.nextSegs c.val = some g →
    exec (.segmentLoaded c true) s = .next (after (setF (F.MCH_STATUS_STATE c.val) 6
      (seqAll (fun d t => modPhy c.val d 0 t) (List.range 8) (applySeg c.val g s))))) ∧
  (∀ (c : Fin 32) (s : State), s.get (F.MCH_STATUS_STATE c.val) = 5 → s.on (F.MCH_STATUS_ROLLBACK c.val) = false →
    (tget s.img.oldSegs c.val).isSome = true →
    exec (.segmentLoaded c false) s = .next (after (setErr (F.MCH_ERR_STATUS_RELOAD_FAIL c.val) intMch
      (setF (F.MCH_STATUS_ROLLBACK c.val) 1 (setF (F.MCH_STATUS_STATE c.val) 5 s))))) ∧
  (∀ (c : Fin 32) (s : State), s.get (F.MCH_STATUS_STATE c.val) = 6 → (∃ d < 8, s.on (F.MCH_DIE_STATUS_FAILED c.val d) = false) →
    exec (.retrainDone c true) s = .next (after (setF (F.MCH_STATUS_STATE c.val) 7 s))) ∧
  (∀ (c : Fin 32) (s : State), s.get (F.MCH_STATUS_STATE c.val) = 7 → s.on (F.MCH_STATUS_ROLLBACK c.val) = false →
    ∃ u, exec (.checkDone c true) s = .next (after (settle (capRecompute (reloadEnd 1 u)))) ∧ u.get (F.MCH_STATUS_STATE c.val) = chOnline ∧
      u.get (F.MCH_RECONF_BUSY c.val) = 0 ∧ u.get (F.MCH_RECONF_RESULT c.val) = 1 ∧ u.img = s.img) ∧
  (∀ (s : State), s.dome.flip = true → s.seqsBusy = false → s.img.reload = none →
    exec .domeBankFlip s = .next (after (s.modDome (fun d => { d with bank := 1 - d.bank, flip := false })))) ∧
  (∀ (g : AsstSeg) (s : State), s.standbyCore = 0 → s.img.asstA = some g → s.img.reload = none →
    exec .standbyReady s = .next (after (setF F.IMG_ASSIST_STANDBY_READY 1 s))) ∧
  (∀ (s : State), s.on F.IMG_ASSIST_STANDBY_READY = false → s.img.reload = none →
    exec .assistReadyTimeout s = .next (after (asstLoad s.standbyCore none s))) ∧
  (∀ (s : State), s.on F.IMG_ASSIST_SWAP_BUSY = true →
    exec .swapTimeout s = .next (after (reloadEnd 3 (setErr F.IMG_ERR_STATUS_SWAP_FAIL intImg (setF F.IMG_ASSIST_SWAP_BUSY 0 s))))) ∧
  (∀ (src : Nat) (s : State), s.glb.transTo = none → s.on F.IMG_ASSIST_STANDBY_READY = true →
    swapStart src s = setF F.IMG_ASSIST_SWAP_BUSY 1 (reloadBegin 5 0 src s)) ∧
  (∀ (res : Nat) (r : Reload) (s : State), s.img.reload = some r → s.img.act = none → res < 8 →
    (reloadEnd res s).img.reload = none ∧ (reloadEnd res s).get F.IMG_RELOAD_STATUS_BUSY = 0 ∧ (reloadEnd res s).get F.IMG_RELOAD_STATUS_RESULT = res)

/-- R110 to R128: the drift rows.
Where it rests on a choice of the model, that is: notes/assumptions/36.md. -/
def Obligations.DriftIsMeasuredScrubbedAndQueried : Prop :=
  (∀ (s : State), s.glb.mode = .active ∨ s.glb.mode = .quiet → ∃ t, exec .driftMinuteTick s = .next t ∧ t.drift.partMin = 0 ∧
    t.get F.DRIFT_MINUTES_MINUTES = (s.get F.DRIFT_MINUTES_MINUTES + 1) % 2 ^ 32) ∧
  (∀ (set : Fin 1048576) (s : State), s.glb.mode = .active → s.dur.drain = 0 → s.isDue set.val = true → s.on F.DRIFT_CTL_FORCE_EN = false →
    s.set4 set.val = true → s.drift.meas = [] →
    exec (.driftDue set) s = .next (sweepStatus (s.modDrift (fun d => { d with meas := [⟨set.val, s.measOwn set.val, 6, 0, 0, 15, 576, false⟩] })))) ∧
  (∀ (m : Meas) (e14 e15 : Nat) (s : State), s.drift.meas = [m] → e14 ≤ e15 → m.lo < (m.lo + m.hi + 1) / 2 - 1 →
    (measProbe m e14 e15 s).drift.meas = [{ m with hi := (m.lo + m.hi + 1) / 2 - 1, best := min m.best (e14 + e15) }]) ∧
  (∀ (m : Meas) (e14 e15 : Nat) (s : State), s.drift.meas = [m] → e15 < e14 → (m.lo + m.hi + 1) / 2 < m.hi →
    (measProbe m e14 e15 s).drift.meas = [{ m with lo := (m.lo + m.hi + 1) / 2, best := min m.best (e14 + e15) }]) ∧
  (∀ (m : Meas) (e14 e15 : Nat) (s : State), e15 < e14 → m.hi ≤ (m.lo + m.hi + 1) / 2 → min m.best (e14 + e15) ≤ s.get F.DRIFT_MEAS_CFG_MAX_ERR →
    measProbe m e14 e15 s = cnt bDRIFT 0 1 (measServe m.set (measRemove m.set (writeDrec m.set m.row m.member ((m.lo + m.hi + 1) / 2) (cnt bDRIFT 1 1 s))))) ∧
  (∀ (set : Nat) (wrapped : Bool) (s : State), s.on F.DRIFT_CTL_SCRUB_EN = true → s.glb.mode = .active → s.dur.drain = 0 →
    s.scrubNext = some (set, wrapped) → s.scrubWaits set = false → set + 1 < 2 ^ 20 → (∃ x ∈ s.usedSets, set < x) →
    ∃ t, exec (.scrubVisit []) s = .next t ∧ t.get F.DRIFT_SCRUB_POS_SET = set + 1) ∧
  (∀ (m : Master) (v : Word) (s : State), v.toNat.testBit 63 = true → ∃ t, exec (.driftQuery m v) s = .next t ∧
    t.get F.DRIFT_QUERY_RESULT_RECORD = (s.drec (v.toNat % 2 ^ 20)).word % 2 ^ 32 ∧ t.get F.DRIFT_QUERY_RESULT_DONE = 1) ∧
  (∀ (m : Master) (v : BitVec 32) (s : State), let u := storeAt 0x300000 v.toNat s
    u.on F.DRIFT_CTL_FORCE_EN = true → s.on F.DRIFT_CTL_FORCE_EN = false → s.drift.meas = [] →
    exec (.driftCtlWrite m v) s =
      .next (logPut sevWarning 0x0703 (u.get F.DRIFT_CTL_FORCE_CLASS) 0 0 0 (sweepStatus (u.modDrift (fun d => { d with meas := [] }))))) ∧
  (∀ (m : Master) (v : BitVec 32) (s : State), (storeAt 0x300000 v.toNat s).on F.DRIFT_CTL_FORCE_EN = false →
    exec (.driftCtlWrite m v) s = .next (storeAt 0x300000 v.toNat s))

/-- A mover that takes up a copying job at the set `set`, from the state `u` that shows the victim. -/
def Says.takesUp (c : Instr) (m : Fin 4) (g : Fin 32) (job set : Nat) (leaves : List SlotLeaf) (u s : State) : Prop :=
  exec c s = .next (copyBatch m.val g.val leaves (takeSet m.val job set u))

/-- R140 to R159: the rows of field management.
Where it rests on a choice of the model, that is: notes/assumptions/31.md, notes/assumptions/67.md. -/
def Obligations.MoversAndFieldsWork : Prop :=
  (∀ (m : Fin 4) (g : Fin 32) (bad : List SlotLeaf) (set : Nat) (sc : Int) (s : State), (s.mover m.val).job = 0 → s.jobNext jobGc = true →
    s.fld.paused = [] → s.gcVictim = some (set, sc) →
    Says.takesUp (.gcJob m g bad) m g jobGc set bad (victimShow set jobGc sc s) s) ∧
  (∀ (m : Fin 4) (g : Fin 32) (bad : List SlotLeaf) (set : Nat) (s : State), (s.mover m.val).job = 0 → s.jobNext jobWear = true →
    s.fld.paused = [] → s.wearPick = some set →
    Says.takesUp (.wearJob m g bad) m g jobWear set bad (victimShow set jobWear (s.score set) s) s) ∧
  (∀ (m : Fin 4) (g : Fin 32) (bad : List SlotLeaf) (f : Nat) (s : State), let u := rwqDrop s
    s.on F.FLD_CTL_REWRITE_EN = true → s.jobMode jobRewrite = true → (u.mover m.val).job = 0 → u.jobNext jobRewrite = true → u.fld.paused = [] → u.rewritePick = some f →
    Says.takesUp (.rewriteJob m g bad) m g jobRewrite (fieldSet f) bad (victimShow (fieldSet f) jobRewrite (u.score (fieldSet f))
      (setF F.DRIFT_RWQ_DEPTH (u.drift.rwq.length - 1) (u.modDrift (fun d => { d with rwq := d.rwq.filter (· != f) })))) s) ∧
  (∀ (m : Fin 4) (g : Fin 32) (bad : List SlotLeaf) (set : Nat) (l : List Nat) (s : State), (s.mover m.val).job = 0 → s.jobNext jobRelocate = true →
    s.fld.paused = [] → s.fld.relocQ = set :: l →
    Says.takesUp (.relocateJob m g bad) m g jobRelocate set bad (victimShow set jobRelocate (s.score set)
      (s.modFld (fun f => { f with relocQ := f.relocQ.filter (· != set) }))) s) ∧
  (∀ (m : Fin 4) (g : Fin 32) (bad : List SlotLeaf) (s : State), (s.mover m.val).job = jobGc → s.jobMode jobGc = true →
    exec (.gcJob m g bad) s = .next (copyBatch m.val g.val bad s)) ∧
  (∀ (m : Fin 4) (set : Nat) (l : List Nat) (s : State), (s.mover m.val).job = 0 → s.jobNext jobVerify = true → s.fld.verifyQ = set :: l →
    s.mayGo classMover 0 (s.setRows set * (s.verifyMembers set).length * 16384) = true →
    (∀ k ∈ s.verifyMembers set, s.unitHow (setPfa set k 2) false = .array) →
    ∃ u : State, exec (.verifyJob m []) s = .next (moverIdle m.val (if u.setBad set then
        fldRecount (relocate set (u.modFld (fun f => { f with verifyQ := f.verifyQ.filter (· != set) }))) else setVerified set u))) ∧
  (∀ (m : Fin 4) (g : Fin 32) (ld f ctx : Nat) (l : List (Nat × Nat × Nat)) (s : State), let u := s.modFld (fun x => { x with sealQ := x.sealQ.drop 1 })
    (s.mover m.val).job = 0 → s.jobNext jobSeal = true → 64 ≤ min (s.get F.FLD_BUF_CFG_MOV_TOKENS) s.frameFree →
    s.copyMay 64 = true →
    s.on F.XLAT_POOL_STATUS_CRIT = false → s.fld.sealQ = (ctx, ld, f) :: l → u.sealHow ld f = .skip →
    exec (.sealJob m g []) s = .next (cnt bFLD (3 + jobSeal) 1 (ringSealed (some ctx) false (moverSkip m.val 1 u)))) ∧
  (∀ (m : Fin 4) (g : Fin 32) (ld f : Nat) (ctx : Nat) (l : List (Nat × Nat × Nat)) (s : State), let u := s.modFld (fun x => { x with sealQ := x.sealQ.drop 1 })
    (s.mover m.val).job = 0 → s.jobNext jobSeal = true → 64 ≤ min (s.get F.FLD_BUF_CFG_MOV_TOKENS) s.frameFree →
    s.copyMay 64 = true →
    s.on F.XLAT_POOL_STATUS_CRIT = false → s.fld.sealQ = (ctx, ld, f) :: l → u.sealHow ld f = .go →
    (∀ i < 64, frState (u.frameOfFolio (u.folio ld f) i) = 1 → u.moverHow (frLoc (u.frameOfFolio (u.folio ld f) i)) ≠ .wait ∧
      u.moverHow (frLoc (u.frameOfFolio (u.folio ld f) i)) ≠ .gone) →
    exec (.sealJob m g []) s = .next (sealCopy m.val (s.placeGroup g.val) ld f (some ctx) [] u)) ∧
  (∀ (set : Fin 1048576) (s : State), s.fld.eraseQ.contains set.val = true → s.setRead set.val = false →
    exec (.setErase set) s = .next (s.modFld (fun f => { f with eraseQ := f.eraseQ.filter (· != set.val), erasing := f.erasing ++ [set.val] }))) ∧
  (∀ (m : Master) (v : BitVec 32) (s : State), exec (.weightsWrite m v) s = .next ((storeAt 0x80010 v.toNat s).modFld (fun f => { f with rebin := true }))) ∧
  (∀ (s : State), s.fld.rebin = true → exec .rebinDone s =
    .next ((seqAll (fun p t => rescore p.1 t) s.fld.bins s).modFld (fun f => { f with rebin := false }))) ∧
  (∀ (set : Nat) (s : State), s.eligible set = true → s.setV set ≠ 0 →
    (tget (rescore set s).fld.bins set).map (·.1) = some (s.score set + 2048).toNat) ∧
  (∀ (m : Master) (s : State), exec (.wearStart m 1) s = .next (setF F.FLD_WEAR_STATUS_CAMPAIGN 1 (setF F.FLD_STATUS_WEAR_ACTIVE 1
    (s.modFld (fun f => { f with campaignEnd := false }))))) ∧
  (∀ (m : Master) (s : State), s.fld.movers = [] → s.fld.paused = [] → exec (.wearStop m 2) s = .next (campaignStop s)) ∧
  (∀ (m : Master) (v : Word) (s : State), v.toNat.testBit 63 = true → let x := v.toNat % 2 ^ 20
    ∃ t, exec (.scoreQuery m v) s = .next t ∧ t.get F.FLD_SCORE_R_SCORE = field12 (s.score x) % 2 ^ 12 ∧ t.get F.FLD_SCORE_R_DONE = 1 ∧
      t.get F.FLD_SCORE_R_ELIGIBLE = (s.eligible x).toNat ∧ t.get F.FLD_SCORE_R_EC = min 8191 (s.setEc x)) ∧
  (∀ (m : Master) (v : BitVec 32) (s : State), s.on F.FLD_CTL_VERIFY_EN = false → exec (.fldCtlWrite m v) s = .next (storeAt 0x80000 v.toNat s)) ∧
  (∀ (m : Master) (v : BitVec 32) (s : State), let u := storeAt 0x80000 v.toNat s
    s.on F.FLD_CTL_VERIFY_EN = true → u.on F.FLD_CTL_VERIFY_EN = false →
    exec (.fldCtlWrite m v) s = .next (seqAll setVerified u.fld.verifyQ (logPut sevWarning 0x0603 u.fld.verifyQ.length 0 0 0 u)))

/-- What a checkpoint that is cut now holds: its quads opened and placed, and the cut (R181, R183). -/
def Says.ckptCut (s : State) : Ckpt :=
  let p := s.ckptPlace (s.ckptBytes (s.cut false) / quadBytes + 1)
  { (ckptOpen p.1 s).cut false with sets := p.1, hdr := p.2 }

/-- R168 to R180: the durability rows.
Where it rests on a choice of the model, that is: notes/assumptions/37.md. -/
def Obligations.JournalSyncAndCheckpointRun : Prop :=
  (∀ (r : JRec) (l : List JRec) (s : State), s.dur.build = r :: l →
    exec .journalSealTimer s = .next (sealRecs false false false (r :: rowFill (3840 - r.len) l)
      (s.modDur (fun d => { d with build := d.build.drop (r :: rowFill (3840 - r.len) l).length })))) ∧
  (∀ (ageUs : Nat) (s : State), s.dur.rows ≠ [] →
    exec (.lagMiss ageUs) s = .next (logPut sevWarning 0x0501 ageUs 0 0 0 (cnt bDUR 3 1 (incF F.DUR_LAG_CNT_MISSES 1
      (setErr F.DUR_ERR_STATUS_LAG_MISS intDur s))))) ∧
  (∀ (tok : Nat) (f : Frame) (s : State), tget s.coal.frames tok = some f → f.bypass = true →
    exec (.bypassExpire tok) s = .next (sealAll false (cnt bDUR 6 1 (captureChunks f
      (s.modCoal (fun c => { c with frames := tset c.frames tok { f with bypass := false } })))))) ∧
  (∀ (m : Master) (v : BitVec 32) (s : State), v.toNat.testBit 31 = true →
    exec (.durSyncGo m v) s = .next (syncDrain .sync (setF F.DUR_SYNC_DONE 0 (storeAt 0x50060 v.toNat s)))) ∧
  (∀ (s : State), (forceDone .sync s).get F.DUR_SYNC_DONE = 1) ∧
  (∀ (s : State), s.on F.DUR_STATUS_HU_OK = true → s.glb.mode = .active → ∃ t, exec (.huOkChange false) s = .next t ∧
    t.get F.DUR_STATUS_HU_OK = 0 ∧ t.on F.DUR_ERR_STATUS_HU_LOW = true ∧ t.dome.huOk = false) ∧
  (∀ (m : Master) (v : BitVec 32) (s : State), v.toNat.testBit 0 = true → s.dur.writing = none →
    ∃ t, exec (.ckptGo m v) s = .next t ∧ t.dur.writing = some (Says.ckptCut s) ∧ t.get F.DUR_STATUS_CKPT_BUSY = 1) ∧
  (∀ (s : State), s.on F.DUR_CTL_CKPT_AUTO = true → s.dur.drain = 0 → (s.glb.mode = .active ∨ s.glb.mode = .quiet) → s.dur.writing = none →
    ∃ t, exec .ckptPeriod s = .next t ∧ t.dur.writing = some (Says.ckptCut s) ∧ t.dur.sinceCut = 0) ∧
  (∀ (c : Ckpt) (s : State), s.xlat.rebuilding = [] → s.dur.writing = some c → s.alm.wp = false →
    (c.clean = true ∨ s.mayGo classMover 1 (s.ckptBytes c) = true) → ∃ u, exec .ckptComplete s = .next (after (ckptNext (ckptKeep u))) ∧ u.dur.ckpts = c :: s.dur.ckpts ∧ u.dur.writing = none ∧
      u.get F.DUR_CKPT_STATUS_LAST_CLEAN = c.clean.toNat ∧ u.get F.DUR_CKPT_STATUS_PSEQ = c.pseq % 2 ^ 48) ∧
  (∀ (s : State), s.asstStalled = false → (s.glb.mode = .active ∨ s.glb.mode = .quiet ∨ s.glb.mode = .parked) → exec .powerHourTick s = .next (odoPut odoHours ((s.odo odoHours + 1) % 2 ^ 64) s))

/-- R203 to R213, R240: the working-memory rows.
Where it rests on a choice of the model, that is: notes/assumptions/6.md, notes/assumptions/48.md. -/
def Obligations.WorkingMemoryRows : Prop :=
  (∀ (rank rate : Nat) (hot : Bool) (s : State), exec (.mr4Poll [(rank, rate, hot)]) s =
    .next (s.modWm (fun w => { w with refresh := tset w.refresh rank (rate, hot) }))) ∧
  (∀ (e : MergeEnt) (l : List MergeEnt) (out : WmOut) (s : State), s.wm.merge = e :: l → e.mask = 2 ^ 64 - 1 →
    exec (.mergeHoldExpire out) s = .next (wmLineWritten e.line (unmark e.line (incF F.WMEM_MERGE_CNT_FULL 1 (wmStoreBytes e.line e.mask e.bytes
      (s.modWm (fun w => { w with merge := w.merge.filter (fun x => x.line != e.line) }))))))) ∧
  (∀ (e : MergeEnt) (l : List MergeEnt) (s : State), s.wm.merge = e :: l → e.mask ≠ 2 ^ 64 - 1 → s.wm.markers = [] →
    exec (.mergeHoldExpire .clean) s = .next (wmLineWritten e.line (unmark e.line (cnt bWMEM 4 1 (wmLineRead e.line (incF F.WMEM_MERGE_CNT_RMW 1
      (wmStoreBytes e.line e.mask e.bytes (s.modWm (fun w => { w with merge := w.merge.filter (fun x => x.line != e.line) }))))))))) ∧
  (∀ (e : MergeEnt) (l : List MergeEnt) (loc : WmLoc) (s : State), s.wm.merge = e :: l → e.mask ≠ 2 ^ 64 - 1 →
    ∃ t, exec (.mergeHoldExpire (.uncorrectable loc)) s = .next t ∧ t.on F.WMEM_ERR_STATUS_RMW_UE = true ∧ e.line ∈ t.wm.markers) ∧
  (∀ (s : State), s.on F.WMEM_SCRUB_CFG_EN = true → s.glb.mode = .active → s.wm.merge = [] → s.wm.markers = [] →
    exec (.patrolScrub .clean) s = .next (scrubAdvance (cnt bWMEM 5 1 (cnt bWMEM 0 1 s)))) ∧
  (∀ (loc : WmLoc) (s : State), s.on F.WMEM_SCRUB_CFG_EN = true → s.glb.mode = .active → s.wm.merge = [] →
    exec (.patrolScrub (.uncorrectable loc)) s =
      .next (scrubAdvance (setErr F.WMEM_ERR_STATUS_SCRUB_UE intWmem (wmUe (s.wmLoc (s.get F.WMEM_SCRUB_POS_LINE) loc.dev) (cnt bWMEM 5 1 (cnt bWMEM 0 1 s)))))) ∧
  (∀ (m : Master) (c : Fin 4) (v : BitVec 32) (s : State), let u := setF (F.WMEM_TEST_RESULT_DONE c.val) 0 (storeAt (0x310100 + c.val * 0x4000) v.toNat s)
    v.toNat.testBit 31 = true → s.on (F.WMEM_TEST_CTL_BUSY c.val) = false →
    ((storeAt (0x310100 + c.val * 0x4000) v.toNat s).get (F.WMEM_TEST_CTL_OP c.val) = 1 → exec (.testWrite m c v) s = .next (testWrite c.val u)) ∧
    ((storeAt (0x310100 + c.val * 0x4000) v.toNat s).get (F.WMEM_TEST_CTL_OP c.val) = 2 → exec (.testRead m c v) s = .next (testRead c.val u))) ∧
  (∀ (c : Nat) (s : State), (testRead c s).get (F.WMEM_TEST_RESULT_DONE c) = 1) ∧
  (∀ (c : Nat) (s : State), ∃ d k, tget (testWrite c s).wm.test (testLine c s) = some (d, k)) ∧
  (∀ (m : Master) (c : Fin 4) (v : BitVec 32) (s : State), v.toNat.testBit 31 = true →
    ∃ t, exec (.ceTableClear m c v) s = .next t ∧ tget t.wm.ce c.val = none) ∧
  (∀ (m : Master) (v : BitVec 32) (s : State), v.toNat.testBit 31 = true →
    ∃ t, exec (.mediaTableClear m v) s = .next t ∧ t.wm.media = [] ∧ t.get F.ECC_MEDIA_STATUS_ENTRIES = 0) ∧
  (∀ (s : State), s.on F.MERID_STATUS_REKEY = true → exec .rekeyDone s =
    .next (settle (setF F.MERID_HWM 0 (setF F.MERID_STATUS_REKEY 0 (s.modCiph (fun c => { c with ctr := [], cache := [] }))))))

/-- The operation that a KEY command's entry stands for. -/
def Says.keyOp (c : RCmd) (op : Nat) : KeyOp :=
  ⟨some c.id, op, (c.param.getD 0 0 + 256 * c.param.getD 1 0) % 4096, (c.param.getD 2 0 + 256 * c.param.getD 3 0) % 4096,
    c.opt / 256 % 16, c.opt.testBit 4, [], [], 0, 0⟩

/-- A ring command that is taken up has started. -/
def Says.started (c : RCmd) (s : State) : State := modCmd c.id (fun x => { x with started := true }) s

/-- The state after a KEY command with operation `op` has been taken up. -/
def Says.keyTaken (c : RCmd) (op : Nat) (s : State) : State :=
  after (keyAdvance (keyPush (Says.keyOp c op) (modCmd c.id (fun x => { x with waiting := 1 }) (Says.started c s))))

/-- R222 to R228, R245: the KEY rows.
Where it rests on a choice of the model, that is: notes/assumptions/39.md. -/
def Obligations.KeyCommandsRunInOrder : Prop :=
  (∀ (pair : Fin 16384) (cid : BitVec 16) (c : RCmd) (s : State), s.cmdOf pair.val cid.toNat 9 = some c → s.heldBack c = false → c.waiting = 0 →
    (c.opt % 16 = 1 → exec (.keyIssue pair cid) s = .next (Says.keyTaken c 1 s)) ∧
    (c.opt % 16 = 2 → exec (.keySetCurrent pair cid) s = .next (Says.keyTaken c 2 s)) ∧
    (c.opt % 16 = 3 → exec (.keyClearCurrent pair cid) s = .next (Says.keyTaken c 3 s)) ∧
    (c.opt % 16 = 4 → exec (.keyRetire pair cid) s = .next (Says.keyTaken c 4 s)) ∧
    (c.opt % 16 = 5 → exec (.keyDestroy pair cid) s = .next (Says.keyTaken c 5 s)) ∧
    (c.opt % 16 = 6 → exec (.keyQuery pair cid) s = .next (Says.keyTaken c 6 s))) ∧
  (∀ (o : KeyOp) (k n : Nat) (s s1 s2 : State), o.op = 1 → s.noIssue = false → s.issuePick o.kid = some k →
    s.ownedKids o.ld < s.get (F.CIPH_LD_QUOTA_QUOTA o.ld) → s.ciph.drbgOk = true → takeKey s = (n, s1) →
    vaultWrite false (tset s1.heldKeys k n) s1 = (true, s2) → o.flag = false →
    keyStart o s = keyCommit (modHead (fun h => { h with kid := k }) (kidRecord 1 k o.ld 0 false
      (modKid k (fun x => { x with st := kActive, owner := o.ld, key := n, held := true, refs := 0 }) s2)))) ∧
  (∀ (o : KeyOp) (s : State), o.op = 1 → s.noIssue = true → keyStart o s = (.done stBadState 0, s)) ∧
  (∀ (o : KeyOp) (s : State), o.op = 2 → o.kid ≠ 0 → o.next = 0 → s.kidSt o.kid = kActive → (s.kid o.kid).owner = o.ld →
    keyStart o s = keyCommit (kidRecord 2 o.kid o.ld 0 true (setCur o.ld o.kid s))) ∧
  (∀ (o : KeyOp) (s : State), o.op = 3 → keyStart o s = keyCommit (kidRecord 3 0 o.ld 0 false (setCur o.ld 0 s))) ∧
  (∀ (o : KeyOp) (s : State), o.op = 4 → o.kid ≠ 0 → o.next = 0 → s.kidSt o.kid = kActive → (s.kid o.kid).owner = o.ld →
    keyStart o s = keyFlush [o.kid] kRetiring 0 s) ∧
  (∀ (o : KeyOp) (s : State), o.op = 5 → o.kid ≠ 0 → o.next = 0 → (s.kidSt o.kid = kActive ∨ s.kidSt o.kid = kRetired) → (s.kid o.kid).owner = o.ld →
    keyStart o s = keyFlush [o.kid] kDestroying 0 s) ∧
  (∀ (o : KeyOp) (s : State), o.op = 6 → o.kid ≠ 0 → s.kidSt o.kid ≠ kFree → (s.kid o.kid).owner = o.ld → keyStart o s = (.done 0 (s.kidResult o.kid), s)) ∧
  (∀ (o : KeyOp) (s : State), (o.op = 2 ∨ o.op = 4 ∨ o.op = 5 ∨ o.op = 6) → o.kid ≠ 0 → s.kidSt o.kid ≠ kFree → (s.kid o.kid).owner ≠ o.ld →
    keyStart o s = (.done stNotOwner 0, s)) ∧
  (∀ (o : KeyOp) (s : State), (o.op = 2 ∨ o.op = 4 ∨ o.op = 5 ∨ o.op = 6) → o.kid = 0 → keyStart o s = (.done stBadKid 0, s)) ∧
  (∀ (ld k : Nat) (s : State), (setCur ld k s).curKid ld = k) ∧
  (∀ (s : State), ∃ t, exec .drbgHealthFail s = .next t ∧ t.ciph.drbgOk = false ∧ t.on F.CIPH_ERR_STATUS_DRBG_FAIL = true) ∧
  (∀ (m : Master) (v : Word) (s : State), v.toNat.testBit 63 = true → ∃ t, exec (.kidQuery m v) s = .next t ∧
    t.get F.CIPH_KID_RESULT_DONE = 1 ∧ t.get F.CIPH_KID_RESULT_STATE = s.kidResult (v.toNat % 4096) / 2 ^ 60 % 8 ∧
    t.get F.CIPH_KID_RESULT_REFS = s.kidResult (v.toNat % 4096) % 2 ^ 30)

/-- R249 to R264: the ring rows.
Where it rests on a choice of the model, that is: notes/assumptions/40.md. -/
def Obligations.RingPairsAndCommandsRun : Prop :=
  (∀ (pair : Fin 16384) (v : Word) (s : State), let u := storeAt (slotOff pair.val 0x10) v.toNat s
    s.qSt pair.val = qDisabled → u.on (F.QP_CFG_EN pair.val) = true → u.cfgValid pair.val = true →
    ∃ t, exec (.pairEnable false pair v) s = .next t ∧ t.qSt pair.val = qActive ∧ t.get (F.QP_STATUS_PHASE pair.val) = 1 ∧
      t.get (F.QP_STATUS_SQ_HEAD pair.val) = 0 ∧ t.get (F.QP_SQ_TAIL_INDEX pair.val) = 0 ∧ t.get (F.QP_CQ_HEAD_INDEX pair.val) = 0) ∧
  (∀ (pair : Fin 16384) (v : Word) (s : State), s.qSt pair.val = qActive → v.toNat.testBit 31 = false →
    exec (.pairDisable false pair v) s = .next (pairRest pair.val (setQ pair.val qDraining s))) ∧
  (∀ (pair : Fin 16384) (v : Word) (s : State), v.toNat % 2 ^ 13 < s.sqSize pair.val →
    exec (.sqDoorbell false pair v) s = .next (setF (F.QP_SQ_TAIL_INDEX pair.val) (v.toNat % 2 ^ 13) s)) ∧
  (∀ (pair : Fin 16384) (v : Word) (s : State), s.sqSize pair.val ≤ v.toNat % 2 ^ 13 → s.qSt pair.val = qActive →
    exec (.sqDoorbell false pair v) s = .next (pairError pair.val errDoorbell s)) ∧
  (∀ (pair : Fin 16384) (v : Word) (s : State), let i := v.toNat % 2 ^ 13; let n := s.cqSize pair.val
    i < n → (i + n - s.get (F.QP_CQ_HEAD_INDEX pair.val)) % n ≤ s.unconsumed pair.val →
    exec (.cqDoorbell false pair v) s = .next (setF (F.QP_CQ_HEAD_INDEX pair.val) i s)) ∧
  (∀ (m : Master) (n : Fin 17) (v : Word) (s : State), v.toNat % 2 ^ 14 + v.toNat / 2 ^ 32 % 2 ^ 15 ≤ 16384 →
    (∀ k < 17, k ≠ n.val → s.get (F.RING_LD_ALLOC_COUNT k) = 0) → (∀ q, s.qSt q = qDisabled) →
    exec (.ringAllocWrite m n v) s = .next (storeAt (0x350100 + 8 * n.val) v.toNat s)) ∧
  (∀ (pair : Fin 16384) (entry : List Byte) (o : Nat) (s : State), s.pairOwner pair.val = some o → s.mayFetch pair.val o = true →
    s.fetchFirst pair.val o = true →
    ∃ t c, exec (.commandFetch pair entry) s = .next t ∧ t.ring.cmds = s.ring.cmds ++ [c] ∧ c.pair = pair.val ∧ c.id = s.ring.nextId ∧
      c.op = (entry.map (·.toNat)).getD 0 0 ∧ t.get (F.QP_STATUS_SQ_HEAD pair.val) = (s.get (F.QP_STATUS_SQ_HEAD pair.val) + 1) % s.sqSize pair.val % 2 ^ 13) ∧
  (∀ (pair : Fin 16384) (cid : BitVec 16) (c : RCmd) (leaves : List RingLeaf) (dma : Bool) (s : State), s.heldBack c = false →
    let g : RCmd := { c with started := true }
    let u := Says.started c s
    (s.cmdOf pair.val cid.toNat 1 = some c → exec (.ringCopy pair cid leaves) s = .next (dataStep (copyLine leaves) (fun c t => (some (0, c.len), t)) g u)) ∧
    (s.cmdOf pair.val cid.toNat 2 = some c → exec (.ringFill pair cid) s = .next (dataStep fillLine (fun c t => (some (0, c.len), t)) g u)) ∧
    (s.cmdOf pair.val cid.toNat 3 = some c → exec (.ringVerify pair cid leaves) s = .next (dataStep
      (readLine leaves (fun c x => .inl { c with cntA := c.cntA + x.2.2.toNat, cntB := c.cntB + x.2.1.toNat }))
      (fun c t => (some (if c.cntB = 0 then 0 else 0x22, c.cntA * 2 ^ 32 + c.cntB), t)) g u)) ∧
    (s.cmdOf pair.val cid.toNat 4 = some c → c.engine = true → exec (.ringHash pair cid leaves dma) s = .next (dataStep
      (readLine leaves (fun c x => if x.2.1 then .inr (0x22, c.pos) else .inl { c with fed := x.1 :: c.fed })) (hashEnd dma) g
        (cnt bRING 3 (min c.len (c.pos + 16384) - c.pos) u))) ∧
    (s.cmdOf pair.val cid.toNat 5 = some c → exec (.ringSeal pair cid) s = .next (ringSeal g u)) ∧
    (s.cmdOf pair.val cid.toNat 6 = some c → exec (.ringDiscard pair cid) s = .next (settle (ringDiscard g u))) ∧
    (s.cmdOf pair.val cid.toNat 7 = some c → c.waiting = 0 →
      exec (.ringSync pair cid) s = .next (syncDrain (.ring c.id) (modCmd c.id (fun x => { x with waiting := 1 }) u))) ∧
    (s.cmdOf pair.val cid.toNat 8 = some c → exec (.ringPrefetch pair cid) s = .next (ringPrefetch g u)) ∧
    (s.cmdOf pair.val cid.toNat 10 = some c → exec (.ringTelemetry pair cid dma) s = .next (ringTelemetry dma g u)) ∧
    (s.cmdOf pair.val cid.toNat 11 = some c → exec (.ringAbort pair cid) s = .next (ringAbort g u))) ∧
  (∀ (c : RCmd) (s : State), c.pos = 0 → c.marked = false → s.qSt c.pair ≠ qStopped → c.op = 5 → s.wpAny (s.cmdLd c) = false →
    ringSeal c s = (modCmd c.id (fun x => { x with waiting := c.len / 2 ^ 20, pos := c.len, pre := c.len }) s).modFld (fun f =>
      { f with sealQ := f.sealQ ++ (List.range (c.len / 2 ^ 20)).map (fun i => (c.id, s.cmdLd c, c.a0 / 2 ^ 20 + i)) })) ∧
  (∀ (c : RCmd) (s : State), s.ring.cmds = [c] → c.pair ≠ s.get (F.RING_LD_ALLOC_FIRST (s.cmdLd c)) + c.a0 → ringAbort c s = cmdEnd c 1 0 s) ∧
  (∀ (c : RCmd) (s : State), s.ring.cmds = [c] → c.engine = false → c.op = 4 → c.final = none →
    exec .hashEngineGrant s = .next (ringStatus (modCmd c.id (fun x => { x with engine := true }) s))) ∧
  (∀ (pair : Fin 16384) (cid : BitVec 16) (c : RCmd) (st res : Nat) (dma : Bool) (s : State), s.ring.cmds = [c] → c.pair = pair.val → c.cid = cid.toNat →
    c.final = some (st, res) → c.op ≠ 11 → exec (.completionPost pair cid dma) s = .next (regStatus (cmdPost dma c st res s))) ∧
  (∀ (pair : Fin 16384) (s : State), s.qSt pair.val = qActive →
    exec (.hostDmaFail pair) s = .next (dropCmds (· == pair.val) (pairError pair.val errDma (setErr F.RING_ERR_STATUS_HOST_DMA intRing s)))) ∧
  (∀ (pair : Fin 16384) (s : State), s.on (F.QP_COAL_TIME_US pair.val) = true → 0 < tgetD 0 s.ring.since pair.val →
    exec (.coalesceTimer pair) s = .next (pairIrq pair.val s))

/-- R269 to R285: the rows of regulation and ledgers.
Where it rests on a choice of the model, that is: notes/assumptions/14.md, notes/assumptions/34.md, notes/assumptions/55.md. -/
def Obligations.RegulationAndLedgersAct : Prop :=
  (∀ (m : Master) (v : BitVec 32) (s : State), v.toNat.testBit 31 = true → exec (.regAdmit m v) s =
    .next (admitSet ((storeAt 0x360020 v.toNat s).on F.REG_ADMIT_FORCE) (storeAt 0x360020 v.toNat s))) ∧
  (∀ (s : State), (List.range 19).all (fun c => s.entryOk c) = true →
    sumOver 19 (fun c => s.get (F.REG_GT_RATE_RD_FLOOR c)) ≤ s.get F.REG_CAP_RD_CAP →
    sumOver 19 (fun c => s.get (F.REG_GT_RATE_WR_FLOOR c)) ≤ s.get F.REG_CAP_WR_CAP →
    ∃ u, admitSet false s = capRecompute u ∧ u.get F.REG_ADMIT_STATUS = 1 ∧ u.get F.REG_STATUS_FORCED = 0 ∧
      ∀ c < 19, u.get (F.REG_ACT_RATE_RD_FLOOR c) = s.get (F.REG_GT_RATE_RD_FLOOR c)) ∧
  (∀ (force : Bool) (s : State), s.entryOk 0 = false → (admitSet force s).get F.REG_ADMIT_STATUS = 3 ∧ (admitSet force s).get F.REG_ADMIT_BAD_CLASS = 0) ∧
  (∀ (s : State), ∃ t, exec .floorWindow s = .next t ∧ t.regu.delivered = [] ∧ t.regu.missed = [] ∧ t.clk.skipWin = false) ∧
  (∀ (s : State), s.on F.LEDG_STATUS_CHECKING = true → exec .ledgerSnapshot s = .next (seqAll (ledgCheck s) s.ledgKeys s)) ∧
  (∀ (s : State), s.on F.LEDG_STATUS_CHECKING = false → exec .ledgerSnapshot s = .next s) ∧
  (∀ (m : Master) (v : Word) (s : State), let l := v.toNat / 2 ^ 48 % 8; let i := v.toNat / 2 ^ 32 % 65536
    v.toNat.testBit 63 = true → s.lcs.state = lcManufacture → (s.ledgSides l i).isSome = true →
    exec (.ledgerInject m v) s = .next ((ledgerAdd l i (signed32 v.toNat) s).modLedg (fun g => { g with injected := (ledgKey l i :: g.injected).eraseDups }))) ∧
  (∀ (m : Master) (v : Word) (s : State), s.lcs.state = lcService → exec (.ledgerInject m v) s = .next s) ∧
  (∀ (m : Master) (s : State), let p := s.ledgView (s.get F.LEDG_SEL_LEDGER) (s.get F.LEDG_SEL_INDEX)
    exec (.ledgLhsRead m) s = .next (emit (.regData m 0x370030 (BitVec.ofNat 64 p.1)) (setF F.LEDG_RHS p.2 (setF F.LEDG_LHS p.1 s)))) ∧
  (∀ (ledger : Fin 8) (s : State), exec (.ledgerSramUe ledger) s =
    .next (logOpen bLEDG ledger.val 0 (setF F.LEDG_STATUS_UNTRUSTED (s.get F.LEDG_STATUS_UNTRUSTED ||| 2 ^ ledger.val) s)))

/-- R320 to R334: the dome's rows.
Where it rests on a choice of the model, that is: notes/assumptions/45.md, notes/assumptions/46.md, notes/assumptions/54.md. -/
def Obligations.RailsAndSensorsAct : Prop :=
  (∀ (s : State), s.get F.DOME_PLT_REQ_ON = 0 → exec (.platePowerReq .assistA 1#32) s = .next (platesSettle (seqOn 0 (setF F.DOME_PLT_REQ_ON 1 s)))) ∧
  (∀ (rail : Fin 40) (mv : BitVec 16) (s : State), (s.rail rail.val).phase = .rising → s.railOver rail.val mv.toNat = false →
    s.railUnder rail.val mv.toNat = false → exec (.railPowerGood rail mv) s = .next (domeAfter (seqRun (railSeq rail.val)
      (modRail rail.val (fun r => { r with phase := .running, pg := true, mv := mv.toNat }) s)))) ∧
  (∀ (rail : Fin 40) (s : State), (s.rail rail.val).phase = .rising →
    exec (.waitUpTimeout rail) s = .next (domeAfter (railFail 2 rail.val (s.rail rail.val).mv s))) ∧
  (∀ (rail : Fin 40) (mv : BitVec 16) (s : State), (s.rail rail.val).en = false → (s.rail rail.val).disch = false →
    (s.rail rail.val).phase ≠ .failed → mv.toNat * 10 < s.get (F.DOME_RAIL_CFG_NOM_MV rail.val) →
    ∃ u, exec (.railDischarged rail mv) s = .next (domeAfter (seqRun (railSeq rail.val) u)) ∧ (u.rail rail.val).disch = true ∧
      (u.rail rail.val).phase = .off ∧ (u.rail rail.val).mv = mv.toNat ∧ u.regs = s.regs) ∧
  (∀ (rail : Fin 40) (s : State), (s.rail rail.val).en = false → (s.rail rail.val).disch = false →
    exec (.dischargeTimeout rail) s = .next (domeAfter (railFail 4 rail.val (s.rail rail.val).mv
      (logPut sevError 0x1002 4 rail.val 0 0 (setErr F.DOME_ERR_STATUS_DISCH_TO intDome s))))) ∧
  (∀ (rail : Fin 40) (s : State), (s.rail rail.val).en = false → exec (.minOffExpiry rail) s =
    .next (domeAfter (seqRun (railSeq rail.val) (modRail rail.val (fun x => { x with offMin := true }) s)))) ∧
  (∀ (seq : Fin 17) (x : ScriptStep) (l : List ScriptStep) (s : State), (s.seq seq.val).steps = x :: l → x.op = .delay →
    exec (.scriptDelayExpiry seq) s = .next (domeAfter (seqRun seq.val (modSeq seq.val (fun y => { y with steps := l }) s)))) ∧
  (∀ (s : State), exec (.adcSample [] true) s = .next (xLost F.CLK_XOVR_AON 0 42 s)) ∧
  (∀ (mv : Nat) (s : State), exec (.adcSample [mv] false) s = .next (domeAfter (adcRail 0 mv (s.modDome (fun d => { d with adc := tset d.adc 0 (mv + 1) }))))) ∧
  (∀ (rail : Fin 40) (s : State), (s.rail rail.val).phase = .running → exec (.powerGoodLost rail) s =
    .next (domeAfter (railFail 2 rail.val (s.rail rail.val).mv (modRail rail.val (fun r => { r with pg := false }) s)))) ∧
  (∀ (l : List PmbReply) (s : State), s.on F.DOME_CTL_PMB_EN = true → exec (.pmbusPoll l) s = .next (domeAfter (seqAll pmbReply l s)) ∧
    exec (.pmbAlert l) s = .next (domeAfter (seqAll pmbReply l s))) ∧
  (∀ (tj : Nat) (s : State), tj < 95 → s.lds = [] → exec (.tempReading [tj]) s =
    .next (tempAlert tj mgmtView (s.modDome (fun d => { d with tj := tj, hot110 := 0, hot105 := false, thermOvr := false })))) ∧
  (∀ (s : State), exec .haltFanExpiry s = .next (s.modDome (fun d => { d with haltFan := false }))) ∧
  (∀ (s : State), s.get F.DOME_HU_CFG_CAP_MF ≠ 0 → let v := tgetD 1 s.dome.adc 9 - 1; let vmin := s.get F.DOME_HU_CFG_VMIN_MV
    vmin ≤ v → ∃ t, exec .huEstimate s = .next t ∧
      t.get F.DOME_HU_STATUS_EST_CJ = min 65535 (s.get F.DOME_HU_CFG_CAP_MF * (v * v - vmin * vmin) / 20000000)) ∧
  (∀ (s : State), s.on F.DOME_HU_CFG_CAP_MF = true → s.dome.huOk = true → s.get F.DOME_HU_STATUS_EST_CJ < s.get F.DOME_HU_CFG_EREQ_CJ →
    exec .huMismatchTimer s = .next (logOpen bDOME 1 (s.get F.DOME_HU_STATUS_EST_CJ) (setErr F.DOME_ERR_STATUS_HU_MISMATCH intDome s))) ∧
  (∀ (m : Master) (v : BitVec 32) (s : State), let u := storeAt 0x390060 v.toNat s; let n := u.get F.DOME_MARGIN_RAIL
    v.toNat.testBit 31 = true → u.on F.DOME_CTL_PMB_EN = true → u.on (F.DOME_RAIL_CFG_PMB_VALID n) = true → (u.rail n).phase = .running →
    u.dome.marginRail = none →
    exec (.margin m v) s = .next (marginGo (u.modDome (fun d => { d with marginRail := some (n, u.get F.DOME_MARGIN_STEPS), marginWait := true })))) ∧
  (∀ (pulses : Nat) (s : State), exec (.fanTachWindow [pulses]) s = .next (fanTach 0 pulses s)) ∧
  (∀ (fan : Fin 4) (s : State), ∃ t, exec (.fanWatchdog fan) s = .next t ∧ (t.fan fan.val).failsafe = true)

/-- R340 to R348: the rows of clocks.
Where it rests on a choice of the model, that is: notes/assumptions/13.md, notes/assumptions/63.md. -/
def Obligations.ClocksAndTimeAct : Prop :=
  (∀ (ofs : BitVec 16) (s : State), s.on F.CLK_CTL_REC_EN = true → (s.port 0).up = true → (s.port 0).l1 = false →
    s.get F.CLK_DPLL_STATUS_STATE ≠ dpllRec →
    ∃ t, exec (.recQualified ofs) s = .next t ∧ t.get F.CLK_DPLL_STATUS_STATE = dpllRec ∧ t.get F.CLK_DPLL_STATUS_SLEWING = 1 ∧
      t.get F.CLK_DPLL_STATUS_REC_QUAL = 1) ∧
  (∀ (ssc : Bool) (s : State), s.get F.CLK_DPLL_STATUS_STATE = dpllRec →
    ∃ t, exec (.recDisqualified ssc) s = .next t ∧ t.get F.CLK_DPLL_STATUS_STATE = dpllHoldover ∧ t.get F.CLK_DPLL_STATUS_REC_QUAL = 0 ∧
      t.on F.CLK_ERR_STATUS_REC_LOST = true) ∧
  (∀ (s : State), s.get F.CLK_DPLL_STATUS_STATE = dpllHoldover →
    exec .holdoverExpiry s = .next (setF F.CLK_DPLL_STATUS_SLEWING 1 (setF F.CLK_DPLL_STATUS_STATE dpllXtal s))) ∧
  (∀ (s : State), exec .slewDone s = .next (setF F.CLK_DPLL_STATUS_SLEWING 0 s)) ∧
  (∀ (m : Master) (v : Word) (s : State), ∃ t, exec (.todSet m true v) s = .next t ∧ t.clk.tod = v.toNat ∧ t.get F.CLK_TOD_INFO_SRC = 2 ∧
    t.get F.CLK_TOD_INFO_VALID = 2 ∧ t.on F.CLK_ERR_STATUS_TOD_STEP = true) ∧
  (∀ (m : Master) (s : State), ∃ t, exec (.todLowRead m) s = .next t ∧ t.clk.tod = s.clk.tod ∧ (m, s.clk.tod / 2 ^ 32) ∈ t.clk.latch ∧
    t.outs = .regData m 0x3A0020 (BitVec.ofNat 64 (s.clk.tod % 2 ^ 32)) :: s.outs) ∧
  (∀ (m : Master) (v : BitVec 32) (s : State), let u := storeAt 0x3A0058 v.toNat s
    v.toNat.testBit 31 = true → u.on F.CLK_CHRONO_CTL_BUSY = false → 4 ≤ u.get F.CLK_CHRONO_CTL_GATE_LOG2 → u.get F.CLK_CHRONO_CTL_GATE_LOG2 ≤ 24 →
    u.get F.CLK_CHRONO_CTL_MEAS < 0x18 → u.get F.CLK_CHRONO_CTL_REF < 0x18 →
    exec (.chrono m v) s = .next (setF F.CLK_CHRONO_RESULT_DONE 0 (setF F.CLK_CHRONO_CTL_BUSY 1 u))) ∧
  (∀ (count : Nat) (s : State), s.on F.CLK_CHRONO_CTL_BUSY = true →
    (∃ t, exec (.chronoGateEnd count) s = .next t ∧ t.get F.CLK_CHRONO_RESULT_DONE = 1 ∧ t.get F.CLK_CHRONO_RESULT_REF_DEAD = 0 ∧
      t.get F.CLK_CHRONO_CTL_BUSY = 0 ∧ t.get F.CLK_CHRONO_RESULT_COUNT = count % 2 ^ F.CLK_CHRONO_RESULT_COUNT.wid) ∧
    (∃ t, exec (.chronoRefDead count) s = .next t ∧ t.get F.CLK_CHRONO_RESULT_DONE = 1 ∧ t.get F.CLK_CHRONO_RESULT_REF_DEAD = 1)) ∧
  (∀ (dom : Fin 45) (s : State), dom.val ≠ domSlices → s.clkRuns dom.val = true →
    let go (a : HeldAccess) : Bool := a.dom == dom.val || (a.dom == domCredit && s.accMay a.master (if a.wr.isSome then 1 else 0))
    exec (.heldAccessRelease dom) s = .next (domeAfter (seqAll heldGo (s.clk.held.filter go)
      (s.modClk (fun c => { c with held := c.held.filter (fun a => !go a) })))))

/-- R376 to R388, R409: the rows of the logbook, the spectrograph and the almanac.
Where it rests on a choice of the model, that is: notes/assumptions/13.md, notes/assumptions/17.md. -/
def Obligations.LogbookSpectrographAndAlmanacAct : Prop :=
  (∀ (v : Word) (s : State), let r := LogRec.ofWords (s.log.put.getD 0 0) (s.log.put.getD 1 0) (s.log.put.getD 2 0) v.toNat
    exec (.logPut .assistA v false) s = .next (logFrom r.source r.sev r.code r.p0 r.p1 r.p2 r.p3 s)) ∧
  (∀ (v : Word) (s : State), ∃ t, exec (.logPut .assistA v true) s = .next t ∧ t.log.lost = s.log.lost + 1 ∧ t.log.slots = s.log.slots) ∧
  (∀ (v : Word) (full : Bool) (s : State), exec (.logPut .host v full) s = .next s) ∧
  (∀ (m : Master) (s : State), ∃ t, exec (.logWin0Read m) s = .next t ∧ t.log.win = tget s.log.slots (s.get F.LOG_CURSOR_SEQ % 4096)) ∧
  (∀ (m : Master) (r : LogRec) (s : State), s.log.win = some r → s.on F.LOG_CURSOR_AUTO = true → r.seq = s.get F.LOG_CURSOR_SEQ →
    exec (.logWin3Read m) s = .next (emit (.regData m 0x3D0118 (BitVec.ofNat 64 (r.word 3))) (setF F.LOG_CURSOR_SEQ (r.seq + 1) s))) ∧
  (∀ (s : State), s.get F.SPEC_SNAP_CFG_PERIOD_MS ≠ 0 → s.glb.mode = .active → s.spec.busy = false →
    exec .snapTimer s = .next (s.modSpec (fun p => { p with busy := true, frozen := p.live, frozenAt := s.clk.tod }))) ∧
  (∀ (m : Master) (v : BitVec 32) (s : State), v.toNat.testBit 0 = true → s.spec.busy = false →
    exec (.snapGo m v) s = .next (s.modSpec (fun p => { p with busy := true, frozen := p.live, frozenAt := s.clk.tod }))) ∧
  (∀ (s : State), s.spec.busy = true → s.spec.bank = 0 → ∃ t, exec .snapPublish s = .next t ∧ t.spec.bank = 1 ∧ t.spec.bank1 = s.spec.frozen ∧
    t.spec.bank0 = s.spec.bank0 ∧ t.spec.busy = false ∧ t.spec.seq = (s.spec.seq + 1) % 2 ^ 32 ∧ t.spec.time = s.spec.frozenAt) ∧
  (∀ (m : Master) (b : Fin 128) (v : BitVec 32) (s : State), ∃ t, exec (.chainWrite m b v) s = .next t ∧ tgetD 0 t.spec.chain b.val = v.toNat % 2 ^ 16) ∧
  (∀ (m : Master) (v : BitVec 32) (s : State), let u := storeAt 0x3E0010 v.toNat s; let len := v.toNat % 512; let addr := u.get F.ALM_ADDR_ADDR * 4
    v.toNat.testBit 31 = true → s.alm.hostBusy = false → len ≠ 0 → len ≤ 256 → len % 4 = 0 → addr % 256 + len ≤ 256 →
    (v.toNat / 2 ^ 28 % 4 = 1 → exec (.almRead m v) s = .next (almEnqueue ⟨.host, false, addr, len, [], 0⟩ (setF F.ALM_CMD_DONE 0 u))) ∧
    (v.toNat / 2 ^ 28 % 4 = 2 → almReserved addr = false → 0x38000 ≤ addr → exec (.almWrite m v) s =
      .next (almEnqueue ⟨.host, true, addr, len, (setF F.ALM_CMD_DONE 0 u).almFromData len, 0⟩ (setF F.ALM_CMD_DONE 0 u))) ∧
    (v.toNat / 2 ^ 28 % 4 = 2 → almReserved addr = false → addr < 0x38000 → ∃ t, exec (.almWrite m v) s = .next t ∧ t.get F.ALM_CMD_STATUS = 2)) ∧
  (∀ (m : Master) (v : BitVec 32) (s : State), v.toNat.testBit 31 = true → s.alm.hostBusy = false → v.toNat / 2 ^ 28 % 4 = 1 → v.toNat % 512 = 0 →
    ∃ t, exec (.almRead m v) s = .next t ∧ t.get F.ALM_CMD_STATUS = 3 ∧ t.get F.ALM_CMD_DONE = 1) ∧
  (∀ (j : AlmJob) (s : State), s.alm.run = some j → j.src = .host → s.alm.queue = [] → s.alm.waiting = [] →
    exec .almWriteDone s = .next (after (almStatus (almHostEnd 0 ((almStore j.addr j.data s).modAlm (fun a => { a with run := none })))))) ∧
  (∀ (k b : Nat) (s : State), (almStore k [b] s).alm.byte k = b % 256)

/-- A frame that the MAC takes into bank 0 and an assistant serves at once. -/
def Says.framed (b : List Nat) (s : State) : Prop :=
  s.start.aonDown = false ∧ s.macAccepts (beNum (b.take 6)) = true ∧ 60 ≤ b.length ∧ b.length ≤ 1514 ∧ s.busServed = true ∧
    s.on F.SBUS_CTL_EN = true ∧ (b.drop 12).take 2 = etherShelf ∧ s.sbus.rx = [] ∧ s.asstStalled = false

/-- The bytes of a command frame. -/
def Says.cmdBytes (op : Nat) (f : ShelfFrame) : List Nat := ShelfFrame.bytes { f with ver := 1, typ := 1, opcode := BitVec.ofNat _ op }

/-- A command row whose frame is served. -/
def Says.served (c : Instr) (b : List Nat) (s : State) : Prop :=
  ∃ u, exec c s = .next (domeAfter (shelfServe false b u)) ∧ u.sbus.rx = [] ∧ u.sbus.quar = s.sbus.quar ∧ u.host = s.host ∧ u.glb = s.glb

/-- R14, R355 to R362: the eight commands.
Where it rests on a choice of the model, that is: notes/assumptions/56.md, notes/assumptions/57.md, notes/assumptions/58.md. -/
def Obligations.ShelfCommandsAreServed : Prop :=
  (∀ (f : ShelfFrame) (s : State),
    (Says.framed (Says.cmdBytes opPing f) s → Says.served (.shelfPing f) (Says.cmdBytes opPing f) s) ∧
    (Says.framed (Says.cmdBytes opStatus f) s → Says.served (.shelfStatus f) (Says.cmdBytes opStatus f) s) ∧
    (Says.framed (Says.cmdBytes opSensors f) s → Says.served (.shelfSensors f) (Says.cmdBytes opSensors f) s) ∧
    (Says.framed (Says.cmdBytes opMode f) s → Says.served (.shelfMode f) (Says.cmdBytes opMode f) s) ∧
    (Says.framed (Says.cmdBytes opWake f) s → Says.served (.shelfWake f) (Says.cmdBytes opWake f) s) ∧
    (Says.framed (Says.cmdBytes opRestart f) s → Says.served (.shelfRestart f) (Says.cmdBytes opRestart f) s) ∧
    (Says.framed (Says.cmdBytes opPlate f) s → Says.served (.shelfPlate f) (Says.cmdBytes opPlate f) s) ∧
    (Says.framed (Says.cmdBytes opSubscribe f) s → Says.served (.shelfSubscribe f) (Says.cmdBytes opSubscribe f) s)) ∧
  (∀ (b : List Nat) (s : State), let f := ShelfFrame.ofBytes b
    s.sbus.quar = [] → f.ver = 1#8 → f.typ = 1#8 → shelfServe false b s = shelfCommand false f (sourceSeen f.src.toNat s)) ∧
  (∀ (f : ShelfFrame) (n : Nat) (s : State), f.target.toNat = s.get F.GLB_STRAPS_SHELF_ID → shelfLen f.opcode.toNat = some n →
    f.len.toNat = n → f.body.length = n →
    (shelfAuth f.opcode.toNat = false → s.on F.SBUS_CTL_UNAUTH_RESP = true → shelfCommand false f s =
      (let r := shelfRun f f.target.toNat s
      queryAnswer f f.target.toNat r.1 r.2.1 r.2.2)) ∧
    (shelfAuth f.opcode.toNat = true → f.target.toNat ≠ 0xFF → authCheck f s = none → shelfCommand false f s =
      (let r := shelfRun f f.target.toNat (s.modSbus (·.nonceTake f.src.toNat f.nonce.toNat))
      shelfAnswer f f.target.toNat r.1 r.2.1 r.2.2)) ∧
    (∀ (st : Nat) (u : State), shelfAuth f.opcode.toNat = true → authCheck f s = some (st, u) →
      shelfCommand false f s = shelfAnswer f f.target.toNat st [] u)) ∧
  (∀ (f : ShelfFrame) (s : State), f.target.toNat = s.get F.GLB_STRAPS_SHELF_ID →
    (shelfLen f.opcode.toNat = none → shelfCommand false f s = shelfAnswer f f.target.toNat rsBadOpcode [] s) ∧
    (∀ n, shelfLen f.opcode.toNat = some n → f.len.toNat ≠ n → shelfCommand false f s = shelfAnswer f f.target.toNat rsBadLength [] s)) ∧
  (∀ (f : ShelfFrame) (own : Nat) (s : State), s.assistRuns = true → f.opcode.toNat = opPing → shelfRun f own s = (0, [0x40, 0x72, own, s.modeByte], s)) ∧
  (∀ (f : ShelfFrame) (own : Nat) (s : State), s.assistRuns = true → f.opcode.toNat = opStatus → shelfRun f own s = (0, statusBody s, s)) ∧
  (∀ (f : ShelfFrame) (own : Nat) (s : State), s.assistRuns = true → f.opcode.toNat = opSensors → shelfRun f own s = (0, sensorsBody s, s)) ∧
  (∀ (f : ShelfFrame) (own : Nat) (t : Byte) (s : State), s.assistRuns = true → f.opcode.toNat = opMode → f.body = [t] → t.toNat < 3 →
    s.lcs.trans = none → f.flags.getLsbD 1 = false →
    shelfRun f own s = (0, [], pendGo (modeTarget t.toNat 2 (s.modGlb (fun g => { g with force := false }))))) ∧
  (∀ (f : ShelfFrame) (own : Nat) (s : State), s.glb.mode = .standby → f.opcode.toNat = opWake →
    shelfRun f own s = (0, [], s.modGlb (fun g => { g with wake := true }))) ∧
  (∀ (f : ShelfFrame) (own : Nat) (s : State), s.glb.mode = .faultHalt → f.opcode.toNat = opRestart → s.glb.perst = true →
    shelfRun f own s = (0, [], seqOn devSeq (s.modStart (fun x => { x with source := srcRestart })))) ∧
  (∀ (f : ShelfFrame) (own : Nat) (p a : Byte) (s : State), s.assistRuns = true → f.opcode.toNat = opPlate → f.body = [p, a] → p.toNat < 16 →
    s.img.plates.testBit p.toNat = true → 1 ≤ a.toNat → a.toNat ≤ 3 → s.lcs.trans = none → s.reqOk ⟨p.toNat, a.toNat, 1⟩ = true →
    shelfRun f own s = (0, [], plateReq ⟨p.toNat, a.toNat, 1⟩ s)) ∧
  (∀ (f : ShelfFrame) (own : Nat) (fl tr : Byte) (s : State), s.assistRuns = true → f.opcode.toNat = opSubscribe → f.body = [fl, tr] →
    shelfRun f own s = (0, [], s.modSbus (fun b => { b with sub := some (f.src.toNat, fl.toNat, tr.toNat != 0), evSent := s.log.head })))

/-- R357: decode of encode. -/
def Obligations.AFrameSpellsItsFields : Prop :=
  ∀ f : ShelfFrame, f.len.toNat = f.body.length → (f.flags.getLsbD 0 = false → f.tag = 0) → ShelfFrame.ofBytes f.bytes = f

/-- R354 to R364: the rest of the shelf bus.
Where it rests on a choice of the model, that is: notes/assumptions/58.md. -/
def Obligations.TheShelfBusItself : Prop :=
  (∀ (bytes : List Byte) (s : State), let b := bytes.map (·.toNat)
    s.start.aonDown = false → s.macAccepts (beNum (b.take 6)) = true → 60 ≤ b.length → b.length ≤ 1514 → s.busServed = true → s.on F.SBUS_CTL_EN = true →
    (b.drop 12).take 2 ≠ etherShelf → (b.drop 12).take 2 ≠ etherPtp →
    exec (.shelfFrameOther bytes true) s = .next (domeAfter (incF F.SBUS_CNT_DROP_OTHER 1 s))) ∧
  (∀ (bytes : List Byte) (ofs adj : Int) (s : State), let u := frameIn (bytes.map (·.toNat)) true false s
    s.asstStalled = false → s.sbus.rx.length < u.sbus.rx.length → 1000000 < ofs.natAbs →
    exec (.ptpFrame bytes true (some (ofs, adj))) s = .next (todStep (((u.clk.tod : Int) + ofs) % 2 ^ 64).toNat 3 u)) ∧
  (∀ (s : State), s.busServed = true → s.asstStalled = false → s.sbus.tx = [] →
    ∃ t f, exec .pdelayTimer s = .next t ∧ t.sbus.tx = [f] ∧ f.ready = true ∧ f.ts = true) ∧
  (∀ (s : State), s.coordNow = true → exec .plcaBeacon s = .next (emit .beacon s) ∧
    exec .dupCoord s = .next (logOpen bSBUS 0 0 (setErr F.SBUS_ERR_STATUS_DUP_COORD intSbus (s.modSbus (fun b => { b with yielded := true }))))) ∧
  (∀ (s : State), s.sbus.yielded = true → exec .coordResume s = .next (s.modSbus (fun b => { b with yielded := false, csma := false }))) ∧
  (∀ (s : State), s.coordNow = false → s.start.aonDown = false → exec .beaconLoss s = .next (s.modSbus (fun b => { b with csma := true })) ∧
    exec .beaconReceived s = .next (s.modSbus (fun b => { b with csma := false }))) ∧
  (∀ (f : TxFrame) (s : State), s.sbus.tx = [f] → s.sbus.txq = [] → f.ready = true → s.sbus.csma = false → s.on F.SBUS_CTL_EN = true → s.start.aonDown = false →
    ∃ t, exec .plcaCollision s = .next t ∧ t.on F.SBUS_ERR_STATUS_PLCA_COLL = true ∧
      t.sbus.tx = (if 16 ≤ f.tries + 1 then [] else [{ f with tries := f.tries + 1 }])) ∧
  (∀ (m : Master) (r : RxFrame) (s : State), s.runsBus m = true → s.sbus.rx = [r] → r.own = false → r.pos + 6 < r.bytes.length →
    ∃ w, exec (.rxqDataRead m) s = .next (emit (.regData m 0x3B0040 (BitVec.ofNat 64 w)) (s.modSbus (fun b => { b with rx := [{ r with pos := r.pos + 6 }] }))) ∧
      w % 2 ^ 48 = leNum ((r.bytes.drop r.pos).take 6) % 2 ^ 48) ∧
  (∀ (m : Master) (r : RxFrame) (s : State), s.runsBus m = true → s.sbus.rx = [r] → r.own = false →
    exec (.rxqDrop m) s = .next (s.modSbus (fun b => { b with rx := [] }))) ∧
  (∀ (m : Master) (w : Word) (f : TxFrame) (s : State), s.runsBus m = true → s.sbus.tx = [f] → f.ready = false → w.toNat.testBit 62 = false →
    w.toNat.testBit 61 = false → exec (.txqDataWrite m w) s =
      .next (s.modSbus (fun b => { b with tx := [{ f with bytes := (f.bytes ++ numBytes (min 6 (w.toNat / 2 ^ 48 % 8)) (w.toNat % 2 ^ 48)).take 2048 }] }))) ∧
  (∀ (m : Master) (f : TxFrame) (s : State), s.runsBus m = true → s.sbus.tx = [f] → f.ready = false →
    exec (.txqFlush m) s = .next (s.modSbus (·.txReady f.bank true))) ∧
  (∀ (f : TxFrame) (s : State), s.sbus.tx = [f] → f.ready = true → f.ts = false → s.sbus.txq = [] → s.on F.SBUS_CTL_EN = true → s.start.aonDown = false →
    ∃ t, exec .txFrameSent s = .next t ∧ t.sbus.tx = [] ∧ t.outs = .frame (padFrame f.bytes) :: s.outs) ∧
  (∀ (src at_ : Nat) (s : State), s.sbus.quar = [(src, at_)] → at_ ≤ s.now → exec .quarantineExpiry s = .next (s.modSbus (fun b => { b with quar := [] }))) ∧
  (∀ (m : Master) (s : State), s.lcs.state = lcProvision → s.alm.wp = false →
    ∃ t, exec (.keyCommit m) s = .next t ∧ t.sbus.key = some (BitVec.ofNat 256 s.keyRegs)) ∧
  (∀ (m : Master) (s : State), s.lcs.state = lcManufacture → exec (.keyCommit m) s = .next (setErr F.SBUS_ERR_STATUS_KEY_FAIL intSbus s))

/-- R326, R365 to R370: the plate rows.
Where it rests on a choice of the model, that is: notes/assumptions/51.md, notes/assumptions/52.md. -/
def Obligations.PlatesComeAndGo : Prop :=
  (∀ (m : Master) (v : BitVec 32) (s : State), v.toNat.testBit 31 = true → s.assistRuns = true → s.asstStalled = false →
    exec (.pltCmdOn m v) s = .next (platesSettle (plateAct ⟨v.toNat % 16, 1, 2⟩ s)) ∧
    exec (.pltCmdOut m v) s = .next (platesSettle (plateAct ⟨v.toNat % 16, 2, 2⟩ s)) ∧
    exec (.pltCmdAdmit m v) s = .next (platesSettle (plateAct ⟨v.toNat % 16, 3, 2⟩ s))) ∧
  (∀ (m : Master) (v : BitVec 32) (s : State), v.toNat.testBit 31 = true → s.assistRuns = true → s.asstStalled = true →
    exec (.pltCmdOn m v) s = .next (s.modSbus (fun b => { b with reqs := (b.reqs ++ [(⟨v.toNat % 16, 1, 2⟩ : PltReq)]).take 256 }))) ∧
  (∀ (p c : Nat) (s : State), s.mgmt p = pPresent → s.get (F.SBUS_PLT_STATE_HOLD p) = 0 → plateAct ⟨p, 1, c⟩ s = powering p s) ∧
  (∀ (p c : Nat) (s : State), s.mgmt p = pOnline → plateAct ⟨p, 2, c⟩ s = plateDrain p c s) ∧
  (∀ (p c : Nat) (s : State), s.mgmt p = pPresent → s.get (F.SBUS_PLT_STATE_HOLD p) = 3 → plateAct ⟨p, 3, c⟩ s = plateAdmit p s) ∧
  (∀ (p a c : Nat) (s : State), s.reqOk ⟨p, a, c⟩ = false → plateAct ⟨p, a, c⟩ s = s) ∧
  (∀ (plate : Fin 16) (ident : List Byte) (s : State), s.dome.prsnt.testBit plate.val = false → s.glb.mode = .active →
    ∃ u, exec (.plateInserted plate ident) s = .next (capRecompute (fldRecount (platePresent plate.val u))) ∧ u.glb = s.glb ∧ u.regs = s.regs ∧
      u.dome.prsnt = s.dome.prsnt ||| 2 ^ plate.val ∧ tget u.sbus.ident plate.val = some (ident.map (·.toNat))) ∧
  (∀ (plate : Fin 16) (s : State), s.dome.prsnt.testBit plate.val = true →
    ∃ u v, exec (.plateRemoved plate) s = .next (platesSettle v) ∧ v = fldRecount (seqAll relocate ((plateDead plate.val u).namedSets.filter (fun x =>
      (plateGroups plate.val).contains (setGroup x) && decide (0 < (plateDead plate.val u).setV x))) (plateDead plate.val u)) ∧
      u.mgmt plate.val = pAbsent ∧ u.get (F.SBUS_PLT_STATE_HOLD plate.val) = 0 ∧ u.get (F.SBUS_PLT_ID_KNOWN plate.val) = 0) ∧
  (∀ (plate : Fin 16) (s : State), s.mgmt plate.val = pDraining → s.med.reads = [] →
    exec (.plateDrainTimeout plate) s = .next (platesSettle (plateOffline plate.val (settle (resetPrograms plate.val
      (s.modMed (fun m => { m with planes := m.planes.filter (fun e => e.1 / 64 != plate.val) }))))))) ∧
  (∀ (plate : Fin 16) (temp : BitVec 8) (s : State), let u := setF (F.SBUS_PLT_STATE_TEMP plate.val) temp.toNat s
    u.mgmt plate.val = pOnline → u.get F.SBUS_PLT_CFG_HOT_C ≤ temp.toNat → exec (.plateHot plate temp) s = .next (platesSettle (plateDrain plate.val 6 u))) ∧
  (∀ (plate : Fin 16) (s : State), s.disagrees plate.val = true → s.sbus.flagged.contains plate.val = false →
    exec (.plateDisagree plate) s = .next (logPut sevError 0x1202 plate.val (s.mgmt plate.val) (s.dataView plate.val) 0
      (setErr F.SBUS_ERR_STATUS_PLT_DISAGREE intSbus (setF (F.SBUS_PLT_STATE_DISAGREE plate.val) 1
        (s.modSbus (fun b => { b with flagged := plate.val :: b.flagged }))))))

/-- The request's operation, its register stored. -/
def Says.lcs (m : Master) (op : Nat) (v : BitVec 32) (s : State) : State :=
  domeAfter (lcsGo m op (putBits 24 4 op v.toNat / 2 ^ 21 % 8) (putBits 24 4 op v.toNat % 2 ^ 16) (storeAt 0x3F0010 (putBits 24 4 op v.toNat) s))

/-- Bytes of the token in LCS_TOKEN. -/
def Says.tok (s : State) (i n : Nat) : List Byte := (tokenRange s.tokenBytes i n).map (BitVec.ofNat 8)

/-- The token in LCS_TOKEN is an unlock token for this part and this challenge, but for its signature (R407). -/
def Says.unlockToken (s : State) : Prop :=
  let b := s.tokenBytes
  bytesNum (tokenRange b 0 2) = 0x1C11 ∧ b.getD 2 0 = 1 ∧ b.getD 3 0 < 8 ∧ bytesNum (tokenRange b 8 8) = s.get F.LCS_CHALLENGE ∧
    tokenRange b 16 16 = s.almBytes 8 16 ∧ (tokenRange b 4 4 ++ tokenRange b 32 32).all (· == 0) = true

/-- R397 to R410: the rows of the life cycle.
Where it rests on a choice of the model, that is: notes/assumptions/10.md, notes/assumptions/59.md. -/
def Obligations.LifeCycleRequestsEnd : Prop :=
  (∀ (m : Master) (v : BitVec 32) (s : State), (m = .host ∨ m = .finder) → v.toNat.testBit 31 = true →
    exec (.lcTransition m v) s = .next (Says.lcs m 1 v s) ∧ exec (.unlock m v) s = .next (Says.lcs m 2 v s) ∧
    exec (.relock m v) s = .next (Says.lcs m 3 v s) ∧ exec (.keyfuse m v) s = .next (Says.lcs m 4 v s)) ∧
  (∀ (m : Master) (op t c : Nat) (s : State), s.lcs.trans.isSome = true → lcsGo m op t c s = setF F.LCS_STATUS_BUSY 1 (lcsEnd op lrBusy s)) ∧
  (∀ (m : Master) (t c st : Nat) (s : State), s.lcCheck m t c = some st → lcTransition m t c s = lcsEnd 1 st s) ∧
  (∀ (m : Master) (t c code : Nat) (s : State), s.lcCheck m t c = none → lcAuth s.lcs.state t = .confirm code → t < lcReturn →
    lcTransition m t c s = lcPark (setF F.LCS_STATUS_BUSY 1 (s.modLcs (fun l => { l with trans := some t })))) ∧
  (∀ (m : Master) (c code : Nat) (s : State), s.lcCheck m lcDecommission c = none → lcAuth s.lcs.state lcDecommission = .confirm code →
    lcTransition m lcDecommission c s = keyAdvance (keyOwn 8 0 (setF F.LCS_STATUS_BUSY 1 (s.modLcs (fun l => { l with trans := some lcDecommission }))))) ∧
  (∀ (t c : Nat) (s : State), lcAuth s.lcs.state t = .never → s.lcCheck .host t c = some lrNotAllowed) ∧
  (∀ (c : Nat) (s : State), s.lcs.state = lcService → c ≠ 0xDEC0 → s.lcCheck .host lcDecommission c = some lrBadConfirm) ∧
  (∀ (k : Nat) (s : State), s.lcs.state = lcService → s.keySlot s.tokenBytes [0, 1, 2, 3] = some k → k < 4 → Says.unlockToken s →
    ∃ u, lcUnlock s = (if Config.sigOk (Says.tok s 0 160) (Says.tok s 64 96) (Says.tok s 160 96)
      then lcsEnd 2 lrOk (newChallenge (odoInc odoUnlocks (lcShow u))) else lcsEnd 2 lrBadToken s) ∧
      u.get F.LCS_FINDER_UNLOCKED = 1 ∧ u.get F.LCS_FINDER_KEY_SLOT = k) ∧
  (∀ (s : State), s.lcs.state = lcService → s.keySlot s.tokenBytes [0, 1, 2, 3] = none → lcUnlock s = lcsEnd 2 lrBadToken s) ∧
  (∀ (s : State), s.lcs.state ≠ lcService → lcUnlock s = lcsEnd 2 lrNotAllowed s) ∧
  (∀ (s : State), ∃ u, lcRelock s = lcsEnd 3 lrOk (lcShow u) ∧ u.get F.LCS_FINDER_UNLOCKED = 0) ∧
  (∀ (s : State), s.lcs.state = lcProvision → s.lcs.fused.testBit 2 = false → s.lcs.revoked.testBit 2 = false →
    lcKeyfuse s = lcsEnd 4 lrOk (lcShow (s.modLcs (fun l => { l with fused := l.fused ||| 4, hashes := tset l.hashes 2 s.khash })))) ∧
  (∀ (op st : Nat) (s : State), op < 16 → st < 16 → (lcsEnd op st s).get F.LCS_CMD_DONE = 1 ∧ (lcsEnd op st s).get F.LCS_RESULT_STATUS = st % 2 ^ F.LCS_RESULT_STATUS.wid ∧
    (lcsEnd op st s).get F.LCS_STATUS_BUSY = 0) ∧
  (∀ (l : LcsSt) (t : Nat), l.trans = some t → t < 6 → l.blow.slots = l.slots ++ [2 ^ t] ∧ l.blow.state = t ∧ l.blow.trans = none)

/-- R404 to R408: the TAP rows.
Where it rests on a choice of the model, that is: notes/assumptions/60.md, notes/assumptions/61.md. -/
def Obligations.TheFinderScans : Prop :=
  (∀ (s : State), exec .tapReset s = .next (s.modFind (fun f => { f with ir := 2 }))) ∧
  (∀ (s : State), s.glb.mode ≠ .off →
    exec .tapIdcode s = .next (emit (.tdo 32 0x17240793) (loadIr 2 s)) ∧
    (∀ pins bits, exec (.tapSamplePreload pins bits) s = .next ((emit (.tdo 0 pins) (loadIr 1 s)).modFind (fun f => { f with boundary := bits }))) ∧
    exec (.tapBypass 0x7F#8) s = .next (emit (.tdo 1 0) (loadIr 0x7F s)) ∧
    (∃ n, exec .lcStatus s = .next (emit (.tdo 128 n) (loadIr 0x10 s))) ∧
    (∀ token, ∃ n u, exec (.finderUnlock token false) s = .next (tokenPut (token.map (·.toNat)) (emit (.tdo 2049 n) u)) ∧ u.find.ir = 0x11 ∧ u.regs = s.regs) ∧
    (∀ token, s.coreOn = true → ∃ u, exec (.finderUnlock token true) s =
      .next (domeAfter (lcsGo .finder 2 0 0 (setF F.LCS_CMD_OP 2 (tokenPut (token.map (·.toNat)) u)))))) ∧
  (∀ (s : State), s.glb.perst = true → s.glb.mode = .standby →
    exec .tapClamp s = .next (emit (.tdo 1 0) (s.modFind (fun f => { f with ir := 3, drive := 2 }))) ∧
    exec .tapHighz s = .next (emit (.tdo 1 0) (s.modFind (fun f => { f with ir := 4, drive := 3 }))) ∧
    (∀ bits, ∃ t, exec (.tapExtest bits) s = .next t ∧ t.find.drive = 1 ∧ t.find.boundary = bits ∧ t.find.ir = 0)) ∧
  (∀ (s : State), s.glb.mode = .active → exec .tapHighz s = .next (emit (.tdo 1 0) (setF F.LCS_FINDER_DENIED 1 (s.modFind (fun f => { f with ir := 4 }))))) ∧
  (∀ (dr : BitVec 72) (s : State), s.glb.mode ≠ .off → s.debugOn 0x21 = false →
    exec (.coreReg dr) s = .next (emit (.tdo 1 0) (setF F.LCS_FINDER_DENIED 1 (s.modFind (fun f => { f with ir := 0x21 }))))) ∧
  (∀ (core : Fin 2) (pc : BitVec 32) (s : State), s.glb.mode ≠ .off → s.debugOn 0x20 = true → (s.find.core core.val).halted = false →
    ∃ t, exec (.coreHalt core pc) s = .next t ∧ (t.find.core core.val).halted = true ∧ (t.find.core core.val).cause = 1 ∧
      (t.find.core core.val).pc = pc.toNat ∧ t.find.ctlCore = core.val) ∧
  (∀ (core : Fin 2) (s : State), s.glb.mode ≠ .off → s.debugOn 0x20 = true →
    ∃ t, exec (.coreResume core) s = .next t ∧ (t.find.core core.val).halted = false ∧ (t.find.core core.val).bps = (s.find.core core.val).bps) ∧
  (∀ (core : Fin 2) (pc : BitVec 32) (s : State), s.glb.mode ≠ .off → s.debugOn 0x20 = true → (s.find.core core.val).halted = true →
    ∃ t, exec (.coreStep core pc) s = .next t ∧ (t.find.core core.val).halted = true ∧ (t.find.core core.val).cause = 4 ∧
      (t.find.core core.val).pc = pc.toNat) ∧
  (∀ (dr : BitVec 72) (s : State), s.glb.mode ≠ .off → s.debugOn 0x21 = true → s.find.coreA.halted = true → dr.toNat.testBit 71 = false →
    dr.toNat.testBit 70 = true → 1 ≤ dr.toNat / 2 ^ 64 % 64 → dr.toNat / 2 ^ 64 % 64 < 32 →
    ∃ t, exec (.coreReg dr) s = .next t ∧ tget t.find.coreA.regs (dr.toNat / 2 ^ 64 % 64) = some (dr.toNat % 2 ^ 32)) ∧
  (∀ (dr : BitVec 72) (s : State), s.glb.mode ≠ .off → s.debugOn 0x22 = true → dr.toNat.testBit 71 = false → dr.toNat / 2 ^ 68 % 8 ≤ 3 →
    dr.toNat / 2 ^ 66 % 4 ≤ 1 → ∃ t, exec (.coreBp dr) s = .next t ∧
      tget t.find.coreA.bps (dr.toNat / 2 ^ 68 % 8) = some (dr.toNat / 2 ^ 66 % 4, dr.toNat / 2 ^ 62 % 16, dr.toNat % 2 ^ 32)) ∧
  (∀ (pc : BitVec 32) (s : State), s.find.coreA.halted = false → s.find.coreA.armed false pc.toNat = true →
    exec (.breakpointHit 0 false pc) s = .next (s.modFind (fun f => { f with coreA := f.coreA.halt 2 pc.toNat }))) ∧
  (∀ (dr : BitVec 134) (out : WmOut) (s : State), s.glb.mode ≠ .off → s.debugOn 0x30 = true → s.clk.held = [] → s.alm.queue = [] → s.alm.waiting = [] →
    let u := emit (.tdo 134 (s.find.data % 2 ^ 64 * 8 + s.find.status)) (loadIr 0x30 s)
    let n := if dr.toNat.testBit 131 then 8 else 4
    exec (.sysbusRead dr out) s = .next (sysAccess (dr.toNat / 2 ^ 127 % 16) (dr.toNat / 2 ^ 67 % 2 ^ 60) n none out u) ∧
    exec (.sysbusWrite dr) s = .next (sysAccess (dr.toNat / 2 ^ 127 % 16) (dr.toNat / 2 ^ 67 % 2 ^ 60) n (some (dr.toNat / 8 % 2 ^ (8 * n))) .clean u)) ∧
  (∀ (sp a n : Nat) (out : WmOut) (s : State), 4 < sp → sysAccess sp a n none out s = s.modFind (fun f => { f with status := 2, data := 0 })) ∧
  (∀ (s : State), s.glb.mode ≠ .off → s.debugOn 0x31 = true → exec (.busAbort true) s = .next (heldAbort (emit (.tdo 1 0) (loadIr 0x31 s))) ∧
    exec (.busAbort false) s = .next (emit (.tdo 1 0) (loadIr 0x31 s)))

/-- The command reaches the view's mailbox and runs there. -/
def Says.mboxRuns (view op : Nat) (s : State) : Prop :=
  s.mboxReach view = true ∧ s.opSupported view op = true ∧ s.opServed op = true ∧
    (s.glb.mode = .parked → (s.port (s.ldPort view)).l1 = false ∧ op ≠ 0x4304 ∧ op ≠ 0x4400 ∧ op ≠ 0x4401)

/-- A command that completes with a return code and a payload, and changes nothing else itself. -/
def Says.answer (view op rc : Nat) (out : List Nat) (s : State) : Host.Outcome State Fault Refusal :=
  .next (after (mboxDone view op rc out s))

/-- R35 and its sections: the queries.
Where it rests on a choice of the model, that is: notes/assumptions/23.md, notes/assumptions/24.md. -/
def Obligations.MailboxQueriesAreAnswered : Prop :=
  (∀ (view : Fin 17) (s : State), let v := view.val; let l := s.ld v
    (Says.mboxRuns v 0x0001 s → ∃ out, out.length = 6 ∧ exec (.identify view) s = Says.answer v 0x0001 rcOk out s) ∧
    (Says.mboxRuns v 0x0002 s → (∀ b, l.bg = some b → exec (.backgroundOperationStatus view) s = Says.answer v 0x0002 rcOk [1, b.pct, b.opcode, 0] s) ∧
      (∀ b, l.bg = none → l.lastBg = some b → exec (.backgroundOperationStatus view) s = Says.answer v 0x0002 rcOk [0, b.pct, b.opcode, b.rc] s)) ∧
    (Says.mboxRuns v 0x0003 s → ∃ out, out.length = 1 ∧ exec (.getResponseMessageLimit view) s = Says.answer v 0x0003 rcOk out s) ∧
    (Says.mboxRuns v 0x0102 s → exec (.getEventInterruptPolicy view) s = Says.answer v 0x0102 rcOk [l.irqPolicy] s) ∧
    (Says.mboxRuns v 0x0200 s → exec (.getFwInfo view) s = Says.answer v 0x0200 rcOk
      [2, 1, if s.img.stage.isSome then 2 else 0, ((s.img.run.map (·.ver)).getD 0), ((s.img.stage.map (·.ver)).getD 0)] s) ∧
    (Says.mboxRuns v 0x0300 s → exec (.getTimestamp view) s = Says.answer v 0x0300 rcOk [s.clk.tod] s) ∧
    (Says.mboxRuns v 0x0400 s → ∃ x, exec (.getSupportedLogs view) s =
      Says.answer v 0x0400 rcOk [2, 4 * (allOps.filter (s.opSupported v)).length, x] s) ∧
    (Says.mboxRuns v 0x0401 s → exec (.getLog view 0#8) s = Says.answer v 0x0401 rcOk (allOps.filter (s.opSupported v)) s) ∧
    (Says.mboxRuns v 0x4000 s → exec (.identifyMemoryDevice view) s =
      Says.answer v 0x4000 rcOk [l.capBlocks, 0, l.capBlocks, 0, 64, 64, 64, 64, 64, 131072, 4096] s) ∧
    (Says.mboxRuns v 0x4100 s → exec (.getPartitionInfo view) s = Says.answer v 0x4100 rcOk [0, l.capBlocks, 0, 0] s) ∧
    (Says.mboxRuns v 0x4200 s → exec (.getHealthInfo view) s =
      Says.answer v 0x4200 rcOk [(decide (v < 16) && s.wpAny v).toNat, s.lifeUsed, s.dome.tj, s.odo odoDirty] s) ∧
    (Says.mboxRuns v 0x4201 s → exec (.getAlertConfiguration view) s =
      Says.answer v 0x4201 rcOk [(l.lifeWarn.map (· + 1)).getD 0, (l.tempWarn.map (· + 1)).getD 0] s) ∧
    (Says.mboxRuns v 0x4203 s → exec (.getShutdownState view) s = Says.answer v 0x4203 rcOk [s.hostDirty.toNat, s.odo odoDirty] s) ∧
    (Says.mboxRuns v 0x4305 s → exec (.getScanMediaResults view) s = Says.answer v 0x4305 rcOk (l.scan.length :: l.scan) s) ∧
    (Says.mboxRuns v 0x4800 s → exec (.getDynamicCapacityConfiguration view) s =
      Says.answer v 0x4800 rcOk [1, l.blocks * 2 ^ 28, l.dcRegion * 2 ^ 28, 2 ^ 28] s) ∧
    (Says.mboxRuns v 0x4801 s → exec (.getDynamicCapacityExtentList view) s =
      Says.answer v 0x4801 rcOk (l.extents.length :: l.extents.flatMap (fun e => [(l.blocks + e.1) * 2 ^ 28, e.2 * 2 ^ 28])) s) ∧
    (Says.mboxRuns v 0x5400 s → ∃ x y, exec (.getLdInfo view) s = Says.answer v 0x5400 rcOk [s.userBlocks, 16, x, y] s) ∧
    (Says.mboxRuns v 0x5401 s → exec (.getLdAllocations view) s =
      Says.answer v 0x5401 rcOk ((List.range 16).flatMap (fun n => [(s.ld n).blocks, (s.ld n).dcRegion])) s) ∧
    (Says.mboxRuns v 0x5403 s → ∃ out, out.length = 4 ∧ exec (.getQosControl view) s = Says.answer v 0x5403 rcOk out s) ∧
    (Says.mboxRuns v 0xC000 s → ∃ out, out.length = 32 ∧
      exec (.ivhildGetPlateMap view) s = Says.answer v 0xC000 rcOk ([s.dome.prsnt, s.img.chans] ++ out) s) ∧
    (Says.mboxRuns v 0xC001 s → ∃ free, exec (.ivhildGetFieldSummary view) s = Says.answer v 0xC001 rcOk
      [free, s.fieldsIn fOpen, s.fieldsIn fClosed, s.fieldsIn fVerified, s.fieldsIn fRetired, s.fieldsIn fBad] s)) ∧
  (∀ (view : Fin 17) (log : BitVec 8) (s : State), Says.mboxRuns view.val 0x0100 s →
    let recs := tgetD [] (s.ld view.val).logs log.toNat; let drops := tgetD 0 (s.ld view.val).drops log.toNat
    exec (.getEventRecords view log) s = if log.toNat ≤ 4
      then Says.answer view.val 0x0100 rcOk ([(decide (0 < drops)).toNat, drops, recs.length] ++ recs.flatMap (fun e => [e.kind, e.arg])) s
      else Says.answer view.val 0x0100 rcInvalidInput [] s) ∧
  (∀ (view : Fin 17) (off len : BitVec 32) (s : State), Says.mboxRuns view.val 0x4102 s →
    exec (.getLsa view off len) s = if off.toNat + len.toNat ≤ 131072
      then Says.answer view.val 0x4102 rcOk ((List.range len.toNat).map (fun i => tgetD 0 (s.ld view.val).lsa (off.toNat + i))) s
      else Says.answer view.val 0x4102 rcInvalidInput [] s) ∧
  (∀ (view : Fin 17) (dpa len : BitVec 64) (s : State),
    (Says.mboxRuns view.val 0x4300 s → let l := s.ld view.val
      let es := l.poison.filter (fun e => decide (dpa.toNat ≤ e.1 * 64) && decide (e.1 * 64 < dpa.toNat + len.toNat))
      exec (.getPoisonList view dpa len) s =
        Says.answer view.val 0x4300 rcOk ([l.poisonOvf.toNat, es.length] ++ es.flatMap (fun e => [e.1 * 64, e.2])) s) ∧
    (Says.mboxRuns view.val 0x4303 s → ∃ x, exec (.getScanMediaCapabilities view dpa len) s = Says.answer view.val 0x4303 rcOk [x] s)) ∧
  (∀ (view : Fin 17) (op : BitVec 16) (s : State), s.mboxReach view.val = true → s.opSupported view.val op.toNat = false →
    exec (.mailboxUnsupported view op) s = .next (mboxDone view.val op.toNat rcUnsupported [] s))

/-- R31, R34 to R37, R40, R304, R305: the commands that change state.
Where it rests on a choice of the model, that is: notes/assumptions/23.md, notes/assumptions/24.md, notes/assumptions/26.md. -/
def Obligations.MailboxCommandsAct : Prop :=
  (∀ (view : Fin 17) (log n : BitVec 8) (s : State), Says.mboxRuns view.val 0x0101 s → log.toNat ≤ 4 →
    exec (.clearEventRecords view log true n) s = Says.answer view.val 0x0101 rcOk [] (modLd view.val (fun l =>
      { l with logs := tput [] l.logs log.toNat [], drops := terase l.drops log.toNat }) s)) ∧
  (∀ (view : Fin 17) (policy : BitVec 40) (s : State), Says.mboxRuns view.val 0x0103 s →
    exec (.setEventInterruptPolicy view policy) s = Says.answer view.val 0x0103 rcOk [] (modLd view.val (fun l => { l with irqPolicy := policy.toNat }) s)) ∧
  (∀ (view : Fin 17) (slot : BitVec 8) (image : Image) (s : State), Says.mboxRuns view.val 0x0201 s → s.stage ≠ stageMailbox →
    s.img.act = none → s.img.reload = none → (s.ld view.val).bg = none → exec (.transferFw view slot image) s = if slot.toNat = 2
      then let u := imageStage image (modLd view.val (fun l => { l with bg := some ⟨0x0201, 0, 0⟩ })
          (mboxDone view.val 0x0201 rcBackground [] s))
        .next (domeAfter (bgEnd view.val (if u.1 then rcOk else rcFwInvalid) u.2))
      else Says.answer view.val 0x0201 rcSlot [] s) ∧
  (∀ (view : Fin 17) (slot : BitVec 8) (s : State), Says.mboxRuns view.val 0x0202 s → s.stage ≠ stageMailbox →
    (slot.toNat ≠ 2 → exec (.activateFwNextReset view slot) s = Says.answer view.val 0x0202 rcSlot [] s) ∧
    (slot.toNat = 2 → s.stagedSlot = none → exec (.activateFwNextReset view slot) s = Says.answer view.val 0x0202 rcSlot [] s) ∧
    (∀ k, slot.toNat = 2 → s.stagedSlot = some k → ∃ f, exec (.activateFwNextReset view slot) s =
      Says.answer view.val 0x0202 (if (bootWrite k s.minSvn f s).1 then rcOk else rcSecurity) [] (bootWrite k s.minSvn f s).2)) ∧
  (∀ (view : Fin 17) (slot : BitVec 8) (i : Image) (s : State), Says.mboxRuns view.val 0x0202 s → s.stage ≠ stageMailbox → slot.toNat = 2 →
    s.img.stage = some i →
    (s.needsCold i = true → exec (.activateFwOnline view slot) s = .next (domeAfter (mboxDone view.val 0x0202 rcColdReset [] s))) ∧
    (s.needsCold i = false → s.alm.wp = false → s.on F.IMG_CTL_ONLINE_EN = true → s.img.reload = none → s.img.act = none →
      exec (.activateFwOnline view slot) s = .next (domeAfter (actGo (setF F.IMG_RELOAD_STATUS_BUSY 1 (setF F.IMG_STATUS_ACTIVATING 1
        (s.modImg (fun x => { x with act := some ⟨s.actUnits i, [], false, view.val⟩ }))))))) ∧
    (s.needsCold i = false → s.alm.wp = true →
      exec (.activateFwOnline view slot) s = .next (domeAfter (mboxDone view.val 0x0202 rcSecurity [] s)))) ∧
  (∀ (view : Fin 17) (t : BitVec 64) (s : State), Says.mboxRuns view.val 0x0301 s →
    exec (.setTimestamp view t) s = Says.answer view.val 0x0301 rcOk [] (todStep t.toNat 2 s)) ∧
  (∀ (view : Fin 17) (off : BitVec 32) (data : List Byte) (s : State), Says.mboxRuns view.val 0x4103 s → off.toNat + data.length ≤ 131072 →
    ∃ u, exec (.setLsa view off data) s = .next (after (forceCommit (.mbox view.val 0x4103)
      (lsaRecords data.length view.val off.toNat (data.map (·.toNat)) (modLd view.val (fun l => { l with lsa := u }) s)))) ∧
      u = (List.range data.length).foldl (fun t i => tput 0 t (off.toNat + i) ((data.map (·.toNat)).getD i 0 % 256)) (s.ld view.val).lsa) ∧
  (∀ (view : Fin 17) (life temp : BitVec 16) (s : State), Says.mboxRuns view.val 0x4202 s →
    let u := modLd view.val (fun l => { l with lifeWarn := some life.toNat, tempWarn := some temp.toNat, lifeHit := false, tempHit := false }) s
    exec (.setAlertConfiguration view (some life) (some temp)) s =
      Says.answer view.val 0x4202 rcOk [] (lifeAlert u.lifeUsed view.val (tempAlert u.dome.tj view.val u))) ∧
  (∀ (view : Fin 17) (dirty : Bool) (s : State), Says.mboxRuns view.val 0x4204 s →
    exec (.setShutdownState view dirty) s = Says.answer view.val 0x4204 rcOk [] (setHostDirty dirty s)) ∧
  (∀ (view : Fin 17) (dpa : BitVec 64) (s : State), Says.mboxRuns view.val 0x4301 s → let a := dpa.toNat / 64 * 64
    ((s.lcs.state = lcManufacture ∨ s.lcs.state = lcDevelop ∨ s.lcs.state = lcService) → s.backed view.val a = true → exec (.injectPoison view dpa) s =
      Says.answer view.val 0x4301 rcOk [] (refreshPoisonAny view.val (folioOf a) (poisonAdd view.val a 1 s))) ∧
    ((s.lcs.state = lcProvision ∨ s.lcs.state = lcReturn ∨ s.lcs.state = lcDecommission) →
      exec (.injectPoison view dpa) s = Says.answer view.val 0x4301 rcSecurity [] s)) ∧
  (∀ (view : Fin 17) (dpa : BitVec 64) (data : Line) (s : State), Says.mboxRuns view.val 0x4302 s → let a := dpa.toNat / 64 * 64
    s.backed view.val a = true →
    (writeRefused ⟨s.ldPort view.val, view.val, 0, a, true, fullMask, data, false, false, 0⟩ s = none → s.canAccept view.val a = true →
      exec (.clearPoison view dpa data) s =
        Says.answer view.val 0x4302 rcOk [] (poisonRebuild view.val (acceptLine view.val a fullMask data false s)))) ∧
  (∀ (view : Fin 17) (dpa len : BitVec 64) (leaves : List RingLeaf) (s : State), Says.mboxRuns view.val 0x4304 s → (s.ld view.val).bg = none →
    let first := dpa.toNat / 64 * 64
    let lines := (List.range ((dpa.toNat + len.toNat + 63 - first) / 64)).map (fun i => first + 64 * i)
    let r := lines.foldl (scanLine view.val leaves) ([], modLd view.val (fun l => { l with bg := some ⟨0x4304, 0, 0⟩ })
      (mboxDone view.val 0x4304 rcBackground [] s))
    exec (.scanMedia view dpa len leaves) s = .next (after (bgEnd view.val rcOk (modLd view.val (fun l => { l with scan := r.1 })
      (poisonRebuild view.val r.2))))) ∧
  (∀ (view : Fin 17) (dpa len : BitVec 64) (leaves : List RingLeaf) (b : BgOp) (s : State), Says.mboxRuns view.val 0x4304 s → (s.ld view.val).bg = some b →
    exec (.scanMedia view dpa len leaves) s = Says.answer view.val 0x4304 rcBusy [] s)

/-- R24 to R26, R38, R39, R48.
Where it rests on a choice of the model, that is: notes/assumptions/25.md, notes/assumptions/26.md. -/
def Obligations.MailboxErasesAndMovesCapacity : Prop :=
  (∀ (view : Fin 17) (op : Nat) (c : Instr) (s : State), ((op = 0x4400 ∧ c = .sanitize view) ∨ (op = 0x4401 ∧ c = .secureErase view)) →
    Says.mboxRuns view.val op s → (s.ld view.val).bg = none → view.val < 16 → exec c s = .next (after (keyAdvance (keyOwn 7 view.val
      (wpSet view.val wpSanitize (modLd view.val (fun l => { l with bg := some ⟨op, 0, 0⟩ }) (mboxDone view.val op rcBackground [] s))))))) ∧
  (∀ (view : Fin 17) (op : Nat) (c : Instr) (s : State), ((op = 0x4400 ∧ c = .sanitize view) ∨ (op = 0x4401 ∧ c = .secureErase view) ∨
      (op = 0x4304 ∧ ∃ d n l, c = .scanMedia view d n l)) →
    s.mboxReach view.val = true → s.opSupported view.val op = true → s.opServed op = true → s.glb.mode = .parked →
    exec c s = Says.answer view.val op rcBusy [] s) ∧
  (∀ (view : Fin 17) (s : State), s.mboxReach view.val = true → s.opSupported view.val 0x0300 = true → s.opServed 0x0300 = true → s.glb.mode = .parked →
    (s.port (s.ldPort view.val)).l1 = true → exec (.getTimestamp view) s = .next (after (modPort (s.ldPort view.val)
      (fun p => { p with mboxQ := p.mboxQ ++ [⟨view.val, 0x0300, [], none⟩] }) s))) ∧
  (∀ (view : Fin 17) (s : State), s.mboxReach view.val = true → s.opSupported view.val 0x4200 = true → s.opServed 0x4200 = false →
    exec (.getHealthInfo view) s = Says.answer view.val 0x4200 rcBusy [] s) ∧
  (∀ (view : Fin 17) (e : Nat × Nat) (s : State), Says.mboxRuns view.val 0x4802 s → 0 < e.2 → e.1 + e.2 ≤ (s.ld view.val).dcRegion →
    (s.ld view.val).extents.any (extMeet e) = false → s.usedBlocks + e.2 ≤ s.userBlocks → exec (.addDynamicCapacityResponse view [e]) s =
      Says.answer view.val 0x4802 rcOk [] (dcEvent view.val 4 (ldStatus view.val (ldCfg view.val (modLd view.val (fun l =>
        { l with extents := l.extents ++ [e] }) s))))) ∧
  (∀ (view : Fin 17) (es : List (Nat × Nat)) (s : State), Says.mboxRuns view.val 0x4803 s → (extSub es (s.ld view.val).extents).isSome = true →
    exec (.releaseDynamicCapacity view es) s = .next (after (releaseGo
      (s.modHost (fun h => { h with releases := h.releases ++ [⟨view.val, 0x4803, es.flatMap (fun e => [e.1, e.2]), none⟩] }))))) ∧
  (∀ (view : Fin 17) (es : List (Nat × Nat)) (s : State), Says.mboxRuns view.val 0x4803 s → (extSub es (s.ld view.val).extents).isSome = false →
    exec (.releaseDynamicCapacity view es) s = Says.answer view.val 0x4803 rcInvalidInput [] s) ∧
  (∀ (view : Fin 17) (alloc : List (Fin 16 × Nat × Nat)) (s : State), Says.mboxRuns view.val 0x5402 s →
    let l := alloc.map (fun a => (a.1.val, a.2.1, a.2.2))
    sumOver 16 (fun n => (s.allocOf l n).1 + extBlocks (s.allocExt l n)) ≤ s.userBlocks → s.allocOff l 16 ≤ arrayLimit → s.host.moveTo = [] →
    (List.range 16).any (s.allocBusy l) = false →
    (s.allocMoves l = [] → exec (.setLdAllocations view alloc) s = Says.answer view.val 0x5402 rcOk [] (allocApply l s)) ∧
    (s.allocMoves l ≠ [] → exec (.setLdAllocations view alloc) s =
      .next (after (s.modHost (fun h => { h with moving := s.allocMoves l, moveTo := l, movingCmd := true }))))) ∧
  (∀ s : State, s.host.moveTo ≠ [] → s.xlat.misses = [] → s.xlat.stalled = [] → s.host.movingCmd = false → exec .arrayMoveDone s =
    .next (after (allocApply s.host.moveTo (s.modHost (fun h => { h with moving := [], moveTo := [], movingCmd := false }))))) ∧
  (∀ s : State, s.host.moveTo = [] → exec .arrayMoveDone s = .next (after s))

/-- The model's step; the idle tick is DESIGN CHOICE, notes/assumptions/1.md. -/
def Obligations.AStepRunsTheCommandAtTheFront : Prop :=
  (∀ (c : Instr) (s : State), step (s.modPending (fun q => c :: q)) = exec c s) ∧
  (∀ (s : State) (c : Instr) (q : List Instr), s.pending = c :: q → step s = exec c (s.modPending (fun _ => q))) ∧
  (∀ s : State, s.pending = [] → step s = .next (idleStep s))

/-- The state after reset.
Where it rests on a choice of the model, that is: notes/assumptions/4.md, notes/assumptions/5.md, notes/assumptions/6.md. -/
def Obligations.ResetLeavesTheStatedValues : Prop :=
  (∀ f : Fld, State.reset.get f = f.rst) ∧ State.reset.pending = [] ∧ State.reset.outs = [] ∧ State.reset.alm.bytes = [] ∧
  State.reset.xlat.scratch = [] ∧ State.reset.log.slots = [] ∧ State.reset.lcs.slots = [1] ∧ State.reset.lcs.state = lcManufacture ∧
  State.reset.lcs.fused = 3 ∧ State.reset.lcs.trans = none ∧ State.reset.glb.mode = .off ∧ State.reset.holds = []

/-- Every command runs in every state.
Where it rests on a choice of the model, that is: notes/assumptions/2.md. -/
def Obligations.EveryCommandAnswersANextState : Prop :=
  (∀ (c : Instr) (s : State), ∃ t, exec c s = .next t) ∧ ∀ s : State, Safe s

/-- The invariants hold at reset. -/
def Obligations.ResetIsSound : Prop := State.reset.lcs.sound = true ∧ State.reset.memWf = true

/-- R397, R399: no step, whatever the command, leads the life cycle along a transition that the table lacks. -/
def Obligations.EveryStepKeepsTheLifeCycleHistory : Prop :=
  (∀ s t : State, s.lcs.sound = true → step s = .next t →
    (∃ ext, t.lcs.slots = s.lcs.slots ++ ext ∧ lcChain s.lcs.state ext = true) ∧ t.lcs.sound = true) ∧
  (∀ old new, old < 6 → new < 6 → (lcAuth old new = .never ↔ (old, new) ∉
    [(lcManufacture, lcProvision), (lcManufacture, lcDevelop), (lcProvision, lcService), (lcService, lcReturn), (lcReturn, lcProvision),
      (lcProvision, lcDecommission), (lcDevelop, lcDecommission), (lcService, lcDecommission), (lcReturn, lcDecommission)])) ∧
  (∀ (m : Master) (new confirm : Nat) (s : State), lcAuth s.lcs.state new = .never → lcTransition m new confirm s = lcsEnd 1 lrNotAllowed s)

/-- R69, R388: equal memories are equal data, kept by every step.
Where it rests on a choice of the model, that is: notes/assumptions/5.md, notes/assumptions/6.md. -/
def Obligations.EveryStepKeepsTheCanonicalForm : Prop :=
  ∀ s t : State, s.memWf = true → step s = .next t → t.memWf = true

/-- R289, R397: OTP bits are blown once. -/
def Obligations.AFusedBitStaysFused : Prop :=
  ∀ s t : State, step s = .next t → (∀ k, s.lcs.fused.testBit k = true → t.lcs.fused.testBit k = true) ∧
    (∀ k, s.lcs.revoked.testBit k = true → t.lcs.revoked.testBit k = true) ∧ s.lcs.slots <+: t.lcs.slots

/-- R399 lists no transition from DECOMMISSION. -/
def Obligations.DecommissionIsFinal : Prop :=
  ∀ s t : State, s.lcs.sound = true → s.lcs.state = lcDecommission → step s = .next t →
    t.lcs.slots = s.lcs.slots ∧ t.lcs.state = lcDecommission ∧ t.lcs.trans = none

/-- The frame of every command; the tick is DESIGN CHOICE, notes/assumptions/1.md. -/
def Obligations.CommandsLeaveTheQueueAndTheTime : Prop :=
  (∀ (c : Instr) (s t : State), exec c s = .next t → t.pending = s.pending ∧ t.now = s.now) ∧
  (∀ s t : State, s.pending = [] → step s = .next t → t.pending = [] ∧ t.now = s.now + 10) ∧
  (∀ (c : Instr) (q : List Instr) (s t : State), s.pending = c :: q → step s = .next t → t.pending = q ∧ t.now = s.now)

/-- Outputs only grow.
Where it rests on a choice of the model, that is: notes/assumptions/3.md, notes/assumptions/8.md. -/
def Obligations.WhatWasSentIsNeverTakenBack : Prop :=
  ∀ s t : State, step s = .next t → s.outs <:+ t.outs ∧ s.freeCnt ≤ t.freeCnt

/-- The value of a counter, and its wrap bit. -/
def Says.ctr (p : SpecSt) (id : Nat) : Nat := tgetD 0 p.cnt id
def Says.wrapped (p : SpecSt) (id : Nat) : Bool := (tgetD 0 p.wrap (id / 32)).testBit (id % 32)

/-- R374 (and R373 for counters that stand alone). -/
def Obligations.AChainedPairIsOneWideCounter : Prop :=
  (∀ (p : SpecSt) (e n : Nat), e % 2 = 0 → p.chained e = true → Says.ctr p e < 2 ^ 48 → Says.ctr p (e + 1) < 2 ^ 48 →
    let q := p.count (e + 1) n
    let v := Says.ctr p e * 2 ^ 48 + Says.ctr p (e + 1) + n
    Says.ctr q e * 2 ^ 48 + Says.ctr q (e + 1) = v % 2 ^ 96 ∧ Says.ctr q (e + 1) < 2 ^ 48 ∧
    Says.wrapped q e = (Says.wrapped p e || decide (2 ^ 96 ≤ v)) ∧ (∀ j, j ≠ e → Says.wrapped q j = Says.wrapped p j) ∧
    (∀ j, j ≠ e → j ≠ e + 1 → Says.ctr q j = Says.ctr p j) ∧ p.count e n = p) ∧
  (∀ (p : SpecSt) (i n : Nat), p.chained i = false → Says.ctr p i < 2 ^ 48 →
    let q := p.count i n
    Says.ctr q i = (Says.ctr p i + n) % 2 ^ 48 ∧ Says.wrapped q i = (Says.wrapped p i || decide (2 ^ 48 ≤ Says.ctr p i + n)) ∧
    (∀ j, j ≠ i → Says.ctr q j = Says.ctr p j ∧ Says.wrapped q j = Says.wrapped p j)) ∧
  (∀ (m : Master) (b : Fin 128) (v : BitVec 32) (s : State), ∃ t, exec (.chainWrite m b v) s = .next t ∧
    (∀ k, k < 16 → t.spec.chained (b.val * 32 + 2 * k) = v.toNat.testBit k) ∧
    (∀ k, k < 16 → Says.ctr t.spec (b.val * 32 + 2 * k) =
      if s.spec.chained (b.val * 32 + 2 * k) = v.toNat.testBit k then Says.ctr s.spec (b.val * 32 + 2 * k) else 0) ∧
    (∀ j, (∀ k, k < 16 → j ≠ b.val * 32 + 2 * k) → Says.ctr t.spec j = Says.ctr s.spec j))

/-- R69, R388, R389: the addressed buffers.
Where it rests on a choice of the model, that is: notes/assumptions/5.md, notes/assumptions/6.md. -/
def Obligations.AddressedBytesReadBackAndKeepTheRest : Prop :=
  (∀ (k : Nat) (l : List Nat) (s : State),
    (∀ i, i < l.length → (almStore k l s).alm.byte (k + i) = l.getD i 0 % 256) ∧
    (∀ a, (a < k ∨ k + l.length ≤ a) → (almStore k l s).alm.byte a = s.alm.byte a) ∧
    (almStore k l s).modAlm (fun a => { a with bytes := s.alm.bytes }) = s) ∧
  (∀ (k : Nat) (l : List Nat) (s : State),
    (s.alm.wp = true → almProtected k = true → (almDevice k l s).1 = false ∧ (almDevice k l s).2.alm = s.alm ∧
      (almDevice k l s).2.get F.ALM_ERR_STATUS_WP_REFUSE ≠ 0) ∧
    ((s.alm.wp = false ∨ almProtected k = false) → almDevice k l s = (true, almStore k l s))) ∧
  (∀ (off size v : Nat) (s : State),
    scratchRead off size (scratchWrite off size v s) = v % 2 ^ (8 * size) ∧
    (∀ o, (o < off ∨ off + size ≤ o) → tgetD 0 (scratchWrite off size v s).xlat.scratch o = tgetD 0 s.xlat.scratch o) ∧
    (scratchWrite off size v s).modXlat (fun x => { x with scratch := s.xlat.scratch }) = s)

/-- The intent of an odometer: NEW_HIGH, and word 1. -/
def Says.newHigh (s : State) (i : Nat) : Nat := s.almNum (odoAddr i + 8) 4
def Says.word1 (s : State) (i : Nat) : Nat := s.almNum (odoAddr i + 12) 4

/-- R394 to R396: odometers.
Where it rests on a choice of the model, that is: notes/assumptions/5.md. -/
def Obligations.AnOdometerIncrementsByOneAndNoOther : Prop :=
  (∀ (i : Nat) (s : State), i < 16 →
    (odoInc i s).odo i = (s.odo i + 1) % 2 ^ 64 ∧ Says.word1 (odoInc i s) i = 0 ∧
    (∀ j, j < 16 → j ≠ i → (odoInc i s).odo j = s.odo j) ∧
    (∀ a, (a < odoAddr i ∨ odoAddr i + 16 ≤ a) → (odoInc i s).alm.byte a = s.alm.byte a)) ∧
  (∀ (i : Nat) (s : State), i < 16 → Says.word1 s i / 2 ^ 24 ≠ 0xA5 → odoRepair i s = s) ∧
  (∀ (i low : Nat) (s : State), i < 16 → Says.word1 s i / 2 ^ 24 = 0xA5 →
    let ok := fun l => crc16 (numBytes 8 (Says.newHigh s i * 2 ^ 32 + l)) = Says.word1 s i % 65536
    let old := s.almNum (odoAddr i) 4
    ((low = old ∧ ok low) ∨ (low = (old + 1) % 2 ^ 32 ∧ ok low ∧ ¬ ok old) →
      (odoRepair i s).odo i = Says.newHigh s i * 2 ^ 32 + low ∧ Says.word1 (odoRepair i s) i = 0 ∧
      (odoRepair i s).get F.ALM_ERR_STATUS_ODO_REPAIR ≠ 0) ∧
    (¬ ok old → ¬ ok ((old + 1) % 2 ^ 32) → (odoRepair i s).odo i = s.odo i ∧ Says.word1 (odoRepair i s) i = 0 ∧
      (odoRepair i s).get F.ALM_ERR_STATUS_ODO_BAD ≠ 0))

/-- R380: both directions. -/
def Obligations.ALogRecordIsItsFourWords : Prop :=
  (∀ r : LogRec, r.seq < 2 ^ 32 → r.code < 2 ^ 16 → r.source < 2 ^ 8 → r.sev < 2 ^ 8 → r.time < 2 ^ 64 → r.p0 < 2 ^ 32 → r.p1 < 2 ^ 32 →
    r.p2 < 2 ^ 32 → r.p3 < 2 ^ 32 → LogRec.ofWords (r.word 0) (r.word 1) (r.word 2) (r.word 3) = r) ∧
  (∀ w0 w1 w2 w3 : Nat, w0 < 2 ^ 64 → w1 < 2 ^ 64 → w2 < 2 ^ 64 → w3 < 2 ^ 64 → let r := LogRec.ofWords w0 w1 w2 w3
    r.word 0 = w0 ∧ r.word 1 = w1 ∧ r.word 2 = w2 ∧ r.word 3 = w3)

/-- The rows of the finder that reach nothing but the port and the cores. -/
def Says.finderRow (c : Instr) : Prop :=
  c = .tapReset ∨ c = .tapIdcode ∨ (∃ p b, c = .tapSamplePreload p b) ∨ (∃ b, c = .tapExtest b) ∨ c = .tapClamp ∨ c = .tapHighz ∨
  (∃ ir, c = .tapBypass ir) ∨ c = .lcStatus ∨ (∃ k pc, c = .coreHalt k pc) ∨ (∃ k, c = .coreResume k) ∨ (∃ k pc, c = .coreStep k pc) ∨
  (∃ dr, c = .coreReg dr) ∨ (∃ dr, c = .coreBp dr) ∨ (∃ k w pc, c = .breakpointHit k w pc)

/-- R404 to R406: frames.
Where it rests on a choice of the model, that is: notes/assumptions/60.md. -/
def Obligations.TheFinderTouchesOnlyItself : Prop :=
  (∀ (c : Instr) (s : State), Says.finderRow c → ∃ t, exec c s = .next t ∧
    t = { s with find := t.find, outs := t.outs, freeCnt := t.freeCnt, regs := t.regs } ∧
    ∀ f : Fld, f.key ≠ F.LCS_FINDER_DENIED.key → t.get f = s.get f) ∧
  (∀ (token : List Byte) (s : State), ∃ t, exec (.finderUnlock token false) s = .next t ∧
    t = { s with find := t.find, outs := t.outs, freeCnt := t.freeCnt, regs := t.regs } ∧
    ∀ f : Fld, (∀ w, w < 32 → f.key ≠ (F.LCS_TOKEN w).key) → t.get f = s.get f)

/-- Rows that only clocks, records and counters see. -/
def Says.stationRow (c : Instr) : Prop :=
  (∃ o, c = .recQualified o) ∨ (∃ x, c = .recDisqualified x) ∨ c = .holdoverExpiry ∨ c = .slewDone ∨ (∃ m, c = .todLowRead m) ∨
  (∃ m v, c = .chrono m v) ∨ (∃ n, c = .chronoGateEnd n) ∨ (∃ n, c = .chronoRefDead n) ∨ (∃ m v x, c = .logPut m v x) ∨
  (∃ m, c = .logWin0Read m) ∨ (∃ m, c = .logWin3Read m)
def Says.counterRow (c : Instr) : Prop :=
  c = .snapTimer ∨ (∃ m v, c = .snapGo m v) ∨ c = .snapPublish ∨ (∃ m b v, c = .chainWrite m b v)

/-- Frames of the stations.
Where it rests on a choice of the model, that is: notes/assumptions/13.md. -/
def Obligations.ClockAndRecordRowsKeepTheCore : Prop :=
  (∀ (c : Instr) (s : State), Says.stationRow c → ∃ t, exec c s = .next t ∧ s.sameCore t ∧ t.alm.bytes = s.alm.bytes) ∧
  (∀ (c : Instr) (s : State), Says.counterRow c → ∃ t, exec c s = .next t ∧ t = { s with spec := t.spec })

/-- The command ends in a state that P describes. -/
def Says.ends (c : Instr) (s : State) (P : State → Prop) : Prop := ∃ t, exec c s = .next t ∧ P t

/-- The command's own effect is a state that P describes; `w` is what then follows from it at once. -/
def Says.leads (w : State → State) (c : Instr) (s : State) (P : State → Prop) : Prop := ∃ u, exec c s = .next (w u) ∧ P u

/-- Off, STANDBY or FAULT-HALT. -/
def Says.idleMode (s : State) : Prop := s.glb.mode = .off ∨ s.glb.mode = .standby ∨ s.glb.mode = .faultHalt

/-- Input power is there and the device sequencer is about to be asked on. -/
def Says.powered (u : State) : Prop :=
  u.start.vin = true ∧ u.dome.onBank = false ∧ u.glb.mode = .off ∧ u.start.source = srcPowerOn ∧ u.start.relPend = false

/-- Input power has just gone. -/
def Says.inputGone (s u : State) : Prop :=
  u.start.vin = false ∧ u.dome.onBank = true ∧ u.on F.DOME_ERR_STATUS_INPUT_LOSS = true ∧ u.glb.mode = s.glb.mode

/-- PERST# has just been asserted. -/
def Says.perstOn (s : State) : State :=
  (s.modGlb (fun g => { g with perst := true, wake := false })).modStart (fun x => { x with relPend := false })

/-- PERST# has just been released. -/
def Says.perstOff (straps us : Nat) (fail pend : Bool) (s : State) : State :=
  (s.modGlb (fun g => { g with perst := false })).modStart
    (fun x => { x with relPend := pend, relStraps := straps, relUs := us, relFail := fail })

/-- The search for an image (R287): the boot slots in their order, then the two xSPI images. -/
def Says.bootSearch (unread : Nat) (x0 x1 : Option Image) (s : State) : Boot × State :=
  let s0 := bootPrepare (setF F.IMG_BOOT_LOG_ATTEMPT F.IMG_BOOT_LOG_ATTEMPT.rst s)
  let q := s0.bootOrder.foldl (fun p k => bootSlot unread k p) (⟨0, none⟩, s0)
  if s.on F.GLB_STRAPS_XSPI_EN then bootTry 6 x1 none (bootTry 5 x0 none q) else q

/-- R12, R244, R287, R321, R329, R330, R412 to R414, R427: the rows of power and of a start.
Where it rests on a choice of the model, that is: notes/assumptions/42.md, notes/assumptions/43.md, notes/assumptions/44.md, notes/assumptions/45.md, notes/assumptions/47.md, notes/assumptions/49.md. -/
def Obligations.EveryPowerRowCompletesInEveryMode : Prop :=
  (∀ (straps : BitVec 8) (s : State), s.start.vin = false → Says.idleMode s →
    Says.leads (fun u => domeAfter (seqOn devSeq u)) (.powerOn straps) s (fun u => Says.powered u ∧ u.start.aonDown = false ∧
      (s.start.aonDown = true → u.get F.GLB_STRAPS_SHELF_ID = straps.toNat % 64 ∧ u.get F.GLB_STRAPS_XSPI_EN = straps.toNat / 128)) ∧
    Says.leads (fun u => domeAfter (seqOn devSeq u)) .inputReturn s Says.powered) ∧
  (∀ s : State, s.start.vin = false → ¬ Says.idleMode s →
    Says.ends .inputReturn s (fun t => t.start.vin = true ∧ t.dome.onBank = false ∧ t.glb = s.glb ∧ t.regs = s.regs)) ∧
  (∀ s : State, s.start.vin = true →
    (s.glb.mode = .off → Says.leads (fun u => domeAfter (seqOff devSeq u)) .inputLoss s (Says.inputGone s)) ∧
    (s.glb.mode = .standby → Says.leads (fun u => domeAfter ((seqOff devSeq u).modGlb (fun g => { g with mode := .off, wake := false })))
      .inputLoss s (Says.inputGone s)) ∧
    (s.glb.mode = .faultHalt → Says.leads (seqOff devSeq) .inputLoss s (Says.inputGone s)) ∧
    (s.glb.mode = .starting → s.dome.huEn = true →
      Says.leads (fun u => domeAfter (drainDown (reloadsAbandon false u))) .inputLoss s (Says.inputGone s)) ∧
    (s.glb.mode = .parked → s.dome.huEn = true → s.dur.drain = 0 →
      Says.leads (fun u => domeAfter (drainDown (reloadsAbandon false u))) .inputLoss s (Says.inputGone s)) ∧
    ((s.glb.mode = .active ∨ s.glb.mode = .quiet) → s.dome.huEn = true → s.dur.drain = 0 →
      Says.leads (fun u => domeAfter (drainBegin u)) .inputLoss s (Says.inputGone s)) ∧
    (¬ Says.idleMode s → s.dome.huEn = false → s.glb.mode = .starting ∨ s.dur.drain = 0 → Says.leads collapse .inputLoss s (Says.inputGone s)) ∧
    (¬ Says.idleMode s → s.glb.mode ≠ .starting → s.dur.drain ≠ 0 → Says.ends .inputLoss s (Says.inputGone s))) ∧
  (∀ (mv : BitVec 16) (s : State),
    (¬ Says.idleMode s → s.on F.DOME_CTL_LEGACY_COLLAPSE = false →
      Says.ends (.inputCollapse mv) s (fun t => t.start.collapsed = true ∧ t.start.relPend = false ∧ t.glb.mode = .off)) ∧
    (¬ Says.idleMode s → s.on F.DOME_CTL_LEGACY_COLLAPSE = true → s.dur.drain < 5 →
      Says.leads (fun u => domeAfter (drainDown u)) (.inputCollapse mv) s (fun u => u.dome.legacy = true ∧ u.glb.ingressClosed = true ∧ u.glb.transTo = none)) ∧
    (Says.idleMode s → Says.ends (.inputCollapse mv) s (fun t => t.start.vin = false ∧ (s.glb.mode = .faultHalt → t.glb.mode = .faultHalt)))) ∧
  (∀ (reset : Bool) (s : State), Says.ends (.aonLoss reset) s (fun t =>
    t.start.aonDown = true ∧ t.start.aonLost = true ∧ t.start.relPend = false ∧ t.glb.mode = .off)) ∧
  (∀ (straps : BitVec 8) (s : State), s.start.aonDown = true → s.start.vin = true →
    Says.leads (fun u => domeAfter (seqOn devSeq u)) (.aonReturn straps) s (fun u => u.start.aonDown = false ∧ u.start.source = srcPowerOn ∧
      u.start.wakeId = straps.toNat % 64 ∧ u.get F.GLB_STRAPS_SHELF_ID = straps.toNat % 64)) ∧
  (∀ s : State, s.glb.perst = false → let p := Says.perstOn s
    (s.glb.mode = .off → exec .perstAssert s = .next (domeAfter p)) ∧
    (s.glb.mode = .standby → exec .perstAssert s = .next (domeAfter (seqOn devSeq p))) ∧
    (s.glb.mode = .faultHalt → s.start.source = srcRestart → exec .perstAssert s = .next (domeAfter (seqOn devSeq p))) ∧
    (s.glb.mode = .faultHalt → s.start.source ≠ srcRestart → exec .perstAssert s = .next (domeAfter p)) ∧
    (s.glb.mode = .starting →
      exec .perstAssert s = .next (domeAfter (seqAll linkDown [0, 1] (p.modStart (fun x => { x with source := srcPerstStart }))))) ∧
    (¬ Says.idleMode s → s.glb.mode ≠ .starting → s.glb.transTo.isSome = true →
      exec .perstAssert s = .next (domeAfter (p.modGlb (fun g => { g with perstHeld := true })))) ∧
    (¬ Says.idleMode s → s.glb.mode ≠ .starting → s.glb.transTo = none → p.awaitsPme = true →
      exec .perstAssert s = .next (domeAfter (standbyEnter srcPerstCold p))) ∧
    (¬ Says.idleMode s → s.glb.mode ≠ .starting → s.glb.transTo = none → p.awaitsPme = false → s.on F.GLB_RESET_CTL_PERST_COLD = true →
      exec .perstAssert s = .next (domeAfter (pendGo (modeTarget tStandby 1 (p.modGlb (fun g => { g with perstPme := true })))))) ∧
    (¬ Says.idleMode s → s.glb.mode ≠ .starting → s.glb.transTo = none → p.awaitsPme = false → s.on F.GLB_RESET_CTL_PERST_COLD = false →
      Says.leads domeAfter .perstAssert s (fun u => u.start.warm = true ∧ u.start.memActive = false ∧ u.stage = stageWarm ∧
        u.on F.GLB_START_STATUS_WARM = true ∧ u.get F.GLB_RESET_STATUS_SOURCE = srcPerstWarm))) ∧
  (∀ (straps : BitVec 8) (us : BitVec 16) (fail : Bool) (s : State), s.glb.perst = true →
    let p (b : Bool) := Says.perstOff straps.toNat us.toNat fail b s
    (s.glb.mode = .off → s.poweredUp = true → s.start.vin = true →
      exec (.perstRelease straps us fail) s = .next (domeAfter (perstStart straps.toNat us.toNat fail (p true)))) ∧
    (s.glb.mode = .standby → s.poweredUp = true →
      exec (.perstRelease straps us fail) s = .next (domeAfter (perstStart straps.toNat us.toNat fail (p true)))) ∧
    (s.glb.mode = .faultHalt → s.poweredUp = true → s.start.source = srcRestart →
      exec (.perstRelease straps us fail) s = .next (domeAfter (perstStart straps.toNat us.toNat fail (p true)))) ∧
    (s.glb.mode = .starting → exec (.perstRelease straps us fail) s = .next (domeAfter (perstStart straps.toNat us.toNat fail (p true)))) ∧
    (s.poweredUp = false → s.glb.mode = .off ∨ s.glb.mode = .standby → exec (.perstRelease straps us fail) s = .next (domeAfter (p true))) ∧
    (¬ Says.idleMode s → s.glb.mode ≠ .starting → s.start.warm = true → s.glb.perstHeld = false →
      exec (.perstRelease straps us fail) s = .next (domeAfter ((p true).modStart (fun y => { y with relPend := false, relAt := s.now }))))) ∧
  (∀ (straps us : Nat) (fail : Bool) (s : State), ∃ u, perstStart straps us fail s = pdSettle u ∧ u.glb.mode = .starting ∧
    u.stage = (if fail then stageHaltWipe else stageImage) ∧ u.start.relPend = false ∧ u.start.aonLost = false ∧ u.glb.perstHeld = false) ∧
  (∀ (unread : BitVec 4) (x0 x1 : Option Image) (ms : BitVec 16) (s : State), s.glb.mode = .starting → s.stage = stageImage → s.glb.perst = false →
    let r := Says.bootSearch unread.toNat x0 x1 s
    (∀ src un i, r.1.found = some (src, un, i) →
      exec (.imageLoaded unread x0 x1 ms) s = .next (domeAfter (imageApply src ms.toNat un i r.2)) ∧
      ∃ u, imageApply src ms.toNat un i r.2 = pdSettle (lanesShow u) ∧ u.stage = stageTrain) ∧
    (r.1.found = none → exec (.imageLoaded unread x0 x1 ms) s = .next (domeAfter (setStage stageMailbox r.2)))) ∧
  (∀ s : State, ¬ Says.idleMode s → Says.ends .rootSramUe s (fun t => t.glb.mode = .faultHalt ∧ t.get F.GLB_MODE_STATUS_CURRENT = 4)) ∧
  (∀ (pd : Fin 80) (katOk : Bool) (s : State), s.pd pd.val = .ramp →
    Says.leads (fun u => domeAfter (pdSettle u)) (.domainRampDone pd katOk) s (fun u => u.pd pd.val = .on ∧
      (32 ≤ pd.val → pd.val < 40 → katOk = false → u.dome.laneBad.testBit (pd.val - 32) = true ∧ u.on F.CIPH_ERR_STATUS_KAT_FAIL = true)))

/-- The DRS or the Cmp that answers. -/
def Says.drs (r : HReq) (d : Line) (s : State) : Out := .drs r.port r.ld r.tag d false (s.devLoad r.port r.ld 0)

/-- The state in which an admitted request begins its lookup. -/
def Says.admitted (r : HReq) (s : State) : State :=
  takeCredit r.ld r.dir 64 (credTake r.port r.cls (Says.counted r s))

/-- Nothing regulates the request away (R270, R271). -/
def Says.admits (r : HReq) (s : State) : Prop :=
  let v := credTake r.port r.cls (Says.counted r s)
  v.ingressMay r = true ∧ v.host.ingress.any (fun x => x.ld == r.ld) = false

/-- R25, R28, R33, R35, R40, R48, R64, R65, R70, R73, R78: host requests, mailbox, translation, coalescing.
Where it rests on a choice of the model, that is: notes/assumptions/15.md, notes/assumptions/22.md, notes/assumptions/25.md, notes/assumptions/27.md, notes/assumptions/28.md, notes/assumptions/30.md, notes/assumptions/39.md. -/
def Obligations.RequestsMailboxAndTranslationRowsComplete : Prop :=
  (∀ (port : Fin 2) (ld : Fin 16) (tag : BitVec 16) (dpa : BitVec 52) (s : State), let r := Says.rdReq port ld tag dpa
    let w := credBack r.port credReq (Says.admitted r s)
    let k : Look := ⟨.host r, r.ld, r.dpa, none, 0⟩
    Says.open r s → Says.serves r s → Says.admits r s → w.mustWait r = false → w.backed r.ld r.dpa = true →
    exec (.memRead port ld tag dpa) s = .next (regStatus (settle (foundAll (lookStart k w)))) ∧
    (∀ x, lookStart k w = ([], x) → exec (.memRead port ld tag dpa) s = .next (regStatus (settle x))) ∧
    (∀ (f : Found) (x : State), f.look.user = .host r → f.bad = false → lookStart k w = ([f], x) → foType f.fo ≠ 3 → kidRead r f.fo x = none →
      x.onPoisonList r.ld r.dpa = false →
      (∀ l, x.cline r.ld r.dpa = some l → l.full = true → l.poison = false → exec (.memRead port ld tag dpa) s =
        .next (regStatus (settle (readNs r (360 + 110 * f.look.misses) (respond (Says.drs r l.data x) x))))) ∧
      (x.cline r.ld r.dpa = none → x.below r.ld r.dpa f.fo f.fr = .zeros → exec (.memRead port ld tag dpa) s =
        .next (regStatus (settle (readNs r (280 + 110 * f.look.misses) (respond (Says.drs r 0 x) x))))) ∧
      (∀ p, x.cline r.ld r.dpa = none → x.below r.ld r.dpa f.fo f.fr = .media p → exec (.memRead port ld tag dpa) s =
        .next (regStatus (settle (mediaRead r p (foKid f.fo) (frLpois f.fr) 0 0 f.look.misses x)))))) ∧
  (∀ (port : Fin 2) (ld : Fin 16) (tag : BitVec 16) (dpa : BitVec 52) (mask : BitVec 64) (data : Line) (poison : Bool) (s : State),
    let r := Says.wrReq port ld tag dpa mask data poison
    let w := Says.admitted r s
    let k : Look := ⟨.host r, r.ld, r.dpa, none, 0⟩
    Says.open r s → Says.serves r s → Says.admits r s → w.mustWait r = false → w.backed r.ld r.dpa = true →
    exec (.memWrite port ld tag dpa mask data poison) s = .next (regStatus (settle (foundAll (lookStart k w)))) ∧
    (∀ (f : Found) (x : State), f.look.user = .host r → f.bad = false → lookStart k w = ([f], x) → writeRefused r x = none → x.canAccept r.ld r.dpa = true →
      exec (.memWrite port ld tag dpa mask data poison) s = .next (regStatus (settle (sendCmp r (credBack r.port credRwd
        (when poison (setErr F.HOST_ERR_STATUS_POISON_RX intHost) (acceptLine r.ld r.dpa r.mask data poison (raCancel r.ld r.dpa x)))))))) ∧
    (∀ (f : Found) (x : State), f.look.user = .host r → f.bad = false → lookStart k w = ([f], x) → writeRefused r x = none → x.canAccept r.ld r.dpa = false →
      x.lineFree = 0 → exec (.memWrite port ld tag dpa mask data poison) s =
        .next (regStatus (settle (x.modHost (fun h => { h with writeQ := h.writeQ ++ [r] })))))) ∧
  (∀ (port : Fin 2) (s : State), (s.port port.val).gpf = true → (s.port port.val).gpf2 = false →
    let u := modPort port.val (fun q => { q with gpf2 := true }) s
    (s.glb.transTo ≠ some .parked → exec (.gpfPhase2 port) s = .next (syncDrain (.gpf port.val) u)) ∧
    (s.glb.transTo = some .parked → (∀ f ∈ s.dur.forces, f.what ≠ .mode) → exec (.gpfPhase2 port) s = .next (forceDone (.gpf port.val) u)) ∧
    (∀ f, s.glb.transTo = some .parked → s.dur.forces.find? (fun f => decide (f.what = .mode)) = some f →
      exec (.gpfPhase2 port) s = .next (u.modDur (fun d => { d with forces := d.forces ++ [⟨f.jseq, .gpf port.val⟩] })))) ∧
  (∀ (port : Fin 2) (secured : Bool) (i : Nat) (s : State), (s.port port.val).up = true →
    Says.ends (.doeRequest port (.spdm secured)) s (fun t => ∃ n, t.outs = .doe port.val (if secured then 2 else 1) [n, Config.certChain] :: s.outs) ∧
    (5 ≤ i → exec (.doeRequest port (.discovery i)) s = .next (emit (.doe port.val 0 []) s))) ∧
  (∀ (view : Fin 17) (s : State), Says.mboxRuns view.val 0x0002 s → (s.ld view.val).bg = none → (s.ld view.val).lastBg = none →
    exec (.backgroundOperationStatus view) s = Says.answer view.val 0x0002 rcOk [0, 0, 0, 0] s) ∧
  (∀ (view : Fin 17) (log n : BitVec 8) (s : State), Says.mboxRuns view.val 0x0101 s → log.toNat ≤ 4 →
    let old := tgetD [] (s.ld view.val).logs log.toNat
    (n.toNat < old.length → exec (.clearEventRecords view log false n) s = Says.answer view.val 0x0101 rcOk []
      (modLd view.val (fun l => { l with logs := tput [] l.logs log.toNat (old.drop n.toNat), drops := l.drops }) s)) ∧
    (n.toNat = old.length → exec (.clearEventRecords view log false n) s = Says.answer view.val 0x0101 rcOk []
      (modLd view.val (fun l => { l with logs := tput [] l.logs log.toNat [], drops := terase l.drops log.toNat }) s))) ∧
  (∀ (view : Fin 17) (s : State), Says.mboxRuns view.val 0x0401 s →
    ∃ v, exec (.getLog view 1#8) s = Says.answer view.val 0x0401 rcOk [v] (takeNat s).2) ∧
  (∀ (view : Fin 17) (slot : BitVec 8) (i : Image) (s : State), s.stage = stageMailbox →
    (Says.mboxRuns view.val 0x0201 s → s.img.act = none → s.img.reload = none → slot.toNat = 2 →
      exec (.transferFw view slot i) s = .next (after (mboxDone view.val 0x0201 rcOk [] (s.modImg (fun x => { x with stage := some i }))))) ∧
    (Says.mboxRuns view.val 0x0202 s → slot.toNat = 2 →
      exec (.activateFwOnline view slot) s = .next (domeAfter (activateWait ⟨view.val, 0x0202, [0, slot.toNat], none⟩ s)) ∧
      exec (.activateFwNextReset view slot) s = Says.answer view.val 0x0202 rcSlot [] s)) ∧
  (∀ (view : Fin 17) (s : State), Says.mboxRuns view.val 0x4202 s →
    let u := modLd view.val (fun l => { l with lifeWarn := none, tempWarn := none, lifeHit := false, tempHit := false }) s
    exec (.setAlertConfiguration view none none) s =
      Says.answer view.val 0x4202 rcOk [] (lifeAlert u.lifeUsed view.val (tempAlert u.dome.tj view.val u))) ∧
  (∀ (view : Fin 17) (dpa : BitVec 64) (data : Line) (s : State), let a := dpa.toNat / 64 * 64
    (Says.mboxRuns view.val 0x4301 s → (s.lcs.state = lcManufacture ∨ s.lcs.state = lcDevelop ∨ s.lcs.state = lcService) →
      s.backed view.val a = false → exec (.injectPoison view dpa) s = Says.answer view.val 0x4301 rcAddress [] s) ∧
    (Says.mboxRuns view.val 0x4302 s → s.backed view.val a = false → exec (.clearPoison view dpa data) s = Says.answer view.val 0x4302 rcAddress [] s) ∧
    (Says.mboxRuns view.val 0x4302 s → s.backed view.val a = true → s.canAccept view.val a = false →
      exec (.clearPoison view dpa data) s = Says.answer view.val 0x4302 rcOk []
        (poisonRebuild view.val (refreshPoisonAny view.val (folioOf a) (poisonRemove view.val a s))))) ∧
  (∀ (view : Fin 17) (op : Nat) (c : Instr) (s : State), ((op = 0x4400 ∧ c = .sanitize view) ∨ (op = 0x4401 ∧ c = .secureErase view)) →
    Says.mboxRuns view.val op s → (s.ld view.val).bg = none → view.val = mgmtView → exec c s = .next (after (bgEnd view.val rcOk
      (modLd view.val (fun l => { l with bg := some ⟨op, 0, 0⟩ }) (mboxDone view.val op rcBackground [] s))))) ∧
  (∀ (view : Fin 17) (es acc : List (Nat × Nat)) (s : State), Says.mboxRuns view.val 0x4802 s →
    extAdd (s.ld view.val).dcRegion es (s.ld view.val).extents = some acc → s.usedBlocks + extBlocks es ≤ s.userBlocks →
    exec (.addDynamicCapacityResponse view es) s =
      Says.answer view.val 0x4802 rcOk [] (dcEvent view.val 4 (ldStatus view.val (ldCfg view.val (modLd view.val (fun l => { l with extents := acc }) s))))) ∧
  (∀ (view : Fin 17) (es : List (Nat × Nat)) (s : State), Says.mboxRuns view.val 0x4802 s →
    extAdd (s.ld view.val).dcRegion es (s.ld view.val).extents = none →
    exec (.addDynamicCapacityResponse view es) s = Says.answer view.val 0x4802 rcInvalidInput [] s) ∧
  (∀ s : State, s.host.moveTo ≠ [] → s.xlat.misses = [] → s.xlat.stalled = [] → s.host.movingCmd = true → exec .arrayMoveDone s =
    .next (after (mboxDone mgmtView 0x5402 rcOk []
      (allocApply s.host.moveTo (s.modHost (fun h => { h with moving := [], moveTo := [], movingCmd := false })))))) ∧
  (∀ s : State, s.xlat.misses ≠ [] ∨ s.xlat.stalled ≠ [] → exec .arrayMoveDone s = .next (after s)) ∧
  (∀ (bank : Fin 64) (sector : Fin 8) (out : WmOut) (ctr : Option CtrFail) (m : Miss) (s : State), tget s.xlat.misses bank.val = some m →
    m.wait = false → ∃ lost u, exec (.mapFillReturn bank sector out ctr) s = .next (after (foundAll (fillReturn bank.val m lost u))) ∧
      (lost ≠ 0 → ∃ w, let x := setErr F.XLAT_ERR_STATUS_MAP_UE intXlat w
        u = (match m.users with | k :: _ => event k.ld logFailure 0xA0 k.dpa x | [] => x))) ∧
  (∀ (way : Fin 65536) (s : State), let m := s.mline way.val
    let u := storeSectors (lineAddr way.val m.tag) m.wbMask m.wbuf s
    m.st = .writeback →
    (m.redirty = false → m.why = .wb → exec (.mapWritebackDone way) s =
      .next (settle (foundAll (lookFree (bankNo (lineAddr way.val m.tag)) (modLine way.val MapLine.written u))))) ∧
    (m.redirty = false → m.why ≠ .wb → exec (.mapWritebackDone way) s =
      .next (settle (foundAll (lookFree (bankNo (lineAddr way.val m.tag)) (missEnter way.val (eraseLine way.val u)))))) ∧
    (m.redirty = true → m.why = .inv → exec (.mapWritebackDone way) s =
      .next (settle (foundAll (lookFree (bankNo (lineAddr way.val m.tag)) (startWb way.val .inv
        (cnt bMAPC 6 1 (modLine way.val (fun m => { m with st := .dirty, redirty := false, wbuf := [], wbMask := 0 }) u)))))))) ∧
  (∀ (m : Master) (v : Word) (s : State), let ld := v.toNat / 2 ^ 52 % 16; let dpa := v.toNat % 2 ^ 52 / 64 * 64
    v.toNat.testBit 63 = true → s.backed ld dpa = true →
    ∃ u, exec (.xlatProbe m v) s = .next (foundAll (lookStart ⟨.probe, ld, dpa, none, 0⟩ u)) ∧ u.xlat.probe = some ⟨ld, dpa, none, false⟩ ∧
      u.get F.XLAT_PROBE_RESULT_DONE = 0 ∧ u.xlat.lines = s.xlat.lines ∧ (∀ p ∈ u.xlat.misses, ∀ k ∈ p.2.users, (k.user == .probe) = false)) ∧
  (∀ (r : Nat × Nat) (l : List (Nat × Nat)) (bad0 bad1 : List Nat) (s : State), s.xlat.rebuilding = r :: l →
    exec (.sectorRebuildDone bad0 bad1) s = .next (after (settle (seqAll (sectorBuild bad0 bad1) ((List.range r.2).map (· + r.1))
      (s.modXlat (fun x => { x with rebuilding := l })))))) ∧
  (∀ (a b : List Gather) (g : Gather) (s : State), s.coal.gathers = a ++ g :: b → (∀ x ∈ a, x.closed = true) → g.closed = false →
    exec .gatherTimeout s = .next (cnt bCOAL 3 1 (s.modCoal (fun c => { c with gathers := a ++ g.close :: b })))) ∧
  (∀ (g : Gather) (s : State), s.dur.drain = 0 → s.mergeable [] s.coal.gathers = some g → s.mergeHow g = .poisoned →
    exec .gatherMerge s = .next (settle (coalStatus (stageGather g s.newFrameTok [] allPoison s)))) ∧
  (∀ (tok : Fin 65536) (g : Gather) (leaves : List LeafRes) (s : State), s.coal.gathers.find? (fun g => g.merging == some tok.val) = some g →
    let e := s.folio g.ld g.folio; let fe := s.frameOfFolio e g.frame; let g1 : Gather := { g with merging := none }
    let s0 := s.modCoal (fun c => { c with gathers := c.gathers.map (fun x => if x = g then g1 else x) })
    (foType e = 2 ∨ s.tableForWrite = true) →
    (frState fe = 1 → s.unitHow (frLoc fe) true ≠ .wait → ∃ img mask u, exec (.mergeMediaReadDone tok leaves) s =
      .next (settle (coalStatus (stageGather g1 tok.val img mask u)))) ∧
    (frState fe = 3 → exec (.mergeMediaReadDone tok leaves) s = .next (settle (coalStatus (stageGather g1 tok.val [] allPoison s0)))) ∧
    (frState fe ≠ 1 → frState fe ≠ 3 → exec (.mergeMediaReadDone tok leaves) s = .next (settle (coalStatus (stageGather g1 tok.val [] 0 s0))))) ∧
  (∀ (s : State), (∃ e ∈ s.coal.frames, e.2.st = .staged ∧ e.2.placed = none ∧ e.2.free = false) →
    ∃ e ∈ s.coal.frames, e.2.st = .staged ∧ e.2.placed = none ∧ e.2.free = false ∧
      (∀ x ∈ s.coal.frames, x.2.st = .staged → x.2.placed = none → x.2.free = false → e.2.order ≤ x.2.order) ∧
      exec .runHoldExpiry s = .next (putFrame e.1 { e.2 with free := true } s))

/-- The leaves of one read go, each once, to the reads that wanted them. -/
def Says.leavesIn (pfa mask : Nat) (outs : List (Nat × LeafOut)) (qs : List RdReq) (s : State) : State :=
  seqAll (fun j t =>
    if mask.testBit j then
      let mine := qs.filter (fun q => q.needs.contains j)
      leafArrived pfa j (outOf outs j) (mine.foldl (fun a q => min a q.step) (if mine = [] then 0 else 3))
        (mine.any (fun q => q.src != .ahead)) (mine.any (fun q => q.src == .ahead)) t
    else t) (List.range 65) s

/-- A command of the die timed out: it is reported, its reads and work are dropped and the die is reset. -/
def Says.timedOut (c d op : Nat) (s : State) : State :=
  modDie (dieNo c d) (fun _ => { DieSt.reset with op := .resetDie })
    (abortDie c d (emit (.fabric c d op 2) (setErr (F.MCH_ERR_STATUS_TIMEOUT c) intMch s)))

/-- The field's erase as its die ended it. -/
def Says.fieldAfterErase (c : Nat) (mode1 bad : Bool) (f : Nat) (s : State) : State :=
  if bad then fieldBad f causeErase (setErr F.FLD_ERR_STATUS_ERASE_FAIL intFld (setErr (F.MCH_ERR_STATUS_ERASE_FAIL c) intMch s))
  else fieldTo f (fun r => { r with ec := r.ec + 1, erasePend := false, mode1 := mode1, rows := 0 })
    (cnt bFLD 3 1 (drecClear (fieldSet f) (fieldErased f s)))

/-- R82, R87, R88, R95, R101, R102, R105, R106, R306, R307: ends of fabric commands and reloads.
Where it rests on a choice of the model, that is: notes/assumptions/29.md, notes/assumptions/30.md, notes/assumptions/33.md, notes/assumptions/50.md. -/
def Obligations.EveryFabricEndAndReloadRowCompletes : Prop :=
  (∀ (c : Fin 32) (d : Fin 8) (mode1 : Bool) (rows : List PlaneRow) (s : State),
    let pfas := rows.map (fun r => mkPfa c.val d.val r.plane.val r.field.val 0)
    rows ≠ [] → onePerPlane rows = true → s.mayErase c.val d.val s.drainingPlates = true → s.sealedWaits (groupOf c.val d.val) = false →
    s.programWaits c.val d.val = false →
    (∀ p ∈ pfas, s.eraseWaits p = true ∧ mode1 = s.setMode1 (setOf p) ∧ pfaField p = lowField pfas) →
    (∀ k < 4, s.eraseWaits (mkPfa c.val d.val k (lowField pfas) 0) = true → ∃ p ∈ pfas, pfaPlane p = k) →
    Says.ends (.fabErase c d mode1 rows) s (fun t => (t.die (dieNo c.val d.val)).op = .erase mode1 (pfas.map pfaFieldNo))) ∧
  (∀ (plane : Fin 1024) (pfa mask : Nat) (offs : List Int) (l : Bool) (outs : List (Nat × LeafOut)) (ns : Nat) (s : State),
    tget s.med.planes plane.val = some (.read pfa mask offs l) →
    let qs := s.med.reads.filter (fun q => s.wants q pfa mask offs)
    exec (.readComplete plane outs ns) s = .next (settle (seqAll (fun q t => readGot q outs ns t) qs
      ((Says.leavesIn pfa mask outs qs ((emit (.fabric (plane.val / 32) (plane.val / 4 % 8) (if l then 2 else 1) 0) s).modMed (fun m =>
        { m with planes := terase m.planes plane.val, latches := tset m.latches plane.val (pfa, offs) }))).modMed (fun m =>
        { m with cancelled := m.cancelled.filter (fun p => !(p.1 == pfa && mask.testBit p.2)) }))))) ∧
  (∀ (plane : Fin 1024) (e14 e15 : Fin 577) (pfa level : Nat) (sweep : Int) (s : State), tget s.med.planes plane.val = some (.star pfa level sweep) →
    let u := (emit (.fabric (plane.val / 32) (plane.val / 4 % 8) 3 0) s).modMed (fun m => { m with planes := terase m.planes plane.val })
    (s.measAt pfa = none → exec (.readStarComplete plane false e14 e15) s = .next u) ∧
    (∀ m, s.measAt pfa = some m → ¬ (level = 15 ∧ sweep = s.measSweep m) →
      exec (.readStarComplete plane false e14 e15) s = .next (measShift (·.set == m.set) u)) ∧
    (∀ m, s.measAt pfa = some m → level = 15 → sweep = s.measSweep m → exec (.readStarComplete plane false e14 e15) s =
      .next (measShift (·.set == m.set) (measProbe m (min e14.val (starCells 0 14)) (min e15.val (starCells 0 15)) u))) ∧
    (∀ m, s.measAt pfa = some m → exec (.readStarComplete plane true e14 e15) s = .next (measShift (·.set == m.set)
      (measReject m (s.modMed (fun m => { m with planes := terase m.planes plane.val })))))) ∧
  (∀ (id ns : Nat) (ok : Bool) (r : Rebuild) (s : State), s.med.rebuilds.find? (fun r => r.id == id) = some r →
    (r.failed = true ∨ (r.left = [] ∧ ok = false) → let u := setErr (F.MCH_ERR_STATUS_REBUILD_FAIL (pfaCh r.pfa)) intMch (s.modMed (fun m =>
        { m with rebuilds := m.rebuilds.map (fun x => if x.id = id then { x with failed := true, left := [] } else x)
                 reads := m.reads.filter (fun q => match q.src with | .rebuild i _ => i != id | _ => true) }))
      exec (.rebuildComplete id ok ns) s = .next (settle (keepRebuilds (seqAll (rebuildFailed id) u.med.reads u)))) ∧
    (r.failed = false → r.left = [] → ok = true → let u := bufferLeaves r.pfa [r.leaf] false (s.modMed (fun m =>
        { m with rebuilds := m.rebuilds.map (fun x => if x.id = id then { x with done := true } else x) }))
      exec (.rebuildComplete id ok ns) s = .next (settle (keepRebuilds (seqAll (fun (q : RdReq) t =>
        if (q.rb = some id ∨ q.hrb = some id) ∧ (q.mode = .rebuild ∨ q.step = 4) then takeRebuilt q ns t else t) u.med.reads u))))) ∧
  (∀ (c : Fin 32) (d : Fin 8) (fails : List (Fin 4)) (m1 : Bool) (rs : List (Nat × MRow)) (s : State), s.dieSuspended c.val d.val = false →
    (s.die (dieNo c.val d.val)).op = .program m1 rs →
    exec (.programComplete c d fails) s = .next (after (settle (programEnd c.val d.val (fails.map (·.val))
      (emit (.fabric c.val d.val 4 (if fails = [] then 0 else 3)) s))))) ∧
  (∀ (c d : Nat) (fails : List Nat) (m1 : Bool) (rs : List (Nat × MRow)) (s : State), (s.die (dieNo c d)).op = .program m1 rs →
    programEnd c d fails s = seqAll (fun x t => if fails.contains (pfaPlane x.1) then rowFail x.1 x.2 t else t) rs
      (seqAll (fun x t => if fails.contains (pfaPlane x.1) then t else rowDone x.1 x.2 t) rs (cnt (bMCH c) (if m1 then 5 else 4) 1 (dieIdle c d s)))) ∧
  (∀ (c : Fin 32) (d : Fin 8) (fails : List (Fin 4)) (m1 : Bool) (fs : List Nat) (s : State), s.dieSuspended c.val d.val = false →
    (s.die (dieNo c.val d.val)).op = .erase m1 fs →
    let u := seqAll (fun f t => Says.fieldAfterErase c.val m1 ((fails.map (·.val)).contains (pfaPlane (f * 8192))) f t) fs
      (cnt (bMCH c.val) 6 1 (dieIdle c.val d.val (emit (.fabric c.val d.val 5 (if fails = [] then 0 else 4)) s)))
    exec (.eraseComplete c d fails) s = .next (fldRecount (seqAll eraseSetCheck ((fs.map fieldSet).eraseDups) (setF F.DRIFT_RWQ_DEPTH u.drift.rwq.length u)))) ∧
  (∀ (c : Fin 32) (d : Fin 8) (s : State),
    ((s.die (dieNo c.val d.val)).op = .ident → exec (.dieCmdDone c d 0 false) s = .next (after (modDie (dieNo c.val d.val)
      (fun _ => { DieSt.reset with op := .resetDie }) (emit (.fabric c.val d.val 8 2) (setErr (F.MCH_ERR_STATUS_TIMEOUT c.val) intMch
        (modDie (dieNo c.val d.val) (fun _ => DieSt.reset) s)))))) ∧
    ((s.die (dieNo c.val d.val)).op = .resetDie → ∀ ok, exec (.dieCmdDone c d 1 ok) s =
      .next (after (emit (.fabric c.val d.val 9 0) (modDie (dieNo c.val d.val) (fun _ => DieSt.reset) s)))) ∧
    (∀ step, tget s.med.training c.val = some step → exec (.dieCmdDone c d 2 true) s = .next (after (emit (.fabric c.val d.val 10 0)
      (stepPassed c.val step none (s.modMed (fun m => { m with training := terase m.training c.val }))))))) ∧
  (∀ (c : Fin 32) (d : Fin 8) (ns : Nat) (s : State),
    (∀ (p : Fin 4) (pfa mask : Nat) (offs : List Int) (l : Bool), tget s.med.planes (planeNo c.val d.val p.val) = some (.read pfa mask offs l) →
      exec (.fabricTimeout c d (some p) ns) s = .next (after (settle (Says.timedOut c.val d.val (if l then 2 else 1)
        (readComplete (planeNo c.val d.val p.val) allUncorrectable ns s))))) ∧
    (∀ (p : Fin 4) (pfa level : Nat) (sweep : Int), tget s.med.planes (planeNo c.val d.val p.val) = some (.star pfa level sweep) →
      exec (.fabricTimeout c d (some p) ns) s = .next (after (settle (Says.timedOut c.val d.val 3 (starComplete (planeNo c.val d.val p.val) 2 0 0 s))))) ∧
    (s.dieSuspended c.val d.val = false →
      (∀ m1 rs, (s.die (dieNo c.val d.val)).op = .program m1 rs →
        exec (.fabricTimeout c d none ns) s = .next (after (settle (Says.timedOut c.val d.val 4 (programEnd c.val d.val [0, 1, 2, 3] s))))) ∧
      (∀ m1 fs, (s.die (dieNo c.val d.val)).op = .erase m1 fs →
        exec (.fabricTimeout c d none ns) s = .next (after (settle (Says.timedOut c.val d.val 5 (eraseDone c.val d.val [0, 1, 2, 3] s))))))) ∧
  (∀ (c : Fin 32) (d : Fin 8) (s : State), 2 ≤ s.get (F.MCH_STATUS_STATE c.val) → s.get (F.MCH_STATUS_STATE c.val) < 8 →
    s.on (F.MCH_DIE_STATUS_FAILED c.val d.val) = false → exec (.dieLost c d) s = .next (after (settle (capRecompute
      (dieOutNow c.val d.val (setErr (F.MCH_ERR_STATUS_DIE_LOST c.val) intMch s)))))) ∧
  (∀ (c : Fin 32) (present pass : BitVec 8) (s : State), s.get (F.MCH_STATUS_STATE c.val) = 1 →
    let good (d : Nat) : Bool := present.toNat.testBit d && pass.toNat.testBit d && !s.on (F.MCH_DIE_STATUS_FAILED c.val d)
    let ok := (List.range 8).foldl (fun a d => if good d then a + 2 ^ d else a) 0
    ∃ u, exec (.trainingDone c present pass) s = .next (after (settle (capRecompute (sweepStart (fun x => ok != 0 && (chanGroups c.val).contains (setGroup x))
        (seqAll (fun d t => if good d then t else dieFieldsBad c.val d t) (List.range 8)
          (seqAll (fun d t => modPhy c.val d (if good d then 62 else 0) t) (List.range 8) u)))))) ∧
      u.get (F.MCH_STATUS_DIE_OK c.val) = ok ∧ u.get (F.MCH_STATUS_STATE c.val) = (if ok = 0 then 8 else 2) ∧ tget u.med.training c.val = none) ∧
  (∀ (c : Fin 32) (s : State), s.get (F.MCH_STATUS_STATE c.val) = chOnline → s.glb.mode = .quiet → (∀ e ∈ s.med.planes, e.1 / 32 ≠ c.val) →
    (∀ e ∈ s.med.dies, e.1 / 8 = c.val → e.2.op = .none) →
    exec (.channelSleep c) s = .next (chBufferDrop c.val (setF (F.MCH_STATUS_STATE c.val) chSleep s))) ∧
  (∀ (c : Fin 32) (s : State), s.get (F.MCH_STATUS_STATE c.val) = 4 → (∀ e ∈ s.med.planes, e.1 / 32 ≠ c.val) →
    (∀ n ∈ groupDies c.val, ∀ m1 rs, (s.die n).op ≠ .program m1 rs) →
    exec (.quiesceDone c) s = .next (after (orphanReads (fun a => pfaCh a == c.val) (chBufferDrop c.val (setF (F.MCH_STATUS_STATE c.val) 5
      (s.modMed (fun m => { m with quiesced := tset m.quiesced c.val s.now }))))))) ∧
  (∀ (c : Fin 32) (g : ChanSeg) (s : State), s.get (F.MCH_STATUS_STATE c.val) = 5 → s.loadingSeg c.val = some g →
    exec (.segmentLoaded c true) s = .next (after (setF (F.MCH_STATUS_STATE c.val) 6
      (seqAll (fun d t => modPhy c.val d 0 t) (List.range 8) (applySeg c.val g s))))) ∧
  (∀ (c : Fin 32) (s : State),
    (s.get (F.MCH_STATUS_STATE c.val) = 5 → exec (.segmentLoaded c false) s = .next (after (reloadFail c.val s))) ∧
    (s.get (F.MCH_STATUS_STATE c.val) = 6 → exec (.retrainDone c false) s = .next (after (reloadFail c.val s))) ∧
    (s.get (F.MCH_STATUS_STATE c.val) = 7 → exec (.checkDone c false) s = .next (after (reloadFail c.val s))) ∧
    (s.get (F.MCH_STATUS_STATE c.val) = 7 → ∃ u, exec (.checkDone c true) s =
        .next (after (settle (capRecompute (reloadEnd (if s.on (F.MCH_STATUS_ROLLBACK c.val) then 2 else 1) u)))) ∧
      u.get (F.MCH_STATUS_STATE c.val) = chOnline ∧ u.get (F.MCH_RECONF_BUSY c.val) = 0 ∧
      u.get (F.MCH_RECONF_RESULT c.val) = (if s.on (F.MCH_STATUS_ROLLBACK c.val) then 2 else 1))) ∧
  (∀ (s : State), s.dome.flip = true → s.seqsBusy = false → let u := s.modDome (fun d => { d with bank := 1 - d.bank, flip := false })
    exec .domeBankFlip s = .next (after (if s.img.reload.any (fun r => r.unit == 3) then reloadEnd 1 u else u))) ∧
  (∀ (s : State), (if s.standbyCore = 0 then s.img.asstA else s.img.asstB).isSome = true → let u := setF F.IMG_ASSIST_STANDBY_READY 1 s
    exec .standbyReady s = .next (after (if s.img.reload.any (fun r => r.unit == 4) then reloadEnd 1 u else u))) ∧
  (∀ (s : State), s.on F.IMG_ASSIST_STANDBY_READY = false → let u := asstLoad s.standbyCore none s
    exec .assistReadyTimeout s = .next (after (if s.img.reload.any (fun r => r.unit == 4) then reloadEnd 3 u else u))) ∧
  (∀ (c src : Nat) (i : Image) (g : ChanSeg) (s : State), s.reloadImage src = some i → i.segOf c = some g → s.glb.transTo = none →
    s.dome.huOk = true → s.get (F.MCH_STATUS_STATE c) ≠ 0 → s.get (F.MCH_STATUS_STATE c) ≠ 1 →
    chanReload c src s = quiesceStart c g (reloadBegin 1 c src s)) ∧
  (∀ (src : Nat) (i : Image) (s : State), s.reloadImage src = some i → s.glb.transTo = none →
    (i.reg.any s.recLocked = false → let u := regApply i.reg i.regForce (reloadBegin 2 0 src s)
      regReload src s = if u.get F.REG_ADMIT_STATUS = 1 then reloadEnd 1 (u.modImg (fun x => { x with reg := some i.reg }))
        else reloadRefuse 6 (reloadEnd 4 u)) ∧
    (i.domeRegs.any s.recLocked = false →
      domeReload src s = (domePut i.dome i.domeRegs (reloadBegin 3 0 src s)).modImg (fun x => { x with dome := some i.dome })) ∧
    asstReload src s = asstLoad s.standbyCore (some (i.asst s.standbyCore)) (setF F.IMG_ASSIST_STANDBY_READY 0 (reloadBegin 4 0 src s))) ∧
  (∀ (m : Master) (v : BitVec 32) (s : State), let n := v.toNat / 2 ^ 24 % 16
    v.toNat.testBit 31 = true → s.on F.IMG_RELOAD_STATUS_BUSY = false → n = 0 ∨ 5 < n →
    exec (.reloadUnitInvalid m v) s = .next (after (storeAt 0x380020 (putBits 24 4 n v.toNat) s)))

/-- A mover takes job `job` up with the state after any yield: a yielded job goes on, otherwise `pick` gives the set and what it shows. -/
def Says.jobTaken (c : Instr) (m : Fin 4) (g : Fin 32) (job : Nat) (leaves : List SlotLeaf) (pick : State → Option (Nat × State)) (s : State) : Prop :=
  ∀ u, (s.mover m.val).job ≠ job → s.jobNext job = true → moverTake m.val job s = some u →
    (∀ v, u.fld.paused.find? (fun v => v.job == job) = some v →
      exec c s = .next (copyBatch m.val g.val leaves (moverStart m.val v (u.modFld (fun f => { f with paused := f.paused.erase v }))))) ∧
    (∀ set t, u.fld.paused.find? (fun v => v.job == job) = none → pick u = some (set, t) →
      exec c s = .next (copyBatch m.val g.val leaves (takeSet m.val job set t)))

/-- R120, R121, R129, R140, R147, R150, R155, R181, R185: drift, fields, durability.
Where it rests on a choice of the model, that is: notes/assumptions/31.md, notes/assumptions/36.md, notes/assumptions/37.md, notes/assumptions/67.md. -/
def Obligations.EveryDriftFieldAndDurabilityRowCompletes : Prop :=
  (∀ (set : Fin 1048576) (s : State), s.glb.mode = .active → s.dur.drain = 0 → s.isDue set.val = true → s.on F.DRIFT_CTL_FORCE_EN = false →
    s.set4 set.val = true →
    ((∀ m ∈ s.drift.meas, m.set ≠ set.val) → exec (.driftDue set) s = .next (sweepStatus (s.modDrift (fun d =>
      { d with meas := d.meas ++ [⟨set.val, s.measOwn set.val, 6, 0, 0, 15, 576, false⟩] })))) ∧
    ((∃ m ∈ s.drift.meas, m.set = set.val) → exec (.driftDue set) s = .next (s.modDrift (fun d =>
      { d with meas := d.meas.map (fun m => if m.set = set.val then { m with cls := min m.cls 6 } else m) })))) ∧
  (∀ (leaves : List ScrubLeaf) (set : Nat) (wrapped : Bool) (s : State), s.on F.DRIFT_CTL_SCRUB_EN = true → s.glb.mode = .active →
    s.dur.drain = 0 → s.scrubNext = some (set, wrapped) →
    (s.scrubWaits set = true → exec (.scrubVisit leaves) s = .next (measOwnStart set false s)) ∧
    (s.scrubWaits set = false → Says.ends (.scrubVisit leaves) s (fun t =>
      t.get F.DRIFT_SCRUB_POS_SET = (if ∃ x ∈ s.usedSets, set < x then (set + 1) % 2 ^ 20 else 0)))) ∧
  (∀ (m : Master) (v : BitVec 32) (s : State), let u := storeAt 0x300000 v.toNat s
    (u.on F.DRIFT_CTL_FORCE_EN = true → s.on F.DRIFT_CTL_FORCE_EN = false → exec (.driftCtlWrite m v) s =
      .next (logPut sevWarning 0x0703 (u.get F.DRIFT_CTL_FORCE_CLASS) 0 0 0
        (seqAll measServe (u.drift.meas.map (·.set)) (sweepStatus (u.modDrift (fun d => { d with meas := [] })))))) ∧
    ((u.on F.DRIFT_CTL_FORCE_EN = false ∨ s.on F.DRIFT_CTL_FORCE_EN = true) → exec (.driftCtlWrite m v) s = .next u)) ∧
  (∀ (m : Fin 4) (g : Fin 32) (leaves : List SlotLeaf) (s : State),
    Says.jobTaken (.gcJob m g leaves) m g jobGc leaves (fun t => t.gcVictim.map (fun p => (p.1, victimShow p.1 jobGc p.2 t))) s ∧
    Says.jobTaken (.wearJob m g leaves) m g jobWear leaves (fun t => t.wearPick.map (fun x => (x, victimShow x jobWear (t.score x) t))) s ∧
    Says.jobTaken (.relocateJob m g leaves) m g jobRelocate leaves (fun t => t.fld.relocQ.head?.map (fun x =>
      (x, victimShow x jobRelocate (t.score x) (t.modFld (fun f => { f with relocQ := f.relocQ.filter (· != x) }))))) s ∧
    ((s.mover m.val).job = jobGc → s.jobMode jobGc = true → exec (.gcJob m g leaves) s = .next (copyBatch m.val g.val leaves s)) ∧
    ((s.mover m.val).job = jobWear → s.jobMode jobWear = true → exec (.wearJob m g leaves) s = .next (copyBatch m.val g.val leaves s)) ∧
    ((s.mover m.val).job = jobRewrite → s.jobMode jobRewrite = true → exec (.rewriteJob m g leaves) s = .next (copyBatch m.val g.val leaves s)) ∧
    ((s.mover m.val).job = jobRelocate → s.jobMode jobRelocate = true →
      exec (.relocateJob m g leaves) s = .next (copyBatch m.val g.val leaves s))) ∧
  (∀ (m : Fin 4) (g : Fin 32) (leaves : List SlotLeaf) (s w : State), let u := rwqDrop s
    (s.mover m.val).job ≠ jobRewrite → s.on F.FLD_CTL_REWRITE_EN = true → s.jobMode jobRewrite = true → (u.mover m.val).job ≠ jobRewrite →
    u.jobNext jobRewrite = true → moverTake m.val jobRewrite u = some w →
    (∀ v, w.fld.paused.find? (fun v => v.job == jobRewrite) = some v → exec (.rewriteJob m g leaves) s =
      .next (copyBatch m.val g.val leaves (moverStart m.val v (w.modFld (fun f => { f with paused := f.paused.erase v }))))) ∧
    (∀ f, w.fld.paused.find? (fun v => v.job == jobRewrite) = none → w.rewritePick = some f → exec (.rewriteJob m g leaves) s =
      .next (copyBatch m.val g.val leaves (takeSet m.val jobRewrite (fieldSet f) (victimShow (fieldSet f) jobRewrite (w.score (fieldSet f))
        (setF F.DRIFT_RWQ_DEPTH (w.drift.rwq.length - 1) (w.modDrift (fun d => { d with rwq := d.rwq.filter (· != f) })))))))) ∧
  (∀ (m : Fin 4) (leaves : List BadLeaf) (set : Nat) (l : List Nat) (s u : State), s.jobNext jobVerify = true →
    moverTake m.val jobVerify s = some u → s.fld.verifyQ = set :: l → let n := u.setRows set * (u.verifyMembers set).length * 16384
    u.mayGo classMover 0 n = true → (∀ k ∈ u.verifyMembers set, u.unitHow (setPfa set k 2) false = .array) →
    ∃ x, exec (.verifyJob m leaves) s = .next (moverIdle m.val (if x.setBad set then
        fldRecount (relocate set (x.modFld (fun f => { f with verifyQ := f.verifyQ.filter (· != set) }))) else setVerified set x)) ∧
      ∃ y, x = incF (F.FLD_MOV_STATUS_DONE_UNITS m.val) (7 * u.setRows set) (seqAll (verifyLeaf set) (leaves.filter (fun b =>
        (u.verifyMembers set).contains b.member.val && decide (2 ≤ b.row) && decide (b.row < u.setRows set + 2))) y)) ∧
  (∀ (m : Fin 4) (g : Fin 32) (leaves : List SlotLeaf) (ld f : Nat) (s u : State), (s.mover m.val).job ≠ jobSeal → s.jobNext jobSeal = true →
    64 ≤ min (s.get F.FLD_BUF_CFG_MOV_TOKENS) s.frameFree → s.copyMay 64 = true → moverTake m.val jobSeal s = some u →
    u.on F.XLAT_POOL_STATUS_CRIT = true ∨ u.fld.sealQ = [] → u.sealFromList = some (ld, f) →
    let x := u.modXlat (fun x => { x with splits := x.splits.filter (· != (ld, f)) ++ [(ld, f)] })
    (x.sealHow ld f = .skip → exec (.sealJob m g leaves) s = .next (cnt bFLD (3 + jobSeal) 1 (moverSkip m.val 1 x))) ∧
    (x.sealHow ld f = .go → (∀ i < 64, frState (x.frameOfFolio (x.folio ld f) i) = 1 →
        x.moverHow (frLoc (x.frameOfFolio (x.folio ld f) i)) ≠ .wait ∧ x.moverHow (frLoc (x.frameOfFolio (x.folio ld f) i)) ≠ .gone ∧
        x.lostLeaf m.val leaves i = none) →
      exec (.sealJob m g leaves) s = .next (sealCopy m.val (s.placeGroup g.val) ld f none leaves x))) ∧
  (∀ (m : Fin 4) (g : Fin 32) (leaves : List SlotLeaf) (s : State), (s.mover m.val).job = jobSeal → s.coldWaits jobSeal = false →
    s.jobMode jobSeal = true → exec (.sealJob m g leaves) s = .next (retarget (s.placeGroup g.val) m.val s)) ∧
  (∀ (m : Master) (v : BitVec 32) (s : State),
    (v.toNat.testBit 1 = false → v.toNat.testBit 0 = true → exec (.wearStart m v) s = .next (setF F.FLD_WEAR_STATUS_CAMPAIGN 1
      (setF F.FLD_STATUS_WEAR_ACTIVE 1 (s.modFld (fun f => { f with campaignEnd := false }))))) ∧
    (v.toNat.testBit 1 = true → (∀ p ∈ s.fld.movers, p.2.job ≠ jobWear) → (∀ p ∈ s.fld.paused, p.job ≠ jobWear) →
      Says.ends (.wearStop m v) s (fun t => t.get F.FLD_STATUS_WEAR_ACTIVE = 0 ∧ t.get F.FLD_WEAR_STATUS_CAMPAIGN = 0)) ∧
    (v.toNat.testBit 1 = true → ((∃ p ∈ s.fld.movers, p.2.job = jobWear) ∨ ∃ p ∈ s.fld.paused, p.job = jobWear) →
      exec (.wearStop m v) s = .next (s.modFld (fun f => { f with campaignEnd := true })))) ∧
  (∀ (m : Master) (v : BitVec 32) (s : State), let u := storeAt 0x80000 v.toNat s
    u.on F.FLD_CTL_VERIFY_EN = true → exec (.fldCtlWrite m v) s = .next u) ∧
  (∀ (ageUs : Nat) (s : State), s.dur.build ≠ [] ∨ s.dur.rows ≠ [] → exec (.lagMiss ageUs) s =
    .next (logPut sevWarning 0x0501 ageUs 0 0 0 (cnt bDUR 3 1 (incF F.DUR_LAG_CNT_MISSES 1 (setErr F.DUR_ERR_STATUS_LAG_MISS intDur s))))) ∧
  (∀ (level : Bool) (s : State), Says.ends (.huOkChange level) s (fun t => t.get F.DUR_STATUS_HU_OK = level.toNat ∧ t.dome.huOk = level ∧
    (s.on F.DUR_STATUS_HU_OK = true → level = false → s.glb.mode = .active → t.on F.DUR_ERR_STATUS_HU_LOW = true) ∧
    (level = true → t.dur.huRose = true))) ∧
  (∀ (m : Master) (v : BitVec 32) (s : State), v.toNat.testBit 0 = true → s.dur.writing.isSome = true → exec (.ckptGo m v) s = .next s) ∧
  (∀ (s : State), s.on F.DUR_CTL_CKPT_AUTO = true → s.dur.drain = 0 → (s.glb.mode = .active ∨ s.glb.mode = .quiet) →
    s.dur.writing.isSome = true → exec .ckptPeriod s = .next (s.modDur (fun d => { d with ckptDue := true }))) ∧
  (∀ (c : Ckpt) (s : State), s.xlat.rebuilding = [] → s.dur.writing = some c → s.alm.wp = true →
    (c.clean = true ∨ s.mayGo classMover 1 (s.ckptBytes c) = true) →
    ∃ u, exec .ckptComplete s = .next (after (ckptNext (setErr F.DUR_ERR_STATUS_CKPT_FAIL intDur u))) ∧ u.dur.writing = none ∧
      u.dur.ckpts = s.dur.ckpts)

/-- R204, R206, R223, R249, R251, R253, R254, R257, R263: working memory, keys, rings.
Where it rests on a choice of the model, that is: notes/assumptions/6.md, notes/assumptions/39.md, notes/assumptions/40.md, notes/assumptions/48.md. -/
def Obligations.EveryMemoryKeyAndRingRowCompletes : Prop :=
  (∀ (rates : List (Nat × Nat × Bool)) (s : State),
    exec (.mr4Poll rates) s = .next (s.modWm (fun w => { w with refresh := rates.foldl (fun t r => tset t r.1 (r.2.1, r.2.2)) w.refresh }))) ∧
  (∀ (e : MergeEnt) (l : List MergeEnt) (out : WmOut) (ok : Bool) (t s : State), s.wm.merge = e :: l → e.mask ≠ 2 ^ 64 - 1 →
    wmDecode e.line out (s.modWm (fun w => { w with merge := w.merge.filter (fun x => x.line != e.line) })) = (ok, t) →
    let u := wmLineWritten e.line (unmark e.line (cnt bWMEM 4 1 (wmLineRead e.line (incF F.WMEM_MERGE_CNT_RMW 1 (wmStoreBytes e.line e.mask e.bytes t)))))
    exec (.mergeHoldExpire out) s = .next (if ok then u else
      setErr F.WMEM_ERR_STATUS_RMW_UE intWmem (u.modWm (fun w => { w with markers := e.line :: w.markers })))) ∧
  (∀ (out : WmOut) (ok : Bool) (t s : State), s.on F.WMEM_SCRUB_CFG_EN = true → (s.glb.mode = .active ∨ s.glb.mode = .quiet) →
    let line := s.get F.WMEM_SCRUB_POS_LINE
    ((∃ e ∈ s.wm.merge, e.line = line) → exec (.patrolScrub out) s = .next (scrubAdvance s)) ∧
    ((∀ e ∈ s.wm.merge, e.line ≠ line) → wmDecode line out (cnt bWMEM 5 1 (cnt bWMEM 0 1 s)) = (ok, t) →
      exec (.patrolScrub out) s = .next (scrubAdvance (if ok then (if correctedOut (s.wmOut line out) then cnt bWMEM 1 1 t else t)
        else setErr F.WMEM_ERR_STATUS_SCRUB_UE intWmem t)))) ∧
  (∀ (pair : Fin 16384) (cid : BitVec 16) (c : RCmd) (op : Nat) (i : Instr) (s t : State),
    (op, i) ∈ [(1, Instr.keyIssue pair cid), (2, .keySetCurrent pair cid), (3, .keyClearCurrent pair cid), (4, .keyRetire pair cid),
      (5, .keyDestroy pair cid), (6, .keyQuery pair cid)] →
    s.cmdOf pair.val cid.toNat 9 = some c → s.heldBack c = false → c.waiting = 0 → c.opt % 16 = op → s.ciph.ops = [] →
    let o := Says.keyOp c op
    let u := keyPush o (modCmd c.id (fun x => { x with waiting := 1 }) (Says.started c s))
    (∀ st res, keyStep o u = (.done st res, t) → (keyEnd o st res t).ciph.ops = [] →
      exec i s = .next (after (sanitizeStep (keyEnd o st res t)))) ∧
    (∀ o1, keyStep o u = (.wait, t) → t.ciph.ops = [o1] → o1 ≠ o → (keyStep o1 t).1 = .wait → (keyStep o1 t).2.ciph.ops = [o1] →
      exec i s = .next (after (sanitizeStep t)))) ∧
  (∀ (bar0 : Bool) (pair : Fin 16384) (v : Word) (s : State), (bar0 = true → s.bar0Ok pair.val = true) → let i := v.toNat % 2 ^ 13
    (i < s.sqSize pair.val → exec (.sqDoorbell bar0 pair v) s = .next (setF (F.QP_SQ_TAIL_INDEX pair.val) i s)) ∧
    (s.sqSize pair.val ≤ i → exec (.sqDoorbell bar0 pair v) s = .next (badDoorbell pair.val s)) ∧
    (let n := s.cqSize pair.val; let bad := n ≤ i ∨ s.unconsumed pair.val < (i + n - s.get (F.QP_CQ_HEAD_INDEX pair.val)) % n;
      exec (.cqDoorbell bar0 pair v) s = .next (if bad then badDoorbell pair.val s else setF (F.QP_CQ_HEAD_INDEX pair.val) i s)) ∧
    ((s.qSt pair.val = qActive ∨ s.qSt pair.val = qDraining) → badDoorbell pair.val s = pairError pair.val errDoorbell s) ∧
    (s.qSt pair.val = qDisabled → (storeAt (slotOff pair.val 0x10) v.toNat s).on (F.QP_CFG_EN pair.val) = true →
      exec (.pairEnable bar0 pair v) s = .next (pairOn pair.val (storeAt (slotOff pair.val 0x10) v.toNat s))) ∧
    (v.toNat.testBit 31 = false → s.qSt pair.val = qActive →
      exec (.pairDisable bar0 pair v) s = .next (pairRest pair.val (setQ pair.val qDraining s))) ∧
    (v.toNat.testBit 31 = false → s.qSt pair.val = qDraining → exec (.pairDisable bar0 pair v) s = .next s) ∧
    (v.toNat.testBit 31 = false → s.qSt pair.val ≠ qActive → s.qSt pair.val ≠ qDraining → s.qSt pair.val ≠ qDisabled →
      exec (.pairDisable bar0 pair v) s = .next (pairRest pair.val (setF (F.QP_CFG_EN pair.val) 0 s)))) ∧
  (∀ (m : Master) (n : Fin 17) (v : Word) (s : State), let first := v.toNat % 2 ^ 14; let count := v.toNat / 2 ^ 32 % 2 ^ 15
    let meets (k : Nat) : Prop := k ≠ n.val ∧ 0 < count ∧ 0 < s.get (F.RING_LD_ALLOC_COUNT k) ∧
      first < s.get (F.RING_LD_ALLOC_FIRST k) + s.get (F.RING_LD_ALLOC_COUNT k) ∧ s.get (F.RING_LD_ALLOC_FIRST k) < first + count;
    let idle := s.runIdle first (min count 16384) = true ∧ s.runIdle (s.get (F.RING_LD_ALLOC_FIRST n.val)) (s.get (F.RING_LD_ALLOC_COUNT n.val)) = true;
    (first + count ≤ 16384 → (∀ k < 17, ¬ meets k) → idle → exec (.ringAllocWrite m n v) s = .next (storeAt (0x350100 + 8 * n.val) v.toNat s)) ∧
    (16384 < first + count ∨ (∃ k < 17, meets k) ∨ ¬ idle →
      exec (.ringAllocWrite m n v) s = .next (setErr F.RING_ERR_STATUS_ALLOC_BAD intRing s))) ∧
  (∀ (f : LineStep) (fin : RCmd → State → Option (Nat × Nat) × State) (c c1 : RCmd) (s t : State),
    (∀ e, c.atUnit = true → stopAtUnit c s = some e → dataStep f fin c s = cmdEnd c e.1 e.2 s) ∧
    ((c.atUnit = false ∨ stopAtUnit c s = none) →
      (∀ e, c.pos < c.len → unitRun f 256 c s = (.inr e, t) → dataStep f fin c s = cmdEnd c e.1 e.2 t) ∧
      (c.pos < c.len → unitRun f 256 c s = (.inl c1, t) → c1.pos < c1.len → dataStep f fin c s = regStatus (modCmd c.id (fun _ => c1) t)) ∧
      (∀ e v, c.pos < c.len → unitRun f 256 c s = (.inl c1, t) → c1.len ≤ c1.pos → fin c1 (modCmd c.id (fun _ => c1) t) = (some e, v) →
        dataStep f fin c s = regStatus (cmdEnd c1 e.1 e.2 v)))) ∧
  (∀ (c : RCmd) (leaves : List RingLeaf) (use : RCmd → Line × Bool × Bool → RCmd ⊕ (Nat × Nat)) (a b : Line) (p q : Bool × Bool) (s t u x y z : State),
    let ld := s.cmdLd c; let cls := ownerClass ld; let d := c.a0 + c.pos; let w := c.a1 + c.pos
    (s.lineMay cls 0 64 = true → s.mustWait (ringReq ld d true 0 false) = false → ringEnter c d true s = (true, t) →
      ringWrite ld d c.pattern false t = (.taken, u) → fillLine c s = (some (.inl c), cnt (bLD ld) 7 64 (takeCredit cls 1 64 u))) ∧
    (s.lineMay cls 64 0 = true → s.mustWait (ringReq ld d false 0 false) = false → s.backed ld d = true → ringEnter c d false s = (true, t) →
      ringReady ld d (firstOfLeaf c d) t = (true, u) → ringRead ld d leaves (firstOfLeaf c d) u = ((a, p), x) →
      readLine leaves use c s = (some (use c (a, p)), cnt (bLD ld) 6 64 (takeCredit cls 0 64 x))) ∧
    (s.lineMay cls 64 64 = true → s.mustWait (ringReq ld d false 0 false) = false → s.mustWait (ringReq ld w true 0 false) = false →
      s.backed ld d = true → ringEnter c d false s = (true, t) → ringEnter c w true t = (true, u) →
      ((writeRefused (ringReq ld w true 0 false) u).isNone = true → u.canAccept ld w = true) → ringReady ld d (firstOfLeaf c d) u = (true, x) →
      ringRead ld d leaves (firstOfLeaf c d) x = ((b, q), y) → ringWrite ld w b q.1 y = (.taken, z) →
      copyLine leaves c s = (some (.inl c), cnt (bLD ld) 7 64 (cnt (bLD ld) 6 64 (cnt bRING 4 64 (takeCredit cls 1 64 (takeCredit cls 0 64 z))))))) ∧
  (∀ (c : RCmd) (s : State), stopAtUnit c s = none →
    (c.pos ≠ 0 → c.waiting = 0 → ringSeal c s = cmdEnd c 0x20 (c.pre / 2 ^ 20) s) ∧
    (c.waiting = 0 → let ld := s.cmdLd c; let f := c.a0 / 2 ^ 20 + c.pos / 2 ^ 20
      s.backed ld (f * 2 ^ 20) = true →
      let u := discardFolio ld f (if c.pos = 0 then capture recDiscard ld 0 (c.a0 / 2 ^ 20) [c.len / 2 ^ 20] s else s)
      let c1 : RCmd := { c with pos := c.pos + 2 ^ 20, pre := c.pre + 2 ^ 20, cntA := c.cntA + (s.mapped ld f).toNat }
      ringDiscard c s = if c1.pos < c1.len then modCmd c.id (fun _ => c1) u
        else forceCommit (.ring c.id) (modCmd c.id (fun _ => { c1 with waiting := 1 }) u)) ∧
    (c.pos < c.len → s.backed (s.cmdLd c) (c.a0 + c.pos) = true →
      ringPrefetch c s = modCmd c.id (fun _ => (prefetchUnit c s).1) (prefetchUnit c s).2) ∧
    (c.len ≤ c.pos → (∀ x ∈ c.fed, ∀ m ∈ s.drift.meas, m.set ≠ x.toNat) →
      ringPrefetch c s = cmdEnd c 0 (c.cntA * 2 ^ 32 + c.cntB) s)) ∧
  (∀ (c : RCmd) (n : Nat) (body : List Nat) (s : State), s.telemetry (s.cmdLd c) c.opt = (n, body) → c.marked = false → 64 + body.length ≤ c.len →
    ∃ hdr, hdr.length = 64 ∧ hdr.take 8 = c.opt :: List.replicate 7 0 ∧
      ringTelemetry true c s = cmdEnd c 0 (64 + body.length) (emit (.hostWrite c.a1 (hdr ++ body)) s)) ∧
  (∀ (c t : RCmd) (s : State), let o := s.cmdLd c; let q := s.get (F.RING_LD_ALLOC_FIRST o) + c.a0
    s.ring.cmds.find? (fun x => x.pair == q && x.cid == leNum (c.param.take 2) && s.pairOwner q == some o) = some t →
    t.final = none → t.marked = false → t.op ≠ 5 → t.op ≠ 6 → t.op ≠ 7 → t.op ≠ 9 → t.op ≠ 11 →
    let u := modCmd t.id (fun x => { x with marked := true }) s
    ringAbort c s = cmdEnd c 2 0 (modCmd c.id (fun x => { x with cntA := t.id + 1 }) (if t.atUnit then cmdEnd t 3 t.pre u else u))) ∧
  (∀ (c : RCmd) (s : State), (s.ring.cmds.filter (·.engine)).length < 32 → s.ring.cmds.find? (fun c => c.op == 4 && c.final.isNone && !c.engine) = some c →
    exec .hashEngineGrant s = .next (ringStatus (modCmd c.id (fun x => { x with engine := true }) s))) ∧
  (∀ (pair : Fin 16384) (cid : BitVec 16) (c : RCmd) (st res : Nat) (dma : Bool) (s : State),
    s.ring.cmds.find? (fun c => c.pair == pair.val && c.cid == cid.toNat && c.final.isSome &&
      !(c.op == 11 && s.ring.cmds.any (fun x => x.id + 1 == c.cntA))) = some c → c.final = some (st, res) →
    exec (.completionPost pair cid dma) s = .next (regStatus (cmdPost dma c st res s))) ∧
  (∀ (pair : Fin 16384) (s : State),
    ((s.qSt pair.val = qActive ∨ s.qSt pair.val = qDraining) → exec (.hostDmaFail pair) s =
      .next (dropCmds (· == pair.val) (pairError pair.val errDma (setErr F.RING_ERR_STATUS_HOST_DMA intRing s)))) ∧
    (s.qSt pair.val ≠ qActive → s.qSt pair.val ≠ qDraining → exec (.hostDmaFail pair) s = .next (setErr F.RING_ERR_STATUS_HOST_DMA intRing s)))

/-- R285, R321, R325, R331, R332, R341, R376, R383, R388, R409: the rows of the dome, the clocks and the records.
Where it rests on a choice of the model, that is: notes/assumptions/13.md, notes/assumptions/14.md, notes/assumptions/17.md, notes/assumptions/45.md, notes/assumptions/46.md, notes/assumptions/54.md, notes/assumptions/63.md. -/
def Obligations.EveryRailSensorClockAndRecordRowCompletes : Prop :=
  (∀ (m : Master) (v : Word) (s : State), let l := v.toNat / 2 ^ 48 % 8; let i := v.toNat / 2 ^ 32 % 65536
    (v.toNat.testBit 63 = true → s.lcs.state = lcManufacture ∨ s.lcs.state = lcDevelop → (s.ledgSides l i).isSome = true →
      exec (.ledgerInject m v) s = .next ((ledgerAdd l i (signed32 v.toNat) s).modLedg (fun g => { g with injected := (ledgKey l i :: g.injected).eraseDups }))) ∧
    (v.toNat.testBit 63 = false ∨ (s.lcs.state ≠ lcManufacture ∧ s.lcs.state ≠ lcDevelop) ∨ s.ledgSides l i = none →
      exec (.ledgerInject m v) s = .next s)) ∧
  (∀ (m : Master) (v : BitVec 32) (s : State), let old := s.get F.DOME_PLT_REQ_ON
    (m.isAssist = true → exec (.platePowerReq m v) s = .next (platesSettle (seqAll (fun p t =>
      if v.toNat.testBit p = true ∧ old.testBit p = false then seqOn p t
      else if v.toNat.testBit p = false ∧ old.testBit p = true then seqOff p (channelsOff p t)
      else t) (List.range 16) (setF F.DOME_PLT_REQ_ON v.toNat s)))) ∧
    (m.isAssist = false → exec (.platePowerReq m v) s = .next s)) ∧
  (∀ (rail : Fin 40) (mv : BitVec 16) (s : State), (s.rail rail.val).en = false → (s.rail rail.val).disch = false →
    mv.toNat * 10 < s.get (F.DOME_RAIL_CFG_NOM_MV rail.val) →
    Says.leads (fun u => domeAfter (seqRun (railSeq rail.val) u)) (.railDischarged rail mv) s (fun u => (u.rail rail.val).disch = true ∧
      (u.rail rail.val).pg = false ∧ (u.rail rail.val).mv = mv.toNat ∧ u.regs = s.regs ∧
      ((s.rail rail.val).phase = .failed → (u.rail rail.val).phase = .failed) ∧ ((s.rail rail.val).phase ≠ .failed → (u.rail rail.val).phase = .off))) ∧
  (∀ (l : List Nat) (s : State), exec (.adcSample l true) s = .next (xLost F.CLK_XOVR_AON 0 42 s) ∧
    Says.leads (fun u => domeAfter (seqAll (fun n t => match l[n]? with | some v => adcRail n v t | none => t) (List.range 8) u))
      (.adcSample l false) s (fun u => u.regs = s.regs ∧ u.dome.rails = s.dome.rails)) ∧
  (∀ (n mv : Nat) (s : State), let out := s.railOver n mv || s.railUnder n mv; let u := railRead n mv s
    ((s.rail n).phase ≠ .running → adcRail n mv s = u) ∧
    ((s.rail n).phase = .running → out = false → adcRail n mv s = marginSettle n mv (modRail n (fun r => { r with bad := 0 }) u)) ∧
    ((s.rail n).phase = .running → out = true → (s.rail n).bad = 0 → adcRail n mv s = modRail n (fun r => { r with bad := 1 }) u) ∧
    ((s.rail n).phase = .running → out = true → (s.rail n).bad ≠ 0 → adcRail n mv s = railFail (if s.railOver n mv then 1 else 0) n mv u)) ∧
  (∀ (l : List Nat) (s : State), let tj := l.foldl max 0
    (tj ≤ 105 ∨ s.dome.hot105 = true → (tj < 110 ∨ s.dome.hot110 = 0 ∨ s.glb.mode = .off) →
      Says.leads (seqAll (tempAlert tj) (s.lds ++ [mgmtView])) (.tempReading l) s (fun u => u.dome.tj = tj ∧ u.regs = s.regs ∧
        (95 ≤ tj ∨ u.dome.thermOvr = false) ∧ (tj < 100 ∨ u.dome.thermOvr = true))) ∧
    (105 < tj → tj < 110 ∨ s.dome.hot110 = 0 → s.dome.hot105 = false →
      ∃ u c, exec (.tempReading l) s = .next (seqAll (tempAlert tj) ((logPut sevWarning (0x1000 + c % 256) tj 0 0 0 u).lds ++ [mgmtView])
        (logPut sevWarning (0x1000 + c % 256) tj 0 0 0 u)) ∧ u.dome.tj = tj ∧ u.regs = s.regs) ∧
    (110 ≤ tj → s.dome.hot110 ≠ 0 → s.dome.hot105 = true → s.glb.mode ≠ .off →
      Says.leads (fun u => railFault 5 0xFF tj (seqAll (tempAlert tj) (s.lds ++ [mgmtView]) u)) (.tempReading l) s
        (fun u => u.dome.tj = tj ∧ u.regs = s.regs))) ∧
  (∀ s : State, let v := tgetD 1 s.dome.adc 9 - 1
    (s.get F.DOME_HU_CFG_CAP_MF ≠ 0 → v < s.get F.DOME_HU_CFG_VMIN_MV → exec .huEstimate s = .next (setF F.DOME_HU_STATUS_EST_CJ 0 s)) ∧
    (s.get F.DOME_HU_CFG_CAP_MF = 0 → exec .huEstimate s = .next s)) ∧
  (∀ s : State, s.on F.DOME_HU_CFG_CAP_MF = true → let est := s.get F.DOME_HU_STATUS_EST_CJ; let need := s.get F.DOME_HU_CFG_EREQ_CJ
    ((s.dome.huOk = true ∧ est < need) ∨ (s.dome.huOk = false ∧ need ≤ est) → exec .huMismatchTimer s =
      .next (logOpen bDOME s.dome.huOk.toNat est (setErr F.DOME_ERR_STATUS_HU_MISMATCH intDome s))) ∧
    ((s.dome.huOk = true ∧ need ≤ est) ∨ (s.dome.huOk = false ∧ est < need) → exec .huMismatchTimer s = .next s)) ∧
  (∀ (a b c d : Nat) (s : State), exec (.fanTachWindow [a, b, c, d]) s = .next (fanTach 3 d (fanTach 2 c (fanTach 1 b (fanTach 0 a s))))) ∧
  (∀ (f pulses : Nat) (s : State), let rpm := pulses * 60 / (s.get (F.DOME_FAN_CTL_PPR f) + 1)
    let slow : Prop := rpm < s.get (F.DOME_FAN_CTL_MIN_RPM f) * 100 ∧ 51 ≤ s.duty f
    (slow → ((fanTach f pulses s).fan f).stall = true) ∧ (¬ slow → fanTach f pulses s = modFan f (fun x => { x with rpm := min rpm 65535, stall := false }) s) ∧
    (slow → (s.fan f).stall = false → (fanTach f pulses s).on F.DOME_ERR_STATUS_FAN_STALL = true)) ∧
  (∀ (m : Master) (v : Word) (s : State), let low := s.get F.CLK_TOD_SET % 2 ^ 32
    let w := match holdOf s m 0x3A0028 with | some lo => v.toNat % 2 ^ 32 * 2 ^ 32 + lo | none => v.toNat % 2 ^ 32 * 2 ^ 32 + low
    exec (.todSet m false v) s = .next (todStep w 2 (setF F.CLK_TOD_SET w (dropHold m 0x3A0028 s)))) ∧
  (∀ (dom : Fin 45) (s : State), let runs := if dom.val = domSlices then decide (s.glb.mode ≠ .parked) && s.coreOn else s.clkRuns dom.val
    let go (a : HeldAccess) : Bool := (runs && a.dom == dom.val) || (a.dom == domCredit && s.accMay a.master (if a.wr.isSome then 1 else 0))
    exec (.heldAccessRelease dom) s = .next (domeAfter (seqAll heldGo (s.clk.held.filter go)
      (s.modClk (fun c => { c with held := c.held.filter (fun a => !go a) }))))) ∧
  (∀ (m : Master) (v : Word) (s : State), let r := LogRec.ofWords (s.log.put.getD 0 0) (s.log.put.getD 1 0) (s.log.put.getD 2 0) v.toNat
    (m.isAssist = true → exec (.logPut m v false) s = .next (logFrom r.source r.sev r.code r.p0 r.p1 r.p2 r.p3 s)) ∧
    (m.isAssist = true → exec (.logPut m v true) s = .next (s.modLog (fun l => { l with drops := min (2 ^ 32 - 1) (l.drops + 1), lost := l.lost + 1 }))) ∧
    (∀ full : Bool, m.isAssist = false → exec (.logPut m v full) s = .next s)) ∧
  (∀ (m : Master) (s : State),
    (∀ r : LogRec, s.log.win = some r → s.on F.LOG_CURSOR_AUTO = false ∨ r.seq ≠ s.get F.LOG_CURSOR_SEQ →
      exec (.logWin3Read m) s = .next (emit (.regData m 0x3D0118 (BitVec.ofNat 64 (r.word 3))) s)) ∧
    (s.log.win = none → exec (.logWin3Read m) s = .next (emit (.regData m 0x3D0118 0#64) s))) ∧
  (∀ s : State,
    (s.get F.SPEC_SNAP_CFG_PERIOD_MS ≠ 0 → s.glb.mode = .active ∨ s.glb.mode = .quiet ∨ s.glb.mode = .parked → s.spec.busy = false →
      exec .snapTimer s = .next (s.modSpec (fun p => { p with busy := true, frozen := p.live, frozenAt := s.clk.tod }))) ∧
    (s.get F.SPEC_SNAP_CFG_PERIOD_MS = 0 ∨ s.spec.busy = true → exec .snapTimer s = .next s) ∧
    (s.spec.busy = true → Says.ends .snapPublish s (fun t => t.spec.busy = false ∧ t.spec.bank = 1 - s.spec.bank ∧
      t.spec.seq = (s.spec.seq + 1) % 2 ^ 32 ∧ t.spec.time = s.spec.frozenAt ∧ (s.spec.bank = 0 → t.spec.bank1 = s.spec.frozen ∧ t.spec.bank0 = s.spec.bank0) ∧
      (s.spec.bank ≠ 0 → t.spec.bank0 = s.spec.frozen ∧ t.spec.bank1 = s.spec.bank1))) ∧
    (s.spec.busy = false → exec .snapPublish s = .next s)) ∧
  (∀ (ofs : BitVec 16) (ssc : Bool) (s : State),
    (s.on F.CLK_CTL_REC_EN = true → (s.port 0).up = true → (s.port 0).l1 = false → Says.ends (.recQualified ofs) s (fun t =>
      t.get F.CLK_DPLL_STATUS_STATE = dpllRec ∧ t.get F.CLK_DPLL_STATUS_REC_QUAL = 1 ∧ t.get F.CLK_DPLL_STATUS_SSC = 0 ∧
      t.get F.CLK_DPLL_STATUS_REC_OFS = ofs.toNat)) ∧
    (s.on F.CLK_CTL_REC_EN = false ∨ (s.port 0).up = false ∨ (s.port 0).l1 = true → exec (.recQualified ofs) s = .next s) ∧
    (s.get F.CLK_DPLL_STATUS_STATE ≠ dpllRec → Says.ends (.recDisqualified ssc) s (fun t => t.get F.CLK_DPLL_STATUS_REC_QUAL = 0 ∧
      t.get F.CLK_DPLL_STATUS_STATE = s.get F.CLK_DPLL_STATUS_STATE ∧ (ssc = true → t.get F.CLK_DPLL_STATUS_SSC = 1)))) ∧
  (∀ (j : AlmJob) (s : State), s.alm.run = some j →
    let u := (almStore j.addr j.data s).modAlm (fun a => { a with run := none }); let n := s.alm.queue.length + s.alm.waiting.length
    (j.src ≠ .tail → exec .almWriteDone s = .next (after (almPump n (almHostEnd 0 u)))) ∧
    (j.src = .tail → exec .almWriteDone s = .next (after (almPump n (u.modLog (fun l => { l with tailCopy := l.tailCopy.drop 8 })))))) ∧
  (∀ s : State, s.alm.run = none → exec .almWriteDone s = .next (after s))

/-- Device and MAC take the frame. -/
def Says.heard (b : List Nat) (s : State) : Prop := s.start.aonDown = false ∧ s.macAccepts (beNum (b.take 6)) = true

/-- A frame row, for every frame and state. -/
def Says.frameRow (w : State → State) (c : Instr) (b : List Nat) (fcs own : Bool) (s : State) : Prop :=
  let et := (b.drop 12).take 2; let serves := s.busServed = true ∧ s.on F.SBUS_CTL_EN = true; let whole := 60 ≤ b.length ∧ b.length ≤ 1514
  let dropped := w (incF F.SBUS_CNT_DROP_OTHER 1 s)
  (¬ Says.heard b s → exec c s = .next (w s)) ∧
  (Says.heard b s → ¬ whole → exec c s = .next dropped) ∧
  (Says.heard b s → whole → ¬ serves → (fcs = false → exec c s = .next dropped) ∧ (fcs = true → et ≠ etherShelf → exec c s = .next (w s)) ∧
    (fcs = true → et = etherShelf → exec c s = .next (w (shelfServe true b s)))) ∧
  (Says.heard b s → whole → serves →
    (fcs = false → b.length < s.get F.SBUS_RXQ_CFG_CUT → exec c s = .next dropped) ∧
    (et ≠ etherShelf → et ≠ etherPtp → exec c s = .next dropped) ∧
    (fcs = true ∨ s.get F.SBUS_RXQ_CFG_CUT ≤ b.length → et = etherShelf ∨ et = etherPtp →
      (s.sbus.rxFree = [] → exec c s = .next (w (incF F.SBUS_CNT_DROP_OVF 1 (setErr F.SBUS_ERR_STATUS_RX_OVF intSbus s)))) ∧
      (s.sbus.rxFree ≠ [] → s.asstStalled = true → Says.leads w c s (fun u => u.glb = s.glb ∧
        ∃ k, k ∈ s.sbus.rxFree ∧ u.sbus.rx = s.sbus.rx ++ [⟨k, b, 0, fcs, true, own⟩])) ∧
      (s.sbus.rxFree ≠ [] → s.asstStalled = false → Says.leads (fun u => w (if fcs = true ∧ et = etherShelf then shelfServe false b u else u)) c s
        (fun u => u.glb = s.glb ∧ u.host = s.host ∧ u.sbus.quar = s.sbus.quar ∧ (own = true → u.sbus.rx = s.sbus.rx) ∧
          (own = false → ∃ k, k ∈ s.sbus.rxFree ∧ u.sbus.rx = s.sbus.rx ++ [⟨k, b, 0, fcs, false, own⟩])))))

/-- R326, R354 to R369: the rows of the shelf bus and of the plates.
Where it rests on a choice of the model, that is: notes/assumptions/51.md, notes/assumptions/52.md, notes/assumptions/56.md, notes/assumptions/57.md, notes/assumptions/58.md. -/
def Obligations.EveryShelfBusAndPlateRowCompletes : Prop :=
  (∀ (f : ShelfFrame) (s : State),
    Says.frameRow domeAfter (.shelfPing f) (Says.cmdBytes opPing f) true true s ∧
    Says.frameRow domeAfter (.shelfStatus f) (Says.cmdBytes opStatus f) true true s ∧
    Says.frameRow domeAfter (.shelfSensors f) (Says.cmdBytes opSensors f) true true s ∧
    Says.frameRow domeAfter (.shelfMode f) (Says.cmdBytes opMode f) true true s ∧
    Says.frameRow domeAfter (.shelfWake f) (Says.cmdBytes opWake f) true true s ∧
    Says.frameRow domeAfter (.shelfRestart f) (Says.cmdBytes opRestart f) true true s ∧
    Says.frameRow domeAfter (.shelfPlate f) (Says.cmdBytes opPlate f) true true s ∧
    Says.frameRow domeAfter (.shelfSubscribe f) (Says.cmdBytes opSubscribe f) true true s) ∧
  (∀ (bytes : List Byte) (fcs : Bool) (s : State), Says.frameRow domeAfter (.shelfFrameOther bytes fcs) (bytes.map (·.toNat)) fcs false s) ∧
  (∀ (bytes : List Byte) (fcs : Bool) (s : State), Says.frameRow id (.ptpFrame bytes fcs none) (bytes.map (·.toNat)) fcs false s) ∧
  (∀ (bytes : List Byte) (fcs : Bool) (ofs adj : Int) (s : State), let u := frameIn (bytes.map (·.toNat)) fcs false s
    (fcs = false ∨ s.asstStalled = true ∨ u.sbus.rx.length ≤ s.sbus.rx.length → exec (.ptpFrame bytes fcs (some (ofs, adj))) s = .next u) ∧
    (fcs = true → s.asstStalled = false → s.sbus.rx.length < u.sbus.rx.length → ofs.natAbs ≤ 1000000 →
      exec (.ptpFrame bytes fcs (some (ofs, adj))) s = .next (storeAt 0x3A0030 (adj % 2 ^ 32).toNat u))) ∧
  (∀ s : State,
    (s.busServed = true → s.asstStalled = false → s.sbus.txFree = [] → ∃ u f, exec .pdelayTimer s = .next (frameSend f u) ∧ u.sbus = s.sbus) ∧
    (s.busServed = true → s.asstStalled = false → s.sbus.txFree ≠ [] → Says.ends .pdelayTimer s (fun t =>
      ∃ k f, k ∈ s.sbus.txFree ∧ t.sbus.tx = s.sbus.tx ++ [⟨k, f, true, true, 0⟩])) ∧
    (s.busServed = false ∨ s.asstStalled = true → exec .pdelayTimer s = .next s)) ∧
  (∀ (f : TxFrame) (s : State), s.sbus.tx.find? (·.ready) = some f →
    (s.sbus.csma = false → s.on F.SBUS_CTL_EN = true → s.start.aonDown = false →
      (f.tries + 1 < 16 → exec .plcaCollision s = .next (setErr F.SBUS_ERR_STATUS_PLCA_COLL intSbus (s.modSbus (fun b =>
        { b with tx := b.tx.map (fun x : TxFrame => if x.bank = f.bank then { x with tries := f.tries + 1 } else x) }.txFill)))) ∧
      (16 ≤ f.tries + 1 → exec .plcaCollision s = .next (setErr F.SBUS_ERR_STATUS_PLCA_COLL intSbus (s.modSbus (fun b =>
        { b with tx := b.tx.filter (fun x => x.bank != f.bank) }.txFill))))) ∧
    (s.sbus.csma = true ∨ s.on F.SBUS_CTL_EN = false ∨ s.start.aonDown = true → exec .plcaCollision s = .next s) ∧
    (s.on F.SBUS_CTL_EN = true → s.start.aonDown = false → Says.leads (when (f.ts && s.on F.SBUS_CTL_TS_EN) (setF F.SBUS_TS_TX s.clk.tod)) .txFrameSent s (fun u =>
      u.outs = .frame (padFrame f.bytes) :: s.outs ∧ u.sbus = { s.sbus with tx := s.sbus.tx.filter (fun x => x.bank != f.bank) }.txFill)) ∧
    (s.on F.SBUS_CTL_EN = false ∨ s.start.aonDown = true → exec .txFrameSent s = .next s)) ∧
  (∀ s : State, s.sbus.tx.find? (·.ready) = none → exec .plcaCollision s = .next s ∧ exec .txFrameSent s = .next s) ∧
  (∀ (e : Nat × Nat) (s : State),
    (s.sbus.quar.find? (fun x => x.2 == e.2) = some e → (∀ x ∈ s.sbus.quar, e.2 ≤ x.2) → e.2 ≤ s.now →
      exec .quarantineExpiry s = .next (s.modSbus (fun b => { b with quar := b.quar.filter (fun x => x.1 != e.1) }))) ∧
    ((∀ x ∈ s.sbus.quar, s.now < x.2) → exec .quarantineExpiry s = .next s)) ∧
  (∀ (m : Master) (r : RxFrame) (s : State), s.runsBus m = true → s.sbus.rx.find? (fun r => !r.own) = some r →
    let d := (r.bytes.drop r.pos).take 6; let first := (decide (r.pos = 0)).toNat * 2 ^ 62
    let answer (w : Nat) : Out := .regData m 0x3B0040 (BitVec.ofNat 64 w)
    (r.pos + 6 < r.bytes.length → exec (.rxqDataRead m) s = .next (emit (answer (2 ^ 63 + first + d.length * 2 ^ 48 + leNum d))
      (s.modSbus (fun b => { b with rx := b.rx.map (fun x : RxFrame => if x.bank = r.bank then { x with pos := r.pos + 6 } else x) })))) ∧
    (r.bytes.length ≤ r.pos + 6 → exec (.rxqDataRead m) s = .next (emit (answer (2 ^ 63 + first + 2 ^ 61 + (!r.fcsOk).toNat * 2 ^ 60 + d.length * 2 ^ 48 + leNum d))
      (s.modSbus (fun b => { b with rx := b.rx.filter (fun x => x.bank != r.bank) })))) ∧
    exec (.rxqDrop m) s = .next (s.modSbus (fun b => { b with rx := b.rx.filter (fun x => x.bank != r.bank) }))) ∧
  (∀ (m : Master) (s : State), s.runsBus m = false ∨ s.sbus.rx.find? (fun r => !r.own) = none →
    exec (.rxqDataRead m) s = .next (emit (.regData m 0x3B0040 0#64) s) ∧ exec (.rxqDrop m) s = .next s) ∧
  (∀ (m : Master) (w : Word) (s : State), let d := numBytes (min 6 (w.toNat / 2 ^ 48 % 8)) (w.toNat % 2 ^ 48)
    (s.runsBus m = false → exec (.txqDataWrite m w) s = .next s ∧ exec (.txqFlush m) s = .next s) ∧
    (∀ f : TxFrame, s.runsBus m = true → w.toNat.testBit 62 = false → s.sbus.tx.find? (fun f => !f.ready) = some f →
      let u := s.modSbus (fun b => { b with tx := b.tx.map (fun x : TxFrame => if x.bank = f.bank then { x with bytes := (x.bytes ++ d).take 2048 } else x) })
      (w.toNat.testBit 61 = false → exec (.txqDataWrite m w) s = .next u) ∧
      (w.toNat.testBit 61 = true → exec (.txqDataWrite m w) s = .next (u.modSbus (·.txReady f.bank false))) ∧
      exec (.txqFlush m) s = .next (s.modSbus (·.txReady f.bank true))) ∧
    (s.runsBus m = true → w.toNat.testBit 62 = false → s.sbus.tx.find? (fun f => !f.ready) = none →
      (s.sbus.txFree ≠ [] → exec (.txqDataWrite m w) s = .next s) ∧ (s.sbus.txFree = [] → exec (.txqDataWrite m w) s = .next (setF F.SBUS_TXQ_CTL_LOST 1 s)) ∧
      exec (.txqFlush m) s = .next s) ∧
    (s.runsBus m = true → w.toNat.testBit 62 = true → { s.sbus with tx := s.sbus.tx.filter (·.ready) }.txFree ≠ [] →
      Says.ends (.txqDataWrite m w) s (fun t => ∃ f : TxFrame, f ∈ t.sbus.tx ∧ f.ready = w.toNat.testBit 61 ∧ f.ts = w.toNat.testBit 60 ∧ (w.toNat.testBit 61 = false → f.bytes = d))) ∧
    (s.runsBus m = true → w.toNat.testBit 62 = true → { s.sbus with tx := s.sbus.tx.filter (·.ready) }.txFree = [] →
      exec (.txqDataWrite m w) s = .next (setF F.SBUS_TXQ_CTL_LOST 1 (s.modSbus (fun b => { b with tx := b.tx.filter (·.ready) }))))) ∧
  (∀ (m : Master) (s : State),
    (s.lcs.state = lcProvision ∨ s.lcs.state = lcService → s.alm.wp = false → Says.ends (.keyCommit m) s (fun t => t.sbus.key = some (BitVec.ofNat 256 s.keyRegs))) ∧
    (s.lcs.state = lcProvision ∨ s.lcs.state = lcService → s.alm.wp = true →
      exec (.keyCommit m) s = .next (setErr F.SBUS_ERR_STATUS_KEY_FAIL intSbus (setErr F.ALM_ERR_STATUS_WP_REFUSE intAlm s))) ∧
    (s.lcs.state ≠ lcProvision → s.lcs.state ≠ lcService → exec (.keyCommit m) s = .next (setErr F.SBUS_ERR_STATUS_KEY_FAIL intSbus s))) ∧
  (∀ (m : Master) (v : BitVec 32) (s : State), let ask (a : Nat) : State := s.modSbus (fun b => { b with reqs := (b.reqs ++ [(⟨v.toNat % 16, a, 2⟩ : PltReq)]).take 256 })
    (v.toNat.testBit 31 = false ∨ s.assistRuns = false → exec (.pltCmdOn m v) s = .next s ∧ exec (.pltCmdOut m v) s = .next s ∧ exec (.pltCmdAdmit m v) s = .next s) ∧
    (v.toNat.testBit 31 = true → s.assistRuns = true → s.asstStalled = true → exec (.pltCmdOut m v) s = .next (ask 2) ∧ exec (.pltCmdAdmit m v) s = .next (ask 3))) ∧
  (∀ (p c : Nat) (s : State),
    (s.mgmt p = pOffline → plateAct ⟨p, 1, c⟩ s = powering p s) ∧ (s.mgmt p = pFailed → plateAct ⟨p, 1, c⟩ s = powering p (logOpen bSBUS p pFailed s)) ∧
    (s.mgmt p = pDraining → plateAct ⟨p, 1, c⟩ s = s.modSbus (fun b => { b with heldOn := if b.heldOn.contains p then b.heldOn else b.heldOn ++ [p] })) ∧
    (s.mgmt p = pPowering → plateAct ⟨p, 2, c⟩ s = plateDown p (setMgmt p pOffline s))) ∧
  (∀ (plate : Fin 16) (ident : List Byte) (s : State), let u : State := (s.modDome (fun d => { d with prsnt := d.prsnt ||| 2 ^ plate.val })).modSbus (fun b => { b with ident := tset b.ident plate.val (ident.map (·.toNat)) })
    (s.dome.prsnt.testBit plate.val = false → s.assistRuns = true → exec (.plateInserted plate ident) s = .next (capRecompute (fldRecount (platePresent plate.val u)))) ∧
    (s.dome.prsnt.testBit plate.val = false → s.assistRuns = false → exec (.plateInserted plate ident) s = .next u) ∧
    (s.dome.prsnt.testBit plate.val = true → exec (.plateInserted plate ident) s = .next s)) ∧
  (∀ (plate : Fin 16) (temp : BitVec 8) (s : State), let p := plate.val; let u := setF (F.SBUS_PLT_STATE_TEMP p) temp.toNat s
    (s.dome.prsnt.testBit p = false → exec (.plateRemoved plate) s = .next s) ∧
    (s.mgmt p = pDraining → Says.leads (fun u => platesSettle (plateOffline p (settle (resetPrograms p u)))) (.plateDrainTimeout plate) s (fun u =>
      ∀ e ∈ u.med.planes, e.1 / 64 ≠ p)) ∧
    (s.mgmt p ≠ pDraining → exec (.plateDrainTimeout plate) s = .next s) ∧
    (u.mgmt p ≠ pOnline ∨ temp.toNat < u.get F.SBUS_PLT_CFG_HOT_C → exec (.plateHot plate temp) s = .next u) ∧
    (s.disagrees p = false ∨ s.sbus.flagged.contains p = true → exec (.plateDisagree plate) s = .next s))

/-- A TAP instruction that is not available now. -/
def Says.denied (ir : Nat) (s : State) : State := emit (.tdo 1 0) (setF F.LCS_FINDER_DENIED 1 (loadIr ir s))

/-- The rows of the debug engines, with the instruction of each. -/
def Says.debugRow (ir : Nat) (c : Instr) : Prop :=
  (ir = 0x20 ∧ ((∃ k pc, c = .coreHalt k pc) ∨ (∃ k, c = .coreResume k) ∨ (∃ k pc, c = .coreStep k pc))) ∨ (ir = 0x21 ∧ ∃ d, c = .coreReg d) ∨
    (ir = 0x22 ∧ ∃ d, c = .coreBp d) ∨ (ir = 0x30 ∧ ((∃ d o, c = .sysbusRead d o) ∨ (∃ d, c = .sysbusWrite d))) ∨ (ir = 0x31 ∧ ∃ b, c = .busAbort b)

/-- The rows that drive the pins, with the instruction of each. -/
def Says.driveRow (ir : Nat) (c : Instr) : Prop := (ir = 0 ∧ ∃ b, c = .tapExtest b) ∨ (ir = 3 ∧ c = .tapClamp) ∨ (ir = 4 ∧ c = .tapHighz)

/-- An access of the finder that waits for the domain `d`, with its status. -/
def Says.heldFor (d off n : Nat) (wr : Option Nat) (st : Nat) (s t : State) : Prop :=
  t = (holdAccess ⟨.finder, d, off, n, wr⟩ s).modFind (fun f => { f with status := st, data := 0 })

/-- R397 to R410: the rows of the life cycle and of the finder.
Where it rests on a choice of the model, that is: notes/assumptions/10.md, notes/assumptions/59.md, notes/assumptions/60.md, notes/assumptions/61.md. -/
def Obligations.EveryLifeCycleAndFinderRowCompletes : Prop :=
  (∀ (m : Master) (v : BitVec 32) (s : State), let stored (op : Nat) : State := storeAt 0x3F0010 (putBits 24 4 op v.toNat) s
    (m ≠ .host → m ≠ .finder → exec (.lcTransition m v) s = .next s ∧ exec (.unlock m v) s = .next s ∧ exec (.relock m v) s = .next s ∧
      exec (.keyfuse m v) s = .next s) ∧
    (m = .host ∨ m = .finder → v.toNat.testBit 31 = false → exec (.lcTransition m v) s = .next (stored 1) ∧ exec (.unlock m v) s = .next (stored 2) ∧
      exec (.relock m v) s = .next (stored 3) ∧ exec (.keyfuse m v) s = .next (stored 4))) ∧
  (∀ (m : Master) (t c : Nat) (s : State), let u := setF F.LCS_CMD_DONE 0 s
    s.lcs.trans = none → lcsGo m 1 t c s = lcTransition m t c u ∧ lcsGo m 2 t c s = lcUnlock u ∧ lcsGo m 3 t c s = lcRelock u ∧ lcsGo m 4 t c s = lcKeyfuse u) ∧
  (∀ (m : Master) (t c : Nat) (s : State), s.lcCheck m t c = none → ∃ u : State, u.lcs.trans = some t ∧ u.on F.LCS_STATUS_BUSY = true ∧
    (t = lcReturn ∨ t = lcDecommission → lcTransition m t c s = keyAdvance (keyOwn 8 0 u)) ∧
    (t ≠ lcReturn → t ≠ lcDecommission → lcTransition m t c s = lcPark u)) ∧
  (∀ s : State, let blank (k : Nat) : Bool := !s.lcs.fused.testBit k && !s.lcs.revoked.testBit k
    let fuse (k : Nat) : State := lcsEnd 4 lrOk (lcShow (s.modLcs (fun l => { l with fused := l.fused ||| 2 ^ k, hashes := tset l.hashes k s.khash })))
    (s.lcs.state = lcProvision → blank 2 = true → lcKeyfuse s = fuse 2) ∧ (s.lcs.state = lcProvision → blank 2 = false → blank 3 = true → lcKeyfuse s = fuse 3) ∧
    (s.lcs.state = lcProvision → blank 2 = false → blank 3 = false → lcKeyfuse s = lcsEnd 4 lrNoSlot s) ∧
    (s.lcs.state ≠ lcProvision → lcKeyfuse s = lcsEnd 4 lrNotAllowed s)) ∧
  (∀ (c : Instr) (ir : Nat) (s : State),
    (s.glb.mode = .off → Says.debugRow ir c ∨ Says.driveRow ir c ∨ c = .tapIdcode ∨ c = .lcStatus ∨ (∃ p b, c = .tapSamplePreload p b) ∨
      (∃ t g, c = .finderUnlock t g) ∨ (∃ i, c = .tapBypass i) → exec c s = .next s) ∧
    (s.glb.mode ≠ .off → Says.debugRow ir c → s.debugOn ir = false → exec c s = .next (Says.denied ir s)) ∧
    (s.glb.mode ≠ .off → Says.driveRow ir c → s.driveOn = false → exec c s = .next (Says.denied ir s)) ∧
    (s.driveOn = true → Says.driveRow ir c → Says.ends c s (fun t => t.find.ir = ir ∧ t.find.drive = (if ir = 0 then 1 else ir - 1) ∧ t.regs = s.regs ∧
      (∀ b, c = .tapExtest b → t.find.boundary = b) ∧ (c = .tapClamp ∨ c = .tapHighz → t.outs = .tdo 1 0 :: s.outs)))) ∧
  (∀ (i : BitVec 8) (s : State), s.glb.mode ≠ .off → let ir := i.toNat; let debug : Prop := ir = 0x20 ∨ ir = 0x21 ∨ ir = 0x22 ∨ ir = 0x30 ∨ ir = 0x31
    (ir = 1 ∨ ir = 2 ∨ ir = 0x10 ∨ ir = 0x11 → exec (.tapBypass i) s = .next s) ∧
    (ir = 0 ∨ ir = 3 ∨ ir = 4 → exec (.tapBypass i) s = .next (if s.driveOn = true then s else Says.denied ir s)) ∧
    (debug → exec (.tapBypass i) s = .next (if s.debugOn ir = true then s else Says.denied ir s)) ∧
    (¬ debug → 4 < ir → ir ≠ 0x10 → ir ≠ 0x11 → exec (.tapBypass i) s = .next (emit (.tdo 1 0) (loadIr ir s)))) ∧
  (∀ (token : List Byte) (s : State), s.glb.mode ≠ .off → s.coreOn = false → ∃ n u, exec (.finderUnlock token true) s =
    .next (tokenPut (token.map (·.toNat)) (emit (.tdo 2049 n) u)) ∧ u.find.ir = 0x11 ∧ u.regs = s.regs) ∧
  (∀ (core : Fin 2) (pc : BitVec 32) (s : State), s.glb.mode ≠ .off → s.debugOn 0x20 = true →
    ((s.find.core core.val).halted = true → Says.ends (.coreHalt core pc) s (fun t => t.find.core core.val = s.find.core core.val ∧ t.find.ctlCore = core.val)) ∧
    ((s.find.core core.val).halted = false → Says.ends (.coreStep core pc) s (fun t => t.find.core core.val = s.find.core core.val ∧ t.find.ctlCore = core.val))) ∧
  (∀ (dr : BitVec 72) (s : State), s.glb.mode ≠ .off → s.debugOn 0x21 = true →
    let d := dr.toNat; let k := d / 2 ^ 71 % 2; let r := d / 2 ^ 64 % 64; let c := s.find.core k; let row := Says.ends (.coreReg dr) s
    (c.halted = false → exec (.coreReg dr) s = .next ((emit (.tdo 72 s.find.regRead) (loadIr 0x21 s)).modFind (fun f => { f with regRead := 0 }))) ∧
    (c.halted = true → d.testBit 70 = true → row (fun t => t.outs = .tdo 72 s.find.regRead :: s.outs ∧ t.find.regRead = 0 ∧
      (r = 32 → (t.find.core k).pc = d % 2 ^ 32) ∧ (1 ≤ r → r < 32 → tget (t.find.core k).regs r = some (d % 2 ^ 32)) ∧
      (r = 0 ∨ 32 < r → t.find.core k = c))) ∧
    (c.halted = true → d.testBit 70 = false → row (fun t => t.outs = .tdo 72 s.find.regRead :: s.outs ∧
      (r = 32 → t.find.regRead = c.pc) ∧ (r = 0 ∨ 32 < r → t.find.regRead = 0) ∧ (∀ v, 1 ≤ r → r < 32 → tget c.regs r = some v → t.find.regRead = v) ∧
      (1 ≤ r → r < 32 → tget (t.find.core k).regs r = some t.find.regRead)))) ∧
  (∀ (dr : BitVec 72) (s : State), s.glb.mode ≠ .off → s.debugOn 0x22 = true →
    let d := dr.toNat; let k := d / 2 ^ 71 % 2; let i := d / 2 ^ 68 % 8; let kind := d / 2 ^ 66 % 4; let mask := d / 2 ^ 62 % 16
    let good : Prop := (i ≤ 3 ∧ kind ≤ 1) ∨ ((i = 4 ∨ i = 5) ∧ mask ≤ 12)
    Says.ends (.coreBp dr) s (fun t => (good → tget (t.find.core k).bps i = some (kind, mask, d % 2 ^ 32)) ∧ (¬ good → t.find.core k = s.find.core k) ∧
      t.find.ir = 0x22)) ∧
  (∀ (core : Fin 2) (watch : Bool) (pc : BitVec 32) (s : State), let c := s.find.core core.val
    (c.halted = false → c.armed watch pc.toNat = true → exec (.breakpointHit core watch pc) s =
      .next (modCore core.val (fun x => x.halt (if watch then 3 else 2) pc.toNat) s)) ∧
    (c.halted = true ∨ c.armed watch pc.toNat = false → exec (.breakpointHit core watch pc) s = .next s)) ∧
  (∀ (dr : BitVec 134) (out : WmOut) (s : State), s.glb.mode ≠ .off → s.debugOn 0x30 = true →
    let u := emit (.tdo 134 (s.find.data % 2 ^ 64 * 8 + s.find.status)) (loadIr 0x30 s)
    let n := if dr.toNat.testBit 131 then 8 else 4; let sp := dr.toNat / 2 ^ 127 % 16; let a := dr.toNat / 2 ^ 67 % 2 ^ 60
    let waits : Prop := (∃ h ∈ s.clk.held, h.master = .finder) ∨ (∃ j ∈ s.alm.queue ++ s.alm.waiting, j.src = .finder)
    (waits → exec (.sysbusRead dr out) s = .next (u.modFind (fun f => { f with status := 1 })) ∧
      exec (.sysbusWrite dr) s = .next (u.modFind (fun f => { f with status := 1 }))) ∧
    (¬ waits → exec (.sysbusRead dr out) s = .next (sysAccess sp a n none out u) ∧
      exec (.sysbusWrite dr) s = .next (sysAccess sp a n (some (dr.toNat / 8 % 2 ^ (8 * n))) .clean u))) ∧
  (∀ (sp a n : Nat) (wr : Option Nat) (out : WmOut) (s : State), let c := if wr.isSome then 1 else 0
    let ends (st v : Nat) (t : State) : State := t.modFind (fun f => { f with status := st, data := v })
    let scope := s.get F.LCS_FINDER_SCOPE; let top : Prop := s.get F.WMEM_CFG_TOTAL_GIB * 2 ^ 30 ≤ a + 16384
    (4 < sp ∨ a % n ≠ 0 → sysAccess sp a n wr out s = ends 2 0 s) ∧
    (sp ≤ 4 → a % n = 0 → scope.testBit (if sp = 0 then 2 else 1) = false → sysAccess sp a n wr out s = ends 5 0 s) ∧
    (a % n = 0 → scope.testBit 2 = true → top → sysAccess 0 a n wr out s = ends 2 0 s) ∧
    (a % n = 0 → scope.testBit 2 = true → ¬ top → s.clkRuns (34 + wmChan a) = false → Says.heldFor (34 + wmChan a) (a + 2 ^ 63) n wr 3 s (sysAccess 0 a n wr out s)) ∧
    (a % n = 0 → scope.testBit 2 = true → ¬ top → s.clkRuns (34 + wmChan a) = true → s.accMay .finder c = false →
      Says.heldFor domCredit (a + 2 ^ 63) n wr 1 s (sysAccess 0 a n wr out s)) ∧
    (a % n = 0 → scope.testBit 2 = true → ¬ top → s.clkRuns (34 + wmChan a) = true → s.accMay .finder c = true →
      sysAccess 0 a n wr out s = wmFinder a n wr out s) ∧
    (∀ d, a % n = 0 → scope.testBit 1 = true → s.heldOn .finder c a = some d →
      Says.heldFor d a n wr (if d = domCredit then 1 else 3) s (sysAccess 1 a n wr out s)) ∧
    (∀ v, a % n = 0 → scope.testBit 1 = true → s.heldOn .finder 1 a = none →
      sysAccess 1 a n (some v) out s = domeAfter (ends 0 0 (bar0Write .finder a n v (mchWake a s)))) ∧
    (a % n = 0 → scope.testBit 1 = true → s.heldOn .finder 0 a = none →
      sysAccess 1 a n none out s = ends 0 (bar0Read .finder a n (mchWake a s)).1 (bar0Read .finder a n (mchWake a s)).2) ∧
    (∀ k, k < 2 → a % n = 0 → scope.testBit 1 = true → sysAccess (2 + k) a n wr out s = coreMem k a n wr s) ∧
    (a % n = 0 → scope.testBit 1 = true → wr.isSome ∨ 2 ^ 18 ≤ a → sysAccess 4 a n wr out s = ends 2 0 s) ∧
    (a % n = 0 → scope.testBit 1 = true → a < 2 ^ 18 → sysAccess 4 a n none out s = almEnqueue ⟨.finder, false, a, n, [], 0⟩ (ends 1 0 s)))
end

