-- ==== Sys2Proof/Laws/Tbl.lean ====
section
/-! SUPPORT. Sparse tables: reads after writes, and that every operation keeps the canonical form. -/

namespace Sys2Proof.Machine

variable {α : Type}

@[simp] theorem tget_tset_self (t : Tbl α) (k : Nat) (v : α) : tget (tset t k v) k = some v := by
  induction t with
  | nil => simp [tset, tget]
  | cons p t ih =>
    obtain ⟨a, w⟩ := p
    unfold tset
    split
    · simp [tget]
    · split
      · rename_i h; simp [tget, h]
      · rename_i h; simp [tget, h, ih]

theorem tget_tset_ne (t : Tbl α) {k j : Nat} (v : α) (h : j ≠ k) : tget (tset t k v) j = tget t j := by
  induction t with
  | nil => simp [tset, tget, h]
  | cons p t ih =>
    obtain ⟨a, w⟩ := p
    unfold tset
    split
    · simp [tget, h]
    · split
      · rename_i h2; subst h2; simp [tget, h]
      · simp [tget, ih]

@[simp] theorem tget_terase_self (t : Tbl α) (k : Nat) : tget (terase t k) k = none := by
  induction t with
  | nil => rfl
  | cons p t ih =>
    obtain ⟨a, w⟩ := p
    unfold terase
    split
    · exact ih
    · rename_i h; simp [tget, h, ih]

theorem tget_terase_ne (t : Tbl α) {k j : Nat} (h : j ≠ k) : tget (terase t k) j = tget t j := by
  induction t with
  | nil => rfl
  | cons p t ih =>
    obtain ⟨a, w⟩ := p
    unfold terase
    split
    · rename_i h2; subst h2; simp [tget, h, ih]
    · simp [tget, ih]

@[simp] theorem tgetD_tput_self [DecidableEq α] (d : α) (t : Tbl α) (k : Nat) (v : α) : tgetD d (tput d t k v) k = v := by
  unfold tput tgetD
  split
  · rename_i h; simp [h]
  · simp

theorem tgetD_tput_ne [DecidableEq α] {d : α} (e : α) (t : Tbl α) {k j : Nat} (v : α) (h : j ≠ k) : tgetD e (tput d t k v) j = tgetD e t j := by
  unfold tput tgetD
  split
  · rw [tget_terase_ne t h]
  · rw [tget_tset_ne t v h]

/-! ### The canonical form -/

theorem tsortedFrom_mono {t : Tbl α} {m n : Nat} (h : m ≤ n) (ht : tsortedFrom n t = true) : tsortedFrom m t = true := by
  cases t with
  | nil => rfl
  | cons p t =>
    simp only [tsortedFrom, Bool.and_eq_true, decide_eq_true_eq] at ht ⊢
    exact ⟨by omega, ht.2⟩

theorem tsortedFrom_tset {t : Tbl α} {n k : Nat} (v : α) (hk : n ≤ k) (ht : tsortedFrom n t = true) : tsortedFrom n (tset t k v) = true := by
  induction t generalizing n with
  | nil => simp [tset, tsortedFrom, hk]
  | cons p t ih =>
    obtain ⟨a, w⟩ := p
    simp only [tsortedFrom, Bool.and_eq_true, decide_eq_true_eq] at ht
    unfold tset
    split
    · rename_i h
      simp only [tsortedFrom, Bool.and_eq_true, decide_eq_true_eq]
      exact ⟨hk, by omega, ht.2⟩
    · split
      · rename_i h
        subst h
        simp only [tsortedFrom, Bool.and_eq_true, decide_eq_true_eq]
        exact ht
      · simp only [tsortedFrom, Bool.and_eq_true, decide_eq_true_eq]
        exact ⟨ht.1, ih (by omega) ht.2⟩

theorem tsortedFrom_filter {t : Tbl α} {n : Nat} (f : Nat × α → Bool) (ht : tsortedFrom n t = true) : tsortedFrom n (t.filter f) = true := by
  induction t generalizing n with
  | nil => rfl
  | cons p t ih =>
    simp only [tsortedFrom, Bool.and_eq_true, decide_eq_true_eq] at ht
    rw [List.filter_cons]
    split
    · simp only [tsortedFrom, Bool.and_eq_true, decide_eq_true_eq]
      exact ⟨ht.1, ih ht.2⟩
    · exact tsortedFrom_mono (by omega) (ih ht.2)

theorem tsortedFrom_terase {t : Tbl α} {n : Nat} (k : Nat) (ht : tsortedFrom n t = true) : tsortedFrom n (terase t k) = true := by
  induction t generalizing n with
  | nil => rfl
  | cons p t ih =>
    obtain ⟨a, w⟩ := p
    simp only [tsortedFrom, Bool.and_eq_true, decide_eq_true_eq] at ht
    unfold terase
    split
    · exact tsortedFrom_mono (by omega) (ih ht.2)
    · simp only [tsortedFrom, Bool.and_eq_true, decide_eq_true_eq]
      exact ⟨ht.1, ih ht.2⟩

theorem tsortedFrom_tput [DecidableEq α] {t : Tbl α} (d : α) (k : Nat) (v : α) (ht : tsortedFrom 0 t = true) :
    tsortedFrom 0 (tput d t k v) = true := by
  unfold tput
  split
  · exact tsortedFrom_terase k ht
  · exact tsortedFrom_tset v (Nat.zero_le k) ht

theorem mem_tset {t : Tbl α} {k : Nat} {v : α} {p : Nat × α} (h : p ∈ tset t k v) : p = (k, v) ∨ p ∈ t := by
  induction t with
  | nil => simpa [tset] using h
  | cons q t ih =>
    obtain ⟨a, w⟩ := q
    unfold tset at h
    split at h
    · simpa using h
    · split at h
      · simp only [List.mem_cons] at h ⊢
        rcases h with h | h
        · exact .inl h
        · exact .inr (.inr h)
      · simp only [List.mem_cons] at h ⊢
        rcases h with h | h
        · exact .inr (.inl h)
        · rcases ih h with h | h
          · exact .inl h
          · exact .inr (.inr h)

theorem mem_terase {t : Tbl α} {k : Nat} {p : Nat × α} (h : p ∈ terase t k) : p ∈ t := by
  induction t with
  | nil => exact h
  | cons q t ih =>
    obtain ⟨a, w⟩ := q
    unfold terase at h
    split at h
    · exact List.mem_cons_of_mem _ (ih h)
    · simp only [List.mem_cons] at h ⊢
      rcases h with h | h
      · exact .inl h
      · exact .inr (ih h)

theorem twf_tput [DecidableEq α] {d : α} {t : Tbl α} (k : Nat) (v : α) (ht : twf d t = true) : twf d (tput d t k v) = true := by
  simp only [twf, Bool.and_eq_true, List.all_eq_true, decide_eq_true_eq] at ht ⊢
  refine ⟨tsortedFrom_tput d k v ht.1, fun p hp => ?_⟩
  unfold tput at hp
  split at hp
  · exact ht.2 p (mem_terase hp)
  · rcases mem_tset hp with h | h
    · subst h; assumption
    · exact ht.2 p h

theorem twf_tmod [DecidableEq α] {d : α} {t : Tbl α} (f : α → α) (k : Nat) (ht : twf d t = true) : twf d (tmod d f t k) = true :=
  twf_tput k _ ht

theorem twf_filter [DecidableEq α] {d : α} {t : Tbl α} (f : Nat × α → Bool) (ht : twf d t = true) : twf d (t.filter f) = true := by
  simp only [twf, Bool.and_eq_true, List.all_eq_true, decide_eq_true_eq] at ht ⊢
  exact ⟨tsortedFrom_filter f ht.1, fun p hp => ht.2 p (List.mem_filter.mp hp).1⟩

theorem twf_terase [DecidableEq α] {d : α} {t : Tbl α} (k : Nat) (ht : twf d t = true) : twf d (terase t k) = true := by
  simp only [twf, Bool.and_eq_true, List.all_eq_true, decide_eq_true_eq] at ht ⊢
  exact ⟨tsortedFrom_terase k ht.1, fun p hp => ht.2 p (mem_terase hp)⟩

/-- A fold of updates that each keep the form. -/
theorem foldl_keeps {β γ : Type} {Q : γ → Prop} {f : γ → β → γ} {l : List β} {g : γ} (hf : ∀ g b, Q g → Q (f g b)) (h : Q g) :
    Q (l.foldl f g) := by
  induction l generalizing g with
  | nil => exact h
  | cons b l ih => exact ih (hf g b h)

end Sys2Proof.Machine
end

