-- ==== Sys2Proof/Laws/Kept.lean ====
section
/-! SUPPORT. Predicates of the state that every operation keeps, shown once: `Closed P` says that the primitive updates keep P;
Laws/Kept<File>.lean then has a lemma for every operation of Machine/<File>.lean. -/

namespace Sys2Proof.Machine

/-- The primitive updates keep P: P may speak of the register file, the almanac's bytes, the scratchpad, the OTP and the queue. The life-cycle state changes in three ways only: a transition of R399's table begins, ends without effect, or
blows its slot; fused and revoked bits are only added. Time passes in an idle step alone. -/
structure Closed (P : State → Prop) : Prop where
  setF : ∀ {f v s}, P s → P (setF f v s)
  regsDrop : ∀ {f s}, P s → P (s.modRegs (fun r => r.filter f))
  holds : ∀ {f s}, P s → P (s.modHolds f)
  glb : ∀ {f s}, P s → P (s.modGlb f)
  start : ∀ {f s}, P s → P (s.modStart f)
  log : ∀ {f s}, P s → P (s.modLog f)
  spec : ∀ {f s}, P s → P (s.modSpec f)
  clk : ∀ {f s}, P s → P (s.modClk f)
  alm : ∀ {f s}, (∀ a, twf 0#8 a.bytes = true → twf 0#8 (f a).bytes = true) → P s → P (s.modAlm f)
  find : ∀ {f s}, P s → P (s.modFind f)
  dome : ∀ {f s}, P s → P (s.modDome f)
  sbus : ∀ {f s}, P s → P (s.modSbus f)
  host : ∀ {f s}, P s → P (s.modHost f)
  xlat : ∀ {f s}, (∀ x, twf 0 x.scratch = true → twf 0 (f x).scratch = true) → P s → P (s.modXlat f)
  coal : ∀ {f s}, P s → P (s.modCoal f)
  med : ∀ {f s}, P s → P (s.modMed f)
  drift : ∀ {f s}, P s → P (s.modDrift f)
  fld : ∀ {f s}, P s → P (s.modFld f)
  dur : ∀ {f s}, P s → P (s.modDur f)
  wm : ∀ {f s}, P s → P (s.modWm f)
  ciph : ∀ {f s}, P s → P (s.modCiph f)
  regu : ∀ {f s}, P s → P (s.modRegu f)
  ledg : ∀ {f s}, P s → P (s.modLedg f)
  ring : ∀ {f s}, P s → P (s.modRing f)
  img : ∀ {f s}, P s → P (s.modImg f)
  outs : ∀ {o s}, P s → P (s.modOuts (o :: ·))
  freeCnt : ∀ {s}, P s → P (s.modFreeCnt (· + 1))
  lose : ∀ {s}, P s → P (loseCore s)
  lcsKeep : ∀ {f s}, (∀ l : LcsSt, (f l).slots = l.slots ∧ (f l).trans = l.trans ∧ (∃ m, (f l).fused = l.fused ||| m) ∧ ∃ m, (f l).revoked = l.revoked ||| m) → P s → P (s.modLcs f)
  lcsDrop : ∀ {s}, P s → P (s.modLcs (fun l => { l with trans := none }))
  lcsBegin : ∀ {t s}, lcAuth s.lcs.state t ≠ .never → s.lcs.slots.length < 8 → P s → P (s.modLcs (fun l => { l with trans := some t }))
  lcsBlow : ∀ {s}, P s → P (s.modLcs LcsSt.blow)

theorem ite_kept {P : State → Prop} {c : Prop} [Decidable c] {a b : State} (ha : P a) (hb : P b) : P (if c then a else b) := by
  split
  · exact ha
  · exact hb

theorem ite_kept2 {P : State → Prop} {A : Type} {c : Prop} [Decidable c] {a b : A × State} (ha : P a.2) (hb : P b.2) :
    P (if c then a else b).2 := by
  split
  · exact ha
  · exact hb

theorem ite_kept3 {P : State → Prop} {A B : Type} {c : Prop} [Decidable c] {a b : A × B × State} (ha : P a.2.2) (hb : P b.2.2) :
    P (if c then a else b).2.2 := by
  split
  · exact ha
  · exact hb

theorem ite_kept2E {P : State → Prop} {A : Type} {c : Prop} [Decidable c] {a b : A × State} {x : A} {t : State}
    (e : (if c then a else b) = (x, t)) (ha : P a.2) (hb : P b.2) : P t := by
  have := ite_kept2 (c := c) ha hb
  rw [e] at this
  exact this

theorem foldl_kept {P : State → Prop} {B : Type} {f : State → B → State} {l : List B} {s : State} (hf : ∀ t b, P t → P (f t b)) (h : P s) :
    P (l.foldl f s) :=
  foldl_keeps hf h

theorem foldl_kept2 {P : State → Prop} {A B : Type} {f : A × State → B → A × State} {l : List B} {p : A × State}
    (hf : ∀ p b, P p.2 → P (f p b).2) (h : P p.2) : P (l.foldl f p).2 :=
  foldl_keeps (Q := fun p => P p.2) (fun p b hp => hf p b hp) h

theorem foldl_kept2E {P : State → Prop} {A B : Type} {f : A × State → B → A × State} {l : List B} {p : A × State} {x : A} {t : State}
    (e : l.foldl f p = (x, t)) (hf : ∀ p b, P p.2 → P (f p b).2) (h : P p.2) : P t := by
  have := foldl_kept2 (l := l) hf h
  rw [e] at this
  exact this

end Sys2Proof.Machine
end

