-- ==== Sys2Proof/Laws/KeptOps.lean ====
section
/-! SUPPORT. What the operations of Machine/Ops.lean keep (Laws/Kept.lean). -/

namespace Sys2Proof.Machine

variable {P : State → Prop} (hP : Closed P) {s t : State}
include hP

theorem setB_kept (f : Fld) (b : Bool) (h : P s) : P (setB f b s) := by
  unfold setB
  repeat' (with_reducible first | assumption | apply hP.setF)

theorem incF_kept (f : Fld) (n : Nat) (h : P s) : P (incF f n s) := by
  unfold incF
  repeat' (with_reducible first | assumption | apply hP.setF)

omit hP in
theorem when_kept {b : Bool} {f : State → State} (hf : ∀ {t}, P t → P (f t)) (h : P s) : P (when b f s) := by
  unfold when; split
  · exact hf h
  · exact h

omit hP in
theorem seqAll_kept {α : Type} {f : α → State → State} {l : List α} (hf : ∀ a {t}, P t → P (f a t)) (h : P s) : P (seqAll f l s) := by
  induction l generalizing s with
  | nil => exact h
  | cons a l ih => exact ih (hf a h)

theorem emit_kept (o : Out) (h : P s) : P (emit o s) := by
  unfold emit
  repeat' (with_reducible first | assumption | apply hP.outs)

theorem msixSend_kept (view vector : Nat) (h : P s) : P (msixSend view vector s) := by
  unfold msixSend
  repeat' (first | (with_reducible first | assumption | apply hP.host | apply emit_kept hP | refine ite_kept ?_ ?_) | intro _ | split)

theorem raiseInt_kept (b : Nat) (h : P s) : P (raiseInt b s) := by
  unfold raiseInt
  repeat' (with_reducible first | assumption | apply hP.glb | apply msixSend_kept hP | refine ite_kept ?_ ?_)

theorem setErr_kept (f : Fld) (cause : Nat) (h : P s) : P (setErr f cause s) := by
  unfold setErr
  repeat' (with_reducible first | assumption | apply raiseInt_kept hP | apply hP.setF | refine ite_kept ?_ ?_)

theorem takeNat_kept  (h : P s) : P (takeNat s).2 := by
  unfold takeNat
  repeat' (with_reducible first | assumption | apply hP.freeCnt)

theorem takeNat_keptE  {x : Nat} {u : State} (e : takeNat s = (x, u)) (h : P s) : P u := by
  have := takeNat_kept hP  h
  rw [e] at this
  exact this

theorem takeLine_kept  (h : P s) : P (takeLine s).2 := by
  unfold takeLine
  repeat' (with_reducible first | assumption | apply hP.freeCnt)

theorem takeLine_keptE  {x : Line} {u : State} (e : takeLine s = (x, u)) (h : P s) : P u := by
  have := takeLine_kept hP  h
  rw [e] at this
  exact this

theorem logStore_kept (code source sev p0 p1 p2 p3 : Nat) (h : P s) : P (logStore code source sev p0 p1 p2 p3 s) := by
  unfold logStore
  repeat' (with_reducible first | assumption | apply hP.log | apply raiseInt_kept hP | refine ite_kept ?_ ?_)

theorem logLost_kept  (h : P s) : P (logLost s) := by
  unfold logLost
  repeat' (with_reducible first | assumption | apply logStore_kept hP | apply hP.log | refine ite_kept ?_ ?_)

theorem logFrom_kept (source sev code p0 p1 p2 p3 : Nat) (h : P s) : P (logFrom source sev code p0 p1 p2 p3 s) := by
  unfold logFrom
  repeat' (with_reducible first | assumption | apply logStore_kept hP | apply logLost_kept hP | refine ite_kept ?_ ?_)

theorem logPut_kept (sev code p0 p1 p2 p3 : Nat) (h : P s) : P (logPut sev code p0 p1 p2 p3 s) := by
  unfold logPut
  repeat' (with_reducible first | assumption | apply logFrom_kept hP)

theorem logOpen_kept (blk p0 p1 : Nat) (h : P s) : P (logOpen blk p0 p1 s) := by
  unfold logOpen
  repeat' (with_reducible first | assumption | apply takeNat_kept hP | apply takeNat_keptE hP  (by assumption) | apply logPut_kept hP)

theorem cnt_kept (blk idx n : Nat) (h : P s) : P (cnt blk idx n s) := by
  unfold cnt
  repeat' (with_reducible first | assumption | apply hP.spec)

theorem mboxDone_kept (view op rc : Nat) (out : List Nat) (h : P s) : P (mboxDone view op rc out s) := by
  unfold mboxDone
  repeat' (first | (with_reducible first | assumption | apply emit_kept hP | apply cnt_kept hP) | intro _)

theorem xLost_kept (f : Fld) (bit dom : Nat) (h : P s) : P (xLost f bit dom s) := by
  unfold xLost
  repeat' (with_reducible first | assumption | apply raiseInt_kept hP | apply hP.setF | apply logOpen_kept hP | apply hP.clk | refine ite_kept ?_ ?_)

end Sys2Proof.Machine
end

