-- ==== Sys2Proof/Laws/KeptRegFile.lean ====
section
/-! SUPPORT. What the operations of Machine/RegFile.lean keep (Laws/Kept.lean). -/

namespace Sys2Proof.Machine

variable {P : State → Prop} (hP : Closed P) {s t : State}
include hP

theorem writeFld_kept (f : Fld) (cover v : Nat) (s0 : State) (h : P s) : P (writeFld f cover v s0 s) := by
  unfold writeFld
  repeat' (first | (with_reducible first | assumption | apply hP.setF | refine ite_kept ?_ ?_) | intro _ | split)

theorem storeReg_kept (r : RegAt) (cover v : Nat) (h : P s) : P (storeReg r cover v s) := by
  unfold storeReg
  repeat' (first | (with_reducible first | assumption | apply seqAll_kept | apply writeFld_kept hP | refine ite_kept ?_ ?_) | intro _)

theorem clearRc_kept (r : RegAt) (lo hi : Nat) (h : P s) : P (clearRc r lo hi s) := by
  unfold clearRc
  repeat' (first | (with_reducible first | assumption | apply seqAll_kept | apply hP.setF | refine ite_kept ?_ ?_) | intro _)

theorem recPut_kept (r : RegRec) (h : P s) : P (recPut r s) := by
  unfold recPut
  repeat' (first | (with_reducible first | assumption | apply seqAll_kept | apply hP.setF | refine ite_kept ?_ ?_) | intro _ | split)

theorem dropHold_kept (m : Master) (off : Nat) (h : P s) : P (dropHold m off s) := by
  unfold dropHold
  repeat' (with_reducible first | assumption | apply hP.holds)

theorem putHold_kept (m : Master) (off v : Nat) (h : P s) : P (putHold m off v s) := by
  unfold putHold
  repeat' (with_reducible first | assumption | apply dropHold_kept hP | apply hP.holds)

end Sys2Proof.Machine
end

