-- ==== Sys2Proof/Laws/KeptStation.lean ====
section
/-! SUPPORT. What the operations of Machine/Station.lean keep (Laws/Kept.lean). -/

namespace Sys2Proof.Machine

variable {P : State → Prop} (hP : Closed P) {s t : State}
include hP

theorem snapStart_kept  (h : P s) : P (snapStart s) := by
  unfold snapStart
  repeat' (with_reducible first | assumption | apply hP.spec | refine ite_kept ?_ ?_)

theorem execSnapTimer_kept  {u : State} (e : execSnapTimer s = .next u) (h : P s) : P u := by
  unfold execSnapTimer at e
  injection e with e
  subst e
  repeat' (with_reducible first | assumption | apply snapStart_kept hP | refine ite_kept ?_ ?_)

theorem snapGo_kept (v : Nat) (h : P s) : P (snapGo v s) := by
  unfold snapGo
  repeat' (with_reducible first | assumption | apply snapStart_kept hP | refine ite_kept ?_ ?_)

theorem execSnapGo_kept (_m : Master) (v : BitVec 32) {u : State} (e : execSnapGo _m v s = .next u) (h : P s) : P u := by
  unfold execSnapGo at e
  injection e with e
  subst e
  repeat' (with_reducible first | assumption | apply snapGo_kept hP)

theorem snapPublish_kept  (h : P s) : P (snapPublish s) := by
  unfold snapPublish
  repeat' (with_reducible first | assumption | apply hP.spec | refine ite_kept ?_ ?_)

theorem execSnapPublish_kept  {u : State} (e : execSnapPublish s = .next u) (h : P s) : P u := by
  unfold execSnapPublish at e
  injection e with e
  subst e
  repeat' (with_reducible first | assumption | apply snapPublish_kept hP)

theorem chainWrite_kept (b v : Nat) (h : P s) : P (chainWrite b v s) := by
  unfold chainWrite
  repeat' (with_reducible first | assumption | apply hP.spec)

theorem execChainWrite_kept (_m : Master) (b : Fin 128) (v : BitVec 32) {u : State} (e : execChainWrite _m b v s = .next u) (h : P s) : P u := by
  unfold execChainWrite at e
  injection e with e
  subst e
  repeat' (with_reducible first | assumption | apply chainWrite_kept hP)

theorem logPutWrite_kept (m : Master) (v : Nat) (full : Bool) (h : P s) : P (logPutWrite m v full s) := by
  unfold logPutWrite
  repeat' (with_reducible first | assumption | apply hP.log | apply logFrom_kept hP | refine ite_kept ?_ ?_)

theorem execLogPut_kept (m : Master) (v : Word) (full : Bool) {u : State} (e : execLogPut m v full s = .next u) (h : P s) : P u := by
  unfold execLogPut at e
  injection e with e
  subst e
  repeat' (with_reducible first | assumption | apply logPutWrite_kept hP)

theorem logWin0Read_kept  (h : P s) : P (logWin0Read s) := by
  unfold logWin0Read
  repeat' (with_reducible first | assumption | apply hP.log)

theorem execLogWin0Read_kept (m : Master) {u : State} (e : execLogWin0Read m s = .next u) (h : P s) : P u := by
  unfold execLogWin0Read at e
  injection e with e
  subst e
  repeat' (with_reducible first | assumption | apply logWin0Read_kept hP | apply emit_kept hP)

theorem logWin3Read_kept  (h : P s) : P (logWin3Read s) := by
  unfold logWin3Read
  repeat' (first | (with_reducible first | assumption | apply hP.setF | refine ite_kept ?_ ?_) | intro _ | split)

theorem execLogWin3Read_kept (m : Master) {u : State} (e : execLogWin3Read m s = .next u) (h : P s) : P u := by
  unfold execLogWin3Read at e
  injection e with e
  subst e
  repeat' (with_reducible first | assumption | apply emit_kept hP | apply logWin3Read_kept hP)

end Sys2Proof.Machine
end

