-- ==== Sys2Proof/Laws/KeptClocks.lean ====
section
/-! SUPPORT. What the operations of Machine/Clocks.lean keep (Laws/Kept.lean). -/

namespace Sys2Proof.Machine

variable {P : State → Prop} (hP : Closed P) {s t : State}
include hP

theorem ephCycle_kept (hn : ∀ {t}, P t → P (t.modNow (· + 10))) (h : P s) : P (ephCycle s) := hn (hP.clk h)

theorem todStep_kept (v src : Nat) (h : P s) : P (todStep v src s) := by
  unfold todStep
  repeat' (with_reducible first | assumption | apply hP.clk | apply hP.setF | apply incF_kept hP | apply setErr_kept hP | apply logPut_kept hP)

theorem todSet_kept (m : Master) (wide : Bool) (v : Nat) (h : P s) : P (todSet m wide v s) := by
  unfold todSet
  repeat' (with_reducible first | assumption | apply dropHold_kept hP | apply hP.setF | apply todStep_kept hP)

theorem execTodSet_kept (m : Master) (wide : Bool) (v : Word) {u : State} (e : execTodSet m wide v s = .next u) (h : P s) : P u := by
  unfold execTodSet at e
  injection e with e
  subst e
  repeat' (with_reducible first | assumption | apply todSet_kept hP)

theorem todLowRead_kept (m : Master) (h : P s) : P (todLowRead m s) := by
  unfold todLowRead
  repeat' (with_reducible first | assumption | apply hP.clk)

theorem execTodLowRead_kept (m : Master) {u : State} (e : execTodLowRead m s = .next u) (h : P s) : P u := by
  unfold execTodLowRead at e
  injection e with e
  subst e
  repeat' (with_reducible first | assumption | apply emit_kept hP | apply todLowRead_kept hP)

theorem todHighRead_kept (m : Master) (h : P s) : P (todHighRead m s) := by
  unfold todHighRead
  repeat' (first | (with_reducible first | assumption | apply hP.clk) | intro _)

theorem todRecord_kept  (h : P s) : P (todRecord s) := by
  unfold todRecord
  repeat' (with_reducible first | assumption | apply hP.clk)

theorem todRestore_kept (restore : Bool) (h : P s) : P (todRestore restore s) := by
  unfold todRestore
  repeat' (with_reducible first | assumption | apply hP.clk | apply hP.setF | refine ite_kept ?_ ?_)

theorem recQualified_kept (ofs : Nat) (h : P s) : P (recQualified ofs s) := by
  unfold recQualified
  repeat' (with_reducible first | assumption | apply hP.setF | refine ite_kept ?_ ?_)

theorem execRecQualified_kept (ofs : BitVec 16) {u : State} (e : execRecQualified ofs s = .next u) (h : P s) : P u := by
  unfold execRecQualified at e
  injection e with e
  subst e
  repeat' (with_reducible first | assumption | apply recQualified_kept hP)

theorem recDisqualified_kept (ssc : Bool) (h : P s) : P (recDisqualified ssc s) := by
  unfold recDisqualified
  repeat' (first | (with_reducible first | assumption | apply hP.setF | apply when_kept | apply setErr_kept hP | refine ite_kept ?_ ?_) | intro _)

theorem execRecDisqualified_kept (ssc : Bool) {u : State} (e : execRecDisqualified ssc s = .next u) (h : P s) : P u := by
  unfold execRecDisqualified at e
  injection e with e
  subst e
  repeat' (with_reducible first | assumption | apply recDisqualified_kept hP)

theorem dpllToXtal_kept  (h : P s) : P (dpllToXtal s) := by
  unfold dpllToXtal
  repeat' (with_reducible first | assumption | apply hP.setF | refine ite_kept ?_ ?_)

theorem execHoldoverExpiry_kept  {u : State} (e : execHoldoverExpiry s = .next u) (h : P s) : P u := by
  unfold execHoldoverExpiry at e
  injection e with e
  subst e
  repeat' (with_reducible first | assumption | apply dpllToXtal_kept hP | refine ite_kept ?_ ?_)

theorem recDisable_kept  (h : P s) : P (recDisable s) := by
  unfold recDisable
  repeat' (with_reducible first | assumption | apply hP.setF | apply dpllToXtal_kept hP | refine ite_kept ?_ ?_)

theorem execSlewDone_kept  {u : State} (e : execSlewDone s = .next u) (h : P s) : P u := by
  unfold execSlewDone at e
  injection e with e
  subst e
  repeat' (with_reducible first | assumption | apply hP.setF)

theorem pllStop_kept (d : Nat) (h : P s) : P (pllStop d s) := by
  unfold pllStop
  repeat' (first | (with_reducible first | assumption | apply when_kept | apply logOpen_kept hP | apply setErr_kept hP) | intro _)

theorem chronoGo_kept (v : Nat) (h : P s) : P (chronoGo v s) := by
  unfold chronoGo
  repeat' (with_reducible first | assumption | apply hP.setF | refine ite_kept ?_ ?_)

theorem storeAt_kept (off v : Nat) (h : P s) : P (storeAt off v s) := by
  unfold storeAt
  repeat' (first | (with_reducible first | assumption | apply storeReg_kept hP) | intro _ | split)

theorem execChrono_kept (_m : Master) (v : BitVec 32) {u : State} (e : execChrono _m v s = .next u) (h : P s) : P u := by
  unfold execChrono at e
  injection e with e
  subst e
  repeat' (with_reducible first | assumption | apply storeAt_kept hP | apply chronoGo_kept hP)

theorem chronoEnd_kept (count : Nat) (dead : Bool) (h : P s) : P (chronoEnd count dead s) := by
  unfold chronoEnd
  repeat' (with_reducible first | assumption | apply hP.setF | apply setB_kept hP | refine ite_kept ?_ ?_)

theorem execChronoGateEnd_kept (count : Nat) {u : State} (e : execChronoGateEnd count s = .next u) (h : P s) : P u := by
  unfold execChronoGateEnd at e
  injection e with e
  subst e
  repeat' (with_reducible first | assumption | apply chronoEnd_kept hP)

theorem execChronoRefDead_kept (count : Nat) {u : State} (e : execChronoRefDead count s = .next u) (h : P s) : P u := by
  unfold execChronoRefDead at e
  injection e with e
  subst e
  repeat' (with_reducible first | assumption | apply chronoEnd_kept hP)

end Sys2Proof.Machine
end

