-- ==== Sys2Proof/Laws/KeptWmem.lean ====
section
/-! SUPPORT. What the operations of Machine/Wmem.lean keep (Laws/Kept.lean). -/

namespace Sys2Proof.Machine

variable {P : State → Prop} (hP : Closed P) {s t : State}
include hP

theorem ceRecord_kept (loc : WmLoc) (h : P s) : P (ceRecord loc s) := by
  unfold ceRecord
  repeat' (first | (with_reducible first | assumption | apply incF_kept hP | apply cnt_kept hP | apply hP.wm | apply setErr_kept hP | apply logOpen_kept hP | refine ite_kept ?_ ?_) | intro _ | extract_lets | split)

theorem wmUe_kept (loc : WmLoc) (h : P s) : P (wmUe loc s) := by
  unfold wmUe
  repeat' (with_reducible first | assumption | apply hP.wm | apply setErr_kept hP | apply incF_kept hP | apply hP.setF | apply cnt_kept hP | apply logPut_kept hP)

theorem wmDecode_kept (line : Nat) (o : WmOut) (h : P s) : P (wmDecode line o s).2 := by
  unfold wmDecode
  repeat' (first | (with_reducible first | assumption | apply ceRecord_kept hP | apply wmUe_kept hP) | intro _ | split)

theorem wmDecode_keptE (line : Nat) (o : WmOut) {x : Bool} {u : State} (e : wmDecode line o s = (x, u)) (h : P s) : P u := by
  have := wmDecode_kept hP line o h
  rw [e] at this
  exact this

theorem ceClear_kept (c v : Nat) (h : P s) : P (ceClear c v s) := by
  unfold ceClear
  repeat' (with_reducible first | assumption | apply hP.wm | refine ite_kept ?_ ?_)

theorem execCeTableClear_kept (_m : Master) (c : Fin 4) (v : BitVec 32) {u : State} (e : execCeTableClear _m c v s = .next u) (h : P s) : P u := by
  unfold execCeTableClear at e
  injection e with e
  subst e
  repeat' (with_reducible first | assumption | apply storeAt_kept hP | apply ceClear_kept hP)

theorem mediaErr_kept (pfa leaf step bits : Nat) (h : P s) : P (mediaErr pfa leaf step bits s) := by
  unfold mediaErr
  repeat' (first | (with_reducible first | assumption | apply hP.wm | apply hP.setF | apply incF_kept hP | refine ite_kept ?_ ?_) | intro _ | extract_lets | split)

theorem mediaClear_kept (v : Nat) (h : P s) : P (mediaClear v s) := by
  unfold mediaClear
  repeat' (with_reducible first | assumption | apply hP.wm | apply hP.setF | refine ite_kept ?_ ?_)

theorem execMediaTableClear_kept (_m : Master) (v : BitVec 32) {u : State} (e : execMediaTableClear _m v s = .next u) (h : P s) : P u := by
  unfold execMediaTableClear at e
  injection e with e
  subst e
  repeat' (with_reducible first | assumption | apply storeAt_kept hP | apply mediaClear_kept hP)

theorem setCtr_kept (level idx : Nat) (l : Nat × Tbl Nat) (h : P s) : P (setCtr level idx l s) := by
  unfold setCtr
  repeat' (with_reducible first | assumption | apply hP.ciph)

theorem meridKeys_kept  (h : P s) : P (meridKeys s) := by
  unfold meridKeys
  repeat' (first | (with_reducible first | assumption | apply takeNat_kept hP | apply takeNat_keptE hP  (by assumption) | apply hP.ciph) | intro _ | extract_lets | split)

theorem meridWrap_kept  (h : P s) : P (meridWrap s) := by
  unfold meridWrap
  repeat' (with_reducible first | assumption | apply setErr_kept hP | apply hP.setF | apply logOpen_kept hP | apply meridKeys_kept hP)

theorem ctrBump_kept (level idx j : Nat) (h : P s) : P (ctrBump level idx j s) := by
  unfold ctrBump
  repeat' (with_reducible first | assumption | apply setCtr_kept hP | apply meridWrap_kept hP | apply incF_kept hP | apply hP.setF | apply cnt_kept hP | refine ite_kept ?_ ?_)

theorem putCcSet_kept (n : Nat) (c : CcSet) (h : P s) : P (putCcSet n c s) := by
  unfold putCcSet
  repeat' (first | (with_reducible first | assumption | apply hP.ciph) | intro _)

theorem metaWriteback_kept (n : Nat) (h : P s) : P (metaWriteback n s).2 := by
  unfold metaWriteback
  repeat' (first | (with_reducible first | assumption | apply cnt_kept hP | apply ctrBump_kept hP | refine ite_kept2 ?_ ?_ | refine ite_kept ?_ ?_) | intro _ | extract_lets | split)

theorem metaWriteback_keptE (n : Nat) {x : List (Nat × Bool)} {u : State} (e : metaWriteback n s = (x, u)) (h : P s) : P u := by
  have := metaWriteback_kept hP n h
  rw [e] at this
  exact this

theorem metaUse_kept (n : Nat) (dirty : Bool) (h : P s) : P (metaUse n dirty s).2 := by
  unfold metaUse
  repeat' (first | (with_reducible first | assumption | apply putCcSet_kept hP | apply incF_kept hP | apply cnt_kept hP | apply metaWriteback_kept hP | apply metaWriteback_keptE hP _ (by assumption) | refine ite_kept2 ?_ ?_ | refine ite_kept ?_ ?_) | intro _ | extract_lets | split)

theorem metaUse_keptE (n : Nat) (dirty : Bool) {x : List (Nat × Bool)} {u : State} (e : metaUse n dirty s = (x, u)) (h : P s) : P u := by
  have := metaUse_kept hP n dirty h
  rw [e] at this
  exact this

theorem metaRun_kept (n : Nat) (l : List (Nat × Bool)) (h : P s) : P (metaRun n l s) := by
  induction n generalizing l s with
  | zero => cases l <;> exact h
  | succ n ih =>
    cases l with
    | nil => exact h
    | cons p t => exact ih _ (metaUse_kept hP _ _ h)

theorem metaClean_kept (n : Nat) (h : P s) : P (metaClean n s) := by
  unfold metaClean
  repeat' (first | (with_reducible first | assumption | apply metaWriteback_kept hP | apply metaWriteback_keptE hP _ (by assumption) | apply putCcSet_kept hP | apply metaRun_kept hP | refine ite_kept ?_ ?_) | intro _ | extract_lets | split | (rename_i x; clear_value x; split) | (dsimp +zetaDelta only; split) | with_reducible refine ite_kept2E (by assumption) ?_ ?_ | (have e := ‹Option.map _ _ = some _›; simp only [Option.map_eq_some_iff, Prod.mk.injEq] at e; obtain ⟨_, _, _, e⟩ := e; subst e))

theorem metaFlush_kept  (h : P s) : P (metaFlush s) := by
  unfold metaFlush
  repeat' (first | (with_reducible first | assumption | apply seqAll_kept | apply metaClean_kept hP) | intro _ | extract_lets)

theorem lineMeta_kept (line : Nat) (wr : Bool) (h : P s) : P (lineMeta line wr s) := by
  unfold lineMeta
  repeat' (first | (with_reducible first | assumption | apply when_kept | apply ctrBump_kept hP | apply metaRun_kept hP | refine ite_kept ?_ ?_) | intro _ | extract_lets | split | (rename_i x; clear_value x; split) | (dsimp +zetaDelta only; split) | with_reducible refine ite_kept2E (by assumption) ?_ ?_ | (have e := ‹Option.map _ _ = some _›; simp only [Option.map_eq_some_iff, Prod.mk.injEq] at e; obtain ⟨_, _, _, e⟩ := e; subst e))

theorem wmLineWritten_kept (line : Nat) (h : P s) : P (wmLineWritten line s) := by
  unfold wmLineWritten
  repeat' (with_reducible first | assumption | apply cnt_kept hP | apply lineMeta_kept hP)

theorem unmark_kept (line : Nat) (h : P s) : P (unmark line s) := by
  unfold unmark
  repeat' (first | (with_reducible first | assumption | apply hP.wm) | intro _)

theorem wmLineRead_kept (line : Nat) (h : P s) : P (wmLineRead line s) := by
  unfold wmLineRead
  repeat' (first | (with_reducible first | assumption | apply cnt_kept hP | apply lineMeta_kept hP) | intro _)

theorem rekeyDone_kept  (h : P s) : P (rekeyDone s) := by
  unfold rekeyDone
  repeat' (with_reducible first | assumption | apply hP.ciph | apply hP.setF | refine ite_kept ?_ ?_)

theorem wmStoreBytes_kept (line mask : Nat) (bytes : Tbl Nat) (h : P s) : P (wmStoreBytes line mask bytes s) := by
  unfold wmStoreBytes
  repeat' (first | (with_reducible first | assumption | apply hP.wm) | (rename_i x; clear_value x; split) | (dsimp +zetaDelta only; split) | with_reducible refine ite_kept2E (by assumption) ?_ ?_ | (have e := ‹Option.map _ _ = some _›; simp only [Option.map_eq_some_iff, Prod.mk.injEq] at e; obtain ⟨_, _, _, e⟩ := e; subst e))

theorem mergeFlush_kept (e : MergeEnt) (out : WmOut) (h : P s) : P (mergeFlush e out s) := by
  unfold mergeFlush
  repeat' (with_reducible first | assumption | apply hP.wm | apply wmStoreBytes_kept hP | apply incF_kept hP | apply unmark_kept hP | apply wmLineWritten_kept hP | apply wmDecode_kept hP | apply wmDecode_keptE hP _ _ (by assumption) | apply wmLineRead_kept hP | apply cnt_kept hP | apply setErr_kept hP | refine ite_kept ?_ ?_)

theorem mergeFlushAll_kept  (h : P s) : P (mergeFlushAll s) := by
  unfold mergeFlushAll
  repeat' (first | (with_reducible first | assumption | apply seqAll_kept | apply mergeFlush_kept hP) | intro _)

theorem wmNarrow_kept (line mask : Nat) (bytes : Tbl Nat) (h : P s) : P (wmNarrow line mask bytes s) := by
  unfold wmNarrow
  repeat' (first | (with_reducible first | assumption | apply mergeFlush_kept hP | apply hP.wm | refine foldl_kept2 ?_ ?_ | refine foldl_kept2E (by assumption) ?_ ?_ | refine foldl_kept ?_ ?_ | refine ite_kept ?_ ?_) | intro _ | extract_lets | split)

theorem execMergeHoldExpire_kept (out : WmOut) {u : State} (e : execMergeHoldExpire out s = .next u) (h : P s) : P u := by
  unfold execMergeHoldExpire at e
  injection e with e
  subst e
  repeat' (first | (with_reducible first | assumption | apply mergeFlush_kept hP) | intro _ | split)

theorem flushFor_kept (line : Nat) (h : P s) : P (flushFor line s) := by
  unfold flushFor
  repeat' (first | (with_reducible first | assumption | apply mergeFlush_kept hP) | intro _ | split)

theorem flushLines_kept (lines : List Nat) (h : P s) : P (flushLines lines s) := by
  unfold flushLines
  repeat' (first | (with_reducible first | assumption | apply seqAll_kept | apply flushFor_kept hP) | intro _)

theorem wmRead_kept (line : Nat) (h : P s) : P (wmRead line s) := by
  unfold wmRead
  repeat' (first | (with_reducible first | assumption | apply wmLineRead_kept hP | apply flushFor_kept hP) | intro _)

theorem wmWriteBytes_kept (a n v : Nat) (h : P s) : P (wmWriteBytes a n v s) := by
  unfold wmWriteBytes
  repeat' (first | (with_reducible first | assumption | apply wmNarrow_kept hP | refine foldl_kept2 ?_ ?_ | refine foldl_kept2E (by assumption) ?_ ?_ | refine foldl_kept ?_ ?_) | intro _)

theorem stageWrite_kept (tok : Nat) (ls : List Nat) (h : P s) : P (stageWrite tok ls s) := by
  unfold stageWrite
  repeat' (first | (with_reducible first | assumption | apply seqAll_kept | apply wmLineWritten_kept hP) | intro _)

theorem stageRead_kept (tok : Nat) (h : P s) : P (stageRead tok s) := by
  unfold stageRead
  repeat' (first | (with_reducible first | assumption | apply seqAll_kept | apply wmLineRead_kept hP) | intro _)

theorem holdTouch_kept (slot member : Nat) (h : P s) : P (holdTouch slot member s) := by
  unfold holdTouch
  repeat' (first | (with_reducible first | assumption | apply seqAll_kept | apply wmLineWritten_kept hP | apply wmLineRead_kept hP) | intro _ | extract_lets)

theorem execMr4Poll_kept (rates : List (Nat × Nat × Bool)) {u : State} (e : execMr4Poll rates s = .next u) (h : P s) : P u := by
  unfold execMr4Poll at e
  injection e with e
  subst e
  repeat' (with_reducible first | assumption | apply hP.wm)

theorem scrubAdvance_kept  (h : P s) : P (scrubAdvance s) := by
  unfold scrubAdvance
  repeat' (with_reducible first | assumption | apply hP.setF | refine ite_kept ?_ ?_)

theorem patrolScrub_kept (out : WmOut) (h : P s) : P (patrolScrub out s) := by
  unfold patrolScrub
  repeat' (with_reducible first | assumption | apply scrubAdvance_kept hP | apply wmDecode_kept hP | apply wmDecode_keptE hP _ _ (by assumption) | apply cnt_kept hP | apply setErr_kept hP | refine ite_kept ?_ ?_)

theorem execPatrolScrub_kept (out : WmOut) {u : State} (e : execPatrolScrub out s = .next u) (h : P s) : P u := by
  unfold execPatrolScrub at e
  injection e with e
  subst e
  repeat' (with_reducible first | assumption | apply patrolScrub_kept hP)

theorem testWrite_kept (c : Nat) (h : P s) : P (testWrite c s) := by
  unfold testWrite
  repeat' (with_reducible first | assumption | apply hP.wm)

theorem testRead_kept (c : Nat) (h : P s) : P (testRead c s) := by
  unfold testRead
  repeat' (first | (with_reducible first | assumption | apply seqAll_kept | apply hP.setF | refine ite_kept ?_ ?_) | intro _)

theorem testCtl_kept (c v : Nat) (h : P s) : P (testCtl c v s) := by
  unfold testCtl
  repeat' (first | (with_reducible first | assumption | apply storeAt_kept hP | apply hP.setF | apply testWrite_kept hP | apply testRead_kept hP | refine ite_kept ?_ ?_) | intro _ | extract_lets | split)

theorem execTestWrite_kept (_m : Master) (c : Fin 4) (v : BitVec 32) {u : State} (e : execTestWrite _m c v s = .next u) (h : P s) : P u := by
  unfold execTestWrite at e
  injection e with e
  subst e
  repeat' (with_reducible first | assumption | apply testCtl_kept hP)

theorem execTestRead_kept (_m : Master) (c : Fin 4) (v : BitVec 32) {u : State} (e : execTestRead _m c v s = .next u) (h : P s) : P u := by
  unfold execTestRead at e
  injection e with e
  subst e
  repeat' (with_reducible first | assumption | apply testCtl_kept hP)

end Sys2Proof.Machine
end

