-- ==== Sys2Proof/Laws/KeptGeom.lean ====
section
/-! SUPPORT. What the operations of Machine/Geom.lean keep (Laws/Kept.lean). -/

namespace Sys2Proof.Machine

variable {P : State → Prop} (hP : Closed P) {s t : State}
include hP


end Sys2Proof.Machine
end

