-- ==== Sys2Proof/Laws/KeptRegul.lean ====
section
/-! SUPPORT. What the operations of Machine/Regul.lean keep (Laws/Kept.lean). -/

namespace Sys2Proof.Machine

variable {P : State → Prop} (hP : Closed P) {s t : State}
include hP

theorem capRecompute_kept  (h : P s) : P (capRecompute s) := by
  unfold capRecompute
  repeat' (first | (with_reducible first | assumption | apply seqAll_kept | apply hP.setF | apply setB_kept hP | refine ite_kept ?_ ?_) | intro _)

theorem regStatus_kept  (h : P s) : P (regStatus s) := by
  unfold regStatus
  repeat' (with_reducible first | assumption | apply hP.regu | apply setB_kept hP | apply hP.setF)

theorem takeCredit_kept (c dir n : Nat) (h : P s) : P (takeCredit c dir n s) := by
  unfold takeCredit
  repeat' (with_reducible first | assumption | apply hP.regu | refine ite_kept ?_ ?_)

theorem regTick_kept  (h : P s) : P (regTick s) := by
  unfold regTick
  repeat' (with_reducible first | assumption | apply hP.regu)

theorem idleTick_kept (hn : ∀ {t}, P t → P (t.modNow (· + 10))) (h : P s) : P (idleTick s) := by
  unfold idleTick
  have h1 := seqAll_kept (l := s.host.ingress) (f := fun r u => cnt (bLD r.ld) 10 10 u) (fun _ {_} ht => cnt_kept hP _ _ _ ht)
    (when_kept (b := s.contend) (f := cnt bREG 2 10) (fun {_} ht => cnt_kept hP _ _ _ ht)
      (when_kept (b := s.on F.COAL_STATUS_FRAME_EMPTY) (f := cnt bCOAL 7 10) (fun {_} ht => cnt_kept hP _ _ _ ht)
        (regTick_kept hP (ephCycle_kept hP hn h))))
  dsimp only
  split
  · split
    · exact hP.drift h1
    · exact hP.setF (hP.drift h1)
  · exact h1

theorem regCtl_kept (old : Bool) (h : P s) : P (regCtl old s) := by
  unfold regCtl
  repeat' (with_reducible first | assumption | apply hP.regu | refine ite_kept ?_ ?_)

theorem commitEntries_kept  (h : P s) : P (commitEntries s) := by
  unfold commitEntries
  repeat' (first | (with_reducible first | assumption | apply seqAll_kept | apply hP.setF) | intro _)

theorem admitSet_kept (force : Bool) (h : P s) : P (admitSet force s) := by
  unfold admitSet
  repeat' (first | (with_reducible first | assumption | apply hP.setF | apply setB_kept hP | apply commitEntries_kept hP | apply capRecompute_kept hP | refine ite_kept ?_ ?_) | intro _ | extract_lets | split)

theorem admitWrite_kept (v : Nat) (h : P s) : P (admitWrite v s) := by
  unfold admitWrite
  repeat' (with_reducible first | assumption | apply storeAt_kept hP | apply admitSet_kept hP | refine ite_kept ?_ ?_)

theorem execRegAdmit_kept (_m : Master) (v : BitVec 32) {u : State} (e : execRegAdmit _m v s = .next u) (h : P s) : P u := by
  unfold execRegAdmit at e
  injection e with e
  subst e
  repeat' (with_reducible first | assumption | apply admitWrite_kept hP)

theorem regMiss_kept (kind c : Nat) (h : P s) : P (regMiss kind c s) := by
  unfold regMiss
  repeat' (first | (with_reducible first | assumption | apply incF_kept hP | apply hP.setF | apply cnt_kept hP | apply when_kept | apply raiseInt_kept hP | apply hP.regu | apply logPut_kept hP | refine ite_kept ?_ ?_) | intro _)

theorem floorWindow_kept  (h : P s) : P (floorWindow s) := by
  unfold floorWindow
  repeat' (first | (with_reducible first | assumption | apply seqAll_kept | apply regMiss_kept hP | apply hP.regu | apply hP.clk | refine ite_kept ?_ ?_) | intro _)

theorem execFloorWindow_kept  {u : State} (e : execFloorWindow s = .next u) (h : P s) : P u := by
  unfold execFloorWindow at e
  injection e with e
  subst e
  repeat' (with_reducible first | assumption | apply floorWindow_kept hP)

theorem latencyMiss_kept (c ns : Nat) (ok : Bool) (h : P s) : P (latencyMiss c ns ok s) := by
  unfold latencyMiss
  repeat' (with_reducible first | assumption | apply regMiss_kept hP | refine ite_kept ?_ ?_)

end Sys2Proof.Machine
end

