-- ==== Sys2Proof/Laws/KeptJrnRec.lean ====
section
/-! SUPPORT. What the operations of Machine/JrnRec.lean keep (Laws/Kept.lean). -/

namespace Sys2Proof.Machine

variable {P : State → Prop} (hP : Closed P) {s t : State}
include hP

theorem takeAseq_kept  (h : P s) : P (takeAseq s).2 := by
  unfold takeAseq
  repeat' (with_reducible first | assumption | apply hP.dur | apply hP.setF)

theorem takeAseq_keptE  {x : Nat} {u : State} (e : takeAseq s = (x, u)) (h : P s) : P u := by
  have := takeAseq_kept hP  h
  rw [e] at this
  exact this

theorem captureAt_kept (aseq typ ld kid addr : Nat) (data : List Nat) (h : P s) : P (captureAt aseq typ ld kid addr data s) := by
  unfold captureAt
  repeat' (with_reducible first | assumption | apply hP.dur)

theorem capture_kept (typ ld kid addr : Nat) (data : List Nat) (h : P s) : P (capture typ ld kid addr data s) := by
  unfold capture
  repeat' (with_reducible first | assumption | apply takeAseq_kept hP | apply takeAseq_keptE hP  (by assumption) | apply captureAt_kept hP)

theorem captureChunks_kept (f : Frame) (h : P s) : P (captureChunks f s) := by
  unfold captureChunks
  repeat' (first | (with_reducible first | assumption | apply seqAll_kept | apply captureAt_kept hP) | intro _)

end Sys2Proof.Machine
end

