-- ==== Sys2Proof/Laws/KeptHostOps.lean ====
section
/-! SUPPORT. What the operations of Machine/HostOps.lean keep (Laws/Kept.lean). -/

namespace Sys2Proof.Machine

variable {P : State → Prop} (hP : Closed P) {s t : State}
include hP

theorem modLd_kept (n : Nat) (f : LdSt → LdSt) (h : P s) : P (modLd n f s) := by
  unfold modLd
  repeat' (with_reducible first | assumption | apply hP.host)

theorem modPort_kept (p : Nat) (f : PortSt → PortSt) (h : P s) : P (modPort p f s) := by
  unfold modPort
  repeat' (with_reducible first | assumption | apply hP.host)

theorem ldStatus_kept (n : Nat) (h : P s) : P (ldStatus n s) := by
  unfold ldStatus
  repeat' (with_reducible first | assumption | apply setB_kept hP | apply hP.setF)

theorem ldStatusAll_kept  (h : P s) : P (ldStatusAll s) := by
  unfold ldStatusAll
  repeat' (first | (with_reducible first | assumption | apply seqAll_kept | apply ldStatus_kept hP) | intro _)

theorem eventIrq_kept (n log : Nat) (h : P s) : P (eventIrq n log s) := by
  unfold eventIrq
  repeat' (first | (with_reducible first | assumption | apply when_kept | apply msixSend_kept hP) | intro _)

theorem event_kept (n log kind arg : Nat) (h : P s) : P (event n log kind arg s) := by
  unfold event
  repeat' (with_reducible first | assumption | apply modLd_kept hP | apply takeNat_kept hP | apply takeNat_keptE hP  (by assumption) | apply eventIrq_kept hP | apply logPut_kept hP | refine ite_kept ?_ ?_)

theorem unbackedEvent_kept (n dpa : Nat) (h : P s) : P (unbackedEvent n dpa s) := by
  unfold unbackedEvent
  repeat' (with_reducible first | assumption | apply setErr_kept hP | apply event_kept hP | apply modLd_kept hP | refine ite_kept ?_ ?_)

theorem kidEvent_kept (n dpa : Nat) (h : P s) : P (kidEvent n dpa s) := by
  unfold kidEvent
  repeat' (with_reducible first | assumption | apply event_kept hP | apply modLd_kept hP | refine ite_kept ?_ ?_)

theorem ldCfg_kept (n : Nat) (h : P s) : P (ldCfg n s) := by
  unfold ldCfg
  repeat' (with_reducible first | assumption | apply capture_kept hP)

theorem wpSet_kept (n bit : Nat) (h : P s) : P (wpSet n bit s) := by
  unfold wpSet
  repeat' (with_reducible first | assumption | apply hP.setF | apply ldCfg_kept hP | apply logPut_kept hP | refine ite_kept ?_ ?_)

theorem wpClear_kept (n bit : Nat) (h : P s) : P (wpClear n bit s) := by
  unfold wpClear
  repeat' (with_reducible first | assumption | apply hP.setF | apply ldCfg_kept hP | refine ite_kept ?_ ?_)

theorem ledgerAdd_kept (ledger idx : Nat) (d : Int) (h : P s) : P (ledgerAdd ledger idx d s) := by
  unfold ledgerAdd
  repeat' (with_reducible first | assumption | apply hP.ledg)

theorem balancedReset_kept (ledger idx : Nat) (h : P s) : P (balancedReset ledger idx s) := by
  unfold balancedReset
  repeat' (with_reducible first | assumption | apply hP.ledg | apply incF_kept hP)

theorem credOverflow_kept (port cls n : Nat) (h : P s) : P (credOverflow port cls n s) := by
  unfold credOverflow
  repeat' (with_reducible first | assumption | apply setErr_kept hP | apply ledgerAdd_kept hP)

theorem credTake_kept (port cls : Nat) (h : P s) : P (credTake port cls s) := by
  unfold credTake
  repeat' (with_reducible first | assumption | apply modPort_kept hP)

theorem credBack_kept (port cls : Nat) (h : P s) : P (credBack port cls s) := by
  unfold credBack
  repeat' (first | (with_reducible first | assumption | apply modPort_kept hP | refine ite_kept ?_ ?_) | extract_lets | split)

theorem credRelease_kept  (h : P s) : P (credRelease s) := by
  unfold credRelease
  repeat' (first | (with_reducible first | assumption | apply seqAll_kept | apply modPort_kept hP | refine ite_kept ?_ ?_) | intro _ | extract_lets | split)

theorem respSend_kept (o : Out) (h : P s) : P (respSend o s) := by
  unfold respSend
  repeat' (first | (with_reducible first | assumption | apply modPort_kept hP | apply emit_kept hP | apply cnt_kept hP | apply incF_kept hP | refine ite_kept ?_ ?_) | intro _ | extract_lets | split)

theorem respond_kept (o : Out) (h : P s) : P (respond o s) := by
  unfold respond
  repeat' (with_reducible first | assumption | apply modPort_kept hP | apply respSend_kept hP | refine ite_kept ?_ ?_)

theorem respDrainN_kept (n p : Nat) (h : P s) : P (respDrainN n p s) := by
  induction n generalizing s with
  | zero => exact h
  | succ n ih =>
    unfold respDrainN
    split
    · exact ih (respSend_kept hP _ (modPort_kept hP _ _ h))
    · exact h

theorem respDrain_kept (p : Nat) (h : P s) : P (respDrain p s) := by
  unfold respDrain
  repeat' (with_reducible first | assumption | apply respDrainN_kept hP)

theorem sendCmp_kept (r : HReq) (h : P s) : P (sendCmp r s) := by
  unfold sendCmp
  repeat' (with_reducible first | assumption | apply respond_kept hP)

theorem sendData_kept (r : HReq) (d : Line) (poison : Bool) (h : P s) : P (sendData r d poison s) := by
  unfold sendData
  repeat' (with_reducible first | assumption | apply respond_kept hP)

theorem sendPoison_kept (r : HReq) (h : P s) : P (sendPoison r s) := by
  unfold sendPoison
  repeat' (with_reducible first | assumption | apply takeLine_kept hP | apply takeLine_keptE hP  (by assumption) | apply sendData_kept hP)

theorem refuseReq_kept (r : HReq) (h : P s) : P (refuseReq r s) := by
  unfold refuseReq
  repeat' (with_reducible first | assumption | apply sendCmp_kept hP | apply sendPoison_kept hP | refine ite_kept ?_ ?_)

theorem discardWrite_kept (r : HReq) (h : P s) : P (discardWrite r s) := by
  unfold discardWrite
  repeat' (with_reducible first | assumption | apply sendCmp_kept hP | apply cnt_kept hP)

theorem parkRefuse_kept (r : HReq) (h : P s) : P (parkRefuse r s) := by
  unfold parkRefuse
  repeat' (with_reducible first | assumption | apply refuseReq_kept hP | apply incF_kept hP | apply setErr_kept hP | apply event_kept hP | apply hP.glb | apply logOpen_kept hP | refine ite_kept ?_ ?_)

theorem gpfRefuse_kept (r : HReq) (h : P s) : P (gpfRefuse r s) := by
  unfold gpfRefuse
  repeat' (with_reducible first | assumption | apply refuseReq_kept hP | apply incF_kept hP | apply setErr_kept hP | apply event_kept hP | apply modPort_kept hP | apply logOpen_kept hP | refine ite_kept ?_ ?_)

theorem poisonAdd_kept (n dpa src : Nat) (h : P s) : P (poisonAdd n dpa src s) := by
  unfold poisonAdd
  repeat' (with_reducible first | assumption | apply modLd_kept hP | refine ite_kept ?_ ?_)

theorem poisonRemove_kept (n dpa : Nat) (h : P s) : P (poisonRemove n dpa s) := by
  unfold poisonRemove
  repeat' (with_reducible first | assumption | apply modLd_kept hP)

end Sys2Proof.Machine
end

