-- ==== Sys2Proof/Laws/KeptJournal.lean ====
section
/-! SUPPORT. What the operations of Machine/Journal.lean keep (Laws/Kept.lean). -/

namespace Sys2Proof.Machine

variable {P : State → Prop} (hP : Closed P) {s t : State}
include hP

theorem reseal_kept (p : Nat → Bool) (h : P s) : P (reseal p s) := by
  unfold reseal
  repeat' (first | (with_reducible first | assumption | apply seqAll_kept | apply hP.dur | refine ite_kept ?_ ?_) | intro _ | extract_lets | split)

theorem sealRecs_kept (drain drainEnd parkEnd : Bool) (recs : List JRec) (h : P s) : P (sealRecs drain drainEnd parkEnd recs s) := by
  unfold sealRecs
  repeat' (with_reducible first | assumption | apply hP.dur | apply cnt_kept hP)

theorem sealOne_kept (drain : Bool) (h : P s) : P (sealOne drain s) := by
  unfold sealOne
  repeat' (first | (with_reducible first | assumption | apply hP.dur | apply sealRecs_kept hP) | intro _ | extract_lets | split)

theorem sealAllN_kept (n : Nat) (d : Bool) (h : P s) : P (sealAllN n d s) := by
  induction n generalizing s with
  | zero => exact h
  | succ n ih => exact ih (sealOne_kept hP _ h)

theorem sealAll_kept (drain : Bool) (h : P s) : P (sealAll drain s) := by
  unfold sealAll
  repeat' (with_reducible first | assumption | apply sealAllN_kept hP)

theorem execJournalSealTimer_kept  {u : State} (e : execJournalSealTimer s = .next u) (h : P s) : P u := by
  unfold execJournalSealTimer at e
  injection e with e
  subst e
  repeat' (with_reducible first | assumption | apply sealOne_kept hP)

theorem buildLimit_kept  (h : P s) : P (buildLimit s) := by
  unfold buildLimit
  repeat' (with_reducible first | assumption | apply sealOne_kept hP | refine ite_kept ?_ ?_)

theorem forceDone_kept (w : ForceFor) (h : P s) : P (forceDone w s) := by
  unfold forceDone
  repeat' (first | (with_reducible first | assumption | apply hP.setF | apply hP.ring | apply emit_kept hP | apply modPort_kept hP | apply mboxDone_kept hP | refine ite_kept ?_ ?_) | intro _ | split)

theorem forcesCheck_kept  (h : P s) : P (forcesCheck s) := by
  unfold forcesCheck
  repeat' (first | (with_reducible first | assumption | apply seqAll_kept | apply forceDone_kept hP | apply hP.dur) | intro _)

theorem commitRows_kept (l : List Sealed) (h : P s) : P (commitRows l s) := by
  induction l generalizing s with
  | nil => exact h
  | cons r t ih =>
    unfold commitRows
    split
    · exact ih (cnt_kept hP _ _ _ (incF_kept hP _ _ (hP.setF (hP.dur h))))
    · exact h

theorem commitAdvance_kept  (h : P s) : P (commitAdvance s) := by
  unfold commitAdvance
  repeat' (with_reducible first | assumption | apply forcesCheck_kept hP | apply commitRows_kept hP)

theorem journalDone_kept (jseq : Nat) (h : P s) : P (journalDone jseq s) := by
  unfold journalDone
  repeat' (with_reducible first | assumption | apply commitAdvance_kept hP | apply hP.dur)

theorem execLagMiss_kept (ageUs : Nat) {u : State} (e : execLagMiss ageUs s = .next u) (h : P s) : P u := by
  unfold execLagMiss at e
  injection e with e
  subst e
  repeat' (with_reducible first | assumption | apply setErr_kept hP | apply incF_kept hP | apply cnt_kept hP | apply logPut_kept hP | refine ite_kept ?_ ?_)

theorem bypassExpire_kept (tok : Nat) (h : P s) : P (bypassExpire tok s) := by
  unfold bypassExpire
  repeat' (first | (with_reducible first | assumption | apply hP.coal | apply captureChunks_kept hP | apply cnt_kept hP | refine ite_kept ?_ ?_) | intro _ | split)

theorem execBypassExpire_kept (tok : Nat) {u : State} (e : execBypassExpire tok s = .next u) (h : P s) : P u := by
  unfold execBypassExpire at e
  injection e with e
  subst e
  repeat' (with_reducible first | assumption | apply sealAll_kept hP | apply bypassExpire_kept hP)

theorem forceCommit_kept (w : ForceFor) (h : P s) : P (forceCommit w s) := by
  unfold forceCommit
  repeat' (first | (with_reducible first | assumption | apply seqAll_kept | apply bypassExpire_kept hP | apply sealAll_kept hP | apply forcesCheck_kept hP | apply hP.dur | apply cnt_kept hP) | intro _)

theorem bypassStatus_kept  (h : P s) : P (bypassStatus s) := by
  unfold bypassStatus
  repeat' (with_reducible first | assumption | apply setB_kept hP)

theorem huOkChange_kept (level : Bool) (h : P s) : P (huOkChange level s) := by
  unfold huOkChange
  repeat' (first | (with_reducible first | assumption | apply hP.dur | apply setB_kept hP | apply when_kept | apply setErr_kept hP | apply hP.dome | apply bypassStatus_kept hP) | intro _)

theorem execHuOkChange_kept (level : Bool) {u : State} (e : execHuOkChange level s = .next u) (h : P s) : P u := by
  unfold execHuOkChange at e
  injection e with e
  subst e
  repeat' (with_reducible first | assumption | apply huOkChange_kept hP)

end Sys2Proof.Machine
end

