-- ==== Sys2Proof/Laws/KeptFields.lean ====
section
/-! SUPPORT. What the operations of Machine/Fields.lean keep (Laws/Kept.lean). -/

namespace Sys2Proof.Machine

variable {P : State → Prop} (hP : Closed P) {s t : State}
include hP

theorem putFrec_kept (fno : Nat) (r : FRec) (h : P s) : P (putFrec fno r s) := by
  unfold putFrec
  repeat' (with_reducible first | assumption | apply wmWriteBytes_kept hP | apply hP.fld)

theorem modFrec_kept (fno : Nat) (g : FRec → FRec) (h : P s) : P (modFrec fno g s) := by
  unfold modFrec
  repeat' (with_reducible first | assumption | apply putFrec_kept hP)

theorem fieldTo_kept (fno : Nat) (g : FRec → FRec) (h : P s) : P (fieldTo fno g s) := by
  unfold fieldTo
  repeat' (with_reducible first | assumption | apply capture_kept hP | apply putFrec_kept hP)

theorem setTo_kept (set : Nat) (g : FRec → FRec) (h : P s) : P (setTo set g s) := by
  unfold setTo
  repeat' (first | (with_reducible first | assumption | apply seqAll_kept | apply fieldTo_kept hP | refine ite_kept ?_ ?_) | intro _)

theorem modSet_kept (set : Nat) (g : FRec → FRec) (h : P s) : P (modSet set g s) := by
  unfold modSet
  repeat' (first | (with_reducible first | assumption | apply seqAll_kept | apply modFrec_kept hP) | intro _)

theorem levelRaise_kept (lv : Nat) (h : P s) : P (levelRaise lv s) := by
  unfold levelRaise
  repeat' (first | (with_reducible first | assumption | apply hP.setF | apply logPut_kept hP | apply seqAll_kept | apply event_kept hP | apply when_kept | apply setErr_kept hP) | intro _)

theorem freeWarn_kept  (h : P s) : P (freeWarn s) := by
  unfold freeWarn
  repeat' (first | (with_reducible first | assumption | apply levelRaise_kept hP | apply seqAll_kept | apply wpClear_kept hP | apply hP.setF | refine ite_kept ?_ ?_) | intro _)

theorem campaignStart_kept  (h : P s) : P (campaignStart s) := by
  unfold campaignStart
  repeat' (with_reducible first | assumption | apply hP.fld | apply hP.setF)

theorem campaignStop_kept  (h : P s) : P (campaignStop s) := by
  unfold campaignStop
  repeat' (with_reducible first | assumption | apply hP.fld | apply hP.setF)

theorem wearStatus_kept  (h : P s) : P (wearStatus s) := by
  unfold wearStatus
  repeat' (first | (with_reducible first | assumption | apply hP.setF | apply setB_kept hP | apply when_kept | apply raiseInt_kept hP | apply campaignStart_kept hP | apply campaignStop_kept hP | refine foldl_kept2 ?_ ?_ | refine foldl_kept2E (by assumption) ?_ ?_ | refine foldl_kept ?_ ?_ | refine ite_kept ?_ ?_) | intro _)

theorem gcHyst_kept  (h : P s) : P (gcHyst s) := by
  unfold gcHyst
  repeat' (with_reducible first | assumption | apply hP.fld)

theorem fldRecount_kept  (h : P s) : P (fldRecount s) := by
  unfold fldRecount
  repeat' (with_reducible first | assumption | apply hP.setF | apply gcHyst_kept hP | apply freeWarn_kept hP | apply wearStatus_kept hP)

theorem rescore_kept (set : Nat) (h : P s) : P (rescore set s) := by
  unfold rescore
  repeat' (first | (with_reducible first | assumption | apply hP.fld | refine ite_kept ?_ ?_) | intro _ | extract_lets | split)

theorem eraseCheck_kept (set : Nat) (h : P s) : P (eraseCheck set s) := by
  unfold eraseCheck
  repeat' (first | (with_reducible first | assumption | apply seqAll_kept | apply modFrec_kept hP | apply rescore_kept hP | apply hP.fld | refine ite_kept ?_ ?_) | intro _)

theorem unitAdd_kept (pfa : Nat) (h : P s) : P (unitAdd pfa s) := by
  unfold unitAdd
  repeat' (with_reducible first | assumption | apply rescore_kept hP | apply modFrec_kept hP)

theorem unitSub_kept (pfa : Nat) (h : P s) : P (unitSub pfa s) := by
  unfold unitSub
  repeat' (with_reducible first | assumption | apply eraseCheck_kept hP | apply rescore_kept hP | apply modFrec_kept hP)

theorem chargeSpare_kept  (h : P s) : P (chargeSpare s) := by
  unfold chargeSpare
  repeat' (first | (with_reducible first | assumption | apply hP.setF | apply cnt_kept hP | apply when_kept | apply setErr_kept hP) | intro _)

theorem retireSet_kept (set : Nat) (h : P s) : P (retireSet set s) := by
  unfold retireSet
  repeat' (with_reducible first | assumption | apply setTo_kept hP | apply chargeSpare_kept hP | apply hP.fld | apply rescore_kept hP | apply fldRecount_kept hP)

theorem spareStatus_kept  (h : P s) : P (spareStatus s) := by
  unfold spareStatus
  repeat' (first | (with_reducible first | assumption | apply hP.setF | apply setB_kept hP) | intro _ | extract_lets)

theorem eraseEnd_kept (set : Nat) (h : P s) : P (eraseEnd set s) := by
  unfold eraseEnd
  repeat' (with_reducible first | assumption | apply retireSet_kept hP | apply setTo_kept hP | apply hP.fld | apply rescore_kept hP | apply fldRecount_kept hP | refine ite_kept ?_ ?_)

theorem openSet_kept (stream use : Nat) (mode1 quad : Bool) (set : Nat) (h : P s) : P (openSet stream use mode1 quad set s) := by
  unfold openSet
  repeat' (with_reducible first | assumption | apply setErr_kept hP | apply takeAseq_kept hP | apply takeAseq_keptE hP  (by assumption) | apply setTo_kept hP | apply hP.fld | apply cnt_kept hP | apply rescore_kept hP | apply fldRecount_kept hP | refine foldl_kept2 ?_ ?_ | refine foldl_kept2E (by assumption) ?_ ?_ | refine foldl_kept ?_ ?_ | refine ite_kept ?_ ?_)

theorem openStream_kept (g stream : Nat) (h : P s) : P (openStream g stream s) := by
  unfold openStream
  repeat' (first | (with_reducible first | assumption | apply seqAll_kept | apply openSet_kept hP | refine ite_kept ?_ ?_) | intro _ | extract_lets)

theorem modOpen_kept (set : Nat) (f : OpenSet → OpenSet) (h : P s) : P (modOpen set f s) := by
  unfold modOpen
  repeat' (with_reducible first | assumption | apply hP.fld)

theorem setVerified_kept (set : Nat) (h : P s) : P (setVerified set s) := by
  unfold setVerified
  repeat' (with_reducible first | assumption | apply setTo_kept hP | apply hP.fld | apply cnt_kept hP | apply rescore_kept hP | apply eraseCheck_kept hP | apply fldRecount_kept hP)

theorem closeSet_kept (set : Nat) (fail : Bool) (h : P s) : P (closeSet set fail s) := by
  unfold closeSet
  repeat' (first | (with_reducible first | assumption | apply setTo_kept hP | apply cnt_kept hP | apply setVerified_kept hP | apply eraseCheck_kept hP | apply fldRecount_kept hP | apply hP.fld | refine ite_kept ?_ ?_) | intro _ | extract_lets | split)

theorem relocate_kept (set : Nat) (h : P s) : P (relocate set s) := by
  unfold relocate
  repeat' (with_reducible first | assumption | apply eraseCheck_kept hP | apply hP.fld | refine ite_kept ?_ ?_)

theorem fieldBad_kept (fno cause : Nat) (h : P s) : P (fieldBad fno cause s) := by
  unfold fieldBad
  repeat' (with_reducible first | assumption | apply fieldTo_kept hP | apply logPut_kept hP)

end Sys2Proof.Machine
end

