-- ==== Sys2Proof/Laws/KeptMapCache.lean ====
section
/-! SUPPORT. What the operations of Machine/MapCache.lean keep (Laws/Kept.lean). -/

namespace Sys2Proof.Machine

variable {P : State → Prop} (hP : Closed P) {s t : State}
include hP

theorem modLine_kept (k : Nat) (f : MapLine → MapLine) (h : P s) : P (modLine k f s) := by
  unfold modLine
  repeat' (first | with_reducible assumption | (with_reducible refine hP.xlat ?_ ?_; (intro _ hb; exact hb)))

theorem chooseWay_kept (l : Nat) (h : P s) : P (chooseWay l s).2 := by
  unfold chooseWay
  repeat' (first | (with_reducible first | assumption | apply hP.setF) | intro _ | extract_lets | split)

theorem chooseWay_keptE (l : Nat) {x : Option Nat} {u : State} (e : chooseWay l s = (x, u)) (h : P s) : P u := by
  have := chooseWay_kept hP l h
  rw [e] at this
  exact this

theorem storeSectors_kept (l mask : Nat) (words : Tbl Nat) (h : P s) : P (storeSectors l mask words s) := by
  unfold storeSectors
  repeat' (first | (with_reducible first | assumption | apply hP.wm | apply seqAll_kept | apply wmLineWritten_kept hP | apply unmark_kept hP | refine foldl_kept2 ?_ ?_ | refine foldl_kept2E (by assumption) ?_ ?_ | refine foldl_kept ?_ ?_ | refine ite_kept ?_ ?_) | intro _)

theorem flushLine_kept (k : Nat) (h : P s) : P (flushLine k s) := by
  unfold flushLine
  repeat' (with_reducible first | assumption | apply storeSectors_kept hP | apply cnt_kept hP | refine ite_kept ?_ ?_)

theorem eraseLine_kept (k : Nat) (h : P s) : P (eraseLine k s) := by
  unfold eraseLine
  repeat' (first | with_reducible assumption | (with_reducible refine hP.xlat ?_ ?_; (intro _ hb; exact hb)) | intro _)

theorem startWb_kept (k : Nat) (why : WbWhy) (h : P s) : P (startWb k why s) := by
  unfold startWb
  repeat' (with_reducible first | assumption | apply modLine_kept hP | apply cnt_kept hP)

theorem takeWayNow_kept (l : Nat) (h : P s) : P (takeWayNow l s).2 := by
  unfold takeWayNow
  repeat' (first | (with_reducible first | assumption | apply eraseLine_kept hP | apply flushLine_kept hP | apply chooseWay_kept hP | apply chooseWay_keptE hP _ (by assumption)) | intro _ | extract_lets | split)

theorem takeWayNow_keptE (l : Nat) {x : Option Nat} {u : State} (e : takeWayNow l s = (x, u)) (h : P s) : P u := by
  have := takeWayNow_kept hP l h
  rw [e] at this
  exact this

theorem stallCount_kept  (h : P s) : P (stallCount s) := by
  unfold stallCount
  repeat' (first | (with_reducible first | assumption | apply incF_kept hP | apply cnt_kept hP) | intro _)

theorem sectorUe_kept (sector : Nat) (h : P s) : P (sectorUe sector s) := by
  unfold sectorUe
  repeat' (first | (with_reducible first | assumption | apply wmDecode_kept hP | apply wmDecode_keptE hP _ _ (by assumption) | apply setErr_kept hP) | (with_reducible refine hP.xlat ?_ ?_; (intro _ hb; exact hb)) | intro _)

theorem fillNow_kept (word : Nat) (h : P s) : P (fillNow word s) := by
  unfold fillNow
  repeat' (first | (with_reducible first | assumption | apply when_kept | apply stallCount_kept hP | apply wmRead_kept hP | apply sectorUe_kept hP | apply cnt_kept hP | apply modLine_kept hP | apply takeWayNow_kept hP | apply takeWayNow_keptE hP _ (by assumption) | apply seqAll_kept | refine foldl_kept2 ?_ ?_ | refine foldl_kept2E (by assumption) ?_ ?_ | refine foldl_kept ?_ ?_ | refine ite_kept ?_ ?_) | intro _ | extract_lets | split)

theorem mapPut_kept (word v : Nat) (h : P s) : P (mapPut word v s) := by
  unfold mapPut
  repeat' (first | (with_reducible first | assumption | apply fillNow_kept hP | apply wmWriteBytes_kept hP | apply modLine_kept hP | refine ite_kept ?_ ?_) | intro _ | extract_lets | split)

theorem lookStall_kept (l : Nat) (k : Look) (first : Bool) (h : P s) : P (lookStall l k first s) := by
  unfold lookStall
  repeat' (first | (with_reducible first | assumption | apply stallCount_kept hP | refine ite_kept ?_ ?_) | (with_reducible refine hP.xlat ?_ ?_; (intro _ hb; exact hb)))

theorem missStart_kept (l way sectors : Nat) (wait : Bool) (k : Look) (h : P s) : P (missStart l way sectors wait k s) := by
  unfold missStart
  repeat' (first | (with_reducible first | assumption | apply when_kept | apply flushLines_kept hP) | (with_reducible refine hP.xlat ?_ ?_; (intro _ hb; exact hb)) | intro _ | extract_lets | split | (rename_i x; clear_value x; split) | (dsimp +zetaDelta only; split) | with_reducible refine ite_kept2E (by assumption) ?_ ?_ | (have e := ‹Option.map _ _ = some _›; simp only [Option.map_eq_some_iff, Prod.mk.injEq] at e; obtain ⟨_, _, _, e⟩ := e; subst e))

theorem wayFill_kept (l way : Nat) (h : P s) : P (wayFill l way s) := by
  unfold wayFill
  repeat' (first | (with_reducible first | assumption | apply modLine_kept hP) | intro _)

theorem wayTake_kept (l way : Nat) (h : P s) : P (wayTake l way s).2 := by
  unfold wayTake
  repeat' (first | (with_reducible first | assumption | apply startWb_kept hP | apply wayFill_kept hP | refine ite_kept2 ?_ ?_ | refine ite_kept ?_ ?_) | intro _ | split)

theorem wayTake_keptE (l way : Nat) {x : Bool} {u : State} (e : wayTake l way s = (x, u)) (h : P s) : P u := by
  have := wayTake_kept hP l way h
  rw [e] at this
  exact this

theorem lookOnce_kept (k : Look) (h : P s) : P (lookOnce k s).2 := by
  unfold lookOnce
  repeat' (first | (with_reducible first | assumption | apply lookStall_kept hP | apply missStart_kept hP | apply cnt_kept hP | apply chooseWay_kept hP | apply chooseWay_keptE hP _ (by assumption) | apply wayTake_kept hP | apply wayTake_keptE hP _ _ (by assumption) | refine ite_kept2 ?_ ?_ | refine ite_kept ?_ ?_) | (with_reducible refine hP.xlat ?_ ?_; (intro _ hb; exact hb)) | intro _ | extract_lets | split)

theorem lookOnce_keptE (k : Look) {x : Option Nat} {u : State} (e : lookOnce k s = (x, u)) (h : P s) : P u := by
  have := lookOnce_kept hP k h
  rw [e] at this
  exact this

theorem lookRun_kept (n : Nat) (k : Look) (r : List Found × State) (h : P r.2) : P (lookRun n k r).2 := by
  induction n generalizing k r with
  | zero => exact h
  | succ n ih =>
    obtain ⟨fs, s⟩ := r
    unfold lookRun
    split
    · exact h
    · split
      · exact lookOnce_keptE hP _ (by assumption) h
      · have h1 := lookOnce_keptE hP _ (by assumption) h
        split
        · exact ih _ _ h1
        · exact h1

theorem lookStart_kept (k : Look) (h : P s) : P (lookStart k s).2 := by
  unfold lookStart
  repeat' (with_reducible first | assumption | apply lookRun_kept hP | apply cnt_kept hP)

theorem lookStart_keptE (k : Look) {x : List Found} {u : State} (e : lookStart k s = (x, u)) (h : P s) : P u := by
  have := lookStart_kept hP k h
  rw [e] at this
  exact this

theorem lookRetry_kept (bank : Nat) (h : P s) : P (lookRetry bank s).2 := by
  unfold lookRetry
  repeat' (first | (with_reducible first | assumption | apply lookRun_kept hP | refine foldl_kept2 ?_ ?_ | refine foldl_kept2E (by assumption) ?_ ?_ | refine foldl_kept ?_ ?_) | (with_reducible refine hP.xlat ?_ ?_; (intro _ hb; exact hb)) | intro _)

theorem lookRetry_keptE (bank : Nat) {x : List Found} {u : State} (e : lookRetry bank s = (x, u)) (h : P s) : P u := by
  have := lookRetry_kept hP bank h
  rw [e] at this
  exact this

theorem lookDeliver_kept (ks : List Look) (val : Nat → Nat) (h : P s) : P (lookDeliver ks val s).2 := by
  unfold lookDeliver
  repeat' (first | (with_reducible first | assumption | apply lookRun_kept hP | refine foldl_kept2 ?_ ?_ | refine foldl_kept2E (by assumption) ?_ ?_ | refine foldl_kept ?_ ?_) | intro _ | split)

theorem lookDeliver_keptE (ks : List Look) (val : Nat → Nat) {x : List Found} {u : State} (e : lookDeliver ks val s = (x, u)) (h : P s) : P u := by
  have := lookDeliver_kept hP ks val h
  rw [e] at this
  exact this

theorem fillInstall_kept (m : Miss) (good : Nat) (words : Tbl Nat) (h : P s) : P (fillInstall m good words s) := by
  unfold fillInstall
  repeat' (first | (with_reducible first | assumption | apply incF_kept hP | apply cnt_kept hP | apply modLine_kept hP | apply startWb_kept hP | apply eraseLine_kept hP | refine ite_kept ?_ ?_) | intro _ | extract_lets | split)

theorem fillReturn_kept (bank : Nat) (m : Miss) (lost : Nat) (h : P s) : P (fillReturn bank m lost s).2 := by
  unfold fillReturn
  repeat' (first | (with_reducible first | assumption | apply fillInstall_kept hP | apply lookDeliver_kept hP | apply lookDeliver_keptE hP _ _ (by assumption) | apply lookRetry_kept hP | apply lookRetry_keptE hP _ (by assumption) | refine foldl_kept2 ?_ ?_ | refine foldl_kept2E (by assumption) ?_ ?_ | refine foldl_kept ?_ ?_ | refine ite_kept2 ?_ ?_ | refine ite_kept ?_ ?_) | (with_reducible refine hP.xlat ?_ ?_; (intro _ hb; exact hb)))

theorem fillReturn_keptE (bank : Nat) (m : Miss) (lost : Nat) {x : List Found} {u : State} (e : fillReturn bank m lost s = (x, u)) (h : P s) : P u := by
  have := fillReturn_kept hP bank m lost h
  rw [e] at this
  exact this

theorem missGo_kept (bank : Nat) (m : Miss) (way : Nat) (wait : Bool) (h : P s) : P (missGo bank m way wait s) := by
  unfold missGo
  repeat' (first | (with_reducible first | assumption | apply when_kept | apply flushLines_kept hP) | (with_reducible refine hP.xlat ?_ ?_; (intro _ hb; exact hb)) | intro _)

theorem missAgain_kept (bank : Nat) (m : Miss) (h : P s) : P (missAgain bank m s) := by
  unfold missAgain
  repeat' (first | (with_reducible first | assumption | apply chooseWay_kept hP | apply chooseWay_keptE hP _ (by assumption) | apply wayTake_kept hP | apply wayTake_keptE hP _ _ (by assumption) | apply missGo_kept hP) | (with_reducible refine hP.xlat ?_ ?_; (intro _ hb; exact hb)) | intro _ | extract_lets | split)

theorem missEnter_kept (key : Nat) (h : P s) : P (missEnter key s) := by
  unfold missEnter
  repeat' (first | (with_reducible first | assumption | apply missGo_kept hP | apply wayFill_kept hP | apply missAgain_kept hP | refine ite_kept ?_ ?_) | intro _ | split)

theorem lookFree_kept (bank : Nat) (h : P s) : P (lookFree bank s).2 := by
  unfold lookFree
  repeat' (first | (with_reducible first | assumption | apply lookRetry_kept hP | apply lookRetry_keptE hP _ (by assumption) | refine ite_kept2 ?_ ?_ | refine ite_kept ?_ ?_) | intro _ | split)

theorem lookFree_keptE (bank : Nat) {x : List Found} {u : State} (e : lookFree bank s = (x, u)) (h : P s) : P u := by
  have := lookFree_kept hP bank h
  rw [e] at this
  exact this

theorem writebackDone_kept (key : Nat) (h : P s) : P (writebackDone key s).2 := by
  unfold writebackDone
  repeat' (first | (with_reducible first | assumption | apply storeSectors_kept hP | apply modLine_kept hP | apply cnt_kept hP | apply startWb_kept hP | apply missAgain_kept hP | apply missEnter_kept hP | apply eraseLine_kept hP | apply lookFree_kept hP | apply lookFree_keptE hP _ (by assumption) | refine ite_kept2 ?_ ?_ | refine ite_kept ?_ ?_) | intro _ | extract_lets | split | (rename_i x; clear_value x; split) | (dsimp +zetaDelta only; split) | with_reducible refine ite_kept2E (by assumption) ?_ ?_ | (have e := ‹Option.map _ _ = some _›; simp only [Option.map_eq_some_iff, Prod.mk.injEq] at e; obtain ⟨_, _, _, e⟩ := e; subst e))

theorem writebackDone_keptE (key : Nat) {x : List Found} {u : State} (e : writebackDone key s = (x, u)) (h : P s) : P u := by
  have := writebackDone_kept hP key h
  rw [e] at this
  exact this

theorem wbLine_kept (k : Nat) (h : P s) : P (wbLine k s) := by
  unfold wbLine
  repeat' (with_reducible first | assumption | apply startWb_kept hP | refine ite_kept ?_ ?_)

theorem invLine_kept (k : Nat) (h : P s) : P (invLine k s) := by
  unfold invLine
  repeat' (with_reducible first | assumption | apply modLine_kept hP | apply startWb_kept hP | apply eraseLine_kept hP | refine ite_kept ?_ ?_)

theorem convStart_kept (old new : Nat) (h : P s) : P (convStart old new s) := by
  unfold convStart
  repeat' (first | (with_reducible first | assumption | apply hP.setF | apply seqAll_kept | apply invLine_kept hP | refine ite_kept ?_ ?_) | (with_reducible refine hP.xlat ?_ ?_; (intro _ hb; first | exact hb | exact twf_filter _ hb | exact foldl_keeps (Q := fun t => twf 0 t = true) (fun _ _ h => twf_tput _ _ h) hb)) | intro _)

theorem scratchConvert_kept (v : Nat) (h : P s) : P (scratchConvert v s) := by
  unfold scratchConvert
  repeat' (with_reducible first | assumption | apply storeAt_kept hP | apply convStart_kept hP | refine ite_kept ?_ ?_)

theorem execScratchConvert_kept (_m : Master) (v : BitVec 32) {u : State} (e : execScratchConvert _m v s = .next u) (h : P s) : P u := by
  unfold execScratchConvert at e
  injection e with e
  subst e
  repeat' (with_reducible first | assumption | apply scratchConvert_kept hP)

theorem linesOut_kept (keys : List Nat) (h : P s) : P (linesOut keys s).2 := by
  unfold linesOut
  repeat' (first | (with_reducible first | assumption | apply seqAll_kept | apply missEnter_kept hP | apply eraseLine_kept hP | apply flushLine_kept hP | apply lookFree_kept hP | apply lookFree_keptE hP _ (by assumption) | refine foldl_kept2 ?_ ?_ | refine foldl_kept2E (by assumption) ?_ ?_ | refine foldl_kept ?_ ?_) | intro _ | extract_lets)

theorem linesOut_keptE (keys : List Nat) {x : List Found} {u : State} (e : linesOut keys s = (x, u)) (h : P s) : P u := by
  have := linesOut_kept hP keys h
  rw [e] at this
  exact this

theorem convertDone_kept  (h : P s) : P (convertDone s).2 := by
  unfold convertDone
  repeat' (first | (with_reducible first | assumption | apply linesOut_kept hP | apply linesOut_keptE hP _ (by assumption) | apply hP.setF | refine ite_kept2 ?_ ?_ | refine ite_kept ?_ ?_) | (with_reducible refine hP.xlat ?_ ?_; (intro _ hb; exact hb)) | intro _ | extract_lets | split)

theorem convertDone_keptE  {x : List Found} {u : State} (e : convertDone s = (x, u)) (h : P s) : P u := by
  have := convertDone_kept hP  h
  rw [e] at this
  exact this

theorem maintGo_kept (v : Nat) (h : P s) : P (maintGo v s) := by
  unfold maintGo
  repeat' (first | (with_reducible first | assumption | apply storeAt_kept hP | apply setErr_kept hP | apply hP.setF | apply seqAll_kept | apply wbLine_kept hP | apply invLine_kept hP | refine ite_kept ?_ ?_) | (with_reducible refine hP.xlat ?_ ?_; (intro _ hb; exact hb)) | intro _)

theorem execMapcWb_kept (_m : Master) (v : BitVec 32) {u : State} (e : execMapcWb _m v s = .next u) (h : P s) : P u := by
  unfold execMapcWb at e
  injection e with e
  subst e
  repeat' (with_reducible first | assumption | apply maintGo_kept hP)

theorem execMapcInv_kept (_m : Master) (v : BitVec 32) {u : State} (e : execMapcInv _m v s = .next u) (h : P s) : P u := by
  unfold execMapcInv at e
  injection e with e
  subst e
  repeat' (with_reducible first | assumption | apply maintGo_kept hP)

theorem execMapcInvAll_kept (_m : Master) (v : BitVec 32) {u : State} (e : execMapcInvAll _m v s = .next u) (h : P s) : P u := by
  unfold execMapcInvAll at e
  injection e with e
  subst e
  repeat' (with_reducible first | assumption | apply maintGo_kept hP)

theorem maintDone_kept  (h : P s) : P (maintDone s) := by
  unfold maintDone
  repeat' (first | (with_reducible first | assumption | apply hP.setF | apply setErr_kept hP | apply when_kept | refine ite_kept ?_ ?_) | (with_reducible refine hP.xlat ?_ ?_; (intro _ hb; exact hb)) | intro _ | split)

theorem execMapcMaintDone_kept  {u : State} (e : execMapcMaintDone s = .next u) (h : P s) : P u := by
  unfold execMapcMaintDone at e
  injection e with e
  subst e
  repeat' (with_reducible first | assumption | apply maintDone_kept hP)

theorem mapcCtl_kept (v : Nat) (h : P s) : P (mapcCtl v s) := by
  unfold mapcCtl
  repeat' (first | (with_reducible first | assumption | apply storeAt_kept hP | apply seqAll_kept | apply wbLine_kept hP | apply hP.setF | apply logPut_kept hP | refine ite_kept ?_ ?_) | intro _)

theorem execMapcDisable_kept (_m : Master) (v : BitVec 32) {u : State} (e : execMapcDisable _m v s = .next u) (h : P s) : P u := by
  unfold execMapcDisable at e
  injection e with e
  subst e
  repeat' (with_reducible first | assumption | apply mapcCtl_kept hP)

theorem execMapcEnable_kept (_m : Master) (v : BitVec 32) {u : State} (e : execMapcEnable _m v s = .next u) (h : P s) : P u := by
  unfold execMapcEnable at e
  injection e with e
  subst e
  repeat' (with_reducible first | assumption | apply mapcCtl_kept hP)

theorem drainDone_kept  (h : P s) : P (drainDone s).2 := by
  unfold drainDone
  repeat' (first | (with_reducible first | assumption | apply seqAll_kept | apply modLine_kept hP | apply flushLine_kept hP | apply hP.setF | apply missGo_kept hP | apply lookFree_kept hP | apply lookFree_keptE hP _ (by assumption) | refine foldl_kept2 ?_ ?_ | refine foldl_kept2E (by assumption) ?_ ?_ | refine foldl_kept ?_ ?_ | refine ite_kept2 ?_ ?_ | refine ite_kept ?_ ?_) | intro _ | extract_lets | split)

theorem drainDone_keptE  {x : List Found} {u : State} (e : drainDone s = (x, u)) (h : P s) : P u := by
  have := drainDone_kept hP  h
  rw [e] at this
  exact this

theorem mapInvalidate_kept (first n : Nat) (h : P s) : P (mapInvalidate first n s) := by
  unfold mapInvalidate
  repeat' (first | (with_reducible first | assumption | apply seqAll_kept | apply modLine_kept hP | apply flushLine_kept hP | apply missEnter_kept hP | apply eraseLine_kept hP | refine ite_kept ?_ ?_) | intro _)

theorem mapFlushAll_kept  (h : P s) : P (mapFlushAll s) := by
  unfold mapFlushAll
  repeat' (first | (with_reducible first | assumption | apply seqAll_kept | apply modLine_kept hP | apply flushLine_kept hP | refine ite_kept ?_ ?_) | intro _)

end Sys2Proof.Machine
end

