-- ==== Sys2Proof/Laws/KeptXlat.lean ====
section
/-! SUPPORT. What the operations of Machine/Xlat.lean keep (Laws/Kept.lean). -/

namespace Sys2Proof.Machine

variable {P : State → Prop} (hP : Closed P) {s t : State}
include hP

theorem layArrays_kept  (h : P s) : P (layArrays s) := by
  unfold layArrays
  repeat' (first | (with_reducible first | assumption | apply hP.setF | refine foldl_kept2 ?_ ?_ | refine foldl_kept2E (by assumption) ?_ ?_ | refine foldl_kept ?_ ?_ | refine ite_kept ?_ ?_) | intro _)

theorem poolStatus_kept  (h : P s) : P (poolStatus s) := by
  unfold poolStatus
  repeat' (first | (with_reducible first | assumption | apply hP.setF | apply when_kept | apply setErr_kept hP | apply setB_kept hP) | intro _)

theorem takeTable_kept  (h : P s) : P (takeTable s).2 := by
  unfold takeTable
  repeat' (first | (with_reducible first | assumption | apply poolStatus_kept hP | apply cnt_kept hP) | (with_reducible refine hP.xlat ?_ ?_; (intro _ hb; exact hb)))

theorem takeTable_keptE  {x : Nat} {u : State} (e : takeTable s = (x, u)) (h : P s) : P u := by
  have := takeTable_kept hP  h
  rw [e] at this
  exact this

theorem freeTable_kept (t : Nat) (h : P s) : P (freeTable t s) := by
  unfold freeTable
  repeat' (first | (with_reducible first | assumption | apply poolStatus_kept hP | apply cnt_kept hP) | (with_reducible refine hP.xlat ?_ ?_; (intro _ hb; exact hb)))

theorem modKid_kept (k : Nat) (f : Kid → Kid) (h : P s) : P (modKid k f s) := by
  unfold modKid
  repeat' (with_reducible first | assumption | apply hP.ciph)

theorem refAdd_kept (k : Nat) (h : P s) : P (refAdd k s) := by
  unfold refAdd
  repeat' (with_reducible first | assumption | apply modKid_kept hP)

theorem refSub_kept (k : Nat) (h : P s) : P (refSub k s) := by
  unfold refSub
  repeat' (with_reducible first | assumption | apply modKid_kept hP)

theorem setFolio_kept (ld f e : Nat) (h : P s) : P (setFolio ld f e s) := by
  unfold setFolio
  repeat' (with_reducible first | assumption | apply mapPut_kept hP | apply capture_kept hP)

theorem setFrame_kept (ld f table i e snap : Nat) (h : P s) : P (setFrame ld f table i e snap s) := by
  unfold setFrame
  repeat' (with_reducible first | assumption | apply mapPut_kept hP | apply capture_kept hP)

theorem folioSplit_kept (ld f kid : Nat) (h : P s) : P (folioSplit ld f kid s) := by
  unfold folioSplit
  repeat' (first | (with_reducible first | assumption | apply takeTable_kept hP | apply takeTable_keptE hP  (by assumption) | apply seqAll_kept | apply mapPut_kept hP | apply setFolio_kept hP | apply when_kept | apply refAdd_kept hP | apply cnt_kept hP | refine ite_kept ?_ ?_) | (with_reducible refine hP.xlat ?_ ?_; (intro _ hb; exact hb)) | intro _)

theorem clearSealPend_kept (ld f : Nat) (h : P s) : P (clearSealPend ld f s) := by
  unfold clearSealPend
  repeat' (with_reducible first | assumption | apply setFolio_kept hP | refine ite_kept ?_ ?_)

theorem refreshPoisonAny_kept (ld f : Nat) (h : P s) : P (refreshPoisonAny ld f s) := by
  unfold refreshPoisonAny
  repeat' (with_reducible first | assumption | apply setFolio_kept hP | refine ite_kept ?_ ?_)

theorem folioUnmap_kept (ld f : Nat) (h : P s) : P (folioUnmap ld f s) := by
  unfold folioUnmap
  repeat' (first | (with_reducible first | assumption | apply setFolio_kept hP | apply when_kept | apply freeTable_kept hP | apply seqAll_kept | apply unitSub_kept hP | apply refSub_kept hP | apply cnt_kept hP | refine ite_kept ?_ ?_) | (with_reducible refine hP.xlat ?_ ?_; (intro _ hb; exact hb)) | intro _)

theorem folioWhole_kept (ld f set slot : Nat) (h : P s) : P (folioWhole ld f set slot s) := by
  unfold folioWhole
  repeat' (first | (with_reducible first | assumption | apply setFolio_kept hP | apply freeTable_kept hP | apply seqAll_kept | apply unitAdd_kept hP | apply unitSub_kept hP) | (with_reducible refine hP.xlat ?_ ?_; (intro _ hb; exact hb)) | intro _)

end Sys2Proof.Machine
end

