-- ==== Sys2Proof/Laws/KeptCoal.lean ====
section
/-! SUPPORT. What the operations of Machine/Coal.lean keep (Laws/Kept.lean). -/

namespace Sys2Proof.Machine

variable {P : State → Prop} (hP : Closed P) {s t : State}
include hP

theorem coalStatus_kept  (h : P s) : P (coalStatus s) := by
  unfold coalStatus
  repeat' (first | (with_reducible first | assumption | apply when_kept | apply setErr_kept hP | apply hP.setF) | intro _)

theorem dropLine_kept (key : Nat) (h : P s) : P (dropLine key s) := by
  unfold dropLine
  repeat' (first | (with_reducible first | assumption | apply hP.coal) | intro _ | split)

theorem closeOldest_kept (idx : Nat) (h : P s) : P (closeOldest idx s) := by
  unfold closeOldest
  repeat' (first | (with_reducible first | assumption | apply hP.coal | apply cnt_kept hP) | intro _ | split)

theorem closeGathers_kept (p : Gather → Bool) (h : P s) : P (closeGathers p s) := by
  unfold closeGathers
  repeat' (with_reducible first | assumption | apply hP.coal | apply cnt_kept hP)

theorem linePressure_kept  (h : P s) : P (linePressure s) := by
  unfold linePressure
  repeat' (with_reducible first | assumption | apply closeOldest_kept hP | refine ite_kept ?_ ?_)

theorem execGatherTimeout_kept  {u : State} (e : execGatherTimeout s = .next u) (h : P s) : P u := by
  unfold execGatherTimeout at e
  injection e with e
  subst e
  repeat' (with_reducible first | assumption | apply closeOldest_kept hP)

theorem gatherPressure_kept  (h : P s) : P (gatherPressure s) := by
  unfold gatherPressure
  repeat' (with_reducible first | assumption | apply setErr_kept hP | apply closeOldest_kept hP | refine ite_kept ?_ ?_)

theorem gatherLine_kept (ld dpa : Nat) (whole : Bool) (h : P s) : P (gatherLine ld dpa whole s) := by
  unfold gatherLine
  repeat' (first | (with_reducible first | assumption | apply hP.coal | apply when_kept | apply refAdd_kept hP | refine ite_kept ?_ ?_) | intro _)

theorem gatherFull_kept (ld dpa : Nat) (h : P s) : P (gatherFull ld dpa s) := by
  unfold gatherFull
  repeat' (with_reducible first | assumption | apply hP.coal | apply cnt_kept hP | refine ite_kept ?_ ?_)

theorem acceptLine_kept (ld dpa mask : Nat) (data : Line) (poison : Bool) (h : P s) : P (acceptLine ld dpa mask data poison s) := by
  unfold acceptLine
  repeat' (first | (with_reducible first | assumption | apply takeAseq_kept hP | apply takeAseq_keptE hP  (by assumption) | apply buildLimit_kept hP | apply captureAt_kept hP | apply hP.coal | apply gatherLine_kept hP | apply gatherPressure_kept hP | apply poisonAdd_kept hP | apply poisonRemove_kept hP | apply when_kept | apply refreshPoisonAny_kept hP | apply clearSealPend_kept hP | apply cnt_kept hP | apply gatherFull_kept hP | apply coalStatus_kept hP | apply linePressure_kept hP | refine ite_kept ?_ ?_) | intro _ | extract_lets | split)

theorem putFrame_kept (t : Nat) (fr : Frame) (h : P s) : P (putFrame t fr s) := by
  unfold putFrame
  repeat' (with_reducible first | assumption | apply hP.coal)

theorem mediaLine_kept (pfa ld f i kid line : Nat) (h : P s) : P (mediaLine pfa ld f i kid line s).2 := by
  unfold mediaLine
  repeat' (first | (with_reducible first | assumption | apply takeLine_kept hP | apply takeLine_keptE hP  (by assumption) | refine ite_kept2 ?_ ?_ | refine ite_kept ?_ ?_) | intro _ | split)

theorem mediaLine_keptE (pfa ld f i kid line : Nat) {x : Line} {u : State} (e : mediaLine pfa ld f i kid line s = (x, u)) (h : P s) : P u := by
  have := mediaLine_kept hP pfa ld f i kid line h
  rw [e] at this
  exact this

theorem mediaLines_kept (pfa ld f i kid : Nat) (h : P s) : P (mediaLines pfa ld f i kid s).2 := by
  unfold mediaLines
  repeat' (first | (with_reducible first | assumption | apply takeLine_kept hP | apply takeLine_keptE hP  (by assumption) | refine foldl_kept2 ?_ ?_ | refine foldl_kept2E (by assumption) ?_ ?_ | refine foldl_kept ?_ ?_ | refine ite_kept2 ?_ ?_ | refine ite_kept ?_ ?_) | intro _ | extract_lets | split)

theorem mediaLines_keptE (pfa ld f i kid : Nat) {x : Tbl Line} {u : State} (e : mediaLines pfa ld f i kid s = (x, u)) (h : P s) : P u := by
  have := mediaLines_kept hP pfa ld f i kid h
  rw [e] at this
  exact this

theorem gatherRemove_kept (g : Gather) (h : P s) : P (gatherRemove g s) := by
  unfold gatherRemove
  repeat' (first | (with_reducible first | assumption | apply seqAll_kept | apply dropLine_kept hP | apply coalStatus_kept hP | apply hP.coal | apply when_kept | apply refSub_kept hP) | intro _)

theorem dropLineRecords_kept (g : Gather) (h : P s) : P (dropLineRecords g s) := by
  unfold dropLineRecords
  repeat' (with_reducible first | assumption | apply hP.dur | apply cnt_kept hP)

theorem stageGather_kept (g : Gather) (t : Nat) (img : Tbl Line) (mask : Nat) (h : P s) : P (stageGather g t img mask s) := by
  unfold stageGather
  repeat' (first | (with_reducible first | assumption | apply folioSplit_kept hP | apply setFrame_kept hP | apply when_kept | apply unitSub_kept hP | apply clearSealPend_kept hP | apply hP.coal | apply putFrame_kept hP | apply stageWrite_kept hP | apply dropLineRecords_kept hP | apply cnt_kept hP | apply gatherRemove_kept hP | apply refreshPoisonAny_kept hP) | intro _)

theorem mergeStaged_kept (g : Gather) (t : Nat) (fr : Frame) (h : P s) : P (mergeStaged g t fr s) := by
  unfold mergeStaged
  repeat' (first | (with_reducible first | assumption | apply putFrame_kept hP | apply stageWrite_kept hP | apply when_kept | apply dropLineRecords_kept hP | apply setFrame_kept hP | apply clearSealPend_kept hP | apply gatherRemove_kept hP | apply refreshPoisonAny_kept hP | refine ite_kept ?_ ?_) | intro _ | extract_lets | split | (rename_i x; clear_value x; split) | (dsimp +zetaDelta only; split) | with_reducible refine ite_kept2E (by assumption) ?_ ?_ | (have e := ‹Option.map _ _ = some _›; simp only [Option.map_eq_some_iff, Prod.mk.injEq] at e; obtain ⟨_, _, _, e⟩ := e; subst e))

theorem gatherMerge_kept  (h : P s) : P (gatherMerge s) := by
  unfold gatherMerge
  repeat' (first | (with_reducible first | assumption | apply coalStatus_kept hP | apply mergeStaged_kept hP | apply stageGather_kept hP | apply hP.coal | refine ite_kept ?_ ?_) | intro _ | extract_lets | split)

theorem releaseHolds_kept (p : Frame → Bool) (h : P s) : P (releaseHolds p s) := by
  unfold releaseHolds
  repeat' (with_reducible first | assumption | apply hP.coal)

theorem syncDrain_kept (w : ForceFor) (h : P s) : P (syncDrain w s) := by
  unfold syncDrain
  repeat' (with_reducible first | assumption | apply closeGathers_kept hP | apply releaseHolds_kept hP | apply forceCommit_kept hP)

theorem durSync_kept (v : Nat) (h : P s) : P (durSync v s) := by
  unfold durSync
  repeat' (with_reducible first | assumption | apply storeAt_kept hP | apply syncDrain_kept hP | apply hP.setF | refine ite_kept ?_ ?_)

theorem execDurSyncGo_kept (_m : Master) (v : BitVec 32) {u : State} (e : execDurSyncGo _m v s = .next u) (h : P s) : P u := by
  unfold execDurSyncGo at e
  injection e with e
  subst e
  repeat' (with_reducible first | assumption | apply durSync_kept hP)

theorem runHoldExpiry_kept  (h : P s) : P (runHoldExpiry s) := by
  unfold runHoldExpiry
  repeat' (first | (with_reducible first | assumption | apply putFrame_kept hP | refine foldl_kept2 ?_ ?_ | refine foldl_kept2E (by assumption) ?_ ?_ | refine foldl_kept ?_ ?_ | refine ite_kept ?_ ?_) | intro _ | extract_lets | split)

theorem execRunHoldExpiry_kept  {u : State} (e : execRunHoldExpiry s = .next u) (h : P s) : P u := by
  unfold execRunHoldExpiry at e
  injection e with e
  subst e
  repeat' (with_reducible first | assumption | apply runHoldExpiry_kept hP)

theorem dropFrame_kept (t : Nat) (h : P s) : P (dropFrame t s) := by
  unfold dropFrame
  repeat' (first | (with_reducible first | assumption | apply hP.coal | apply coalStatus_kept hP | apply hP.fld | refine ite_kept ?_ ?_) | intro _ | extract_lets | split)

theorem discardFolio_kept (ld f : Nat) (h : P s) : P (discardFolio ld f s) := by
  unfold discardFolio
  repeat' (first | (with_reducible first | assumption | apply seqAll_kept | apply gatherRemove_kept hP | apply coalStatus_kept hP | apply folioUnmap_kept hP | apply dropFrame_kept hP) | intro _)

end Sys2Proof.Machine
end

