-- ==== Sys2Proof/Laws/KeptDrift.lean ====
section
/-! SUPPORT. What the operations of Machine/Drift.lean keep (Laws/Kept.lean). -/

namespace Sys2Proof.Machine

variable {P : State → Prop} (hP : Closed P) {s t : State}
include hP

theorem putDrec_kept (set : Nat) (r : DRec) (h : P s) : P (putDrec set r s) := by
  unfold putDrec
  repeat' (with_reducible first | assumption | apply hP.drift)

theorem writeDrec_kept (set src member cls : Nat) (h : P s) : P (writeDrec set src member cls s) := by
  unfold writeDrec
  repeat' (with_reducible first | assumption | apply rescore_kept hP | apply putDrec_kept hP)

theorem sweepStatus_kept  (h : P s) : P (sweepStatus s) := by
  unfold sweepStatus
  repeat' (with_reducible first | assumption | apply setB_kept hP)

theorem measStart_kept (set member cls : Nat) (sweep : Bool) (h : P s) : P (measStart set member cls sweep s) := by
  unfold measStart
  repeat' (with_reducible first | assumption | apply hP.drift | apply sweepStatus_kept hP | refine ite_kept ?_ ?_)

theorem measOwnStart_kept (set : Nat) (sweep : Bool) (h : P s) : P (measOwnStart set sweep s) := by
  unfold measOwnStart
  repeat' (with_reducible first | assumption | apply measStart_kept hP)

theorem sweepStart_kept (p : Nat → Bool) (h : P s) : P (sweepStart p s) := by
  unfold sweepStart
  repeat' (first | (with_reducible first | assumption | apply seqAll_kept | apply measOwnStart_kept hP | refine ite_kept ?_ ?_) | intro _ | extract_lets | split)

theorem measServe_kept (set : Nat) (h : P s) : P (measServe set s) := by
  unfold measServe
  repeat' (with_reducible first | assumption | apply hP.med)

theorem measRemove_kept (set : Nat) (h : P s) : P (measRemove set s) := by
  unfold measRemove
  repeat' (with_reducible first | assumption | apply sweepStatus_kept hP | apply hP.drift)

theorem seeStore_kept (fno : Nat) (r : See) (h : P s) : P (seeStore fno r s) := by
  unfold seeStore
  repeat' (first | (with_reducible first | assumption | apply wmWriteBytes_kept hP | apply hP.drift) | intro _)

theorem modSee_kept (fno : Nat) (f : See → See) (h : P s) : P (modSee fno f s) := by
  unfold modSee
  repeat' (first | (with_reducible first | assumption | apply hP.drift | apply seeStore_kept hP | refine ite_kept ?_ ?_) | extract_lets | split)

theorem rwPost_kept (fno : Nat) (h : P s) : P (rwPost fno s) := by
  unfold rwPost
  repeat' (with_reducible first | assumption | apply modSee_kept hP | apply hP.setF | apply setErr_kept hP | apply hP.drift | refine ite_kept ?_ ?_)

theorem rwTrigger_kept (fno : Nat) (h : P s) : P (rwTrigger fno s) := by
  unfold rwTrigger
  repeat' (with_reducible first | assumption | apply rwPost_kept hP | apply modSee_kept hP | refine ite_kept ?_ ?_)

theorem seeReads_kept (fno n : Nat) (h : P s) : P (seeReads fno n s) := by
  unfold seeReads
  repeat' (with_reducible first | assumption | apply modSee_kept hP | apply rwTrigger_kept hP | refine ite_kept ?_ ?_)

theorem arrayRead_kept (pfa : Nat) (h : P s) : P (arrayRead pfa s) := by
  unfold arrayRead
  repeat' (with_reducible first | assumption | apply seeReads_kept hP | apply cnt_kept hP)

theorem leafServed_kept (pfa leaf step bits : Nat) (h : P s) : P (leafServed pfa leaf step bits s) := by
  unfold leafServed
  repeat' (first | (with_reducible first | assumption | apply modSee_kept hP | apply rwTrigger_kept hP | apply incF_kept hP | apply cnt_kept hP | apply mediaErr_kept hP | apply when_kept | refine ite_kept ?_ ?_) | intro _)

theorem leafFirstFail_kept (pfa : Nat) (miscorr : Bool) (h : P s) : P (leafFirstFail pfa miscorr s) := by
  unfold leafFirstFail
  repeat' (first | (with_reducible first | assumption | apply when_kept | apply setErr_kept hP | apply cnt_kept hP) | intro _ | extract_lets | split | (rename_i x; clear_value x; split) | (dsimp +zetaDelta only; split) | with_reducible refine ite_kept2E (by assumption) ?_ ?_ | (have e := ‹Option.map _ _ = some _›; simp only [Option.map_eq_some_iff, Prod.mk.injEq] at e; obtain ⟨_, _, _, e⟩ := e; subst e))

theorem leafFailed_kept (pfa leaf : Nat) (h : P s) : P (leafFailed pfa leaf s) := by
  unfold leafFailed
  repeat' (with_reducible first | assumption | apply modSee_kept hP | apply rwTrigger_kept hP | apply incF_kept hP | apply cnt_kept hP | apply setErr_kept hP | apply logPut_kept hP)

theorem wasteAhead_kept (c n : Nat) (h : P s) : P (wasteAhead c n s) := by
  unfold wasteAhead
  repeat' (with_reducible first | assumption | apply incF_kept hP | apply cnt_kept hP | refine ite_kept ?_ ?_)

theorem bufferLeaves_kept (pfa : Nat) (leaves : List Nat) (ahead : Bool) (h : P s) : P (bufferLeaves pfa leaves ahead s) := by
  unfold bufferLeaves
  repeat' (first | (with_reducible first | assumption | apply wasteAhead_kept hP | apply hP.med | refine ite_kept ?_ ?_) | intro _ | extract_lets | split)

theorem partnerReads_kept (pfa : Nat) (h : P s) : P (partnerReads pfa s) := by
  unfold partnerReads
  repeat' (first | (with_reducible first | assumption | apply seqAll_kept | apply arrayRead_kept hP | apply cnt_kept hP | apply setErr_kept hP | refine ite_kept ?_ ?_) | intro _ | extract_lets | split)

theorem leafLadder_kept (pfa leaf step bits : Nat) (mis : Bool) (h : P s) : P (leafLadder pfa leaf step bits mis s) := by
  unfold leafLadder
  repeat' (first | (with_reducible first | assumption | apply leafFirstFail_kept hP | apply seeReads_kept hP | apply cnt_kept hP | apply partnerReads_kept hP | apply when_kept | apply measOwnStart_kept hP | apply leafServed_kept hP | apply bufferLeaves_kept hP | apply leafFailed_kept hP | refine ite_kept ?_ ?_) | intro _)

theorem measReject_kept (m : Meas) (h : P s) : P (measReject m s) := by
  unfold measReject
  repeat' (first | (with_reducible first | assumption | apply cnt_kept hP | apply hP.drift | apply writeDrec_kept hP | apply setErr_kept hP | apply logPut_kept hP | apply seqAll_kept | apply rwTrigger_kept hP | apply measRemove_kept hP | apply measServe_kept hP | refine ite_kept ?_ ?_) | intro _)

theorem measProbe_kept (m : Meas) (e14 e15 : Nat) (h : P s) : P (measProbe m e14 e15 s) := by
  unfold measProbe
  repeat' (with_reducible first | assumption | apply cnt_kept hP | apply hP.drift | apply measReject_kept hP | apply writeDrec_kept hP | apply measRemove_kept hP | apply measServe_kept hP | refine ite_kept ?_ ?_)

theorem measShift_kept (p : Meas → Bool) (h : P s) : P (measShift p s) := by
  unfold measShift
  repeat' (first | (with_reducible first | assumption | apply hP.drift | refine ite_kept ?_ ?_) | intro _ | split)

theorem drecClear_kept (set : Nat) (h : P s) : P (drecClear set s) := by
  unfold drecClear
  repeat' (with_reducible first | assumption | apply putDrec_kept hP | apply measRemove_kept hP | apply rescore_kept hP)

theorem drecClearAll_kept  (h : P s) : P (drecClearAll s) := by
  unfold drecClearAll
  repeat' (first | (with_reducible first | assumption | apply sweepStatus_kept hP | apply hP.drift | apply seqAll_kept | apply rescore_kept hP) | intro _)

theorem execDriftMinuteTick_kept  {u : State} (e : execDriftMinuteTick s = .next u) (h : P s) : P u := by
  unfold execDriftMinuteTick at e
  injection e with e
  subst e
  repeat' (with_reducible first | assumption | apply hP.drift | apply hP.setF | refine ite_kept ?_ ?_)

theorem execDriftDue_kept (set : Fin 1048576) {u : State} (e : execDriftDue set s = .next u) (h : P s) : P u := by
  unfold execDriftDue at e
  injection e with e
  subst e
  repeat' (with_reducible first | assumption | apply measOwnStart_kept hP | refine ite_kept ?_ ?_)

theorem scrubVisit_kept (leaves : List ScrubLeaf) (h : P s) : P (scrubVisit leaves s) := by
  unfold scrubVisit
  repeat' (first | (with_reducible first | assumption | apply measOwnStart_kept hP | apply seqAll_kept | apply seeReads_kept hP | apply cnt_kept hP | apply leafLadder_kept hP | apply rwPost_kept hP | apply hP.setF | apply incF_kept hP | refine ite_kept ?_ ?_) | intro _ | extract_lets | split)

theorem execScrubVisit_kept (leaves : List ScrubLeaf) {u : State} (e : execScrubVisit leaves s = .next u) (h : P s) : P u := by
  unfold execScrubVisit at e
  injection e with e
  subst e
  repeat' (with_reducible first | assumption | apply scrubVisit_kept hP)

theorem driftQuery_kept (n : Nat) (h : P s) : P (driftQuery n s) := by
  unfold driftQuery
  repeat' (with_reducible first | assumption | apply hP.setF | refine ite_kept ?_ ?_)

theorem execDriftQuery_kept (_m : Master) (v : Word) {u : State} (e : execDriftQuery _m v s = .next u) (h : P s) : P u := by
  unfold execDriftQuery at e
  injection e with e
  subst e
  repeat' (with_reducible first | assumption | apply driftQuery_kept hP)

theorem driftCtl_kept (v : Nat) (h : P s) : P (driftCtl v s) := by
  unfold driftCtl
  repeat' (first | (with_reducible first | assumption | apply storeAt_kept hP | apply sweepStatus_kept hP | apply hP.drift | apply seqAll_kept | apply measServe_kept hP | apply logPut_kept hP | refine ite_kept ?_ ?_) | intro _)

theorem execDriftCtlWrite_kept (_m : Master) (v : BitVec 32) {u : State} (e : execDriftCtlWrite _m v s = .next u) (h : P s) : P u := by
  unfold execDriftCtlWrite at e
  injection e with e
  subst e
  repeat' (with_reducible first | assumption | apply driftCtl_kept hP)

end Sys2Proof.Machine
end

