-- ==== Sys2Proof/Laws/KeptMedia.lean ====
section
/-! SUPPORT. What the operations of Machine/Media.lean keep (Laws/Kept.lean). -/

namespace Sys2Proof.Machine

variable {P : State → Prop} (hP : Closed P) {s t : State}
include hP

theorem modDie_kept (n : Nat) (f : DieSt → DieSt) (h : P s) : P (modDie n f s) := by
  unfold modDie
  repeat' (with_reducible first | assumption | apply hP.med)

theorem dropLatches_kept (n : Nat) (h : P s) : P (dropLatches n s) := by
  unfold dropLatches
  repeat' (with_reducible first | assumption | apply hP.med)

theorem wakeCh_kept (c : Nat) (h : P s) : P (wakeCh c s) := by
  unfold wakeCh
  repeat' (with_reducible first | assumption | apply hP.setF | refine ite_kept ?_ ?_)

theorem fabricOut_kept (c d op res : Nat) (h : P s) : P (fabricOut c d op res s) := by
  unfold fabricOut
  repeat' (with_reducible first | assumption | apply emit_kept hP)

theorem putPlane_kept (n : Nat) (op : PlaneOp) (h : P s) : P (putPlane n op s) := by
  unfold putPlane
  repeat' (with_reducible first | assumption | apply hP.med)

theorem windowCount_kept (c d : Nat) (h : P s) : P (windowCount c d s) := by
  unfold windowCount
  repeat' (first | (with_reducible first | assumption | apply modDie_kept hP | refine ite_kept ?_ ?_) | intro _ | split)

theorem aheadCount_kept (c pfa mask : Nat) (offs : List Int) (h : P s) : P (aheadCount c pfa mask offs s) := by
  unfold aheadCount
  repeat' (first | (with_reducible first | assumption | apply incF_kept hP | apply cnt_kept hP | refine ite_kept ?_ ?_) | intro _ | extract_lets | split)

theorem latchRead_kept (c d p pfa mask : Nat) (offs : List Int) (h : P s) : P (latchRead c d p pfa mask offs s) := by
  unfold latchRead
  repeat' (first | (with_reducible first | assumption | apply hP.med | apply aheadCount_kept hP | apply wakeCh_kept hP | apply windowCount_kept hP | apply incF_kept hP | apply cnt_kept hP) | intro _)

theorem fabRead_kept (c d p f r mask : Nat) (offs : List Int) (h : P s) : P (fabRead c d p f r mask offs s) := by
  unfold fabRead
  repeat' (with_reducible first | assumption | apply fabricOut_kept hP | apply wakeCh_kept hP | apply latchRead_kept hP | apply aheadCount_kept hP | apply windowCount_kept hP | apply putPlane_kept hP | apply arrayRead_kept hP | refine ite_kept ?_ ?_)

theorem execFabRead_kept (c : Fin 32) (d : Fin 8) (p : Fin 4) (f r : Fin 8192) (mask : BitVec 65) (offs : List Int) {u : State} (e : execFabRead c d p f r mask offs s = .next u) (h : P s) : P u := by
  unfold execFabRead at e
  injection e with e
  subst e
  repeat' (with_reducible first | assumption | apply fabRead_kept hP)

theorem fabReadLatch_kept (c d p mask : Nat) (h : P s) : P (fabReadLatch c d p mask s) := by
  unfold fabReadLatch
  repeat' (first | (with_reducible first | assumption | apply latchRead_kept hP | refine ite_kept ?_ ?_) | intro _ | split)

theorem execFabReadLatch_kept (c : Fin 32) (d : Fin 8) (p : Fin 4) (mask : BitVec 65) {u : State} (e : execFabReadLatch c d p mask s = .next u) (h : P s) : P u := by
  unfold execFabReadLatch at e
  injection e with e
  subst e
  repeat' (with_reducible first | assumption | apply fabReadLatch_kept hP)

theorem fabReadStar_kept (c d p f r level : Nat) (sweep : Int) (h : P s) : P (fabReadStar c d p f r level sweep s) := by
  unfold fabReadStar
  repeat' (first | (with_reducible first | assumption | apply fabricOut_kept hP | apply wakeCh_kept hP | apply measReject_kept hP | apply windowCount_kept hP | apply putPlane_kept hP | apply arrayRead_kept hP | refine ite_kept ?_ ?_) | intro _ | extract_lets | split)

theorem execFabReadStar_kept (c : Fin 32) (d : Fin 8) (p : Fin 4) (f : Fin 8192) (r : Fin 2) (level : Fin 16) (sweep : BitVec 8) {u : State} (e : execFabReadStar c d p f r level sweep s = .next u) (h : P s) : P u := by
  unfold execFabReadStar at e
  injection e with e
  subst e
  repeat' (with_reducible first | assumption | apply fabReadStar_kept hP)

theorem starComplete_kept (n res e14 e15 : Nat) (h : P s) : P (starComplete n res e14 e15 s) := by
  unfold starComplete
  repeat' (first | (with_reducible first | assumption | apply hP.med | apply measShift_kept hP | apply measReject_kept hP | apply measProbe_kept hP | refine ite_kept ?_ ?_) | intro _ | extract_lets | split)

theorem planeOut_kept (plane : Nat) (star : Bool) (h : P s) : P (planeOut plane star s) := by
  unfold planeOut
  repeat' (first | (with_reducible first | assumption | apply fabricOut_kept hP | refine ite_kept ?_ ?_) | intro _ | split)

theorem execReadStarComplete_kept (plane : Fin 1024) (refused : Bool) (e14 e15 : Fin 577) {u : State} (e : execReadStarComplete plane refused e14 e15 s = .next u) (h : P s) : P u := by
  unfold execReadStarComplete at e
  injection e with e
  subst e
  repeat' (first | (with_reducible first | assumption | apply starComplete_kept hP | apply planeOut_kept hP | refine ite_kept ?_ ?_) | split)

theorem laneCount_kept (n : Nat) (h : P s) : P (laneCount n s) := by
  unfold laneCount
  repeat' (with_reducible first | assumption | apply cnt_kept hP)

theorem image4_keptO {p : Nat} {x : MRow} (e : image4 p s = some (x, t)) (h : P s) : P t := by
  unfold image4 at e
  dsimp only at e
  repeat' split at e
  all_goals
    first
      | (cases e; done)
      | (cases e; first
          | with_reducible exact hP.fld h
          | with_reducible exact hP.fld (stageRead_kept hP _ (laneCount_kept hP _ (putFrame_kept hP _ _ h))))

theorem image1_keptO {p : Nat} {x : MRow} (e : image1 p s = some (x, t)) (h : P s) : P t := by
  unfold image1 at e
  dsimp only at e
  repeat' split at e
  all_goals
    first
      | (cases e; done)
      | (cases e; first
          | exact h
          | exact hP.dur h)

theorem images_keptO {m : Bool} {l : List Nat} {x : List (Nat × MRow)} (e : images m l s = some (x, t)) (h : P s) : P t := by
  induction l generalizing s x with
  | nil => cases e; exact h
  | cons p l ih =>
    unfold images at e
    split at e
    · cases e
    · rename_i r s1 e1
      have h1 : P s1 := by
        split at e1
        · exact image1_keptO hP e1 h
        · exact image4_keptO hP e1 h
      split at e
      · cases e
      · rename_i rs s2 e2
        cases e
        exact ih e2 h1

theorem dieStart_kept (c d op : Nat) (pfas : List Nat) (h : P s) : P (dieStart c d op pfas s) := by
  unfold dieStart
  repeat' (with_reducible first | assumption | apply dropLatches_kept hP | apply wakeCh_kept hP | apply hP.setF)

theorem holdStart_kept (c d : Nat) (h : P s) : P (holdStart c d s) := by
  unfold holdStart
  repeat' (first | (with_reducible first | assumption | apply dieStart_kept hP | apply modDie_kept hP | refine ite_kept ?_ ?_) | intro _ | split)

theorem groupNext_kept (g : Nat) (h : P s) : P (groupNext g s) := by
  unfold groupNext
  repeat' (first | (with_reducible first | assumption | apply seqAll_kept | apply holdStart_kept hP | refine ite_kept ?_ ?_) | intro _ | split)

theorem dieIdle_kept (c d : Nat) (h : P s) : P (dieIdle c d s) := by
  unfold dieIdle
  repeat' (with_reducible first | assumption | apply groupNext_kept hP | apply modDie_kept hP | apply hP.setF)

theorem fabProgram_kept (c d : Nat) (mode1 : Bool) (rows : List PlaneRow) (h : P s) : P (fabProgram c d mode1 rows s) := by
  unfold fabProgram
  repeat' (first | (with_reducible first | assumption | apply images_keptO hP (by assumption) | apply dieStart_kept hP | apply modDie_kept hP | apply dropLatches_kept hP | apply wakeCh_kept hP | refine ite_kept ?_ ?_) | intro _ | extract_lets | split)

theorem execFabProgram_kept (c : Fin 32) (d : Fin 8) (mode1 : Bool) (rows : List PlaneRow) {u : State} (e : execFabProgram c d mode1 rows s = .next u) (h : P s) : P u := by
  unfold execFabProgram at e
  injection e with e
  subst e
  repeat' (with_reducible first | assumption | apply fabProgram_kept hP)

theorem fabErase_kept (c d : Nat) (mode1 : Bool) (rows : List PlaneRow) (h : P s) : P (fabErase c d mode1 rows s) := by
  unfold fabErase
  repeat' (with_reducible first | assumption | apply dieStart_kept hP | apply modDie_kept hP | refine ite_kept ?_ ?_)

theorem execFabErase_kept (c : Fin 32) (d : Fin 8) (mode1 : Bool) (rows : List PlaneRow) {u : State} (e : execFabErase c d mode1 rows s = .next u) (h : P s) : P u := by
  unfold execFabErase at e
  injection e with e
  subst e
  repeat' (with_reducible first | assumption | apply fabErase_kept hP)

theorem fabSuspend_kept (c d : Nat) (h : P s) : P (fabSuspend c d s) := by
  unfold fabSuspend
  repeat' (with_reducible first | assumption | apply modDie_kept hP | apply dropLatches_kept hP | apply hP.setF | apply incF_kept hP | apply cnt_kept hP | refine ite_kept ?_ ?_)

theorem execFabSuspend_kept (c : Fin 32) (d : Fin 8) {u : State} (e : execFabSuspend c d s = .next u) (h : P s) : P u := by
  unfold execFabSuspend at e
  injection e with e
  subst e
  repeat' (with_reducible first | assumption | apply fabSuspend_kept hP)

theorem suspendDone_kept (c d : Nat) (h : P s) : P (suspendDone c d s) := by
  unfold suspendDone
  repeat' (with_reducible first | assumption | apply modDie_kept hP | apply hP.setF | apply fabricOut_kept hP | refine ite_kept ?_ ?_)

theorem execSuspendDone_kept (c : Fin 32) (d : Fin 8) {u : State} (e : execSuspendDone c d s = .next u) (h : P s) : P u := by
  unfold execSuspendDone at e
  injection e with e
  subst e
  repeat' (with_reducible first | assumption | apply suspendDone_kept hP)

theorem dieResume_kept (c d : Nat) (h : P s) : P (dieResume c d s) := by
  unfold dieResume
  repeat' (first | (with_reducible first | assumption | apply dropLatches_kept hP | apply hP.setF | apply modDie_kept hP | apply fabricOut_kept hP | apply when_kept | apply incF_kept hP | apply cnt_kept hP | refine ite_kept ?_ ?_) | intro _ | split)

theorem fabResume_kept (c d : Nat) (h : P s) : P (fabResume c d s) := by
  unfold fabResume
  repeat' (first | (with_reducible first | assumption | apply dieResume_kept hP | refine ite_kept ?_ ?_) | intro _ | extract_lets)

theorem execFabResume_kept (c : Fin 32) (d : Fin 8) {u : State} (e : execFabResume c d s = .next u) (h : P s) : P u := by
  unfold execFabResume at e
  injection e with e
  subst e
  repeat' (with_reducible first | assumption | apply fabResume_kept hP)

theorem execSuspendWindowEnd_kept (c : Fin 32) (d : Fin 8) {u : State} (e : execSuspendWindowEnd c d s = .next u) (h : P s) : P u := by
  unfold execSuspendWindowEnd at e
  injection e with e
  subst e
  repeat' (with_reducible first | assumption | apply dieResume_kept hP)

theorem execProgressSliceEnd_kept (c : Fin 32) (d : Fin 8) {u : State} (e : execProgressSliceEnd c d s = .next u) (h : P s) : P u := by
  unfold execProgressSliceEnd at e
  injection e with e
  subst e
  repeat' (with_reducible first | assumption | apply hP.setF | apply modDie_kept hP | refine ite_kept ?_ ?_)

theorem fabIdent_kept (c d : Nat) (h : P s) : P (fabIdent c d s) := by
  unfold fabIdent
  repeat' (with_reducible first | assumption | apply wakeCh_kept hP | apply dropLatches_kept hP | apply modDie_kept hP | refine ite_kept ?_ ?_)

theorem execFabIdent_kept (c : Fin 32) (d : Fin 8) {u : State} (e : execFabIdent c d s = .next u) (h : P s) : P u := by
  unfold execFabIdent at e
  injection e with e
  subst e
  repeat' (with_reducible first | assumption | apply fabIdent_kept hP)

theorem fabTrain_kept (c step : Nat) (h : P s) : P (fabTrain c step s) := by
  unfold fabTrain
  repeat' (with_reducible first | assumption | apply hP.med | apply wakeCh_kept hP | refine ite_kept ?_ ?_)

theorem execFabTrain_kept (c : Fin 32) (step : Fin 6) {u : State} (e : execFabTrain c step s = .next u) (h : P s) : P u := by
  unfold execFabTrain at e
  injection e with e
  subst e
  repeat' (with_reducible first | assumption | apply fabTrain_kept hP)

theorem measWait_kept (pfa : Nat) (host : Bool) (h : P s) : P (measWait pfa host s) := by
  unfold measWait
  repeat' (first | (with_reducible first | assumption | apply measStart_kept hP | refine ite_kept ?_ ?_) | intro _ | extract_lets | split)

theorem rebuildCount_kept (c : Nat) (w : RbWhy) (h : P s) : P (rebuildCount c w s) := by
  unfold rebuildCount
  repeat' (first | (with_reducible first | assumption | apply when_kept | apply incF_kept hP) | intro _)

theorem unitWait_kept (pfa : Nat) (host : Bool) (h : P s) : P (unitWait pfa host s) := by
  unfold unitWait
  repeat' (first | (with_reducible first | assumption | apply measWait_kept hP | refine ite_kept ?_ ?_) | intro _ | split)

theorem unitSense_kept (pfa : Nat) (h : P s) : P (unitSense pfa s) := by
  unfold unitSense
  repeat' (first | (with_reducible first | assumption | apply incF_kept hP | apply cnt_kept hP | apply arrayRead_kept hP | apply hP.med | refine ite_kept ?_ ?_) | intro _ | extract_lets | split)

theorem unitRow_kept (pfa : Nat) (how : UnitRead) (leaves : List LeafRes) (all_ : List Nat) (h : P s) : P (unitRow pfa how leaves all_ s) := by
  unfold unitRow
  repeat' (first | (with_reducible first | assumption | apply bufferLeaves_kept hP | apply seqAll_kept | apply leafLadder_kept hP | apply unitSense_kept hP | apply rebuildCount_kept hP | apply partnerReads_kept hP) | intro _ | split)

end Sys2Proof.Machine
end

