-- ==== Sys2Proof/Laws/KeptStage.lean ====
section
/-! SUPPORT. What the operations of Machine/Stage.lean keep (Laws/Kept.lean). -/

namespace Sys2Proof.Machine

variable {P : State → Prop} (hP : Closed P) {s t : State}
include hP

theorem putJob_kept (pfa : Nat) (j : RowJob) (h : P s) : P (putJob pfa j s) := by
  unfold putJob
  repeat' (with_reducible first | assumption | apply hP.fld)

theorem slotGiven_kept (set slot : Nat) (j : RowJob) (h : P s) : P (slotGiven set slot j s) := by
  unfold slotGiven
  repeat' (first | (with_reducible first | assumption | apply putJob_kept hP | apply when_kept | apply modOpen_kept hP) | intro _)

theorem closeIfDone_kept (set : Nat) (h : P s) : P (closeIfDone set s) := by
  unfold closeIfDone
  repeat' (first | (with_reducible first | assumption | apply closeSet_kept hP | refine ite_kept ?_ ?_) | intro _ | split)

theorem fillRow_kept (set : Nat) (h : P s) : P (fillRow set s) := by
  unfold fillRow
  repeat' (first | (with_reducible first | assumption | apply seqAll_kept | apply slotGiven_kept hP | refine ite_kept ?_ ?_) | intro _ | split)

theorem padSet_kept (set : Nat) (h : P s) : P (padSet set s) := by
  unfold padSet
  repeat' (with_reducible first | assumption | apply closeIfDone_kept hP | apply modOpen_kept hP | apply fillRow_kept hP)

theorem makeRoom_kept (g stream n : Nat) (h : P s) : P (makeRoom g stream n s) := by
  unfold makeRoom
  repeat' (first | (with_reducible first | assumption | apply openStream_kept hP | apply seqAll_kept | apply padSet_kept hP | refine ite_kept ?_ ?_) | intro _)

theorem placeAt_kept (set slot t : Nat) (run : Bool) (h : P s) : P (placeAt set slot t run s) := by
  unfold placeAt
  repeat' (first | (with_reducible first | assumption | apply putFrame_kept hP | apply slotGiven_kept hP) | intro _ | split)

theorem placeAll_kept (g stream : Nat) (toks : List Nat) (run : Bool) (h : P s) : P (placeAll g stream toks run s) := by
  unfold placeAll
  repeat' (first | (with_reducible first | assumption | apply makeRoom_kept hP | apply placeAt_kept hP | refine foldl_kept2 ?_ ?_ | refine foldl_kept2E (by assumption) ?_ ?_ | refine foldl_kept ?_ ?_ | refine ite_kept ?_ ?_) | intro _ | extract_lets | split)

theorem stagingPlace_kept (g : Nat) (h : P s) : P (stagingPlace g s) := by
  unfold stagingPlace
  repeat' (first | (with_reducible first | assumption | apply placeAll_kept hP | refine ite_kept ?_ ?_) | intro _ | split)

theorem execStagingPlace_kept (g : Fin 32) {u : State} (e : execStagingPlace g s = .next u) (h : P s) : P u := by
  unfold execStagingPlace at e
  injection e with e
  subst e
  repeat' (with_reducible first | assumption | apply stagingPlace_kept hP)

theorem execFillerTimeout_kept (set : Fin 1048576) {u : State} (e : execFillerTimeout set s = .next u) (h : P s) : P u := by
  unfold execFillerTimeout at e
  injection e with e
  subst e
  repeat' (with_reducible first | assumption | apply fillRow_kept hP | refine ite_kept ?_ ?_)

theorem modMover_kept (m : Nat) (f : Mover → Mover) (h : P s) : P (modMover m f s) := by
  unfold modMover
  repeat' (with_reducible first | assumption | apply hP.fld)

theorem gcActive_kept  (h : P s) : P (gcActive s) := by
  unfold gcActive
  repeat' (with_reducible first | assumption | apply setB_kept hP)

theorem moverIdle_kept (m : Nat) (h : P s) : P (moverIdle m s) := by
  unfold moverIdle
  repeat' (with_reducible first | assumption | apply gcActive_kept hP | apply modMover_kept hP | apply hP.setF | apply cnt_kept hP)

theorem ringSealed_kept (ctx : Option Nat) (ok : Bool) (h : P s) : P (ringSealed ctx ok s) := by
  unfold ringSealed
  repeat' (first | (with_reducible first | assumption | apply hP.ring | refine ite_kept ?_ ?_) | intro _ | extract_lets | split)

theorem moverEnd_kept (m : Nat) (h : P s) : P (moverEnd m s) := by
  unfold moverEnd
  repeat' (with_reducible first | assumption | apply modSet_kept hP | apply hP.fld | apply campaignStop_kept hP | apply moverIdle_kept hP | apply rescore_kept hP | refine ite_kept ?_ ?_)

theorem moverDone_kept (m n : Nat) (h : P s) : P (moverDone m n s) := by
  unfold moverDone
  repeat' (with_reducible first | assumption | apply incF_kept hP | apply cnt_kept hP)

theorem moverSkip_kept (m n : Nat) (h : P s) : P (moverSkip m n s) := by
  unfold moverSkip
  repeat' (with_reducible first | assumption | apply incF_kept hP)

theorem freeFrame_kept (t : Nat) (h : P s) : P (freeFrame t s) := by
  unfold freeFrame
  repeat' (with_reducible first | assumption | apply coalStatus_kept hP | apply hP.coal)

theorem sealInPlace_kept (fr : Frame) (pfa : Nat) (h : P s) : P (sealInPlace fr pfa s) := by
  unfold sealInPlace
  repeat' (first | (with_reducible first | assumption | apply folioWhole_kept hP | apply cnt_kept hP | refine ite_kept ?_ ?_) | intro _ | extract_lets | split)

theorem switchHost_kept (t : Nat) (fr : Frame) (pfa : Nat) (h : P s) : P (switchHost t fr pfa s) := by
  unfold switchHost
  repeat' (with_reducible first | assumption | apply putFrame_kept hP | apply setFrame_kept hP | apply unitAdd_kept hP | apply freeFrame_kept hP | apply hP.coal | apply cnt_kept hP | apply sealInPlace_kept hP | refine ite_kept ?_ ?_)

theorem switchOne_kept (m t : Nat) (fr : Frame) (pfa : Nat) (h : P s) : P (switchOne m t fr pfa s) := by
  unfold switchOne
  repeat' (with_reducible first | assumption | apply freeFrame_kept hP | apply setFrame_kept hP | apply unitAdd_kept hP | apply unitSub_kept hP | apply moverDone_kept hP | apply moverSkip_kept hP | refine ite_kept ?_ ?_)

theorem switchSeal_kept (m : Nat) (fr : Frame) (set slot : Nat) (h : P s) : P (switchSeal m fr set slot s) := by
  unfold switchSeal
  repeat' (with_reducible first | assumption | apply folioWhole_kept hP | apply cnt_kept hP | apply incF_kept hP | apply ringSealed_kept hP | apply moverIdle_kept hP | apply setErr_kept hP | refine ite_kept ?_ ?_)

theorem switchRun_kept (m : Nat) (fr : Frame) (set slot : Nat) (fs : List (Nat × Frame)) (h : P s) : P (switchRun m fr set slot fs s) := by
  unfold switchRun
  repeat' (first | (with_reducible first | assumption | apply setFolio_kept hP | apply seqAll_kept | apply unitAdd_kept hP | apply unitSub_kept hP | apply moverDone_kept hP | apply setFrame_kept hP | apply moverSkip_kept hP | refine ite_kept ?_ ?_) | intro _)

theorem switchCopy_kept (m t : Nat) (fr : Frame) (pfa : Nat) (h : P s) : P (switchCopy m t fr pfa s) := by
  unfold switchCopy
  repeat' (first | (with_reducible first | assumption | apply putFrame_kept hP | apply seqAll_kept | apply freeFrame_kept hP | apply switchSeal_kept hP | apply moverEnd_kept hP | apply switchRun_kept hP | apply switchOne_kept hP | refine ite_kept ?_ ?_) | intro _ | extract_lets | split)

theorem switchFrame_kept (t : Nat) (pfa : Nat) (h : P s) : P (switchFrame t pfa s) := by
  unfold switchFrame
  repeat' (first | (with_reducible first | assumption | apply switchCopy_kept hP | apply switchHost_kept hP | refine ite_kept ?_ ?_) | intro _ | split)

theorem openSystem_kept (g use : Nat) (h : P s) : P (openSystem g use s) := by
  unfold openSystem
  repeat' (first | (with_reducible first | assumption | apply seqAll_kept | apply openSet_kept hP) | intro _ | extract_lets)

theorem openJournal_kept (g : Nat) (h : P s) : P (openJournal g s) := by
  unfold openJournal
  repeat' (first | (with_reducible first | assumption | apply openSystem_kept hP | refine ite_kept ?_ ?_) | intro _)

theorem rowComplete_kept (o : OpenSet) (h : P s) : P (rowComplete o s) := by
  unfold rowComplete
  repeat' (first | (with_reducible first | assumption | apply modOpen_kept hP | apply modSet_kept hP | apply openJournal_kept hP | apply closeSet_kept hP | apply seqAll_kept | apply switchFrame_kept hP | apply closeIfDone_kept hP | refine ite_kept ?_ ?_) | intro _ | extract_lets | split)

theorem rowDone_kept (pfa : Nat) (r : MRow) (h : P s) : P (rowDone pfa r s) := by
  unfold rowDone
  repeat' (first | (with_reducible first | assumption | apply hP.med | apply holdTouch_kept hP | apply modOpen_kept hP | apply writeDrec_kept hP | apply rowComplete_kept hP | apply journalDone_kept hP | refine ite_kept ?_ ?_) | intro _ | extract_lets | split | (rename_i x; clear_value x; split) | (dsimp +zetaDelta only; split) | with_reducible refine ite_kept2E (by assumption) ?_ ?_ | (have e := ‹Option.map _ _ = some _›; simp only [Option.map_eq_some_iff, Prod.mk.injEq] at e; obtain ⟨_, _, _, e⟩ := e; subst e))

theorem unplace_kept (set : Nat) (h : P s) : P (unplace set s) := by
  unfold unplace
  repeat' (first | (with_reducible first | assumption | apply hP.coal | apply seqAll_kept | apply modMover_kept hP | apply reseal_kept hP | refine ite_kept ?_ ?_) | intro _ | extract_lets | split | (rename_i x; clear_value x; split) | (dsimp +zetaDelta only; split) | with_reducible refine ite_kept2E (by assumption) ?_ ?_ | (have e := ‹Option.map _ _ = some _›; simp only [Option.map_eq_some_iff, Prod.mk.injEq] at e; obtain ⟨_, _, _, e⟩ := e; subst e))

theorem retarget_kept (g : Nat) (m : Nat) (h : P s) : P (retarget g m s) := by
  unfold retarget
  repeat' (first | (with_reducible first | assumption | apply openStream_kept hP | apply placeAll_kept hP | apply seqAll_kept | refine ite_kept ?_ ?_) | intro _)

theorem closeEarly_kept (set : Nat) (fail : Bool) (h : P s) : P (closeEarly set fail s) := by
  unfold closeEarly
  repeat' (first | (with_reducible first | assumption | apply closeSet_kept hP | apply unplace_kept hP | apply openJournal_kept hP | refine ite_kept ?_ ?_) | intro _)

theorem rowFail_kept (pfa : Nat) (r : MRow) (h : P s) : P (rowFail pfa r s) := by
  unfold rowFail
  repeat' (with_reducible first | assumption | apply hP.med | apply setErr_kept hP | apply cnt_kept hP | apply fieldBad_kept hP | apply closeEarly_kept hP)

theorem programEnd_kept (c d : Nat) (fails : List Nat) (h : P s) : P (programEnd c d fails s) := by
  unfold programEnd
  repeat' (first | (with_reducible first | assumption | apply dieIdle_kept hP | apply cnt_kept hP | apply seqAll_kept | apply rowDone_kept hP | apply rowFail_kept hP | refine ite_kept ?_ ?_) | intro _ | extract_lets | split)

theorem seeClear_kept (fno : Nat) (h : P s) : P (seeClear fno s) := by
  unfold seeClear
  repeat' (first | (with_reducible first | assumption | apply modSee_kept hP | apply hP.drift) | intro _)

theorem fieldErased_kept (fno : Nat) (h : P s) : P (fieldErased fno s) := by
  unfold fieldErased
  repeat' (with_reducible first | assumption | apply seeClear_kept hP | apply hP.med)

theorem eraseSetCheck_kept (set : Nat) (h : P s) : P (eraseSetCheck set s) := by
  unfold eraseSetCheck
  repeat' (with_reducible first | assumption | apply eraseEnd_kept hP | refine ite_kept ?_ ?_)

theorem eraseDone_kept (c d : Nat) (fails : List Nat) (h : P s) : P (eraseDone c d fails s) := by
  unfold eraseDone
  repeat' (first | (with_reducible first | assumption | apply dieIdle_kept hP | apply cnt_kept hP | apply seqAll_kept | apply setErr_kept hP | apply fieldBad_kept hP | apply fieldErased_kept hP | apply drecClear_kept hP | apply fieldTo_kept hP | apply fldRecount_kept hP | apply eraseSetCheck_kept hP | apply hP.setF | refine ite_kept ?_ ?_) | intro _ | extract_lets | split)

theorem execEraseComplete_kept (c : Fin 32) (d : Fin 8) (fails : List (Fin 4)) {u : State} (e : execEraseComplete c d fails s = .next u) (h : P s) : P u := by
  unfold execEraseComplete at e
  injection e with e
  subst e
  repeat' (first | (with_reducible first | assumption | apply eraseDone_kept hP | apply fabricOut_kept hP | refine ite_kept ?_ ?_) | intro _ | extract_lets | split | (rename_i x; clear_value x; split) | (dsimp +zetaDelta only; split) | with_reducible refine ite_kept2E (by assumption) ?_ ?_ | (have e := ‹Option.map _ _ = some _›; simp only [Option.map_eq_some_iff, Prod.mk.injEq] at e; obtain ⟨_, _, _, e⟩ := e; subst e))

theorem sysErase_kept (set : Nat) (h : P s) : P (sysErase set s) := by
  unfold sysErase
  repeat' (first | (with_reducible first | assumption | apply seqAll_kept | apply modFrec_kept hP | apply hP.fld | refine ite_kept ?_ ?_) | intro _)

theorem setErase_kept (set : Nat) (h : P s) : P (setErase set s) := by
  unfold setErase
  repeat' (with_reducible first | assumption | apply hP.fld | refine ite_kept ?_ ?_)

theorem execSetErase_kept (set : Fin 1048576) {u : State} (e : execSetErase set s = .next u) (h : P s) : P u := by
  unfold execSetErase at e
  injection e with e
  subst e
  repeat' (with_reducible first | assumption | apply setErase_kept hP)

theorem abortDie_kept (c d : Nat) (h : P s) : P (abortDie c d s) := by
  unfold abortDie
  repeat' (first | (with_reducible first | assumption | apply hP.med | apply dropLatches_kept hP | apply reseal_kept hP | apply dieIdle_kept hP | apply seqAll_kept | apply rowFail_kept hP | refine ite_kept ?_ ?_) | intro _ | extract_lets | split)

theorem fabResetDie_kept (c d : Nat) (h : P s) : P (fabResetDie c d s) := by
  unfold fabResetDie
  repeat' (with_reducible first | assumption | apply modDie_kept hP | apply wakeCh_kept hP | apply abortDie_kept hP | refine ite_kept ?_ ?_)

theorem execFabResetDie_kept (c : Fin 32) (d : Fin 8) {u : State} (e : execFabResetDie c d s = .next u) (h : P s) : P u := by
  unfold execFabResetDie at e
  injection e with e
  subst e
  repeat' (with_reducible first | assumption | apply fabResetDie_kept hP)

end Sys2Proof.Machine
end

