-- ==== Sys2Proof/Laws/KeptMovers.lean ====
section
/-! SUPPORT. What the operations of Machine/Movers.lean keep (Laws/Kept.lean). -/

namespace Sys2Proof.Machine

variable {P : State → Prop} (hP : Closed P) {s t : State}
include hP

theorem moverYield_kept (m : Nat) (h : P s) : P (moverYield m s) := by
  unfold moverYield
  repeat' (with_reducible first | assumption | apply gcActive_kept hP | apply modMover_kept hP | apply hP.fld | apply hP.setF)

theorem moverTake_keptO (m job : Nat) {u : State} (e : moverTake m job s = some u) (h : P s) : P u := by
  unfold moverTake at e
  dsimp only at e
  repeat' split at e
  all_goals first
    | (cases e; done)
    | (cases e; repeat' (with_reducible first | assumption | apply moverYield_kept hP))

theorem moverStart_kept (m : Nat) (v : Mover) (h : P s) : P (moverStart m v s) := by
  unfold moverStart
  repeat' (with_reducible first | assumption | apply gcActive_kept hP | apply modMover_kept hP | apply hP.setF)

theorem takeSet_kept (m job set : Nat) (h : P s) : P (takeSet m job set s) := by
  unfold takeSet
  repeat' (with_reducible first | assumption | apply modSet_kept hP | apply rescore_kept hP | apply moverStart_kept hP)

theorem heldReads_kept (pfa : Nat) (h : P s) : P (heldReads pfa s) := by
  unfold heldReads
  repeat' (first | (with_reducible first | assumption | apply seeReads_kept hP | apply cnt_kept hP) | intro _ | extract_lets)

theorem framePin_kept (pfa : Nat) (h : P s) : P (framePin pfa s) := by
  unfold framePin
  repeat' (with_reducible first | assumption | apply modFrec_kept hP | apply rescore_kept hP | apply setErr_kept hP | apply logPut_kept hP)

theorem frameVain_kept (pfa leaf : Nat) (how : UnitRead) (leaves : List LeafRes) (h : P s) : P (frameVain pfa leaf how leaves s) := by
  unfold frameVain
  repeat' (first | (with_reducible first | assumption | apply unitRow_kept hP | apply framePin_kept hP | apply leafFailed_kept hP | refine ite_kept ?_ ?_) | intro _ | extract_lets | split)

theorem takeCopy_kept (m pfa : Nat) (r : MRow) (how : UnitRead) (leaves : List LeafRes) (h : P s) : P (takeCopy m pfa r how leaves s).2 := by
  unfold takeCopy
  repeat' (first | (with_reducible first | assumption | apply coalStatus_kept hP | apply stageWrite_kept hP | apply putFrame_kept hP | apply unitRow_kept hP | apply when_kept | apply heldReads_kept hP | apply takeCredit_kept hP) | intro _ | extract_lets | split | (rename_i x; clear_value x; split) | (dsimp +zetaDelta only; split) | with_reducible refine ite_kept2E (by assumption) ?_ ?_ | (have e := ‹Option.map _ _ = some _›; simp only [Option.map_eq_some_iff, Prod.mk.injEq] at e; obtain ⟨_, _, _, e⟩ := e; subst e))

theorem takeCopy_keptE (m pfa : Nat) (r : MRow) (how : UnitRead) (leaves : List LeafRes) {x : Nat} {u : State} (e : takeCopy m pfa r how leaves s = (x, u)) (h : P s) : P u := by
  have := takeCopy_kept hP m pfa r how leaves h
  rw [e] at this
  exact this

theorem takeRun_kept (m : Nat) (leaves : List SlotLeaf) (slots : List Nat) (h : P s) : P (takeRun m leaves slots s).2 := by
  unfold takeRun
  repeat' (first | (with_reducible first | assumption | apply takeCopy_kept hP | apply takeCopy_keptE hP _ _ _ _ _ (by assumption) | apply putFrame_kept hP | refine foldl_kept2 ?_ ?_ | refine foldl_kept2E (by assumption) ?_ ?_ | refine foldl_kept ?_ ?_) | intro _ | extract_lets | split)

theorem takeRun_keptE (m : Nat) (leaves : List SlotLeaf) (slots : List Nat) {x : List Nat} {u : State} (e : takeRun m leaves slots s = (x, u)) (h : P s) : P u := by
  have := takeRun_kept hP m leaves slots h
  rw [e] at this
  exact this

theorem copySlot_kept (m g : Nat) (leaves : List SlotLeaf) (h : P s) : P (copySlot m g leaves s).2 := by
  unfold copySlot
  repeat' (first | (with_reducible first | assumption | apply modMover_kept hP | apply unitWait_kept hP | apply moverSkip_kept hP | apply unitRow_kept hP | apply frameVain_kept hP | apply takeCopy_kept hP | apply takeCopy_keptE hP _ _ _ _ _ (by assumption) | apply placeAll_kept hP | apply folioSplit_kept hP | apply takeRun_kept hP | apply takeRun_keptE hP _ _ _ (by assumption) | refine ite_kept2 ?_ ?_ | refine ite_kept ?_ ?_) | intro _ | extract_lets | split)

theorem copySlot_keptE (m g : Nat) (leaves : List SlotLeaf) {x : Bool} {u : State} (e : copySlot m g leaves s = (x, u)) (h : P s) : P u := by
  have := copySlot_kept hP m g leaves h
  rw [e] at this
  exact this

theorem copySlots_kept (m g : Nat) (leaves : List SlotLeaf) (n : Nat) (h : P s) : P (copySlots m g leaves n s) := by
  induction n generalizing s with
  | zero => exact h
  | succ n ih =>
    unfold copySlots
    split
    · exact ih (copySlot_keptE hP _ _ _ (by assumption) h)
    · exact copySlot_keptE hP _ _ _ (by assumption) h

theorem copyBatch_kept (m g : Nat) (leaves : List SlotLeaf) (h : P s) : P (copyBatch m g leaves s) := by
  unfold copyBatch
  repeat' (first | (with_reducible first | assumption | apply moverEnd_kept hP | apply retarget_kept hP | apply copySlots_kept hP | apply modMover_kept hP | refine ite_kept ?_ ?_) | intro _ | extract_lets | split | (rename_i x; clear_value x; split) | (dsimp +zetaDelta only; split) | with_reducible refine ite_kept2E (by assumption) ?_ ?_ | (have e := ‹Option.map _ _ = some _›; simp only [Option.map_eq_some_iff, Prod.mk.injEq] at e; obtain ⟨_, _, _, e⟩ := e; subst e))

theorem copyJob_kept (m g job : Nat) (leaves : List SlotLeaf) {pick : State → Option (Nat × State)}
    (hp : ∀ {s x t}, pick s = some (x, t) → P s → P t) (h : P s) : P (copyJob m g job leaves pick s) := by
  unfold copyJob
  split
  · split
    · exact copyBatch_kept hP _ _ _ h
    · exact h
  · split
    · split
      · exact h
      · have h1 := moverTake_keptO hP _ _ (by assumption) h
        split
        · exact copyBatch_kept hP _ _ _ (moverStart_kept hP _ _ (hP.fld h1))
        · split
          · exact copyBatch_kept hP _ _ _ (takeSet_kept hP _ _ _ (hp (by assumption) h1))
          · exact h
    · exact h

theorem victimShow_kept (set job : Nat) (sc : Int) (h : P s) : P (victimShow set job sc s) := by
  unfold victimShow
  repeat' (with_reducible first | assumption | apply hP.setF)

theorem execGcJob_kept (m : Fin 4) (g : Fin 32) (leaves : List SlotLeaf) {u : State} (e : execGcJob m g leaves s = .next u) (h : P s) : P u := by
  unfold execGcJob at e
  injection e with e
  subst e
  repeat' (first | (with_reducible first | assumption | apply copyJob_kept hP | apply victimShow_kept hP) | intro _ | extract_lets | split | (rename_i x; clear_value x; split) | (dsimp +zetaDelta only; split) | with_reducible refine ite_kept2E (by assumption) ?_ ?_ | (have e := ‹Option.map _ _ = some _›; simp only [Option.map_eq_some_iff, Prod.mk.injEq] at e; obtain ⟨_, _, _, e⟩ := e; subst e))

theorem execWearJob_kept (m : Fin 4) (g : Fin 32) (leaves : List SlotLeaf) {u : State} (e : execWearJob m g leaves s = .next u) (h : P s) : P u := by
  unfold execWearJob at e
  injection e with e
  subst e
  repeat' (first | (with_reducible first | assumption | apply copyJob_kept hP | apply victimShow_kept hP) | intro _ | extract_lets | split | (rename_i x; clear_value x; split) | (dsimp +zetaDelta only; split) | with_reducible refine ite_kept2E (by assumption) ?_ ?_ | (have e := ‹Option.map _ _ = some _›; simp only [Option.map_eq_some_iff, Prod.mk.injEq] at e; obtain ⟨_, _, _, e⟩ := e; subst e))

theorem rwqDrop_kept  (h : P s) : P (rwqDrop s) := by
  unfold rwqDrop
  repeat' (with_reducible first | assumption | apply hP.drift | apply hP.setF)

theorem execRewriteJob_kept (m : Fin 4) (g : Fin 32) (leaves : List SlotLeaf) {u : State} (e : execRewriteJob m g leaves s = .next u) (h : P s) : P u := by
  unfold execRewriteJob at e
  injection e with e
  subst e
  repeat' (first | (with_reducible first | assumption | apply copyJob_kept hP | apply victimShow_kept hP | apply hP.drift | apply hP.setF | apply rwqDrop_kept hP | refine ite_kept ?_ ?_) | intro _ | extract_lets | split | (rename_i x; clear_value x; split) | (dsimp +zetaDelta only; split) | with_reducible refine ite_kept2E (by assumption) ?_ ?_ | (have e := ‹Option.map _ _ = some _›; simp only [Option.map_eq_some_iff, Prod.mk.injEq] at e; obtain ⟨_, _, _, e⟩ := e; subst e))

theorem execRelocateJob_kept (m : Fin 4) (g : Fin 32) (leaves : List SlotLeaf) {u : State} (e : execRelocateJob m g leaves s = .next u) (h : P s) : P u := by
  unfold execRelocateJob at e
  injection e with e
  subst e
  repeat' (first | (with_reducible first | assumption | apply copyJob_kept hP | apply victimShow_kept hP | apply hP.fld) | intro _ | extract_lets | split | (rename_i x; clear_value x; split) | (dsimp +zetaDelta only; split) | with_reducible refine ite_kept2E (by assumption) ?_ ?_ | (have e := ‹Option.map _ _ = some _›; simp only [Option.map_eq_some_iff, Prod.mk.injEq] at e; obtain ⟨_, _, _, e⟩ := e; subst e))

theorem verifyLeaf_kept (set : Nat) (l : BadLeaf) (h : P s) : P (verifyLeaf set l s) := by
  unfold verifyLeaf
  repeat' (first | (with_reducible first | assumption | apply leafLadder_kept hP | apply when_kept | apply heldReads_kept hP | apply setErr_kept hP | apply fieldBad_kept hP | apply rwPost_kept hP | apply modSee_kept hP | refine ite_kept ?_ ?_) | intro _ | extract_lets | split | (rename_i x; clear_value x; split) | (dsimp +zetaDelta only; split) | with_reducible refine ite_kept2E (by assumption) ?_ ?_ | (have e := ‹Option.map _ _ = some _›; simp only [Option.map_eq_some_iff, Prod.mk.injEq] at e; obtain ⟨_, _, _, e⟩ := e; subst e))

theorem verifyJob_kept (m : Nat) (leaves : List BadLeaf) (h : P s) : P (verifyJob m leaves s) := by
  unfold verifyJob
  repeat' (first | (with_reducible first | assumption | apply moverTake_keptO hP _ _ (by assumption) | apply unitWait_kept hP | apply seqAll_kept | apply seeReads_kept hP | apply cnt_kept hP | apply takeCredit_kept hP | apply moverStart_kept hP | apply verifyLeaf_kept hP | apply incF_kept hP | apply fldRecount_kept hP | apply relocate_kept hP | apply hP.fld | apply setVerified_kept hP | apply moverIdle_kept hP | refine ite_kept ?_ ?_) | intro _ | extract_lets | split)

theorem execVerifyJob_kept (m : Fin 4) (leaves : List BadLeaf) {u : State} (e : execVerifyJob m leaves s = .next u) (h : P s) : P u := by
  unfold execVerifyJob at e
  injection e with e
  subst e
  repeat' (with_reducible first | assumption | apply verifyJob_kept hP)

theorem sealCopy_kept (m g ld f : Nat) (ctx : Option Nat) (leaves : List SlotLeaf) (h : P s) : P (sealCopy m g ld f ctx leaves s) := by
  unfold sealCopy
  repeat' (first | (with_reducible first | assumption | apply setFolio_kept hP | apply moverStart_kept hP | apply coalStatus_kept hP | apply stageWrite_kept hP | apply putFrame_kept hP | apply takeCredit_kept hP | apply unitRow_kept hP | apply placeAll_kept hP | apply hP.setF | refine foldl_kept2 ?_ ?_ | refine foldl_kept2E (by assumption) ?_ ?_ | refine foldl_kept ?_ ?_ | refine ite_kept ?_ ?_) | intro _ | extract_lets | split)

theorem sealJob_kept (m g : Nat) (leaves : List SlotLeaf) (h : P s) : P (sealJob m g leaves s) := by
  unfold sealJob
  repeat' (first | (with_reducible first | assumption | apply retarget_kept hP | apply moverTake_keptO hP _ _ (by assumption) | apply hP.fld | apply moverSkip_kept hP | apply ringSealed_kept hP | apply cnt_kept hP | apply unitWait_kept hP | apply sealCopy_kept hP | apply seqAll_kept | apply frameVain_kept hP | refine ite_kept ?_ ?_) | (with_reducible refine hP.xlat ?_ ?_; (intro _ hb; exact hb)) | intro _ | extract_lets | split | (rename_i x; clear_value x; split))

theorem execSealJob_kept (m : Fin 4) (g : Fin 32) (leaves : List SlotLeaf) {u : State} (e : execSealJob m g leaves s = .next u) (h : P s) : P u := by
  unfold execSealJob at e
  injection e with e
  subst e
  repeat' (with_reducible first | assumption | apply sealJob_kept hP)

theorem execWeightsWrite_kept (_m : Master) (v : BitVec 32) {u : State} (e : execWeightsWrite _m v s = .next u) (h : P s) : P u := by
  unfold execWeightsWrite at e
  injection e with e
  subst e
  repeat' (with_reducible first | assumption | apply storeAt_kept hP | apply hP.fld)

theorem execRebinDone_kept  {u : State} (e : execRebinDone s = .next u) (h : P s) : P u := by
  unfold execRebinDone at e
  injection e with e
  subst e
  repeat' (first | (with_reducible first | assumption | apply seqAll_kept | apply rescore_kept hP | apply hP.fld | refine ite_kept ?_ ?_) | intro _)

theorem wearStop_kept  (h : P s) : P (wearStop s) := by
  unfold wearStop
  repeat' (with_reducible first | assumption | apply hP.fld | apply campaignStop_kept hP | refine ite_kept ?_ ?_)

theorem wearCmd_kept (v : Nat) (h : P s) : P (wearCmd v s) := by
  unfold wearCmd
  repeat' (with_reducible first | assumption | apply wearStop_kept hP | apply campaignStart_kept hP | refine ite_kept ?_ ?_)

theorem execWearStart_kept (_m : Master) (v : BitVec 32) {u : State} (e : execWearStart _m v s = .next u) (h : P s) : P u := by
  unfold execWearStart at e
  injection e with e
  subst e
  repeat' (with_reducible first | assumption | apply wearCmd_kept hP)

theorem execWearStop_kept (_m : Master) (v : BitVec 32) {u : State} (e : execWearStop _m v s = .next u) (h : P s) : P u := by
  unfold execWearStop at e
  injection e with e
  subst e
  repeat' (with_reducible first | assumption | apply wearCmd_kept hP)

theorem scoreQuery_kept (v : Nat) (h : P s) : P (scoreQuery v s) := by
  unfold scoreQuery
  repeat' (with_reducible first | assumption | apply setB_kept hP | apply hP.setF | refine ite_kept ?_ ?_)

theorem execScoreQuery_kept (_m : Master) (v : Word) {u : State} (e : execScoreQuery _m v s = .next u) (h : P s) : P u := by
  unfold execScoreQuery at e
  injection e with e
  subst e
  repeat' (with_reducible first | assumption | apply scoreQuery_kept hP)

theorem fldCtl_kept (v : Nat) (h : P s) : P (fldCtl v s) := by
  unfold fldCtl
  repeat' (first | (with_reducible first | assumption | apply storeAt_kept hP | apply seqAll_kept | apply setVerified_kept hP | apply logPut_kept hP | refine ite_kept ?_ ?_) | intro _)

theorem execFldCtlWrite_kept (_m : Master) (v : BitVec 32) {u : State} (e : execFldCtlWrite _m v s = .next u) (h : P s) : P u := by
  unfold execFldCtlWrite at e
  injection e with e
  subst e
  repeat' (with_reducible first | assumption | apply fldCtl_kept hP)

end Sys2Proof.Machine
end

