-- ==== Sys2Proof/Laws/KeptReads.lean ====
section
/-! SUPPORT. What the operations of Machine/Reads.lean keep (Laws/Kept.lean). -/

namespace Sys2Proof.Machine

variable {P : State → Prop} (hP : Closed P) {s t : State}
include hP

theorem park_kept (r : HReq) (h : P s) : P (park r s) := by
  unfold park
  repeat' (with_reducible first | assumption | apply hP.host)

theorem readNs_kept (r : HReq) (ns : Nat) (h : P s) : P (readNs r ns s) := by
  unfold readNs
  repeat' (with_reducible first | assumption | apply cnt_kept hP)

theorem answerPoison_kept (r : HReq) (misses : Nat) (h : P s) : P (answerPoison r misses s) := by
  unfold answerPoison
  repeat' (with_reducible first | assumption | apply sendPoison_kept hP | apply readNs_kept hP)

theorem answerHere_kept (r : HReq) (d : Line) (misses : Nat) (h : P s) : P (answerHere r d misses s) := by
  unfold answerHere
  repeat' (with_reducible first | assumption | apply sendData_kept hP | apply readNs_kept hP)

theorem addRead_kept (q : RdReq) (h : P s) : P (addRead q s) := by
  unfold addRead
  repeat' (with_reducible first | assumption | apply hP.med)

theorem rebuildStart_kept (pfa leaf : Nat) (h : P s) : P (rebuildStart pfa leaf s).2 := by
  unfold rebuildStart
  repeat' (first | (with_reducible first | assumption | apply hP.med | apply cnt_kept hP | apply seqAll_kept | apply addRead_kept hP | refine ite_kept2 ?_ ?_ | refine ite_kept ?_ ?_) | intro _)

theorem rebuildStart_keptE (pfa leaf : Nat) {x : Nat} {u : State} (e : rebuildStart pfa leaf s = (x, u)) (h : P s) : P u := by
  have := rebuildStart_kept hP pfa leaf h
  rw [e] at this
  exact this

theorem rebuildParts_kept (q : RdReq) (parts : List Nat) (h : P s) : P (rebuildParts q parts s).2 := by
  unfold rebuildParts
  repeat' (first | (with_reducible first | assumption | apply rebuildStart_kept hP | apply rebuildStart_keptE hP _ _ (by assumption) | refine foldl_kept2 ?_ ?_ | refine foldl_kept2E (by assumption) ?_ ?_ | refine foldl_kept ?_ ?_ | refine ite_kept2 ?_ ?_ | refine ite_kept ?_ ?_) | intro _ | extract_lets | split)

theorem rebuildParts_keptE (q : RdReq) (parts : List Nat) {x : RdReq} {u : State} (e : rebuildParts q parts s = (x, u)) (h : P s) : P u := by
  have := rebuildParts_kept hP q parts h
  rw [e] at this
  exact this

theorem issueRead_kept (q : RdReq) (h : P s) : P (issueRead q s) := by
  unfold issueRead
  repeat' (first | (with_reducible first | assumption | apply addRead_kept hP | apply incF_kept hP | apply cnt_kept hP | apply measWait_kept hP | apply seqAll_kept | apply rebuildParts_kept hP | apply rebuildParts_keptE hP _ _ (by assumption) | apply rebuildCount_kept hP | refine ite_kept ?_ ?_) | intro _ | extract_lets | split)

theorem unmarkAhead_kept (pfa leaf : Nat) (h : P s) : P (unmarkAhead pfa leaf s) := by
  unfold unmarkAhead
  repeat' (with_reducible first | assumption | apply hP.med)

theorem aheadIssue_kept (ld folio leaf : Nat) (h : P s) : P (aheadIssue ld folio leaf s) := by
  unfold aheadIssue
  repeat' (with_reducible first | assumption | apply addRead_kept hP | refine ite_kept ?_ ?_)

theorem readAhead_kept (c ld folio leaf : Nat) (h : P s) : P (readAhead c ld folio leaf s) := by
  unfold readAhead
  repeat' (first | (with_reducible first | assumption | apply hP.med | apply seqAll_kept | apply aheadIssue_kept hP | refine ite_kept ?_ ?_) | intro _)

theorem mediaRead_kept (r : HReq) (pfa kid : Nat) (hdr : Bool) (ovMask : Nat) (ovData : Line) (misses : Nat) (h : P s) : P (mediaRead r pfa kid hdr ovMask ovData misses s) := by
  unfold mediaRead
  repeat' (with_reducible first | assumption | apply cnt_kept hP | apply mediaLine_kept hP | apply mediaLine_keptE hP _ _ _ _ _ _ (by assumption) | apply unmarkAhead_kept hP | apply incF_kept hP | apply laneCount_kept hP | apply sendData_kept hP | apply readNs_kept hP | apply issueRead_kept hP | apply readAhead_kept hP | refine ite_kept ?_ ?_)

theorem kidRead_keptO (r : HReq) (fo : Nat) {u : State} (e : kidRead r fo s = some u) (h : P s) : P u := by
  unfold kidRead at e
  dsimp only at e
  repeat' split at e
  all_goals first
    | (cases e; done)
    | (cases e; repeat' (with_reducible first | assumption | apply setErr_kept hP | apply incF_kept hP | apply cnt_kept hP | apply kidEvent_kept hP))

theorem readFound_kept (r : HReq) (fo fr : Nat) (misses : Nat) (h : P s) : P (readFound r fo fr misses s) := by
  unfold readFound
  repeat' (first | (with_reducible first | assumption | apply setErr_kept hP | apply answerPoison_kept hP | apply kidRead_keptO hP _ _ (by assumption) | apply answerHere_kept hP | apply mediaRead_kept hP | apply sendData_kept hP | apply readNs_kept hP | refine ite_kept ?_ ?_) | intro _ | extract_lets | split | (dsimp +zetaDelta only; split))

theorem raCancel_kept (ld dpa : Nat) (h : P s) : P (raCancel ld dpa s) := by
  unfold raCancel
  repeat' (with_reducible first | assumption | apply hP.med | apply incF_kept hP | apply cnt_kept hP | refine ite_kept ?_ ?_)

theorem dropWrite_kept (r : HReq) (h : P s) : P (dropWrite r s) := by
  unfold dropWrite
  repeat' (with_reducible first | assumption | apply credBack_kept hP | apply discardWrite_kept hP)

theorem writeRefused_keptO (r : HReq) {u : State} (e : writeRefused r s = some u) (h : P s) : P u := by
  unfold writeRefused at e
  dsimp only at e
  repeat' split at e
  all_goals first
    | (cases e; done)
    | (cases e; repeat' (with_reducible first | assumption | apply unbackedEvent_kept hP | apply setErr_kept hP | apply wpSet_kept hP | apply event_kept hP | apply incF_kept hP | apply cnt_kept hP | apply kidEvent_kept hP))

theorem writeTake_kept (r : HReq) (h : P s) : P (writeTake r s) := by
  unfold writeTake
  repeat' (first | (with_reducible first | assumption | apply raCancel_kept hP | apply acceptLine_kept hP | apply when_kept | apply setErr_kept hP | apply credBack_kept hP | apply sendCmp_kept hP) | intro _)

theorem writeTry_kept (r : HReq) (h : P s) : P (writeTry r s) := by
  unfold writeTry
  repeat' (first | (with_reducible first | assumption | apply writeRefused_keptO hP _ (by assumption) | apply dropWrite_kept hP | apply writeTake_kept hP | apply gatherPressure_kept hP | apply hP.host | refine ite_kept ?_ ?_) | intro _ | extract_lets | split)

theorem foundGo_kept (f : Found) (h : P s) : P (foundGo f s) := by
  unfold foundGo
  repeat' (first | (with_reducible first | assumption | apply dropWrite_kept hP | apply writeTry_kept hP | apply answerPoison_kept hP | apply readFound_kept hP | refine ite_kept ?_ ?_) | (with_reducible refine hP.xlat ?_ ?_; (intro _ hb; exact hb)) | intro _ | split)

theorem foundAll_kept (r : List Found × State) (h : P r.2) : P (foundAll r) := by
  unfold foundAll
  repeat' (first | (with_reducible first | assumption | apply seqAll_kept | apply foundGo_kept hP) | intro _)

theorem hostGo_kept (r : HReq) (h : P s) : P (hostGo r s) := by
  unfold hostGo
  repeat' (with_reducible first | assumption | apply park_kept hP | apply foundAll_kept hP | apply lookStart_kept hP | apply lookStart_keptE hP _ (by assumption) | apply writeTry_kept hP | apply unbackedEvent_kept hP | apply sendPoison_kept hP | apply readNs_kept hP | refine ite_kept ?_ ?_)

theorem settle_kept  (h : P s) : P (settle s) := by
  unfold settle
  repeat' (first | (with_reducible first | assumption | apply seqAll_kept | apply writeTry_kept hP | apply hP.host | apply credRelease_kept hP | apply hostGo_kept hP) | intro _)

theorem ingressGo_kept (r : HReq) (h : P s) : P (ingressGo r s) := by
  unfold ingressGo
  repeat' (with_reducible first | assumption | apply takeCredit_kept hP | apply settle_kept hP | apply hostGo_kept hP | apply credBack_kept hP | refine ite_kept ?_ ?_)

theorem ingressTake_kept (r : HReq) (h : P s) : P (ingressTake r s) := by
  unfold ingressTake
  repeat' (with_reducible first | assumption | apply regStatus_kept hP | apply ingressGo_kept hP | apply hP.host | apply cnt_kept hP | refine ite_kept ?_ ?_)

theorem memReq_kept (r : HReq) (h : P s) : P (memReq r s) := by
  unfold memReq
  repeat' (first | (with_reducible first | assumption | apply cnt_kept hP | apply credOverflow_kept hP | apply when_kept | apply refuseReq_kept hP | apply incF_kept hP | apply gpfRefuse_kept hP | apply parkRefuse_kept hP | apply credTake_kept hP | apply modPort_kept hP | apply ingressTake_kept hP | refine ite_kept ?_ ?_) | intro _)

theorem execMemRead_kept (port : Fin 2) (ld : Fin 16) (tag : BitVec 16) (dpa : BitVec 52) {u : State} (e : execMemRead port ld tag dpa s = .next u) (h : P s) : P u := by
  unfold execMemRead at e
  injection e with e
  subst e
  repeat' (with_reducible first | assumption | apply memReq_kept hP)

theorem execMemWrite_kept (port : Fin 2) (ld : Fin 16) (tag : BitVec 16) (dpa : BitVec 52) (mask : BitVec 64) (data : Line) (poison : Bool) {u : State} (e : execMemWrite port ld tag dpa mask data poison s = .next u) (h : P s) : P u := by
  unfold execMemWrite at e
  injection e with e
  subst e
  repeat' (with_reducible first | assumption | apply memReq_kept hP)

theorem linkNext_kept (port : Nat) (h : P s) : P (linkNext port s) := by
  unfold linkNext
  repeat' (first | (with_reducible first | assumption | apply ingressTake_kept hP | apply modPort_kept hP | refine ite_kept ?_ ?_) | intro _ | split)

theorem ingressRelease_kept  (h : P s) : P (ingressRelease s) := by
  unfold ingressRelease
  repeat' (first | (with_reducible first | assumption | apply hP.host | apply linkNext_kept hP | apply regStatus_kept hP | apply ingressGo_kept hP) | intro _ | extract_lets | split)

theorem execIngressRelease_kept  {u : State} (e : execIngressRelease s = .next u) (h : P s) : P u := by
  unfold execIngressRelease at e
  injection e with e
  subst e
  repeat' (with_reducible first | assumption | apply ingressRelease_kept hP)

theorem dropRead_kept (q : RdReq) (h : P s) : P (dropRead q s) := by
  unfold dropRead
  repeat' (with_reducible first | assumption | apply hP.med)

theorem modRead_kept (q : RdReq) (f : RdReq → RdReq) (h : P s) : P (modRead q f s) := by
  unfold modRead
  repeat' (with_reducible first | assumption | apply hP.med)

theorem memberDone_kept (id k : Nat) (ok : Bool) (h : P s) : P (memberDone id k ok s) := by
  unfold memberDone
  repeat' (with_reducible first | assumption | apply hP.med)

theorem serveRead_kept (q : RdReq) (ns : Nat) (h : P s) : P (serveRead q ns s) := by
  unfold serveRead
  repeat' (first | (with_reducible first | assumption | apply dropRead_kept hP | apply mediaLine_kept hP | apply mediaLine_keptE hP _ _ _ _ _ _ (by assumption) | apply laneCount_kept hP | apply sendPoison_kept hP | apply sendData_kept hP | apply cnt_kept hP | apply when_kept | apply measOwnStart_kept hP | apply incF_kept hP | apply latencyMiss_kept hP | apply memberDone_kept hP | refine ite_kept ?_ ?_) | intro _ | extract_lets | split)

theorem failRead_kept (q : RdReq) (ns : Nat) (h : P s) : P (failRead q ns s) := by
  unfold failRead
  repeat' (first | (with_reducible first | assumption | apply dropRead_kept hP | apply sendPoison_kept hP | apply cnt_kept hP | apply event_kept hP | apply memberDone_kept hP) | intro _ | extract_lets | split)

theorem failParts_kept (q : RdReq) (ns : Nat) (h : P s) : P (failParts q ns s) := by
  unfold failParts
  repeat' (first | (with_reducible first | assumption | apply failRead_kept hP | apply seqAll_kept | apply leafFailed_kept hP) | intro _)

theorem takeRebuilt_kept (q : RdReq) (ns : Nat) (h : P s) : P (takeRebuilt q ns s) := by
  unfold takeRebuilt
  repeat' (first | (with_reducible first | assumption | apply seqAll_kept | apply leafServed_kept hP | apply serveRead_kept hP | apply modRead_kept hP | refine ite_kept ?_ ?_) | intro _ | extract_lets | split)

theorem leaveRead_kept (q : RdReq) (h : P s) : P (leaveRead q s) := by
  unfold leaveRead
  repeat' (first | (with_reducible first | assumption | apply dropRead_kept hP | apply memberDone_kept hP | apply failRead_kept hP | apply failParts_kept hP | apply takeRebuilt_kept hP | apply rebuildParts_kept hP | apply rebuildParts_keptE hP _ _ (by assumption) | apply modRead_kept hP | refine ite_kept ?_ ?_) | intro _ | extract_lets | split)

theorem climb_kept (q : RdReq) (bad : List Nat) (ns : Nat) (h : P s) : P (climb q bad ns s) := by
  unfold climb
  repeat' (first | (with_reducible first | assumption | apply leaveRead_kept hP | apply dropRead_kept hP | apply seqAll_kept | apply cnt_kept hP | apply rebuildParts_kept hP | apply rebuildParts_keptE hP _ _ (by assumption) | apply modRead_kept hP | apply failRead_kept hP | apply failParts_kept hP | apply takeRebuilt_kept hP | refine ite_kept ?_ ?_) | intro _ | extract_lets | split)

theorem leafArrived_kept (pfa leaf : Nat) (out : LeafOut) (step : Nat) (host ahead : Bool) (h : P s) : P (leafArrived pfa leaf out step host ahead s) := by
  unfold leafArrived
  repeat' (first | (with_reducible first | assumption | apply leafServed_kept hP | apply bufferLeaves_kept hP | apply leafFirstFail_kept hP | refine ite_kept ?_ ?_) | intro _ | extract_lets | split)

theorem readGot_kept (q : RdReq) (outs : List (Nat × LeafOut)) (ns : Nat) (h : P s) : P (readGot q outs ns s) := by
  unfold readGot
  repeat' (first | (with_reducible first | assumption | apply serveRead_kept hP | apply failRead_kept hP | apply climb_kept hP | refine ite_kept ?_ ?_) | intro _ | extract_lets | split)

theorem readComplete_kept (plane : Nat) (outs : List (Nat × LeafOut)) (ns : Nat) (h : P s) : P (readComplete plane outs ns s) := by
  unfold readComplete
  repeat' (first | (with_reducible first | assumption | apply hP.med | apply seqAll_kept | apply leafArrived_kept hP | apply settle_kept hP | apply readGot_kept hP | refine foldl_kept2 ?_ ?_ | refine foldl_kept2E (by assumption) ?_ ?_ | refine foldl_kept ?_ ?_ | refine ite_kept ?_ ?_) | intro _ | extract_lets | split)

theorem execReadComplete_kept (plane : Fin 1024) (outs : List (Nat × LeafOut)) (ns : Nat) {u : State} (e : execReadComplete plane outs ns s = .next u) (h : P s) : P u := by
  unfold execReadComplete at e
  injection e with e
  subst e
  repeat' (with_reducible first | assumption | apply readComplete_kept hP | apply planeOut_kept hP)

theorem rebuildFailed_kept (id : Nat) (q : RdReq) (h : P s) : P (rebuildFailed id q s) := by
  unfold rebuildFailed
  repeat' (first | (with_reducible first | assumption | apply failRead_kept hP | apply modRead_kept hP | apply failParts_kept hP | refine ite_kept ?_ ?_) | extract_lets)

theorem keepRebuilds_kept  (h : P s) : P (keepRebuilds s) := by
  unfold keepRebuilds
  repeat' (first | (with_reducible first | assumption | apply hP.med) | intro _)

theorem rebuildComplete_kept (id : Nat) (crcOk : Bool) (ns : Nat) (h : P s) : P (rebuildComplete id crcOk ns s) := by
  unfold rebuildComplete
  repeat' (first | (with_reducible first | assumption | apply hP.med | apply setErr_kept hP | apply seqAll_kept | apply rebuildFailed_kept hP | apply settle_kept hP | apply keepRebuilds_kept hP | apply bufferLeaves_kept hP | apply takeRebuilt_kept hP | refine ite_kept ?_ ?_) | intro _ | extract_lets | split)

theorem execRebuildComplete_kept (id : Nat) (crcOk : Bool) (ns : Nat) {u : State} (e : execRebuildComplete id crcOk ns s = .next u) (h : P s) : P u := by
  unfold execRebuildComplete at e
  injection e with e
  subst e
  repeat' (with_reducible first | assumption | apply rebuildComplete_kept hP)

theorem orphanReads_kept (gone : Nat → Bool) (h : P s) : P (orphanReads gone s) := by
  unfold orphanReads
  repeat' (first | (with_reducible first | assumption | apply hP.med | apply settle_kept hP | apply seqAll_kept | apply leaveRead_kept hP) | intro _)

theorem execGatherMerge_kept  {u : State} (e : execGatherMerge s = .next u) (h : P s) : P u := by
  unfold execGatherMerge at e
  injection e with e
  subst e
  repeat' (with_reducible first | assumption | apply settle_kept hP | apply gatherMerge_kept hP | refine ite_kept ?_ ?_)

theorem mergeRead_kept (tok : Nat) (leaves : List LeafRes) (h : P s) : P (mergeRead tok leaves s) := by
  unfold mergeRead
  repeat' (first | (with_reducible first | assumption | apply hP.coal | apply unitWait_kept hP | apply coalStatus_kept hP | apply stageGather_kept hP | apply leafFailed_kept hP | apply unitRow_kept hP | apply mediaLines_kept hP | apply mediaLines_keptE hP _ _ _ _ _ (by assumption) | apply laneCount_kept hP | refine foldl_kept2 ?_ ?_ | refine foldl_kept2E (by assumption) ?_ ?_ | refine foldl_kept ?_ ?_ | refine ite_kept ?_ ?_) | intro _ | extract_lets | split)

theorem execMergeMediaReadDone_kept (tok : Fin 65536) (leaves : List LeafRes) {u : State} (e : execMergeMediaReadDone tok leaves s = .next u) (h : P s) : P u := by
  unfold execMergeMediaReadDone at e
  injection e with e
  subst e
  repeat' (with_reducible first | assumption | apply settle_kept hP | apply mergeRead_kept hP)

theorem xlatProbe_kept (v : Nat) (h : P s) : P (xlatProbe v s) := by
  unfold xlatProbe
  repeat' (first | (with_reducible first | assumption | apply hP.setF | apply foundAll_kept hP | apply lookStart_kept hP | apply lookStart_keptE hP _ (by assumption) | refine ite_kept ?_ ?_) | (with_reducible refine hP.xlat ?_ ?_; (intro _ hb; exact hb)))

theorem execXlatProbe_kept (_m : Master) (v : Word) {u : State} (e : execXlatProbe _m v s = .next u) (h : P s) : P u := by
  unfold execXlatProbe at e
  injection e with e
  subst e
  repeat' (with_reducible first | assumption | apply xlatProbe_kept hP)

theorem probeResult_kept  (h : P s) : P (probeResult s) := by
  unfold probeResult
  repeat' (first | (with_reducible first | assumption | apply settle_kept hP | apply hP.setF | refine ite_kept ?_ ?_) | (with_reducible refine hP.xlat ?_ ?_; (intro _ hb; exact hb)) | intro _ | split)

theorem execProbeResult_kept  {u : State} (e : execProbeResult s = .next u) (h : P s) : P u := by
  unfold execProbeResult at e
  injection e with e
  subst e
  repeat' (with_reducible first | assumption | apply probeResult_kept hP)

theorem execMapWritebackDone_kept (way : Fin 65536) {u : State} (e : execMapWritebackDone way s = .next u) (h : P s) : P u := by
  unfold execMapWritebackDone at e
  injection e with e
  subst e
  repeat' (with_reducible first | assumption | apply settle_kept hP | apply foundAll_kept hP | apply writebackDone_kept hP)

theorem execMapcDrainDone_kept  {u : State} (e : execMapcDrainDone s = .next u) (h : P s) : P u := by
  unfold execMapcDrainDone at e
  injection e with e
  subst e
  repeat' (with_reducible first | assumption | apply settle_kept hP | apply foundAll_kept hP | apply drainDone_kept hP | apply drainDone_keptE hP  (by assumption))

theorem execScratchConvertDone_kept  {u : State} (e : execScratchConvertDone s = .next u) (h : P s) : P u := by
  unfold execScratchConvertDone at e
  injection e with e
  subst e
  repeat' (first | (with_reducible first | assumption | apply settle_kept hP | apply foundAll_kept hP | apply convertDone_kept hP | apply convertDone_keptE hP  (by assumption)) | intro _)

end Sys2Proof.Machine
end

