-- ==== Sys2Proof/Laws/KeptAlmanac.lean ====
section
/-! SUPPORT. What the operations of Machine/Almanac.lean keep (Laws/Kept.lean). -/

namespace Sys2Proof.Machine

variable {P : State → Prop} (hP : Closed P) {s t : State}
include hP

theorem almStore_kept (k : Nat) (l : List Nat) (h : P s) : P (almStore k l s) := by
  unfold almStore
  refine hP.alm (fun a ha => ?_) h
  exact foldl_keeps (Q := fun (p : Nat × Tbl (BitVec 8)) => twf 0#8 p.2 = true) (fun _ _ h => twf_tput _ _ h) ha

theorem almDevice_kept (k : Nat) (l : List Nat) (h : P s) : P (almDevice k l s).2 := by
  unfold almDevice
  repeat' (with_reducible first | assumption | apply setErr_kept hP | apply almStore_kept hP | refine ite_kept2 ?_ ?_)

theorem almDevice_keptE (k : Nat) (l : List Nat) {x : Bool} {u : State} (e : almDevice k l s = (x, u)) (h : P s) : P u := by
  have := almDevice_kept hP k l h
  rw [e] at this
  exact this

theorem trainRecords_kept  (h : P s) : P (trainRecords s) := by
  unfold trainRecords
  repeat' (first | (with_reducible first | assumption | apply takeNat_kept hP | apply takeNat_keptE hP  (by assumption) | apply almDevice_kept hP | apply almDevice_keptE hP _ _ (by assumption) | apply hP.wm | apply hP.setF | refine foldl_kept2 ?_ ?_ | refine foldl_kept2E (by assumption) ?_ ?_ | refine foldl_kept ?_ ?_ | refine ite_kept ?_ ?_) | (with_reducible refine hP.alm ?_ ?_; (intro _ hb; exact hb)) | intro _ | extract_lets | split)

theorem odoPut_kept (i v : Nat) (h : P s) : P (odoPut i v s) := by
  unfold odoPut
  repeat' (with_reducible first | assumption | apply almStore_kept hP)

theorem odoInc_kept (i : Nat) (h : P s) : P (odoInc i s) := by
  unfold odoInc
  repeat' (with_reducible first | assumption | apply odoPut_kept hP)

theorem odoRepair_kept (i : Nat) (h : P s) : P (odoRepair i s) := by
  unfold odoRepair
  repeat' (with_reducible first | assumption | apply odoPut_kept hP | apply setErr_kept hP | apply almStore_kept hP | refine ite_kept ?_ ?_)

theorem odoRepairAll_kept  (h : P s) : P (odoRepairAll s) := by
  unfold odoRepairAll
  repeat' (first | (with_reducible first | assumption | apply seqAll_kept | apply odoRepair_kept hP) | intro _)

theorem setCounted_kept (e : Nat) (h : P s) : P (setCounted e s) := by
  unfold setCounted
  repeat' (with_reducible first | assumption | apply almStore_kept hP)

theorem setHostDirty_kept (b : Bool) (h : P s) : P (setHostDirty b s) := by
  unfold setHostDirty
  repeat' (with_reducible first | assumption | apply almStore_kept hP)

theorem setScanNext_kept (b : Bool) (h : P s) : P (setScanNext b s) := by
  unfold setScanNext
  repeat' (with_reducible first | assumption | apply almStore_kept hP | apply setB_kept hP)

theorem tailCopy_kept  (h : P s) : P (tailCopy s) := by
  unfold tailCopy
  repeat' (first | (with_reducible first | assumption | apply almDevice_kept hP | apply almDevice_keptE hP _ _ (by assumption) | refine foldl_kept2 ?_ ?_ | refine foldl_kept2E (by assumption) ?_ ?_ | refine foldl_kept ?_ ?_ | refine ite_kept ?_ ?_) | intro _ | split)

theorem tailRestore_kept  (h : P s) : P (tailRestore s) := by
  unfold tailRestore
  repeat' (with_reducible first | assumption | apply hP.log | apply hP.setF | apply setB_kept hP)

theorem almStatus_kept  (h : P s) : P (almStatus s) := by
  unfold almStatus
  repeat' (with_reducible first | assumption | apply setB_kept hP | apply hP.setF)

theorem almHostEnd_kept (st : Nat) (h : P s) : P (almHostEnd st s) := by
  unfold almHostEnd
  repeat' (with_reducible first | assumption | apply hP.setF)

theorem almToData_kept (l : List Nat) (h : P s) : P (almToData l s) := by
  unfold almToData
  repeat' (first | (with_reducible first | assumption | apply seqAll_kept | apply hP.setF | refine foldl_kept2 ?_ ?_ | refine foldl_kept2E (by assumption) ?_ ?_ | refine foldl_kept ?_ ?_) | intro _)

theorem tailEnd_kept  (h : P s) : P (tailEnd s) := by
  unfold tailEnd
  repeat' (first | (with_reducible first | assumption | apply hP.log | apply tailCopy_kept hP) | (with_reducible refine hP.alm ?_ ?_; (intro _ hb; exact hb)))

theorem almServe_kept (j : AlmJob) (h : P s) : P (almServe j s) := by
  unfold almServe
  repeat' (first | (with_reducible first | assumption | apply hP.find | apply setErr_kept hP | apply tailEnd_kept hP | apply almHostEnd_kept hP | apply almToData_kept hP | refine ite_kept ?_ ?_) | (with_reducible refine hP.alm ?_ ?_; (intro _ hb; exact hb)) | intro _ | extract_lets | split)

theorem almPump_kept (n : Nat) (h : P s) : P (almPump n s) := by
  induction n generalizing s with
  | zero => exact almStatus_kept hP h
  | succ n ih =>
    unfold almPump
    split
    · exact almStatus_kept hP h
    · split
      · exact almStatus_kept hP h
      · exact ih (almServe_kept hP _ (hP.alm (fun _ ha => ha) h))

theorem almEnqueue_kept (j : AlmJob) (h : P s) : P (almEnqueue j s) := by
  unfold almEnqueue
  refine almPump_kept hP _ (hP.alm (fun _ ha => ?_) h)
  split <;> exact ha

theorem almCmd_kept (v : Nat) (h : P s) : P (almCmd v s) := by
  unfold almCmd
  repeat' (with_reducible first | assumption | apply storeAt_kept hP | apply hP.setF | apply almHostEnd_kept hP | apply almEnqueue_kept hP | refine ite_kept ?_ ?_)

theorem execAlmRead_kept (_m : Master) (v : BitVec 32) {u : State} (e : execAlmRead _m v s = .next u) (h : P s) : P u := by
  unfold execAlmRead at e
  injection e with e
  subst e
  repeat' (with_reducible first | assumption | apply almCmd_kept hP)

theorem execAlmWrite_kept (_m : Master) (v : BitVec 32) {u : State} (e : execAlmWrite _m v s = .next u) (h : P s) : P u := by
  unfold execAlmWrite at e
  injection e with e
  subst e
  repeat' (with_reducible first | assumption | apply almCmd_kept hP)

theorem almCut_kept  (h : P s) : P (almCut s) := by
  unfold almCut
  repeat' (first | (with_reducible first | assumption | apply almStore_kept hP | apply almStatus_kept hP) | (with_reducible refine hP.alm ?_ ?_; (intro _ hb; exact hb)) | intro _ | extract_lets | split)

theorem almFinish_kept  (h : P s) : P (almFinish s) := by
  unfold almFinish
  repeat' (first | (with_reducible first | assumption | apply almStore_kept hP | apply almStatus_kept hP) | (with_reducible refine hP.alm ?_ ?_; (intro _ hb; exact hb)) | intro _ | extract_lets | split)

theorem tailStart_kept  (h : P s) : P (tailStart s) := by
  unfold tailStart
  repeat' (first | (with_reducible first | assumption | apply seqAll_kept | apply almEnqueue_kept hP | apply hP.log | apply tailCopy_kept hP) | intro _)

theorem almWriteDone_kept  (h : P s) : P (almWriteDone s) := by
  unfold almWriteDone
  repeat' (first | (with_reducible first | assumption | apply almStore_kept hP | apply hP.log | apply tailCopy_kept hP | apply almHostEnd_kept hP | apply almPump_kept hP) | (with_reducible refine hP.alm ?_ ?_; (intro _ hb; exact hb)) | intro _ | extract_lets | split)

end Sys2Proof.Machine
end

