-- ==== Sys2Proof/Laws/KeptKeys.lean ====
section
/-! SUPPORT. What the operations of Machine/Keys.lean keep (Laws/Kept.lean). -/

namespace Sys2Proof.Machine

variable {P : State → Prop} (hP : Closed P) {s t : State}
include hP

theorem setRetBit_kept (k : Nat) (h : P s) : P (setRetBit k s).2 := by
  unfold setRetBit
  repeat' (with_reducible first | assumption | apply almDevice_kept hP | apply almDevice_keptE hP _ _ (by assumption) | refine ite_kept2 ?_ ?_)

theorem setRetBit_keptE (k : Nat) {x : Bool} {u : State} (e : setRetBit k s = (x, u)) (h : P s) : P u := by
  have := setRetBit_kept hP k h
  rw [e] at this
  exact this

theorem setRetBits_kept (ks : List Nat) (h : P s) : P (setRetBits ks s).2 := by
  unfold setRetBits
  repeat' (first | (with_reducible first | assumption | apply setRetBit_kept hP | apply setRetBit_keptE hP _ (by assumption) | refine foldl_kept2 ?_ ?_ | refine foldl_kept2E (by assumption) ?_ ?_ | refine foldl_kept ?_ ?_ | refine ite_kept2 ?_ ?_ | refine ite_kept ?_ ?_) | intro _)

theorem setRetBits_keptE (ks : List Nat) {x : Bool} {u : State} (e : setRetBits ks s = (x, u)) (h : P s) : P u := by
  have := setRetBits_kept hP ks h
  rw [e] at this
  exact this

theorem takeKey_kept  (h : P s) : P (takeKey s).2 := by
  unfold takeKey
  repeat' (with_reducible first | assumption | apply hP.ciph)

theorem takeKey_keptE  {x : Nat} {u : State} (e : takeKey s = (x, u)) (h : P s) : P u := by
  have := takeKey_kept hP  h
  rw [e] at this
  exact this

theorem sysFilled_kept (set slot n : Nat) (h : P s) : P (sysFilled set slot n s) := by
  unfold sysFilled
  repeat' (first | (with_reducible first | assumption | apply setTo_kept hP | apply closeSet_kept hP) | intro _)

theorem vaultStore_kept (v : Vault) (set slot : Nat) (h : P s) : P (vaultStore v set slot s) := by
  unfold vaultStore
  repeat' (first | (with_reducible first | assumption | apply openSet_kept hP | apply sysFilled_kept hP | apply hP.med | refine foldl_kept2 ?_ ?_ | refine foldl_kept2E (by assumption) ?_ ?_ | refine foldl_kept ?_ ?_) | intro _ | extract_lets)

theorem vaultWrite_kept (fresh : Bool) (keys : Tbl Nat) (h : P s) : P (vaultWrite fresh keys s).2 := by
  unfold vaultWrite
  repeat' (first | (with_reducible first | assumption | apply takeKey_kept hP | apply takeKey_keptE hP  (by assumption) | apply seqAll_kept | apply vaultStore_kept hP | apply takeNat_kept hP | apply takeNat_keptE hP  (by assumption) | apply almDevice_kept hP | apply almDevice_keptE hP _ _ (by assumption) | apply hP.ciph | apply hP.setF | apply sysErase_kept hP | refine ite_kept2 ?_ ?_ | refine ite_kept ?_ ?_) | intro _ | extract_lets | split | (rename_i x; clear_value x; split) | (dsimp +zetaDelta only; split) | with_reducible refine ite_kept2E (by assumption) ?_ ?_ | (have e := ‹Option.map _ _ = some _›; simp only [Option.map_eq_some_iff, Prod.mk.injEq] at e; obtain ⟨_, _, _, e⟩ := e; subst e))

theorem vaultWrite_keptE (fresh : Bool) (keys : Tbl Nat) {x : Bool} {u : State} (e : vaultWrite fresh keys s = (x, u)) (h : P s) : P u := by
  have := vaultWrite_kept hP fresh keys h
  rw [e] at this
  exact this

theorem vaultRelease_kept  (h : P s) : P (vaultRelease s) := by
  unfold vaultRelease
  repeat' (first | (with_reducible first | assumption | apply seqAll_kept | apply sysErase_kept hP | apply hP.ciph) | intro _ | extract_lets | split | (rename_i x; clear_value x; split) | (dsimp +zetaDelta only; split) | with_reducible refine ite_kept2E (by assumption) ?_ ?_ | (have e := ‹Option.map _ _ = some _›; simp only [Option.map_eq_some_iff, Prod.mk.injEq] at e; obtain ⟨_, _, _, e⟩ := e; subst e))

theorem vaultZeroOther_kept  (h : P s) : P (vaultZeroOther s).2 := by
  unfold vaultZeroOther
  repeat' (with_reducible first | assumption | apply almDevice_kept hP | apply almDevice_keptE hP _ _ (by assumption) | refine ite_kept2 ?_ ?_)

theorem vaultZeroOther_keptE  {x : Bool} {u : State} (e : vaultZeroOther s = (x, u)) (h : P s) : P u := by
  have := vaultZeroOther_kept hP  h
  rw [e] at this
  exact this

theorem kidTo_kept (k st : Nat) (h : P s) : P (kidTo k st s) := by
  unfold kidTo
  repeat' (with_reducible first | assumption | apply modKid_kept hP)

theorem setCur_kept (ld k : Nat) (h : P s) : P (setCur ld k s) := by
  unfold setCur
  repeat' (with_reducible first | assumption | apply hP.ciph)

theorem kidQuery_kept (v : Nat) (h : P s) : P (kidQuery v s) := by
  unfold kidQuery
  repeat' (with_reducible first | assumption | apply hP.setF | refine ite_kept ?_ ?_)

theorem execKidQuery_kept (_m : Master) (v : Word) {u : State} (e : execKidQuery _m v s = .next u) (h : P s) : P u := by
  unfold execKidQuery at e
  injection e with e
  subst e
  repeat' (with_reducible first | assumption | apply kidQuery_kept hP)

theorem execDrbgHealthFail_kept  {u : State} (e : execDrbgHealthFail s = .next u) (h : P s) : P u := by
  unfold execDrbgHealthFail at e
  injection e with e
  subst e
  repeat' (with_reducible first | assumption | apply setErr_kept hP | apply hP.ciph)

theorem kidRecord_kept (op k ld next : Nat) (flag : Bool) (h : P s) : P (kidRecord op k ld next flag s) := by
  unfold kidRecord
  repeat' (with_reducible first | assumption | apply capture_kept hP)

theorem retryStep7_kept  (h : P s) : P (retryStep7 s) := by
  unfold retryStep7
  repeat' (with_reducible first | assumption | apply vaultZeroOther_kept hP | apply vaultZeroOther_keptE hP  (by assumption) | apply hP.ciph | refine ite_kept ?_ ?_)

theorem modHead_kept (f : KeyOp → KeyOp) (h : P s) : P (modHead f s) := by
  unfold modHead
  repeat' (with_reducible first | assumption | apply hP.ciph)

theorem keyCommit_kept  (h : P s) : P (keyCommit s).2 := by
  unfold keyCommit
  repeat' (with_reducible first | assumption | apply forceCommit_kept hP | apply modHead_kept hP)

theorem keyCommit_keptE  {x : KeyNext} {u : State} (e : keyCommit s = (x, u)) (h : P s) : P u := by
  have := keyCommit_kept hP  h
  rw [e] at this
  exact this

theorem keyIssue_kept (o : KeyOp) (h : P s) : P (keyIssue o s).2 := by
  unfold keyIssue
  repeat' (first | (with_reducible first | assumption | apply takeKey_kept hP | apply takeKey_keptE hP  (by assumption) | apply vaultWrite_kept hP | apply vaultWrite_keptE hP _ _ (by assumption) | apply keyCommit_kept hP | apply keyCommit_keptE hP  (by assumption) | apply modKid_kept hP | apply when_kept | apply setCur_kept hP | apply kidRecord_kept hP | apply modHead_kept hP | refine ite_kept2 ?_ ?_ | refine ite_kept ?_ ?_) | intro _ | extract_lets | split)

theorem keyIssue_keptE (o : KeyOp) {x : KeyNext} {u : State} (e : keyIssue o s = (x, u)) (h : P s) : P u := by
  have := keyIssue_kept hP o h
  rw [e] at this
  exact this

theorem keyFlush_kept (ks : List Nat) (st next : Nat) (h : P s) : P (keyFlush ks st next s).2 := by
  unfold keyFlush
  repeat' (first | (with_reducible first | assumption | apply modHead_kept hP | apply seqAll_kept | apply when_kept | apply setCur_kept hP | apply kidTo_kept hP | apply closeGathers_kept hP | apply releaseHolds_kept hP) | intro _)

theorem keyFlush_keptE (ks : List Nat) (st next : Nat) {x : KeyNext} {u : State} (e : keyFlush ks st next s = (x, u)) (h : P s) : P u := by
  have := keyFlush_kept hP ks st next h
  rw [e] at this
  exact this

theorem keyUndo_kept (o : KeyOp) (h : P s) : P (keyUndo o s) := by
  unfold keyUndo
  repeat' (first | (with_reducible first | assumption | apply seqAll_kept | apply kidTo_kept hP | apply hP.ciph) | intro _)

theorem keyRetired_kept (o : KeyOp) (h : P s) : P (keyRetired o s).2 := by
  unfold keyRetired
  repeat' (with_reducible first | assumption | apply setRetBit_kept hP | apply setRetBit_keptE hP _ (by assumption) | apply keyCommit_kept hP | apply keyCommit_keptE hP  (by assumption) | apply kidTo_kept hP | apply kidRecord_kept hP | apply keyUndo_kept hP | refine ite_kept2 ?_ ?_)

theorem keyRetired_keptE (o : KeyOp) {x : KeyNext} {u : State} (e : keyRetired o s = (x, u)) (h : P s) : P u := by
  have := keyRetired_kept hP o h
  rw [e] at this
  exact this

theorem keyDestroy_kept (o : KeyOp) (h : P s) : P (keyDestroy o s).2 := by
  unfold keyDestroy
  repeat' (first | (with_reducible first | assumption | apply keyUndo_kept hP | apply vaultWrite_kept hP | apply vaultWrite_keptE hP _ _ (by assumption) | apply setRetBits_kept hP | apply setRetBits_keptE hP _ (by assumption) | apply keyCommit_kept hP | apply keyCommit_keptE hP  (by assumption) | apply seqAll_kept | apply modKid_kept hP | apply kidRecord_kept hP | refine ite_kept2 ?_ ?_ | refine ite_kept ?_ ?_) | intro _)

theorem keyDestroy_keptE (o : KeyOp) {x : KeyNext} {u : State} (e : keyDestroy o s = (x, u)) (h : P s) : P u := by
  have := keyDestroy_kept hP o h
  rw [e] at this
  exact this

theorem keyStart_kept (o : KeyOp) (h : P s) : P (keyStart o s).2 := by
  unfold keyStart
  repeat' (first | (with_reducible first | assumption | apply keyIssue_kept hP | apply keyIssue_keptE hP _ (by assumption) | apply keyCommit_kept hP | apply keyCommit_keptE hP  (by assumption) | apply setCur_kept hP | apply kidRecord_kept hP | apply keyFlush_kept hP | apply keyFlush_keptE hP _ _ _ (by assumption) | refine ite_kept2 ?_ ?_ | refine ite_kept ?_ ?_) | intro _ | extract_lets | split)

theorem keyStart_keptE (o : KeyOp) {x : KeyNext} {u : State} (e : keyStart o s = (x, u)) (h : P s) : P u := by
  have := keyStart_kept hP o h
  rw [e] at this
  exact this

theorem keyStep7_kept  (h : P s) : P (keyStep7 s).2 := by
  unfold keyStep7
  repeat' (with_reducible first | assumption | apply retryStep7_kept hP | apply vaultRelease_kept hP | refine ite_kept2 ?_ ?_)

theorem keyStep7_keptE  {x : KeyNext} {u : State} (e : keyStep7 s = (x, u)) (h : P s) : P u := by
  have := keyStep7_kept hP  h
  rw [e] at this
  exact this

theorem keyCommitted_kept (o : KeyOp) (h : P s) : P (keyCommitted o s).2 := by
  unfold keyCommitted
  repeat' (first | (with_reducible first | assumption | apply vaultRelease_kept hP | apply keyStep7_kept hP | apply keyStep7_keptE hP  (by assumption)) | intro _ | split)

theorem keyCommitted_keptE (o : KeyOp) {x : KeyNext} {u : State} (e : keyCommitted o s = (x, u)) (h : P s) : P u := by
  have := keyCommitted_kept hP o h
  rw [e] at this
  exact this

theorem keyStep_kept (o : KeyOp) (h : P s) : P (keyStep o s).2 := by
  unfold keyStep
  repeat' (with_reducible first | assumption | apply keyStart_kept hP | apply keyStart_keptE hP _ (by assumption) | apply retryStep7_kept hP | apply keyRetired_kept hP | apply keyRetired_keptE hP _ (by assumption) | apply keyDestroy_kept hP | apply keyDestroy_keptE hP _ (by assumption) | apply keyCommitted_kept hP | apply keyCommitted_keptE hP _ (by assumption) | refine ite_kept2 ?_ ?_)

theorem keyStep_keptE (o : KeyOp) {x : KeyNext} {u : State} (e : keyStep o s = (x, u)) (h : P s) : P u := by
  have := keyStep_kept hP o h
  rw [e] at this
  exact this

theorem keyPop_kept (o : KeyOp) (st res : Nat) (h : P s) : P (keyPop o st res s) := by
  unfold keyPop
  repeat' (first | (with_reducible first | assumption | apply hP.ciph | apply hP.ring | refine ite_kept ?_ ?_) | intro _ | extract_lets | split)

theorem vaultFail_kept  (h : P s) : P (vaultFail s) := by
  unfold vaultFail
  repeat' (first | (with_reducible first | assumption | apply hP.ciph | apply setErr_kept hP | apply seqAll_kept | apply event_kept hP | apply hP.start | refine ite_kept ?_ ?_) | intro _)

theorem keyLoad_kept (g : Nat) (ok : Bool) (h : P s) : P (keyLoad g ok s) := by
  unfold keyLoad
  repeat' (first | (with_reducible first | assumption | apply hP.setF | apply seqAll_kept | apply almDevice_kept hP | apply almDevice_keptE hP _ _ (by assumption) | apply vaultFail_kept hP | apply hP.ciph | apply vaultZeroOther_kept hP | apply vaultZeroOther_keptE hP  (by assumption) | apply vaultRelease_kept hP | apply retryStep7_kept hP | refine ite_kept ?_ ?_) | intro _ | extract_lets | split)

end Sys2Proof.Machine
end

