-- ==== Sys2Proof/Laws/KeptDurable.lean ====
section
/-! SUPPORT. What the operations of Machine/Durable.lean keep (Laws/Kept.lean). -/

namespace Sys2Proof.Machine

variable {P : State → Prop} (hP : Closed P) {s t : State}
include hP

theorem arrayInvalidate_kept (at' : State) (ld : Nat) (h : P s) : P (arrayInvalidate at' ld s) := by
  unfold arrayInvalidate
  repeat' (first | (with_reducible first | assumption | apply mapInvalidate_kept hP) | intro _)

theorem moveArrays_kept {change : State → State} (hc : ∀ {t}, P t → P (change t)) (h : P s) : P (moveArrays change s) := by
  unfold moveArrays
  exact hP.wm (layArrays_kept hP (hc (mergeFlushAll_kept hP (seqAll_kept (fun _ {_} ht => arrayInvalidate_kept hP _ _ ht)
    (seqAll_kept (fun _ {_} ht => arrayInvalidate_kept hP _ _ ht) h)))))

theorem ckptTable_kept (c : Ckpt) (h : P s) : P (ckptTable c s).2 := by
  unfold ckptTable
  refine foldl_kept2 (fun p b hp => ?_) h
  have h1 := takeNat_kept hP hp
  dsimp only
  cases s.ckptLen c b with
  | some n => exact h1
  | none => exact takeNat_kept hP h1

theorem ckptTable_keptE (c : Ckpt) {x : List Nat} {u : State} (e : ckptTable c s = (x, u)) (h : P s) : P u := by
  have := ckptTable_kept hP c h
  rw [e] at this
  exact this

theorem ckptOpen_kept (sets : List Nat) (h : P s) : P (ckptOpen sets s) := by
  unfold ckptOpen
  repeat' (first | (with_reducible first | assumption | apply seqAll_kept | apply openSet_kept hP) | intro _)

theorem ckptStart_kept (clean : Bool) (h : P s) : P (ckptStart clean s) := by
  unfold ckptStart
  split
  · exact h
  · generalize s.ckptPlace _ = p
    obtain ⟨sets, hdr⟩ := p
    exact hP.setF (hP.setF (hP.dur (ckptOpen_kept hP _ h)))

theorem ckptCmd_kept (v : Nat) (h : P s) : P (ckptCmd v s) := by
  unfold ckptCmd
  repeat' (with_reducible first | assumption | apply ckptStart_kept hP | refine ite_kept ?_ ?_)

theorem execCkptGo_kept (_m : Master) (v : BitVec 32) {u : State} (e : execCkptGo _m v s = .next u) (h : P s) : P u := by
  unfold execCkptGo at e
  injection e with e
  subst e
  repeat' (with_reducible first | assumption | apply ckptCmd_kept hP)

theorem execCkptPeriod_kept  {u : State} (e : execCkptPeriod s = .next u) (h : P s) : P u := by
  unfold execCkptPeriod at e
  injection e with e
  subst e
  repeat' (with_reducible first | assumption | apply hP.dur | apply ckptStart_kept hP | refine ite_kept ?_ ?_)

theorem ckptJmax_kept  (h : P s) : P (ckptJmax s) := by
  unfold ckptJmax
  repeat' (with_reducible first | assumption | apply ckptStart_kept hP | refine ite_kept ?_ ?_)

theorem jrnRelease_kept (tail : Nat) (h : P s) : P (jrnRelease tail s) := by
  unfold jrnRelease
  repeat' (first | (with_reducible first | assumption | apply hP.dur | apply seqAll_kept | apply sysErase_kept hP | refine ite_kept ?_ ?_) | intro _)

theorem ckptKeep_kept  (h : P s) : P (ckptKeep s) := by
  unfold ckptKeep
  repeat' (first | (with_reducible first | assumption | apply jrnRelease_kept hP | apply seqAll_kept | apply sysErase_kept hP | apply hP.dur | refine foldl_kept2 ?_ ?_ | refine foldl_kept2E (by assumption) ?_ ?_ | refine foldl_kept ?_ ?_) | intro _ | extract_lets)

theorem ckptNext_kept  (h : P s) : P (ckptNext s) := by
  unfold ckptNext
  repeat' (first | (with_reducible first | assumption | apply ckptStart_kept hP | apply ckptJmax_kept hP | refine ite_kept ?_ ?_) | intro _ | split)

theorem ckptComplete_kept  (h : P s) : P (ckptComplete s) := by
  unfold ckptComplete
  repeat' (first | (with_reducible first | assumption | apply hP.dur | apply hP.setF | apply ckptTable_kept hP | apply ckptTable_keptE hP _ (by assumption) | apply hP.med | apply takeNat_kept hP | apply takeNat_keptE hP  (by assumption) | apply seqAll_kept | apply closeSet_kept hP | apply when_kept | apply takeCredit_kept hP | apply almDevice_kept hP | apply almDevice_keptE hP _ _ (by assumption) | apply ckptNext_kept hP | apply ckptKeep_kept hP | apply setB_kept hP | apply cnt_kept hP | apply setErr_kept hP | refine foldl_kept2 ?_ ?_ | refine foldl_kept2E (by assumption) ?_ ?_ | refine foldl_kept ?_ ?_ | refine ite_kept ?_ ?_) | intro _ | extract_lets | split)

theorem endRow_kept (drain park : Bool) (h : P s) : P (endRow drain park s) := by
  unfold endRow
  repeat' (with_reducible first | assumption | apply sealRecs_kept hP)

theorem drainRows_kept  (h : P s) : P (drainRows s) := by
  unfold drainRows
  repeat' (first | (with_reducible first | assumption | apply sealAll_kept hP | apply seqAll_kept | apply captureChunks_kept hP) | intro _)

theorem drainShow_kept (res : Nat) (h : P s) : P (drainShow res s) := by
  unfold drainShow
  repeat' (with_reducible first | assumption | apply hP.dur | apply hP.setF)

theorem drainStep_kept  (h : P s) : P (drainStep s) := by
  unfold drainStep
  repeat' (with_reducible first | assumption | apply drainRows_kept hP | apply hP.dur | refine ite_kept ?_ ?_)

theorem drainStep2_kept  (h : P s) : P (drainStep2 s) := by
  unfold drainStep2
  repeat' (with_reducible first | assumption | apply endRow_kept hP | apply hP.dur | apply drainShow_kept hP | apply hP.setF | refine ite_kept ?_ ?_)

theorem drainGo_kept  (h : P s) : P (drainGo s) := by
  unfold drainGo
  repeat' (with_reducible first | assumption | apply drainStep2_kept hP | apply drainStep_kept hP)

theorem chooseIn_kept (out : Nat → CkptOut) (l : List Nat) (h : P s) : P (chooseIn out l s).2 := by
  induction l generalizing s with
  | nil => exact h
  | cons i t ih =>
    unfold chooseIn
    split
    · split
      · exact h
      · exact ih (setErr_kept hP _ _ h)
    · exact ih (setErr_kept hP _ _ h)

theorem choose_kept (out : Nat → CkptOut) (h : P s) : P (choose out s).2 := by
  unfold choose
  repeat' (with_reducible first | assumption | apply setErr_kept hP | apply logPut_kept hP | apply chooseIn_kept hP | refine ite_kept2 ?_ ?_ | refine ite_kept ?_ ?_)

theorem choose_keptE (out : Nat → CkptOut) {x : Option (Nat × Ckpt)} {u : State} (e : choose out s = (x, u)) (h : P s) : P u := by
  have := choose_kept hP out h
  rw [e] at this
  exact this

theorem rawPut_kept (w v : Nat) (h : P s) : P (rawPut w v s) := by
  unfold rawPut
  repeat' (with_reducible first | assumption | apply hP.wm)

theorem applyFolio_kept (ld f new : Nat) (h : P s) : P (applyFolio ld f new s) := by
  unfold applyFolio
  repeat' (first | (with_reducible first | assumption | apply seqAll_kept | apply rawPut_kept hP | refine ite_kept ?_ ?_) | (with_reducible refine hP.xlat ?_ ?_; (intro _ hb; exact hb)) | intro _)

theorem applyKid_kept (r : JRec) (h : P s) : P (applyKid r s) := by
  unfold applyKid
  repeat' (first | (with_reducible first | assumption | apply setCur_kept hP | apply modKid_kept hP | apply when_kept | refine ite_kept ?_ ?_) | intro _ | extract_lets | split | (rename_i x; clear_value x; split) | (dsimp +zetaDelta only; split))

theorem applyLdcfg_kept (r : JRec) (h : P s) : P (applyLdcfg r s) := by
  unfold applyLdcfg
  repeat' (first | (with_reducible first | assumption | apply moveArrays_kept hP | apply modLd_kept hP | apply hP.setF) | intro _)

theorem applyLsa_kept (r : JRec) (h : P s) : P (applyLsa r s) := by
  unfold applyLsa
  repeat' (with_reducible first | assumption | apply modLd_kept hP)

theorem applyFrame_kept (r : JRec) (rep : Rep) (h : P s) : P (applyFrame r rep s).2 := by
  unfold applyFrame
  repeat' (first | (with_reducible first | assumption | apply rawPut_kept hP | refine ite_kept2 ?_ ?_ | refine ite_kept ?_ ?_) | intro _ | extract_lets | split)

theorem applyFrame_keptE (r : JRec) (rep : Rep) {x : Rep} {u : State} (e : applyFrame r rep s = (x, u)) (h : P s) : P u := by
  have := applyFrame_kept hP r rep h
  rw [e] at this
  exact this

theorem applyRec_kept (r : JRec) (rep : Rep) (h : P s) : P (applyRec r rep s).2 := by
  unfold applyRec
  repeat' (first | (with_reducible first | assumption | apply applyFolio_kept hP | apply applyFrame_kept hP | apply applyFrame_keptE hP _ _ (by assumption) | apply putFrec_kept hP | apply drecClear_kept hP | apply seeClear_kept hP | apply applyLsa_kept hP | apply applyKid_kept hP | apply applyLdcfg_kept hP | refine ite_kept2 ?_ ?_ | refine ite_kept ?_ ?_) | intro _ | extract_lets | split)

theorem applyRec_keptE (r : JRec) (rep : Rep) {x : Rep} {u : State} (e : applyRec r rep s = (x, u)) (h : P s) : P u := by
  have := applyRec_kept hP r rep h
  rw [e] at this
  exact this

theorem applyBase_kept (r : JRec) (rep : Rep) (h : P s) : P (applyBase r rep s) := by
  unfold applyBase
  repeat' (first | (with_reducible first | assumption | apply rawPut_kept hP | refine ite_kept ?_ ?_) | intro _ | extract_lets | split)

theorem replayRec_kept (r : JRec) (p : Rep × State) (h : P p.2) : P (replayRec r p).2 := by
  unfold replayRec
  repeat' (with_reducible first | assumption | apply applyRec_kept hP | apply applyRec_keptE hP _ _ (by assumption) | apply applyBase_kept hP | refine ite_kept2 ?_ ?_)

theorem replayRec_keptE (r : JRec) (p : Rep × State) {x : Rep} {u : State} (e : replayRec r p = (x, u)) (h : P p.2) : P u := by
  have := replayRec_kept hP r p h
  rw [e] at this
  exact this

theorem journalPass_kept (bad : Nat → Bool) (n j e : Nat) (p : Rep × State) (h : P p.2) : P (journalPass bad n j e p).2.2 := by
  induction n generalizing j e p with
  | zero => exact h
  | succ n ih =>
    unfold journalPass
    split
    · split
      · exact h
      · have h1 := foldl_kept2 (l := JRow.live ‹_›) (fun q r hq => replayRec_kept hP r q hq) h
        refine ih _ _ _ ?_
        dsimp only
        split
        · exact logPut_kept hP _ _ _ _ _ _ (setErr_kept hP _ _ h1)
        · exact h1
    · exact h

theorem journalPass_keptE (bad : Nat → Bool) (n j e : Nat) (p : Rep × State) {x : Nat} {y : Rep} (q : journalPass bad n j e p = (x, y, t))
    (h : P p.2) : P t := by
  have := journalPass_kept hP bad n j e p h
  rw [q] at this
  exact this

theorem ckptLoad_kept (c : Ckpt) (h : P s) : P (ckptLoad c s) := by
  unfold ckptLoad
  repeat' (first | (with_reducible first | assumption | apply hP.fld | apply hP.setF | apply layArrays_kept hP | apply hP.drift | apply hP.host | apply hP.wm | apply hP.ciph | refine foldl_kept2 ?_ ?_ | refine foldl_kept2E (by assumption) ?_ ?_ | refine foldl_kept ?_ ?_) | (with_reducible refine hP.xlat ?_ ?_; (intro _ hb; exact hb)) | intro _)

theorem adopt_kept (pfa : Nat) (r : MRow) (p : Rep × State) (h : P p.2) : P (adopt pfa r p).2 := by
  unfold adopt
  repeat' (with_reducible first | assumption | apply folioSplit_kept hP | apply setFrame_kept hP | apply incF_kept hP | refine ite_kept2 ?_ ?_ | refine ite_kept ?_ ?_)

theorem adopt_keptE (pfa : Nat) (r : MRow) (p : Rep × State) {x : Rep} {u : State} (e : adopt pfa r p = (x, u)) (h : P p.2) : P u := by
  have := adopt_kept hP pfa r p h
  rw [e] at this
  exact this

theorem scanSet_kept (badHdr : Nat → Bool) (set n row : Nat) (p : Rep × State) (h : P p.2) : P (scanSet badHdr set n row p).2 := by
  induction n generalizing row p with
  | zero => exact h
  | succ n ih =>
    unfold scanSet
    extract_lets pfas q
    have hq : P q.2 := by
      dsimp only [q]
      split
      · refine foldl_kept2 (fun q a hq => ?_) h
        split
        · split
          · exact adopt_kept hP _ _ _ hq
          · exact hq
        · exact hq
      · exact h
    split
    · exact hq
    · exact ih _ _ hq

theorem closeLost_kept (set : Nat) (h : P s) : P (closeLost set s) := by
  unfold closeLost
  repeat' (with_reducible first | assumption | apply setTo_kept hP | apply cnt_kept hP | apply eraseCheck_kept hP | apply modSet_kept hP | refine ite_kept ?_ ?_)

theorem dropTokens_kept (staging : List (Nat × Nat × Nat)) (h : P s) : P (dropTokens staging s) := by
  unfold dropTokens
  repeat' (first | (with_reducible first | assumption | apply seqAll_kept | apply rawPut_kept hP | refine ite_kept ?_ ?_) | intro _ | split)

theorem recountUnits_kept  (h : P s) : P (recountUnits s) := by
  unfold recountUnits
  repeat' (first | (with_reducible first | assumption | apply hP.fld | apply seqAll_kept | apply modFrec_kept hP | apply hP.ciph | apply refAdd_kept hP | refine ite_kept ?_ ?_) | intro _)

theorem requeue_kept  (h : P s) : P (requeue s) := by
  unfold requeue
  repeat' (first | (with_reducible first | assumption | apply seqAll_kept | apply eraseCheck_kept hP | apply rescore_kept hP | apply relocate_kept hP | apply hP.fld | apply setVerified_kept hP | apply rwPost_kept hP | apply fldRecount_kept hP | apply spareStatus_kept hP | apply hP.setF | refine ite_kept ?_ ?_) | intro _)

theorem overlayLine_kept (ld kid dpa mask : Nat) (data : Line) (poison : Bool) (aseq : Nat) (h : P s) : P (overlayLine ld kid dpa mask data poison aseq s) := by
  unfold overlayLine
  repeat' (first | (with_reducible first | assumption | apply hP.coal | apply when_kept | apply refAdd_kept hP | refine ite_kept ?_ ?_) | intro _ | extract_lets | split)

theorem overlayRec_kept (rep : Rep) (r : JRec) (h : P s) : P (overlayRec rep r s) := by
  unfold overlayRec
  repeat' (first | (with_reducible first | assumption | apply poisonRemove_kept hP | apply overlayLine_kept hP | apply poisonAdd_kept hP | apply seqAll_kept | refine ite_kept ?_ ?_) | intro _ | extract_lets | split)

theorem restageN_kept (n : Nat) (h : P s) : P (restageN n s) := by
  induction n generalizing s with
  | zero => exact h
  | succ n ih => exact ih (seqAll_kept (fun _ {_} ht => mergeRead_kept hP _ _ ht) (gatherMerge_kept hP h))

theorem restage_kept (rep : Rep) (h : P s) : P (restage rep s) := by
  unfold restage
  repeat' (first | (with_reducible first | assumption | apply seqAll_kept | apply overlayRec_kept hP | apply coalStatus_kept hP | apply restageN_kept hP) | intro _)

theorem scanFields_kept (badHdr : Nat → Bool) (h : P s) : P (scanFields badHdr s) := by
  unfold scanFields
  repeat' (first | (with_reducible first | assumption | apply seqAll_kept | apply putFrec_kept hP | apply logOpen_kept hP | refine foldl_kept2 ?_ ?_ | refine foldl_kept2E (by assumption) ?_ ?_ | refine foldl_kept ?_ ?_ | refine ite_kept ?_ ?_) | intro _)

theorem scanKids_kept  (h : P s) : P (scanKids s) := by
  unfold scanKids
  repeat' (first | (with_reducible first | assumption | apply seqAll_kept | apply modKid_kept hP | refine ite_kept ?_ ?_) | intro _)

theorem adoptBest_kept (badHdr : Nat → Bool) (p : Rep × State) (h : P p.2) : P (adoptBest badHdr p).2 := by
  unfold adoptBest
  repeat' (first | (with_reducible first | assumption | apply adopt_kept hP | apply adopt_keptE hP _ _ _ (by assumption) | refine foldl_kept2 ?_ ?_ | refine foldl_kept2E (by assumption) ?_ ?_ | refine foldl_kept ?_ ?_ | refine ite_kept2 ?_ ?_ | refine ite_kept ?_ ?_) | intro _)

theorem adoptBest_keptE (badHdr : Nat → Bool) (p : Rep × State) {x : Rep} {u : State} (e : adoptBest badHdr p = (x, u)) (h : P p.2) : P u := by
  have := adoptBest_kept hP badHdr p h
  rw [e] at this
  exact this

theorem scanLds_kept  (h : P s) : P (scanLds s) := by
  unfold scanLds
  repeat' (first | (with_reducible first | assumption | apply seqAll_kept | apply applyLdcfg_kept hP | refine ite_kept ?_ ?_) | intro _ | split)

theorem countersResume_kept (badHdr : Nat → Bool) (j : Nat) (rep : Rep) (h : P s) : P (countersResume badHdr j rep s) := by
  unfold countersResume
  repeat' (with_reducible first | assumption | apply hP.dur | apply hP.setF)

theorem replayShow_kept (src us j : Nat) (first : Bool) (rep : Rep) (h : P s) : P (replayShow src us j first rep s) := by
  unfold replayShow
  repeat' (with_reducible first | assumption | apply hP.dur | apply hP.setF | apply setB_kept hP)

theorem replayEnd_kept (vaultOk : Bool) (gen : Nat) (rep : Rep) (h : P s) : P (replayEnd vaultOk gen rep s) := by
  unfold replayEnd
  repeat' (first | (with_reducible first | assumption | apply seqAll_kept | apply closeLost_kept hP | apply recountUnits_kept hP | apply requeue_kept hP | apply poolStatus_kept hP | apply ldStatusAll_kept hP | apply keyLoad_kept hP | apply restage_kept hP | apply openJournal_kept hP | apply ckptStart_kept hP | apply hP.start | apply sweepStart_kept hP) | intro _)

theorem replay_kept (out : Nat → CkptOut) (bad badHdr : Nat → Bool) (vaultOk : Bool) (us : Nat) (h : P s) : P (replay out bad badHdr vaultOk us s) := by
  unfold replay
  repeat' (first | (with_reducible first | assumption | apply choose_kept hP | apply choose_keptE hP _ (by assumption) | apply ckptLoad_kept hP | apply journalPass_kept hP | apply journalPass_keptE hP _ _ _ _ _ (by assumption) | apply replayShow_kept hP | apply countersResume_kept hP | apply dropTokens_kept hP | apply hP.setF | apply setB_kept hP | apply scanSet_kept hP | apply replayEnd_kept hP | apply setErr_kept hP | apply logPut_kept hP | apply adoptBest_kept hP | apply adoptBest_keptE hP _ _ (by assumption) | apply scanKids_kept hP | apply scanFields_kept hP | apply scanLds_kept hP | apply setScanNext_kept hP | refine foldl_kept2 ?_ ?_ | refine foldl_kept2E (by assumption) ?_ ?_ | refine foldl_kept ?_ ?_ | refine ite_kept ?_ ?_) | intro _ | extract_lets | (rename_i x; clear_value x; split) | with_reducible refine ite_kept2E (by assumption) ?_ ?_)

theorem dirtySettle_kept  (h : P s) : P (dirtySettle s) := by
  unfold dirtySettle
  repeat' (with_reducible first | assumption | apply odoInc_kept hP | apply setCounted_kept hP | apply setErr_kept hP | apply logPut_kept hP | apply hP.dur | refine ite_kept ?_ ?_)

end Sys2Proof.Machine
end

