-- ==== Sys2Proof/Laws/KeptLayout.lean ====
section
/-! SUPPORT. What the operations of Machine/Layout.lean keep (Laws/Kept.lean). -/

namespace Sys2Proof.Machine

variable {P : State → Prop} (hP : Closed P) {s t : State}
include hP

theorem structWrite_kept (a n v : Nat) (h : P s) : P (structWrite a n v s) := by
  unfold structWrite
  repeat' (first | (with_reducible first | assumption | apply wmWriteBytes_kept hP | apply putFrame_kept hP | apply putFrec_kept hP | apply seeStore_kept hP | refine ite_kept ?_ ?_) | intro _ | extract_lets | split)

end Sys2Proof.Machine
end

