-- ==== Sys2Proof/Laws/KeptDome.lean ====
section
/-! SUPPORT. What the operations of Machine/Dome.lean keep (Laws/Kept.lean). -/

namespace Sys2Proof.Machine

variable {P : State → Prop} (hP : Closed P) {s t : State}
include hP

theorem modRail_kept (n : Nat) (f : Rail → Rail) (h : P s) : P (modRail n f s) := by
  unfold modRail
  repeat' (with_reducible first | assumption | apply hP.dome)

theorem modSeq_kept (q : Nat) (f : SeqSt → SeqSt) (h : P s) : P (modSeq q f s) := by
  unfold modSeq
  repeat' (with_reducible first | assumption | apply hP.dome)

theorem railEnable_kept (n : Nat) (h : P s) : P (railEnable n s) := by
  unfold railEnable
  repeat' (with_reducible first | assumption | apply modRail_kept hP)

theorem railDisable_kept (n : Nat) (h : P s) : P (railDisable n s) := by
  unfold railDisable
  repeat' (with_reducible first | assumption | apply modRail_kept hP | apply hP.dome | refine ite_kept ?_ ?_)

theorem railOff_kept (n : Nat) (h : P s) : P (railOff n s) := by
  unfold railOff
  repeat' (first | (with_reducible first | assumption | apply when_kept | apply logOpen_kept hP | apply railDisable_kept hP) | intro _)

theorem pltReset_kept (p : Nat) (assert : Bool) (h : P s) : P (pltReset p assert s) := by
  unfold pltReset
  repeat' (with_reducible first | assumption | apply hP.dome)

theorem chanStart_kept (p : Nat) (h : P s) : P (chanStart p s) := by
  unfold chanStart
  repeat' (first | (with_reducible first | assumption | apply seqAll_kept | apply hP.setF | refine ite_kept ?_ ?_) | intro _)

theorem seqStep_keptO (q : Nat) {u : State} (e : seqStep q s = some u) (h : P s) : P u := by
  unfold seqStep at e
  dsimp only at e
  repeat' split at e
  all_goals first
    | (cases e; done)
    | (cases e; repeat' (with_reducible first | assumption | apply modSeq_kept hP | apply railEnable_kept hP | apply railOff_kept hP | apply pltReset_kept hP | apply chanStart_kept hP))

theorem seqEnd_kept (q : Nat) (h : P s) : P (seqEnd q s) := by
  unfold seqEnd
  repeat' (first | (with_reducible first | assumption | apply modSeq_kept hP | refine ite_kept ?_ ?_) | intro _ | extract_lets | split)

theorem seqRunN_kept (n q : Nat) (h : P s) : P (seqRunN n q s) := by
  induction n generalizing s with
  | zero => exact h
  | succ n ih =>
    unfold seqRunN
    split
    · exact ih (seqStep_keptO hP _ (by assumption) h)
    · dsimp only
      split
      · exact h
      · exact ih (seqEnd_kept hP _ h)

theorem seqRun_kept (q : Nat) (h : P s) : P (seqRun q s) := by
  unfold seqRun
  repeat' (with_reducible first | assumption | apply seqRunN_kept hP)

theorem seqOn_kept (q : Nat) (h : P s) : P (seqOn q s) := by
  unfold seqOn
  repeat' (first | (with_reducible first | assumption | apply seqRun_kept hP | apply modSeq_kept hP | refine ite_kept ?_ ?_) | intro _ | split)

theorem seqOff_kept (q : Nat) (h : P s) : P (seqOff q s) := by
  unfold seqOff
  repeat' (first | (with_reducible first | assumption | apply seqRun_kept hP | apply modSeq_kept hP) | intro _ | split)

theorem delayEnd_kept (q : Nat) (h : P s) : P (delayEnd q s) := by
  unfold delayEnd
  repeat' (first | (with_reducible first | assumption | apply seqRun_kept hP | apply modSeq_kept hP | refine ite_kept ?_ ?_) | intro _ | split)

theorem plateCut_kept (p : Nat) (h : P s) : P (plateCut p s) := by
  unfold plateCut
  repeat' (with_reducible first | assumption | apply railOff_kept hP | apply pltReset_kept hP | apply modSeq_kept hP)

theorem railsCut_kept  (h : P s) : P (railsCut s) := by
  unfold railsCut
  repeat' (first | (with_reducible first | assumption | apply seqAll_kept | apply railDisable_kept hP | apply hP.dome) | intro _)

theorem setPd_kept (d : Nat) (x : PdState) (h : P s) : P (setPd d x s) := by
  unfold setPd
  repeat' (with_reducible first | assumption | apply hP.dome)

theorem pdRefuse_kept (d : Nat) (h : P s) : P (pdRefuse d s) := by
  unfold pdRefuse
  repeat' (with_reducible first | assumption | apply setErr_kept hP | apply logOpen_kept hP)

theorem pdRamp_kept (d : Nat) (h : P s) : P (pdRamp d s) := by
  unfold pdRamp
  repeat' (first | (with_reducible first | assumption | apply setPd_kept hP | refine ite_kept ?_ ?_) | intro _ | split)

theorem pdSettle_kept  (h : P s) : P (pdSettle s) := by
  unfold pdSettle
  repeat' (first | (with_reducible first | assumption | apply seqAll_kept | apply setPd_kept hP | apply pdRefuse_kept hP | apply pdRamp_kept hP | refine ite_kept ?_ ?_) | intro _)

theorem rampDone_kept (d : Nat) (katOk : Bool) (h : P s) : P (rampDone d katOk s) := by
  unfold rampDone
  repeat' (with_reducible first | assumption | apply setPd_kept hP | apply hP.dome | apply setErr_kept hP | apply logOpen_kept hP | apply pdSettle_kept hP | refine ite_kept ?_ ?_)

theorem huEnable_kept (level : Bool) (h : P s) : P (huEnable level s) := by
  unfold huEnable
  repeat' (with_reducible first | assumption | apply hP.dome)

theorem railRead_kept (n mv : Nat) (h : P s) : P (railRead n mv s) := by
  unfold railRead
  repeat' (with_reducible first | assumption | apply modRail_kept hP)

theorem marginSettle_kept (n mv : Nat) (h : P s) : P (marginSettle n mv s) := by
  unfold marginSettle
  repeat' (first | (with_reducible first | assumption | apply pdSettle_kept hP | apply modRail_kept hP | apply hP.dome | refine ite_kept ?_ ?_) | intro _ | split)

theorem marginGo_kept  (h : P s) : P (marginGo s) := by
  unfold marginGo
  repeat' (first | (with_reducible first | assumption | apply logOpen_kept hP | apply emit_kept hP | apply hP.dome | refine ite_kept ?_ ?_) | intro _ | split)

theorem marginWrite_kept (v : Nat) (h : P s) : P (marginWrite v s) := by
  unfold marginWrite
  repeat' (with_reducible first | assumption | apply storeAt_kept hP | apply marginGo_kept hP | apply hP.dome | apply setErr_kept hP | refine ite_kept ?_ ?_)

theorem execMargin_kept (_m : Master) (v : BitVec 32) {u : State} (e : execMargin _m v s = .next u) (h : P s) : P u := by
  unfold execMargin at e
  injection e with e
  subst e
  repeat' (with_reducible first | assumption | apply marginWrite_kept hP)

theorem huEstimate_kept  (h : P s) : P (huEstimate s) := by
  unfold huEstimate
  repeat' (with_reducible first | assumption | apply hP.setF | refine ite_kept ?_ ?_)

theorem execHuEstimate_kept  {u : State} (e : execHuEstimate s = .next u) (h : P s) : P u := by
  unfold execHuEstimate at e
  injection e with e
  subst e
  repeat' (with_reducible first | assumption | apply huEstimate_kept hP)

theorem execHuMismatchTimer_kept  {u : State} (e : execHuMismatchTimer s = .next u) (h : P s) : P u := by
  unfold execHuMismatchTimer at e
  injection e with e
  subst e
  repeat' (with_reducible first | assumption | apply setErr_kept hP | apply logOpen_kept hP | refine ite_kept ?_ ?_)

theorem modFan_kept (f : Nat) (g : Fan → Fan) (h : P s) : P (modFan f g s) := by
  unfold modFan
  repeat' (with_reducible first | assumption | apply hP.dome)

theorem fanTach_kept (f pulses : Nat) (h : P s) : P (fanTach f pulses s) := by
  unfold fanTach
  repeat' (with_reducible first | assumption | apply modFan_kept hP | apply takeNat_kept hP | apply takeNat_keptE hP  (by assumption) | apply setErr_kept hP | apply logPut_kept hP | refine ite_kept ?_ ?_)

theorem execFanTachWindow_kept (pulses : List Nat) {u : State} (e : execFanTachWindow pulses s = .next u) (h : P s) : P u := by
  unfold execFanTachWindow at e
  injection e with e
  subst e
  repeat' (first | (with_reducible first | assumption | apply seqAll_kept | apply fanTach_kept hP) | intro _ | split)

theorem execFanWatchdog_kept (fan : Fin 4) {u : State} (e : execFanWatchdog fan s = .next u) (h : P s) : P u := by
  unfold execFanWatchdog at e
  injection e with e
  subst e
  repeat' (with_reducible first | assumption | apply modFan_kept hP)

theorem execHaltFanExpiry_kept  {u : State} (e : execHaltFanExpiry s = .next u) (h : P s) : P u := by
  unfold execHaltFanExpiry at e
  injection e with e
  subst e
  repeat' (with_reducible first | assumption | apply hP.dome)

end Sys2Proof.Machine
end

