-- ==== Sys2Proof/Laws/KeptPlates.lean ====
section
/-! SUPPORT. What the operations of Machine/Plates.lean keep (Laws/Kept.lean). -/

namespace Sys2Proof.Machine

variable {P : State → Prop} (hP : Closed P) {s t : State}
include hP

theorem setMgmt_kept (p v : Nat) (h : P s) : P (setMgmt p v s) := by
  unfold setMgmt
  repeat' (with_reducible first | assumption | apply hP.setF)

theorem setCause_kept (p v : Nat) (h : P s) : P (setCause p v s) := by
  unfold setCause
  repeat' (with_reducible first | assumption | apply hP.setF)

theorem chBufferDrop_kept (c : Nat) (h : P s) : P (chBufferDrop c s) := by
  unfold chBufferDrop
  repeat' (with_reducible first | assumption | apply hP.med)

theorem reloadAbandon_kept (c : Nat) (h : P s) : P (reloadAbandon c s) := by
  unfold reloadAbandon
  repeat' (with_reducible first | assumption | apply hP.setF | apply setErr_kept hP | apply hP.img | refine ite_kept ?_ ?_)

theorem channelOff_kept (c : Nat) (h : P s) : P (channelOff c s) := by
  unfold channelOff
  repeat' (first | (with_reducible first | assumption | apply seqAll_kept | apply dropLatches_kept hP | apply dieIdle_kept hP | apply reloadAbandon_kept hP | apply chBufferDrop_kept hP | apply hP.med | apply hP.setF | apply pllStop_kept hP | apply orphanReads_kept hP) | intro _)

theorem channelsOff_kept (p : Nat) (h : P s) : P (channelsOff p s) := by
  unfold channelsOff
  repeat' (first | (with_reducible first | assumption | apply capRecompute_kept hP | apply seqAll_kept | apply channelOff_kept hP) | intro _)

theorem closeBlocked_kept (p : Nat) (h : P s) : P (closeBlocked p s) := by
  unfold closeBlocked
  repeat' (first | (with_reducible first | assumption | apply seqAll_kept | apply closeEarly_kept hP) | intro _)

theorem measMove_kept (p : Nat) (h : P s) : P (measMove p s) := by
  unfold measMove
  repeat' (first | (with_reducible first | assumption | apply seqAll_kept | apply measOwnStart_kept hP | apply measRemove_kept hP) | intro _)

theorem leaveService_kept (p : Nat) (h : P s) : P (leaveService p s) := by
  unfold leaveService
  repeat' (first | (with_reducible first | assumption | apply seqAll_kept | apply leaveRead_kept hP | apply dieIdle_kept hP | apply measMove_kept hP | apply closeBlocked_kept hP | apply capRecompute_kept hP | apply settle_kept hP) | intro _)

theorem resetPrograms_kept (p : Nat) (h : P s) : P (resetPrograms p s) := by
  unfold resetPrograms
  repeat' (first | (with_reducible first | assumption | apply seqAll_kept | apply dieIdle_kept hP | apply reseal_kept hP | apply hP.med | apply closeEarly_kept hP | refine ite_kept ?_ ?_) | intro _ | extract_lets | split)

theorem plateDead_kept (p : Nat) (h : P s) : P (plateDead p s) := by
  unfold plateDead
  repeat' (with_reducible first | assumption | apply channelsOff_kept hP | apply resetPrograms_kept hP | apply leaveService_kept hP)

theorem setReq_kept (p : Nat) (b : Bool) (h : P s) : P (setReq p b s) := by
  unfold setReq
  repeat' (with_reducible first | assumption | apply hP.setF)

theorem platePower_kept (p : Nat) (h : P s) : P (platePower p s) := by
  unfold platePower
  repeat' (with_reducible first | assumption | apply seqOn_kept hP | apply setReq_kept hP)

theorem plateDown_kept (p : Nat) (h : P s) : P (plateDown p s) := by
  unfold plateDown
  repeat' (with_reducible first | assumption | apply seqOff_kept hP | apply channelsOff_kept hP | apply setReq_kept hP)

theorem powering_kept (p : Nat) (h : P s) : P (powering p s) := by
  unfold powering
  repeat' (with_reducible first | assumption | apply platePower_kept hP | apply setMgmt_kept hP)

theorem identRead_kept (p : Nat) (h : P s) : P (identRead p s) := by
  unfold identRead
  repeat' (with_reducible first | assumption | apply hP.setF | apply setB_kept hP)

theorem platePresent_kept (p : Nat) (h : P s) : P (platePresent p s) := by
  unfold platePresent
  repeat' (with_reducible first | assumption | apply identRead_kept hP | apply setMgmt_kept hP | apply powering_kept hP | refine ite_kept ?_ ?_)

theorem newPlate_kept (p : Nat) (h : P s) : P (newPlate p s) := by
  unfold newPlate
  repeat' (first | (with_reducible first | assumption | apply hP.med | apply seqAll_kept | apply putFrec_kept hP | apply fieldErased_kept hP | apply seeClear_kept hP | apply fldRecount_kept hP | apply relocate_kept hP | apply hP.fld | apply hP.sbus | refine ite_kept ?_ ?_) | intro _)

theorem plateDrain_kept (p cause : Nat) (h : P s) : P (plateDrain p cause s) := by
  unfold plateDrain
  repeat' (with_reducible first | assumption | apply setMgmt_kept hP | apply setCause_kept hP | apply leaveService_kept hP)

theorem plateOffline_kept (p : Nat) (h : P s) : P (plateOffline p s) := by
  unfold plateOffline
  repeat' (with_reducible first | assumption | apply plateDown_kept hP | apply setMgmt_kept hP | apply closeBlocked_kept hP | apply powering_kept hP | apply hP.sbus | refine ite_kept ?_ ?_)

theorem plateStep_kept (p : Nat) (h : P s) : P (plateStep p s) := by
  unfold plateStep
  repeat' (with_reducible first | assumption | apply plateDown_kept hP | apply setCause_kept hP | apply setMgmt_kept hP | apply capRecompute_kept hP | apply newPlate_kept hP | apply plateDrain_kept hP | apply plateOffline_kept hP | refine ite_kept ?_ ?_)

theorem disagreeEnd_kept (p : Nat) (h : P s) : P (disagreeEnd p s) := by
  unfold disagreeEnd
  repeat' (with_reducible first | assumption | apply hP.setF | apply hP.sbus | refine ite_kept ?_ ?_)

theorem platesSettle_kept  (h : P s) : P (platesSettle s) := by
  unfold platesSettle
  repeat' (first | (with_reducible first | assumption | apply seqAll_kept | apply disagreeEnd_kept hP | apply plateStep_kept hP | refine ite_kept ?_ ?_) | intro _)

theorem plateFault_kept (p cause rail : Nat) (h : P s) : P (plateFault p cause rail s) := by
  unfold plateFault
  repeat' (with_reducible first | assumption | apply plateCut_kept hP | apply setReq_kept hP | apply setErr_kept hP | apply logPut_kept hP | apply setCause_kept hP | apply setMgmt_kept hP | apply platesSettle_kept hP | apply plateDead_kept hP | refine ite_kept ?_ ?_)

theorem plateAdmit_kept (p : Nat) (h : P s) : P (plateAdmit p s) := by
  unfold plateAdmit
  repeat' (with_reducible first | assumption | apply almDevice_kept hP | apply almDevice_keptE hP _ _ (by assumption) | apply hP.sbus | apply hP.setF | apply powering_kept hP | refine ite_kept ?_ ?_)

theorem plateAct_kept (r : PltReq) (h : P s) : P (plateAct r s) := by
  unfold plateAct
  repeat' (first | (with_reducible first | assumption | apply hP.sbus | apply powering_kept hP | apply when_kept | apply logOpen_kept hP | apply plateDrain_kept hP | apply plateDown_kept hP | apply setMgmt_kept hP | apply plateAdmit_kept hP | refine ite_kept ?_ ?_) | intro _ | extract_lets | split)

theorem plateReq_kept (r : PltReq) (h : P s) : P (plateReq r s) := by
  unfold plateReq
  repeat' (with_reducible first | assumption | apply hP.sbus | apply platesSettle_kept hP | apply plateAct_kept hP | refine ite_kept ?_ ?_)

theorem pltCmd_kept (v : Nat) (h : P s) : P (pltCmd v s) := by
  unfold pltCmd
  repeat' (with_reducible first | assumption | apply plateReq_kept hP | refine ite_kept ?_ ?_)

theorem execPltCmdOn_kept (_m : Master) (v : BitVec 32) {u : State} (e : execPltCmdOn _m v s = .next u) (h : P s) : P u := by
  unfold execPltCmdOn at e
  injection e with e
  subst e
  repeat' (with_reducible first | assumption | apply pltCmd_kept hP)

theorem execPltCmdOut_kept (_m : Master) (v : BitVec 32) {u : State} (e : execPltCmdOut _m v s = .next u) (h : P s) : P u := by
  unfold execPltCmdOut at e
  injection e with e
  subst e
  repeat' (with_reducible first | assumption | apply pltCmd_kept hP)

theorem execPltCmdAdmit_kept (_m : Master) (v : BitVec 32) {u : State} (e : execPltCmdAdmit _m v s = .next u) (h : P s) : P u := by
  unfold execPltCmdAdmit at e
  injection e with e
  subst e
  repeat' (with_reducible first | assumption | apply pltCmd_kept hP)

theorem pltReqWrite_kept (m : Master) (v : Nat) (h : P s) : P (pltReqWrite m v s) := by
  unfold pltReqWrite
  repeat' (first | (with_reducible first | assumption | apply platesSettle_kept hP | apply seqAll_kept | apply seqOn_kept hP | apply seqOff_kept hP | apply channelsOff_kept hP | apply hP.setF | refine ite_kept ?_ ?_) | intro _)

theorem execPlatePowerReq_kept (m : Master) (v : BitVec 32) {u : State} (e : execPlatePowerReq m v s = .next u) (h : P s) : P u := by
  unfold execPlatePowerReq at e
  injection e with e
  subst e
  repeat' (with_reducible first | assumption | apply pltReqWrite_kept hP)

theorem plateInserted_kept (p : Nat) (ident : List Nat) (h : P s) : P (plateInserted p ident s) := by
  unfold plateInserted
  repeat' (with_reducible first | assumption | apply hP.dome | apply capRecompute_kept hP | apply fldRecount_kept hP | apply platePresent_kept hP | apply hP.sbus | refine ite_kept ?_ ?_)

theorem execPlateInserted_kept (plate : Fin 16) (ident : List Byte) {u : State} (e : execPlateInserted plate ident s = .next u) (h : P s) : P u := by
  unfold execPlateInserted at e
  injection e with e
  subst e
  repeat' (with_reducible first | assumption | apply plateInserted_kept hP)

theorem plateRemoved_kept (p : Nat) (h : P s) : P (plateRemoved p s) := by
  unfold plateRemoved
  repeat' (first | (with_reducible first | assumption | apply plateCut_kept hP | apply hP.sbus | apply setReq_kept hP | apply when_kept | apply setCause_kept hP | apply setMgmt_kept hP | apply hP.setF | apply plateDead_kept hP | apply platesSettle_kept hP | apply fldRecount_kept hP | apply seqAll_kept | apply relocate_kept hP | apply hP.dome | refine ite_kept ?_ ?_) | intro _)

theorem execPlateRemoved_kept (plate : Fin 16) {u : State} (e : execPlateRemoved plate s = .next u) (h : P s) : P u := by
  unfold execPlateRemoved at e
  injection e with e
  subst e
  repeat' (with_reducible first | assumption | apply plateRemoved_kept hP)

theorem drainTimeout_kept (p : Nat) (h : P s) : P (drainTimeout p s) := by
  unfold drainTimeout
  repeat' (first | (with_reducible first | assumption | apply seqAll_kept | apply failRead_kept hP | apply hP.med | apply platesSettle_kept hP | apply plateOffline_kept hP | apply settle_kept hP | apply resetPrograms_kept hP | refine ite_kept ?_ ?_) | intro _)

theorem execPlateDrainTimeout_kept (plate : Fin 16) {u : State} (e : execPlateDrainTimeout plate s = .next u) (h : P s) : P u := by
  unfold execPlateDrainTimeout at e
  injection e with e
  subst e
  repeat' (with_reducible first | assumption | apply drainTimeout_kept hP)

theorem plateHot_kept (p temp : Nat) (h : P s) : P (plateHot p temp s) := by
  unfold plateHot
  repeat' (with_reducible first | assumption | apply hP.setF | apply platesSettle_kept hP | apply plateDrain_kept hP | refine ite_kept ?_ ?_)

theorem execPlateHot_kept (plate : Fin 16) (temp : BitVec 8) {u : State} (e : execPlateHot plate temp s = .next u) (h : P s) : P u := by
  unfold execPlateHot at e
  injection e with e
  subst e
  repeat' (with_reducible first | assumption | apply plateHot_kept hP)

theorem plateDisagree_kept (p : Nat) (h : P s) : P (plateDisagree p s) := by
  unfold plateDisagree
  repeat' (with_reducible first | assumption | apply hP.sbus | apply hP.setF | apply setErr_kept hP | apply logPut_kept hP | refine ite_kept ?_ ?_)

theorem execPlateDisagree_kept (plate : Fin 16) {u : State} (e : execPlateDisagree plate s = .next u) (h : P s) : P u := by
  unfold execPlateDisagree at e
  injection e with e
  subst e
  repeat' (with_reducible first | assumption | apply plateDisagree_kept hP)

end Sys2Proof.Machine
end

