-- ==== Sys2Proof/Laws/KeptSha.lean ====
section
/-! SUPPORT. What the operations of Machine/Sha.lean keep (Laws/Kept.lean). -/

namespace Sys2Proof.Machine

variable {P : State → Prop} (hP : Closed P) {s t : State}
include hP


end Sys2Proof.Machine
end

