-- ==== Sys2Proof/Laws/KeptRings.lean ====
section
/-! SUPPORT. What the operations of Machine/Rings.lean keep (Laws/Kept.lean). -/

namespace Sys2Proof.Machine

variable {P : State → Prop} (hP : Closed P) {s t : State}
include hP

theorem setQ_kept (q st : Nat) (h : P s) : P (setQ q st s) := by
  unfold setQ
  repeat' (with_reducible first | assumption | apply hP.setF)

theorem pairIrq_kept (q : Nat) (h : P s) : P (pairIrq q s) := by
  unfold pairIrq
  repeat' (with_reducible first | assumption | apply msixSend_kept hP | apply cnt_kept hP | apply hP.ring)

theorem ringStatus_kept  (h : P s) : P (ringStatus s) := by
  unfold ringStatus
  repeat' (with_reducible first | assumption | apply hP.setF)

theorem pairRest_kept (q : Nat) (h : P s) : P (pairRest q s) := by
  unfold pairRest
  repeat' (with_reducible first | assumption | apply setQ_kept hP | apply hP.setF | refine ite_kept ?_ ?_)

theorem pairError_kept (q err : Nat) (h : P s) : P (pairError q err s) := by
  unfold pairError
  repeat' (with_reducible first | assumption | apply setQ_kept hP | apply hP.setF | apply setErr_kept hP | apply pairIrq_kept hP)

theorem dropCmds_kept (p : Nat → Bool) (h : P s) : P (dropCmds p s) := by
  unfold dropCmds
  repeat' (first | (with_reducible first | assumption | apply hP.ring | apply ringStatus_kept hP | apply seqAll_kept | apply balancedReset_kept hP | apply hP.setF | apply hP.fld) | intro _)

theorem pairDmaFail_kept (q : Nat) (h : P s) : P (pairDmaFail q s) := by
  unfold pairDmaFail
  repeat' (with_reducible first | assumption | apply setErr_kept hP | apply dropCmds_kept hP | apply pairError_kept hP | refine ite_kept ?_ ?_)

theorem execHostDmaFail_kept (pair : Fin 16384) {u : State} (e : execHostDmaFail pair s = .next u) (h : P s) : P u := by
  unfold execHostDmaFail at e
  injection e with e
  subst e
  repeat' (with_reducible first | assumption | apply pairDmaFail_kept hP)

theorem pairOn_kept (q : Nat) (h : P s) : P (pairOn q s) := by
  unfold pairOn
  repeat' (with_reducible first | assumption | apply setQ_kept hP | apply hP.setF | apply pairError_kept hP | apply hP.ring | refine ite_kept ?_ ?_)

theorem qpCfgWrite_kept (q v : Nat) (h : P s) : P (qpCfgWrite q v s) := by
  unfold qpCfgWrite
  repeat' (with_reducible first | assumption | apply storeAt_kept hP | apply pairOn_kept hP | apply pairRest_kept hP | apply setQ_kept hP | apply hP.setF | refine ite_kept ?_ ?_)

omit hP in
theorem slotGuard_kept (bar0 : Bool) (q : Nat) {f : State → State} (hf : ∀ {t}, P t → P (f t)) (h : P s) : P (slotGuard bar0 q f s) := by
  unfold slotGuard; split
  · exact h
  · exact hf h

theorem execPairEnable_kept (bar0 : Bool) (pair : Fin 16384) (v : Word) {u : State} (e : execPairEnable bar0 pair v s = .next u) (h : P s) : P u := by
  unfold execPairEnable at e
  injection e with e
  subst e
  repeat' (first | (with_reducible first | assumption | apply slotGuard_kept | apply qpCfgWrite_kept hP) | intro _)

theorem execPairDisable_kept (bar0 : Bool) (pair : Fin 16384) (v : Word) {u : State} (e : execPairDisable bar0 pair v s = .next u) (h : P s) : P u := by
  unfold execPairDisable at e
  injection e with e
  subst e
  repeat' (first | (with_reducible first | assumption | apply slotGuard_kept | apply qpCfgWrite_kept hP) | intro _)

theorem badDoorbell_kept (q : Nat) (h : P s) : P (badDoorbell q s) := by
  unfold badDoorbell
  repeat' (with_reducible first | assumption | apply pairError_kept hP | refine ite_kept ?_ ?_)

theorem sqDoorbell_kept (q v : Nat) (h : P s) : P (sqDoorbell q v s) := by
  unfold sqDoorbell
  repeat' (with_reducible first | assumption | apply badDoorbell_kept hP | apply hP.setF | refine ite_kept ?_ ?_)

theorem execSqDoorbell_kept (bar0 : Bool) (pair : Fin 16384) (v : Word) {u : State} (e : execSqDoorbell bar0 pair v s = .next u) (h : P s) : P u := by
  unfold execSqDoorbell at e
  injection e with e
  subst e
  repeat' (first | (with_reducible first | assumption | apply slotGuard_kept | apply sqDoorbell_kept hP) | intro _)

theorem cqDoorbell_kept (q v : Nat) (h : P s) : P (cqDoorbell q v s) := by
  unfold cqDoorbell
  repeat' (with_reducible first | assumption | apply badDoorbell_kept hP | apply hP.setF | refine ite_kept ?_ ?_)

theorem execCqDoorbell_kept (bar0 : Bool) (pair : Fin 16384) (v : Word) {u : State} (e : execCqDoorbell bar0 pair v s = .next u) (h : P s) : P u := by
  unfold execCqDoorbell at e
  injection e with e
  subst e
  repeat' (first | (with_reducible first | assumption | apply slotGuard_kept | apply cqDoorbell_kept hP) | intro _)

theorem ringAlloc_kept (n v : Nat) (h : P s) : P (ringAlloc n v s) := by
  unfold ringAlloc
  repeat' (with_reducible first | assumption | apply setErr_kept hP | apply storeAt_kept hP | refine ite_kept ?_ ?_)

theorem execRingAllocWrite_kept (_m : Master) (n : Fin 17) (v : Word) {u : State} (e : execRingAllocWrite _m n v s = .next u) (h : P s) : P u := by
  unfold execRingAllocWrite at e
  injection e with e
  subst e
  repeat' (with_reducible first | assumption | apply ringAlloc_kept hP)

theorem modCmd_kept (id : Nat) (f : RCmd → RCmd) (h : P s) : P (modCmd id f s) := by
  unfold modCmd
  repeat' (with_reducible first | assumption | apply hP.ring)

theorem cmdEnd_kept (c : RCmd) (st res : Nat) (h : P s) : P (cmdEnd c st res s) := by
  unfold cmdEnd
  repeat' (with_reducible first | assumption | apply ringStatus_kept hP | apply modCmd_kept hP)

theorem turnTake_kept (q o : Nat) (h : P s) : P (turnTake q o s) := by
  unfold turnTake
  repeat' (first | (with_reducible first | assumption | apply hP.ring | refine ite_kept ?_ ?_) | intro _ | extract_lets | split)

theorem cmdFetch_kept (q : Nat) (e : List Nat) (h : P s) : P (cmdFetch q e s) := by
  unfold cmdFetch
  repeat' (first | (with_reducible first | assumption | apply turnTake_kept hP | apply ringStatus_kept hP | apply hP.setF | apply incF_kept hP | apply cnt_kept hP | apply hP.ring | refine ite_kept ?_ ?_) | intro _ | extract_lets | split)

theorem execCommandFetch_kept (pair : Fin 16384) (entry : List Byte) {u : State} (e : execCommandFetch pair entry s = .next u) (h : P s) : P u := by
  unfold execCommandFetch at e
  injection e with e
  subst e
  repeat' (with_reducible first | assumption | apply cmdFetch_kept hP)

theorem cmdStep_kept (q cid op : Nat) {f : RCmd → State → State} (hf : ∀ c {t}, P t → P (f c t)) (h : P s) : P (cmdStep q cid op f s) := by
  unfold cmdStep; split
  · split
    · exact h
    · exact hf _ (modCmd_kept hP _ _ h)
  · exact h

theorem ringLeafRead_kept (ld dpa pfa : Nat) (l : Option RingLeaf) (h : P s) : P (ringLeafRead ld dpa pfa l s) := by
  unfold ringLeafRead
  repeat' (first | (with_reducible first | assumption | apply cnt_kept hP | apply laneCount_kept hP | apply unmarkAhead_kept hP | apply incF_kept hP | apply leafFailed_kept hP | apply unitRow_kept hP | apply readAhead_kept hP | refine ite_kept ?_ ?_) | intro _ | extract_lets | split)

theorem ringMedia_kept (ld dpa pfa : Nat) (kid : Nat) (hdr : Bool) (leaves : List RingLeaf) (first : Bool) (h : P s) : P (ringMedia ld dpa pfa kid hdr leaves first s).2 := by
  unfold ringMedia
  repeat' (with_reducible first | assumption | apply mediaLine_kept hP | apply mediaLine_keptE hP _ _ _ _ _ _ (by assumption) | apply ringLeafRead_kept hP | refine ite_kept2 ?_ ?_ | refine ite_kept ?_ ?_)

theorem ringMedia_keptE (ld dpa pfa : Nat) (kid : Nat) (hdr : Bool) (leaves : List RingLeaf) (first : Bool) {x : (Line × Bool × Bool)} {u : State} (e : ringMedia ld dpa pfa kid hdr leaves first s = (x, u)) (h : P s) : P u := by
  have := ringMedia_kept hP ld dpa pfa kid hdr leaves first h
  rw [e] at this
  exact this

theorem ringRead_kept (ld dpa : Nat) (leaves : List RingLeaf) (first : Bool) (h : P s) : P (ringRead ld dpa leaves first s).2 := by
  unfold ringRead
  extract_lets fo fe under
  have hu : P (under s).2 := by
    dsimp only [under]
    split
    · exact h
    · exact h
    · exact h
    · exact ringMedia_kept hP _ _ _ _ _ _ _ h
  split
  · exact h
  · split
    · exact setErr_kept hP _ _ h
    · split
      · exact kidRead_keptO hP _ _ (by assumption) h
      · split
        · exact h
        · split
          · split
            · exact h
            · split
              · exact h
              · exact hu
          · exact hu

theorem ringRead_keptE {ld dpa : Nat} {leaves : List RingLeaf} {first : Bool} {x : Line × Bool × Bool} (e : ringRead ld dpa leaves first s = (x, t))
    (h : P s) : P t := by
  have := ringRead_kept hP ld dpa leaves first h
  rw [e] at this
  exact this

theorem ringReady_kept (ld dpa : Nat) (first : Bool) (h : P s) : P (ringReady ld dpa first s).2 := by
  unfold ringReady
  repeat' (first | (with_reducible first | assumption | apply unitWait_kept hP | refine ite_kept2 ?_ ?_ | refine ite_kept ?_ ?_) | intro _ | split)

theorem ringReady_keptE (ld dpa : Nat) (first : Bool) {x : Bool} {u : State} (e : ringReady ld dpa first s = (x, u)) (h : P s) : P u := by
  have := ringReady_kept hP ld dpa first h
  rw [e] at this
  exact this

theorem ringWrite_kept (ld dpa : Nat) (data : Line) (poison : Bool) (h : P s) : P (ringWrite ld dpa data poison s).2 := by
  unfold ringWrite
  repeat' (first | (with_reducible first | assumption | apply writeRefused_keptO hP _ (by assumption) | apply raCancel_kept hP | apply acceptLine_kept hP | apply when_kept | apply setErr_kept hP | apply gatherPressure_kept hP | refine ite_kept2 ?_ ?_ | refine ite_kept ?_ ?_) | intro _ | extract_lets | split)

theorem ringWrite_keptE (ld dpa : Nat) (data : Line) (poison : Bool) {x : LineW} {u : State} (e : ringWrite ld dpa data poison s = (x, u)) (h : P s) : P u := by
  have := ringWrite_kept hP ld dpa data poison h
  rw [e] at this
  exact this

omit hP in
theorem unitRun_kept {f : LineStep} (hf : ∀ ⦃c s⦄, P s → P (f c s).2) (n : Nat) (c : RCmd) (h : P s) : P (unitRun f n c s).2 := by
  induction n generalizing s c with
  | zero => exact h
  | succ n ih =>
    have h1 := hf (c := c) h
    unfold unitRun
    split
    · rename_i e; rw [e] at h1; exact h1
    · rename_i e; rw [e] at h1; exact h1
    · rename_i e
      rw [e] at h1
      dsimp only
      split
      · exact h1
      · exact ih _ h1

omit hP in
theorem unitRun_keptE {f : LineStep} (hf : ∀ ⦃c s⦄, P s → P (f c s).2) {n : Nat} {c : RCmd} {x : RCmd ⊕ (Nat × Nat)}
    (e : unitRun f n c s = (x, t)) (h : P s) : P t := by
  have := unitRun_kept hf n c h
  rw [e] at this
  exact this

theorem dataStep_kept {f : LineStep} {fin : RCmd → State → Option (Nat × Nat) × State} (c : RCmd)
    (hf : ∀ ⦃c s⦄, P s → P (f c s).2) (hfin : ∀ c {t}, P t → P (fin c t).2) (h : P s) : P (dataStep f fin c s) := by
  unfold dataStep
  split
  · exact cmdEnd_kept hP _ _ _ h
  · split
    rename_i r s1 e
    have h1 : P s1 := by
      split at e
      · exact unitRun_keptE hf e h
      · cases e; exact h
    split
    · exact cmdEnd_kept hP _ _ _ h1
    · rename_i c1
      have h2 := modCmd_kept hP c.id (fun _ => c1) h1
      dsimp only
      split
      · exact regStatus_kept hP h2
      · have h3 := hfin c1 h2
        split
        · rename_i e3; rw [e3] at h3
          exact regStatus_kept hP (cmdEnd_kept hP _ _ _ h3)
        · rename_i e3; rw [e3] at h3
          exact h3

theorem ringWord_kept (k : Look) (h : P s) : P (ringWord k s).2 := by
  unfold ringWord
  repeat' (first | (with_reducible first | assumption | apply lookOnce_kept hP | apply lookOnce_keptE hP _ (by assumption) | apply fillNow_kept hP | refine ite_kept2 ?_ ?_ | refine ite_kept ?_ ?_) | intro _ | extract_lets | split)

theorem ringWord_keptE (k : Look) {x : Bool} {u : State} (e : ringWord k s = (x, u)) (h : P s) : P u := by
  have := ringWord_kept hP k h
  rw [e] at this
  exact this

theorem ringLook_kept (ld dpa : Nat) (wr : Bool) (h : P s) : P (ringLook ld dpa wr s).2 := by
  unfold ringLook
  repeat' (first | (with_reducible first | assumption | apply ringWord_kept hP | apply ringWord_keptE hP _ (by assumption) | apply cnt_kept hP | refine ite_kept2 ?_ ?_ | refine ite_kept ?_ ?_) | intro _ | extract_lets | split | (rename_i x; clear_value x; split) | (dsimp +zetaDelta only; split) | with_reducible refine ite_kept2E (by assumption) ?_ ?_ | (have e := ‹Option.map _ _ = some _›; simp only [Option.map_eq_some_iff, Prod.mk.injEq] at e; obtain ⟨_, _, _, e⟩ := e; subst e))

theorem ringLook_keptE (ld dpa : Nat) (wr : Bool) {x : Bool} {u : State} (e : ringLook ld dpa wr s = (x, u)) (h : P s) : P u := by
  have := ringLook_kept hP ld dpa wr h
  rw [e] at this
  exact this

theorem ringEnter_kept (c : RCmd) (dpa : Nat) (wr : Bool) (h : P s) : P (ringEnter c dpa wr s).2 := by
  unfold ringEnter
  repeat' (first | (with_reducible first | assumption | apply ringLook_kept hP | apply ringLook_keptE hP _ _ _ (by assumption) | refine ite_kept2 ?_ ?_ | refine ite_kept ?_ ?_) | intro _ | split)

theorem ringEnter_keptE (c : RCmd) (dpa : Nat) (wr : Bool) {x : Bool} {u : State} (e : ringEnter c dpa wr s = (x, u)) (h : P s) : P u := by
  have := ringEnter_kept hP c dpa wr h
  rw [e] at this
  exact this

theorem copyLine_kept {leaves : List RingLeaf} {c : RCmd} (h : P s) : P (copyLine leaves c s).2 := by
  unfold copyLine
  extract_lets ld cls src dst
  split
  · exact h
  · split
    · exact h
    · have h1 := ringEnter_kept hP c src false h
      split
      · rename_i e; rw [e] at h1; exact h1
      · rename_i e; rw [e] at h1
        have h2 := ringEnter_kept hP c dst true h1
        split
        · rename_i e; rw [e] at h2; exact h2
        · rename_i e; rw [e] at h2
          split
          · exact ite_kept h2 (gatherPressure_kept hP h2)
          · have h3 := ringReady_kept hP ld src (firstOfLeaf c src) h2
            split
            · rename_i e; rw [e] at h3; exact h3
            · rename_i e; rw [e] at h3
              have h4 := ringRead_kept hP ld src leaves (firstOfLeaf c src) h3
              split
              rename_i x s4 e
              rw [e] at h4
              have h5 := ringWrite_kept hP ld dst x.1 x.2.1 h4
              split
              · rename_i e; rw [e] at h5; exact h5
              · rename_i e; rw [e] at h5; exact h5
              · rename_i e; rw [e] at h5
                exact cnt_kept hP _ _ _ (cnt_kept hP _ _ _ (cnt_kept hP _ _ _ (takeCredit_kept hP _ _ _ (takeCredit_kept hP _ _ _ h5))))

theorem execRingCopy_kept (pair : Fin 16384) (cid : BitVec 16) (leaves : List RingLeaf) {u : State} (e : execRingCopy pair cid leaves s = .next u) (h : P s) : P u := by
  unfold execRingCopy at e
  injection e with e
  subst e
  repeat' (first | (with_reducible first | assumption | apply cmdStep_kept hP | apply dataStep_kept hP | apply copyLine_kept hP) | intro _)

theorem fillLine_kept {c : RCmd} (h : P s) : P (fillLine c s).2 := by
  unfold fillLine
  extract_lets ld cls dst
  split
  · exact h
  · have h1 := ringEnter_kept hP c dst true h
    split
    · rename_i e; rw [e] at h1; exact h1
    · rename_i e; rw [e] at h1
      have h5 := ringWrite_kept hP ld dst c.pattern false h1
      split
      · rename_i e; rw [e] at h5; exact h5
      · rename_i e; rw [e] at h5; exact h5
      · rename_i e; rw [e] at h5
        exact cnt_kept hP _ _ _ (takeCredit_kept hP _ _ _ h5)

theorem execRingFill_kept (pair : Fin 16384) (cid : BitVec 16) {u : State} (e : execRingFill pair cid s = .next u) (h : P s) : P u := by
  unfold execRingFill at e
  injection e with e
  subst e
  repeat' (first | (with_reducible first | assumption | apply cmdStep_kept hP | apply dataStep_kept hP | apply fillLine_kept hP) | intro _)

theorem readLine_kept {leaves : List RingLeaf} {use : RCmd → Line × Bool × Bool → RCmd ⊕ (Nat × Nat)} {c : RCmd} (h : P s) :
    P (readLine leaves use c s).2 := by
  unfold readLine
  extract_lets ld cls a
  split
  · exact h
  · split
    · exact h
    · have h1 := ringEnter_kept hP c a false h
      split
      · rename_i e; rw [e] at h1; exact h1
      · rename_i e; rw [e] at h1
        have h3 := ringReady_kept hP ld a (firstOfLeaf c a) h1
        split
        · rename_i e; rw [e] at h3; exact h3
        · rename_i e; rw [e] at h3
          exact cnt_kept hP _ _ _ (takeCredit_kept hP _ _ _ (ringRead_kept hP _ _ _ _ h3))

theorem execRingVerify_kept (pair : Fin 16384) (cid : BitVec 16) (leaves : List RingLeaf) {u : State} (e : execRingVerify pair cid leaves s = .next u) (h : P s) : P u := by
  unfold execRingVerify at e
  injection e with e
  subst e
  repeat' (first | (with_reducible first | assumption | apply cmdStep_kept hP | apply dataStep_kept hP | apply readLine_kept hP | refine ite_kept ?_ ?_) | intro _)

theorem hashEnd_kept (dmaOk : Bool) (c : RCmd) (h : P s) : P (hashEnd dmaOk c s).2 := by
  unfold hashEnd
  repeat' (with_reducible first | assumption | apply emit_kept hP | apply setErr_kept hP | refine ite_kept2 ?_ ?_)

theorem hashEnd_keptE (dmaOk : Bool) (c : RCmd) {x : Option (Nat × Nat)} {u : State} (e : hashEnd dmaOk c s = (x, u)) (h : P s) : P u := by
  have := hashEnd_kept hP dmaOk c h
  rw [e] at this
  exact this

theorem execRingHash_kept (pair : Fin 16384) (cid : BitVec 16) (leaves : List RingLeaf) (dmaOk : Bool) {u : State} (e : execRingHash pair cid leaves dmaOk s = .next u) (h : P s) : P u := by
  unfold execRingHash at e
  injection e with e
  subst e
  repeat' (first | (with_reducible first | assumption | apply cmdStep_kept hP | apply dataStep_kept hP | apply readLine_kept hP | apply hashEnd_kept hP | apply hashEnd_keptE hP _ _ (by assumption) | apply cnt_kept hP | apply cmdEnd_kept hP | refine ite_kept ?_ ?_) | intro _ | split)

theorem execHashEngineGrant_kept  {u : State} (e : execHashEngineGrant s = .next u) (h : P s) : P u := by
  unfold execHashEngineGrant at e
  injection e with e
  subst e
  repeat' (first | (with_reducible first | assumption | apply ringStatus_kept hP | apply modCmd_kept hP | refine ite_kept ?_ ?_) | intro _ | split)

theorem sealStop_kept (c : RCmd) (st : Nat) (h : P s) : P (sealStop c st s) := by
  unfold sealStop
  repeat' (first | (with_reducible first | assumption | apply hP.fld | apply cmdEnd_kept hP | apply modCmd_kept hP | refine foldl_kept2 ?_ ?_ | refine foldl_kept2E (by assumption) ?_ ?_ | refine foldl_kept ?_ ?_ | refine ite_kept ?_ ?_) | intro _ | extract_lets | split)

theorem ringSeal_kept (c : RCmd) (h : P s) : P (ringSeal c s) := by
  unfold ringSeal
  repeat' (first | (with_reducible first | assumption | apply sealStop_kept hP | apply modCmd_kept hP | apply cmdEnd_kept hP | apply hP.fld | refine ite_kept ?_ ?_) | intro _ | extract_lets | split)

theorem execRingSeal_kept (pair : Fin 16384) (cid : BitVec 16) {u : State} (e : execRingSeal pair cid s = .next u) (h : P s) : P u := by
  unfold execRingSeal at e
  injection e with e
  subst e
  repeat' (first | (with_reducible first | assumption | apply cmdStep_kept hP | apply ringSeal_kept hP) | intro _)

theorem ringDiscard_kept (c : RCmd) (h : P s) : P (ringDiscard c s) := by
  unfold ringDiscard
  repeat' (first | (with_reducible first | assumption | apply cmdEnd_kept hP | apply capture_kept hP | apply discardFolio_kept hP | apply modCmd_kept hP | apply forceCommit_kept hP | refine ite_kept ?_ ?_) | intro _ | extract_lets | split)

theorem execRingDiscard_kept (pair : Fin 16384) (cid : BitVec 16) {u : State} (e : execRingDiscard pair cid s = .next u) (h : P s) : P u := by
  unfold execRingDiscard at e
  injection e with e
  subst e
  repeat' (first | (with_reducible first | assumption | apply settle_kept hP | apply cmdStep_kept hP | apply ringDiscard_kept hP) | intro _)

theorem execRingSync_kept (pair : Fin 16384) (cid : BitVec 16) {u : State} (e : execRingSync pair cid s = .next u) (h : P s) : P u := by
  unfold execRingSync at e
  injection e with e
  subst e
  repeat' (first | (with_reducible first | assumption | apply cmdStep_kept hP | apply syncDrain_kept hP | apply modCmd_kept hP | refine ite_kept ?_ ?_) | intro _)

theorem prefetchUnit_kept (c : RCmd) (h : P s) : P (prefetchUnit c s).2 := by
  unfold prefetchUnit
  repeat' (first | (with_reducible first | assumption | apply seqAll_kept | apply fillNow_kept hP | apply measOwnStart_kept hP | refine ite_kept2 ?_ ?_ | refine ite_kept ?_ ?_) | intro _)

theorem prefetchUnit_keptE (c : RCmd) {x : RCmd} {u : State} (e : prefetchUnit c s = (x, u)) (h : P s) : P u := by
  have := prefetchUnit_kept hP c h
  rw [e] at this
  exact this

theorem ringPrefetch_kept (c : RCmd) (h : P s) : P (ringPrefetch c s) := by
  unfold ringPrefetch
  repeat' (first | (with_reducible first | assumption | apply cmdEnd_kept hP | apply prefetchUnit_kept hP | apply prefetchUnit_keptE hP _ (by assumption) | apply modCmd_kept hP | refine ite_kept ?_ ?_) | intro _ | extract_lets | split)

theorem execRingPrefetch_kept (pair : Fin 16384) (cid : BitVec 16) {u : State} (e : execRingPrefetch pair cid s = .next u) (h : P s) : P u := by
  unfold execRingPrefetch at e
  injection e with e
  subst e
  repeat' (first | (with_reducible first | assumption | apply cmdStep_kept hP | apply ringPrefetch_kept hP) | intro _)

theorem ringTelemetry_kept (dmaOk : Bool) (c : RCmd) (h : P s) : P (ringTelemetry dmaOk c s) := by
  unfold ringTelemetry
  repeat' (with_reducible first | assumption | apply cmdEnd_kept hP | apply emit_kept hP | apply setErr_kept hP | refine ite_kept ?_ ?_)

theorem execRingTelemetry_kept (pair : Fin 16384) (cid : BitVec 16) (dmaOk : Bool) {u : State} (e : execRingTelemetry pair cid dmaOk s = .next u) (h : P s) : P u := by
  unfold execRingTelemetry at e
  injection e with e
  subst e
  repeat' (first | (with_reducible first | assumption | apply cmdStep_kept hP | apply ringTelemetry_kept hP) | intro _)

theorem ringAbort_kept (c : RCmd) (h : P s) : P (ringAbort c s) := by
  unfold ringAbort
  repeat' (first | (with_reducible first | assumption | apply cmdEnd_kept hP | apply modCmd_kept hP | apply sealStop_kept hP | refine ite_kept ?_ ?_) | intro _ | extract_lets | split)

theorem execRingAbort_kept (pair : Fin 16384) (cid : BitVec 16) {u : State} (e : execRingAbort pair cid s = .next u) (h : P s) : P u := by
  unfold execRingAbort at e
  injection e with e
  subst e
  repeat' (first | (with_reducible first | assumption | apply cmdStep_kept hP | apply ringAbort_kept hP) | intro _)

theorem cmdPost_kept (dmaOk : Bool) (c : RCmd) (st res : Nat) (h : P s) : P (cmdPost dmaOk c st res s) := by
  unfold cmdPost
  repeat' (first | (with_reducible first | assumption | apply emit_kept hP | apply hP.ring | apply ringStatus_kept hP | apply hP.setF | apply when_kept | apply incF_kept hP | apply cnt_kept hP | apply pairIrq_kept hP | apply pairRest_kept hP | apply pairDmaFail_kept hP | refine ite_kept ?_ ?_) | intro _)

theorem completionPost_kept (q cid : Nat) (dmaOk : Bool) (h : P s) : P (completionPost q cid dmaOk s) := by
  unfold completionPost
  repeat' (first | (with_reducible first | assumption | apply regStatus_kept hP | apply cmdPost_kept hP) | intro _ | extract_lets | split)

theorem execCompletionPost_kept (pair : Fin 16384) (cid : BitVec 16) (dmaOk : Bool) {u : State} (e : execCompletionPost pair cid dmaOk s = .next u) (h : P s) : P u := by
  unfold execCompletionPost at e
  injection e with e
  subst e
  repeat' (with_reducible first | assumption | apply completionPost_kept hP)

theorem execCoalesceTimer_kept (pair : Fin 16384) {u : State} (e : execCoalesceTimer pair s = .next u) (h : P s) : P u := by
  unfold execCoalesceTimer at e
  injection e with e
  subst e
  repeat' (with_reducible first | assumption | apply pairIrq_kept hP | refine ite_kept ?_ ?_)

theorem ringsStop_kept  (h : P s) : P (ringsStop s) := by
  unfold ringsStop
  repeat' (first | (with_reducible first | assumption | apply seqAll_kept | apply setQ_kept hP | apply hP.setF | apply sealStop_kept hP | apply cmdEnd_kept hP | apply regStatus_kept hP | refine ite_kept ?_ ?_) | intro _)

theorem slotsClear_kept (p : Nat → Bool) (h : P s) : P (slotsClear p s) := hP.ring (hP.holds (hP.regsDrop h))

theorem slotsReset_kept  (h : P s) : P (slotsReset s) := by
  unfold slotsReset
  repeat' (with_reducible first | assumption | apply regStatus_kept hP | apply slotsClear_kept hP | apply dropCmds_kept hP)

theorem ringsDrop_kept (own : Nat → Bool) (h : P s) : P (ringsDrop own s) := by
  unfold ringsDrop
  repeat' (first | (with_reducible first | assumption | apply regStatus_kept hP | apply slotsClear_kept hP | apply seqAll_kept | apply balancedReset_kept hP | apply dropCmds_kept hP) | intro _)

end Sys2Proof.Machine
end

