-- ==== Sys2Proof/Laws/KeptHostPort.lean ====
section
/-! SUPPORT. What the operations of Machine/HostPort.lean keep (Laws/Kept.lean). -/

namespace Sys2Proof.Machine

variable {P : State → Prop} (hP : Closed P) {s t : State}
include hP

theorem dropReqs_kept (p : HReq → Bool) (h : P s) : P (dropReqs p s) := by
  unfold dropReqs
  repeat' (first | (with_reducible first | assumption | apply hP.host | apply hP.med) | (with_reducible refine hP.xlat ?_ ?_; (intro _ hb; exact hb)))

theorem mboxAbort_kept (p : Nat → Bool) (h : P s) : P (mboxAbort p s) := by
  unfold mboxAbort
  repeat' (first | (with_reducible first | assumption | apply seqAll_kept | apply modPort_kept hP | apply hP.host | apply hP.img | apply hP.dur | apply when_kept | apply setErr_kept hP | refine ite_kept ?_ ?_) | intro _)

theorem linkShow_kept (port speed width : Nat) (mem : Bool) (h : P s) : P (linkShow port speed width mem s) := by
  unfold linkShow
  repeat' (with_reducible first | assumption | apply hP.setF | apply setB_kept hP | refine ite_kept ?_ ?_)

theorem linkDown_kept (port : Nat) (h : P s) : P (linkDown port s) := by
  unfold linkDown
  repeat' (first | (with_reducible first | assumption | apply dropReqs_kept hP | apply mboxAbort_kept hP | apply modPort_kept hP | apply seqAll_kept | apply balancedReset_kept hP | apply when_kept | apply recDisqualified_kept hP | apply setErr_kept hP | apply linkShow_kept hP | apply ringsDrop_kept hP | apply settle_kept hP | apply regStatus_kept hP | apply ldStatusAll_kept hP | refine ite_kept ?_ ?_) | intro _)

theorem execLinkDown_kept (port : Fin 2) {u : State} (e : execLinkDown port s = .next u) (h : P s) : P u := by
  unfold execLinkDown at e
  injection e with e
  subst e
  repeat' (with_reducible first | assumption | apply linkDown_kept hP)

theorem linkUp_kept (port speed width : Nat) (mem : Bool) (ndr drs : Nat) (h : P s) : P (linkUp port speed width mem ndr drs s) := by
  unfold linkUp
  repeat' (with_reducible first | assumption | apply modPort_kept hP | apply linkShow_kept hP | apply ldStatusAll_kept hP | refine ite_kept ?_ ?_)

theorem execLinkUp_kept (port : Fin 2) (speed : Fin 6) (width : Fin 5) (mem : Bool) (ndr drs : BitVec 16) {u : State} (e : execLinkUp port speed width mem ndr drs s = .next u) (h : P s) : P u := by
  unfold execLinkUp at e
  injection e with e
  subst e
  repeat' (with_reducible first | assumption | apply linkUp_kept hP)

theorem creditBack_kept (port cls n : Nat) (h : P s) : P (creditBack port cls n s) := by
  unfold creditBack
  repeat' (first | (with_reducible first | assumption | apply modPort_kept hP | apply when_kept | apply credOverflow_kept hP) | intro _)

theorem creditReturn_kept (port ndr drs : Nat) (h : P s) : P (creditReturn port ndr drs s) := by
  unfold creditReturn
  repeat' (with_reducible first | assumption | apply creditBack_kept hP | apply respDrain_kept hP | refine ite_kept ?_ ?_)

theorem execCreditReturn_kept (port : Fin 2) (ndr drs : BitVec 16) {u : State} (e : execCreditReturn port ndr drs s = .next u) (h : P s) : P u := by
  unfold execCreditReturn at e
  injection e with e
  subst e
  repeat' (with_reducible first | assumption | apply creditReturn_kept hP)

theorem ldReset_kept (n kind : Nat) (h : P s) : P (ldReset n kind s) := by
  unfold ldReset
  repeat' (first | (with_reducible first | assumption | apply ringsDrop_kept hP | apply seqAll_kept | apply modLd_kept hP | apply modPort_kept hP | apply mboxAbort_kept hP | refine ite_kept ?_ ?_) | intro _ | extract_lets | split | (rename_i x; clear_value x; split) | (dsimp +zetaDelta only; split) | with_reducible refine ite_kept2E (by assumption) ?_ ?_ | (have e := ‹Option.map _ _ = some _›; simp only [Option.map_eq_some_iff, Prod.mk.injEq] at e; obtain ⟨_, _, _, e⟩ := e; subst e))

theorem execLdReset_kept (n : Fin 17) (kind : Fin 3) {u : State} (e : execLdReset n kind s = .next u) (h : P s) : P u := by
  unfold execLdReset at e
  injection e with e
  subst e
  repeat' (with_reducible first | assumption | apply ldReset_kept hP)

theorem ideFail_kept (port : Nat) (h : P s) : P (ideFail port s) := by
  unfold ideFail
  repeat' (first | (with_reducible first | assumption | apply modPort_kept hP | apply setErr_kept hP | apply logPut_kept hP | apply seqAll_kept | apply event_kept hP | refine ite_kept ?_ ?_) | intro _)

theorem execIdeMacFail_kept (port : Fin 2) {u : State} (e : execIdeMacFail port s = .next u) (h : P s) : P u := by
  unfold execIdeMacFail at e
  injection e with e
  subst e
  repeat' (with_reducible first | assumption | apply ideFail_kept hP)

theorem ideKeys_kept (port : Nat) (h : P s) : P (ideKeys port s) := by
  unfold ideKeys
  repeat' (first | (with_reducible first | assumption | apply seqAll_kept | apply linkNext_kept hP | apply modPort_kept hP | refine ite_kept ?_ ?_) | intro _ | split)

theorem execIdeKeySetup_kept (port : Fin 2) {u : State} (e : execIdeKeySetup port s = .next u) (h : P s) : P u := by
  unfold execIdeKeySetup at e
  injection e with e
  subst e
  repeat' (with_reducible first | assumption | apply ideKeys_kept hP)

theorem doeRequest_kept (port : Nat) (r : DoeReq) (h : P s) : P (doeRequest port r s) := by
  unfold doeRequest
  repeat' (first | (with_reducible first | assumption | apply emit_kept hP | apply takeNat_kept hP | apply takeNat_keptE hP  (by assumption) | refine ite_kept ?_ ?_) | intro _ | extract_lets | split)

theorem execDoeRequest_kept (port : Fin 2) (r : DoeReq) {u : State} (e : execDoeRequest port r s = .next u) (h : P s) : P u := by
  unfold execDoeRequest at e
  injection e with e
  subst e
  repeat' (with_reducible first | assumption | apply doeRequest_kept hP)

theorem gpfPhase1_kept (port : Nat) (h : P s) : P (gpfPhase1 port s) := by
  unfold gpfPhase1
  repeat' (first | (with_reducible first | assumption | apply seqAll_kept | apply gpfRefuse_kept hP | apply credBack_kept hP | apply modPort_kept hP | refine ite_kept ?_ ?_) | intro _)

theorem execGpfPhase1_kept (port : Fin 2) {u : State} (e : execGpfPhase1 port s = .next u) (h : P s) : P u := by
  unfold execGpfPhase1 at e
  injection e with e
  subst e
  repeat' (with_reducible first | assumption | apply gpfPhase1_kept hP)

theorem gpfPhase2_kept (port : Nat) (h : P s) : P (gpfPhase2 port s) := by
  unfold gpfPhase2
  repeat' (first | (with_reducible first | assumption | apply modPort_kept hP | apply hP.dur | apply forceDone_kept hP | apply syncDrain_kept hP | refine ite_kept ?_ ?_) | intro _ | extract_lets | split)

theorem execGpfPhase2_kept (port : Fin 2) {u : State} (e : execGpfPhase2 port s = .next u) (h : P s) : P u := by
  unfold execGpfPhase2 at e
  injection e with e
  subst e
  repeat' (with_reducible first | assumption | apply gpfPhase2_kept hP)

end Sys2Proof.Machine
end

