-- ==== Sys2Proof/Laws/KeptChannels.lean ====
section
/-! SUPPORT. What the operations of Machine/Channels.lean keep (Laws/Kept.lean). -/

namespace Sys2Proof.Machine

variable {P : State → Prop} (hP : Closed P) {s t : State}
include hP

theorem setDieLost_kept (set st : Nat) (h : P s) : P (setDieLost set st s) := by
  unfold setDieLost
  repeat' (with_reducible first | assumption | apply closeEarly_kept hP | apply relocate_kept hP | apply retireSet_kept hP | apply eraseCheck_kept hP | refine ite_kept ?_ ?_)

theorem fieldDieLost_kept (fno : Nat) (h : P s) : P (fieldDieLost fno s) := by
  unfold fieldDieLost
  repeat' (with_reducible first | assumption | apply fieldTo_kept hP | apply setDieLost_kept hP | apply eraseSetCheck_kept hP | refine ite_kept ?_ ?_)

theorem dieFieldsBad_kept (c d : Nat) (h : P s) : P (dieFieldsBad c d s) := by
  unfold dieFieldsBad
  repeat' (first | (with_reducible first | assumption | apply fldRecount_kept hP | apply seqAll_kept | apply fieldDieLost_kept hP | refine ite_kept ?_ ?_) | intro _)

theorem failedDiesBad_kept  (h : P s) : P (failedDiesBad s) := by
  unfold failedDiesBad
  repeat' (first | (with_reducible first | assumption | apply seqAll_kept | apply dieFieldsBad_kept hP | refine ite_kept ?_ ?_) | intro _)

theorem dieFail_kept (c d : Nat) (h : P s) : P (dieFail c d s) := by
  unfold dieFail
  repeat' (with_reducible first | assumption | apply hP.setF)

theorem dieGoneWork_kept (c d : Nat) (h : P s) : P (dieGoneWork c d s) := by
  unfold dieGoneWork
  repeat' (first | (with_reducible first | assumption | apply dropLatches_kept hP | apply dieIdle_kept hP | apply reseal_kept hP | apply seqAll_kept | apply hP.med | apply measOwnStart_kept hP | apply measRemove_kept hP | apply orphanReads_kept hP | refine ite_kept ?_ ?_) | intro _)

theorem chanFail_kept (c : Nat) (h : P s) : P (chanFail c s) := by
  unfold chanFail
  repeat' (with_reducible first | assumption | apply orphanReads_kept hP | apply pllStop_kept hP | apply chBufferDrop_kept hP | apply hP.setF)

theorem chanCheck_kept (c : Nat) (h : P s) : P (chanCheck c s) := by
  unfold chanCheck
  repeat' (first | (with_reducible first | assumption | apply chanFail_kept hP | refine ite_kept ?_ ?_) | intro _ | extract_lets | split)

theorem dieOutNow_kept (c d : Nat) (h : P s) : P (dieOutNow c d s) := by
  unfold dieOutNow
  repeat' (first | (with_reducible first | assumption | apply dieFail_kept hP | apply dieGoneWork_kept hP | apply dieFieldsBad_kept hP | apply chanCheck_kept hP) | intro _)

theorem dieLost_kept (c d : Nat) (h : P s) : P (dieLost c d s) := by
  unfold dieLost
  repeat' (with_reducible first | assumption | apply settle_kept hP | apply capRecompute_kept hP | apply dieOutNow_kept hP | apply setErr_kept hP | refine ite_kept ?_ ?_)

theorem modPhy_kept (c d v : Nat) (h : P s) : P (modPhy c d v s) := by
  unfold modPhy
  repeat' (first | (with_reducible first | assumption | apply hP.med) | intro _)

theorem trainingDone_kept (c present pass : Nat) (h : P s) : P (trainingDone c present pass s) := by
  unfold trainingDone
  repeat' (first | (with_reducible first | assumption | apply seqAll_kept | apply setB_kept hP | apply hP.med | apply hP.setF | apply when_kept | apply setErr_kept hP | apply modPhy_kept hP | apply dieFieldsBad_kept hP | apply settle_kept hP | apply capRecompute_kept hP | apply sweepStart_kept hP | refine foldl_kept2 ?_ ?_ | refine foldl_kept2E (by assumption) ?_ ?_ | refine foldl_kept ?_ ?_ | refine ite_kept ?_ ?_) | intro _)

theorem programComplete_kept (c d : Nat) (fails : List Nat) (h : P s) : P (programComplete c d fails s) := by
  unfold programComplete
  repeat' (first | (with_reducible first | assumption | apply settle_kept hP | apply programEnd_kept hP | apply fabricOut_kept hP | refine ite_kept ?_ ?_) | intro _ | extract_lets | split | (rename_i x; clear_value x; split) | (dsimp +zetaDelta only; split) | with_reducible refine ite_kept2E (by assumption) ?_ ?_ | (have e := ‹Option.map _ _ = some _›; simp only [Option.map_eq_some_iff, Prod.mk.injEq] at e; obtain ⟨_, _, _, e⟩ := e; subst e))

theorem stepPassed_kept (c step : Nat) (bad : Option Nat) (h : P s) : P (stepPassed c step bad s) := by
  unfold stepPassed
  repeat' (first | (with_reducible first | assumption | apply seqAll_kept | apply modPhy_kept hP | refine ite_kept ?_ ?_) | intro _ | split)

theorem dieCmdDone_kept (c d op : Nat) (ok : Bool) (h : P s) : P (dieCmdDone c d op ok s) := by
  unfold dieCmdDone
  repeat' (first | (with_reducible first | assumption | apply modDie_kept hP | apply fabricOut_kept hP | apply hP.setF | apply setErr_kept hP | apply stepPassed_kept hP | apply hP.med | apply settle_kept hP | apply capRecompute_kept hP | apply dieOutNow_kept hP | refine ite_kept ?_ ?_) | intro _ | extract_lets | split | (rename_i x; clear_value x; split) | (dsimp +zetaDelta only; split) | with_reducible refine ite_kept2E (by assumption) ?_ ?_ | (have e := ‹Option.map _ _ = some _›; simp only [Option.map_eq_some_iff, Prod.mk.injEq] at e; obtain ⟨_, _, _, e⟩ := e; subst e))

theorem fabricTimeout_kept (c d : Nat) (plane : Option Nat) (ns : Nat) (h : P s) : P (fabricTimeout c d plane ns s) := by
  unfold fabricTimeout
  repeat' (first | (with_reducible first | assumption | apply modDie_kept hP | apply abortDie_kept hP | apply fabricOut_kept hP | apply setErr_kept hP | apply settle_kept hP | apply readComplete_kept hP | apply starComplete_kept hP | apply programEnd_kept hP | apply eraseDone_kept hP | refine ite_kept ?_ ?_) | intro _ | extract_lets | split)

theorem channelSleep_kept (c : Nat) (h : P s) : P (channelSleep c s) := by
  unfold channelSleep
  repeat' (with_reducible first | assumption | apply chBufferDrop_kept hP | apply hP.setF | refine ite_kept ?_ ?_)

theorem execChannelSleep_kept (c : Fin 32) {u : State} (e : execChannelSleep c s = .next u) (h : P s) : P u := by
  unfold execChannelSleep at e
  injection e with e
  subst e
  repeat' (with_reducible first | assumption | apply channelSleep_kept hP)

theorem wakeAll_kept  (h : P s) : P (wakeAll s) := by
  unfold wakeAll
  repeat' (first | (with_reducible first | assumption | apply seqAll_kept | apply wakeCh_kept hP) | intro _)

theorem utilWindow_kept (c permille cycles : Nat) (h : P s) : P (utilWindow c permille cycles s) := by
  unfold utilWindow
  repeat' (with_reducible first | assumption | apply hP.setF | apply cnt_kept hP)

theorem execUtilWindow_kept (c : Fin 32) (permille : Fin 1001) (cycles : BitVec 32) {u : State} (e : execUtilWindow c permille cycles s = .next u) (h : P s) : P u := by
  unfold execUtilWindow at e
  injection e with e
  subst e
  repeat' (with_reducible first | assumption | apply utilWindow_kept hP)

theorem mixedShow_kept  (h : P s) : P (mixedShow s) := by
  unfold mixedShow
  repeat' (with_reducible first | assumption | apply setB_kept hP)

theorem reloadEnd_kept (res : Nat) (h : P s) : P (reloadEnd res s) := by
  unfold reloadEnd
  repeat' (first | (with_reducible first | assumption | apply hP.img | apply setB_kept hP | apply hP.setF | apply mixedShow_kept hP) | intro _ | split)

theorem applySeg_kept (c : Nat) (g : ChanSeg) (h : P s) : P (applySeg c g s) := by
  unfold applySeg
  repeat' (first | (with_reducible first | assumption | apply seqAll_kept | apply hP.setF | apply hP.img | apply recPut_kept hP) | intro _)

theorem quiesceStart_kept (c : Nat) (g : ChanSeg) (h : P s) : P (quiesceStart c g s) := by
  unfold quiesceStart
  repeat' (first | (with_reducible first | assumption | apply hP.img | apply hP.setF | apply settle_kept hP | apply capRecompute_kept hP | apply measShift_kept hP | apply seqAll_kept | apply dieIdle_kept hP) | intro _)

theorem quiesceDone_kept (c : Nat) (h : P s) : P (quiesceDone c s) := by
  unfold quiesceDone
  repeat' (with_reducible first | assumption | apply hP.med | apply hP.setF | apply chBufferDrop_kept hP | apply orphanReads_kept hP | refine ite_kept ?_ ?_)

theorem reloadFail_kept (c : Nat) (h : P s) : P (reloadFail c s) := by
  unfold reloadFail
  repeat' (with_reducible first | assumption | apply hP.setF | apply setErr_kept hP | apply logOpen_kept hP | apply chanFail_kept hP | apply reloadEnd_kept hP | apply capRecompute_kept hP | apply settle_kept hP | refine ite_kept ?_ ?_)

theorem segmentLoaded_kept (c : Nat) (ok : Bool) (h : P s) : P (segmentLoaded c ok s) := by
  unfold segmentLoaded
  repeat' (first | (with_reducible first | assumption | apply hP.setF | apply seqAll_kept | apply modPhy_kept hP | apply applySeg_kept hP | apply reloadFail_kept hP | refine ite_kept ?_ ?_) | intro _ | split)

theorem retrainDone_kept (c : Nat) (ok : Bool) (h : P s) : P (retrainDone c ok s) := by
  unfold retrainDone
  repeat' (with_reducible first | assumption | apply hP.setF | apply reloadFail_kept hP | refine ite_kept ?_ ?_)

theorem checkDone_kept (c : Nat) (ok : Bool) (h : P s) : P (checkDone c ok s) := by
  unfold checkDone
  repeat' (with_reducible first | assumption | apply hP.setF | apply reloadEnd_kept hP | apply capRecompute_kept hP | apply settle_kept hP | apply reloadFail_kept hP | refine ite_kept ?_ ?_)

end Sys2Proof.Machine
end

