-- ==== Sys2Proof/Laws/KeptCoreLoss.lean ====
section
/-! SUPPORT. What the operations of Machine/CoreLoss.lean keep (Laws/Kept.lean). -/

namespace Sys2Proof.Machine

variable {P : State → Prop} (hP : Closed P) {s t : State}
include hP

theorem diesCut_kept  (h : P s) : P (diesCut s) := by
  unfold diesCut
  repeat' (with_reducible first | assumption | apply hP.med)

theorem sbusRegsReset_kept  (h : P s) : P (sbusRegsReset s) := by
  unfold sbusRegsReset
  repeat' (first | (with_reducible first | assumption | apply hP.setF | apply seqAll_kept) | intro _)

theorem domainsOff_kept  (h : P s) : P (domainsOff s) := by
  unfold domainsOff
  repeat' (with_reducible first | assumption | apply hP.dome)

theorem haltShow_kept  (h : P s) : P (haltShow s) := by
  unfold haltShow
  repeat' (with_reducible first | assumption | apply hP.setF)

theorem faultWrite_kept (cause rail mv : Nat) (inSeq : Bool) (h : P s) : P (faultWrite cause rail mv inSeq s) := by
  unfold faultWrite
  repeat' (with_reducible first | assumption | apply hP.setF | apply setB_kept hP)

theorem railFault_kept (cause rail mv : Nat) (h : P s) : P (railFault cause rail mv s) := by
  unfold railFault
  repeat' (with_reducible first | assumption | apply almCut_kept hP | apply railsCut_kept hP | apply faultWrite_kept hP | apply odoInc_kept hP | apply todRecord_kept hP | apply hP.lose | apply domainsOff_kept hP | apply setCounted_kept hP | apply hP.glb | apply hP.dome | apply haltShow_kept hP | apply hP.start | refine ite_kept ?_ ?_)

theorem railFail_kept (cause rail mv : Nat) (h : P s) : P (railFail cause rail mv s) := by
  unfold railFail
  repeat' (with_reducible first | assumption | apply modRail_kept hP | apply railFault_kept hP | apply plateFault_kept hP | refine ite_kept ?_ ?_)

theorem powerGone_kept  (h : P s) : P (powerGone s) := by
  unfold powerGone
  repeat' (with_reducible first | assumption | apply hP.lose | apply domainsOff_kept hP | apply hP.glb)

theorem collapseNative_kept  (h : P s) : P (collapseNative s) := by
  unfold collapseNative
  repeat' (with_reducible first | assumption | apply powerGone_kept hP | apply railsCut_kept hP | apply almFinish_kept hP | apply faultWrite_kept hP | apply hP.start)

end Sys2Proof.Machine
end

