-- ==== Sys2Proof/Laws/KeptStart.lean ====
section
/-! SUPPORT. What the operations of Machine/Start.lean keep (Laws/Kept.lean). -/

namespace Sys2Proof.Machine

variable {P : State → Prop} (hP : Closed P) {s t : State}
include hP

theorem mirrorWrite_kept (st pend : Nat) (h : P s) : P (mirrorWrite st pend s) := by
  unfold mirrorWrite
  repeat' (with_reducible first | assumption | apply almDevice_kept hP)

theorem almZero_kept (k n : Nat) (h : P s) : P (almZero k n s) := by
  unfold almZero
  repeat' (with_reducible first | assumption | apply almDevice_kept hP)

theorem vaultsZero_kept  (h : P s) : P (vaultsZero s) := by
  unfold vaultsZero
  repeat' (with_reducible first | assumption | apply almZero_kept hP)

theorem shelfKeyZero_kept  (h : P s) : P (shelfKeyZero s) := by
  unfold shelfKeyZero
  repeat' (with_reducible first | assumption | apply almZero_kept hP | apply hP.sbus)

theorem customerZero_kept  (h : P s) : P (customerZero s) := by
  unfold customerZero
  repeat' (first | (with_reducible first | assumption | apply seqAll_kept | apply almZero_kept hP) | intro _)

theorem retireZero_kept  (h : P s) : P (retireZero s) := by
  unfold retireZero
  repeat' (with_reducible first | assumption | apply almDevice_kept hP | apply almDevice_keptE hP _ _ (by assumption) | apply hP.dur)

theorem lcRecords_kept (old new : Nat) (h : P s) : P (lcRecords old new s) := by
  unfold lcRecords
  repeat' (first | (with_reducible first | assumption | apply customerZero_kept hP | apply shelfKeyZero_kept hP | apply vaultsZero_kept hP | apply almZero_kept hP | apply retireZero_kept hP | refine ite_kept ?_ ?_) | (with_reducible refine hP.lcsKeep ?_ ?_; (intro _; first | exact ⟨rfl, rfl, ⟨_, rfl⟩, ⟨0, by simp⟩⟩ | exact ⟨rfl, rfl, ⟨0, by simp⟩, ⟨_, rfl⟩⟩)))

theorem keysZeroise_kept  (h : P s) : P (keysZeroise s) := by
  unfold keysZeroise
  repeat' (with_reducible first | assumption | apply hP.ciph)

theorem lcShow_kept  (h : P s) : P (lcShow s) := by
  unfold lcShow
  repeat' (with_reducible first | assumption | apply hP.setF | apply setB_kept hP | refine ite_kept ?_ ?_)

theorem mirrorSettle_kept  (h : P s) : P (mirrorSettle s) := by
  unfold mirrorSettle
  repeat' (with_reducible first | assumption | apply mirrorWrite_kept hP | apply hP.setF | apply lcRecords_kept hP | apply odoInc_kept hP | apply keysZeroise_kept hP | apply lcShow_kept hP | refine ite_kept ?_ ?_)

theorem newChallenge_kept  (h : P s) : P (newChallenge s) := by
  unfold newChallenge
  repeat' (with_reducible first | assumption | apply takeNat_kept hP | apply takeNat_keptE hP  (by assumption) | apply hP.setF)

theorem setStage_kept (v : Nat) (h : P s) : P (setStage v s) := by
  unfold setStage
  repeat' (with_reducible first | assumption | apply hP.setF)

theorem faultRecord_kept  (h : P s) : P (faultRecord s) := by
  unfold faultRecord
  repeat' (with_reducible first | assumption | apply logPut_kept hP | apply setErr_kept hP | refine ite_kept ?_ ?_)

theorem platesUp_kept  (h : P s) : P (platesUp s) := by
  unfold platesUp
  repeat' (first | (with_reducible first | assumption | apply seqAll_kept | apply setMgmt_kept hP | apply setReq_kept hP | apply chanStart_kept hP | apply seqOn_kept hP | refine ite_kept ?_ ?_) | intro _)

theorem strapsTake_kept (v : Nat) (h : P s) : P (strapsTake v s) := by
  unfold strapsTake
  repeat' (with_reducible first | assumption | apply hP.setF)

theorem coldStart_kept (source us : Nat) (fail : Bool) (h : P s) : P (coldStart source us fail s) := by
  unfold coldStart
  repeat' (first | (with_reducible first | assumption | apply hP.setF | apply hP.lose | apply odoRepairAll_kept hP | apply when_kept | apply setErr_kept hP | apply almStatus_kept hP | apply platesUp_kept hP | apply mirrorSettle_kept hP | apply setB_kept hP | apply tailRestore_kept hP | apply faultRecord_kept hP | apply todRestore_kept hP | apply odoInc_kept hP | apply newChallenge_kept hP | apply meridKeys_kept hP | apply sbusRegsReset_kept hP | apply setStage_kept hP | apply hP.start | apply hP.glb | apply pdSettle_kept hP | refine ite_kept ?_ ?_) | (with_reducible refine hP.alm ?_ ?_; (intro _ hb; exact hb)) | intro _)

theorem perstStart_kept (straps us : Nat) (fail : Bool) (h : P s) : P (perstStart straps us fail s) := by
  unfold perstStart
  repeat' (with_reducible first | assumption | apply coldStart_kept hP | apply strapsTake_kept hP)

end Sys2Proof.Machine
end

