-- ==== Sys2Proof/Laws/KeptModes.lean ====
section
/-! SUPPORT. What the operations of Machine/Modes.lean keep (Laws/Kept.lean). -/

namespace Sys2Proof.Machine

variable {P : State → Prop} (hP : Closed P) {s t : State}
include hP

theorem pendShow_kept  (h : P s) : P (pendShow s) := by
  unfold pendShow
  repeat' (first | (with_reducible first | assumption | apply hP.setF | refine ite_kept ?_ ?_) | intro _ | split)

theorem pendSet_kept (t src : Nat) (h : P s) : P (pendSet t src s) := by
  unfold pendSet
  repeat' (with_reducible first | assumption | apply pendShow_kept hP | apply hP.glb)

theorem pendClear_kept  (h : P s) : P (pendClear s) := by
  unfold pendClear
  repeat' (with_reducible first | assumption | apply pendShow_kept hP | apply hP.glb)

theorem ingressClose_kept  (h : P s) : P (ingressClose s) := by
  unfold ingressClose
  repeat' (first | (with_reducible first | assumption | apply hP.glb | apply seqAll_kept | apply modPort_kept hP | apply regStatus_kept hP | apply parkRefuse_kept hP | apply credBack_kept hP | apply hP.host | refine ite_kept ?_ ?_) | intro _)

theorem parkStart_kept  (h : P s) : P (parkStart s) := by
  unfold parkStart
  repeat' (with_reducible first | assumption | apply ingressClose_kept hP | apply ringsStop_kept hP | apply mergeFlushAll_kept hP | apply syncDrain_kept hP)

theorem standbyReload_kept  (h : P s) : P (standbyReload s) := by
  unfold standbyReload
  repeat' (first | (with_reducible first | assumption | apply hP.img | apply hP.setF | refine ite_kept ?_ ?_) | intro _ | extract_lets | split)

theorem unparkStart_kept  (h : P s) : P (unparkStart s) := by
  unfold unparkStart
  repeat' (first | (with_reducible first | assumption | apply huEnable_kept hP | apply seqAll_kept | apply seqOn_kept hP | apply drecClearAll_kept hP | apply slotsReset_kept hP | apply hP.setF | apply standbyReload_kept hP | apply pdSettle_kept hP) | intro _)

theorem modeStart_kept (t src : Nat) (h : P s) : P (modeStart t src s) := by
  unfold modeStart
  repeat' (first | (with_reducible first | assumption | apply pendClear_kept hP | apply hP.setF | apply when_kept | apply pendSet_kept hP | apply parkStart_kept hP | apply unparkStart_kept hP | apply pdSettle_kept hP | apply hP.glb | refine ite_kept ?_ ?_) | intro _)

theorem modeRecord_kept (old new : Mode) (h : P s) : P (modeRecord old new s) := by
  unfold modeRecord
  repeat' (with_reducible first | assumption | apply setErr_kept hP | apply logPut_kept hP)

theorem standbyEnter_kept (source : Nat) (h : P s) : P (standbyEnter source s) := by
  unfold standbyEnter
  repeat' (with_reducible first | assumption | apply todRecord_kept hP | apply tailCopy_kept hP | apply modeRecord_kept hP | apply hP.setF | apply setHostDirty_kept hP | apply seqOff_kept hP | apply domainsOff_kept hP | apply hP.lose | apply hP.start | apply seqOn_kept hP | apply hP.dome | apply hP.glb | refine ite_kept ?_ ?_)

theorem pmeAck_kept (source : Nat) (h : P s) : P (pmeAck source s) := by
  unfold pmeAck
  repeat' (with_reducible first | assumption | apply standbyEnter_kept hP | refine ite_kept ?_ ?_)

theorem modeTarget_kept (t src : Nat) (h : P s) : P (modeTarget t src s) := by
  unfold modeTarget
  repeat' (first | (with_reducible first | assumption | apply pendSet_kept hP | apply pendClear_kept hP | apply modeStart_kept hP | refine ite_kept ?_ ?_) | intro _ | split)

theorem pendGo_kept  (h : P s) : P (pendGo s) := by
  unfold pendGo
  repeat' (first | (with_reducible first | assumption | apply standbyEnter_kept hP | apply seqAll_kept | apply linkDown_kept hP | apply hP.glb | apply modeTarget_kept hP | apply pendClear_kept hP | refine ite_kept ?_ ?_) | intro _ | split)

theorem modeCtl_kept (v : Nat) (h : P s) : P (modeCtl v s) := by
  unfold modeCtl
  repeat' (with_reducible first | assumption | apply modeTarget_kept hP | apply storeAt_kept hP | apply hP.glb | refine ite_kept ?_ ?_)

theorem warmStart_kept  (h : P s) : P (warmStart s) := by
  unfold warmStart
  repeat' (first | (with_reducible first | assumption | apply seqAll_kept | apply linkDown_kept hP | apply mboxAbort_kept hP | apply hP.host | apply modPort_kept hP | apply hP.start | apply setStage_kept hP | apply hP.setF) | intro _)

theorem perstEffect_kept  (h : P s) : P (perstEffect s) := by
  unfold perstEffect
  repeat' (with_reducible first | assumption | apply standbyEnter_kept hP | apply pendGo_kept hP | apply modeTarget_kept hP | apply hP.glb | apply warmStart_kept hP | refine ite_kept ?_ ?_)

theorem perstAssert_kept  (h : P s) : P (perstAssert s) := by
  unfold perstAssert
  repeat' (first | (with_reducible first | assumption | apply hP.glb | apply seqOn_kept hP | apply seqAll_kept | apply linkDown_kept hP | apply hP.start | apply perstEffect_kept hP | refine ite_kept ?_ ?_) | intro _ | extract_lets | split)

theorem perstGo_kept  (h : P s) : P (perstGo s) := by
  unfold perstGo
  repeat' (first | (with_reducible first | assumption | apply perstStart_kept hP | apply hP.start | refine ite_kept ?_ ?_) | intro _ | extract_lets | split)

theorem perstRelease_kept (straps us : Nat) (fail : Bool) (h : P s) : P (perstRelease straps us fail s) := by
  unfold perstRelease
  repeat' (with_reducible first | assumption | apply perstGo_kept hP | apply hP.glb | apply hP.start | refine ite_kept ?_ ?_)

theorem commitAll_kept  (h : P s) : P (commitAll s) := by
  unfold commitAll
  repeat' (first | (with_reducible first | assumption | apply sealAll_kept hP | apply seqAll_kept | apply journalDone_kept hP | refine ite_kept ?_ ?_) | intro _)

theorem parkMedia_kept  (h : P s) : P (parkMedia s) := by
  unfold parkMedia
  repeat' (with_reducible first | assumption | apply ckptComplete_kept hP | apply commitAll_kept hP | apply ckptStart_kept hP | apply endRow_kept hP)

theorem parkPlate_kept (p : Nat) (h : P s) : P (parkPlate p s) := by
  unfold parkPlate
  repeat' (first | (with_reducible first | assumption | apply seqOff_kept hP | apply channelsOff_kept hP) | intro _ | split)

theorem standbyLost_kept  (h : P s) : P (standbyLost s) := by
  unfold standbyLost
  repeat' (with_reducible first | assumption | apply hP.setF | apply hP.img | refine ite_kept ?_ ?_)

theorem parkEnd_kept  (h : P s) : P (parkEnd s) := by
  unfold parkEnd
  repeat' (first | (with_reducible first | assumption | apply setHostDirty_kept hP | apply metaFlush_kept hP | apply mergeFlushAll_kept hP | apply parkMedia_kept hP | apply seqAll_kept | apply parkPlate_kept hP | apply odoInc_kept hP | apply huEnable_kept hP | apply standbyLost_kept hP | apply modPort_kept hP | apply pllStop_kept hP | apply hP.setF | apply sweepStatus_kept hP | apply dpllToXtal_kept hP | apply recDisqualified_kept hP | apply hP.drift | refine ite_kept ?_ ?_) | intro _)

theorem modeFinish_kept (dest : Mode) (h : P s) : P (modeFinish dest s) := by
  unfold modeFinish
  repeat' (first | (with_reducible first | assumption | apply hP.glb | apply hP.setF | apply pdSettle_kept hP | apply modeRecord_kept hP | apply when_kept | apply wakeAll_kept hP | apply trainRecords_kept hP | apply perstGo_kept hP | apply perstEffect_kept hP | apply pendGo_kept hP | refine ite_kept ?_ ?_) | intro _)

theorem modeDone_kept  (h : P s) : P (modeDone s) := by
  unfold modeDone
  repeat' (first | (with_reducible first | assumption | apply modeFinish_kept hP | apply parkEnd_kept hP | refine ite_kept ?_ ?_) | intro _ | split)

end Sys2Proof.Machine
end

