-- ==== Sys2Proof/Laws/KeptKeyRun.lean ====
section
/-! SUPPORT. What the operations of Machine/KeyRun.lean keep (Laws/Kept.lean). -/

namespace Sys2Proof.Machine

variable {P : State → Prop} (hP : Closed P) {s t : State}
include hP

theorem unmapAll_kept (ld : Nat) (h : P s) : P (unmapAll ld s) := by
  unfold unmapAll
  repeat' (first | (with_reducible first | assumption | apply seqAll_kept | apply discardFolio_kept hP | apply capture_kept hP) | intro _)

theorem bgEnd_kept (n rc : Nat) (h : P s) : P (bgEnd n rc s) := by
  unfold bgEnd
  repeat' (with_reducible first | assumption | apply msixSend_kept hP | apply modLd_kept hP)

theorem sanitizeEnd_kept (n : Nat) (h : P s) : P (sanitizeEnd n s) := by
  unfold sanitizeEnd
  repeat' (with_reducible first | assumption | apply bgEnd_kept hP | apply modLd_kept hP | apply wpClear_kept hP)

theorem sanitizeUnmap_kept (n : Nat) (h : P s) : P (sanitizeUnmap n s) := by
  unfold sanitizeUnmap
  repeat' (first | (with_reducible first | assumption | apply settle_kept hP | apply unmapAll_kept hP | apply sanitizeEnd_kept hP | apply modLd_kept hP | refine ite_kept ?_ ?_) | intro _ | extract_lets | split)

theorem sanitizeFail_kept (n : Nat) (h : P s) : P (sanitizeFail n s) := by
  unfold sanitizeFail
  repeat' (with_reducible first | assumption | apply logOpen_kept hP | apply bgEnd_kept hP | apply wpClear_kept hP)

theorem sanitizeStep_kept  (h : P s) : P (sanitizeStep s) := by
  unfold sanitizeStep
  repeat' (first | (with_reducible first | assumption | apply seqAll_kept | apply sanitizeEnd_kept hP | refine ite_kept ?_ ?_) | intro _)

theorem lcsEnd_kept (op st : Nat) (h : P s) : P (lcsEnd op st s) := by
  unfold lcsEnd
  repeat' (with_reducible first | assumption | apply hP.setF | apply raiseInt_kept hP | refine ite_kept ?_ ?_)

theorem lcFinish_kept (h : P s) : P (lcFinish s) := by
  unfold lcFinish
  split
  · exact h
  · refine coldStart_kept hP _ _ _ (takeNat_keptE hP rfl ?_)
    exact keysZeroise_kept hP (odoInc_kept hP _ (mirrorWrite_kept hP _ _ (hP.lcsBlow (lcRecords_kept hP _ _ (mirrorWrite_kept hP _ _ h)))))

theorem lcPark_kept  (h : P s) : P (lcPark s) := by
  unfold lcPark
  repeat' (with_reducible first | assumption | apply lcFinish_kept hP | apply modeStart_kept hP | refine ite_kept ?_ ?_)

theorem lcFail_kept (st : Nat) (h : P s) : P (lcFail st s) := by
  unfold lcFail
  have h1 := hP.lcsDrop h
  dsimp only
  split
  · exact lcsEnd_kept hP _ _ h1
  · exact lcsEnd_kept hP _ _ (takeNat_keptE hP rfl h1)

theorem keyEnd_kept (o : KeyOp) (st res : Nat) (h : P s) : P (keyEnd o st res s) := by
  unfold keyEnd
  repeat' (with_reducible first | assumption | apply keyPop_kept hP | apply sanitizeUnmap_kept hP | apply sanitizeFail_kept hP | apply lcPark_kept hP | apply lcFail_kept hP | refine ite_kept ?_ ?_)

theorem keyRunN_kept (n : Nat) (h : P s) : P (keyRunN n s) := by
  induction n generalizing s with
  | zero => exact h
  | succ n ih =>
    unfold keyRunN
    split
    · exact h
    · split
      · exact ih (keyEnd_kept hP _ _ _ (keyStep_keptE hP _ (by assumption) h))
      · split
        · exact h
        · exact ih (keyStep_keptE hP _ (by assumption) h)

theorem keyAdvance_kept  (h : P s) : P (keyAdvance s) := by
  unfold keyAdvance
  repeat' (with_reducible first | assumption | apply sanitizeStep_kept hP | apply keyRunN_kept hP)

theorem keyPush_kept (o : KeyOp) (h : P s) : P (keyPush o s) := by
  unfold keyPush
  repeat' (with_reducible first | assumption | apply hP.ciph)

theorem keyOwn_kept (op ld : Nat) (h : P s) : P (keyOwn op ld s) := by
  unfold keyOwn
  repeat' (with_reducible first | assumption | apply keyPush_kept hP)

theorem ringKey_kept (op : Nat) (c : RCmd) (h : P s) : P (ringKey op c s) := by
  unfold ringKey
  repeat' (with_reducible first | assumption | apply keyAdvance_kept hP | apply keyPush_kept hP | apply modCmd_kept hP | refine ite_kept ?_ ?_)

end Sys2Proof.Machine
end

