-- ==== Sys2Proof/Laws/KeptImage.lean ====
section
/-! SUPPORT. What the operations of Machine/Image.lean keep (Laws/Kept.lean). -/

namespace Sys2Proof.Machine

variable {P : State → Prop} (hP : Closed P) {s t : State}
include hP

theorem recsPut_kept (l : List RegRec) (h : P s) : P (recsPut l s) := by
  unfold recsPut
  repeat' (first | (with_reducible first | assumption | apply seqAll_kept | apply recPut_kept hP) | intro _)

theorem bootWrite_kept (slot minSvn : Nat) (f : List Nat → List Nat) (h : P s) : P (bootWrite slot minSvn f s).2 := by
  unfold bootWrite
  repeat' (with_reducible first | assumption | apply almDevice_kept hP | apply almDevice_keptE hP _ _ (by assumption) | apply hP.setF | apply setErr_kept hP | refine ite_kept2 ?_ ?_)

theorem bootWrite_keptE (slot minSvn : Nat) (f : List Nat → List Nat) {x : Bool} {u : State} (e : bootWrite slot minSvn f s = (x, u)) (h : P s) : P u := by
  have := bootWrite_kept hP slot minSvn f h
  rw [e] at this
  exact this

theorem bootMark_kept (slot st : Nat) (h : P s) : P (bootMark slot st s) := by
  unfold bootMark
  repeat' (with_reducible first | assumption | apply bootWrite_kept hP)

theorem bootErase_kept (set : Nat) (h : P s) : P (bootErase set s) := by
  unfold bootErase
  repeat' (first | (with_reducible first | assumption | apply hP.fld | apply eraseEnd_kept hP | apply seqAll_kept | apply fieldErased_kept hP | apply cnt_kept hP | apply fieldTo_kept hP | apply drecClear_kept hP | refine ite_kept ?_ ?_) | intro _ | extract_lets | split)

theorem copyStore_kept (k : Nat) (i : Image) (place : Option Nat) (h : P s) : P (copyStore k i place s).2 := by
  unfold copyStore
  repeat' (first | (with_reducible first | assumption | apply hP.img | apply takeNat_kept hP | apply takeNat_keptE hP  (by assumption) | apply openSet_kept hP | apply sysFilled_kept hP | apply hP.med | refine foldl_kept2 ?_ ?_ | refine foldl_kept2E (by assumption) ?_ ?_ | refine foldl_kept ?_ ?_) | intro _ | extract_lets | split)

theorem copyStore_keptE (k : Nat) (i : Image) (place : Option Nat) {x : Nat} {u : State} (e : copyStore k i place s = (x, u)) (h : P s) : P u := by
  have := copyStore_kept hP k i place h
  rw [e] at this
  exact this

theorem slotClear_kept (slot : Nat) (h : P s) : P (slotClear slot s) := by
  unfold slotClear
  repeat' (first | (with_reducible first | assumption | apply seqAll_kept | apply bootErase_kept hP | apply hP.img | refine foldl_kept2 ?_ ?_ | refine foldl_kept2E (by assumption) ?_ ?_ | refine foldl_kept ?_ ?_) | intro _ | extract_lets)

theorem slotWrite_kept (slot st seq min : Nat) (i : Image) (h : P s) : P (slotWrite slot st seq min i s).2 := by
  unfold slotWrite
  repeat' (with_reducible first | assumption | apply bootWrite_kept hP | apply bootWrite_keptE hP _ _ _ (by assumption) | apply slotClear_kept hP | apply copyStore_kept hP | apply copyStore_keptE hP _ _ _ (by assumption) | refine ite_kept2 ?_ ?_)

theorem slotWrite_keptE (slot st seq min : Nat) (i : Image) {x : Bool} {u : State} (e : slotWrite slot st seq min i s = (x, u)) (h : P s) : P u := by
  have := slotWrite_kept hP slot st seq min i h
  rw [e] at this
  exact this

theorem imageErr_kept (code : Nat) (h : P s) : P (imageErr code s) := by
  unfold imageErr
  repeat' (first | (with_reducible first | assumption | apply setErr_kept hP) | intro _ | split)

theorem domePut_kept (d : Scripts) (regs : List RegRec) (h : P s) : P (domePut d regs s) := by
  unfold domePut
  repeat' (with_reducible first | assumption | apply recsPut_kept hP | apply hP.dome)

theorem domeFlip_kept  (h : P s) : P (domeFlip s) := by
  unfold domeFlip
  repeat' (with_reducible first | assumption | apply hP.dome | refine ite_kept ?_ ?_)

theorem bucketsClamp_kept (old : State) (h : P s) : P (bucketsClamp old s) := by
  unfold bucketsClamp
  repeat' (with_reducible first | assumption | apply hP.regu)

theorem regApply_kept (l : List RegRec) (force : Bool) (h : P s) : P (regApply l force s) := by
  unfold regApply
  repeat' (with_reducible first | assumption | apply bucketsClamp_kept hP | apply regCtl_kept hP | apply admitSet_kept hP | apply recsPut_kept hP)

theorem bootPlate_kept (p : Nat) (h : P s) : P (bootPlate p s) := by
  unfold bootPlate
  repeat' (with_reducible first | assumption | apply identRead_kept hP | apply powering_kept hP | apply plateDown_kept hP | refine ite_kept ?_ ?_)

theorem chansTrim_kept  (h : P s) : P (chansTrim s) := by
  unfold chansTrim
  repeat' (first | (with_reducible first | assumption | apply seqAll_kept | apply hP.setF | refine ite_kept ?_ ?_) | intro _)

theorem meridLayout_kept  (h : P s) : P (meridLayout s) := by
  unfold meridLayout
  repeat' (with_reducible first | assumption | apply hP.setF)

theorem lanesShow_kept  (h : P s) : P (lanesShow s) := by
  unfold lanesShow
  repeat' (with_reducible first | assumption | apply setErr_kept hP | apply setStage_kept hP | apply logOpen_kept hP | refine ite_kept ?_ ?_)

theorem imageApply_kept (src ms : Nat) (unauth : Bool) (i : Image) (h : P s) : P (imageApply src ms unauth i s) := by
  unfold imageApply
  repeat' (first | (with_reducible first | assumption | apply hP.img | apply recsPut_kept hP | apply domePut_kept hP | apply domeFlip_kept hP | apply regApply_kept hP | apply seqAll_kept | apply applySeg_kept hP | apply hP.setF | apply setB_kept hP | apply mixedShow_kept hP | apply chansTrim_kept hP | apply bootPlate_kept hP | apply poolStatus_kept hP | apply coalStatus_kept hP | apply capRecompute_kept hP | apply spareStatus_kept hP | apply meridLayout_kept hP | apply ldStatusAll_kept hP | apply setStage_kept hP | apply lanesShow_kept hP | apply pdSettle_kept hP | refine foldl_kept2 ?_ ?_ | refine foldl_kept2E (by assumption) ?_ ?_ | refine foldl_kept ?_ ?_ | refine ite_kept ?_ ?_) | intro _ | extract_lets | split)

theorem bootLog_kept (k src code : Nat) (h : P s) : P (bootLog k src code s) := by
  unfold bootLog
  repeat' (with_reducible first | assumption | apply hP.setF | refine ite_kept ?_ ?_)

theorem bootTry_kept (src : Nat) (img : Option Image) (digest : Option Nat) (p : Boot × State) (h : P p.2) : P (bootTry src img digest p).2 := by
  unfold bootTry
  repeat' (with_reducible first | assumption | apply bootLog_kept hP | apply imageErr_kept hP | refine ite_kept2 ?_ ?_)

theorem bootTry_keptE (src : Nat) (img : Option Image) (digest : Option Nat) (p : Boot × State) {x : Boot} {u : State} (e : bootTry src img digest p = (x, u)) (h : P p.2) : P u := by
  have := bootTry_kept hP src img digest p h
  rw [e] at this
  exact this

theorem bootSlot_kept (unread : Nat) (slot : Nat) (p : Boot × State) (h : P p.2) : P (bootSlot unread slot p).2 := by
  unfold bootSlot
  repeat' (with_reducible first | assumption | apply bootWrite_kept hP | apply bootWrite_keptE hP _ _ _ (by assumption) | apply bootTry_kept hP | apply bootTry_keptE hP _ _ _ _ (by assumption) | apply bootMark_kept hP | refine ite_kept2 ?_ ?_ | refine ite_kept ?_ ?_)

theorem bootSlot_keptE (unread : Nat) (slot : Nat) (p : Boot × State) {x : Boot} {u : State} (e : bootSlot unread slot p = (x, u)) (h : P p.2) : P u := by
  have := bootSlot_kept hP unread slot p h
  rw [e] at this
  exact this

theorem bootPrepare_kept  (h : P s) : P (bootPrepare s) := by
  unfold bootPrepare
  repeat' (first | (with_reducible first | assumption | apply seqAll_kept | apply setErr_kept hP | apply bootMark_kept hP | refine ite_kept ?_ ?_) | intro _)

theorem imageBoot_kept (unread : Nat) (x0 x1 : Option Image) (ms : Nat) (h : P s) : P (imageBoot unread x0 x1 ms s) := by
  unfold imageBoot
  repeat' (first | (with_reducible first | assumption | apply bootPrepare_kept hP | apply hP.setF | apply bootSlot_kept hP | apply bootSlot_keptE hP _ _ _ (by assumption) | apply bootTry_kept hP | apply bootTry_keptE hP _ _ _ _ (by assumption) | apply imageApply_kept hP | apply setStage_kept hP | refine foldl_kept2 ?_ ?_ | refine foldl_kept2E (by assumption) ?_ ?_ | refine foldl_kept ?_ ?_ | refine ite_kept ?_ ?_) | intro _ | extract_lets | split | (dsimp +zetaDelta only; split))

theorem oldSlotBad_kept (k svn : Nat) (h : P s) : P (oldSlotBad k svn s) := by
  unfold oldSlotBad
  repeat' (first | (with_reducible first | assumption | apply bootMark_kept hP | refine ite_kept ?_ ?_) | intro _ | split)

theorem imageReady_kept  (h : P s) : P (imageReady s) := by
  unfold imageReady
  repeat' (first | (with_reducible first | assumption | apply bootMark_kept hP | apply oldSlotBad_kept hP | apply bootWrite_kept hP | apply bootWrite_keptE hP _ _ _ (by assumption) | apply slotWrite_kept hP | apply slotWrite_keptE hP _ _ _ _ _ (by assumption) | refine ite_kept ?_ ?_) | intro _ | extract_lets | split)

theorem imageStage_kept (i : Image) (h : P s) : P (imageStage i s).2 := by
  unfold imageStage
  repeat' (with_reducible first | assumption | apply hP.img | apply hP.setF | apply bootMark_kept hP | apply imageErr_kept hP | apply slotWrite_kept hP | apply slotWrite_keptE hP _ _ _ _ _ (by assumption) | apply setB_kept hP | refine ite_kept2 ?_ ?_)

theorem imageStage_keptE (i : Image) {x : Bool} {u : State} (e : imageStage i s = (x, u)) (h : P s) : P u := by
  have := imageStage_kept hP i h
  rw [e] at this
  exact this

theorem reloadRefuse_kept (reason : Nat) (h : P s) : P (reloadRefuse reason s) := by
  unfold reloadRefuse
  repeat' (with_reducible first | assumption | apply hP.setF)

theorem reloadBegin_kept (unit c src : Nat) (h : P s) : P (reloadBegin unit c src s) := by
  unfold reloadBegin
  repeat' (with_reducible first | assumption | apply hP.img | apply hP.setF)

theorem asstLoad_kept (core : Nat) (g : Option AsstSeg) (h : P s) : P (asstLoad core g s) := by
  unfold asstLoad
  repeat' (with_reducible first | assumption | apply hP.img | apply hP.setF | apply hP.find | refine ite_kept ?_ ?_)

theorem chanReload_kept (c src : Nat) (h : P s) : P (chanReload c src s) := by
  unfold chanReload
  repeat' (first | (with_reducible first | assumption | apply reloadRefuse_kept hP | apply quiesceStart_kept hP | apply reloadBegin_kept hP | refine ite_kept ?_ ?_) | intro _ | split)

theorem regReload_kept (src : Nat) (h : P s) : P (regReload src s) := by
  unfold regReload
  repeat' (first | (with_reducible first | assumption | apply reloadRefuse_kept hP | apply regApply_kept hP | apply reloadBegin_kept hP | apply reloadEnd_kept hP | apply hP.img | refine ite_kept ?_ ?_) | intro _ | extract_lets | split)

theorem domeReload_kept (src : Nat) (h : P s) : P (domeReload src s) := by
  unfold domeReload
  repeat' (first | (with_reducible first | assumption | apply reloadRefuse_kept hP | apply domePut_kept hP | apply reloadBegin_kept hP | apply hP.img | refine ite_kept ?_ ?_) | intro _ | split)

theorem asstReload_kept (src : Nat) (h : P s) : P (asstReload src s) := by
  unfold asstReload
  repeat' (first | (with_reducible first | assumption | apply reloadRefuse_kept hP | apply asstLoad_kept hP | apply hP.setF | apply reloadBegin_kept hP | refine ite_kept ?_ ?_) | intro _ | split)

theorem swapStart_kept (src : Nat) (h : P s) : P (swapStart src s) := by
  unfold swapStart
  repeat' (with_reducible first | assumption | apply reloadRefuse_kept hP | apply hP.setF | apply reloadBegin_kept hP | refine ite_kept ?_ ?_)

theorem unitReload_kept (unit c src : Nat) (h : P s) : P (unitReload unit c src s) := by
  unfold unitReload
  repeat' (first | (with_reducible first | assumption | apply chanReload_kept hP | apply regReload_kept hP | apply domeReload_kept hP | apply asstReload_kept hP | apply swapStart_kept hP) | intro _ | split)

theorem imgReload_kept (v : Nat) (h : P s) : P (imgReload v s) := by
  unfold imgReload
  repeat' (with_reducible first | assumption | apply storeAt_kept hP | apply unitReload_kept hP | refine ite_kept ?_ ?_)

theorem domeBankFlip_kept  (h : P s) : P (domeBankFlip s) := by
  unfold domeBankFlip
  repeat' (with_reducible first | assumption | apply domeFlip_kept hP | apply reloadEnd_kept hP | refine ite_kept ?_ ?_)

theorem standbyReady_kept  (h : P s) : P (standbyReady s) := by
  unfold standbyReady
  repeat' (with_reducible first | assumption | apply hP.setF | apply reloadEnd_kept hP | refine ite_kept ?_ ?_)

theorem assistTimeout_kept  (h : P s) : P (assistTimeout s) := by
  unfold assistTimeout
  repeat' (with_reducible first | assumption | apply asstLoad_kept hP | apply reloadEnd_kept hP | refine ite_kept ?_ ?_)

theorem swapDone_kept  (h : P s) : P (swapDone s) := by
  unfold swapDone
  repeat' (with_reducible first | assumption | apply reloadEnd_kept hP | apply hP.setF | refine ite_kept ?_ ?_)

theorem swapTimeout_kept  (h : P s) : P (swapTimeout s) := by
  unfold swapTimeout
  repeat' (with_reducible first | assumption | apply reloadEnd_kept hP | apply hP.setF | apply setErr_kept hP | refine ite_kept ?_ ?_)

theorem actUnit_kept (u src : Nat) (h : P s) : P (actUnit u src s) := by
  unfold actUnit
  repeat' (with_reducible first | assumption | apply domeReload_kept hP | apply regReload_kept hP | apply chanReload_kept hP | apply swapStart_kept hP | apply asstReload_kept hP | refine ite_kept ?_ ?_)

theorem actEnd_kept  (h : P s) : P (actEnd s) := by
  unfold actEnd
  repeat' (with_reducible first | assumption | apply hP.img | apply hP.setF | apply setB_kept hP)

theorem actTell_kept (view rc : Nat) (h : P s) : P (actTell view rc s) := by
  unfold actTell
  repeat' (first | (with_reducible first | assumption | apply when_kept | apply mboxDone_kept hP) | intro _)

theorem actDone_kept (view : Nat) (h : P s) : P (actDone view s) := by
  unfold actDone
  repeat' (first | (with_reducible first | assumption | apply bootWrite_kept hP | apply bootWrite_keptE hP _ _ _ (by assumption) | apply hP.img | apply setB_kept hP | apply hP.setF | apply mixedShow_kept hP | apply actTell_kept hP | apply actEnd_kept hP | refine ite_kept ?_ ?_) | intro _ | extract_lets | split)

theorem actFailed_kept (view : Nat) (h : P s) : P (actFailed view s) := by
  unfold actFailed
  repeat' (with_reducible first | assumption | apply actTell_kept hP | apply setErr_kept hP | apply actEnd_kept hP)

theorem actStep_kept  (h : P s) : P (actStep s) := by
  unfold actStep
  repeat' (first | (with_reducible first | assumption | apply logOpen_kept hP | apply actFailed_kept hP | apply actDone_kept hP | apply actUnit_kept hP | apply hP.img | refine ite_kept ?_ ?_) | intro _ | extract_lets | split)

theorem actGoN_kept (n : Nat) (h : P s) : P (actGoN n s) := by
  induction n generalizing s with
  | zero => exact h
  | succ n ih =>
    unfold actGoN
    split
    · exact ih (actStep_kept hP h)
    · exact h

theorem actGo_kept  (h : P s) : P (actGo s) := by
  unfold actGo
  repeat' (with_reducible first | assumption | apply actGoN_kept hP)

theorem reloadsAbandon_kept (keep : Bool) (h : P s) : P (reloadsAbandon keep s) := by
  unfold reloadsAbandon
  repeat' (first | (with_reducible first | assumption | apply hP.img | apply hP.setF | apply reloadEnd_kept hP | refine ite_kept ?_ ?_) | intro _ | extract_lets | split)

end Sys2Proof.Machine
end

