-- ==== Sys2Proof/Laws/KeptPower.lean ====
section
/-! SUPPORT. What the operations of Machine/Power.lean keep (Laws/Kept.lean). -/

namespace Sys2Proof.Machine

variable {P : State → Prop} (hP : Closed P) {s t : State}
include hP

theorem drainDown_kept  (h : P s) : P (drainDown s) := by
  unfold drainDown
  repeat' (first | (with_reducible first | assumption | apply seqAll_kept | apply channelsOff_kept hP | apply seqRun_kept hP | apply hP.dur | apply hP.dome | refine ite_kept ?_ ?_) | intro _)

theorem drainTail_kept  (h : P s) : P (drainTail s) := by
  unfold drainTail
  repeat' (with_reducible first | assumption | apply hP.dur | apply tailStart_kept hP | refine ite_kept ?_ ?_)

theorem drainOff_kept  (h : P s) : P (drainOff s) := by
  unfold drainOff
  repeat' (with_reducible first | assumption | apply powerGone_kept hP | apply seqRun_kept hP | apply hP.dome | apply hP.start)

theorem drainAdvance_kept  (h : P s) : P (drainAdvance s) := by
  unfold drainAdvance
  repeat' (with_reducible first | assumption | apply drainGo_kept hP | apply drainDown_kept hP | apply drainTail_kept hP | apply drainOff_kept hP | refine ite_kept ?_ ?_)

theorem diesDrain_kept  (h : P s) : P (diesDrain s) := by
  unfold diesDrain
  repeat' (first | (with_reducible first | assumption | apply seqAll_kept | apply dieIdle_kept hP | apply fabResume_kept hP) | intro _ | split)

theorem drainBegin_kept  (h : P s) : P (drainBegin s) := by
  unfold drainBegin
  repeat' (first | (with_reducible first | assumption | apply pendClear_kept hP | apply reloadsAbandon_kept hP | apply hP.host | apply hP.setF | apply seqAll_kept | apply modPort_kept hP | apply seqOff_kept hP | apply channelsOff_kept hP | apply hP.dur | apply setB_kept hP | apply drainAdvance_kept hP | apply closeGathers_kept hP | apply diesDrain_kept hP | apply mergeFlushAll_kept hP | apply hP.glb | refine ite_kept ?_ ?_) | intro _)

theorem huFollow_kept  (h : P s) : P (huFollow s) := by
  unfold huFollow
  repeat' (first | (with_reducible first | assumption | apply huEnable_kept hP | refine ite_kept ?_ ?_) | intro _ | split)

theorem checkFollow_kept  (h : P s) : P (checkFollow s) := by
  unfold checkFollow
  repeat' (with_reducible first | assumption | apply hP.ledg | apply setB_kept hP | refine ite_kept ?_ ?_)

theorem after_kept  (h : P s) : P (after s) := by
  unfold after
  repeat' (with_reducible first | assumption | apply platesSettle_kept hP | apply keyAdvance_kept hP | apply actGo_kept hP | apply ckptJmax_kept hP | apply drainAdvance_kept hP | apply marginGo_kept hP | apply huFollow_kept hP | apply checkFollow_kept hP | apply perstGo_kept hP | apply pendGo_kept hP)

theorem domeAfter_kept  (h : P s) : P (domeAfter s) := by
  unfold domeAfter
  repeat' (with_reducible first | assumption | apply after_kept hP | apply pdSettle_kept hP)

theorem collapse_kept  (h : P s) : P (collapse s) := by
  unfold collapse
  repeat' (with_reducible first | assumption | apply hP.start | apply railsCut_kept hP | apply almCut_kept hP | apply reloadsAbandon_kept hP | apply faultWrite_kept hP | apply domeAfter_kept hP | apply hP.dome | apply drainDown_kept hP | apply hP.glb | apply collapseNative_kept hP | refine ite_kept ?_ ?_)

theorem execInputCollapse_kept (mv : BitVec 16) {u : State} (e : execInputCollapse mv s = .next u) (h : P s) : P u := by
  unfold execInputCollapse at e
  injection e with e
  subst e
  repeat' (with_reducible first | assumption | apply collapse_kept hP | apply hP.dome)

theorem inputLoss_kept  (h : P s) : P (inputLoss s) := by
  unfold inputLoss
  repeat' (first | (with_reducible first | assumption | apply setErr_kept hP | apply hP.start | apply domeAfter_kept hP | apply seqOff_kept hP | apply drainDown_kept hP | apply reloadsAbandon_kept hP | apply collapse_kept hP | apply drainBegin_kept hP | apply hP.dome | apply hP.glb | refine ite_kept ?_ ?_) | intro _ | extract_lets | split)

theorem execInputLoss_kept  {u : State} (e : execInputLoss s = .next u) (h : P s) : P u := by
  unfold execInputLoss at e
  injection e with e
  subst e
  repeat' (with_reducible first | assumption | apply inputLoss_kept hP)

theorem vinBack_kept  (h : P s) : P (vinBack s) := by
  unfold vinBack
  repeat' (with_reducible first | assumption | apply hP.start | apply domeAfter_kept hP | apply seqOn_kept hP | apply hP.glb | apply hP.dome | apply hP.find | refine ite_kept ?_ ?_)

theorem execInputReturn_kept  {u : State} (e : execInputReturn s = .next u) (h : P s) : P u := by
  unfold execInputReturn at e
  injection e with e
  subst e
  repeat' (with_reducible first | assumption | apply vinBack_kept hP)

theorem aonUp_kept (straps : Nat) (h : P s) : P (aonUp straps s) := by
  unfold aonUp
  repeat' (with_reducible first | assumption | apply strapsTake_kept hP | apply hP.start)

theorem aonReset_kept  (h : P s) : P (aonReset s) := by
  unfold aonReset
  repeat' (first | (with_reducible first | assumption | apply sbusRegsReset_kept hP | apply seqAll_kept | apply hP.setF | apply hP.clk | apply hP.sbus) | intro _)

theorem aonLoss_kept (reset : Bool) (h : P s) : P (aonLoss reset s) := by
  unfold aonLoss
  repeat' (with_reducible first | assumption | apply powerGone_kept hP | apply railsCut_kept hP | apply almFinish_kept hP | apply aonReset_kept hP | apply hP.start | refine ite_kept ?_ ?_)

theorem execAonLoss_kept (reset : Bool) {u : State} (e : execAonLoss reset s = .next u) (h : P s) : P u := by
  unfold execAonLoss at e
  injection e with e
  subst e
  repeat' (with_reducible first | assumption | apply aonLoss_kept hP)

theorem aonReturn_kept (straps : Nat) (h : P s) : P (aonReturn straps s) := by
  unfold aonReturn
  repeat' (with_reducible first | assumption | apply aonUp_kept hP | apply domeAfter_kept hP | apply seqOn_kept hP | apply hP.start | refine ite_kept ?_ ?_)

theorem execAonReturn_kept (straps : BitVec 8) {u : State} (e : execAonReturn straps s = .next u) (h : P s) : P u := by
  unfold execAonReturn at e
  injection e with e
  subst e
  repeat' (with_reducible first | assumption | apply aonReturn_kept hP)

theorem powerOn_kept (straps : Nat) (h : P s) : P (powerOn straps s) := by
  unfold powerOn
  repeat' (with_reducible first | assumption | apply vinBack_kept hP | apply aonUp_kept hP | refine ite_kept ?_ ?_)

theorem execPowerOn_kept (straps : BitVec 8) {u : State} (e : execPowerOn straps s = .next u) (h : P s) : P u := by
  unfold execPowerOn at e
  injection e with e
  subst e
  repeat' (with_reducible first | assumption | apply powerOn_kept hP)

theorem execPerstAssert_kept  {u : State} (e : execPerstAssert s = .next u) (h : P s) : P u := by
  unfold execPerstAssert at e
  injection e with e
  subst e
  repeat' (with_reducible first | assumption | apply domeAfter_kept hP | apply perstAssert_kept hP)

theorem execPerstRelease_kept (straps : BitVec 8) (wipeUs : BitVec 16) (wipeFail : Bool) {u : State} (e : execPerstRelease straps wipeUs wipeFail s = .next u) (h : P s) : P u := by
  unfold execPerstRelease at e
  injection e with e
  subst e
  repeat' (with_reducible first | assumption | apply domeAfter_kept hP | apply perstRelease_kept hP)

theorem execModeTargetActive_kept (_m : Master) {u : State} (e : execModeTargetActive _m s = .next u) (h : P s) : P u := by
  unfold execModeTargetActive at e
  injection e with e
  subst e
  repeat' (with_reducible first | assumption | apply after_kept hP | apply modeCtl_kept hP)

theorem execModeTargetQuiet_kept (_m : Master) {u : State} (e : execModeTargetQuiet _m s = .next u) (h : P s) : P u := by
  unfold execModeTargetQuiet at e
  injection e with e
  subst e
  repeat' (with_reducible first | assumption | apply after_kept hP | apply modeCtl_kept hP)

theorem execModeTargetParked_kept (_m : Master) {u : State} (e : execModeTargetParked _m s = .next u) (h : P s) : P u := by
  unfold execModeTargetParked at e
  injection e with e
  subst e
  repeat' (with_reducible first | assumption | apply after_kept hP | apply modeCtl_kept hP)

theorem execModeTargetStandby_kept (_m : Master) {u : State} (e : execModeTargetStandby _m s = .next u) (h : P s) : P u := by
  unfold execModeTargetStandby at e
  injection e with e
  subst e
  repeat' (with_reducible first | assumption | apply after_kept hP | apply modeCtl_kept hP)

theorem modeTransitionDone_kept  (h : P s) : P (modeTransitionDone s) := by
  unfold modeTransitionDone
  repeat' (with_reducible first | assumption | apply modeDone_kept hP | apply domeAfter_kept hP | apply lcFinish_kept hP | refine ite_kept ?_ ?_)

theorem execModeTransitionDone_kept  {u : State} (e : execModeTransitionDone s = .next u) (h : P s) : P u := by
  unfold execModeTransitionDone at e
  injection e with e
  subst e
  repeat' (with_reducible first | assumption | apply modeTransitionDone_kept hP)

theorem execPmeToAck_kept  {u : State} (e : execPmeToAck s = .next u) (h : P s) : P u := by
  unfold execPmeToAck at e
  injection e with e
  subst e
  repeat' (with_reducible first | assumption | apply domeAfter_kept hP | apply pmeAck_kept hP)

theorem execImageLoaded_kept (unread : BitVec 4) (xspi0 xspi1 : Option Image) (ms : BitVec 16) {u : State} (e : execImageLoaded unread xspi0 xspi1 ms s = .next u) (h : P s) : P u := by
  unfold execImageLoaded at e
  injection e with e
  subst e
  repeat' (with_reducible first | assumption | apply domeAfter_kept hP | apply imageBoot_kept hP)

theorem ddrShow_kept (l : List DimmChan) (h : P s) : P (ddrShow l s) := by
  unfold ddrShow
  repeat' (first | (with_reducible first | assumption | apply seqAll_kept | apply setB_kept hP | apply hP.setF) | intro _ | extract_lets)

theorem ddrTrained_kept (l : List DimmChan) (check : Bool) (h : P s) : P (ddrTrained l check s) := by
  unfold ddrTrained
  repeat' (first | (with_reducible first | assumption | apply ddrShow_kept hP | apply hP.setF | apply setStage_kept hP | apply logOpen_kept hP | apply hP.start | apply hP.wm | refine ite_kept ?_ ?_) | intro _)

theorem execDdrTrainingDone_kept (chans : List DimmChan) (fromRec : Bool) {u : State} (e : execDdrTrainingDone chans fromRec s = .next u) (h : P s) : P u := by
  unfold execDdrTrainingDone at e
  injection e with e
  subst e
  repeat' (with_reducible first | assumption | apply after_kept hP | apply ddrTrained_kept hP)

theorem execZeroerDone_kept  {u : State} (e : execZeroerDone s = .next u) (h : P s) : P u := by
  unfold execZeroerDone at e
  injection e with e
  subst e
  repeat' (with_reducible first | assumption | apply hP.setF)

theorem replayRun_kept (out0 out1 : Nat) (bad : List Nat) (badHdr : List Nat) (vaultOk : Bool) (us : Nat) (h : P s) : P (replayRun out0 out1 bad badHdr vaultOk us s) := by
  unfold replayRun
  repeat' (with_reducible first | assumption | apply failedDiesBad_kept hP | apply replay_kept hP | apply setStage_kept hP | refine ite_kept ?_ ?_)

theorem execReplay_kept (out0 out1 : Fin 3) (bad badHdr : List Nat) (vaultOk : Bool) (us : BitVec 32) {u : State} (e : execReplay out0 out1 bad badHdr vaultOk us s = .next u) (h : P s) : P u := by
  unfold execReplay at e
  injection e with e
  subst e
  repeat' (with_reducible first | assumption | apply after_kept hP | apply replayRun_kept hP)

theorem memReadyGo_kept  (h : P s) : P (memReadyGo s) := by
  unfold memReadyGo
  repeat' (with_reducible first | assumption | apply hP.glb | apply hP.setF | apply setStage_kept hP | apply takeNat_kept hP | apply takeNat_keptE hP  (by assumption) | apply setErr_kept hP | apply logPut_kept hP | apply imageReady_kept hP | apply dirtySettle_kept hP | apply trainRecords_kept hP | apply ldStatusAll_kept hP | apply pdSettle_kept hP | apply hP.start)

theorem warmReady_kept  (h : P s) : P (warmReady s) := by
  unfold warmReady
  repeat' (with_reducible first | assumption | apply hP.start | apply setStage_kept hP | apply hP.setF | refine ite_kept ?_ ?_)

theorem execCxlMemReady_kept  {u : State} (e : execCxlMemReady s = .next u) (h : P s) : P u := by
  unfold execCxlMemReady at e
  injection e with e
  subst e
  repeat' (with_reducible first | assumption | apply domeAfter_kept hP | apply memReadyGo_kept hP | apply after_kept hP | apply warmReady_kept hP | refine ite_kept ?_ ?_)

theorem rootUe_kept  (h : P s) : P (rootUe s) := by
  unfold rootUe
  repeat' (with_reducible first | assumption | apply railFault_kept hP | apply setErr_kept hP | apply hP.setF | refine ite_kept ?_ ?_)

theorem execRootSramUe_kept  {u : State} (e : execRootSramUe s = .next u) (h : P s) : P u := by
  unfold execRootSramUe at e
  injection e with e
  subst e
  repeat' (with_reducible first | assumption | apply rootUe_kept hP)

theorem execDomainRampDone_kept (pd : Fin 80) (katOk : Bool) {u : State} (e : execDomainRampDone pd katOk s = .next u) (h : P s) : P u := by
  unfold execDomainRampDone at e
  injection e with e
  subst e
  repeat' (with_reducible first | assumption | apply domeAfter_kept hP | apply rampDone_kept hP)

theorem railGood_kept (n mv : Nat) (h : P s) : P (railGood n mv s) := by
  unfold railGood
  repeat' (with_reducible first | assumption | apply domeAfter_kept hP | apply seqRun_kept hP | apply modRail_kept hP | refine ite_kept ?_ ?_)

theorem execRailPowerGood_kept (rail : Fin 40) (mv : BitVec 16) {u : State} (e : execRailPowerGood rail mv s = .next u) (h : P s) : P u := by
  unfold execRailPowerGood at e
  injection e with e
  subst e
  repeat' (with_reducible first | assumption | apply railGood_kept hP)

theorem waitUpTimeout_kept (n : Nat) (h : P s) : P (waitUpTimeout n s) := by
  unfold waitUpTimeout
  repeat' (with_reducible first | assumption | apply domeAfter_kept hP | apply railFail_kept hP | refine ite_kept ?_ ?_)

theorem execWaitUpTimeout_kept (rail : Fin 40) {u : State} (e : execWaitUpTimeout rail s = .next u) (h : P s) : P u := by
  unfold execWaitUpTimeout at e
  injection e with e
  subst e
  repeat' (with_reducible first | assumption | apply waitUpTimeout_kept hP)

theorem railDown_kept (n mv : Nat) (h : P s) : P (railDown n mv s) := by
  unfold railDown
  repeat' (with_reducible first | assumption | apply domeAfter_kept hP | apply seqRun_kept hP | apply modRail_kept hP | refine ite_kept ?_ ?_)

theorem execRailDischarged_kept (rail : Fin 40) (mv : BitVec 16) {u : State} (e : execRailDischarged rail mv s = .next u) (h : P s) : P u := by
  unfold execRailDischarged at e
  injection e with e
  subst e
  repeat' (with_reducible first | assumption | apply railDown_kept hP)

theorem dischargeTimeout_kept (n : Nat) (h : P s) : P (dischargeTimeout n s) := by
  unfold dischargeTimeout
  repeat' (with_reducible first | assumption | apply domeAfter_kept hP | apply railFail_kept hP | apply setErr_kept hP | apply logPut_kept hP | refine ite_kept ?_ ?_)

theorem execDischargeTimeout_kept (rail : Fin 40) {u : State} (e : execDischargeTimeout rail s = .next u) (h : P s) : P u := by
  unfold execDischargeTimeout at e
  injection e with e
  subst e
  repeat' (with_reducible first | assumption | apply dischargeTimeout_kept hP)

theorem minOff_kept (n : Nat) (h : P s) : P (minOff n s) := by
  unfold minOff
  repeat' (with_reducible first | assumption | apply domeAfter_kept hP | apply seqRun_kept hP | apply modRail_kept hP | refine ite_kept ?_ ?_)

theorem execMinOffExpiry_kept (rail : Fin 40) {u : State} (e : execMinOffExpiry rail s = .next u) (h : P s) : P u := by
  unfold execMinOffExpiry at e
  injection e with e
  subst e
  repeat' (with_reducible first | assumption | apply minOff_kept hP)

theorem execScriptDelayExpiry_kept (seq : Fin 17) {u : State} (e : execScriptDelayExpiry seq s = .next u) (h : P s) : P u := by
  unfold execScriptDelayExpiry at e
  injection e with e
  subst e
  repeat' (with_reducible first | assumption | apply domeAfter_kept hP | apply delayEnd_kept hP)

theorem powerGoodLost_kept (n : Nat) (h : P s) : P (powerGoodLost n s) := by
  unfold powerGoodLost
  repeat' (with_reducible first | assumption | apply modRail_kept hP | apply domeAfter_kept hP | apply railFail_kept hP | refine ite_kept ?_ ?_)

theorem execPowerGoodLost_kept (rail : Fin 40) {u : State} (e : execPowerGoodLost rail s = .next u) (h : P s) : P u := by
  unfold execPowerGoodLost at e
  injection e with e
  subst e
  repeat' (with_reducible first | assumption | apply powerGoodLost_kept hP)

theorem adcRail_kept (n mv : Nat) (h : P s) : P (adcRail n mv s) := by
  unfold adcRail
  repeat' (with_reducible first | assumption | apply railRead_kept hP | apply marginSettle_kept hP | apply modRail_kept hP | apply railFail_kept hP | refine ite_kept ?_ ?_)

theorem adcSample_kept (mv : List Nat) (lost : Bool) (h : P s) : P (adcSample mv lost s) := by
  unfold adcSample
  repeat' (first | (with_reducible first | assumption | apply xLost_kept hP | apply hP.dome | apply domeAfter_kept hP | apply seqAll_kept | apply adcRail_kept hP | refine foldl_kept2 ?_ ?_ | refine foldl_kept2E (by assumption) ?_ ?_ | refine foldl_kept ?_ ?_ | refine ite_kept ?_ ?_) | intro _ | extract_lets | split)

theorem execAdcSample_kept (mv : List Nat) (lost : Bool) {u : State} (e : execAdcSample mv lost s = .next u) (h : P s) : P u := by
  unfold execAdcSample at e
  injection e with e
  subst e
  repeat' (with_reducible first | assumption | apply adcSample_kept hP)

theorem pmbReply_kept (p : PmbReply) (h : P s) : P (pmbReply p s) := by
  unfold pmbReply
  repeat' (with_reducible first | assumption | apply modRail_kept hP | apply setErr_kept hP | apply railFail_kept hP | apply marginSettle_kept hP | refine ite_kept ?_ ?_)

theorem pmbPoll_kept (l : List PmbReply) (h : P s) : P (pmbPoll l s) := by
  unfold pmbPoll
  repeat' (first | (with_reducible first | assumption | apply domeAfter_kept hP | apply seqAll_kept | apply pmbReply_kept hP | refine ite_kept ?_ ?_) | intro _)

theorem execPmbusPoll_kept (replies : List PmbReply) {u : State} (e : execPmbusPoll replies s = .next u) (h : P s) : P u := by
  unfold execPmbusPoll at e
  injection e with e
  subst e
  repeat' (with_reducible first | assumption | apply pmbPoll_kept hP)

theorem execPmbAlert_kept (replies : List PmbReply) {u : State} (e : execPmbAlert replies s = .next u) (h : P s) : P u := by
  unfold execPmbAlert at e
  injection e with e
  subst e
  repeat' (with_reducible first | assumption | apply pmbPoll_kept hP)

theorem tempAlert_kept (tj n : Nat) (h : P s) : P (tempAlert tj n s) := by
  unfold tempAlert
  repeat' (first | (with_reducible first | assumption | apply event_kept hP | apply modLd_kept hP | refine ite_kept ?_ ?_) | intro _ | split)

theorem tempReading_kept (temps : List Nat) (h : P s) : P (tempReading temps s) := by
  unfold tempReading
  repeat' (first | (with_reducible first | assumption | apply hP.dome | apply takeNat_kept hP | apply takeNat_keptE hP  (by assumption) | apply logPut_kept hP | apply seqAll_kept | apply tempAlert_kept hP | apply railFault_kept hP | refine foldl_kept2 ?_ ?_ | refine foldl_kept2E (by assumption) ?_ ?_ | refine foldl_kept ?_ ?_ | refine ite_kept ?_ ?_) | intro _)

theorem execTempReading_kept (temps : List Nat) {u : State} (e : execTempReading temps s = .next u) (h : P s) : P u := by
  unfold execTempReading at e
  injection e with e
  subst e
  repeat' (with_reducible first | assumption | apply tempReading_kept hP)

theorem execProgramComplete_kept (c : Fin 32) (d : Fin 8) (fails : List (Fin 4)) {u : State} (e : execProgramComplete c d fails s = .next u) (h : P s) : P u := by
  unfold execProgramComplete at e
  injection e with e
  subst e
  repeat' (with_reducible first | assumption | apply after_kept hP | apply programComplete_kept hP)

theorem execDieCmdDone_kept (c : Fin 32) (d : Fin 8) (op : Fin 3) (ok : Bool) {u : State} (e : execDieCmdDone c d op ok s = .next u) (h : P s) : P u := by
  unfold execDieCmdDone at e
  injection e with e
  subst e
  repeat' (with_reducible first | assumption | apply after_kept hP | apply dieCmdDone_kept hP)

theorem execFabricTimeout_kept (c : Fin 32) (d : Fin 8) (plane : Option (Fin 4)) (ns : Nat) {u : State} (e : execFabricTimeout c d plane ns s = .next u) (h : P s) : P u := by
  unfold execFabricTimeout at e
  injection e with e
  subst e
  repeat' (with_reducible first | assumption | apply after_kept hP | apply fabricTimeout_kept hP)

theorem execDieLost_kept (c : Fin 32) (d : Fin 8) {u : State} (e : execDieLost c d s = .next u) (h : P s) : P u := by
  unfold execDieLost at e
  injection e with e
  subst e
  repeat' (with_reducible first | assumption | apply after_kept hP | apply dieLost_kept hP)

theorem execTrainingDone_kept (c : Fin 32) (present pass : BitVec 8) {u : State} (e : execTrainingDone c present pass s = .next u) (h : P s) : P u := by
  unfold execTrainingDone at e
  injection e with e
  subst e
  repeat' (with_reducible first | assumption | apply after_kept hP | apply trainingDone_kept hP)

theorem execQuiesceDone_kept (c : Fin 32) {u : State} (e : execQuiesceDone c s = .next u) (h : P s) : P u := by
  unfold execQuiesceDone at e
  injection e with e
  subst e
  repeat' (with_reducible first | assumption | apply after_kept hP | apply quiesceDone_kept hP)

theorem execSegmentLoaded_kept (c : Fin 32) (ok : Bool) {u : State} (e : execSegmentLoaded c ok s = .next u) (h : P s) : P u := by
  unfold execSegmentLoaded at e
  injection e with e
  subst e
  repeat' (with_reducible first | assumption | apply after_kept hP | apply segmentLoaded_kept hP)

theorem execRetrainDone_kept (c : Fin 32) (ok : Bool) {u : State} (e : execRetrainDone c ok s = .next u) (h : P s) : P u := by
  unfold execRetrainDone at e
  injection e with e
  subst e
  repeat' (with_reducible first | assumption | apply after_kept hP | apply retrainDone_kept hP)

theorem execCheckDone_kept (c : Fin 32) (ok : Bool) {u : State} (e : execCheckDone c ok s = .next u) (h : P s) : P u := by
  unfold execCheckDone at e
  injection e with e
  subst e
  repeat' (with_reducible first | assumption | apply after_kept hP | apply checkDone_kept hP)

theorem execReloadChan_kept (_m : Master) (v : BitVec 32) {u : State} (e : execReloadChan _m v s = .next u) (h : P s) : P u := by
  unfold execReloadChan at e
  injection e with e
  subst e
  repeat' (with_reducible first | assumption | apply after_kept hP | apply imgReload_kept hP)

theorem execReloadReg_kept (_m : Master) (v : BitVec 32) {u : State} (e : execReloadReg _m v s = .next u) (h : P s) : P u := by
  unfold execReloadReg at e
  injection e with e
  subst e
  repeat' (with_reducible first | assumption | apply after_kept hP | apply imgReload_kept hP)

theorem execReloadDome_kept (_m : Master) (v : BitVec 32) {u : State} (e : execReloadDome _m v s = .next u) (h : P s) : P u := by
  unfold execReloadDome at e
  injection e with e
  subst e
  repeat' (with_reducible first | assumption | apply after_kept hP | apply imgReload_kept hP)

theorem execReloadStandbyAssist_kept (_m : Master) (v : BitVec 32) {u : State} (e : execReloadStandbyAssist _m v s = .next u) (h : P s) : P u := by
  unfold execReloadStandbyAssist at e
  injection e with e
  subst e
  repeat' (with_reducible first | assumption | apply after_kept hP | apply imgReload_kept hP)

theorem execSwap_kept (_m : Master) (v : BitVec 32) {u : State} (e : execSwap _m v s = .next u) (h : P s) : P u := by
  unfold execSwap at e
  injection e with e
  subst e
  repeat' (with_reducible first | assumption | apply after_kept hP | apply imgReload_kept hP)

theorem execReloadUnitInvalid_kept (_m : Master) (v : BitVec 32) {u : State} (e : execReloadUnitInvalid _m v s = .next u) (h : P s) : P u := by
  unfold execReloadUnitInvalid at e
  injection e with e
  subst e
  repeat' (with_reducible first | assumption | apply after_kept hP | apply imgReload_kept hP)

theorem execDomeBankFlip_kept  {u : State} (e : execDomeBankFlip s = .next u) (h : P s) : P u := by
  unfold execDomeBankFlip at e
  injection e with e
  subst e
  repeat' (with_reducible first | assumption | apply after_kept hP | apply domeBankFlip_kept hP)

theorem execStandbyReady_kept  {u : State} (e : execStandbyReady s = .next u) (h : P s) : P u := by
  unfold execStandbyReady at e
  injection e with e
  subst e
  repeat' (with_reducible first | assumption | apply after_kept hP | apply standbyReady_kept hP)

theorem execAssistReadyTimeout_kept  {u : State} (e : execAssistReadyTimeout s = .next u) (h : P s) : P u := by
  unfold execAssistReadyTimeout at e
  injection e with e
  subst e
  repeat' (with_reducible first | assumption | apply after_kept hP | apply assistTimeout_kept hP)

theorem execSwapTimeout_kept  {u : State} (e : execSwapTimeout s = .next u) (h : P s) : P u := by
  unfold execSwapTimeout at e
  injection e with e
  subst e
  repeat' (with_reducible first | assumption | apply after_kept hP | apply swapTimeout_kept hP)

theorem execAlmWriteDone_kept  {u : State} (e : execAlmWriteDone s = .next u) (h : P s) : P u := by
  unfold execAlmWriteDone at e
  injection e with e
  subst e
  repeat' (with_reducible first | assumption | apply after_kept hP | apply almWriteDone_kept hP)

theorem execCkptComplete_kept  {u : State} (e : execCkptComplete s = .next u) (h : P s) : P u := by
  unfold execCkptComplete at e
  injection e with e
  subst e
  repeat' (with_reducible first | assumption | apply after_kept hP | apply ckptComplete_kept hP | refine ite_kept ?_ ?_)

theorem powerHour_kept  (h : P s) : P (powerHour s) := by
  unfold powerHour
  repeat' (first | (with_reducible first | assumption | apply odoInc_kept hP | refine ite_kept ?_ ?_) | intro _ | split)

theorem execPowerHourTick_kept  {u : State} (e : execPowerHourTick s = .next u) (h : P s) : P u := by
  unfold execPowerHourTick at e
  injection e with e
  subst e
  repeat' (with_reducible first | assumption | apply powerHour_kept hP)

theorem execRekeyDone_kept  {u : State} (e : execRekeyDone s = .next u) (h : P s) : P u := by
  unfold execRekeyDone at e
  injection e with e
  subst e
  repeat' (with_reducible first | assumption | apply settle_kept hP | apply rekeyDone_kept hP)

end Sys2Proof.Machine
end

