-- ==== Sys2Proof/Laws/KeptNodes.lean ====
section
/-! SUPPORT. What the operations of Machine/Nodes.lean keep (Laws/Kept.lean). -/

namespace Sys2Proof.Machine

variable {P : State → Prop} (hP : Closed P) {s t : State}
include hP

theorem frameLinesLost_kept (t mask : Nat) (h : P s) : P (frameLinesLost t mask s) := by
  unfold frameLinesLost
  repeat' (first | (with_reducible first | assumption | apply putFrame_kept hP | apply incF_kept hP | apply refreshPoisonAny_kept hP | apply setFrame_kept hP | apply event_kept hP | refine ite_kept ?_ ?_) | intro _ | extract_lets | split)

theorem frameLost_kept (t : Nat) (h : P s) : P (frameLost t s) := by
  unfold frameLost
  repeat' (first | (with_reducible first | assumption | apply setFrame_kept hP | apply dropFrame_kept hP | apply incF_kept hP | apply refreshPoisonAny_kept hP | apply event_kept hP | apply hP.coal) | intro _ | extract_lets | split)

theorem nodeFrame_kept (r : Nat × Nat) (t : Nat) (h : P s) : P (nodeFrame r t s) := by
  unfold nodeFrame
  repeat' (with_reducible first | assumption | apply frameLost_kept hP | apply frameLinesLost_kept hP | refine ite_kept ?_ ?_)

theorem lineAgain_kept (key : Nat) (l : CLine) (h : P s) : P (lineAgain key l s) := by
  unfold lineAgain
  repeat' (with_reducible first | assumption | apply captureAt_kept hP)

theorem nodeBuild_kept  (h : P s) : P (nodeBuild s) := by
  unfold nodeBuild
  repeat' (first | (with_reducible first | assumption | apply hP.dur | apply seqAll_kept | apply lineAgain_kept hP | apply captureChunks_kept hP | apply ckptStart_kept hP | refine ite_kept ?_ ?_) | intro _ | extract_lets | split)

theorem fieldRecLost_kept (fno : Nat) (h : P s) : P (fieldRecLost fno s) := by
  unfold fieldRecLost
  repeat' (with_reducible first | assumption | apply putFrec_kept hP | apply setErr_kept hP | apply logOpen_kept hP)

theorem seeLost_kept (fno : Nat) (h : P s) : P (seeLost fno s) := by
  unfold seeLost
  repeat' (with_reducible first | assumption | apply hP.drift | apply setErr_kept hP)

theorem holdsLost_kept (r : Nat × Nat) (h : P s) : P (holdsLost r s) := by
  unfold holdsLost
  repeat' (with_reducible first | assumption | apply hP.fld)

theorem mapLost_kept (r : Nat × Nat) (h : P s) : P (mapLost r s) := by
  unfold mapLost
  repeat' (first | (with_reducible first | assumption | apply hP.wm | refine ite_kept ?_ ?_) | (with_reducible refine hP.xlat ?_ ?_; (intro _ hb; exact hb)))

theorem nodeLost_kept (level index : Nat) (h : P s) : P (nodeLost level index s) := by
  unfold nodeLost
  repeat' (first | (with_reducible first | assumption | apply setCtr_kept hP | apply hP.ciph | apply hP.setF | apply setErr_kept hP | apply incF_kept hP | apply logPut_kept hP | apply mapLost_kept hP | apply seqAll_kept | apply nodeFrame_kept hP | apply nodeBuild_kept hP | apply fieldRecLost_kept hP | apply seeLost_kept hP | apply holdsLost_kept hP | apply ckptStart_kept hP | apply hP.dur | refine ite_kept ?_ ?_) | intro _)

theorem ctrFailed_kept (c : CtrFail) (h : P s) : P (ctrFailed c s).2 := by
  unfold ctrFailed
  repeat' (with_reducible first | assumption | apply setErr_kept hP | apply cnt_kept hP | apply nodeLost_kept hP | refine ite_kept2 ?_ ?_)

theorem ctrFailed_keptE (c : CtrFail) {x : Bool} {u : State} (e : ctrFailed c s = (x, u)) (h : P s) : P u := by
  have := ctrFailed_kept hP c h
  rw [e] at this
  exact this

theorem mapFill_kept (bank sector : Nat) (out : WmOut) (ctr : Option CtrFail) (h : P s) : P (mapFill bank sector out ctr s) := by
  unfold mapFill
  repeat' (first | (with_reducible first | assumption | apply wmDecode_kept hP | apply wmDecode_keptE hP _ _ (by assumption) | apply ctrFailed_kept hP | apply ctrFailed_keptE hP _ (by assumption) | apply seqAll_kept | apply wmLineRead_kept hP | apply foundAll_kept hP | apply fillReturn_kept hP | apply fillReturn_keptE hP _ _ _ (by assumption) | apply setErr_kept hP | apply event_kept hP | refine foldl_kept2 ?_ ?_ | refine foldl_kept2E (by assumption) ?_ ?_ | refine foldl_kept ?_ ?_ | refine ite_kept ?_ ?_) | (with_reducible refine hP.xlat ?_ ?_; (intro _ hb; exact hb)) | intro _ | extract_lets | split)

theorem execMapFillReturn_kept (bank : Fin 64) (sector : Fin 8) (out : WmOut) (ctr : Option CtrFail) {u : State} (e : execMapFillReturn bank sector out ctr s = .next u) (h : P s) : P u := by
  unfold execMapFillReturn at e
  injection e with e
  subst e
  repeat' (with_reducible first | assumption | apply after_kept hP | apply mapFill_kept hP)

theorem sectorGone_kept (sector : Nat) (h : P s) : P (sectorGone sector s) := by
  unfold sectorGone
  repeat' (first | (with_reducible first | assumption | apply setErr_kept hP | apply logPut_kept hP | apply setScanNext_kept hP | apply seqAll_kept | apply event_kept hP) | (with_reducible refine hP.xlat ?_ ?_; (intro _ hb; exact hb)) | intro _)

theorem sectorBuild_kept (bad0 bad1 : List Nat) (sector : Nat) (h : P s) : P (sectorBuild bad0 bad1 sector s) := by
  unfold sectorBuild
  repeat' (first | (with_reducible first | assumption | apply sectorGone_kept hP | apply hP.wm | apply hP.dur | refine foldl_kept2 ?_ ?_ | refine foldl_kept2E (by assumption) ?_ ?_ | refine foldl_kept ?_ ?_ | refine ite_kept ?_ ?_) | intro _ | extract_lets | split | (rename_i x; clear_value x; split))

theorem rebuildSectors_kept (bad0 bad1 : List Nat) (h : P s) : P (rebuildSectors bad0 bad1 s) := by
  unfold rebuildSectors
  repeat' (first | (with_reducible first | assumption | apply settle_kept hP | apply seqAll_kept | apply sectorBuild_kept hP) | (with_reducible refine hP.xlat ?_ ?_; (intro _ hb; exact hb)) | intro _ | split)

theorem execSectorRebuildDone_kept (bad0 bad1 : List Nat) {u : State} (e : execSectorRebuildDone bad0 bad1 s = .next u) (h : P s) : P u := by
  unfold execSectorRebuildDone at e
  injection e with e
  subst e
  repeat' (with_reducible first | assumption | apply after_kept hP | apply rebuildSectors_kept hP)

end Sys2Proof.Machine
end

