-- ==== Sys2Proof/Laws/KeptKeyRows.lean ====
section
/-! SUPPORT. What the operations of Machine/KeyRows.lean keep (Laws/Kept.lean). -/

namespace Sys2Proof.Machine

variable {P : State → Prop} (hP : Closed P) {s t : State}
include hP

theorem keyRow_kept (op : Nat) (pair : Fin 16384) (cid : BitVec 16) {u : State} (e : keyRow op pair cid s = .next u) (h : P s) : P u := by
  unfold keyRow at e
  injection e with e
  subst e
  repeat' (first | (with_reducible first | assumption | apply after_kept hP | apply cmdStep_kept hP | apply ringKey_kept hP) | intro _)

theorem execKeyIssue_kept (pair : Fin 16384) (cid : BitVec 16) {u : State} (e : execKeyIssue pair cid s = .next u) (h : P s) : P u := by
  unfold execKeyIssue at e
  exact keyRow_kept hP _ _ _ e h

theorem execKeySetCurrent_kept (pair : Fin 16384) (cid : BitVec 16) {u : State} (e : execKeySetCurrent pair cid s = .next u) (h : P s) : P u := by
  unfold execKeySetCurrent at e
  exact keyRow_kept hP _ _ _ e h

theorem execKeyClearCurrent_kept (pair : Fin 16384) (cid : BitVec 16) {u : State} (e : execKeyClearCurrent pair cid s = .next u) (h : P s) : P u := by
  unfold execKeyClearCurrent at e
  exact keyRow_kept hP _ _ _ e h

theorem execKeyRetire_kept (pair : Fin 16384) (cid : BitVec 16) {u : State} (e : execKeyRetire pair cid s = .next u) (h : P s) : P u := by
  unfold execKeyRetire at e
  exact keyRow_kept hP _ _ _ e h

theorem execKeyDestroy_kept (pair : Fin 16384) (cid : BitVec 16) {u : State} (e : execKeyDestroy pair cid s = .next u) (h : P s) : P u := by
  unfold execKeyDestroy at e
  exact keyRow_kept hP _ _ _ e h

theorem execKeyQuery_kept (pair : Fin 16384) (cid : BitVec 16) {u : State} (e : execKeyQuery pair cid s = .next u) (h : P s) : P u := by
  unfold execKeyQuery at e
  exact keyRow_kept hP _ _ _ e h

end Sys2Proof.Machine
end

