-- ==== Sys2Proof/Laws/KeptMailbox.lean ====
section
/-! SUPPORT. What the operations of Machine/Mailbox.lean keep (Laws/Kept.lean). -/

namespace Sys2Proof.Machine

variable {P : State → Prop} (hP : Closed P) {s t : State}
include hP

theorem reply_kept (q : MboxReq) (rc : Nat) (out : List Nat) (h : P s) : P (reply q rc out s) := by
  unfold reply
  repeat' (with_reducible first | assumption | apply mboxDone_kept hP)

theorem mboxGetEvents_kept (q : MboxReq) (h : P s) : P (mboxGetEvents q s) := by
  unfold mboxGetEvents
  repeat' (with_reducible first | assumption | apply reply_kept hP | refine ite_kept ?_ ?_)

theorem mboxClearEvents_kept (q : MboxReq) (h : P s) : P (mboxClearEvents q s) := by
  unfold mboxClearEvents
  repeat' (with_reducible first | assumption | apply reply_kept hP | apply modLd_kept hP | refine ite_kept ?_ ?_)

theorem mboxFwInfo_kept (q : MboxReq) (h : P s) : P (mboxFwInfo q s) := by
  unfold mboxFwInfo
  repeat' (with_reducible first | assumption | apply reply_kept hP)

theorem mboxTransferFw_kept (q : MboxReq) (h : P s) : P (mboxTransferFw q s) := by
  unfold mboxTransferFw
  repeat' (first | (with_reducible first | assumption | apply reply_kept hP | apply hP.img | apply modLd_kept hP | apply imageStage_kept hP | apply imageStage_keptE hP _ (by assumption) | apply bgEnd_kept hP | refine ite_kept ?_ ?_) | intro _ | extract_lets | split)

theorem activateCold_kept (q : MboxReq) (h : P s) : P (activateCold q s) := by
  unfold activateCold
  repeat' (first | (with_reducible first | assumption | apply reply_kept hP | apply bootWrite_kept hP | apply bootWrite_keptE hP _ _ _ (by assumption) | refine ite_kept ?_ ?_) | intro _ | extract_lets | split)

theorem activateOnline_kept (q : MboxReq) (h : P s) : P (activateOnline q s) := by
  unfold activateOnline
  repeat' (first | (with_reducible first | assumption | apply reply_kept hP | apply actGo_kept hP | apply hP.img | apply hP.setF | refine ite_kept ?_ ?_) | intro _ | split)

theorem activateWait_kept (q : MboxReq) (h : P s) : P (activateWait q s) := by
  unfold activateWait
  repeat' (first | (with_reducible first | assumption | apply reply_kept hP | apply imageErr_kept hP | apply takeNat_kept hP | apply takeNat_keptE hP  (by assumption) | apply imageApply_kept hP | apply hP.img | apply linkDown_kept hP | refine ite_kept ?_ ?_) | intro _ | extract_lets | split)

theorem mboxActivateFw_kept (q : MboxReq) (h : P s) : P (mboxActivateFw q s) := by
  unfold mboxActivateFw
  repeat' (with_reducible first | assumption | apply reply_kept hP | apply activateCold_kept hP | apply activateWait_kept hP | apply activateOnline_kept hP | refine ite_kept ?_ ?_)

theorem mboxGetLsa_kept (q : MboxReq) (h : P s) : P (mboxGetLsa q s) := by
  unfold mboxGetLsa
  repeat' (with_reducible first | assumption | apply reply_kept hP | refine ite_kept ?_ ?_)

theorem lsaRecords_kept (n ld off : Nat) (l : List Nat) (h : P s) : P (lsaRecords n ld off l s) := by
  induction n generalizing s off l with
  | zero => exact h
  | succ n ih =>
    unfold lsaRecords
    split
    · exact h
    · exact ih _ _ (capture_kept hP _ _ _ _ _ h)

theorem mboxSetLsa_kept (q : MboxReq) (h : P s) : P (mboxSetLsa q s) := by
  unfold mboxSetLsa
  repeat' (with_reducible first | assumption | apply reply_kept hP | apply modLd_kept hP | apply forceCommit_kept hP | apply lsaRecords_kept hP | refine foldl_kept2 ?_ ?_ | refine foldl_kept2E (by assumption) ?_ ?_ | refine foldl_kept ?_ ?_ | refine ite_kept ?_ ?_)

theorem mboxHealth_kept (q : MboxReq) (h : P s) : P (mboxHealth q s) := by
  unfold mboxHealth
  repeat' (with_reducible first | assumption | apply reply_kept hP)

theorem mboxGetAlerts_kept (q : MboxReq) (h : P s) : P (mboxGetAlerts q s) := by
  unfold mboxGetAlerts
  repeat' (with_reducible first | assumption | apply reply_kept hP)

theorem lifeAlert_kept (life n : Nat) (h : P s) : P (lifeAlert life n s) := by
  unfold lifeAlert
  repeat' (first | (with_reducible first | assumption | apply event_kept hP | apply modLd_kept hP | refine ite_kept ?_ ?_) | intro _ | split)

theorem lifeFollow_kept  (h : P s) : P (lifeFollow s) := by
  unfold lifeFollow
  repeat' (first | (with_reducible first | assumption | apply seqAll_kept | apply lifeAlert_kept hP | refine ite_kept ?_ ?_) | intro _)

theorem mboxSetAlerts_kept (q : MboxReq) (h : P s) : P (mboxSetAlerts q s) := by
  unfold mboxSetAlerts
  repeat' (with_reducible first | assumption | apply modLd_kept hP | apply reply_kept hP | apply lifeAlert_kept hP | apply tempAlert_kept hP)

theorem mboxGetShutdown_kept (q : MboxReq) (h : P s) : P (mboxGetShutdown q s) := by
  unfold mboxGetShutdown
  repeat' (with_reducible first | assumption | apply reply_kept hP)

theorem mboxSetShutdown_kept (q : MboxReq) (h : P s) : P (mboxSetShutdown q s) := by
  unfold mboxSetShutdown
  repeat' (with_reducible first | assumption | apply reply_kept hP | apply setHostDirty_kept hP)

theorem poisonRebuild_kept (n : Nat) (h : P s) : P (poisonRebuild n s) := by
  unfold poisonRebuild
  repeat' (with_reducible first | assumption | apply modLd_kept hP)

theorem mboxGetPoison_kept (q : MboxReq) (h : P s) : P (mboxGetPoison q s) := by
  unfold mboxGetPoison
  repeat' (with_reducible first | assumption | apply reply_kept hP)

theorem mboxInject_kept (q : MboxReq) (h : P s) : P (mboxInject q s) := by
  unfold mboxInject
  repeat' (with_reducible first | assumption | apply reply_kept hP | apply refreshPoisonAny_kept hP | apply poisonAdd_kept hP | refine ite_kept ?_ ?_)

theorem mboxClearPoison_kept (q : MboxReq) (h : P s) : P (mboxClearPoison q s) := by
  unfold mboxClearPoison
  repeat' (with_reducible first | assumption | apply reply_kept hP | apply writeRefused_keptO hP _ (by assumption) | apply acceptLine_kept hP | apply refreshPoisonAny_kept hP | apply poisonRemove_kept hP | apply poisonRebuild_kept hP | refine ite_kept ?_ ?_)

theorem scanLine_kept (n : Nat) (leaves : List RingLeaf) (p : List Nat × State) (a : Nat) (h : P p.2) : P (scanLine n leaves p a).2 := by
  unfold scanLine
  split
  · have hl : ∀ {t}, P t → P (seqAll fillNow ((t.mapWords n a).filter (fun w => !t.sectorBad w)) t) :=
      fun ht => seqAll_kept (fun _ {_} hu => fillNow_kept hP _ hu) ht
    exact ringRead_kept hP _ _ _ _ (ite_kept (cnt_kept hP _ _ _ (hl h)) h)
  · exact h

theorem mboxScan_kept (q : MboxReq) (h : P s) : P (mboxScan q s) := by
  unfold mboxScan
  repeat' (first | (with_reducible first | assumption | apply reply_kept hP | apply scanLine_kept hP | apply modLd_kept hP | apply bgEnd_kept hP | apply poisonRebuild_kept hP | refine foldl_kept2 ?_ ?_ | refine foldl_kept2E (by assumption) ?_ ?_ | refine foldl_kept ?_ ?_ | refine ite_kept ?_ ?_) | intro _ | extract_lets | split | (rename_i x; clear_value x; split) | (dsimp +zetaDelta only; split) | with_reducible refine ite_kept2E (by assumption) ?_ ?_ | (have e := ‹Option.map _ _ = some _›; simp only [Option.map_eq_some_iff, Prod.mk.injEq] at e; obtain ⟨_, _, _, e⟩ := e; subst e))

theorem mboxErase_kept (q : MboxReq) (h : P s) : P (mboxErase q s) := by
  unfold mboxErase
  repeat' (with_reducible first | assumption | apply reply_kept hP | apply modLd_kept hP | apply keyAdvance_kept hP | apply keyOwn_kept hP | apply wpSet_kept hP | apply bgEnd_kept hP | refine ite_kept ?_ ?_)

theorem dcEvent_kept (n kind : Nat) (h : P s) : P (dcEvent n kind s) := by
  unfold dcEvent
  repeat' (first | (with_reducible first | assumption | apply event_kept hP) | intro _)

theorem mboxDcAdd_kept (q : MboxReq) (h : P s) : P (mboxDcAdd q s) := by
  unfold mboxDcAdd
  repeat' (first | (with_reducible first | assumption | apply reply_kept hP | apply modLd_kept hP | apply ldCfg_kept hP | apply ldStatus_kept hP | apply dcEvent_kept hP | refine ite_kept ?_ ?_) | intro _ | extract_lets | split)

theorem dcRelease_kept (q : MboxReq) (h : P s) : P (dcRelease q s) := by
  unfold dcRelease
  repeat' (first | (with_reducible first | assumption | apply seqAll_kept | apply capture_kept hP | apply discardFolio_kept hP | apply reply_kept hP | apply settle_kept hP | apply modLd_kept hP | apply ldCfg_kept hP | apply ldStatus_kept hP | apply dcEvent_kept hP) | intro _ | extract_lets | split)

theorem releaseGoN_kept (n : Nat) (h : P s) : P (releaseGoN n s) := by
  induction n generalizing s with
  | zero => exact h
  | succ n ih =>
    unfold releaseGoN
    split
    · exact h
    · split
      · exact ih (dcRelease_kept hP _ (hP.host h))
      · exact h

theorem releaseGo_kept  (h : P s) : P (releaseGo s) := by
  unfold releaseGo
  repeat' (with_reducible first | assumption | apply releaseGoN_kept hP)

theorem mboxDcRelease_kept (q : MboxReq) (h : P s) : P (mboxDcRelease q s) := by
  unfold mboxDcRelease
  repeat' (with_reducible first | assumption | apply reply_kept hP | apply releaseGo_kept hP | apply hP.host | refine ite_kept ?_ ?_)

theorem allocApply_kept (l : List (Nat × Nat × Nat)) (h : P s) : P (allocApply l s) := by
  unfold allocApply
  repeat' (first | (with_reducible first | assumption | apply seqAll_kept | apply modLd_kept hP | apply layArrays_kept hP | apply moveArrays_kept hP | apply settle_kept hP | apply dcEvent_kept hP | apply ldStatusAll_kept hP | apply ldCfg_kept hP | refine ite_kept ?_ ?_) | intro _)

theorem mboxSetAlloc_kept (q : MboxReq) (h : P s) : P (mboxSetAlloc q s) := by
  unfold mboxSetAlloc
  repeat' (with_reducible first | assumption | apply reply_kept hP | apply allocApply_kept hP | apply hP.host | refine ite_kept ?_ ?_)

theorem arrayMoveDone_kept  (h : P s) : P (arrayMoveDone s) := by
  unfold arrayMoveDone
  repeat' (with_reducible first | assumption | apply hP.host | apply allocApply_kept hP | apply mboxDone_kept hP | refine ite_kept ?_ ?_)

theorem mboxRun_kept (q : MboxReq) (h : P s) : P (mboxRun q s) := by
  unfold mboxRun
  repeat' (first | (with_reducible first | assumption | apply reply_kept hP | apply mboxGetEvents_kept hP | apply mboxClearEvents_kept hP | apply modLd_kept hP | apply mboxFwInfo_kept hP | apply mboxTransferFw_kept hP | apply mboxActivateFw_kept hP | apply todStep_kept hP | apply takeNat_kept hP | apply takeNat_keptE hP  (by assumption) | apply mboxGetLsa_kept hP | apply mboxSetLsa_kept hP | apply mboxHealth_kept hP | apply mboxGetAlerts_kept hP | apply mboxSetAlerts_kept hP | apply mboxGetShutdown_kept hP | apply mboxSetShutdown_kept hP | apply mboxGetPoison_kept hP | apply mboxInject_kept hP | apply mboxClearPoison_kept hP | apply mboxScan_kept hP | apply mboxErase_kept hP | apply mboxDcAdd_kept hP | apply mboxDcRelease_kept hP | apply mboxSetAlloc_kept hP | refine foldl_kept2 ?_ ?_ | refine foldl_kept2E (by assumption) ?_ ?_ | refine foldl_kept ?_ ?_ | refine ite_kept ?_ ?_) | intro _ | extract_lets | split)

theorem mbox_kept (q : MboxReq) (h : P s) : P (mbox q s) := by
  unfold mbox
  repeat' (with_reducible first | assumption | apply reply_kept hP | apply modPort_kept hP | apply mboxRun_kept hP | refine ite_kept ?_ ?_)

theorem l1Exit_kept (port : Nat) (h : P s) : P (l1Exit port s) := by
  unfold l1Exit
  repeat' (first | (with_reducible first | assumption | apply seqAll_kept | apply mboxRun_kept hP | apply modPort_kept hP) | intro _)

theorem execAspmL1Exit_kept (port : Fin 2) {u : State} (e : execAspmL1Exit port s = .next u) (h : P s) : P u := by
  unfold execAspmL1Exit at e
  injection e with e
  subst e
  repeat' (with_reducible first | assumption | apply after_kept hP | apply l1Exit_kept hP)

theorem mboxDo_kept (view : Fin 17) (opcode : Nat) (payload : List Nat) {u : State} (e : mboxDo view opcode payload s = .next u) (h : P s) : P u := by
  unfold mboxDo at e
  injection e with e
  subst e
  repeat' (with_reducible first | assumption | apply after_kept hP | apply mbox_kept hP)

theorem execMailboxUnsupported_kept (view : Fin 17) (opcode : BitVec 16) {u : State} (e : execMailboxUnsupported view opcode s = .next u) (h : P s) : P u := by
  unfold execMailboxUnsupported at e
  injection e with e
  subst e
  repeat' (with_reducible first | assumption | apply reply_kept hP | refine ite_kept ?_ ?_)

theorem execIdentify_kept (view : Fin 17) {u : State} (e : execIdentify view s = .next u) (h : P s) : P u := by
  unfold execIdentify at e
  exact mboxDo_kept hP _ _ _ e h

theorem execBackgroundOperationStatus_kept (view : Fin 17) {u : State} (e : execBackgroundOperationStatus view s = .next u) (h : P s) : P u := by
  unfold execBackgroundOperationStatus at e
  exact mboxDo_kept hP _ _ _ e h

theorem execGetResponseMessageLimit_kept (view : Fin 17) {u : State} (e : execGetResponseMessageLimit view s = .next u) (h : P s) : P u := by
  unfold execGetResponseMessageLimit at e
  exact mboxDo_kept hP _ _ _ e h

theorem execGetEventRecords_kept (view : Fin 17) (log : BitVec 8) {u : State} (e : execGetEventRecords view log s = .next u) (h : P s) : P u := by
  unfold execGetEventRecords at e
  exact mboxDo_kept hP _ _ _ e h

theorem execClearEventRecords_kept (view : Fin 17) (log : BitVec 8) (all : Bool) (n : BitVec 8) {u : State} (e : execClearEventRecords view log all n s = .next u) (h : P s) : P u := by
  unfold execClearEventRecords at e
  exact mboxDo_kept hP _ _ _ e h

theorem execGetEventInterruptPolicy_kept (view : Fin 17) {u : State} (e : execGetEventInterruptPolicy view s = .next u) (h : P s) : P u := by
  unfold execGetEventInterruptPolicy at e
  exact mboxDo_kept hP _ _ _ e h

theorem execSetEventInterruptPolicy_kept (view : Fin 17) (policy : BitVec 40) {u : State} (e : execSetEventInterruptPolicy view policy s = .next u) (h : P s) : P u := by
  unfold execSetEventInterruptPolicy at e
  exact mboxDo_kept hP _ _ _ e h

theorem execGetFwInfo_kept (view : Fin 17) {u : State} (e : execGetFwInfo view s = .next u) (h : P s) : P u := by
  unfold execGetFwInfo at e
  exact mboxDo_kept hP _ _ _ e h

theorem execTransferFw_kept (view : Fin 17) (slot : BitVec 8) (image : Image) {u : State} (e : execTransferFw view slot image s = .next u) (h : P s) : P u := by
  unfold execTransferFw at e
  injection e with e
  subst e
  repeat' (with_reducible first | assumption | apply after_kept hP | apply mbox_kept hP)

theorem execActivateFwNextReset_kept (view : Fin 17) (slot : BitVec 8) {u : State} (e : execActivateFwNextReset view slot s = .next u) (h : P s) : P u := by
  unfold execActivateFwNextReset at e
  exact mboxDo_kept hP _ _ _ e h

theorem execActivateFwOnline_kept (view : Fin 17) (slot : BitVec 8) {u : State} (e : execActivateFwOnline view slot s = .next u) (h : P s) : P u := by
  unfold execActivateFwOnline at e
  injection e with e
  subst e
  repeat' (with_reducible first | assumption | apply domeAfter_kept hP | apply mbox_kept hP)

theorem execGetTimestamp_kept (view : Fin 17) {u : State} (e : execGetTimestamp view s = .next u) (h : P s) : P u := by
  unfold execGetTimestamp at e
  exact mboxDo_kept hP _ _ _ e h

theorem execSetTimestamp_kept (view : Fin 17) (t : BitVec 64) {u : State} (e : execSetTimestamp view t s = .next u) (h : P s) : P u := by
  unfold execSetTimestamp at e
  exact mboxDo_kept hP _ _ _ e h

theorem execGetSupportedLogs_kept (view : Fin 17) {u : State} (e : execGetSupportedLogs view s = .next u) (h : P s) : P u := by
  unfold execGetSupportedLogs at e
  exact mboxDo_kept hP _ _ _ e h

theorem execGetLog_kept (view : Fin 17) (log : BitVec 8) {u : State} (e : execGetLog view log s = .next u) (h : P s) : P u := by
  unfold execGetLog at e
  exact mboxDo_kept hP _ _ _ e h

theorem execIdentifyMemoryDevice_kept (view : Fin 17) {u : State} (e : execIdentifyMemoryDevice view s = .next u) (h : P s) : P u := by
  unfold execIdentifyMemoryDevice at e
  exact mboxDo_kept hP _ _ _ e h

theorem execGetPartitionInfo_kept (view : Fin 17) {u : State} (e : execGetPartitionInfo view s = .next u) (h : P s) : P u := by
  unfold execGetPartitionInfo at e
  exact mboxDo_kept hP _ _ _ e h

theorem execGetLsa_kept (view : Fin 17) (off len : BitVec 32) {u : State} (e : execGetLsa view off len s = .next u) (h : P s) : P u := by
  unfold execGetLsa at e
  exact mboxDo_kept hP _ _ _ e h

theorem execSetLsa_kept (view : Fin 17) (off : BitVec 32) (data : List Byte) {u : State} (e : execSetLsa view off data s = .next u) (h : P s) : P u := by
  unfold execSetLsa at e
  exact mboxDo_kept hP _ _ _ e h

theorem execGetHealthInfo_kept (view : Fin 17) {u : State} (e : execGetHealthInfo view s = .next u) (h : P s) : P u := by
  unfold execGetHealthInfo at e
  exact mboxDo_kept hP _ _ _ e h

theorem execGetAlertConfiguration_kept (view : Fin 17) {u : State} (e : execGetAlertConfiguration view s = .next u) (h : P s) : P u := by
  unfold execGetAlertConfiguration at e
  exact mboxDo_kept hP _ _ _ e h

theorem execSetAlertConfiguration_kept (view : Fin 17) (life temp : Option (BitVec 16)) {u : State} (e : execSetAlertConfiguration view life temp s = .next u) (h : P s) : P u := by
  unfold execSetAlertConfiguration at e
  exact mboxDo_kept hP _ _ _ e h

theorem execGetShutdownState_kept (view : Fin 17) {u : State} (e : execGetShutdownState view s = .next u) (h : P s) : P u := by
  unfold execGetShutdownState at e
  exact mboxDo_kept hP _ _ _ e h

theorem execSetShutdownState_kept (view : Fin 17) (dirty : Bool) {u : State} (e : execSetShutdownState view dirty s = .next u) (h : P s) : P u := by
  unfold execSetShutdownState at e
  exact mboxDo_kept hP _ _ _ e h

theorem execGetPoisonList_kept (view : Fin 17) (dpa len : BitVec 64) {u : State} (e : execGetPoisonList view dpa len s = .next u) (h : P s) : P u := by
  unfold execGetPoisonList at e
  exact mboxDo_kept hP _ _ _ e h

theorem execInjectPoison_kept (view : Fin 17) (dpa : BitVec 64) {u : State} (e : execInjectPoison view dpa s = .next u) (h : P s) : P u := by
  unfold execInjectPoison at e
  exact mboxDo_kept hP _ _ _ e h

theorem execClearPoison_kept (view : Fin 17) (dpa : BitVec 64) (data : Line) {u : State} (e : execClearPoison view dpa data s = .next u) (h : P s) : P u := by
  unfold execClearPoison at e
  exact mboxDo_kept hP _ _ _ e h

theorem execGetScanMediaCapabilities_kept (view : Fin 17) (dpa len : BitVec 64) {u : State} (e : execGetScanMediaCapabilities view dpa len s = .next u) (h : P s) : P u := by
  unfold execGetScanMediaCapabilities at e
  exact mboxDo_kept hP _ _ _ e h

theorem execScanMedia_kept (view : Fin 17) (dpa len : BitVec 64) (leaves : List RingLeaf) {u : State} (e : execScanMedia view dpa len leaves s = .next u) (h : P s) : P u := by
  unfold execScanMedia at e
  exact mboxDo_kept hP _ _ _ e h

theorem execGetScanMediaResults_kept (view : Fin 17) {u : State} (e : execGetScanMediaResults view s = .next u) (h : P s) : P u := by
  unfold execGetScanMediaResults at e
  exact mboxDo_kept hP _ _ _ e h

theorem execSanitize_kept (view : Fin 17) {u : State} (e : execSanitize view s = .next u) (h : P s) : P u := by
  unfold execSanitize at e
  exact mboxDo_kept hP _ _ _ e h

theorem execSecureErase_kept (view : Fin 17) {u : State} (e : execSecureErase view s = .next u) (h : P s) : P u := by
  unfold execSecureErase at e
  exact mboxDo_kept hP _ _ _ e h

theorem execGetDynamicCapacityConfiguration_kept (view : Fin 17) {u : State} (e : execGetDynamicCapacityConfiguration view s = .next u) (h : P s) : P u := by
  unfold execGetDynamicCapacityConfiguration at e
  exact mboxDo_kept hP _ _ _ e h

theorem execGetDynamicCapacityExtentList_kept (view : Fin 17) {u : State} (e : execGetDynamicCapacityExtentList view s = .next u) (h : P s) : P u := by
  unfold execGetDynamicCapacityExtentList at e
  exact mboxDo_kept hP _ _ _ e h

theorem execAddDynamicCapacityResponse_kept (view : Fin 17) (extents : List (Nat × Nat)) {u : State} (e : execAddDynamicCapacityResponse view extents s = .next u) (h : P s) : P u := by
  unfold execAddDynamicCapacityResponse at e
  exact mboxDo_kept hP _ _ _ e h

theorem execReleaseDynamicCapacity_kept (view : Fin 17) (extents : List (Nat × Nat)) {u : State} (e : execReleaseDynamicCapacity view extents s = .next u) (h : P s) : P u := by
  unfold execReleaseDynamicCapacity at e
  exact mboxDo_kept hP _ _ _ e h

theorem execGetLdInfo_kept (view : Fin 17) {u : State} (e : execGetLdInfo view s = .next u) (h : P s) : P u := by
  unfold execGetLdInfo at e
  exact mboxDo_kept hP _ _ _ e h

theorem execGetLdAllocations_kept (view : Fin 17) {u : State} (e : execGetLdAllocations view s = .next u) (h : P s) : P u := by
  unfold execGetLdAllocations at e
  exact mboxDo_kept hP _ _ _ e h

theorem execSetLdAllocations_kept (view : Fin 17) (alloc : List (Fin 16 × Nat × Nat)) {u : State} (e : execSetLdAllocations view alloc s = .next u) (h : P s) : P u := by
  unfold execSetLdAllocations at e
  exact mboxDo_kept hP _ _ _ e h

theorem execArrayMoveDone_kept  {u : State} (e : execArrayMoveDone s = .next u) (h : P s) : P u := by
  unfold execArrayMoveDone at e
  injection e with e
  subst e
  repeat' (with_reducible first | assumption | apply after_kept hP | apply arrayMoveDone_kept hP)

theorem execGetQosControl_kept (view : Fin 17) {u : State} (e : execGetQosControl view s = .next u) (h : P s) : P u := by
  unfold execGetQosControl at e
  exact mboxDo_kept hP _ _ _ e h

theorem execIvhildGetPlateMap_kept (view : Fin 17) {u : State} (e : execIvhildGetPlateMap view s = .next u) (h : P s) : P u := by
  unfold execIvhildGetPlateMap at e
  exact mboxDo_kept hP _ _ _ e h

theorem execIvhildGetFieldSummary_kept (view : Fin 17) {u : State} (e : execIvhildGetFieldSummary view s = .next u) (h : P s) : P u := by
  unfold execIvhildGetFieldSummary at e
  exact mboxDo_kept hP _ _ _ e h

end Sys2Proof.Machine
end

