-- ==== Sys2Proof/Laws/KeptLedgers.lean ====
section
/-! SUPPORT. What the operations of Machine/Ledgers.lean keep (Laws/Kept.lean). -/

namespace Sys2Proof.Machine

variable {P : State → Prop} (hP : Closed P) {s t : State}
include hP

theorem ledgFault_kept (ledger idx : Nat) (h : P s) : P (ledgFault ledger idx s) := by
  unfold ledgFault
  repeat' (first | (with_reducible first | assumption | apply hP.setF | apply setB_kept hP | apply seqAll_kept | apply wpSet_kept hP | apply raiseInt_kept hP | apply event_kept hP) | intro _)

theorem ledgNew_kept (ledger idx : Nat) (h : P s) : P (ledgNew ledger idx s) := by
  unfold ledgNew
  repeat' (with_reducible first | assumption | apply incF_kept hP | apply logPut_kept hP | apply ledgFault_kept hP | apply hP.ledg | refine ite_kept ?_ ?_)

theorem ledgCheck_kept (old : State) (key : Nat) (h : P s) : P (ledgCheck old key s) := by
  unfold ledgCheck
  repeat' (with_reducible first | assumption | apply hP.ledg | apply ledgNew_kept hP | refine ite_kept ?_ ?_)

theorem ledgSnapshot_kept  (h : P s) : P (ledgSnapshot s) := by
  unfold ledgSnapshot
  repeat' (first | (with_reducible first | assumption | apply seqAll_kept | apply ledgCheck_kept hP | refine ite_kept ?_ ?_) | intro _)

theorem execLedgerSnapshot_kept  {u : State} (e : execLedgerSnapshot s = .next u) (h : P s) : P u := by
  unfold execLedgerSnapshot at e
  injection e with e
  subst e
  repeat' (with_reducible first | assumption | apply ledgSnapshot_kept hP)

theorem ledgInject_kept (v : Nat) (h : P s) : P (ledgInject v s) := by
  unfold ledgInject
  repeat' (with_reducible first | assumption | apply ledgerAdd_kept hP | apply hP.ledg | refine ite_kept ?_ ?_)

theorem execLedgerInject_kept (_m : Master) (v : Word) {u : State} (e : execLedgerInject _m v s = .next u) (h : P s) : P u := by
  unfold execLedgerInject at e
  injection e with e
  subst e
  repeat' (with_reducible first | assumption | apply ledgInject_kept hP)

theorem ledgLook_kept  (h : P s) : P (ledgLook s) := by
  unfold ledgLook
  repeat' (with_reducible first | assumption | apply hP.setF)

theorem execLedgLhsRead_kept (m : Master) {u : State} (e : execLedgLhsRead m s = .next u) (h : P s) : P u := by
  unfold execLedgLhsRead at e
  injection e with e
  subst e
  repeat' (with_reducible first | assumption | apply emit_kept hP | apply ledgLook_kept hP)

theorem ledgUe_kept (n : Nat) (h : P s) : P (ledgUe n s) := by
  unfold ledgUe
  repeat' (with_reducible first | assumption | apply hP.setF | apply logOpen_kept hP)

theorem execLedgerSramUe_kept (ledger : Fin 8) {u : State} (e : execLedgerSramUe ledger s = .next u) (h : P s) : P u := by
  unfold execLedgerSramUe at e
  injection e with e
  subst e
  repeat' (with_reducible first | assumption | apply ledgUe_kept hP)

end Sys2Proof.Machine
end

