-- ==== Sys2Proof/Laws/KeptShelf.lean ====
section
/-! SUPPORT. What the operations of Machine/Shelf.lean keep (Laws/Kept.lean). -/

namespace Sys2Proof.Machine

variable {P : State → Prop} (hP : Closed P) {s t : State}
include hP

theorem frameSend_kept (f : List Nat) (h : P s) : P (frameSend f s) := by
  unfold frameSend
  repeat' (with_reducible first | assumption | apply hP.sbus)

theorem shelfAnswer_kept (f : ShelfFrame) (own st : Nat) (body : List Nat) (h : P s) : P (shelfAnswer f own st body s) := by
  unfold shelfAnswer
  repeat' (with_reducible first | assumption | apply takeNat_kept hP | apply takeNat_keptE hP  (by assumption) | apply frameSend_kept hP)

theorem authFailed_kept (src : Nat) (h : P s) : P (authFailed src s) := by
  unfold authFailed
  repeat' (with_reducible first | assumption | apply hP.sbus | apply logOpen_kept hP | refine ite_kept ?_ ?_)

theorem sourceSeen_kept (src : Nat) (h : P s) : P (sourceSeen src s) := by
  unfold sourceSeen
  repeat' (with_reducible first | assumption | apply hP.sbus | apply setErr_kept hP | apply logPut_kept hP | refine ite_kept ?_ ?_)

theorem authCheck_keptO (f : ShelfFrame) {x : Nat} {u : State} (e : authCheck f s = some (x, u)) (h : P s) : P u := by
  unfold authCheck at e
  dsimp only at e
  repeat' split at e
  all_goals first
    | (cases e; done)
    | (cases e; repeat' (with_reducible first | assumption | apply authFailed_kept hP | apply incF_kept hP | apply cnt_kept hP | apply setErr_kept hP))

theorem shelfModeRun_kept (t : Nat) (force : Bool) (h : P s) : P (shelfModeRun t force s).2 := by
  unfold shelfModeRun
  repeat' (with_reducible first | assumption | apply pendGo_kept hP | apply modeTarget_kept hP | apply hP.glb | refine ite_kept2 ?_ ?_)

theorem shelfModeRun_keptE (t : Nat) (force : Bool) {x : Nat} {u : State} (e : shelfModeRun t force s = (x, u)) (h : P s) : P u := by
  have := shelfModeRun_kept hP t force h
  rw [e] at this
  exact this

theorem shelfPlateRun_kept (p a : Nat) (h : P s) : P (shelfPlateRun p a s).2 := by
  unfold shelfPlateRun
  repeat' (with_reducible first | assumption | apply plateReq_kept hP | refine ite_kept2 ?_ ?_)

theorem shelfPlateRun_keptE (p a : Nat) {x : Nat} {u : State} (e : shelfPlateRun p a s = (x, u)) (h : P s) : P u := by
  have := shelfPlateRun_kept hP p a h
  rw [e] at this
  exact this

theorem shelfRestartRun_kept  (h : P s) : P (shelfRestartRun s) := by
  unfold shelfRestartRun
  repeat' (with_reducible first | assumption | apply hP.start | apply seqOn_kept hP | refine ite_kept ?_ ?_)

theorem shelfRun_kept (f : ShelfFrame) (own : Nat) (h : P s) : P (shelfRun f own s).2.2 := by
  unfold shelfRun
  repeat' (with_reducible first | assumption | apply shelfModeRun_kept hP | apply shelfModeRun_keptE hP _ _ (by assumption) | apply hP.glb | apply shelfRestartRun_kept hP | apply shelfPlateRun_kept hP | apply shelfPlateRun_keptE hP _ _ (by assumption) | apply hP.sbus | refine ite_kept3 ?_ ?_ | refine ite_kept ?_ ?_)

theorem shelfRun_keptE (f : ShelfFrame) (own : Nat) {x : Nat} {y : List Nat} {u : State} (e : shelfRun f own s = (x, y, u)) (h : P s) : P u := by
  have := shelfRun_kept hP f own h
  rw [e] at this
  exact this

theorem queryAnswer_kept (f : ShelfFrame) (own st : Nat) (body : List Nat) (h : P s) : P (queryAnswer f own st body s) := by
  unfold queryAnswer
  repeat' (with_reducible first | assumption | apply shelfAnswer_kept hP | apply hP.sbus | apply incF_kept hP | refine ite_kept ?_ ?_)

theorem shelfCommand_kept (wm : Bool) (f : ShelfFrame) (h : P s) : P (shelfCommand wm f s) := by
  unfold shelfCommand
  repeat' (first | (with_reducible first | assumption | apply shelfAnswer_kept hP | apply shelfRun_kept hP | apply shelfRun_keptE hP _ _ (by assumption) | apply queryAnswer_kept hP | apply authCheck_keptO hP _ (by assumption) | apply hP.sbus | refine ite_kept ?_ ?_) | intro _ | extract_lets | split)

theorem shelfServe_kept (wm : Bool) (bytes : List Nat) (h : P s) : P (shelfServe wm bytes s) := by
  unfold shelfServe
  repeat' (first | (with_reducible first | assumption | apply hP.sbus | apply incF_kept hP | apply sourceSeen_kept hP | apply shelfCommand_kept hP | refine ite_kept ?_ ?_) | intro _ | extract_lets | split)

theorem rxServe_kept (k : Nat) (h : P s) : P (rxServe k s) := by
  unfold rxServe
  repeat' (first | (with_reducible first | assumption | apply hP.sbus | apply shelfServe_kept hP | refine ite_kept ?_ ?_) | intro _ | extract_lets | split)

theorem frameIn_kept (bytes : List Nat) (fcsOk own : Bool) (h : P s) : P (frameIn bytes fcsOk own s) := by
  unfold frameIn
  repeat' (first | (with_reducible first | assumption | apply incF_kept hP | apply shelfServe_kept hP | apply setErr_kept hP | apply hP.sbus | apply cnt_kept hP | apply hP.setF | apply rxServe_kept hP | refine ite_kept ?_ ?_) | intro _ | extract_lets | split)

theorem rxWaiting_kept  (h : P s) : P (rxWaiting s) := by
  unfold rxWaiting
  repeat' (first | (with_reducible first | assumption | apply seqAll_kept | apply rxServe_kept hP | refine ite_kept ?_ ?_) | intro _)

theorem shelfCmd_kept (op : Nat) (f : ShelfFrame) {u : State} (e : shelfCmd op f s = .next u) (h : P s) : P u := by
  unfold shelfCmd at e
  injection e with e
  subst e
  repeat' (with_reducible first | assumption | apply domeAfter_kept hP | apply frameIn_kept hP)

theorem execShelfPing_kept (f : ShelfFrame) {u : State} (e : execShelfPing f s = .next u) (h : P s) : P u := by
  unfold execShelfPing at e
  exact shelfCmd_kept hP _ _ e h

theorem execShelfStatus_kept (f : ShelfFrame) {u : State} (e : execShelfStatus f s = .next u) (h : P s) : P u := by
  unfold execShelfStatus at e
  exact shelfCmd_kept hP _ _ e h

theorem execShelfSensors_kept (f : ShelfFrame) {u : State} (e : execShelfSensors f s = .next u) (h : P s) : P u := by
  unfold execShelfSensors at e
  exact shelfCmd_kept hP _ _ e h

theorem execShelfMode_kept (f : ShelfFrame) {u : State} (e : execShelfMode f s = .next u) (h : P s) : P u := by
  unfold execShelfMode at e
  exact shelfCmd_kept hP _ _ e h

theorem execShelfWake_kept (f : ShelfFrame) {u : State} (e : execShelfWake f s = .next u) (h : P s) : P u := by
  unfold execShelfWake at e
  exact shelfCmd_kept hP _ _ e h

theorem execShelfRestart_kept (f : ShelfFrame) {u : State} (e : execShelfRestart f s = .next u) (h : P s) : P u := by
  unfold execShelfRestart at e
  exact shelfCmd_kept hP _ _ e h

theorem execShelfPlate_kept (f : ShelfFrame) {u : State} (e : execShelfPlate f s = .next u) (h : P s) : P u := by
  unfold execShelfPlate at e
  exact shelfCmd_kept hP _ _ e h

theorem execShelfSubscribe_kept (f : ShelfFrame) {u : State} (e : execShelfSubscribe f s = .next u) (h : P s) : P u := by
  unfold execShelfSubscribe at e
  exact shelfCmd_kept hP _ _ e h

theorem execShelfFrameOther_kept (bytes : List Byte) (fcs : Bool) {u : State} (e : execShelfFrameOther bytes fcs s = .next u) (h : P s) : P u := by
  unfold execShelfFrameOther at e
  injection e with e
  subst e
  repeat' (with_reducible first | assumption | apply domeAfter_kept hP | apply frameIn_kept hP)

theorem quarExpire_kept  (h : P s) : P (quarExpire s) := by
  unfold quarExpire
  repeat' (first | (with_reducible first | assumption | apply hP.sbus | refine foldl_kept2 ?_ ?_ | refine foldl_kept2E (by assumption) ?_ ?_ | refine foldl_kept ?_ ?_) | intro _ | extract_lets | split)

theorem execQuarantineExpiry_kept  {u : State} (e : execQuarantineExpiry s = .next u) (h : P s) : P u := by
  unfold execQuarantineExpiry at e
  injection e with e
  subst e
  repeat' (with_reducible first | assumption | apply quarExpire_kept hP)

theorem todDiscipline_kept (ofs adj : Int) (h : P s) : P (todDiscipline ofs adj s) := by
  unfold todDiscipline
  repeat' (with_reducible first | assumption | apply todStep_kept hP | apply storeAt_kept hP | refine ite_kept ?_ ?_)

theorem execPtpFrame_kept (bytes : List Byte) (fcs : Bool) (disc : Option (Int × Int)) {u : State} (e : execPtpFrame bytes fcs disc s = .next u) (h : P s) : P u := by
  unfold execPtpFrame at e
  injection e with e
  subst e
  repeat' (first | (with_reducible first | assumption | apply frameIn_kept hP | apply todDiscipline_kept hP | refine ite_kept ?_ ?_) | intro _ | extract_lets | split)

theorem pdelayReq_kept  (h : P s) : P (pdelayReq s) := by
  unfold pdelayReq
  repeat' (first | (with_reducible first | assumption | apply takeNat_kept hP | apply takeNat_keptE hP  (by assumption) | apply frameSend_kept hP | apply hP.sbus) | intro _ | extract_lets | split)

theorem execPdelayTimer_kept  {u : State} (e : execPdelayTimer s = .next u) (h : P s) : P u := by
  unfold execPdelayTimer at e
  injection e with e
  subst e
  repeat' (with_reducible first | assumption | apply pdelayReq_kept hP | refine ite_kept ?_ ?_)

theorem execPlcaBeacon_kept  {u : State} (e : execPlcaBeacon s = .next u) (h : P s) : P u := by
  unfold execPlcaBeacon at e
  injection e with e
  subst e
  repeat' (with_reducible first | assumption | apply emit_kept hP | refine ite_kept ?_ ?_)

theorem execBeaconLoss_kept  {u : State} (e : execBeaconLoss s = .next u) (h : P s) : P u := by
  unfold execBeaconLoss at e
  injection e with e
  subst e
  repeat' (with_reducible first | assumption | apply hP.sbus | refine ite_kept ?_ ?_)

theorem execBeaconReceived_kept  {u : State} (e : execBeaconReceived s = .next u) (h : P s) : P u := by
  unfold execBeaconReceived at e
  injection e with e
  subst e
  repeat' (with_reducible first | assumption | apply hP.sbus | refine ite_kept ?_ ?_)

theorem execDupCoord_kept  {u : State} (e : execDupCoord s = .next u) (h : P s) : P u := by
  unfold execDupCoord at e
  injection e with e
  subst e
  repeat' (with_reducible first | assumption | apply hP.sbus | apply setErr_kept hP | apply logOpen_kept hP | refine ite_kept ?_ ?_)

theorem execCoordResume_kept  {u : State} (e : execCoordResume s = .next u) (h : P s) : P u := by
  unfold execCoordResume at e
  injection e with e
  subst e
  repeat' (with_reducible first | assumption | apply hP.sbus | refine ite_kept ?_ ?_)

theorem plcaCollision_kept  (h : P s) : P (plcaCollision s) := by
  unfold plcaCollision
  repeat' (first | (with_reducible first | assumption | apply hP.sbus | apply setErr_kept hP | refine ite_kept ?_ ?_) | intro _ | extract_lets | split)

theorem execPlcaCollision_kept  {u : State} (e : execPlcaCollision s = .next u) (h : P s) : P u := by
  unfold execPlcaCollision at e
  injection e with e
  subst e
  repeat' (with_reducible first | assumption | apply plcaCollision_kept hP)

theorem rxqTake_kept (m : Master) (h : P s) : P (rxqTake m s).2 := by
  unfold rxqTake
  repeat' (first | (with_reducible first | assumption | apply hP.sbus | refine ite_kept2 ?_ ?_ | refine ite_kept ?_ ?_) | intro _ | extract_lets | split)

theorem rxqTake_keptE (m : Master) {x : Nat} {u : State} (e : rxqTake m s = (x, u)) (h : P s) : P u := by
  have := rxqTake_kept hP m h
  rw [e] at this
  exact this

theorem rxqRead_kept (m : Master) (h : P s) : P (rxqRead m s) := by
  unfold rxqRead
  repeat' (with_reducible first | assumption | apply rxqTake_kept hP | apply rxqTake_keptE hP _ (by assumption) | apply emit_kept hP)

theorem execRxqDataRead_kept (m : Master) {u : State} (e : execRxqDataRead m s = .next u) (h : P s) : P u := by
  unfold execRxqDataRead at e
  injection e with e
  subst e
  repeat' (with_reducible first | assumption | apply rxqRead_kept hP)

theorem rxqDrop_kept (m : Master) (h : P s) : P (rxqDrop m s) := by
  unfold rxqDrop
  repeat' (first | (with_reducible first | assumption | apply hP.sbus | refine ite_kept ?_ ?_) | intro _ | split)

theorem execRxqDrop_kept (m : Master) {u : State} (e : execRxqDrop m s = .next u) (h : P s) : P u := by
  unfold execRxqDrop at e
  injection e with e
  subst e
  repeat' (with_reducible first | assumption | apply rxqDrop_kept hP)

theorem txqWrite_kept (m : Master) (w : Nat) (h : P s) : P (txqWrite m w s) := by
  unfold txqWrite
  repeat' (first | (with_reducible first | assumption | apply hP.sbus | apply when_kept | apply hP.setF | refine ite_kept ?_ ?_) | intro _ | extract_lets | split)

theorem execTxqDataWrite_kept (m : Master) (w : Word) {u : State} (e : execTxqDataWrite m w s = .next u) (h : P s) : P u := by
  unfold execTxqDataWrite at e
  injection e with e
  subst e
  repeat' (with_reducible first | assumption | apply txqWrite_kept hP)

theorem txqFlush_kept (m : Master) (h : P s) : P (txqFlush m s) := by
  unfold txqFlush
  repeat' (first | (with_reducible first | assumption | apply hP.sbus | refine ite_kept ?_ ?_) | intro _ | split)

theorem execTxqFlush_kept (m : Master) {u : State} (e : execTxqFlush m s = .next u) (h : P s) : P u := by
  unfold execTxqFlush at e
  injection e with e
  subst e
  repeat' (with_reducible first | assumption | apply txqFlush_kept hP)

theorem txSent_kept  (h : P s) : P (txSent s) := by
  unfold txSent
  repeat' (first | (with_reducible first | assumption | apply hP.sbus | apply emit_kept hP | apply incF_kept hP | apply cnt_kept hP | apply when_kept | apply hP.setF | refine ite_kept ?_ ?_) | intro _ | split)

theorem execTxFrameSent_kept  {u : State} (e : execTxFrameSent s = .next u) (h : P s) : P u := by
  unfold execTxFrameSent at e
  injection e with e
  subst e
  repeat' (with_reducible first | assumption | apply txSent_kept hP)

theorem eventFrame_kept (dst : Nat) (r : LogRec) (h : P s) : P (eventFrame dst r s) := by
  unfold eventFrame
  repeat' (with_reducible first | assumption | apply takeNat_kept hP | apply takeNat_keptE hP  (by assumption) | apply frameSend_kept hP)

theorem eventFrames_kept  (h : P s) : P (eventFrames s) := by
  unfold eventFrames
  repeat' (first | (with_reducible first | assumption | apply seqAll_kept | apply eventFrame_kept hP | apply hP.sbus | refine ite_kept ?_ ?_) | intro _ | extract_lets | split)

theorem shelfKeyCommit_kept  (h : P s) : P (shelfKeyCommit s) := by
  unfold shelfKeyCommit
  repeat' (with_reducible first | assumption | apply setErr_kept hP | apply almDevice_kept hP | apply almDevice_keptE hP _ _ (by assumption) | apply hP.sbus | refine ite_kept ?_ ?_)

theorem execKeyCommit_kept (_m : Master) {u : State} (e : execKeyCommit _m s = .next u) (h : P s) : P u := by
  unfold execKeyCommit at e
  injection e with e
  subst e
  repeat' (with_reducible first | assumption | apply shelfKeyCommit_kept hP)

theorem reqsGo_kept  (h : P s) : P (reqsGo s) := by
  unfold reqsGo
  repeat' (first | (with_reducible first | assumption | apply seqAll_kept | apply plateReq_kept hP | apply hP.sbus | refine ite_kept ?_ ?_) | intro _)

end Sys2Proof.Machine
end

