-- ==== Sys2Proof/Laws/KeptLcs.lean ====
section
/-! SUPPORT. What the operations of Machine/Lcs.lean keep (Laws/Kept.lean). -/

namespace Sys2Proof.Machine

variable {P : State → Prop} (hP : Closed P) {s t : State}
include hP

theorem tokenPut_kept (b : List Nat) (h : P s) : P (tokenPut b s) := by
  unfold tokenPut
  repeat' (first | (with_reducible first | assumption | apply seqAll_kept | apply hP.setF) | intro _)

omit hP in
theorem lcCheck_none {m : Master} {target confirm : Nat} (e : s.lcCheck m target confirm = none) :
    lcAuth s.lcs.state target ≠ .never ∧ s.lcs.slots.length < 8 := by
  have hl (r : Option Nat) (hr : (if s.alm.wp then some lrWp else if 8 ≤ s.lcs.slots.length then some lrNoSlot else r) = none) :
      s.lcs.slots.length < 8 := by
    split at hr
    · cases hr
    · split at hr
      · cases hr
      · omega
  unfold State.lcCheck at e
  dsimp only at e
  split at e
  · cases e
  · rename_i h
    rw [h]
    refine ⟨by simp, ?_⟩
    split at e
    · cases e
    · split at e
      · cases e
      · exact hl _ e
  · rename_i h
    rw [h]
    refine ⟨by simp, ?_⟩
    split at e
    · cases e
    · exact hl _ e

omit hP in
@[simp] theorem newChallenge_lcs (s : State) : (newChallenge s).lcs = s.lcs := rfl

theorem lcTransition_kept (m : Master) (target confirm : Nat) (h : P s) : P (lcTransition m target confirm s) := by
  unfold lcTransition
  split
  · exact lcsEnd_kept hP _ _ h
  · obtain ⟨ha, hl⟩ := lcCheck_none (by assumption)
    have h1 : P ((match lcAuth s.lcs.state target with | .token _ => newChallenge s | _ => s).modLcs (fun l => { l with trans := some target })) := by
      split
      · exact hP.lcsBegin ha hl (newChallenge_kept hP h)
      · exact hP.lcsBegin ha hl h
    dsimp only
    split
    · exact keyAdvance_kept hP (keyOwn_kept hP _ _ (hP.setF h1))
    · exact lcPark_kept hP (hP.setF h1)

theorem lcUnlock_kept  (h : P s) : P (lcUnlock s) := by
  unfold lcUnlock
  repeat' (first | (with_reducible first | assumption | apply lcsEnd_kept hP | apply newChallenge_kept hP | apply odoInc_kept hP | apply lcShow_kept hP | apply hP.setF | refine ite_kept ?_ ?_) | intro _ | extract_lets | split)

theorem lcRelock_kept  (h : P s) : P (lcRelock s) := by
  unfold lcRelock
  repeat' (with_reducible first | assumption | apply lcsEnd_kept hP | apply lcShow_kept hP | apply hP.setF)

theorem lcKeyfuse_kept  (h : P s) : P (lcKeyfuse s) := by
  unfold lcKeyfuse
  repeat' (first | (with_reducible first | assumption | apply lcsEnd_kept hP | apply lcShow_kept hP | refine ite_kept ?_ ?_) | (with_reducible refine hP.lcsKeep ?_ ?_; (intro _; first | exact ⟨rfl, rfl, ⟨_, rfl⟩, ⟨0, by simp⟩⟩ | exact ⟨rfl, rfl, ⟨0, by simp⟩, ⟨_, rfl⟩⟩)) | intro _ | split)

theorem lcsGo_kept (m : Master) (op target confirm : Nat) (h : P s) : P (lcsGo m op target confirm s) := by
  unfold lcsGo
  repeat' (with_reducible first | assumption | apply hP.setF | apply lcsEnd_kept hP | apply lcTransition_kept hP | apply lcUnlock_kept hP | apply lcRelock_kept hP | apply lcKeyfuse_kept hP | refine ite_kept ?_ ?_)

theorem lcsCmd_kept (m : Master) (v : Nat) (h : P s) : P (lcsCmd m v s) := by
  unfold lcsCmd
  repeat' (with_reducible first | assumption | apply storeAt_kept hP | apply domeAfter_kept hP | apply lcsGo_kept hP | refine ite_kept ?_ ?_)

theorem execLcTransition_kept (m : Master) (v : BitVec 32) {u : State} (e : execLcTransition m v s = .next u) (h : P s) : P u := by
  unfold execLcTransition at e
  injection e with e
  subst e
  repeat' (with_reducible first | assumption | apply lcsCmd_kept hP)

theorem execUnlock_kept (m : Master) (v : BitVec 32) {u : State} (e : execUnlock m v s = .next u) (h : P s) : P u := by
  unfold execUnlock at e
  injection e with e
  subst e
  repeat' (with_reducible first | assumption | apply lcsCmd_kept hP)

theorem execRelock_kept (m : Master) (v : BitVec 32) {u : State} (e : execRelock m v s = .next u) (h : P s) : P u := by
  unfold execRelock at e
  injection e with e
  subst e
  repeat' (with_reducible first | assumption | apply lcsCmd_kept hP)

theorem execKeyfuse_kept (m : Master) (v : BitVec 32) {u : State} (e : execKeyfuse m v s = .next u) (h : P s) : P u := by
  unfold execKeyfuse at e
  injection e with e
  subst e
  repeat' (with_reducible first | assumption | apply lcsCmd_kept hP)

end Sys2Proof.Machine
end

