-- ==== Sys2Proof/Laws/KeptRegAccess.lean ====
section
/-! SUPPORT. What the operations of Machine/RegAccess.lean keep (Laws/Kept.lean). -/

namespace Sys2Proof.Machine

variable {P : State → Prop} (hP : Closed P) {s t : State}
include hP

theorem pairSlotWrite_kept (q : Nat) (r : RegAt) (cover v : Nat) (h : P s) : P (pairSlotWrite q r cover v s) := by
  unfold pairSlotWrite
  repeat' (first | (with_reducible first | assumption | apply qpCfgWrite_kept hP | apply storeReg_kept hP | apply sqDoorbell_kept hP | apply cqDoorbell_kept hP | refine ite_kept ?_ ?_) | intro _ | extract_lets | split)

theorem intMaskWrite_kept (v : Nat) (h : P s) : P (intMaskWrite v s) := by
  unfold intMaskWrite
  repeat' (with_reducible first | assumption | apply hP.glb | apply msixSend_kept hP | refine ite_kept ?_ ?_)

theorem execIntMaskWrite_kept (_m : Master) (v : BitVec 32) {u : State} (e : execIntMaskWrite _m v s = .next u) (h : P s) : P u := by
  unfold execIntMaskWrite at e
  injection e with e
  subst e
  repeat' (with_reducible first | assumption | apply intMaskWrite_kept hP)

theorem afterStore_kept (o : Nat) (old : State) (h : P s) : P (afterStore o old s) := by
  unfold afterStore
  repeat' (with_reducible first | assumption | apply bypassStatus_kept hP | apply setScanNext_kept hP | apply ldStatusAll_kept hP | apply poolStatus_kept hP | apply coalStatus_kept hP | apply gcHyst_kept hP | apply wearStatus_kept hP | apply regCtl_kept hP | apply capRecompute_kept hP | apply ledgLook_kept hP | apply recDisable_kept hP | apply modFan_kept hP | apply hP.med | refine ite_kept ?_ ?_)

theorem regPut_kept (m : Master) (bar0 : Bool) (r : RegAt) (cover v : Nat) (h : P s) : P (regPut m bar0 r cover v s) := by
  unfold regPut
  repeat' (first | (with_reducible first | assumption | apply afterStore_kept hP | apply storeReg_kept hP | apply hP.glb | apply intMaskWrite_kept hP | apply modeCtl_kept hP | apply slotGuard_kept | apply pairSlotWrite_kept hP | apply xlatProbe_kept hP | apply mapcCtl_kept hP | apply scratchConvert_kept hP | apply maintGo_kept hP | apply ckptCmd_kept hP | apply durSync_kept hP | apply fldCtl_kept hP | apply wearCmd_kept hP | apply scoreQuery_kept hP | apply driftCtl_kept hP | apply driftQuery_kept hP | apply ceClear_kept hP | apply testCtl_kept hP | apply mediaClear_kept hP | apply kidQuery_kept hP | apply ringAlloc_kept hP | apply admitWrite_kept hP | apply ledgInject_kept hP | apply imgReload_kept hP | apply pltReqWrite_kept hP | apply marginWrite_kept hP | apply todSet_kept hP | apply chronoGo_kept hP | apply rxqDrop_kept hP | apply txqWrite_kept hP | apply txqFlush_kept hP | apply shelfKeyCommit_kept hP | apply pltCmd_kept hP | apply snapGo_kept hP | apply chainWrite_kept hP | apply hP.spec | apply logPutWrite_kept hP | apply almCmd_kept hP | apply lcsCmd_kept hP | apply hP.fld | apply hP.log | refine ite_kept ?_ ?_) | intro _)

theorem regTake_kept (m : Master) (r : RegAt) (lo hi : Nat) (h : P s) : P (regTake m r lo hi s).2 := by
  unfold regTake
  repeat' (with_reducible first | assumption | apply todLowRead_kept hP | apply todHighRead_kept hP | apply logWin0Read_kept hP | apply logWin3Read_kept hP | apply ledgLook_kept hP | apply rxqTake_kept hP | apply rxqTake_keptE hP _ (by assumption) | apply takeNat_kept hP | apply takeNat_keptE hP  (by assumption) | apply hP.log | apply clearRc_kept hP | refine ite_kept2 ?_ ?_)

theorem regTake_keptE (m : Master) (r : RegAt) (lo hi : Nat) {x : Nat} {u : State} (e : regTake m r lo hi s = (x, u)) (h : P s) : P u := by
  have := regTake_kept hP m r lo hi h
  rw [e] at this
  exact this

theorem scratchWrite_kept (off size v : Nat) (h : P s) : P (scratchWrite off size v s) := by
  unfold scratchWrite
  repeat' (first | (with_reducible first | assumption | refine foldl_kept2 ?_ ?_ | refine foldl_kept2E (by assumption) ?_ ?_ | refine foldl_kept ?_ ?_) | (with_reducible refine hP.xlat ?_ ?_; (intro _ hb; first | exact hb | exact twf_filter _ hb | exact foldl_keeps (Q := fun t => twf 0 t = true) (fun _ _ h => twf_tput _ _ h) hb)))

theorem msixWrite_kept (view off size v : Nat) (h : P s) : P (msixWrite view off size v s) := by
  unfold msixWrite
  repeat' (first | (with_reducible first | assumption | apply hP.host | apply msixSend_kept hP | refine ite_kept ?_ ?_) | extract_lets | split)

theorem hdmWrite_kept (n w v : Nat) (h : P s) : P (hdmWrite n w v s) := by
  unfold hdmWrite
  repeat' (first | (with_reducible first | assumption | apply modLd_kept hP | refine ite_kept ?_ ?_) | intro _ | split)

theorem write32_kept (m : Master) (bar0 : Bool) (off v : Nat) (h : P s) : P (write32 m bar0 off v s) := by
  unfold write32
  repeat' (first | (with_reducible first | assumption | apply regPut_kept hP | apply putHold_kept hP | apply dropHold_kept hP | refine ite_kept ?_ ?_) | intro _ | extract_lets | split)

theorem regWrite_kept (m : Master) (bar0 : Bool) (off size v : Nat) (h : P s) : P (regWrite m bar0 off size v s) := by
  unfold regWrite
  repeat' (first | (with_reducible first | assumption | apply write32_kept hP | apply regPut_kept hP | apply dropHold_kept hP | refine ite_kept ?_ ?_) | intro _ | split)

theorem read32_kept (m : Master) (off : Nat) (h : P s) : P (read32 m off s).2 := by
  unfold read32
  repeat' (first | (with_reducible first | assumption | apply regTake_kept hP | apply regTake_keptE hP _ _ _ _ (by assumption) | refine ite_kept2 ?_ ?_ | refine ite_kept ?_ ?_) | intro _ | extract_lets | split)

theorem read32_keptE (m : Master) (off : Nat) {x : Nat} {u : State} (e : read32 m off s = (x, u)) (h : P s) : P u := by
  have := read32_kept hP m off h
  rw [e] at this
  exact this

theorem regRead_kept (m : Master) (off size : Nat) (h : P s) : P (regRead m off size s).2 := by
  unfold regRead
  split
  · exact read32_kept hP _ _ h
  · split
    · split
      · split
        exact regTake_keptE hP _ _ _ _ (by assumption) h
      · split
        rename_i a s1 e1
        split
        rename_i b s2 e2
        exact read32_keptE hP _ _ e2 (read32_keptE hP _ _ e1 h)
    · exact h

theorem regRead_keptE (m : Master) (off size : Nat) {x : Nat} {u : State} (e : regRead m off size s = (x, u)) (h : P s) : P u := by
  have := regRead_kept hP m off size h
  rw [e] at this
  exact this

theorem accCredit_kept (m : Master) (dir : Nat) (h : P s) : P (accCredit m dir s) := by
  unfold accCredit
  repeat' (first | (with_reducible first | assumption | apply takeCredit_kept hP) | intro _ | split)

theorem bar0Write_kept (m : Master) (off size v : Nat) (h : P s) : P (bar0Write m off size v s) := by
  unfold bar0Write
  repeat' (with_reducible first | assumption | apply msixWrite_kept hP | apply scratchWrite_kept hP | apply accCredit_kept hP | apply regWrite_kept hP | refine ite_kept ?_ ?_)

theorem bar0Read_kept (m : Master) (off size : Nat) (h : P s) : P (bar0Read m off size s).2 := by
  unfold bar0Read
  repeat' (with_reducible first | assumption | apply accCredit_kept hP | apply regRead_kept hP | apply regRead_keptE hP _ _ _ (by assumption) | refine ite_kept2 ?_ ?_)

theorem bar0Read_keptE (m : Master) (off size : Nat) {x : Nat} {u : State} (e : bar0Read m off size s = (x, u)) (h : P s) : P u := by
  have := bar0Read_kept hP m off size h
  rw [e] at this
  exact this

theorem mchWake_kept (off : Nat) (h : P s) : P (mchWake off s) := by
  unfold mchWake
  repeat' (with_reducible first | assumption | apply wakeCh_kept hP | refine ite_kept ?_ ?_)

theorem holdAccess_kept (a : HeldAccess) (h : P s) : P (holdAccess a s) := by
  unfold holdAccess
  repeat' (with_reducible first | assumption | apply hP.clk)

theorem readDone_kept (m : Master) (off v : Nat) (h : P s) : P (readDone m off v s) := by
  unfold readDone
  repeat' (with_reducible first | assumption | apply hP.find | apply emit_kept hP | refine ite_kept ?_ ?_)

theorem wmFinder_kept (a size : Nat) (wr : Option Nat) (out : WmOut) (h : P s) : P (wmFinder a size wr out s) := by
  unfold wmFinder
  repeat' (first | (with_reducible first | assumption | apply hP.find | apply accCredit_kept hP | apply structWrite_kept hP | apply wmWriteBytes_kept hP | apply wmRead_kept hP | apply wmDecode_kept hP | apply wmDecode_keptE hP _ _ (by assumption) | apply takeNat_kept hP | apply takeNat_keptE hP  (by assumption) | refine ite_kept ?_ ?_) | intro _ | extract_lets | split)

theorem heldGo_kept (a : HeldAccess) (h : P s) : P (heldGo a s) := by
  unfold heldGo
  repeat' (first | (with_reducible first | assumption | apply wmFinder_kept hP | apply bar0Write_kept hP | apply bar0Read_kept hP | apply bar0Read_keptE hP _ _ _ (by assumption) | apply readDone_kept hP | apply hP.find | refine ite_kept ?_ ?_) | intro _ | extract_lets | split)

theorem heldRelease_kept (d : Nat) (h : P s) : P (heldRelease d s) := by
  unfold heldRelease
  repeat' (first | (with_reducible first | assumption | apply seqAll_kept | apply heldGo_kept hP | apply hP.clk | refine ite_kept ?_ ?_) | intro _ | extract_lets)

theorem execHeldAccessRelease_kept (dom : Fin 45) {u : State} (e : execHeldAccessRelease dom s = .next u) (h : P s) : P u := by
  unfold execHeldAccessRelease at e
  injection e with e
  subst e
  repeat' (with_reducible first | assumption | apply domeAfter_kept hP | apply heldRelease_kept hP)

theorem heldAbort_kept  (h : P s) : P (heldAbort s) := by
  unfold heldAbort
  repeat' (first | (with_reducible first | assumption | apply hP.find | apply emit_kept hP | apply setErr_kept hP | apply seqAll_kept | apply hP.clk | refine ite_kept ?_ ?_) | intro _)

theorem busWrite_kept (m : Master) (off size v : Nat) (h : P s) : P (busWrite m off size v s) := by
  unfold busWrite
  repeat' (first | (with_reducible first | assumption | apply holdAccess_kept hP | apply domeAfter_kept hP | apply bar0Write_kept hP | apply mchWake_kept hP | refine ite_kept ?_ ?_) | intro _ | split)

theorem busRead_kept (m : Master) (off size : Nat) (h : P s) : P (busRead m off size s) := by
  unfold busRead
  repeat' (first | (with_reducible first | assumption | apply readDone_kept hP | apply holdAccess_kept hP | apply bar0Read_kept hP | apply bar0Read_keptE hP _ _ _ (by assumption) | apply mchWake_kept hP | refine ite_kept ?_ ?_) | intro _ | extract_lets | split)

theorem bar2Write_kept (n off size v : Nat) (h : P s) : P (bar2Write n off size v s) := by
  unfold bar2Write
  repeat' (first | (with_reducible first | assumption | apply regWrite_kept hP | apply msixWrite_kept hP | apply hdmWrite_kept hP | refine ite_kept ?_ ?_) | intro _ | split)

theorem bar2Read_kept (n off size : Nat) (h : P s) : P (bar2Read n off size s).2 := by
  unfold bar2Read
  repeat' (first | (with_reducible first | assumption | apply regRead_kept hP | apply regRead_keptE hP _ _ _ (by assumption) | apply takeNat_kept hP | apply takeNat_keptE hP  (by assumption) | refine ite_kept2 ?_ ?_ | refine ite_kept ?_ ?_) | intro _ | extract_lets | split)

theorem bar2Read_keptE (n off size : Nat) {x : Nat} {u : State} (e : bar2Read n off size s = (x, u)) (h : P s) : P u := by
  have := bar2Read_kept hP n off size h
  rw [e] at this
  exact this

theorem execRegisterWrite_kept (m : Master) (view : Option (Fin 17)) (off size : Nat) (v : Word) {u : State} (e : execRegisterWrite m view off size v s = .next u) (h : P s) : P u := by
  unfold execRegisterWrite at e
  injection e with e
  subst e
  repeat' (first | (with_reducible first | assumption | apply busWrite_kept hP | apply domeAfter_kept hP | apply bar2Write_kept hP | refine ite_kept ?_ ?_) | intro _ | split)

theorem execRcFieldRead_kept (m : Master) (view : Option (Fin 17)) (off size : Nat) {u : State} (e : execRcFieldRead m view off size s = .next u) (h : P s) : P u := by
  unfold execRcFieldRead at e
  injection e with e
  subst e
  repeat' (first | (with_reducible first | assumption | apply busRead_kept hP | apply readDone_kept hP | apply bar2Read_kept hP | apply bar2Read_keptE hP _ _ _ (by assumption) | refine ite_kept ?_ ?_) | intro _ | extract_lets | split)

end Sys2Proof.Machine
end

