-- ==== Sys2Proof/Laws/KeptFinder.lean ====
section
/-! SUPPORT. What the operations of Machine/Finder.lean keep (Laws/Kept.lean). -/

namespace Sys2Proof.Machine

variable {P : State → Prop} (hP : Closed P) {s t : State}
include hP

theorem loadIr_kept (ir : Nat) (h : P s) : P (loadIr ir s) := by
  unfold loadIr
  repeat' (with_reducible first | assumption | apply hP.find)

theorem bypassScan_kept  (h : P s) : P (bypassScan s) := by
  unfold bypassScan
  repeat' (with_reducible first | assumption | apply emit_kept hP)

theorem tapDenied_kept (ir : Nat) (h : P s) : P (tapDenied ir s) := by
  unfold tapDenied
  repeat' (with_reducible first | assumption | apply bypassScan_kept hP | apply hP.setF | apply loadIr_kept hP)

theorem debugScan_kept (ir : Nat) {f : State → State} (hf : ∀ {t}, P t → P (f t)) (h : P s) : P (debugScan ir f s) := by
  unfold debugScan
  split
  · exact h
  · split
    · exact hf (loadIr_kept hP _ h)
    · exact tapDenied_kept hP _ h

theorem driveScan_kept (ir drive : Nat) {f : State → State} (hf : ∀ {t}, P t → P (f t)) (h : P s) : P (driveScan ir drive f s) := by
  unfold driveScan
  split
  · exact h
  · split
    · exact hf (hP.find (loadIr_kept hP _ h))
    · exact tapDenied_kept hP _ h

theorem execTapReset_kept  {u : State} (e : execTapReset s = .next u) (h : P s) : P u := by
  unfold execTapReset at e
  injection e with e
  subst e
  repeat' (with_reducible first | assumption | apply loadIr_kept hP)

theorem execTapIdcode_kept  {u : State} (e : execTapIdcode s = .next u) (h : P s) : P u := by
  unfold execTapIdcode at e
  injection e with e
  subst e
  repeat' (with_reducible first | assumption | apply emit_kept hP | apply loadIr_kept hP | refine ite_kept ?_ ?_)

theorem execTapBypass_kept (ir : BitVec 8) {u : State} (e : execTapBypass ir s = .next u) (h : P s) : P u := by
  unfold execTapBypass at e
  injection e with e
  subst e
  repeat' (with_reducible first | assumption | apply tapDenied_kept hP | apply bypassScan_kept hP | apply loadIr_kept hP | refine ite_kept ?_ ?_)

theorem execTapSamplePreload_kept (pins bits : Nat) {u : State} (e : execTapSamplePreload pins bits s = .next u) (h : P s) : P u := by
  unfold execTapSamplePreload at e
  injection e with e
  subst e
  repeat' (with_reducible first | assumption | apply emit_kept hP | apply loadIr_kept hP | apply hP.find | refine ite_kept ?_ ?_)

theorem execTapExtest_kept (bits : Nat) {u : State} (e : execTapExtest bits s = .next u) (h : P s) : P u := by
  unfold execTapExtest at e
  injection e with e
  subst e
  repeat' (first | (with_reducible first | assumption | apply driveScan_kept hP | apply takeNat_kept hP | apply takeNat_keptE hP  (by assumption) | apply emit_kept hP | apply hP.find) | intro _)

theorem execTapClamp_kept  {u : State} (e : execTapClamp s = .next u) (h : P s) : P u := by
  unfold execTapClamp at e
  injection e with e
  subst e
  repeat' (first | (with_reducible first | assumption | apply driveScan_kept hP | apply bypassScan_kept hP) | intro _)

theorem execTapHighz_kept  {u : State} (e : execTapHighz s = .next u) (h : P s) : P u := by
  unfold execTapHighz at e
  injection e with e
  subst e
  repeat' (first | (with_reducible first | assumption | apply driveScan_kept hP | apply bypassScan_kept hP) | intro _)

theorem execLcStatus_kept  {u : State} (e : execLcStatus s = .next u) (h : P s) : P u := by
  unfold execLcStatus at e
  injection e with e
  subst e
  repeat' (with_reducible first | assumption | apply emit_kept hP | apply loadIr_kept hP | refine ite_kept ?_ ?_)

theorem execFinderUnlock_kept (token : List Byte) (go : Bool) {u : State} (e : execFinderUnlock token go s = .next u) (h : P s) : P u := by
  unfold execFinderUnlock at e
  injection e with e
  subst e
  repeat' (with_reducible first | assumption | apply takeNat_kept hP | apply takeNat_keptE hP  (by assumption) | apply loadIr_kept hP | apply tokenPut_kept hP | apply emit_kept hP | apply domeAfter_kept hP | apply lcsGo_kept hP | apply hP.setF | refine ite_kept ?_ ?_)

theorem modCore_kept (k : Nat) (g : CoreSt → CoreSt) (h : P s) : P (modCore k g s) := by
  unfold modCore
  repeat' (with_reducible first | assumption | apply hP.find)

theorem coreCapture_kept  (h : P s) : P (coreCapture s) := by
  unfold coreCapture
  repeat' (with_reducible first | assumption | apply takeNat_kept hP | apply takeNat_keptE hP  (by assumption) | apply emit_kept hP)

theorem coreScan_kept (k : Nat) (g : CoreSt → CoreSt) (h : P s) : P (coreScan k g s) := by
  unfold coreScan
  repeat' (first | (with_reducible first | assumption | apply debugScan_kept hP | apply modCore_kept hP | apply coreCapture_kept hP | apply hP.find) | intro _)

theorem execCoreHalt_kept (core : Fin 2) (pc : BitVec 32) {u : State} (e : execCoreHalt core pc s = .next u) (h : P s) : P u := by
  unfold execCoreHalt at e
  injection e with e
  subst e
  repeat' (with_reducible first | assumption | apply coreScan_kept hP)

theorem execCoreResume_kept (core : Fin 2) {u : State} (e : execCoreResume core s = .next u) (h : P s) : P u := by
  unfold execCoreResume at e
  injection e with e
  subst e
  repeat' (with_reducible first | assumption | apply coreScan_kept hP)

theorem execCoreStep_kept (core : Fin 2) (pc : BitVec 32) {u : State} (e : execCoreStep core pc s = .next u) (h : P s) : P u := by
  unfold execCoreStep at e
  injection e with e
  subst e
  repeat' (with_reducible first | assumption | apply coreScan_kept hP)

theorem coreRegRead_kept (k r : Nat) (h : P s) : P (coreRegRead k r s).2 := by
  unfold coreRegRead
  repeat' (first | (with_reducible first | assumption | apply takeNat_kept hP | apply takeNat_keptE hP  (by assumption) | apply modCore_kept hP | refine ite_kept2 ?_ ?_ | refine ite_kept ?_ ?_) | intro _ | extract_lets | split)

theorem coreRegRead_keptE (k r : Nat) {x : Nat} {u : State} (e : coreRegRead k r s = (x, u)) (h : P s) : P u := by
  have := coreRegRead_kept hP k r h
  rw [e] at this
  exact this

theorem coreRegWrite_kept (k r v : Nat) (h : P s) : P (coreRegWrite k r v s) := by
  unfold coreRegWrite
  repeat' (with_reducible first | assumption | apply modCore_kept hP | refine ite_kept ?_ ?_)

theorem coreReg_kept (dr : Nat) (h : P s) : P (coreReg dr s) := by
  unfold coreReg
  repeat' (with_reducible first | assumption | apply emit_kept hP | apply hP.find | apply regRead_kept hP | apply regRead_keptE hP _ _ _ (by assumption) | apply coreRegWrite_kept hP | apply coreRegRead_kept hP | apply coreRegRead_keptE hP _ _ (by assumption) | refine ite_kept ?_ ?_)

theorem execCoreReg_kept (dr : BitVec 72) {u : State} (e : execCoreReg dr s = .next u) (h : P s) : P u := by
  unfold execCoreReg at e
  injection e with e
  subst e
  repeat' (first | (with_reducible first | assumption | apply debugScan_kept hP | apply coreReg_kept hP) | intro _)

theorem coreBp_kept (dr : Nat) (h : P s) : P (coreBp dr s) := by
  unfold coreBp
  repeat' (with_reducible first | assumption | apply takeNat_kept hP | apply takeNat_keptE hP  (by assumption) | apply emit_kept hP | apply modCore_kept hP | refine ite_kept ?_ ?_)

theorem execCoreBp_kept (dr : BitVec 72) {u : State} (e : execCoreBp dr s = .next u) (h : P s) : P u := by
  unfold execCoreBp at e
  injection e with e
  subst e
  repeat' (first | (with_reducible first | assumption | apply debugScan_kept hP | apply coreBp_kept hP) | intro _)

theorem execBreakpointHit_kept (core : Fin 2) (watch : Bool) (pc : BitVec 32) {u : State} (e : execBreakpointHit core watch pc s = .next u) (h : P s) : P u := by
  unfold execBreakpointHit at e
  injection e with e
  subst e
  repeat' (with_reducible first | assumption | apply modCore_kept hP)

theorem coreByte_kept (k a : Nat) (h : P s) : P (coreByte k a s).2 := by
  unfold coreByte
  repeat' (first | (with_reducible first | assumption | apply takeNat_kept hP | apply takeNat_keptE hP  (by assumption) | apply modCore_kept hP | refine ite_kept2 ?_ ?_ | refine ite_kept ?_ ?_) | intro _ | extract_lets | split)

theorem coreByte_keptE (k a : Nat) {x : Nat} {u : State} (e : coreByte k a s = (x, u)) (h : P s) : P u := by
  have := coreByte_kept hP k a h
  rw [e] at this
  exact this

theorem coreMem_kept (k a size : Nat) (wr : Option Nat) (h : P s) : P (coreMem k a size wr s) := by
  unfold coreMem
  repeat' (first | (with_reducible first | assumption | apply hP.find | apply modCore_kept hP | apply coreByte_kept hP | apply coreByte_keptE hP _ _ (by assumption) | refine foldl_kept2 ?_ ?_ | refine foldl_kept2E (by assumption) ?_ ?_ | refine foldl_kept ?_ ?_ | refine ite_kept ?_ ?_) | intro _ | extract_lets | split)

theorem sysAccess_kept (space a size : Nat) (wr : Option Nat) (out : WmOut) (h : P s) : P (sysAccess space a size wr out s) := by
  unfold sysAccess
  repeat' (first | (with_reducible first | assumption | apply hP.find | apply holdAccess_kept hP | apply wmFinder_kept hP | apply domeAfter_kept hP | apply bar0Write_kept hP | apply mchWake_kept hP | apply bar0Read_kept hP | apply bar0Read_keptE hP _ _ _ (by assumption) | apply almEnqueue_kept hP | apply coreMem_kept hP | refine ite_kept ?_ ?_) | intro _ | extract_lets | split)

theorem sysScan_kept (dr : Nat) (wr : Bool) (out : WmOut) (h : P s) : P (sysScan dr wr out s) := by
  unfold sysScan
  repeat' (with_reducible first | assumption | apply emit_kept hP | apply hP.find | apply sysAccess_kept hP | refine ite_kept ?_ ?_)

theorem execSysbusRead_kept (dr : BitVec 134) (out : WmOut) {u : State} (e : execSysbusRead dr out s = .next u) (h : P s) : P u := by
  unfold execSysbusRead at e
  injection e with e
  subst e
  repeat' (first | (with_reducible first | assumption | apply debugScan_kept hP | apply sysScan_kept hP) | intro _)

theorem execSysbusWrite_kept (dr : BitVec 134) {u : State} (e : execSysbusWrite dr s = .next u) (h : P s) : P u := by
  unfold execSysbusWrite at e
  injection e with e
  subst e
  repeat' (first | (with_reducible first | assumption | apply debugScan_kept hP | apply sysScan_kept hP) | intro _)

theorem execBusAbort_kept (bit0 : Bool) {u : State} (e : execBusAbort bit0 s = .next u) (h : P s) : P u := by
  unfold execBusAbort at e
  injection e with e
  subst e
  repeat' (first | (with_reducible first | assumption | apply debugScan_kept hP | apply heldAbort_kept hP | apply bypassScan_kept hP | refine ite_kept ?_ ?_) | intro _)

end Sys2Proof.Machine
end

