-- ==== Sys2Proof/Laws/KeptIdle.lean ====
section
/-! SUPPORT. What the operations of Machine/Idle.lean keep (Laws/Kept.lean). -/

namespace Sys2Proof.Machine

variable {P : State → Prop} (hP : Closed P) {s t : State}
include hP

theorem swapIdle_kept  (h : P s) : P (swapIdle s) := by
  unfold swapIdle
  repeat' (with_reducible first | assumption | apply swapDone_kept hP | refine ite_kept ?_ ?_)

theorem idleStep_kept (hn : ∀ {t}, P t → P (t.modNow (· + 10))) (h : P s) : P (idleStep s) :=
  after_kept hP (eventFrames_kept hP (releaseGo_kept hP (lifeFollow_kept hP (idleTick_kept hP hn (rxWaiting_kept hP (reqsGo_kept hP (swapIdle_kept hP h)))))))

end Sys2Proof.Machine
end

