-- ==== Sys2Proof/Laws/KeptExec.lean ====
section
/-! SUPPORT. Every command and every step keeps what the primitive updates keep. -/

namespace Sys2Proof.Machine

variable {P : State → Prop} (hP : Closed P)
include hP

/-- A command keeps a closed predicate. -/
theorem exec_kept {c : Instr} {s u : State} (e : exec c s = .next u) (h : P s) : P u := by
  cases c with
  | registerWrite m view off size v => exact execRegisterWrite_kept hP m view off size v e h
  | rcFieldRead m view off size => exact execRcFieldRead_kept hP m view off size e h
  | intMaskWrite m v => exact execIntMaskWrite_kept hP m v e h
  | modeTargetActive m => exact execModeTargetActive_kept hP m e h
  | modeTargetQuiet m => exact execModeTargetQuiet_kept hP m e h
  | modeTargetParked m => exact execModeTargetParked_kept hP m e h
  | modeTargetStandby m => exact execModeTargetStandby_kept hP m e h
  | modeTransitionDone => exact execModeTransitionDone_kept hP e h
  | pmeToAck => exact execPmeToAck_kept hP e h
  | powerOn straps => exact execPowerOn_kept hP straps e h
  | perstAssert => exact execPerstAssert_kept hP e h
  | perstRelease straps wipeUs wipeFail => exact execPerstRelease_kept hP straps wipeUs wipeFail e h
  | imageLoaded unread xspi0 xspi1 ms => exact execImageLoaded_kept hP unread xspi0 xspi1 ms e h
  | ddrTrainingDone chans fromRec => exact execDdrTrainingDone_kept hP chans fromRec e h
  | replay out0 out1 bad badHdr vaultOk us => exact execReplay_kept hP out0 out1 bad badHdr vaultOk us e h
  | cxlMemReady => exact execCxlMemReady_kept hP e h
  | memRead port ld tag dpa => exact execMemRead_kept hP port ld tag dpa e h
  | memWrite port ld tag dpa mask data poison => exact execMemWrite_kept hP port ld tag dpa mask data poison e h
  | ingressRelease => exact execIngressRelease_kept hP e h
  | creditReturn port ndr drs => exact execCreditReturn_kept hP port ndr drs e h
  | linkDown port => exact execLinkDown_kept hP port e h
  | linkUp port speed width mem ndr drs => exact execLinkUp_kept hP port speed width mem ndr drs e h
  | aspmL1Exit port => exact execAspmL1Exit_kept hP port e h
  | ldReset n kind => exact execLdReset_kept hP n kind e h
  | ideMacFail port => exact execIdeMacFail_kept hP port e h
  | ideKeySetup port => exact execIdeKeySetup_kept hP port e h
  | gpfPhase1 port => exact execGpfPhase1_kept hP port e h
  | gpfPhase2 port => exact execGpfPhase2_kept hP port e h
  | mailboxUnsupported view opcode => exact execMailboxUnsupported_kept hP view opcode e h
  | identify view => exact execIdentify_kept hP view e h
  | backgroundOperationStatus view => exact execBackgroundOperationStatus_kept hP view e h
  | getResponseMessageLimit view => exact execGetResponseMessageLimit_kept hP view e h
  | getEventRecords view log => exact execGetEventRecords_kept hP view log e h
  | clearEventRecords view log all n => exact execClearEventRecords_kept hP view log all n e h
  | getEventInterruptPolicy view => exact execGetEventInterruptPolicy_kept hP view e h
  | setEventInterruptPolicy view policy => exact execSetEventInterruptPolicy_kept hP view policy e h
  | getFwInfo view => exact execGetFwInfo_kept hP view e h
  | transferFw view slot image => exact execTransferFw_kept hP view slot image e h
  | activateFwNextReset view slot => exact execActivateFwNextReset_kept hP view slot e h
  | activateFwOnline view slot => exact execActivateFwOnline_kept hP view slot e h
  | getTimestamp view => exact execGetTimestamp_kept hP view e h
  | setTimestamp view t => exact execSetTimestamp_kept hP view t e h
  | getSupportedLogs view => exact execGetSupportedLogs_kept hP view e h
  | getLog view log => exact execGetLog_kept hP view log e h
  | identifyMemoryDevice view => exact execIdentifyMemoryDevice_kept hP view e h
  | getPartitionInfo view => exact execGetPartitionInfo_kept hP view e h
  | getLsa view off len => exact execGetLsa_kept hP view off len e h
  | setLsa view off data => exact execSetLsa_kept hP view off data e h
  | getHealthInfo view => exact execGetHealthInfo_kept hP view e h
  | getAlertConfiguration view => exact execGetAlertConfiguration_kept hP view e h
  | setAlertConfiguration view life temp => exact execSetAlertConfiguration_kept hP view life temp e h
  | getShutdownState view => exact execGetShutdownState_kept hP view e h
  | setShutdownState view dirty => exact execSetShutdownState_kept hP view dirty e h
  | getPoisonList view dpa len => exact execGetPoisonList_kept hP view dpa len e h
  | injectPoison view dpa => exact execInjectPoison_kept hP view dpa e h
  | clearPoison view dpa data => exact execClearPoison_kept hP view dpa data e h
  | getScanMediaCapabilities view dpa len => exact execGetScanMediaCapabilities_kept hP view dpa len e h
  | scanMedia view dpa len leaves => exact execScanMedia_kept hP view dpa len leaves e h
  | getScanMediaResults view => exact execGetScanMediaResults_kept hP view e h
  | sanitize view => exact execSanitize_kept hP view e h
  | secureErase view => exact execSecureErase_kept hP view e h
  | getDynamicCapacityConfiguration view => exact execGetDynamicCapacityConfiguration_kept hP view e h
  | getDynamicCapacityExtentList view => exact execGetDynamicCapacityExtentList_kept hP view e h
  | addDynamicCapacityResponse view extents => exact execAddDynamicCapacityResponse_kept hP view extents e h
  | releaseDynamicCapacity view extents => exact execReleaseDynamicCapacity_kept hP view extents e h
  | getLdInfo view => exact execGetLdInfo_kept hP view e h
  | getLdAllocations view => exact execGetLdAllocations_kept hP view e h
  | setLdAllocations view alloc => exact execSetLdAllocations_kept hP view alloc e h
  | arrayMoveDone => exact execArrayMoveDone_kept hP e h
  | getQosControl view => exact execGetQosControl_kept hP view e h
  | ivhildGetPlateMap view => exact execIvhildGetPlateMap_kept hP view e h
  | ivhildGetFieldSummary view => exact execIvhildGetFieldSummary_kept hP view e h
  | mapFillReturn bank sector out ctr => exact execMapFillReturn_kept hP bank sector out ctr e h
  | mapWritebackDone way => exact execMapWritebackDone_kept hP way e h
  | mapcWb m v => exact execMapcWb_kept hP m v e h
  | mapcInv m v => exact execMapcInv_kept hP m v e h
  | mapcInvAll m v => exact execMapcInvAll_kept hP m v e h
  | mapcMaintDone => exact execMapcMaintDone_kept hP e h
  | mapcDisable m v => exact execMapcDisable_kept hP m v e h
  | mapcDrainDone => exact execMapcDrainDone_kept hP e h
  | mapcEnable m v => exact execMapcEnable_kept hP m v e h
  | scratchConvert m v => exact execScratchConvert_kept hP m v e h
  | scratchConvertDone => exact execScratchConvertDone_kept hP e h
  | xlatProbe m v => exact execXlatProbe_kept hP m v e h
  | probeResult => exact execProbeResult_kept hP e h
  | sectorRebuildDone bad0 bad1 => exact execSectorRebuildDone_kept hP bad0 bad1 e h
  | gatherTimeout => exact execGatherTimeout_kept hP e h
  | gatherMerge => exact execGatherMerge_kept hP e h
  | mergeMediaReadDone tok leaves => exact execMergeMediaReadDone_kept hP tok leaves e h
  | stagingPlace g => exact execStagingPlace_kept hP g e h
  | runHoldExpiry => exact execRunHoldExpiry_kept hP e h
  | fillerTimeout set => exact execFillerTimeout_kept hP set e h
  | fabRead c d p f r mask offs => exact execFabRead_kept hP c d p f r mask offs e h
  | fabReadLatch c d p mask => exact execFabReadLatch_kept hP c d p mask e h
  | fabReadStar c d p f r level sweep => exact execFabReadStar_kept hP c d p f r level sweep e h
  | fabProgram c d mode1 rows => exact execFabProgram_kept hP c d mode1 rows e h
  | fabErase c d mode1 rows => exact execFabErase_kept hP c d mode1 rows e h
  | fabSuspend c d => exact execFabSuspend_kept hP c d e h
  | fabResume c d => exact execFabResume_kept hP c d e h
  | fabIdent c d => exact execFabIdent_kept hP c d e h
  | fabResetDie c d => exact execFabResetDie_kept hP c d e h
  | fabTrain c step => exact execFabTrain_kept hP c step e h
  | readComplete plane outs ns => exact execReadComplete_kept hP plane outs ns e h
  | readStarComplete plane refused e14 e15 => exact execReadStarComplete_kept hP plane refused e14 e15 e h
  | rebuildComplete id crcOk ns => exact execRebuildComplete_kept hP id crcOk ns e h
  | programComplete c d fails => exact execProgramComplete_kept hP c d fails e h
  | eraseComplete c d fails => exact execEraseComplete_kept hP c d fails e h
  | suspendDone c d => exact execSuspendDone_kept hP c d e h
  | suspendWindowEnd c d => exact execSuspendWindowEnd_kept hP c d e h
  | progressSliceEnd c d => exact execProgressSliceEnd_kept hP c d e h
  | dieCmdDone c d op ok => exact execDieCmdDone_kept hP c d op ok e h
  | fabricTimeout c d plane ns => exact execFabricTimeout_kept hP c d plane ns e h
  | dieLost c d => exact execDieLost_kept hP c d e h
  | trainingDone c present pass => exact execTrainingDone_kept hP c present pass e h
  | channelSleep c => exact execChannelSleep_kept hP c e h
  | utilWindow c permille cycles => exact execUtilWindow_kept hP c permille cycles e h
  | reloadChan m v => exact execReloadChan_kept hP m v e h
  | quiesceDone c => exact execQuiesceDone_kept hP c e h
  | segmentLoaded c ok => exact execSegmentLoaded_kept hP c ok e h
  | retrainDone c ok => exact execRetrainDone_kept hP c ok e h
  | checkDone c ok => exact execCheckDone_kept hP c ok e h
  | driftMinuteTick => exact execDriftMinuteTick_kept hP e h
  | driftDue set => exact execDriftDue_kept hP set e h
  | scrubVisit leaves => exact execScrubVisit_kept hP leaves e h
  | driftQuery m v => exact execDriftQuery_kept hP m v e h
  | driftCtlWrite m v => exact execDriftCtlWrite_kept hP m v e h
  | gcJob m g bad => exact execGcJob_kept hP m g bad e h
  | wearJob m g bad => exact execWearJob_kept hP m g bad e h
  | rewriteJob m g bad => exact execRewriteJob_kept hP m g bad e h
  | verifyJob m leaves => exact execVerifyJob_kept hP m leaves e h
  | sealJob m g bad => exact execSealJob_kept hP m g bad e h
  | relocateJob m g bad => exact execRelocateJob_kept hP m g bad e h
  | setErase set => exact execSetErase_kept hP set e h
  | weightsWrite m v => exact execWeightsWrite_kept hP m v e h
  | rebinDone => exact execRebinDone_kept hP e h
  | wearStart m v => exact execWearStart_kept hP m v e h
  | wearStop m v => exact execWearStop_kept hP m v e h
  | scoreQuery m v => exact execScoreQuery_kept hP m v e h
  | fldCtlWrite m v => exact execFldCtlWrite_kept hP m v e h
  | journalSealTimer => exact execJournalSealTimer_kept hP e h
  | lagMiss ageUs => exact execLagMiss_kept hP ageUs e h
  | bypassExpire tok => exact execBypassExpire_kept hP tok e h
  | durSyncGo m v => exact execDurSyncGo_kept hP m v e h
  | huOkChange level => exact execHuOkChange_kept hP level e h
  | inputLoss => exact execInputLoss_kept hP e h
  | inputReturn => exact execInputReturn_kept hP e h
  | inputCollapse mv => exact execInputCollapse_kept hP mv e h
  | ckptGo m v => exact execCkptGo_kept hP m v e h
  | ckptPeriod => exact execCkptPeriod_kept hP e h
  | ckptComplete => exact execCkptComplete_kept hP e h
  | powerHourTick => exact execPowerHourTick_kept hP e h
  | mr4Poll rates => exact execMr4Poll_kept hP rates e h
  | mergeHoldExpire out => exact execMergeHoldExpire_kept hP out e h
  | patrolScrub out => exact execPatrolScrub_kept hP out e h
  | testWrite m c v => exact execTestWrite_kept hP m c v e h
  | testRead m c v => exact execTestRead_kept hP m c v e h
  | ceTableClear m c v => exact execCeTableClear_kept hP m c v e h
  | mediaTableClear m v => exact execMediaTableClear_kept hP m v e h
  | rekeyDone => exact execRekeyDone_kept hP e h
  | rootSramUe => exact execRootSramUe_kept hP e h
  | zeroerDone => exact execZeroerDone_kept hP e h
  | domainRampDone pd katOk => exact execDomainRampDone_kept hP pd katOk e h
  | drbgHealthFail => exact execDrbgHealthFail_kept hP e h
  | kidQuery m v => exact execKidQuery_kept hP m v e h
  | keyIssue pair cid => exact execKeyIssue_kept hP pair cid e h
  | keySetCurrent pair cid => exact execKeySetCurrent_kept hP pair cid e h
  | keyClearCurrent pair cid => exact execKeyClearCurrent_kept hP pair cid e h
  | keyRetire pair cid => exact execKeyRetire_kept hP pair cid e h
  | keyDestroy pair cid => exact execKeyDestroy_kept hP pair cid e h
  | keyQuery pair cid => exact execKeyQuery_kept hP pair cid e h
  | sqDoorbell bar0 pair v => exact execSqDoorbell_kept hP bar0 pair v e h
  | cqDoorbell bar0 pair v => exact execCqDoorbell_kept hP bar0 pair v e h
  | pairEnable bar0 pair v => exact execPairEnable_kept hP bar0 pair v e h
  | pairDisable bar0 pair v => exact execPairDisable_kept hP bar0 pair v e h
  | ringAllocWrite m n v => exact execRingAllocWrite_kept hP m n v e h
  | commandFetch pair entry => exact execCommandFetch_kept hP pair entry e h
  | ringCopy pair cid leaves => exact execRingCopy_kept hP pair cid leaves e h
  | ringFill pair cid => exact execRingFill_kept hP pair cid e h
  | ringVerify pair cid leaves => exact execRingVerify_kept hP pair cid leaves e h
  | ringHash pair cid leaves dmaOk => exact execRingHash_kept hP pair cid leaves dmaOk e h
  | ringSeal pair cid => exact execRingSeal_kept hP pair cid e h
  | ringDiscard pair cid => exact execRingDiscard_kept hP pair cid e h
  | ringSync pair cid => exact execRingSync_kept hP pair cid e h
  | ringPrefetch pair cid => exact execRingPrefetch_kept hP pair cid e h
  | ringTelemetry pair cid dmaOk => exact execRingTelemetry_kept hP pair cid dmaOk e h
  | ringAbort pair cid => exact execRingAbort_kept hP pair cid e h
  | hashEngineGrant => exact execHashEngineGrant_kept hP e h
  | completionPost pair cid dmaOk => exact execCompletionPost_kept hP pair cid dmaOk e h
  | hostDmaFail pair => exact execHostDmaFail_kept hP pair e h
  | coalesceTimer pair => exact execCoalesceTimer_kept hP pair e h
  | regAdmit m v => exact execRegAdmit_kept hP m v e h
  | floorWindow => exact execFloorWindow_kept hP e h
  | ledgerSnapshot => exact execLedgerSnapshot_kept hP e h
  | ledgerInject m v => exact execLedgerInject_kept hP m v e h
  | ledgLhsRead m => exact execLedgLhsRead_kept hP m e h
  | ledgerSramUe ledger => exact execLedgerSramUe_kept hP ledger e h
  | reloadReg m v => exact execReloadReg_kept hP m v e h
  | reloadDome m v => exact execReloadDome_kept hP m v e h
  | domeBankFlip => exact execDomeBankFlip_kept hP e h
  | reloadStandbyAssist m v => exact execReloadStandbyAssist_kept hP m v e h
  | swap m v => exact execSwap_kept hP m v e h
  | swapTimeout => exact execSwapTimeout_kept hP e h
  | standbyReady => exact execStandbyReady_kept hP e h
  | assistReadyTimeout => exact execAssistReadyTimeout_kept hP e h
  | reloadUnitInvalid m v => exact execReloadUnitInvalid_kept hP m v e h
  | platePowerReq m v => exact execPlatePowerReq_kept hP m v e h
  | railPowerGood rail mv => exact execRailPowerGood_kept hP rail mv e h
  | waitUpTimeout rail => exact execWaitUpTimeout_kept hP rail e h
  | railDischarged rail mv => exact execRailDischarged_kept hP rail mv e h
  | dischargeTimeout rail => exact execDischargeTimeout_kept hP rail e h
  | minOffExpiry rail => exact execMinOffExpiry_kept hP rail e h
  | scriptDelayExpiry seq => exact execScriptDelayExpiry_kept hP seq e h
  | adcSample mv lost => exact execAdcSample_kept hP mv lost e h
  | powerGoodLost rail => exact execPowerGoodLost_kept hP rail e h
  | pmbusPoll replies => exact execPmbusPoll_kept hP replies e h
  | pmbAlert replies => exact execPmbAlert_kept hP replies e h
  | tempReading temps => exact execTempReading_kept hP temps e h
  | haltFanExpiry => exact execHaltFanExpiry_kept hP e h
  | aonLoss reset => exact execAonLoss_kept hP reset e h
  | aonReturn straps => exact execAonReturn_kept hP straps e h
  | huEstimate => exact execHuEstimate_kept hP e h
  | huMismatchTimer => exact execHuMismatchTimer_kept hP e h
  | margin m v => exact execMargin_kept hP m v e h
  | fanTachWindow pulses => exact execFanTachWindow_kept hP pulses e h
  | fanWatchdog fan => exact execFanWatchdog_kept hP fan e h
  | recQualified ofs => exact execRecQualified_kept hP ofs e h
  | recDisqualified ssc => exact execRecDisqualified_kept hP ssc e h
  | holdoverExpiry => exact execHoldoverExpiry_kept hP e h
  | slewDone => exact execSlewDone_kept hP e h
  | todSet m wide v => exact execTodSet_kept hP m wide v e h
  | todLowRead m => exact execTodLowRead_kept hP m e h
  | chrono m v => exact execChrono_kept hP m v e h
  | chronoGateEnd count => exact execChronoGateEnd_kept hP count e h
  | chronoRefDead count => exact execChronoRefDead_kept hP count e h
  | heldAccessRelease dom => exact execHeldAccessRelease_kept hP dom e h
  | shelfPing f => exact execShelfPing_kept hP f e h
  | shelfStatus f => exact execShelfStatus_kept hP f e h
  | shelfSensors f => exact execShelfSensors_kept hP f e h
  | shelfMode f => exact execShelfMode_kept hP f e h
  | shelfWake f => exact execShelfWake_kept hP f e h
  | shelfRestart f => exact execShelfRestart_kept hP f e h
  | shelfPlate f => exact execShelfPlate_kept hP f e h
  | shelfSubscribe f => exact execShelfSubscribe_kept hP f e h
  | shelfFrameOther bytes fcs => exact execShelfFrameOther_kept hP bytes fcs e h
  | ptpFrame bytes fcs disc => exact execPtpFrame_kept hP bytes fcs disc e h
  | pdelayTimer => exact execPdelayTimer_kept hP e h
  | plcaBeacon => exact execPlcaBeacon_kept hP e h
  | beaconLoss => exact execBeaconLoss_kept hP e h
  | dupCoord => exact execDupCoord_kept hP e h
  | coordResume => exact execCoordResume_kept hP e h
  | plcaCollision => exact execPlcaCollision_kept hP e h
  | quarantineExpiry => exact execQuarantineExpiry_kept hP e h
  | rxqDataRead m => exact execRxqDataRead_kept hP m e h
  | rxqDrop m => exact execRxqDrop_kept hP m e h
  | txqDataWrite m w => exact execTxqDataWrite_kept hP m w e h
  | txqFlush m => exact execTxqFlush_kept hP m e h
  | keyCommit m => exact execKeyCommit_kept hP m e h
  | pltCmdOn m v => exact execPltCmdOn_kept hP m v e h
  | pltCmdOut m v => exact execPltCmdOut_kept hP m v e h
  | pltCmdAdmit m v => exact execPltCmdAdmit_kept hP m v e h
  | plateInserted plate ident => exact execPlateInserted_kept hP plate ident e h
  | plateRemoved plate => exact execPlateRemoved_kept hP plate e h
  | plateDrainTimeout plate => exact execPlateDrainTimeout_kept hP plate e h
  | plateHot plate temp => exact execPlateHot_kept hP plate temp e h
  | plateDisagree plate => exact execPlateDisagree_kept hP plate e h
  | logPut m v full => exact execLogPut_kept hP m v full e h
  | logWin0Read m => exact execLogWin0Read_kept hP m e h
  | logWin3Read m => exact execLogWin3Read_kept hP m e h
  | snapTimer => exact execSnapTimer_kept hP e h
  | snapGo m v => exact execSnapGo_kept hP m v e h
  | snapPublish => exact execSnapPublish_kept hP e h
  | chainWrite m b v => exact execChainWrite_kept hP m b v e h
  | almRead m v => exact execAlmRead_kept hP m v e h
  | almWrite m v => exact execAlmWrite_kept hP m v e h
  | almWriteDone => exact execAlmWriteDone_kept hP e h
  | lcTransition m v => exact execLcTransition_kept hP m v e h
  | unlock m v => exact execUnlock_kept hP m v e h
  | relock m v => exact execRelock_kept hP m v e h
  | keyfuse m v => exact execKeyfuse_kept hP m v e h
  | tapExtest bits => exact execTapExtest_kept hP bits e h
  | tapSamplePreload pins bits => exact execTapSamplePreload_kept hP pins bits e h
  | tapIdcode => exact execTapIdcode_kept hP e h
  | tapClamp => exact execTapClamp_kept hP e h
  | tapHighz => exact execTapHighz_kept hP e h
  | lcStatus => exact execLcStatus_kept hP e h
  | finderUnlock token go => exact execFinderUnlock_kept hP token go e h
  | tapBypass ir => exact execTapBypass_kept hP ir e h
  | coreHalt core pc => exact execCoreHalt_kept hP core pc e h
  | coreResume core => exact execCoreResume_kept hP core e h
  | coreStep core pc => exact execCoreStep_kept hP core pc e h
  | coreReg dr => exact execCoreReg_kept hP dr e h
  | coreBp dr => exact execCoreBp_kept hP dr e h
  | breakpointHit core watch pc => exact execBreakpointHit_kept hP core watch pc e h
  | sysbusRead dr out => exact execSysbusRead_kept hP dr out e h
  | sysbusWrite dr => exact execSysbusWrite_kept hP dr e h
  | busAbort bit0 => exact execBusAbort_kept hP bit0 e h
  | tapReset => exact execTapReset_kept hP e h
  | beaconReceived => exact execBeaconReceived_kept hP e h
  | txFrameSent => exact execTxFrameSent_kept hP e h
  | doeRequest port r => exact execDoeRequest_kept hP port r e h

end Sys2Proof.Machine
end

