-- ==== Sys2Proof/Laws/State.lean ====
section
/-! SUPPORT. One lemma for each field of State under each update: true by rfl. -/

namespace Sys2Proof.Machine

@[simp] theorem State.modRegs_regs (f : Tbl Nat → Tbl Nat) (s : State) : (s.modRegs f).regs = f s.regs := rfl
@[simp] theorem State.modRegs_holds (f : Tbl Nat → Tbl Nat) (s : State) : (s.modRegs f).holds = s.holds := rfl
@[simp] theorem State.modRegs_glb (f : Tbl Nat → Tbl Nat) (s : State) : (s.modRegs f).glb = s.glb := rfl
@[simp] theorem State.modRegs_start (f : Tbl Nat → Tbl Nat) (s : State) : (s.modRegs f).start = s.start := rfl
@[simp] theorem State.modRegs_log (f : Tbl Nat → Tbl Nat) (s : State) : (s.modRegs f).log = s.log := rfl
@[simp] theorem State.modRegs_spec (f : Tbl Nat → Tbl Nat) (s : State) : (s.modRegs f).spec = s.spec := rfl
@[simp] theorem State.modRegs_clk (f : Tbl Nat → Tbl Nat) (s : State) : (s.modRegs f).clk = s.clk := rfl
@[simp] theorem State.modRegs_alm (f : Tbl Nat → Tbl Nat) (s : State) : (s.modRegs f).alm = s.alm := rfl
@[simp] theorem State.modRegs_lcs (f : Tbl Nat → Tbl Nat) (s : State) : (s.modRegs f).lcs = s.lcs := rfl
@[simp] theorem State.modRegs_find (f : Tbl Nat → Tbl Nat) (s : State) : (s.modRegs f).find = s.find := rfl
@[simp] theorem State.modRegs_dome (f : Tbl Nat → Tbl Nat) (s : State) : (s.modRegs f).dome = s.dome := rfl
@[simp] theorem State.modRegs_sbus (f : Tbl Nat → Tbl Nat) (s : State) : (s.modRegs f).sbus = s.sbus := rfl
@[simp] theorem State.modRegs_host (f : Tbl Nat → Tbl Nat) (s : State) : (s.modRegs f).host = s.host := rfl
@[simp] theorem State.modRegs_xlat (f : Tbl Nat → Tbl Nat) (s : State) : (s.modRegs f).xlat = s.xlat := rfl
@[simp] theorem State.modRegs_coal (f : Tbl Nat → Tbl Nat) (s : State) : (s.modRegs f).coal = s.coal := rfl
@[simp] theorem State.modRegs_med (f : Tbl Nat → Tbl Nat) (s : State) : (s.modRegs f).med = s.med := rfl
@[simp] theorem State.modRegs_drift (f : Tbl Nat → Tbl Nat) (s : State) : (s.modRegs f).drift = s.drift := rfl
@[simp] theorem State.modRegs_fld (f : Tbl Nat → Tbl Nat) (s : State) : (s.modRegs f).fld = s.fld := rfl
@[simp] theorem State.modRegs_dur (f : Tbl Nat → Tbl Nat) (s : State) : (s.modRegs f).dur = s.dur := rfl
@[simp] theorem State.modRegs_wm (f : Tbl Nat → Tbl Nat) (s : State) : (s.modRegs f).wm = s.wm := rfl
@[simp] theorem State.modRegs_ciph (f : Tbl Nat → Tbl Nat) (s : State) : (s.modRegs f).ciph = s.ciph := rfl
@[simp] theorem State.modRegs_regu (f : Tbl Nat → Tbl Nat) (s : State) : (s.modRegs f).regu = s.regu := rfl
@[simp] theorem State.modRegs_ledg (f : Tbl Nat → Tbl Nat) (s : State) : (s.modRegs f).ledg = s.ledg := rfl
@[simp] theorem State.modRegs_ring (f : Tbl Nat → Tbl Nat) (s : State) : (s.modRegs f).ring = s.ring := rfl
@[simp] theorem State.modRegs_img (f : Tbl Nat → Tbl Nat) (s : State) : (s.modRegs f).img = s.img := rfl
@[simp] theorem State.modRegs_outs (f : Tbl Nat → Tbl Nat) (s : State) : (s.modRegs f).outs = s.outs := rfl
@[simp] theorem State.modRegs_pending (f : Tbl Nat → Tbl Nat) (s : State) : (s.modRegs f).pending = s.pending := rfl
@[simp] theorem State.modRegs_freeCnt (f : Tbl Nat → Tbl Nat) (s : State) : (s.modRegs f).freeCnt = s.freeCnt := rfl
@[simp] theorem State.modRegs_now (f : Tbl Nat → Tbl Nat) (s : State) : (s.modRegs f).now = s.now := rfl
@[simp] theorem State.modHolds_regs (f : List (Master × Nat × Nat) → List (Master × Nat × Nat)) (s : State) : (s.modHolds f).regs = s.regs := rfl
@[simp] theorem State.modHolds_holds (f : List (Master × Nat × Nat) → List (Master × Nat × Nat)) (s : State) : (s.modHolds f).holds = f s.holds := rfl
@[simp] theorem State.modHolds_glb (f : List (Master × Nat × Nat) → List (Master × Nat × Nat)) (s : State) : (s.modHolds f).glb = s.glb := rfl
@[simp] theorem State.modHolds_start (f : List (Master × Nat × Nat) → List (Master × Nat × Nat)) (s : State) : (s.modHolds f).start = s.start := rfl
@[simp] theorem State.modHolds_log (f : List (Master × Nat × Nat) → List (Master × Nat × Nat)) (s : State) : (s.modHolds f).log = s.log := rfl
@[simp] theorem State.modHolds_spec (f : List (Master × Nat × Nat) → List (Master × Nat × Nat)) (s : State) : (s.modHolds f).spec = s.spec := rfl
@[simp] theorem State.modHolds_clk (f : List (Master × Nat × Nat) → List (Master × Nat × Nat)) (s : State) : (s.modHolds f).clk = s.clk := rfl
@[simp] theorem State.modHolds_alm (f : List (Master × Nat × Nat) → List (Master × Nat × Nat)) (s : State) : (s.modHolds f).alm = s.alm := rfl
@[simp] theorem State.modHolds_lcs (f : List (Master × Nat × Nat) → List (Master × Nat × Nat)) (s : State) : (s.modHolds f).lcs = s.lcs := rfl
@[simp] theorem State.modHolds_find (f : List (Master × Nat × Nat) → List (Master × Nat × Nat)) (s : State) : (s.modHolds f).find = s.find := rfl
@[simp] theorem State.modHolds_dome (f : List (Master × Nat × Nat) → List (Master × Nat × Nat)) (s : State) : (s.modHolds f).dome = s.dome := rfl
@[simp] theorem State.modHolds_sbus (f : List (Master × Nat × Nat) → List (Master × Nat × Nat)) (s : State) : (s.modHolds f).sbus = s.sbus := rfl
@[simp] theorem State.modHolds_host (f : List (Master × Nat × Nat) → List (Master × Nat × Nat)) (s : State) : (s.modHolds f).host = s.host := rfl
@[simp] theorem State.modHolds_xlat (f : List (Master × Nat × Nat) → List (Master × Nat × Nat)) (s : State) : (s.modHolds f).xlat = s.xlat := rfl
@[simp] theorem State.modHolds_coal (f : List (Master × Nat × Nat) → List (Master × Nat × Nat)) (s : State) : (s.modHolds f).coal = s.coal := rfl
@[simp] theorem State.modHolds_med (f : List (Master × Nat × Nat) → List (Master × Nat × Nat)) (s : State) : (s.modHolds f).med = s.med := rfl
@[simp] theorem State.modHolds_drift (f : List (Master × Nat × Nat) → List (Master × Nat × Nat)) (s : State) : (s.modHolds f).drift = s.drift := rfl
@[simp] theorem State.modHolds_fld (f : List (Master × Nat × Nat) → List (Master × Nat × Nat)) (s : State) : (s.modHolds f).fld = s.fld := rfl
@[simp] theorem State.modHolds_dur (f : List (Master × Nat × Nat) → List (Master × Nat × Nat)) (s : State) : (s.modHolds f).dur = s.dur := rfl
@[simp] theorem State.modHolds_wm (f : List (Master × Nat × Nat) → List (Master × Nat × Nat)) (s : State) : (s.modHolds f).wm = s.wm := rfl
@[simp] theorem State.modHolds_ciph (f : List (Master × Nat × Nat) → List (Master × Nat × Nat)) (s : State) : (s.modHolds f).ciph = s.ciph := rfl
@[simp] theorem State.modHolds_regu (f : List (Master × Nat × Nat) → List (Master × Nat × Nat)) (s : State) : (s.modHolds f).regu = s.regu := rfl
@[simp] theorem State.modHolds_ledg (f : List (Master × Nat × Nat) → List (Master × Nat × Nat)) (s : State) : (s.modHolds f).ledg = s.ledg := rfl
@[simp] theorem State.modHolds_ring (f : List (Master × Nat × Nat) → List (Master × Nat × Nat)) (s : State) : (s.modHolds f).ring = s.ring := rfl
@[simp] theorem State.modHolds_img (f : List (Master × Nat × Nat) → List (Master × Nat × Nat)) (s : State) : (s.modHolds f).img = s.img := rfl
@[simp] theorem State.modHolds_outs (f : List (Master × Nat × Nat) → List (Master × Nat × Nat)) (s : State) : (s.modHolds f).outs = s.outs := rfl
@[simp] theorem State.modHolds_pending (f : List (Master × Nat × Nat) → List (Master × Nat × Nat)) (s : State) : (s.modHolds f).pending = s.pending := rfl
@[simp] theorem State.modHolds_freeCnt (f : List (Master × Nat × Nat) → List (Master × Nat × Nat)) (s : State) : (s.modHolds f).freeCnt = s.freeCnt := rfl
@[simp] theorem State.modHolds_now (f : List (Master × Nat × Nat) → List (Master × Nat × Nat)) (s : State) : (s.modHolds f).now = s.now := rfl
@[simp] theorem State.modGlb_regs (f : Glb → Glb) (s : State) : (s.modGlb f).regs = s.regs := rfl
@[simp] theorem State.modGlb_holds (f : Glb → Glb) (s : State) : (s.modGlb f).holds = s.holds := rfl
@[simp] theorem State.modGlb_glb (f : Glb → Glb) (s : State) : (s.modGlb f).glb = f s.glb := rfl
@[simp] theorem State.modGlb_start (f : Glb → Glb) (s : State) : (s.modGlb f).start = s.start := rfl
@[simp] theorem State.modGlb_log (f : Glb → Glb) (s : State) : (s.modGlb f).log = s.log := rfl
@[simp] theorem State.modGlb_spec (f : Glb → Glb) (s : State) : (s.modGlb f).spec = s.spec := rfl
@[simp] theorem State.modGlb_clk (f : Glb → Glb) (s : State) : (s.modGlb f).clk = s.clk := rfl
@[simp] theorem State.modGlb_alm (f : Glb → Glb) (s : State) : (s.modGlb f).alm = s.alm := rfl
@[simp] theorem State.modGlb_lcs (f : Glb → Glb) (s : State) : (s.modGlb f).lcs = s.lcs := rfl
@[simp] theorem State.modGlb_find (f : Glb → Glb) (s : State) : (s.modGlb f).find = s.find := rfl
@[simp] theorem State.modGlb_dome (f : Glb → Glb) (s : State) : (s.modGlb f).dome = s.dome := rfl
@[simp] theorem State.modGlb_sbus (f : Glb → Glb) (s : State) : (s.modGlb f).sbus = s.sbus := rfl
@[simp] theorem State.modGlb_host (f : Glb → Glb) (s : State) : (s.modGlb f).host = s.host := rfl
@[simp] theorem State.modGlb_xlat (f : Glb → Glb) (s : State) : (s.modGlb f).xlat = s.xlat := rfl
@[simp] theorem State.modGlb_coal (f : Glb → Glb) (s : State) : (s.modGlb f).coal = s.coal := rfl
@[simp] theorem State.modGlb_med (f : Glb → Glb) (s : State) : (s.modGlb f).med = s.med := rfl
@[simp] theorem State.modGlb_drift (f : Glb → Glb) (s : State) : (s.modGlb f).drift = s.drift := rfl
@[simp] theorem State.modGlb_fld (f : Glb → Glb) (s : State) : (s.modGlb f).fld = s.fld := rfl
@[simp] theorem State.modGlb_dur (f : Glb → Glb) (s : State) : (s.modGlb f).dur = s.dur := rfl
@[simp] theorem State.modGlb_wm (f : Glb → Glb) (s : State) : (s.modGlb f).wm = s.wm := rfl
@[simp] theorem State.modGlb_ciph (f : Glb → Glb) (s : State) : (s.modGlb f).ciph = s.ciph := rfl
@[simp] theorem State.modGlb_regu (f : Glb → Glb) (s : State) : (s.modGlb f).regu = s.regu := rfl
@[simp] theorem State.modGlb_ledg (f : Glb → Glb) (s : State) : (s.modGlb f).ledg = s.ledg := rfl
@[simp] theorem State.modGlb_ring (f : Glb → Glb) (s : State) : (s.modGlb f).ring = s.ring := rfl
@[simp] theorem State.modGlb_img (f : Glb → Glb) (s : State) : (s.modGlb f).img = s.img := rfl
@[simp] theorem State.modGlb_outs (f : Glb → Glb) (s : State) : (s.modGlb f).outs = s.outs := rfl
@[simp] theorem State.modGlb_pending (f : Glb → Glb) (s : State) : (s.modGlb f).pending = s.pending := rfl
@[simp] theorem State.modGlb_freeCnt (f : Glb → Glb) (s : State) : (s.modGlb f).freeCnt = s.freeCnt := rfl
@[simp] theorem State.modGlb_now (f : Glb → Glb) (s : State) : (s.modGlb f).now = s.now := rfl
@[simp] theorem State.modStart_regs (f : Start → Start) (s : State) : (s.modStart f).regs = s.regs := rfl
@[simp] theorem State.modStart_holds (f : Start → Start) (s : State) : (s.modStart f).holds = s.holds := rfl
@[simp] theorem State.modStart_glb (f : Start → Start) (s : State) : (s.modStart f).glb = s.glb := rfl
@[simp] theorem State.modStart_start (f : Start → Start) (s : State) : (s.modStart f).start = f s.start := rfl
@[simp] theorem State.modStart_log (f : Start → Start) (s : State) : (s.modStart f).log = s.log := rfl
@[simp] theorem State.modStart_spec (f : Start → Start) (s : State) : (s.modStart f).spec = s.spec := rfl
@[simp] theorem State.modStart_clk (f : Start → Start) (s : State) : (s.modStart f).clk = s.clk := rfl
@[simp] theorem State.modStart_alm (f : Start → Start) (s : State) : (s.modStart f).alm = s.alm := rfl
@[simp] theorem State.modStart_lcs (f : Start → Start) (s : State) : (s.modStart f).lcs = s.lcs := rfl
@[simp] theorem State.modStart_find (f : Start → Start) (s : State) : (s.modStart f).find = s.find := rfl
@[simp] theorem State.modStart_dome (f : Start → Start) (s : State) : (s.modStart f).dome = s.dome := rfl
@[simp] theorem State.modStart_sbus (f : Start → Start) (s : State) : (s.modStart f).sbus = s.sbus := rfl
@[simp] theorem State.modStart_host (f : Start → Start) (s : State) : (s.modStart f).host = s.host := rfl
@[simp] theorem State.modStart_xlat (f : Start → Start) (s : State) : (s.modStart f).xlat = s.xlat := rfl
@[simp] theorem State.modStart_coal (f : Start → Start) (s : State) : (s.modStart f).coal = s.coal := rfl
@[simp] theorem State.modStart_med (f : Start → Start) (s : State) : (s.modStart f).med = s.med := rfl
@[simp] theorem State.modStart_drift (f : Start → Start) (s : State) : (s.modStart f).drift = s.drift := rfl
@[simp] theorem State.modStart_fld (f : Start → Start) (s : State) : (s.modStart f).fld = s.fld := rfl
@[simp] theorem State.modStart_dur (f : Start → Start) (s : State) : (s.modStart f).dur = s.dur := rfl
@[simp] theorem State.modStart_wm (f : Start → Start) (s : State) : (s.modStart f).wm = s.wm := rfl
@[simp] theorem State.modStart_ciph (f : Start → Start) (s : State) : (s.modStart f).ciph = s.ciph := rfl
@[simp] theorem State.modStart_regu (f : Start → Start) (s : State) : (s.modStart f).regu = s.regu := rfl
@[simp] theorem State.modStart_ledg (f : Start → Start) (s : State) : (s.modStart f).ledg = s.ledg := rfl
@[simp] theorem State.modStart_ring (f : Start → Start) (s : State) : (s.modStart f).ring = s.ring := rfl
@[simp] theorem State.modStart_img (f : Start → Start) (s : State) : (s.modStart f).img = s.img := rfl
@[simp] theorem State.modStart_outs (f : Start → Start) (s : State) : (s.modStart f).outs = s.outs := rfl
@[simp] theorem State.modStart_pending (f : Start → Start) (s : State) : (s.modStart f).pending = s.pending := rfl
@[simp] theorem State.modStart_freeCnt (f : Start → Start) (s : State) : (s.modStart f).freeCnt = s.freeCnt := rfl
@[simp] theorem State.modStart_now (f : Start → Start) (s : State) : (s.modStart f).now = s.now := rfl
@[simp] theorem State.modLog_regs (f : LogSt → LogSt) (s : State) : (s.modLog f).regs = s.regs := rfl
@[simp] theorem State.modLog_holds (f : LogSt → LogSt) (s : State) : (s.modLog f).holds = s.holds := rfl
@[simp] theorem State.modLog_glb (f : LogSt → LogSt) (s : State) : (s.modLog f).glb = s.glb := rfl
@[simp] theorem State.modLog_start (f : LogSt → LogSt) (s : State) : (s.modLog f).start = s.start := rfl
@[simp] theorem State.modLog_log (f : LogSt → LogSt) (s : State) : (s.modLog f).log = f s.log := rfl
@[simp] theorem State.modLog_spec (f : LogSt → LogSt) (s : State) : (s.modLog f).spec = s.spec := rfl
@[simp] theorem State.modLog_clk (f : LogSt → LogSt) (s : State) : (s.modLog f).clk = s.clk := rfl
@[simp] theorem State.modLog_alm (f : LogSt → LogSt) (s : State) : (s.modLog f).alm = s.alm := rfl
@[simp] theorem State.modLog_lcs (f : LogSt → LogSt) (s : State) : (s.modLog f).lcs = s.lcs := rfl
@[simp] theorem State.modLog_find (f : LogSt → LogSt) (s : State) : (s.modLog f).find = s.find := rfl
@[simp] theorem State.modLog_dome (f : LogSt → LogSt) (s : State) : (s.modLog f).dome = s.dome := rfl
@[simp] theorem State.modLog_sbus (f : LogSt → LogSt) (s : State) : (s.modLog f).sbus = s.sbus := rfl
@[simp] theorem State.modLog_host (f : LogSt → LogSt) (s : State) : (s.modLog f).host = s.host := rfl
@[simp] theorem State.modLog_xlat (f : LogSt → LogSt) (s : State) : (s.modLog f).xlat = s.xlat := rfl
@[simp] theorem State.modLog_coal (f : LogSt → LogSt) (s : State) : (s.modLog f).coal = s.coal := rfl
@[simp] theorem State.modLog_med (f : LogSt → LogSt) (s : State) : (s.modLog f).med = s.med := rfl
@[simp] theorem State.modLog_drift (f : LogSt → LogSt) (s : State) : (s.modLog f).drift = s.drift := rfl
@[simp] theorem State.modLog_fld (f : LogSt → LogSt) (s : State) : (s.modLog f).fld = s.fld := rfl
@[simp] theorem State.modLog_dur (f : LogSt → LogSt) (s : State) : (s.modLog f).dur = s.dur := rfl
@[simp] theorem State.modLog_wm (f : LogSt → LogSt) (s : State) : (s.modLog f).wm = s.wm := rfl
@[simp] theorem State.modLog_ciph (f : LogSt → LogSt) (s : State) : (s.modLog f).ciph = s.ciph := rfl
@[simp] theorem State.modLog_regu (f : LogSt → LogSt) (s : State) : (s.modLog f).regu = s.regu := rfl
@[simp] theorem State.modLog_ledg (f : LogSt → LogSt) (s : State) : (s.modLog f).ledg = s.ledg := rfl
@[simp] theorem State.modLog_ring (f : LogSt → LogSt) (s : State) : (s.modLog f).ring = s.ring := rfl
@[simp] theorem State.modLog_img (f : LogSt → LogSt) (s : State) : (s.modLog f).img = s.img := rfl
@[simp] theorem State.modLog_outs (f : LogSt → LogSt) (s : State) : (s.modLog f).outs = s.outs := rfl
@[simp] theorem State.modLog_pending (f : LogSt → LogSt) (s : State) : (s.modLog f).pending = s.pending := rfl
@[simp] theorem State.modLog_freeCnt (f : LogSt → LogSt) (s : State) : (s.modLog f).freeCnt = s.freeCnt := rfl
@[simp] theorem State.modLog_now (f : LogSt → LogSt) (s : State) : (s.modLog f).now = s.now := rfl
@[simp] theorem State.modSpec_regs (f : SpecSt → SpecSt) (s : State) : (s.modSpec f).regs = s.regs := rfl
@[simp] theorem State.modSpec_holds (f : SpecSt → SpecSt) (s : State) : (s.modSpec f).holds = s.holds := rfl
@[simp] theorem State.modSpec_glb (f : SpecSt → SpecSt) (s : State) : (s.modSpec f).glb = s.glb := rfl
@[simp] theorem State.modSpec_start (f : SpecSt → SpecSt) (s : State) : (s.modSpec f).start = s.start := rfl
@[simp] theorem State.modSpec_log (f : SpecSt → SpecSt) (s : State) : (s.modSpec f).log = s.log := rfl
@[simp] theorem State.modSpec_spec (f : SpecSt → SpecSt) (s : State) : (s.modSpec f).spec = f s.spec := rfl
@[simp] theorem State.modSpec_clk (f : SpecSt → SpecSt) (s : State) : (s.modSpec f).clk = s.clk := rfl
@[simp] theorem State.modSpec_alm (f : SpecSt → SpecSt) (s : State) : (s.modSpec f).alm = s.alm := rfl
@[simp] theorem State.modSpec_lcs (f : SpecSt → SpecSt) (s : State) : (s.modSpec f).lcs = s.lcs := rfl
@[simp] theorem State.modSpec_find (f : SpecSt → SpecSt) (s : State) : (s.modSpec f).find = s.find := rfl
@[simp] theorem State.modSpec_dome (f : SpecSt → SpecSt) (s : State) : (s.modSpec f).dome = s.dome := rfl
@[simp] theorem State.modSpec_sbus (f : SpecSt → SpecSt) (s : State) : (s.modSpec f).sbus = s.sbus := rfl
@[simp] theorem State.modSpec_host (f : SpecSt → SpecSt) (s : State) : (s.modSpec f).host = s.host := rfl
@[simp] theorem State.modSpec_xlat (f : SpecSt → SpecSt) (s : State) : (s.modSpec f).xlat = s.xlat := rfl
@[simp] theorem State.modSpec_coal (f : SpecSt → SpecSt) (s : State) : (s.modSpec f).coal = s.coal := rfl
@[simp] theorem State.modSpec_med (f : SpecSt → SpecSt) (s : State) : (s.modSpec f).med = s.med := rfl
@[simp] theorem State.modSpec_drift (f : SpecSt → SpecSt) (s : State) : (s.modSpec f).drift = s.drift := rfl
@[simp] theorem State.modSpec_fld (f : SpecSt → SpecSt) (s : State) : (s.modSpec f).fld = s.fld := rfl
@[simp] theorem State.modSpec_dur (f : SpecSt → SpecSt) (s : State) : (s.modSpec f).dur = s.dur := rfl
@[simp] theorem State.modSpec_wm (f : SpecSt → SpecSt) (s : State) : (s.modSpec f).wm = s.wm := rfl
@[simp] theorem State.modSpec_ciph (f : SpecSt → SpecSt) (s : State) : (s.modSpec f).ciph = s.ciph := rfl
@[simp] theorem State.modSpec_regu (f : SpecSt → SpecSt) (s : State) : (s.modSpec f).regu = s.regu := rfl
@[simp] theorem State.modSpec_ledg (f : SpecSt → SpecSt) (s : State) : (s.modSpec f).ledg = s.ledg := rfl
@[simp] theorem State.modSpec_ring (f : SpecSt → SpecSt) (s : State) : (s.modSpec f).ring = s.ring := rfl
@[simp] theorem State.modSpec_img (f : SpecSt → SpecSt) (s : State) : (s.modSpec f).img = s.img := rfl
@[simp] theorem State.modSpec_outs (f : SpecSt → SpecSt) (s : State) : (s.modSpec f).outs = s.outs := rfl
@[simp] theorem State.modSpec_pending (f : SpecSt → SpecSt) (s : State) : (s.modSpec f).pending = s.pending := rfl
@[simp] theorem State.modSpec_freeCnt (f : SpecSt → SpecSt) (s : State) : (s.modSpec f).freeCnt = s.freeCnt := rfl
@[simp] theorem State.modSpec_now (f : SpecSt → SpecSt) (s : State) : (s.modSpec f).now = s.now := rfl
@[simp] theorem State.modClk_regs (f : ClkSt → ClkSt) (s : State) : (s.modClk f).regs = s.regs := rfl
@[simp] theorem State.modClk_holds (f : ClkSt → ClkSt) (s : State) : (s.modClk f).holds = s.holds := rfl
@[simp] theorem State.modClk_glb (f : ClkSt → ClkSt) (s : State) : (s.modClk f).glb = s.glb := rfl
@[simp] theorem State.modClk_start (f : ClkSt → ClkSt) (s : State) : (s.modClk f).start = s.start := rfl
@[simp] theorem State.modClk_log (f : ClkSt → ClkSt) (s : State) : (s.modClk f).log = s.log := rfl
@[simp] theorem State.modClk_spec (f : ClkSt → ClkSt) (s : State) : (s.modClk f).spec = s.spec := rfl
@[simp] theorem State.modClk_clk (f : ClkSt → ClkSt) (s : State) : (s.modClk f).clk = f s.clk := rfl
@[simp] theorem State.modClk_alm (f : ClkSt → ClkSt) (s : State) : (s.modClk f).alm = s.alm := rfl
@[simp] theorem State.modClk_lcs (f : ClkSt → ClkSt) (s : State) : (s.modClk f).lcs = s.lcs := rfl
@[simp] theorem State.modClk_find (f : ClkSt → ClkSt) (s : State) : (s.modClk f).find = s.find := rfl
@[simp] theorem State.modClk_dome (f : ClkSt → ClkSt) (s : State) : (s.modClk f).dome = s.dome := rfl
@[simp] theorem State.modClk_sbus (f : ClkSt → ClkSt) (s : State) : (s.modClk f).sbus = s.sbus := rfl
@[simp] theorem State.modClk_host (f : ClkSt → ClkSt) (s : State) : (s.modClk f).host = s.host := rfl
@[simp] theorem State.modClk_xlat (f : ClkSt → ClkSt) (s : State) : (s.modClk f).xlat = s.xlat := rfl
@[simp] theorem State.modClk_coal (f : ClkSt → ClkSt) (s : State) : (s.modClk f).coal = s.coal := rfl
@[simp] theorem State.modClk_med (f : ClkSt → ClkSt) (s : State) : (s.modClk f).med = s.med := rfl
@[simp] theorem State.modClk_drift (f : ClkSt → ClkSt) (s : State) : (s.modClk f).drift = s.drift := rfl
@[simp] theorem State.modClk_fld (f : ClkSt → ClkSt) (s : State) : (s.modClk f).fld = s.fld := rfl
@[simp] theorem State.modClk_dur (f : ClkSt → ClkSt) (s : State) : (s.modClk f).dur = s.dur := rfl
@[simp] theorem State.modClk_wm (f : ClkSt → ClkSt) (s : State) : (s.modClk f).wm = s.wm := rfl
@[simp] theorem State.modClk_ciph (f : ClkSt → ClkSt) (s : State) : (s.modClk f).ciph = s.ciph := rfl
@[simp] theorem State.modClk_regu (f : ClkSt → ClkSt) (s : State) : (s.modClk f).regu = s.regu := rfl
@[simp] theorem State.modClk_ledg (f : ClkSt → ClkSt) (s : State) : (s.modClk f).ledg = s.ledg := rfl
@[simp] theorem State.modClk_ring (f : ClkSt → ClkSt) (s : State) : (s.modClk f).ring = s.ring := rfl
@[simp] theorem State.modClk_img (f : ClkSt → ClkSt) (s : State) : (s.modClk f).img = s.img := rfl
@[simp] theorem State.modClk_outs (f : ClkSt → ClkSt) (s : State) : (s.modClk f).outs = s.outs := rfl
@[simp] theorem State.modClk_pending (f : ClkSt → ClkSt) (s : State) : (s.modClk f).pending = s.pending := rfl
@[simp] theorem State.modClk_freeCnt (f : ClkSt → ClkSt) (s : State) : (s.modClk f).freeCnt = s.freeCnt := rfl
@[simp] theorem State.modClk_now (f : ClkSt → ClkSt) (s : State) : (s.modClk f).now = s.now := rfl
@[simp] theorem State.modAlm_regs (f : AlmSt → AlmSt) (s : State) : (s.modAlm f).regs = s.regs := rfl
@[simp] theorem State.modAlm_holds (f : AlmSt → AlmSt) (s : State) : (s.modAlm f).holds = s.holds := rfl
@[simp] theorem State.modAlm_glb (f : AlmSt → AlmSt) (s : State) : (s.modAlm f).glb = s.glb := rfl
@[simp] theorem State.modAlm_start (f : AlmSt → AlmSt) (s : State) : (s.modAlm f).start = s.start := rfl
@[simp] theorem State.modAlm_log (f : AlmSt → AlmSt) (s : State) : (s.modAlm f).log = s.log := rfl
@[simp] theorem State.modAlm_spec (f : AlmSt → AlmSt) (s : State) : (s.modAlm f).spec = s.spec := rfl
@[simp] theorem State.modAlm_clk (f : AlmSt → AlmSt) (s : State) : (s.modAlm f).clk = s.clk := rfl
@[simp] theorem State.modAlm_alm (f : AlmSt → AlmSt) (s : State) : (s.modAlm f).alm = f s.alm := rfl
@[simp] theorem State.modAlm_lcs (f : AlmSt → AlmSt) (s : State) : (s.modAlm f).lcs = s.lcs := rfl
@[simp] theorem State.modAlm_find (f : AlmSt → AlmSt) (s : State) : (s.modAlm f).find = s.find := rfl
@[simp] theorem State.modAlm_dome (f : AlmSt → AlmSt) (s : State) : (s.modAlm f).dome = s.dome := rfl
@[simp] theorem State.modAlm_sbus (f : AlmSt → AlmSt) (s : State) : (s.modAlm f).sbus = s.sbus := rfl
@[simp] theorem State.modAlm_host (f : AlmSt → AlmSt) (s : State) : (s.modAlm f).host = s.host := rfl
@[simp] theorem State.modAlm_xlat (f : AlmSt → AlmSt) (s : State) : (s.modAlm f).xlat = s.xlat := rfl
@[simp] theorem State.modAlm_coal (f : AlmSt → AlmSt) (s : State) : (s.modAlm f).coal = s.coal := rfl
@[simp] theorem State.modAlm_med (f : AlmSt → AlmSt) (s : State) : (s.modAlm f).med = s.med := rfl
@[simp] theorem State.modAlm_drift (f : AlmSt → AlmSt) (s : State) : (s.modAlm f).drift = s.drift := rfl
@[simp] theorem State.modAlm_fld (f : AlmSt → AlmSt) (s : State) : (s.modAlm f).fld = s.fld := rfl
@[simp] theorem State.modAlm_dur (f : AlmSt → AlmSt) (s : State) : (s.modAlm f).dur = s.dur := rfl
@[simp] theorem State.modAlm_wm (f : AlmSt → AlmSt) (s : State) : (s.modAlm f).wm = s.wm := rfl
@[simp] theorem State.modAlm_ciph (f : AlmSt → AlmSt) (s : State) : (s.modAlm f).ciph = s.ciph := rfl
@[simp] theorem State.modAlm_regu (f : AlmSt → AlmSt) (s : State) : (s.modAlm f).regu = s.regu := rfl
@[simp] theorem State.modAlm_ledg (f : AlmSt → AlmSt) (s : State) : (s.modAlm f).ledg = s.ledg := rfl
@[simp] theorem State.modAlm_ring (f : AlmSt → AlmSt) (s : State) : (s.modAlm f).ring = s.ring := rfl
@[simp] theorem State.modAlm_img (f : AlmSt → AlmSt) (s : State) : (s.modAlm f).img = s.img := rfl
@[simp] theorem State.modAlm_outs (f : AlmSt → AlmSt) (s : State) : (s.modAlm f).outs = s.outs := rfl
@[simp] theorem State.modAlm_pending (f : AlmSt → AlmSt) (s : State) : (s.modAlm f).pending = s.pending := rfl
@[simp] theorem State.modAlm_freeCnt (f : AlmSt → AlmSt) (s : State) : (s.modAlm f).freeCnt = s.freeCnt := rfl
@[simp] theorem State.modAlm_now (f : AlmSt → AlmSt) (s : State) : (s.modAlm f).now = s.now := rfl
@[simp] theorem State.modLcs_regs (f : LcsSt → LcsSt) (s : State) : (s.modLcs f).regs = s.regs := rfl
@[simp] theorem State.modLcs_holds (f : LcsSt → LcsSt) (s : State) : (s.modLcs f).holds = s.holds := rfl
@[simp] theorem State.modLcs_glb (f : LcsSt → LcsSt) (s : State) : (s.modLcs f).glb = s.glb := rfl
@[simp] theorem State.modLcs_start (f : LcsSt → LcsSt) (s : State) : (s.modLcs f).start = s.start := rfl
@[simp] theorem State.modLcs_log (f : LcsSt → LcsSt) (s : State) : (s.modLcs f).log = s.log := rfl
@[simp] theorem State.modLcs_spec (f : LcsSt → LcsSt) (s : State) : (s.modLcs f).spec = s.spec := rfl
@[simp] theorem State.modLcs_clk (f : LcsSt → LcsSt) (s : State) : (s.modLcs f).clk = s.clk := rfl
@[simp] theorem State.modLcs_alm (f : LcsSt → LcsSt) (s : State) : (s.modLcs f).alm = s.alm := rfl
@[simp] theorem State.modLcs_lcs (f : LcsSt → LcsSt) (s : State) : (s.modLcs f).lcs = f s.lcs := rfl
@[simp] theorem State.modLcs_find (f : LcsSt → LcsSt) (s : State) : (s.modLcs f).find = s.find := rfl
@[simp] theorem State.modLcs_dome (f : LcsSt → LcsSt) (s : State) : (s.modLcs f).dome = s.dome := rfl
@[simp] theorem State.modLcs_sbus (f : LcsSt → LcsSt) (s : State) : (s.modLcs f).sbus = s.sbus := rfl
@[simp] theorem State.modLcs_host (f : LcsSt → LcsSt) (s : State) : (s.modLcs f).host = s.host := rfl
@[simp] theorem State.modLcs_xlat (f : LcsSt → LcsSt) (s : State) : (s.modLcs f).xlat = s.xlat := rfl
@[simp] theorem State.modLcs_coal (f : LcsSt → LcsSt) (s : State) : (s.modLcs f).coal = s.coal := rfl
@[simp] theorem State.modLcs_med (f : LcsSt → LcsSt) (s : State) : (s.modLcs f).med = s.med := rfl
@[simp] theorem State.modLcs_drift (f : LcsSt → LcsSt) (s : State) : (s.modLcs f).drift = s.drift := rfl
@[simp] theorem State.modLcs_fld (f : LcsSt → LcsSt) (s : State) : (s.modLcs f).fld = s.fld := rfl
@[simp] theorem State.modLcs_dur (f : LcsSt → LcsSt) (s : State) : (s.modLcs f).dur = s.dur := rfl
@[simp] theorem State.modLcs_wm (f : LcsSt → LcsSt) (s : State) : (s.modLcs f).wm = s.wm := rfl
@[simp] theorem State.modLcs_ciph (f : LcsSt → LcsSt) (s : State) : (s.modLcs f).ciph = s.ciph := rfl
@[simp] theorem State.modLcs_regu (f : LcsSt → LcsSt) (s : State) : (s.modLcs f).regu = s.regu := rfl
@[simp] theorem State.modLcs_ledg (f : LcsSt → LcsSt) (s : State) : (s.modLcs f).ledg = s.ledg := rfl
@[simp] theorem State.modLcs_ring (f : LcsSt → LcsSt) (s : State) : (s.modLcs f).ring = s.ring := rfl
@[simp] theorem State.modLcs_img (f : LcsSt → LcsSt) (s : State) : (s.modLcs f).img = s.img := rfl
@[simp] theorem State.modLcs_outs (f : LcsSt → LcsSt) (s : State) : (s.modLcs f).outs = s.outs := rfl
@[simp] theorem State.modLcs_pending (f : LcsSt → LcsSt) (s : State) : (s.modLcs f).pending = s.pending := rfl
@[simp] theorem State.modLcs_freeCnt (f : LcsSt → LcsSt) (s : State) : (s.modLcs f).freeCnt = s.freeCnt := rfl
@[simp] theorem State.modLcs_now (f : LcsSt → LcsSt) (s : State) : (s.modLcs f).now = s.now := rfl
@[simp] theorem State.modFind_regs (f : FindSt → FindSt) (s : State) : (s.modFind f).regs = s.regs := rfl
@[simp] theorem State.modFind_holds (f : FindSt → FindSt) (s : State) : (s.modFind f).holds = s.holds := rfl
@[simp] theorem State.modFind_glb (f : FindSt → FindSt) (s : State) : (s.modFind f).glb = s.glb := rfl
@[simp] theorem State.modFind_start (f : FindSt → FindSt) (s : State) : (s.modFind f).start = s.start := rfl
@[simp] theorem State.modFind_log (f : FindSt → FindSt) (s : State) : (s.modFind f).log = s.log := rfl
@[simp] theorem State.modFind_spec (f : FindSt → FindSt) (s : State) : (s.modFind f).spec = s.spec := rfl
@[simp] theorem State.modFind_clk (f : FindSt → FindSt) (s : State) : (s.modFind f).clk = s.clk := rfl
@[simp] theorem State.modFind_alm (f : FindSt → FindSt) (s : State) : (s.modFind f).alm = s.alm := rfl
@[simp] theorem State.modFind_lcs (f : FindSt → FindSt) (s : State) : (s.modFind f).lcs = s.lcs := rfl
@[simp] theorem State.modFind_find (f : FindSt → FindSt) (s : State) : (s.modFind f).find = f s.find := rfl
@[simp] theorem State.modFind_dome (f : FindSt → FindSt) (s : State) : (s.modFind f).dome = s.dome := rfl
@[simp] theorem State.modFind_sbus (f : FindSt → FindSt) (s : State) : (s.modFind f).sbus = s.sbus := rfl
@[simp] theorem State.modFind_host (f : FindSt → FindSt) (s : State) : (s.modFind f).host = s.host := rfl
@[simp] theorem State.modFind_xlat (f : FindSt → FindSt) (s : State) : (s.modFind f).xlat = s.xlat := rfl
@[simp] theorem State.modFind_coal (f : FindSt → FindSt) (s : State) : (s.modFind f).coal = s.coal := rfl
@[simp] theorem State.modFind_med (f : FindSt → FindSt) (s : State) : (s.modFind f).med = s.med := rfl
@[simp] theorem State.modFind_drift (f : FindSt → FindSt) (s : State) : (s.modFind f).drift = s.drift := rfl
@[simp] theorem State.modFind_fld (f : FindSt → FindSt) (s : State) : (s.modFind f).fld = s.fld := rfl
@[simp] theorem State.modFind_dur (f : FindSt → FindSt) (s : State) : (s.modFind f).dur = s.dur := rfl
@[simp] theorem State.modFind_wm (f : FindSt → FindSt) (s : State) : (s.modFind f).wm = s.wm := rfl
@[simp] theorem State.modFind_ciph (f : FindSt → FindSt) (s : State) : (s.modFind f).ciph = s.ciph := rfl
@[simp] theorem State.modFind_regu (f : FindSt → FindSt) (s : State) : (s.modFind f).regu = s.regu := rfl
@[simp] theorem State.modFind_ledg (f : FindSt → FindSt) (s : State) : (s.modFind f).ledg = s.ledg := rfl
@[simp] theorem State.modFind_ring (f : FindSt → FindSt) (s : State) : (s.modFind f).ring = s.ring := rfl
@[simp] theorem State.modFind_img (f : FindSt → FindSt) (s : State) : (s.modFind f).img = s.img := rfl
@[simp] theorem State.modFind_outs (f : FindSt → FindSt) (s : State) : (s.modFind f).outs = s.outs := rfl
@[simp] theorem State.modFind_pending (f : FindSt → FindSt) (s : State) : (s.modFind f).pending = s.pending := rfl
@[simp] theorem State.modFind_freeCnt (f : FindSt → FindSt) (s : State) : (s.modFind f).freeCnt = s.freeCnt := rfl
@[simp] theorem State.modFind_now (f : FindSt → FindSt) (s : State) : (s.modFind f).now = s.now := rfl
@[simp] theorem State.modDome_regs (f : DomeSt → DomeSt) (s : State) : (s.modDome f).regs = s.regs := rfl
@[simp] theorem State.modDome_holds (f : DomeSt → DomeSt) (s : State) : (s.modDome f).holds = s.holds := rfl
@[simp] theorem State.modDome_glb (f : DomeSt → DomeSt) (s : State) : (s.modDome f).glb = s.glb := rfl
@[simp] theorem State.modDome_start (f : DomeSt → DomeSt) (s : State) : (s.modDome f).start = s.start := rfl
@[simp] theorem State.modDome_log (f : DomeSt → DomeSt) (s : State) : (s.modDome f).log = s.log := rfl
@[simp] theorem State.modDome_spec (f : DomeSt → DomeSt) (s : State) : (s.modDome f).spec = s.spec := rfl
@[simp] theorem State.modDome_clk (f : DomeSt → DomeSt) (s : State) : (s.modDome f).clk = s.clk := rfl
@[simp] theorem State.modDome_alm (f : DomeSt → DomeSt) (s : State) : (s.modDome f).alm = s.alm := rfl
@[simp] theorem State.modDome_lcs (f : DomeSt → DomeSt) (s : State) : (s.modDome f).lcs = s.lcs := rfl
@[simp] theorem State.modDome_find (f : DomeSt → DomeSt) (s : State) : (s.modDome f).find = s.find := rfl
@[simp] theorem State.modDome_dome (f : DomeSt → DomeSt) (s : State) : (s.modDome f).dome = f s.dome := rfl
@[simp] theorem State.modDome_sbus (f : DomeSt → DomeSt) (s : State) : (s.modDome f).sbus = s.sbus := rfl
@[simp] theorem State.modDome_host (f : DomeSt → DomeSt) (s : State) : (s.modDome f).host = s.host := rfl
@[simp] theorem State.modDome_xlat (f : DomeSt → DomeSt) (s : State) : (s.modDome f).xlat = s.xlat := rfl
@[simp] theorem State.modDome_coal (f : DomeSt → DomeSt) (s : State) : (s.modDome f).coal = s.coal := rfl
@[simp] theorem State.modDome_med (f : DomeSt → DomeSt) (s : State) : (s.modDome f).med = s.med := rfl
@[simp] theorem State.modDome_drift (f : DomeSt → DomeSt) (s : State) : (s.modDome f).drift = s.drift := rfl
@[simp] theorem State.modDome_fld (f : DomeSt → DomeSt) (s : State) : (s.modDome f).fld = s.fld := rfl
@[simp] theorem State.modDome_dur (f : DomeSt → DomeSt) (s : State) : (s.modDome f).dur = s.dur := rfl
@[simp] theorem State.modDome_wm (f : DomeSt → DomeSt) (s : State) : (s.modDome f).wm = s.wm := rfl
@[simp] theorem State.modDome_ciph (f : DomeSt → DomeSt) (s : State) : (s.modDome f).ciph = s.ciph := rfl
@[simp] theorem State.modDome_regu (f : DomeSt → DomeSt) (s : State) : (s.modDome f).regu = s.regu := rfl
@[simp] theorem State.modDome_ledg (f : DomeSt → DomeSt) (s : State) : (s.modDome f).ledg = s.ledg := rfl
@[simp] theorem State.modDome_ring (f : DomeSt → DomeSt) (s : State) : (s.modDome f).ring = s.ring := rfl
@[simp] theorem State.modDome_img (f : DomeSt → DomeSt) (s : State) : (s.modDome f).img = s.img := rfl
@[simp] theorem State.modDome_outs (f : DomeSt → DomeSt) (s : State) : (s.modDome f).outs = s.outs := rfl
@[simp] theorem State.modDome_pending (f : DomeSt → DomeSt) (s : State) : (s.modDome f).pending = s.pending := rfl
@[simp] theorem State.modDome_freeCnt (f : DomeSt → DomeSt) (s : State) : (s.modDome f).freeCnt = s.freeCnt := rfl
@[simp] theorem State.modDome_now (f : DomeSt → DomeSt) (s : State) : (s.modDome f).now = s.now := rfl
@[simp] theorem State.modSbus_regs (f : SbusSt → SbusSt) (s : State) : (s.modSbus f).regs = s.regs := rfl
@[simp] theorem State.modSbus_holds (f : SbusSt → SbusSt) (s : State) : (s.modSbus f).holds = s.holds := rfl
@[simp] theorem State.modSbus_glb (f : SbusSt → SbusSt) (s : State) : (s.modSbus f).glb = s.glb := rfl
@[simp] theorem State.modSbus_start (f : SbusSt → SbusSt) (s : State) : (s.modSbus f).start = s.start := rfl
@[simp] theorem State.modSbus_log (f : SbusSt → SbusSt) (s : State) : (s.modSbus f).log = s.log := rfl
@[simp] theorem State.modSbus_spec (f : SbusSt → SbusSt) (s : State) : (s.modSbus f).spec = s.spec := rfl
@[simp] theorem State.modSbus_clk (f : SbusSt → SbusSt) (s : State) : (s.modSbus f).clk = s.clk := rfl
@[simp] theorem State.modSbus_alm (f : SbusSt → SbusSt) (s : State) : (s.modSbus f).alm = s.alm := rfl
@[simp] theorem State.modSbus_lcs (f : SbusSt → SbusSt) (s : State) : (s.modSbus f).lcs = s.lcs := rfl
@[simp] theorem State.modSbus_find (f : SbusSt → SbusSt) (s : State) : (s.modSbus f).find = s.find := rfl
@[simp] theorem State.modSbus_dome (f : SbusSt → SbusSt) (s : State) : (s.modSbus f).dome = s.dome := rfl
@[simp] theorem State.modSbus_sbus (f : SbusSt → SbusSt) (s : State) : (s.modSbus f).sbus = f s.sbus := rfl
@[simp] theorem State.modSbus_host (f : SbusSt → SbusSt) (s : State) : (s.modSbus f).host = s.host := rfl
@[simp] theorem State.modSbus_xlat (f : SbusSt → SbusSt) (s : State) : (s.modSbus f).xlat = s.xlat := rfl
@[simp] theorem State.modSbus_coal (f : SbusSt → SbusSt) (s : State) : (s.modSbus f).coal = s.coal := rfl
@[simp] theorem State.modSbus_med (f : SbusSt → SbusSt) (s : State) : (s.modSbus f).med = s.med := rfl
@[simp] theorem State.modSbus_drift (f : SbusSt → SbusSt) (s : State) : (s.modSbus f).drift = s.drift := rfl
@[simp] theorem State.modSbus_fld (f : SbusSt → SbusSt) (s : State) : (s.modSbus f).fld = s.fld := rfl
@[simp] theorem State.modSbus_dur (f : SbusSt → SbusSt) (s : State) : (s.modSbus f).dur = s.dur := rfl
@[simp] theorem State.modSbus_wm (f : SbusSt → SbusSt) (s : State) : (s.modSbus f).wm = s.wm := rfl
@[simp] theorem State.modSbus_ciph (f : SbusSt → SbusSt) (s : State) : (s.modSbus f).ciph = s.ciph := rfl
@[simp] theorem State.modSbus_regu (f : SbusSt → SbusSt) (s : State) : (s.modSbus f).regu = s.regu := rfl
@[simp] theorem State.modSbus_ledg (f : SbusSt → SbusSt) (s : State) : (s.modSbus f).ledg = s.ledg := rfl
@[simp] theorem State.modSbus_ring (f : SbusSt → SbusSt) (s : State) : (s.modSbus f).ring = s.ring := rfl
@[simp] theorem State.modSbus_img (f : SbusSt → SbusSt) (s : State) : (s.modSbus f).img = s.img := rfl
@[simp] theorem State.modSbus_outs (f : SbusSt → SbusSt) (s : State) : (s.modSbus f).outs = s.outs := rfl
@[simp] theorem State.modSbus_pending (f : SbusSt → SbusSt) (s : State) : (s.modSbus f).pending = s.pending := rfl
@[simp] theorem State.modSbus_freeCnt (f : SbusSt → SbusSt) (s : State) : (s.modSbus f).freeCnt = s.freeCnt := rfl
@[simp] theorem State.modSbus_now (f : SbusSt → SbusSt) (s : State) : (s.modSbus f).now = s.now := rfl
@[simp] theorem State.modHost_regs (f : HostSt → HostSt) (s : State) : (s.modHost f).regs = s.regs := rfl
@[simp] theorem State.modHost_holds (f : HostSt → HostSt) (s : State) : (s.modHost f).holds = s.holds := rfl
@[simp] theorem State.modHost_glb (f : HostSt → HostSt) (s : State) : (s.modHost f).glb = s.glb := rfl
@[simp] theorem State.modHost_start (f : HostSt → HostSt) (s : State) : (s.modHost f).start = s.start := rfl
@[simp] theorem State.modHost_log (f : HostSt → HostSt) (s : State) : (s.modHost f).log = s.log := rfl
@[simp] theorem State.modHost_spec (f : HostSt → HostSt) (s : State) : (s.modHost f).spec = s.spec := rfl
@[simp] theorem State.modHost_clk (f : HostSt → HostSt) (s : State) : (s.modHost f).clk = s.clk := rfl
@[simp] theorem State.modHost_alm (f : HostSt → HostSt) (s : State) : (s.modHost f).alm = s.alm := rfl
@[simp] theorem State.modHost_lcs (f : HostSt → HostSt) (s : State) : (s.modHost f).lcs = s.lcs := rfl
@[simp] theorem State.modHost_find (f : HostSt → HostSt) (s : State) : (s.modHost f).find = s.find := rfl
@[simp] theorem State.modHost_dome (f : HostSt → HostSt) (s : State) : (s.modHost f).dome = s.dome := rfl
@[simp] theorem State.modHost_sbus (f : HostSt → HostSt) (s : State) : (s.modHost f).sbus = s.sbus := rfl
@[simp] theorem State.modHost_host (f : HostSt → HostSt) (s : State) : (s.modHost f).host = f s.host := rfl
@[simp] theorem State.modHost_xlat (f : HostSt → HostSt) (s : State) : (s.modHost f).xlat = s.xlat := rfl
@[simp] theorem State.modHost_coal (f : HostSt → HostSt) (s : State) : (s.modHost f).coal = s.coal := rfl
@[simp] theorem State.modHost_med (f : HostSt → HostSt) (s : State) : (s.modHost f).med = s.med := rfl
@[simp] theorem State.modHost_drift (f : HostSt → HostSt) (s : State) : (s.modHost f).drift = s.drift := rfl
@[simp] theorem State.modHost_fld (f : HostSt → HostSt) (s : State) : (s.modHost f).fld = s.fld := rfl
@[simp] theorem State.modHost_dur (f : HostSt → HostSt) (s : State) : (s.modHost f).dur = s.dur := rfl
@[simp] theorem State.modHost_wm (f : HostSt → HostSt) (s : State) : (s.modHost f).wm = s.wm := rfl
@[simp] theorem State.modHost_ciph (f : HostSt → HostSt) (s : State) : (s.modHost f).ciph = s.ciph := rfl
@[simp] theorem State.modHost_regu (f : HostSt → HostSt) (s : State) : (s.modHost f).regu = s.regu := rfl
@[simp] theorem State.modHost_ledg (f : HostSt → HostSt) (s : State) : (s.modHost f).ledg = s.ledg := rfl
@[simp] theorem State.modHost_ring (f : HostSt → HostSt) (s : State) : (s.modHost f).ring = s.ring := rfl
@[simp] theorem State.modHost_img (f : HostSt → HostSt) (s : State) : (s.modHost f).img = s.img := rfl
@[simp] theorem State.modHost_outs (f : HostSt → HostSt) (s : State) : (s.modHost f).outs = s.outs := rfl
@[simp] theorem State.modHost_pending (f : HostSt → HostSt) (s : State) : (s.modHost f).pending = s.pending := rfl
@[simp] theorem State.modHost_freeCnt (f : HostSt → HostSt) (s : State) : (s.modHost f).freeCnt = s.freeCnt := rfl
@[simp] theorem State.modHost_now (f : HostSt → HostSt) (s : State) : (s.modHost f).now = s.now := rfl
@[simp] theorem State.modXlat_regs (f : XlatSt → XlatSt) (s : State) : (s.modXlat f).regs = s.regs := rfl
@[simp] theorem State.modXlat_holds (f : XlatSt → XlatSt) (s : State) : (s.modXlat f).holds = s.holds := rfl
@[simp] theorem State.modXlat_glb (f : XlatSt → XlatSt) (s : State) : (s.modXlat f).glb = s.glb := rfl
@[simp] theorem State.modXlat_start (f : XlatSt → XlatSt) (s : State) : (s.modXlat f).start = s.start := rfl
@[simp] theorem State.modXlat_log (f : XlatSt → XlatSt) (s : State) : (s.modXlat f).log = s.log := rfl
@[simp] theorem State.modXlat_spec (f : XlatSt → XlatSt) (s : State) : (s.modXlat f).spec = s.spec := rfl
@[simp] theorem State.modXlat_clk (f : XlatSt → XlatSt) (s : State) : (s.modXlat f).clk = s.clk := rfl
@[simp] theorem State.modXlat_alm (f : XlatSt → XlatSt) (s : State) : (s.modXlat f).alm = s.alm := rfl
@[simp] theorem State.modXlat_lcs (f : XlatSt → XlatSt) (s : State) : (s.modXlat f).lcs = s.lcs := rfl
@[simp] theorem State.modXlat_find (f : XlatSt → XlatSt) (s : State) : (s.modXlat f).find = s.find := rfl
@[simp] theorem State.modXlat_dome (f : XlatSt → XlatSt) (s : State) : (s.modXlat f).dome = s.dome := rfl
@[simp] theorem State.modXlat_sbus (f : XlatSt → XlatSt) (s : State) : (s.modXlat f).sbus = s.sbus := rfl
@[simp] theorem State.modXlat_host (f : XlatSt → XlatSt) (s : State) : (s.modXlat f).host = s.host := rfl
@[simp] theorem State.modXlat_xlat (f : XlatSt → XlatSt) (s : State) : (s.modXlat f).xlat = f s.xlat := rfl
@[simp] theorem State.modXlat_coal (f : XlatSt → XlatSt) (s : State) : (s.modXlat f).coal = s.coal := rfl
@[simp] theorem State.modXlat_med (f : XlatSt → XlatSt) (s : State) : (s.modXlat f).med = s.med := rfl
@[simp] theorem State.modXlat_drift (f : XlatSt → XlatSt) (s : State) : (s.modXlat f).drift = s.drift := rfl
@[simp] theorem State.modXlat_fld (f : XlatSt → XlatSt) (s : State) : (s.modXlat f).fld = s.fld := rfl
@[simp] theorem State.modXlat_dur (f : XlatSt → XlatSt) (s : State) : (s.modXlat f).dur = s.dur := rfl
@[simp] theorem State.modXlat_wm (f : XlatSt → XlatSt) (s : State) : (s.modXlat f).wm = s.wm := rfl
@[simp] theorem State.modXlat_ciph (f : XlatSt → XlatSt) (s : State) : (s.modXlat f).ciph = s.ciph := rfl
@[simp] theorem State.modXlat_regu (f : XlatSt → XlatSt) (s : State) : (s.modXlat f).regu = s.regu := rfl
@[simp] theorem State.modXlat_ledg (f : XlatSt → XlatSt) (s : State) : (s.modXlat f).ledg = s.ledg := rfl
@[simp] theorem State.modXlat_ring (f : XlatSt → XlatSt) (s : State) : (s.modXlat f).ring = s.ring := rfl
@[simp] theorem State.modXlat_img (f : XlatSt → XlatSt) (s : State) : (s.modXlat f).img = s.img := rfl
@[simp] theorem State.modXlat_outs (f : XlatSt → XlatSt) (s : State) : (s.modXlat f).outs = s.outs := rfl
@[simp] theorem State.modXlat_pending (f : XlatSt → XlatSt) (s : State) : (s.modXlat f).pending = s.pending := rfl
@[simp] theorem State.modXlat_freeCnt (f : XlatSt → XlatSt) (s : State) : (s.modXlat f).freeCnt = s.freeCnt := rfl
@[simp] theorem State.modXlat_now (f : XlatSt → XlatSt) (s : State) : (s.modXlat f).now = s.now := rfl
@[simp] theorem State.modCoal_regs (f : CoalSt → CoalSt) (s : State) : (s.modCoal f).regs = s.regs := rfl
@[simp] theorem State.modCoal_holds (f : CoalSt → CoalSt) (s : State) : (s.modCoal f).holds = s.holds := rfl
@[simp] theorem State.modCoal_glb (f : CoalSt → CoalSt) (s : State) : (s.modCoal f).glb = s.glb := rfl
@[simp] theorem State.modCoal_start (f : CoalSt → CoalSt) (s : State) : (s.modCoal f).start = s.start := rfl
@[simp] theorem State.modCoal_log (f : CoalSt → CoalSt) (s : State) : (s.modCoal f).log = s.log := rfl
@[simp] theorem State.modCoal_spec (f : CoalSt → CoalSt) (s : State) : (s.modCoal f).spec = s.spec := rfl
@[simp] theorem State.modCoal_clk (f : CoalSt → CoalSt) (s : State) : (s.modCoal f).clk = s.clk := rfl
@[simp] theorem State.modCoal_alm (f : CoalSt → CoalSt) (s : State) : (s.modCoal f).alm = s.alm := rfl
@[simp] theorem State.modCoal_lcs (f : CoalSt → CoalSt) (s : State) : (s.modCoal f).lcs = s.lcs := rfl
@[simp] theorem State.modCoal_find (f : CoalSt → CoalSt) (s : State) : (s.modCoal f).find = s.find := rfl
@[simp] theorem State.modCoal_dome (f : CoalSt → CoalSt) (s : State) : (s.modCoal f).dome = s.dome := rfl
@[simp] theorem State.modCoal_sbus (f : CoalSt → CoalSt) (s : State) : (s.modCoal f).sbus = s.sbus := rfl
@[simp] theorem State.modCoal_host (f : CoalSt → CoalSt) (s : State) : (s.modCoal f).host = s.host := rfl
@[simp] theorem State.modCoal_xlat (f : CoalSt → CoalSt) (s : State) : (s.modCoal f).xlat = s.xlat := rfl
@[simp] theorem State.modCoal_coal (f : CoalSt → CoalSt) (s : State) : (s.modCoal f).coal = f s.coal := rfl
@[simp] theorem State.modCoal_med (f : CoalSt → CoalSt) (s : State) : (s.modCoal f).med = s.med := rfl
@[simp] theorem State.modCoal_drift (f : CoalSt → CoalSt) (s : State) : (s.modCoal f).drift = s.drift := rfl
@[simp] theorem State.modCoal_fld (f : CoalSt → CoalSt) (s : State) : (s.modCoal f).fld = s.fld := rfl
@[simp] theorem State.modCoal_dur (f : CoalSt → CoalSt) (s : State) : (s.modCoal f).dur = s.dur := rfl
@[simp] theorem State.modCoal_wm (f : CoalSt → CoalSt) (s : State) : (s.modCoal f).wm = s.wm := rfl
@[simp] theorem State.modCoal_ciph (f : CoalSt → CoalSt) (s : State) : (s.modCoal f).ciph = s.ciph := rfl
@[simp] theorem State.modCoal_regu (f : CoalSt → CoalSt) (s : State) : (s.modCoal f).regu = s.regu := rfl
@[simp] theorem State.modCoal_ledg (f : CoalSt → CoalSt) (s : State) : (s.modCoal f).ledg = s.ledg := rfl
@[simp] theorem State.modCoal_ring (f : CoalSt → CoalSt) (s : State) : (s.modCoal f).ring = s.ring := rfl
@[simp] theorem State.modCoal_img (f : CoalSt → CoalSt) (s : State) : (s.modCoal f).img = s.img := rfl
@[simp] theorem State.modCoal_outs (f : CoalSt → CoalSt) (s : State) : (s.modCoal f).outs = s.outs := rfl
@[simp] theorem State.modCoal_pending (f : CoalSt → CoalSt) (s : State) : (s.modCoal f).pending = s.pending := rfl
@[simp] theorem State.modCoal_freeCnt (f : CoalSt → CoalSt) (s : State) : (s.modCoal f).freeCnt = s.freeCnt := rfl
@[simp] theorem State.modCoal_now (f : CoalSt → CoalSt) (s : State) : (s.modCoal f).now = s.now := rfl
@[simp] theorem State.modMed_regs (f : MedSt → MedSt) (s : State) : (s.modMed f).regs = s.regs := rfl
@[simp] theorem State.modMed_holds (f : MedSt → MedSt) (s : State) : (s.modMed f).holds = s.holds := rfl
@[simp] theorem State.modMed_glb (f : MedSt → MedSt) (s : State) : (s.modMed f).glb = s.glb := rfl
@[simp] theorem State.modMed_start (f : MedSt → MedSt) (s : State) : (s.modMed f).start = s.start := rfl
@[simp] theorem State.modMed_log (f : MedSt → MedSt) (s : State) : (s.modMed f).log = s.log := rfl
@[simp] theorem State.modMed_spec (f : MedSt → MedSt) (s : State) : (s.modMed f).spec = s.spec := rfl
@[simp] theorem State.modMed_clk (f : MedSt → MedSt) (s : State) : (s.modMed f).clk = s.clk := rfl
@[simp] theorem State.modMed_alm (f : MedSt → MedSt) (s : State) : (s.modMed f).alm = s.alm := rfl
@[simp] theorem State.modMed_lcs (f : MedSt → MedSt) (s : State) : (s.modMed f).lcs = s.lcs := rfl
@[simp] theorem State.modMed_find (f : MedSt → MedSt) (s : State) : (s.modMed f).find = s.find := rfl
@[simp] theorem State.modMed_dome (f : MedSt → MedSt) (s : State) : (s.modMed f).dome = s.dome := rfl
@[simp] theorem State.modMed_sbus (f : MedSt → MedSt) (s : State) : (s.modMed f).sbus = s.sbus := rfl
@[simp] theorem State.modMed_host (f : MedSt → MedSt) (s : State) : (s.modMed f).host = s.host := rfl
@[simp] theorem State.modMed_xlat (f : MedSt → MedSt) (s : State) : (s.modMed f).xlat = s.xlat := rfl
@[simp] theorem State.modMed_coal (f : MedSt → MedSt) (s : State) : (s.modMed f).coal = s.coal := rfl
@[simp] theorem State.modMed_med (f : MedSt → MedSt) (s : State) : (s.modMed f).med = f s.med := rfl
@[simp] theorem State.modMed_drift (f : MedSt → MedSt) (s : State) : (s.modMed f).drift = s.drift := rfl
@[simp] theorem State.modMed_fld (f : MedSt → MedSt) (s : State) : (s.modMed f).fld = s.fld := rfl
@[simp] theorem State.modMed_dur (f : MedSt → MedSt) (s : State) : (s.modMed f).dur = s.dur := rfl
@[simp] theorem State.modMed_wm (f : MedSt → MedSt) (s : State) : (s.modMed f).wm = s.wm := rfl
@[simp] theorem State.modMed_ciph (f : MedSt → MedSt) (s : State) : (s.modMed f).ciph = s.ciph := rfl
@[simp] theorem State.modMed_regu (f : MedSt → MedSt) (s : State) : (s.modMed f).regu = s.regu := rfl
@[simp] theorem State.modMed_ledg (f : MedSt → MedSt) (s : State) : (s.modMed f).ledg = s.ledg := rfl
@[simp] theorem State.modMed_ring (f : MedSt → MedSt) (s : State) : (s.modMed f).ring = s.ring := rfl
@[simp] theorem State.modMed_img (f : MedSt → MedSt) (s : State) : (s.modMed f).img = s.img := rfl
@[simp] theorem State.modMed_outs (f : MedSt → MedSt) (s : State) : (s.modMed f).outs = s.outs := rfl
@[simp] theorem State.modMed_pending (f : MedSt → MedSt) (s : State) : (s.modMed f).pending = s.pending := rfl
@[simp] theorem State.modMed_freeCnt (f : MedSt → MedSt) (s : State) : (s.modMed f).freeCnt = s.freeCnt := rfl
@[simp] theorem State.modMed_now (f : MedSt → MedSt) (s : State) : (s.modMed f).now = s.now := rfl
@[simp] theorem State.modDrift_regs (f : DriftSt → DriftSt) (s : State) : (s.modDrift f).regs = s.regs := rfl
@[simp] theorem State.modDrift_holds (f : DriftSt → DriftSt) (s : State) : (s.modDrift f).holds = s.holds := rfl
@[simp] theorem State.modDrift_glb (f : DriftSt → DriftSt) (s : State) : (s.modDrift f).glb = s.glb := rfl
@[simp] theorem State.modDrift_start (f : DriftSt → DriftSt) (s : State) : (s.modDrift f).start = s.start := rfl
@[simp] theorem State.modDrift_log (f : DriftSt → DriftSt) (s : State) : (s.modDrift f).log = s.log := rfl
@[simp] theorem State.modDrift_spec (f : DriftSt → DriftSt) (s : State) : (s.modDrift f).spec = s.spec := rfl
@[simp] theorem State.modDrift_clk (f : DriftSt → DriftSt) (s : State) : (s.modDrift f).clk = s.clk := rfl
@[simp] theorem State.modDrift_alm (f : DriftSt → DriftSt) (s : State) : (s.modDrift f).alm = s.alm := rfl
@[simp] theorem State.modDrift_lcs (f : DriftSt → DriftSt) (s : State) : (s.modDrift f).lcs = s.lcs := rfl
@[simp] theorem State.modDrift_find (f : DriftSt → DriftSt) (s : State) : (s.modDrift f).find = s.find := rfl
@[simp] theorem State.modDrift_dome (f : DriftSt → DriftSt) (s : State) : (s.modDrift f).dome = s.dome := rfl
@[simp] theorem State.modDrift_sbus (f : DriftSt → DriftSt) (s : State) : (s.modDrift f).sbus = s.sbus := rfl
@[simp] theorem State.modDrift_host (f : DriftSt → DriftSt) (s : State) : (s.modDrift f).host = s.host := rfl
@[simp] theorem State.modDrift_xlat (f : DriftSt → DriftSt) (s : State) : (s.modDrift f).xlat = s.xlat := rfl
@[simp] theorem State.modDrift_coal (f : DriftSt → DriftSt) (s : State) : (s.modDrift f).coal = s.coal := rfl
@[simp] theorem State.modDrift_med (f : DriftSt → DriftSt) (s : State) : (s.modDrift f).med = s.med := rfl
@[simp] theorem State.modDrift_drift (f : DriftSt → DriftSt) (s : State) : (s.modDrift f).drift = f s.drift := rfl
@[simp] theorem State.modDrift_fld (f : DriftSt → DriftSt) (s : State) : (s.modDrift f).fld = s.fld := rfl
@[simp] theorem State.modDrift_dur (f : DriftSt → DriftSt) (s : State) : (s.modDrift f).dur = s.dur := rfl
@[simp] theorem State.modDrift_wm (f : DriftSt → DriftSt) (s : State) : (s.modDrift f).wm = s.wm := rfl
@[simp] theorem State.modDrift_ciph (f : DriftSt → DriftSt) (s : State) : (s.modDrift f).ciph = s.ciph := rfl
@[simp] theorem State.modDrift_regu (f : DriftSt → DriftSt) (s : State) : (s.modDrift f).regu = s.regu := rfl
@[simp] theorem State.modDrift_ledg (f : DriftSt → DriftSt) (s : State) : (s.modDrift f).ledg = s.ledg := rfl
@[simp] theorem State.modDrift_ring (f : DriftSt → DriftSt) (s : State) : (s.modDrift f).ring = s.ring := rfl
@[simp] theorem State.modDrift_img (f : DriftSt → DriftSt) (s : State) : (s.modDrift f).img = s.img := rfl
@[simp] theorem State.modDrift_outs (f : DriftSt → DriftSt) (s : State) : (s.modDrift f).outs = s.outs := rfl
@[simp] theorem State.modDrift_pending (f : DriftSt → DriftSt) (s : State) : (s.modDrift f).pending = s.pending := rfl
@[simp] theorem State.modDrift_freeCnt (f : DriftSt → DriftSt) (s : State) : (s.modDrift f).freeCnt = s.freeCnt := rfl
@[simp] theorem State.modDrift_now (f : DriftSt → DriftSt) (s : State) : (s.modDrift f).now = s.now := rfl
@[simp] theorem State.modFld_regs (f : FldSt → FldSt) (s : State) : (s.modFld f).regs = s.regs := rfl
@[simp] theorem State.modFld_holds (f : FldSt → FldSt) (s : State) : (s.modFld f).holds = s.holds := rfl
@[simp] theorem State.modFld_glb (f : FldSt → FldSt) (s : State) : (s.modFld f).glb = s.glb := rfl
@[simp] theorem State.modFld_start (f : FldSt → FldSt) (s : State) : (s.modFld f).start = s.start := rfl
@[simp] theorem State.modFld_log (f : FldSt → FldSt) (s : State) : (s.modFld f).log = s.log := rfl
@[simp] theorem State.modFld_spec (f : FldSt → FldSt) (s : State) : (s.modFld f).spec = s.spec := rfl
@[simp] theorem State.modFld_clk (f : FldSt → FldSt) (s : State) : (s.modFld f).clk = s.clk := rfl
@[simp] theorem State.modFld_alm (f : FldSt → FldSt) (s : State) : (s.modFld f).alm = s.alm := rfl
@[simp] theorem State.modFld_lcs (f : FldSt → FldSt) (s : State) : (s.modFld f).lcs = s.lcs := rfl
@[simp] theorem State.modFld_find (f : FldSt → FldSt) (s : State) : (s.modFld f).find = s.find := rfl
@[simp] theorem State.modFld_dome (f : FldSt → FldSt) (s : State) : (s.modFld f).dome = s.dome := rfl
@[simp] theorem State.modFld_sbus (f : FldSt → FldSt) (s : State) : (s.modFld f).sbus = s.sbus := rfl
@[simp] theorem State.modFld_host (f : FldSt → FldSt) (s : State) : (s.modFld f).host = s.host := rfl
@[simp] theorem State.modFld_xlat (f : FldSt → FldSt) (s : State) : (s.modFld f).xlat = s.xlat := rfl
@[simp] theorem State.modFld_coal (f : FldSt → FldSt) (s : State) : (s.modFld f).coal = s.coal := rfl
@[simp] theorem State.modFld_med (f : FldSt → FldSt) (s : State) : (s.modFld f).med = s.med := rfl
@[simp] theorem State.modFld_drift (f : FldSt → FldSt) (s : State) : (s.modFld f).drift = s.drift := rfl
@[simp] theorem State.modFld_fld (f : FldSt → FldSt) (s : State) : (s.modFld f).fld = f s.fld := rfl
@[simp] theorem State.modFld_dur (f : FldSt → FldSt) (s : State) : (s.modFld f).dur = s.dur := rfl
@[simp] theorem State.modFld_wm (f : FldSt → FldSt) (s : State) : (s.modFld f).wm = s.wm := rfl
@[simp] theorem State.modFld_ciph (f : FldSt → FldSt) (s : State) : (s.modFld f).ciph = s.ciph := rfl
@[simp] theorem State.modFld_regu (f : FldSt → FldSt) (s : State) : (s.modFld f).regu = s.regu := rfl
@[simp] theorem State.modFld_ledg (f : FldSt → FldSt) (s : State) : (s.modFld f).ledg = s.ledg := rfl
@[simp] theorem State.modFld_ring (f : FldSt → FldSt) (s : State) : (s.modFld f).ring = s.ring := rfl
@[simp] theorem State.modFld_img (f : FldSt → FldSt) (s : State) : (s.modFld f).img = s.img := rfl
@[simp] theorem State.modFld_outs (f : FldSt → FldSt) (s : State) : (s.modFld f).outs = s.outs := rfl
@[simp] theorem State.modFld_pending (f : FldSt → FldSt) (s : State) : (s.modFld f).pending = s.pending := rfl
@[simp] theorem State.modFld_freeCnt (f : FldSt → FldSt) (s : State) : (s.modFld f).freeCnt = s.freeCnt := rfl
@[simp] theorem State.modFld_now (f : FldSt → FldSt) (s : State) : (s.modFld f).now = s.now := rfl
@[simp] theorem State.modDur_regs (f : DurSt → DurSt) (s : State) : (s.modDur f).regs = s.regs := rfl
@[simp] theorem State.modDur_holds (f : DurSt → DurSt) (s : State) : (s.modDur f).holds = s.holds := rfl
@[simp] theorem State.modDur_glb (f : DurSt → DurSt) (s : State) : (s.modDur f).glb = s.glb := rfl
@[simp] theorem State.modDur_start (f : DurSt → DurSt) (s : State) : (s.modDur f).start = s.start := rfl
@[simp] theorem State.modDur_log (f : DurSt → DurSt) (s : State) : (s.modDur f).log = s.log := rfl
@[simp] theorem State.modDur_spec (f : DurSt → DurSt) (s : State) : (s.modDur f).spec = s.spec := rfl
@[simp] theorem State.modDur_clk (f : DurSt → DurSt) (s : State) : (s.modDur f).clk = s.clk := rfl
@[simp] theorem State.modDur_alm (f : DurSt → DurSt) (s : State) : (s.modDur f).alm = s.alm := rfl
@[simp] theorem State.modDur_lcs (f : DurSt → DurSt) (s : State) : (s.modDur f).lcs = s.lcs := rfl
@[simp] theorem State.modDur_find (f : DurSt → DurSt) (s : State) : (s.modDur f).find = s.find := rfl
@[simp] theorem State.modDur_dome (f : DurSt → DurSt) (s : State) : (s.modDur f).dome = s.dome := rfl
@[simp] theorem State.modDur_sbus (f : DurSt → DurSt) (s : State) : (s.modDur f).sbus = s.sbus := rfl
@[simp] theorem State.modDur_host (f : DurSt → DurSt) (s : State) : (s.modDur f).host = s.host := rfl
@[simp] theorem State.modDur_xlat (f : DurSt → DurSt) (s : State) : (s.modDur f).xlat = s.xlat := rfl
@[simp] theorem State.modDur_coal (f : DurSt → DurSt) (s : State) : (s.modDur f).coal = s.coal := rfl
@[simp] theorem State.modDur_med (f : DurSt → DurSt) (s : State) : (s.modDur f).med = s.med := rfl
@[simp] theorem State.modDur_drift (f : DurSt → DurSt) (s : State) : (s.modDur f).drift = s.drift := rfl
@[simp] theorem State.modDur_fld (f : DurSt → DurSt) (s : State) : (s.modDur f).fld = s.fld := rfl
@[simp] theorem State.modDur_dur (f : DurSt → DurSt) (s : State) : (s.modDur f).dur = f s.dur := rfl
@[simp] theorem State.modDur_wm (f : DurSt → DurSt) (s : State) : (s.modDur f).wm = s.wm := rfl
@[simp] theorem State.modDur_ciph (f : DurSt → DurSt) (s : State) : (s.modDur f).ciph = s.ciph := rfl
@[simp] theorem State.modDur_regu (f : DurSt → DurSt) (s : State) : (s.modDur f).regu = s.regu := rfl
@[simp] theorem State.modDur_ledg (f : DurSt → DurSt) (s : State) : (s.modDur f).ledg = s.ledg := rfl
@[simp] theorem State.modDur_ring (f : DurSt → DurSt) (s : State) : (s.modDur f).ring = s.ring := rfl
@[simp] theorem State.modDur_img (f : DurSt → DurSt) (s : State) : (s.modDur f).img = s.img := rfl
@[simp] theorem State.modDur_outs (f : DurSt → DurSt) (s : State) : (s.modDur f).outs = s.outs := rfl
@[simp] theorem State.modDur_pending (f : DurSt → DurSt) (s : State) : (s.modDur f).pending = s.pending := rfl
@[simp] theorem State.modDur_freeCnt (f : DurSt → DurSt) (s : State) : (s.modDur f).freeCnt = s.freeCnt := rfl
@[simp] theorem State.modDur_now (f : DurSt → DurSt) (s : State) : (s.modDur f).now = s.now := rfl
@[simp] theorem State.modWm_regs (f : WmSt → WmSt) (s : State) : (s.modWm f).regs = s.regs := rfl
@[simp] theorem State.modWm_holds (f : WmSt → WmSt) (s : State) : (s.modWm f).holds = s.holds := rfl
@[simp] theorem State.modWm_glb (f : WmSt → WmSt) (s : State) : (s.modWm f).glb = s.glb := rfl
@[simp] theorem State.modWm_start (f : WmSt → WmSt) (s : State) : (s.modWm f).start = s.start := rfl
@[simp] theorem State.modWm_log (f : WmSt → WmSt) (s : State) : (s.modWm f).log = s.log := rfl
@[simp] theorem State.modWm_spec (f : WmSt → WmSt) (s : State) : (s.modWm f).spec = s.spec := rfl
@[simp] theorem State.modWm_clk (f : WmSt → WmSt) (s : State) : (s.modWm f).clk = s.clk := rfl
@[simp] theorem State.modWm_alm (f : WmSt → WmSt) (s : State) : (s.modWm f).alm = s.alm := rfl
@[simp] theorem State.modWm_lcs (f : WmSt → WmSt) (s : State) : (s.modWm f).lcs = s.lcs := rfl
@[simp] theorem State.modWm_find (f : WmSt → WmSt) (s : State) : (s.modWm f).find = s.find := rfl
@[simp] theorem State.modWm_dome (f : WmSt → WmSt) (s : State) : (s.modWm f).dome = s.dome := rfl
@[simp] theorem State.modWm_sbus (f : WmSt → WmSt) (s : State) : (s.modWm f).sbus = s.sbus := rfl
@[simp] theorem State.modWm_host (f : WmSt → WmSt) (s : State) : (s.modWm f).host = s.host := rfl
@[simp] theorem State.modWm_xlat (f : WmSt → WmSt) (s : State) : (s.modWm f).xlat = s.xlat := rfl
@[simp] theorem State.modWm_coal (f : WmSt → WmSt) (s : State) : (s.modWm f).coal = s.coal := rfl
@[simp] theorem State.modWm_med (f : WmSt → WmSt) (s : State) : (s.modWm f).med = s.med := rfl
@[simp] theorem State.modWm_drift (f : WmSt → WmSt) (s : State) : (s.modWm f).drift = s.drift := rfl
@[simp] theorem State.modWm_fld (f : WmSt → WmSt) (s : State) : (s.modWm f).fld = s.fld := rfl
@[simp] theorem State.modWm_dur (f : WmSt → WmSt) (s : State) : (s.modWm f).dur = s.dur := rfl
@[simp] theorem State.modWm_wm (f : WmSt → WmSt) (s : State) : (s.modWm f).wm = f s.wm := rfl
@[simp] theorem State.modWm_ciph (f : WmSt → WmSt) (s : State) : (s.modWm f).ciph = s.ciph := rfl
@[simp] theorem State.modWm_regu (f : WmSt → WmSt) (s : State) : (s.modWm f).regu = s.regu := rfl
@[simp] theorem State.modWm_ledg (f : WmSt → WmSt) (s : State) : (s.modWm f).ledg = s.ledg := rfl
@[simp] theorem State.modWm_ring (f : WmSt → WmSt) (s : State) : (s.modWm f).ring = s.ring := rfl
@[simp] theorem State.modWm_img (f : WmSt → WmSt) (s : State) : (s.modWm f).img = s.img := rfl
@[simp] theorem State.modWm_outs (f : WmSt → WmSt) (s : State) : (s.modWm f).outs = s.outs := rfl
@[simp] theorem State.modWm_pending (f : WmSt → WmSt) (s : State) : (s.modWm f).pending = s.pending := rfl
@[simp] theorem State.modWm_freeCnt (f : WmSt → WmSt) (s : State) : (s.modWm f).freeCnt = s.freeCnt := rfl
@[simp] theorem State.modWm_now (f : WmSt → WmSt) (s : State) : (s.modWm f).now = s.now := rfl
@[simp] theorem State.modCiph_regs (f : CiphSt → CiphSt) (s : State) : (s.modCiph f).regs = s.regs := rfl
@[simp] theorem State.modCiph_holds (f : CiphSt → CiphSt) (s : State) : (s.modCiph f).holds = s.holds := rfl
@[simp] theorem State.modCiph_glb (f : CiphSt → CiphSt) (s : State) : (s.modCiph f).glb = s.glb := rfl
@[simp] theorem State.modCiph_start (f : CiphSt → CiphSt) (s : State) : (s.modCiph f).start = s.start := rfl
@[simp] theorem State.modCiph_log (f : CiphSt → CiphSt) (s : State) : (s.modCiph f).log = s.log := rfl
@[simp] theorem State.modCiph_spec (f : CiphSt → CiphSt) (s : State) : (s.modCiph f).spec = s.spec := rfl
@[simp] theorem State.modCiph_clk (f : CiphSt → CiphSt) (s : State) : (s.modCiph f).clk = s.clk := rfl
@[simp] theorem State.modCiph_alm (f : CiphSt → CiphSt) (s : State) : (s.modCiph f).alm = s.alm := rfl
@[simp] theorem State.modCiph_lcs (f : CiphSt → CiphSt) (s : State) : (s.modCiph f).lcs = s.lcs := rfl
@[simp] theorem State.modCiph_find (f : CiphSt → CiphSt) (s : State) : (s.modCiph f).find = s.find := rfl
@[simp] theorem State.modCiph_dome (f : CiphSt → CiphSt) (s : State) : (s.modCiph f).dome = s.dome := rfl
@[simp] theorem State.modCiph_sbus (f : CiphSt → CiphSt) (s : State) : (s.modCiph f).sbus = s.sbus := rfl
@[simp] theorem State.modCiph_host (f : CiphSt → CiphSt) (s : State) : (s.modCiph f).host = s.host := rfl
@[simp] theorem State.modCiph_xlat (f : CiphSt → CiphSt) (s : State) : (s.modCiph f).xlat = s.xlat := rfl
@[simp] theorem State.modCiph_coal (f : CiphSt → CiphSt) (s : State) : (s.modCiph f).coal = s.coal := rfl
@[simp] theorem State.modCiph_med (f : CiphSt → CiphSt) (s : State) : (s.modCiph f).med = s.med := rfl
@[simp] theorem State.modCiph_drift (f : CiphSt → CiphSt) (s : State) : (s.modCiph f).drift = s.drift := rfl
@[simp] theorem State.modCiph_fld (f : CiphSt → CiphSt) (s : State) : (s.modCiph f).fld = s.fld := rfl
@[simp] theorem State.modCiph_dur (f : CiphSt → CiphSt) (s : State) : (s.modCiph f).dur = s.dur := rfl
@[simp] theorem State.modCiph_wm (f : CiphSt → CiphSt) (s : State) : (s.modCiph f).wm = s.wm := rfl
@[simp] theorem State.modCiph_ciph (f : CiphSt → CiphSt) (s : State) : (s.modCiph f).ciph = f s.ciph := rfl
@[simp] theorem State.modCiph_regu (f : CiphSt → CiphSt) (s : State) : (s.modCiph f).regu = s.regu := rfl
@[simp] theorem State.modCiph_ledg (f : CiphSt → CiphSt) (s : State) : (s.modCiph f).ledg = s.ledg := rfl
@[simp] theorem State.modCiph_ring (f : CiphSt → CiphSt) (s : State) : (s.modCiph f).ring = s.ring := rfl
@[simp] theorem State.modCiph_img (f : CiphSt → CiphSt) (s : State) : (s.modCiph f).img = s.img := rfl
@[simp] theorem State.modCiph_outs (f : CiphSt → CiphSt) (s : State) : (s.modCiph f).outs = s.outs := rfl
@[simp] theorem State.modCiph_pending (f : CiphSt → CiphSt) (s : State) : (s.modCiph f).pending = s.pending := rfl
@[simp] theorem State.modCiph_freeCnt (f : CiphSt → CiphSt) (s : State) : (s.modCiph f).freeCnt = s.freeCnt := rfl
@[simp] theorem State.modCiph_now (f : CiphSt → CiphSt) (s : State) : (s.modCiph f).now = s.now := rfl
@[simp] theorem State.modRegu_regs (f : RegSt → RegSt) (s : State) : (s.modRegu f).regs = s.regs := rfl
@[simp] theorem State.modRegu_holds (f : RegSt → RegSt) (s : State) : (s.modRegu f).holds = s.holds := rfl
@[simp] theorem State.modRegu_glb (f : RegSt → RegSt) (s : State) : (s.modRegu f).glb = s.glb := rfl
@[simp] theorem State.modRegu_start (f : RegSt → RegSt) (s : State) : (s.modRegu f).start = s.start := rfl
@[simp] theorem State.modRegu_log (f : RegSt → RegSt) (s : State) : (s.modRegu f).log = s.log := rfl
@[simp] theorem State.modRegu_spec (f : RegSt → RegSt) (s : State) : (s.modRegu f).spec = s.spec := rfl
@[simp] theorem State.modRegu_clk (f : RegSt → RegSt) (s : State) : (s.modRegu f).clk = s.clk := rfl
@[simp] theorem State.modRegu_alm (f : RegSt → RegSt) (s : State) : (s.modRegu f).alm = s.alm := rfl
@[simp] theorem State.modRegu_lcs (f : RegSt → RegSt) (s : State) : (s.modRegu f).lcs = s.lcs := rfl
@[simp] theorem State.modRegu_find (f : RegSt → RegSt) (s : State) : (s.modRegu f).find = s.find := rfl
@[simp] theorem State.modRegu_dome (f : RegSt → RegSt) (s : State) : (s.modRegu f).dome = s.dome := rfl
@[simp] theorem State.modRegu_sbus (f : RegSt → RegSt) (s : State) : (s.modRegu f).sbus = s.sbus := rfl
@[simp] theorem State.modRegu_host (f : RegSt → RegSt) (s : State) : (s.modRegu f).host = s.host := rfl
@[simp] theorem State.modRegu_xlat (f : RegSt → RegSt) (s : State) : (s.modRegu f).xlat = s.xlat := rfl
@[simp] theorem State.modRegu_coal (f : RegSt → RegSt) (s : State) : (s.modRegu f).coal = s.coal := rfl
@[simp] theorem State.modRegu_med (f : RegSt → RegSt) (s : State) : (s.modRegu f).med = s.med := rfl
@[simp] theorem State.modRegu_drift (f : RegSt → RegSt) (s : State) : (s.modRegu f).drift = s.drift := rfl
@[simp] theorem State.modRegu_fld (f : RegSt → RegSt) (s : State) : (s.modRegu f).fld = s.fld := rfl
@[simp] theorem State.modRegu_dur (f : RegSt → RegSt) (s : State) : (s.modRegu f).dur = s.dur := rfl
@[simp] theorem State.modRegu_wm (f : RegSt → RegSt) (s : State) : (s.modRegu f).wm = s.wm := rfl
@[simp] theorem State.modRegu_ciph (f : RegSt → RegSt) (s : State) : (s.modRegu f).ciph = s.ciph := rfl
@[simp] theorem State.modRegu_regu (f : RegSt → RegSt) (s : State) : (s.modRegu f).regu = f s.regu := rfl
@[simp] theorem State.modRegu_ledg (f : RegSt → RegSt) (s : State) : (s.modRegu f).ledg = s.ledg := rfl
@[simp] theorem State.modRegu_ring (f : RegSt → RegSt) (s : State) : (s.modRegu f).ring = s.ring := rfl
@[simp] theorem State.modRegu_img (f : RegSt → RegSt) (s : State) : (s.modRegu f).img = s.img := rfl
@[simp] theorem State.modRegu_outs (f : RegSt → RegSt) (s : State) : (s.modRegu f).outs = s.outs := rfl
@[simp] theorem State.modRegu_pending (f : RegSt → RegSt) (s : State) : (s.modRegu f).pending = s.pending := rfl
@[simp] theorem State.modRegu_freeCnt (f : RegSt → RegSt) (s : State) : (s.modRegu f).freeCnt = s.freeCnt := rfl
@[simp] theorem State.modRegu_now (f : RegSt → RegSt) (s : State) : (s.modRegu f).now = s.now := rfl
@[simp] theorem State.modLedg_regs (f : LedgSt → LedgSt) (s : State) : (s.modLedg f).regs = s.regs := rfl
@[simp] theorem State.modLedg_holds (f : LedgSt → LedgSt) (s : State) : (s.modLedg f).holds = s.holds := rfl
@[simp] theorem State.modLedg_glb (f : LedgSt → LedgSt) (s : State) : (s.modLedg f).glb = s.glb := rfl
@[simp] theorem State.modLedg_start (f : LedgSt → LedgSt) (s : State) : (s.modLedg f).start = s.start := rfl
@[simp] theorem State.modLedg_log (f : LedgSt → LedgSt) (s : State) : (s.modLedg f).log = s.log := rfl
@[simp] theorem State.modLedg_spec (f : LedgSt → LedgSt) (s : State) : (s.modLedg f).spec = s.spec := rfl
@[simp] theorem State.modLedg_clk (f : LedgSt → LedgSt) (s : State) : (s.modLedg f).clk = s.clk := rfl
@[simp] theorem State.modLedg_alm (f : LedgSt → LedgSt) (s : State) : (s.modLedg f).alm = s.alm := rfl
@[simp] theorem State.modLedg_lcs (f : LedgSt → LedgSt) (s : State) : (s.modLedg f).lcs = s.lcs := rfl
@[simp] theorem State.modLedg_find (f : LedgSt → LedgSt) (s : State) : (s.modLedg f).find = s.find := rfl
@[simp] theorem State.modLedg_dome (f : LedgSt → LedgSt) (s : State) : (s.modLedg f).dome = s.dome := rfl
@[simp] theorem State.modLedg_sbus (f : LedgSt → LedgSt) (s : State) : (s.modLedg f).sbus = s.sbus := rfl
@[simp] theorem State.modLedg_host (f : LedgSt → LedgSt) (s : State) : (s.modLedg f).host = s.host := rfl
@[simp] theorem State.modLedg_xlat (f : LedgSt → LedgSt) (s : State) : (s.modLedg f).xlat = s.xlat := rfl
@[simp] theorem State.modLedg_coal (f : LedgSt → LedgSt) (s : State) : (s.modLedg f).coal = s.coal := rfl
@[simp] theorem State.modLedg_med (f : LedgSt → LedgSt) (s : State) : (s.modLedg f).med = s.med := rfl
@[simp] theorem State.modLedg_drift (f : LedgSt → LedgSt) (s : State) : (s.modLedg f).drift = s.drift := rfl
@[simp] theorem State.modLedg_fld (f : LedgSt → LedgSt) (s : State) : (s.modLedg f).fld = s.fld := rfl
@[simp] theorem State.modLedg_dur (f : LedgSt → LedgSt) (s : State) : (s.modLedg f).dur = s.dur := rfl
@[simp] theorem State.modLedg_wm (f : LedgSt → LedgSt) (s : State) : (s.modLedg f).wm = s.wm := rfl
@[simp] theorem State.modLedg_ciph (f : LedgSt → LedgSt) (s : State) : (s.modLedg f).ciph = s.ciph := rfl
@[simp] theorem State.modLedg_regu (f : LedgSt → LedgSt) (s : State) : (s.modLedg f).regu = s.regu := rfl
@[simp] theorem State.modLedg_ledg (f : LedgSt → LedgSt) (s : State) : (s.modLedg f).ledg = f s.ledg := rfl
@[simp] theorem State.modLedg_ring (f : LedgSt → LedgSt) (s : State) : (s.modLedg f).ring = s.ring := rfl
@[simp] theorem State.modLedg_img (f : LedgSt → LedgSt) (s : State) : (s.modLedg f).img = s.img := rfl
@[simp] theorem State.modLedg_outs (f : LedgSt → LedgSt) (s : State) : (s.modLedg f).outs = s.outs := rfl
@[simp] theorem State.modLedg_pending (f : LedgSt → LedgSt) (s : State) : (s.modLedg f).pending = s.pending := rfl
@[simp] theorem State.modLedg_freeCnt (f : LedgSt → LedgSt) (s : State) : (s.modLedg f).freeCnt = s.freeCnt := rfl
@[simp] theorem State.modLedg_now (f : LedgSt → LedgSt) (s : State) : (s.modLedg f).now = s.now := rfl
@[simp] theorem State.modRing_regs (f : RingSt → RingSt) (s : State) : (s.modRing f).regs = s.regs := rfl
@[simp] theorem State.modRing_holds (f : RingSt → RingSt) (s : State) : (s.modRing f).holds = s.holds := rfl
@[simp] theorem State.modRing_glb (f : RingSt → RingSt) (s : State) : (s.modRing f).glb = s.glb := rfl
@[simp] theorem State.modRing_start (f : RingSt → RingSt) (s : State) : (s.modRing f).start = s.start := rfl
@[simp] theorem State.modRing_log (f : RingSt → RingSt) (s : State) : (s.modRing f).log = s.log := rfl
@[simp] theorem State.modRing_spec (f : RingSt → RingSt) (s : State) : (s.modRing f).spec = s.spec := rfl
@[simp] theorem State.modRing_clk (f : RingSt → RingSt) (s : State) : (s.modRing f).clk = s.clk := rfl
@[simp] theorem State.modRing_alm (f : RingSt → RingSt) (s : State) : (s.modRing f).alm = s.alm := rfl
@[simp] theorem State.modRing_lcs (f : RingSt → RingSt) (s : State) : (s.modRing f).lcs = s.lcs := rfl
@[simp] theorem State.modRing_find (f : RingSt → RingSt) (s : State) : (s.modRing f).find = s.find := rfl
@[simp] theorem State.modRing_dome (f : RingSt → RingSt) (s : State) : (s.modRing f).dome = s.dome := rfl
@[simp] theorem State.modRing_sbus (f : RingSt → RingSt) (s : State) : (s.modRing f).sbus = s.sbus := rfl
@[simp] theorem State.modRing_host (f : RingSt → RingSt) (s : State) : (s.modRing f).host = s.host := rfl
@[simp] theorem State.modRing_xlat (f : RingSt → RingSt) (s : State) : (s.modRing f).xlat = s.xlat := rfl
@[simp] theorem State.modRing_coal (f : RingSt → RingSt) (s : State) : (s.modRing f).coal = s.coal := rfl
@[simp] theorem State.modRing_med (f : RingSt → RingSt) (s : State) : (s.modRing f).med = s.med := rfl
@[simp] theorem State.modRing_drift (f : RingSt → RingSt) (s : State) : (s.modRing f).drift = s.drift := rfl
@[simp] theorem State.modRing_fld (f : RingSt → RingSt) (s : State) : (s.modRing f).fld = s.fld := rfl
@[simp] theorem State.modRing_dur (f : RingSt → RingSt) (s : State) : (s.modRing f).dur = s.dur := rfl
@[simp] theorem State.modRing_wm (f : RingSt → RingSt) (s : State) : (s.modRing f).wm = s.wm := rfl
@[simp] theorem State.modRing_ciph (f : RingSt → RingSt) (s : State) : (s.modRing f).ciph = s.ciph := rfl
@[simp] theorem State.modRing_regu (f : RingSt → RingSt) (s : State) : (s.modRing f).regu = s.regu := rfl
@[simp] theorem State.modRing_ledg (f : RingSt → RingSt) (s : State) : (s.modRing f).ledg = s.ledg := rfl
@[simp] theorem State.modRing_ring (f : RingSt → RingSt) (s : State) : (s.modRing f).ring = f s.ring := rfl
@[simp] theorem State.modRing_img (f : RingSt → RingSt) (s : State) : (s.modRing f).img = s.img := rfl
@[simp] theorem State.modRing_outs (f : RingSt → RingSt) (s : State) : (s.modRing f).outs = s.outs := rfl
@[simp] theorem State.modRing_pending (f : RingSt → RingSt) (s : State) : (s.modRing f).pending = s.pending := rfl
@[simp] theorem State.modRing_freeCnt (f : RingSt → RingSt) (s : State) : (s.modRing f).freeCnt = s.freeCnt := rfl
@[simp] theorem State.modRing_now (f : RingSt → RingSt) (s : State) : (s.modRing f).now = s.now := rfl
@[simp] theorem State.modImg_regs (f : ImgSt → ImgSt) (s : State) : (s.modImg f).regs = s.regs := rfl
@[simp] theorem State.modImg_holds (f : ImgSt → ImgSt) (s : State) : (s.modImg f).holds = s.holds := rfl
@[simp] theorem State.modImg_glb (f : ImgSt → ImgSt) (s : State) : (s.modImg f).glb = s.glb := rfl
@[simp] theorem State.modImg_start (f : ImgSt → ImgSt) (s : State) : (s.modImg f).start = s.start := rfl
@[simp] theorem State.modImg_log (f : ImgSt → ImgSt) (s : State) : (s.modImg f).log = s.log := rfl
@[simp] theorem State.modImg_spec (f : ImgSt → ImgSt) (s : State) : (s.modImg f).spec = s.spec := rfl
@[simp] theorem State.modImg_clk (f : ImgSt → ImgSt) (s : State) : (s.modImg f).clk = s.clk := rfl
@[simp] theorem State.modImg_alm (f : ImgSt → ImgSt) (s : State) : (s.modImg f).alm = s.alm := rfl
@[simp] theorem State.modImg_lcs (f : ImgSt → ImgSt) (s : State) : (s.modImg f).lcs = s.lcs := rfl
@[simp] theorem State.modImg_find (f : ImgSt → ImgSt) (s : State) : (s.modImg f).find = s.find := rfl
@[simp] theorem State.modImg_dome (f : ImgSt → ImgSt) (s : State) : (s.modImg f).dome = s.dome := rfl
@[simp] theorem State.modImg_sbus (f : ImgSt → ImgSt) (s : State) : (s.modImg f).sbus = s.sbus := rfl
@[simp] theorem State.modImg_host (f : ImgSt → ImgSt) (s : State) : (s.modImg f).host = s.host := rfl
@[simp] theorem State.modImg_xlat (f : ImgSt → ImgSt) (s : State) : (s.modImg f).xlat = s.xlat := rfl
@[simp] theorem State.modImg_coal (f : ImgSt → ImgSt) (s : State) : (s.modImg f).coal = s.coal := rfl
@[simp] theorem State.modImg_med (f : ImgSt → ImgSt) (s : State) : (s.modImg f).med = s.med := rfl
@[simp] theorem State.modImg_drift (f : ImgSt → ImgSt) (s : State) : (s.modImg f).drift = s.drift := rfl
@[simp] theorem State.modImg_fld (f : ImgSt → ImgSt) (s : State) : (s.modImg f).fld = s.fld := rfl
@[simp] theorem State.modImg_dur (f : ImgSt → ImgSt) (s : State) : (s.modImg f).dur = s.dur := rfl
@[simp] theorem State.modImg_wm (f : ImgSt → ImgSt) (s : State) : (s.modImg f).wm = s.wm := rfl
@[simp] theorem State.modImg_ciph (f : ImgSt → ImgSt) (s : State) : (s.modImg f).ciph = s.ciph := rfl
@[simp] theorem State.modImg_regu (f : ImgSt → ImgSt) (s : State) : (s.modImg f).regu = s.regu := rfl
@[simp] theorem State.modImg_ledg (f : ImgSt → ImgSt) (s : State) : (s.modImg f).ledg = s.ledg := rfl
@[simp] theorem State.modImg_ring (f : ImgSt → ImgSt) (s : State) : (s.modImg f).ring = s.ring := rfl
@[simp] theorem State.modImg_img (f : ImgSt → ImgSt) (s : State) : (s.modImg f).img = f s.img := rfl
@[simp] theorem State.modImg_outs (f : ImgSt → ImgSt) (s : State) : (s.modImg f).outs = s.outs := rfl
@[simp] theorem State.modImg_pending (f : ImgSt → ImgSt) (s : State) : (s.modImg f).pending = s.pending := rfl
@[simp] theorem State.modImg_freeCnt (f : ImgSt → ImgSt) (s : State) : (s.modImg f).freeCnt = s.freeCnt := rfl
@[simp] theorem State.modImg_now (f : ImgSt → ImgSt) (s : State) : (s.modImg f).now = s.now := rfl
@[simp] theorem State.modOuts_regs (f : List Out → List Out) (s : State) : (s.modOuts f).regs = s.regs := rfl
@[simp] theorem State.modOuts_holds (f : List Out → List Out) (s : State) : (s.modOuts f).holds = s.holds := rfl
@[simp] theorem State.modOuts_glb (f : List Out → List Out) (s : State) : (s.modOuts f).glb = s.glb := rfl
@[simp] theorem State.modOuts_start (f : List Out → List Out) (s : State) : (s.modOuts f).start = s.start := rfl
@[simp] theorem State.modOuts_log (f : List Out → List Out) (s : State) : (s.modOuts f).log = s.log := rfl
@[simp] theorem State.modOuts_spec (f : List Out → List Out) (s : State) : (s.modOuts f).spec = s.spec := rfl
@[simp] theorem State.modOuts_clk (f : List Out → List Out) (s : State) : (s.modOuts f).clk = s.clk := rfl
@[simp] theorem State.modOuts_alm (f : List Out → List Out) (s : State) : (s.modOuts f).alm = s.alm := rfl
@[simp] theorem State.modOuts_lcs (f : List Out → List Out) (s : State) : (s.modOuts f).lcs = s.lcs := rfl
@[simp] theorem State.modOuts_find (f : List Out → List Out) (s : State) : (s.modOuts f).find = s.find := rfl
@[simp] theorem State.modOuts_dome (f : List Out → List Out) (s : State) : (s.modOuts f).dome = s.dome := rfl
@[simp] theorem State.modOuts_sbus (f : List Out → List Out) (s : State) : (s.modOuts f).sbus = s.sbus := rfl
@[simp] theorem State.modOuts_host (f : List Out → List Out) (s : State) : (s.modOuts f).host = s.host := rfl
@[simp] theorem State.modOuts_xlat (f : List Out → List Out) (s : State) : (s.modOuts f).xlat = s.xlat := rfl
@[simp] theorem State.modOuts_coal (f : List Out → List Out) (s : State) : (s.modOuts f).coal = s.coal := rfl
@[simp] theorem State.modOuts_med (f : List Out → List Out) (s : State) : (s.modOuts f).med = s.med := rfl
@[simp] theorem State.modOuts_drift (f : List Out → List Out) (s : State) : (s.modOuts f).drift = s.drift := rfl
@[simp] theorem State.modOuts_fld (f : List Out → List Out) (s : State) : (s.modOuts f).fld = s.fld := rfl
@[simp] theorem State.modOuts_dur (f : List Out → List Out) (s : State) : (s.modOuts f).dur = s.dur := rfl
@[simp] theorem State.modOuts_wm (f : List Out → List Out) (s : State) : (s.modOuts f).wm = s.wm := rfl
@[simp] theorem State.modOuts_ciph (f : List Out → List Out) (s : State) : (s.modOuts f).ciph = s.ciph := rfl
@[simp] theorem State.modOuts_regu (f : List Out → List Out) (s : State) : (s.modOuts f).regu = s.regu := rfl
@[simp] theorem State.modOuts_ledg (f : List Out → List Out) (s : State) : (s.modOuts f).ledg = s.ledg := rfl
@[simp] theorem State.modOuts_ring (f : List Out → List Out) (s : State) : (s.modOuts f).ring = s.ring := rfl
@[simp] theorem State.modOuts_img (f : List Out → List Out) (s : State) : (s.modOuts f).img = s.img := rfl
@[simp] theorem State.modOuts_outs (f : List Out → List Out) (s : State) : (s.modOuts f).outs = f s.outs := rfl
@[simp] theorem State.modOuts_pending (f : List Out → List Out) (s : State) : (s.modOuts f).pending = s.pending := rfl
@[simp] theorem State.modOuts_freeCnt (f : List Out → List Out) (s : State) : (s.modOuts f).freeCnt = s.freeCnt := rfl
@[simp] theorem State.modOuts_now (f : List Out → List Out) (s : State) : (s.modOuts f).now = s.now := rfl
@[simp] theorem State.modPending_regs (f : List Instr → List Instr) (s : State) : (s.modPending f).regs = s.regs := rfl
@[simp] theorem State.modPending_holds (f : List Instr → List Instr) (s : State) : (s.modPending f).holds = s.holds := rfl
@[simp] theorem State.modPending_glb (f : List Instr → List Instr) (s : State) : (s.modPending f).glb = s.glb := rfl
@[simp] theorem State.modPending_start (f : List Instr → List Instr) (s : State) : (s.modPending f).start = s.start := rfl
@[simp] theorem State.modPending_log (f : List Instr → List Instr) (s : State) : (s.modPending f).log = s.log := rfl
@[simp] theorem State.modPending_spec (f : List Instr → List Instr) (s : State) : (s.modPending f).spec = s.spec := rfl
@[simp] theorem State.modPending_clk (f : List Instr → List Instr) (s : State) : (s.modPending f).clk = s.clk := rfl
@[simp] theorem State.modPending_alm (f : List Instr → List Instr) (s : State) : (s.modPending f).alm = s.alm := rfl
@[simp] theorem State.modPending_lcs (f : List Instr → List Instr) (s : State) : (s.modPending f).lcs = s.lcs := rfl
@[simp] theorem State.modPending_find (f : List Instr → List Instr) (s : State) : (s.modPending f).find = s.find := rfl
@[simp] theorem State.modPending_dome (f : List Instr → List Instr) (s : State) : (s.modPending f).dome = s.dome := rfl
@[simp] theorem State.modPending_sbus (f : List Instr → List Instr) (s : State) : (s.modPending f).sbus = s.sbus := rfl
@[simp] theorem State.modPending_host (f : List Instr → List Instr) (s : State) : (s.modPending f).host = s.host := rfl
@[simp] theorem State.modPending_xlat (f : List Instr → List Instr) (s : State) : (s.modPending f).xlat = s.xlat := rfl
@[simp] theorem State.modPending_coal (f : List Instr → List Instr) (s : State) : (s.modPending f).coal = s.coal := rfl
@[simp] theorem State.modPending_med (f : List Instr → List Instr) (s : State) : (s.modPending f).med = s.med := rfl
@[simp] theorem State.modPending_drift (f : List Instr → List Instr) (s : State) : (s.modPending f).drift = s.drift := rfl
@[simp] theorem State.modPending_fld (f : List Instr → List Instr) (s : State) : (s.modPending f).fld = s.fld := rfl
@[simp] theorem State.modPending_dur (f : List Instr → List Instr) (s : State) : (s.modPending f).dur = s.dur := rfl
@[simp] theorem State.modPending_wm (f : List Instr → List Instr) (s : State) : (s.modPending f).wm = s.wm := rfl
@[simp] theorem State.modPending_ciph (f : List Instr → List Instr) (s : State) : (s.modPending f).ciph = s.ciph := rfl
@[simp] theorem State.modPending_regu (f : List Instr → List Instr) (s : State) : (s.modPending f).regu = s.regu := rfl
@[simp] theorem State.modPending_ledg (f : List Instr → List Instr) (s : State) : (s.modPending f).ledg = s.ledg := rfl
@[simp] theorem State.modPending_ring (f : List Instr → List Instr) (s : State) : (s.modPending f).ring = s.ring := rfl
@[simp] theorem State.modPending_img (f : List Instr → List Instr) (s : State) : (s.modPending f).img = s.img := rfl
@[simp] theorem State.modPending_outs (f : List Instr → List Instr) (s : State) : (s.modPending f).outs = s.outs := rfl
@[simp] theorem State.modPending_pending (f : List Instr → List Instr) (s : State) : (s.modPending f).pending = f s.pending := rfl
@[simp] theorem State.modPending_freeCnt (f : List Instr → List Instr) (s : State) : (s.modPending f).freeCnt = s.freeCnt := rfl
@[simp] theorem State.modPending_now (f : List Instr → List Instr) (s : State) : (s.modPending f).now = s.now := rfl
@[simp] theorem State.modFreeCnt_regs (f : Nat → Nat) (s : State) : (s.modFreeCnt f).regs = s.regs := rfl
@[simp] theorem State.modFreeCnt_holds (f : Nat → Nat) (s : State) : (s.modFreeCnt f).holds = s.holds := rfl
@[simp] theorem State.modFreeCnt_glb (f : Nat → Nat) (s : State) : (s.modFreeCnt f).glb = s.glb := rfl
@[simp] theorem State.modFreeCnt_start (f : Nat → Nat) (s : State) : (s.modFreeCnt f).start = s.start := rfl
@[simp] theorem State.modFreeCnt_log (f : Nat → Nat) (s : State) : (s.modFreeCnt f).log = s.log := rfl
@[simp] theorem State.modFreeCnt_spec (f : Nat → Nat) (s : State) : (s.modFreeCnt f).spec = s.spec := rfl
@[simp] theorem State.modFreeCnt_clk (f : Nat → Nat) (s : State) : (s.modFreeCnt f).clk = s.clk := rfl
@[simp] theorem State.modFreeCnt_alm (f : Nat → Nat) (s : State) : (s.modFreeCnt f).alm = s.alm := rfl
@[simp] theorem State.modFreeCnt_lcs (f : Nat → Nat) (s : State) : (s.modFreeCnt f).lcs = s.lcs := rfl
@[simp] theorem State.modFreeCnt_find (f : Nat → Nat) (s : State) : (s.modFreeCnt f).find = s.find := rfl
@[simp] theorem State.modFreeCnt_dome (f : Nat → Nat) (s : State) : (s.modFreeCnt f).dome = s.dome := rfl
@[simp] theorem State.modFreeCnt_sbus (f : Nat → Nat) (s : State) : (s.modFreeCnt f).sbus = s.sbus := rfl
@[simp] theorem State.modFreeCnt_host (f : Nat → Nat) (s : State) : (s.modFreeCnt f).host = s.host := rfl
@[simp] theorem State.modFreeCnt_xlat (f : Nat → Nat) (s : State) : (s.modFreeCnt f).xlat = s.xlat := rfl
@[simp] theorem State.modFreeCnt_coal (f : Nat → Nat) (s : State) : (s.modFreeCnt f).coal = s.coal := rfl
@[simp] theorem State.modFreeCnt_med (f : Nat → Nat) (s : State) : (s.modFreeCnt f).med = s.med := rfl
@[simp] theorem State.modFreeCnt_drift (f : Nat → Nat) (s : State) : (s.modFreeCnt f).drift = s.drift := rfl
@[simp] theorem State.modFreeCnt_fld (f : Nat → Nat) (s : State) : (s.modFreeCnt f).fld = s.fld := rfl
@[simp] theorem State.modFreeCnt_dur (f : Nat → Nat) (s : State) : (s.modFreeCnt f).dur = s.dur := rfl
@[simp] theorem State.modFreeCnt_wm (f : Nat → Nat) (s : State) : (s.modFreeCnt f).wm = s.wm := rfl
@[simp] theorem State.modFreeCnt_ciph (f : Nat → Nat) (s : State) : (s.modFreeCnt f).ciph = s.ciph := rfl
@[simp] theorem State.modFreeCnt_regu (f : Nat → Nat) (s : State) : (s.modFreeCnt f).regu = s.regu := rfl
@[simp] theorem State.modFreeCnt_ledg (f : Nat → Nat) (s : State) : (s.modFreeCnt f).ledg = s.ledg := rfl
@[simp] theorem State.modFreeCnt_ring (f : Nat → Nat) (s : State) : (s.modFreeCnt f).ring = s.ring := rfl
@[simp] theorem State.modFreeCnt_img (f : Nat → Nat) (s : State) : (s.modFreeCnt f).img = s.img := rfl
@[simp] theorem State.modFreeCnt_outs (f : Nat → Nat) (s : State) : (s.modFreeCnt f).outs = s.outs := rfl
@[simp] theorem State.modFreeCnt_pending (f : Nat → Nat) (s : State) : (s.modFreeCnt f).pending = s.pending := rfl
@[simp] theorem State.modFreeCnt_freeCnt (f : Nat → Nat) (s : State) : (s.modFreeCnt f).freeCnt = f s.freeCnt := rfl
@[simp] theorem State.modFreeCnt_now (f : Nat → Nat) (s : State) : (s.modFreeCnt f).now = s.now := rfl
@[simp] theorem State.modNow_regs (f : Nat → Nat) (s : State) : (s.modNow f).regs = s.regs := rfl
@[simp] theorem State.modNow_holds (f : Nat → Nat) (s : State) : (s.modNow f).holds = s.holds := rfl
@[simp] theorem State.modNow_glb (f : Nat → Nat) (s : State) : (s.modNow f).glb = s.glb := rfl
@[simp] theorem State.modNow_start (f : Nat → Nat) (s : State) : (s.modNow f).start = s.start := rfl
@[simp] theorem State.modNow_log (f : Nat → Nat) (s : State) : (s.modNow f).log = s.log := rfl
@[simp] theorem State.modNow_spec (f : Nat → Nat) (s : State) : (s.modNow f).spec = s.spec := rfl
@[simp] theorem State.modNow_clk (f : Nat → Nat) (s : State) : (s.modNow f).clk = s.clk := rfl
@[simp] theorem State.modNow_alm (f : Nat → Nat) (s : State) : (s.modNow f).alm = s.alm := rfl
@[simp] theorem State.modNow_lcs (f : Nat → Nat) (s : State) : (s.modNow f).lcs = s.lcs := rfl
@[simp] theorem State.modNow_find (f : Nat → Nat) (s : State) : (s.modNow f).find = s.find := rfl
@[simp] theorem State.modNow_dome (f : Nat → Nat) (s : State) : (s.modNow f).dome = s.dome := rfl
@[simp] theorem State.modNow_sbus (f : Nat → Nat) (s : State) : (s.modNow f).sbus = s.sbus := rfl
@[simp] theorem State.modNow_host (f : Nat → Nat) (s : State) : (s.modNow f).host = s.host := rfl
@[simp] theorem State.modNow_xlat (f : Nat → Nat) (s : State) : (s.modNow f).xlat = s.xlat := rfl
@[simp] theorem State.modNow_coal (f : Nat → Nat) (s : State) : (s.modNow f).coal = s.coal := rfl
@[simp] theorem State.modNow_med (f : Nat → Nat) (s : State) : (s.modNow f).med = s.med := rfl
@[simp] theorem State.modNow_drift (f : Nat → Nat) (s : State) : (s.modNow f).drift = s.drift := rfl
@[simp] theorem State.modNow_fld (f : Nat → Nat) (s : State) : (s.modNow f).fld = s.fld := rfl
@[simp] theorem State.modNow_dur (f : Nat → Nat) (s : State) : (s.modNow f).dur = s.dur := rfl
@[simp] theorem State.modNow_wm (f : Nat → Nat) (s : State) : (s.modNow f).wm = s.wm := rfl
@[simp] theorem State.modNow_ciph (f : Nat → Nat) (s : State) : (s.modNow f).ciph = s.ciph := rfl
@[simp] theorem State.modNow_regu (f : Nat → Nat) (s : State) : (s.modNow f).regu = s.regu := rfl
@[simp] theorem State.modNow_ledg (f : Nat → Nat) (s : State) : (s.modNow f).ledg = s.ledg := rfl
@[simp] theorem State.modNow_ring (f : Nat → Nat) (s : State) : (s.modNow f).ring = s.ring := rfl
@[simp] theorem State.modNow_img (f : Nat → Nat) (s : State) : (s.modNow f).img = s.img := rfl
@[simp] theorem State.modNow_outs (f : Nat → Nat) (s : State) : (s.modNow f).outs = s.outs := rfl
@[simp] theorem State.modNow_pending (f : Nat → Nat) (s : State) : (s.modNow f).pending = s.pending := rfl
@[simp] theorem State.modNow_freeCnt (f : Nat → Nat) (s : State) : (s.modNow f).freeCnt = s.freeCnt := rfl
@[simp] theorem State.modNow_now (f : Nat → Nat) (s : State) : (s.modNow f).now = f s.now := rfl

end Sys2Proof.Machine
end

