-- ==== Sys2Proof/Laws/Ops.lean ====
section
/-! SUPPORT. What the shared operations do: the register fields after each of them, and what else they touch. -/

namespace Sys2Proof.Machine

/-! ### Register fields -/

@[simp] theorem State.get_setF_self (f : Fld) (v : Nat) (s : State) : (setF f v s).get f = v % 2 ^ f.wid :=
  tgetD_tput_self _ _ _ _

theorem State.get_setF_ne {f g : Fld} (v : Nat) (s : State) (h : g.key ≠ f.key) : (setF f v s).get g = s.get g :=
  tgetD_tput_ne _ _ _ h

/-- A field that a value fits into reads as it was set. -/
theorem State.get_setF_lt {f : Fld} {v : Nat} (s : State) (h : v < 2 ^ f.wid) : (setF f v s).get f = v := by
  rw [State.get_setF_self, Nat.mod_eq_of_lt h]

theorem State.get_setB_self {f : Fld} (b : Bool) (s : State) (h : 0 < f.wid) : (setB f b s).get f = b.toNat := by
  apply State.get_setF_lt
  have : 2 ^ 1 ≤ 2 ^ f.wid := Nat.pow_le_pow_right (by omega) h
  cases b <;> simp <;> omega

/-- Fields read the register file alone. -/
theorem State.get_congr {s t : State} (h : s.regs = t.regs) (f : Fld) : s.get f = t.get f := by
  unfold State.get
  rw [h]

theorem State.on_congr {s t : State} (h : s.regs = t.regs) (f : Fld) : s.on f = t.on f := by
  unfold State.on
  rw [State.get_congr h]

@[simp] theorem State.get_modHolds (f) (s : State) (g : Fld) : (s.modHolds f).get g = s.get g := rfl
@[simp] theorem State.get_modGlb (f) (s : State) (g : Fld) : (s.modGlb f).get g = s.get g := rfl
@[simp] theorem State.get_modStart (f) (s : State) (g : Fld) : (s.modStart f).get g = s.get g := rfl
@[simp] theorem State.get_modLog (f) (s : State) (g : Fld) : (s.modLog f).get g = s.get g := rfl
@[simp] theorem State.get_modSpec (f) (s : State) (g : Fld) : (s.modSpec f).get g = s.get g := rfl
@[simp] theorem State.get_modClk (f) (s : State) (g : Fld) : (s.modClk f).get g = s.get g := rfl
@[simp] theorem State.get_modAlm (f) (s : State) (g : Fld) : (s.modAlm f).get g = s.get g := rfl
@[simp] theorem State.get_modLcs (f) (s : State) (g : Fld) : (s.modLcs f).get g = s.get g := rfl
@[simp] theorem State.get_modFind (f) (s : State) (g : Fld) : (s.modFind f).get g = s.get g := rfl
@[simp] theorem State.get_modDome (f) (s : State) (g : Fld) : (s.modDome f).get g = s.get g := rfl
@[simp] theorem State.get_modSbus (f) (s : State) (g : Fld) : (s.modSbus f).get g = s.get g := rfl
@[simp] theorem State.get_modHost (f) (s : State) (g : Fld) : (s.modHost f).get g = s.get g := rfl
@[simp] theorem State.get_modXlat (f) (s : State) (g : Fld) : (s.modXlat f).get g = s.get g := rfl
@[simp] theorem State.get_modCoal (f) (s : State) (g : Fld) : (s.modCoal f).get g = s.get g := rfl
@[simp] theorem State.get_modMed (f) (s : State) (g : Fld) : (s.modMed f).get g = s.get g := rfl
@[simp] theorem State.get_modDrift (f) (s : State) (g : Fld) : (s.modDrift f).get g = s.get g := rfl
@[simp] theorem State.get_modFld (f) (s : State) (g : Fld) : (s.modFld f).get g = s.get g := rfl
@[simp] theorem State.get_modDur (f) (s : State) (g : Fld) : (s.modDur f).get g = s.get g := rfl
@[simp] theorem State.get_modWm (f) (s : State) (g : Fld) : (s.modWm f).get g = s.get g := rfl
@[simp] theorem State.get_modCiph (f) (s : State) (g : Fld) : (s.modCiph f).get g = s.get g := rfl
@[simp] theorem State.get_modRegu (f) (s : State) (g : Fld) : (s.modRegu f).get g = s.get g := rfl
@[simp] theorem State.get_modLedg (f) (s : State) (g : Fld) : (s.modLedg f).get g = s.get g := rfl
@[simp] theorem State.get_modRing (f) (s : State) (g : Fld) : (s.modRing f).get g = s.get g := rfl
@[simp] theorem State.get_modImg (f) (s : State) (g : Fld) : (s.modImg f).get g = s.get g := rfl
@[simp] theorem State.get_modOuts (f) (s : State) (g : Fld) : (s.modOuts f).get g = s.get g := rfl
@[simp] theorem State.get_modPending (f) (s : State) (g : Fld) : (s.modPending f).get g = s.get g := rfl
@[simp] theorem State.get_modFreeCnt (f) (s : State) (g : Fld) : (s.modFreeCnt f).get g = s.get g := rfl
@[simp] theorem State.get_modNow (f) (s : State) (g : Fld) : (s.modNow f).get g = s.get g := rfl

/-! ### Outputs, causes, counters, the logbook -/

@[simp] theorem emit_regs (o : Out) (s : State) : (emit o s).regs = s.regs := rfl
@[simp] theorem emit_outs (o : Out) (s : State) : (emit o s).outs = o :: s.outs := rfl
@[simp] theorem cnt_regs (b i n : Nat) (s : State) : (cnt b i n s).regs = s.regs := rfl
@[simp] theorem takeNat_regs (s : State) : (takeNat s).2.regs = s.regs := rfl

@[simp] theorem msixSend_regs (v k : Nat) (s : State) : (msixSend v k s).regs = s.regs := by
  unfold msixSend
  split <;> rfl
@[simp] theorem msixSend_glb (v k : Nat) (s : State) : (msixSend v k s).glb = s.glb := by
  unfold msixSend
  split <;> rfl

@[simp] theorem raiseInt_regs (b : Nat) (s : State) : (raiseInt b s).regs = s.regs := by
  unfold raiseInt
  dsimp only
  split
  · rfl
  · split <;> simp

/-- A cause that is raised is set. -/
theorem raiseInt_set (b : Nat) (s : State) (h : b < 32) : (raiseInt b s).glb.intStatus.getLsbD b = true := by
  unfold raiseInt
  split
  · assumption
  · dsimp only
    split <;> simp [h]

@[simp] theorem logStore_regs (code source sev p0 p1 p2 p3 : Nat) (s : State) : (logStore code source sev p0 p1 p2 p3 s).regs = s.regs := by
  unfold logStore
  dsimp only
  split
  · simp
  · rfl

@[simp] theorem logLost_regs (s : State) : (logLost s).regs = s.regs := by
  unfold logLost
  split
  · rfl
  · simp

@[simp] theorem logFrom_regs (src sev code p0 p1 p2 p3 : Nat) (s : State) : (logFrom src sev code p0 p1 p2 p3 s).regs = s.regs := by
  unfold logFrom
  split <;> simp

@[simp] theorem logPut_regs (sev code p0 p1 p2 p3 : Nat) (s : State) : (logPut sev code p0 p1 p2 p3 s).regs = s.regs :=
  logFrom_regs _ _ _ _ _ _ _ _

/-- A W1C bit that is set reads 1. -/
theorem setErr_get (f : Fld) (cause : Nat) (s : State) (h : f.wid = 1) : (setErr f cause s).get f ≠ 0 := by
  unfold setErr
  split
  · rename_i e
    simpa [State.on] using e
  · rw [State.get_congr (raiseInt_regs _ _), State.get_setF_self, h]
    decide

end Sys2Proof.Machine
end

