-- ==== Sys2Proof/WellFormed.lean ====
section
/-! DEFINITION. The shape of a command's operands that the types do not say: the lengths of the lists that the device's inputs fix,
no entry twice, values within their tables. A command that breaks it is none that the device can meet. -/

namespace Sys2Proof

open Sys2Proof.Machine

/-- No entry stands twice. -/
def distinct : List Nat → Bool
  | [] => true
  | a :: t => !t.contains a && distinct t

/-- An access of a master: 1 to 64 bytes that end within the 64 MiB of BAR0 (00_scope.md R5, R7). -/
def accessWf (off size : Nat) : Bool := decide (0 < size) && decide (size ≤ 64) && decide (off + size ≤ 2 ^ 26)

/-- A ladder step: 1 to 4, or 5 where no step served the leaf (04_media_channels.md R95). -/
def stepWf (n : Nat) : Bool := decide (n ≤ 5)

def Machine.RingLeaf.wf (l : RingLeaf) : Bool := decide (l.dpa % 256 = 0) && stepWf l.step

def Machine.LeafRes.wf (l : LeafRes) : Bool := stepWf l.step

def Machine.BadLeaf.wf (l : BadLeaf) : Bool := decide (l.row < 8192) && decide (l.leaf < 65) && stepWf l.step

def Machine.ScrubLeaf.wf (l : ScrubLeaf) : Bool := stepWf l.step

/-- Each leaf of a slot once, with a ladder step that there is. -/
def slotLeavesWf (l : List SlotLeaf) : Bool := l.all (fun x => stepWf x.step) && distinct (l.map (fun x => x.slot.val * 65 + x.leaf.val))

def Machine.WmLoc.wf (l : WmLoc) : Bool := decide (l.bits < 2 ^ 32)

def Machine.WmOut.wf : WmOut → Bool
  | .clean => true
  | .corrected l => l.wf
  | .uncorrectable l => l.wf
  | .poisoned l => l.wf

/-- A register record: 4 or 8 bytes, on their own boundary, with a value of that width (12_voxsicel_image.md R293). -/
def Machine.RegRec.wf (r : RegRec) : Bool := (r.size == 4 || r.size == 8) && decide (r.off % r.size = 0) && decide (r.val < 2 ^ (8 * r.size))

/-- A CHAN segment's offset table has 240 bytes (R294). -/
def Machine.ChanSeg.wf (c : ChanSeg) : Bool := decide (c.table.length = 240) && c.table.all (fun b => decide (b < 256))

def Machine.Image.wf (i : Image) : Bool :=
  i.global.all RegRec.wf && i.domeRegs.all RegRec.wf && i.reg.all RegRec.wf && i.sbus.all RegRec.wf && i.policy.all RegRec.wf &&
    i.chan.all (fun p => decide (p.1 < 2 ^ 32) && p.2.wf) && (match i.key with | some k => decide (k < 4) | none => true)

def imageWf : Option Image → Bool
  | some i => i.wf
  | none => true

/-- The poll asks each regulator at most once (13_dome_power.md R317). -/
def pmbWf (l : List PmbReply) : Bool := distinct (l.map (fun r => r.rail.val))

/-- The body of a frame of the shelf protocol has at most 1,464 bytes (15_shelf_bus.md R357). -/
def Machine.ShelfFrame.wf (f : ShelfFrame) : Bool := decide (f.body.length ≤ 1464)

/-- Is the command well formed? -/
def Instr.wf : Instr → Bool
  | .registerWrite _ _ off size _ => accessWf off size
  | .rcFieldRead _ _ off size => accessWf off size
  | .intMaskWrite _ _ => true
  | .modeTargetActive _ => true
  | .modeTargetQuiet _ => true
  | .modeTargetParked _ => true
  | .modeTargetStandby _ => true
  | .modeTransitionDone => true
  | .pmeToAck => true
  | .powerOn _ => true
  | .perstAssert => true
  | .perstRelease _ _ _ => true
  | .imageLoaded _ xspi0 xspi1 _ => imageWf xspi0 && imageWf xspi1
  | .ddrTrainingDone chans _ => decide (chans.length = 4)
  | .replay _ _ bad badHdr _ _ => distinct bad && distinct badHdr
  | .cxlMemReady => true
  | .memRead _ _ _ _ => true
  | .memWrite _ _ _ _ _ _ _ => true
  | .ingressRelease => true
  | .creditReturn _ _ _ => true
  | .linkDown _ => true
  | .linkUp _ _ _ _ _ _ => true
  | .aspmL1Exit _ => true
  | .ldReset _ _ => true
  | .ideMacFail _ => true
  | .ideKeySetup _ => true
  | .gpfPhase1 _ => true
  | .gpfPhase2 _ => true
  | .mailboxUnsupported _ _ => true
  | .identify _ => true
  | .backgroundOperationStatus _ => true
  | .getResponseMessageLimit _ => true
  | .getEventRecords _ _ => true
  | .clearEventRecords _ _ _ _ => true
  | .getEventInterruptPolicy _ => true
  | .setEventInterruptPolicy _ _ => true
  | .getFwInfo _ => true
  | .transferFw _ _ image => image.wf
  | .activateFwNextReset _ _ => true
  | .activateFwOnline _ _ => true
  | .getTimestamp _ => true
  | .setTimestamp _ _ => true
  | .getSupportedLogs _ => true
  | .getLog _ _ => true
  | .identifyMemoryDevice _ => true
  | .getPartitionInfo _ => true
  | .getLsa _ _ _ => true
  | .setLsa _ _ data => !data.isEmpty
  | .getHealthInfo _ => true
  | .getAlertConfiguration _ => true
  | .setAlertConfiguration _ _ _ => true
  | .getShutdownState _ => true
  | .setShutdownState _ _ => true
  | .getPoisonList _ _ _ => true
  | .injectPoison _ _ => true
  | .clearPoison _ _ _ => true
  | .getScanMediaCapabilities _ _ _ => true
  | .scanMedia _ _ _ leaves => leaves.all RingLeaf.wf
  | .getScanMediaResults _ => true
  | .sanitize _ => true
  | .secureErase _ => true
  | .getDynamicCapacityConfiguration _ => true
  | .getDynamicCapacityExtentList _ => true
  | .addDynamicCapacityResponse _ extents => !extents.isEmpty
  | .releaseDynamicCapacity _ extents => !extents.isEmpty
  | .getLdInfo _ => true
  | .getLdAllocations _ => true
  | .setLdAllocations _ alloc => distinct (alloc.map (fun a => a.1.val))
  | .arrayMoveDone => true
  | .getQosControl _ => true
  | .ivhildGetPlateMap _ => true
  | .ivhildGetFieldSummary _ => true
  | .mapFillReturn _ _ out _ => out.wf
  | .mapWritebackDone _ => true
  | .mapcWb _ _ => true
  | .mapcInv _ _ => true
  | .mapcInvAll _ _ => true
  | .mapcMaintDone => true
  | .mapcDisable _ _ => true
  | .mapcDrainDone => true
  | .mapcEnable _ _ => true
  | .scratchConvert _ _ => true
  | .scratchConvertDone => true
  | .xlatProbe _ _ => true
  | .probeResult => true
  | .sectorRebuildDone bad0 bad1 => distinct bad0 && distinct bad1
  | .gatherTimeout => true
  | .gatherMerge => true
  | .mergeMediaReadDone _ leaves => leaves.all LeafRes.wf && distinct (leaves.map (fun l => l.leaf.val))
  | .stagingPlace _ => true
  | .runHoldExpiry => true
  | .fillerTimeout _ => true
  | .fabRead _ _ _ _ _ _ offs => (offs.length == 15 || offs.length == 1)
  | .fabReadLatch _ _ _ _ => true
  | .fabReadStar _ _ _ _ _ _ _ => true
  | .fabProgram _ _ _ rows => !rows.isEmpty && distinct (rows.map (fun r => r.plane.val))
  | .fabErase _ _ _ rows => !rows.isEmpty && distinct (rows.map (fun r => r.plane.val))
  | .fabSuspend _ _ => true
  | .fabResume _ _ => true
  | .fabIdent _ _ => true
  | .fabResetDie _ _ => true
  | .fabTrain _ _ => true
  | .readComplete _ outs _ => outs.all (fun p => decide (p.1 < 65)) && distinct (outs.map (·.1))
  | .readStarComplete _ _ _ _ => true
  | .rebuildComplete _ _ _ => true
  | .programComplete _ _ fails => distinct (fails.map (·.val))
  | .eraseComplete _ _ fails => distinct (fails.map (·.val))
  | .suspendDone _ _ => true
  | .suspendWindowEnd _ _ => true
  | .progressSliceEnd _ _ => true
  | .dieCmdDone _ _ _ _ => true
  | .fabricTimeout _ _ _ _ => true
  | .dieLost _ _ => true
  | .trainingDone _ _ _ => true
  | .channelSleep _ => true
  | .utilWindow _ _ _ => true
  | .reloadChan _ _ => true
  | .quiesceDone _ => true
  | .segmentLoaded _ _ => true
  | .retrainDone _ _ => true
  | .checkDone _ _ => true
  | .driftMinuteTick => true
  | .driftDue _ => true
  | .scrubVisit leaves => leaves.all ScrubLeaf.wf
  | .driftQuery _ _ => true
  | .driftCtlWrite _ _ => true
  | .gcJob _ _ leaves => slotLeavesWf leaves
  | .wearJob _ _ leaves => slotLeavesWf leaves
  | .rewriteJob _ _ leaves => slotLeavesWf leaves
  | .verifyJob _ leaves => leaves.all BadLeaf.wf
  | .sealJob _ _ leaves => slotLeavesWf leaves && leaves.all (fun l => decide (l.slot.val < 64))
  | .relocateJob _ _ leaves => slotLeavesWf leaves
  | .setErase _ => true
  | .weightsWrite _ _ => true
  | .rebinDone => true
  | .wearStart _ _ => true
  | .wearStop _ _ => true
  | .scoreQuery _ _ => true
  | .fldCtlWrite _ _ => true
  | .journalSealTimer => true
  | .lagMiss _ => true
  | .bypassExpire tok => decide (tok < 65536)
  | .durSyncGo _ _ => true
  | .huOkChange _ => true
  | .inputLoss => true
  | .inputReturn => true
  | .inputCollapse _ => true
  | .ckptGo _ _ => true
  | .ckptPeriod => true
  | .ckptComplete => true
  | .powerHourTick => true
  | .mr4Poll rates => distinct (rates.map (·.1))
  | .mergeHoldExpire out => out.wf
  | .patrolScrub out => out.wf
  | .testWrite _ _ _ => true
  | .testRead _ _ _ => true
  | .ceTableClear _ _ _ => true
  | .mediaTableClear _ _ => true
  | .rekeyDone => true
  | .rootSramUe => true
  | .zeroerDone => true
  | .domainRampDone _ _ => true
  | .drbgHealthFail => true
  | .kidQuery _ _ => true
  | .keyIssue _ _ => true
  | .keySetCurrent _ _ => true
  | .keyClearCurrent _ _ => true
  | .keyRetire _ _ => true
  | .keyDestroy _ _ => true
  | .keyQuery _ _ => true
  | .sqDoorbell _ _ _ => true
  | .cqDoorbell _ _ _ => true
  | .pairEnable _ _ _ => true
  | .pairDisable _ _ _ => true
  | .ringAllocWrite _ _ _ => true
  | .commandFetch _ entry => decide (entry.length = 64)
  | .ringCopy _ _ leaves => leaves.all RingLeaf.wf
  | .ringFill _ _ => true
  | .ringVerify _ _ leaves => leaves.all RingLeaf.wf
  | .ringHash _ _ leaves _ => leaves.all RingLeaf.wf
  | .ringSeal _ _ => true
  | .ringDiscard _ _ => true
  | .ringSync _ _ => true
  | .ringPrefetch _ _ => true
  | .ringTelemetry _ _ _ => true
  | .ringAbort _ _ => true
  | .hashEngineGrant => true
  | .completionPost _ _ _ => true
  | .hostDmaFail _ => true
  | .coalesceTimer _ => true
  | .regAdmit _ _ => true
  | .floorWindow => true
  | .ledgerSnapshot => true
  | .ledgerInject _ _ => true
  | .ledgLhsRead _ => true
  | .ledgerSramUe _ => true
  | .reloadReg _ _ => true
  | .reloadDome _ _ => true
  | .domeBankFlip => true
  | .reloadStandbyAssist _ _ => true
  | .swap _ _ => true
  | .swapTimeout => true
  | .standbyReady => true
  | .assistReadyTimeout => true
  | .reloadUnitInvalid _ _ => true
  | .platePowerReq _ _ => true
  | .railPowerGood _ _ => true
  | .waitUpTimeout _ => true
  | .railDischarged _ _ => true
  | .dischargeTimeout _ => true
  | .minOffExpiry _ => true
  | .scriptDelayExpiry _ => true
  | .adcSample mv _ => decide (mv.length = 16) && mv.all (fun v => decide (v < 2 ^ 16))
  | .powerGoodLost _ => true
  | .pmbusPoll replies => pmbWf replies
  | .pmbAlert replies => pmbWf replies
  | .tempReading temps => decide (temps.length = 8)
  | .haltFanExpiry => true
  | .aonLoss _ => true
  | .aonReturn _ => true
  | .huEstimate => true
  | .huMismatchTimer => true
  | .margin _ _ => true
  | .fanTachWindow pulses => decide (pulses.length = 4)
  | .fanWatchdog _ => true
  | .recQualified _ => true
  | .recDisqualified _ => true
  | .holdoverExpiry => true
  | .slewDone => true
  | .todSet _ _ _ => true
  | .todLowRead _ => true
  | .chrono _ _ => true
  | .chronoGateEnd _ => true
  | .chronoRefDead _ => true
  | .heldAccessRelease _ => true
  | .shelfPing f => f.wf
  | .shelfStatus f => f.wf
  | .shelfSensors f => f.wf
  | .shelfMode f => f.wf
  | .shelfWake f => f.wf
  | .shelfRestart f => f.wf
  | .shelfPlate f => f.wf
  | .shelfSubscribe f => f.wf
  | .shelfFrameOther _ _ => true
  | .ptpFrame _ _ _ => true
  | .pdelayTimer => true
  | .plcaBeacon => true
  | .beaconLoss => true
  | .dupCoord => true
  | .coordResume => true
  | .plcaCollision => true
  | .quarantineExpiry => true
  | .rxqDataRead _ => true
  | .rxqDrop _ => true
  | .txqDataWrite _ _ => true
  | .txqFlush _ => true
  | .keyCommit _ => true
  | .pltCmdOn _ _ => true
  | .pltCmdOut _ _ => true
  | .pltCmdAdmit _ _ => true
  | .plateInserted _ ident => decide (ident.length = 256)
  | .plateRemoved _ => true
  | .plateDrainTimeout _ => true
  | .plateHot _ _ => true
  | .plateDisagree _ => true
  | .logPut _ _ _ => true
  | .logWin0Read _ => true
  | .logWin3Read _ => true
  | .snapTimer => true
  | .snapGo _ _ => true
  | .snapPublish => true
  | .chainWrite _ _ _ => true
  | .almRead _ _ => true
  | .almWrite _ _ => true
  | .almWriteDone => true
  | .lcTransition _ _ => true
  | .unlock _ _ => true
  | .relock _ _ => true
  | .keyfuse _ _ => true
  | .tapExtest _ => true
  | .tapSamplePreload _ _ => true
  | .tapIdcode => true
  | .tapClamp => true
  | .tapHighz => true
  | .lcStatus => true
  | .finderUnlock token _ => decide (token.length = 256)
  | .tapBypass _ => true
  | .coreHalt _ _ => true
  | .coreResume _ => true
  | .coreStep _ _ => true
  | .coreReg _ => true
  | .coreBp _ => true
  | .breakpointHit _ _ _ => true
  | .sysbusRead _ out => out.wf
  | .sysbusWrite _ => true
  | .busAbort _ => true
  | .tapReset => true
  | .beaconReceived => true
  | .txFrameSent => true
  | .doeRequest _ _ => true

end Sys2Proof
end

