-- ==== Sys2Proof/Tests/Slice0.lean ====
section
/-! SUPPORT. Tests: for every obligation with hypotheses a state and operands that meet them, clause by clause; an ill-formed
command for each check of WellFormed; decoded words; worked examples of the spec. -/

namespace Sys2Proof.Tests
open Sys2Proof Sys2Proof.Machine
set_option maxRecDepth 20000
set_option Elab.async false

/-! ### The hypotheses can be met -/

/-- A device that runs: image loaded, port 0 up with credits, LD 0 of 16 blocks, every plate and channel online, debug enabled. -/
def wOn : State :=
  (State.reset.modGlb (fun g => { g with mode := .active, perst := false, ingressClosed := false }))
    |> State.modStart (fun x => { x with aonDown := false, vin := true, replayed := true, ddrTrained := true, vaultHandled := true })
    |> setF F.GLB_START_STATUS_STAGE stageReady |> setF F.IMG_STATUS_LOADED 1 |> setF F.LCS_FINDER_ENABLED 1 |> setF F.LCS_FINDER_SCOPE 7
    |> setF F.SBUS_CTL_EN 1 |> setF F.COAL_STAGE_CFG_FRAMES 1024
    |> modPort 0 (fun p => { p with up := true, s2mFree := [(credNdr, 8), (credDrs, 8)], held := [(credReq, 8), (credRwd, 8)] })
    |> setF F.HOST_LINK_STATUS_P0_CXLMEM 1
    |> modLd 0 (fun l => { l with blocks := 16 })
    |> State.modImg (fun i => { i with chans := 0xFFFFFFFF, plates := 0xFFFF })
    |> State.modDome (fun d => { d with prsnt := 0xFFFF })
    |> (fun t => (List.range 32).foldl (fun u c => setF (F.MCH_STATUS_STATE c) chOnline u) t)
    |> (fun t => (List.range 16).foldl (fun u p => setF (F.SBUS_PLT_STATE_MGMT_VIEW p) pOnline u) t)

/-- A device that starts. -/
def wStart : State := wOn.modGlb (fun g => { g with mode := .starting })

def wReq : HReq := ⟨0, 0, 0, 0, false, 0, 0, false, false, 0⟩
def wLine : CLine := ⟨0, fullMask, true, 0, false, 1⟩
def wGather : Gather := ⟨0, 0, 0, [], 0, false, false, none, true, 0⟩
def wFrame : Frame := ⟨0, 0, 0, 0, 0, .staged, false, [], 0, 1, none, false, false, 0, 0, false, false⟩
def wRead : RdReq := ⟨0, .host wReq, 0, 0, 0, 0, false, .ladder, 0, 0, none, none, false, false, false, false, 0, 0⟩
def wLook : Look := ⟨.probe, 0, 0, none, 0⟩
def wMiss : Miss := ⟨0, 16, 1, [wLook], false⟩
def wCkpt : Ckpt := ⟨0, 0, 0, false, [], [], [], [], [], [], 0, [], [], [], [], 0, 0, [], []⟩
def wMeas : Meas := ⟨0, 0, 0, 0, 0, 8, 0, false⟩
def wSeg : ChanSeg := ⟨0, 1, [], 0, 0⟩
def wCmd : RCmd := ⟨0, 0, 0, 9, false, false, 1, 0, 0, 0, [], 0, 0, 0, 0, [], false, false, none, 0, false⟩
def wKeyOp : KeyOp := ⟨none, 2, 5, 0, 0, false, [], [], 0, 0⟩
def wImage : Image := ⟨true, true, true, true, true, 0, some 0, 1, 0, 63, false, 0, [], 1, 1, [], [], [], [(0, wSeg)], Scripts.builtIn, [], [],
  false, [], ⟨1, 0⟩, ⟨1, 0⟩, []⟩
def wShelf : ShelfFrame := ⟨0, 2, 1, 1, 1, 0, 0, 0, 0, 0, 0, [], 0⟩
def wOpen : OpenSet := ⟨0, 0, 0, 0, 0, 0, none, 0, false⟩

def wVer (n : Nat) : FRec := { FRec.reset with st := fVerified, valid := n }
/-- Set 0 with all its fields as `r`, and the eight channels of its group are online already. -/
def wSet (r : FRec) (s : State) : State :=
  s.modFld (fun f => { f with tbl := (setFields 0).foldl (fun t x => tset t x r) f.tbl })

/-- In SERVICE, an unlock token in LCS_TOKEN whose key's hash stands in slot 0. -/
def wUnlock : State :=
  (wOn.modLcs (fun l => { l with slots := [1, 2, 4, 8], fused := 1, hashes := [(0, digestBytes 48 (sha384 (List.replicate 96 0)))] }))
    |> setF (F.LCS_TOKEN 0) 0x11C11

/-- Folio 0's word is in the map cache with the value e. -/
def wHit (e : Nat) : State :=
  wOn |> setF F.MAPC_CTL_EN 1 |> modLine (wayKey 0 0) (fun m => { m with tag := mapTag 0, st := .clean, valid := 1, words := [(0, e)] })
def wRd : HReq := Says.rdReq 0 0 0 0
def wWr : HReq := Says.wrReq 0 0 0 0 (2 ^ 64 - 1) 5 false
def wKey (r : HReq) : Look := ⟨.host r, 0, 0, none, 0⟩
/-- The lookups of a read, and of a write, once it is admitted. -/
def wLookR (s : State) : List Found × State := lookStart (wKey wRd) (credBack 0 credReq (Says.admitted wRd s))
def wLookW (s : State) : List Found × State := lookStart (wKey wWr) (Says.admitted wWr s)
/-- Two ring commands, and a field under rewrite. -/
def wRewrite (l : List Mover) : State :=
  wOn |> wSet (wVer 1) |> setF F.FLD_CTL_REWRITE_EN 1 |> State.modDrift (fun d => { d with rwq := [0] }) |> State.modFld (fun f => { f with paused := l })
def wSealL (e : Nat) : State :=
  wOn |> setF F.XLAT_POOL_STATUS_LOW 1 |> State.modXlat (fun x => { x with splits := [(0, 0)] }) |> State.modWm (fun w => { w with words := [(0, e)] })
/-- A ring's region and a current key; folio 0 is unmapped and its word is cached. -/
def wRing : State := wHit 0 |> setF (F.RING_LD_ALLOC_COUNT 0) 1 |> State.modCiph (fun c => { c with cur := [(0, 5)] })
/-- A KEY_CLEAR_CURRENT as it is pushed, and where it waits after its first step. -/
def wClear : RCmd := { wCmd with opt := 3 }
def wClearOn : State := wOn |> State.modCiph (fun x => { x with ops := [] }) |> State.modRing (fun x => { x with cmds := [wClear] })
def wCleared : KeyNext × State :=
  keyStep (Says.keyOp wClear 3) (keyPush (Says.keyOp wClear 3) (modCmd 0 (fun x => { x with waiting := 1 }) (Says.started wClear wClearOn)))
/-- Two used sets, the first of them measured. -/
def wTwoSets : State :=
  wOn |> setF F.DRIFT_CTL_SCRUB_EN 1 |> wSet (wVer 1) |> State.modFld (fun f => { f with tbl := (setFields 1).foldl (fun t x => tset t x (wVer 1)) f.tbl }) |>
    State.modDrift (fun x => { x with recs := [(0, ⟨true, 0, 0, 0, 0⟩)] })
theorem wTwoSets_used : wTwoSets.usedSets = [0, 1] := by
  unfold State.usedSets
  rw [show ((wTwoSets.fld.tbl.filter (fun p => p.2.st != fFree)).map (fun p => fieldSet p.1)).eraseDups = [0, 1] by decide +kernel]
  exact List.mergeSort_of_pairwise (by decide)
/-- No line token is left. -/
def wNoLines (s : State) : State := s.modCoal (fun c => { c with toks := List.replicate lineTokens 0 })
theorem lineFree_zero (x : State) (h : x.coal.toks = List.replicate lineTokens 0) : x.lineFree = 0 := by
  unfold State.lineFree; rw [h, List.length_replicate]; exact Nat.sub_self _
theorem canAccept_none (x : State) (ld dpa : Nat) (h : x.coal.toks = List.replicate lineTokens 0) (hl : x.cline ld dpa = none) :
    x.canAccept ld dpa = false := by
  unfold State.canAccept; rw [lineFree_zero x h, hl]; rfl

/-- States and operands that meet the hypotheses of RegisterFieldsFollowTheirAccessCode, clause by clause. -/
theorem witness_RegisterFieldsFollowTheirAccessCode :
    (∃ (r : RegAt) (cover : Nat) (v : Nat) (s : State) (f : _), r.off ≠ 0x3A0030 ∧ (r.flds.map (·.key)).Nodup ∧ (∀ f ∈ r.flds, s.get f < 2 ^ f.wid)
      ∧ f ∈ r.flds ∧ (writtenVal s f cover v = none ∨ comboBad s f cover v = true)) ∧
    (∃ (r : RegAt) (cover : Nat) (v : Nat) (s : State) (f : _) (w : _), r.off ≠ 0x3A0030 ∧ (r.flds.map (·.key)).Nodup ∧ (∀ f ∈ r.flds, s.get f < 2 ^
      f.wid) ∧ f ∈ r.flds ∧ writtenVal s f cover v = some w ∧ comboBad s f cover v = false) ∧
    (∃ (r : RegAt) (cover : Nat) (s : State) (f : _), r.off ≠ 0x3A0030 ∧ (r.flds.map (·.key)).Nodup ∧ (∀ f ∈ r.flds, s.get f < 2 ^ f.wid) ∧ f ∈
      r.flds ∧ cover ≤ f.lo ∧ (f.acc = .ro ∨ f.acc = .rc ∨ (f.acc = .rwl ∧ s.on F.IMG_STATUS_LOADED = true))) ∧
    (∃ (r : RegAt) (cover : Nat) (s : State) (f : _), r.off ≠ 0x3A0030 ∧ (r.flds.map (·.key)).Nodup ∧ (∀ f ∈ r.flds, s.get f < 2 ^ f.wid) ∧ f ∈
      r.flds ∧ cover ≤ f.lo ∧ (f.acc = .rw ∨ f.acc = .wo ∨ (f.acc = .rwl ∧ s.on F.IMG_STATUS_LOADED = false))) ∧
    (∃ (r : RegAt) (cover : Nat) (s : State) (f : _), r.off ≠ 0x3A0030 ∧ (r.flds.map (·.key)).Nodup ∧ (∀ f ∈ r.flds, s.get f < 2 ^ f.wid) ∧ f ∈
      r.flds ∧ cover ≤ f.lo ∧ f.acc = .w1c) ∧
    (∃ (r : RegAt) (cover : Nat) (s : State) (f : _), r.off ≠ 0x3A0030 ∧ (r.flds.map (·.key)).Nodup ∧ (∀ f ∈ r.flds, s.get f < 2 ^ f.wid) ∧ f ∈
      r.flds ∧ cover ≤ f.lo ∧ f.acc = .w1s) ∧
    (∃ (r : RegAt) (s : State) (g : Fld), r.off ≠ 0x3A0030 ∧ (r.flds.map (·.key)).Nodup ∧ (∀ f ∈ r.flds, s.get f < 2 ^ f.wid) ∧ (∀ f ∈ r.flds, g.key
      ≠ f.key)) ∧
    (∃ (r : RegAt) (s : State), r.off ≠ 0x3A0030 ∧ (r.flds.map (·.key)).Nodup ∧ (∀ f ∈ r.flds, s.get f < 2 ^ f.wid)) :=
  ⟨⟨(⟨0x48, 32, [F.GLB_MODE_STATUS_REFUSED]⟩ : RegAt), 0, 0, wOn, F.GLB_MODE_STATUS_REFUSED, by decide⟩,
    ⟨(⟨0x3D0000, 32, [F.LOG_CTL_FLOOR, F.LOG_CTL_IRQ_SEV]⟩ : RegAt), 0, 0, wOn, F.LOG_CTL_FLOOR, 0, by decide⟩,
    ⟨(⟨0x48, 32, [F.GLB_MODE_STATUS_REFUSED]⟩ : RegAt), 0, wOn, F.GLB_MODE_STATUS_REFUSED, by decide⟩,
    ⟨(⟨0x3D0000, 32, [F.LOG_CTL_FLOOR, F.LOG_CTL_IRQ_SEV]⟩ : RegAt), 0, wOn, F.LOG_CTL_FLOOR, by decide⟩,
    ⟨(⟨0x48, 32, [F.CLK_ERR_STATUS_REC_LOST]⟩ : RegAt), 0, wOn, F.CLK_ERR_STATUS_REC_LOST, by decide⟩,
    ⟨(⟨0x48, 32, [{ F.CLK_ERR_STATUS_REC_LOST with acc := .w1s }]⟩ : RegAt), 0, wOn, { F.CLK_ERR_STATUS_REC_LOST with acc := .w1s }, by decide⟩,
    ⟨(⟨0x3D0000, 32, [F.LOG_CTL_FLOOR, F.LOG_CTL_IRQ_SEV]⟩ : RegAt), wOn, F.GLB_MODE_STATUS_REFUSED, by decide⟩,
    ⟨(⟨0x3D0000, 32, [F.LOG_CTL_FLOOR, F.LOG_CTL_IRQ_SEV]⟩ : RegAt), wOn, by decide⟩⟩

/-- States and operands that meet the hypotheses of HalvesOfAWideRegisterWriteAsOne, clause by clause. -/
theorem witness_HalvesOfAWideRegisterWriteAsOne :
    (∃ (m : Master) (off : Nat) (lo : Nat) (lo2 : Nat) (hi : Nat) (r : RegAt) (s : State), findReg off = some r ∧ r.width = 64 ∧ findReg (off + 4) =
      none ∧ lo < 2 ^ 32 ∧ lo2 < 2 ^ 32 ∧ hi < 2 ^ 32 ∧ holdOf s m off = none) ∧
    (∃ (off : Nat) (lo : Nat) (lo2 : Nat) (hi : Nat) (r : RegAt), findReg off = some r ∧ r.width = 64 ∧ findReg (off + 4) = none ∧ lo < 2 ^ 32 ∧ lo2
      < 2 ^ 32 ∧ hi < 2 ^ 32) :=
  ⟨⟨.host, 0x3A0020, 2 ^ 32 - 1, 0, 0, _, wOn, by rfl, rfl, by decide⟩,
    ⟨0x3A0020, 2 ^ 32 - 1, 0, 0, _, by rfl, rfl, by decide⟩⟩

/-- States and operands that meet the hypotheses of BadAccessesAreDiscarded, clause by clause. -/
theorem witness_BadAccessesAreDiscarded :
    (∃ (m : Master) (off : Nat) (size : Nat) (s : State), s.coreOn = true ∧ accessOk off size = false ∧ m ≠ .finder) ∧
    (∃ (off : Nat) (size : Nat) (s : State), s.coreOn = true ∧ accessOk off size = false) ∧
    (∃ (m : Master) (off : Nat) (s : State), s.coreOn = true ∧ m ≠ .finder ∧ 0x500000 ≤ off ∧ off < 0x800000 ∧ off % 4 = 0) :=
  ⟨⟨.host, 0, 0, wOn, by decide⟩,
    ⟨0, 0, wOn, by decide⟩,
    ⟨.host, 0x7FFFFC, wOn, by decide⟩⟩

/-- States and operands that meet the hypotheses of AnRcFieldClearsOnTheReadThatCoversIt, clause by clause. -/
theorem witness_AnRcFieldClearsOnTheReadThatCoversIt :
    (∃ (m : Master) (s : State), s.coreOn = true ∧ m ≠ .finder) ∧
    (∃ (s : State), s.coreOn = true) :=
  ⟨⟨.host, wOn, by decide⟩,
    ⟨wOn, by decide⟩⟩

/-- States and operands that meet the hypotheses of ModeTargetsStartTheirTransitionOrWait, clause by clause. -/
theorem witness_ModeTargetsStartTheirTransitionOrWait :
    (∃ (m : Master) (s : State) (t : Nat) (c : Instr), (t, c) ∈ [(0, Instr.modeTargetActive m), (1, .modeTargetQuiet m), (2, .modeTargetParked m),
      (3, .modeTargetStandby m)] ∧ s.lcs.trans = none ∧ s.dur.drain = 0 ∧ (s.glb.mode = .active ∨ s.glb.mode = .quiet ∨ s.glb.mode = .parked) ∧
      s.glb.transTo.isSome = true) ∧
    (∃ (s : State), s.lcs.trans = none ∧ s.dur.drain = 0 ∧ s.glb.transTo = none ∧ s.glb.mode = .active ∧ (Says.modeAsked 1 s).targetHeld 1 = false) ∧
    (∃ (s : State), s.lcs.trans = none ∧ s.dur.drain = 0 ∧ s.glb.transTo = none ∧ s.glb.mode = .quiet ∧ (Says.modeAsked 0 s).targetHeld 0 = false) ∧
    (∃ (s : State), s.lcs.trans = none ∧ s.dur.drain = 0 ∧ s.glb.transTo = none ∧ (s.glb.mode = .active ∨ s.glb.mode = .quiet) ∧ (Says.modeAsked 2
      s).targetHeld 2 = false) ∧
    (∃ (s : State), s.lcs.trans = none ∧ s.dur.drain = 0 ∧ s.glb.transTo = none ∧ (s.glb.mode = .active ∨ s.glb.mode = .quiet) ∧ (Says.modeAsked 3
      s).targetHeld 3 = false) :=
  ⟨⟨.host, wOn |> State.modLcs (fun x => { x with trans := none }) |> State.modDur (fun x => { x with drain := 0 }) |> State.modGlb (fun x =>
      { x with mode := .active }) |> State.modGlb (fun g => { g with transTo := some .quiet }), 0, .modeTargetActive .host, by decide⟩,
    ⟨wOn |> State.modLcs (fun x => { x with trans := none }) |> State.modDur (fun x => { x with drain := 0 }) |> State.modGlb (fun x =>
      { x with transTo := none, mode := .active }), by decide⟩,
    ⟨wOn |> State.modLcs (fun x => { x with trans := none }) |> State.modDur (fun x => { x with drain := 0 }) |> State.modGlb (fun x =>
      { x with transTo := none, mode := .quiet }), by decide⟩,
    ⟨wOn |> State.modLcs (fun x => { x with trans := none }) |> State.modDur (fun x => { x with drain := 0 }) |> State.modGlb (fun x =>
      { x with transTo := none, mode := .active }), by decide⟩,
    ⟨wOn |> State.modLcs (fun x => { x with trans := none }) |> State.modDur (fun x => { x with drain := 0 }) |> State.modGlb (fun x =>
      { x with transTo := none, mode := .active }), by decide⟩⟩

/-- States and operands that meet the hypotheses of TransitionsCompleteAndStandbyIsEntered, clause by clause. -/
theorem witness_TransitionsCompleteAndStandbyIsEntered :
    (∃ (s : State) (dest : Mode), s.glb.transTo = some dest ∧ dest ≠ .parked ∧ s.glb.mode ≠ .parked ∧ s.noRamp = true ∧ s.lcs.trans = none) ∧
    (∃ (s : State), s.glb.mode = .parked ∧ s.glb.transTo = none ∧ (∃ src, s.glb.heldTarget = some (3, src)) ∧ s.glb.perst = false ∧ s.start.relPend
      = false) :=
  ⟨⟨wOn |> State.modGlb (fun x => { x with transTo := some (.active : Mode) }) |> State.modLcs (fun x => { x with trans := none }), .active, by decide⟩,
    ⟨wOn |> State.modGlb (fun x => { x with mode := .parked, transTo := none, perst := false }) |> State.modStart (fun x => { x with relPend := false })
      |> State.modGlb (fun g => { g with heldTarget := some (3, 1) }), rfl, rfl, ⟨1, rfl⟩, rfl, rfl⟩⟩

/-- States and operands that meet the hypotheses of PowerComesAndGoes, clause by clause. -/
theorem witness_PowerComesAndGoes :
    (∃ (s : State), s.start.vin = false ∧ s.start.aonDown = false ∧ (s.glb.mode = .off ∨ s.glb.mode = .standby ∨ s.glb.mode = .faultHalt)) ∧
    (∃ (s : State), s.start.vin = false ∧ (s.glb.mode = .off ∨ s.glb.mode = .standby ∨ s.glb.mode = .faultHalt)) ∧
    (∃ (s : State), s.start.vin = true ∧ s.glb.mode = .standby) ∧
    (∃ (s : State), s.glb.mode = .off ∧ s.seqsBusy = false) ∧
    (∃ (s : State), s.start.aonDown = true ∧ s.start.vin = false) ∧
    (∃ (s : State), s.glb.perst = false ∧ s.glb.mode = .off) ∧
    (∃ (s : State), s.glb.perst = false ∧ s.glb.mode = .standby) ∧
    (∃ (s : State), s.glb.perst = true ∧ s.glb.mode = .standby) :=
  ⟨⟨wOn |> State.modStart (fun x => { x with vin := false, aonDown := false }) |> State.modGlb (fun x => { x with mode := .off }), by decide⟩,
    ⟨wOn |> State.modStart (fun x => { x with vin := false }) |> State.modGlb (fun x => { x with mode := .off }), by decide⟩,
    ⟨wOn |> State.modStart (fun x => { x with vin := true }) |> State.modGlb (fun x => { x with mode := .standby }), by decide⟩,
    ⟨wOn |> State.modGlb (fun x => { x with mode := .off }), by decide⟩,
    ⟨wOn |> State.modStart (fun x => { x with aonDown := true, vin := false }), by decide⟩,
    ⟨wOn |> State.modGlb (fun x => { x with perst := false, mode := .off }), by decide⟩,
    ⟨wOn |> State.modGlb (fun x => { x with perst := false, mode := .standby }), by decide⟩,
    ⟨wOn |> State.modGlb (fun x => { x with perst := true, mode := .standby }), by decide⟩⟩

/-- States and operands that meet the hypotheses of StartUpGoesThroughItsSteps, clause by clause. -/
theorem witness_StartUpGoesThroughItsSteps :
    (∃ (s : State), s.glb.mode = .starting ∧ s.stage = stageImage ∧ s.glb.perst = false ∧ s.on F.GLB_STRAPS_XSPI_EN = false ∧ (bootPrepare (setF
      F.IMG_BOOT_LOG_ATTEMPT F.IMG_BOOT_LOG_ATTEMPT.rst s)).bootOrder = []) ∧
    (∃ (l : List DimmChan) (s : State), s.startRuns = true ∧ s.stage = stageTrain ∧ s.start.ddrTrained = false ∧ s.popErr l = (0, 0, 0)) ∧
    (∃ (l : List DimmChan) (c : Nat) (k : Nat) (s : State), s.startRuns = true ∧ s.stage = stageTrain ∧ s.start.ddrTrained = false ∧ s.popErr l =
      (4, c, k)) ∧
    (∃ (s : State), s.startRuns = true ∧ s.stage = stageTrain ∧ s.start.ddrTrained = true ∧ s.img.chans ≠ 0 ∧ (∀ c < 32, s.img.chans.testBit c =
      true → s.get (F.MCH_STATUS_STATE c) ≠ 1)) ∧
    (∃ (s : State), s.readyMay = true) ∧
    (∃ (s : State), s.readyMay = false ∧ s.start.warm = true ∧ s.glb.perst = false ∧ s.stage = stageWarm) ∧
    (∃ (pd : Fin 80) (s : State), (pd.val < 32 ∨ 40 ≤ pd.val) ∧ s.pd pd.val = .ramp) ∧
    (∃ (s : State), s.glb.mode = .active) :=
  ⟨⟨wOn |> setF F.GLB_START_STATUS_STAGE stageImage |> setF F.GLB_STRAPS_XSPI_EN 0 |> State.modGlb (fun x =>
      { x with mode := .starting, perst := false }), by decide⟩,
    ⟨[{ slot0 := some ⟨true, true, 1, false, 4, 0⟩, slot1 := none, trained := true },
      { slot0 := some ⟨true, true, 1, false, 4, 0⟩, slot1 := none, trained := true },
      { slot0 := some ⟨true, true, 1, false, 4, 0⟩, slot1 := none, trained := true },
      { slot0 := some ⟨true, true, 1, false, 4, 0⟩, slot1 := none, trained := true }], wStart |> setF F.GLB_START_STATUS_STAGE stageTrain |>
      State.modStart (fun x => { x with ddrTrained := false }), by decide⟩,
    ⟨[{ slot0 := some ⟨false, true, 1, false, 4, 0⟩, slot1 := none, trained := true }], 0, 0, wStart |> setF F.GLB_START_STATUS_STAGE stageTrain |>
      State.modStart (fun x => { x with ddrTrained := false }), by decide⟩,
    ⟨wStart |> setF F.GLB_START_STATUS_STAGE stageTrain |> State.modStart (fun x => { x with ddrTrained := true }), by decide⟩,
    ⟨wStart |> setF F.MERID_CFG_SIZE_GIB 64 |> State.modDome (fun d => { d with pd := [(32, .on)] }), by decide⟩,
    ⟨wOn |> setF F.GLB_START_STATUS_STAGE stageWarm |> State.modStart (fun x => { x with warm := true }) |> State.modGlb (fun x =>
      { x with perst := false }), by decide⟩,
    ⟨79, wOn |> State.modDome (fun d => { d with pd := [(79, .ramp)] }), by decide⟩,
    ⟨wOn |> State.modGlb (fun x => { x with mode := .active }), by decide⟩⟩

/-- States and operands that meet the hypotheses of RequestsFromTheLinkAreTaken, clause by clause. -/
theorem witness_RequestsFromTheLinkAreTaken :
    (∃ (port : Fin 2) (ld : Fin 16) (tag : BitVec 16) (dpa : BitVec 52) (s : State), Says.open (Says.rdReq port ld tag dpa) s ∧ Says.serves
      (Says.rdReq port ld tag dpa) s) ∧
    (∃ (port : Fin 2) (ld : Fin 16) (tag : BitVec 16) (dpa : BitVec 52) (mask : BitVec 64) (data : Line) (poison : Bool) (s : State), Says.open
      (Says.wrReq port ld tag dpa mask data poison) s ∧ Says.serves (Says.wrReq port ld tag dpa mask data poison) s) ∧
    (∃ (s : State), s.on F.REG_CTL_EN = false ∧ s.on F.MERID_STATUS_REKEY = false ∧ s.host.ingress = []) ∧
    (∃ (r : HReq) (s : State), s.mustWait r = false ∧ s.backed r.ld r.dpa = false ∧ r.wr = false) ∧
    (∃ (r : HReq) (s : State), s.mustWait r = false ∧ s.backed r.ld r.dpa = false ∧ r.wr = true) ∧
    (∃ (port : Fin 2) (ld : Fin 16) (tag : BitVec 16) (dpa : BitVec 52) (s : State), Says.open (Says.rdReq port ld tag dpa) s ∧ s.memReady = true ∧
      s.dur.drain = 0 ∧ (s.port port.val).gpf = false ∧ s.glb.mode = .parked) ∧
    (∃ (r : HReq) (s : State), s.releaseNext = some r) ∧
    (∃ (port : Fin 2) (s : State), (s.port port.val).up = true) ∧
    (∃ (port : Nat) (cls : Nat) (n : Nat) (s : State), n ≤ tgetD 0 (s.port port).s2mUsed cls) :=
  ⟨⟨0, 0, 0, 0, wOn, by unfold Says.open Says.serves; decide +kernel⟩,
    ⟨0, 0, 0, 0, 0, 0, false, wOn, by unfold Says.open Says.serves; decide +kernel⟩,
    ⟨wOn |> setF F.REG_CTL_EN 0 |> setF F.MERID_STATUS_REKEY 0 |> State.modHost (fun x => { x with ingress := [] }), by decide⟩,
    ⟨{ wReq with dpa := 2 ^ 40 }, wOn, by decide⟩,
    ⟨{ wReq with dpa := 2 ^ 40, wr := true }, wOn, by decide⟩,
    ⟨0, 0, 0, 0, wOn |> modPort (0 : Fin 2).val (fun p => { p with gpf := false }) |> State.modDur (fun x => { x with drain := 0 }) |> State.modGlb (fun
      x => { x with mode := .parked }), by unfold Says.open; decide +kernel⟩,
    ⟨wReq, wOn |> State.modHost (fun h => { h with ingress := [wReq] }), by decide⟩,
    ⟨0, wOn |> modPort (0 : Fin 2).val (fun p => { p with up := true }), by decide⟩,
    ⟨0, 0, 0, wOn, by decide⟩⟩

/-- States and operands that meet the hypotheses of LinksComeUpAndGoDown, clause by clause. -/
theorem witness_LinksComeUpAndGoDown :
    (∃ (port : Fin 2) (width : Fin 5) (s : State), s.linkMay port.val = true ∧ (s.port port.val).up = false ∧ s.widthOk port.val (width.val + 1) =
      true) ∧
    (∃ (cls : Nat), cls < 6) ∧
    (∃ (speed : Nat) (width : Nat), speed < 8 ∧ width < 8) ∧
    (∃ (port : Fin 2) (s : State), (s.port port.val).up = true) ∧
    (∃ (port : Fin 2) (i : Nat) (s : State), (s.port port.val).up = true ∧ i < 5) ∧
    (∃ (port : Fin 2) (n : Fin 16) (s : State), (s.port port.val).up = true ∧ s.ldPort n.val = port.val) ∧
    (∃ (port : Fin 2) (s : State), (s.port port.val).gpf = true ∧ (s.port port.val).gpf2 = false ∧ s.glb.transTo = none) :=
  ⟨⟨0, 0, wOn |> modPort (0 : Fin 2).val (fun p => { p with up := false }), by decide⟩,
    ⟨0, by decide⟩,
    ⟨0, 0, by decide⟩,
    ⟨0, wOn |> modPort (0 : Fin 2).val (fun p => { p with up := true }), by decide⟩,
    ⟨0, 0, wOn |> modPort (0 : Fin 2).val (fun p => { p with up := true }), by decide⟩,
    ⟨0, 0, wOn |> modPort (0 : Fin 2).val (fun p => { p with up := true }), by decide⟩,
    ⟨0, wOn |> modPort (0 : Fin 2).val (fun p => { p with gpf := true }) |> modPort (0 : Fin 2).val (fun p => { p with gpf2 := false }) |> State.modGlb
      (fun x => { x with transTo := none }), by decide⟩⟩

/-- States and operands that meet the hypotheses of AnAcceptedLineIsTheNewestCopy, clause by clause. -/
theorem witness_AnAcceptedLineIsTheNewestCopy :
    (∃ (ld : Nat) (dpa : Nat) (l : CLine) (s : State), s.cline ld dpa = some l ∧ l.poison = false) ∧
    (∃ (ld : Nat) (dpa : Nat) (ld' : Nat) (dpa' : Nat), lineKey ld' dpa' ≠ lineKey ld dpa) ∧
    (∃ (r : HReq) (l : CLine) (s : State), s.onPoisonList r.ld r.dpa = false ∧ s.cline r.ld r.dpa = some l ∧ l.poison = false ∧ l.full = true) :=
  ⟨⟨0, 0, wLine, wOn |> State.modCoal (fun c => { c with lines := [(0, wLine)] }), by decide⟩,
    ⟨0, 0, 0, 64, by decide⟩,
    ⟨wReq, wLine, wOn |> State.modCoal (fun c => { c with lines := [(0, wLine)] }), by decide⟩⟩

/-- States and operands that meet the hypotheses of MapCacheMaintenanceRuns, clause by clause. -/
theorem witness_MapCacheMaintenanceRuns :
    (∃ (v : BitVec 32) (s : State), v.toNat.testBit 31 = true ∧ s.on F.MAPC_STATUS_INV_BUSY = false ∧ v.toNat / 2 ^ 24 % 4 = 0 ∧ v.toNat % 2 ^ 24 ≠
      0) ∧
    (∃ (v : BitVec 32) (s : State), v.toNat.testBit 31 = true ∧ s.on F.MAPC_STATUS_INV_BUSY = false ∧ v.toNat / 2 ^ 24 % 4 = 1 ∧ v.toNat % 2 ^ 24 ≠
      0) ∧
    (∃ (v : BitVec 32) (s : State), v.toNat.testBit 31 = true ∧ s.on F.MAPC_STATUS_INV_BUSY = false ∧ v.toNat / 2 ^ 24 % 4 = 2) ∧
    (∃ (k : Nat) (s : State), (s.mline k).st = .dirty) ∧
    (∃ (k : Nat) (s : State), (s.mline k).st = .clean ∧ s.filling k = false) ∧
    (∃ (m : Maint) (s : State), s.xlat.maint = some m ∧ s.maintReady m = true) ∧
    (∃ (v : BitVec 32) (s : State), s.on F.MAPC_CTL_EN = true ∧ v.toNat % 2 = 0) ∧
    (∃ (s : State), s.on F.MAPC_STATUS_DRAINING = true) ∧
    (∃ (v : BitVec 32) (s : State), s.on F.MAPC_CTL_EN = false ∧ v.toNat % 2 = 1) ∧
    (∃ (v : BitVec 32) (s : State), s.on F.MAPC_STATUS_CONV_BUSY = false ∧ v.toNat % 8 < 5 ∧ v.toNat % 8 ≠ s.get F.MAPC_SCRATCH_WAYS) ∧
    (∃ (n : Nat) (s : State), s.xlat.conv = some n ∧ (∀ k ∈ s.keysIn (fun k _ => wayFrom (16 - n) k), s.filling k = false ∧ (s.mline k).st ≠
      .filling)) ∧
    (∃ (way : Fin 65536) (s : State), (s.mline way.val).st = .writeback ∧ (s.mline way.val).redirty = false ∧ (s.mline way.val).why = .wb) :=
  ⟨⟨0x80000001, wOn |> setF F.MAPC_STATUS_INV_BUSY 0, by decide⟩,
    ⟨0x81000001, wOn |> setF F.MAPC_STATUS_INV_BUSY 0, by decide⟩,
    ⟨0x82000000, wOn |> setF F.MAPC_STATUS_INV_BUSY 0, by decide⟩,
    ⟨0, wOn |> State.modXlat (fun x => { x with lines := [((0 : Nat), { MapLine.reset with st := .dirty })] }), by decide⟩,
    ⟨0, wOn |> State.modXlat (fun x => { x with lines := [((0 : Nat), { MapLine.reset with st := .clean })] }), by decide⟩,
    ⟨(⟨0, 0, 0⟩ : Maint), wOn |> State.modXlat (fun x => { x with maint := some ((⟨0, 0, 0⟩ : Maint) : Maint) }), by decide⟩,
    ⟨0, wOn |> setF F.MAPC_CTL_EN 1, by decide⟩,
    ⟨wOn |> setF F.MAPC_STATUS_DRAINING 1, by decide⟩,
    ⟨1, wOn |> setF F.MAPC_CTL_EN 0, by decide⟩,
    ⟨4, wOn |> setF F.MAPC_STATUS_CONV_BUSY 0, by decide⟩,
    ⟨0, wOn |> State.modXlat (fun x => { x with conv := some (0 : Nat) }), by decide⟩,
    ⟨0, wOn |> State.modXlat (fun x =>
      { x with lines := [((0 : Fin 65536).val, { MapLine.reset with st := .writeback, redirty := false, why := .wb })] }), by decide⟩⟩

/-- States and operands that meet the hypotheses of FillsProbesAndSectorRebuildsEnd, clause by clause. -/
theorem witness_FillsProbesAndSectorRebuildsEnd :
    (∃ (bank : Fin 64) (m : Miss) (s : State), tget s.xlat.misses bank.val = some m ∧ m.wait = false ∧ s.wm.markers = []) ∧
    (∃ (bank : Fin 64) (sector : Fin 8) (m : Miss) (k : Look) (l : List Look) (s : State), tget s.xlat.misses bank.val = some m ∧ m.wait = false ∧
      s.wm.markers = [] ∧ m.sectors = 2 ^ sector.val ∧ m.users = k :: l) ∧
    (∃ (v : Word) (s : State), v.toNat.testBit 63 = true ∧ s.backed (v.toNat / 2 ^ 52 % 16) (v.toNat % 2 ^ 52 / 64 * 64) = false) ∧
    (∃ (v : Word) (s : State), v.toNat.testBit 63 = true ∧ s.backed (v.toNat / 2 ^ 52 % 16) (v.toNat % 2 ^ 52 / 64 * 64) = true ∧ s.xlat.misses = []
      ∧ s.xlat.stalled = []) ∧
    (∃ (p : Probe) (src : Nat) (kid : Nat) (loc : Nat) (s : State), s.xlat.probe = some p ∧ s.inFlight = [] ∧ s.probeOf p = some (src, kid, loc)) ∧
    (∃ (p : Probe) (s : State), s.backed p.ld p.dpa = false) ∧
    (∃ (p : Probe) (fo : Nat) (fr : Nat) (l : CLine) (s : State), s.backed p.ld p.dpa = true ∧ p.found = some (fo, fr) ∧ p.bad = false ∧ foType fo ≠
      3 ∧ s.cline p.ld p.dpa = some l) ∧
    (∃ (sector : Nat) (s : State), s.xlat.rebuilding = [(sector, 1)]) ∧
    (∃ (k : Nat) (c : Ckpt) (s : State), s.dur.ckpts = [c] ∧ k < 8) ∧
    (∃ (s : State), s.dur.ckpts = []) :=
  ⟨⟨0, wMiss, wOn |> State.modXlat (fun x => { x with misses := [((0 : Fin 64).val, wMiss)] }) |> State.modWm (fun x => { x with markers := [] }),
      by decide⟩,
    ⟨0, 0, wMiss, wLook, [], wOn |> State.modXlat (fun x => { x with misses := [((0 : Fin 64).val, wMiss)] }) |> State.modWm (fun x =>
      { x with markers := [] }), by decide⟩,
    ⟨0x800FFFFFFFFFFFFF, wOn, by decide⟩,
    ⟨0x8000000000000000, wOn |> State.modXlat (fun x => { x with misses := [], stalled := [] }), by decide⟩,
    ⟨(⟨0, 2 ^ 40, none, false⟩ : Probe), 0, 0, 0, wOn |> State.modXlat (fun x => { x with probe := some ((⟨0, 2 ^ 40, none, false⟩ : Probe) : Probe) }),
      by decide⟩,
    ⟨(⟨0, 2 ^ 40, none, false⟩ : Probe), wOn, by decide⟩,
    ⟨(⟨0, 0, some (0, 0), false⟩ : Probe), 0, 0, wLine, wOn |> State.modCoal (fun c => { c with lines := [(0, wLine)] }), by decide⟩,
    ⟨0, wOn |> State.modXlat (fun x => { x with rebuilding := [((0 : Nat), 1)] }), by decide⟩,
    ⟨0, wCkpt, wOn |> State.modDur (fun x => { x with ckpts := [wCkpt] }), by decide⟩,
    ⟨wOn |> State.modDur (fun x => { x with ckpts := [] }), by decide⟩⟩

/-- States and operands that meet the hypotheses of GathersMergeAndFramesPlace, clause by clause. -/
theorem witness_GathersMergeAndFramesPlace :
    (∃ (g : Gather) (l : List Gather) (s : State), s.coal.gathers = g :: l ∧ g.closed = false) ∧
    (∃ (g : Gather) (t : Nat) (fr : Frame) (s : State), s.dur.drain = 0 ∧ s.mergeable [] s.coal.gathers = some g ∧ s.mergeHow g = .into t fr) ∧
    (∃ (g : Gather) (s : State), s.dur.drain = 0 ∧ s.mergeable [] s.coal.gathers = some g ∧ s.mergeHow g = .zeros) ∧
    (∃ (g : Gather) (pfa : Nat) (s : State), s.dur.drain = 0 ∧ s.mergeable [] s.coal.gathers = some g ∧ s.mergeHow g = .media pfa) ∧
    (∃ (p : Nat × CLine), p.2.poison = false ∧ p.2.full = false) ∧
    (∃ (tok : Fin 65536) (g : Gather) (s : State), s.coal.gathers = [g] ∧ g.merging = some tok.val ∧ (foType (s.folio g.ld g.folio) = 2 ∨
      s.tableForWrite = true) ∧ frState (s.frameOfFolio (s.folio g.ld g.folio) g.frame) = 0) ∧
    (∃ (tok : Fin 65536) (g : Gather) (leaves : List LeafRes) (s : State), s.coal.gathers = [g] ∧ g.merging = some tok.val ∧ (foType (s.folio g.ld
      g.folio) = 2 ∨ s.tableForWrite = true) ∧ frState (s.frameOfFolio (s.folio g.ld g.folio) g.frame) = 1 ∧ s.unitHow (frLoc (s.frameOfFolio
      (s.folio g.ld g.folio) g.frame)) true ≠ .wait ∧ (leaves.any fun l => decide (5 ≤ l.step) && decide (l.leaf.val = 64)) = true) ∧
    (∃ (t : Nat) (fr : Frame) (s : State), s.dur.drain = 0 ∧ s.nextToPlace = some (t, fr) ∧ s.runnable fr = false) ∧
    (∃ (t : Nat) (fr : Frame) (s : State), s.dur.drain = 0 ∧ s.nextToPlace = some (t, fr) ∧ s.runnable fr = true) ∧
    (∃ (g : Nat) (s : State), s.groupBlocked g = false) ∧
    (∃ (t : Nat) (fr : Frame) (s : State), s.coal.frames = [(t, fr)] ∧ fr.st = .staged ∧ fr.placed = none ∧ fr.free = false) ∧
    (∃ (s : State), s.nextToPlace = none) ∧
    (∃ (set : Nat) (o : OpenSet) (s : State), s.fld.opens.find? (fun o => o.set == set) = some o ∧ o.next % 7 ≠ 0) :=
  ⟨⟨wGather, [], wOn |> State.modCoal (fun x => { x with gathers := wGather :: ([] : List Gather) }), by decide⟩,
    ⟨{ wGather with closed := true }, 3, wFrame, wOn |> State.modDur (fun x => { x with drain := 0 }) |> State.modCoal (fun c =>
      { c with gathers := [{ wGather with closed := true }] }) |> State.modCoal (fun c => { c with frames := [(3, wFrame)] }), by decide⟩,
    ⟨{ wGather with closed := true }, wOn |> State.modDur (fun x => { x with drain := 0 }) |> State.modCoal (fun c =>
      { c with gathers := [{ wGather with closed := true }] }), by decide⟩,
    ⟨{ wGather with closed := true }, 5, wOn |> State.modDur (fun x => { x with drain := 0 }) |> State.modCoal (fun c =>
      { c with gathers := [{ wGather with closed := true }] }) |> State.modWm (fun w => { w with words := [(0, 2 ^ 63 + 1), (64, 2 ^ 62 + 5)] }),
      by decide +kernel⟩,
    ⟨(0, { wLine with full := false }), by decide⟩,
    ⟨0, { wGather with closed := true, merging := some 0 }, wOn |> State.modCoal (fun x =>
      { x with gathers := [(({ wGather with closed := true, merging := some 0 }) : Gather)] }), by decide⟩,
    ⟨0, { wGather with closed := true, merging := some 0 }, [⟨64, 5, 0, false⟩], wOn |> State.modCoal (fun x =>
      { x with gathers := [(({ wGather with closed := true, merging := some 0 }) : Gather)] }) |> State.modWm (fun w =>
      { w with words := [(0, 2 ^ 62)] }) |> State.modDrift (fun x => { x with recs := [(0, ⟨true, 0, 0, 0, 0⟩)] }), by decide⟩,
    ⟨0, wFrame, wOn |> State.modDur (fun x => { x with drain := 0 }) |> State.modCoal (fun c => { c with frames := [(0, wFrame)] }), by decide⟩,
    ⟨0, wFrame, wOn |> State.modDur (fun x => { x with drain := 0 }) |> State.modCoal (fun c =>
      { c with frames := (List.range 64).map (fun i => (i, { wFrame with frame := i, order := i })) }), by decide +kernel⟩,
    ⟨0, wOn, by decide⟩,
    ⟨0, wFrame, wOn |> State.modCoal (fun x => { x with frames := [((0 : Nat), wFrame)] }), by decide⟩,
    ⟨wOn |> State.modFld (fun f => { f with opens := [{ wOpen with next := 1 }] }), by decide⟩,
    ⟨0, { wOpen with next := 1 }, wOn |> State.modFld (fun x => { x with opens := [{ wOpen with next := 1 }] }), by decide⟩⟩

/-- States and operands that meet the hypotheses of FabricCommandsStartAndSuspend, clause by clause. -/
theorem witness_FabricCommandsStartAndSuspend :
    (∃ (c : Fin 32) (d : Fin 8) (p : Fin 4) (f : Fin 8192) (r : Fin 8192) (mask : BitVec 65) (offs : List Int) (s : State), s.readStarts c.val d.val
      p.val false = true ∧ s.readRefused c.val d.val (mkPfa c.val d.val p.val f.val r.val) = false ∧ s.readTurn (mkPfa c.val d.val p.val f.val
      r.val) mask.toNat offs = true ∧ s.windowOpen c.val d.val p.val = true ∧ tget s.med.latches (planeNo c.val d.val p.val) ≠ some (mkPfa c.val
      d.val p.val f.val r.val, offs)) ∧
    (∃ (c : Fin 32) (d : Fin 8) (p : Fin 4) (f : Fin 8192) (r : Fin 8192) (s : State), s.readStarts c.val d.val p.val false = true ∧ s.readRefused
      c.val d.val (mkPfa c.val d.val p.val f.val r.val) = true) ∧
    (∃ (c : Fin 32) (d : Fin 8) (p : Fin 4) (mask : BitVec 65) (pfa : Nat) (offs : List Int) (s : State), tget s.med.latches (planeNo c.val d.val
      p.val) = some (pfa, offs) ∧ s.readStarts c.val d.val p.val false = true ∧ s.readTurn pfa mask.toNat offs = true ∧ s.windowOpen c.val d.val
      p.val = true) ∧
    (∃ (c : Fin 32) (d : Fin 8) (p : Fin 4) (f : Fin 8192) (r : Fin 2) (s : State), s.readStarts c.val d.val p.val true = true ∧ s.readRefused c.val
      d.val (mkPfa c.val d.val p.val f.val r.val) = false ∧ s.starTurn (planeNo c.val d.val p.val) = true ∧ s.windowOpen c.val d.val p.val = true) ∧
    (∃ (c : Fin 32) (d : Fin 8) (mode1 : Bool) (rows : List PlaneRow) (rs : List (Nat × MRow)) (u : State) (s : State), rows ≠ [] ∧ onePerPlane rows
      = true ∧ s.mayProgram c.val d.val = true ∧ ((rows.map (fun r => mkPfa c.val d.val r.plane.val r.field.val r.row.val)).all fun p => s.oneBit p
      == mode1) = true ∧ (if mode1 then s.quadWhole1 c.val d.val (rows.map (fun r => mkPfa c.val d.val r.plane.val r.field.val r.row.val)) else
      !s.sealedWaits (groupOf c.val d.val) && s.quadWhole c.val d.val (rows.map (fun r => mkPfa c.val d.val r.plane.val r.field.val r.row.val))) =
      true ∧ (s.hostFirst c.val d.val = false ∨ ∀ p ∈ (rows.map (fun r => mkPfa c.val d.val r.plane.val r.field.val r.row.val)), s.streamOf p ≠ some
      streamCollect ∧ s.streamOf p ≠ some streamCold) ∧ images mode1 (rows.map (fun r => mkPfa c.val d.val r.plane.val r.field.val r.row.val)) s =
      some (rs, u)) ∧
    (∃ (c : Fin 32) (d : Fin 8) (mode1 : Bool) (r : PlaneRow) (s : State), s.mayErase c.val d.val s.drainingPlates = true ∧ s.sealedWaits (groupOf
      c.val d.val) = false ∧ s.programWaits c.val d.val = false ∧ s.eraseWaits (mkPfa c.val d.val r.plane.val r.field.val 0) = true ∧ mode1 =
      s.setMode1 (setOf (mkPfa c.val d.val r.plane.val r.field.val 0)) ∧ (∀ k < 4, s.eraseWaits (mkPfa c.val d.val k (pfaField (mkPfa c.val d.val
      r.plane.val r.field.val 0)) 0) = true → k = pfaPlane (mkPfa c.val d.val r.plane.val r.field.val 0))) ∧
    (∃ (c : Fin 32) (d : Fin 8) (s : State), s.suspendable c.val d.val = true) ∧
    (∃ (c : Fin 32) (d : Fin 8) (s : State), (s.die (dieNo c.val d.val)).suspending = true) ∧
    (∃ (c : Fin 32) (d : Fin 8) (s : State), s.dieSuspended c.val d.val = true ∧ s.dieReads (dieNo c.val d.val) = false ∧ (s.windowReads c.val d.val
      = false ∨ s.get (F.MCH_SCHED_CFG_WIN_READS c.val) ≤ (s.die (dieNo c.val d.val)).win ∨ s.get (F.MCH_SCHED_CFG_WIN_US c.val) * 1000 ≤ s.now -
      (s.die (dieNo c.val d.val)).winAt)) ∧
    (∃ (c : Fin 32) (d : Fin 8) (s : State), s.on (F.MCH_DIE_STATUS_SLICE c.val d.val) = true) ∧
    (∃ (c : Fin 32) (d : Fin 8) (s : State), s.chTakes c.val true = true ∧ (s.die (dieNo c.val d.val)).op = .none ∧ s.dieReads (dieNo c.val d.val) =
      false) ∧
    (∃ (c : Fin 32) (s : State), s.chTakes c.val true = true) ∧
    (∃ (c : Fin 32) (step : Fin 6) (s : State), s.chTakes c.val true = true ∧ 1 ≤ step.val ∧ tget s.med.training c.val = none) :=
  ⟨⟨0, 0, 0, 0, 0, 0, [], wOn, by decide⟩,
    ⟨0, 0, 1, 0, 0, wOn |> State.modMed (fun m => { m with dies := [(0, { DieSt.reset with op := .program false [(mkPfa 0 0 1 0 0, MRow.reset)] })] })
      |> setF (F.MCH_DIE_STATUS_SUSPENDED 0 0) 1, by decide⟩,
    ⟨0, 0, 0, 0, 0, [], wOn |> State.modMed (fun x =>
      { x with latches := [((planeNo (0 : Fin 32).val (0 : Fin 8).val (0 : Fin 4).val), ((0 : Nat), ([] : List Int)))] }), by decide⟩,
    ⟨0, 0, 0, 0, 0, wOn, by decide⟩,
    ⟨0, 0, true, [⟨0, 0, 2⟩], _, _, wOn |> State.modFld (fun f =>
      { f with opens := [{ wOpen with row := 0, done := 254 }], tbl := [(0, { FRec.reset with mode1 := true })] }) |> State.modDur (fun x =>
      { x with rows := [⟨⟨1, 0, false, false, false, 0, []⟩, none, none, false⟩] }), by decide, by decide, by decide +kernel, by decide +kernel,
      by decide +kernel, .inl (by decide +kernel), rfl⟩,
    ⟨0, 0, false, (⟨0, 0, 0⟩ : PlaneRow), wOn |> State.modFld (fun f => { f with erasing := [0], tbl := [(0, { FRec.reset with erasePend := true })] }),
      by decide⟩,
    ⟨0, 0, wOn |> State.modMed (fun m => { m with dies := [(0, { DieSt.reset with op := .erase false [0] })] }), by decide⟩,
    ⟨0, 0, wOn |> State.modMed (fun x => { x with dies := [((dieNo (0 : Fin 32).val (0 : Fin 8).val), { DieSt.reset with suspending := true })] }),
      by decide⟩,
    ⟨0, 0, wOn |> setF (F.MCH_DIE_STATUS_SUSPENDED 0 0) 1, by decide⟩,
    ⟨0, 0, wOn |> setF (F.MCH_DIE_STATUS_SLICE (0 : Fin 32).val (0 : Fin 8).val) 1, by decide⟩,
    ⟨0, 0, wOn |> State.modMed (fun x => { x with dies := [((dieNo (0 : Fin 32).val (0 : Fin 8).val), { DieSt.reset with op := .none })] }), by decide⟩,
    ⟨0, wOn, by decide⟩,
    ⟨0, 1, wOn, by decide⟩⟩

/-- States and operands that meet the hypotheses of FabricCommandsEnd, clause by clause. -/
theorem witness_FabricCommandsEnd :
    (∃ (plane : Fin 1024) (pfa : Nat) (offs : List Int) (l : Bool) (s : State), tget s.med.planes plane.val = some (.read pfa 1 offs l) ∧
      s.med.reads = []) ∧
    (∃ (q : RdReq) (r : HReq) (kid : Nat) (d : Line) (s : State) (t : State), q.src = .host r ∧ q.hdr = false ∧ (s.row q.pfa).map (·.kid) = some kid
      ∧ mediaLine q.pfa r.ld (folioOf r.dpa) (frameOf r.dpa) kid q.line (laneCount 1 (dropRead q s)) = (d, t)) ∧
    (∃ (plane : Fin 1024) (pfa : Nat) (sweep : Int) (m : Meas) (s : State), tget s.med.planes plane.val = some (.star pfa 15 sweep) ∧ s.measAt pfa =
      some m ∧ s.measSweep m = sweep) ∧
    (∃ (id : Nat) (r : Rebuild) (s : State), s.med.rebuilds = [r] ∧ r.id = id ∧ r.failed = false ∧ r.left = [] ∧ s.med.reads = []) ∧
    (∃ (c : Fin 32) (d : Fin 8) (m1 : Bool) (x : Nat × MRow) (s : State), s.dieSuspended c.val d.val = false ∧ (s.die (dieNo c.val d.val)).op =
      .program m1 [x]) ∧
    (∃ (c : Fin 32) (d : Fin 8) (p : Fin 4) (m1 : Bool) (x : Nat × MRow) (s : State), s.dieSuspended c.val d.val = false ∧ (s.die (dieNo c.val
      d.val)).op = .program m1 [x] ∧ pfaPlane x.1 = p.val) ∧
    (∃ (c : Fin 32) (d : Fin 8) (m1 : Bool) (f : Nat) (s : State), s.dieSuspended c.val d.val = false ∧ (s.die (dieNo c.val d.val)).op = .erase m1
      [f]) ∧
    (∃ (c : Fin 32) (d : Fin 8) (s : State), (s.die (dieNo c.val d.val)).op = .ident) ∧
    (∃ (c : Fin 32) (step : Nat) (s : State), tget s.med.training c.val = some step) ∧
    (∃ (c : Fin 32) (d : Fin 8) (s : State), s.dieSuspended c.val d.val = false ∧ (s.die (dieNo c.val d.val)).op = .ident) ∧
    (∃ (c : Fin 32) (d : Fin 8) (s : State), s.get (F.MCH_STATUS_STATE c.val) = chOnline ∧ s.on (F.MCH_DIE_STATUS_FAILED c.val d.val) = false) ∧
    (∃ (c : Fin 32) (s : State), s.get (F.MCH_STATUS_STATE c.val) = 1 ∧ (∀ d < 8, s.on (F.MCH_DIE_STATUS_FAILED c.val d) = false)) ∧
    (∃ (c : Fin 32) (s : State), s.get (F.MCH_STATUS_STATE c.val) = chOnline ∧ s.glb.mode = .quiet ∧ s.med.planes = [] ∧ s.med.dies = []) :=
  ⟨⟨0, 0, [], false, wOn |> State.modMed (fun x =>
      { x with planes := [((0 : Fin 1024).val, (.read (0 : Nat) 1 ([] : List Int) false))], reads := [] }), by decide⟩,
    ⟨wRead, wReq, 0, _, wOn |> State.modMed (fun m => { m with rows := [(0, { MRow.reset with kind := .data, zero := true })] }), _, rfl, rfl, rfl, rfl⟩,
    ⟨0, 0, 0, wMeas, wOn |> State.modMed (fun x => { x with planes := [((0 : Fin 1024).val, (.star (0 : Nat) 15 (0 : Int)))] }) |> State.modDrift (fun d
      => { d with meas := [wMeas] }), by decide⟩,
    ⟨0, (⟨0, 0, 0, [], false, false⟩ : Rebuild), wOn |> State.modMed (fun x =>
      { x with rebuilds := [((⟨0, 0, 0, [], false, false⟩ : Rebuild) : Rebuild)], reads := [] }), by decide⟩,
    ⟨0, 0, false, (0, MRow.reset), wOn |> State.modMed (fun x =>
      { x with dies := [((dieNo (0 : Fin 32).val (0 : Fin 8).val), { DieSt.reset with op := .program false [((0, MRow.reset) : Nat × MRow)] })] }),
      by decide⟩,
    ⟨0, 0, 0, false, (0, MRow.reset), wOn |> State.modMed (fun x =>
      { x with dies := [((dieNo (0 : Fin 32).val (0 : Fin 8).val), { DieSt.reset with op := .program false [((0, MRow.reset) : Nat × MRow)] })] }),
      by decide⟩,
    ⟨0, 0, false, 0, wOn |> State.modMed (fun x =>
      { x with dies := [((dieNo (0 : Fin 32).val (0 : Fin 8).val), { DieSt.reset with op := .erase false [(0 : Nat)] })] }), by decide⟩,
    ⟨0, 0, wOn |> State.modMed (fun x => { x with dies := [((dieNo (0 : Fin 32).val (0 : Fin 8).val), { DieSt.reset with op := .ident })] }), by decide⟩,
    ⟨0, 0, wOn |> State.modMed (fun x => { x with training := [((0 : Fin 32).val, (0 : Nat))] }), by decide⟩,
    ⟨0, 0, wOn |> State.modMed (fun x => { x with dies := [((dieNo (0 : Fin 32).val (0 : Fin 8).val), { DieSt.reset with op := .ident })] }), by decide⟩,
    ⟨0, 0, wOn |> setF (F.MCH_STATUS_STATE (0 : Fin 32).val) chOnline |> setF (F.MCH_DIE_STATUS_FAILED (0 : Fin 32).val (0 : Fin 8).val) 0, by decide⟩,
    ⟨0, wOn |> setF (F.MCH_STATUS_STATE (0 : Fin 32).val) 1, by decide⟩,
    ⟨0, wOn |> setF (F.MCH_STATUS_STATE (0 : Fin 32).val) chOnline |> State.modGlb (fun x => { x with mode := .quiet }) |> State.modMed (fun x =>
      { x with planes := [], dies := [] }), by decide⟩⟩

/-- States and operands that meet the hypotheses of LiveReloadsRunPerUnit, clause by clause. -/
theorem witness_LiveReloadsRunPerUnit :
    (∃ (v : BitVec 32) (s : State), v.toNat.testBit 31 = true ∧ s.on F.IMG_RELOAD_STATUS_BUSY = false) ∧
    (∃ (v : BitVec 32) (s : State), v.toNat.testBit 31 = true ∧ s.on F.IMG_RELOAD_STATUS_BUSY = false ∧ v.toNat / 2 ^ 24 % 16 = 0) ∧
    (∃ (c : Nat) (src : Nat) (i : Image) (g : ChanSeg) (s : State), s.reloadImage src = some i ∧ i.segOf c = some g ∧ s.glb.transTo = none ∧
      s.dome.huOk = true ∧ s.get (F.MCH_STATUS_STATE c) = chOnline) ∧
    (∃ (c : Nat) (src : Nat) (i : Image) (s : State), s.reloadImage src = some i ∧ i.segOf c = none) ∧
    (∃ (c : Fin 32) (s : State), s.get (F.MCH_STATUS_STATE c.val) = 4 ∧ s.med.dies = [] ∧ s.med.planes = []) ∧
    (∃ (c : Fin 32) (g : ChanSeg) (s : State), s.get (F.MCH_STATUS_STATE c.val) = 5 ∧ s.on (F.MCH_STATUS_ROLLBACK c.val) = false ∧ tget
      s.img.nextSegs c.val = some g) ∧
    (∃ (c : Fin 32) (s : State), s.get (F.MCH_STATUS_STATE c.val) = 5 ∧ s.on (F.MCH_STATUS_ROLLBACK c.val) = false ∧ (tget s.img.oldSegs
      c.val).isSome = true) ∧
    (∃ (c : Fin 32) (s : State), s.get (F.MCH_STATUS_STATE c.val) = 6 ∧ (∃ d < 8, s.on (F.MCH_DIE_STATUS_FAILED c.val d) = false)) ∧
    (∃ (c : Fin 32) (s : State), s.get (F.MCH_STATUS_STATE c.val) = 7 ∧ s.on (F.MCH_STATUS_ROLLBACK c.val) = false) ∧
    (∃ (s : State), s.dome.flip = true ∧ s.seqsBusy = false ∧ s.img.reload = none) ∧
    (∃ (g : AsstSeg) (s : State), s.standbyCore = 0 ∧ s.img.asstA = some g ∧ s.img.reload = none) ∧
    (∃ (s : State), s.on F.IMG_ASSIST_STANDBY_READY = false ∧ s.img.reload = none) ∧
    (∃ (s : State), s.on F.IMG_ASSIST_SWAP_BUSY = true) ∧
    (∃ (s : State), s.glb.transTo = none ∧ s.on F.IMG_ASSIST_STANDBY_READY = true) ∧
    (∃ (res : Nat) (r : Reload) (s : State), s.img.reload = some r ∧ s.img.act = none ∧ res < 8) :=
  ⟨⟨0x80000000, wOn |> setF F.IMG_RELOAD_STATUS_BUSY 0, by decide⟩,
    ⟨0x80000000, wOn |> setF F.IMG_RELOAD_STATUS_BUSY 0, by decide⟩,
    ⟨0, 0, { wImage with chan := [(0xFFFFFFFF, wSeg)] }, wSeg, wOn |> setF (F.MCH_STATUS_STATE (0 : Nat)) chOnline |> State.modGlb (fun x =>
      { x with transTo := none }) |> State.modDome (fun x => { x with huOk := true }) |> State.modImg (fun x =>
      { x with stage := some { wImage with chan := [(0xFFFFFFFF, wSeg)] } }), by decide⟩,
    ⟨1, 0, wImage, wOn |> State.modImg (fun x => { x with stage := some wImage }), by decide⟩,
    ⟨0, wOn |> setF (F.MCH_STATUS_STATE (0 : Fin 32).val) 4 |> State.modMed (fun x => { x with dies := [], planes := [] }), by decide⟩,
    ⟨0, wSeg, wOn |> setF (F.MCH_STATUS_STATE (0 : Fin 32).val) 5 |> setF (F.MCH_STATUS_ROLLBACK (0 : Fin 32).val) 0 |> State.modImg (fun x =>
      { x with nextSegs := [((0 : Fin 32).val, wSeg)] }), by decide⟩,
    ⟨0, wOn |> setF (F.MCH_STATUS_STATE (0 : Fin 32).val) 5 |> setF (F.MCH_STATUS_ROLLBACK (0 : Fin 32).val) 0 |> State.modImg (fun x =>
      { x with oldSegs := [(0, wSeg)] }), by decide⟩,
    ⟨0, wOn |> setF (F.MCH_STATUS_STATE (0 : Fin 32).val) 6, by decide⟩,
    ⟨0, wOn |> setF (F.MCH_STATUS_STATE (0 : Fin 32).val) 7 |> setF (F.MCH_STATUS_ROLLBACK (0 : Fin 32).val) 0, by decide⟩,
    ⟨wOn |> State.modDome (fun x => { x with flip := true }) |> State.modImg (fun x => { x with reload := none }), by decide⟩,
    ⟨(⟨1, 0⟩ : AsstSeg), wOn |> State.modImg (fun x => { x with asstA := some ((⟨1, 0⟩ : AsstSeg) : AsstSeg), reload := none }) |> setF
      F.IMG_ASSIST_RUNNING 1, by decide⟩,
    ⟨wOn |> setF F.IMG_ASSIST_STANDBY_READY 0 |> State.modImg (fun x => { x with reload := none }), by decide⟩,
    ⟨wOn |> setF F.IMG_ASSIST_SWAP_BUSY 1, by decide⟩,
    ⟨wOn |> setF F.IMG_ASSIST_STANDBY_READY 1 |> State.modGlb (fun x => { x with transTo := none }), by decide⟩,
    ⟨0, (⟨0, 0, 0, 0⟩ : Reload), wOn |> State.modImg (fun x => { x with reload := some ((⟨0, 0, 0, 0⟩ : Reload) : Reload), act := none }), by decide⟩⟩

/-- States and operands that meet the hypotheses of DriftIsMeasuredScrubbedAndQueried, clause by clause. -/
theorem witness_DriftIsMeasuredScrubbedAndQueried :
    (∃ (s : State), (s.glb.mode = .active ∨ s.glb.mode = .quiet)) ∧
    (∃ (set : Fin 1048576) (s : State), s.glb.mode = .active ∧ s.dur.drain = 0 ∧ s.isDue set.val = true ∧ s.on F.DRIFT_CTL_FORCE_EN = false ∧ s.set4
      set.val = true ∧ s.drift.meas = []) ∧
    (∃ (m : Meas) (e14 : Nat) (e15 : Nat) (s : State), s.drift.meas = [m] ∧ e14 ≤ e15 ∧ m.lo < (m.lo + m.hi + 1) / 2 - 1) ∧
    (∃ (m : Meas) (e14 : Nat) (e15 : Nat) (s : State), s.drift.meas = [m] ∧ e15 < e14 ∧ (m.lo + m.hi + 1) / 2 < m.hi) ∧
    (∃ (m : Meas) (e14 : Nat) (e15 : Nat) (s : State), e15 < e14 ∧ m.hi ≤ (m.lo + m.hi + 1) / 2 ∧ min m.best (e14 + e15) ≤ s.get
      F.DRIFT_MEAS_CFG_MAX_ERR) ∧
    (∃ (set : Nat) (wrapped : Bool) (s : State), s.on F.DRIFT_CTL_SCRUB_EN = true ∧ s.glb.mode = .active ∧ s.dur.drain = 0 ∧ s.scrubNext = some
      (set, wrapped) ∧ s.scrubWaits set = false ∧ set + 1 < 2 ^ 20 ∧ (∃ x ∈ s.usedSets, set < x)) ∧
    (∃ (v : Word), v.toNat.testBit 63 = true) ∧
    (∃ (v : BitVec 32) (s : State), (storeAt 0x300000 v.toNat s).on F.DRIFT_CTL_FORCE_EN = true ∧ s.on F.DRIFT_CTL_FORCE_EN = false ∧ s.drift.meas =
      []) ∧
    (∃ (v : BitVec 32) (s : State), (storeAt 0x300000 v.toNat s).on F.DRIFT_CTL_FORCE_EN = false) :=
  ⟨⟨wOn |> State.modGlb (fun x => { x with mode := .active }), by decide⟩,
    ⟨0, wOn |> setF F.DRIFT_CTL_FORCE_EN 0 |> State.modGlb (fun x => { x with mode := .active }) |> State.modDur (fun x => { x with drain := 0 }) |>
      State.modDrift (fun x => { x with meas := [] }) |> State.modDrift (fun d => { d with recs := [(0, ⟨true, 0, 0, 0, 0⟩)] }) |> setF
      F.DRIFT_MINUTES_MINUTES 1, by decide⟩,
    ⟨wMeas, 0, 0, wOn |> State.modDrift (fun x => { x with meas := [wMeas] }), by decide⟩,
    ⟨wMeas, 1, 0, wOn |> State.modDrift (fun x => { x with meas := [wMeas] }), by decide⟩,
    ⟨{ wMeas with lo := 7 }, 1, 0, wOn |> setF F.DRIFT_MEAS_CFG_MAX_ERR 1, by decide⟩,
    ⟨0, false, wTwoSets, by decide, rfl, by decide, by unfold State.scrubNext; rw [wTwoSets_used]; decide +kernel, by decide +kernel, by decide, ⟨1, by
      rw [wTwoSets_used]; decide, by decide⟩⟩,
    ⟨0x8000000000000000, by decide⟩,
    ⟨8, wOn |> setF F.DRIFT_CTL_FORCE_EN 0 |> State.modDrift (fun x => { x with meas := [] }), by decide⟩,
    ⟨0, wOn, by decide⟩⟩

/-- States and operands that meet the hypotheses of MoversAndFieldsWork, clause by clause. -/
theorem witness_MoversAndFieldsWork :
    (∃ (m : Fin 4) (set : Nat) (sc : Int) (s : State), (s.mover m.val).job = 0 ∧ s.jobNext jobGc = true ∧ s.fld.paused = [] ∧ s.gcVictim = some
      (set, sc)) ∧
    (∃ (m : Fin 4) (set : Nat) (s : State), (s.mover m.val).job = 0 ∧ s.jobNext jobWear = true ∧ s.fld.paused = [] ∧ s.wearPick = some set) ∧
    (∃ (m : Fin 4) (f : Nat) (s : State), s.on F.FLD_CTL_REWRITE_EN = true ∧ s.jobMode jobRewrite = true ∧ ((rwqDrop s).mover m.val).job = 0 ∧
      (rwqDrop s).jobNext jobRewrite = true ∧ (rwqDrop s).fld.paused = [] ∧ (rwqDrop s).rewritePick = some f) ∧
    (∃ (m : Fin 4) (set : Nat) (l : List Nat) (s : State), (s.mover m.val).job = 0 ∧ s.jobNext jobRelocate = true ∧ s.fld.paused = [] ∧ s.fld.relocQ
      = set :: l) ∧
    (∃ (m : Fin 4) (s : State), (s.mover m.val).job = jobGc ∧ s.jobMode jobGc = true) ∧
    (∃ (m : Fin 4) (set : Nat) (l : List Nat) (s : State), (s.mover m.val).job = 0 ∧ s.jobNext jobVerify = true ∧ s.fld.verifyQ = set :: l ∧ s.mayGo
      classMover 0 (s.setRows set * (s.verifyMembers set).length * 16384) = true ∧ (∀ k ∈ s.verifyMembers set, s.unitHow (setPfa set k 2) false =
      .array)) ∧
    (∃ (m : Fin 4) (ld : Nat) (f : Nat) (ctx : Nat) (l : List (Nat × Nat × Nat)) (s : State), (s.mover m.val).job = 0 ∧ s.jobNext jobSeal = true ∧
      64 ≤ min (s.get F.FLD_BUF_CFG_MOV_TOKENS) s.frameFree ∧ s.copyMay 64 = true ∧ s.on F.XLAT_POOL_STATUS_CRIT = false ∧ s.fld.sealQ = (ctx, ld,
      f) :: l ∧ (s.modFld (fun x => { x with sealQ := x.sealQ.drop 1 })).sealHow ld f = .skip) ∧
    (∃ (m : Fin 4) (ld : Nat) (f : Nat) (ctx : Nat) (l : List (Nat × Nat × Nat)) (s : State), (s.mover m.val).job = 0 ∧ s.jobNext jobSeal = true ∧
      64 ≤ min (s.get F.FLD_BUF_CFG_MOV_TOKENS) s.frameFree ∧ s.copyMay 64 = true ∧ s.on F.XLAT_POOL_STATUS_CRIT = false ∧ s.fld.sealQ = (ctx, ld,
      f) :: l ∧ (s.modFld (fun x => { x with sealQ := x.sealQ.drop 1 })).sealHow ld f = .go ∧ (∀ i < 64, frState ((s.modFld (fun x =>
      { x with sealQ := x.sealQ.drop 1 })).frameOfFolio ((s.modFld (fun x => { x with sealQ := x.sealQ.drop 1 })).folio ld f) i) = 1 → (s.modFld
      (fun x => { x with sealQ := x.sealQ.drop 1 })).moverHow (frLoc ((s.modFld (fun x => { x with sealQ := x.sealQ.drop 1 })).frameOfFolio
      ((s.modFld (fun x => { x with sealQ := x.sealQ.drop 1 })).folio ld f) i)) ≠ .wait ∧ (s.modFld (fun x =>
      { x with sealQ := x.sealQ.drop 1 })).moverHow (frLoc ((s.modFld (fun x => { x with sealQ := x.sealQ.drop 1 })).frameOfFolio ((s.modFld (fun x
      => { x with sealQ := x.sealQ.drop 1 })).folio ld f) i)) ≠ .gone)) ∧
    (∃ (set : Fin 1048576) (s : State), s.fld.eraseQ.contains set.val = true ∧ s.setRead set.val = false) ∧
    (∃ (s : State), s.fld.rebin = true) ∧
    (∃ (set : Nat) (s : State), s.eligible set = true ∧ s.setV set ≠ 0) ∧
    (∃ (s : State), s.fld.movers = [] ∧ s.fld.paused = []) ∧
    (∃ (v : Word), v.toNat.testBit 63 = true) ∧
    (∃ (s : State), s.on F.FLD_CTL_VERIFY_EN = false) ∧
    (∃ (v : BitVec 32) (s : State), s.on F.FLD_CTL_VERIFY_EN = true ∧ (storeAt 0x80000 v.toNat s).on F.FLD_CTL_VERIFY_EN = false) :=
  ⟨⟨0, 0, 0, wOn |> State.modFld (fun x => { x with paused := [] }) |> State.modFld (fun x =>
      { x with movers := [((0 : Fin 4).val, { Mover.reset with job := 0 })] }) |> wSet (wVer 1) |> State.modFld (fun f =>
      { f with bins := [(0, (2048, 0))] }), by decide⟩,
    ⟨0, 0, wOn |> State.modFld (fun x => { x with paused := [] }) |> State.modFld (fun x =>
      { x with movers := [((0 : Fin 4).val, { Mover.reset with job := 0 })] }) |> wSet (wVer 1) |> setF F.FLD_WEAR_STATUS_CAMPAIGN 1,
      by decide +kernel⟩,
    ⟨0, 0, wOn |> setF F.FLD_CTL_REWRITE_EN 1 |> wSet (wVer 1) |> setF F.FLD_CTL_REWRITE_EN 1 |> State.modDrift (fun d => { d with rwq := [0] }),
      by decide +kernel⟩,
    ⟨0, 0, [], wOn |> State.modFld (fun x => { x with paused := [], relocQ := (0 : Nat) :: ([] : List Nat) }) |> State.modFld (fun x =>
      { x with movers := [((0 : Fin 4).val, { Mover.reset with job := 0 })] }), by decide⟩,
    ⟨0, wOn |> State.modFld (fun x => { x with movers := [((0 : Fin 4).val, { Mover.reset with job := jobGc })] }), by decide⟩,
    ⟨0, 0, [], wOn |> State.modFld (fun x => { x with verifyQ := (0 : Nat) :: ([] : List Nat) }) |> State.modFld (fun x =>
      { x with movers := [((0 : Fin 4).val, { Mover.reset with job := 0 })] }), by decide⟩,
    ⟨0, 0, 0, 0, [], wOn |> setF F.XLAT_POOL_STATUS_CRIT 0 |> State.modFld (fun x =>
      { x with sealQ := ((0 : Nat), (0 : Nat), (0 : Nat)) :: ([] : List (Nat × Nat × Nat)) }) |> State.modFld (fun x =>
      { x with movers := [((0 : Fin 4).val, { Mover.reset with job := 0 })] }), by decide⟩,
    ⟨0, 0, 0, 0, [], wOn |> setF F.XLAT_POOL_STATUS_CRIT 0 |> State.modFld (fun x =>
      { x with sealQ := ((0 : Nat), (0 : Nat), (0 : Nat)) :: ([] : List (Nat × Nat × Nat)) }) |> State.modFld (fun x =>
      { x with movers := [((0 : Fin 4).val, { Mover.reset with job := 0 })] }) |> State.modWm (fun w =>
      { w with words := [(0, 2 ^ 63 + 1)] ++ (List.range 64).map (fun i => (i + 64, 2 ^ 62)) }) |> State.modCiph (fun c =>
      { c with kids := [(0, { Kid.reset with st := 3 })] }) |> State.modDrift (fun x => { x with recs := [(0, ⟨true, 0, 0, 0, 0⟩)] }),
      by decide +kernel⟩,
    ⟨0, wOn |> State.modFld (fun f => { f with eraseQ := [0] }), by decide⟩,
    ⟨wOn |> State.modFld (fun x => { x with rebin := true }), by decide⟩,
    ⟨0, wOn |> wSet (wVer 1), by decide⟩,
    ⟨wOn |> State.modFld (fun x => { x with movers := [], paused := [] }), by decide⟩,
    ⟨0x8000000000000000, by decide⟩,
    ⟨wOn |> setF F.FLD_CTL_VERIFY_EN 0, by decide⟩,
    ⟨0, wOn |> setF F.FLD_CTL_VERIFY_EN 1, by decide⟩⟩

/-- States and operands that meet the hypotheses of JournalSyncAndCheckpointRun, clause by clause. -/
theorem witness_JournalSyncAndCheckpointRun :
    (∃ (r : JRec) (l : List JRec) (s : State), s.dur.build = r :: l) ∧
    (∃ (s : State), s.dur.rows ≠ []) ∧
    (∃ (tok : Nat) (f : Frame) (s : State), tget s.coal.frames tok = some f ∧ f.bypass = true) ∧
    (∃ (v : BitVec 32), v.toNat.testBit 31 = true) ∧
    (∃ (s : State), s.on F.DUR_STATUS_HU_OK = true ∧ s.glb.mode = .active) ∧
    (∃ (v : BitVec 32) (s : State), v.toNat.testBit 0 = true ∧ s.dur.writing = none) ∧
    (∃ (s : State), s.on F.DUR_CTL_CKPT_AUTO = true ∧ s.dur.drain = 0 ∧ (s.glb.mode = .active ∨ s.glb.mode = .quiet) ∧ s.dur.writing = none) ∧
    (∃ (c : Ckpt) (s : State), s.xlat.rebuilding = [] ∧ s.dur.writing = some c ∧ s.alm.wp = false ∧ (c.clean = true ∨ s.mayGo classMover 1
      (s.ckptBytes c) = true)) ∧
    (∃ (s : State), s.asstStalled = false ∧ (s.glb.mode = .active ∨ s.glb.mode = .quiet ∨ s.glb.mode = .parked)) :=
  ⟨⟨(⟨1, 1, 0, 0, 0, [], 0, 0⟩ : JRec), [], wOn |> State.modDur (fun x =>
      { x with build := ((⟨1, 1, 0, 0, 0, [], 0, 0⟩ : JRec) : JRec) :: ([] : List JRec) }), by decide⟩,
    ⟨wOn |> State.modDur (fun x => { x with rows := [⟨⟨1, 0, false, false, false, 0, []⟩, none, none, false⟩] }), by decide⟩,
    ⟨0, { wFrame with bypass := true }, wOn |> State.modCoal (fun x => { x with frames := [((0 : Nat), (({ wFrame with bypass := true }) : Frame))] }),
      by decide⟩,
    ⟨0x80000000, by decide⟩,
    ⟨wOn |> setF F.DUR_STATUS_HU_OK 1 |> State.modGlb (fun x => { x with mode := .active }), by decide⟩,
    ⟨0x1, wOn |> State.modDur (fun x => { x with writing := none }), by decide⟩,
    ⟨wOn |> setF F.DUR_CTL_CKPT_AUTO 1 |> State.modDur (fun x => { x with drain := 0, writing := none }) |> State.modGlb (fun x =>
      { x with mode := .active }), by decide⟩,
    ⟨wCkpt, wOn |> State.modXlat (fun x => { x with rebuilding := [] }) |> State.modDur (fun x => { x with writing := some wCkpt }) |> State.modAlm (fun
      x => { x with wp := false }), by decide⟩,
    ⟨wOn |> State.modGlb (fun x => { x with mode := .active }), by decide⟩⟩

/-- States and operands that meet the hypotheses of WorkingMemoryRows, clause by clause. -/
theorem witness_WorkingMemoryRows :
    (∃ (e : MergeEnt) (l : List MergeEnt) (s : State), s.wm.merge = e :: l ∧ e.mask = 2 ^ 64 - 1) ∧
    (∃ (e : MergeEnt) (l : List MergeEnt) (s : State), s.wm.merge = e :: l ∧ e.mask ≠ 2 ^ 64 - 1 ∧ s.wm.markers = []) ∧
    (∃ (e : MergeEnt) (l : List MergeEnt) (s : State), s.wm.merge = e :: l ∧ e.mask ≠ 2 ^ 64 - 1) ∧
    (∃ (s : State), s.on F.WMEM_SCRUB_CFG_EN = true ∧ s.glb.mode = .active ∧ s.wm.merge = [] ∧ s.wm.markers = []) ∧
    (∃ (s : State), s.on F.WMEM_SCRUB_CFG_EN = true ∧ s.glb.mode = .active ∧ s.wm.merge = []) ∧
    (∃ (c : Fin 4) (v : BitVec 32) (s : State), v.toNat.testBit 31 = true ∧ s.on (F.WMEM_TEST_CTL_BUSY c.val) = false ∧ (storeAt (0x310100 + c.val *
      0x4000) v.toNat s).get (F.WMEM_TEST_CTL_OP c.val) = 1) ∧
    (∃ (c : Fin 4) (v : BitVec 32) (s : State), v.toNat.testBit 31 = true ∧ s.on (F.WMEM_TEST_CTL_BUSY c.val) = false ∧ (storeAt (0x310100 + c.val *
      0x4000) v.toNat s).get (F.WMEM_TEST_CTL_OP c.val) = 2) ∧
    (∃ (v : BitVec 32), v.toNat.testBit 31 = true) ∧
    (∃ (s : State), s.on F.MERID_STATUS_REKEY = true) :=
  ⟨⟨(⟨0, 2 ^ 64 - 1, []⟩ : MergeEnt), [], wOn |> State.modWm (fun x =>
      { x with merge := ((⟨0, 2 ^ 64 - 1, []⟩ : MergeEnt) : MergeEnt) :: ([] : List MergeEnt) }), by decide⟩,
    ⟨(⟨0, 0, []⟩ : MergeEnt), [], wOn |> State.modWm (fun x =>
      { x with merge := ((⟨0, 0, []⟩ : MergeEnt) : MergeEnt) :: ([] : List MergeEnt), markers := [] }), by decide⟩,
    ⟨(⟨0, 0, []⟩ : MergeEnt), [], wOn |> State.modWm (fun x => { x with merge := ((⟨0, 0, []⟩ : MergeEnt) : MergeEnt) :: ([] : List MergeEnt) }),
      by decide⟩,
    ⟨wOn |> setF F.WMEM_SCRUB_CFG_EN 1 |> State.modGlb (fun x => { x with mode := .active }) |> State.modWm (fun x =>
      { x with merge := [], markers := [] }), by decide⟩,
    ⟨wOn |> setF F.WMEM_SCRUB_CFG_EN 1 |> State.modGlb (fun x => { x with mode := .active }) |> State.modWm (fun x => { x with merge := [] }),
      by decide⟩,
    ⟨0, 0x80000000 ||| 0x10000000, wOn |> setF (F.WMEM_TEST_CTL_BUSY (0 : Fin 4).val) 0, by decide⟩,
    ⟨0, 0x80000000 ||| 0x20000000, wOn |> setF (F.WMEM_TEST_CTL_BUSY (0 : Fin 4).val) 0, by decide⟩,
    ⟨0x80000000, by decide⟩,
    ⟨wOn |> setF F.MERID_STATUS_REKEY 1, by decide⟩⟩

/-- States and operands that meet the hypotheses of KeyCommandsRunInOrder, clause by clause. -/
theorem witness_KeyCommandsRunInOrder :
    (∃ (pair : Fin 16384) (cid : BitVec 16) (c : RCmd) (s : State), s.cmdOf pair.val cid.toNat 9 = some c ∧ s.heldBack c = false ∧ c.waiting = 0 ∧
      c.opt % 16 = 1) ∧
    (∃ (pair : Fin 16384) (cid : BitVec 16) (c : RCmd) (s : State), s.cmdOf pair.val cid.toNat 9 = some c ∧ s.heldBack c = false ∧ c.waiting = 0 ∧
      c.opt % 16 = 2) ∧
    (∃ (pair : Fin 16384) (cid : BitVec 16) (c : RCmd) (s : State), s.cmdOf pair.val cid.toNat 9 = some c ∧ s.heldBack c = false ∧ c.waiting = 0 ∧
      c.opt % 16 = 3) ∧
    (∃ (pair : Fin 16384) (cid : BitVec 16) (c : RCmd) (s : State), s.cmdOf pair.val cid.toNat 9 = some c ∧ s.heldBack c = false ∧ c.waiting = 0 ∧
      c.opt % 16 = 4) ∧
    (∃ (pair : Fin 16384) (cid : BitVec 16) (c : RCmd) (s : State), s.cmdOf pair.val cid.toNat 9 = some c ∧ s.heldBack c = false ∧ c.waiting = 0 ∧
      c.opt % 16 = 5) ∧
    (∃ (pair : Fin 16384) (cid : BitVec 16) (c : RCmd) (s : State), s.cmdOf pair.val cid.toNat 9 = some c ∧ s.heldBack c = false ∧ c.waiting = 0 ∧
      c.opt % 16 = 6) ∧
    (∃ (o : KeyOp) (k : Nat) (n : Nat) (s : State) (s1 : State) (s2 : State), o.op = 1 ∧ s.noIssue = false ∧ s.issuePick o.kid = some k ∧
      s.ownedKids o.ld < s.get (F.CIPH_LD_QUOTA_QUOTA o.ld) ∧ s.ciph.drbgOk = true ∧ takeKey s = (n, s1) ∧ vaultWrite false (tset s1.heldKeys k n)
      s1 = (true, s2) ∧ o.flag = false) ∧
    (∃ (o : KeyOp) (s : State), o.op = 1 ∧ s.noIssue = true) ∧
    (∃ (o : KeyOp) (s : State), o.op = 2 ∧ o.kid ≠ 0 ∧ o.next = 0 ∧ s.kidSt o.kid = kActive ∧ (s.kid o.kid).owner = o.ld) ∧
    (∃ (o : KeyOp), o.op = 3) ∧
    (∃ (o : KeyOp) (s : State), o.op = 4 ∧ o.kid ≠ 0 ∧ o.next = 0 ∧ s.kidSt o.kid = kActive ∧ (s.kid o.kid).owner = o.ld) ∧
    (∃ (o : KeyOp) (s : State), o.op = 5 ∧ o.kid ≠ 0 ∧ o.next = 0 ∧ (s.kidSt o.kid = kActive ∨ s.kidSt o.kid = kRetired) ∧ (s.kid o.kid).owner =
      o.ld) ∧
    (∃ (o : KeyOp) (s : State), o.op = 6 ∧ o.kid ≠ 0 ∧ s.kidSt o.kid ≠ kFree ∧ (s.kid o.kid).owner = o.ld) ∧
    (∃ (o : KeyOp) (s : State), (o.op = 2 ∨ o.op = 4 ∨ o.op = 5 ∨ o.op = 6) ∧ o.kid ≠ 0 ∧ s.kidSt o.kid ≠ kFree ∧ (s.kid o.kid).owner ≠ o.ld) ∧
    (∃ (o : KeyOp), (o.op = 2 ∨ o.op = 4 ∨ o.op = 5 ∨ o.op = 6) ∧ o.kid = 0) ∧
    (∃ (v : Word), v.toNat.testBit 63 = true) :=
  ⟨⟨0, 0, { wCmd with opt := 1 }, wOn |> State.modRing (fun r => { r with cmds := [{ wCmd with opt := 1 }] }), by decide⟩,
    ⟨0, 0, { wCmd with opt := 2 }, wOn |> State.modRing (fun r => { r with cmds := [{ wCmd with opt := 2 }] }), by decide⟩,
    ⟨0, 0, { wCmd with opt := 3 }, wOn |> State.modRing (fun r => { r with cmds := [{ wCmd with opt := 3 }] }), by decide⟩,
    ⟨0, 0, { wCmd with opt := 4 }, wOn |> State.modRing (fun r => { r with cmds := [{ wCmd with opt := 4 }] }), by decide⟩,
    ⟨0, 0, { wCmd with opt := 5 }, wOn |> State.modRing (fun r => { r with cmds := [{ wCmd with opt := 5 }] }), by decide⟩,
    ⟨0, 0, { wCmd with opt := 6 }, wOn |> State.modRing (fun r => { r with cmds := [{ wCmd with opt := 6 }] }), by decide⟩,
    ⟨{ wKeyOp with op := 1 }, 5, _, wOn |> State.modCiph (fun x => { x with drbgOk := true }) |> setF (F.CIPH_LD_QUOTA_QUOTA 0) 4, _, _,
      by decide +kernel, by decide +kernel, by decide +kernel, by decide +kernel, by decide +kernel, rfl, rfl, by decide⟩,
    ⟨{ wKeyOp with op := 1 }, wOn |> setF F.LCS_STATUS_STATE 4, by decide⟩,
    ⟨wKeyOp, wOn |> State.modCiph (fun c => { c with kids := [(5, { Kid.reset with st := kActive })] }), by decide⟩,
    ⟨{ wKeyOp with op := 3 }, by decide⟩,
    ⟨{ wKeyOp with op := 4 }, wOn |> State.modCiph (fun c => { c with kids := [(5, { Kid.reset with st := kActive })] }), by decide⟩,
    ⟨{ wKeyOp with op := 5 }, wOn |> State.modCiph (fun c => { c with kids := [(5, { Kid.reset with st := kActive })] }), by decide⟩,
    ⟨{ wKeyOp with op := 6 }, wOn |> State.modCiph (fun c => { c with kids := [(5, { Kid.reset with st := kActive })] }), by decide⟩,
    ⟨{ wKeyOp with ld := 1 }, wOn |> State.modCiph (fun c => { c with kids := [(5, { Kid.reset with st := kActive })] }), by decide⟩,
    ⟨{ wKeyOp with kid := 0 }, by decide⟩,
    ⟨0x8000000000000000, by decide⟩⟩

/-- States and operands that meet the hypotheses of RingPairsAndCommandsRun, clause by clause. -/
theorem witness_RingPairsAndCommandsRun :
    (∃ (pair : Fin 16384) (v : Word) (s : State), s.qSt pair.val = qDisabled ∧ (storeAt (slotOff pair.val 0x10) v.toNat s).on (F.QP_CFG_EN pair.val)
      = true ∧ (storeAt (slotOff pair.val 0x10) v.toNat s).cfgValid pair.val = true) ∧
    (∃ (pair : Fin 16384) (v : Word) (s : State), s.qSt pair.val = qActive ∧ v.toNat.testBit 31 = false) ∧
    (∃ (pair : Fin 16384) (v : Word) (s : State), v.toNat % 2 ^ 13 < s.sqSize pair.val) ∧
    (∃ (pair : Fin 16384) (v : Word) (s : State), s.sqSize pair.val ≤ v.toNat % 2 ^ 13 ∧ s.qSt pair.val = qActive) ∧
    (∃ (pair : Fin 16384) (v : Word) (s : State), (v.toNat % 2 ^ 13) < (s.cqSize pair.val) ∧ ((v.toNat % 2 ^ 13) + (s.cqSize pair.val) - s.get
      (F.QP_CQ_HEAD_INDEX pair.val)) % (s.cqSize pair.val) ≤ s.unconsumed pair.val) ∧
    (∃ (n : Fin 17) (v : Word) (s : State), v.toNat % 2 ^ 14 + v.toNat / 2 ^ 32 % 2 ^ 15 ≤ 16384 ∧ (∀ k < 17, k ≠ n.val → s.get
      (F.RING_LD_ALLOC_COUNT k) = 0) ∧ (∀ q, s.qSt q = qDisabled)) ∧
    (∃ (pair : Fin 16384) (o : Nat) (s : State), s.pairOwner pair.val = some o ∧ s.mayFetch pair.val o = true ∧ s.fetchFirst pair.val o = true) ∧
    (∃ (pair : Fin 16384) (cid : BitVec 16) (c : RCmd) (s : State), s.heldBack c = false ∧ s.cmdOf pair.val cid.toNat 1 = some c) ∧
    (∃ (pair : Fin 16384) (cid : BitVec 16) (c : RCmd) (s : State), s.heldBack c = false ∧ s.cmdOf pair.val cid.toNat 2 = some c) ∧
    (∃ (pair : Fin 16384) (cid : BitVec 16) (c : RCmd) (s : State), s.heldBack c = false ∧ s.cmdOf pair.val cid.toNat 3 = some c) ∧
    (∃ (pair : Fin 16384) (cid : BitVec 16) (c : RCmd) (s : State), s.heldBack c = false ∧ s.cmdOf pair.val cid.toNat 4 = some c ∧ c.engine = true) ∧
    (∃ (pair : Fin 16384) (cid : BitVec 16) (c : RCmd) (s : State), s.heldBack c = false ∧ s.cmdOf pair.val cid.toNat 5 = some c) ∧
    (∃ (pair : Fin 16384) (cid : BitVec 16) (c : RCmd) (s : State), s.heldBack c = false ∧ s.cmdOf pair.val cid.toNat 6 = some c) ∧
    (∃ (pair : Fin 16384) (cid : BitVec 16) (c : RCmd) (s : State), s.heldBack c = false ∧ s.cmdOf pair.val cid.toNat 7 = some c ∧ c.waiting = 0) ∧
    (∃ (pair : Fin 16384) (cid : BitVec 16) (c : RCmd) (s : State), s.heldBack c = false ∧ s.cmdOf pair.val cid.toNat 8 = some c) ∧
    (∃ (pair : Fin 16384) (cid : BitVec 16) (c : RCmd) (s : State), s.heldBack c = false ∧ s.cmdOf pair.val cid.toNat 10 = some c) ∧
    (∃ (pair : Fin 16384) (cid : BitVec 16) (c : RCmd) (s : State), s.heldBack c = false ∧ s.cmdOf pair.val cid.toNat 11 = some c) ∧
    (∃ (c : RCmd) (s : State), c.pos = 0 ∧ c.marked = false ∧ s.qSt c.pair ≠ qStopped ∧ c.op = 5 ∧ s.wpAny (s.cmdLd c) = false) ∧
    (∃ (c : RCmd) (s : State), s.ring.cmds = [c] ∧ c.pair ≠ s.get (F.RING_LD_ALLOC_FIRST (s.cmdLd c)) + c.a0) ∧
    (∃ (c : RCmd) (s : State), s.ring.cmds = [c] ∧ c.engine = false ∧ c.op = 4 ∧ c.final = none) ∧
    (∃ (pair : Fin 16384) (cid : BitVec 16) (c : RCmd) (st : Nat) (res : Nat) (s : State), s.ring.cmds = [c] ∧ c.pair = pair.val ∧ c.cid = cid.toNat
      ∧ c.final = some (st, res) ∧ c.op ≠ 11) ∧
    (∃ (pair : Fin 16384) (s : State), s.qSt pair.val = qActive) ∧
    (∃ (pair : Fin 16384) (s : State), s.on (F.QP_COAL_TIME_US pair.val) = true ∧ 0 < tgetD 0 s.ring.since pair.val) :=
  ⟨⟨0, 0x80020404, wOn |> setF (F.QP_SQ_BASE_ADDR 0) 1 |> setF (F.QP_CQ_BASE_ADDR 0) 1 |> setF (F.RING_LD_ALLOC_COUNT 0) 1, by decide⟩,
    ⟨0, 0, wOn |> setF (F.QP_STATUS_STATE 0) qActive, by decide⟩,
    ⟨0, 0, wOn, by decide⟩,
    ⟨0, 0x1FFF, wOn |> setF (F.QP_STATUS_STATE 0) qActive |> setF (F.QP_CFG_SQ_LOG2 0) 4, by decide⟩,
    ⟨0, 0, wOn, by decide⟩,
    ⟨0, 0, State.reset, by decide, fun k h _ => rfl, fun q => rfl⟩,
    ⟨0, 0, wOn |> setF (F.QP_STATUS_STATE 0) qActive |> setF (F.QP_CFG_SQ_LOG2 0) 4 |> setF (F.QP_CFG_CQ_LOG2 0) 4 |> setF (F.RING_LD_ALLOC_COUNT 0) 1
      |> setF (F.RING_LD_ALLOC_MAX_OUT 0) 1 |> setF (F.QP_SQ_TAIL_INDEX 0) 1, by decide⟩,
    ⟨0, 0, { wCmd with op := 1 }, wOn |> State.modRing (fun r => { r with cmds := [{ wCmd with op := 1 }] }), by decide⟩,
    ⟨0, 0, { wCmd with op := 2 }, wOn |> State.modRing (fun r => { r with cmds := [{ wCmd with op := 2 }] }), by decide⟩,
    ⟨0, 0, { wCmd with op := 3 }, wOn |> State.modRing (fun r => { r with cmds := [{ wCmd with op := 3 }] }), by decide⟩,
    ⟨0, 0, { wCmd with op := 4, engine := true }, wOn |> State.modRing (fun r => { r with cmds := [{ wCmd with op := 4, engine := true }] }), by decide⟩,
    ⟨0, 0, { wCmd with op := 5 }, wOn |> State.modRing (fun r => { r with cmds := [{ wCmd with op := 5 }] }), by decide⟩,
    ⟨0, 0, { wCmd with op := 6 }, wOn |> State.modRing (fun r => { r with cmds := [{ wCmd with op := 6 }] }), by decide⟩,
    ⟨0, 0, { wCmd with op := 7 }, wOn |> State.modRing (fun r => { r with cmds := [{ wCmd with op := 7 }] }), by decide⟩,
    ⟨0, 0, { wCmd with op := 8 }, wOn |> State.modRing (fun r => { r with cmds := [{ wCmd with op := 8 }] }), by decide⟩,
    ⟨0, 0, { wCmd with op := 10 }, wOn |> State.modRing (fun r => { r with cmds := [{ wCmd with op := 10 }] }), by decide⟩,
    ⟨0, 0, { wCmd with op := 11 }, wOn |> State.modRing (fun r => { r with cmds := [{ wCmd with op := 11 }] }), by decide⟩,
    ⟨{ wCmd with op := 5 }, wOn, by decide⟩,
    ⟨{ wCmd with a0 := 1 }, wOn |> State.modRing (fun x => { x with cmds := [(({ wCmd with a0 := 1 }) : RCmd)] }), by decide⟩,
    ⟨{ wCmd with op := 4 }, wOn |> State.modRing (fun x => { x with cmds := [(({ wCmd with op := 4 }) : RCmd)] }), by decide⟩,
    ⟨0, 0, { wCmd with final := some (0, 0) }, 0, 0, wOn |> State.modRing (fun x => { x with cmds := [(({ wCmd with final := some (0, 0) }) : RCmd)] }),
      by decide⟩,
    ⟨0, wOn |> setF (F.QP_STATUS_STATE 0) qActive, by decide⟩,
    ⟨0, wOn |> setF (F.QP_COAL_TIME_US (0 : Fin 16384).val) 1 |> State.modRing (fun r => { r with since := [(0, 1)] }), by decide⟩⟩

/-- States and operands that meet the hypotheses of RegulationAndLedgersAct, clause by clause. -/
theorem witness_RegulationAndLedgersAct :
    (∃ (v : BitVec 32), v.toNat.testBit 31 = true) ∧
    (∃ (s : State), (List.range 19).all (fun c => s.entryOk c) = true ∧ sumOver 19 (fun c => s.get (F.REG_GT_RATE_RD_FLOOR c)) ≤ s.get
      F.REG_CAP_RD_CAP ∧ sumOver 19 (fun c => s.get (F.REG_GT_RATE_WR_FLOOR c)) ≤ s.get F.REG_CAP_WR_CAP) ∧
    (∃ (s : State), s.entryOk 0 = false) ∧
    (∃ (s : State), s.on F.LEDG_STATUS_CHECKING = true) ∧
    (∃ (s : State), s.on F.LEDG_STATUS_CHECKING = false) ∧
    (∃ (v : Word) (s : State), v.toNat.testBit 63 = true ∧ s.lcs.state = lcManufacture ∧ (s.ledgSides (v.toNat / 2 ^ 48 % 8) (v.toNat / 2 ^ 32 %
      65536)).isSome = true) ∧
    (∃ (s : State), s.lcs.state = lcService) :=
  ⟨⟨0x80000000, by decide⟩,
    ⟨wOn |> (fun t => (List.range 19).foldl (fun u c => setF (F.REG_GT_LAT_BURST_KIB c) 1 u) t), by decide⟩,
    ⟨wOn |> setF (F.REG_GT_LAT_BURST_KIB 0) 0, by decide⟩,
    ⟨wOn |> setF F.LEDG_STATUS_CHECKING 1, by decide⟩,
    ⟨wOn |> setF F.LEDG_STATUS_CHECKING 0, by decide⟩,
    ⟨0x8000000000000000, wOn |> State.modLcs (fun x => { x with slots := [2 ^ lcManufacture] }), by decide⟩,
    ⟨wOn |> State.modLcs (fun x => { x with slots := [2 ^ lcService] }), by decide⟩⟩

/-- States and operands that meet the hypotheses of RailsAndSensorsAct, clause by clause. -/
theorem witness_RailsAndSensorsAct :
    (∃ (s : State), s.get F.DOME_PLT_REQ_ON = 0) ∧
    (∃ (rail : Fin 40) (mv : BitVec 16) (s : State), (s.rail rail.val).phase = .rising ∧ s.railOver rail.val mv.toNat = false ∧ s.railUnder rail.val
      mv.toNat = false) ∧
    (∃ (rail : Fin 40) (s : State), (s.rail rail.val).phase = .rising) ∧
    (∃ (rail : Fin 40) (mv : BitVec 16) (s : State), (s.rail rail.val).en = false ∧ (s.rail rail.val).disch = false ∧ (s.rail rail.val).phase ≠
      .failed ∧ mv.toNat * 10 < s.get (F.DOME_RAIL_CFG_NOM_MV rail.val)) ∧
    (∃ (rail : Fin 40) (s : State), (s.rail rail.val).en = false ∧ (s.rail rail.val).disch = false) ∧
    (∃ (rail : Fin 40) (s : State), (s.rail rail.val).en = false) ∧
    (∃ (seq : Fin 17) (x : ScriptStep) (l : List ScriptStep) (s : State), (s.seq seq.val).steps = x :: l ∧ x.op = .delay) ∧
    (∃ (rail : Fin 40) (s : State), (s.rail rail.val).phase = .running) ∧
    (∃ (s : State), s.on F.DOME_CTL_PMB_EN = true) ∧
    (∃ (tj : Nat) (s : State), tj < 95 ∧ s.lds = []) ∧
    (∃ (s : State), s.get F.DOME_HU_CFG_CAP_MF ≠ 0 ∧ (s.get F.DOME_HU_CFG_VMIN_MV) ≤ (tgetD 1 s.dome.adc 9 - 1)) ∧
    (∃ (s : State), s.on F.DOME_HU_CFG_CAP_MF = true ∧ s.dome.huOk = true ∧ s.get F.DOME_HU_STATUS_EST_CJ < s.get F.DOME_HU_CFG_EREQ_CJ) ∧
    (∃ (v : BitVec 32) (s : State), v.toNat.testBit 31 = true ∧ (storeAt 0x390060 v.toNat s).on F.DOME_CTL_PMB_EN = true ∧ (storeAt 0x390060 v.toNat
      s).on (F.DOME_RAIL_CFG_PMB_VALID ((storeAt 0x390060 v.toNat s).get F.DOME_MARGIN_RAIL)) = true ∧ ((storeAt 0x390060 v.toNat s).rail ((storeAt
      0x390060 v.toNat s).get F.DOME_MARGIN_RAIL)).phase = .running ∧ (storeAt 0x390060 v.toNat s).dome.marginRail = none) :=
  ⟨⟨wOn |> setF F.DOME_PLT_REQ_ON 0, by decide⟩,
    ⟨0, 1000, wOn |> State.modDome (fun x => { x with rails := [((0 : Fin 40).val, { Rail.reset with phase := .rising })] }) |> setF
      (F.DOME_RAIL_CFG_NOM_MV 0) 1000, by decide⟩,
    ⟨0, wOn |> State.modDome (fun x => { x with rails := [((0 : Fin 40).val, { Rail.reset with phase := .rising })] }), by decide⟩,
    ⟨0, 0, wOn |> State.modDome (fun x => { x with rails := [((0 : Fin 40).val, { Rail.reset with en := false, disch := false })] }) |> setF
      (F.DOME_RAIL_CFG_NOM_MV 0) 1000, by decide⟩,
    ⟨0, wOn |> State.modDome (fun x => { x with rails := [((0 : Fin 40).val, { Rail.reset with en := false, disch := false })] }), by decide⟩,
    ⟨0, wOn |> State.modDome (fun x => { x with rails := [((0 : Fin 40).val, { Rail.reset with en := false })] }), by decide⟩,
    ⟨0, (⟨.delay, 0, 0⟩ : ScriptStep), [], wOn |> State.modDome (fun x =>
      { x with seqs := [((0 : Fin 17).val, { SeqSt.reset with steps := ((⟨.delay, 0, 0⟩ : ScriptStep) : ScriptStep) :: ([] : List ScriptStep) })] }),
      by decide⟩,
    ⟨0, wOn |> State.modDome (fun x => { x with rails := [((0 : Fin 40).val, { Rail.reset with phase := .running })] }), by decide⟩,
    ⟨wOn |> setF F.DOME_CTL_PMB_EN 1, by decide⟩,
    ⟨0, wOn |> modLd 0 (fun l => { l with blocks := 0 }), by decide⟩,
    ⟨wOn |> setF F.DOME_HU_CFG_CAP_MF 1, by decide⟩,
    ⟨wOn |> setF F.DOME_HU_CFG_CAP_MF 1 |> State.modDome (fun x => { x with huOk := true }) |> setF F.DOME_HU_CFG_EREQ_CJ 1, by decide⟩,
    ⟨0x80000000, wOn |> setF F.DOME_CTL_PMB_EN 1 |> setF (F.DOME_RAIL_CFG_PMB_VALID 0) 1 |> State.modDome (fun d =>
      { d with rails := [(0, { Rail.reset with phase := .running })] }), by decide⟩⟩

/-- States and operands that meet the hypotheses of ClocksAndTimeAct, clause by clause. -/
theorem witness_ClocksAndTimeAct :
    (∃ (s : State), s.on F.CLK_CTL_REC_EN = true ∧ (s.port 0).up = true ∧ (s.port 0).l1 = false ∧ s.get F.CLK_DPLL_STATUS_STATE ≠ dpllRec) ∧
    (∃ (s : State), s.get F.CLK_DPLL_STATUS_STATE = dpllRec) ∧
    (∃ (s : State), s.get F.CLK_DPLL_STATUS_STATE = dpllHoldover) ∧
    (∃ (v : BitVec 32) (s : State), v.toNat.testBit 31 = true ∧ (storeAt 0x3A0058 v.toNat s).on F.CLK_CHRONO_CTL_BUSY = false ∧ 4 ≤ (storeAt
      0x3A0058 v.toNat s).get F.CLK_CHRONO_CTL_GATE_LOG2 ∧ (storeAt 0x3A0058 v.toNat s).get F.CLK_CHRONO_CTL_GATE_LOG2 ≤ 24 ∧ (storeAt 0x3A0058
      v.toNat s).get F.CLK_CHRONO_CTL_MEAS < 0x18 ∧ (storeAt 0x3A0058 v.toNat s).get F.CLK_CHRONO_CTL_REF < 0x18) ∧
    (∃ (s : State), s.on F.CLK_CHRONO_CTL_BUSY = true) ∧
    (∃ (dom : Fin 45) (s : State), dom.val ≠ domSlices ∧ s.clkRuns dom.val = true) :=
  ⟨⟨wOn |> setF F.CLK_CTL_REC_EN 1 |> modPort 0 (fun p => { p with up := true }) |> modPort 0 (fun p => { p with l1 := false }), by decide⟩,
    ⟨wOn |> setF F.CLK_DPLL_STATUS_STATE dpllRec, by decide⟩,
    ⟨wOn |> setF F.CLK_DPLL_STATUS_STATE dpllHoldover, by decide⟩,
    ⟨0x84000000, wOn, by decide⟩,
    ⟨wOn |> setF F.CLK_CHRONO_CTL_BUSY 1, by decide⟩,
    ⟨0, wOn, by decide⟩⟩

/-- States and operands that meet the hypotheses of LogbookSpectrographAndAlmanacAct, clause by clause. -/
theorem witness_LogbookSpectrographAndAlmanacAct :
    (∃ (r : LogRec) (s : State), s.log.win = some r ∧ s.on F.LOG_CURSOR_AUTO = true ∧ r.seq = s.get F.LOG_CURSOR_SEQ) ∧
    (∃ (s : State), s.get F.SPEC_SNAP_CFG_PERIOD_MS ≠ 0 ∧ s.glb.mode = .active ∧ s.spec.busy = false) ∧
    (∃ (v : BitVec 32) (s : State), v.toNat.testBit 0 = true ∧ s.spec.busy = false) ∧
    (∃ (s : State), s.spec.busy = true ∧ s.spec.bank = 0) ∧
    (∃ (v : BitVec 32) (s : State), v.toNat.testBit 31 = true ∧ s.alm.hostBusy = false ∧ (v.toNat % 512) ≠ 0 ∧ (v.toNat % 512) ≤ 256 ∧ (v.toNat %
      512) % 4 = 0 ∧ ((storeAt 0x3E0010 v.toNat s).get F.ALM_ADDR_ADDR * 4) % 256 + (v.toNat % 512) ≤ 256 ∧ v.toNat / 2 ^ 28 % 4 = 1) ∧
    (∃ (v : BitVec 32) (s : State), v.toNat.testBit 31 = true ∧ s.alm.hostBusy = false ∧ (v.toNat % 512) ≠ 0 ∧ (v.toNat % 512) ≤ 256 ∧ (v.toNat %
      512) % 4 = 0 ∧ ((storeAt 0x3E0010 v.toNat s).get F.ALM_ADDR_ADDR * 4) % 256 + (v.toNat % 512) ≤ 256 ∧ v.toNat / 2 ^ 28 % 4 = 2 ∧ almReserved
      ((storeAt 0x3E0010 v.toNat s).get F.ALM_ADDR_ADDR * 4) = false ∧ 0x38000 ≤ ((storeAt 0x3E0010 v.toNat s).get F.ALM_ADDR_ADDR * 4)) ∧
    (∃ (v : BitVec 32) (s : State), v.toNat.testBit 31 = true ∧ s.alm.hostBusy = false ∧ (v.toNat % 512) ≠ 0 ∧ (v.toNat % 512) ≤ 256 ∧ (v.toNat %
      512) % 4 = 0 ∧ ((storeAt 0x3E0010 v.toNat s).get F.ALM_ADDR_ADDR * 4) % 256 + (v.toNat % 512) ≤ 256 ∧ v.toNat / 2 ^ 28 % 4 = 2 ∧ almReserved
      ((storeAt 0x3E0010 v.toNat s).get F.ALM_ADDR_ADDR * 4) = false ∧ ((storeAt 0x3E0010 v.toNat s).get F.ALM_ADDR_ADDR * 4) < 0x38000) ∧
    (∃ (v : BitVec 32) (s : State), v.toNat.testBit 31 = true ∧ s.alm.hostBusy = false ∧ v.toNat / 2 ^ 28 % 4 = 1 ∧ v.toNat % 512 = 0) ∧
    (∃ (j : AlmJob) (s : State), s.alm.run = some j ∧ j.src = .host ∧ s.alm.queue = [] ∧ s.alm.waiting = []) :=
  ⟨⟨(⟨0, 0, 0, 0, 0, 0, 0, 0, 0⟩ : LogRec), wOn |> setF F.LOG_CURSOR_AUTO 1 |> State.modLog (fun x =>
      { x with win := some ((⟨0, 0, 0, 0, 0, 0, 0, 0, 0⟩ : LogRec) : LogRec) }), by decide⟩,
    ⟨wOn |> State.modGlb (fun x => { x with mode := .active }) |> State.modSpec (fun x => { x with busy := false }) |> setF F.SPEC_SNAP_CFG_PERIOD_MS 1,
      by decide⟩,
    ⟨0x1, wOn |> State.modSpec (fun x => { x with busy := false }), by decide⟩,
    ⟨wOn |> State.modSpec (fun x => { x with busy := true, bank := 0 }), by decide⟩,
    ⟨0x90000100, wOn, by decide⟩,
    ⟨0xA0000100, wOn |> setF F.ALM_ADDR_ADDR 0xE000, by decide⟩,
    ⟨0xA0000004, wOn, by decide⟩,
    ⟨0x90000000, wOn, by decide⟩,
    ⟨(⟨.host, true, 0x38000, 4, [1, 2, 3, 4], 0⟩ : AlmJob), wOn |> State.modAlm (fun x =>
      { x with run := some ((⟨.host, true, 0x38000, 4, [1, 2, 3, 4], 0⟩ : AlmJob) : AlmJob), queue := [], waiting := [] }), by decide⟩⟩

/-- States and operands that meet the hypotheses of ShelfCommandsAreServed, clause by clause. -/
theorem witness_ShelfCommandsAreServed :
    (∃ (f : ShelfFrame) (s : State), Says.framed (Says.cmdBytes opPing f) s) ∧
    (∃ (f : ShelfFrame) (s : State), Says.framed (Says.cmdBytes opStatus f) s) ∧
    (∃ (f : ShelfFrame) (s : State), Says.framed (Says.cmdBytes opSensors f) s) ∧
    (∃ (f : ShelfFrame) (s : State), Says.framed (Says.cmdBytes opMode f) s) ∧
    (∃ (f : ShelfFrame) (s : State), Says.framed (Says.cmdBytes opWake f) s) ∧
    (∃ (f : ShelfFrame) (s : State), Says.framed (Says.cmdBytes opRestart f) s) ∧
    (∃ (f : ShelfFrame) (s : State), Says.framed (Says.cmdBytes opPlate f) s) ∧
    (∃ (f : ShelfFrame) (s : State), Says.framed (Says.cmdBytes opSubscribe f) s) ∧
    (∃ (b : List Nat) (s : State), s.sbus.quar = [] ∧ (ShelfFrame.ofBytes b).ver = 1#8 ∧ (ShelfFrame.ofBytes b).typ = 1#8) ∧
    (∃ (f : ShelfFrame) (n : Nat) (s : State), f.target.toNat = s.get F.GLB_STRAPS_SHELF_ID ∧ shelfLen f.opcode.toNat = some n ∧ f.len.toNat = n ∧
      f.body.length = n ∧ shelfAuth f.opcode.toNat = false ∧ s.on F.SBUS_CTL_UNAUTH_RESP = true) ∧
    (∃ (f : ShelfFrame) (n : Nat) (s : State), f.target.toNat = s.get F.GLB_STRAPS_SHELF_ID ∧ shelfLen f.opcode.toNat = some n ∧ f.len.toNat = n ∧
      f.body.length = n ∧ shelfAuth f.opcode.toNat = true ∧ f.target.toNat ≠ 0xFF ∧ authCheck f s = none) ∧
    (∃ (f : ShelfFrame) (n : Nat) (s : State) (st : Nat) (u : State), f.target.toNat = s.get F.GLB_STRAPS_SHELF_ID ∧ shelfLen f.opcode.toNat = some
      n ∧ f.len.toNat = n ∧ f.body.length = n ∧ shelfAuth f.opcode.toNat = true ∧ authCheck f s = some (st, u)) ∧
    (∃ (f : ShelfFrame) (s : State), f.target.toNat = s.get F.GLB_STRAPS_SHELF_ID ∧ shelfLen f.opcode.toNat = none) ∧
    (∃ (f : ShelfFrame) (s : State) (n : _), f.target.toNat = s.get F.GLB_STRAPS_SHELF_ID ∧ shelfLen f.opcode.toNat = some n ∧ f.len.toNat ≠ n) ∧
    (∃ (f : ShelfFrame) (s : State), s.assistRuns = true ∧ f.opcode.toNat = opPing) ∧
    (∃ (f : ShelfFrame) (s : State), s.assistRuns = true ∧ f.opcode.toNat = opStatus) ∧
    (∃ (f : ShelfFrame) (s : State), s.assistRuns = true ∧ f.opcode.toNat = opSensors) ∧
    (∃ (f : ShelfFrame) (t : Byte) (s : State), s.assistRuns = true ∧ f.opcode.toNat = opMode ∧ f.body = [t] ∧ t.toNat < 3 ∧ s.lcs.trans = none ∧
      f.flags.getLsbD 1 = false) ∧
    (∃ (f : ShelfFrame) (s : State), s.glb.mode = .standby ∧ f.opcode.toNat = opWake) ∧
    (∃ (f : ShelfFrame) (s : State), s.glb.mode = .faultHalt ∧ f.opcode.toNat = opRestart ∧ s.glb.perst = true) ∧
    (∃ (f : ShelfFrame) (p : Byte) (a : Byte) (s : State), s.assistRuns = true ∧ f.opcode.toNat = opPlate ∧ f.body = [p, a] ∧ p.toNat < 16 ∧
      s.img.plates.testBit p.toNat = true ∧ 1 ≤ a.toNat ∧ a.toNat ≤ 3 ∧ s.lcs.trans = none ∧ s.reqOk ⟨p.toNat, a.toNat, 1⟩ = true) ∧
    (∃ (f : ShelfFrame) (fl : Byte) (tr : Byte) (s : State), s.assistRuns = true ∧ f.opcode.toNat = opSubscribe ∧ f.body = [fl, tr]) :=
  ⟨⟨{ wShelf with dst := 0, body := List.replicate 0 0 }, wOn, by unfold Says.framed; decide +kernel⟩,
    ⟨{ wShelf with dst := 0, body := List.replicate 0 0 }, wOn, by unfold Says.framed; decide +kernel⟩,
    ⟨{ wShelf with dst := 0, body := List.replicate 0 0 }, wOn, by unfold Says.framed; decide +kernel⟩,
    ⟨{ wShelf with dst := 0, body := List.replicate 1 0 }, wOn, by unfold Says.framed; decide +kernel⟩,
    ⟨{ wShelf with dst := 0, body := List.replicate 0 0 }, wOn, by unfold Says.framed; decide +kernel⟩,
    ⟨{ wShelf with dst := 0, body := List.replicate 0 0 }, wOn, by unfold Says.framed; decide +kernel⟩,
    ⟨{ wShelf with dst := 0, body := List.replicate 2 0 }, wOn, by unfold Says.framed; decide +kernel⟩,
    ⟨{ wShelf with dst := 0, body := List.replicate 2 0 }, wOn, by unfold Says.framed; decide +kernel⟩,
    ⟨ShelfFrame.bytes wShelf, wOn |> State.modSbus (fun x => { x with quar := [] }), by decide +kernel⟩,
    ⟨wShelf, 0, wOn |> setF F.SBUS_CTL_UNAUTH_RESP 1 |> setF F.SBUS_CTL_UNAUTH_RESP 1, by decide⟩,
    ⟨{ wShelf with opcode := 0x11, flags := 1, nonce := 1, tag := BitVec.ofNat 128 (shelfTag 7 { wShelf with opcode := 0x11, flags := 1, nonce := 1 }) },
      0, wOn |> State.modSbus (fun b => { b with key := some 7 }), by decide +kernel⟩,
    ⟨{ wShelf with opcode := 0x11 }, 0, wOn, _, _, by decide, by decide, by decide, by decide, by decide, rfl⟩,
    ⟨{ wShelf with opcode := 0xFFFF }, wOn, by decide⟩,
    ⟨{ wShelf with len := 1 }, wOn, 0, by decide⟩,
    ⟨{ wShelf with opcode := 1, body := [] }, wOn, by decide⟩,
    ⟨{ wShelf with opcode := 2, body := [] }, wOn, by decide⟩,
    ⟨{ wShelf with opcode := 3, body := [] }, wOn, by decide⟩,
    ⟨{ wShelf with opcode := 0x10, body := [2] }, 2, wOn |> State.modLcs (fun x => { x with trans := none }), by decide⟩,
    ⟨{ wShelf with opcode := 0x11, body := [] }, wOn |> State.modGlb (fun x => { x with mode := .standby }), by decide⟩,
    ⟨{ wShelf with opcode := 0x12, body := [] }, wOn |> State.modGlb (fun x => { x with mode := .faultHalt, perst := true }), by decide⟩,
    ⟨{ wShelf with opcode := 0x20, body := [15, 2] }, 15, 2, wOn |> State.modLcs (fun x => { x with trans := none }), by decide⟩,
    ⟨{ wShelf with opcode := 0x30, body := [0, 1] }, 0, 1, wOn, by decide⟩⟩

/-- States and operands that meet the hypotheses of AFrameSpellsItsFields, clause by clause. -/
theorem witness_AFrameSpellsItsFields :
    (∃ (f : ShelfFrame), f.len.toNat = f.body.length ∧ (f.flags.getLsbD 0 = false → f.tag = 0)) :=
  ⟨{ wShelf with len := 2, body := [1, 2], flags := 1, tag := 5 }, by decide⟩

/-- States and operands that meet the hypotheses of TheShelfBusItself, clause by clause. -/
theorem witness_TheShelfBusItself :
    (∃ (bytes : List Byte) (s : State), s.start.aonDown = false ∧ s.macAccepts (beNum ((bytes.map (·.toNat)).take 6)) = true ∧ 60 ≤ (bytes.map
      (·.toNat)).length ∧ (bytes.map (·.toNat)).length ≤ 1514 ∧ s.busServed = true ∧ s.on F.SBUS_CTL_EN = true ∧ ((bytes.map (·.toNat)).drop
      12).take 2 ≠ etherShelf ∧ ((bytes.map (·.toNat)).drop 12).take 2 ≠ etherPtp) ∧
    (∃ (bytes : List Byte) (ofs : Int) (s : State), s.asstStalled = false ∧ s.sbus.rx.length < (frameIn (bytes.map (·.toNat)) true false
      s).sbus.rx.length ∧ 1000000 < ofs.natAbs) ∧
    (∃ (s : State), s.busServed = true ∧ s.asstStalled = false ∧ s.sbus.tx = []) ∧
    (∃ (s : State), s.coordNow = true) ∧
    (∃ (s : State), s.sbus.yielded = true) ∧
    (∃ (s : State), s.coordNow = false ∧ s.start.aonDown = false) ∧
    (∃ (f : TxFrame) (s : State), s.sbus.tx = [f] ∧ s.sbus.txq = [] ∧ f.ready = true ∧ s.sbus.csma = false ∧ s.on F.SBUS_CTL_EN = true ∧
      s.start.aonDown = false) ∧
    (∃ (m : Master) (r : RxFrame) (s : State), s.runsBus m = true ∧ s.sbus.rx = [r] ∧ r.own = false ∧ r.pos + 6 < r.bytes.length) ∧
    (∃ (m : Master) (r : RxFrame) (s : State), s.runsBus m = true ∧ s.sbus.rx = [r] ∧ r.own = false) ∧
    (∃ (m : Master) (w : Word) (f : TxFrame) (s : State), s.runsBus m = true ∧ s.sbus.tx = [f] ∧ f.ready = false ∧ w.toNat.testBit 62 = false ∧
      w.toNat.testBit 61 = false) ∧
    (∃ (m : Master) (f : TxFrame) (s : State), s.runsBus m = true ∧ s.sbus.tx = [f] ∧ f.ready = false) ∧
    (∃ (f : TxFrame) (s : State), s.sbus.tx = [f] ∧ f.ready = true ∧ f.ts = false ∧ s.sbus.txq = [] ∧ s.on F.SBUS_CTL_EN = true ∧ s.start.aonDown =
      false) ∧
    (∃ (src : Nat) (at_ : Nat) (s : State), s.sbus.quar = [(src, at_)] ∧ at_ ≤ s.now) ∧
    (∃ (s : State), s.lcs.state = lcProvision ∧ s.alm.wp = false) ∧
    (∃ (s : State), s.lcs.state = lcManufacture) :=
  ⟨⟨List.replicate 60 0, wOn |> setF F.SBUS_CTL_EN 1 |> State.modStart (fun x => { x with aonDown := false }), by decide +kernel⟩,
    ⟨(beBytes 6 macPtp ++ beBytes 6 1 ++ etherPtp ++ List.replicate 46 0).map (BitVec.ofNat 8), -1000001, wOn, by decide +kernel⟩,
    ⟨wOn |> State.modSbus (fun x => { x with tx := [] }), by decide⟩,
    ⟨wOn, by decide⟩,
    ⟨wOn |> State.modSbus (fun x => { x with yielded := true }), by decide⟩,
    ⟨wOn |> State.modStart (fun x => { x with aonDown := false }) |> State.modSbus (fun b => { b with yielded := true }), by decide⟩,
    ⟨(⟨0, [], true, false, 0⟩ : TxFrame), wOn |> setF F.SBUS_CTL_EN 1 |> State.modSbus (fun x =>
      { x with tx := [((⟨0, [], true, false, 0⟩ : TxFrame) : TxFrame)], txq := [], csma := false }) |> State.modStart (fun x =>
      { x with aonDown := false }), by decide⟩,
    ⟨.assistA, (⟨0, List.replicate 60 0, 0, true, false, false⟩ : RxFrame), wOn |> State.modSbus (fun x =>
      { x with rx := [((⟨0, List.replicate 60 0, 0, true, false, false⟩ : RxFrame) : RxFrame)] }), by decide⟩,
    ⟨.assistA, (⟨0, List.replicate 60 0, 0, true, false, false⟩ : RxFrame), wOn |> State.modSbus (fun x =>
      { x with rx := [((⟨0, List.replicate 60 0, 0, true, false, false⟩ : RxFrame) : RxFrame)] }), by decide⟩,
    ⟨.assistA, 0, (⟨0, [], false, false, 0⟩ : TxFrame), wOn |> State.modSbus (fun x =>
      { x with tx := [((⟨0, [], false, false, 0⟩ : TxFrame) : TxFrame)] }), by decide⟩,
    ⟨.assistA, (⟨0, [], false, false, 0⟩ : TxFrame), wOn |> State.modSbus (fun x =>
      { x with tx := [((⟨0, [], false, false, 0⟩ : TxFrame) : TxFrame)] }), by decide⟩,
    ⟨(⟨0, [], true, false, 0⟩ : TxFrame), wOn |> setF F.SBUS_CTL_EN 1 |> State.modSbus (fun x =>
      { x with tx := [((⟨0, [], true, false, 0⟩ : TxFrame) : TxFrame)], txq := [] }) |> State.modStart (fun x => { x with aonDown := false }),
      by decide⟩,
    ⟨0, 0, wOn |> State.modSbus (fun x => { x with quar := [((0 : Nat), (0 : Nat))] }), by decide⟩,
    ⟨wOn |> State.modLcs (fun x => { x with slots := [2 ^ lcProvision] }) |> State.modAlm (fun x => { x with wp := false }), by decide⟩,
    ⟨wOn |> State.modLcs (fun x => { x with slots := [2 ^ lcManufacture] }), by decide⟩⟩

/-- States and operands that meet the hypotheses of PlatesComeAndGo, clause by clause. -/
theorem witness_PlatesComeAndGo :
    (∃ (v : BitVec 32) (s : State), v.toNat.testBit 31 = true ∧ s.assistRuns = true ∧ s.asstStalled = false) ∧
    (∃ (v : BitVec 32) (s : State), v.toNat.testBit 31 = true ∧ s.assistRuns = true ∧ s.asstStalled = true) ∧
    (∃ (p : Nat) (s : State), s.mgmt p = pPresent ∧ s.get (F.SBUS_PLT_STATE_HOLD p) = 0) ∧
    (∃ (p : Nat) (s : State), s.mgmt p = pOnline) ∧
    (∃ (p : Nat) (s : State), s.mgmt p = pPresent ∧ s.get (F.SBUS_PLT_STATE_HOLD p) = 3) ∧
    (∃ (p : Nat) (a : Nat) (c : Nat) (s : State), s.reqOk ⟨p, a, c⟩ = false) ∧
    (∃ (plate : Fin 16) (s : State), s.dome.prsnt.testBit plate.val = false ∧ s.glb.mode = .active) ∧
    (∃ (plate : Fin 16) (s : State), s.dome.prsnt.testBit plate.val = true) ∧
    (∃ (plate : Fin 16) (s : State), s.mgmt plate.val = pDraining ∧ s.med.reads = []) ∧
    (∃ (plate : Fin 16) (temp : BitVec 8) (s : State), (setF (F.SBUS_PLT_STATE_TEMP plate.val) temp.toNat s).mgmt plate.val = pOnline ∧ (setF
      (F.SBUS_PLT_STATE_TEMP plate.val) temp.toNat s).get F.SBUS_PLT_CFG_HOT_C ≤ temp.toNat) ∧
    (∃ (plate : Fin 16) (s : State), s.disagrees plate.val = true ∧ s.sbus.flagged.contains plate.val = false) :=
  ⟨⟨0x80000000, wOn, by decide⟩,
    ⟨0x80000000, wOn |> setF F.IMG_ASSIST_SWAP_BUSY 1, by decide⟩,
    ⟨0, wOn |> setF (F.SBUS_PLT_STATE_MGMT_VIEW (0 : Nat)) pPresent |> setF (F.SBUS_PLT_STATE_HOLD (0 : Nat)) 0, by decide⟩,
    ⟨0, wOn |> setF (F.SBUS_PLT_STATE_MGMT_VIEW (0 : Nat)) pOnline, by decide⟩,
    ⟨0, wOn |> setF (F.SBUS_PLT_STATE_MGMT_VIEW (0 : Nat)) pPresent |> setF (F.SBUS_PLT_STATE_HOLD (0 : Nat)) 3, by decide⟩,
    ⟨0, 0, 0, wOn, by decide⟩,
    ⟨0, wOn |> State.modGlb (fun x => { x with mode := .active }) |> State.modDome (fun d => { d with prsnt := 0 }), by decide⟩,
    ⟨0, wOn, by decide⟩,
    ⟨0, wOn |> setF (F.SBUS_PLT_STATE_MGMT_VIEW (0 : Fin 16).val) pDraining |> State.modMed (fun x => { x with reads := [] }), by decide⟩,
    ⟨0, 255, wOn, by decide⟩,
    ⟨0, wOn |> setF (F.MCH_STATUS_STATE 0) 0 |> setF (F.MCH_STATUS_STATE 1) 0, by decide⟩⟩

/-- States and operands that meet the hypotheses of LifeCycleRequestsEnd, clause by clause. -/
theorem witness_LifeCycleRequestsEnd :
    (∃ (m : Master) (v : BitVec 32), (m = .host ∨ m = .finder) ∧ v.toNat.testBit 31 = true) ∧
    (∃ (s : State), s.lcs.trans.isSome = true) ∧
    (∃ (m : Master) (t : Nat) (c : Nat) (st : Nat) (s : State), s.lcCheck m t c = some st) ∧
    (∃ (m : Master) (t : Nat) (c : Nat) (code : Nat) (s : State), s.lcCheck m t c = none ∧ lcAuth s.lcs.state t = .confirm code ∧ t < lcReturn) ∧
    (∃ (m : Master) (c : Nat) (code : Nat) (s : State), s.lcCheck m lcDecommission c = none ∧ lcAuth s.lcs.state lcDecommission = .confirm code) ∧
    (∃ (t : Nat) (s : State), lcAuth s.lcs.state t = .never) ∧
    (∃ (c : Nat) (s : State), s.lcs.state = lcService ∧ c ≠ 0xDEC0) ∧
    (∃ (k : Nat) (s : State), s.lcs.state = lcService ∧ s.keySlot s.tokenBytes [0, 1, 2, 3] = some k ∧ k < 4 ∧ Says.unlockToken s) ∧
    (∃ (s : State), s.lcs.state = lcService ∧ s.keySlot s.tokenBytes [0, 1, 2, 3] = none) ∧
    (∃ (s : State), s.lcs.state ≠ lcService) ∧
    (∃ (s : State), s.lcs.state = lcProvision ∧ s.lcs.fused.testBit 2 = false ∧ s.lcs.revoked.testBit 2 = false) ∧
    (∃ (op : Nat) (st : Nat), op < 16 ∧ st < 16) ∧
    (∃ (l : LcsSt) (t : Nat), l.trans = some t ∧ t < 6) :=
  ⟨⟨.host, 0x80000000, by decide⟩,
    ⟨wOn |> State.modLcs (fun l => { l with trans := some 1 }), by decide⟩,
    ⟨.host, 0, 0, 2, wOn, by decide⟩,
    ⟨.host, 3, 0x5E21, 0x5E21, wOn |> State.modLcs (fun l => { l with slots := [1, 2] }), by decide⟩,
    ⟨.host, 0xDEC0, 0xDEC0, wOn |> State.modLcs (fun l => { l with slots := [1, 2] }), by decide⟩,
    ⟨0, wOn, by decide⟩,
    ⟨0x5E21, wOn |> State.modLcs (fun x => { x with slots := [2 ^ lcService] }), by decide⟩,
    ⟨0, wUnlock, by decide, by decide +kernel, by decide, by unfold Says.unlockToken; decide +kernel⟩,
    ⟨wOn |> State.modLcs (fun x => { x with slots := [2 ^ lcService] }), by decide⟩,
    ⟨wOn, by decide⟩,
    ⟨wOn |> State.modLcs (fun x => { x with slots := [2 ^ lcProvision] }), by decide⟩,
    ⟨15, 7, by decide⟩,
    ⟨{ LcsSt.reset with trans := some 5 }, 5, by decide⟩⟩

/-- States and operands that meet the hypotheses of TheFinderScans, clause by clause. -/
theorem witness_TheFinderScans :
    (∃ (s : State), s.glb.mode ≠ .off ∧ s.coreOn = true) ∧
    (∃ (s : State), s.glb.mode ≠ .off) ∧
    (∃ (s : State), s.glb.perst = true ∧ s.glb.mode = .standby) ∧
    (∃ (s : State), s.glb.mode = .active) ∧
    (∃ (s : State), s.glb.mode ≠ .off ∧ s.debugOn 0x21 = false) ∧
    (∃ (core : Fin 2) (s : State), s.glb.mode ≠ .off ∧ s.debugOn 0x20 = true ∧ (s.find.core core.val).halted = false) ∧
    (∃ (s : State), s.glb.mode ≠ .off ∧ s.debugOn 0x20 = true) ∧
    (∃ (core : Fin 2) (s : State), s.glb.mode ≠ .off ∧ s.debugOn 0x20 = true ∧ (s.find.core core.val).halted = true) ∧
    (∃ (dr : BitVec 72) (s : State), s.glb.mode ≠ .off ∧ s.debugOn 0x21 = true ∧ s.find.coreA.halted = true ∧ dr.toNat.testBit 71 = false ∧
      dr.toNat.testBit 70 = true ∧ 1 ≤ dr.toNat / 2 ^ 64 % 64 ∧ dr.toNat / 2 ^ 64 % 64 < 32) ∧
    (∃ (dr : BitVec 72) (s : State), s.glb.mode ≠ .off ∧ s.debugOn 0x22 = true ∧ dr.toNat.testBit 71 = false ∧ dr.toNat / 2 ^ 68 % 8 ≤ 3 ∧ dr.toNat
      / 2 ^ 66 % 4 ≤ 1) ∧
    (∃ (pc : BitVec 32) (s : State), s.find.coreA.halted = false ∧ s.find.coreA.armed false pc.toNat = true) ∧
    (∃ (s : State), s.glb.mode ≠ .off ∧ s.debugOn 0x30 = true ∧ s.clk.held = [] ∧ s.alm.queue = [] ∧ s.alm.waiting = []) ∧
    (∃ (sp : Nat), 4 < sp) ∧
    (∃ (s : State), s.glb.mode ≠ .off ∧ s.debugOn 0x31 = true) :=
  ⟨⟨wOn, by decide⟩,
    ⟨wOn, by decide⟩,
    ⟨wOn |> State.modGlb (fun x => { x with perst := true, mode := .standby }) |> State.modGlb (fun g => { g with perst := true }), by decide⟩,
    ⟨wOn |> State.modGlb (fun x => { x with mode := .active }), by decide⟩,
    ⟨wOn |> setF F.LCS_FINDER_ENABLED 0, by decide⟩,
    ⟨0, wOn, by decide⟩,
    ⟨wOn, by decide⟩,
    ⟨0, wOn |> State.modFind (fun f => { f with coreA := { CoreSt.reset with halted := true } }), by decide⟩,
    ⟨2 ^ 70 + 31 * 2 ^ 64, wOn |> State.modFind (fun f => { f with coreA := { CoreSt.reset with halted := true } }), by decide⟩,
    ⟨3 * 2 ^ 68 + 2 ^ 66, wOn, by decide⟩,
    ⟨0, wOn |> State.modFind (fun f => { f with coreA := { CoreSt.reset with bps := [(0, (1, 0, 0))] } }), by decide⟩,
    ⟨wOn |> State.modClk (fun x => { x with held := [] }) |> State.modAlm (fun x => { x with queue := [], waiting := [] }), by decide⟩,
    ⟨5, by decide⟩,
    ⟨wOn, by decide⟩⟩

/-- States and operands that meet the hypotheses of MailboxQueriesAreAnswered, clause by clause. -/
theorem witness_MailboxQueriesAreAnswered :
    (∃ (view : Fin 17) (s : State), Says.mboxRuns (view.val) 0x0001 s) ∧
    (∃ (view : Fin 17) (s : State) (b : _), Says.mboxRuns (view.val) 0x0002 s ∧ (s.ld (view.val)).bg = some b) ∧
    (∃ (view : Fin 17) (s : State) (b : _), Says.mboxRuns (view.val) 0x0002 s ∧ (s.ld (view.val)).bg = none ∧ (s.ld (view.val)).lastBg = some b) ∧
    (∃ (view : Fin 17) (s : State), Says.mboxRuns (view.val) 0x0003 s) ∧
    (∃ (view : Fin 17) (s : State), Says.mboxRuns (view.val) 0x0102 s) ∧
    (∃ (view : Fin 17) (s : State), Says.mboxRuns (view.val) 0x0200 s) ∧
    (∃ (view : Fin 17) (s : State), Says.mboxRuns (view.val) 0x0300 s) ∧
    (∃ (view : Fin 17) (s : State), Says.mboxRuns (view.val) 0x0400 s) ∧
    (∃ (view : Fin 17) (s : State), Says.mboxRuns (view.val) 0x0401 s) ∧
    (∃ (view : Fin 17) (s : State), Says.mboxRuns (view.val) 0x4000 s) ∧
    (∃ (view : Fin 17) (s : State), Says.mboxRuns (view.val) 0x4100 s) ∧
    (∃ (view : Fin 17) (s : State), Says.mboxRuns (view.val) 0x4200 s) ∧
    (∃ (view : Fin 17) (s : State), Says.mboxRuns (view.val) 0x4201 s) ∧
    (∃ (view : Fin 17) (s : State), Says.mboxRuns (view.val) 0x4203 s) ∧
    (∃ (view : Fin 17) (s : State), Says.mboxRuns (view.val) 0x4305 s) ∧
    (∃ (view : Fin 17) (s : State), Says.mboxRuns (view.val) 0x4800 s) ∧
    (∃ (view : Fin 17) (s : State), Says.mboxRuns (view.val) 0x4801 s) ∧
    (∃ (view : Fin 17) (s : State), Says.mboxRuns (view.val) 0x5400 s) ∧
    (∃ (view : Fin 17) (s : State), Says.mboxRuns (view.val) 0x5401 s) ∧
    (∃ (view : Fin 17) (s : State), Says.mboxRuns (view.val) 0x5403 s) ∧
    (∃ (view : Fin 17) (s : State), Says.mboxRuns (view.val) 0xC000 s) ∧
    (∃ (view : Fin 17) (s : State), Says.mboxRuns (view.val) 0xC001 s) ∧
    (∃ (view : Fin 17) (s : State), Says.mboxRuns view.val 0x0100 s) ∧
    (∃ (view : Fin 17) (s : State), Says.mboxRuns view.val 0x4102 s) ∧
    (∃ (view : Fin 17) (s : State), Says.mboxRuns view.val 0x4300 s) ∧
    (∃ (view : Fin 17) (s : State), Says.mboxRuns view.val 0x4303 s) ∧
    (∃ (view : Fin 17) (op : BitVec 16) (s : State), s.mboxReach view.val = true ∧ s.opSupported view.val op.toNat = false) :=
  ⟨⟨0, wOn, by unfold Says.mboxRuns; decide +kernel⟩,
    ⟨0, wOn |> modLd 0 (fun l => { l with bg := some ⟨0x4400, 50, 0⟩ }), ⟨0x4400, 50, 0⟩, by unfold Says.mboxRuns; decide +kernel⟩,
    ⟨0, wOn |> modLd 0 (fun l => { l with lastBg := some ⟨0x4400, 100, 0⟩ }), ⟨0x4400, 100, 0⟩, by unfold Says.mboxRuns; decide +kernel⟩,
    ⟨0, wOn, by unfold Says.mboxRuns; decide +kernel⟩,
    ⟨0, wOn, by unfold Says.mboxRuns; decide +kernel⟩,
    ⟨0, wOn, by unfold Says.mboxRuns; decide +kernel⟩,
    ⟨0, wOn, by unfold Says.mboxRuns; decide +kernel⟩,
    ⟨0, wOn, by unfold Says.mboxRuns; decide +kernel⟩,
    ⟨0, wOn, by unfold Says.mboxRuns; decide +kernel⟩,
    ⟨0, wOn, by unfold Says.mboxRuns; decide +kernel⟩,
    ⟨0, wOn, by unfold Says.mboxRuns; decide +kernel⟩,
    ⟨0, wOn, by unfold Says.mboxRuns; decide +kernel⟩,
    ⟨0, wOn, by unfold Says.mboxRuns; decide +kernel⟩,
    ⟨0, wOn, by unfold Says.mboxRuns; decide +kernel⟩,
    ⟨0, wOn, by unfold Says.mboxRuns; decide +kernel⟩,
    ⟨0, wOn, by unfold Says.mboxRuns; decide +kernel⟩,
    ⟨0, wOn, by unfold Says.mboxRuns; decide +kernel⟩,
    ⟨16, wOn, by unfold Says.mboxRuns; decide +kernel⟩,
    ⟨16, wOn, by unfold Says.mboxRuns; decide +kernel⟩,
    ⟨16, wOn, by unfold Says.mboxRuns; decide +kernel⟩,
    ⟨0, wOn, by unfold Says.mboxRuns; decide +kernel⟩,
    ⟨0, wOn, by unfold Says.mboxRuns; decide +kernel⟩,
    ⟨0, wOn, by unfold Says.mboxRuns; decide +kernel⟩,
    ⟨0, wOn, by unfold Says.mboxRuns; decide +kernel⟩,
    ⟨0, wOn, by unfold Says.mboxRuns; decide +kernel⟩,
    ⟨0, wOn, by unfold Says.mboxRuns; decide +kernel⟩,
    ⟨0, 0xFFFF, wOn, by decide⟩⟩

/-- States and operands that meet the hypotheses of MailboxCommandsAct, clause by clause. -/
theorem witness_MailboxCommandsAct :
    (∃ (view : Fin 17) (log : BitVec 8) (s : State), Says.mboxRuns view.val 0x0101 s ∧ log.toNat ≤ 4) ∧
    (∃ (view : Fin 17) (s : State), Says.mboxRuns view.val 0x0103 s) ∧
    (∃ (view : Fin 17) (s : State), Says.mboxRuns view.val 0x0201 s ∧ s.stage ≠ stageMailbox ∧ s.img.act = none ∧ s.img.reload = none ∧ (s.ld
      view.val).bg = none) ∧
    (∃ (view : Fin 17) (slot : BitVec 8) (s : State), Says.mboxRuns view.val 0x0202 s ∧ s.stage ≠ stageMailbox ∧ slot.toNat ≠ 2) ∧
    (∃ (view : Fin 17) (slot : BitVec 8) (s : State), Says.mboxRuns view.val 0x0202 s ∧ s.stage ≠ stageMailbox ∧ slot.toNat = 2 ∧ s.stagedSlot =
      none) ∧
    (∃ (view : Fin 17) (slot : BitVec 8) (s : State) (k : _), Says.mboxRuns view.val 0x0202 s ∧ s.stage ≠ stageMailbox ∧ slot.toNat = 2 ∧
      s.stagedSlot = some k) ∧
    (∃ (view : Fin 17) (slot : BitVec 8) (i : Image) (s : State), Says.mboxRuns view.val 0x0202 s ∧ s.stage ≠ stageMailbox ∧ slot.toNat = 2 ∧
      s.img.stage = some i ∧ s.needsCold i = true) ∧
    (∃ (view : Fin 17) (slot : BitVec 8) (i : Image) (s : State), Says.mboxRuns view.val 0x0202 s ∧ s.stage ≠ stageMailbox ∧ slot.toNat = 2 ∧
      s.img.stage = some i ∧ s.needsCold i = false ∧ s.alm.wp = false ∧ s.on F.IMG_CTL_ONLINE_EN = true ∧ s.img.reload = none ∧ s.img.act = none) ∧
    (∃ (view : Fin 17) (slot : BitVec 8) (i : Image) (s : State), Says.mboxRuns view.val 0x0202 s ∧ s.stage ≠ stageMailbox ∧ slot.toNat = 2 ∧
      s.img.stage = some i ∧ s.needsCold i = false ∧ s.alm.wp = true) ∧
    (∃ (view : Fin 17) (s : State), Says.mboxRuns view.val 0x0301 s) ∧
    (∃ (view : Fin 17) (off : BitVec 32) (data : List Byte) (s : State), Says.mboxRuns view.val 0x4103 s ∧ off.toNat + data.length ≤ 131072) ∧
    (∃ (view : Fin 17) (s : State), Says.mboxRuns view.val 0x4202 s) ∧
    (∃ (view : Fin 17) (s : State), Says.mboxRuns view.val 0x4204 s) ∧
    (∃ (view : Fin 17) (dpa : BitVec 64) (s : State), Says.mboxRuns view.val 0x4301 s ∧ (s.lcs.state = lcManufacture ∨ s.lcs.state = lcDevelop ∨
      s.lcs.state = lcService) ∧ s.backed view.val (dpa.toNat / 64 * 64) = true) ∧
    (∃ (view : Fin 17) (s : State), Says.mboxRuns view.val 0x4301 s ∧ (s.lcs.state = lcProvision ∨ s.lcs.state = lcReturn ∨ s.lcs.state =
      lcDecommission)) ∧
    (∃ (view : Fin 17) (dpa : BitVec 64) (data : Line) (s : State), Says.mboxRuns view.val 0x4302 s ∧ s.backed view.val (dpa.toNat / 64 * 64) = true
      ∧ writeRefused ⟨s.ldPort view.val, view.val, 0, (dpa.toNat / 64 * 64), true, fullMask, data, false, false, 0⟩ s = none ∧ s.canAccept view.val
      (dpa.toNat / 64 * 64) = true) ∧
    (∃ (view : Fin 17) (s : State), Says.mboxRuns view.val 0x4304 s ∧ (s.ld view.val).bg = none) ∧
    (∃ (view : Fin 17) (b : BgOp) (s : State), Says.mboxRuns view.val 0x4304 s ∧ (s.ld view.val).bg = some b) :=
  ⟨⟨0, 0, wOn, by unfold Says.mboxRuns; decide +kernel⟩,
    ⟨0, wOn, by unfold Says.mboxRuns; decide +kernel⟩,
    ⟨0, wOn |> State.modImg (fun x => { x with act := none, reload := none }), by unfold Says.mboxRuns; decide +kernel⟩,
    ⟨0, 1, wOn, by unfold Says.mboxRuns; decide +kernel⟩,
    ⟨0, 2, wOn, by unfold Says.mboxRuns; decide +kernel⟩,
    ⟨0, 2, wOn |> setF (F.IMG_STAGE_ID_VALID) 1 |> setF F.IMG_STAGE_ID_PERSISTED 1 |> setF (F.IMG_STAGE_ID_SLOT) 0 |> almStore (bootAddr 0) (almRecord
      [0x0A, 0x1E, 1, 1]), 0, by unfold Says.mboxRuns; decide +kernel⟩,
    ⟨0, 2, wImage, wOn |> State.modImg (fun x => { x with stage := some wImage }) |> State.modImg (fun x =>
      { x with stage := some wImage, run := some { wImage with chans := 2 } }), by unfold Says.mboxRuns; decide +kernel⟩,
    ⟨0, 2, wImage, wOn |> setF F.IMG_CTL_ONLINE_EN 1 |> State.modImg (fun x => { x with stage := some wImage, reload := none, act := none }) |>
      State.modAlm (fun x => { x with wp := false }), by unfold Says.mboxRuns; decide +kernel⟩,
    ⟨0, 2, wImage, wOn |> State.modImg (fun x => { x with stage := some wImage }) |> State.modAlm (fun x => { x with wp := true }),
      by unfold Says.mboxRuns; decide +kernel⟩,
    ⟨0, wOn, by unfold Says.mboxRuns; decide +kernel⟩,
    ⟨0, 0, [], wOn, by unfold Says.mboxRuns; decide +kernel⟩,
    ⟨0, wOn, by unfold Says.mboxRuns; decide +kernel⟩,
    ⟨0, wOn, by unfold Says.mboxRuns; decide +kernel⟩,
    ⟨0, 0, wOn |> State.modLcs (fun x => { x with slots := [2 ^ lcManufacture] }), by unfold Says.mboxRuns; decide +kernel⟩,
    ⟨0, wOn |> State.modLcs (fun x => { x with slots := [2 ^ lcProvision] }), by unfold Says.mboxRuns; decide +kernel⟩,
    ⟨0, 0, 0, wOn |> State.modCiph (fun c => { c with cur := [(0, 5)] }), by unfold Says.mboxRuns; decide +kernel⟩,
    ⟨0, wOn, by unfold Says.mboxRuns; decide +kernel⟩,
    ⟨0, ⟨0x4304, 0, 0⟩, wOn |> modLd 0 (fun l => { l with bg := some ⟨0x4304, 0, 0⟩ }), by unfold Says.mboxRuns; decide +kernel⟩⟩

/-- States and operands that meet the hypotheses of MailboxErasesAndMovesCapacity, clause by clause. -/
theorem witness_MailboxErasesAndMovesCapacity :
    (∃ (view : Fin 17) (op : Nat) (c : Instr) (s : State), ((op = 0x4400 ∧ c = .sanitize view) ∨ (op = 0x4401 ∧ c = .secureErase view)) ∧
      Says.mboxRuns view.val op s ∧ (s.ld view.val).bg = none ∧ view.val < 16) ∧
    (∃ (view : Fin 17) (op : Nat) (c : Instr) (s : State), ((op = 0x4400 ∧ c = .sanitize view) ∨ (op = 0x4401 ∧ c = .secureErase view) ∨ (op =
      0x4304 ∧ ∃ d n l, c = .scanMedia view d n l)) ∧ s.mboxReach view.val = true ∧ s.opSupported view.val op = true ∧ s.opServed op = true ∧
      s.glb.mode = .parked) ∧
    (∃ (view : Fin 17) (s : State), s.mboxReach view.val = true ∧ s.opSupported view.val 0x0300 = true ∧ s.opServed 0x0300 = true ∧ s.glb.mode =
      .parked ∧ (s.port (s.ldPort view.val)).l1 = true) ∧
    (∃ (view : Fin 17) (s : State), s.mboxReach view.val = true ∧ s.opSupported view.val 0x4200 = true ∧ s.opServed 0x4200 = false) ∧
    (∃ (view : Fin 17) (e : Nat × Nat) (s : State), Says.mboxRuns view.val 0x4802 s ∧ 0 < e.2 ∧ e.1 + e.2 ≤ (s.ld view.val).dcRegion ∧ (s.ld
      view.val).extents.any (extMeet e) = false ∧ s.usedBlocks + e.2 ≤ s.userBlocks) ∧
    (∃ (view : Fin 17) (es : List (Nat × Nat)) (s : State), Says.mboxRuns view.val 0x4803 s ∧ (extSub es (s.ld view.val).extents).isSome = true) ∧
    (∃ (view : Fin 17) (es : List (Nat × Nat)) (s : State), Says.mboxRuns view.val 0x4803 s ∧ (extSub es (s.ld view.val).extents).isSome = false) ∧
    (∃ (view : Fin 17) (alloc : List (Fin 16 × Nat × Nat)) (s : State), Says.mboxRuns view.val 0x5402 s ∧ sumOver 16 (fun n => (s.allocOf (alloc.map
      (fun a => (a.1.val, a.2.1, a.2.2))) n).1 + extBlocks (s.allocExt (alloc.map (fun a => (a.1.val, a.2.1, a.2.2))) n)) ≤ s.userBlocks ∧
      s.allocOff (alloc.map (fun a => (a.1.val, a.2.1, a.2.2))) 16 ≤ arrayLimit ∧ s.host.moveTo = [] ∧ (List.range 16).any (s.allocBusy (alloc.map
      (fun a => (a.1.val, a.2.1, a.2.2)))) = false ∧ s.allocMoves (alloc.map (fun a => (a.1.val, a.2.1, a.2.2))) = []) ∧
    (∃ (view : Fin 17) (alloc : List (Fin 16 × Nat × Nat)) (s : State), Says.mboxRuns view.val 0x5402 s ∧ sumOver 16 (fun n => (s.allocOf (alloc.map
      (fun a => (a.1.val, a.2.1, a.2.2))) n).1 + extBlocks (s.allocExt (alloc.map (fun a => (a.1.val, a.2.1, a.2.2))) n)) ≤ s.userBlocks ∧
      s.allocOff (alloc.map (fun a => (a.1.val, a.2.1, a.2.2))) 16 ≤ arrayLimit ∧ s.host.moveTo = [] ∧ (List.range 16).any (s.allocBusy (alloc.map
      (fun a => (a.1.val, a.2.1, a.2.2)))) = false ∧ s.allocMoves (alloc.map (fun a => (a.1.val, a.2.1, a.2.2))) ≠ []) ∧
    (∃ (s : State), s.host.moveTo ≠ [] ∧ s.xlat.misses = [] ∧ s.xlat.stalled = [] ∧ s.host.movingCmd = false) ∧
    (∃ (s : State), s.host.moveTo = []) :=
  ⟨⟨0, 0x4400, .sanitize 0, wOn, .inl ⟨rfl, rfl⟩, by unfold Says.mboxRuns; decide +kernel⟩,
    ⟨0, 0x4400, .sanitize 0, wOn |> State.modGlb (fun x => { x with mode := .parked }), .inl ⟨rfl, rfl⟩, by decide +kernel⟩,
    ⟨0, wOn |> State.modGlb (fun x => { x with mode := .parked }) |> modPort 0 (fun p => { p with l1 := true }), by decide +kernel⟩,
    ⟨0, wOn |> setF F.GLB_START_STATUS_STAGE stageMailbox, by decide +kernel⟩,
    ⟨0, (2, 1), wOn |> modLd 0 (fun l => { l with dcRegion := 8, extents := [(0, 1)] }), by unfold Says.mboxRuns; decide +kernel⟩,
    ⟨0, [(0, 1)], wOn |> modLd 0 (fun l => { l with dcRegion := 8, extents := [(0, 1)] }), by unfold Says.mboxRuns; decide +kernel⟩,
    ⟨0, [(4, 1)], wOn |> modLd 0 (fun l => { l with dcRegion := 8, extents := [(0, 1)] }), by unfold Says.mboxRuns; decide +kernel⟩,
    ⟨16, [(0, 4, 0)], wOn |> State.modHost (fun x => { x with moveTo := [] }), by unfold Says.mboxRuns; decide +kernel⟩,
    ⟨16, [(0, 4, 0)], wOn |> State.modHost (fun x => { x with moveTo := [] }) |> modLd 1 (fun l => { l with blocks := 4 }),
      by unfold Says.mboxRuns; decide +kernel⟩,
    ⟨wOn |> State.modXlat (fun x => { x with misses := [], stalled := [] }) |> State.modHost (fun x => { x with movingCmd := false }) |> State.modHost
      (fun h => { h with moveTo := [(0, 4, 0)] }), by decide⟩,
    ⟨wOn |> State.modHost (fun x => { x with moveTo := [] }), by decide⟩⟩

/-- States and operands that meet the hypotheses of AStepRunsTheCommandAtTheFront, clause by clause. -/
theorem witness_AStepRunsTheCommandAtTheFront :
    (∃ (s : State) (c : Instr) (q : List Instr), s.pending = c :: q) ∧
    (∃ (s : State), s.pending = []) :=
  ⟨⟨wOn.modPending (fun _ => [.tapReset]), .tapReset, [], by decide⟩,
    ⟨wOn, by decide⟩⟩

/-- States and operands that meet the hypotheses of EveryStepKeepsTheLifeCycleHistory, clause by clause. -/
theorem witness_EveryStepKeepsTheLifeCycleHistory :
    (∃ (s : State) (t : State), s.lcs.sound = true ∧ step s = .next t) ∧
    (∃ (old : _) (new : _), old < 6 ∧ new < 6) ∧
    (∃ (new : Nat) (s : State), lcAuth s.lcs.state new = .never) :=
  ⟨⟨State.reset, _, by decide, rfl⟩,
    ⟨0, 0, by decide⟩,
    ⟨0, wOn, by decide⟩⟩

/-- States and operands that meet the hypotheses of EveryStepKeepsTheCanonicalForm, clause by clause. -/
theorem witness_EveryStepKeepsTheCanonicalForm :
    (∃ (s : State) (t : State), s.memWf = true ∧ step s = .next t) :=
  ⟨State.reset, _, by decide, rfl⟩

/-- States and operands that meet the hypotheses of AFusedBitStaysFused, clause by clause. -/
theorem witness_AFusedBitStaysFused :
    (∃ (s : State) (t : State) (k : _), step s = .next t ∧ s.lcs.fused.testBit k = true) ∧
    (∃ (s : State) (t : State) (k : _), step s = .next t ∧ s.lcs.revoked.testBit k = true) ∧
    (∃ (s : State) (t : State), step s = .next t) :=
  ⟨⟨State.reset, _, 0, rfl, by decide⟩,
    ⟨State.reset.modLcs (fun l => { l with revoked := 1 }), _, 0, rfl, by decide⟩,
    ⟨State.reset, _, rfl⟩⟩

/-- States and operands that meet the hypotheses of DecommissionIsFinal, clause by clause. -/
theorem witness_DecommissionIsFinal :
    (∃ (s : State) (t : State), s.lcs.sound = true ∧ s.lcs.state = lcDecommission ∧ step s = .next t) :=
  ⟨State.reset.modLcs (fun l => { l with slots := [1, 2, 32] }), _, by decide, by decide, rfl⟩

/-- States and operands that meet the hypotheses of CommandsLeaveTheQueueAndTheTime, clause by clause. -/
theorem witness_CommandsLeaveTheQueueAndTheTime :
    (∃ (c : Instr) (s : State) (t : State), exec c s = .next t) ∧
    (∃ (s : State) (t : State), s.pending = [] ∧ step s = .next t) ∧
    (∃ (c : Instr) (q : List Instr) (s : State) (t : State), s.pending = c :: q ∧ step s = .next t) :=
  ⟨⟨.tapReset, State.reset, _, rfl⟩,
    ⟨State.reset, _, rfl, rfl⟩,
    ⟨.tapReset, [], State.reset.modPending (fun _ => [.tapReset]), _, rfl, rfl⟩⟩

/-- States and operands that meet the hypotheses of WhatWasSentIsNeverTakenBack, clause by clause. -/
theorem witness_WhatWasSentIsNeverTakenBack :
    (∃ (s : State) (t : State), step s = .next t) :=
  ⟨State.reset, _, rfl⟩

/-- States and operands that meet the hypotheses of AChainedPairIsOneWideCounter, clause by clause. -/
theorem witness_AChainedPairIsOneWideCounter :
    (∃ (p : SpecSt) (e : Nat) (j : _), e % 2 = 0 ∧ p.chained e = true ∧ Says.ctr p e < 2 ^ 48 ∧ Says.ctr p (e + 1) < 2 ^ 48 ∧ j ≠ e) ∧
    (∃ (p : SpecSt) (e : Nat) (j : _), e % 2 = 0 ∧ p.chained e = true ∧ Says.ctr p e < 2 ^ 48 ∧ Says.ctr p (e + 1) < 2 ^ 48 ∧ j ≠ e ∧ j ≠ e + 1) ∧
    (∃ (p : SpecSt) (e : Nat), e % 2 = 0 ∧ p.chained e = true ∧ Says.ctr p e < 2 ^ 48 ∧ Says.ctr p (e + 1) < 2 ^ 48) ∧
    (∃ (p : SpecSt) (i : Nat) (j : _), p.chained i = false ∧ Says.ctr p i < 2 ^ 48 ∧ j ≠ i) ∧
    (∃ (p : SpecSt) (i : Nat), p.chained i = false ∧ Says.ctr p i < 2 ^ 48) :=
  ⟨⟨{ SpecSt.reset with chain := [(0, 1)] }, 0, 1, by decide⟩,
    ⟨{ SpecSt.reset with chain := [(0, 1)] }, 0, 2, by decide⟩,
    ⟨{ SpecSt.reset with chain := [(0, 1)] }, 0, by decide⟩,
    ⟨SpecSt.reset, 0, 1, by decide⟩,
    ⟨SpecSt.reset, 0, by decide⟩⟩

/-- States and operands that meet the hypotheses of AddressedBytesReadBackAndKeepTheRest, clause by clause. -/
theorem witness_AddressedBytesReadBackAndKeepTheRest :
    (∃ (l : List Nat) (i : _), i < l.length) ∧
    (∃ (k : Nat) (l : List Nat) (a : _), (a < k ∨ k + l.length ≤ a)) ∧
    (∃ (k : Nat) (s : State), s.alm.wp = true ∧ almProtected k = true) ∧
    (∃ (k : Nat) (s : State), (s.alm.wp = false ∨ almProtected k = false)) ∧
    (∃ (off : Nat) (size : Nat) (o : _), (o < off ∨ off + size ≤ o)) :=
  ⟨⟨[0], 0, by decide⟩,
    ⟨0, [], 0, by decide⟩,
    ⟨0, wOn |> State.modAlm (fun x => { x with wp := true }), by decide⟩,
    ⟨0, wOn, by decide⟩,
    ⟨0, 0, 0, by decide⟩⟩

/-- States and operands that meet the hypotheses of AnOdometerIncrementsByOneAndNoOther, clause by clause. -/
theorem witness_AnOdometerIncrementsByOneAndNoOther :
    (∃ (i : Nat) (j : _), i < 16 ∧ j < 16 ∧ j ≠ i) ∧
    (∃ (i : Nat) (a : _), i < 16 ∧ (a < odoAddr i ∨ odoAddr i + 16 ≤ a)) ∧
    (∃ (i : Nat), i < 16) ∧
    (∃ (i : Nat) (s : State), i < 16 ∧ Says.word1 s i / 2 ^ 24 ≠ 0xA5) ∧
    (∃ (i : Nat) (low : Nat) (s : State), i < 16 ∧ Says.word1 s i / 2 ^ 24 = 0xA5 ∧ ((low = (s.almNum (odoAddr i) 4) ∧ (fun l => crc16 (numBytes 8
      (Says.newHigh s i * 2 ^ 32 + l)) = Says.word1 s i % 65536) low) ∨ (low = ((s.almNum (odoAddr i) 4) + 1) % 2 ^ 32 ∧ (fun l => crc16 (numBytes 8
      (Says.newHigh s i * 2 ^ 32 + l)) = Says.word1 s i % 65536) low ∧ ¬ (fun l => crc16 (numBytes 8 (Says.newHigh s i * 2 ^ 32 + l)) = Says.word1 s
      i % 65536) (s.almNum (odoAddr i) 4)))) ∧
    (∃ (i : Nat) (s : State), i < 16 ∧ Says.word1 s i / 2 ^ 24 = 0xA5 ∧ ¬ (fun l => crc16 (numBytes 8 (Says.newHigh s i * 2 ^ 32 + l)) = Says.word1
      s i % 65536) (s.almNum (odoAddr i) 4) ∧ ¬ (fun l => crc16 (numBytes 8 (Says.newHigh s i * 2 ^ 32 + l)) = Says.word1 s i % 65536) (((s.almNum
      (odoAddr i) 4) + 1) % 2 ^ 32)) :=
  ⟨⟨0, 1, by decide⟩,
    ⟨0, 0, by decide⟩,
    ⟨0, by decide⟩,
    ⟨0, wOn, by decide⟩,
    ⟨0, 0, wOn |> almStore (odoAddr 0 + 8) (numBytes 4 0 ++ numBytes 4 (0xA5000000 + crc16 (numBytes 8 0))), by decide +kernel⟩,
    ⟨0, wOn |> almStore (odoAddr 0 + 8) (numBytes 4 0 ++ numBytes 4 (0xA5000000 + (crc16 (numBytes 8 0) + 1) % 65536)), by decide +kernel⟩⟩

/-- States and operands that meet the hypotheses of ALogRecordIsItsFourWords, clause by clause. -/
theorem witness_ALogRecordIsItsFourWords :
    (∃ (r : LogRec), r.seq < 2 ^ 32 ∧ r.code < 2 ^ 16 ∧ r.source < 2 ^ 8 ∧ r.sev < 2 ^ 8 ∧ r.time < 2 ^ 64 ∧ r.p0 < 2 ^ 32 ∧ r.p1 < 2 ^ 32 ∧ r.p2 <
      2 ^ 32 ∧ r.p3 < 2 ^ 32) ∧
    (∃ (w0 : Nat) (w1 : Nat) (w2 : Nat) (w3 : Nat), w0 < 2 ^ 64 ∧ w1 < 2 ^ 64 ∧ w2 < 2 ^ 64 ∧ w3 < 2 ^ 64) :=
  ⟨⟨(⟨0, 0, 0, 0, 0, 0, 0, 0, 0⟩ : LogRec), by decide⟩,
    ⟨0, 0, 0, 0, by decide⟩⟩

/-- States and operands that meet the hypotheses of TheFinderTouchesOnlyItself, clause by clause. -/
theorem witness_TheFinderTouchesOnlyItself :
    (∃ (c : Instr), Says.finderRow c) :=
  ⟨.tapReset, .inl rfl⟩

/-- States and operands that meet the hypotheses of ClockAndRecordRowsKeepTheCore, clause by clause. -/
theorem witness_ClockAndRecordRowsKeepTheCore :
    (∃ (c : Instr), Says.stationRow c) ∧
    (∃ (c : Instr), Says.counterRow c) :=
  ⟨⟨.holdoverExpiry, .inr (.inr (.inl rfl))⟩,
    ⟨.snapTimer, .inl rfl⟩⟩

/-- States and operands that meet the hypotheses of EveryPowerRowCompletesInEveryMode, clause by clause. -/
theorem witness_EveryPowerRowCompletesInEveryMode :
    (∃ (s : State), s.start.vin = false ∧ Says.idleMode s) ∧
    (∃ (s : State), s.start.vin = false ∧ ¬ Says.idleMode s) ∧
    (∃ (s : State), s.start.vin = true ∧ s.glb.mode = .off) ∧
    (∃ (s : State), s.start.vin = true ∧ s.glb.mode = .standby) ∧
    (∃ (s : State), s.start.vin = true ∧ s.glb.mode = .faultHalt) ∧
    (∃ (s : State), s.start.vin = true ∧ s.glb.mode = .starting ∧ s.dome.huEn = true) ∧
    (∃ (s : State), s.start.vin = true ∧ s.glb.mode = .parked ∧ s.dome.huEn = true ∧ s.dur.drain = 0) ∧
    (∃ (s : State), s.start.vin = true ∧ (s.glb.mode = .active ∨ s.glb.mode = .quiet) ∧ s.dome.huEn = true ∧ s.dur.drain = 0) ∧
    (∃ (s : State), s.start.vin = true ∧ ¬ Says.idleMode s ∧ s.dome.huEn = false ∧ (s.glb.mode = .starting ∨ s.dur.drain = 0)) ∧
    (∃ (s : State), s.start.vin = true ∧ ¬ Says.idleMode s ∧ s.glb.mode ≠ .starting ∧ s.dur.drain ≠ 0) ∧
    (∃ (s : State), ¬ Says.idleMode s ∧ s.on F.DOME_CTL_LEGACY_COLLAPSE = false) ∧
    (∃ (s : State), ¬ Says.idleMode s ∧ s.on F.DOME_CTL_LEGACY_COLLAPSE = true ∧ s.dur.drain < 5) ∧
    (∃ (s : State), Says.idleMode s) ∧
    (∃ (s : State), s.start.aonDown = true ∧ s.start.vin = true) ∧
    (∃ (s : State), s.glb.perst = false ∧ s.glb.mode = .off) ∧
    (∃ (s : State), s.glb.perst = false ∧ s.glb.mode = .standby) ∧
    (∃ (s : State), s.glb.perst = false ∧ s.glb.mode = .faultHalt ∧ s.start.source = srcRestart) ∧
    (∃ (s : State), s.glb.perst = false ∧ s.glb.mode = .faultHalt ∧ s.start.source ≠ srcRestart) ∧
    (∃ (s : State), s.glb.perst = false ∧ s.glb.mode = .starting) ∧
    (∃ (s : State), s.glb.perst = false ∧ ¬ Says.idleMode s ∧ s.glb.mode ≠ .starting ∧ s.glb.transTo.isSome = true) ∧
    (∃ (s : State), s.glb.perst = false ∧ ¬ Says.idleMode s ∧ s.glb.mode ≠ .starting ∧ s.glb.transTo = none ∧ (Says.perstOn s).awaitsPme = true) ∧
    (∃ (s : State), s.glb.perst = false ∧ ¬ Says.idleMode s ∧ s.glb.mode ≠ .starting ∧ s.glb.transTo = none ∧ (Says.perstOn s).awaitsPme = false ∧
      s.on F.GLB_RESET_CTL_PERST_COLD = true) ∧
    (∃ (s : State), s.glb.perst = false ∧ ¬ Says.idleMode s ∧ s.glb.mode ≠ .starting ∧ s.glb.transTo = none ∧ (Says.perstOn s).awaitsPme = false ∧
      s.on F.GLB_RESET_CTL_PERST_COLD = false) ∧
    (∃ (s : State), s.glb.perst = true ∧ s.glb.mode = .off ∧ s.poweredUp = true ∧ s.start.vin = true) ∧
    (∃ (s : State), s.glb.perst = true ∧ s.glb.mode = .standby ∧ s.poweredUp = true) ∧
    (∃ (s : State), s.glb.perst = true ∧ s.glb.mode = .faultHalt ∧ s.poweredUp = true ∧ s.start.source = srcRestart) ∧
    (∃ (s : State), s.glb.perst = true ∧ s.glb.mode = .starting) ∧
    (∃ (s : State), s.glb.perst = true ∧ s.poweredUp = false ∧ (s.glb.mode = .off ∨ s.glb.mode = .standby)) ∧
    (∃ (s : State), s.glb.perst = true ∧ ¬ Says.idleMode s ∧ s.glb.mode ≠ .starting ∧ s.start.warm = true ∧ s.glb.perstHeld = false) ∧
    (∃ (unread : BitVec 4) (x0 : Option Image) (x1 : Option Image) (s : State) (src : _) (un : _) (i : _), s.glb.mode = .starting ∧ s.stage =
      stageImage ∧ s.glb.perst = false ∧ (Says.bootSearch unread.toNat x0 x1 s).1.found = some (src, un, i)) ∧
    (∃ (unread : BitVec 4) (x0 : Option Image) (x1 : Option Image) (s : State), s.glb.mode = .starting ∧ s.stage = stageImage ∧ s.glb.perst = false
      ∧ (Says.bootSearch unread.toNat x0 x1 s).1.found = none) ∧
    (∃ (s : State), ¬ Says.idleMode s) ∧
    (∃ (pd : Fin 80) (s : State), s.pd pd.val = .ramp) :=
  ⟨⟨wOn |> State.modStart (fun x => { x with vin := false }) |> State.modGlb (fun g => { g with mode := .off }),
      by unfold Says.idleMode; decide +kernel⟩,
    ⟨wOn |> State.modStart (fun x => { x with vin := false }), by unfold Says.idleMode; decide +kernel⟩,
    ⟨wOn |> State.modStart (fun x => { x with vin := true }) |> State.modGlb (fun x => { x with mode := .off }), by decide +kernel⟩,
    ⟨wOn |> State.modStart (fun x => { x with vin := true }) |> State.modGlb (fun x => { x with mode := .standby }), by decide +kernel⟩,
    ⟨wOn |> State.modStart (fun x => { x with vin := true }) |> State.modGlb (fun x => { x with mode := .faultHalt }), by decide +kernel⟩,
    ⟨wOn |> State.modStart (fun x => { x with vin := true }) |> State.modGlb (fun x => { x with mode := .starting }) |> State.modDome (fun x =>
      { x with huEn := true }), by decide +kernel⟩,
    ⟨wOn |> State.modStart (fun x => { x with vin := true }) |> State.modGlb (fun x => { x with mode := .parked }) |> State.modDome (fun x =>
      { x with huEn := true }) |> State.modDur (fun x => { x with drain := 0 }), by decide +kernel⟩,
    ⟨wOn |> State.modStart (fun x => { x with vin := true }) |> State.modGlb (fun x => { x with mode := .active }) |> State.modDome (fun x =>
      { x with huEn := true }) |> State.modDur (fun x => { x with drain := 0 }), by decide +kernel⟩,
    ⟨wOn |> State.modStart (fun x => { x with vin := true }) |> State.modDome (fun x => { x with huEn := false }) |> State.modGlb (fun x =>
      { x with mode := .starting }), by unfold Says.idleMode; decide +kernel⟩,
    ⟨wOn |> State.modStart (fun x => { x with vin := true }) |> State.modDur (fun x => { x with drain := 1 }), by unfold Says.idleMode; decide +kernel⟩,
    ⟨wOn |> setF F.DOME_CTL_LEGACY_COLLAPSE 0, by unfold Says.idleMode; decide +kernel⟩,
    ⟨wOn |> setF F.DOME_CTL_LEGACY_COLLAPSE 1, by unfold Says.idleMode; decide +kernel⟩,
    ⟨wOn |> State.modGlb (fun g => { g with mode := .off }), by unfold Says.idleMode; decide +kernel⟩,
    ⟨wOn |> State.modStart (fun x => { x with aonDown := true, vin := true }), by decide +kernel⟩,
    ⟨wOn |> State.modGlb (fun x => { x with perst := false, mode := .off }), by decide +kernel⟩,
    ⟨wOn |> State.modGlb (fun x => { x with perst := false, mode := .standby }), by decide +kernel⟩,
    ⟨wOn |> State.modGlb (fun x => { x with perst := false, mode := .faultHalt }) |> State.modStart (fun x => { x with source := srcRestart }),
      by decide +kernel⟩,
    ⟨wOn |> State.modGlb (fun x => { x with perst := false, mode := .faultHalt }), by decide +kernel⟩,
    ⟨wOn |> State.modGlb (fun x => { x with perst := false, mode := .starting }), by decide +kernel⟩,
    ⟨wOn |> State.modGlb (fun x => { x with perst := false }) |> State.modGlb (fun g => { g with transTo := some .quiet }),
      by unfold Says.idleMode; decide +kernel⟩,
    ⟨wOn |> State.modGlb (fun x => { x with perst := false, transTo := none }) |> State.modGlb (fun g => { g with mode := .parked }) |> State.modGlb
      (fun g => { g with heldTarget := some (tStandby, 1) }), by unfold Says.idleMode; decide +kernel⟩,
    ⟨wOn |> setF F.GLB_RESET_CTL_PERST_COLD 1 |> State.modGlb (fun x => { x with perst := false, transTo := none }),
      by unfold Says.idleMode; decide +kernel⟩,
    ⟨wOn |> setF F.GLB_RESET_CTL_PERST_COLD 0 |> State.modGlb (fun x => { x with perst := false, transTo := none }),
      by unfold Says.idleMode; decide +kernel⟩,
    ⟨wOn |> State.modGlb (fun x => { x with perst := true, mode := .off }) |> State.modStart (fun x => { x with vin := true }) |> State.modDome (fun x
      => { x with seqs := [(devSeq, { SeqSt.reset with phase := .on })] }), by decide +kernel⟩,
    ⟨wOn |> State.modGlb (fun x => { x with perst := true, mode := .standby }) |> State.modDome (fun x =>
      { x with seqs := [(devSeq, { SeqSt.reset with phase := .on })] }), by decide +kernel⟩,
    ⟨wOn |> State.modGlb (fun x => { x with perst := true, mode := .faultHalt }) |> State.modStart (fun x => { x with source := srcRestart }) |>
      State.modDome (fun x => { x with seqs := [(devSeq, { SeqSt.reset with phase := .on })] }), by decide +kernel⟩,
    ⟨wOn |> State.modGlb (fun x => { x with perst := true, mode := .starting }), by decide +kernel⟩,
    ⟨wOn |> State.modGlb (fun x => { x with perst := true, mode := .off }), by decide +kernel⟩,
    ⟨wOn |> State.modGlb (fun x => { x with perst := true, perstHeld := false }) |> State.modStart (fun x => { x with warm := true }),
      by unfold Says.idleMode; decide +kernel⟩,
    ⟨15, some { wImage with lcMask := 63, chan := [(0xFFFFFFFF, wSeg)] }, none, wOn |> setF F.GLB_START_STATUS_STAGE stageImage |> State.modGlb (fun x
      => { x with mode := .starting, perst := false }) |> setF F.GLB_STRAPS_XSPI_EN 1 |> State.modLcs (fun x =>
      { x with slots := [2 ^ lcService] }), 5, false, { wImage with lcMask := 63, chan := [(0xFFFFFFFF, wSeg)] }, by decide +kernel⟩,
    ⟨0, none, none, wOn |> setF F.GLB_START_STATUS_STAGE stageImage |> State.modGlb (fun x => { x with mode := .starting, perst := false }),
      by decide +kernel⟩,
    ⟨wOn, by unfold Says.idleMode; decide +kernel⟩,
    ⟨0, wOn |> State.modDome (fun x => { x with pd := [(0, .ramp)] }), by decide +kernel⟩⟩

/-- States and operands that meet the hypotheses of RequestsMailboxAndTranslationRowsComplete, clause by clause. -/
theorem witness_RequestsMailboxAndTranslationRowsComplete :
    (∃ (port : Fin 2) (ld : Fin 16) (tag : BitVec 16) (dpa : BitVec 52) (s : State) (x : _), Says.open (Says.rdReq port ld tag dpa) s ∧ Says.serves
      (Says.rdReq port ld tag dpa) s ∧ Says.admits (Says.rdReq port ld tag dpa) s ∧ (credBack (Says.rdReq port ld tag dpa).port credReq
      (Says.admitted (Says.rdReq port ld tag dpa) s)).mustWait (Says.rdReq port ld tag dpa) = false ∧ (credBack (Says.rdReq port ld tag dpa).port
      credReq (Says.admitted (Says.rdReq port ld tag dpa) s)).backed (Says.rdReq port ld tag dpa).ld (Says.rdReq port ld tag dpa).dpa = true ∧
      lookStart (⟨.host (Says.rdReq port ld tag dpa), (Says.rdReq port ld tag dpa).ld, (Says.rdReq port ld tag dpa).dpa, none, 0⟩) (credBack
      (Says.rdReq port ld tag dpa).port credReq (Says.admitted (Says.rdReq port ld tag dpa) s)) = ([], x)) ∧
    (∃ (port : Fin 2) (ld : Fin 16) (tag : BitVec 16) (dpa : BitVec 52) (s : State) (f : Found) (x : State) (l : _), Says.open (Says.rdReq port ld
      tag dpa) s ∧ Says.serves (Says.rdReq port ld tag dpa) s ∧ Says.admits (Says.rdReq port ld tag dpa) s ∧ (credBack (Says.rdReq port ld tag
      dpa).port credReq (Says.admitted (Says.rdReq port ld tag dpa) s)).mustWait (Says.rdReq port ld tag dpa) = false ∧ (credBack (Says.rdReq port
      ld tag dpa).port credReq (Says.admitted (Says.rdReq port ld tag dpa) s)).backed (Says.rdReq port ld tag dpa).ld (Says.rdReq port ld tag
      dpa).dpa = true ∧ f.look.user = .host (Says.rdReq port ld tag dpa) ∧ f.bad = false ∧ lookStart (⟨.host (Says.rdReq port ld tag dpa),
      (Says.rdReq port ld tag dpa).ld, (Says.rdReq port ld tag dpa).dpa, none, 0⟩) (credBack (Says.rdReq port ld tag dpa).port credReq
      (Says.admitted (Says.rdReq port ld tag dpa) s)) = ([f], x) ∧ foType f.fo ≠ 3 ∧ kidRead (Says.rdReq port ld tag dpa) f.fo x = none ∧
      x.onPoisonList (Says.rdReq port ld tag dpa).ld (Says.rdReq port ld tag dpa).dpa = false ∧ x.cline (Says.rdReq port ld tag dpa).ld (Says.rdReq
      port ld tag dpa).dpa = some l ∧ l.full = true ∧ l.poison = false) ∧
    (∃ (port : Fin 2) (ld : Fin 16) (tag : BitVec 16) (dpa : BitVec 52) (s : State) (f : Found) (x : State), Says.open (Says.rdReq port ld tag dpa)
      s ∧ Says.serves (Says.rdReq port ld tag dpa) s ∧ Says.admits (Says.rdReq port ld tag dpa) s ∧ (credBack (Says.rdReq port ld tag dpa).port
      credReq (Says.admitted (Says.rdReq port ld tag dpa) s)).mustWait (Says.rdReq port ld tag dpa) = false ∧ (credBack (Says.rdReq port ld tag
      dpa).port credReq (Says.admitted (Says.rdReq port ld tag dpa) s)).backed (Says.rdReq port ld tag dpa).ld (Says.rdReq port ld tag dpa).dpa =
      true ∧ f.look.user = .host (Says.rdReq port ld tag dpa) ∧ f.bad = false ∧ lookStart (⟨.host (Says.rdReq port ld tag dpa), (Says.rdReq port ld
      tag dpa).ld, (Says.rdReq port ld tag dpa).dpa, none, 0⟩) (credBack (Says.rdReq port ld tag dpa).port credReq (Says.admitted (Says.rdReq port
      ld tag dpa) s)) = ([f], x) ∧ foType f.fo ≠ 3 ∧ kidRead (Says.rdReq port ld tag dpa) f.fo x = none ∧ x.onPoisonList (Says.rdReq port ld tag
      dpa).ld (Says.rdReq port ld tag dpa).dpa = false ∧ x.cline (Says.rdReq port ld tag dpa).ld (Says.rdReq port ld tag dpa).dpa = none ∧ x.below
      (Says.rdReq port ld tag dpa).ld (Says.rdReq port ld tag dpa).dpa f.fo f.fr = .zeros) ∧
    (∃ (port : Fin 2) (ld : Fin 16) (tag : BitVec 16) (dpa : BitVec 52) (s : State) (f : Found) (x : State) (p : _), Says.open (Says.rdReq port ld
      tag dpa) s ∧ Says.serves (Says.rdReq port ld tag dpa) s ∧ Says.admits (Says.rdReq port ld tag dpa) s ∧ (credBack (Says.rdReq port ld tag
      dpa).port credReq (Says.admitted (Says.rdReq port ld tag dpa) s)).mustWait (Says.rdReq port ld tag dpa) = false ∧ (credBack (Says.rdReq port
      ld tag dpa).port credReq (Says.admitted (Says.rdReq port ld tag dpa) s)).backed (Says.rdReq port ld tag dpa).ld (Says.rdReq port ld tag
      dpa).dpa = true ∧ f.look.user = .host (Says.rdReq port ld tag dpa) ∧ f.bad = false ∧ lookStart (⟨.host (Says.rdReq port ld tag dpa),
      (Says.rdReq port ld tag dpa).ld, (Says.rdReq port ld tag dpa).dpa, none, 0⟩) (credBack (Says.rdReq port ld tag dpa).port credReq
      (Says.admitted (Says.rdReq port ld tag dpa) s)) = ([f], x) ∧ foType f.fo ≠ 3 ∧ kidRead (Says.rdReq port ld tag dpa) f.fo x = none ∧
      x.onPoisonList (Says.rdReq port ld tag dpa).ld (Says.rdReq port ld tag dpa).dpa = false ∧ x.cline (Says.rdReq port ld tag dpa).ld (Says.rdReq
      port ld tag dpa).dpa = none ∧ x.below (Says.rdReq port ld tag dpa).ld (Says.rdReq port ld tag dpa).dpa f.fo f.fr = .media p) ∧
    (∃ (port : Fin 2) (ld : Fin 16) (tag : BitVec 16) (dpa : BitVec 52) (s : State), Says.open (Says.rdReq port ld tag dpa) s ∧ Says.serves
      (Says.rdReq port ld tag dpa) s ∧ Says.admits (Says.rdReq port ld tag dpa) s ∧ (credBack (Says.rdReq port ld tag dpa).port credReq
      (Says.admitted (Says.rdReq port ld tag dpa) s)).mustWait (Says.rdReq port ld tag dpa) = false ∧ (credBack (Says.rdReq port ld tag dpa).port
      credReq (Says.admitted (Says.rdReq port ld tag dpa) s)).backed (Says.rdReq port ld tag dpa).ld (Says.rdReq port ld tag dpa).dpa = true) ∧
    (∃ (port : Fin 2) (ld : Fin 16) (tag : BitVec 16) (dpa : BitVec 52) (mask : BitVec 64) (data : Line) (poison : Bool) (s : State) (f : Found) (x
      : State), Says.open (Says.wrReq port ld tag dpa mask data poison) s ∧ Says.serves (Says.wrReq port ld tag dpa mask data poison) s ∧
      Says.admits (Says.wrReq port ld tag dpa mask data poison) s ∧ (Says.admitted (Says.wrReq port ld tag dpa mask data poison) s).mustWait
      (Says.wrReq port ld tag dpa mask data poison) = false ∧ (Says.admitted (Says.wrReq port ld tag dpa mask data poison) s).backed (Says.wrReq
      port ld tag dpa mask data poison).ld (Says.wrReq port ld tag dpa mask data poison).dpa = true ∧ f.look.user = .host (Says.wrReq port ld tag
      dpa mask data poison) ∧ f.bad = false ∧ lookStart (⟨.host (Says.wrReq port ld tag dpa mask data poison), (Says.wrReq port ld tag dpa mask data
      poison).ld, (Says.wrReq port ld tag dpa mask data poison).dpa, none, 0⟩) (Says.admitted (Says.wrReq port ld tag dpa mask data poison) s) =
      ([f], x) ∧ writeRefused (Says.wrReq port ld tag dpa mask data poison) x = none ∧ x.canAccept (Says.wrReq port ld tag dpa mask data poison).ld
      (Says.wrReq port ld tag dpa mask data poison).dpa = true) ∧
    (∃ (port : Fin 2) (ld : Fin 16) (tag : BitVec 16) (dpa : BitVec 52) (mask : BitVec 64) (data : Line) (poison : Bool) (s : State) (f : Found) (x
      : State), Says.open (Says.wrReq port ld tag dpa mask data poison) s ∧ Says.serves (Says.wrReq port ld tag dpa mask data poison) s ∧
      Says.admits (Says.wrReq port ld tag dpa mask data poison) s ∧ (Says.admitted (Says.wrReq port ld tag dpa mask data poison) s).mustWait
      (Says.wrReq port ld tag dpa mask data poison) = false ∧ (Says.admitted (Says.wrReq port ld tag dpa mask data poison) s).backed (Says.wrReq
      port ld tag dpa mask data poison).ld (Says.wrReq port ld tag dpa mask data poison).dpa = true ∧ f.look.user = .host (Says.wrReq port ld tag
      dpa mask data poison) ∧ f.bad = false ∧ lookStart (⟨.host (Says.wrReq port ld tag dpa mask data poison), (Says.wrReq port ld tag dpa mask data
      poison).ld, (Says.wrReq port ld tag dpa mask data poison).dpa, none, 0⟩) (Says.admitted (Says.wrReq port ld tag dpa mask data poison) s) =
      ([f], x) ∧ writeRefused (Says.wrReq port ld tag dpa mask data poison) x = none ∧ x.canAccept (Says.wrReq port ld tag dpa mask data poison).ld
      (Says.wrReq port ld tag dpa mask data poison).dpa = false ∧ x.lineFree = 0) ∧
    (∃ (port : Fin 2) (ld : Fin 16) (tag : BitVec 16) (dpa : BitVec 52) (mask : BitVec 64) (data : Line) (poison : Bool) (s : State), Says.open
      (Says.wrReq port ld tag dpa mask data poison) s ∧ Says.serves (Says.wrReq port ld tag dpa mask data poison) s ∧ Says.admits (Says.wrReq port
      ld tag dpa mask data poison) s ∧ (Says.admitted (Says.wrReq port ld tag dpa mask data poison) s).mustWait (Says.wrReq port ld tag dpa mask
      data poison) = false ∧ (Says.admitted (Says.wrReq port ld tag dpa mask data poison) s).backed (Says.wrReq port ld tag dpa mask data poison).ld
      (Says.wrReq port ld tag dpa mask data poison).dpa = true) ∧
    (∃ (port : Fin 2) (s : State), (s.port port.val).gpf = true ∧ (s.port port.val).gpf2 = false ∧ s.glb.transTo ≠ some .parked) ∧
    (∃ (port : Fin 2) (s : State), (s.port port.val).gpf = true ∧ (s.port port.val).gpf2 = false ∧ s.glb.transTo = some .parked ∧ (∀ f ∈
      s.dur.forces, f.what ≠ .mode)) ∧
    (∃ (port : Fin 2) (s : State) (f : _), (s.port port.val).gpf = true ∧ (s.port port.val).gpf2 = false ∧ s.glb.transTo = some .parked ∧
      s.dur.forces.find? (fun f => decide (f.what = .mode)) = some f) ∧
    (∃ (port : Fin 2) (i : Nat) (s : State), (s.port port.val).up = true ∧ 5 ≤ i) ∧
    (∃ (port : Fin 2) (s : State), (s.port port.val).up = true) ∧
    (∃ (view : Fin 17) (s : State), Says.mboxRuns view.val 0x0002 s ∧ (s.ld view.val).bg = none ∧ (s.ld view.val).lastBg = none) ∧
    (∃ (view : Fin 17) (log : BitVec 8) (n : BitVec 8) (s : State), Says.mboxRuns view.val 0x0101 s ∧ log.toNat ≤ 4 ∧ n.toNat < (tgetD [] (s.ld
      view.val).logs log.toNat).length) ∧
    (∃ (view : Fin 17) (log : BitVec 8) (n : BitVec 8) (s : State), Says.mboxRuns view.val 0x0101 s ∧ log.toNat ≤ 4 ∧ n.toNat = (tgetD [] (s.ld
      view.val).logs log.toNat).length) ∧
    (∃ (view : Fin 17) (s : State), Says.mboxRuns view.val 0x0401 s) ∧
    (∃ (view : Fin 17) (slot : BitVec 8) (s : State), s.stage = stageMailbox ∧ Says.mboxRuns view.val 0x0201 s ∧ s.img.act = none ∧ s.img.reload =
      none ∧ slot.toNat = 2) ∧
    (∃ (view : Fin 17) (slot : BitVec 8) (s : State), s.stage = stageMailbox ∧ Says.mboxRuns view.val 0x0202 s ∧ slot.toNat = 2) ∧
    (∃ (view : Fin 17) (s : State), Says.mboxRuns view.val 0x4202 s) ∧
    (∃ (view : Fin 17) (dpa : BitVec 64) (s : State), Says.mboxRuns view.val 0x4301 s ∧ (s.lcs.state = lcManufacture ∨ s.lcs.state = lcDevelop ∨
      s.lcs.state = lcService) ∧ s.backed view.val (dpa.toNat / 64 * 64) = false) ∧
    (∃ (view : Fin 17) (dpa : BitVec 64) (s : State), Says.mboxRuns view.val 0x4302 s ∧ s.backed view.val (dpa.toNat / 64 * 64) = false) ∧
    (∃ (view : Fin 17) (dpa : BitVec 64) (s : State), Says.mboxRuns view.val 0x4302 s ∧ s.backed view.val (dpa.toNat / 64 * 64) = true ∧ s.canAccept
      view.val (dpa.toNat / 64 * 64) = false) ∧
    (∃ (view : Fin 17) (op : Nat) (c : Instr) (s : State), ((op = 0x4400 ∧ c = .sanitize view) ∨ (op = 0x4401 ∧ c = .secureErase view)) ∧
      Says.mboxRuns view.val op s ∧ (s.ld view.val).bg = none ∧ view.val = mgmtView) ∧
    (∃ (view : Fin 17) (es : List (Nat × Nat)) (acc : List (Nat × Nat)) (s : State), Says.mboxRuns view.val 0x4802 s ∧ extAdd (s.ld
      view.val).dcRegion es (s.ld view.val).extents = some acc ∧ s.usedBlocks + extBlocks es ≤ s.userBlocks) ∧
    (∃ (view : Fin 17) (es : List (Nat × Nat)) (s : State), Says.mboxRuns view.val 0x4802 s ∧ extAdd (s.ld view.val).dcRegion es (s.ld
      view.val).extents = none) ∧
    (∃ (s : State), s.host.moveTo ≠ [] ∧ s.xlat.misses = [] ∧ s.xlat.stalled = [] ∧ s.host.movingCmd = true) ∧
    (∃ (s : State), (s.xlat.misses ≠ [] ∨ s.xlat.stalled ≠ [])) ∧
    (∃ (bank : Fin 64) (m : Miss) (s : State), tget s.xlat.misses bank.val = some m ∧ m.wait = false) ∧
    (∃ (way : Fin 65536) (s : State), (s.mline way.val).st = .writeback ∧ (s.mline way.val).redirty = false ∧ (s.mline way.val).why = .wb) ∧
    (∃ (way : Fin 65536) (s : State), (s.mline way.val).st = .writeback ∧ (s.mline way.val).redirty = false ∧ (s.mline way.val).why ≠ .wb) ∧
    (∃ (way : Fin 65536) (s : State), (s.mline way.val).st = .writeback ∧ (s.mline way.val).redirty = true ∧ (s.mline way.val).why = .inv) ∧
    (∃ (v : Word) (s : State), v.toNat.testBit 63 = true ∧ s.backed (v.toNat / 2 ^ 52 % 16) (v.toNat % 2 ^ 52 / 64 * 64) = true) ∧
    (∃ (r : Nat × Nat) (l : List (Nat × Nat)) (s : State), s.xlat.rebuilding = r :: l) ∧
    (∃ (a : List Gather) (b : List Gather) (g : Gather) (s : State), s.coal.gathers = a ++ g :: b ∧ (∀ x ∈ a, x.closed = true) ∧ g.closed = false) ∧
    (∃ (g : Gather) (s : State), s.dur.drain = 0 ∧ s.mergeable [] s.coal.gathers = some g ∧ s.mergeHow g = .poisoned) ∧
    (∃ (tok : Fin 65536) (g : Gather) (s : State), s.coal.gathers.find? (fun g => g.merging == some tok.val) = some g ∧ (foType (s.folio g.ld
      g.folio) = 2 ∨ s.tableForWrite = true) ∧ frState (s.frameOfFolio (s.folio g.ld g.folio) g.frame) = 1 ∧ s.unitHow (frLoc (s.frameOfFolio
      (s.folio g.ld g.folio) g.frame)) true ≠ .wait) ∧
    (∃ (tok : Fin 65536) (g : Gather) (s : State), s.coal.gathers.find? (fun g => g.merging == some tok.val) = some g ∧ (foType (s.folio g.ld
      g.folio) = 2 ∨ s.tableForWrite = true) ∧ frState (s.frameOfFolio (s.folio g.ld g.folio) g.frame) = 3) ∧
    (∃ (tok : Fin 65536) (g : Gather) (s : State), s.coal.gathers.find? (fun g => g.merging == some tok.val) = some g ∧ (foType (s.folio g.ld
      g.folio) = 2 ∨ s.tableForWrite = true) ∧ frState (s.frameOfFolio (s.folio g.ld g.folio) g.frame) ≠ 1 ∧ frState (s.frameOfFolio (s.folio g.ld
      g.folio) g.frame) ≠ 3) ∧
    (∃ (s : State), (∃ e ∈ s.coal.frames, e.2.st = .staged ∧ e.2.placed = none ∧ e.2.free = false)) :=
  ⟨⟨0, 0, 0, 0, wOn |> setF F.MAPC_CTL_EN 1, (wLookR (wOn |> setF F.MAPC_CTL_EN 1)).2, by unfold Says.open Says.serves Says.admits; decide +kernel⟩,
    ⟨0, 0, 0, 0, wHit 0 |> State.modCoal (fun c => { c with lines := [(0, wLine)] }), { look := wKey wRd, fo := 0, fr := 0, bad := false }, (wLookR
      (wHit 0 |> State.modCoal (fun c => { c with lines := [(0, wLine)] }))).2, { wLine with full := true },
      by unfold Says.open Says.serves Says.admits; decide +kernel⟩,
    ⟨0, 0, 0, 0, wHit 0, { look := wKey wRd, fo := 0, fr := 0, bad := false }, (wLookR (wHit 0)).2,
      by unfold Says.open Says.serves Says.admits; decide +kernel⟩,
    ⟨0, 0, 0, 0, wHit (2 ^ 62 + 5) |> State.modCiph (fun c => { c with kids := [(0, { Kid.reset with st := kActive })] }),
      { look := wKey wRd, fo := 2 ^ 62 + 5, fr := 4611686044197191682, bad := false }, (wLookR (wHit (2 ^ 62 + 5) |> State.modCiph (fun c =>
      { c with kids := [(0, { Kid.reset with st := kActive })] }))).2, frLoc 4611686044197191682,
      by unfold Says.open Says.serves Says.admits; decide +kernel⟩,
    ⟨0, 0, 0, 0, wOn, by unfold Says.open Says.serves Says.admits; decide +kernel⟩,
    ⟨0, 0, 0, 0, 2 ^ 64 - 1, 5, false, wHit 0 |> State.modCoal (fun c => { c with lines := [(0, wLine)] }) |> State.modCiph (fun c =>
      { c with cur := [(0, 5)] }), { look := wKey wWr, fo := 0, fr := 0, bad := false }, (wLookW (wHit 0 |> State.modCoal (fun c =>
      { c with lines := [(0, wLine)] }) |> State.modCiph (fun c => { c with cur := [(0, 5)] }))).2,
      by unfold Says.open Says.serves Says.admits; decide +kernel⟩,
    ⟨0, 0, 0, 0, 2 ^ 64 - 1, 5, false, wNoLines (wHit 0 |> State.modCiph (fun c => { c with cur := [(0, 5)] })),
      { look := wKey wWr, fo := 0, fr := 0, bad := false }, (wLookW (wNoLines (wHit 0 |> State.modCiph (fun c => { c with cur := [(0, 5)] })))).2,
      by unfold Says.open; decide +kernel, by unfold Says.serves; decide +kernel, by unfold Says.admits; decide +kernel, by decide +kernel,
      by decide +kernel, rfl, rfl, Prod.ext (by decide +kernel) rfl, by unfold writeRefused; decide +kernel, canAccept_none _ _ _ rfl
      (by decide +kernel), lineFree_zero _ rfl⟩,
    ⟨0, 0, 0, 0, 0, 0, false, wOn, by unfold Says.open Says.serves Says.admits; decide +kernel⟩,
    ⟨0, wOn |> modPort (0 : Fin 2).val (fun p => { p with gpf := true }) |> modPort (0 : Fin 2).val (fun p => { p with gpf2 := false }),
      by decide +kernel⟩,
    ⟨0, wOn |> modPort (0 : Fin 2).val (fun p => { p with gpf := true }) |> modPort (0 : Fin 2).val (fun p => { p with gpf2 := false }) |> State.modGlb
      (fun x => { x with transTo := some .parked }), by decide +kernel⟩,
    ⟨0, wOn |> modPort (0 : Fin 2).val (fun p => { p with gpf := true }) |> modPort (0 : Fin 2).val (fun p => { p with gpf2 := false }) |> State.modGlb
      (fun x => { x with transTo := some .parked }) |> State.modDur (fun x => { x with forces := [⟨0, .mode⟩] }), ⟨0, .mode⟩, by decide +kernel⟩,
    ⟨0, 5, wOn |> modPort (0 : Fin 2).val (fun p => { p with up := true }), by decide +kernel⟩,
    ⟨0, wOn |> modPort (0 : Fin 2).val (fun p => { p with up := true }), by decide +kernel⟩,
    ⟨0, wOn, by unfold Says.mboxRuns; decide +kernel⟩,
    ⟨0, 0, 0, wOn |> modLd 0 (fun l => { l with logs := [(0, [⟨0, 0⟩])] }), by unfold Says.mboxRuns; decide +kernel⟩,
    ⟨0, 0, 0, wOn, by unfold Says.mboxRuns; decide +kernel⟩,
    ⟨0, wOn, by unfold Says.mboxRuns; decide +kernel⟩,
    ⟨0, 2, wOn |> setF F.GLB_START_STATUS_STAGE stageMailbox |> State.modImg (fun x => { x with act := none, reload := none }),
      by unfold Says.mboxRuns; decide +kernel⟩,
    ⟨0, 2, wOn |> setF F.GLB_START_STATUS_STAGE stageMailbox, by unfold Says.mboxRuns; decide +kernel⟩,
    ⟨0, wOn, by unfold Says.mboxRuns; decide +kernel⟩,
    ⟨0, 2 ^ 40, wOn |> State.modLcs (fun x => { x with slots := [2 ^ lcManufacture] }), by unfold Says.mboxRuns; decide +kernel⟩,
    ⟨0, 2 ^ 40, wOn, by unfold Says.mboxRuns; decide +kernel⟩,
    ⟨0, 0, wNoLines wOn, by unfold Says.mboxRuns; decide +kernel, by decide +kernel, canAccept_none _ _ _ rfl (by decide +kernel)⟩,
    ⟨16, 0x4400, .sanitize 16, wOn, .inl ⟨rfl, rfl⟩, by unfold Says.mboxRuns; decide +kernel, by decide, rfl⟩,
    ⟨0, [(0, 1)], [(0, 1)], wOn |> modLd 0 (fun l => { l with dcRegion := 8 }), by unfold Says.mboxRuns; decide +kernel⟩,
    ⟨0, [(0, 9)], wOn |> modLd 0 (fun l => { l with dcRegion := 8 }), by unfold Says.mboxRuns; decide +kernel⟩,
    ⟨wOn |> State.modXlat (fun x => { x with misses := [], stalled := [] }) |> State.modHost (fun x => { x with movingCmd := true }) |> State.modHost
      (fun x => { x with moveTo := [(0, 4, 0)] }), by decide +kernel⟩,
    ⟨wOn |> State.modXlat (fun x => { x with misses := [(0, wMiss)] }), by decide +kernel⟩,
    ⟨0, wMiss, wOn |> State.modXlat (fun x => { x with misses := [((0 : Fin 64).val, wMiss)] }), by decide +kernel⟩,
    ⟨0, wOn |> State.modXlat (fun x =>
      { x with lines := [((0 : Fin 65536).val, { MapLine.reset with st := .writeback, redirty := false, why := .wb })] }), by decide +kernel⟩,
    ⟨0, wOn |> State.modXlat (fun x => { x with lines := [((0 : Fin 65536).val, { MapLine.reset with st := .writeback, redirty := false })] }),
      by decide +kernel⟩,
    ⟨0, wOn |> State.modXlat (fun x =>
      { x with lines := [((0 : Fin 65536).val, { MapLine.reset with st := .writeback, redirty := true, why := .inv })] }), by decide +kernel⟩,
    ⟨0x8000000000000000, wOn, by decide +kernel⟩,
    ⟨(0, 1), [], wOn |> State.modXlat (fun x => { x with rebuilding := ((0, 1) : Nat × Nat) :: ([] : List (Nat × Nat)) }) |> State.modXlat (fun x =>
      { x with rebuilding := [(0, 1)] }), by decide +kernel⟩,
    ⟨[], [], wGather, wOn |> State.modCoal (fun x => { x with gathers := ([] : List Gather) ++ wGather :: ([] : List Gather) }), by decide +kernel⟩,
    ⟨{ wGather with closed := true }, wOn |> State.modDur (fun x => { x with drain := 0 }) |> State.modCoal (fun c =>
      { c with gathers := [{ wGather with closed := true }] }) |> State.modWm (fun x => { x with words := [(0, 2 ^ 63 + 1), (64, 3 * 2 ^ 62)] }),
      by decide +kernel⟩,
    ⟨0, { wGather with closed := true, merging := some 0 }, wOn |> State.modCoal (fun c =>
      { c with gathers := [{ wGather with closed := true, merging := some 0 }] }) |> State.modWm (fun x =>
      { x with words := [(0, 2 ^ 63 + 1), (64, 2 ^ 62)] }) |> State.modDrift (fun x => { x with recs := [(0, ⟨true, 0, 0, 0, 0⟩)] }),
      by decide +kernel⟩,
    ⟨0, { wGather with closed := true, merging := some 0 }, wOn |> State.modCoal (fun c =>
      { c with gathers := [{ wGather with closed := true, merging := some 0 }] }) |> State.modWm (fun x =>
      { x with words := [(0, 2 ^ 63 + 1), (64, 3 * 2 ^ 62)] }) |> State.modDrift (fun x => { x with recs := [(0, ⟨true, 0, 0, 0, 0⟩)] }),
      by decide +kernel⟩,
    ⟨0, { wGather with closed := true, merging := some 0 }, wOn |> State.modCoal (fun c =>
      { c with gathers := [{ wGather with closed := true, merging := some 0 }] }) |> State.modWm (fun x => { x with words := [(0, 2 ^ 63 + 1)] }) |>
      State.modDrift (fun x => { x with recs := [(0, ⟨true, 0, 0, 0, 0⟩)] }), by decide +kernel⟩,
    ⟨wOn |> State.modCoal (fun x => { x with frames := [(0, wFrame)] }), by decide +kernel⟩⟩

/-- States and operands that meet the hypotheses of EveryFabricEndAndReloadRowCompletes, clause by clause. -/
theorem witness_EveryFabricEndAndReloadRowCompletes :
    (∃ (c : Fin 32) (d : Fin 8) (mode1 : Bool) (rows : List PlaneRow) (s : State), rows ≠ [] ∧ onePerPlane rows = true ∧ s.mayErase c.val d.val
      s.drainingPlates = true ∧ s.sealedWaits (groupOf c.val d.val) = false ∧ s.programWaits c.val d.val = false ∧ (∀ p ∈ (rows.map (fun r => mkPfa
      c.val d.val r.plane.val r.field.val 0)), s.eraseWaits p = true ∧ mode1 = s.setMode1 (setOf p) ∧ pfaField p = lowField (rows.map (fun r =>
      mkPfa c.val d.val r.plane.val r.field.val 0))) ∧ (∀ k < 4, s.eraseWaits (mkPfa c.val d.val k (lowField (rows.map (fun r => mkPfa c.val d.val
      r.plane.val r.field.val 0))) 0) = true → ∃ p ∈ (rows.map (fun r => mkPfa c.val d.val r.plane.val r.field.val 0)), pfaPlane p = k)) ∧
    (∃ (plane : Fin 1024) (pfa : Nat) (mask : Nat) (offs : List Int) (l : Bool) (s : State), tget s.med.planes plane.val = some (.read pfa mask offs
      l)) ∧
    (∃ (plane : Fin 1024) (pfa : Nat) (level : Nat) (sweep : Int) (s : State), tget s.med.planes plane.val = some (.star pfa level sweep) ∧ s.measAt
      pfa = none) ∧
    (∃ (plane : Fin 1024) (pfa : Nat) (level : Nat) (sweep : Int) (s : State) (m : _), tget s.med.planes plane.val = some (.star pfa level sweep) ∧
      s.measAt pfa = some m ∧ ¬ (level = 15 ∧ sweep = s.measSweep m)) ∧
    (∃ (plane : Fin 1024) (pfa : Nat) (level : Nat) (sweep : Int) (s : State) (m : _), tget s.med.planes plane.val = some (.star pfa level sweep) ∧
      s.measAt pfa = some m ∧ level = 15 ∧ sweep = s.measSweep m) ∧
    (∃ (plane : Fin 1024) (pfa : Nat) (level : Nat) (sweep : Int) (s : State) (m : _), tget s.med.planes plane.val = some (.star pfa level sweep) ∧
      s.measAt pfa = some m) ∧
    (∃ (id : Nat) (ok : Bool) (r : Rebuild) (s : State), s.med.rebuilds.find? (fun r => r.id == id) = some r ∧ (r.failed = true ∨ (r.left = [] ∧ ok
      = false))) ∧
    (∃ (id : Nat) (ok : Bool) (r : Rebuild) (s : State), s.med.rebuilds.find? (fun r => r.id == id) = some r ∧ r.failed = false ∧ r.left = [] ∧ ok =
      true) ∧
    (∃ (c : Fin 32) (d : Fin 8) (m1 : Bool) (rs : List (Nat × MRow)) (s : State), s.dieSuspended c.val d.val = false ∧ (s.die (dieNo c.val
      d.val)).op = .program m1 rs) ∧
    (∃ (c : Nat) (d : Nat) (m1 : Bool) (rs : List (Nat × MRow)) (s : State), (s.die (dieNo c d)).op = .program m1 rs) ∧
    (∃ (c : Fin 32) (d : Fin 8) (m1 : Bool) (fs : List Nat) (s : State), s.dieSuspended c.val d.val = false ∧ (s.die (dieNo c.val d.val)).op =
      .erase m1 fs) ∧
    (∃ (c : Fin 32) (d : Fin 8) (s : State), (s.die (dieNo c.val d.val)).op = .ident) ∧
    (∃ (c : Fin 32) (d : Fin 8) (s : State), (s.die (dieNo c.val d.val)).op = .resetDie) ∧
    (∃ (c : Fin 32) (s : State) (step : _), tget s.med.training c.val = some step) ∧
    (∃ (c : Fin 32) (d : Fin 8) (s : State) (p : Fin 4) (pfa : Nat) (mask : Nat) (offs : List Int) (l : Bool), tget s.med.planes (planeNo c.val
      d.val p.val) = some (.read pfa mask offs l)) ∧
    (∃ (c : Fin 32) (d : Fin 8) (s : State) (p : Fin 4) (pfa : Nat) (level : Nat) (sweep : Int), tget s.med.planes (planeNo c.val d.val p.val) =
      some (.star pfa level sweep)) ∧
    (∃ (c : Fin 32) (d : Fin 8) (s : State) (m1 : _) (rs : _), s.dieSuspended c.val d.val = false ∧ (s.die (dieNo c.val d.val)).op = .program m1 rs) ∧
    (∃ (c : Fin 32) (d : Fin 8) (s : State) (m1 : _) (fs : _), s.dieSuspended c.val d.val = false ∧ (s.die (dieNo c.val d.val)).op = .erase m1 fs) ∧
    (∃ (c : Fin 32) (d : Fin 8) (s : State), 2 ≤ s.get (F.MCH_STATUS_STATE c.val) ∧ s.get (F.MCH_STATUS_STATE c.val) < 8 ∧ s.on
      (F.MCH_DIE_STATUS_FAILED c.val d.val) = false) ∧
    (∃ (c : Fin 32) (s : State), s.get (F.MCH_STATUS_STATE c.val) = 1) ∧
    (∃ (c : Fin 32) (s : State), s.get (F.MCH_STATUS_STATE c.val) = chOnline ∧ s.glb.mode = .quiet ∧ (∀ e ∈ s.med.planes, e.1 / 32 ≠ c.val) ∧ (∀ e ∈
      s.med.dies, e.1 / 8 = c.val → e.2.op = .none)) ∧
    (∃ (c : Fin 32) (s : State), s.get (F.MCH_STATUS_STATE c.val) = 4 ∧ (∀ e ∈ s.med.planes, e.1 / 32 ≠ c.val) ∧ (∀ n ∈ groupDies c.val, ∀ m1 rs,
      (s.die n).op ≠ .program m1 rs)) ∧
    (∃ (c : Fin 32) (g : ChanSeg) (s : State), s.get (F.MCH_STATUS_STATE c.val) = 5 ∧ s.loadingSeg c.val = some g) ∧
    (∃ (c : Fin 32) (s : State), s.get (F.MCH_STATUS_STATE c.val) = 5) ∧
    (∃ (c : Fin 32) (s : State), s.get (F.MCH_STATUS_STATE c.val) = 6) ∧
    (∃ (c : Fin 32) (s : State), s.get (F.MCH_STATUS_STATE c.val) = 7) ∧
    (∃ (s : State), s.dome.flip = true ∧ s.seqsBusy = false) ∧
    (∃ (s : State), (if s.standbyCore = 0 then s.img.asstA else s.img.asstB).isSome = true) ∧
    (∃ (s : State), s.on F.IMG_ASSIST_STANDBY_READY = false) ∧
    (∃ (c : Nat) (src : Nat) (i : Image) (g : ChanSeg) (s : State), s.reloadImage src = some i ∧ i.segOf c = some g ∧ s.glb.transTo = none ∧
      s.dome.huOk = true ∧ s.get (F.MCH_STATUS_STATE c) ≠ 0 ∧ s.get (F.MCH_STATUS_STATE c) ≠ 1) ∧
    (∃ (src : Nat) (i : Image) (s : State), s.reloadImage src = some i ∧ s.glb.transTo = none ∧ i.reg.any s.recLocked = false) ∧
    (∃ (src : Nat) (i : Image) (s : State), s.reloadImage src = some i ∧ s.glb.transTo = none ∧ i.domeRegs.any s.recLocked = false) ∧
    (∃ (src : Nat) (i : Image) (s : State), s.reloadImage src = some i ∧ s.glb.transTo = none) ∧
    (∃ (v : BitVec 32) (s : State), v.toNat.testBit 31 = true ∧ s.on F.IMG_RELOAD_STATUS_BUSY = false ∧ ((v.toNat / 2 ^ 24 % 16) = 0 ∨ 5 < (v.toNat
      / 2 ^ 24 % 16))) :=
  ⟨⟨0, 0, false, [⟨0, 0, 0⟩], wOn |> State.modFld (fun x => { x with erasing := [0] }) |> State.modFld (fun x =>
      { x with tbl := [(0, { FRec.reset with erasePend := true })] }), by decide +kernel⟩,
    ⟨0, 0, 0, [], false, wOn |> State.modMed (fun x => { x with planes := [((0 : Fin 1024).val, (.read (0 : Nat) (0 : Nat) ([] : List Int) false))] }),
      by decide +kernel⟩,
    ⟨0, 0, 0, 0, wOn |> State.modMed (fun x => { x with planes := [((0 : Fin 1024).val, (.star (0 : Nat) (0 : Nat) (0 : Int)))] }), by decide +kernel⟩,
    ⟨0, 0, 0, 0, wOn |> State.modMed (fun x => { x with planes := [((0 : Fin 1024).val, (.star (0 : Nat) (0 : Nat) (0 : Int)))] }) |> State.modDrift
      (fun x => { x with meas := [wMeas] }), wMeas, by decide +kernel⟩,
    ⟨0, 0, 15, 0, wOn |> State.modMed (fun x => { x with planes := [((0 : Fin 1024).val, (.star (0 : Nat) (15 : Nat) (0 : Int)))] }) |> State.modDrift
      (fun x => { x with meas := [wMeas] }), wMeas, by decide +kernel⟩,
    ⟨0, 0, 0, 0, wOn |> State.modMed (fun x => { x with planes := [((0 : Fin 1024).val, (.star (0 : Nat) (0 : Nat) (0 : Int)))] }) |> State.modDrift
      (fun x => { x with meas := [wMeas] }), wMeas, by decide +kernel⟩,
    ⟨0, false, { id := 0, pfa := 0, leaf := 0, left := [], failed := true, done := false }, wOn |> State.modMed (fun x =>
      { x with rebuilds := [⟨0, 0, 0, [], true, false⟩] }), by decide +kernel⟩,
    ⟨0, true, (⟨0, 0, 0, [], false, false⟩ : Rebuild), wOn |> State.modMed (fun x => { x with rebuilds := [⟨0, 0, 0, [], false, false⟩] }),
      by decide +kernel⟩,
    ⟨0, 0, false, [], wOn |> State.modMed (fun x =>
      { x with dies := [((dieNo (0 : Fin 32).val (0 : Fin 8).val), { DieSt.reset with op := .program false ([] : List (Nat × MRow)) })] }),
      by decide +kernel⟩,
    ⟨0, 0, false, [], wOn |> State.modMed (fun x =>
      { x with dies := [((dieNo (0 : Nat) (0 : Nat)), { DieSt.reset with op := .program false ([] : List (Nat × MRow)) })] }), by decide +kernel⟩,
    ⟨0, 0, false, [], wOn |> State.modMed (fun x =>
      { x with dies := [((dieNo (0 : Fin 32).val (0 : Fin 8).val), { DieSt.reset with op := .erase false ([] : List Nat) })] }), by decide +kernel⟩,
    ⟨0, 0, wOn |> State.modMed (fun x => { x with dies := [((dieNo (0 : Fin 32).val (0 : Fin 8).val), { DieSt.reset with op := .ident })] }),
      by decide +kernel⟩,
    ⟨0, 0, wOn |> State.modMed (fun x => { x with dies := [((dieNo (0 : Fin 32).val (0 : Fin 8).val), { DieSt.reset with op := .resetDie })] }),
      by decide +kernel⟩,
    ⟨0, wOn |> State.modMed (fun x => { x with training := [((0 : Fin 32).val, 0)] }), 0, by decide +kernel⟩,
    ⟨0, 0, wOn |> State.modMed (fun x =>
      { x with planes := [((planeNo (0 : Fin 32).val (0 : Fin 8).val (0 : Fin 4).val), (.read (0 : Nat) (0 : Nat) ([] : List Int) false))] }), 0, 0,
      0, [], false, by decide +kernel⟩,
    ⟨0, 0, wOn |> State.modMed (fun x =>
      { x with planes := [((planeNo (0 : Fin 32).val (0 : Fin 8).val (0 : Fin 4).val), (.star (0 : Nat) (0 : Nat) (0 : Int)))] }), 0, 0, 0, 0,
      by decide +kernel⟩,
    ⟨0, 0, wOn |> State.modMed (fun x => { x with dies := [((dieNo (0 : Fin 32).val (0 : Fin 8).val), { DieSt.reset with op := .program false [] })] }),
      false, [], by decide +kernel⟩,
    ⟨0, 0, wOn |> State.modMed (fun x => { x with dies := [((dieNo (0 : Fin 32).val (0 : Fin 8).val), { DieSt.reset with op := .erase false [] })] }),
      false, [], by decide +kernel⟩,
    ⟨0, 0, wOn |> setF (F.MCH_DIE_STATUS_FAILED (0 : Fin 32).val (0 : Fin 8).val) 0, by decide +kernel⟩,
    ⟨0, wOn |> setF (F.MCH_STATUS_STATE (0 : Fin 32).val) 1, by decide +kernel⟩,
    ⟨0, wOn |> setF (F.MCH_STATUS_STATE (0 : Fin 32).val) chOnline |> State.modGlb (fun x => { x with mode := .quiet }), by decide +kernel⟩,
    ⟨0, wOn |> setF (F.MCH_STATUS_STATE (0 : Fin 32).val) 4, by decide, by decide, fun n _ m1 rs h => by cases h⟩,
    ⟨0, wSeg, wOn |> setF (F.MCH_STATUS_STATE (0 : Fin 32).val) 5 |> State.modImg (fun x => { x with nextSegs := [(0, wSeg)] }), by decide +kernel⟩,
    ⟨0, wOn |> setF (F.MCH_STATUS_STATE (0 : Fin 32).val) 5, by decide +kernel⟩,
    ⟨0, wOn |> setF (F.MCH_STATUS_STATE (0 : Fin 32).val) 6, by decide +kernel⟩,
    ⟨0, wOn |> setF (F.MCH_STATUS_STATE (0 : Fin 32).val) 7, by decide +kernel⟩,
    ⟨wOn |> State.modDome (fun x => { x with flip := true }), by decide +kernel⟩,
    ⟨wOn |> State.modImg (fun x => { x with asstA := some ⟨1, 0⟩ }) |> State.modImg (fun x => { x with asstB := some ⟨1, 0⟩ }), by decide +kernel⟩,
    ⟨wOn |> setF F.IMG_ASSIST_STANDBY_READY 0, by decide +kernel⟩,
    ⟨0, 0, { wImage with chan := [(0xFFFFFFFF, wSeg)] }, wSeg, wOn |> State.modGlb (fun x => { x with transTo := none }) |> State.modDome (fun x =>
      { x with huOk := true }) |> State.modImg (fun x => { x with stage := some { wImage with chan := [(0xFFFFFFFF, wSeg)] } }), by decide +kernel⟩,
    ⟨0, wImage, wOn |> State.modGlb (fun x => { x with transTo := none }) |> State.modImg (fun x => { x with stage := some wImage }), by decide +kernel⟩,
    ⟨0, wImage, wOn |> State.modGlb (fun x => { x with transTo := none }) |> State.modImg (fun x => { x with stage := some wImage }), by decide +kernel⟩,
    ⟨0, wImage, wOn |> State.modGlb (fun x => { x with transTo := none }) |> State.modImg (fun x => { x with stage := some wImage }), by decide +kernel⟩,
    ⟨0x80000000, wOn |> setF F.IMG_RELOAD_STATUS_BUSY 0, by decide +kernel⟩⟩

/-- States and operands that meet the hypotheses of EveryDriftFieldAndDurabilityRowCompletes, clause by clause. -/
theorem witness_EveryDriftFieldAndDurabilityRowCompletes :
    (∃ (set : Fin 1048576) (s : State), s.glb.mode = .active ∧ s.dur.drain = 0 ∧ s.isDue set.val = true ∧ s.on F.DRIFT_CTL_FORCE_EN = false ∧ s.set4
      set.val = true ∧ (∀ m ∈ s.drift.meas, m.set ≠ set.val)) ∧
    (∃ (set : Fin 1048576) (s : State), s.glb.mode = .active ∧ s.dur.drain = 0 ∧ s.isDue set.val = true ∧ s.on F.DRIFT_CTL_FORCE_EN = false ∧ s.set4
      set.val = true ∧ (∃ m ∈ s.drift.meas, m.set = set.val)) ∧
    (∃ (set : Nat) (wrapped : Bool) (s : State), s.on F.DRIFT_CTL_SCRUB_EN = true ∧ s.glb.mode = .active ∧ s.dur.drain = 0 ∧ s.scrubNext = some
      (set, wrapped) ∧ s.scrubWaits set = true) ∧
    (∃ (set : Nat) (wrapped : Bool) (s : State), s.on F.DRIFT_CTL_SCRUB_EN = true ∧ s.glb.mode = .active ∧ s.dur.drain = 0 ∧ s.scrubNext = some
      (set, wrapped) ∧ s.scrubWaits set = false) ∧
    (∃ (v : BitVec 32) (s : State), (storeAt 0x300000 v.toNat s).on F.DRIFT_CTL_FORCE_EN = true ∧ s.on F.DRIFT_CTL_FORCE_EN = false) ∧
    (∃ (v : BitVec 32) (s : State), ((storeAt 0x300000 v.toNat s).on F.DRIFT_CTL_FORCE_EN = false ∨ s.on F.DRIFT_CTL_FORCE_EN = true)) ∧
    (∃ (m : Fin 4) (s : State), (s.mover m.val).job = jobGc ∧ s.jobMode jobGc = true) ∧
    (∃ (m : Fin 4) (s : State), (s.mover m.val).job = jobWear ∧ s.jobMode jobWear = true) ∧
    (∃ (m : Fin 4) (s : State), (s.mover m.val).job = jobRewrite ∧ s.jobMode jobRewrite = true) ∧
    (∃ (m : Fin 4) (s : State), (s.mover m.val).job = jobRelocate ∧ s.jobMode jobRelocate = true) ∧
    (∃ (m : Fin 4) (s : State) (w : State) (v : _), (s.mover m.val).job ≠ jobRewrite ∧ s.on F.FLD_CTL_REWRITE_EN = true ∧ s.jobMode jobRewrite =
      true ∧ ((rwqDrop s).mover m.val).job ≠ jobRewrite ∧ (rwqDrop s).jobNext jobRewrite = true ∧ moverTake m.val jobRewrite (rwqDrop s) = some w ∧
      w.fld.paused.find? (fun v => v.job == jobRewrite) = some v) ∧
    (∃ (m : Fin 4) (s : State) (w : State) (f : _), (s.mover m.val).job ≠ jobRewrite ∧ s.on F.FLD_CTL_REWRITE_EN = true ∧ s.jobMode jobRewrite =
      true ∧ ((rwqDrop s).mover m.val).job ≠ jobRewrite ∧ (rwqDrop s).jobNext jobRewrite = true ∧ moverTake m.val jobRewrite (rwqDrop s) = some w ∧
      w.fld.paused.find? (fun v => v.job == jobRewrite) = none ∧ w.rewritePick = some f) ∧
    (∃ (m : Fin 4) (set : Nat) (l : List Nat) (s : State) (u : State), s.jobNext jobVerify = true ∧ moverTake m.val jobVerify s = some u ∧
      s.fld.verifyQ = set :: l ∧ u.mayGo classMover 0 (u.setRows set * (u.verifyMembers set).length * 16384) = true ∧ (∀ k ∈ u.verifyMembers set,
      u.unitHow (setPfa set k 2) false = .array)) ∧
    (∃ (m : Fin 4) (ld : Nat) (f : Nat) (s : State) (u : State), (s.mover m.val).job ≠ jobSeal ∧ s.jobNext jobSeal = true ∧ 64 ≤ min (s.get
      F.FLD_BUF_CFG_MOV_TOKENS) s.frameFree ∧ s.copyMay 64 = true ∧ moverTake m.val jobSeal s = some u ∧ (u.on F.XLAT_POOL_STATUS_CRIT = true ∨
      u.fld.sealQ = []) ∧ u.sealFromList = some (ld, f) ∧ (u.modXlat (fun x =>
      { x with splits := x.splits.filter (· != (ld, f)) ++ [(ld, f)] })).sealHow ld f = .skip) ∧
    (∃ (m : Fin 4) (leaves : List SlotLeaf) (ld : Nat) (f : Nat) (s : State) (u : State), (s.mover m.val).job ≠ jobSeal ∧ s.jobNext jobSeal = true ∧
      64 ≤ min (s.get F.FLD_BUF_CFG_MOV_TOKENS) s.frameFree ∧ s.copyMay 64 = true ∧ moverTake m.val jobSeal s = some u ∧ (u.on
      F.XLAT_POOL_STATUS_CRIT = true ∨ u.fld.sealQ = []) ∧ u.sealFromList = some (ld, f) ∧ (u.modXlat (fun x =>
      { x with splits := x.splits.filter (· != (ld, f)) ++ [(ld, f)] })).sealHow ld f = .go ∧ (∀ i < 64, frState ((u.modXlat (fun x =>
      { x with splits := x.splits.filter (· != (ld, f)) ++ [(ld, f)] })).frameOfFolio ((u.modXlat (fun x =>
      { x with splits := x.splits.filter (· != (ld, f)) ++ [(ld, f)] })).folio ld f) i) = 1 → (u.modXlat (fun x =>
      { x with splits := x.splits.filter (· != (ld, f)) ++ [(ld, f)] })).moverHow (frLoc ((u.modXlat (fun x =>
      { x with splits := x.splits.filter (· != (ld, f)) ++ [(ld, f)] })).frameOfFolio ((u.modXlat (fun x =>
      { x with splits := x.splits.filter (· != (ld, f)) ++ [(ld, f)] })).folio ld f) i)) ≠ .wait ∧ (u.modXlat (fun x =>
      { x with splits := x.splits.filter (· != (ld, f)) ++ [(ld, f)] })).moverHow (frLoc ((u.modXlat (fun x =>
      { x with splits := x.splits.filter (· != (ld, f)) ++ [(ld, f)] })).frameOfFolio ((u.modXlat (fun x =>
      { x with splits := x.splits.filter (· != (ld, f)) ++ [(ld, f)] })).folio ld f) i)) ≠ .gone ∧ (u.modXlat (fun x =>
      { x with splits := x.splits.filter (· != (ld, f)) ++ [(ld, f)] })).lostLeaf m.val leaves i = none)) ∧
    (∃ (m : Fin 4) (s : State), (s.mover m.val).job = jobSeal ∧ s.coldWaits jobSeal = false ∧ s.jobMode jobSeal = true) ∧
    (∃ (v : BitVec 32), v.toNat.testBit 1 = false ∧ v.toNat.testBit 0 = true) ∧
    (∃ (v : BitVec 32) (s : State), v.toNat.testBit 1 = true ∧ (∀ p ∈ s.fld.movers, p.2.job ≠ jobWear) ∧ (∀ p ∈ s.fld.paused, p.job ≠ jobWear)) ∧
    (∃ (v : BitVec 32) (s : State), v.toNat.testBit 1 = true ∧ ((∃ p ∈ s.fld.movers, p.2.job = jobWear) ∨ ∃ p ∈ s.fld.paused, p.job = jobWear)) ∧
    (∃ (v : BitVec 32) (s : State), (storeAt 0x80000 v.toNat s).on F.FLD_CTL_VERIFY_EN = true) ∧
    (∃ (s : State), (s.dur.build ≠ [] ∨ s.dur.rows ≠ [])) ∧
    (∃ (v : BitVec 32) (s : State), v.toNat.testBit 0 = true ∧ s.dur.writing.isSome = true) ∧
    (∃ (s : State), s.on F.DUR_CTL_CKPT_AUTO = true ∧ s.dur.drain = 0 ∧ (s.glb.mode = .active ∨ s.glb.mode = .quiet) ∧ s.dur.writing.isSome = true) ∧
    (∃ (c : Ckpt) (s : State), s.xlat.rebuilding = [] ∧ s.dur.writing = some c ∧ s.alm.wp = true ∧ (c.clean = true ∨ s.mayGo classMover 1
      (s.ckptBytes c) = true)) :=
  ⟨⟨0, wOn |> setF F.DRIFT_CTL_FORCE_EN 0 |> State.modGlb (fun x => { x with mode := .active }) |> State.modDur (fun x => { x with drain := 0 }) |>
      State.modDrift (fun x => { x with recs := [(0, ⟨true, 0, 0, 0, 0⟩)] }) |> setF F.DRIFT_MINUTES_MINUTES 1, by decide +kernel⟩,
    ⟨0, wOn |> setF F.DRIFT_CTL_FORCE_EN 0 |> State.modGlb (fun x => { x with mode := .active }) |> State.modDur (fun x => { x with drain := 0 }) |>
      State.modDrift (fun x => { x with recs := [(0, ⟨true, 0, 0, 0, 0⟩)] }) |> setF F.DRIFT_MINUTES_MINUTES 1 |> State.modDrift (fun x =>
      { x with meas := [wMeas] }), by decide +kernel⟩,
    ⟨0, false, wOn |> setF F.DRIFT_CTL_SCRUB_EN 1 |> State.modGlb (fun x => { x with mode := .active }) |> State.modDur (fun x => { x with drain := 0 })
      |> wSet (wVer 1), by decide +kernel⟩,
    ⟨0, false, wOn |> setF F.DRIFT_CTL_SCRUB_EN 1 |> State.modGlb (fun x => { x with mode := .active }) |> State.modDur (fun x => { x with drain := 0 })
      |> wSet (wVer 1) |> State.modDrift (fun x => { x with recs := [(0, ⟨true, 0, 0, 0, 0⟩)] }), by decide +kernel⟩,
    ⟨8, wOn |> setF F.DRIFT_CTL_FORCE_EN 0, by decide +kernel⟩,
    ⟨0, wOn, by decide +kernel⟩,
    ⟨0, wOn |> State.modFld (fun x => { x with movers := [((0 : Fin 4).val, { Mover.reset with job := jobGc })] }), by decide +kernel⟩,
    ⟨0, wOn |> State.modFld (fun x => { x with movers := [((0 : Fin 4).val, { Mover.reset with job := jobWear })] }), by decide +kernel⟩,
    ⟨0, wOn |> State.modFld (fun x => { x with movers := [((0 : Fin 4).val, { Mover.reset with job := jobRewrite })] }), by decide +kernel⟩,
    ⟨0, wOn |> State.modFld (fun x => { x with movers := [((0 : Fin 4).val, { Mover.reset with job := jobRelocate })] }), by decide +kernel⟩,
    ⟨0, wRewrite [{ Mover.reset with job := jobRewrite }], rwqDrop (wRewrite [{ Mover.reset with job := jobRewrite }]),
      { Mover.reset with job := jobRewrite }, by decide +kernel⟩,
    ⟨0, wRewrite [], rwqDrop (wRewrite []), 0, by decide +kernel⟩,
    ⟨0, 0, [], wOn |> State.modFld (fun f => { f with verifyQ := [0] }), wOn |> State.modFld (fun f => { f with verifyQ := [0] }), by decide +kernel⟩,
    ⟨0, 0, 0, wSealL 0, wSealL 0, by decide +kernel⟩,
    ⟨0, [], 0, 0, wSealL (2 ^ 63 + 1) |> State.modCiph (fun c => { c with kids := [(0, { Kid.reset with st := 3 })] }), wSealL (2 ^ 63 + 1) |>
      State.modCiph (fun c => { c with kids := [(0, { Kid.reset with st := 3 })] }), by decide +kernel⟩,
    ⟨0, wOn |> State.modFld (fun x => { x with movers := [((0 : Fin 4).val, { Mover.reset with job := jobSeal })] }), by decide +kernel⟩,
    ⟨0x1, by decide +kernel⟩,
    ⟨0x2, wOn, by decide +kernel⟩,
    ⟨0x2, wOn |> State.modFld (fun x => { x with movers := [(0, { Mover.reset with job := jobWear })] }), by decide +kernel⟩,
    ⟨4, wOn, by decide +kernel⟩,
    ⟨wOn |> State.modDur (fun x => { x with build := [⟨1, 1, 0, 0, 0, [], 0, 0⟩] }), by decide +kernel⟩,
    ⟨0x1, wOn |> State.modDur (fun x => { x with writing := some wCkpt }), by decide +kernel⟩,
    ⟨wOn |> setF F.DUR_CTL_CKPT_AUTO 1 |> State.modDur (fun x => { x with drain := 0 }) |> State.modGlb (fun x => { x with mode := .active }) |>
      State.modDur (fun x => { x with writing := some wCkpt }), by decide +kernel⟩,
    ⟨wCkpt, wOn |> State.modXlat (fun x => { x with rebuilding := [] }) |> State.modDur (fun x => { x with writing := some wCkpt }) |> State.modAlm (fun
      x => { x with wp := true }), by decide +kernel⟩⟩

/-- States and operands that meet the hypotheses of EveryMemoryKeyAndRingRowCompletes, clause by clause. -/
theorem witness_EveryMemoryKeyAndRingRowCompletes :
    (∃ (e : MergeEnt) (l : List MergeEnt) (out : WmOut) (ok : Bool) (t : State) (s : State), s.wm.merge = e :: l ∧ e.mask ≠ 2 ^ 64 - 1 ∧ wmDecode
      e.line out (s.modWm (fun w => { w with merge := w.merge.filter (fun x => x.line != e.line) })) = (ok, t)) ∧
    (∃ (s : State), s.on F.WMEM_SCRUB_CFG_EN = true ∧ (s.glb.mode = .active ∨ s.glb.mode = .quiet) ∧ (∃ e ∈ s.wm.merge, e.line = (s.get
      F.WMEM_SCRUB_POS_LINE))) ∧
    (∃ (out : WmOut) (ok : Bool) (t : State) (s : State), s.on F.WMEM_SCRUB_CFG_EN = true ∧ (s.glb.mode = .active ∨ s.glb.mode = .quiet) ∧ (∀ e ∈
      s.wm.merge, e.line ≠ (s.get F.WMEM_SCRUB_POS_LINE)) ∧ wmDecode (s.get F.WMEM_SCRUB_POS_LINE) out (cnt bWMEM 5 1 (cnt bWMEM 0 1 s)) = (ok, t)) ∧
    (∃ (pair : Fin 16384) (cid : BitVec 16) (c : RCmd) (op : Nat) (i : Instr) (s : State) (t : State) (st : _) (res : _), (op, i) ∈ [(1,
      Instr.keyIssue pair cid), (2, .keySetCurrent pair cid), (3, .keyClearCurrent pair cid), (4, .keyRetire pair cid), (5, .keyDestroy pair cid),
      (6, .keyQuery pair cid)] ∧ s.cmdOf pair.val cid.toNat 9 = some c ∧ s.heldBack c = false ∧ c.waiting = 0 ∧ c.opt % 16 = op ∧ s.ciph.ops = [] ∧
      keyStep (Says.keyOp c op) (keyPush (Says.keyOp c op) (modCmd c.id (fun x => { x with waiting := 1 }) (Says.started c s))) = (.done st res, t)
      ∧ (keyEnd (Says.keyOp c op) st res t).ciph.ops = []) ∧
    (∃ (pair : Fin 16384) (cid : BitVec 16) (c : RCmd) (op : Nat) (i : Instr) (s : State) (t : State) (o1 : _), (op, i) ∈ [(1, Instr.keyIssue pair
      cid), (2, .keySetCurrent pair cid), (3, .keyClearCurrent pair cid), (4, .keyRetire pair cid), (5, .keyDestroy pair cid), (6, .keyQuery pair
      cid)] ∧ s.cmdOf pair.val cid.toNat 9 = some c ∧ s.heldBack c = false ∧ c.waiting = 0 ∧ c.opt % 16 = op ∧ s.ciph.ops = [] ∧ keyStep (Says.keyOp
      c op) (keyPush (Says.keyOp c op) (modCmd c.id (fun x => { x with waiting := 1 }) (Says.started c s))) = (.wait, t) ∧ t.ciph.ops = [o1] ∧ o1 ≠
      (Says.keyOp c op) ∧ (keyStep o1 t).1 = .wait ∧ (keyStep o1 t).2.ciph.ops = [o1]) ∧
    (∃ (bar0 : Bool) (pair : Fin 16384) (v : Word) (s : State), (bar0 = true → s.bar0Ok pair.val = true) ∧ (v.toNat % 2 ^ 13) < s.sqSize pair.val) ∧
    (∃ (bar0 : Bool) (pair : Fin 16384) (v : Word) (s : State), (bar0 = true → s.bar0Ok pair.val = true) ∧ s.sqSize pair.val ≤ (v.toNat % 2 ^ 13)) ∧
    (∃ (bar0 : Bool) (pair : Fin 16384) (s : State), (bar0 = true → s.bar0Ok pair.val = true) ∧ (s.qSt pair.val = qActive ∨ s.qSt pair.val =
      qDraining)) ∧
    (∃ (bar0 : Bool) (pair : Fin 16384) (v : Word) (s : State), (bar0 = true → s.bar0Ok pair.val = true) ∧ s.qSt pair.val = qDisabled ∧ (storeAt
      (slotOff pair.val 0x10) v.toNat s).on (F.QP_CFG_EN pair.val) = true) ∧
    (∃ (bar0 : Bool) (pair : Fin 16384) (v : Word) (s : State), (bar0 = true → s.bar0Ok pair.val = true) ∧ v.toNat.testBit 31 = false ∧ s.qSt
      pair.val = qActive) ∧
    (∃ (bar0 : Bool) (pair : Fin 16384) (v : Word) (s : State), (bar0 = true → s.bar0Ok pair.val = true) ∧ v.toNat.testBit 31 = false ∧ s.qSt
      pair.val = qDraining) ∧
    (∃ (bar0 : Bool) (pair : Fin 16384) (v : Word) (s : State), (bar0 = true → s.bar0Ok pair.val = true) ∧ v.toNat.testBit 31 = false ∧ s.qSt
      pair.val ≠ qActive ∧ s.qSt pair.val ≠ qDraining ∧ s.qSt pair.val ≠ qDisabled) ∧
    (∃ (bar0 : Bool) (pair : Fin 16384) (s : State), (bar0 = true → s.bar0Ok pair.val = true)) ∧
    (∃ (n : Fin 17) (v : Word) (s : State), (v.toNat % 2 ^ 14) + (v.toNat / 2 ^ 32 % 2 ^ 15) ≤ 16384 ∧ (∀ k < 17, ¬ (k ≠ n.val ∧ 0 < (v.toNat / 2 ^
      32 % 2 ^ 15) ∧ 0 < s.get (F.RING_LD_ALLOC_COUNT k) ∧ (v.toNat % 2 ^ 14) < s.get (F.RING_LD_ALLOC_FIRST k) + s.get (F.RING_LD_ALLOC_COUNT k) ∧
      s.get (F.RING_LD_ALLOC_FIRST k) < (v.toNat % 2 ^ 14) + (v.toNat / 2 ^ 32 % 2 ^ 15))) ∧ (s.runIdle (v.toNat % 2 ^ 14) (min (v.toNat / 2 ^ 32 %
      2 ^ 15) 16384) = true ∧ s.runIdle (s.get (F.RING_LD_ALLOC_FIRST n.val)) (s.get (F.RING_LD_ALLOC_COUNT n.val)) = true)) ∧
    (∃ (n : Fin 17) (v : Word) (s : State), (16384 < (v.toNat % 2 ^ 14) + (v.toNat / 2 ^ 32 % 2 ^ 15) ∨ (∃ k < 17, (k ≠ n.val ∧ 0 < (v.toNat / 2 ^
      32 % 2 ^ 15) ∧ 0 < s.get (F.RING_LD_ALLOC_COUNT k) ∧ (v.toNat % 2 ^ 14) < s.get (F.RING_LD_ALLOC_FIRST k) + s.get (F.RING_LD_ALLOC_COUNT k) ∧
      s.get (F.RING_LD_ALLOC_FIRST k) < (v.toNat % 2 ^ 14) + (v.toNat / 2 ^ 32 % 2 ^ 15))) ∨ ¬ (s.runIdle (v.toNat % 2 ^ 14) (min (v.toNat / 2 ^ 32
      % 2 ^ 15) 16384) = true ∧ s.runIdle (s.get (F.RING_LD_ALLOC_FIRST n.val)) (s.get (F.RING_LD_ALLOC_COUNT n.val)) = true))) ∧
    (∃ (c : RCmd) (s : State) (e : _), c.atUnit = true ∧ stopAtUnit c s = some e) ∧
    (∃ (f : LineStep) (c : RCmd) (s : State) (t : State) (e : _), (c.atUnit = false ∨ stopAtUnit c s = none) ∧ c.pos < c.len ∧ unitRun f 256 c s =
      (.inr e, t)) ∧
    (∃ (f : LineStep) (c : RCmd) (c1 : RCmd) (s : State) (t : State), (c.atUnit = false ∨ stopAtUnit c s = none) ∧ c.pos < c.len ∧ unitRun f 256 c s
      = (.inl c1, t) ∧ c1.pos < c1.len) ∧
    (∃ (f : LineStep) (fin : RCmd → State → Option (Nat × Nat) × State) (c : RCmd) (c1 : RCmd) (s : State) (t : State) (e : _) (v : _), (c.atUnit =
      false ∨ stopAtUnit c s = none) ∧ c.pos < c.len ∧ unitRun f 256 c s = (.inl c1, t) ∧ c1.len ≤ c1.pos ∧ fin c1 (modCmd c.id (fun _ => c1) t) =
      (some e, v)) ∧
    (∃ (c : RCmd) (s : State) (t : State) (u : State), s.lineMay (ownerClass (s.cmdLd c)) 0 64 = true ∧ s.mustWait (ringReq (s.cmdLd c) (c.a0 +
      c.pos) true 0 false) = false ∧ ringEnter c (c.a0 + c.pos) true s = (true, t) ∧ ringWrite (s.cmdLd c) (c.a0 + c.pos) c.pattern false t =
      (.taken, u)) ∧
    (∃ (c : RCmd) (leaves : List RingLeaf) (a : Line) (p : Bool × Bool) (s : State) (t : State) (u : State) (x : State), s.lineMay (ownerClass
      (s.cmdLd c)) 64 0 = true ∧ s.mustWait (ringReq (s.cmdLd c) (c.a0 + c.pos) false 0 false) = false ∧ s.backed (s.cmdLd c) (c.a0 + c.pos) = true
      ∧ ringEnter c (c.a0 + c.pos) false s = (true, t) ∧ ringReady (s.cmdLd c) (c.a0 + c.pos) (firstOfLeaf c (c.a0 + c.pos)) t = (true, u) ∧
      ringRead (s.cmdLd c) (c.a0 + c.pos) leaves (firstOfLeaf c (c.a0 + c.pos)) u = ((a, p), x)) ∧
    (∃ (c : RCmd) (leaves : List RingLeaf) (b : Line) (q : Bool × Bool) (s : State) (t : State) (u : State) (x : State) (y : State) (z : State),
      s.lineMay (ownerClass (s.cmdLd c)) 64 64 = true ∧ s.mustWait (ringReq (s.cmdLd c) (c.a0 + c.pos) false 0 false) = false ∧ s.mustWait (ringReq
      (s.cmdLd c) (c.a1 + c.pos) true 0 false) = false ∧ s.backed (s.cmdLd c) (c.a0 + c.pos) = true ∧ ringEnter c (c.a0 + c.pos) false s = (true, t)
      ∧ ringEnter c (c.a1 + c.pos) true t = (true, u) ∧ ((writeRefused (ringReq (s.cmdLd c) (c.a1 + c.pos) true 0 false) u).isNone = true →
      u.canAccept (s.cmdLd c) (c.a1 + c.pos) = true) ∧ ringReady (s.cmdLd c) (c.a0 + c.pos) (firstOfLeaf c (c.a0 + c.pos)) u = (true, x) ∧ ringRead
      (s.cmdLd c) (c.a0 + c.pos) leaves (firstOfLeaf c (c.a0 + c.pos)) x = ((b, q), y) ∧ ringWrite (s.cmdLd c) (c.a1 + c.pos) b q.1 y = (.taken, z)) ∧
    (∃ (c : RCmd) (s : State), stopAtUnit c s = none ∧ c.pos ≠ 0 ∧ c.waiting = 0) ∧
    (∃ (c : RCmd) (s : State), stopAtUnit c s = none ∧ c.waiting = 0 ∧ s.backed (s.cmdLd c) ((c.a0 / 2 ^ 20 + c.pos / 2 ^ 20) * 2 ^ 20) = true) ∧
    (∃ (c : RCmd) (s : State), stopAtUnit c s = none ∧ c.pos < c.len ∧ s.backed (s.cmdLd c) (c.a0 + c.pos) = true) ∧
    (∃ (c : RCmd) (s : State), stopAtUnit c s = none ∧ c.len ≤ c.pos ∧ (∀ x ∈ c.fed, ∀ m ∈ s.drift.meas, m.set ≠ x.toNat)) ∧
    (∃ (c : RCmd) (n : Nat) (body : List Nat) (s : State), s.telemetry (s.cmdLd c) c.opt = (n, body) ∧ c.marked = false ∧ 64 + body.length ≤ c.len) ∧
    (∃ (c : RCmd) (t : RCmd) (s : State), s.ring.cmds.find? (fun x => x.pair == (s.get (F.RING_LD_ALLOC_FIRST (s.cmdLd c)) + c.a0) && x.cid == leNum
      (c.param.take 2) && s.pairOwner (s.get (F.RING_LD_ALLOC_FIRST (s.cmdLd c)) + c.a0) == some (s.cmdLd c)) = some t ∧ t.final = none ∧ t.marked =
      false ∧ t.op ≠ 5 ∧ t.op ≠ 6 ∧ t.op ≠ 7 ∧ t.op ≠ 9 ∧ t.op ≠ 11) ∧
    (∃ (c : RCmd) (s : State), (s.ring.cmds.filter (·.engine)).length < 32 ∧ s.ring.cmds.find? (fun c => c.op == 4 && c.final.isNone && !c.engine) =
      some c) ∧
    (∃ (pair : Fin 16384) (cid : BitVec 16) (c : RCmd) (st : Nat) (res : Nat) (s : State), s.ring.cmds.find? (fun c => c.pair == pair.val && c.cid
      == cid.toNat && c.final.isSome && !(c.op == 11 && s.ring.cmds.any (fun x => x.id + 1 == c.cntA))) = some c ∧ c.final = some (st, res)) ∧
    (∃ (pair : Fin 16384) (s : State), (s.qSt pair.val = qActive ∨ s.qSt pair.val = qDraining)) ∧
    (∃ (pair : Fin 16384) (s : State), s.qSt pair.val ≠ qActive ∧ s.qSt pair.val ≠ qDraining) :=
  ⟨⟨(⟨0, 0, []⟩ : MergeEnt), [], WmOut.clean, true, _, wOn |> State.modWm (fun x =>
      { x with merge := ((⟨0, 0, []⟩ : MergeEnt) : MergeEnt) :: ([] : List MergeEnt) }), rfl, by decide, rfl⟩,
    ⟨wOn |> setF F.WMEM_SCRUB_CFG_EN 1 |> State.modGlb (fun x => { x with mode := .active }) |> State.modWm (fun x => { x with merge := [⟨0, 0, []⟩] }),
      by decide +kernel⟩,
    ⟨WmOut.clean, true, _, wOn |> setF F.WMEM_SCRUB_CFG_EN 1 |> State.modGlb (fun x => { x with mode := .active }), rfl, by decide, by decide, rfl⟩,
    ⟨0, 0, { wCmd with opt := 6 }, 6, .keyQuery 0 0, wOn |> State.modCiph (fun x => { x with ops := [] }) |> State.modRing (fun x =>
      { x with cmds := [{ wCmd with opt := 6 }] }), _, _, _, by decide, by decide, by decide, by decide, by decide, rfl, rfl, by decide +kernel⟩,
    ⟨0, 0, wClear, 3, .keyClearCurrent 0 0, wClearOn, wCleared.2, (wCleared.2.ciph.ops.headD wKeyOp), by decide, by decide, by decide, by decide,
      by decide, rfl, Prod.ext (by decide +kernel) rfl, by decide +kernel, by decide +kernel, by decide +kernel, by decide +kernel⟩,
    ⟨false, 0, 0, wOn, by decide +kernel⟩,
    ⟨false, 0, 2 ^ 13 - 1, wOn, by decide +kernel⟩,
    ⟨false, 0, wOn |> setF (F.QP_STATUS_STATE 0) qActive, by decide +kernel⟩,
    ⟨false, 0, 0x80000000, wOn, by decide +kernel⟩,
    ⟨false, 0, 0, wOn |> setF (F.QP_STATUS_STATE 0) qActive, by decide +kernel⟩,
    ⟨false, 0, 0, wOn |> setF (F.QP_STATUS_STATE 0) qDraining, by decide +kernel⟩,
    ⟨false, 0, 0, wOn |> setF (F.QP_STATUS_STATE 0) qStopped, by decide +kernel⟩,
    ⟨false, 0, wOn, by decide +kernel⟩,
    ⟨0, 0, wOn, by decide +kernel⟩,
    ⟨0, 2 ^ 14 - 1 + 2 * 2 ^ 32, wOn, by decide +kernel⟩,
    ⟨{ wCmd with marked := true }, wOn, (3, 0), by decide +kernel⟩,
    ⟨(fun _ s => (some (.inr (1, 2)), s)), { wCmd with len := 64 }, wOn, wOn, (1, 2), by decide +kernel⟩,
    ⟨(fun _ s => (none, s)), { wCmd with len := 64 }, { wCmd with len := 64 }, wOn, wOn, by decide +kernel⟩,
    ⟨(fun c s => (some (.inl c), s)), (fun _ s => (some (1, 2), s)), { wCmd with len := 64 }, RCmd.advance { wCmd with len := 64 }, wOn, wOn, (1, 2),
      modCmd 0 (fun _ => RCmd.advance { wCmd with len := 64 }) wOn, by decide +kernel⟩,
    ⟨wCmd, wRing, (ringEnter wCmd 0 true wRing).2, (ringWrite 0 0 wCmd.pattern false (ringEnter wCmd 0 true wRing).2).2, by decide +kernel⟩,
    ⟨wCmd, [], (ringRead 0 0 [] (firstOfLeaf wCmd 0) (ringReady 0 0 (firstOfLeaf wCmd 0) (ringEnter wCmd 0 false wRing).2).2).1.1, (ringRead 0 0 []
      (firstOfLeaf wCmd 0) (ringReady 0 0 (firstOfLeaf wCmd 0) (ringEnter wCmd 0 false wRing).2).2).1.2, wRing, (ringEnter wCmd 0 false wRing).2,
      (ringReady 0 0 (firstOfLeaf wCmd 0) (ringEnter wCmd 0 false wRing).2).2, (ringRead 0 0 [] (firstOfLeaf wCmd 0) (ringReady 0 0 (firstOfLeaf
      wCmd 0) (ringEnter wCmd 0 false wRing).2).2).2, by decide +kernel⟩,
    ⟨wCmd, [], (ringRead 0 0 [] (firstOfLeaf wCmd 0) (ringReady 0 0 (firstOfLeaf wCmd 0) (ringEnter wCmd 0 true (ringEnter wCmd 0 false
      wRing).2).2).2).1.1, (ringRead 0 0 [] (firstOfLeaf wCmd 0) (ringReady 0 0 (firstOfLeaf wCmd 0) (ringEnter wCmd 0 true (ringEnter wCmd 0 false
      wRing).2).2).2).1.2, wRing, (ringEnter wCmd 0 false wRing).2, (ringEnter wCmd 0 true (ringEnter wCmd 0 false wRing).2).2, (ringReady 0 0
      (firstOfLeaf wCmd 0) (ringEnter wCmd 0 true (ringEnter wCmd 0 false wRing).2).2).2, (ringRead 0 0 [] (firstOfLeaf wCmd 0) (ringReady 0 0
      (firstOfLeaf wCmd 0) (ringEnter wCmd 0 true (ringEnter wCmd 0 false wRing).2).2).2).2, (ringWrite 0 0 (ringRead 0 0 [] (firstOfLeaf wCmd 0)
      (ringReady 0 0 (firstOfLeaf wCmd 0) (ringEnter wCmd 0 true (ringEnter wCmd 0 false wRing).2).2).2).1.1 (ringRead 0 0 [] (firstOfLeaf wCmd 0)
      (ringReady 0 0 (firstOfLeaf wCmd 0) (ringEnter wCmd 0 true (ringEnter wCmd 0 false wRing).2).2).2).1.2.1 (ringRead 0 0 [] (firstOfLeaf wCmd 0)
      (ringReady 0 0 (firstOfLeaf wCmd 0) (ringEnter wCmd 0 true (ringEnter wCmd 0 false wRing).2).2).2).2).2, by decide +kernel⟩,
    ⟨{ wCmd with pos := 1 }, wOn, by decide +kernel⟩,
    ⟨wCmd, wOn |> setF (F.RING_LD_ALLOC_COUNT 0) 1, by decide +kernel⟩,
    ⟨{ wCmd with len := 64 }, wOn |> setF (F.RING_LD_ALLOC_COUNT 0) 1, by decide +kernel⟩,
    ⟨wCmd, wOn, by decide +kernel, by decide, by intro x hx; cases hx⟩,
    ⟨{ wCmd with opt := 5, len := 4096 }, 1, (wOn.telemetry (wOn.cmdLd wCmd) 5).2, wOn, by decide +kernel⟩,
    ⟨{ wCmd with op := 10 }, { wCmd with op := 1 }, wOn |> setF (F.RING_LD_ALLOC_COUNT 0) 1 |> State.modRing (fun x =>
      { x with cmds := [{ wCmd with op := 1 }] }), by decide +kernel⟩,
    ⟨{ wCmd with op := 4 }, wOn |> State.modRing (fun x => { x with cmds := [{ wCmd with op := 4 }] }), by decide +kernel⟩,
    ⟨0, 0, { wCmd with final := some (0, 0) }, 0, 0, wOn |> State.modRing (fun x => { x with cmds := [{ wCmd with final := some (0, 0) }] }),
      by decide +kernel⟩,
    ⟨0, wOn |> setF (F.QP_STATUS_STATE 0) qActive, by decide +kernel⟩,
    ⟨0, wOn, by decide +kernel⟩⟩

/-- States and operands that meet the hypotheses of EveryRailSensorClockAndRecordRowCompletes, clause by clause. -/
theorem witness_EveryRailSensorClockAndRecordRowCompletes :
    (∃ (v : Word) (s : State), v.toNat.testBit 63 = true ∧ (s.lcs.state = lcManufacture ∨ s.lcs.state = lcDevelop) ∧ (s.ledgSides (v.toNat / 2 ^ 48
      % 8) (v.toNat / 2 ^ 32 % 65536)).isSome = true) ∧
    (∃ (v : Word) (s : State), (v.toNat.testBit 63 = false ∨ (s.lcs.state ≠ lcManufacture ∧ s.lcs.state ≠ lcDevelop) ∨ s.ledgSides (v.toNat / 2 ^ 48
      % 8) (v.toNat / 2 ^ 32 % 65536) = none)) ∧
    (∃ (m : Master), m.isAssist = true) ∧
    (∃ (m : Master), m.isAssist = false) ∧
    (∃ (rail : Fin 40) (mv : BitVec 16) (s : State), (s.rail rail.val).en = false ∧ (s.rail rail.val).disch = false ∧ mv.toNat * 10 < s.get
      (F.DOME_RAIL_CFG_NOM_MV rail.val)) ∧
    (∃ (n : Nat) (s : State), (s.rail n).phase ≠ .running) ∧
    (∃ (n : Nat) (mv : Nat) (s : State), (s.rail n).phase = .running ∧ (s.railOver n mv || s.railUnder n mv) = false) ∧
    (∃ (n : Nat) (mv : Nat) (s : State), (s.rail n).phase = .running ∧ (s.railOver n mv || s.railUnder n mv) = true ∧ (s.rail n).bad = 0) ∧
    (∃ (n : Nat) (mv : Nat) (s : State), (s.rail n).phase = .running ∧ (s.railOver n mv || s.railUnder n mv) = true ∧ (s.rail n).bad ≠ 0) ∧
    (∃ (l : List Nat) (s : State), ((l.foldl max 0) ≤ 105 ∨ s.dome.hot105 = true) ∧ ((l.foldl max 0) < 110 ∨ s.dome.hot110 = 0 ∨ s.glb.mode = .off)) ∧
    (∃ (l : List Nat) (s : State), 105 < (l.foldl max 0) ∧ ((l.foldl max 0) < 110 ∨ s.dome.hot110 = 0) ∧ s.dome.hot105 = false) ∧
    (∃ (l : List Nat) (s : State), 110 ≤ (l.foldl max 0) ∧ s.dome.hot110 ≠ 0 ∧ s.dome.hot105 = true ∧ s.glb.mode ≠ .off) ∧
    (∃ (s : State), s.get F.DOME_HU_CFG_CAP_MF ≠ 0 ∧ (tgetD 1 s.dome.adc 9 - 1) < s.get F.DOME_HU_CFG_VMIN_MV) ∧
    (∃ (s : State), s.get F.DOME_HU_CFG_CAP_MF = 0) ∧
    (∃ (s : State), s.on F.DOME_HU_CFG_CAP_MF = true ∧ ((s.dome.huOk = true ∧ (s.get F.DOME_HU_STATUS_EST_CJ) < (s.get F.DOME_HU_CFG_EREQ_CJ)) ∨
      (s.dome.huOk = false ∧ (s.get F.DOME_HU_CFG_EREQ_CJ) ≤ (s.get F.DOME_HU_STATUS_EST_CJ)))) ∧
    (∃ (s : State), s.on F.DOME_HU_CFG_CAP_MF = true ∧ ((s.dome.huOk = true ∧ (s.get F.DOME_HU_CFG_EREQ_CJ) ≤ (s.get F.DOME_HU_STATUS_EST_CJ)) ∨
      (s.dome.huOk = false ∧ (s.get F.DOME_HU_STATUS_EST_CJ) < (s.get F.DOME_HU_CFG_EREQ_CJ)))) ∧
    (∃ (f : Nat) (pulses : Nat) (s : State), ((pulses * 60 / (s.get (F.DOME_FAN_CTL_PPR f) + 1)) < s.get (F.DOME_FAN_CTL_MIN_RPM f) * 100 ∧ 51 ≤
      s.duty f)) ∧
    (∃ (f : Nat) (pulses : Nat) (s : State), ¬ ((pulses * 60 / (s.get (F.DOME_FAN_CTL_PPR f) + 1)) < s.get (F.DOME_FAN_CTL_MIN_RPM f) * 100 ∧ 51 ≤
      s.duty f)) ∧
    (∃ (f : Nat) (pulses : Nat) (s : State), ((pulses * 60 / (s.get (F.DOME_FAN_CTL_PPR f) + 1)) < s.get (F.DOME_FAN_CTL_MIN_RPM f) * 100 ∧ 51 ≤
      s.duty f) ∧ (s.fan f).stall = false) ∧
    (∃ (s : State) (r : LogRec), s.log.win = some r ∧ (s.on F.LOG_CURSOR_AUTO = false ∨ r.seq ≠ s.get F.LOG_CURSOR_SEQ)) ∧
    (∃ (s : State), s.log.win = none) ∧
    (∃ (s : State), s.get F.SPEC_SNAP_CFG_PERIOD_MS ≠ 0 ∧ (s.glb.mode = .active ∨ s.glb.mode = .quiet ∨ s.glb.mode = .parked) ∧ s.spec.busy = false) ∧
    (∃ (s : State), (s.get F.SPEC_SNAP_CFG_PERIOD_MS = 0 ∨ s.spec.busy = true)) ∧
    (∃ (s : State), s.spec.busy = true) ∧
    (∃ (s : State), s.spec.busy = false) ∧
    (∃ (s : State), s.on F.CLK_CTL_REC_EN = true ∧ (s.port 0).up = true ∧ (s.port 0).l1 = false) ∧
    (∃ (s : State), (s.on F.CLK_CTL_REC_EN = false ∨ (s.port 0).up = false ∨ (s.port 0).l1 = true)) ∧
    (∃ (s : State), s.get F.CLK_DPLL_STATUS_STATE ≠ dpllRec) ∧
    (∃ (j : AlmJob) (s : State), s.alm.run = some j ∧ j.src ≠ .tail) ∧
    (∃ (j : AlmJob) (s : State), s.alm.run = some j ∧ j.src = .tail) ∧
    (∃ (s : State), s.alm.run = none) :=
  ⟨⟨0x8000000000000000, wOn |> State.modLcs (fun x => { x with slots := [2 ^ lcManufacture] }), by decide +kernel⟩,
    ⟨0, wOn, by decide +kernel⟩,
    ⟨.assistB, by decide +kernel⟩,
    ⟨.host, by decide +kernel⟩,
    ⟨0, 0, wOn |> State.modDome (fun x => { x with rails := [((0 : Fin 40).val, { Rail.reset with en := false, disch := false })] }), by decide +kernel⟩,
    ⟨0, wOn, by decide +kernel⟩,
    ⟨0, 1000, wOn |> State.modDome (fun x => { x with rails := [((0 : Nat), { Rail.reset with phase := .running })] }) |> setF (F.DOME_RAIL_CFG_NOM_MV
      0) 1000, by decide +kernel⟩,
    ⟨0, 2000, wOn |> State.modDome (fun x => { x with rails := [((0 : Nat), { Rail.reset with phase := .running, bad := 0 })] }) |> setF
      (F.DOME_RAIL_CFG_NOM_MV 0) 1000, by decide +kernel⟩,
    ⟨0, 2000, wOn |> State.modDome (fun x => { x with rails := [((0 : Nat), { Rail.reset with phase := .running })] }) |> setF (F.DOME_RAIL_CFG_NOM_MV
      0) 1000 |> State.modDome (fun x => { x with rails := [(0, { Rail.reset with phase := .running, bad := 1 })] }), by decide +kernel⟩,
    ⟨[105, 3], wOn, by decide +kernel⟩,
    ⟨[3, 109], wOn |> State.modDome (fun x => { x with hot105 := false }), by decide +kernel⟩,
    ⟨[110], wOn |> State.modDome (fun x => { x with hot105 := true }) |> State.modDome (fun x => { x with hot110 := 1 }), by decide +kernel⟩,
    ⟨wOn |> setF F.DOME_HU_CFG_CAP_MF 1 |> setF F.DOME_HU_CFG_VMIN_MV 1, by decide +kernel⟩,
    ⟨wOn |> setF F.DOME_HU_CFG_CAP_MF 0, by decide +kernel⟩,
    ⟨wOn |> setF F.DOME_HU_CFG_CAP_MF 1 |> setF F.DOME_HU_CFG_EREQ_CJ 1 |> State.modDome (fun x => { x with huOk := true }), by decide +kernel⟩,
    ⟨wOn |> setF F.DOME_HU_CFG_CAP_MF 1, by decide +kernel⟩,
    ⟨0, 0, wOn |> setF (F.DOME_FAN_CTL_MIN_RPM 0) 10 |> setF (F.DOME_FAN_CTL_DUTY 0) 100, by decide +kernel⟩,
    ⟨0, 1000000, wOn, by decide +kernel⟩,
    ⟨0, 0, wOn |> setF (F.DOME_FAN_CTL_MIN_RPM 0) 10 |> setF (F.DOME_FAN_CTL_DUTY 0) 100, by decide +kernel⟩,
    ⟨wOn |> State.modLog (fun x => { x with win := some ((⟨0, 0, 0, 0, 0, 0, 0, 0, 0⟩ : LogRec) : LogRec) }), (⟨0, 0, 0, 0, 0, 0, 0, 0, 0⟩ : LogRec),
      by decide +kernel⟩,
    ⟨wOn |> State.modLog (fun x => { x with win := none }), by decide +kernel⟩,
    ⟨wOn |> State.modGlb (fun x => { x with mode := .active }) |> State.modSpec (fun x => { x with busy := false }), by decide +kernel⟩,
    ⟨wOn |> setF F.SPEC_SNAP_CFG_PERIOD_MS 0, by decide +kernel⟩,
    ⟨wOn |> State.modSpec (fun x => { x with busy := true }), by decide +kernel⟩,
    ⟨wOn |> State.modSpec (fun x => { x with busy := false }), by decide +kernel⟩,
    ⟨wOn |> setF F.CLK_CTL_REC_EN 1 |> modPort 0 (fun p => { p with up := true }) |> modPort 0 (fun p => { p with l1 := false }), by decide +kernel⟩,
    ⟨wOn |> setF F.CLK_CTL_REC_EN 0, by decide +kernel⟩,
    ⟨wOn, by decide +kernel⟩,
    ⟨(⟨.host, true, 0x38000, 4, [1, 2, 3, 4], 0⟩ : AlmJob), wOn |> State.modAlm (fun x =>
      { x with run := some ((⟨.host, true, 0x38000, 4, [1, 2, 3, 4], 0⟩ : AlmJob) : AlmJob) }), by decide +kernel⟩,
    ⟨{ src := .tail, wr := true, addr := 0, len := 4, data := [1, 2, 3, 4], started := 0 }, wOn |> State.modAlm (fun x =>
      { x with run := some (({ src := .tail, wr := true, addr := 0, len := 4, data := [1, 2, 3, 4], started := 0 }) : AlmJob) }), by decide +kernel⟩,
    ⟨wOn |> State.modAlm (fun x => { x with run := none }), by decide +kernel⟩⟩

/-- States and operands that meet the hypotheses of EveryShelfBusAndPlateRowCompletes, clause by clause. -/
theorem witness_EveryShelfBusAndPlateRowCompletes :
    (∃ (bytes : List Byte) (fcs : Bool) (s : State), (fcs = false ∨ s.asstStalled = true ∨ (frameIn (bytes.map (·.toNat)) fcs false
      s).sbus.rx.length ≤ s.sbus.rx.length)) ∧
    (∃ (bytes : List Byte) (fcs : Bool) (ofs : Int) (s : State), fcs = true ∧ s.asstStalled = false ∧ s.sbus.rx.length < (frameIn (bytes.map
      (·.toNat)) fcs false s).sbus.rx.length ∧ ofs.natAbs ≤ 1000000) ∧
    (∃ (s : State), s.busServed = true ∧ s.asstStalled = false ∧ s.sbus.txFree = []) ∧
    (∃ (s : State), s.busServed = true ∧ s.asstStalled = false ∧ s.sbus.txFree ≠ []) ∧
    (∃ (s : State), (s.busServed = false ∨ s.asstStalled = true)) ∧
    (∃ (f : TxFrame) (s : State), s.sbus.tx.find? (·.ready) = some f ∧ s.sbus.csma = false ∧ s.on F.SBUS_CTL_EN = true ∧ s.start.aonDown = false ∧
      f.tries + 1 < 16) ∧
    (∃ (f : TxFrame) (s : State), s.sbus.tx.find? (·.ready) = some f ∧ s.sbus.csma = false ∧ s.on F.SBUS_CTL_EN = true ∧ s.start.aonDown = false ∧
      16 ≤ f.tries + 1) ∧
    (∃ (f : TxFrame) (s : State), s.sbus.tx.find? (·.ready) = some f ∧ (s.sbus.csma = true ∨ s.on F.SBUS_CTL_EN = false ∨ s.start.aonDown = true)) ∧
    (∃ (f : TxFrame) (s : State), s.sbus.tx.find? (·.ready) = some f ∧ s.on F.SBUS_CTL_EN = true ∧ s.start.aonDown = false) ∧
    (∃ (f : TxFrame) (s : State), s.sbus.tx.find? (·.ready) = some f ∧ (s.on F.SBUS_CTL_EN = false ∨ s.start.aonDown = true)) ∧
    (∃ (s : State), s.sbus.tx.find? (·.ready) = none) ∧
    (∃ (e : Nat × Nat) (s : State), s.sbus.quar.find? (fun x => x.2 == e.2) = some e ∧ (∀ x ∈ s.sbus.quar, e.2 ≤ x.2) ∧ e.2 ≤ s.now) ∧
    (∃ (s : State), (∀ x ∈ s.sbus.quar, s.now < x.2)) ∧
    (∃ (m : Master) (r : RxFrame) (s : State), s.runsBus m = true ∧ s.sbus.rx.find? (fun r => !r.own) = some r ∧ r.pos + 6 < r.bytes.length) ∧
    (∃ (m : Master) (r : RxFrame) (s : State), s.runsBus m = true ∧ s.sbus.rx.find? (fun r => !r.own) = some r ∧ r.bytes.length ≤ r.pos + 6) ∧
    (∃ (m : Master) (r : RxFrame) (s : State), s.runsBus m = true ∧ s.sbus.rx.find? (fun r => !r.own) = some r) ∧
    (∃ (m : Master) (s : State), (s.runsBus m = false ∨ s.sbus.rx.find? (fun r => !r.own) = none)) ∧
    (∃ (m : Master) (s : State), s.runsBus m = false) ∧
    (∃ (m : Master) (w : Word) (s : State) (f : TxFrame), s.runsBus m = true ∧ w.toNat.testBit 62 = false ∧ s.sbus.tx.find? (fun f => !f.ready) =
      some f ∧ w.toNat.testBit 61 = false) ∧
    (∃ (m : Master) (w : Word) (s : State) (f : TxFrame), s.runsBus m = true ∧ w.toNat.testBit 62 = false ∧ s.sbus.tx.find? (fun f => !f.ready) =
      some f ∧ w.toNat.testBit 61 = true) ∧
    (∃ (m : Master) (w : Word) (s : State) (f : TxFrame), s.runsBus m = true ∧ w.toNat.testBit 62 = false ∧ s.sbus.tx.find? (fun f => !f.ready) =
      some f) ∧
    (∃ (m : Master) (w : Word) (s : State), s.runsBus m = true ∧ w.toNat.testBit 62 = false ∧ s.sbus.tx.find? (fun f => !f.ready) = none ∧
      s.sbus.txFree ≠ []) ∧
    (∃ (m : Master) (w : Word) (s : State), s.runsBus m = true ∧ w.toNat.testBit 62 = false ∧ s.sbus.tx.find? (fun f => !f.ready) = none ∧
      s.sbus.txFree = []) ∧
    (∃ (m : Master) (w : Word) (s : State), s.runsBus m = true ∧ w.toNat.testBit 62 = false ∧ s.sbus.tx.find? (fun f => !f.ready) = none) ∧
    (∃ (m : Master) (w : Word) (s : State), s.runsBus m = true ∧ w.toNat.testBit 62 = true ∧ { s.sbus with tx := s.sbus.tx.filter (·.ready) }.txFree
      ≠ []) ∧
    (∃ (m : Master) (w : Word) (s : State), s.runsBus m = true ∧ w.toNat.testBit 62 = true ∧ { s.sbus with tx := s.sbus.tx.filter (·.ready) }.txFree
      = []) ∧
    (∃ (s : State), (s.lcs.state = lcProvision ∨ s.lcs.state = lcService) ∧ s.alm.wp = false) ∧
    (∃ (s : State), (s.lcs.state = lcProvision ∨ s.lcs.state = lcService) ∧ s.alm.wp = true) ∧
    (∃ (s : State), s.lcs.state ≠ lcProvision ∧ s.lcs.state ≠ lcService) ∧
    (∃ (v : BitVec 32) (s : State), (v.toNat.testBit 31 = false ∨ s.assistRuns = false)) ∧
    (∃ (v : BitVec 32) (s : State), v.toNat.testBit 31 = true ∧ s.assistRuns = true ∧ s.asstStalled = true) ∧
    (∃ (p : Nat) (s : State), s.mgmt p = pOffline) ∧
    (∃ (p : Nat) (s : State), s.mgmt p = pFailed) ∧
    (∃ (p : Nat) (s : State), s.mgmt p = pDraining) ∧
    (∃ (p : Nat) (s : State), s.mgmt p = pPowering) ∧
    (∃ (plate : Fin 16) (s : State), s.dome.prsnt.testBit plate.val = false ∧ s.assistRuns = true) ∧
    (∃ (plate : Fin 16) (s : State), s.dome.prsnt.testBit plate.val = false ∧ s.assistRuns = false) ∧
    (∃ (plate : Fin 16) (s : State), s.dome.prsnt.testBit plate.val = true) ∧
    (∃ (plate : Fin 16) (s : State), s.dome.prsnt.testBit (plate.val) = false) ∧
    (∃ (plate : Fin 16) (s : State), s.mgmt (plate.val) = pDraining) ∧
    (∃ (plate : Fin 16) (s : State), s.mgmt (plate.val) ≠ pDraining) ∧
    (∃ (plate : Fin 16) (temp : BitVec 8) (s : State), ((setF (F.SBUS_PLT_STATE_TEMP (plate.val)) temp.toNat s).mgmt (plate.val) ≠ pOnline ∨
      temp.toNat < (setF (F.SBUS_PLT_STATE_TEMP (plate.val)) temp.toNat s).get F.SBUS_PLT_CFG_HOT_C)) ∧
    (∃ (plate : Fin 16) (s : State), (s.disagrees (plate.val) = false ∨ s.sbus.flagged.contains (plate.val) = true)) :=
  ⟨⟨[], false, wOn, by decide +kernel⟩,
    ⟨(beBytes 6 macPtp ++ beBytes 6 1 ++ etherPtp ++ List.replicate 46 0).map (BitVec.ofNat 8), true, -1000000, wOn, by decide +kernel⟩,
    ⟨wOn |> State.modSbus (fun x => { x with tx := [(⟨0, [], true, false, 0⟩ : TxFrame), (⟨1, [], true, false, 0⟩ : TxFrame)] }), by decide +kernel⟩,
    ⟨wOn, by decide +kernel⟩,
    ⟨wOn |> State.modGlb (fun g => { g with mode := .standby }), by decide +kernel⟩,
    ⟨(⟨0, [], true, false, 0⟩ : TxFrame), wOn |> setF F.SBUS_CTL_EN 1 |> State.modSbus (fun x => { x with csma := false }) |> State.modStart (fun x =>
      { x with aonDown := false }) |> State.modSbus (fun x =>
      { x with tx := [(⟨1, [], false, false, 0⟩ : TxFrame), (⟨0, [], true, false, 0⟩ : TxFrame)] }), by decide +kernel⟩,
    ⟨(⟨0, [], true, false, 15⟩ : TxFrame), wOn |> setF F.SBUS_CTL_EN 1 |> State.modSbus (fun x => { x with csma := false }) |> State.modStart (fun x =>
      { x with aonDown := false }) |> State.modSbus (fun x => { x with tx := [(⟨0, [], true, false, 15⟩ : TxFrame)] }), by decide +kernel⟩,
    ⟨(⟨0, [], true, false, 0⟩ : TxFrame), wOn |> State.modSbus (fun x => { x with tx := [(⟨0, [], true, false, 0⟩ : TxFrame)] }) |> State.modSbus (fun x
      => { x with csma := true }), by decide +kernel⟩,
    ⟨(⟨0, [], true, false, 0⟩ : TxFrame), wOn |> setF F.SBUS_CTL_EN 1 |> State.modStart (fun x => { x with aonDown := false }) |> State.modSbus (fun x
      => { x with tx := [(⟨0, [], true, false, 0⟩ : TxFrame)] }), by decide +kernel⟩,
    ⟨(⟨0, [], true, false, 0⟩ : TxFrame), wOn |> State.modSbus (fun x => { x with tx := [(⟨0, [], true, false, 0⟩ : TxFrame)] }) |> setF F.SBUS_CTL_EN
      0, by decide +kernel⟩,
    ⟨wOn, by decide +kernel⟩,
    ⟨(7, 0), wOn |> State.modSbus (fun x => { x with quar := [(5, 3), (7, 0)] }), by decide +kernel⟩,
    ⟨wOn, by decide +kernel⟩,
    ⟨.assistA, (⟨0, List.replicate 60 0, 0, true, false, false⟩ : RxFrame), wOn |> State.modSbus (fun x =>
      { x with rx := [(⟨0, List.replicate 60 0, 0, true, false, false⟩ : RxFrame)] }), by decide +kernel⟩,
    ⟨.assistA, (⟨0, List.replicate 60 0, 54, true, false, false⟩ : RxFrame), wOn |> State.modSbus (fun x =>
      { x with rx := [(⟨0, List.replicate 60 0, 54, true, false, false⟩ : RxFrame)] }), by decide +kernel⟩,
    ⟨.assistA, (⟨0, List.replicate 60 0, 0, true, false, false⟩ : RxFrame), wOn |> State.modSbus (fun x =>
      { x with rx := [(⟨0, List.replicate 60 0, 0, true, false, false⟩ : RxFrame)] }), by decide +kernel⟩,
    ⟨.host, wOn, by decide +kernel⟩,
    ⟨.host, wOn, by decide +kernel⟩,
    ⟨.assistA, 0, wOn |> State.modSbus (fun x => { x with tx := [(⟨0, [], false, false, 0⟩ : TxFrame)] }), (⟨0, [], false, false, 0⟩ : TxFrame),
      by decide +kernel⟩,
    ⟨.assistA, 2 ^ 61, wOn |> State.modSbus (fun x => { x with tx := [(⟨0, [], false, false, 0⟩ : TxFrame)] }), (⟨0, [], false, false, 0⟩ : TxFrame),
      by decide +kernel⟩,
    ⟨.assistA, 0, wOn |> State.modSbus (fun x => { x with tx := [(⟨0, [], false, false, 0⟩ : TxFrame)] }), (⟨0, [], false, false, 0⟩ : TxFrame),
      by decide +kernel⟩,
    ⟨.assistA, 0, wOn, by decide +kernel⟩,
    ⟨.assistA, 0, wOn |> State.modSbus (fun x => { x with tx := [(⟨0, [], true, false, 0⟩ : TxFrame), (⟨1, [], true, false, 0⟩ : TxFrame)] }),
      by decide +kernel⟩,
    ⟨.assistA, 0, wOn, by decide +kernel⟩,
    ⟨.assistA, 2 ^ 62, wOn, by decide +kernel⟩,
    ⟨.assistA, 2 ^ 62, wOn |> State.modSbus (fun x => { x with tx := [(⟨0, [], true, false, 0⟩ : TxFrame), (⟨1, [], true, false, 0⟩ : TxFrame)] }),
      by decide +kernel⟩,
    ⟨wOn |> State.modLcs (fun x => { x with slots := [2 ^ lcProvision] }) |> State.modAlm (fun x => { x with wp := false }), by decide +kernel⟩,
    ⟨wOn |> State.modLcs (fun x => { x with slots := [2 ^ lcProvision] }) |> State.modAlm (fun x => { x with wp := true }), by decide +kernel⟩,
    ⟨wOn, by decide +kernel⟩,
    ⟨0, wOn, by decide +kernel⟩,
    ⟨0x80000000, wOn |> setF F.IMG_ASSIST_SWAP_BUSY 1, by decide +kernel⟩,
    ⟨0, wOn |> setF (F.SBUS_PLT_STATE_MGMT_VIEW (0 : Nat)) pOffline, by decide +kernel⟩,
    ⟨0, wOn |> setF (F.SBUS_PLT_STATE_MGMT_VIEW (0 : Nat)) pFailed, by decide +kernel⟩,
    ⟨0, wOn |> setF (F.SBUS_PLT_STATE_MGMT_VIEW (0 : Nat)) pDraining, by decide +kernel⟩,
    ⟨0, wOn |> setF (F.SBUS_PLT_STATE_MGMT_VIEW (0 : Nat)) pPowering, by decide +kernel⟩,
    ⟨0, wOn |> State.modDome (fun x => { x with prsnt := 0 }), by decide +kernel⟩,
    ⟨0, wOn |> State.modDome (fun x => { x with prsnt := 0 }) |> State.modGlb (fun g => { g with mode := .standby }), by decide +kernel⟩,
    ⟨0, wOn, by decide +kernel⟩,
    ⟨0, wOn |> State.modDome (fun x => { x with prsnt := 0 }), by decide +kernel⟩,
    ⟨0, wOn |> setF (F.SBUS_PLT_STATE_MGMT_VIEW ((0 : Fin 16).val)) pDraining, by decide +kernel⟩,
    ⟨0, wOn, by decide +kernel⟩,
    ⟨0, 0, wOn, by decide +kernel⟩,
    ⟨0, wOn, by decide +kernel⟩⟩

/-- States and operands that meet the hypotheses of EveryLifeCycleAndFinderRowCompletes, clause by clause. -/
theorem witness_EveryLifeCycleAndFinderRowCompletes :
    (∃ (m : Master), m ≠ .host ∧ m ≠ .finder) ∧
    (∃ (m : Master) (v : BitVec 32), (m = .host ∨ m = .finder) ∧ v.toNat.testBit 31 = false) ∧
    (∃ (s : State), s.lcs.trans = none) ∧
    (∃ (m : Master) (t : Nat) (c : Nat) (s : State), s.lcCheck m t c = none) ∧
    (∃ (s : State), s.lcs.state = lcProvision ∧ (!s.lcs.fused.testBit 2 && !s.lcs.revoked.testBit 2) = true) ∧
    (∃ (s : State), s.lcs.state = lcProvision ∧ (!s.lcs.fused.testBit 2 && !s.lcs.revoked.testBit 2) = false ∧ (!s.lcs.fused.testBit 3 &&
      !s.lcs.revoked.testBit 3) = true) ∧
    (∃ (s : State), s.lcs.state = lcProvision ∧ (!s.lcs.fused.testBit 2 && !s.lcs.revoked.testBit 2) = false ∧ (!s.lcs.fused.testBit 3 &&
      !s.lcs.revoked.testBit 3) = false) ∧
    (∃ (s : State), s.lcs.state ≠ lcProvision) ∧
    (∃ (c : Instr) (ir : Nat) (s : State), s.glb.mode = .off ∧ (Says.debugRow ir c ∨ Says.driveRow ir c ∨ c = .tapIdcode ∨ c = .lcStatus ∨ (∃ p b, c
      = .tapSamplePreload p b) ∨ (∃ t g, c = .finderUnlock t g) ∨ (∃ i, c = .tapBypass i))) ∧
    (∃ (c : Instr) (ir : Nat) (s : State), s.glb.mode ≠ .off ∧ Says.debugRow ir c ∧ s.debugOn ir = false) ∧
    (∃ (c : Instr) (ir : Nat) (s : State), s.glb.mode ≠ .off ∧ Says.driveRow ir c ∧ s.driveOn = false) ∧
    (∃ (c : Instr) (ir : Nat) (s : State), s.driveOn = true ∧ Says.driveRow ir c) ∧
    (∃ (i : BitVec 8) (s : State), s.glb.mode ≠ .off ∧ ((i.toNat) = 1 ∨ (i.toNat) = 2 ∨ (i.toNat) = 0x10 ∨ (i.toNat) = 0x11)) ∧
    (∃ (i : BitVec 8) (s : State), s.glb.mode ≠ .off ∧ ((i.toNat) = 0 ∨ (i.toNat) = 3 ∨ (i.toNat) = 4)) ∧
    (∃ (i : BitVec 8) (s : State), s.glb.mode ≠ .off ∧ ((i.toNat) = 0x20 ∨ (i.toNat) = 0x21 ∨ (i.toNat) = 0x22 ∨ (i.toNat) = 0x30 ∨ (i.toNat) =
      0x31)) ∧
    (∃ (i : BitVec 8) (s : State), s.glb.mode ≠ .off ∧ (¬ ((i.toNat) = 0x20 ∨ (i.toNat) = 0x21 ∨ (i.toNat) = 0x22 ∨ (i.toNat) = 0x30 ∨ (i.toNat) =
      0x31)) ∧ 4 < (i.toNat) ∧ (i.toNat) ≠ 0x10 ∧ (i.toNat) ≠ 0x11) ∧
    (∃ (s : State), s.glb.mode ≠ .off ∧ s.coreOn = false) ∧
    (∃ (core : Fin 2) (s : State), s.glb.mode ≠ .off ∧ s.debugOn 0x20 = true ∧ (s.find.core core.val).halted = true) ∧
    (∃ (core : Fin 2) (s : State), s.glb.mode ≠ .off ∧ s.debugOn 0x20 = true ∧ (s.find.core core.val).halted = false) ∧
    (∃ (dr : BitVec 72) (s : State), s.glb.mode ≠ .off ∧ s.debugOn 0x21 = true ∧ (s.find.core ((dr.toNat) / 2 ^ 71 % 2)).halted = false) ∧
    (∃ (dr : BitVec 72) (s : State), s.glb.mode ≠ .off ∧ s.debugOn 0x21 = true ∧ (s.find.core ((dr.toNat) / 2 ^ 71 % 2)).halted = true ∧
      (dr.toNat).testBit 70 = true) ∧
    (∃ (dr : BitVec 72) (s : State), s.glb.mode ≠ .off ∧ s.debugOn 0x21 = true ∧ (s.find.core ((dr.toNat) / 2 ^ 71 % 2)).halted = true ∧
      (dr.toNat).testBit 70 = false) ∧
    (∃ (s : State), s.glb.mode ≠ .off ∧ s.debugOn 0x22 = true) ∧
    (∃ (core : Fin 2) (watch : Bool) (pc : BitVec 32) (s : State), (s.find.core core.val).halted = false ∧ (s.find.core core.val).armed watch
      pc.toNat = true) ∧
    (∃ (core : Fin 2) (watch : Bool) (pc : BitVec 32) (s : State), ((s.find.core core.val).halted = true ∨ (s.find.core core.val).armed watch
      pc.toNat = false)) ∧
    (∃ (s : State), s.glb.mode ≠ .off ∧ s.debugOn 0x30 = true ∧ ((∃ h ∈ s.clk.held, h.master = .finder) ∨ (∃ j ∈ s.alm.queue ++ s.alm.waiting, j.src
      = .finder))) ∧
    (∃ (s : State), s.glb.mode ≠ .off ∧ s.debugOn 0x30 = true ∧ (¬ ((∃ h ∈ s.clk.held, h.master = .finder) ∨ (∃ j ∈ s.alm.queue ++ s.alm.waiting,
      j.src = .finder)))) ∧
    (∃ (sp : Nat) (a : Nat) (n : Nat), (4 < sp ∨ a % n ≠ 0)) ∧
    (∃ (sp : Nat) (a : Nat) (n : Nat) (s : State), sp ≤ 4 ∧ a % n = 0 ∧ (s.get F.LCS_FINDER_SCOPE).testBit (if sp = 0 then 2 else 1) = false) ∧
    (∃ (a : Nat) (n : Nat) (s : State), a % n = 0 ∧ (s.get F.LCS_FINDER_SCOPE).testBit 2 = true ∧ (s.get F.WMEM_CFG_TOTAL_GIB * 2 ^ 30 ≤ a + 16384)) ∧
    (∃ (a : Nat) (n : Nat) (s : State), a % n = 0 ∧ (s.get F.LCS_FINDER_SCOPE).testBit 2 = true ∧ ¬ (s.get F.WMEM_CFG_TOTAL_GIB * 2 ^ 30 ≤ a +
      16384) ∧ s.clkRuns (34 + wmChan a) = false) ∧
    (∃ (a : Nat) (n : Nat) (wr : Option Nat) (s : State), a % n = 0 ∧ (s.get F.LCS_FINDER_SCOPE).testBit 2 = true ∧ ¬ (s.get F.WMEM_CFG_TOTAL_GIB *
      2 ^ 30 ≤ a + 16384) ∧ s.clkRuns (34 + wmChan a) = true ∧ s.accMay .finder (if wr.isSome then 1 else 0) = false) ∧
    (∃ (a : Nat) (n : Nat) (wr : Option Nat) (s : State), a % n = 0 ∧ (s.get F.LCS_FINDER_SCOPE).testBit 2 = true ∧ ¬ (s.get F.WMEM_CFG_TOTAL_GIB *
      2 ^ 30 ≤ a + 16384) ∧ s.clkRuns (34 + wmChan a) = true ∧ s.accMay .finder (if wr.isSome then 1 else 0) = true) ∧
    (∃ (a : Nat) (n : Nat) (wr : Option Nat) (s : State) (d : _), a % n = 0 ∧ (s.get F.LCS_FINDER_SCOPE).testBit 1 = true ∧ s.heldOn .finder (if
      wr.isSome then 1 else 0) a = some d) ∧
    (∃ (a : Nat) (n : Nat) (s : State), a % n = 0 ∧ (s.get F.LCS_FINDER_SCOPE).testBit 1 = true ∧ s.heldOn .finder 1 a = none) ∧
    (∃ (a : Nat) (n : Nat) (s : State), a % n = 0 ∧ (s.get F.LCS_FINDER_SCOPE).testBit 1 = true ∧ s.heldOn .finder 0 a = none) ∧
    (∃ (a : Nat) (n : Nat) (s : State) (k : _), k < 2 ∧ a % n = 0 ∧ (s.get F.LCS_FINDER_SCOPE).testBit 1 = true) ∧
    (∃ (a : Nat) (n : Nat) (wr : Option Nat) (s : State), a % n = 0 ∧ (s.get F.LCS_FINDER_SCOPE).testBit 1 = true ∧ (wr.isSome ∨ 2 ^ 18 ≤ a)) ∧
    (∃ (a : Nat) (n : Nat) (s : State), a % n = 0 ∧ (s.get F.LCS_FINDER_SCOPE).testBit 1 = true ∧ a < 2 ^ 18) :=
  ⟨⟨.assistA, by decide +kernel⟩,
    ⟨.host, 0, by decide +kernel⟩,
    ⟨wOn |> State.modLcs (fun x => { x with trans := none }), by decide +kernel⟩,
    ⟨.host, 3, 0x5E21, wOn |> State.modLcs (fun x => { x with slots := [1, 2] }), by decide +kernel⟩,
    ⟨wOn |> State.modLcs (fun x => { x with slots := [2 ^ lcProvision] }), by decide +kernel⟩,
    ⟨wOn |> State.modLcs (fun x => { x with slots := [2 ^ lcProvision] }) |> State.modLcs (fun x => { x with fused := 4 }), by decide +kernel⟩,
    ⟨wOn |> State.modLcs (fun x => { x with slots := [2 ^ lcProvision] }) |> State.modLcs (fun x => { x with fused := 12 }), by decide +kernel⟩,
    ⟨wOn, by decide +kernel⟩,
    ⟨.tapIdcode, 0, wOn |> State.modGlb (fun x => { x with mode := .off }), rfl, .inr (.inr (.inl rfl))⟩,
    ⟨.coreResume 0, 0x20, wOn |> setF F.LCS_FINDER_ENABLED 0, by decide, .inl ⟨rfl, .inr (.inl ⟨0, rfl⟩)⟩, by decide +kernel⟩,
    ⟨.tapClamp, 3, wOn, by decide, .inr (.inl ⟨rfl, rfl⟩), by decide⟩,
    ⟨.tapHighz, 4, wOn |> State.modGlb (fun g => { g with perst := true }) |> State.modGlb (fun g => { g with mode := .standby }), by decide, .inr (.inr
      ⟨rfl, rfl⟩)⟩,
    ⟨0x11, wOn, by decide +kernel⟩,
    ⟨0, wOn, by decide +kernel⟩,
    ⟨0x31, wOn, by decide +kernel⟩,
    ⟨5, wOn, by decide +kernel⟩,
    ⟨wOn |> State.modGlb (fun g => { g with mode := .faultHalt }), by decide +kernel⟩,
    ⟨0, wOn |> State.modFind (fun f => { f with coreA := { CoreSt.reset with halted := true } }), by decide +kernel⟩,
    ⟨0, wOn, by decide +kernel⟩,
    ⟨0, wOn, by decide +kernel⟩,
    ⟨2 ^ 70, wOn |> State.modFind (fun f => { f with coreA := { CoreSt.reset with halted := true } }), by decide +kernel⟩,
    ⟨0, wOn |> State.modFind (fun f => { f with coreA := { CoreSt.reset with halted := true } }), by decide +kernel⟩,
    ⟨wOn, by decide +kernel⟩,
    ⟨0, false, 0, wOn |> State.modFind (fun f => { f with coreA := { CoreSt.reset with bps := [(0, (1, 0, 0))] } }), by decide +kernel⟩,
    ⟨0, false, 0, wOn, by decide +kernel⟩,
    ⟨wOn |> State.modClk (fun x => { x with held := [⟨.finder, 0, 0, 4, none⟩] }), by decide +kernel⟩,
    ⟨wOn, by decide +kernel⟩,
    ⟨5, 0, 4, by decide +kernel⟩,
    ⟨0, 0, 4, wOn |> setF F.LCS_FINDER_SCOPE 0, by decide +kernel⟩,
    ⟨16384 * 4, 4, wOn |> setF F.WMEM_CFG_TOTAL_GIB 0, by decide +kernel⟩,
    ⟨0, 4, wOn |> setF F.WMEM_CFG_TOTAL_GIB 1, by decide +kernel⟩,
    ⟨0, 4, none, wOn |> setF F.WMEM_CFG_TOTAL_GIB 1 |> setF (F.WMEM_CH_STATUS_TRAINED 0) 1 |> setF F.REG_CTL_EN 1 |> setF (F.REG_ACT_RATE_RD_RATE
      classFinder) 1 |> setF (F.REG_ACT_LAT_BURST_KIB classFinder) 0 |> State.modRegu (fun r => { r with grant := [(bKey classFinder 0, 1)] }),
      by decide +kernel⟩,
    ⟨0, 4, none, wOn |> setF F.WMEM_CFG_TOTAL_GIB 1 |> setF (F.WMEM_CH_STATUS_TRAINED 0) 1, by decide +kernel⟩,
    ⟨0x100030, 4, none, wOn |> setF (F.MCH_STATUS_STATE 0) 0, 0, by decide +kernel⟩,
    ⟨0, 0, wOn, by decide +kernel⟩,
    ⟨0, 0, wOn, by decide +kernel⟩,
    ⟨0, 0, wOn, 0, by decide +kernel⟩,
    ⟨2 ^ 18, 4, none, wOn, by decide +kernel⟩,
    ⟨0, 0, wOn, by decide +kernel⟩⟩

/-! ### Ill-formed commands: one for each check of WellFormed -/

def wLeaf : SlotLeaf := ⟨4, 0, 0, 0, false, false⟩
def badRec : RegRec := ⟨0x10, 8, 2 ^ 64⟩

theorem test_wf_refuses_accesses : Instr.wf (.registerWrite .host none 0x100 0 1) = false ∧ Instr.wf (.rcFieldRead .host none 0 65) = false ∧
    Instr.wf (.registerWrite .host none 0x3FFFFFC 8 1) = false := by decide
theorem test_wf_refuses_images : Instr.wf (.imageLoaded 0 none (some { wImage with reg := [badRec] }) 0) = false ∧
    Instr.wf (.transferFw 0 2 { wImage with key := some 4 }) = false ∧ Instr.wf (.transferFw 0 2 { wImage with global := [⟨6, 8, 0⟩] }) = false ∧
    Instr.wf (.transferFw 0 2 { wImage with chan := [(1, { wSeg with table := [0] })] }) = false := by decide +kernel
theorem test_wf_refuses_starts : Instr.wf (.ddrTrainingDone [] false) = false ∧ Instr.wf (.replay 0 0 [5, 5] [] true 0) = false ∧
    Instr.wf (.replay 0 0 [] [7, 7] true 0) = false := by decide
theorem test_wf_refuses_payloads : Instr.wf (.setLsa 0 0 []) = false ∧ Instr.wf (.addDynamicCapacityResponse 0 []) = false ∧
    Instr.wf (.releaseDynamicCapacity 0 []) = false ∧ Instr.wf (.setLdAllocations 16 [(1, 0, 0), (1, 4, 0)]) = false ∧
    Instr.wf (.scanMedia 0 0 0 [⟨64, 0, 0, false⟩]) = false := by decide
theorem test_wf_refuses_fabric : Instr.wf (.fabRead 0 0 0 0 0 1 [0, 0]) = false ∧ Instr.wf (.fabProgram 0 0 false []) = false ∧
    Instr.wf (.fabErase 0 0 false [⟨0, 0, 0⟩, ⟨0, 1, 0⟩]) = false ∧ Instr.wf (.readComplete 0 [(65, .clean)] 0) = false ∧
    Instr.wf (.programComplete 0 0 [1, 1]) = false ∧ Instr.wf (.eraseComplete 0 0 [2, 2]) = false ∧
    Instr.wf (.mergeMediaReadDone 0 [⟨1, 6, 0, false⟩]) = false ∧ Instr.wf (.mergeMediaReadDone 0 [⟨1, 0, 0, false⟩, ⟨1, 1, 0, false⟩]) = false := by decide
theorem test_wf_refuses_memory : Instr.wf (.mapFillReturn 0 0 (.corrected ⟨0, 0, 2 ^ 32, 0⟩) none) = false ∧
    Instr.wf (.patrolScrub (.poisoned ⟨0, 0, 2 ^ 32, 0⟩)) = false ∧ Instr.wf (.mergeHoldExpire (.uncorrectable ⟨0, 0, 2 ^ 32, 0⟩)) = false ∧
    Instr.wf (.sysbusRead 0 (.corrected ⟨0, 0, 2 ^ 32, 0⟩)) = false ∧ Instr.wf (.sectorRebuildDone [3, 3] []) = false ∧
    Instr.wf (.mr4Poll [(0, 1, false), (0, 2, false)]) = false := by decide
theorem test_wf_refuses_jobs : Instr.wf (.scrubVisit [⟨0, 0, .clean, 6⟩]) = false ∧ Instr.wf (.verifyJob 0 [⟨0, 8192, 0, 0, 0, false, false⟩]) = false ∧
    Instr.wf (.gcJob 0 0 [wLeaf, wLeaf]) = false ∧ Instr.wf (.wearJob 0 0 [wLeaf, wLeaf]) = false ∧ Instr.wf (.rewriteJob 0 0 [wLeaf, wLeaf]) = false ∧
    Instr.wf (.sealJob 0 0 [wLeaf, wLeaf]) = false ∧ Instr.wf (.relocateJob 0 0 [wLeaf, wLeaf]) = false ∧ Instr.wf (.bypassExpire 65536) = false ∧
    Instr.wf (.sealJob 0 0 [{ wLeaf with slot := 64 }]) = false ∧ Instr.wf (.sealJob 0 0 [{ wLeaf with step := 6 }]) = false := by decide
theorem test_wf_refuses_rings : Instr.wf (.commandFetch 0 []) = false ∧ Instr.wf (.ringCopy 0 0 [⟨1, 0, 0, false⟩]) = false ∧
    Instr.wf (.ringVerify 0 0 [⟨0, 6, 0, false⟩]) = false ∧ Instr.wf (.ringHash 0 0 [⟨1, 0, 0, false⟩] true) = false := by decide
theorem test_wf_refuses_readings : Instr.wf (.adcSample [] false) = false ∧ Instr.wf (.tempReading [0]) = false ∧ Instr.wf (.fanTachWindow []) = false ∧
    Instr.wf (.pmbusPoll [⟨0, true, false, 0, 0⟩, ⟨0, true, false, 0, 0⟩]) = false ∧
    Instr.wf (.pmbAlert [⟨3, true, false, 0, 0⟩, ⟨3, true, false, 0, 0⟩]) = false := by decide
theorem test_wf_refuses_frames : Instr.wf (.shelfPing { wShelf with body := List.replicate 1465 0 }) = false ∧ Instr.wf (.plateInserted 0 []) = false ∧
    Instr.wf (.finderUnlock [] true) = false := by decide +kernel
theorem test_wf_takes_the_others : Instr.wf .tapReset = true ∧ Instr.wf (.fabProgram 0 0 true [⟨0, 1, 2⟩, ⟨1, 1, 2⟩]) = true ∧
    Instr.wf (.transferFw 0 2 { wImage with chan := [], reg := [⟨0x10, 8, 5⟩] }) = true := by decide +kernel

/-! ### Words: the table gives no row any bits -/

theorem test_no_word_spells_a_command : decodeTableWord 32 0xFFFFFFFF = none := rfl
theorem test_withFetchWord_adds_nothing : State.reset.withFetchWord 32 5 = State.reset := rfl

/-! ### Worked examples of the spec -/

/-- The set of channel 13, die 5, plane 2, field 1,234 (05_drift_and_references.md, its example). -/
theorem test_set_of_the_example : setOf (mkPfa 13 5 2 1234 4001) = 443602 := by decide

/-- The reference offsets at P = 54 with the table of R117, entry (c × (k + 1) + 2) div 4. -/
theorem test_offsets_of_the_example : refOffsets (fun c k => ((c * (k + 1) + 2) / 4 : Nat)) 54 =
    [7, 10, 13, 17, 20, 24, 27, 30, 34, 37, 40, 44, 47, 51, 54] := by decide

/-- The example's four probes: more state-14 reads than state-15 reads at mid 8, 12 and 13, fewer at 14; class 13. -/
def exampleProbes : State :=
  [(30, 9), (24, 8), (9, 20), (10, 9)].foldl (fun s e => (s.drift.meas.head?.map (fun m => measProbe m e.1 e.2 s)).getD s)
    (State.reset.modDrift (fun d => { d with meas := [⟨443602, 6, 3, 0, 0, 15, 576, false⟩] }) |> setF F.DRIFT_MEAS_CFG_MAX_ERR 96)

theorem test_probes_of_the_example : (exampleProbes.drec 443602).cls = 13 ∧ exampleProbes.drift.meas = [] := by decide +kernel

/-- The intent of the example: NEW_HIGH 0, MARK, CHECK over 0x1F4, with LOW still 0x1F3. -/
def odoCut : State := almStore (odoAddr 0) (numBytes 4 0x1F3 ++ numBytes 4 0 ++ numBytes 4 0 ++ numBytes 4 (0xA5000000 + crc16 (numBytes 8 0x1F4))) State.reset

theorem test_odometer_repair : (odoRepair 0 odoCut).odo 0 = 0x1F4 ∧ (odoRepair 0 odoCut).get F.ALM_ERR_STATUS_ODO_REPAIR = 1 ∧
    (odoRepair 0 odoCut).get F.ALM_ERR_STATUS_ODO_BAD = 0 := by decide +kernel

/-- Check values of the standard's own tables: CRC-16 and CRC-32 of "123456789", SHA-256 and SHA-384 of "abc". -/
theorem test_crc : crc16 [0x31, 0x32, 0x33, 0x34, 0x35, 0x36, 0x37, 0x38, 0x39] = 0x29B1 ∧
    crc32 [0x31, 0x32, 0x33, 0x34, 0x35, 0x36, 0x37, 0x38, 0x39] = 0xCBF43926 := by decide
theorem test_sha : sha256 [0x61, 0x62, 0x63] = 0xBA7816BF8F01CFEA414140DE5DAE2223B00361A396177A9CB410FF61F20015AD ∧
    sha384 [0x61, 0x62, 0x63] =
      0xCB00753F45A35E8BB5A03D699AC65007272C32AB0EDED1631A8B605A43FF5BED8086072BA1E7CC2358BAECA134C825A7 := by decide +kernel

end Sys2Proof.Tests
end

section
/-! PROOFS. The statements of 00_scope.md: what a register write does field by field, the halves of a 64-bit register, the
accesses of a master by address, the state after reset. -/

namespace Sys2Proof.Machine

/-! ### The write of one field (R3, R4) -/

section
variable {s0 : State} {f g : Fld} {cover v : Nat}

theorem writeFld_of_writes {w : Nat} (hw : writtenVal s0 f cover v = some w) (hc : comboBad s0 f cover v = false) (s : State) :
    writeFld f cover v s0 s = setF f w s := by
  simp [writeFld, hw, hc]

theorem writeFld_of_ignored (h : writtenVal s0 f cover v = none ∨ comboBad s0 f cover v = true) (s : State) :
    writeFld f cover v s0 s = s := by
  rcases h with h | h
  · simp [writeFld, h]
  · unfold writeFld
    split <;> simp [h]

/-- The write of a field stores a value in it or does nothing. -/
theorem writeFld_cases (f : Fld) (cover v : Nat) (s0 s : State) :
    (∃ w, writeFld f cover v s0 s = setF f w s) ∨ writeFld f cover v s0 s = s := by
  cases hw : writtenVal s0 f cover v with
  | none => exact .inr (writeFld_of_ignored (.inl hw) s)
  | some w =>
    cases hc : comboBad s0 f cover v with
    | false => exact .inl ⟨w, writeFld_of_writes hw hc s⟩
    | true => exact .inr (writeFld_of_ignored (.inr hc) s)

theorem writeFld_get_ne (s : State) (h : g.key ≠ f.key) : (writeFld f cover v s0 s).get g = s.get g := by
  obtain ⟨w, e⟩ | e := writeFld_cases f cover v s0 s
  · rw [e, State.get_setF_ne w s h]
  · rw [e]

theorem writeFld_modRegs_const (f : Fld) (cover v : Nat) (s0 s : State) (r : Tbl Nat) :
    (writeFld f cover v s0 s).modRegs (fun _ => r) = s.modRegs (fun _ => r) := by
  obtain ⟨w, e⟩ | e := writeFld_cases f cover v s0 s <;> rw [e]
  rfl

/-- A field in no reserved combination is never held back by one. -/
theorem comboBad_eq_false (h : ∀ p ∈ combos, p.1.key ≠ f.key ∧ p.2.key ≠ f.key) (s : State) (cover v : Nat) :
    comboBad s f cover v = false := by
  unfold comboBad comboReserved
  rw [List.any_eq_false]
  intro p hp
  obtain ⟨h1, h2⟩ := h p hp
  simp [h1, h2]

/-! ### The value written, by access code (R3, R4) -/

/-- The bits that a write gives a field that lies above `cover`. -/
def Fld.bitsOf (f : Fld) (v : Nat) : Nat := v / 2 ^ f.lo % 2 ^ f.wid

theorem Fld.bitsOf_lt (f : Fld) (v : Nat) : f.bitsOf v < 2 ^ f.wid := Nat.mod_lt _ (Nat.two_pow_pos _)

/-- The write of the bits from `cover` upwards reaches a field that lies there and has a bit. -/
theorem not_below_cover (hw : 0 < f.wid) (hl : cover ≤ f.lo) : ¬ f.lo + f.wid ≤ cover := by omega

theorem writtenVal_readOnly (s : State) (cover v : Nat) (h : f.acc = .ro ∨ f.acc = .rc ∨ (f.acc = .rwl ∧ s.loaded = true)) :
    writtenVal s f cover v = none := by
  unfold writtenVal
  split
  · rfl
  · rcases h with h | h | ⟨h, hl⟩ <;> simp [*]

theorem writtenVal_plain (s : State) (v : Nat) (hw : 0 < f.wid) (hl : cover ≤ f.lo)
    (h : f.acc = .rw ∨ f.acc = .wo ∨ (f.acc = .rwl ∧ s.loaded = false)) :
    writtenVal s f cover v = if f.legal.ok (f.bitsOf v) then some (f.bitsOf v) else none := by
  rcases h with h | h | ⟨h, hn⟩ <;> simp [writtenVal, not_below_cover hw hl, Fld.bitsOf, *] <;> rfl

theorem writtenVal_w1c (s : State) (v : Nat) (hw : 0 < f.wid) (hl : cover ≤ f.lo) (h : f.acc = .w1c) :
    writtenVal s f cover v = some (s.get f - (s.get f &&& f.bitsOf v)) := by
  simp [writtenVal, not_below_cover hw hl, hl, h, Fld.bitsOf]

theorem writtenVal_w1s (s : State) (v : Nat) (hw : 0 < f.wid) (hl : cover ≤ f.lo) (h : f.acc = .w1s) :
    writtenVal s f cover v = some (s.get f ||| f.bitsOf v) := by
  simp [writtenVal, not_below_cover hw hl, h, Fld.bitsOf]

/-- The upper bits of one value over the lower bits of another, at bit `d`. -/
theorem upper_add_lower_lt {raw old d wid : Nat} (hr : raw < 2 ^ wid) (hd : d < wid) :
    raw / 2 ^ d * 2 ^ d + old % 2 ^ d < 2 ^ wid := by
  have hsplit : 2 ^ wid = 2 ^ (wid - d) * 2 ^ d := by rw [← Nat.pow_add]; congr 1; omega
  have hq : raw / 2 ^ d + 1 ≤ 2 ^ (wid - d) := by
    rw [Nat.succ_le_iff, Nat.div_lt_iff_lt_mul (Nat.two_pow_pos d), ← hsplit]; exact hr
  calc raw / 2 ^ d * 2 ^ d + old % 2 ^ d
      < raw / 2 ^ d * 2 ^ d + 2 ^ d := Nat.add_lt_add_left (Nat.mod_lt _ (Nat.two_pow_pos d)) _
    _ = (raw / 2 ^ d + 1) * 2 ^ d := by rw [Nat.add_mul, Nat.one_mul]
    _ ≤ 2 ^ (wid - d) * 2 ^ d := Nat.mul_le_mul_right _ hq
    _ = 2 ^ wid := hsplit.symm

/-- A value that is stored fits its field, where the field's old value does. -/
theorem writtenVal_lt {s : State} {w : Nat} (hget : s.get f < 2 ^ f.wid) (h : writtenVal s f cover v = some w) : w < 2 ^ f.wid := by
  have hraw : v / 2 ^ f.lo % 2 ^ f.wid < 2 ^ f.wid := f.bitsOf_lt v
  unfold writtenVal at h
  split at h
  · cases h
  · rename_i hreach
    have hnew : (if cover ≤ f.lo then v / 2 ^ f.lo % 2 ^ f.wid
        else v / 2 ^ f.lo % 2 ^ f.wid / 2 ^ (cover - f.lo) * 2 ^ (cover - f.lo) + (if cover ≤ f.lo then 0 else s.get f % 2 ^ (cover - f.lo))) <
        2 ^ f.wid := by
      split
      · exact hraw
      · exact upper_add_lower_lt hraw (by omega)
    cases hacc : f.acc <;> simp only [hacc] at h
    case rw | wo =>
      split at h <;> simp_all
    case rwl =>
      split at h
      · cases h
      · split at h <;> simp_all
    case w1c => exact Option.some.inj h ▸ Nat.lt_of_le_of_lt (Nat.sub_le _ _) hget
    case w1s => exact Option.some.inj h ▸ Nat.or_lt_two_pow hget hraw
    case ro | rc => cases h

end

/-! ### The write of a register (R3, R4) -/

theorem seqAll_append {α : Type} (u : α → State → State) (l1 l2 : List α) (s : State) :
    seqAll u (l1 ++ l2) s = seqAll u l2 (seqAll u l1 s) := by
  induction l1 generalizing s with
  | nil => rfl
  | cons a l1 ih => exact ih (u a s)

/-- CLK_TOD_ADJ apart, a register is stored field by field. -/
theorem storeReg_eq {r : RegAt} (h : r.off ≠ 0x3A0030) (cover v : Nat) (s : State) :
    storeReg r cover v s = seqAll (fun f t => writeFld f cover v s t) r.flds s := by
  simp [storeReg, h]

section
variable {cover v : Nat} {s0 : State}

theorem seqAll_writeFld_get_ne {g : Fld} {l : List Fld} (h : ∀ f ∈ l, g.key ≠ f.key) (s : State) :
    (seqAll (fun f t => writeFld f cover v s0 t) l s).get g = s.get g := by
  induction l generalizing s with
  | nil => rfl
  | cons a l ih =>
    obtain ⟨ha, hl⟩ := List.forall_mem_cons.mp h
    exact (ih hl _).trans (writeFld_get_ne s ha)

theorem seqAll_writeFld_modRegs_const (l : List Fld) (s : State) (r : Tbl Nat) :
    (seqAll (fun f t => writeFld f cover v s0 t) l s).modRegs (fun _ => r) = s.modRegs (fun _ => r) := by
  induction l generalizing s with
  | nil => rfl
  | cons a l ih => exact (ih _).trans (writeFld_modRegs_const a cover v s0 s r)

/-- Among fields of different keys each is written once: it reads as its own write leaves it. -/
theorem exists_seqAll_writeFld_get {f : Fld} {l : List Fld} (hf : f ∈ l) (hl : (l.map (·.key)).Nodup) (s : State) :
    ∃ t : State, t.get f = s.get f ∧ (seqAll (fun f t => writeFld f cover v s0 t) l s).get f = (writeFld f cover v s0 t).get f := by
  obtain ⟨l1, l2, rfl⟩ := List.append_of_mem hf
  rw [List.map_append, List.map_cons, List.nodup_append, List.nodup_cons] at hl
  obtain ⟨-, ⟨hl2, -⟩, hl1⟩ := hl
  have before : ∀ g ∈ l1, f.key ≠ g.key := fun g hg e => hl1 _ (List.mem_map_of_mem hg) _ List.mem_cons_self e.symm
  have behind : ∀ g ∈ l2, f.key ≠ g.key := fun g hg e => hl2 (e ▸ List.mem_map_of_mem hg)
  refine ⟨seqAll (fun f t => writeFld f cover v s0 t) l1 s, seqAll_writeFld_get_ne before s, ?_⟩
  rw [seqAll_append]
  exact seqAll_writeFld_get_ne behind _

end

section
variable {r : RegAt} {cover v : Nat} {s : State} {f : Fld} (hoff : r.off ≠ 0x3A0030) (hkeys : (r.flds.map (·.key)).Nodup) (hf : f ∈ r.flds)
include hoff

theorem storeReg_get_ne {g : Fld} (h : ∀ f ∈ r.flds, g.key ≠ f.key) : (storeReg r cover v s).get g = s.get g := by
  rw [storeReg_eq hoff, seqAll_writeFld_get_ne h]

theorem storeReg_modRegs_const (t : Tbl Nat) : (storeReg r cover v s).modRegs (fun _ => t) = s.modRegs (fun _ => t) := by
  rw [storeReg_eq hoff, seqAll_writeFld_modRegs_const]

include hkeys hf

theorem storeReg_get_of_ignored (h : writtenVal s f cover v = none ∨ comboBad s f cover v = true) :
    (storeReg r cover v s).get f = s.get f := by
  obtain ⟨t, ht, e⟩ := exists_seqAll_writeFld_get (s0 := s) hf hkeys s
  rw [storeReg_eq hoff, e, writeFld_of_ignored h, ht]

theorem storeReg_get_of_writes {w : Nat} (hget : s.get f < 2 ^ f.wid) (hw : writtenVal s f cover v = some w)
    (hc : comboBad s f cover v = false) : (storeReg r cover v s).get f = w := by
  obtain ⟨t, -, e⟩ := exists_seqAll_writeFld_get (s0 := s) hf hkeys s
  rw [storeReg_eq hoff, e, writeFld_of_writes hw hc, State.get_setF_lt _ (writtenVal_lt hget hw)]

end

/-! ### Registers whose fields all have a bit -/

/-- Has every field of every register of the list at least one bit? -/
def fieldsHaveBits (l : List RegDesc) : Bool := l.all (fun d => d.flds.all (fun f => decide (0 < f.wid)))

theorem wid_pos_of_fieldsHaveBits {l : List RegDesc} (h : fieldsHaveBits l = true) : ∀ d ∈ l, ∀ f ∈ d.flds, 0 < f.wid := by
  simpa [fieldsHaveBits] using h

/-- Block by block, the register map has no empty field. -/
theorem blockRegs_fieldsHaveBits (off : Nat) : fieldsHaveBits (blockRegs off) = true := by
  unfold blockRegs
  extract_lets b
  repeat' with_reducible refine iteInduction (motive := fun l => fieldsHaveBits l = true) (fun _ => ?_) (fun _ => ?_)
  all_goals decide +kernel

theorem findIn_flds {l : List RegDesc} {off : Nat} {r : RegAt} (h : findIn l off = some r) :
    ∃ d ∈ l, ∃ e, r.flds = d.flds.map (·.shift e) := by
  induction l with
  | nil => cases h
  | cons d l ih =>
    unfold findIn at h
    split at h
    · cases h
      exact ⟨d, List.mem_cons_self, _, rfl⟩
    · obtain ⟨d', hd', e⟩ := ih h
      exact ⟨d', List.mem_cons_of_mem d hd', e⟩

theorem findReg_wid_pos {off : Nat} {r : RegAt} (h : findReg off = some r) : ∀ f ∈ r.flds, 0 < f.wid := by
  obtain ⟨d, hd, e, hflds⟩ := findIn_flds h
  rw [hflds, List.forall_mem_map]
  exact wid_pos_of_fieldsHaveBits (blockRegs_fieldsHaveBits off) d hd

/-- R3 and R4 for every register of the map: what RegisterFieldsFollowTheirAccessCode says of any list of fields holds of these, whose
fields all have a bit. -/
theorem storeReg_follows_accessCode {off : Nat} {r : RegAt} {s : State} (hr : findReg off = some r) (hoff : r.off ≠ 0x3A0030)
    (hkeys : (r.flds.map (·.key)).Nodup) (hget : ∀ f ∈ r.flds, s.get f < 2 ^ f.wid) (cover v : Nat) :
    (∀ f ∈ r.flds,
      (writtenVal s f cover v = none ∨ comboBad s f cover v = true → (storeReg r cover v s).get f = s.get f) ∧
      (∀ w, writtenVal s f cover v = some w → comboBad s f cover v = false → (storeReg r cover v s).get f = w)) ∧
    (∀ f ∈ r.flds, cover ≤ f.lo →
      ((f.acc = .ro ∨ f.acc = .rc ∨ (f.acc = .rwl ∧ s.loaded = true)) → writtenVal s f cover v = none) ∧
      ((f.acc = .rw ∨ f.acc = .wo ∨ (f.acc = .rwl ∧ s.loaded = false)) →
        writtenVal s f cover v = if f.legal.ok (f.bitsOf v) then some (f.bitsOf v) else none) ∧
      (f.acc = .w1c → writtenVal s f cover v = some (s.get f - (s.get f &&& f.bitsOf v))) ∧
      (f.acc = .w1s → writtenVal s f cover v = some (s.get f ||| f.bitsOf v))) ∧
    (∀ g : Fld, (∀ f ∈ r.flds, g.key ≠ f.key) → (storeReg r cover v s).get g = s.get g) ∧
    (storeReg r cover v s).modRegs (fun _ => s.regs) = s := by
  refine ⟨fun f hf => ⟨?_, fun w => ?_⟩, fun f hf hl => ?_, fun g => ?_, ?_⟩
  · exact storeReg_get_of_ignored hoff hkeys hf
  · exact storeReg_get_of_writes hoff hkeys hf (hget f hf)
  · have hw := findReg_wid_pos hr f hf
    exact ⟨writtenVal_readOnly s cover v, writtenVal_plain s v hw hl, writtenVal_w1c s v hw hl, writtenVal_w1s s v hw hl⟩
  · exact storeReg_get_ne hoff
  · exact storeReg_modRegs_const hoff s.regs

/-- A field of no bits, which no register of the map has (`findReg_wid_pos`). -/
def noBitsFld : Fld := ⟨0, 0, 0, .w1s, 0, .any⟩

/-- Refutes O1: the statement ranges over any list of fields. A write of all bits of a register whose one field has width 0 does not
reach the field, so `writtenVal` is `none` where the statement asks for the value of a W1S field. With fields that have a bit, as all
fields of the register map do, it holds (`storeReg_follows_accessCode`). -/
theorem not_registerFieldsFollowTheirAccessCode : ¬ Obligations.RegisterFieldsFollowTheirAccessCode := by
  unfold Obligations.RegisterFieldsFollowTheirAccessCode
  intro h
  obtain ⟨-, hcode, -⟩ := h ⟨0, 32, [noBitsFld]⟩ 0 0 State.reset (by decide) (by decide) (by decide)
  obtain ⟨-, -, -, hset⟩ := hcode noBitsFld List.mem_cons_self (Nat.le_refl 0)
  have unreached : writtenVal State.reset noBitsFld 0 0 = none := rfl
  rw [unreached] at hset
  cases hset rfl

/-! ### Holds of low halves (R5) -/

section
variable (m : Master) (b : Bool) (off v : Nat) (s : State)

@[simp] theorem dropHold_dropHold : dropHold m off (dropHold m off s) = dropHold m off s := by
  simp [dropHold, State.modHolds]

@[simp] theorem dropHold_putHold : dropHold m off (putHold m off v s) = dropHold m off s := by
  simp [dropHold, putHold, State.modHolds]

@[simp] theorem putHold_putHold (v2 : Nat) : putHold m off v2 (putHold m off v s) = putHold m off v2 s := by
  rw [putHold, dropHold_putHold, putHold]

@[simp] theorem holdOf_putHold : holdOf (putHold m off v s) m off = some v := by
  simp [holdOf, putHold, State.modHolds]

@[simp] theorem putHold_regs : (putHold m off v s).regs = s.regs := rfl

theorem putHold_modHolds_const (l : List (Master × Nat × Nat)) : (putHold m off v s).modHolds (fun _ => l) = s.modHolds (fun _ => l) := rfl

end

/-! ### Register accesses by offset (R5) -/

section
variable {off v : Nat} {r : RegAt} (m : Master) (b : Bool) (s : State) (hr : findReg off = some r)
include hr

theorem regWrite_whole32 (hw : r.width = 32) : regWrite m b off 4 v s = regPut m b r 0 (v % 2 ^ 32) s := by
  simp [regWrite, write32, hr, hw]

theorem regWrite_low (hw : r.width = 64) (hv : v < 2 ^ 32) : regWrite m b off 4 v s = putHold m off v s := by
  simp [regWrite, write32, hr, hw, show v % 4294967296 = v from Nat.mod_eq_of_lt hv]

theorem regWrite_whole64 (hw : r.width = 64) : regWrite m b off 8 v s = regPut m b r 0 v (dropHold m off s) := by
  simp [regWrite, hr, hw]

theorem regWrite_high (hw : r.width = 64) (hgap : findReg (off + 4) = none) (hv : v < 2 ^ 32) :
    regWrite m b (off + 4) 4 v s = regPut m b r (highWrite s m off v).2 (highWrite s m off v).1 (dropHold m off s) := by
  simp [regWrite, write32, hgap, hr, hw, show v % 4294967296 = v from Nat.mod_eq_of_lt hv]

theorem regRead_low : regRead m off 4 s = ((regTake m r 0 32 s).1 % 2 ^ 32, (regTake m r 0 32 s).2) := by
  simp [regRead, read32, hr]

end

theorem highWrite_of_hold {s : State} {m : Master} {off lo : Nat} (h : holdOf s m off = some lo) (v : Nat) :
    highWrite s m off v = (v * 2 ^ 32 + lo, 0) := by
  simp [highWrite, h]

theorem highWrite_of_no_hold {s : State} {m : Master} {off : Nat} (h : holdOf s m off = none) (v : Nat) :
    highWrite s m off v = (v * 2 ^ 32, 32) := by
  simp [highWrite, h]

/-- Settles O2: a low half becomes the one hold of its master and register, and the high half takes it or finds none. -/
theorem halvesOfAWideRegisterWriteAsOne : Obligations.HalvesOfAWideRegisterWriteAsOne := by
  unfold Obligations.HalvesOfAWideRegisterWriteAsOne
  intro m b off lo lo2 hi r s hr hw hgap hlo hlo2 hhi
  have hlow (t : State) : regWrite m b off 4 lo t = putHold m off lo t := regWrite_low m b t hr hw hlo
  have hlow2 (t : State) : regWrite m b off 4 lo2 t = putHold m off lo2 t := regWrite_low m b t hr hw hlo2
  refine ⟨?_, ?_, ?_, ?_, ?_, fun hnone => ?_⟩
  · rw [hlow, putHold_regs]
  · rw [hlow, putHold_modHolds_const]; rfl
  · rw [hlow, regWrite_high m b _ hr hw hgap hhi, highWrite_of_hold (holdOf_putHold ..), dropHold_putHold, regWrite_whole64 m b s hr hw]
  · rw [hlow, hlow2, hlow2, putHold_putHold]
  · rw [hlow, holdOf_putHold]
  · rw [regWrite_high m b s hr hw hgap hhi, highWrite_of_no_hold hnone]

/-! ### The access of a master (R5) -/

section
variable {off : Nat} (m : Master) {size : Nat} {s : State} (hoff : off < 0x8000 ∨ 0x320000 ≤ off ∧ off < 0x800000)
include hoff

/-- An access below the MSI-X table, or above the channels and working memory and below the scratchpad, waits for no clock. -/
theorem State.heldOn_eq_none (dir : Nat) : s.heldOn m dir off = none := by
  unfold State.heldOn
  rw [if_neg (by omega), if_neg (by omega), if_neg (by omega)]

theorem mchWake_eq_self : mchWake off s = s := by
  unfold mchWake
  rw [if_neg (by omega)]

theorem bar0Write_eq_regWrite (v : Nat) : bar0Write m off size v s = regWrite m true off size v s := by
  unfold bar0Write
  rw [if_neg (by omega), if_neg (by omega)]

theorem bar0Read_eq_regRead : bar0Read m off size s = regRead m off size s := by
  unfold bar0Read
  rw [if_neg (by omega), if_neg (by omega), if_neg (by omega)]

variable (hon : s.coreOn = true) (hok : accessOk off size = true)
include hon hok

theorem busWrite_eq_regWrite (v : Nat) : busWrite m off size v s = domeAfter (regWrite m true off size v s) := by
  simp [busWrite, hon, hok, State.heldOn_eq_none m hoff, mchWake_eq_self hoff, bar0Write_eq_regWrite m hoff]

theorem busRead_eq_regRead : busRead m off size s = readDone m off (regRead m off size s).1 (regRead m off size s).2 := by
  simp [busRead, hon, hok, State.heldOn_eq_none m hoff, mchWake_eq_self hoff, bar0Read_eq_regRead m hoff]

end

theorem readDone_of_ne_finder {m : Master} (h : m ≠ .finder) (off v : Nat) (s : State) :
    readDone m off v s = emit (.regData m off (BitVec.ofNat 64 v)) s := by
  simp [readDone, h]

/-! ### GLB_MODE_STATUS (01_the_shelf_controller.md R15) -/

/-- GLB_MODE_STATUS with its fields. -/
def modeStatusReg : RegAt := ⟨0x48, 32, [F.GLB_MODE_STATUS_REFUSED, F.GLB_MODE_STATUS_MODE_DONE, F.GLB_MODE_STATUS_PEND_VALID,
  F.GLB_MODE_STATUS_PENDING, F.GLB_MODE_STATUS_LAST_SRC, F.GLB_MODE_STATUS_IN_TRANSITION, F.GLB_MODE_STATUS_CURRENT]⟩

theorem findReg_modeStatus : findReg 0x48 = some modeStatusReg := by decide

/-- REFUSED is its one RC field. -/
theorem clearRc_modeStatus (s : State) : clearRc modeStatusReg 0 32 s = setF F.GLB_MODE_STATUS_REFUSED 0 s := rfl

theorem regTake_modeStatus (m : Master) (s : State) :
    regTake m modeStatusReg 0 32 s = (plainVal modeStatusReg s, setF F.GLB_MODE_STATUS_REFUSED 0 s) := by
  have hview : s.viewOf modeStatusReg = none := rfl
  rw [← clearRc_modeStatus]
  simp [regTake, State.regValue, hview, show modeStatusReg.off = 0x48 from rfl]

/-! ### LOG_CTL (16_spectrograph_and_logbook.md R387) -/

/-- LOG_CTL with its fields. -/
def logCtlReg : RegAt := ⟨0x3D0000, 32, [F.LOG_CTL_FLOOR, F.LOG_CTL_IRQ_SEV]⟩

theorem findReg_logCtl : findReg 0x3D0000 = some logCtlReg := by decide

/-- A write of LOG_CTL starts nothing. -/
theorem regPut_logCtl (m : Master) (b : Bool) (v : Nat) (s : State) : regPut m b logCtlReg 0 v s = storeReg logCtlReg 0 v s := by
  simp [regPut, afterStore, show logCtlReg.off = 0x3D0000 from rfl]

theorem storeReg_logCtl (v : Nat) (s : State) :
    storeReg logCtlReg 0 v s =
      if v % 8 = 7 then setF F.LOG_CTL_FLOOR (v / 16 % 8) s else setF F.LOG_CTL_IRQ_SEV (v % 8) (setF F.LOG_CTL_FLOOR (v / 16 % 8) s) := by
  have hfloor : writtenVal s F.LOG_CTL_FLOOR 0 v = some (v / 16 % 8) := writtenVal_plain s v (by decide) (by decide) (.inl rfl)
  have hsev : writtenVal s F.LOG_CTL_IRQ_SEV 0 v = if v % 8 = 7 then none else some (v % 8) := by
    rw [writtenVal_plain s v (by decide) (by decide) (.inl rfl)]
    have hbits : F.LOG_CTL_IRQ_SEV.bitsOf v = v % 8 := by simp [Fld.bitsOf, F.LOG_CTL_IRQ_SEV]
    have hok : F.LOG_CTL_IRQ_SEV.legal.ok (v % 8) = decide (v % 8 ≤ 6) := by simp [F.LOG_CTL_IRQ_SEV, Legal.ok]
    rw [hbits, hok]
    by_cases h : v % 8 = 7
    · simp [h]
    · rw [if_neg h, if_pos (decide_eq_true (by omega))]
  have hfree : ∀ f ∈ logCtlReg.flds, comboBad s f 0 v = false := fun f hf => comboBad_eq_false (by revert f hf; decide) s 0 v
  have hwrites := writeFld_of_writes hfloor (hfree _ (by decide)) s
  rw [storeReg_eq (by decide)]
  show writeFld F.LOG_CTL_IRQ_SEV 0 v s (writeFld F.LOG_CTL_FLOOR 0 v s s) = _
  rw [hwrites]
  split
  case isTrue h => exact writeFld_of_ignored (.inl (by rw [hsev, if_pos h])) _
  case isFalse h => exact writeFld_of_writes (by rw [hsev, if_neg h]) (hfree _ (by decide)) _

/-! ### GLB_INT_MASK (01_the_shelf_controller.md R16) -/

theorem msixSend_of_masked {view vector : Nat} {s : State} (h : s.msixMasked view vector = true) :
    msixSend view vector s = s.modHost (fun x => { x with pba := tmod 0 (· ||| 2 ^ vector) x.pba view }) := by
  simp [msixSend, h]

theorem msixSend_of_unmasked {view vector : Nat} {s : State} (h : s.msixMasked view vector = false) :
    msixSend view vector s = emit (.msix view vector) s := by
  simp [msixSend, h]

/-- A vector that is signalled while masked is pending (02_host_port.md R45). -/
theorem msixSend_pba_of_masked {view vector : Nat} {s : State} (h : s.msixMasked view vector = true) :
    (tgetD 0 (msixSend view vector s).host.pba view).testBit vector = true := by
  simp [msixSend_of_masked h, tmod, Nat.testBit_or]

theorem ofNat_mod_eq_and_mask (v : BitVec 32) : BitVec.ofNat 32 (v.toNat % 2 ^ 23) = v &&& 0x7FFFFF#32 := by
  apply BitVec.eq_of_toNat_eq
  rw [BitVec.toNat_and, show (0x7FFFFF#32).toNat = 2 ^ 23 - 1 from rfl, Nat.and_two_pow_sub_one_eq_mod, BitVec.toNat_ofNat]
  omega

theorem intMaskWrite_eq (v : BitVec 32) (s : State) :
    intMaskWrite v.toNat s =
      if v &&& 0x7FFFFF#32 &&& s.glb.intStatus = 0 then s.modGlb (fun g => { g with intMask := v &&& 0x7FFFFF#32 })
      else msixSend mgmtView 2 (s.modGlb (fun g => { g with intMask := v &&& 0x7FFFFF#32 })) := by
  simp only [intMaskWrite, ofNat_mod_eq_and_mask, ne_eq, ite_not]

/-- R16 with R45: a write of GLB_INT_MASK stores the mask and signals vector 2 for a set cause. -/
theorem intMaskWrite_result (v : BitVec 32) (s : State) :
    (intMaskWrite v.toNat s).glb.intMask = v &&& 0x7FFFFF#32 ∧ (intMaskWrite v.toNat s).glb.intStatus = s.glb.intStatus ∧
    (intMaskWrite v.toNat s).regs = s.regs ∧
    ((intMaskWrite v.toNat s).outs =
      if v &&& 0x7FFFFF#32 &&& s.glb.intStatus = 0 ∨ s.msixMasked mgmtView 2 = true then s.outs else .msix mgmtView 2 :: s.outs) ∧
    (v &&& 0x7FFFFF#32 &&& s.glb.intStatus ≠ 0 → s.msixMasked mgmtView 2 = true →
      (tgetD 0 (intMaskWrite v.toNat s).host.pba mgmtView).testBit 2 = true) := by
  rw [intMaskWrite_eq]
  generalize hs1 : s.modGlb (fun g => { g with intMask := v &&& 0x7FFFFF#32 }) = s1
  have hmask : s1.msixMasked mgmtView 2 = s.msixMasked mgmtView 2 := hs1 ▸ rfl
  split
  case isTrue h =>
    subst hs1
    simp [h]
  case isFalse h =>
    cases hm : s.msixMasked mgmtView 2 with
    | true =>
      have hpba := msixSend_pba_of_masked (hmask.trans hm)
      rw [msixSend_of_masked (hmask.trans hm)] at hpba ⊢
      subst hs1
      simpa using fun _ => hpba
    | false =>
      rw [msixSend_of_unmasked (hmask.trans hm)]
      subst hs1
      simpa [emit] using h

/-- Settles O4: the read, the plain write and the mask write, each by the equation of its register. -/
theorem anRcFieldClearsOnTheReadThatCoversIt : Obligations.AnRcFieldClearsOnTheReadThatCoversIt := by
  unfold Obligations.AnRcFieldClearsOnTheReadThatCoversIt
  refine ⟨fun m s hon hm => ?_, fun v s hon => ?_, fun m v s => ⟨intMaskWrite v.toNat s, rfl, intMaskWrite_result v s⟩⟩
  · show Host.Outcome.next (busRead m 0x48 4 s) = _
    rw [busRead_eq_regRead m (by decide) hon (by decide), regRead_low m s findReg_modeStatus, regTake_modeStatus, readDone_of_ne_finder hm]
    rfl
  · show Host.Outcome.next (busWrite .host 0x3D0000 4 v.toNat s) = _
    rw [busWrite_eq_regWrite .host (by decide) hon (by decide), regWrite_whole32 .host true s findReg_logCtl rfl, regPut_logCtl, storeReg_logCtl]
    rw [show v.toNat % 2 ^ 32 % 8 = v.toNat % 8 by omega, show v.toNat % 2 ^ 32 / 16 % 8 = v.toNat / 16 % 8 by omega]

/-! ### After reset (18_start_up.md, "Start-up from Cold") -/

/-- The register file lists no field at reset, so every field reads its reset value. -/
theorem State.reset_get (f : Fld) : State.reset.get f = f.rst := rfl

/-- Settles O38: every part named is a field of State.reset. -/
theorem resetLeavesTheStatedValues : Obligations.ResetLeavesTheStatedValues := by
  unfold Obligations.ResetLeavesTheStatedValues
  exact ⟨State.reset_get, rfl, rfl, rfl, rfl, rfl, rfl, rfl, rfl, rfl, rfl, rfl⟩

end Sys2Proof.Machine
end

section
/-! PROOFS. The statements of 03_translation.md: the canonical form of the addressed stores, and the ends of map fills, probes and
sector rebuilds. -/

namespace Sys2Proof.Machine

/-! ### The canonical form (the map cache's scratchpad R69, the almanac R388, the register file R3) -/

theorem State.memWf_iff (s : State) :
    s.memWf = true ↔ tsortedFrom 0 s.regs = true ∧ twf 0#8 s.alm.bytes = true ∧ twf 0 s.xlat.scratch = true := by
  simp [State.memWf, and_assoc]

/-- Where an update leaves the three tables canonical, the state is. -/
theorem State.memWf_imp {s t : State} (hr : tsortedFrom 0 s.regs = true → tsortedFrom 0 t.regs = true)
    (ha : twf 0#8 s.alm.bytes = true → twf 0#8 t.alm.bytes = true)
    (hx : twf 0 s.xlat.scratch = true → twf 0 t.xlat.scratch = true) (h : s.memWf = true) : t.memWf = true := by
  rw [State.memWf_iff] at h ⊢
  obtain ⟨hregs, halm, hscratch⟩ := h
  exact ⟨hr hregs, ha halm, hx hscratch⟩

/-- Without the core's power the register file is rebuilt from the fields of the always-on domain. -/
theorem loseCore_regs_sorted (s : State) : tsortedFrom 0 (loseCore s).regs = true :=
  foldl_keeps (Q := fun t : Tbl Nat => tsortedFrom 0 t = true) (fun _ f ht => tsortedFrom_tput f.rst f.key (s.get f) ht) rfl

/-- The primitive updates keep the canonical form. Only a field set, fields dropped, a change of the almanac or of
the map cache, and the loss of the core's power touch its tables. -/
theorem closed_memWf : Closed (fun s => s.memWf = true) where
  setF {f v _} := State.memWf_imp (tsortedFrom_tput f.rst f.key (v % 2 ^ f.wid)) id id
  regsDrop {f _} := State.memWf_imp (tsortedFrom_filter f) id id
  alm hf := State.memWf_imp id (hf _) id
  xlat hf := State.memWf_imp id id (hf _)
  lose {s} := State.memWf_imp (fun _ => loseCore_regs_sorted s) id (fun _ => rfl)
  holds := id
  glb := id
  start := id
  log := id
  spec := id
  clk := id
  find := id
  dome := id
  sbus := id
  host := id
  coal := id
  med := id
  drift := id
  fld := id
  dur := id
  wm := id
  ciph := id
  regu := id
  ledg := id
  ring := id
  img := id
  outs := id
  freeCnt := id
  lcsKeep _ := id
  lcsDrop := id
  lcsBegin _ _ := id
  lcsBlow := id

/-- A step keeps a closed predicate that says nothing of the queue and of the time. -/
theorem step_kept {P : State → Prop} (hP : Closed P) (hq : ∀ {f t}, P t → P (t.modPending f)) (hn : ∀ {t}, P t → P (t.modNow (· + 10)))
    {s u : State} (e : step s = .next u) (h : P s) : P u := by
  unfold step at e
  split at e
  · exact exec_kept hP e (hq h)
  · have hu := idleStep_kept hP hn h
    rwa [Host.Outcome.next.inj e] at hu

/-- Settles O42: the form is closed, so every command and the idle step keep it. -/
theorem everyStepKeepsTheCanonicalForm : Obligations.EveryStepKeepsTheCanonicalForm := by
  unfold Obligations.EveryStepKeepsTheCanonicalForm
  exact fun _ _ h e => step_kept closed_memWf id id e h

/-! ### The fill of a map miss (R64, R65, R70) -/

section
variable {bank sector : Nat} {m : Miss} {s : State}

/-- The sector of a fill that the command's outcome tells of. -/
def Miss.tells (m : Miss) (sector : Nat) : Nat :=
  if m.sectors.testBit sector then sector else ((List.range 8).find? (fun i => m.sectors.testBit i)).getD 0

/-- One more sector of a fill is decoded: the mask of those that did not decode, and the state. -/
def Miss.decode (m : Miss) (sector : Nat) (out : WmOut) (p : Nat × State) (k : Nat) : Nat × State :=
  let d := wmDecode (m.line * 8 + k) (if k = m.tells sector then out else .clean) p.2
  (if d.1 then p.1 else p.1 + 2 ^ k, d.2)

/-- All sectors of a fill are decoded. -/
def Miss.decoded (m : Miss) (sector : Nat) (out : WmOut) (s : State) : Nat × State :=
  ((List.range 8).filter (fun i => m.sectors.testBit i)).foldl (m.decode sector out) (0, s)

/-- A fill with sectors that did not decode starts their rebuild (R70). -/
def fillUe (m : Miss) (bad : Nat) (s : State) : State :=
  setErr F.XLAT_ERR_STATUS_MAP_UE intXlat
    (s.modXlat (fun x => { x with rebuilding := x.rebuilding ++ (sectorLines m.line bad).map (fun k => (k, 1)) }))

theorem mapFill_of_decoded {out : WmOut} {u : State} (hm : tget s.xlat.misses bank = some m) (hw : m.wait = false)
    (hd : m.decoded sector out s = (0, u)) :
    mapFill bank sector out none s = foundAll (fillReturn bank m 0 (seqAll wmLineRead (sectorLines m.line m.sectors) u)) := by
  obtain ⟨hbad, hu⟩ := Prod.ext_iff.mp hd
  simp only [mapFill, hm, hw, Bool.false_eq_true, if_false, Bool.not_false, Bool.and_true, decide_eq_true_eq]
  exact (if_pos hbad).trans (hu ▸ rfl)

theorem mapFill_of_failed {out : WmOut} {bad : Nat} {u : State} {k : Look} {l : List Look} (hm : tget s.xlat.misses bank = some m)
    (hw : m.wait = false) (hd : m.decoded sector out s = (bad, u)) (hbad : bad ≠ 0) (hk : m.users = k :: l) :
    mapFill bank sector out none s = foundAll (fillReturn bank m bad (event k.ld logFailure 0xA0 k.dpa
      (fillUe m bad (seqAll wmLineRead (sectorLines m.line m.sectors) u)))) := by
  obtain ⟨hlost, hu⟩ := Prod.ext_iff.mp hd
  simp only [mapFill, hm, hw, hk, Bool.false_eq_true, if_false, Bool.not_false, Bool.and_true, decide_eq_true_eq]
  exact (if_neg (hlost ▸ hbad)).trans (hlost ▸ hu ▸ rfl)

/-- Without poison markers a clean line decodes and changes nothing. -/
theorem wmDecode_clean (line : Nat) (h : s.wm.markers = []) : wmDecode line .clean s = (true, s) := by
  simp [wmDecode, State.wmOut, h]

theorem Miss.decoded_clean (m : Miss) (sector : Nat) (h : s.wm.markers = []) : m.decoded sector .clean s = (0, s) := by
  have hstep (k : Nat) : m.decode sector .clean (0, s) k = (0, s) := by
    simp [Miss.decode, wmDecode_clean _ h]
  exact foldl_keeps (Q := fun p => p = (0, s)) (fun p k hp => hp ▸ hstep k) rfl

theorem filter_testBit_two_pow (n : Fin 8) : (List.range 8).filter (fun i => (2 ^ n.val).testBit i) = [n.val] := by
  revert n; decide

theorem Miss.decoded_uncorrectable {n : Fin 8} (loc : WmLoc) (hs : m.sectors = 2 ^ n.val) :
    m.decoded n.val (.uncorrectable loc) s = (2 ^ n.val, wmUe (s.wmLoc (m.line * 8 + n.val) loc.dev) s) := by
  have htells : m.tells n.val = n.val := by simp [Miss.tells, hs, Nat.testBit_two_pow_self]
  simp [Miss.decoded, hs, filter_testBit_two_pow, Miss.decode, htells, wmDecode, State.wmOut]

theorem sectorLines_two_pow (line : Nat) (n : Fin 8) : sectorLines line (2 ^ n.val) = [line * 8 + n.val] := by
  simp [sectorLines, filter_testBit_two_pow]

end

/-! ### Probes (R78) -/

section
variable {v src kid loc : Nat} {p : Probe} {s : State}

theorem xlatProbe_of_unbacked (hv : v.testBit 63 = true) (hb : s.backed (v / 2 ^ 52 % 16) (v % 2 ^ 52 / 64 * 64) = false) :
    (xlatProbe v s).xlat.probe = some ⟨v / 2 ^ 52 % 16, v % 2 ^ 52 / 64 * 64, none, false⟩ ∧
      (xlatProbe v s).get F.XLAT_PROBE_RESULT_DONE = 0 := by
  unfold xlatProbe
  rw [if_pos hv]
  simp only [hb, Bool.false_eq_true, if_false]
  exact ⟨rfl, State.get_setF_self _ _ _⟩

/-- Without lookups that wait, a probe that runs is replaced at once. -/
theorem xlatProbe_of_backed (hv : v.testBit 63 = true) (hb : s.backed (v / 2 ^ 52 % 16) (v % 2 ^ 52 / 64 * 64) = true)
    (hm : s.xlat.misses = []) (hw : s.xlat.stalled = []) :
    xlatProbe v s = foundAll (lookStart ⟨.probe, v / 2 ^ 52 % 16, v % 2 ^ 52 / 64 * 64, none, 0⟩ (setF F.XLAT_PROBE_RESULT_DONE 0
      (s.modXlat (fun x => { x with probe := some ⟨v / 2 ^ 52 % 16, v % 2 ^ 52 / 64 * 64, none, false⟩ })))) := by
  unfold xlatProbe
  rw [if_pos hv]
  simp only [hb, if_true, State.modXlat, hm, hw, List.map_nil, List.filter_nil]

theorem probeResult_of_ended (hp : s.xlat.probe = some p) (hf : s.inFlight = []) (ho : s.probeOf p = some (src, kid, loc)) :
    probeResult s = settle (setF F.XLAT_PROBE_RESULT_DONE 1 (setF F.XLAT_PROBE_RESULT_LOC loc (setF F.XLAT_PROBE_RESULT_KID kid
      (setF F.XLAT_PROBE_RESULT_SOURCE src (s.modXlat (fun x => { x with probe := none })))))) := by
  simp [probeResult, hp, hf, ho]

theorem State.probeOf_of_unbacked (h : s.backed p.ld p.dpa = false) : s.probeOf p = some (0, 0, 0) := by
  simp [State.probeOf, h]

theorem State.probeOf_of_coalesced {fo fr : Nat} {l : CLine} (hb : s.backed p.ld p.dpa = true) (hf : p.found = some (fo, fr))
    (hp : p.bad = false) (ht : foType fo ≠ 3) (hl : s.cline p.ld p.dpa = some l) : s.probeOf p = some (1, foKid fo, l.tok) := by
  simp [State.probeOf, hb, hf, hp, ht, hl]

end

/-! ### Sector rebuilds (R70, R192) -/

section
variable {sector : Nat} {bad0 bad1 : List Nat} {s : State}

theorem rebuildSectors_of_one (h : s.xlat.rebuilding = [(sector, 1)]) :
    rebuildSectors bad0 bad1 s = settle (sectorBuild bad0 bad1 sector (s.modXlat (fun x => { x with rebuilding := [] }))) := by
  simp [rebuildSectors, h, seqAll]

/-- Neither copy stands on media. -/
theorem sectorBuild_of_no_ckpt (h : s.dur.ckpts = []) : sectorBuild bad0 bad1 sector s = sectorGone sector s := by
  simp [sectorBuild, h]

/-- Words stored one after another from `base` on. -/
theorem tgetD_foldl_tput (base : Nat) (f : Nat → Nat) (t : Tbl Nat) {n k : Nat} (hk : k < n) :
    tgetD 0 ((List.range n).foldl (fun t i => tput 0 t (base + i) (f i)) t) (base + k) = f k := by
  induction n with
  | zero => omega
  | succ n ih =>
    rw [List.range_succ, List.foldl_append]
    by_cases h : k = n
    · subst h
      exact tgetD_tput_self 0 _ _ _
    · exact (tgetD_tput_ne 0 _ _ (by omega)).trans (ih (by omega))

theorem sectorBuild_words {c : Ckpt} {k : Nat} (h : s.dur.ckpts = [c]) (hk : k < 8) :
    tgetD 0 (sectorBuild [] [] sector s).wm.words (sector * 8 + k) = (s.sectorWords c sector).getD k 0 := by
  simp only [sectorBuild, h]
  exact tgetD_foldl_tput (sector * 8) (fun i => (s.sectorWords c sector).getD i 0) s.wm.words hk

end

/-- Settles O13: each clause by the equation of its row. -/
theorem fillsProbesAndSectorRebuildsEnd : Obligations.FillsProbesAndSectorRebuildsEnd := by
  unfold Obligations.FillsProbesAndSectorRebuildsEnd
  refine ⟨?fillClean, ?fillFailed, ?probeUnbacked, ?probeBacked, ?result, ?unbacked, ?coalesced, ?rebuild, ?words, ?gone⟩
  case fillClean =>
    intro bank sector m s hm hw hmark
    exact congrArg (fun u => Host.Outcome.next (after u)) (mapFill_of_decoded hm hw (m.decoded_clean _ hmark))
  case fillFailed =>
    intro bank sector m k l loc s hm hw _ hs hk
    have hbad : 2 ^ sector.val ≠ 0 := Nat.ne_of_gt (Nat.two_pow_pos _)
    refine ⟨_, congrArg (fun u => Host.Outcome.next (after u))
      (mapFill_of_failed hm hw (Miss.decoded_uncorrectable loc hs) hbad hk), ?_⟩
    rw [fillUe, hs, sectorLines_two_pow, List.map_singleton]
  case probeUnbacked =>
    intro _ v s ld dpa hv hb
    exact ⟨xlatProbe v.toNat s, rfl, xlatProbe_of_unbacked hv hb⟩
  case probeBacked =>
    intro _ v s ld dpa hv hb hm hw
    exact congrArg Host.Outcome.next (xlatProbe_of_backed hv hb hm hw)
  case result =>
    intro p src kid loc s hp hf ho
    exact congrArg Host.Outcome.next (probeResult_of_ended hp hf ho)
  case unbacked => exact fun _ _ h => State.probeOf_of_unbacked h
  case coalesced => exact fun _ _ _ _ _ => State.probeOf_of_coalesced
  case rebuild =>
    intro sector bad0 bad1 s h
    exact congrArg (fun u => Host.Outcome.next (after u)) (rebuildSectors_of_one h)
  case words => exact fun _ _ _ _ => sectorBuild_words
  case gone => exact fun _ _ _ _ => sectorBuild_of_no_ckpt

end Sys2Proof.Machine
end

section
/-! PROOFS. The statements of 04_media_channels.md: how fabric commands start, are suspended and end, and how a live reload runs. -/

namespace Sys2Proof.Machine

/-! ### Outcomes -/

section
variable {t u : State}

theorem next_congr (h : t = u) : (Host.Outcome.next t : Host.Outcome State Fault Refusal) = .next u := by
  rw [h]

theorem next_after_congr (h : t = u) : (Host.Outcome.next (after t) : Host.Outcome State Fault Refusal) = .next (after u) := by
  rw [h]

end

/-! ### Keys of register fields -/

/-- Two fields of one register have different keys. -/
theorem Fld.key_ne_of_lo {f g : Fld} (hoff : f.off = g.off) (hlo : (f.lo == g.lo) = false) : f.key ≠ g.key := by
  have := beq_eq_false_iff_ne.mp hlo
  unfold Fld.key
  omega

/-- So have fields of different registers. -/
theorem Fld.key_ne_of_off {f g : Fld} (hf : f.lo < 64) (hg : g.lo < 64) (hoff : f.off ≠ g.off) : f.key ≠ g.key := by
  unfold Fld.key
  omega

/-! ### What the shared operations leave: the media, the register fields -/

section
variable (f : Fld) (v n : Nat) (s : State)

@[simp] theorem setF_med : (setF f v s).med = s.med := rfl
@[simp] theorem setF_glb : (setF f v s).glb = s.glb := rfl
@[simp] theorem incF_med : (incF f n s).med = s.med := rfl
@[simp] theorem cnt_med (b i : Nat) : (cnt b i n s).med = s.med := rfl

@[simp] theorem msixSend_med (view vector : Nat) : (msixSend view vector s).med = s.med := by
  unfold msixSend
  split <;> rfl

@[simp] theorem raiseInt_med (b : Nat) : (raiseInt b s).med = s.med := by
  unfold raiseInt
  dsimp only
  split
  · rfl
  · split <;> simp

@[simp] theorem setErr_med (cause : Nat) : (setErr f cause s).med = s.med := by
  unfold setErr
  split <;> simp

@[simp] theorem wakeCh_med : (wakeCh n s).med = s.med := by
  unfold wakeCh
  split <;> rfl

@[simp] theorem State.get_emit (o : Out) : (emit o s).get f = s.get f := rfl
@[simp] theorem State.get_cnt (b i : Nat) : (cnt b i n s).get f = s.get f := rfl
@[simp] theorem State.get_modDie (g : DieSt → DieSt) : (modDie n g s).get f = s.get f := rfl
@[simp] theorem State.get_dropLatches : (dropLatches n s).get f = s.get f := rfl

theorem State.get_setF_one {f : Fld} (s : State) (h : f.wid = 1) : (setF f 1 s).get f = 1 := by simp [h]

theorem State.get_incF_ne {f g : Fld} (n : Nat) (s : State) (h : g.key ≠ f.key) : (incF f n s).get g = s.get g :=
  State.get_setF_ne _ s h

/-- An error bit that is set leaves the other fields as they are. -/
theorem State.get_setErr_ne {f g : Fld} (cause : Nat) (s : State) (h : g.key ≠ f.key) : (setErr f cause s).get g = s.get g := by
  unfold setErr
  split
  · rfl
  · rw [State.get_congr (raiseInt_regs _ _), State.get_setF_ne _ s h]

theorem State.get_when_setErr_ne {f g : Fld} (b : Bool) (cause : Nat) (s : State) (h : g.key ≠ f.key) :
    (when b (setErr f cause) s).get g = s.get g := by
  cases b
  · rfl
  · exact State.get_setErr_ne cause s h

@[simp] theorem when_setErr_med (b : Bool) (cause : Nat) : (when b (setErr f cause) s).med = s.med := by
  cases b
  · rfl
  · exact setErr_med f s cause

@[simp] theorem State.die_setF : (setF f v s).die n = s.die n := rfl
@[simp] theorem State.die_incF (k : Nat) : (incF f k s).die n = s.die n := rfl
@[simp] theorem State.die_cnt (b i k : Nat) : (cnt b i k s).die n = s.die n := rfl
@[simp] theorem State.die_emit (o : Out) : (emit o s).die n = s.die n := rfl
@[simp] theorem State.die_dropLatches (k : Nat) : (dropLatches k s).die n = s.die n := rfl
@[simp] theorem State.die_modDie (g : DieSt → DieSt) : (modDie n g s).die n = g (s.die n) := tgetD_tput_self _ _ _ _

end

/-! ### Reads start (R82, R87, R91, R97, R100) -/

section
variable {c d p f r mask pfa level : Nat} {offs : List Int} {sweep : Int} {s : State}

theorem fabRead_of_served (hs : s.readStarts c d p false = true) (hr : s.readRefused c d (mkPfa c d p f r) = false)
    (ht : s.readTurn (mkPfa c d p f r) mask offs = true) (hw : s.windowOpen c d p = true)
    (hl : tget s.med.latches (planeNo c d p) ≠ some (mkPfa c d p f r, offs)) :
    fabRead c d p f r mask offs s = arrayRead (mkPfa c d p f r)
      (putPlane (planeNo c d p) (.read (mkPfa c d p f r) mask offs false)
        (windowCount c d (wakeCh c (aheadCount c (mkPfa c d p f r) mask offs s)))) := by
  simp [fabRead, hs, hr, ht, hw, hl]

theorem fabRead_of_refused (hs : s.readStarts c d p false = true) (hr : s.readRefused c d (mkPfa c d p f r) = true) :
    fabRead c d p f r mask offs s = emit (.fabric c d 1 1) (wakeCh c s) := by
  simp [fabRead, hs, hr, fabricOut]

theorem fabReadLatch_of_latched (hl : tget s.med.latches (planeNo c d p) = some (pfa, offs)) (hs : s.readStarts c d p false = true)
    (ht : s.readTurn pfa mask offs = true) (hw : s.windowOpen c d p = true) :
    fabReadLatch c d p mask s = latchRead c d p pfa mask offs s := by
  simp [fabReadLatch, hl, hs, ht, hw]

@[simp] theorem aheadCount_med : (aheadCount c pfa mask offs s).med = s.med := by
  unfold aheadCount
  dsimp only
  split <;> simp

@[simp] theorem windowCount_planes : (windowCount c d s).med.planes = s.med.planes := by
  unfold windowCount
  split <;> rfl

@[simp] theorem windowCount_latches : (windowCount c d s).med.latches = s.med.latches := by
  unfold windowCount
  split <;> rfl

/-- A transfer from the latch occupies the plane. -/
theorem latchRead_plane : tget (latchRead c d p pfa mask offs s).med.planes (planeNo c d p) = some (.read pfa mask offs true) := by
  simp [latchRead]

/-- A transfer from the latch keeps every latch (R100). -/
theorem latchRead_latches : (latchRead c d p pfa mask offs s).med.latches = s.med.latches := by
  simp [latchRead]

theorem fabReadStar_of_served (hs : s.readStarts c d p true = true) (hr : s.readRefused c d (mkPfa c d p f r) = false)
    (ht : s.starTurn (planeNo c d p) = true) (hw : s.windowOpen c d p = true) :
    fabReadStar c d p f r level sweep s = arrayRead (mkPfa c d p f r)
      (putPlane (planeNo c d p) (.star (mkPfa c d p f r) level sweep) (windowCount c d (wakeCh c s))) := by
  simp [fabReadStar, hs, hr, ht, hw]

end

/-! ### Programs and erases start (R82, R87, R91 to R93) -/

section
variable {c d op : Nat} {pfas : List Nat} {mode1 : Bool} {rows : List PlaneRow} {s : State}

theorem dieStart_get_op : (dieStart c d op pfas s).get (F.MCH_DIE_STATUS_OP c d) = op % 4 := by
  simp (disch := exact Fld.key_ne_of_lo rfl rfl) only [dieStart, State.get_setF_ne]
  exact State.get_setF_self _ _ _

theorem dieStart_get_suspCount : (dieStart c d op pfas s).get (F.MCH_DIE_STATUS_SUSP_COUNT c d) = 0 := by
  simp (disch := exact Fld.key_ne_of_lo rfl rfl) only [dieStart, State.get_setF_ne]
  exact State.get_setF_self _ _ _

/-- The images of a PROGRAM whose rows may be programmed now go to the die. -/
theorem fabProgram_of_images {rs : List (Nat × MRow)} {u : State}
    (hpfas : pfas = rows.map (fun r => mkPfa c d r.plane.val r.field.val r.row.val))
    (hrows : rows ≠ []) (hplane : onePerPlane rows = true) (hmay : s.mayProgram c d = true) (hmode : (pfas.all fun p => s.oneBit p == mode1) = true)
    (hwhole : (if mode1 then s.quadWhole1 c d pfas else !s.sealedWaits (groupOf c d) && s.quadWhole c d pfas) = true)
    (hfirst : s.hostFirst c d = false ∨ ∀ p ∈ pfas, s.streamOf p ≠ some streamCollect ∧ s.streamOf p ≠ some streamCold)
    (himg : images mode1 pfas s = some (rs, u)) :
    fabProgram c d mode1 rows s =
      modDie (dieNo c d) (fun _ => { DieSt.reset with op := .program mode1 rs, since := s.now }) (dieStart c d 1 pfas u) := by
  have hhost : (s.hostFirst c d && pfas.any (fun p => s.streamOf p == some streamCollect || s.streamOf p == some streamCold)) = false := by
    rcases hfirst with h | h
    · simp [h]
    · simpa using fun _ => h
  subst hpfas
  unfold fabProgram
  dsimp only
  rw [hmay, hmode, hplane, hwhole, hhost, himg]
  simp [hrows]

/-- The fields of the rows of an ERASE that all wait for it are erased together. -/
theorem fabErase_of_waiting (hpfas : pfas = rows.map (fun r => mkPfa c d r.plane.val r.field.val 0))
    (hrows : rows ≠ []) (hplane : onePerPlane rows = true) (hmay : s.mayErase c d s.drainingPlates = true)
    (hseal : s.sealedWaits (groupOf c d) = false) (hprog : s.programWaits c d = false)
    (hwait : ∀ p ∈ pfas, s.eraseWaits p = true ∧ mode1 = s.setMode1 (setOf p) ∧ pfaField p = lowField pfas)
    (hall : ∀ k < 4, s.eraseWaits (mkPfa c d k (lowField pfas) 0) = true → ∃ p ∈ pfas, pfaPlane p = k) :
    fabErase c d mode1 rows s =
      modDie (dieNo c d) (fun _ => { DieSt.reset with op := .erase mode1 (pfas.map pfaFieldNo), since := s.now }) (dieStart c d 2 pfas s) := by
  have hrest : (pfas.all fun p => s.eraseWaits p && mode1 == s.setMode1 (setOf p) && pfaField p == lowField pfas) = true := by
    simpa [and_assoc] using hwait
  have hplanes : ((List.range 4).all fun k => !s.eraseWaits (mkPfa c d k (lowField pfas) 0) || pfas.any (fun p => pfaPlane p == k)) = true := by
    refine List.all_eq_true.mpr fun k hk => ?_
    cases hw : s.eraseWaits (mkPfa c d k (lowField pfas) 0) with
    | false => rfl
    | true =>
      obtain ⟨p, hp, he⟩ := hall k (List.mem_range.mp hk) hw
      exact List.any_eq_true.mpr ⟨p, hp, beq_iff_eq.mpr he⟩
  subst hpfas
  unfold fabErase
  dsimp only
  rw [hmay, hseal, hprog, hplane, hrest, hplanes]
  simp [hrows]

theorem pfaPlane_lt (p : Nat) : pfaPlane p < 4 := Nat.mod_lt _ (by decide)

/-- A single row names the field. -/
theorem lowField_singleton (p : Nat) : lowField [p] = pfaField p := by
  have hlt := pfaPlane_lt p
  have hplane : pfaPlane p = 0 ∨ pfaPlane p = 1 ∨ pfaPlane p = 2 ∨ pfaPlane p = 3 := by omega
  have hrange : List.range 4 = [0, 1, 2, 3] := rfl
  unfold lowField
  rw [hrange]
  rcases hplane with h | h | h | h
  · simp [h]
  · simp [h]
  · simp [h]
  · simp [h]

end

/-! ### SUSPEND and RESUME (R97) -/

section
variable {c d : Nat} {s : State}

/-- The status of a die lies above the suspend counters of its channel. -/
theorem dieStatus_key_ne_suspCnt {f g : Fld} (hf : f.off = (F.MCH_DIE_STATUS_OP c d).off) (hflo : f.lo < 64)
    (hg : g.off = (F.MCH_SUSP_CNT_SLICES c).off) (hglo : g.lo < 64) : f.key ≠ g.key := by
  refine Fld.key_ne_of_off hflo hglo ?_
  rw [hf, hg]
  simp only [F.MCH_DIE_STATUS_OP, F.MCH_SUSP_CNT_SLICES]
  omega

theorem fabSuspend_result (h : s.suspendable c d = true) :
    ((fabSuspend c d s).die (dieNo c d)).suspending = true ∧
    (fabSuspend c d s).get (F.MCH_DIE_STATUS_SUSP_COUNT c d) = min 8 (s.get (F.MCH_DIE_STATUS_SUSP_COUNT c d) + 1) := by
  rw [fabSuspend, if_pos h]
  refine ⟨by simp, ?_⟩
  have hkey : (F.MCH_DIE_STATUS_SUSP_COUNT c d).key ≠ (F.MCH_SUSP_CNT_SUSPENDS c).key :=
    dieStatus_key_ne_suspCnt (d := d) rfl (show 52 < 64 by decide) rfl (show 0 < 64 by decide)
  rw [State.get_cnt, State.get_incF_ne _ _ hkey]
  exact State.get_setF_lt _ (Nat.lt_of_le_of_lt (Nat.min_le_left _ _) (show 8 < 2 ^ 4 by decide))

theorem suspendDone_result (h : (s.die (dieNo c d)).suspending = true) :
    ((suspendDone c d s).die (dieNo c d)).suspending = false ∧ (suspendDone c d s).get (F.MCH_DIE_STATUS_SUSPENDED c d) = 1 ∧
    ((suspendDone c d s).die (dieNo c d)).op = (s.die (dieNo c d)).op := by
  rw [suspendDone, if_pos h]
  simp only [fabricOut]
  exact ⟨by simp, by rw [State.get_emit, State.get_setF_one _ rfl], by simp⟩

/-- RESUME where the scheduler's rule for it holds. -/
theorem fabResume_eq_dieResume (h : s.windowReads c d = false ∨ s.get (F.MCH_SCHED_CFG_WIN_READS c) ≤ (s.die (dieNo c d)).win ∨
    s.get (F.MCH_SCHED_CFG_WIN_US c) * 1000 ≤ s.now - (s.die (dieNo c d)).winAt) : fabResume c d s = dieResume c d s := by
  simp [fabResume, or_assoc, h]

/-- The suspended die without its reads is resumed; from the eighth suspend on a progress slice starts. -/
theorem dieResume_result (hs : s.dieSuspended c d = true) (hr : s.dieReads (dieNo c d) = false) :
    (dieResume c d s).get (F.MCH_DIE_STATUS_SUSPENDED c d) = 0 ∧
    (8 ≤ s.get (F.MCH_DIE_STATUS_SUSP_COUNT c d) → (dieResume c d s).get (F.MCH_DIE_STATUS_SLICE c d) = 1) ∧
    (s.get (F.MCH_DIE_STATUS_SUSP_COUNT c d) < 8 →
      (dieResume c d s).get (F.MCH_DIE_STATUS_SLICE c d) = s.get (F.MCH_DIE_STATUS_SLICE c d)) := by
  generalize hu : emit (.fabric c d 7 0) (modDie (dieNo c d) (fun x => { x with since := s.now })
    (setF (F.MCH_DIE_STATUS_SUSPENDED c d) 0 (dropLatches (dieNo c d) s))) = u
  have hsusp : u.get (F.MCH_DIE_STATUS_SUSPENDED c d) = 0 := by simp [← hu]
  have hslice : u.get (F.MCH_DIE_STATUS_SLICE c d) = s.get (F.MCH_DIE_STATUS_SLICE c d) := by
    simp (disch := exact Fld.key_ne_of_lo rfl rfl) [← hu, State.get_setF_ne]
  have hcnt {f : Fld} (hf : f.off = (F.MCH_DIE_STATUS_OP c d).off) (hlo : f.lo < 64) (t : State) :
      (cnt (bMCH c) 8 1 (incF (F.MCH_SUSP_CNT_SLICES c) 1 t)).get f = t.get f :=
    State.get_incF_ne _ _ (dieStatus_key_ne_suspCnt hf hlo rfl (by simp [F.MCH_SUSP_CNT_SLICES]))
  simp only [dieResume, hs, hr, fabricOut, hu, when, Bool.not_false, Bool.and_true, if_true, decide_eq_true_eq]
  split
  case isTrue h =>
    rw [hcnt (f := F.MCH_DIE_STATUS_SUSPENDED c d) rfl (show 59 < 64 by decide),
      hcnt (f := F.MCH_DIE_STATUS_SLICE c d) rfl (show 58 < 64 by decide), State.get_setF_one _ rfl]
    simp (disch := exact Fld.key_ne_of_lo rfl rfl) only [State.get_setF_ne]
    exact ⟨hsusp, fun _ => trivial, fun hlt => absurd h (by omega)⟩
  case isFalse h => exact ⟨hsusp, fun hle => absurd hle h, fun _ => hslice⟩

theorem progressSliceEnd_result (c : Fin 32) (d : Fin 8) (h : s.on (F.MCH_DIE_STATUS_SLICE c.val d.val) = true) :
    ∃ t, execProgressSliceEnd c d s = .next t ∧ t.get (F.MCH_DIE_STATUS_SLICE c.val d.val) = 0 ∧
      t.get (F.MCH_DIE_STATUS_SUSP_COUNT c.val d.val) = 0 := by
  rw [execProgressSliceEnd, if_pos h]
  refine ⟨_, rfl, ?_, by simp⟩
  simp (disch := exact Fld.key_ne_of_lo rfl rfl) [State.get_setF_ne]

end

/-! ### IDENT, RESET_DIE, TRAIN (R87, R88) -/

section
variable {c d step : Nat} {s : State}

theorem fabIdent_of_idle (hc : s.chTakes c true = true) (ho : (s.die (dieNo c d)).op = .none) (hr : s.dieReads (dieNo c d) = false) :
    fabIdent c d s = modDie (dieNo c d) (fun _ => { DieSt.reset with op := .ident }) (dropLatches (dieNo c d) (wakeCh c s)) := by
  simp [fabIdent, hc, ho, hr]

theorem fabResetDie_of_taken (hc : s.chTakes c true = true) :
    fabResetDie c d s = modDie (dieNo c d) (fun _ => { DieSt.reset with op := .resetDie }) (wakeCh c (abortDie c d s)) := by
  rw [fabResetDie, if_pos hc]

theorem fabTrain_of_free (hc : s.chTakes c true = true) (hstep : 1 ≤ step) (ht : tget s.med.training c = none) :
    fabTrain c step s = wakeCh c (s.modMed (fun m => { m with training := tset m.training c step })) := by
  simp [fabTrain, hc, hstep, ht]

end

/-! ### Reads end (R87, R90, R95, R101) -/

/-- Updates that change nothing, in order. -/
theorem seqAll_eq_self {α : Type} {f : α → State → State} {l : List α} (hf : ∀ a ∈ l, ∀ t, f a t = t) (s : State) : seqAll f l s = s := by
  induction l generalizing s with
  | nil => rfl
  | cons a l ih =>
    obtain ⟨ha, hl⟩ := List.forall_mem_cons.mp hf
    exact (congrArg _ (ha s)).trans (ih hl s)

/-- Changes of the media that agree on what stands there. -/
theorem State.modMed_congr {f g : MedSt → MedSt} {s : State} (h : f s.med = g s.med) : s.modMed f = s.modMed g := by
  simp [State.modMed, h]

section
variable {plane pfa mask level e14 e15 ns : Nat} {offs : List Int} {sweep : Int} {l : Bool} {outs : List (Nat × LeafOut)} {s : State}

theorem planeOut_of_read (h : tget s.med.planes plane = some (.read pfa mask offs l)) :
    planeOut plane false s = emit (.fabric (plane / 32) (plane / 4 % 8) (if l then 2 else 1) 0) s := by
  simp [planeOut, h, fabricOut]

theorem planeOut_of_star (h : tget s.med.planes plane = some (.star pfa level sweep)) :
    planeOut plane true s = emit (.fabric (plane / 32) (plane / 4 % 8) 3 0) s := by
  simp [planeOut, h, fabricOut]

/-- READ_COMPLETE: the fabric reports the read, the plane is free, its row stands in the latch, and each leaf goes to the reads that
wanted it. -/
theorem readComplete_of_read (h : tget s.med.planes plane = some (.read pfa mask offs l)) :
    readComplete plane outs ns (planeOut plane false s) =
      settle (seqAll (fun q t => readGot q outs ns t) (s.med.reads.filter (fun q => s.wants q pfa mask offs))
      ((Says.leavesIn pfa mask outs (s.med.reads.filter (fun q => s.wants q pfa mask offs))
        ((emit (.fabric (plane / 32) (plane / 4 % 8) (if l then 2 else 1) 0) s).modMed (fun m =>
        { m with planes := terase m.planes plane, latches := tset m.latches plane (pfa, offs) }))).modMed (fun m =>
        { m with cancelled := m.cancelled.filter (fun p => !(p.1 == pfa && mask.testBit p.2)) }))) := by
  have hemit (o : Out) : tget (emit o s).med.planes plane = some (.read pfa mask offs l) := h
  rw [planeOut_of_read h]
  simp only [readComplete, hemit]
  rfl

/-- Of a mask with its lowest bit alone, leaf 0 arrives. -/
theorem leavesIn_one : Says.leavesIn pfa 1 [] [] s = leafArrived pfa 0 .clean 0 false false s := by
  have hrest : ∀ j ∈ (List.range 64).map Nat.succ, Nat.testBit 1 j = false := by simp [Nat.testBit_succ]
  rw [Says.leavesIn, List.range_succ_eq_map, seqAll, seqAll_eq_self (fun j hj t => if_neg (by rw [hrest j hj]; decide))]
  simp [outOf]

/-! ### Star reads end (R110, R120) -/

theorem starComplete_of_free (h : tget s.med.planes plane = some (.star pfa level sweep)) (hm : s.measAt pfa = none) (res : Nat) :
    starComplete plane res e14 e15 s = s.modMed (fun m => { m with planes := terase m.planes plane }) := by
  simp [starComplete, h, hm]

/-- READ_STAR_COMPLETE of a probe that the fabric did not refuse. -/
theorem execReadStarComplete_of_star (plane : Fin 1024) (e14 e15 : Fin 577)
    (h : tget s.med.planes plane.val = some (.star pfa level sweep)) : execReadStarComplete plane false e14 e15 s =
      .next (starComplete plane.val 0 e14.val e15.val (emit (.fabric (plane.val / 32) (plane.val / 4 % 8) 3 0) s)) := by
  simp [execReadStarComplete, planeOut_of_star h]

variable {m : Meas} (h : tget s.med.planes plane = some (.star pfa level sweep)) (hm : s.measAt pfa = some m)
include h hm

theorem starComplete_of_refused {res : Nat} (hres : res ≠ 0) : starComplete plane res e14 e15 s =
    measShift (·.set == m.set) (measReject m (s.modMed (fun m => { m with planes := terase m.planes plane }))) := by
  simp [starComplete, h, hm, hres]

/-- A probe at the level and sweep that the measurement waits for feeds it. -/
theorem starComplete_of_waited (hl : level = 15) (hs : sweep = s.measSweep m) : starComplete plane 0 e14 e15 s =
    measShift (·.set == m.set) (measProbe m (min e14 (starCells 0 14)) (min e15 (starCells 0 15))
      (s.modMed (fun m => { m with planes := terase m.planes plane }))) := by
  simp [starComplete, h, hm, hl, hs]

theorem starComplete_of_other (hn : ¬ (level = 15 ∧ sweep = s.measSweep m)) : starComplete plane 0 e14 e15 s =
    measShift (·.set == m.set) (s.modMed (fun m => { m with planes := terase m.planes plane })) := by
  simp [starComplete, h, hm, hn]

end

/-! ### A read is served (R125) -/

theorem serveRead_of_data {q : RdReq} {r : HReq} {ns kid : Nat} {d : Line} {s t : State} (hsrc : q.src = .host r) (hhdr : q.hdr = false)
    (hrow : (s.row q.pfa).map (·.kid) = some kid)
    (hdata : mediaLine q.pfa r.ld (folioOf r.dpa) (frameOf r.dpa) kid q.line (laneCount 1 (dropRead q s)) = (d, t)) :
    serveRead q ns s = latencyMiss r.ld ns (!r.waited && !q.ext && decide (q.step = 0) &&
      decide (s.get (F.MCH_UTIL_LAST (pfaCh q.pfa)) ≤ 700) && s.chUp (pfaCh q.pfa))
        (when (decide (1 ≤ q.step)) (fun u => measOwnStart (setOf q.pfa) false (incF F.DRIFT_EXT_CNT_LADDER 1 u))
          (cnt (bLD r.ld) 9 ns (sendData r (mergeLine q.ovMask d q.ovData) false t))) := by
  simp [serveRead, hsrc, hhdr, hrow, hdata]

/-! ### Rebuilds end (R95, R107) -/

section
variable {id ns : Nat} {r : Rebuild} {ok : Bool} {s : State}

/-- The rebuild failed: its own reads go, and those that waited for it go on without it. -/
def rebuildLose (id : Nat) (r : Rebuild) (s : State) : State :=
  setErr (F.MCH_ERR_STATUS_REBUILD_FAIL (pfaCh r.pfa)) intMch (s.modMed (fun m =>
    { m with rebuilds := m.rebuilds.map (fun x => if x.id = id then { x with failed := true, left := [] } else x)
             reads := m.reads.filter (fun q => match q.src with | .rebuild i _ => i != id | _ => true) }))

/-- The rebuild is done: its leaf stands in the leaf buffer. -/
def rebuildGain (id : Nat) (r : Rebuild) (s : State) : State :=
  bufferLeaves r.pfa [r.leaf] false (s.modMed (fun m =>
    { m with rebuilds := m.rebuilds.map (fun x => if x.id = id then { x with done := true } else x) }))

theorem rebuildComplete_of_failed (h : s.med.rebuilds.find? (fun r => r.id == id) = some r)
    (hf : r.failed = true ∨ (r.left = [] ∧ ok = false)) :
    rebuildComplete id ok ns s = settle (keepRebuilds (seqAll (rebuildFailed id) (rebuildLose id r s).med.reads (rebuildLose id r s))) := by
  have hc : (r.failed || (r.left.isEmpty && !ok)) = true := by simpa using hf
  simp only [rebuildComplete, h, hc, if_true]
  rfl

theorem rebuildComplete_of_done (h : s.med.rebuilds.find? (fun r => r.id == id) = some r) (hf : r.failed = false) (hl : r.left = [])
    (hok : ok = true) :
    rebuildComplete id ok ns s = settle (keepRebuilds (seqAll (fun (q : RdReq) t =>
      if (q.rb = some id ∨ q.hrb = some id) ∧ (q.mode = .rebuild ∨ q.step = 4) then takeRebuilt q ns t else t)
        (rebuildGain id r s).med.reads (rebuildGain id r s))) := by
  simp only [rebuildComplete, h, hf, hl, hok]
  rfl

@[simp] theorem bufferLeaves_reads (pfa : Nat) (leaves : List Nat) (ahead : Bool) (s : State) :
    (bufferLeaves pfa leaves ahead s).med.reads = s.med.reads := by
  unfold bufferLeaves wasteAhead
  dsimp only
  split
  · rfl
  · split <;> rfl

/-- Without reads no rebuild is kept. -/
theorem keepRebuilds_of_no_reads (h : s.med.reads = []) : keepRebuilds s = s.modMed (fun m => { m with rebuilds := [] }) := by
  simp [keepRebuilds, h, State.modMed]

end

/-! ### Programs and erases end (R87, R93, R135, R136) -/

section
variable {c d : Nat} {fails : List Nat} {m1 : Bool} {rs : List (Nat × MRow)} {fs : List Nat} {s : State}

theorem programEnd_of_program (h : (s.die (dieNo c d)).op = .program m1 rs) :
    programEnd c d fails s = seqAll (fun x t => if fails.contains (pfaPlane x.1) then rowFail x.1 x.2 t else t) rs
      (seqAll (fun x t => if fails.contains (pfaPlane x.1) then t else rowDone x.1 x.2 t) rs
        (cnt (bMCH c) (if m1 then 5 else 4) 1 (dieIdle c d s))) := by
  simp [programEnd, h]

theorem programComplete_of_program (hs : s.dieSuspended c d = false) (h : (s.die (dieNo c d)).op = .program m1 rs) :
    programComplete c d fails s = settle (programEnd c d fails (emit (.fabric c d 4 (if fails = [] then 0 else 3)) s)) := by
  simp [programComplete, hs, h, fabricOut]

/-- Each field as its plane ended; then the sets whose erase is over. -/
theorem eraseDone_of_erase (h : (s.die (dieNo c d)).op = .erase m1 fs) {u : State}
    (hu : u = seqAll (fun f t => Says.fieldAfterErase c m1 (fails.contains (pfaPlane (f * 8192))) f t) fs (cnt (bMCH c) 6 1 (dieIdle c d s))) :
    eraseDone c d fails s = fldRecount (seqAll eraseSetCheck ((fs.map fieldSet).eraseDups) (setF F.DRIFT_RWQ_DEPTH u.drift.rwq.length u)) := by
  subst hu
  simp only [eraseDone, h]
  rfl

theorem execEraseComplete_of_erase (c : Fin 32) (d : Fin 8) (fails : List (Fin 4)) (hs : s.dieSuspended c.val d.val = false)
    (h : (s.die (dieNo c.val d.val)).op = .erase m1 fs) :
    execEraseComplete c d fails s = .next (eraseDone c d (fails.map (·.val)) (emit (.fabric c.val d.val 5 (if fails = [] then 0 else 4)) s)) := by
  simp [execEraseComplete, hs, h, fabricOut]

end

/-! ### IDENT, RESET_DIE and TRAIN end; a command exceeds its time (R87, R88) -/

section
variable {c d step ns : Nat} {s : State}

theorem dieCmdDone_ident (h : (s.die (dieNo c d)).op = .ident) : dieCmdDone c d 0 true s =
    emit (.fabric c d 8 0) (setF (F.MCH_DIE_STATUS_PRESENT c d) 1 (modDie (dieNo c d) (fun _ => DieSt.reset) s)) := by
  simp [dieCmdDone, h, fabricOut]

theorem dieCmdDone_ident_silent (h : (s.die (dieNo c d)).op = .ident) : dieCmdDone c d 0 false s =
    modDie (dieNo c d) (fun _ => { DieSt.reset with op := .resetDie }) (emit (.fabric c d 8 2)
      (setErr (F.MCH_ERR_STATUS_TIMEOUT c) intMch (modDie (dieNo c d) (fun _ => DieSt.reset) s))) := by
  simp [dieCmdDone, h, fabricOut]

theorem dieCmdDone_resetDie (h : (s.die (dieNo c d)).op = .resetDie) (ok : Bool) : dieCmdDone c d 1 ok s =
    emit (.fabric c d 9 0) (modDie (dieNo c d) (fun _ => DieSt.reset) s) := by
  simp [dieCmdDone, h, fabricOut]

theorem dieCmdDone_train_passed (h : tget s.med.training c = some step) : dieCmdDone c d 2 true s =
    emit (.fabric c d 10 0) (stepPassed c step none (s.modMed (fun m => { m with training := terase m.training c }))) := by
  simp [dieCmdDone, h, fabricOut]

theorem dieCmdDone_train_failed (h : tget s.med.training c = some step) : dieCmdDone c d 2 false s =
    settle (capRecompute (dieOutNow c d (emit (.fabric c d 10 5) (setErr (F.MCH_ERR_STATUS_TRAIN_FAIL c) intMch
      (stepPassed c step (some d) (s.modMed (fun m => { m with training := terase m.training c }))))))) := by
  simp [dieCmdDone, h, fabricOut]

theorem fabricTimeout_read {p pfa mask : Nat} {offs : List Int} {l : Bool}
    (h : tget s.med.planes (planeNo c d p) = some (.read pfa mask offs l)) :
    fabricTimeout c d (some p) ns s = settle (Says.timedOut c d (if l then 2 else 1) (readComplete (planeNo c d p) allUncorrectable ns s)) := by
  simp only [fabricTimeout, h]
  rfl

theorem fabricTimeout_star {p pfa level : Nat} {sweep : Int} (h : tget s.med.planes (planeNo c d p) = some (.star pfa level sweep)) :
    fabricTimeout c d (some p) ns s = settle (Says.timedOut c d 3 (starComplete (planeNo c d p) 2 0 0 s)) := by
  simp only [fabricTimeout, h]
  rfl

section
variable (hs : s.dieSuspended c d = false)
include hs

theorem fabricTimeout_program {m1 : Bool} {rs : List (Nat × MRow)} (h : (s.die (dieNo c d)).op = .program m1 rs) :
    fabricTimeout c d none ns s = settle (Says.timedOut c d 4 (programEnd c d [0, 1, 2, 3] s)) := by
  simp only [fabricTimeout, hs, h, Bool.false_eq_true, if_false]
  rfl

theorem fabricTimeout_erase {m1 : Bool} {fs : List Nat} (h : (s.die (dieNo c d)).op = .erase m1 fs) :
    fabricTimeout c d none ns s = settle (Says.timedOut c d 5 (eraseDone c d [0, 1, 2, 3] s)) := by
  simp only [fabricTimeout, hs, h, Bool.false_eq_true, if_false]
  rfl

theorem fabricTimeout_ident (h : (s.die (dieNo c d)).op = .ident) : fabricTimeout c d none ns s = Says.timedOut c d 8 s := by
  simp only [fabricTimeout, hs, h, Bool.false_eq_true, if_false]
  rfl

end

end

/-! ### Dies that are lost, channels that train and sleep (R88, R99, R105) -/

section
variable {c d : Nat} {s : State}

theorem dieLost_of_serving (hlo : 2 ≤ s.get (F.MCH_STATUS_STATE c)) (hhi : s.get (F.MCH_STATUS_STATE c) < 8)
    (hf : s.on (F.MCH_DIE_STATUS_FAILED c d) = false) :
    dieLost c d s = settle (capRecompute (dieOutNow c d (setErr (F.MCH_ERR_STATUS_DIE_LOST c) intMch s))) := by
  simp [dieLost, hlo, hhi, hf]

theorem dieFail_failed (c d : Nat) (s : State) : (dieFail c d s).get (F.MCH_DIE_STATUS_FAILED c d) = 1 := by
  have hkey : (F.MCH_DIE_STATUS_FAILED c d).key ≠ (F.MCH_STATUS_DIE_OK c).key :=
    Fld.key_ne_of_off (show 62 < 64 by decide) (show 16 < 64 by decide) (by simp only [F.MCH_DIE_STATUS_FAILED, F.MCH_STATUS_DIE_OK]; omega)
  unfold dieFail
  dsimp only
  rw [State.get_setF_ne _ _ hkey, State.get_setF_one _ rfl]

theorem channelSleep_of_idle (hst : s.get (F.MCH_STATUS_STATE c) = chOnline) (hq : s.glb.mode = .quiet)
    (hp : ∀ e ∈ s.med.planes, e.1 / 32 ≠ c) (hd : ∀ e ∈ s.med.dies, e.1 / 8 = c → e.2.op = .none) :
    channelSleep c s = chBufferDrop c (setF (F.MCH_STATUS_STATE c) chSleep s) := by
  have hplanes : (s.med.planes.any fun e => e.1 / 32 == c) = false := by simpa using hp
  have hdies : (s.med.dies.any fun e => e.1 / 8 == c && e.2.op != .none) = false := by simpa using hd
  simp [channelSleep, hst, hq, hplanes, hdies]

theorem utilWindow_result (c : Nat) {permille : Nat} (cycles : Nat) (s : State) (h : permille < 2 ^ 10) :
    (utilWindow c permille cycles s).get (F.MCH_UTIL_LAST c) = permille ∧
    (utilWindow c permille cycles s).get (F.MCH_UTIL_PEAK c) = max permille (s.get (F.MCH_UTIL_PEAK c)) % 1024 := by
  unfold utilWindow
  rw [State.get_cnt, State.get_cnt]
  simp (disch := exact Fld.key_ne_of_lo rfl rfl) only [State.get_setF_ne]
  exact ⟨State.get_setF_lt _ h, State.get_setF_self _ _ _⟩

end

/-! ### Training ends (R88, R105) -/

/-- The numbers of the dies that `g` picks, as a mask. -/
def dieMask (g : Nat → Bool) (n : Nat) : Nat := (List.range n).foldl (fun a d => if g d then a + 2 ^ d else a) 0

theorem dieMask_succ (g : Nat → Bool) (n : Nat) : dieMask g (n + 1) = if g n then dieMask g n + 2 ^ n else dieMask g n := by
  simp [dieMask, List.range_succ]

theorem dieMask_lt (g : Nat → Bool) (n : Nat) : dieMask g n < 2 ^ n := by
  induction n with
  | zero => exact Nat.zero_lt_one
  | succ n ih =>
    rw [dieMask_succ, Nat.pow_succ]
    split <;> omega

theorem dieMask_of_all {g : Nat → Bool} {n : Nat} (h : ∀ d < n, g d = true) : dieMask g n = 2 ^ n - 1 := by
  induction n with
  | zero => rfl
  | succ n ih =>
    have hpos := Nat.two_pow_pos n
    rw [dieMask_succ, if_pos (h n (Nat.lt_succ_self n)), ih (fun d hd => h d (Nat.lt_succ_of_lt hd)), Nat.pow_succ]
    omega

section
variable {c present pass : Nat} {s : State}

/-- The die answered IDENT, passed every step, and no TRAIN has failed it. -/
def dieTrained (c present pass : Nat) (s : State) (d : Nat) : Bool :=
  present.testBit d && pass.testBit d && !s.on (F.MCH_DIE_STATUS_FAILED c d)

/-- The registers of a channel at the end of its training. -/
def trainingShown (c present pass : Nat) (s : State) : State :=
  let ok := dieMask (dieTrained c present pass s) 8
  when (decide (ok ≠ 255)) (setErr (F.MCH_ERR_STATUS_TRAIN_FAIL c) intMch)
    (setF (F.MCH_STATUS_STATE c) (if ok = 0 then 8 else 2) (setF (F.MCH_STATUS_DIE_OK c) ok
      ((seqAll (fun d t => setB (F.MCH_DIE_STATUS_FAILED c d) (!dieTrained c present pass s d)
        (setB (F.MCH_DIE_STATUS_PRESENT c d) (present.testBit d) t)) (List.range 8) s).modMed
          (fun m => { m with training := terase m.training c }))))

theorem trainingDone_of_training (h : s.get (F.MCH_STATUS_STATE c) = 1) :
    trainingDone c present pass s = settle (capRecompute (sweepStart
      (fun x => dieMask (dieTrained c present pass s) 8 != 0 && (chanGroups c).contains (setGroup x))
        (seqAll (fun d t => if dieTrained c present pass s d then t else dieFieldsBad c d t) (List.range 8)
          (seqAll (fun d t => modPhy c d (if dieTrained c present pass s d then 62 else 0) t) (List.range 8)
            (trainingShown c present pass s))))) := by
  simp only [trainingDone, h, if_true]
  rfl

theorem trainingShown_result :
    (trainingShown c present pass s).get (F.MCH_STATUS_DIE_OK c) = dieMask (dieTrained c present pass s) 8 ∧
    (trainingShown c present pass s).get (F.MCH_STATUS_STATE c) = (if dieMask (dieTrained c present pass s) 8 = 0 then 8 else 2) ∧
    tget (trainingShown c present pass s).med.training c = none := by
  have hok := dieMask_lt (dieTrained c present pass s) 8
  generalize hs1 : (seqAll (fun d t => setB (F.MCH_DIE_STATUS_FAILED c d) (!dieTrained c present pass s d)
    (setB (F.MCH_DIE_STATUS_PRESENT c d) (present.testBit d) t)) (List.range 8) s).modMed (fun m => { m with training := terase m.training c }) = s1
  have htrain : tget s1.med.training c = none := hs1 ▸ tget_terase_self _ c
  have hdie : (F.MCH_STATUS_DIE_OK c).key ≠ (F.MCH_ERR_STATUS_TRAIN_FAIL c).key :=
    Fld.key_ne_of_off (show 16 < 64 by decide) (show 6 < 64 by decide) (by simp [F.MCH_STATUS_DIE_OK, F.MCH_ERR_STATUS_TRAIN_FAIL])
  have hstate : (F.MCH_STATUS_STATE c).key ≠ (F.MCH_ERR_STATUS_TRAIN_FAIL c).key :=
    Fld.key_ne_of_off (show 8 < 64 by decide) (show 6 < 64 by decide) (by simp [F.MCH_STATUS_STATE, F.MCH_ERR_STATUS_TRAIN_FAIL])
  have hst : (if dieMask (dieTrained c present pass s) 8 = 0 then 8 else 2) < 2 ^ (F.MCH_STATUS_STATE c).wid := by
    show _ < 2 ^ 4
    split <;> decide
  simp only [trainingShown, hs1]
  rw [State.get_when_setErr_ne _ _ _ hdie, State.get_when_setErr_ne _ _ _ hstate, when_setErr_med, State.get_setF_lt _ hst]
  simp (disch := exact Fld.key_ne_of_lo rfl rfl) only [State.get_setF_ne]
  exact ⟨State.get_setF_lt _ hok, trivial, htrain⟩

/-- Where every die passed, no error shows. -/
theorem trainingShown_glb (h : dieMask (dieTrained c present pass s) 8 = 255) : (trainingShown c present pass s).glb = s.glb := by
  simp only [trainingShown, h, when, ne_eq, not_true_eq_false, decide_false, Bool.false_eq_true, if_false, setF_glb, State.modMed_glb]
  exact seqAll_kept (P := fun t => t.glb = s.glb) (fun _ _ ht => ht) rfl

/-- The training steps of the dies are no register. -/
theorem seqAll_modPhy_frame (g : Nat → Nat) (l : List Nat) (s : State) :
    (seqAll (fun d t => modPhy c d (g d) t) l s).regs = s.regs ∧ (seqAll (fun d t => modPhy c d (g d) t) l s).glb = s.glb :=
  seqAll_kept (P := fun t => t.regs = s.regs ∧ t.glb = s.glb) (fun _ _ ht => ht) ⟨rfl, rfl⟩

end

/-! ### The live reload of a channel (R105 to R107) -/

section
variable {c src : Nat} {i : Image} {g : ChanSeg} {s : State}

theorem quiesceDone_of_rest (h : s.get (F.MCH_STATUS_STATE c) = 4) (hp : ∀ e ∈ s.med.planes, e.1 / 32 ≠ c)
    (hd : ∀ n ∈ groupDies c, ∀ m1 rs, (s.die n).op ≠ .program m1 rs) :
    quiesceDone c s = orphanReads (fun a => pfaCh a == c) (chBufferDrop c (setF (F.MCH_STATUS_STATE c) 5
      (s.modMed (fun m => { m with quiesced := tset m.quiesced c s.now })))) := by
  have hplanes : (s.med.planes.any fun e => e.1 / 32 == c) = false := by simpa using hp
  have hprog : ((groupDies c).any fun n => match (s.die n).op with | .program _ _ => true | _ => false) = false := by
    rw [List.any_eq_false]
    intro n hn
    split
    next e => exact absurd e (hd n hn _ _)
    next => exact Bool.false_ne_true
  unfold quiesceDone
  exact if_pos ⟨h, by rw [Bool.not_eq_true']; exact hprog, by rw [hplanes]; rfl⟩

theorem segmentLoaded_of_segment (h : s.get (F.MCH_STATUS_STATE c) = 5) (hg : s.loadingSeg c = some g) :
    segmentLoaded c true s = setF (F.MCH_STATUS_STATE c) 6 (seqAll (fun d t => modPhy c d 0 t) (List.range 8) (applySeg c g s)) := by
  simp [segmentLoaded, h, hg]

theorem segmentLoaded_of_failure (h : s.get (F.MCH_STATUS_STATE c) = 5) : segmentLoaded c false s = reloadFail c s := by
  simp [segmentLoaded, h]

/-- A first failure goes back to the previous segment. -/
theorem reloadFail_of_first (hr : s.on (F.MCH_STATUS_ROLLBACK c) = false) (ho : (tget s.img.oldSegs c).isSome = true) :
    reloadFail c s = setErr (F.MCH_ERR_STATUS_RELOAD_FAIL c) intMch (setF (F.MCH_STATUS_ROLLBACK c) 1 (setF (F.MCH_STATUS_STATE c) 5 s)) := by
  simp [reloadFail, hr, ho]

theorem retrainDone_of_passed (h : s.get (F.MCH_STATUS_STATE c) = 6) (hd : ∃ d < 8, s.on (F.MCH_DIE_STATUS_FAILED c d) = false) :
    retrainDone c true s = setF (F.MCH_STATUS_STATE c) 7 s := by
  simp [retrainDone, h, hd]

theorem retrainDone_of_failure (h : s.get (F.MCH_STATUS_STATE c) = 6) : retrainDone c false s = reloadFail c s := by
  simp [retrainDone, h]

theorem checkDone_of_failure (h : s.get (F.MCH_STATUS_STATE c) = 7) : checkDone c false s = reloadFail c s := by
  simp [checkDone, h]

/-- RESULT of a reload that came through: 1, or 2 with the previous segment. -/
def State.reloadResult (s : State) (c : Nat) : Nat := if s.on (F.MCH_STATUS_ROLLBACK c) then 2 else 1

/-- The channel is back at the end of CHECK. -/
def chanReturn (c : Nat) (s : State) : State :=
  setF (F.MCH_RECONF_LAST_US c) (min (2 ^ 24 - 1) ((s.now - tgetD s.now s.med.quiesced c) / 1000))
    (setF (F.MCH_RECONF_RESULT c) (s.reloadResult c) (setF (F.MCH_RECONF_BUSY c) 0 (setF (F.MCH_STATUS_STATE c) chOnline s)))

theorem checkDone_of_passed (h : s.get (F.MCH_STATUS_STATE c) = 7) :
    checkDone c true s = settle (capRecompute (reloadEnd (s.reloadResult c) (chanReturn c s))) := by
  simp only [checkDone, h, if_true]
  rfl

theorem chanReturn_result (c : Nat) (s : State) :
    (chanReturn c s).get (F.MCH_STATUS_STATE c) = chOnline ∧ (chanReturn c s).get (F.MCH_RECONF_BUSY c) = 0 ∧
    (chanReturn c s).get (F.MCH_RECONF_RESULT c) = s.reloadResult c := by
  have hres : s.reloadResult c < 2 ^ (F.MCH_RECONF_RESULT c).wid := by
    show _ < 2 ^ 2
    unfold State.reloadResult
    split <;> decide
  have hstate {f : Fld} (hoff : f.off = (F.MCH_RECONF_BUSY c).off) (hlo : f.lo < 64) : (F.MCH_STATUS_STATE c).key ≠ f.key :=
    Fld.key_ne_of_off (show 8 < 64 by decide) hlo (by rw [hoff]; simp [F.MCH_STATUS_STATE, F.MCH_RECONF_BUSY])
  refine ⟨?_, ?_, ?_⟩ <;> unfold chanReturn
  · rw [State.get_setF_ne _ _ (hstate (f := F.MCH_RECONF_LAST_US c) rfl (show 0 < 64 by decide)),
      State.get_setF_ne _ _ (hstate (f := F.MCH_RECONF_RESULT c) rfl (show 30 < 64 by decide)),
      State.get_setF_ne _ _ (hstate (f := F.MCH_RECONF_BUSY c) rfl (show 29 < 64 by decide))]
    exact State.get_setF_lt _ (show 2 < 2 ^ 4 by decide)
  · simp (disch := exact Fld.key_ne_of_lo rfl rfl) [State.get_setF_ne]
  · simp (disch := exact Fld.key_ne_of_lo rfl rfl) only [State.get_setF_ne]
    exact State.get_setF_lt _ hres

/-! ### IMG_RELOAD (12_voxsicel_image.md R306) -/

/-- The register IMG_RELOAD with its fields. -/
def imgReloadReg : RegAt := ⟨0x380020, 32, [F.IMG_RELOAD_GO, F.IMG_RELOAD_UNIT, F.IMG_RELOAD_SRC, F.IMG_RELOAD_CHANNEL]⟩

theorem findReg_imgReload : findReg 0x380020 = some imgReloadReg := by decide

/-- A write of IMG_RELOAD stores its UNIT. -/
theorem storeAt_imgReload_unit (v : Nat) (s : State) : (storeAt 0x380020 v s).get F.IMG_RELOAD_UNIT = v / 2 ^ 24 % 16 := by
  have hw : writtenVal s F.IMG_RELOAD_UNIT 0 v = some (v / 2 ^ 24 % 16) := writtenVal_plain s v (by decide) (by decide) (.inl rfl)
  have hc : comboBad s F.IMG_RELOAD_UNIT 0 v = false := comboBad_eq_false (by decide) s 0 v
  obtain ⟨t, -, ht⟩ := exists_seqAll_writeFld_get (cover := 0) (v := v) (s0 := s) (f := F.IMG_RELOAD_UNIT) (l := imgReloadReg.flds)
    (by decide) (by decide) s
  simp only [storeAt, findReg_imgReload]
  rw [storeReg_eq (by decide), ht, writeFld_of_writes hw hc]
  exact State.get_setF_lt _ (Nat.mod_lt _ (by decide))

theorem putBits_unit (n v : Nat) (hn : n < 16) : putBits 24 4 n v / 2 ^ 24 % 16 = n := by
  unfold putBits
  omega

theorem putBits_testBit_go (n v : Nat) : (putBits 24 4 n v).testBit 31 = v.testBit 31 := by
  have h : putBits 24 4 n v / 2 ^ 31 = v / 2 ^ 31 := by
    unfold putBits
    omega
  rw [Nat.testBit_eq_decide_div_mod_eq, Nat.testBit_eq_decide_div_mod_eq, h]

/-- GO while no reload runs: the write is stored and the unit starts. -/
theorem imgReload_of_go {n v : Nat} (hn : n < 16) (hgo : v.testBit 31 = true) (hb : s.on F.IMG_RELOAD_STATUS_BUSY = false) {u : State}
    (hu : u = storeAt 0x380020 (putBits 24 4 n v) s) :
    imgReload (putBits 24 4 n v) s = unitReload n (u.get F.IMG_RELOAD_CHANNEL) (u.get F.IMG_RELOAD_SRC) u := by
  have hunit : u.get F.IMG_RELOAD_UNIT = n := by rw [hu, storeAt_imgReload_unit, putBits_unit n v hn]
  unfold imgReload
  dsimp only
  rw [putBits_testBit_go, hgo, hb, ← hu, hunit, if_neg (by simp), if_pos rfl]

section
variable (c src : Nat) (s : State)

theorem unitReload_chan : unitReload 1 c src s = chanReload c src s := rfl
theorem unitReload_reg : unitReload 2 c src s = regReload src s := rfl
theorem unitReload_dome : unitReload 3 c src s = domeReload src s := rfl
theorem unitReload_asst : unitReload 4 c src s = asstReload src s := rfl
theorem unitReload_swap : unitReload 5 c src s = swapStart src s := rfl

end

theorem unitReload_of_reserved {n : Nat} (h : n = 0 ∨ 5 < n) (c src : Nat) (s : State) : unitReload n c src s = s := by
  rcases h with rfl | h
  · rfl
  · obtain ⟨k, rfl⟩ : ∃ k, n = k + 6 := ⟨n - 6, by omega⟩
    rfl

/-- A reserved UNIT is stored and starts nothing. -/
theorem execReloadUnitInvalid_of_go (m : Master) (v : BitVec 32) (hgo : v.toNat.testBit 31 = true) (hb : s.on F.IMG_RELOAD_STATUS_BUSY = false)
    {n : Nat} (hv : v.toNat / 2 ^ 24 % 16 = n) (hn : n = 0 ∨ 5 < n) :
    execReloadUnitInvalid m v s = .next (after (storeAt 0x380020 (putBits 24 4 n v.toNat) s)) := by
  unfold execReloadUnitInvalid
  dsimp only
  rw [hv, if_neg (by omega), imgReload_of_go (by omega) hgo hb rfl, unitReload_of_reserved hn]

/-! ### The units of a reload (R307 to R309) -/

theorem chanReload_of_up (hi : s.reloadImage src = some i) (hg : i.segOf c = some g) (ht : s.glb.transTo = none) (hu : s.dome.huOk = true)
    (hoff : s.get (F.MCH_STATUS_STATE c) ≠ 0) (htr : s.get (F.MCH_STATUS_STATE c) ≠ 1) :
    chanReload c src s = quiesceStart c g (reloadBegin 1 c src s) := by
  simp [chanReload, hi, hg, ht, hu, hoff, htr]

theorem reloadRefuse_result {reason : Nat} (hr : reason < 16) (s : State) :
    (reloadRefuse reason s).get F.IMG_RELOAD_STATUS_RESULT = 4 ∧ (reloadRefuse reason s).get F.IMG_RELOAD_STATUS_REASON = reason := by
  unfold reloadRefuse
  simp (disch := exact Fld.key_ne_of_lo rfl rfl) only [State.get_setF_ne]
  exact ⟨State.get_setF_self _ _ _, State.get_setF_lt _ hr⟩

theorem chanReload_of_no_segment (hi : s.reloadImage src = some i) (hg : i.segOf c = none) : chanReload c src s = reloadRefuse 2 s := by
  simp [chanReload, hi, hg]

theorem regReload_of_unlocked (hi : s.reloadImage src = some i) (ht : s.glb.transTo = none) (hl : i.reg.any s.recLocked = false) {u : State}
    (hu : u = regApply i.reg i.regForce (reloadBegin 2 0 src s)) :
    regReload src s = if u.get F.REG_ADMIT_STATUS = 1 then reloadEnd 1 (u.modImg (fun x => { x with reg := some i.reg }))
      else reloadRefuse 6 (reloadEnd 4 u) := by
  subst hu
  simp [regReload, hi, ht, hl]

theorem domeReload_of_unlocked (hi : s.reloadImage src = some i) (ht : s.glb.transTo = none) (hl : i.domeRegs.any s.recLocked = false) :
    domeReload src s = (domePut i.dome i.domeRegs (reloadBegin 3 0 src s)).modImg (fun x => { x with dome := some i.dome }) := by
  simp [domeReload, hi, ht, hl]

theorem asstReload_of_image (hi : s.reloadImage src = some i) (ht : s.glb.transTo = none) :
    asstReload src s = asstLoad s.standbyCore (some (i.asst s.standbyCore)) (setF F.IMG_ASSIST_STANDBY_READY 0 (reloadBegin 4 0 src s)) := by
  simp [asstReload, hi, ht]

theorem swapStart_of_ready (ht : s.glb.transTo = none) (hr : s.on F.IMG_ASSIST_STANDBY_READY = true) :
    swapStart src s = setF F.IMG_ASSIST_SWAP_BUSY 1 (reloadBegin 5 0 src s) := by
  simp [swapStart, ht, hr]

theorem domeBankFlip_of_waiting (hf : s.dome.flip = true) (hq : s.seqsBusy = false) {u : State}
    (hu : u = s.modDome (fun d => { d with bank := 1 - d.bank, flip := false })) :
    domeBankFlip s = if s.img.reload.any (fun r => r.unit == 3) then reloadEnd 1 u else u := by
  subst hu
  simp [domeBankFlip, domeFlip, hf, hq]

theorem standbyReady_of_loaded (h : (if s.standbyCore = 0 then s.img.asstA else s.img.asstB).isSome = true) :
    standbyReady s = if s.img.reload.any (fun r => r.unit == 4) then reloadEnd 1 (setF F.IMG_ASSIST_STANDBY_READY 1 s)
      else setF F.IMG_ASSIST_STANDBY_READY 1 s := by
  rw [standbyReady, if_pos h]

theorem assistTimeout_of_silent (h : s.on F.IMG_ASSIST_STANDBY_READY = false) :
    assistTimeout s = if s.img.reload.any (fun r => r.unit == 4) then reloadEnd 3 (asstLoad s.standbyCore none s)
      else asstLoad s.standbyCore none s := by
  simp [assistTimeout, h]

theorem swapTimeout_of_busy (h : s.on F.IMG_ASSIST_SWAP_BUSY = true) :
    swapTimeout s = reloadEnd 3 (setErr F.IMG_ERR_STATUS_SWAP_FAIL intImg (setF F.IMG_ASSIST_SWAP_BUSY 0 s)) := by
  simp [swapTimeout, h]

/-- Outside an activation the end of a reload clears BUSY and shows its RESULT. -/
theorem reloadEnd_result {res : Nat} {r : Reload} (h : s.img.reload = some r) (ha : s.img.act = none) (hres : res < 8) :
    (reloadEnd res s).img.reload = none ∧ (reloadEnd res s).get F.IMG_RELOAD_STATUS_BUSY = 0 ∧
    (reloadEnd res s).get F.IMG_RELOAD_STATUS_RESULT = res := by
  simp only [reloadEnd, h, ha, mixedShow, setB]
  refine ⟨rfl, ?_, ?_⟩
  · simp (disch := decide) [State.get_setF_ne]
  · simp (disch := decide) only [State.get_setF_ne]
    exact State.get_setF_lt _ hres

end

/-- Settles O15: each command by the equation of its start. -/
theorem fabricCommandsStartAndSuspend : Obligations.FabricCommandsStartAndSuspend := by
  unfold Obligations.FabricCommandsStartAndSuspend
  refine ⟨?read, ?refused, ?latch, ?star, ?program, ?erase, ?suspend, ?suspendDone, ?resume, ?slice, ?ident, ?resetDie, ?train⟩
  case read => exact fun _ _ _ _ _ _ _ _ hs hr ht hw hl => next_congr (fabRead_of_served hs hr ht hw hl)
  case refused => exact fun _ _ _ _ _ _ _ _ hs hr => next_congr (fabRead_of_refused hs hr)
  case latch =>
    exact fun _ _ _ _ _ _ _ hl hs ht hw =>
      ⟨_, next_congr (fabReadLatch_of_latched hl hs ht hw), latchRead_plane, latchRead_latches⟩
  case star => exact fun _ _ _ _ _ _ _ _ hs hr ht hw => next_congr (fabReadStar_of_served hs hr ht hw)
  case program =>
    intro c d mode1 rows rs u s pfas hrows hplane hmay hmode hwhole hfirst himg
    refine ⟨_, next_congr (fabProgram_of_images rfl hrows hplane hmay hmode hwhole hfirst himg), ?_⟩
    rw [State.die_modDie, State.get_modDie, State.get_modDie]
    exact ⟨rfl, dieStart_get_op, dieStart_get_suspCount⟩
  case erase =>
    intro c d mode1 r s p hmay hseal hprog hwait hmode hall
    have hlow : lowField [p] = pfaField p := lowField_singleton p
    have hone : ∀ q ∈ [p], s.eraseWaits q = true ∧ mode1 = s.setMode1 (setOf q) ∧ pfaField q = lowField [p] := fun q hq => by
      rw [List.mem_singleton.mp hq, hlow]
      exact ⟨hwait, hmode, rfl⟩
    refine ⟨_, next_congr (fabErase_of_waiting (pfas := [p]) (rows := [r]) rfl (List.cons_ne_nil _ _) rfl hmay hseal hprog hone
      (fun k hk hw => ⟨p, List.mem_singleton_self p, (hall k hk (hlow ▸ hw)).symm⟩)), ?_⟩
    rw [State.die_modDie, State.get_modDie]
    exact ⟨rfl, dieStart_get_op⟩
  case suspend => exact fun c d s h => ⟨_, rfl, fabSuspend_result h⟩
  case suspendDone => exact fun c d s h => ⟨_, rfl, suspendDone_result h⟩
  case resume =>
    exact fun c d s hs hr hw => ⟨_, next_congr (fabResume_eq_dieResume hw), rfl, dieResume_result hs hr⟩
  case slice => exact fun c d s h => progressSliceEnd_result c d h
  case ident => exact fun _ _ _ hc ho hr => next_congr (fabIdent_of_idle hc ho hr)
  case resetDie => exact fun _ _ _ hc => next_congr (fabResetDie_of_taken hc)
  case train => exact fun _ _ _ hc hstep ht => next_congr (fabTrain_of_free hc hstep ht)

/-- Settles O16: each command by the equation of its end. -/
theorem fabricCommandsEnd : Obligations.FabricCommandsEnd := by
  unfold Obligations.FabricCommandsEnd
  refine ⟨?read, ?served, ?star, ?rebuildFailed, ?rebuildDone, ?program, ?programFailed, ?erase, ?ident, ?train, ?timeout, ?lost, ?trained,
    ?sleep, ?util⟩
  case read =>
    intro plane pfa offs l ns s hp hr
    have h := readComplete_of_read (outs := []) (ns := ns) hp
    rw [hr, List.filter_nil, leavesIn_one] at h
    exact next_congr h
  case served => exact fun _ _ _ _ _ _ _ hsrc hhdr hrow hdata => serveRead_of_data hsrc hhdr hrow hdata
  case star =>
    intro plane e14 e15 pfa sweep m s hp hm hs
    exact (execReadStarComplete_of_star plane e14 e15 hp).trans
      (next_congr (starComplete_of_waited (s := emit _ s) hp hm rfl hs.symm))
  case rebuildFailed =>
    intro id ns r s hb hid hf hl hr
    have hfind : s.med.rebuilds.find? (fun r => r.id == id) = some r := by simp [hb, hid]
    have hlose : rebuildLose id r s = setErr (F.MCH_ERR_STATUS_REBUILD_FAIL (pfaCh r.pfa)) intMch (s.modMed (fun m =>
        { m with rebuilds := [{ r with failed := true, left := [] }], reads := [] })) :=
      congrArg (setErr _ intMch) (State.modMed_congr (by simp [hb, hr, hid]))
    have hnone : (rebuildLose id r s).med.reads = [] := by simp [hlose]
    have h := rebuildComplete_of_failed (ok := false) (ns := ns) hfind (.inr ⟨hl, rfl⟩)
    rw [hnone, seqAll, keepRebuilds_of_no_reads hnone, hlose] at h
    exact next_congr h
  case rebuildDone =>
    intro id ns r s hb hid hf hl hr
    have hfind : s.med.rebuilds.find? (fun r => r.id == id) = some r := by simp [hb, hid]
    have hgain : rebuildGain id r s = bufferLeaves r.pfa [r.leaf] false (s.modMed (fun m => { m with rebuilds := [{ r with done := true }] })) :=
      congrArg (bufferLeaves r.pfa [r.leaf] false) (State.modMed_congr (by simp [hb, hid]))
    have hnone : (rebuildGain id r s).med.reads = [] := by simp [hgain, hr]
    have h := rebuildComplete_of_done (ns := ns) hfind hf hl rfl
    rw [hnone, seqAll, keepRebuilds_of_no_reads hnone, hgain] at h
    exact next_congr h
  case program =>
    intro c d m1 x s hs h
    have e := programComplete_of_program (fails := []) hs h
    rw [programEnd_of_program (s := emit _ s) h] at e
    exact next_after_congr e
  case programFailed =>
    intro c d p m1 x s hs h hx
    have e := programComplete_of_program (fails := [p.val]) hs h
    rw [programEnd_of_program (s := emit _ s) h] at e
    simp only [seqAll, List.contains_cons, hx, beq_self_eq_true, Bool.true_or, if_true] at e
    exact next_after_congr e
  case erase =>
    intro c d m1 f s hs h
    refine ⟨_, ?_, rfl⟩
    refine (execEraseComplete_of_erase c d [] hs h).trans (next_congr ?_)
    exact eraseDone_of_erase (s := emit _ s) h rfl
  case ident => exact fun _ _ _ h => next_after_congr (dieCmdDone_ident h)
  case train => exact fun _ _ _ _ h => next_after_congr (dieCmdDone_train_failed h)
  case timeout => exact fun _ _ _ _ hs h => next_after_congr (fabricTimeout_ident hs h)
  case lost =>
    intro c d s hst hf
    have hlo : 2 ≤ s.get (F.MCH_STATUS_STATE c.val) := by rw [hst]; decide
    have hhi : s.get (F.MCH_STATUS_STATE c.val) < 8 := by rw [hst]; decide
    exact ⟨next_after_congr (dieLost_of_serving hlo hhi hf), dieFail_failed c.val d.val s⟩
  case trained =>
    intro c s hst hf
    have hones : ∀ d < 8, Nat.testBit 255 d = true := by decide
    have hall : ∀ d < 8, dieTrained c.val 255 255 s d = true := by
      intro d hd
      simp [dieTrained, hones d hd, hf d hd]
    have hmask : dieMask (dieTrained c.val 255 255 s) 8 = 255 := dieMask_of_all hall
    have hbad : ∀ u, seqAll (fun d t => if dieTrained c.val 255 255 s d then t else dieFieldsBad c.val d t) (List.range 8) u = u :=
      seqAll_eq_self (fun d hd t => if_pos (hall d (List.mem_range.mp hd)))
    obtain ⟨hok, hstate, -⟩ := trainingShown_result (c := c.val) (present := 255) (pass := 255) (s := s)
    obtain ⟨hregs, hglb⟩ := seqAll_modPhy_frame (fun d => if dieTrained c.val 255 255 s d then 62 else 0) (List.range 8)
      (trainingShown c.val 255 255 s)
    have h := trainingDone_of_training (present := 255) (pass := 255) hst
    rw [hbad, hmask] at h
    rw [hmask] at hok hstate
    exact ⟨_, next_after_congr h, (State.get_congr hregs _).trans hok, (State.get_congr hregs _).trans hstate,
      hglb.trans (trainingShown_glb hmask)⟩
  case sleep =>
    intro c s hst hq hp hd
    exact next_congr (channelSleep_of_idle hst hq (by simp [hp]) (by simp [hd]))
  case util =>
    intro c permille cycles s
    exact ⟨_, rfl, utilWindow_result c.val cycles.toNat s (Nat.lt_of_lt_of_le permille.isLt (by decide))⟩

/-- Settles O17: each unit and each step of a reload by its equation. -/
theorem liveReloadsRunPerUnit : Obligations.LiveReloadsRunPerUnit := by
  unfold Obligations.LiveReloadsRunPerUnit
  refine ⟨?start, ?reserved, ?chan, ?refused, ?quiesced, ?loaded, ?rollback, ?retrained, ?checked, ?flip, ?ready, ?silent,
    ?swapLate, ?swap, ?ended⟩
  case start =>
    intro m v s hgo hb u
    have h {n : Nat} (hn : n < 16) : imgReload (putBits 24 4 n v.toNat) s =
        unitReload n ((u n).get F.IMG_RELOAD_CHANNEL) ((u n).get F.IMG_RELOAD_SRC) (u n) := imgReload_of_go hn hgo hb rfl
    refine ⟨?_, ?_, ?_, ?_, ?_⟩ <;> refine next_after_congr ((h (by decide)).trans ?_)
    · exact unitReload_chan _ _ _
    · exact unitReload_reg _ _ _
    · exact unitReload_dome _ _ _
    · exact unitReload_asst _ _ _
    · exact unitReload_swap _ _ _
  case reserved => exact fun m v s hgo hb hn => execReloadUnitInvalid_of_go m v hgo hb hn (.inl rfl)
  case chan =>
    intro c src i g s hi hg ht hu hst
    exact chanReload_of_up hi hg ht hu (by rw [hst]; decide) (by rw [hst]; decide)
  case refused =>
    intro c src i s hi hg
    rw [chanReload_of_no_segment hi hg]
    exact reloadRefuse_result (by decide) s
  case quiesced =>
    intro c s hst hd hp
    refine next_after_congr (quiesceDone_of_rest hst (by simp [hp]) fun n _ m1 rs => ?_)
    simp [State.die, hd, tgetD, tget, DieSt.reset]
  case loaded =>
    intro c g s hst hr hg
    exact next_after_congr (segmentLoaded_of_segment hst (by simp [State.loadingSeg, hr, hg]))
  case rollback =>
    intro c s hst hr ho
    exact next_after_congr ((segmentLoaded_of_failure hst).trans (reloadFail_of_first hr ho))
  case retrained => exact fun c s hst hd => next_after_congr (retrainDone_of_passed hst hd)
  case checked =>
    intro c s hst hr
    have hres : s.reloadResult c.val = 1 := by simp [State.reloadResult, hr]
    obtain ⟨hstate, hbusy, hresult⟩ := chanReturn_result c.val s
    have h := checkDone_of_passed hst
    rw [hres] at h hresult
    exact ⟨_, next_after_congr h, hstate, hbusy, hresult, rfl⟩
  case flip =>
    intro s hf hq hr
    have h := domeBankFlip_of_waiting hf hq rfl
    rw [hr] at h
    exact next_after_congr h
  case ready =>
    intro g s hc ha hr
    have h := standbyReady_of_loaded (s := s) (by simp [hc, ha])
    rw [hr] at h
    exact next_after_congr h
  case silent =>
    intro s hn hr
    have h := assistTimeout_of_silent hn
    rw [hr] at h
    exact next_after_congr h
  case swapLate => exact fun s h => next_after_congr (swapTimeout_of_busy h)
  case swap => exact fun _ _ ht hr => swapStart_of_ready ht hr
  case ended => exact fun _ _ _ h ha hres => reloadEnd_result h ha hres

/-- Settles O55: each row by the equation of its end, for any leaves, rows and requests. -/
theorem everyFabricEndAndReloadRowCompletes : Obligations.EveryFabricEndAndReloadRowCompletes := by
  unfold Obligations.EveryFabricEndAndReloadRowCompletes
  refine ⟨?erase, ?read, ?star, ?rebuild, ?program, ?programEnd, ?eraseEnd, ?dieCmd, ?timeout, ?lost, ?trained, ?sleep, ?quiesced, ?loaded,
    ?steps, ?flip, ?ready, ?silent, ?chan, ?units, ?reserved⟩
  case erase =>
    intro c d mode1 rows s pfas hrows hplane hmay hseal hprog hwait hall
    refine ⟨_, next_congr (fabErase_of_waiting rfl hrows hplane hmay hseal hprog hwait hall), ?_⟩
    exact congrArg DieSt.op (State.die_modDie _ _ _)
  case read => exact fun _ _ _ _ _ _ _ _ hp => next_congr (readComplete_of_read hp)
  case star =>
    intro plane e14 e15 pfa level sweep s hp u
    have hstar := execReadStarComplete_of_star plane e14 e15 hp
    refine ⟨fun hm => hstar.trans (next_congr ?_), fun m hm hn => hstar.trans (next_congr ?_),
      fun m hm hl hs => hstar.trans (next_congr ?_), fun m hm => ?_⟩
    · exact starComplete_of_free (s := emit _ s) hp hm 0
    · exact starComplete_of_other (s := emit _ s) hp hm hn
    · exact starComplete_of_waited (s := emit _ s) hp hm hl hs
    · exact next_congr (starComplete_of_refused hp hm Nat.one_ne_zero)
  case rebuild =>
    exact fun _ _ _ _ _ h => ⟨fun hf => next_congr (rebuildComplete_of_failed h hf),
      fun hf hl hok => next_congr (rebuildComplete_of_done h hf hl hok)⟩
  case program =>
    intro c d fails m1 rs s hs h
    have e := programComplete_of_program (fails := fails.map (·.val)) hs h
    simp only [List.map_eq_nil_iff] at e
    exact next_after_congr e
  case programEnd => exact fun _ _ _ _ _ _ h => programEnd_of_program h
  case eraseEnd =>
    intro c d fails m1 fs s hs h u
    exact (execEraseComplete_of_erase c d fails hs h).trans (next_congr (eraseDone_of_erase (s := emit _ s) h rfl))
  case dieCmd =>
    intro c d s
    exact ⟨fun h => next_after_congr (dieCmdDone_ident_silent h),
      fun h ok => next_after_congr (dieCmdDone_resetDie h ok),
      fun step h => next_after_congr (dieCmdDone_train_passed h)⟩
  case timeout =>
    intro c d ns s
    refine ⟨fun p pfa mask offs l h => ?_, fun p pfa level sweep h => ?_, fun hs => ⟨fun m1 rs h => ?_, fun m1 fs h => ?_⟩⟩
    · exact next_after_congr (fabricTimeout_read h)
    · exact next_after_congr (fabricTimeout_star h)
    · exact next_after_congr (fabricTimeout_program hs h)
    · exact next_after_congr (fabricTimeout_erase hs h)
  case lost => exact fun _ _ _ hlo hhi hf => next_after_congr (dieLost_of_serving hlo hhi hf)
  case trained =>
    intro c present pass s hst good ok
    exact ⟨_, next_after_congr (trainingDone_of_training hst), trainingShown_result⟩
  case sleep => exact fun _ _ hst hq hp hd => next_congr (channelSleep_of_idle hst hq hp hd)
  case quiesced => exact fun _ _ hst hp hd => next_after_congr (quiesceDone_of_rest hst hp hd)
  case loaded => exact fun _ _ _ hst hg => next_after_congr (segmentLoaded_of_segment hst hg)
  case steps =>
    intro c s
    refine ⟨fun h => ?_, fun h => ?_, fun h => ?_, fun h => ⟨chanReturn c.val s, ?_, chanReturn_result c.val s⟩⟩
    · exact next_after_congr (segmentLoaded_of_failure h)
    · exact next_after_congr (retrainDone_of_failure h)
    · exact next_after_congr (checkDone_of_failure h)
    · exact next_after_congr (checkDone_of_passed h)
  case flip => exact fun _ hf hq => next_after_congr (domeBankFlip_of_waiting hf hq rfl)
  case ready => exact fun _ h => next_after_congr (standbyReady_of_loaded h)
  case silent => exact fun _ h => next_after_congr (assistTimeout_of_silent h)
  case chan => exact fun _ _ _ _ _ hi hg ht hu hoff htr => chanReload_of_up hi hg ht hu hoff htr
  case units =>
    exact fun _ _ _ hi ht => ⟨fun hl => regReload_of_unlocked hi ht hl rfl, fun hl => domeReload_of_unlocked hi ht hl, asstReload_of_image hi ht⟩
  case reserved => exact fun m v s hgo hb hn => execReloadUnitInvalid_of_go m v hgo hb rfl hn

end Sys2Proof.Machine
end

section
/-! PROOFS. The statement of 06_field_management.md: how mover jobs start and go on, and what the rows of field management do. -/

namespace Sys2Proof.Machine

/-! ### Mover jobs on an idle mover (R145, R155) -/

section
variable {m g job set : Nat} {leaves : List SlotLeaf} {pick : State → Option (Nat × State)} {s u : State}

theorem moverTake_of_idle (h : (s.mover m).job = 0) (job : Nat) : moverTake m job s = some s := by
  simp [moverTake, h]

/-- An idle mover whose job is next takes the set that `pick` gives and copies a batch, where no job yielded before. -/
theorem copyJob_of_idle (hpos : 0 < job) (hidle : (s.mover m).job = 0) (hnext : s.jobNext job = true) (hpaused : s.fld.paused = [])
    (hpick : pick s = some (set, u)) : copyJob m g job leaves pick s = copyBatch m g leaves (takeSet m job set u) := by
  have hne : ¬ (s.mover m).job = job := by omega
  simp [copyJob, hne, hnext, moverTake_of_idle hidle, hpaused, hpick]

/-- A mover that runs the job goes on with its next batch. -/
theorem copyJob_of_running (hrun : (s.mover m).job = job) (hmode : s.jobMode job = true) :
    copyJob m g job leaves pick s = copyBatch m g leaves s := by
  rw [copyJob, if_pos hrun, if_pos hmode]

/-- A rewrite job on an idle mover starts behind the fields that leave the rewrite queue (R151). -/
theorem execRewriteJob_of_idle (m : Fin 4) (g : Fin 32) (leaves : List SlotLeaf) {f : Nat} (hu : u = rwqDrop s)
    (hen : s.on F.FLD_CTL_REWRITE_EN = true) (hmode : s.jobMode jobRewrite = true) (hidle : (u.mover m.val).job = 0)
    (hnext : u.jobNext jobRewrite = true) (hpaused : u.fld.paused = []) (hpick : u.rewritePick = some f) :
    execRewriteJob m g leaves s = .next (copyBatch m.val g.val leaves (takeSet m.val jobRewrite (fieldSet f)
      (victimShow (fieldSet f) jobRewrite (u.score (fieldSet f))
        (setF F.DRIFT_RWQ_DEPTH (u.drift.rwq.length - 1) (u.modDrift (fun d => { d with rwq := d.rwq.filter (· != f) })))))) := by
  have hidle' : (s.mover m.val).job = 0 := by
    rw [hu] at hidle
    exact hidle
  have hs : ¬ (s.mover m.val).job = jobRewrite := by simp [hidle', jobRewrite]
  rw [execRewriteJob, if_pos ⟨hs, hen, hmode⟩, ← hu]
  exact next_congr (copyJob_of_idle (by decide) hidle hnext hpaused (by rw [hpick]; rfl))

end

/-! ### Verify (R140, R141) -/

/-- A verify job with credit, whose members serve reads, reads the first set waiting; with every leaf CLEAN the set's fields decide. -/
theorem verifyJob_of_served {m set : Nat} {l : List Nat} {s : State} (hidle : (s.mover m).job = 0) (hnext : s.jobNext jobVerify = true)
    (hq : s.fld.verifyQ = set :: l) (hmay : s.mayGo classMover 0 (s.setRows set * (s.verifyMembers set).length * 16384) = true)
    (harr : ∀ k ∈ s.verifyMembers set, s.unitHow (setPfa set k 2) false = .array) :
    ∃ u : State, verifyJob m [] s = moverIdle m (if u.setBad set then
      fldRecount (relocate set (u.modFld (fun f => { f with verifyQ := f.verifyQ.filter (· != set) }))) else setVerified set u) := by
  have hserved : (s.verifyMembers set).find? (fun k => s.unitHow (setPfa set k 2) false != .array) = none := by
    simpa [List.find?_eq_none] using harr
  rw [verifyJob, if_pos hnext, moverTake_of_idle hidle, hq]
  simp only [hmay, hserved]
  exact ⟨_, rfl⟩

/-! ### Seal (R154) -/

/-- No leaf is lost where none is listed. -/
theorem State.lostLeaf_nil (s : State) (m slot : Nat) : s.lostLeaf m [] slot = none := rfl

section
variable {m g ctx ld f : Nat} {l : List (Nat × Nat × Nat)} {s u : State}
  (hu : u = s.modFld (fun x => { x with sealQ := x.sealQ.drop 1 })) (hidle : (s.mover m).job = 0) (hnext : s.jobNext jobSeal = true)
  (hroom : 64 ≤ min (s.get F.FLD_BUF_CFG_MOV_TOKENS) s.frameFree) (hmay : s.copyMay 64 = true)
  (hcrit : s.on F.XLAT_POOL_STATUS_CRIT = false) (hq : s.fld.sealQ = (ctx, ld, f) :: l)
include hu hidle hnext hroom hmay hcrit hq

/-- The seal of the first folio queued by a ring command: one to skip is counted by its command and ends the job with its counter; one to
seal, whose sources on media can all be read, is copied. -/
theorem sealJob_of_queued :
    (u.sealHow ld f = .skip → sealJob m g [] s = cnt bFLD (3 + jobSeal) 1 (ringSealed (some ctx) false (moverSkip m 1 u))) ∧
    (u.sealHow ld f = .go →
      (∀ i < 64, frState (u.frameOfFolio (u.folio ld f) i) = 1 → u.moverHow (frLoc (u.frameOfFolio (u.folio ld f) i)) ≠ .wait ∧
        u.moverHow (frLoc (u.frameOfFolio (u.folio ld f) i)) ≠ .gone) →
      sealJob m g [] s = sealCopy m (s.placeGroup g) ld f (some ctx) [] u) := by
  have hne : ¬ (s.mover m).job = jobSeal := by simp [hidle, jobSeal]
  have hqueue : (s.fld.sealQ == []) = false := by simp [hq]
  rw [sealJob, if_neg hne, if_pos (by simp [hnext, hroom, hmay]), moverTake_of_idle hidle]
  simp only [hcrit, hqueue, Bool.or_false, Bool.false_and, Bool.false_eq_true, if_false, ← hu]
  simp only [hq, List.head?_cons, Option.map_some]
  refine ⟨fun how => by simp only [how], fun how hsrc => ?_⟩
  have hserved : ((List.range 64).filter (fun i => frState (u.frameOfFolio (u.folio ld f) i) == 1)).find?
      (fun i => u.moverHow (frLoc (u.frameOfFolio (u.folio ld f) i)) == .wait) = none := by
    simp only [List.find?_eq_none, List.mem_filter, List.mem_range, beq_iff_eq]
    exact fun i ⟨hlt, hmedia⟩ => (hsrc i hlt hmedia).left
  have hread : ((List.range 64).filter (fun i => frState (u.frameOfFolio (u.folio ld f) i) == 1)).filter
      (fun i => u.moverHow (frLoc (u.frameOfFolio (u.folio ld f) i)) == .gone || (u.lostLeaf m [] i).isSome) = [] := by
    simp only [State.lostLeaf_nil, Option.isSome_none, Bool.or_false, List.filter_eq_nil_iff, List.mem_filter, List.mem_range, beq_iff_eq]
    exact fun i ⟨hlt, hmedia⟩ => (hsrc i hlt hmedia).right
  simp only [how, hserved, hread]

end

/-! ### Scores, campaigns, the verify switch (R141, R143, R150, R159) -/

section
variable {s : State} {set v : Nat}

theorem setErase_of_waiting (hq : s.fld.eraseQ.contains set = true) (hr : s.setRead set = false) : setErase set s =
    s.modFld (fun f => { f with eraseQ := f.eraseQ.filter (· != set), erasing := f.erasing ++ [set] }) := by
  rw [setErase, hq, hr, if_pos (by simp)]

theorem execRebinDone_of_rebin (h : s.fld.rebin = true) : execRebinDone s =
    .next ((seqAll (fun p t => rescore p.1 t) s.fld.bins s).modFld (fun f => { f with rebin := false })) := by
  rw [execRebinDone, if_pos h]

/-- A scored set stands in the bin of its score. -/
theorem rescore_bin (he : s.eligible set = true) (hv : s.setV set ≠ 0) :
    (tget (rescore set s).fld.bins set).map (·.1) = some (s.score set + 2048).toNat := by
  rw [rescore, if_pos (by simp [he, hv])]
  dsimp only
  split
  next b _ hb =>
    split
    next heq => rw [hb, Option.map_some, heq]
    next => simp
  next => simp

theorem wearStop_of_no_jobs (hm : s.fld.movers = []) (hp : s.fld.paused = []) : wearStop s = campaignStop s := by
  simp [wearStop, hm, hp]

/-- FLD_SCORE_R after a query. -/
theorem scoreQuery_result (hgo : v.testBit 63 = true) :
    (scoreQuery v s).get F.FLD_SCORE_R_SCORE = field12 (s.score (v % 2 ^ 20)) % 2 ^ 12 ∧ (scoreQuery v s).get F.FLD_SCORE_R_DONE = 1 ∧
    (scoreQuery v s).get F.FLD_SCORE_R_ELIGIBLE = (s.eligible (v % 2 ^ 20)).toNat ∧
    (scoreQuery v s).get F.FLD_SCORE_R_EC = min 8191 (s.setEc (v % 2 ^ 20)) := by
  rw [scoreQuery, if_pos hgo]
  dsimp only
  refine ⟨?score, ?done, ?eligible, ?ec⟩
  case done => exact State.get_setF_one _ rfl
  all_goals simp (disch := decide) only [State.get_setF_ne]
  case score => exact State.get_setF_self _ _ _
  case eligible => exact State.get_setB_self _ _ (by decide)
  case ec => exact State.get_setF_lt _ (Nat.lt_of_le_of_lt (Nat.min_le_left _ _) (by decide))

theorem fldCtl_of_verify_cleared {u : State} (hu : u = storeAt 0x80000 v s) (hs : s.on F.FLD_CTL_VERIFY_EN = true)
    (hoff : u.on F.FLD_CTL_VERIFY_EN = false) :
    fldCtl v s = seqAll setVerified u.fld.verifyQ (logPut sevWarning 0x0603 u.fld.verifyQ.length 0 0 0 u) := by
  subst hu
  simp [fldCtl, hs, hoff]

theorem fldCtl_of_verify_off (hs : s.on F.FLD_CTL_VERIFY_EN = false) : fldCtl v s = storeAt 0x80000 v s := by
  simp [fldCtl, hs]

end

/-- Settles O19: each row by its equation; a job on an idle mover by `copyJob_of_idle`. -/
theorem moversAndFieldsWork : Obligations.MoversAndFieldsWork := by
  unfold Obligations.MoversAndFieldsWork
  refine ⟨?gc, ?wear, ?rewrite, ?relocate, ?running, ?verify, ?skip, ?sealing, ?erase, ?weights, ?rebin, ?bin, ?start, ?stop, ?query,
    ?keep, ?clear⟩
  case gc => exact fun _ _ _ _ _ _ hidle hnext hp hv => next_congr (copyJob_of_idle (by decide) hidle hnext hp (by rw [hv]; rfl))
  case wear => exact fun _ _ _ _ _ hidle hnext hp hw => next_congr (copyJob_of_idle (by decide) hidle hnext hp (by rw [hw]; rfl))
  case rewrite =>
    exact fun m g bad _ _ hen hmode hidle hnext hp hf => execRewriteJob_of_idle m g bad rfl hen hmode hidle hnext hp hf
  case relocate => exact fun _ _ _ _ _ _ hidle hnext hp hq => next_congr (copyJob_of_idle (by decide) hidle hnext hp (by rw [hq]; rfl))
  case running => exact fun _ _ _ _ hrun hmode => next_congr (copyJob_of_running hrun hmode)
  case verify =>
    intro m set l s hidle hnext hq hmay harr
    obtain ⟨u, hu⟩ := verifyJob_of_served hidle hnext hq hmay harr
    exact ⟨u, next_congr hu⟩
  case skip =>
    exact fun _ _ _ _ _ _ _ hidle hnext hroom hmay hcrit hq how =>
      next_congr ((sealJob_of_queued rfl hidle hnext hroom hmay hcrit hq).left how)
  case sealing =>
    exact fun _ _ _ _ _ _ _ hidle hnext hroom hmay hcrit hq how hsrc =>
      next_congr ((sealJob_of_queued rfl hidle hnext hroom hmay hcrit hq).right how hsrc)
  case erase => exact fun _ _ hq hr => next_congr (setErase_of_waiting hq hr)
  case weights => exact fun _ _ _ => rfl
  case rebin => exact fun _ h => execRebinDone_of_rebin h
  case bin => exact fun _ _ => rescore_bin
  case start => exact fun _ _ => rfl
  case stop => exact fun _ _ hm hp => next_congr (wearStop_of_no_jobs hm hp)
  case query => exact fun _ _ _ hgo => ⟨_, rfl, scoreQuery_result hgo⟩
  case keep => exact fun _ _ _ hs => next_congr (fldCtl_of_verify_off hs)
  case clear => exact fun _ _ _ hs hoff => next_congr (fldCtl_of_verify_cleared rfl hs hoff)

end Sys2Proof.Machine
end

section
/-! PROOFS. The statement of 07_durability.md: how the journal is sealed and forced, how checkpoints are cut and completed, and what the
hold-up signal and the hour counter do. -/

namespace Sys2Proof.Machine

/-! ### What the completion of a checkpoint goes by (R186)

The sets of a checkpoint close before its pointer is written. The field table, working memory, the Meridian and the logbook change by
that; the checkpoints kept, the one being written and ALM_WP# do not. A proof `(rfl)` below has `simp` rewrite with the lemma, so that the
kernel never compares the states themselves, whose numbers it would count out. -/

/-- The checkpoints kept, the one being written, and ALM_WP#. -/
def State.ckptView (s : State) : List Ckpt × Option Ckpt × Bool := (s.dur.ckpts, s.dur.writing, s.alm.wp)

section
variable (f : Fld) (v n : Nat) (s : State)

@[simp] theorem State.ckptView_modGlb (g : Glb → Glb) : (s.modGlb g).ckptView = s.ckptView := (rfl)
@[simp] theorem State.ckptView_modLog (g : LogSt → LogSt) : (s.modLog g).ckptView = s.ckptView := (rfl)
@[simp] theorem State.ckptView_modHost (g : HostSt → HostSt) : (s.modHost g).ckptView = s.ckptView := (rfl)
@[simp] theorem State.ckptView_modFld (g : FldSt → FldSt) : (s.modFld g).ckptView = s.ckptView := (rfl)
@[simp] theorem State.ckptView_modWm (g : WmSt → WmSt) : (s.modWm g).ckptView = s.ckptView := (rfl)
@[simp] theorem State.ckptView_modCiph (g : CiphSt → CiphSt) : (s.modCiph g).ckptView = s.ckptView := (rfl)
@[simp] theorem State.ckptView_modRegu (g : RegSt → RegSt) : (s.modRegu g).ckptView = s.ckptView := (rfl)

/-! #### The shared operations -/

@[simp] theorem setF_ckptView : (setF f v s).ckptView = s.ckptView := (rfl)
@[simp] theorem setB_ckptView (b : Bool) : (setB f b s).ckptView = s.ckptView := (rfl)
@[simp] theorem incF_ckptView : (incF f n s).ckptView = s.ckptView := (rfl)
@[simp] theorem cnt_ckptView (b i : Nat) : (cnt b i n s).ckptView = s.ckptView := (rfl)
@[simp] theorem takeNat_ckptView : (takeNat s).2.ckptView = s.ckptView := (rfl)

variable {f v n s} in
theorem when_ckptView {b : Bool} {u : State → State} (hu : ∀ t, (u t).ckptView = t.ckptView) : (when b u s).ckptView = s.ckptView := by
  cases b
  · rfl
  · exact hu s

variable {f v n s} in
theorem seqAll_ckptView {α : Type} {u : α → State → State} {l : List α} (hu : ∀ a t, (u a t).ckptView = t.ckptView) :
    (seqAll u l s).ckptView = s.ckptView := by
  induction l generalizing s with
  | nil => rfl
  | cons a l ih => exact ih.trans (hu a s)

@[simp] theorem msixSend_ckptView (view vector : Nat) : (msixSend view vector s).ckptView = s.ckptView := by
  unfold msixSend
  split <;> rfl

@[simp] theorem raiseInt_ckptView (b : Nat) : (raiseInt b s).ckptView = s.ckptView := by
  simp [raiseInt, apply_ite State.ckptView]

@[simp] theorem setErr_ckptView (cause : Nat) : (setErr f cause s).ckptView = s.ckptView := by
  simp [setErr, apply_ite State.ckptView]

@[simp] theorem logStore_ckptView (code source sev p0 p1 p2 p3 : Nat) :
    (logStore code source sev p0 p1 p2 p3 s).ckptView = s.ckptView := by
  simp [logStore, apply_ite State.ckptView]

@[simp] theorem logLost_ckptView : (logLost s).ckptView = s.ckptView := by
  simp [logLost, apply_ite State.ckptView]

@[simp] theorem logPut_ckptView (sev code p0 p1 p2 p3 : Nat) : (logPut sev code p0 p1 p2 p3 s).ckptView = s.ckptView := by
  simp [logPut, logFrom, apply_ite State.ckptView]

@[simp] theorem logOpen_ckptView (blk p0 p1 : Nat) : (logOpen blk p0 p1 s).ckptView = s.ckptView := by
  simp [logOpen]

@[simp] theorem takeCredit_ckptView (c dir : Nat) : (takeCredit c dir n s).ckptView = s.ckptView := by
  simp [takeCredit, apply_ite State.ckptView]

/-! #### Working memory and the Meridian -/

@[simp] theorem setCtr_ckptView (level idx : Nat) (l : Nat × Tbl Nat) : (setCtr level idx l s).ckptView = s.ckptView := (rfl)
@[simp] theorem putCcSet_ckptView (c : CcSet) : (putCcSet n c s).ckptView = s.ckptView := (rfl)
@[simp] theorem unmark_ckptView (line : Nat) : (unmark line s).ckptView = s.ckptView := (rfl)

@[simp] theorem meridKeys_ckptView : (meridKeys s).ckptView = s.ckptView := (rfl)

@[simp] theorem meridWrap_ckptView : (meridWrap s).ckptView = s.ckptView := by
  simp [meridWrap]

@[simp] theorem ctrBump_ckptView (level idx j : Nat) : (ctrBump level idx j s).ckptView = s.ckptView := by
  simp [ctrBump, apply_ite State.ckptView]

@[simp] theorem metaWriteback_ckptView : (metaWriteback n s).2.ckptView = s.ckptView := by
  rw [metaWriteback]
  split <;> simp

/-- The uses and the state that a write-back answers, each under a name: to tell them apart the kernel need not compute a write-back. -/
theorem metaWriteback_eq_pair : ∃ (more : Nat → State → List (Nat × Bool)) (back : Nat → State → State),
    metaWriteback = (fun n s => (more n s, back n s)) ∧ ∀ n s, (back n s).ckptView = s.ckptView :=
  ⟨_, _, funext fun _ => funext fun _ => (Prod.eta _).symm, metaWriteback_ckptView⟩

@[simp] theorem metaUse_ckptView (dirty : Bool) : (metaUse n dirty s).2.ckptView = s.ckptView := by
  obtain ⟨more, back, hpair, hback⟩ := metaWriteback_eq_pair
  rw [metaUse, hpair]
  split
  · simp
  · extract_lets s1 check
    split
    · simp [s1]
    · split <;> simp [s1, hback]

@[simp] theorem metaRun_ckptView (l : List (Nat × Bool)) : (metaRun n l s).ckptView = s.ckptView := by
  induction n generalizing l s with
  | zero => cases l <;> rfl
  | succ n ih =>
    cases l with
    | nil => rfl
    | cons p l => rw [metaRun, ih, metaUse_ckptView]

@[simp] theorem lineMeta_ckptView (line : Nat) (wr : Bool) : (lineMeta line wr s).ckptView = s.ckptView := by
  simp [lineMeta, apply_ite State.ckptView, when_ckptView]

@[simp] theorem wmLineWritten_ckptView (line : Nat) : (wmLineWritten line s).ckptView = s.ckptView := by
  simp [wmLineWritten]

@[simp] theorem wmLineRead_ckptView (line : Nat) : (wmLineRead line s).ckptView = s.ckptView := by
  simp [wmLineRead]

@[simp] theorem wmStoreBytes_ckptView (line mask : Nat) (bytes : Tbl Nat) : (wmStoreBytes line mask bytes s).ckptView = s.ckptView := by
  simp [wmStoreBytes, apply_ite State.ckptView]

@[simp] theorem wmUe_ckptView (loc : WmLoc) : (wmUe loc s).ckptView = s.ckptView := by
  simp [wmUe]

@[simp] theorem ceRecord_ckptView (loc : WmLoc) : (ceRecord loc s).ckptView = s.ckptView := by
  unfold ceRecord
  dsimp only
  split
  · simp [apply_ite Prod.snd, apply_ite State.ckptView]
  · simp only [apply_ite State.ckptView]
    split
    · simp [apply_ite Prod.snd, apply_ite State.ckptView]
    · split <;> simp [apply_ite Prod.snd, apply_ite State.ckptView]

@[simp] theorem wmDecode_ckptView (line : Nat) (o : WmOut) : (wmDecode line o s).2.ckptView = s.ckptView := by
  unfold wmDecode
  split <;> simp

@[simp] theorem mergeFlush_ckptView (e : MergeEnt) (out : WmOut) : (mergeFlush e out s).ckptView = s.ckptView := by
  simp [mergeFlush, apply_ite State.ckptView]

@[simp] theorem wmNarrow_ckptView (line mask : Nat) (bytes : Tbl Nat) : (wmNarrow line mask bytes s).ckptView = s.ckptView := by
  unfold wmNarrow
  extract_lets s0 old new s1
  have hroom : s0.ckptView = s.ckptView := by
    unfold s0
    split
    · rfl
    · split <;> simp
  split <;> simp [s1, hroom]

@[simp] theorem wmWriteBytes_ckptView (a : Nat) : (wmWriteBytes a n v s).ckptView = s.ckptView := by
  simp [wmWriteBytes]

/-! #### Records, events and write protection -/

@[simp] theorem capture_ckptView (typ ld kid addr : Nat) (data : List Nat) : (capture typ ld kid addr data s).ckptView = s.ckptView := (rfl)

@[simp] theorem modLd_ckptView (g : LdSt → LdSt) : (modLd n g s).ckptView = s.ckptView := (rfl)

@[simp] theorem event_ckptView (log kind arg : Nat) : (event n log kind arg s).ckptView = s.ckptView := by
  simp [event, eventIrq, when_ckptView, apply_ite State.ckptView]

@[simp] theorem wpClear_ckptView (bit : Nat) : (wpClear n bit s).ckptView = s.ckptView := by
  simp [wpClear, ldCfg, apply_ite State.ckptView]

/-! #### Field management -/

@[simp] theorem putFrec_ckptView (r : FRec) : (putFrec n r s).ckptView = s.ckptView := by
  simp [putFrec]

@[simp] theorem modFrec_ckptView (g : FRec → FRec) : (modFrec n g s).ckptView = s.ckptView := by
  simp [modFrec]

@[simp] theorem fieldTo_ckptView (g : FRec → FRec) : (fieldTo n g s).ckptView = s.ckptView := by
  simp [fieldTo]

@[simp] theorem setTo_ckptView (g : FRec → FRec) : (setTo n g s).ckptView = s.ckptView := by
  simp [setTo, seqAll_ckptView, apply_ite State.ckptView]

@[simp] theorem levelRaise_ckptView : (levelRaise n s).ckptView = s.ckptView := by
  simp [levelRaise, seqAll_ckptView, when_ckptView]

@[simp] theorem freeWarn_ckptView : (freeWarn s).ckptView = s.ckptView := by
  simp [freeWarn, seqAll_ckptView, apply_ite State.ckptView]

@[simp] theorem campaignStart_ckptView : (campaignStart s).ckptView = s.ckptView := (rfl)
@[simp] theorem campaignStop_ckptView : (campaignStop s).ckptView = s.ckptView := (rfl)
@[simp] theorem gcHyst_ckptView : (gcHyst s).ckptView = s.ckptView := (rfl)

@[simp] theorem wearStatus_ckptView : (wearStatus s).ckptView = s.ckptView := by
  unfold wearStatus
  simp [when_ckptView]

@[simp] theorem fldRecount_ckptView : (fldRecount s).ckptView = s.ckptView := by
  simp [fldRecount]

@[simp] theorem rescore_ckptView : (rescore n s).ckptView = s.ckptView := by
  unfold rescore
  split
  · dsimp only
    split
    · split <;> rfl
    · rfl
  · rfl

@[simp] theorem eraseCheck_ckptView : (eraseCheck n s).ckptView = s.ckptView := by
  simp [eraseCheck, seqAll_ckptView, apply_ite State.ckptView]

@[simp] theorem setVerified_ckptView : (setVerified n s).ckptView = s.ckptView := by
  simp [setVerified]

@[simp] theorem closeSet_ckptView (fail : Bool) : (closeSet n fail s).ckptView = s.ckptView := by
  unfold closeSet
  split
  · rfl
  · simp [apply_ite State.ckptView]

@[simp] theorem ckptTable_ckptView (c : Ckpt) : (ckptTable c s).2.ckptView = s.ckptView := by
  refine foldl_keeps (Q := fun p : List Nat × State => p.2.ckptView = s.ckptView) (fun p t hp => ?_) rfl
  dsimp only
  split <;> exact hp

/-- The section table and the state it leaves, likewise. -/
theorem ckptTable_eq_pair : ∃ (table : Ckpt → State → List Nat) (drawn : Ckpt → State → State),
    ckptTable = (fun c s => (table c s, drawn c s)) ∧ ∀ c s, (drawn c s).ckptView = s.ckptView :=
  ⟨_, _, funext fun _ => funext fun _ => (Prod.eta _).symm, fun c s => ckptTable_ckptView s c⟩

/-- The success of a write of the almanac and the state it leaves, likewise. -/
theorem almDevice_eq_pair : ∃ (ok : Nat → List Nat → State → Bool) (stored : Nat → List Nat → State → State),
    almDevice = fun k l s => (ok k l s, stored k l s) :=
  ⟨_, _, funext fun _ => funext fun _ => funext fun _ => (Prod.eta _).symm⟩

end

/-! ### Sealing and forced commits (R168 to R171) -/

section
variable {r : JRec} {l : List JRec} {f : Frame} {drain : Bool} {tok v : Nat} {s : State}

/-- The oldest record of the build area is sealed in one row with those behind it that fit. -/
theorem sealOne_of_build (h : s.dur.build = r :: l) : sealOne drain s =
    sealRecs drain false false (r :: rowFill (3840 - r.len) l)
      (s.modDur (fun d => { d with build := d.build.drop (r :: rowFill (3840 - r.len) l).length })) := by
  simp only [sealOne, h]

theorem execLagMiss_of_uncommitted (ageUs : Nat) (h : s.dur.build ≠ [] ∨ s.dur.rows ≠ []) : execLagMiss ageUs s =
    .next (logPut sevWarning 0x0501 ageUs 0 0 0 (cnt bDUR 3 1 (incF F.DUR_LAG_CNT_MISSES 1 (setErr F.DUR_ERR_STATUS_LAG_MISS intDur s)))) := by
  rw [execLagMiss, if_neg (Classical.not_and_iff_not_or_not.mpr h)]

theorem bypassExpire_of_bypass (h : tget s.coal.frames tok = some f) (hb : f.bypass = true) : bypassExpire tok s =
    cnt bDUR 6 1 (captureChunks f (s.modCoal (fun c => { c with frames := tset c.frames tok { f with bypass := false } }))) := by
  simp [bypassExpire, h, hb]

theorem durSync_of_go (h : v.testBit 31 = true) : durSync v s = syncDrain .sync (setF F.DUR_SYNC_DONE 0 (storeAt 0x50060 v s)) := by
  rw [durSync, if_pos h]

end

/-! ### The hold-up signal (R171) -/

section
variable (level : Bool) (s : State)

theorem bypassStatus_get_ne {g : Fld} (h : g.key ≠ F.DUR_STATUS_BYPASS_ACTIVE.key) : (bypassStatus s).get g = s.get g :=
  State.get_setF_ne _ s h

theorem huOkChange_get_huOk : (huOkChange level s).get F.DUR_STATUS_HU_OK = level.toNat := by
  rw [huOkChange, bypassStatus_get_ne _ (by decide), State.get_modDome, State.get_when_setErr_ne _ _ _ (by decide)]
  exact State.get_setB_self _ _ (by decide)

theorem huOkChange_dome : (huOkChange level s).dome.huOk = level := rfl

variable {s} in
/-- A fall while ACTIVE is an error. -/
theorem huOkChange_fall_sets_huLow (hok : s.on F.DUR_STATUS_HU_OK = true) (hmode : s.glb.mode = .active) :
    (huOkChange false s).on F.DUR_ERR_STATUS_HU_LOW = true := by
  have hfell : (s.on F.DUR_STATUS_HU_OK && !false && decide (s.glb.mode = .active)) = true := by simp [hok, hmode]
  rw [State.on, bne_iff_ne, huOkChange, bypassStatus_get_ne _ (by decide), State.get_modDome, hfell, when, if_pos rfl]
  exact setErr_get _ _ _ rfl

end

/-! ### Checkpoints are cut (R181) -/

section
variable {v : Nat} {s : State}

/-- Where no checkpoint is being written, one is cut. -/
theorem ckptStart_of_free (h : s.dur.writing = none) : (ckptStart false s).dur.writing = some (Says.ckptCut s) ∧
    (ckptStart false s).dur.sinceCut = 0 ∧ (ckptStart false s).get F.DUR_STATUS_CKPT_BUSY = 1 := by
  rw [ckptStart, h, if_neg (by decide), Says.ckptCut]
  obtain ⟨sets, hdr⟩ := s.ckptPlace (s.ckptBytes (s.cut false) / quadBytes + 1)
  refine ⟨rfl, rfl, ?_⟩
  rw [State.get_setF_ne _ _ (by decide)]
  exact State.get_setF_one _ rfl

theorem ckptCmd_of_go (h : v.testBit 0 = true) : ckptCmd v s = ckptStart false s := if_pos h

theorem execCkptPeriod_of_free (hauto : s.on F.DUR_CTL_CKPT_AUTO = true) (hdrain : s.dur.drain = 0)
    (hmode : s.glb.mode = .active ∨ s.glb.mode = .quiet) (h : s.dur.writing = none) : execCkptPeriod s = .next (ckptStart false s) := by
  simp [execCkptPeriod, hauto, hdrain, hmode, h]

end

/-! ### Checkpoints complete (R186) -/

section
variable {c : Ckpt} {s : State}

/-- A checkpoint whose pointer has been written is the newest one. -/
def ckptNewest (c : Ckpt) (s : State) : State :=
  (s.modDur (fun d => { d with ckpts := c :: d.ckpts })) |> setF F.DUR_CKPT_STATUS_PSEQ (c.pseq % 2 ^ 48)
    |> setB F.DUR_CKPT_STATUS_LAST_CLEAN c.clean |> cnt bDUR 7 1

theorem ckptNewest_status : (ckptNewest c s).get F.DUR_CKPT_STATUS_LAST_CLEAN = c.clean.toNat ∧
    (ckptNewest c s).get F.DUR_CKPT_STATUS_PSEQ = c.pseq % 2 ^ 48 := by
  simp only [ckptNewest, setB, State.get_cnt]
  refine ⟨State.get_setB_self _ _ (by decide), ?_⟩
  rw [State.get_setF_ne _ _ (by decide)]
  exact State.get_setF_lt _ (Nat.mod_lt _ (by decide))

/-- A checkpoint that has its credit ends with the write of its pointer, which its header rows and its sets' close come before: where
it succeeds the checkpoint is the newest, otherwise it failed. -/
theorem ckptComplete_of_credit (hw : s.dur.writing = some c) (hgo : c.clean = true ∨ s.mayGo classMover 1 (s.ckptBytes c) = true) :
    ∃ (t : State) (k : Nat) (l : List Nat), t.ckptView = (s.dur.ckpts, none, s.alm.wp) ∧
      ckptComplete s = if (almDevice k l t).1 then ckptNext (ckptKeep (ckptNewest c (almDevice k l t).2))
        else ckptNext (setErr F.DUR_ERR_STATUS_CKPT_FAIL intDur (almDevice k l t).2) := by
  have hcredit : ¬ (!c.clean && !s.mayGo classMover 1 (s.ckptBytes c)) = true := by
    rcases hgo with h | h <;> simp [h]
  obtain ⟨table, drawn, htable, hdrawn⟩ := ckptTable_eq_pair
  obtain ⟨ok, stored, hdevice⟩ := almDevice_eq_pair
  rw [ckptComplete, hw, htable, hdevice]
  refine ⟨_, _, _, ?view, (if_neg hcredit).trans rfl⟩
  refine (when_ckptView fun t => takeCredit_ckptView _ t _ _).trans ((seqAll_ckptView fun x t => closeSet_ckptView x t false).trans ?_)
  rcases c.hdr with _ | ⟨_, _ | _⟩ <;> exact hdrawn c _

theorem almDevice_of_unprotected (k : Nat) (l : List Nat) (h : s.alm.wp = false) : almDevice k l s = (true, almStore k l s) := by
  simp [almDevice, h]

/-- Without write protection the pointer is written. -/
theorem ckptComplete_of_written (hw : s.dur.writing = some c) (hwp : s.alm.wp = false)
    (hgo : c.clean = true ∨ s.mayGo classMover 1 (s.ckptBytes c) = true) :
    ∃ u, ckptComplete s = ckptNext (ckptKeep u) ∧ u.dur.ckpts = c :: s.dur.ckpts ∧ u.dur.writing = none ∧
      u.get F.DUR_CKPT_STATUS_LAST_CLEAN = c.clean.toNat ∧ u.get F.DUR_CKPT_STATUS_PSEQ = c.pseq % 2 ^ 48 := by
  obtain ⟨t, k, l, hview, hend⟩ := ckptComplete_of_credit hw hgo
  obtain ⟨hckpts, hwriting, hprot⟩ : t.dur.ckpts = s.dur.ckpts ∧ t.dur.writing = none ∧ t.alm.wp = s.alm.wp := by
    simpa [State.ckptView] using hview
  rw [almDevice_of_unprotected k l (hprot.trans hwp), if_pos rfl] at hend
  exact ⟨_, hend, congrArg (c :: ·) hckpts, hwriting, ckptNewest_status⟩

theorem execCkptComplete_of_quiet (h : s.xlat.rebuilding = []) : execCkptComplete s = .next (after (ckptComplete s)) := by
  simp [execCkptComplete, h]

end

/-! ### The hour counter (R394) -/

theorem powerHour_of_running {s : State} (hasst : s.asstStalled = false)
    (hmode : s.glb.mode = .active ∨ s.glb.mode = .quiet ∨ s.glb.mode = .parked) :
    powerHour s = odoPut odoHours ((s.odo odoHours + 1) % 2 ^ 64) s := by
  rcases hmode with h | h | h <;> simp [powerHour, h, hasst, odoInc]

/-- Settles O20: each row by its equation; the completion of a checkpoint by `ckptComplete_of_written`. -/
theorem journalSyncAndCheckpointRun : Obligations.JournalSyncAndCheckpointRun := by
  unfold Obligations.JournalSyncAndCheckpointRun
  refine ⟨?sealTimer, ?lag, ?bypass, ?sync, ?done, ?holdUp, ?go, ?period, ?complete, ?hour⟩
  case sealTimer => exact fun _ _ _ h => next_congr (sealOne_of_build h)
  case lag => exact fun ageUs _ h => execLagMiss_of_uncommitted ageUs (.inr h)
  case bypass => exact fun _ _ _ h hb => next_congr (congrArg (sealAll false) (bypassExpire_of_bypass h hb))
  case sync => exact fun _ _ _ h => next_congr (durSync_of_go h)
  case done => exact fun s => State.get_setF_one s rfl
  case holdUp =>
    exact fun s hok hmode => ⟨_, rfl, huOkChange_get_huOk false s, huOkChange_fall_sets_huLow hok hmode, huOkChange_dome false s⟩
  case go =>
    intro m v s hgo hfree
    obtain ⟨hcut, -, hbusy⟩ := ckptStart_of_free hfree
    exact ⟨_, next_congr (ckptCmd_of_go hgo), hcut, hbusy⟩
  case period =>
    intro s hauto hdrain hmode hfree
    obtain ⟨hcut, hsince, -⟩ := ckptStart_of_free hfree
    exact ⟨_, execCkptPeriod_of_free hauto hdrain hmode hfree, hcut, hsince⟩
  case complete =>
    intro c s hquiet hw hwp hgo
    obtain ⟨u, hend, hu⟩ := ckptComplete_of_written hw hwp hgo
    exact ⟨u, (execCkptComplete_of_quiet hquiet).trans (next_after_congr hend), hu⟩
  case hour => exact fun _ hasst hmode => next_congr (powerHour_of_running hasst hmode)

end Sys2Proof.Machine
end

section
/-! PROOFS. The statement of 08_working_memory.md: how the working-memory, key and ring rows end. -/

namespace Sys2Proof.Machine

/-! ### The merge buffer and the patrol scrub (R205, R207, R210) -/

section
variable {line : Nat} {e : MergeEnt} {l : List MergeEnt} {out : WmOut} {ok : Bool} {s t : State}

theorem execMergeHoldExpire_of_partial (hm : s.wm.merge = e :: l) (hmask : e.mask ≠ 2 ^ 64 - 1)
    (hdec : wmDecode e.line out (s.modWm (fun w => { w with merge := w.merge.filter (fun x => x.line != e.line) })) = (ok, t)) :
    let u := wmLineWritten e.line (unmark e.line (cnt bWMEM 4 1 (wmLineRead e.line (incF F.WMEM_MERGE_CNT_RMW 1 (wmStoreBytes e.line e.mask e.bytes t)))))
    execMergeHoldExpire out s = .next (if ok then u else
      setErr F.WMEM_ERR_STATUS_RMW_UE intWmem (u.modWm (fun w => { w with markers := e.line :: w.markers }))) := by
  rw [execMergeHoldExpire, hm]
  simp only [mergeFlush, if_neg hmask, hdec]

/-- In ACTIVE or QUIET the patrol takes the line it stands at. -/
theorem patrolScrub_eq (hen : s.on F.WMEM_SCRUB_CFG_EN = true) (hmode : s.glb.mode = .active ∨ s.glb.mode = .quiet)
    (hline : line = s.get F.WMEM_SCRUB_POS_LINE) :
    patrolScrub out s = if s.wm.merge.any (fun e => e.line == line) then scrubAdvance s
      else let (ok, t) := wmDecode line out (cnt bWMEM 5 1 (cnt bWMEM 0 1 s))
        scrubAdvance (if ok then (if correctedOut (s.wmOut line out) then cnt bWMEM 1 1 t else t)
          else setErr F.WMEM_ERR_STATUS_SCRUB_UE intWmem t) := by
  subst hline
  exact if_pos (by simpa [hen] using hmode)

theorem patrolScrub_of_held (hen : s.on F.WMEM_SCRUB_CFG_EN = true) (hmode : s.glb.mode = .active ∨ s.glb.mode = .quiet)
    (hline : line = s.get F.WMEM_SCRUB_POS_LINE) (hheld : ∃ e ∈ s.wm.merge, e.line = line) : patrolScrub out s = scrubAdvance s := by
  rw [patrolScrub_eq hen hmode hline, if_pos (by simpa using hheld)]

theorem patrolScrub_of_free (hen : s.on F.WMEM_SCRUB_CFG_EN = true) (hmode : s.glb.mode = .active ∨ s.glb.mode = .quiet)
    (hline : line = s.get F.WMEM_SCRUB_POS_LINE) (hfree : ∀ e ∈ s.wm.merge, e.line ≠ line)
    (hdec : wmDecode line out (cnt bWMEM 5 1 (cnt bWMEM 0 1 s)) = (ok, t)) :
    patrolScrub out s = scrubAdvance (if ok then (if correctedOut (s.wmOut line out) then cnt bWMEM 1 1 t else t)
      else setErr F.WMEM_ERR_STATUS_SCRUB_UE intWmem t) := by
  rw [patrolScrub_eq hen hmode hline, if_neg (by simpa using hfree), hdec]

end

/-! ### KEY commands (R223, R260) -/

section
variable {q cid op : Nat} {c : RCmd} {o o1 : KeyOp} {s t u : State}

theorem keyRunN_of_none (h : s.ciph.ops = []) (n : Nat) : keyRunN n s = s := by
  cases n <;> simp [keyRunN, h]

/-- The only operation of the queue ends at its step. -/
theorem keyAdvance_of_done {st res : Nat} (hops : u.ciph.ops = [o]) (hstep : keyStep o u = (.done st res, t))
    (hend : (keyEnd o st res t).ciph.ops = []) : keyAdvance u = sanitizeStep (keyEnd o st res t) := by
  have hrun : keyRunN (4 * u.ciph.ops.length) u = keyRunN 3 (keyEnd o st res t) := by
    simp [keyRunN, hops, hstep]
  rw [keyAdvance, hrun, keyRunN_of_none hend]

/-- It moves on, and its next step leaves it as it is. -/
theorem keyAdvance_of_wait (hops : u.ciph.ops = [o]) (hstep : keyStep o u = (.wait, t)) (hmoved : t.ciph.ops = [o1]) (hne : o1 ≠ o)
    (hwait : (keyStep o1 t).1 = .wait) (hrest : (keyStep o1 t).2.ciph.ops = [o1]) : keyAdvance u = sanitizeStep t := by
  have hnext : keyStep o1 t = (.wait, (keyStep o1 t).2) := Prod.ext hwait rfl
  have hstay : keyRunN 3 t = t := by
    simp only [keyRunN, hmoved]
    rw [hnext]
    simp [hrest]
  have hrun : keyRunN (4 * u.ciph.ops.length) u = keyRunN 3 t := by
    simp [keyRunN, hops, hstep, hmoved, hne]
  rw [keyAdvance, hrun, hstay]

theorem cmdStep_of_taken (hcmd : s.cmdOf q cid op = some c) (hheld : s.heldBack c = false) (f : RCmd → State → State) :
    cmdStep q cid op f s = f { c with started := true } (Says.started c s) := by
  simp [cmdStep, hcmd, hheld, Says.started]

theorem ringKey_of_new (hop : c.opt % 16 = op) (hwait : c.waiting = 0) :
    ringKey op c s = keyAdvance (keyPush (Says.keyOp c op) (modCmd c.id (fun x => { x with waiting := 1 }) s)) :=
  if_neg (by simp [hop, hwait])

/-- The KEY rows of a command, each with its operation (R222). -/
def keyRows (pair : Fin 16384) (cid : BitVec 16) : List (Nat × Instr) :=
  [(1, .keyIssue pair cid), (2, .keySetCurrent pair cid), (3, .keyClearCurrent pair cid), (4, .keyRetire pair cid), (5, .keyDestroy pair cid),
    (6, .keyQuery pair cid)]

theorem exec_key {pair : Fin 16384} {cid : BitVec 16} {i : Instr} (h : (op, i) ∈ keyRows pair cid) (s : State) :
    exec i s = keyRow op pair cid s := by
  simp only [keyRows, List.mem_cons, Prod.mk.injEq, List.not_mem_nil, or_false] at h
  obtain ⟨rfl, rfl⟩ | ⟨rfl, rfl⟩ | ⟨rfl, rfl⟩ | ⟨rfl, rfl⟩ | ⟨rfl, rfl⟩ | ⟨rfl, rfl⟩ := h <;> rfl

/-- A KEY row takes its command up: it joins the queue, which goes on. -/
theorem exec_key_of_new {pair : Fin 16384} {cid : BitVec 16} {i : Instr} (hi : (op, i) ∈ keyRows pair cid)
    (hcmd : s.cmdOf pair.val cid.toNat 9 = some c) (hheld : s.heldBack c = false) (hwait : c.waiting = 0) (hop : c.opt % 16 = op) :
    exec i s = .next (Says.keyTaken c op s) := by
  rw [exec_key hi, keyRow, cmdStep_of_taken hcmd hheld]
  exact next_after_congr (ringKey_of_new (c := { c with started := true }) hop hwait)

end

/-! ### Pairs (R247 to R251, R266) -/

section
variable {bar0 : Bool} {q v : Nat} {s : State}

theorem slotGuard_of_ok (h : bar0 = true → s.bar0Ok q = true) (f : State → State) : slotGuard bar0 q f s = f s := by
  cases bar0 with
  | false => rfl
  | true => simp [slotGuard, h rfl]

theorem badDoorbell_of_running (h : s.qSt q = qActive ∨ s.qSt q = qDraining) : badDoorbell q s = pairError q errDoorbell s := if_pos h

theorem qpCfgWrite_of_disabled (hq : s.qSt q = qDisabled) (hen : (storeAt (slotOff q 0x10) v s).on (F.QP_CFG_EN q) = true) :
    qpCfgWrite q v s = pairOn q (storeAt (slotOff q 0x10) v s) :=
  (if_pos hq).trans (if_pos hen)

/-- EN := 0 outside DISABLED, state by state. -/
theorem qpCfgWrite_of_off (hen : v.testBit 31 = false) (hq : s.qSt q ≠ qDisabled) :
    qpCfgWrite q v s = if s.qSt q = qActive then pairRest q (setQ q qDraining s)
      else if s.qSt q = qDraining then s else pairRest q (setF (F.QP_CFG_EN q) 0 s) :=
  (if_neg hq).trans (if_neg (by simp [hen]))

theorem qpCfgWrite_of_active (hen : v.testBit 31 = false) (hq : s.qSt q = qActive) :
    qpCfgWrite q v s = pairRest q (setQ q qDraining s) := by
  rw [qpCfgWrite_of_off hen (by rw [hq]; decide), if_pos hq]

theorem qpCfgWrite_of_draining (hen : v.testBit 31 = false) (hq : s.qSt q = qDraining) : qpCfgWrite q v s = s := by
  rw [qpCfgWrite_of_off hen (by rw [hq]; decide), if_neg (by rw [hq]; decide), if_pos hq]

theorem qpCfgWrite_of_stopped (hen : v.testBit 31 = false) (hact : s.qSt q ≠ qActive) (hdrain : s.qSt q ≠ qDraining)
    (hdis : s.qSt q ≠ qDisabled) : qpCfgWrite q v s = pairRest q (setF (F.QP_CFG_EN q) 0 s) := by
  rw [qpCfgWrite_of_off hen hdis, if_neg hact, if_neg hdrain]

theorem qSt_setErr_hostDma : (setErr F.RING_ERR_STATUS_HOST_DMA intRing s).qSt q = s.qSt q :=
  State.get_setErr_ne _ s (Fld.key_ne_of_off (f := F.QP_STATUS_STATE q) (g := F.RING_ERR_STATUS_HOST_DMA) (show 61 < 64 by decide)
    (show 2 < 64 by decide) (show 0x400030 + q * 0x40 ≠ 0x350008 by omega))

theorem pairDmaFail_of_running (h : s.qSt q = qActive ∨ s.qSt q = qDraining) :
    pairDmaFail q s = dropCmds (· == q) (pairError q errDma (setErr F.RING_ERR_STATUS_HOST_DMA intRing s)) :=
  if_pos (by rwa [qSt_setErr_hostDma])

theorem pairDmaFail_of_rest (hact : s.qSt q ≠ qActive) (hdrain : s.qSt q ≠ qDraining) :
    pairDmaFail q s = setErr F.RING_ERR_STATUS_HOST_DMA intRing s :=
  if_neg (by simp [qSt_setErr_hostDma, hact, hdrain])

end

/-! ### Ranges of pairs (R247) -/

section
variable {n v first count k : Nat} {s : State}

/-- The range of another owner meets the range written. -/
def State.allocMeets (s : State) (n first count k : Nat) : Prop :=
  k ≠ n ∧ 0 < count ∧ 0 < s.get (F.RING_LD_ALLOC_COUNT k) ∧
    first < s.get (F.RING_LD_ALLOC_FIRST k) + s.get (F.RING_LD_ALLOC_COUNT k) ∧ s.get (F.RING_LD_ALLOC_FIRST k) < first + count

/-- The pairs written and those given up are at rest. -/
def State.allocIdle (s : State) (n first count : Nat) : Prop :=
  s.runIdle first (min count 16384) = true ∧ s.runIdle (s.get (F.RING_LD_ALLOC_FIRST n)) (s.get (F.RING_LD_ALLOC_COUNT n)) = true

/-- The model's check of a range (R247). -/
theorem allocBad_iff :
    (16384 < first + count ∨
      ((List.range 17).any (fun m => m != n && decide (0 < count) && decide (0 < s.get (F.RING_LD_ALLOC_COUNT m)) &&
        decide (first < s.get (F.RING_LD_ALLOC_FIRST m) + s.get (F.RING_LD_ALLOC_COUNT m)) &&
        decide (s.get (F.RING_LD_ALLOC_FIRST m) < first + count))) = true ∨
      (!s.runIdle first (min count 16384)) = true ∨
      (!s.runIdle (s.get (F.RING_LD_ALLOC_FIRST n)) (s.get (F.RING_LD_ALLOC_COUNT n))) = true) ↔
    16384 < first + count ∨ (∃ k < 17, s.allocMeets n first count k) ∨ ¬ s.allocIdle n first count := by
  simp only [State.allocMeets, State.allocIdle, List.any_eq_true, List.mem_range, Bool.and_eq_true, bne_iff_ne, decide_eq_true_eq,
    Bool.not_eq_true', Decidable.not_and_iff_not_or_not, Bool.not_eq_true, and_assoc]

theorem ringAlloc_of_bad (hfirst : first = v % 2 ^ 14) (hcount : count = v / 2 ^ 32 % 2 ^ 15)
    (h : 16384 < first + count ∨ (∃ k < 17, s.allocMeets n first count k) ∨ ¬ s.allocIdle n first count) :
    ringAlloc n v s = setErr F.RING_ERR_STATUS_ALLOC_BAD intRing s := by
  subst hfirst hcount
  exact if_pos (allocBad_iff.mpr h)

theorem ringAlloc_of_free (hfirst : first = v % 2 ^ 14) (hcount : count = v / 2 ^ 32 % 2 ^ 15) (hfit : first + count ≤ 16384)
    (hclear : ∀ k < 17, ¬ s.allocMeets n first count k) (hidle : s.allocIdle n first count) :
    ringAlloc n v s = storeAt (0x350100 + 8 * n) v s := by
  have hgood : ¬ (16384 < first + count ∨ (∃ k < 17, s.allocMeets n first count k) ∨ ¬ s.allocIdle n first count) := by
    rintro (h | ⟨k, hk, h⟩ | h)
    · omega
    · exact hclear k hk h
    · exact h hidle
  subst hfirst hcount
  exact if_neg fun h => hgood (allocBad_iff.mp h)

end

/-! ### Data commands (R257, R258) -/

section
variable {f : LineStep} {fin : RCmd → State → Option (Nat × Nat) × State} {c c1 : RCmd} {e : Nat × Nat} {s t v : State}

theorem dataStep_of_stop (hunit : c.atUnit = true) (hstop : stopAtUnit c s = some e) : dataStep f fin c s = cmdEnd c e.1 e.2 s := by
  rw [dataStep, hunit, if_pos rfl, hstop]

theorem stop_eq_none (hgo : c.atUnit = false ∨ stopAtUnit c s = none) : (if c.atUnit then stopAtUnit c s else none) = none := by
  rcases hgo with h | h <;> simp [h]

theorem dataStep_of_lineEnd (hgo : c.atUnit = false ∨ stopAtUnit c s = none) (hpos : c.pos < c.len)
    (hrun : unitRun f 256 c s = (.inr e, t)) : dataStep f fin c s = cmdEnd c e.1 e.2 t := by
  simp only [dataStep, stop_eq_none hgo, if_pos hpos, hrun]

theorem dataStep_of_more (hgo : c.atUnit = false ∨ stopAtUnit c s = none) (hpos : c.pos < c.len)
    (hrun : unitRun f 256 c s = (.inl c1, t)) (hmore : c1.pos < c1.len) :
    dataStep f fin c s = regStatus (modCmd c.id (fun _ => c1) t) := by
  simp only [dataStep, stop_eq_none hgo, if_pos hpos, hrun, if_pos hmore]

theorem dataStep_of_rangeDone (hgo : c.atUnit = false ∨ stopAtUnit c s = none) (hpos : c.pos < c.len)
    (hrun : unitRun f 256 c s = (.inl c1, t)) (hdone : c1.len ≤ c1.pos) (hfin : fin c1 (modCmd c.id (fun _ => c1) t) = (some e, v)) :
    dataStep f fin c s = regStatus (cmdEnd c1 e.1 e.2 v) := by
  simp only [dataStep, stop_eq_none hgo, if_pos hpos, hrun, if_neg (Nat.not_lt.mpr hdone), hfin]

end

/-! ### Lines of ring commands (R257, R258, R375) -/

section
variable {c : RCmd} {leaves : List RingLeaf} {use : RCmd → Line × Bool × Bool → RCmd ⊕ (Nat × Nat)} {x : Line × Bool × Bool}
  {ld cls src dst : Nat} {s t u v w z : State}

theorem fillLine_of_taken (hld : ld = s.cmdLd c) (hcls : cls = ownerClass ld) (hdst : dst = c.a0 + c.pos)
    (hmay : s.lineMay cls 0 64 = true) (hwait : s.mustWait (ringReq ld dst true 0 false) = false)
    (hlook : ringEnter c dst true s = (true, t)) (hwrite : ringWrite ld dst c.pattern false t = (.taken, u)) :
    fillLine c s = (some (.inl c), cnt (bLD ld) 7 64 (takeCredit cls 1 64 u)) := by
  subst hcls hld hdst
  simp only [fillLine, hmay, hwait, hlook, hwrite, Bool.not_true, Bool.or_self, Bool.false_eq_true, if_false]

theorem readLine_of_ready (hld : ld = s.cmdLd c) (hcls : cls = ownerClass ld) (hsrc : src = c.a0 + c.pos)
    (hmay : s.lineMay cls 64 0 = true) (hwait : s.mustWait (ringReq ld src false 0 false) = false) (hback : s.backed ld src = true)
    (hlook : ringEnter c src false s = (true, t)) (hready : ringReady ld src (firstOfLeaf c src) t = (true, u))
    (hread : ringRead ld src leaves (firstOfLeaf c src) u = (x, v)) :
    readLine leaves use c s = (some (use c x), cnt (bLD ld) 6 64 (takeCredit cls 0 64 v)) := by
  subst hcls hld hsrc
  simp only [readLine, hmay, hwait, hback, hlook, hready, hread, Bool.not_true, Bool.or_self, Bool.false_eq_true, if_false]

theorem copyLine_of_taken (hld : ld = s.cmdLd c) (hcls : cls = ownerClass ld) (hsrc : src = c.a0 + c.pos) (hdst : dst = c.a1 + c.pos)
    (hmay : s.lineMay cls 64 64 = true) (hwaitR : s.mustWait (ringReq ld src false 0 false) = false)
    (hwaitW : s.mustWait (ringReq ld dst true 0 false) = false) (hback : s.backed ld src = true)
    (hlookR : ringEnter c src false s = (true, t)) (hlookW : ringEnter c dst true t = (true, u))
    (hroom : (writeRefused (ringReq ld dst true 0 false) u).isNone = true → u.canAccept ld dst = true)
    (hready : ringReady ld src (firstOfLeaf c src) u = (true, v)) (hread : ringRead ld src leaves (firstOfLeaf c src) v = (x, w))
    (hwrite : ringWrite ld dst x.1 x.2.1 w = (.taken, z)) :
    copyLine leaves c s = (some (.inl c),
      cnt (bLD ld) 7 64 (cnt (bLD ld) 6 64 (cnt bRING 4 64 (takeCredit cls 1 64 (takeCredit cls 0 64 z))))) := by
  have hplace : ((writeRefused (ringReq ld dst true 0 false) u).isNone && !u.canAccept ld dst) = false := by
    cases hnone : (writeRefused (ringReq ld dst true 0 false) u).isNone with
    | false => rfl
    | true => simp [hroom hnone]
  subst hcls hld hsrc hdst
  simp only [copyLine, hmay, hwaitR, hwaitW, hback, hlookR, hlookW, hplace, hready, hread, hwrite, Bool.not_true, Bool.or_self,
    Bool.false_eq_true, if_false]

end

/-! ### SEAL, DISCARD, PREFETCH, TELEMETRY, ABORT (R257 to R261, R264) -/

section
variable {c t : RCmd} {s : State}

theorem ringSeal_of_rest (hstop : stopAtUnit c s = none) (hpos : c.pos ≠ 0) (hwait : c.waiting = 0) :
    ringSeal c s = cmdEnd c 0x20 (c.pre / 2 ^ 20) s := by
  simp only [ringSeal, hstop, if_neg hpos, if_pos hwait]

theorem ringDiscard_of_backed {ld f : Nat} {c1 : RCmd} (hld : ld = s.cmdLd c) (hf : f = c.a0 / 2 ^ 20 + c.pos / 2 ^ 20)
    (hc1 : c1 = { c with pos := c.pos + 2 ^ 20, pre := c.pre + 2 ^ 20, cntA := c.cntA + (s.mapped ld f).toNat })
    (hstop : stopAtUnit c s = none) (hwait : c.waiting = 0) (hback : s.backed ld (f * 2 ^ 20) = true) :
    let u := discardFolio ld f (if c.pos = 0 then capture recDiscard ld 0 (c.a0 / 2 ^ 20) [c.len / 2 ^ 20] s else s)
    ringDiscard c s = if c1.pos < c1.len then modCmd c.id (fun _ => c1) u
      else forceCommit (.ring c.id) (modCmd c.id (fun _ => { c1 with waiting := 1 }) u) := by
  subst hc1 hf hld
  rw [ringDiscard, if_neg (not_not_intro hwait), hstop]
  exact if_neg (by rw [hback]; decide)

theorem ringPrefetch_of_backed (hstop : stopAtUnit c s = none) (hpos : c.pos < c.len) (hback : s.backed (s.cmdLd c) (c.a0 + c.pos) = true) :
    ringPrefetch c s = modCmd c.id (fun _ => (prefetchUnit c s).1) (prefetchUnit c s).2 := by
  rw [ringPrefetch, hstop]
  exact (if_pos hpos).trans (if_neg (by simp [hback]))

theorem ringPrefetch_of_measured (hstop : stopAtUnit c s = none) (hdone : c.len ≤ c.pos)
    (hfed : ∀ x ∈ c.fed, ∀ m ∈ s.drift.meas, m.set ≠ x.toNat) : ringPrefetch c s = cmdEnd c 0 (c.cntA * 2 ^ 32 + c.cntB) s := by
  rw [ringPrefetch, hstop]
  exact (if_neg (Nat.not_lt.mpr hdone)).trans (if_neg (by simpa using hfed))

theorem numBytes_length (n v : Nat) : (numBytes n v).length = n := by
  simp [numBytes]

/-- The record of a snapshot begins with a header of 64 bytes (R261). -/
theorem ringTelemetry_of_room {n : Nat} {body : List Nat} (htel : s.telemetry (s.cmdLd c) c.opt = (n, body)) (hmark : c.marked = false)
    (hroom : 64 + body.length ≤ c.len) :
    ∃ hdr, hdr.length = 64 ∧ hdr.take 8 = c.opt :: List.replicate 7 0 ∧
      ringTelemetry true c s = cmdEnd c 0 (64 + body.length) (emit (.hostWrite c.a1 (hdr ++ body)) s) := by
  refine ⟨[c.opt] ++ List.replicate 7 0 ++ numBytes 8 n ++ numBytes 8 s.dur.aseq ++ numBytes 8 s.dur.aseq ++ numBytes 8 s.clk.tod ++
    List.replicate 24 0, by simp [numBytes_length], by simp, ?_⟩
  rw [ringTelemetry, htel]
  exact (if_neg (by simp [hmark])).trans ((if_neg (Nat.not_lt.mpr hroom)).trans (if_pos rfl))

/-- An ABORT marks a data command, which ends at once where it stands at a unit's edge. -/
theorem ringAbort_of_open {o q : Nat} (ho : o = s.cmdLd c) (hq : q = s.get (F.RING_LD_ALLOC_FIRST o) + c.a0)
    (hfind : s.ring.cmds.find? (fun x => x.pair == q && x.cid == leNum (c.param.take 2) && s.pairOwner q == some o) = some t)
    (hopen : t.final = none) (hmark : t.marked = false) (h5 : t.op ≠ 5) (h6 : t.op ≠ 6) (h7 : t.op ≠ 7) (h9 : t.op ≠ 9) (h11 : t.op ≠ 11) :
    let u := modCmd t.id (fun x => { x with marked := true }) s
    ringAbort c s = cmdEnd c 2 0 (modCmd c.id (fun x => { x with cntA := t.id + 1 }) (if t.atUnit then cmdEnd t 3 t.pre u else u)) := by
  subst hq ho
  rw [ringAbort, hfind]
  refine (if_neg (by simp [hopen, hmark, h7, h9, h11])).trans ?_
  simp only [if_neg h5, if_neg h6]

end

/-! ### The hash engines and completions (R255, R258) -/

section
variable {c : RCmd} {s : State}

theorem execHashEngineGrant_of_waiting (hfree : (s.ring.cmds.filter (·.engine)).length < 32)
    (hfind : s.ring.cmds.find? (fun c => c.op == 4 && c.final.isNone && !c.engine) = some c) :
    execHashEngineGrant s = .next (ringStatus (modCmd c.id (fun x => { x with engine := true }) s)) := by
  rw [execHashEngineGrant, if_pos hfree, hfind]

theorem completionPost_of_ended {q cid st res : Nat} (dma : Bool)
    (hfind : s.ring.cmds.find? (fun c => c.pair == q && c.cid == cid && c.final.isSome &&
      !(c.op == 11 && s.ring.cmds.any (fun x => x.id + 1 == c.cntA))) = some c) (hfinal : c.final = some (st, res)) :
    completionPost q cid dma s = regStatus (cmdPost dma c st res s) := by
  simp only [completionPost, hfind, hfinal]

end

/-- Settles O57: each row by the equation of its operation in the case it states. -/
theorem everyMemoryKeyAndRingRowCompletes : Obligations.EveryMemoryKeyAndRingRowCompletes := by
  unfold Obligations.EveryMemoryKeyAndRingRowCompletes
  refine ⟨?mr4, ?merge, ?scrub, ?key, ?pairs, ?alloc, ?data, ?lines, ?folio, ?telemetry, ?abort, ?hash, ?post, ?dma⟩
  case mr4 => exact fun _ _ => rfl
  case merge => exact fun _ _ _ _ _ _ hm hmask hdec => execMergeHoldExpire_of_partial hm hmask hdec
  case scrub =>
    exact fun _ _ _ _ hen hmode => ⟨fun hheld => next_congr (patrolScrub_of_held hen hmode rfl hheld),
      fun hfree hdec => next_congr (patrolScrub_of_free hen hmode rfl hfree hdec)⟩
  case key =>
    intro pair cid c op i s t hi hcmd hheld hwait hop hops
    have hqueue : (keyPush (Says.keyOp c op) (modCmd c.id (fun x => { x with waiting := 1 }) (Says.started c s))).ciph.ops =
        [Says.keyOp c op] := congrArg (· ++ [Says.keyOp c op]) hops
    have htaken := exec_key_of_new hi hcmd hheld hwait hop
    exact ⟨fun st res hstep hend => htaken.trans (next_after_congr (keyAdvance_of_done hqueue hstep hend)),
      fun o1 hstep hmoved hne hnext hrest => htaken.trans (next_after_congr (keyAdvance_of_wait hqueue hstep hmoved hne hnext hrest))⟩
  case pairs =>
    intro bar0 pair v s hbar i
    have hguard (f : State → State) {u : State} (h : f s = u) :
        (Host.Outcome.next (slotGuard bar0 pair.val f s) : Host.Outcome State Fault Refusal) = .next u :=
      next_congr ((slotGuard_of_ok hbar f).trans h)
    exact ⟨fun h => hguard _ (if_neg (Nat.not_le.mpr h)), fun h => hguard _ (if_pos h), hguard _ rfl, badDoorbell_of_running,
      fun hq hen => hguard _ (qpCfgWrite_of_disabled hq hen), fun hen hq => hguard _ (qpCfgWrite_of_active hen hq),
      fun hen hq => hguard _ (qpCfgWrite_of_draining hen hq), fun hen hact hdrain hdis => hguard _ (qpCfgWrite_of_stopped hen hact hdrain hdis)⟩
  case alloc =>
    exact fun m n v s => ⟨fun hfit hclear hidle => next_congr (ringAlloc_of_free rfl rfl hfit hclear hidle),
      fun h => next_congr (ringAlloc_of_bad rfl rfl h)⟩
  case data =>
    exact fun f fin c c1 s t => ⟨fun e hunit hstop => dataStep_of_stop hunit hstop, fun hgo =>
      ⟨fun e hpos hrun => dataStep_of_lineEnd hgo hpos hrun, fun hpos hrun hmore => dataStep_of_more hgo hpos hrun hmore,
        fun e v hpos hrun hdone hfin => dataStep_of_rangeDone hgo hpos hrun hdone hfin⟩⟩
  case lines =>
    exact fun c leaves use a b p q s t u x y z =>
      ⟨fun hmay hwait hlook hwrite => fillLine_of_taken rfl rfl rfl hmay hwait hlook hwrite,
        fun hmay hwait hback hlook hready hread => readLine_of_ready rfl rfl rfl hmay hwait hback hlook hready hread,
        fun hmay hwaitR hwaitW hback hlookR hlookW hroom hready hread hwrite =>
          copyLine_of_taken rfl rfl rfl rfl hmay hwaitR hwaitW hback hlookR hlookW hroom hready hread hwrite⟩
  case folio =>
    exact fun c s hstop => ⟨ringSeal_of_rest hstop, fun hwait hback => ringDiscard_of_backed rfl rfl rfl hstop hwait hback,
      ringPrefetch_of_backed hstop, ringPrefetch_of_measured hstop⟩
  case telemetry => exact fun _ _ _ _ htel hmark hroom => ringTelemetry_of_room htel hmark hroom
  case abort =>
    exact fun _ _ _ hfind hopen hmark h5 h6 h7 h9 h11 => ringAbort_of_open rfl rfl hfind hopen hmark h5 h6 h7 h9 h11
  case hash => exact fun _ _ hfree hfind => execHashEngineGrant_of_waiting hfree hfind
  case post => exact fun _ _ _ _ _ dma _ hfind hfinal => next_congr (completionPost_of_ended dma hfind hfinal)
  case dma => exact fun _ _ => ⟨fun h => next_congr (pairDmaFail_of_running h), fun hact hdrain => next_congr (pairDmaFail_of_rest hact hdrain)⟩

end Sys2Proof.Machine
end

section
/-! PROOFS. The statement of 18_start_up.md: how a start goes from the image to CXL.mem ready, a ramp, a root error. -/

namespace Sys2Proof.Machine

/-! ### What the operations of a start leave: the queue, the start, the mode -/

/-- Every operation leaves the queue of commands as it is. -/
theorem closed_pending (l : List Instr) : Closed (fun s => s.pending = l) where
  setF := id
  regsDrop := id
  alm _ := id
  xlat _ := id
  lose := id
  holds := id
  glb := id
  start := id
  log := id
  spec := id
  clk := id
  find := id
  dome := id
  sbus := id
  host := id
  coal := id
  med := id
  drift := id
  fld := id
  dur := id
  wm := id
  ciph := id
  regu := id
  ledg := id
  ring := id
  img := id
  outs := id
  freeCnt := id
  lcsKeep _ := id
  lcsDrop := id
  lcsBegin _ _ := id
  lcsBlow := id

section
variable (f : Fld) (b n p0 p1 : Nat) (s : State)

theorem msixSend_start (view vector : Nat) : (msixSend view vector s).start = s.start := by
  unfold msixSend
  split <;> rfl

theorem raiseInt_start : (raiseInt b s).start = s.start := by
  unfold raiseInt
  dsimp only
  split
  · rfl
  · split
    · exact msixSend_start _ _ _
    · rfl

theorem raiseInt_mode : (raiseInt b s).glb.mode = s.glb.mode := by
  unfold raiseInt
  dsimp only
  split
  · rfl
  · split <;> simp

theorem setErr_mode : (setErr f b s).glb.mode = s.glb.mode := by
  unfold setErr
  split
  · rfl
  · exact raiseInt_mode _ _

theorem logStore_start (code source sev p2 p3 : Nat) : (logStore code source sev p0 p1 p2 p3 s).start = s.start := by
  unfold logStore
  dsimp only
  split
  · exact raiseInt_start _ _
  · rfl

theorem logLost_start : (logLost s).start = s.start := by
  unfold logLost
  split
  · rfl
  · exact logStore_start _ _ _ _ _ _ _ _

theorem logOpen_start : (logOpen b p0 p1 s).start = s.start := by
  unfold logOpen logPut logFrom
  dsimp only
  split
  · rfl
  · exact (logStore_start _ _ _ _ _ _ _ _).trans (logLost_start _)

theorem logOpen_regs : (logOpen b p0 p1 s).regs = s.regs := logPut_regs _ _ _ _ _ _ _

theorem ddrShow_start (l : List DimmChan) : (ddrShow l s).start = s.start :=
  seqAll_kept (P := fun t => t.start = s.start) (fun _ {_} => id) rfl

end

/-! ### The image and DDR5 training (R195, R198, R298, R402, R414) -/

section
variable {l : List DimmChan} {rec : Bool} {c k : Nat} {s : State}

/-- No slot and no flash gives an image: the loader waits for the mailbox. -/
theorem imageBoot_of_no_source (hmode : s.glb.mode = .starting) (hstage : s.stage = stageImage) (hperst : s.glb.perst = false)
    (hflash : s.on F.GLB_STRAPS_XSPI_EN = false)
    (hslots : (bootPrepare (setF F.IMG_BOOT_LOG_ATTEMPT F.IMG_BOOT_LOG_ATTEMPT.rst s)).bootOrder = []) (x0 x1 : Option Image) (unread ms : Nat) :
    imageBoot unread x0 x1 ms s = setStage stageMailbox (bootPrepare (setF F.IMG_BOOT_LOG_ATTEMPT F.IMG_BOOT_LOG_ATTEMPT.rst s)) := by
  rw [imageBoot, if_pos ⟨hmode, hstage, by simp [hperst]⟩]
  simp only [hslots, hflash, List.foldl_nil, Bool.false_eq_true, if_false]

/-- Training ends in its stage as R195's causes decide. -/
theorem ddrTrained_of_start (hrun : s.startRuns = true) (hstage : s.stage = stageTrain) (hnew : s.start.ddrTrained = false) {err : Nat}
    (herr : s.popErr l = (err, c, k)) :
    ddrTrained l rec s =
      if err ≠ 0 then logOpen bWMEM c k (setStage stageHaltPop (setF F.WMEM_STATUS_POP_ERR err (ddrShow l s)))
      else setF F.MERID_STATUS_WIPE_BUSY 1 (setF F.WMEM_STATUS_TRAIN_SRC (if rec && s.recMatch l then 2 else 1)
        (((ddrShow l s).modStart (fun x => { x with ddrTrained := true })).modWm
          (fun w => { w with recPend := if rec && s.recMatch l then none else some (ddrIds l) }))) := by
  have hgo : (s.startRuns && s.stage == stageTrain && !s.start.ddrTrained) = true := by simp [hrun, hstage, hnew]
  simp only [ddrTrained, hgo, herr, if_true]

theorem ddrTrained_result (hrun : s.startRuns = true) (hstage : s.stage = stageTrain) (hnew : s.start.ddrTrained = false)
    (herr : s.popErr l = (0, 0, 0)) :
    (ddrTrained l rec s).start.ddrTrained = true ∧
      (ddrTrained l rec s).wm.recPend = (if rec && s.recMatch l then none else some (ddrIds l)) ∧
      (ddrTrained l rec s).get F.WMEM_STATUS_TRAIN_SRC = (if rec && s.recMatch l then 2 else 1) ∧
      (ddrTrained l rec s).get F.MERID_STATUS_WIPE_BUSY = 1 := by
  rw [ddrTrained_of_start hrun hstage hnew herr, if_neg (not_not_intro rfl)]
  refine ⟨rfl, rfl, ?_, State.get_setF_one _ rfl⟩
  rw [State.get_setF_ne _ _ (by decide)]
  exact State.get_setF_lt _ (by split <;> decide)

theorem ddrTrained_stopped {err : Nat} (hrun : s.startRuns = true) (hstage : s.stage = stageTrain) (hnew : s.start.ddrTrained = false)
    (herr : s.popErr l = (err, c, k)) (hpos : err ≠ 0) (hlt : err < 16) :
    (ddrTrained l rec s).get F.WMEM_STATUS_POP_ERR = err ∧ (ddrTrained l rec s).stage = stageHaltPop ∧
      (ddrTrained l rec s).start.ddrTrained = false := by
  rw [ddrTrained_of_start hrun hstage hnew herr, if_pos hpos]
  refine ⟨?_, ?_, ?_⟩
  · rw [State.get_congr (logOpen_regs _ _ _ _), setStage, State.get_setF_ne _ _ (by decide)]
    exact State.get_setF_lt _ hlt
  · exact (State.get_congr (logOpen_regs _ _ _ _) _).trans (State.get_setF_lt _ (by decide))
  · rw [logOpen_start]
    exact (congrArg Start.ddrTrained (ddrShow_start s l)).trans hnew

end

/-! ### Replay, the end of a start, a ramp (R313, R414, R415) -/

section
variable {s : State}

theorem replayRun_of_ready {o0 o1 us : Nat} {bad badHdr : List Nat} {vaultOk : Bool} (hrun : s.startRuns = true) (hstage : s.stage = stageTrain)
    (hddr : s.start.ddrTrained = true) (hchans : s.img.chans ≠ 0)
    (htrained : ∀ c < 32, s.img.chans.testBit c = true → s.get (F.MCH_STATUS_STATE c) ≠ 1) :
    replayRun o0 o1 bad badHdr vaultOk us s = failedDiesBad (replay (fun i => if i = 0 then o0 else o1) (fun j => bad.contains j)
      (fun p => badHdr.contains p) vaultOk us (setStage stageReplay s)) := by
  have hall : ((List.range 32).all fun c => !s.img.chans.testBit c || s.get (F.MCH_STATUS_STATE c) != 1) = true := by
    simpa [Decidable.imp_iff_not_or] using htrained
  exact if_pos (by simp [hrun, hstage, hddr, hchans, hall])

theorem warmReady_result (hwarm : s.start.warm = true) (hperst : s.glb.perst = false) (hstage : s.stage = stageWarm) :
    (warmReady s).start.memActive = true ∧ (warmReady s).start.warm = false ∧ (warmReady s).stage = stageReady := by
  rw [warmReady, if_pos (by simp [hwarm, hperst, hstage])]
  refine ⟨rfl, rfl, (State.get_setF_ne _ _ (by decide)).trans (State.get_setF_lt _ (by decide))⟩

theorem rampDone_of_ramp {d : Nat} (hd : d < 32 ∨ 40 ≤ d) (h : s.pd d = .ramp) (katOk : Bool) :
    rampDone d katOk s = pdSettle (setPd d .on s) := by
  rw [rampDone, if_pos h]
  exact congrArg pdSettle (if_neg (by omega))

end

/-! ### FAULT-HALT (R12, R15, R244, R327) -/

section
variable {cause rail mv : Nat} {s : State}

theorem railFault_result (h : s.glb.mode ≠ .faultHalt) :
    (railFault cause rail mv s).glb.mode = .faultHalt ∧ (railFault cause rail mv s).get F.GLB_MODE_STATUS_CURRENT = 4 := by
  rw [railFault, if_neg h]
  exact ⟨rfl, (State.get_setF_ne _ _ (by decide)).trans (State.get_setF_lt _ (by decide))⟩

/-- A root error enters FAULT-HALT and leaves DOME_FAULT's VALID and IN_SEQ as they were. -/
theorem rootUe_of_active (h : s.glb.mode = .active) :
    ∃ cause rail mv, rootUe s = setF F.DOME_FAULT_IN_SEQ (s.get F.DOME_FAULT_IN_SEQ) (setF F.DOME_FAULT_VALID (s.get F.DOME_FAULT_VALID)
      (railFault cause rail mv (setErr F.MERID_ERR_STATUS_ROOT_UE intMerid s))) :=
  ⟨_, _, _, if_neg (by simp [h])⟩

theorem rootUe_result (h : s.glb.mode = .active) :
    (rootUe s).glb.mode = .faultHalt ∧ (rootUe s).get F.GLB_MODE_STATUS_CURRENT = 4 ∧
      (rootUe s).get F.DOME_FAULT_VALID = s.get F.DOME_FAULT_VALID % 2 ∧ (rootUe s).pending = s.pending := by
  refine and_assoc.mp (and_assoc.mp ⟨?_, rootUe_kept (closed_pending s.pending) rfl⟩)
  obtain ⟨cause, rail, mv, heq⟩ := rootUe_of_active h
  obtain ⟨hmode, hcurrent⟩ := railFault_result (cause := cause) (rail := rail) (mv := mv)
    (s := setErr F.MERID_ERR_STATUS_ROOT_UE intMerid s) (by rw [setErr_mode, h]; decide)
  rw [heq, State.get_setF_ne _ _ (by decide), State.get_setF_ne _ _ (by decide), State.get_setF_ne _ _ (by decide)]
  exact ⟨⟨hmode, hcurrent⟩, State.get_setF_self _ _ _⟩

end

/-- Settles O8: each step of a start by the equation of its operation in the case it states. -/
theorem startUpGoesThroughItsSteps : Obligations.StartUpGoesThroughItsSteps := by
  unfold Obligations.StartUpGoesThroughItsSteps
  refine ⟨?image, ?trained, ?unread, ?zeroer, ?replay, ?ready, ?warm, ?ramp, ?root⟩
  case image =>
    exact fun ms s hmode hstage hperst hflash hslots =>
      next_congr (congrArg domeAfter (imageBoot_of_no_source hmode hstage hperst hflash hslots none none 0 ms.toNat))
  case trained => exact fun l rec s hrun hstage hnew herr => ⟨_, rfl, ddrTrained_result hrun hstage hnew herr⟩
  case unread =>
    exact fun l rec c k s hrun hstage hnew herr => ⟨_, rfl, ddrTrained_stopped hrun hstage hnew herr (by decide) (by decide)⟩
  case zeroer => exact fun _ => rfl
  case replay =>
    exact fun o0 o1 bad badHdr vaultOk us s hrun hstage hddr hchans htrained =>
      next_after_congr (replayRun_of_ready hrun hstage hddr hchans htrained)
  case ready => exact fun s h => next_congr (if_pos h)
  case warm =>
    exact fun s hmay hwarm hperst hstage =>
      ⟨_, next_congr (if_neg (ne_true_of_eq_false hmay)), warmReady_result hwarm hperst hstage⟩
  case ramp => exact fun pd s hd h => next_congr (congrArg domeAfter (rampDone_of_ramp hd h true))
  case root => exact fun s h => ⟨_, rfl, rootUe_result h⟩

end Sys2Proof.Machine
end

section
/-! PROOFS. The statement of 09_cipher_and_meridian.md: how KEY commands join the queue of key operations and what each does at its
head. -/

namespace Sys2Proof.Machine

/-! ### The checks of an operation on a KID (R222) -/

section
variable {o : KeyOp} {states : List Nat} {s : State}

theorem keyCheck_of_kid_zero (h : o.kid = 0) (states : List Nat) (s : State) : s.keyCheck o states = some stBadKid := if_pos h

theorem keyCheck_of_foreign (hkid : o.kid ≠ 0) (hused : s.kidSt o.kid ≠ kFree) (howner : (s.kid o.kid).owner ≠ o.ld) (states : List Nat) :
    s.keyCheck o states = some stNotOwner :=
  (if_neg hkid).trans (if_pos ⟨hused, howner⟩)

/-- An owned KID in a right state, without NEXT, passes. -/
theorem keyCheck_of_owned (hkid : o.kid ≠ 0) (hnext : o.next = 0) (hst : s.kidSt o.kid ∈ states) (howner : (s.kid o.kid).owner = o.ld) :
    s.keyCheck o states = none := by
  have hpass : (states.contains (s.kidSt o.kid) && s.nextOk o.kid o.next o.ld) = true := by simp [hst, State.nextOk, hnext]
  rw [State.keyCheck, if_neg hkid, if_neg fun h => h.2 howner, if_pos hpass]

end

/-! ### Operations at the head (R222 to R226, R228) -/

section
variable {o : KeyOp} {s : State}

theorem keyIssue_of_barred (h : s.noIssue = true) : keyIssue o s = (.done stBadState 0, s) := if_pos h

/-- ISSUE where the KID, the quota, the entropy and the almanac allow it. -/
theorem keyIssue_of_written {k n : Nat} {s1 s2 : State} (hmay : s.noIssue = false) (hpick : s.issuePick o.kid = some k)
    (hquota : s.ownedKids o.ld < s.get (F.CIPH_LD_QUOTA_QUOTA o.ld)) (hdrbg : s.ciph.drbgOk = true) (htake : takeKey s = (n, s1))
    (hvault : vaultWrite false (tset s1.heldKeys k n) s1 = (true, s2)) :
    keyIssue o s = keyCommit (modHead (fun h => { h with kid := k }) (kidRecord 1 k o.ld 0 o.flag (when o.flag (setCur o.ld k)
      (modKid k (fun x => { x with st := kActive, owner := o.ld, key := n, held := true, refs := 0 }) s2)))) := by
  simp only [keyIssue, hmay, hpick, Nat.not_le.mpr hquota, hdrbg, htake, hvault, Bool.not_true, Bool.false_eq_true, if_false]

theorem keyStart_issue (hop : o.op = 1) : keyStart o s = keyIssue o s := by
  simp only [keyStart, hop]

theorem keyStart_clearCurrent (hop : o.op = 3) : keyStart o s = keyCommit (kidRecord 3 0 o.ld 0 false (setCur o.ld 0 s)) := by
  simp only [keyStart, hop]

theorem keyStart_setCurrent_of_owned (hop : o.op = 2) (hkid : o.kid ≠ 0) (hnext : o.next = 0) (hst : s.kidSt o.kid = kActive)
    (howner : (s.kid o.kid).owner = o.ld) : keyStart o s = keyCommit (kidRecord 2 o.kid o.ld 0 true (setCur o.ld o.kid s)) := by
  simp only [keyStart, hop, keyCheck_of_owned hkid hnext (List.mem_singleton.mpr hst) howner]

theorem keyStart_retire_of_owned (hop : o.op = 4) (hkid : o.kid ≠ 0) (hnext : o.next = 0) (hst : s.kidSt o.kid = kActive)
    (howner : (s.kid o.kid).owner = o.ld) : keyStart o s = keyFlush [o.kid] kRetiring 0 s := by
  simp only [keyStart, hop, keyCheck_of_owned hkid hnext (List.mem_singleton.mpr hst) howner, hnext]

theorem keyStart_destroy_of_owned (hop : o.op = 5) (hkid : o.kid ≠ 0) (hnext : o.next = 0)
    (hst : s.kidSt o.kid = kActive ∨ s.kidSt o.kid = kRetired) (howner : (s.kid o.kid).owner = o.ld) :
    keyStart o s = keyFlush [o.kid] kDestroying 0 s := by
  have hmem : s.kidSt o.kid ∈ [kActive, kRetired] := by simpa only [List.mem_cons, List.not_mem_nil, or_false] using hst
  simp only [keyStart, hop, keyCheck_of_owned hkid hnext hmem howner, hnext]

/-- What QUERY answers, check by check. -/
theorem keyStart_query (hop : o.op = 6) : keyStart o s =
    if o.kid = 0 then (.done stBadKid 0, s)
    else if s.kidSt o.kid ≠ kFree ∧ (s.kid o.kid).owner ≠ o.ld then (.done stNotOwner 0, s)
    else (.done 0 (s.kidResult o.kid), s) := by
  simp only [keyStart, hop]

theorem keyStart_query_of_owned (hop : o.op = 6) (hkid : o.kid ≠ 0) (howner : (s.kid o.kid).owner = o.ld) :
    keyStart o s = (.done 0 (s.kidResult o.kid), s) := by
  rw [keyStart_query hop, if_neg hkid, if_neg fun h => h.2 howner]

/-- SET_CURRENT, RETIRE and DESTROY end with the status of their check where it fails for any states. -/
theorem keyStart_of_refused {st : Nat} (hop : o.op = 2 ∨ o.op = 4 ∨ o.op = 5) (h : ∀ states, s.keyCheck o states = some st) :
    keyStart o s = (.done st 0, s) := by
  rcases hop with hop | hop | hop
  · simp only [keyStart, hop, h]
  · simp only [keyStart, hop, h]
  · simp only [keyStart, hop, h]

theorem keyStart_of_foreign (hop : o.op = 2 ∨ o.op = 4 ∨ o.op = 5 ∨ o.op = 6) (hkid : o.kid ≠ 0) (hused : s.kidSt o.kid ≠ kFree)
    (howner : (s.kid o.kid).owner ≠ o.ld) : keyStart o s = (.done stNotOwner 0, s) := by
  obtain hop | hop : (o.op = 2 ∨ o.op = 4 ∨ o.op = 5) ∨ o.op = 6 := by simpa only [or_assoc] using hop
  · exact keyStart_of_refused hop (keyCheck_of_foreign hkid hused howner)
  · rw [keyStart_query hop, if_neg hkid, if_pos ⟨hused, howner⟩]

theorem keyStart_of_kid_zero (hop : o.op = 2 ∨ o.op = 4 ∨ o.op = 5 ∨ o.op = 6) (hkid : o.kid = 0) :
    keyStart o s = (.done stBadKid 0, s) := by
  obtain hop | hop : (o.op = 2 ∨ o.op = 4 ∨ o.op = 5) ∨ o.op = 6 := by simpa only [or_assoc] using hop
  · exact keyStart_of_refused hop fun states => keyCheck_of_kid_zero hkid states s
  · rw [keyStart_query hop, if_pos hkid]

theorem curKid_setCur (ld k : Nat) (s : State) : (setCur ld k s).curKid ld = k := tgetD_tput_self _ _ _ _

end

/-! ### Entropy and the query of a KID (R228, R245) -/

section
variable (f : Fld) (n : Nat) (s : State)

@[simp] theorem emit_ciph (o : Out) : (emit o s).ciph = s.ciph := rfl
@[simp] theorem setF_ciph (v : Nat) : (setF f v s).ciph = s.ciph := rfl

@[simp] theorem msixSend_ciph (view vector : Nat) : (msixSend view vector s).ciph = s.ciph := by
  simp [msixSend, apply_ite State.ciph]

@[simp] theorem raiseInt_ciph : (raiseInt n s).ciph = s.ciph := by
  simp [raiseInt, apply_ite State.ciph]

@[simp] theorem setErr_ciph : (setErr f n s).ciph = s.ciph := by
  simp [setErr, apply_ite State.ciph]

theorem drbgHealthFail_result : ∃ t, exec .drbgHealthFail s = .next t ∧ t.ciph.drbgOk = false ∧ t.on F.CIPH_ERR_STATUS_DRBG_FAIL = true := by
  refine ⟨_, rfl, by rw [setErr_ciph]; rfl, ?_⟩
  exact bne_iff_ne.mpr (setErr_get _ _ _ rfl)

/-- A query with GO shows the state word of the KID field by field. -/
theorem kidQuery_of_go {v : Nat} (h : v.testBit 63 = true) :
    (kidQuery v s).get F.CIPH_KID_RESULT_DONE = 1 ∧
    (kidQuery v s).get F.CIPH_KID_RESULT_STATE = s.kidResult (v % 4096) / 2 ^ 60 % 8 ∧
    (kidQuery v s).get F.CIPH_KID_RESULT_REFS = s.kidResult (v % 4096) % 2 ^ 30 := by
  rw [kidQuery, if_pos h]
  simp (disch := exact Fld.key_ne_of_lo rfl rfl) only [State.get_setF_ne]
  exact ⟨State.get_setF_one _ rfl, State.get_setF_lt _ (Nat.mod_lt _ (by decide)), State.get_setF_lt _ (Nat.mod_lt _ (by decide))⟩

end

/-- Settles O22: each KEY row by `exec_key_of_new`, each operation at the head by its equation. -/
theorem keyCommandsRunInOrder : Obligations.KeyCommandsRunInOrder := by
  unfold Obligations.KeyCommandsRunInOrder
  refine ⟨?rows, ?issue, ?barred, ?setCurrent, ?clearCurrent, ?retire, ?destroy, ?query, ?foreign, ?kidZero, ?current, ?entropy, ?kidQuery⟩
  case rows =>
    intro pair cid c s hcmd hheld hwait
    have taken {op : Nat} {i : Instr} (hi : (op, i) ∈ keyRows pair cid) (hop : c.opt % 16 = op) :
        exec i s = .next (Says.keyTaken c op s) := exec_key_of_new hi hcmd hheld hwait hop
    exact ⟨taken (by simp [keyRows]), taken (by simp [keyRows]), taken (by simp [keyRows]), taken (by simp [keyRows]),
      taken (by simp [keyRows]), taken (by simp [keyRows])⟩
  case issue =>
    intro o k n s s1 s2 hop hmay hpick hquota hdrbg htake hvault hflag
    rw [keyStart_issue hop, keyIssue_of_written hmay hpick hquota hdrbg htake hvault, hflag]
    rfl
  case barred => exact fun o s hop h => (keyStart_issue hop).trans (keyIssue_of_barred h)
  case setCurrent => exact fun o s => keyStart_setCurrent_of_owned
  case clearCurrent => exact fun o s => keyStart_clearCurrent
  case retire => exact fun o s => keyStart_retire_of_owned
  case destroy => exact fun o s => keyStart_destroy_of_owned
  case query => exact fun o s hop hkid _ howner => keyStart_query_of_owned hop hkid howner
  case foreign => exact fun o s => keyStart_of_foreign
  case kidZero => exact fun o s => keyStart_of_kid_zero
  case current => exact curKid_setCur
  case entropy => exact drbgHealthFail_result
  case kidQuery => exact fun m v s h => ⟨_, rfl, kidQuery_of_go s h⟩

end Sys2Proof.Machine
end

section
/-! PROOFS. The statement of 10_transit_rings.md: how pairs open and close, what doorbells do, the fetch, the steps of the ring commands
and their completions. -/

namespace Sys2Proof.Machine

/-! ### Doorbell slots (R248 to R251) -/

section
variable {q v : Nat} {s : State}

/-- Fields that differ in the slot of pair 0 differ in the slot of every pair. -/
theorem slotFld_key_ne {F G : Nat → Fld} (hF : F q = (F 0).shift (q * 0x40)) (hG : G q = (G 0).shift (q * 0x40))
    (h : ((F 0).key == (G 0).key) = false) : (F q).key ≠ (G q).key := by
  have hne := beq_eq_false_iff_ne.mp h
  rw [hF, hG]
  simp only [Fld.key, Fld.shift] at hne ⊢
  omega

/-- BAR2 reaches every slot. -/
theorem slotGuard_bar2 (f : State → State) : slotGuard false q f s = f s := rfl

/-- A pair with a valid configuration opens: ACTIVE, phase 1, its indexes 0. -/
theorem pairOn_result (h : s.cfgValid q = true) :
    (pairOn q s).qSt q = qActive ∧ (pairOn q s).get (F.QP_STATUS_PHASE q) = 1 ∧ (pairOn q s).get (F.QP_STATUS_SQ_HEAD q) = 0 ∧
      (pairOn q s).get (F.QP_SQ_TAIL_INDEX q) = 0 ∧ (pairOn q s).get (F.QP_CQ_HEAD_INDEX q) = 0 := by
  rw [pairOn, if_pos h]
  simp (disch := exact slotFld_key_ne rfl rfl rfl) only [State.qSt, setQ, State.get_modRing, State.get_setF_ne, State.get_setF_self]
  exact ⟨rfl, rfl, rfl, rfl, rfl⟩

theorem sqDoorbell_of_good (h : v % 2 ^ 13 < s.sqSize q) : sqDoorbell q v s = setF (F.QP_SQ_TAIL_INDEX q) (v % 2 ^ 13) s :=
  if_neg (Nat.not_le.mpr h)

theorem sqDoorbell_of_bad (h : s.sqSize q ≤ v % 2 ^ 13) (hq : s.qSt q = qActive) : sqDoorbell q v s = pairError q errDoorbell s :=
  (if_pos h).trans (badDoorbell_of_running (.inl hq))

theorem cqDoorbell_of_good (hplace : v % 2 ^ 13 < s.cqSize q)
    (hmove : (v % 2 ^ 13 + s.cqSize q - s.get (F.QP_CQ_HEAD_INDEX q)) % s.cqSize q ≤ s.unconsumed q) :
    cqDoorbell q v s = setF (F.QP_CQ_HEAD_INDEX q) (v % 2 ^ 13) s :=
  if_neg fun h => h.elim (Nat.not_le.mpr hplace) (Nat.not_lt.mpr hmove)

end

/-! ### Allocation where no pair is open (R247) -/

section
variable {n v first count : Nat} {s : State}

theorem runIdle_of_disabled (h : ∀ q, s.qSt q = qDisabled) (first count : Nat) : s.runIdle first count = true := by
  simp [State.runIdle, h]

/-- A run that fits is stored while no other owner has pairs and every pair is DISABLED. -/
theorem ringAlloc_of_alone (hfirst : first = v % 2 ^ 14) (hcount : count = v / 2 ^ 32 % 2 ^ 15) (hfit : first + count ≤ 16384)
    (halone : ∀ k < 17, k ≠ n → s.get (F.RING_LD_ALLOC_COUNT k) = 0) (hdis : ∀ q, s.qSt q = qDisabled) :
    ringAlloc n v s = storeAt (0x350100 + 8 * n) v s := by
  refine ringAlloc_of_free hfirst hcount hfit (fun k hk hmeets => ?_) ⟨runIdle_of_disabled hdis _ _, runIdle_of_disabled hdis _ _⟩
  obtain ⟨hother, -, hpairs, -, -⟩ := hmeets
  exact absurd (halone k hk hother) (Nat.ne_of_gt hpairs)

end

/-! ### Fetch (R252, R253) -/

section
variable {q o : Nat} {e : List Nat} {s : State}

/-- A pair that may fetch, in its turn, adds the entry's command and moves its SQ_HEAD on. -/
theorem cmdFetch_result (ho : s.pairOwner q = some o) (hmay : s.mayFetch q o = true) (hfirst : s.fetchFirst q o = true) :
    ∃ c, (cmdFetch q e s).ring.cmds = s.ring.cmds ++ [c] ∧ c.pair = q ∧ c.id = s.ring.nextId ∧ c.op = e.getD 0 0 ∧
      (cmdFetch q e s).get (F.QP_STATUS_SQ_HEAD q) = (s.get (F.QP_STATUS_SQ_HEAD q) + 1) % s.sqSize q % 2 ^ 13 := by
  simp only [cmdFetch, ho, hmay, hfirst, Bool.and_self, if_true]
  refine ⟨_, rfl, rfl, rfl, rfl, ?_⟩
  have hkey : (F.QP_STATUS_SQ_HEAD q).key ≠ (F.QP_STATUS_OUTSTANDING q).key := Fld.key_ne_of_lo rfl rfl
  rw [State.get_cnt, State.get_incF_ne _ _ hkey]
  exact State.get_setF_self _ _ _

end

/-! ### SEAL and ABORT (R259, R262, R264) -/

section
variable {c : RCmd} {s : State}

theorem stopAtUnit_of_unprotected (hmark : c.marked = false) (hpair : s.qSt c.pair ≠ qStopped) (hwp : s.wpAny (s.cmdLd c) = false) :
    stopAtUnit c s = none := by
  simp [stopAtUnit, hmark, hpair, hwp]

theorem ringSeal_of_new (hstop : stopAtUnit c s = none) (hpos : c.pos = 0) :
    ringSeal c s = (modCmd c.id (fun x => { x with waiting := c.len / 2 ^ 20, pos := c.len, pre := c.len }) s).modFld (fun f =>
      { f with sealQ := f.sealQ ++ (List.range (c.len / 2 ^ 20)).map (fun i => (c.id, s.cmdLd c, c.a0 / 2 ^ 20 + i)) }) := by
  simp only [ringSeal, hstop, if_pos hpos]

/-- An ABORT whose target's pair has no command in flight. -/
theorem ringAbort_of_absent (h : ∀ t ∈ s.ring.cmds, t.pair ≠ s.get (F.RING_LD_ALLOC_FIRST (s.cmdLd c)) + c.a0) :
    ringAbort c s = cmdEnd c 1 0 s := by
  have hfind : s.ring.cmds.find? (fun x => x.pair == s.get (F.RING_LD_ALLOC_FIRST (s.cmdLd c)) + c.a0 && x.cid == leNum (c.param.take 2) &&
      s.pairOwner (s.get (F.RING_LD_ALLOC_FIRST (s.cmdLd c)) + c.a0) == some (s.cmdLd c)) = none :=
    List.find?_eq_none.mpr fun t ht => by simp [h t ht]
  rw [ringAbort, hfind]

end

/-! ### The only command in flight (R255, R258) -/

section
variable {c : RCmd} {s : State} (hcmds : s.ring.cmds = [c])
include hcmds

theorem execHashEngineGrant_of_alone (hengine : c.engine = false) (hop : c.op = 4) (hopen : c.final = none) :
    execHashEngineGrant s = .next (ringStatus (modCmd c.id (fun x => { x with engine := true }) s)) :=
  execHashEngineGrant_of_waiting (by simp [hcmds, hengine]) (by simp [hcmds, hengine, hop, hopen])

theorem completionPost_of_alone {q cid st res : Nat} (dma : Bool) (hpair : c.pair = q) (hcid : c.cid = cid) (hfinal : c.final = some (st, res))
    (hop : c.op ≠ 11) : completionPost q cid dma s = regStatus (cmdPost dma c st res s) :=
  completionPost_of_ended dma (by simp [hcmds, hpair, hcid, hfinal, hop]) hfinal

end

/-- Settles O23: each row by the equation of its operation in the case it states. -/
theorem ringPairsAndCommandsRun : Obligations.RingPairsAndCommandsRun := by
  unfold Obligations.RingPairsAndCommandsRun
  refine ⟨?enable, ?disable, ?sqGood, ?sqBad, ?cqGood, ?alloc, ?fetch, ?rows, ?sealed, ?abort, ?grant, ?post, ?dma, ?timer⟩
  case enable =>
    exact fun _ _ _ hq hen hvalid => ⟨_, next_congr ((slotGuard_bar2 _).trans (qpCfgWrite_of_disabled hq hen)), pairOn_result hvalid⟩
  case disable => exact fun _ _ _ hq hen => next_congr ((slotGuard_bar2 _).trans (qpCfgWrite_of_active hen hq))
  case sqGood => exact fun _ _ _ h => next_congr ((slotGuard_bar2 _).trans (sqDoorbell_of_good h))
  case sqBad => exact fun _ _ _ h hq => next_congr ((slotGuard_bar2 _).trans (sqDoorbell_of_bad h hq))
  case cqGood => exact fun _ _ _ hplace hmove => next_congr ((slotGuard_bar2 _).trans (cqDoorbell_of_good hplace hmove))
  case alloc => exact fun _ _ _ _ hfit halone hdis => next_congr (ringAlloc_of_alone rfl rfl hfit halone hdis)
  case fetch =>
    intro pair entry o s ho hmay hfirst
    obtain ⟨c, hadded⟩ := cmdFetch_result (e := entry.map (·.toNat)) ho hmay hfirst
    exact ⟨_, c, rfl, hadded⟩
  case rows =>
    intro pair cid c leaves dma s hheld g u
    have taken {op : Nat} (hcmd : s.cmdOf pair.val cid.toNat op = some c) (f : RCmd → State → State) :
        cmdStep pair.val cid.toNat op f s = f g u := cmdStep_of_taken hcmd hheld f
    exact ⟨fun h => next_congr (taken h _), fun h => next_congr (taken h _), fun h => next_congr (taken h _),
      fun h hengine => next_congr ((taken h _).trans (if_pos hengine)), fun h => next_congr (taken h _),
      fun h => next_congr (congrArg settle (taken h _)), fun h hwait => next_congr ((taken h _).trans (if_neg (not_not_intro hwait))),
      fun h => next_congr (taken h _), fun h => next_congr (taken h _), fun h => next_congr (taken h _)⟩
  case sealed => exact fun _ _ hpos hmark hpair _ hwp => ringSeal_of_new (stopAtUnit_of_unprotected hmark hpair hwp) hpos
  case abort => exact fun c s hcmds hpair => ringAbort_of_absent (by simpa [hcmds] using hpair)
  case grant => exact fun _ _ hcmds hengine hop hopen => execHashEngineGrant_of_alone hcmds hengine hop hopen
  case post =>
    exact fun _ _ _ _ _ dma _ hcmds hpair hcid hfinal hop => next_congr (completionPost_of_alone hcmds dma hpair hcid hfinal hop)
  case dma => exact fun _ _ hq => next_congr (pairDmaFail_of_running (.inl hq))
  case timer => exact fun _ _ htime hsince => next_congr (if_pos (by simp [htime, hsince]))

end Sys2Proof.Machine
end

section
/-! PROOFS. The statements over every step: the life-cycle history, fused bits, DECOMMISSION, the queue and the time, what was sent,
and that every command answers a next state. -/

namespace Sys2Proof.Machine

/-! ### The history of life-cycle states (R397, R399) -/

theorem slotState_two_pow {t : Nat} (h : t < 6) : slotState (2 ^ t) = t :=
  (by decide : ∀ t : Fin 6, slotState (2 ^ t.val) = t.val) ⟨t, h⟩

/-- Every target of R399's table is one of the six states. -/
theorem lt_six_of_lcAuth_ne_never {old new : Nat} (h : lcAuth old new ≠ .never) : new < 6 := by
  by_contra hnew
  have hp : new ≠ lcProvision := by simp only [lcProvision]; omega
  have hv : new ≠ lcDevelop := by simp only [lcDevelop]; omega
  have hs : new ≠ lcService := by simp only [lcService]; omega
  have hr : new ≠ lcReturn := by simp only [lcReturn]; omega
  have hd : new ≠ lcDecommission := by simp only [lcDecommission]; omega
  exact h (by simp [lcAuth, hp, hv, hs, hr, hd])

/-- R399 lists no transition from DECOMMISSION. -/
theorem lcAuth_decommission (new : Nat) : lcAuth lcDecommission new = .never := by
  simp [lcAuth, lcDecommission, lcManufacture, lcProvision, lcService, lcReturn, lcDevelop]

theorem lcChain_singleton {old new : Nat} (h : lcAuth old new ≠ .never) : lcChain old [2 ^ new] = true := by
  have hlt := lt_six_of_lcAuth_ne_never h
  simp [lcChain, slotState_two_pow hlt, hlt, h]

/-- A chain after slot `b` goes on from the state of its last slot. -/
theorem lcChain_append_singleton (b c : Nat) (l : List Nat) :
    lcChain (slotState b) (l ++ [c]) = (lcChain (slotState b) l && lcChain (slotState (l.getLastD b)) [c]) := by
  induction l generalizing b with
  | nil => simp [lcChain]
  | cons a l ih => simp only [List.cons_append, lcChain, ih, List.getLastD_cons, Bool.and_assoc]

theorem LcsSt.state_append {l : LcsSt} {old ext : List Nat} (h : l.slots = old ++ ext) :
    l.state = slotState (ext.getLastD (old.getLastD 1)) := by
  rw [LcsSt.state, h]
  cases ext <;> simp [List.getLastD_eq_getLast?]

theorem LcsSt.sound_iff (l : LcsSt) : l.sound = true ↔
    (∃ t, l.slots = [1] ++ t ∧ lcChain lcManufacture t = true) ∧ l.slots.length ≤ 8 ∧ l.transOk = true := by
  unfold LcsSt.sound
  cases l.slots with
  | nil => simp
  | cons b t => simp [and_assoc]

theorem LcsSt.transOk_none {l : LcsSt} (h : l.trans = none) : l.transOk = true := by
  simp [LcsSt.transOk, h]

theorem LcsSt.transOk_some {l : LcsSt} {t : Nat} (h : l.trans = some t) :
    l.transOk = true ↔ lcAuth l.state t ≠ .never ∧ l.slots.length < 8 := by
  simp [LcsSt.transOk, h]

/-- What is stated of the slots and the transition alone holds of two fields that agree in both. -/
theorem LcsSt.sound_congr {l k : LcsSt} (hs : k.slots = l.slots) (ht : k.trans = l.trans) : k.sound = l.sound := by
  cases k; cases l; cases hs; cases ht
  rfl

theorem LcsSt.sound_of_trans {l : LcsSt} {t : Option Nat} (h : l.sound = true) (ht : { l with trans := t }.transOk = true) :
    { l with trans := t }.sound = true := by
  rw [LcsSt.sound_iff] at h ⊢
  exact ⟨h.1, h.2.1, ht⟩

theorem LcsSt.blow_of_none {l : LcsSt} (h : l.trans = none) : l.blow = l := by
  simp [LcsSt.blow, h]

theorem LcsSt.blow_of_some {l : LcsSt} {t : Nat} (h : l.trans = some t) :
    l.blow = { l with slots := l.slots ++ [2 ^ t], trans := none } := by
  simp [LcsSt.blow, h]

/-- The history of `k` is that of `l` and a chain of R399's transitions from its state. -/
def LcsSt.follows (k l : LcsSt) : Prop := ∃ ext, k.slots = l.slots ++ ext ∧ lcChain l.state ext = true

theorem LcsSt.follows_refl (l : LcsSt) : l.follows l := ⟨[], by simp, rfl⟩

/-- R400 step 6: the blown slot continues the chain. -/
theorem LcsSt.follows_blow {k l : LcsSt} (hs : k.sound = true) (h : k.follows l) : k.blow.follows l := by
  obtain ⟨ext, hslots, hchain⟩ := h
  cases ht : k.trans with
  | none => exact ⟨ext, by rw [blow_of_none ht, hslots], hchain⟩
  | some t =>
    obtain ⟨-, -, hok⟩ := (sound_iff k).mp hs
    obtain ⟨hauth, -⟩ := (transOk_some ht).mp hok
    rw [state_append hslots] at hauth
    refine ⟨ext ++ [2 ^ t], by rw [blow_of_some ht, hslots, List.append_assoc], ?_⟩
    rw [LcsSt.state] at hchain ⊢
    rw [lcChain_append_singleton, hchain, lcChain_singleton hauth]
    rfl

theorem LcsSt.sound_blow {l : LcsSt} (h : l.sound = true) : l.blow.sound = true := by
  cases ht : l.trans with
  | none => rwa [blow_of_none ht]
  | some t =>
    obtain ⟨⟨ext, hslots, hchain⟩, -, hok⟩ := (sound_iff l).mp h
    obtain ⟨hauth, hlen⟩ := (transOk_some ht).mp hok
    rw [state_append hslots] at hauth
    rw [blow_of_some ht, sound_iff]
    refine ⟨⟨ext ++ [2 ^ t], by rw [hslots, List.append_assoc], ?_⟩, by simpa using hlen, transOk_none rfl⟩
    have hman : lcManufacture = slotState 1 := by decide
    rw [hman] at hchain ⊢
    rw [lcChain_append_singleton, hchain]
    exact lcChain_singleton hauth

/-! ### Predicates of the life-cycle field alone -/

/-- A predicate of the life-cycle field is closed where its four changes keep it: bits are added, a transition is dropped or begins, or
its slot is blown. Without the core's power the transition is dropped. -/
theorem closed_lcs {Q : LcsSt → Prop}
    (keep : ∀ {l k : LcsSt}, k.slots = l.slots → k.trans = l.trans → (∃ m, k.fused = l.fused ||| m) → (∃ m, k.revoked = l.revoked ||| m) → Q l → Q k)
    (drop : ∀ {l : LcsSt}, Q l → Q { l with trans := none })
    (begins : ∀ {l : LcsSt} {t : Nat}, lcAuth l.state t ≠ .never → l.slots.length < 8 → Q l → Q { l with trans := some t })
    (blow : ∀ {l : LcsSt}, Q l → Q l.blow) : Closed (fun s => Q s.lcs) where
  lcsKeep {f s} hf h := by
    obtain ⟨hslots, htrans, hfused, hrevoked⟩ := hf s.lcs
    exact keep hslots htrans hfused hrevoked h
  lcsDrop := drop
  lcsBegin := begins
  lcsBlow := blow
  lose := drop
  setF := id
  regsDrop := id
  alm _ := id
  xlat _ := id
  holds := id
  glb := id
  start := id
  log := id
  spec := id
  clk := id
  find := id
  dome := id
  sbus := id
  host := id
  coal := id
  med := id
  drift := id
  fld := id
  dur := id
  wm := id
  ciph := id
  regu := id
  ledg := id
  ring := id
  img := id
  outs := id
  freeCnt := id

/-- Every update keeps a sound history sound, and continues it. -/
theorem closed_follows (l : LcsSt) : Closed (fun s => s.lcs.follows l ∧ s.lcs.sound = true) :=
  closed_lcs (Q := fun k => k.follows l ∧ k.sound = true)
    (keep := fun hslots htrans _ _ ⟨hf, hs⟩ => ⟨by rwa [LcsSt.follows, hslots], by rwa [LcsSt.sound_congr hslots htrans]⟩)
    (drop := fun ⟨hf, hs⟩ => ⟨hf, LcsSt.sound_of_trans hs (LcsSt.transOk_none rfl)⟩)
    (begins := fun hauth hlen ⟨hf, hs⟩ => ⟨hf, LcsSt.sound_of_trans hs ((LcsSt.transOk_some rfl).mpr ⟨hauth, hlen⟩)⟩)
    (blow := fun ⟨hf, hs⟩ => ⟨LcsSt.follows_blow hs hf, LcsSt.sound_blow hs⟩)

/-- No update leaves DECOMMISSION: no transition begins there. -/
theorem closed_decommission {l : LcsSt} (h : l.state = lcDecommission) : Closed (fun s => s.lcs.slots = l.slots ∧ s.lcs.trans = none) :=
  closed_lcs (Q := fun k => k.slots = l.slots ∧ k.trans = none)
    (keep := fun hslots htrans _ _ ⟨hs, ht⟩ => ⟨hslots.trans hs, htrans.trans ht⟩)
    (drop := fun ⟨hs, _⟩ => ⟨hs, rfl⟩)
    (begins := fun {k t} hauth _ ⟨hs, _⟩ => by
      have hk : k.state = lcDecommission := by rw [LcsSt.state, hs]; exact h
      exact absurd (hk ▸ lcAuth_decommission t) hauth)
    (blow := fun ⟨hs, ht⟩ => by rw [LcsSt.blow_of_none ht]; exact ⟨hs, ht⟩)

theorem testBit_of_eq_or {a b m k : Nat} (h : b = a ||| m) (ha : a.testBit k = true) : b.testBit k = true := by
  rw [h, Nat.testBit_or, ha, Bool.true_or]

/-- No update clears a fused or revoked bit, or takes a blown slot back. -/
theorem closed_blown (l : LcsSt) : Closed (fun s => (∀ k, l.fused.testBit k = true → s.lcs.fused.testBit k = true) ∧
    (∀ k, l.revoked.testBit k = true → s.lcs.revoked.testBit k = true) ∧ l.slots <+: s.lcs.slots) :=
  closed_lcs (Q := fun k => (∀ i, l.fused.testBit i = true → k.fused.testBit i = true) ∧
      (∀ i, l.revoked.testBit i = true → k.revoked.testBit i = true) ∧ l.slots <+: k.slots)
    (keep := fun hslots _ ⟨_, hfused⟩ ⟨_, hrevoked⟩ ⟨hf, hr, hs⟩ =>
      ⟨fun i hi => testBit_of_eq_or hfused (hf i hi), fun i hi => testBit_of_eq_or hrevoked (hr i hi), hslots ▸ hs⟩)
    (drop := id)
    (begins := fun _ _ => id)
    (blow := fun {k} ⟨hf, hr, hs⟩ => by
      cases ht : k.trans with
      | none => rw [LcsSt.blow_of_none ht]; exact ⟨hf, hr, hs⟩
      | some t => rw [LcsSt.blow_of_some ht]; exact ⟨hf, hr, hs.trans (List.prefix_append _ _)⟩)

/-- A request for a transition that R399 does not list ends with NOT_ALLOWED (R400). -/
theorem lcTransition_of_never {m : Master} {new confirm : Nat} {s : State} (h : lcAuth s.lcs.state new = .never) :
    lcTransition m new confirm s = lcsEnd 1 lrNotAllowed s := by
  have hcheck : s.lcCheck m new confirm = some lrNotAllowed := by simp [State.lcCheck, h]
  simp [lcTransition, hcheck, lcOpTransition]

/-- The pairs of states that R399's table lists. -/
theorem lcAuth_eq_never_iff (old new : Fin 6) : lcAuth old.val new.val = .never ↔ (old.val, new.val) ∉
    [(lcManufacture, lcProvision), (lcManufacture, lcDevelop), (lcProvision, lcService), (lcService, lcReturn), (lcReturn, lcProvision),
      (lcProvision, lcDecommission), (lcDevelop, lcDecommission), (lcService, lcDecommission), (lcReturn, lcDecommission)] := by
  revert old new
  decide

/-- Settles O41: continuing a sound history is closed, so every command and the idle step do it. -/
theorem everyStepKeepsTheLifeCycleHistory : Obligations.EveryStepKeepsTheLifeCycleHistory := by
  unfold Obligations.EveryStepKeepsTheLifeCycleHistory
  refine ⟨fun s t hs e => ?_, fun old new hold hnew => lcAuth_eq_never_iff ⟨old, hold⟩ ⟨new, hnew⟩, fun _ _ _ _ => lcTransition_of_never⟩
  exact step_kept (closed_follows s.lcs) id id e ⟨s.lcs.follows_refl, hs⟩

/-- Settles O43: every update of the OTP adds bits or slots. -/
theorem aFusedBitStaysFused : Obligations.AFusedBitStaysFused := by
  unfold Obligations.AFusedBitStaysFused
  exact fun s _ e => step_kept (closed_blown s.lcs) id id e ⟨fun _ => id, fun _ => id, List.prefix_rfl⟩

/-- Settles O44: no transition begins in DECOMMISSION, and a sound field has none in progress there. -/
theorem decommissionIsFinal : Obligations.DecommissionIsFinal := by
  unfold Obligations.DecommissionIsFinal
  intro s t hs hd e
  obtain ⟨-, -, hok⟩ := (LcsSt.sound_iff s.lcs).mp hs
  have hnone : s.lcs.trans = none := by
    cases ht : s.lcs.trans with
    | none => rfl
    | some new => exact absurd (hd ▸ lcAuth_decommission new) ((LcsSt.transOk_some ht).mp hok).1
  obtain ⟨hslots, htrans⟩ := step_kept (closed_decommission hd) id id e ⟨rfl, hnone⟩
  exact ⟨hslots, by rw [LcsSt.state, hslots]; exact hd, htrans⟩

/-! ### The queue, the time, what was sent -/

/-- These commands wait, and it is this time. -/
def State.standsAt (l : List Instr) (n : Nat) (s : State) : Prop := s.pending = l ∧ s.now = n

/-- No operation of a command touches the queue of commands or the time. -/
theorem closed_standsAt (l : List Instr) (n : Nat) : Closed (State.standsAt l n) where
  setF := id
  regsDrop := id
  alm _ := id
  xlat _ := id
  lose := id
  holds := id
  glb := id
  start := id
  log := id
  spec := id
  clk := id
  find := id
  dome := id
  sbus := id
  host := id
  coal := id
  med := id
  drift := id
  fld := id
  dur := id
  wm := id
  ciph := id
  regu := id
  ledg := id
  ring := id
  img := id
  outs := id
  freeCnt := id
  lcsKeep _ := id
  lcsDrop := id
  lcsBegin _ _ := id
  lcsBlow := id

theorem exec_standsAt {c : Instr} {s t : State} (e : exec c s = .next t) : t.standsAt s.pending s.now :=
  exec_kept (closed_standsAt s.pending s.now) e ⟨rfl, rfl⟩

/-- R343: the tick is the one part of an idle step in which time passes. -/
theorem idleTick_standsAt {l : List Instr} {n : Nat} {s : State} (h : s.standsAt l n) : (idleTick s).standsAt l (n + 10) := by
  have hP := closed_standsAt l (n + 10)
  have hcycle : (ephCycle s).standsAt l (n + 10) := ⟨h.1, congrArg (· + 10) h.2⟩
  have hbuckets : (regTick (ephCycle s)).standsAt l (n + 10) := regTick_kept hP hcycle
  have hempty := when_kept (P := State.standsAt l (n + 10)) (b := s.on F.COAL_STATUS_FRAME_EMPTY) (f := cnt bCOAL 7 10) (fun {_} => cnt_kept hP _ _ _) hbuckets
  have hcontend := when_kept (P := State.standsAt l (n + 10)) (b := s.contend) (f := cnt bREG 2 10) (fun {_} => cnt_kept hP _ _ _) hempty
  have hload := seqAll_kept (P := State.standsAt l (n + 10)) (f := fun (r : HReq) u => cnt (bLD r.ld) 10 10 u) (l := s.host.ingress) (fun _ {_} => cnt_kept hP _ _ _) hcontend
  unfold idleTick
  dsimp only
  split
  · split
    · exact hP.drift hload
    · exact hP.setF (hP.drift hload)
  · exact hload

theorem idleStep_standsAt (s : State) : (idleStep s).standsAt s.pending (s.now + 10) := by
  have hP := closed_standsAt s.pending s.now
  have hQ := closed_standsAt s.pending (s.now + 10)
  have hserved := rxWaiting_kept hP (reqsGo_kept hP (swapIdle_kept hP ⟨rfl, rfl⟩))
  exact after_kept hQ (eventFrames_kept hQ (releaseGo_kept hQ (lifeFollow_kept hQ (idleTick_standsAt hserved))))

theorem step_of_pending {s : State} {c : Instr} {q : List Instr} (h : s.pending = c :: q) : step s = exec c (s.modPending (fun _ => q)) := by
  simp [step, h]

theorem step_of_idle {s : State} (h : s.pending = []) : step s = .next (idleStep s) := by
  simp [step, h]

/-- Settles O45: no update of a command reaches the queue or the time, and an idle step is one tick. -/
theorem commandsLeaveTheQueueAndTheTime : Obligations.CommandsLeaveTheQueueAndTheTime := by
  unfold Obligations.CommandsLeaveTheQueueAndTheTime
  refine ⟨fun c s t => exec_standsAt, fun s t h e => ?idle, fun c q s t h e => ?command⟩
  case idle =>
    have ht : idleStep s = t := Host.Outcome.next.inj ((step_of_idle h).symm.trans e)
    exact ht ▸ h ▸ idleStep_standsAt s
  case command => exact exec_standsAt ((step_of_pending h).symm.trans e)

/-- What was sent and the count of free values only grow. -/
theorem closed_sent (l : List Out) (n : Nat) : Closed (fun s => l <:+ s.outs ∧ n ≤ s.freeCnt) where
  outs h := ⟨h.1.trans (List.suffix_cons _ _), h.2⟩
  freeCnt h := ⟨h.1, Nat.le_succ_of_le h.2⟩
  setF := id
  regsDrop := id
  alm _ := id
  xlat _ := id
  lose := id
  holds := id
  glb := id
  start := id
  log := id
  spec := id
  clk := id
  find := id
  dome := id
  sbus := id
  host := id
  coal := id
  med := id
  drift := id
  fld := id
  dur := id
  wm := id
  ciph := id
  regu := id
  ledg := id
  ring := id
  img := id
  lcsKeep _ := id
  lcsDrop := id
  lcsBegin _ _ := id
  lcsBlow := id

/-- Settles O46: an output is only ever put before those there are. -/
theorem whatWasSentIsNeverTakenBack : Obligations.WhatWasSentIsNeverTakenBack := by
  unfold Obligations.WhatWasSentIsNeverTakenBack
  exact fun s _ e => step_kept (closed_sent s.outs s.freeCnt) id id e ⟨List.suffix_rfl, Nat.le_refl _⟩

/-! ### Steps -/

/-- Settles O37: the queue's first command runs on the rest of it. -/
theorem aStepRunsTheCommandAtTheFront : Obligations.AStepRunsTheCommandAtTheFront := by
  unfold Obligations.AStepRunsTheCommandAtTheFront
  exact ⟨fun c s => step_of_pending (s := s.modPending (fun q => c :: q)) rfl, fun _ _ _ => step_of_pending, fun _ => step_of_idle⟩

/-- Each arm of exec ends in a next state. -/
theorem exec_next (c : Instr) (s : State) : ∃ t, exec c s = .next t := by
  cases c
  all_goals exact ⟨_, rfl⟩

theorem step_next (s : State) : ∃ t, step s = .next t := by
  cases h : s.pending with
  | nil => exact ⟨_, step_of_idle h⟩
  | cons c q => rw [step_of_pending h]; exact exec_next c _

/-- Settles O39: every command has a next state, and so has an idle step. -/
theorem everyCommandAnswersANextState : Obligations.EveryCommandAnswersANextState := by
  unfold Obligations.EveryCommandAnswersANextState
  exact ⟨exec_next, step_next⟩

/-- Settles O40: the history is MANUFACTURE alone, and every table is empty. -/
theorem resetIsSound : Obligations.ResetIsSound := by
  unfold Obligations.ResetIsSound
  decide

end Sys2Proof.Machine
end

section
/-! PROOFS. The statements of 16_spectrograph_and_logbook.md and of the almanac (17_almanac_life_cycle_finder.md): the almanac's bytes, the
odometers, counters in pairs, the words of a logbook record. -/

namespace Sys2Proof.Machine

/-! ### Bytes and numbers -/

theorem numBytes_succ (n v : Nat) : numBytes (n + 1) v = v % 256 :: numBytes n (v / 256) := by
  simp only [numBytes, List.range_succ_eq_map, List.map_cons, List.map_map, Nat.mul_zero, Nat.pow_zero, Nat.div_one, List.cons.injEq, true_and]
  refine List.map_congr_left fun i _ => ?_
  rw [Function.comp_apply, Nat.div_div_eq_div_mul, show 8 * (i + 1) = 8 + 8 * i by omega, Nat.pow_add]

theorem bytesNum_cons (b : Nat) (l : List Nat) : bytesNum (b :: l) = b + 256 * bytesNum l := rfl

theorem mod_two_pow_bytes_succ (n v : Nat) : v % 256 + 256 * (v / 256 % 2 ^ (8 * n)) = v % 2 ^ (8 * (n + 1)) := by
  rw [show 8 * (n + 1) = 8 + 8 * n by omega, Nat.pow_add, Nat.mod_mul]

theorem bytesNum_numBytes (n v : Nat) : bytesNum (numBytes n v) = v % 2 ^ (8 * n) := by
  induction n generalizing v with
  | zero => simp [numBytes, bytesNum, Nat.mod_one]
  | succ n ih => rw [numBytes_succ, bytesNum_cons, ih, mod_two_pow_bytes_succ]

theorem leNum_numBytes (n v : Nat) : leNum (numBytes n v) = v % 2 ^ (8 * n) := by
  induction n generalizing v with
  | zero => simp [numBytes, leNum, Nat.mod_one]
  | succ n ih => rw [numBytes_succ, leNum, ih, Nat.mod_mod, mod_two_pow_bytes_succ]

theorem bytesNum_lt {l : List Nat} (h : ∀ b ∈ l, b < 256) : bytesNum l < 256 ^ l.length := by
  induction l with
  | nil => exact Nat.one_pos
  | cons b l ih =>
    obtain ⟨hb, hl⟩ := List.forall_mem_cons.mp h
    have := ih hl
    rw [bytesNum_cons, List.length_cons, Nat.pow_succ]
    omega

theorem numBytes_lt {n v b : Nat} (h : b ∈ numBytes n v) : b < 256 := by
  obtain ⟨i, -, rfl⟩ := List.mem_map.mp h
  exact Nat.mod_lt _ (by decide)

/-! ### The almanac's bytes (R388) -/

/-- The table after bytes are stored one after another. -/
theorem tgetD_store (l : List Nat) (k a : Nat) (t : Tbl (BitVec 8)) :
    tgetD 0#8 (l.foldl (fun (p : Nat × Tbl (BitVec 8)) b => (p.1 + 1, tput 0#8 p.2 p.1 (BitVec.ofNat 8 b))) (k, t)).2 a =
      if k ≤ a ∧ a < k + l.length then BitVec.ofNat 8 (l.getD (a - k) 0) else tgetD 0#8 t a := by
  induction l generalizing k t with
  | nil => simp
  | cons b l ih =>
    rw [List.foldl_cons, ih, List.length_cons]
    rcases Nat.lt_trichotomy a k with h | rfl | h
    · rw [if_neg (by omega), if_neg (by omega), tgetD_tput_ne _ _ _ (by omega)]
    · rw [if_neg (by omega), if_pos (by omega), tgetD_tput_self, Nat.sub_self, List.getD_cons_zero]
    · have hsub : a - k = a - (k + 1) + 1 := by omega
      rw [hsub, List.getD_cons_succ, tgetD_tput_ne _ _ _ (by omega)]
      exact if_congr (by omega) rfl rfl

section
variable {k a i n : Nat} {l : List Nat} {s : State}

theorem almStore_byte_outside (h : a < k ∨ k + l.length ≤ a) : (almStore k l s).alm.byte a = s.alm.byte a := by
  simp only [AlmSt.byte, almStore, State.modAlm, tgetD_store]
  rw [if_neg (by omega)]

/-- A stored byte reads back, but for bit 0 of retirement list 0, which always reads 1 (09_cipher_and_meridian.md R229). -/
theorem almStore_byte (h : i < l.length) : (almStore k l s).alm.byte (k + i) = l.getD i 0 % 256 ||| (decide (k + i = 0x2E00)).toNat := by
  simp only [AlmSt.byte, almStore, State.modAlm, tgetD_store]
  rw [if_pos (by omega), Nat.add_sub_cancel_left, BitVec.toNat_ofNat]

theorem AlmSt.byte_lt (m : AlmSt) (a : Nat) : m.byte a < 256 :=
  Nat.or_lt_two_pow (n := 8) (BitVec.isLt _) (by cases decide (a = 0x2E00) <;> decide)

theorem State.almNum_lt (s : State) (k n : Nat) : s.almNum k n < 256 ^ n := by
  have hlt := bytesNum_lt (l := s.almBytes k n) (by
    intro b hb
    obtain ⟨i, -, rfl⟩ := List.mem_map.mp hb
    exact AlmSt.byte_lt _ _)
  rwa [State.almBytes, List.length_map, List.length_range] at hlt

theorem State.almBytes_congr {t : State} (h : ∀ i < n, t.alm.byte (k + i) = s.alm.byte (k + i)) : t.almBytes k n = s.almBytes k n :=
  List.map_congr_left fun i hi => h i (List.mem_range.mp hi)

theorem State.almNum_congr {t : State} (h : ∀ i < n, t.alm.byte (k + i) = s.alm.byte (k + i)) : t.almNum k n = s.almNum k n :=
  congrArg bytesNum (State.almBytes_congr h)

/-- Away from retirement list 0 a stored number reads back. -/
theorem almStore_almNum {before after : List Nat} (hl : l = before ++ numBytes n a ++ after) (h : k + l.length ≤ 0x2E00) :
    (almStore k l s).almNum (k + before.length) n = a % 2 ^ (8 * n) := by
  have hbytes : (almStore k l s).almBytes (k + before.length) n = numBytes n a := by
    refine List.ext_getElem (by simp [State.almBytes, numBytes_length]) fun i hi hi' => ?_
    have hlen : before.length + i < l.length := by
      rw [numBytes_length] at hi'
      simp only [hl, List.length_append, numBytes_length]
      omega
    have hne : ¬ k + (before.length + i) = 0x2E00 := by omega
    have hget : l.getD (before.length + i) 0 = (numBytes n a)[i] := by
      rw [hl, List.append_assoc, List.getD_append_right _ _ _ _ (Nat.le_add_right _ _), Nat.add_sub_cancel_left,
        List.getD_append _ _ _ _ hi', List.getD_eq_getElem _ _ hi']
    simp only [State.almBytes, List.getElem_map, List.getElem_range]
    rw [Nat.add_assoc, almStore_byte hlen, hget, decide_eq_false hne, Nat.mod_eq_of_lt (numBytes_lt (List.getElem_mem hi'))]
    simp
  rw [State.almNum, hbytes, bytesNum_numBytes]

end

/-- Refutes O48: bit 0 of retirement list 0 always reads 1 (09_cipher_and_meridian.md R229), so a 0 stored at 0x2E00 reads 1. Every other
byte reads back (`almStore_byte`). -/
theorem not_addressedBytesReadBackAndKeepTheRest : ¬ Obligations.AddressedBytesReadBackAndKeepTheRest := by
  unfold Obligations.AddressedBytesReadBackAndKeepTheRest
  intro h
  obtain ⟨hstore, -, -⟩ := h
  obtain ⟨hread, -, -⟩ := hstore 0x2E00 [0] State.reset
  have hone : (almStore 0x2E00 [0] State.reset).alm.byte (0x2E00 + 0) = 1 := rfl
  exact absurd (hone.symm.trans (hread 0 Nat.one_pos)) (by decide)

/-- Refutes O27: its last clause has every byte stored in the almanac read back, and bit 0 of retirement list 0 always reads 1
(09_cipher_and_meridian.md R229), so a 0 stored at 0x2E00 reads 1. -/
theorem not_logbookSpectrographAndAlmanacAct : ¬ Obligations.LogbookSpectrographAndAlmanacAct := by
  unfold Obligations.LogbookSpectrographAndAlmanacAct
  intro h
  obtain ⟨-, -, -, -, -, -, -, -, -, -, -, -, hread⟩ := h
  have hone : (almStore 0x2E00 [0] State.reset).alm.byte 0x2E00 = 1 := rfl
  exact absurd (hone.symm.trans (hread 0x2E00 0 State.reset)) (by decide)

/-! ### Odometers (R394 to R396) -/

section
variable {i j v : Nat} {s : State}

theorem odoAddr_below (h : i < 16) : odoAddr i + 16 ≤ 0x2900 := by
  unfold odoAddr
  omega

theorem odoAddr_apart (h : j ≠ i) : odoAddr j + 16 ≤ odoAddr i ∨ odoAddr i + 16 ≤ odoAddr j := by
  unfold odoAddr
  omega

/-- An odometer is its two words of the almanac. -/
theorem State.odo_congr {t : State} (h : ∀ b < 8, t.alm.byte (odoAddr i + b) = s.alm.byte (odoAddr i + b)) : t.odo i = s.odo i := by
  unfold State.odo
  rw [State.almNum_congr (fun b hb => Nat.add_assoc (odoAddr i) 4 b ▸ h (4 + b) (by omega)),
    State.almNum_congr (fun b hb => h b (by omega))]

theorem odoPut_byte_outside {a : Nat} (h : a < odoAddr i ∨ odoAddr i + 16 ≤ a) : (odoPut i v s).alm.byte a = s.alm.byte a :=
  almStore_byte_outside (by simpa [numBytes_length] using h)

theorem odoPut_odo (hi : i < 16) (hv : v < 2 ^ 64) : (odoPut i v s).odo i = v := by
  have hbelow := odoAddr_below hi
  have hlow : (odoPut i v s).almNum (odoAddr i) 4 = v % 2 ^ 32 % 2 ^ (8 * 4) :=
    almStore_almNum (before := []) (after := numBytes 4 (v / 2 ^ 32) ++ numBytes 4 (v / 2 ^ 32) ++ [0, 0, 0, 0]) (by simp)
      (by simp [numBytes_length]; omega)
  have hhigh : (odoPut i v s).almNum (odoAddr i + 4) 4 = v / 2 ^ 32 % 2 ^ (8 * 4) :=
    almStore_almNum (before := numBytes 4 (v % 2 ^ 32)) (after := numBytes 4 (v / 2 ^ 32) ++ [0, 0, 0, 0]) (by simp)
      (by simp [numBytes_length]; omega)
  rw [State.odo, hlow, hhigh]
  omega

theorem odoPut_word1 (hi : i < 16) : Says.word1 (odoPut i v s) i = 0 := by
  have hbelow := odoAddr_below hi
  have hbefore : (numBytes 4 (v % 2 ^ 32) ++ numBytes 4 (v / 2 ^ 32) ++ numBytes 4 (v / 2 ^ 32)).length = 12 := by simp [numBytes_length]
  have h := almStore_almNum (s := s) (k := odoAddr i) (n := 4) (a := 0)
    (before := numBytes 4 (v % 2 ^ 32) ++ numBytes 4 (v / 2 ^ 32) ++ numBytes 4 (v / 2 ^ 32)) (after := []) rfl
    (by simp [numBytes_length]; omega)
  rw [hbefore] at h
  exact h

theorem odoPut_odo_ne (hne : j ≠ i) : (odoPut i v s).odo j = s.odo j :=
  State.odo_congr fun b hb => odoPut_byte_outside (by have := odoAddr_apart hne; omega)

/-- Both words of the repaired value are 32 bits. -/
theorem odo_value_lt {low : Nat} (h : low < 2 ^ 32) : Says.newHigh s i * 2 ^ 32 + low < 2 ^ 64 := by
  have := State.almNum_lt s (odoAddr i + 8) 4
  unfold Says.newHigh
  omega

theorem raiseInt_alm (b : Nat) : (raiseInt b s).alm = s.alm := by
  unfold raiseInt
  dsimp only
  split
  · rfl
  · split
    · unfold msixSend
      split <;> rfl
    · rfl

theorem setErr_alm (f : Fld) (cause : Nat) : (setErr f cause s).alm = s.alm := by
  unfold setErr
  split
  · rfl
  · exact raiseInt_alm _

theorem State.odo_of_alm {t : State} (h : t.alm = s.alm) : t.odo i = s.odo i := State.odo_congr fun _ _ => by rw [h]

theorem word1_of_alm {t : State} (h : t.alm = s.alm) : Says.word1 t i = Says.word1 s i := State.almNum_congr fun _ _ => by rw [h]

theorem odoRepair_of_unmarked (h : Says.word1 s i / 2 ^ 24 ≠ 0xA5) : odoRepair i s = s := if_pos h

/-- LOW as CHECK and NEW_HIGH have it: does the intent's check hold of it (R396)? -/
abbrev odoChecks (s : State) (i low : Nat) : Prop := crc16 (numBytes 8 (Says.newHigh s i * 2 ^ 32 + low)) = Says.word1 s i % 65536

/-- R396: LOW is the stored one where its check holds, else the next; the repair takes it where its check holds. -/
theorem odoRepair_of_marked (h : Says.word1 s i / 2 ^ 24 = 0xA5) : odoRepair i s =
    let old := s.almNum (odoAddr i) 4
    let low := if odoChecks s i old then old else (old + 1) % 2 ^ 32
    if odoChecks s i low then setErr F.ALM_ERR_STATUS_ODO_REPAIR intAlm (odoPut i (Says.newHigh s i * 2 ^ 32 + low) s)
    else almStore (odoAddr i + 12) [0, 0, 0, 0] (setErr F.ALM_ERR_STATUS_ODO_BAD intAlm s) := by
  have hmark : s.almNum (odoAddr i + 12) 4 / 2 ^ 24 = 0xA5 := h
  simp only [odoRepair, hmark, ne_eq, not_true_eq_false, if_false, beq_iff_eq]
  rfl

theorem odoRepair_of_checked (h : Says.word1 s i / 2 ^ 24 = 0xA5) {low : Nat}
    (hlow : (low = s.almNum (odoAddr i) 4 ∧ odoChecks s i low) ∨
      (low = (s.almNum (odoAddr i) 4 + 1) % 2 ^ 32 ∧ odoChecks s i low ∧ ¬ odoChecks s i (s.almNum (odoAddr i) 4))) :
    odoRepair i s = setErr F.ALM_ERR_STATUS_ODO_REPAIR intAlm (odoPut i (Says.newHigh s i * 2 ^ 32 + low) s) := by
  rw [odoRepair_of_marked h]
  dsimp only
  rcases hlow with ⟨rfl, hok⟩ | ⟨rfl, hok, hold⟩
  · rw [if_pos hok, if_pos hok]
  · rw [if_neg hold, if_pos hok]

theorem odoRepair_of_bad (h : Says.word1 s i / 2 ^ 24 = 0xA5) (hold : ¬ odoChecks s i (s.almNum (odoAddr i) 4))
    (hnext : ¬ odoChecks s i ((s.almNum (odoAddr i) 4 + 1) % 2 ^ 32)) :
    odoRepair i s = almStore (odoAddr i + 12) [0, 0, 0, 0] (setErr F.ALM_ERR_STATUS_ODO_BAD intAlm s) := by
  rw [odoRepair_of_marked h]
  dsimp only
  rw [if_neg hold, if_neg hnext]

/-- Clearing the mark leaves the value. -/
theorem clearMark_result (hi : i < 16) {t : State} (ht : t.alm = s.alm) :
    (almStore (odoAddr i + 12) [0, 0, 0, 0] t).odo i = s.odo i ∧ Says.word1 (almStore (odoAddr i + 12) [0, 0, 0, 0] t) i = 0 := by
  have hbelow := odoAddr_below hi
  constructor
  · exact (State.odo_congr fun b hb => almStore_byte_outside (by omega)).trans (State.odo_of_alm ht)
  · exact almStore_almNum (before := []) (after := []) (n := 4) (a := 0) rfl (by simp; omega)

end

/-- Settles O49: an odometer is stored by `odoPut`, which touches its 16 B alone; the repair is one of three cases. -/
theorem anOdometerIncrementsByOneAndNoOther : Obligations.AnOdometerIncrementsByOneAndNoOther := by
  unfold Obligations.AnOdometerIncrementsByOneAndNoOther
  refine ⟨fun i s hi => ?inc, fun i s _ => odoRepair_of_unmarked, fun i low s hi hmark => ⟨fun hlow => ?repaired, fun hold hnext => ?bad⟩⟩
  case inc =>
    exact ⟨odoPut_odo hi (Nat.mod_lt _ (by decide)), odoPut_word1 hi, fun j _ hne => odoPut_odo_ne hne, fun a => odoPut_byte_outside⟩
  case repaired =>
    have hlt : low < 2 ^ 32 := by
      rcases hlow with ⟨rfl, -⟩ | ⟨rfl, -⟩
      · exact State.almNum_lt s (odoAddr i) 4
      · exact Nat.mod_lt _ (by decide)
    rw [odoRepair_of_checked hmark hlow]
    have halm := setErr_alm (s := odoPut i (Says.newHigh s i * 2 ^ 32 + low) s) F.ALM_ERR_STATUS_ODO_REPAIR intAlm
    exact ⟨(State.odo_of_alm halm).trans (odoPut_odo hi (odo_value_lt hlt)), (word1_of_alm halm).trans (odoPut_word1 hi), setErr_get _ _ _ rfl⟩
  case bad =>
    rw [odoRepair_of_bad hmark hold hnext]
    obtain ⟨hodo, hword⟩ := clearMark_result hi (setErr_alm (s := s) F.ALM_ERR_STATUS_ODO_BAD intAlm)
    exact ⟨hodo, hword, setErr_get _ _ s rfl⟩

/-! ### The words of a logbook record (R380) -/

section
variable (r : LogRec)

theorem LogRec.word_zero : r.word 0 = r.seq + r.code * 2 ^ 32 + r.source * 2 ^ 48 + r.sev * 2 ^ 56 := rfl
theorem LogRec.word_one : r.word 1 = r.time := rfl
theorem LogRec.word_two : r.word 2 = r.p0 + r.p1 * 2 ^ 32 := rfl
theorem LogRec.word_three : r.word 3 = r.p2 + r.p3 * 2 ^ 32 := rfl

/-- A word is its two halves. -/
theorem low_of_halves {a b : Nat} (h : a < 2 ^ 32) : (a + b * 2 ^ 32) % 2 ^ 32 = a := by omega
theorem high_of_halves {a b : Nat} (ha : a < 2 ^ 32) (hb : b < 2 ^ 32) : (a + b * 2 ^ 32) / 2 ^ 32 % 2 ^ 32 = b := by omega

/-- Settles O50: the first word is cut at 32, 48 and 56, the third and the fourth at 32. -/
theorem aLogRecordIsItsFourWords : Obligations.ALogRecordIsItsFourWords := by
  unfold Obligations.ALogRecordIsItsFourWords
  refine ⟨fun r hseq hcode hsource hsev _ h0 h1 h2 h3 => ?_, fun w0 w1 w2 w3 h0 _ h2 h3 => ?_⟩
  · simp only [LogRec.ofWords, LogRec.word_zero, LogRec.word_one, LogRec.word_two, LogRec.word_three, low_of_halves h0, low_of_halves h2,
      high_of_halves h0 h1, high_of_halves h2 h3]
    rw [show (r.seq + r.code * 2 ^ 32 + r.source * 2 ^ 48 + r.sev * 2 ^ 56) % 2 ^ 32 = r.seq by omega,
      show (r.seq + r.code * 2 ^ 32 + r.source * 2 ^ 48 + r.sev * 2 ^ 56) / 2 ^ 32 % 2 ^ 16 = r.code by omega,
      show (r.seq + r.code * 2 ^ 32 + r.source * 2 ^ 48 + r.sev * 2 ^ 56) / 2 ^ 48 % 2 ^ 8 = r.source by omega,
      show (r.seq + r.code * 2 ^ 32 + r.source * 2 ^ 48 + r.sev * 2 ^ 56) / 2 ^ 56 % 2 ^ 8 = r.sev by omega]
  · intro r
    rw [LogRec.word_zero, LogRec.word_one, LogRec.word_two, LogRec.word_three]
    simp only [r, LogRec.ofWords, true_and]
    exact ⟨by omega, by omega, by omega⟩

end

/-! ### Counters alone and in pairs (R373, R374) -/

section
variable {p : SpecSt} {i j e n : Nat}

theorem ctr_add_same : Says.ctr (p.add i n) i = (Says.ctr p i + n) % 2 ^ 48 := by
  unfold SpecSt.add
  dsimp only
  split <;> exact tgetD_tput_self 0 _ _ _

theorem ctr_add_ne (h : j ≠ i) : Says.ctr (p.add i n) j = Says.ctr p j := by
  unfold SpecSt.add
  dsimp only
  split <;> exact tgetD_tput_ne 0 _ _ h

theorem add_wrap : (p.add i n).wrap =
    if Says.ctr p i + n < 2 ^ 48 then p.wrap else tmod 0 (· ||| 2 ^ (i % 32)) p.wrap (i / 32) := by
  unfold SpecSt.add
  dsimp only
  split
  · rename_i h
    exact (if_pos h).symm
  · rename_i h
    exact (if_neg h).symm

theorem wrapped_add_same : Says.wrapped (p.add i n) i = (Says.wrapped p i || decide (2 ^ 48 ≤ Says.ctr p i + n)) := by
  unfold Says.wrapped
  rw [add_wrap]
  split
  · rename_i h
    rw [decide_eq_false (Nat.not_le.mpr h), Bool.or_false]
  · rename_i h
    rw [decide_eq_true (Nat.not_lt.mp h), tmod, tgetD_tput_self, Nat.testBit_or, Nat.testBit_two_pow_self]

theorem wrapped_add_ne (h : j ≠ i) : Says.wrapped (p.add i n) j = Says.wrapped p j := by
  unfold Says.wrapped
  rw [add_wrap]
  split
  · rfl
  · by_cases hb : j / 32 = i / 32
    · have hbit : ¬ i % 32 = j % 32 := by omega
      rw [hb, tmod, tgetD_tput_self, Nat.testBit_or, Nat.testBit_two_pow, decide_eq_false hbit, Bool.or_false]
    · rw [tmod, tgetD_tput_ne 0 _ _ hb]

theorem count_of_unchained (h : p.chained i = false) : p.count i n = p.add i n := by simp [SpecSt.count, h]

theorem count_of_chained_even (h : p.chained e = true) (he : e % 2 = 0) : p.count e n = p := by simp [SpecSt.count, h, he]

/-- Both counters of a pair have its chain bit. -/
theorem chained_odd (he : e % 2 = 0) : p.chained (e + 1) = p.chained e := by
  unfold SpecSt.chained
  rw [show (e + 1) / 32 = e / 32 by omega, show (e + 1) % 32 / 2 = e % 32 / 2 by omega]

/-- The bank after the low counter of a chained pair has counted, its carries not yet passed. -/
def SpecSt.counted (p : SpecSt) (i n : Nat) : SpecSt := { p with cnt := tput 0 p.cnt i ((Says.ctr p i + n) % 2 ^ 48) }

theorem count_of_chained_odd (h : p.chained e = true) (he : e % 2 = 0) :
    p.count (e + 1) n = (p.counted (e + 1) n).add e ((Says.ctr p (e + 1) + n) / 2 ^ 48) := by
  have hodd : ¬ (e + 1) % 2 = 0 := by omega
  simp only [SpecSt.count, chained_odd he, h, hodd, if_true, if_false, Nat.add_sub_cancel]
  rfl

theorem ctr_counted_same : Says.ctr (p.counted i n) i = (Says.ctr p i + n) % 2 ^ 48 := tgetD_tput_self 0 _ _ _

theorem ctr_counted_ne (h : j ≠ i) : Says.ctr (p.counted i n) j = Says.ctr p j := tgetD_tput_ne 0 _ _ h

theorem wrapped_counted : Says.wrapped (p.counted i n) j = Says.wrapped p j := rfl

/-- The pair passes its end exactly if the high half does with the carries of the low half. -/
theorem pair_wraps_iff {hi lo : Nat} : 2 ^ 48 ≤ hi + (lo + n) / 2 ^ 48 ↔ 2 ^ 96 ≤ hi * 2 ^ 48 + lo + n := by omega

theorem pair_value {hi lo : Nat} :
    (hi + (lo + n) / 2 ^ 48) % 2 ^ 48 * 2 ^ 48 + (lo + n) % 2 ^ 48 = (hi * 2 ^ 48 + lo + n) % 2 ^ 96 := by omega

/-- R374: a chained pair counts as one 96-bit counter. -/
theorem count_of_pair (he : e % 2 = 0) (h : p.chained e = true) :
    let q := p.count (e + 1) n
    let v := Says.ctr p e * 2 ^ 48 + Says.ctr p (e + 1) + n
    Says.ctr q e * 2 ^ 48 + Says.ctr q (e + 1) = v % 2 ^ 96 ∧ Says.ctr q (e + 1) < 2 ^ 48 ∧
    Says.wrapped q e = (Says.wrapped p e || decide (2 ^ 96 ≤ v)) ∧ (∀ j, j ≠ e → Says.wrapped q j = Says.wrapped p j) ∧
    (∀ j, j ≠ e → j ≠ e + 1 → Says.ctr q j = Says.ctr p j) := by
  have hlow : Says.ctr (p.count (e + 1) n) (e + 1) = (Says.ctr p (e + 1) + n) % 2 ^ 48 := by
    rw [count_of_chained_odd h he, ctr_add_ne (Nat.succ_ne_self e), ctr_counted_same]
  refine ⟨?value, ?low, ?wraps, fun j hj => ?others, fun j hj hj' => ?counters⟩
  case value =>
    rw [hlow, count_of_chained_odd h he, ctr_add_same, ctr_counted_ne (Nat.succ_ne_self e).symm, pair_value]
  case low => exact hlow ▸ Nat.mod_lt _ (Nat.two_pow_pos 48)
  case wraps =>
    rw [count_of_chained_odd h he, wrapped_add_same, wrapped_counted, ctr_counted_ne (Nat.succ_ne_self e).symm]
    exact congrArg (Says.wrapped p e || ·) (decide_eq_decide.mpr pair_wraps_iff)
  case others => rw [count_of_chained_odd h he, wrapped_add_ne hj, wrapped_counted]
  case counters => rw [count_of_chained_odd h he, ctr_add_ne hj, ctr_counted_ne hj']

end

/-! ### A write of the chain bits (R374) -/

section
variable {b k j old new : Nat} (t : Tbl Nat)

theorem tgetD_terase_self (d k : Nat) : tgetD d (terase t k) k = d := by
  rw [tgetD, tget_terase_self]
  rfl

theorem tgetD_terase_ne (d : Nat) (h : j ≠ k) : tgetD d (terase t k) j = tgetD d t j := by
  rw [tgetD, tget_terase_ne t h, tgetD]

/-- The high counters of the first `n` pairs whose bit changes are zeroed. -/
def chainZeroBelow (n b old new : Nat) (t : Tbl Nat) : Tbl Nat :=
  (List.range n).foldl (fun t k => if old.testBit k = new.testBit k then t else terase t (b * 32 + 2 * k)) t

theorem chainZeroBelow_succ (n : Nat) : chainZeroBelow (n + 1) b old new t =
    if old.testBit n = new.testBit n then chainZeroBelow n b old new t else terase (chainZeroBelow n b old new t) (b * 32 + 2 * n) := by
  simp [chainZeroBelow, List.range_succ]

theorem chainZeroBelow_other {n : Nat} (h : ∀ k, k < n → j ≠ b * 32 + 2 * k) : tgetD 0 (chainZeroBelow n b old new t) j = tgetD 0 t j := by
  induction n with
  | zero => rfl
  | succ n ih =>
    have hrest := ih fun k hk => h k (Nat.lt_succ_of_lt hk)
    rw [chainZeroBelow_succ]
    split
    · exact hrest
    · rw [tgetD_terase_ne _ _ (h n (Nat.lt_succ_self n)), hrest]

theorem chainZeroBelow_high {n : Nat} (h : k < n) :
    tgetD 0 (chainZeroBelow n b old new t) (b * 32 + 2 * k) = if old.testBit k = new.testBit k then tgetD 0 t (b * 32 + 2 * k) else 0 := by
  induction n with
  | zero => omega
  | succ n ih =>
    rw [chainZeroBelow_succ]
    rcases Nat.lt_succ_iff_lt_or_eq.mp h with hlt | rfl
    · split
      · exact ih hlt
      · rw [tgetD_terase_ne _ _ (by omega), ih hlt]
    · split
      · rw [chainZeroBelow_other t fun i hi => by omega]
      · exact tgetD_terase_self _ _ _

end

section
variable {b k : Nat} {s : State}

theorem chained_iff_bit (p : SpecSt) (h : k < 16) : p.chained (b * 32 + 2 * k) = (tgetD 0 p.chain b).testBit k := by
  unfold SpecSt.chained
  rw [show (b * 32 + 2 * k) / 32 = b by omega, show (b * 32 + 2 * k) % 32 / 2 = k by omega]

theorem testBit_chain_value (v : Nat) (h : k < 16) : (v % 2 ^ 16).testBit k = v.testBit k := by
  rw [Nat.testBit_mod_two_pow, decide_eq_true h, Bool.true_and]

theorem chainWrite_chain (b v : Nat) (s : State) : tgetD 0 (chainWrite b v s).spec.chain b = v % 2 ^ 16 := tgetD_tput_self 0 _ _ _

theorem chainWrite_ctr (v j : Nat) :
    Says.ctr (chainWrite b v s).spec j = tgetD 0 (chainZeroBelow 16 b (tgetD 0 s.spec.chain b) (v % 2 ^ 16) s.spec.cnt) j := rfl

theorem chainWrite_result (b v : Nat) (s : State) :
    (∀ k, k < 16 → (chainWrite b v s).spec.chained (b * 32 + 2 * k) = v.testBit k) ∧
    (∀ k, k < 16 → Says.ctr (chainWrite b v s).spec (b * 32 + 2 * k) =
      if s.spec.chained (b * 32 + 2 * k) = v.testBit k then Says.ctr s.spec (b * 32 + 2 * k) else 0) ∧
    (∀ j, (∀ k, k < 16 → j ≠ b * 32 + 2 * k) → Says.ctr (chainWrite b v s).spec j = Says.ctr s.spec j) := by
  refine ⟨fun k hk => ?_, fun k hk => ?_, fun j hj => ?_⟩
  · rw [chained_iff_bit _ hk, chainWrite_chain, testBit_chain_value v hk]
  · rw [chainWrite_ctr, chainZeroBelow_high _ hk, chained_iff_bit _ hk, testBit_chain_value v hk]
    rfl
  · rw [chainWrite_ctr, chainZeroBelow_other _ hj]
    rfl

end

/-- Settles O47: a pair by `count_of_pair`, a counter alone by the lemmas of `add`, a write of the bits pair by pair. -/
theorem aChainedPairIsOneWideCounter : Obligations.AChainedPairIsOneWideCounter := by
  unfold Obligations.AChainedPairIsOneWideCounter
  refine ⟨fun p e n he h _ _ => ?pair, fun p i n h _ => ?alone, fun m b v s => ⟨_, rfl, chainWrite_result b.val v.toNat s⟩⟩
  case pair =>
    obtain ⟨hvalue, hlow, hwrap, hbits, hcounters⟩ := count_of_pair (n := n) he h
    exact ⟨hvalue, hlow, hwrap, hbits, hcounters, count_of_chained_even h he⟩
  case alone =>
    rw [count_of_unchained h]
    exact ⟨ctr_add_same, wrapped_add_same, fun j hj => ⟨ctr_add_ne hj, wrapped_add_ne hj⟩⟩

end Sys2Proof.Machine
end

section
/-! PROOFS. Refutations of two statements of 11_regulation_and_ledgers.md, 14_clocks_and_crossings.md and 16_spectrograph_and_logbook.md,
and the bytes of a shelf frame (15_shelf_bus.md). -/

namespace Sys2Proof.Machine

/-! ### Admission (R276, R277) -/

section
variable {f : Fld} {s : State}

/-- What each turn of a loop leaves in a field, the whole loop leaves in it. -/
theorem State.get_seqAll {α : Type} {u : α → State → State} {l : List α} (h : ∀ a ∈ l, ∀ t, (u a t).get f = t.get f) (s : State) :
    (seqAll u l s).get f = s.get f := by
  induction l generalizing s with
  | nil => rfl
  | cons a l ih => exact (ih (fun b hb => h b (List.mem_cons_of_mem a hb)) (u a s)).trans (h a List.mem_cons_self s)

/-- The committed entry is not written when the effective floors are. -/
theorem capRecompute_get_act (s : State) : (capRecompute s).get (F.REG_ACT_RATE_RD_FLOOR 0) = s.get (F.REG_ACT_RATE_RD_FLOOR 0) := by
  have hout {g : Fld} (v : Nat) (t : State) (h : (F.REG_ACT_RATE_RD_FLOOR 0).key ≠ g.key) :
      (setF g v t).get (F.REG_ACT_RATE_RD_FLOOR 0) = t.get (F.REG_ACT_RATE_RD_FLOOR 0) := State.get_setF_ne v t h
  have hclass (g : Fld) (hoff : 0x360400 ≤ g.off) (hlo : g.lo < 64) : (F.REG_ACT_RATE_RD_FLOOR 0).key ≠ g.key :=
    Fld.key_ne_of_off (by decide) hlo (fun h => absurd (h ▸ hoff) (by decide))
  unfold capRecompute
  dsimp only [setB]
  rw [hout _ _ (by decide), hout _ _ (by decide), hout _ _ (by decide), hout _ _ (by decide)]
  refine State.get_seqAll (fun c _ t => ?_) s
  rw [hout _ _ (hclass _ (by dsimp only [F.REG_EFF_WR_FLOOR_EFF]; omega) (by dsimp only [F.REG_EFF_WR_FLOOR_EFF]; decide)),
    hout _ _ (hclass _ (by dsimp only [F.REG_EFF_RD_FLOOR_EFF]; omega) (by dsimp only [F.REG_EFF_RD_FLOOR_EFF]; decide))]

end

/-- A state whose entry of class 0 and whose capacity hold values beyond the 10 bits of their fields. -/
def wideFloor : State :=
  State.reset.modRegs (fun _ => [(F.REG_CAP_RD_CAP.key, 1024), ((F.REG_GT_RATE_RD_FLOOR 0).key, 1024)])

/-- Refutes O24: the commit cuts a floor to its field's 10 bits (R277), and the clause asks for the shadow's own value in every state, also
in one whose shadow entry holds 1024. -/
theorem not_regulationAndLedgersAct : ¬ Obligations.RegulationAndLedgersAct := by
  unfold Obligations.RegulationAndLedgersAct
  intro h
  obtain ⟨-, hcommit, -⟩ := h
  obtain ⟨u, hu, -, -, hact⟩ := hcommit wideFloor (by decide) (by decide) (by decide)
  have hcut : (admitSet false wideFloor).get (F.REG_ACT_RATE_RD_FLOOR 0) = 0 := by decide +kernel
  rw [hu, capRecompute_get_act, hact 0 (by decide)] at hcut
  exact absurd hcut (by decide)

/-! ### The rows of clocks (R336, R16) -/

/-- The recovered clock is the DPLL's reference, and the clock block's cause is not masked. -/
def recInUse : State :=
  (setF F.CLK_DPLL_STATUS_STATE dpllRec State.reset).modGlb (fun g => { g with intMask := 1#32 <<< intClk })

/-- Refutes O52: a recovered clock lost in REC raises the clock block's cause, and the message of it, masked at the host's MSI-X table, is
left pending there (R16), so that the host port's state changes. -/
theorem not_clockAndRecordRowsKeepTheCore : ¬ Obligations.ClockAndRecordRowsKeepTheCore := by
  unfold Obligations.ClockAndRecordRowsKeepTheCore
  intro h
  obtain ⟨hrow, -⟩ := h
  obtain ⟨t, ht, ⟨-, -, -, hhost, -⟩, -⟩ := hrow (.recDisqualified false) recInUse (.inr (.inl ⟨false, rfl⟩))
  have heq : recDisqualified false recInUse = t := Host.Outcome.next.inj ht
  have hpend : tgetD 0 (recDisqualified false recInUse).host.pba mgmtView = 4 := by decide
  rw [heq, hhost] at hpend
  exact absurd hpend (by decide)

/-! ### The bytes of a shelf frame (R357) -/

theorem beNum_append_singleton (l : List Nat) (b : Nat) : beNum (l ++ [b]) = beNum l * 256 + b := List.foldl_concat _ _ _ _

theorem digestBytes_succ (n v : Nat) : digestBytes (n + 1) v = digestBytes n (v / 256) ++ [v % 256] := by
  simp only [digestBytes, List.range_succ, List.map_append, List.map_cons, List.map_nil, Nat.add_sub_cancel, Nat.sub_self, Nat.pow_zero, Nat.div_one]
  congr 1
  refine List.map_congr_left fun i hi => ?_
  rw [show n - i = n - 1 - i + 1 by have := List.mem_range.mp hi; omega, Nat.div_div_eq_div_mul, Nat.pow_succ']

theorem digestBytes_length (n v : Nat) : (digestBytes n v).length = n := by simp [digestBytes]

theorem beBytes_length (n v : Nat) : (beBytes n v).length = n := digestBytes_length n v

theorem beNum_digestBytes (n v : Nat) : beNum (digestBytes n v) = v % 256 ^ n := by
  induction n generalizing v with
  | zero => simp [digestBytes, beNum, Nat.mod_one]
  | succ n ih => rw [digestBytes_succ, beNum_append_singleton, ih, Nat.pow_succ', Nat.mod_mul, Nat.add_comm, Nat.mul_comm]

theorem beNum_zeros (n : Nat) : beNum (List.replicate n 0) = 0 := by
  induction n with
  | zero => rfl
  | succ n ih => rw [List.replicate_succ', beNum_append_singleton, ih]

section
variable {w : Nat} (x : BitVec w) (n : Nat)

theorem ofNat_leNum (h : 8 * n = w) : BitVec.ofNat w (leNum (numBytes n x.toNat)) = x := by
  rw [leNum_numBytes, h, Nat.mod_eq_of_lt x.isLt, BitVec.ofNat_toNat, BitVec.setWidth_eq]

theorem ofNat_beNum (h : 8 * n = w) : BitVec.ofNat w (beNum (beBytes n x.toNat)) = x := by
  rw [beBytes, beNum_digestBytes, show 256 = 2 ^ 8 from rfl, ← Nat.pow_mul, h, Nat.mod_eq_of_lt x.isLt, BitVec.ofNat_toNat, BitVec.setWidth_eq]

theorem ofNat_byte (b : BitVec 8) : BitVec.ofNat 8 (leNum [b.toNat]) = b := by
  rw [leNum, leNum, Nat.mod_eq_of_lt b.isLt, Nat.mul_zero, Nat.add_zero, BitVec.ofNat_toNat, BitVec.setWidth_eq]

end

section
variable (f : ShelfFrame)

/-- What follows the body: the tag where FLAGS says so, then the padding. -/
def ShelfFrame.rest : List Nat :=
  let tag := if f.flags.getLsbD 0 then beBytes 16 f.tag.toNat else []
  tag ++ List.replicate (60 - (f.head ++ tag).length) 0

/-- The fields in the order of their places. -/
theorem ShelfFrame.bytes_eq : f.bytes =
    beBytes 6 f.dst.toNat ++ (beBytes 6 f.src.toNat ++ (etherShelf ++ ([f.ver.toNat, f.typ.toNat] ++ (numBytes 2 f.opcode.toNat ++
      (numBytes 2 f.len.toNat ++ ([f.flags.toNat, f.target.toNat] ++ (numBytes 8 f.nonce.toNat ++ (numBytes 2 f.xid.toNat ++
        (numBytes 2 f.status.toNat ++ (f.body.map (·.toNat) ++ f.rest)))))))))) := by
  simp only [ShelfFrame.bytes, padFrame, ShelfFrame.head, ShelfFrame.rest, List.append_assoc]

theorem ShelfFrame.bytes_drop : f.bytes.drop 34 = f.body.map (·.toNat) ++ f.rest := by
  rw [f.bytes_eq]
  rfl

theorem ShelfFrame.bytes_opcode : leAt f.bytes 16 2 = leNum (numBytes 2 f.opcode.toNat) := by
  rw [f.bytes_eq]
  rfl

theorem ShelfFrame.bytes_len : leAt f.bytes 18 2 = leNum (numBytes 2 f.len.toNat) := by
  rw [f.bytes_eq]
  rfl

theorem ShelfFrame.bytes_nonce : leAt f.bytes 22 8 = leNum (numBytes 8 f.nonce.toNat) := by
  rw [f.bytes_eq]
  rfl

theorem ShelfFrame.bytes_xid : leAt f.bytes 30 2 = leNum (numBytes 2 f.xid.toNat) := by
  rw [f.bytes_eq]
  rfl

theorem ShelfFrame.bytes_status : leAt f.bytes 32 2 = leNum (numBytes 2 f.status.toNat) := by
  rw [f.bytes_eq]
  rfl

theorem ShelfFrame.bytes_ver : leAt f.bytes 14 1 = leNum [f.ver.toNat] := by
  rw [f.bytes_eq]
  rfl

theorem ShelfFrame.bytes_typ : leAt f.bytes 15 1 = leNum [f.typ.toNat] := by
  rw [f.bytes_eq]
  rfl

theorem ShelfFrame.bytes_flags : leAt f.bytes 20 1 = leNum [f.flags.toNat] := by
  rw [f.bytes_eq]
  rfl

theorem ShelfFrame.bytes_target : leAt f.bytes 21 1 = leNum [f.target.toNat] := by
  rw [f.bytes_eq]
  rfl

theorem ShelfFrame.bytes_dst : f.bytes.take 6 = beBytes 6 f.dst.toNat := by
  rw [f.bytes_eq]
  rfl

theorem ShelfFrame.bytes_src : (f.bytes.drop 6).take 6 = beBytes 6 f.src.toNat := by
  rw [f.bytes_eq]
  rfl

theorem map_ofNat_toNat (l : List (BitVec 8)) : (l.map (·.toNat)).map (BitVec.ofNat 8) = l := by
  simp [Function.comp_def]

theorem ShelfFrame.rest_tag (h : f.flags.getLsbD 0 = false → f.tag = 0) : BitVec.ofNat 128 (beNum (f.rest.take 16)) = f.tag := by
  unfold ShelfFrame.rest
  cases hflag : f.flags.getLsbD 0
  case true =>
    dsimp only
    rw [if_pos rfl, List.take_left' (beBytes_length 16 _), ofNat_beNum f.tag 16 rfl]
  case false =>
    dsimp only
    rw [if_neg (by decide), List.nil_append, List.take_replicate, beNum_zeros, h hflag]
    rfl

end

/-- Settles O29: each fixed field is read back from its bytes at its place, the body and the tag from what follows the 34 B of the head. -/
theorem aFrameSpellsItsFields : Obligations.AFrameSpellsItsFields := by
  unfold Obligations.AFrameSpellsItsFields
  intro f hlen htag
  have hle : leAt f.bytes 18 2 = f.body.length := by
    rw [← hlen, f.bytes_len, leNum_numBytes, Nat.mod_eq_of_lt f.len.isLt]
  have hbody : (f.bytes.drop 34).take (leAt f.bytes 18 2) = f.body.map (·.toNat) := by
    rw [f.bytes_drop, hle]
    exact List.take_left' (List.length_map _)
  have hrest : f.bytes.drop (34 + leAt f.bytes 18 2) = f.rest := by
    rw [← List.drop_drop, f.bytes_drop, hle]
    exact List.drop_left' (List.length_map _)
  unfold ShelfFrame.ofBytes
  rw [hbody, hrest, map_ofNat_toNat, f.rest_tag htag, f.bytes_dst, f.bytes_src, f.bytes_ver, f.bytes_typ, f.bytes_opcode, f.bytes_len,
    f.bytes_flags, f.bytes_target, f.bytes_nonce, f.bytes_xid, f.bytes_status, ofNat_beNum f.dst 6 rfl, ofNat_beNum f.src 6 rfl, ofNat_byte f.ver,
    ofNat_byte f.typ, ofNat_leNum f.opcode 2 rfl, ofNat_leNum f.len 2 rfl, ofNat_byte f.flags, ofNat_byte f.target, ofNat_leNum f.nonce 8 rfl,
    ofNat_leNum f.xid 2 rfl, ofNat_leNum f.status 2 rfl]

end Sys2Proof.Machine
end

section
/-! PROOFS. The statements of 15_shelf_bus.md: the segment, the frame queues, the shelf key, the plates. -/

namespace Sys2Proof.Machine

/-! ### Receiving (R355, R361, R362) -/

section
variable {b : List Nat} {fcs own : Bool} {k : Nat} {l : List Nat} {s : State}

theorem frameIn_of_unheard (h : ¬ Says.heard b s) : frameIn b fcs own s = s := by
  have hgate : (s.start.aonDown || !s.macAccepts (beNum (b.take 6))) = true := by
    cases haon : s.start.aonDown
    · exact Bool.not_eq_true' _ |>.mpr (Bool.eq_false_iff.mpr fun hmac => h ⟨haon, hmac⟩)
    · rfl
  exact if_pos hgate

theorem serves_gate (h : s.busServed = true ∧ s.on F.SBUS_CTL_EN = true) : ¬ (!s.busServed || !s.on F.SBUS_CTL_EN) = true := by
  simp [h.1, h.2]

theorem cut_gate (h : fcs = true ∨ s.get F.SBUS_RXQ_CFG_CUT ≤ b.length) : ¬ (!fcs && decide (b.length < s.get F.SBUS_RXQ_CFG_CUT)) = true := by
  rcases h with rfl | hlen
  · simp
  · simp [Nat.not_lt.mpr hlen]

section
variable (hheard : Says.heard b s)
include hheard

theorem heard_gate : ¬ (s.start.aonDown || !s.macAccepts (beNum (b.take 6))) = true := by
  simp [hheard.1, hheard.2]

theorem frameIn_of_length (h : ¬ (60 ≤ b.length ∧ b.length ≤ 1514)) : frameIn b fcs own s = incF F.SBUS_CNT_DROP_OTHER 1 s := by
  unfold frameIn
  rw [if_neg (heard_gate hheard), if_pos (by omega)]

variable (hwhole : 60 ≤ b.length ∧ b.length ≤ 1514)
include hwhole

/-- Without an assistant or with the bus off, the always-on part serves a good shelf frame. -/
theorem frameIn_of_unserved (h : ¬ (s.busServed = true ∧ s.on F.SBUS_CTL_EN = true)) : frameIn b fcs own s =
    if !fcs then incF F.SBUS_CNT_DROP_OTHER 1 s else if (b.drop 12).take 2 = etherShelf then shelfServe true b s else s := by
  have hserve : (!s.busServed || !s.on F.SBUS_CTL_EN) = true := by
    rw [← Bool.not_and, Bool.not_eq_true', Bool.eq_false_iff]
    exact fun hand => h ((Bool.and_eq_true _ _).mp hand)
  unfold frameIn
  rw [if_neg (heard_gate hheard), if_neg (by omega), if_pos hserve]

variable (hserves : s.busServed = true ∧ s.on F.SBUS_CTL_EN = true)
include hserves

theorem frameIn_of_cut (hfcs : fcs = false) (hcut : b.length < s.get F.SBUS_RXQ_CFG_CUT) :
    frameIn b fcs own s = incF F.SBUS_CNT_DROP_OTHER 1 s := by
  unfold frameIn
  rw [if_neg (heard_gate hheard), if_neg (by omega), if_neg (serves_gate hserves), if_pos (by simp [hfcs, hcut])]

theorem frameIn_of_other (hshelf : (b.drop 12).take 2 ≠ etherShelf) (hptp : (b.drop 12).take 2 ≠ etherPtp) :
    frameIn b fcs own s = incF F.SBUS_CNT_DROP_OTHER 1 s := by
  unfold frameIn
  rw [if_neg (heard_gate hheard), if_neg (by omega), if_neg (serves_gate hserves), if_pos (c := _ ∧ _) ⟨hshelf, hptp⟩]
  exact ite_self _

variable (hgood : fcs = true ∨ s.get F.SBUS_RXQ_CFG_CUT ≤ b.length)
  (het : (b.drop 12).take 2 = etherShelf ∨ (b.drop 12).take 2 = etherPtp)
include hgood het

theorem frameIn_of_full (h : s.sbus.rxFree = []) :
    frameIn b fcs own s = incF F.SBUS_CNT_DROP_OVF 1 (setErr F.SBUS_ERR_STATUS_RX_OVF intSbus s) := by
  unfold frameIn
  rw [if_neg (heard_gate hheard), if_neg (by omega), if_neg (serves_gate hserves), if_neg (cut_gate hgood),
    if_neg (fun hne => het.elim hne.1 hne.2)]
  simp only [h]

end

/-- The frame in a receive bank, with its count and its time. -/
def frameStored (k : Nat) (b : List Nat) (fcs own : Bool) (s : State) : State :=
  setF (F.SBUS_TS_RX k) (if (b.drop 12).take 2 = etherPtp ∧ s.on F.SBUS_CTL_TS_EN then s.clk.tod else 0)
    (cnt bSBUS 0 1 (incF F.SBUS_CNT_RX_OK 1 (s.modSbus (fun x => { x with rx := x.rx ++ [⟨k, b, 0, fcs, true, own⟩] }))))

theorem frameIn_of_bank (hheard : Says.heard b s) (hwhole : 60 ≤ b.length ∧ b.length ≤ 1514)
    (hserves : s.busServed = true ∧ s.on F.SBUS_CTL_EN = true) (hgood : fcs = true ∨ s.get F.SBUS_RXQ_CFG_CUT ≤ b.length)
    (het : (b.drop 12).take 2 = etherShelf ∨ (b.drop 12).take 2 = etherPtp) (h : s.sbus.rxFree = k :: l) :
    frameIn b fcs own s = if s.asstStalled then frameStored k b fcs own s else rxServe k (frameStored k b fcs own s) := by
  unfold frameIn
  rw [if_neg (heard_gate hheard), if_neg (by omega), if_neg (serves_gate hserves), if_neg (cut_gate hgood),
    if_neg (fun hne => het.elim hne.1 hne.2)]
  simp only [h]
  rfl

/-- No frame stands in a free bank. -/
theorem bank_ne_of_free (h : k ∈ s.sbus.rxFree) : ∀ r ∈ s.sbus.rx, (r.bank == k) = false := by
  intro r hr
  have hany := (List.mem_filter.mp h).2
  rw [Bool.not_eq_true', List.any_eq_false] at hany
  exact Bool.eq_false_iff.mpr (hany r hr)

theorem map_if_of_absent {α : Type} {p : α → Prop} [DecidablePred p] {g : α → α} {l : List α} (h : ∀ a ∈ l, ¬ p a) :
    l.map (fun a => if p a then g a else a) = l :=
  (List.map_congr_left fun a ha => if_neg (h a ha)).trans (List.map_id' l)

/-- What the assistant leaves of a frame that it has served. -/
def frameLeft (k : Nat) (b : List Nat) (fcs own : Bool) : List RxFrame := if own then [] else [⟨k, b, 0, fcs, false, own⟩]

theorem rxServe_stored (h : k ∈ s.sbus.rxFree) : rxServe k (frameStored k b fcs own s) =
    (fun u => if (b.drop 12).take 2 = etherShelf ∧ fcs = true then shelfServe false b u else u)
      ((frameStored k b fcs own s).modSbus (fun x => { x with rx := s.sbus.rx ++ frameLeft k b fcs own })) := by
  have hfree := bank_ne_of_free h
  have hfind : (frameStored k b fcs own s).sbus.rx.find? (fun r => r.bank == k) = some ⟨k, b, 0, fcs, true, own⟩ := by
    change (s.sbus.rx ++ [(⟨k, b, 0, fcs, true, own⟩ : RxFrame)]).find? _ = _
    rw [List.find?_append, List.find?_eq_none.mpr (fun r hr => by simp [hfree r hr])]
    simp
  have hkeep : (frameStored k b fcs own s).sbus.rx.filter (fun x => x.bank != k) = s.sbus.rx := by
    change (s.sbus.rx ++ [(⟨k, b, 0, fcs, true, own⟩ : RxFrame)]).filter _ = _
    rw [List.filter_append, List.filter_eq_self.mpr (fun r hr => by simp [bne, hfree r hr])]
    simp
  have hmap : (frameStored k b fcs own s).sbus.rx.map (fun x => if x.bank = k then { x with wait := false } else x) =
      s.sbus.rx ++ [⟨k, b, 0, fcs, false, own⟩] := by
    change (s.sbus.rx ++ [(⟨k, b, 0, fcs, true, own⟩ : RxFrame)]).map _ = _
    rw [List.map_append, map_if_of_absent (fun r hr => by simpa using hfree r hr)]
    simp
  have hrest : (if own then (frameStored k b fcs own s).sbus.rx.filter (fun x => x.bank != k)
      else (frameStored k b fcs own s).sbus.rx.map (fun x => if x.bank = k then { x with wait := false } else x)) =
      s.sbus.rx ++ frameLeft k b fcs own := by
    rw [hkeep, hmap]
    cases own
    · rfl
    · exact (List.append_nil _).symm
  unfold rxServe
  simp only [hfind]
  unfold State.modSbus
  dsimp only
  rw [hrest]

theorem frameRow_of_frameIn {w : State → State} {c : Instr} (h : exec c s = .next (w (frameIn b fcs own s))) :
    Says.frameRow w c b fcs own s := by
  unfold Says.frameRow
  dsimp only
  rw [h]
  refine ⟨fun hno => ?unheard, fun hyes hlen => ?length, fun hyes hwhole hno => ⟨fun hf => ?bad, fun hf he => ?foreign, fun hf he => ?wake⟩,
    fun hyes hwhole hserves => ⟨fun hf hcut => ?cut, fun hne1 hne2 => ?other, fun hgood het => ⟨fun hfull => ?full, fun hfree hst => ?stalled,
      fun hfree hst => ?served⟩⟩⟩
  case unheard => rw [frameIn_of_unheard hno]
  case length => rw [frameIn_of_length hyes hlen]
  case bad => rw [frameIn_of_unserved hyes hwhole hno, hf, if_pos (by decide)]
  case foreign => rw [frameIn_of_unserved hyes hwhole hno, hf, if_neg (by decide), if_neg he]
  case wake => rw [frameIn_of_unserved hyes hwhole hno, hf, if_neg (by decide), if_pos he]
  case cut => rw [frameIn_of_cut hyes hwhole hserves hf hcut]
  case other => rw [frameIn_of_other hyes hwhole hserves hne1 hne2]
  case full => rw [frameIn_of_full hyes hwhole hserves hgood het hfull]
  case stalled =>
    obtain ⟨k, l, hk⟩ := List.exists_cons_of_ne_nil hfree
    have hstays : frameIn b fcs own s = frameStored k b fcs own s := by
      rw [frameIn_of_bank hyes hwhole hserves hgood het hk, if_pos hst]
    exact ⟨frameStored k b fcs own s, h.trans (by rw [hstays]), rfl, k, hk ▸ List.mem_cons_self, rfl⟩
  case served =>
    obtain ⟨k, l, hk⟩ := List.exists_cons_of_ne_nil hfree
    have hmem : k ∈ s.sbus.rxFree := hk ▸ List.mem_cons_self
    refine ⟨(frameStored k b fcs own s).modSbus (fun x => { x with rx := s.sbus.rx ++ frameLeft k b fcs own }), h.trans ?_, rfl, rfl, rfl,
      fun hown => ?_, fun hown => ⟨k, hmem, ?_⟩⟩
    · rw [frameIn_of_bank hyes hwhole hserves hgood het hk, if_neg (Bool.eq_false_iff.mp hst), rxServe_stored hmem]
      simp only [and_comm]
    · subst hown
      exact List.append_nil _
    · subst hown
      rfl

end

/-! ### Error bits -/

/-- An error bit that is set changes the registers, the cause, and the message sent or left pending. -/
theorem setErr_shape (f : Fld) (cause : Nat) (s : State) : setErr f cause s =
    { s with regs := (setErr f cause s).regs, glb := (setErr f cause s).glb, host := (setErr f cause s).host, outs := (setErr f cause s).outs } := by
  unfold setErr raiseInt msixSend
  dsimp only
  repeat' split
  all_goals rfl

theorem setErr_sbus (f : Fld) (cause : Nat) (s : State) : (setErr f cause s).sbus = s.sbus := by rw [setErr_shape]

/-! ### Sending (R354, R363) -/

section
variable {f : TxFrame} {s : State}

/-- With no frame of the device waiting, the banks stay as they are. -/
theorem txFill_of_no_queue (b : SbusSt) (h : b.txq = []) : b.txFill = b := by
  unfold SbusSt.txFill
  rw [h]
  simp only [List.zip_nil_right, List.map_nil, List.append_nil, List.drop_nil]
  rw [← h]

theorem txFill_tx {b : SbusSt} (l : List TxFrame) (h : b.txq = []) : (SbusSt.txFill { b with tx := l }).tx = l :=
  congrArg SbusSt.tx (txFill_of_no_queue { b with tx := l } h)

theorem plcaCollision_of_idle (h : s.sbus.tx.find? (·.ready) = none) : plcaCollision s = s := by
  unfold plcaCollision
  rw [h]

theorem txSent_of_idle (h : s.sbus.tx.find? (·.ready) = none) : txSent s = s := by
  unfold txSent
  rw [h]

section
variable (hready : s.sbus.tx.find? (·.ready) = some f)
include hready

theorem plcaCollision_of_off (h : s.sbus.csma = true ∨ s.on F.SBUS_CTL_EN = false ∨ s.start.aonDown = true) : plcaCollision s = s := by
  unfold plcaCollision
  rw [hready]
  exact if_pos (by simpa using h)

theorem txSent_of_off (h : s.on F.SBUS_CTL_EN = false ∨ s.start.aonDown = true) : txSent s = s := by
  unfold txSent
  rw [hready]
  exact if_pos (by simpa using h)

theorem plcaCollision_retries (hcsma : s.sbus.csma = false) (hen : s.on F.SBUS_CTL_EN = true) (haon : s.start.aonDown = false)
    (h : f.tries + 1 < 16) : plcaCollision s = setErr F.SBUS_ERR_STATUS_PLCA_COLL intSbus (s.modSbus (fun b =>
      { b with tx := b.tx.map (fun x : TxFrame => if x.bank = f.bank then { x with tries := f.tries + 1 } else x) }.txFill)) := by
  have hkeep : (fun x : TxFrame => if x.bank = f.bank then (if 16 ≤ f.tries + 1 then none else some { x with tries := f.tries + 1 }) else some x) =
      fun x => some (if x.bank = f.bank then { x with tries := f.tries + 1 } else x) := by
    funext x
    rw [if_neg (Nat.not_le.mpr h), apply_ite some]
  unfold plcaCollision
  rw [hready]
  dsimp only
  rw [if_neg (by simp [hcsma, hen, haon]), hkeep]
  simp only [List.filterMap_eq_map']

theorem plcaCollision_drops (hcsma : s.sbus.csma = false) (hen : s.on F.SBUS_CTL_EN = true) (haon : s.start.aonDown = false)
    (h : 16 ≤ f.tries + 1) : plcaCollision s = setErr F.SBUS_ERR_STATUS_PLCA_COLL intSbus (s.modSbus (fun b =>
      { b with tx := b.tx.filter (fun x => x.bank != f.bank) }.txFill)) := by
  have hkeep : (fun x : TxFrame => if x.bank = f.bank then (if 16 ≤ f.tries + 1 then none else some { x with tries := f.tries + 1 }) else some x) =
      Option.guard (fun x => x.bank != f.bank) := by
    funext x
    rw [if_pos h]
    by_cases hbank : x.bank = f.bank <;> simp [Option.guard, hbank]
  unfold plcaCollision
  rw [hready]
  dsimp only
  rw [if_neg (by simp [hcsma, hen, haon]), hkeep]
  simp only [List.filterMap_eq_filter]

/-- The state in which the oldest complete frame has left its bank. -/
theorem txSent_of_on (hen : s.on F.SBUS_CTL_EN = true) (haon : s.start.aonDown = false) :
    txSent s = when (f.ts && s.on F.SBUS_CTL_TS_EN) (setF F.SBUS_TS_TX s.clk.tod) (cnt bSBUS 1 1 (incF F.SBUS_CNT_TX_OK 1 (emit (.frame (padFrame f.bytes))
      (s.modSbus (fun b => { b with tx := b.tx.filter (fun x => x.bank != f.bank) }.txFill))))) := by
  unfold txSent
  rw [hready]
  exact if_neg (by simp [hen, haon])

end

theorem takeNat_sbus (s : State) : (takeNat s).2.sbus = s.sbus := rfl

/-- The bytes of Pdelay_Req. -/
def State.pdelayBytes (s : State) : List Nat :=
  beBytes 6 macPtp ++ beBytes 6 (s.get F.SBUS_MAC_ADDR) ++ etherPtp ++ numBytes 46 (takeNat s).1

theorem pdelayReq_of_full (h : s.sbus.txFree = []) : pdelayReq s = frameSend s.pdelayBytes (takeNat s).2 := by
  unfold pdelayReq
  simp only [takeNat_sbus, h]
  rfl

theorem pdelayReq_of_bank {k : Nat} {l : List Nat} (h : s.sbus.txFree = k :: l) :
    (pdelayReq s).sbus.tx = s.sbus.tx ++ [⟨k, s.pdelayBytes, true, true, 0⟩] := by
  unfold pdelayReq
  simp only [takeNat_sbus, h]
  rfl

end

/-! ### The queues as the running assistant reads and writes them (R361 to R363) -/

section
variable {m : Master} {w : Nat} {s : State}

section
variable {r : RxFrame} (hruns : s.runsBus m = true) (hfind : s.sbus.rx.find? (fun r => !r.own) = some r)
include hruns hfind

/-- The word that the assistant reads. -/
def RxFrame.word (r : RxFrame) : Nat :=
  let d := (r.bytes.drop r.pos).take 6
  let last := decide (r.bytes.length ≤ r.pos + 6)
  2 ^ 63 + (decide (r.pos = 0)).toNat * 2 ^ 62 + last.toNat * 2 ^ 61 + (last && !r.fcsOk).toNat * 2 ^ 60 + d.length * 2 ^ 48 + leNum d

theorem rxqRead_goes_on (h : r.pos + 6 < r.bytes.length) : rxqRead m s = emit (.regData m 0x3B0040 (BitVec.ofNat 64 r.word))
    (s.modSbus (fun b => { b with rx := b.rx.map (fun x : RxFrame => if x.bank = r.bank then { x with pos := r.pos + 6 } else x) })) := by
  unfold rxqRead rxqTake
  rw [if_pos hruns, hfind]
  simp only [Nat.not_le.mpr h, decide_false, Bool.false_eq_true, if_false, RxFrame.word]

theorem rxqRead_ends (h : r.bytes.length ≤ r.pos + 6) : rxqRead m s = emit (.regData m 0x3B0040 (BitVec.ofNat 64 r.word))
    (s.modSbus (fun b => { b with rx := b.rx.filter (fun x => x.bank != r.bank) })) := by
  unfold rxqRead rxqTake
  rw [if_pos hruns, hfind]
  simp only [h, decide_true, if_true, RxFrame.word]

theorem rxqDrop_of_frame : rxqDrop m s = s.modSbus (fun b => { b with rx := b.rx.filter (fun x => x.bank != r.bank) }) := by
  unfold rxqDrop
  rw [if_pos hruns, hfind]

end

/-- Without a frame or for another master there is nothing to read. -/
theorem rx_none_of_idle (h : s.runsBus m = false ∨ s.sbus.rx.find? (fun r => !r.own) = none) :
    (if s.runsBus m then s.sbus.rx.find? (fun r => !r.own) else none) = none := by
  rcases h with h | h
  · rw [h, if_neg (by decide)]
  · rw [h, ite_self]

theorem rxqRead_of_idle (h : s.runsBus m = false ∨ s.sbus.rx.find? (fun r => !r.own) = none) :
    rxqRead m s = emit (.regData m 0x3B0040 0#64) s := by
  unfold rxqRead rxqTake
  rw [rx_none_of_idle h]

theorem rxqDrop_of_idle (h : s.runsBus m = false ∨ s.sbus.rx.find? (fun r => !r.own) = none) : rxqDrop m s = s := by
  unfold rxqDrop
  rw [rx_none_of_idle h]

/-- The bytes that a write of SBUS_TXQ_DATA holds. -/
def txqBytes (w : Nat) : List Nat := numBytes (min 6 (w / 2 ^ 48 % 8)) (w % 2 ^ 48)

/-- The bytes of the word at the end of the frame in a transmit bank. -/
def txqAppend (k w : Nat) (s : State) : State :=
  s.modSbus (fun b => { b with tx := b.tx.map (fun x : TxFrame => if x.bank = k then { x with bytes := (x.bytes ++ txqBytes w).take 2048 } else x) })

/-- The word in its frame, which ends with LAST. -/
def txqPut (k w : Nat) (s : State) : State := when (w.testBit 61) (fun u => u.modSbus (·.txReady k false)) (txqAppend k w s)

/-- The complete frames alone. -/
def txqClear (s : State) : State := s.modSbus (fun b => { b with tx := b.tx.filter (·.ready) })

theorem txqClear_find (s : State) : (txqClear s).sbus.tx.find? (fun f => !f.ready) = none := by
  refine List.find?_eq_none.mpr fun f hf => ?_
  have hready := (List.mem_filter.mp hf).2
  simp [hready]

/-- A frame without bytes begins in a bank. -/
def txqStart (k : Nat) (ts : Bool) (s : State) : State :=
  (txqClear s).modSbus (fun b => { b with tx := b.tx ++ [⟨k, [], false, ts, 0⟩] })

theorem txqWrite_of_other (h : s.runsBus m = false) : txqWrite m w s = s := by
  unfold txqWrite
  exact if_pos (by rw [h]; rfl)

theorem txqFlush_of_other (h : s.runsBus m = false) : txqFlush m s = s := by
  unfold txqFlush
  rw [h, if_neg (by decide)]

section
variable (hruns : s.runsBus m = true)
include hruns

theorem txqFlush_of_frame {f : TxFrame} (h : s.sbus.tx.find? (fun f => !f.ready) = some f) :
    txqFlush m s = s.modSbus (·.txReady f.bank true) := by
  unfold txqFlush
  rw [if_pos hruns, h]

theorem txqFlush_of_idle (h : s.sbus.tx.find? (fun f => !f.ready) = none) : txqFlush m s = s := by
  unfold txqFlush
  rw [if_pos hruns, h]

theorem txqWrite_goes_on {f : TxFrame} (hfirst : w.testBit 62 = false) (h : s.sbus.tx.find? (fun f => !f.ready) = some f) :
    txqWrite m w s = txqPut f.bank w s := by
  unfold txqWrite
  rw [if_neg (by simp [hruns])]
  simp only [hfirst, Bool.false_eq_true, if_false, h]
  rfl

theorem txqWrite_of_no_frame (hfirst : w.testBit 62 = false) (h : s.sbus.tx.find? (fun f => !f.ready) = none) :
    txqWrite m w s = if s.sbus.txFree = [] then setF F.SBUS_TXQ_CTL_LOST 1 s else s := by
  unfold txqWrite
  rw [if_neg (by simp [hruns])]
  simp only [hfirst, Bool.false_eq_true, if_false, h]
  rcases hfree : s.sbus.txFree with _ | ⟨k, l⟩ <;> rfl

theorem txqWrite_first_of_full (hfirst : w.testBit 62 = true) (hfull : (txqClear s).sbus.txFree = []) :
    txqWrite m w s = setF F.SBUS_TXQ_CTL_LOST 1 (txqClear s) := by
  have hfind := txqClear_find s
  unfold txqClear at hfind hfull
  unfold txqWrite
  rw [if_neg (by simp [hruns])]
  simp only [hfirst, if_true, hfind, hfull]
  rfl

theorem txqWrite_first_of_bank {k : Nat} {l : List Nat} (hfirst : w.testBit 62 = true) (hbank : (txqClear s).sbus.txFree = k :: l) :
    txqWrite m w s = txqPut k w (txqStart k (w.testBit 60) s) := by
  have hfind := txqClear_find s
  unfold txqClear at hfind hbank
  unfold txqWrite
  rw [if_neg (by simp [hruns])]
  simp only [hfirst, if_true, hfind, hbank]
  rfl

end

/-- The frame that a first word begins holds the word's bytes; LAST ends it. -/
theorem txqPut_start (k : Nat) (ts : Bool) : ∃ f : TxFrame, f ∈ (txqPut k w (txqStart k ts s)).sbus.tx ∧ f.ready = w.testBit 61 ∧ f.ts = ts ∧
    (w.testBit 61 = false → f.bytes = txqBytes w) := by
  have hshort : ([] ++ txqBytes w).take 2048 = txqBytes w := by
    refine List.take_of_length_le ?_
    have := Nat.min_le_left 6 (w / 2 ^ 48 % 8)
    rw [List.nil_append, txqBytes, numBytes_length]
    omega
  have hmem : (⟨k, txqBytes w, false, ts, 0⟩ : TxFrame) ∈ (txqAppend k w (txqStart k ts s)).sbus.tx := by
    have h := List.mem_map_of_mem (f := fun x : TxFrame => if x.bank = k then { x with bytes := (x.bytes ++ txqBytes w).take 2048 } else x)
      (List.mem_append_right (txqClear s).sbus.tx (List.mem_singleton.mpr (rfl : (⟨k, [], false, ts, 0⟩ : TxFrame) = _)))
    rwa [if_pos rfl, hshort] at h
  unfold txqPut
  cases hlast : w.testBit 61
  case false => exact ⟨_, hmem, rfl, rfl, fun _ => rfl⟩
  case true =>
    obtain ⟨f, hf, hfready, hfts⟩ : ∃ f ∈ ((txqAppend k w (txqStart k ts s)).sbus.txReady k false).tx, f.ready = true ∧ f.ts = ts :=
      ⟨_, List.mem_map_of_mem hmem, by rw [if_pos rfl], by rw [if_pos rfl]⟩
    exact ⟨f, hf, hfready, hfts, fun h => absurd h (by decide)⟩

end

end Sys2Proof.Machine
end

section
/-! PROOFS. The statements of 15_shelf_bus.md: quarantine, the shelf key and the plates, and every row of the shelf bus. -/

namespace Sys2Proof.Machine

/-! ### Quarantine (R359) -/

section
variable {l : List (Nat × Nat)} {e : Nat × Nat} {n t : Nat} {s : State}

theorem le_foldl_min (hn : t ≤ n) (h : ∀ x ∈ l, t ≤ x.2) : t ≤ l.foldl (fun a e => min a e.2) n := by
  induction l generalizing n with
  | nil => exact hn
  | cons x l ih =>
    obtain ⟨hx, hl⟩ := List.forall_mem_cons.mp h
    exact ih (Nat.le_min.mpr ⟨hn, hx⟩) hl

theorem foldl_min_le (l : List (Nat × Nat)) (n : Nat) : l.foldl (fun a e => min a e.2) n ≤ n := by
  induction l generalizing n with
  | nil => exact Nat.le_refl n
  | cons x l ih => exact Nat.le_trans (ih _) (Nat.min_le_left n x.2)

theorem foldl_min_le_mem (h : e ∈ l) : l.foldl (fun a e => min a e.2) n ≤ e.2 := by
  induction l generalizing n with
  | nil => exact absurd h List.not_mem_nil
  | cons x l ih =>
    rcases List.mem_cons.mp h with rfl | hl
    · exact Nat.le_trans (foldl_min_le l _) (Nat.min_le_right n _)
    · exact ih hl

/-- The source whose entry is the oldest leaves quarantine. -/
theorem quarExpire_of_due (hfind : s.sbus.quar.find? (fun x => x.2 == e.2) = some e) (hleast : ∀ x ∈ s.sbus.quar, e.2 ≤ x.2) (hdue : e.2 ≤ s.now) :
    quarExpire s = s.modSbus (fun b => { b with quar := b.quar.filter (fun x => x.1 != e.1) }) := by
  have hmin : s.sbus.quar.foldl (fun a e => min a e.2) s.now = e.2 :=
    Nat.le_antisymm (foldl_min_le_mem (List.mem_of_find?_eq_some hfind)) (le_foldl_min hdue hleast)
  unfold quarExpire
  rw [hmin]
  simp only [hfind]

theorem quarExpire_of_none (h : ∀ x ∈ s.sbus.quar, s.now < x.2) : quarExpire s = s := by
  have hmin : s.sbus.quar.foldl (fun a e => min a e.2) s.now = s.now :=
    Nat.le_antisymm (foldl_min_le _ _) (le_foldl_min (Nat.le_refl _) (fun x hx => Nat.le_of_lt (h x hx)))
  have hfind : s.sbus.quar.find? (fun x => x.2 == s.now) = none :=
    List.find?_eq_none.mpr fun x hx => by simpa using Nat.ne_of_gt (h x hx)
  unfold quarExpire
  rw [hmin]
  simp only [hfind]

/-! ### The shelf key (R359) -/

theorem shelfKeyCommit_of_state (h : s.lcs.state ≠ lcProvision) (h' : s.lcs.state ≠ lcService) :
    shelfKeyCommit s = setErr F.SBUS_ERR_STATUS_KEY_FAIL intSbus s := by
  unfold shelfKeyCommit
  exact if_neg (fun hor => hor.elim h h')

section
variable (hstate : s.lcs.state = lcProvision ∨ s.lcs.state = lcService)
include hstate

theorem shelfKeyCommit_of_unprotected (h : s.alm.wp = false) : (shelfKeyCommit s).sbus.key = some (BitVec.ofNat 256 s.keyRegs) := by
  unfold shelfKeyCommit
  rw [if_pos hstate, almDevice_of_unprotected _ _ h]
  rfl

theorem shelfKeyCommit_of_protected (h : s.alm.wp = true) :
    shelfKeyCommit s = setErr F.SBUS_ERR_STATUS_KEY_FAIL intSbus (setErr F.ALM_ERR_STATUS_WP_REFUSE intAlm s) := by
  have hrefused : ∀ l, almDevice 0x100 l s = (false, setErr F.ALM_ERR_STATUS_WP_REFUSE intAlm s) := fun l => if_pos (by rw [h]; rfl)
  unfold shelfKeyCommit
  rw [if_pos hstate, hrefused]
  rfl

end

end

/-! ### Plates (R326, R368, R369) -/

section
variable {p c a v : Nat} {s : State}

/-- The action in bits 8 to 11 of a word of SBUS_PLT_CMD; the plate and GO are the word's own. -/
theorem pltCmd_putBits (h : 1 ≤ a ∧ a ≤ 3) : pltCmd (putBits 8 4 a v) s = if v.testBit 31 ∧ s.assistRuns then plateReq ⟨v % 16, a, 2⟩ s else s := by
  have hgo : (putBits 8 4 a v).testBit 31 = v.testBit 31 := by
    have hhigh : putBits 8 4 a v / 2 ^ 31 = v / 2 ^ 31 := by
      unfold putBits
      omega
    rw [Nat.testBit_eq_decide_div_mod_eq, Nat.testBit_eq_decide_div_mod_eq, hhigh]
  have haction : putBits 8 4 a v / 256 % 16 = a := by
    unfold putBits
    omega
  have hplate : putBits 8 4 a v % 16 = v % 16 := by
    unfold putBits
    omega
  unfold pltCmd
  rw [hgo, haction, hplate]
  exact if_congr (by simp [h]) rfl rfl

theorem plateReq_of_stalled {r : PltReq} (h : s.asstStalled = true) :
    plateReq r s = s.modSbus (fun b => { b with reqs := (b.reqs ++ [r]).take 256 }) := if_pos h

/-- A request that the table of R368 gives a row acts by its action and the plate's state. -/
theorem plateAct_on (h : s.reqOk ⟨p, 1, c⟩ = true) : plateAct ⟨p, 1, c⟩ s =
    if s.mgmt p = pDraining then s.modSbus (fun b => { b with heldOn := if b.heldOn.contains p then b.heldOn else b.heldOn ++ [p] })
    else powering p (when (decide (s.mgmt p = pFailed)) (logOpen bSBUS p (s.mgmt p)) s) := by
  unfold plateAct
  rw [if_neg (by simp [h])]
  rfl

theorem plateAct_out (h : s.reqOk ⟨p, 2, c⟩ = true) :
    plateAct ⟨p, 2, c⟩ s = if s.mgmt p = pOnline then plateDrain p c s else plateDown p (setMgmt p pOffline s) := by
  unfold plateAct
  rw [if_neg (by simp [h])]
  rfl

theorem plateAct_of_offline (h : s.mgmt p = pOffline) : plateAct ⟨p, 1, c⟩ s = powering p s := by
  rw [plateAct_on (by simp [State.reqOk, h]), if_neg (by rw [h]; decide), h]
  rfl

theorem plateAct_of_failed (h : s.mgmt p = pFailed) : plateAct ⟨p, 1, c⟩ s = powering p (logOpen bSBUS p pFailed s) := by
  rw [plateAct_on (by simp [State.reqOk, h]), if_neg (by rw [h]; decide), h]
  rfl

theorem plateAct_of_draining (h : s.mgmt p = pDraining) :
    plateAct ⟨p, 1, c⟩ s = s.modSbus (fun b => { b with heldOn := if b.heldOn.contains p then b.heldOn else b.heldOn ++ [p] }) := by
  rw [plateAct_on (by simp [State.reqOk, h]), if_pos h]

theorem plateAct_of_powering (h : s.mgmt p = pPowering) : plateAct ⟨p, 2, c⟩ s = plateDown p (setMgmt p pOffline s) := by
  rw [plateAct_out (by simp [State.reqOk, h]), if_neg (by rw [h]; decide)]

/-- The end of a drain leaves no read in flight on the plate. -/
theorem drainTimeout_of_draining (h : s.mgmt p = pDraining) :
    ∃ u, drainTimeout p s = platesSettle (plateOffline p (settle (resetPrograms p u))) ∧ ∀ e ∈ u.med.planes, e.1 / 64 ≠ p := by
  refine ⟨_, if_pos h, fun e he => ?_⟩
  exact bne_iff_ne.mp (List.mem_filter.mp he).2

end

/-- Settles O30: each row by the lemma about its own function. -/
theorem theShelfBusItself : Obligations.TheShelfBusItself := by
  unfold Obligations.TheShelfBusItself
  refine ⟨?other, ?ptp, ?pdelay, ?coordinator, ?resume, ?beacon, ?collision, ?read, ?drop, ?write, ?flush, ?sent, ?quarantine, ?commit, ?refused⟩
  case other =>
    intro bytes s b haon hmac hmin hmax hserved hen hshelf hptp
    exact next_congr (congrArg domeAfter (frameIn_of_other ⟨haon, hmac⟩ ⟨hmin, hmax⟩ ⟨hserved, hen⟩ hshelf hptp))
  case ptp =>
    intro bytes ofs adj s u hst htaken hofs
    have hgo : (decide (s.sbus.rx.length < u.sbus.rx.length) && true && !s.asstStalled) = true := by simp [hst, htaken]
    exact next_congr ((if_pos hgo).trans (if_pos hofs))
  case pdelay =>
    intro s hserved hst htx
    have hfree : s.sbus.txFree = [0, 1] := by simp [SbusSt.txFree, htx]
    refine ⟨pdelayReq s, ⟨0, s.pdelayBytes, true, true, 0⟩, next_congr (if_pos (by simp [hserved, hst])), ?_, rfl, rfl⟩
    rw [pdelayReq_of_bank hfree, htx, List.nil_append]
  case coordinator => exact fun s h => ⟨next_congr (if_pos h), next_congr (if_pos h)⟩
  case resume => exact fun s h => next_congr (if_pos h)
  case beacon =>
    intro s hcoord haon
    have hnot : ¬ (s.coordNow = true ∨ s.start.aonDown = true) := by simp [hcoord, haon]
    exact ⟨next_congr (if_neg hnot), next_congr (if_neg hnot)⟩
  case collision =>
    intro f s htx htxq hready hcsma hen haon
    have hfind : s.sbus.tx.find? (·.ready) = some f := by simp [htx, hready]
    refine ⟨plcaCollision s, rfl, ?_⟩
    rcases Nat.lt_or_ge (f.tries + 1) 16 with h | h
    · rw [plcaCollision_retries hfind hcsma hen haon h, if_neg (Nat.not_le.mpr h)]
      refine ⟨bne_iff_ne.mpr (setErr_get _ _ _ rfl), ?_⟩
      rw [setErr_sbus]
      exact (txFill_tx _ htxq).trans (by simp [htx])
    · rw [plcaCollision_drops hfind hcsma hen haon h, if_pos h]
      refine ⟨bne_iff_ne.mpr (setErr_get _ _ _ rfl), ?_⟩
      rw [setErr_sbus]
      exact (txFill_tx _ htxq).trans (by simp [htx])
  case read =>
    intro m r s hruns hrx hown hpos
    have hfind : s.sbus.rx.find? (fun r => !r.own) = some r := by simp [hrx, hown]
    refine ⟨r.word, next_congr ((rxqRead_goes_on hruns hfind hpos).trans ?_), ?_⟩
    · simp [State.modSbus, hrx]
    · unfold RxFrame.word
      dsimp only
      omega
  case drop =>
    intro m r s hruns hrx hown
    have hfind : s.sbus.rx.find? (fun r => !r.own) = some r := by simp [hrx, hown]
    refine next_congr ((rxqDrop_of_frame hruns hfind).trans ?_)
    simp [State.modSbus, hrx]
  case write =>
    intro m w f s hruns htx hready hfirst hlast
    have hfind : s.sbus.tx.find? (fun f => !f.ready) = some f := by simp [htx, hready]
    refine next_congr ((txqWrite_goes_on hruns hfirst hfind).trans ?_)
    simp [txqPut, when, hlast, txqAppend, txqBytes, State.modSbus, htx]
  case flush =>
    intro m f s hruns htx hready
    exact next_congr (txqFlush_of_frame hruns (by simp [htx, hready]))
  case sent =>
    intro f s htx hready hts htxq hen haon
    refine ⟨txSent s, rfl, ?_⟩
    rw [txSent_of_on (f := f) (by simp [htx, hready]) hen haon, hts]
    refine ⟨?_, rfl⟩
    exact (txFill_tx _ htxq).trans (by simp [htx])
  case quarantine =>
    intro src t s hquar hdue
    refine next_congr ((quarExpire_of_due (e := (src, t)) (by simp [hquar]) (by simp [hquar]) hdue).trans ?_)
    simp [State.modSbus, hquar]
  case commit => exact fun m s hstate hwp => ⟨_, rfl, shelfKeyCommit_of_unprotected (.inl hstate) hwp⟩
  case refused =>
    intro m s hstate
    exact next_congr (shelfKeyCommit_of_state (by rw [hstate]; decide) (by rw [hstate]; decide))

/-- Settles O59: the frame rows by `frameRow_of_frameIn`, the queues and the plates by the lemmas about their functions. -/
theorem everyShelfBusAndPlateRowCompletes : Obligations.EveryShelfBusAndPlateRowCompletes := by
  unfold Obligations.EveryShelfBusAndPlateRowCompletes
  refine ⟨fun f s => ?commands, fun bytes fcs s => frameRow_of_frameIn rfl, fun bytes fcs s => frameRow_of_frameIn rfl, ?ptp, ?pdelay, ?sending,
    ?idle, ?quarantine, ?reading, ?nothing, ?writing, ?key, ?asking, ?acting, ?inserted, ?plates⟩
  case commands => exact ⟨frameRow_of_frameIn rfl, frameRow_of_frameIn rfl, frameRow_of_frameIn rfl, frameRow_of_frameIn rfl,
      frameRow_of_frameIn rfl, frameRow_of_frameIn rfl, frameRow_of_frameIn rfl, frameRow_of_frameIn rfl⟩
  case ptp =>
    intro bytes fcs ofs adj s u
    refine ⟨fun h => ?_, fun hfcs hst htaken hofs => ?_⟩
    · refine next_congr (if_neg ?_)
      rcases h with rfl | hst | hlen
      · simp
      · simp [hst]
      · change ¬ (decide (s.sbus.rx.length < u.sbus.rx.length) && fcs && !s.asstStalled) = true
        simp [Nat.not_lt.mpr hlen]
    · have hgo : (decide (s.sbus.rx.length < u.sbus.rx.length) && fcs && !s.asstStalled) = true := by simp [hfcs, hst, htaken]
      exact next_congr ((if_pos hgo).trans (if_neg (Nat.not_lt.mpr hofs)))
  case pdelay =>
    intro s
    refine ⟨fun hserved hst hfull => ?_, fun hserved hst hfree => ?_, fun h => next_congr (if_neg ?_)⟩
    · exact ⟨_, _, next_congr ((if_pos (by simp [hserved, hst])).trans (pdelayReq_of_full hfull)), rfl⟩
    · obtain ⟨k, l, hk⟩ := List.exists_cons_of_ne_nil hfree
      exact ⟨pdelayReq s, next_congr (if_pos (by simp [hserved, hst])), k, _, hk ▸ List.mem_cons_self, pdelayReq_of_bank hk⟩
    · rcases h with h | h <;> simp [h]
  case sending =>
    intro f s hready
    refine ⟨fun hcsma hen haon => ⟨fun h => next_congr (plcaCollision_retries hready hcsma hen haon h),
      fun h => next_congr (plcaCollision_drops hready hcsma hen haon h)⟩, fun h => next_congr (plcaCollision_of_off hready h),
      fun hen haon => ⟨_, next_congr (txSent_of_on hready hen haon), rfl, rfl⟩, fun h => next_congr (txSent_of_off hready h)⟩
  case idle => exact fun s h => ⟨next_congr (plcaCollision_of_idle h), next_congr (txSent_of_idle h)⟩
  case quarantine =>
    exact fun e s => ⟨fun hfind hleast hdue => next_congr (quarExpire_of_due hfind hleast hdue), fun h => next_congr (quarExpire_of_none h)⟩
  case reading =>
    intro m r s hruns hfind d first answer
    refine ⟨fun hpos => ?_, fun hpos => ?_, next_congr (rxqDrop_of_frame hruns hfind)⟩
    · have hword : r.word = 2 ^ 63 + first + d.length * 2 ^ 48 + leNum d := by
        simp [RxFrame.word, Nat.not_le.mpr hpos, d, first]
      rw [← hword]
      exact next_congr (rxqRead_goes_on hruns hfind hpos)
    · have hword : r.word = 2 ^ 63 + first + 2 ^ 61 + (!r.fcsOk).toNat * 2 ^ 60 + d.length * 2 ^ 48 + leNum d := by
        simp [RxFrame.word, hpos, d, first]
      rw [← hword]
      exact next_congr (rxqRead_ends hruns hfind hpos)
  case nothing => exact fun m s h => ⟨next_congr (rxqRead_of_idle h), next_congr (rxqDrop_of_idle h)⟩
  case writing =>
    intro m w s d
    refine ⟨fun hruns => ⟨next_congr (txqWrite_of_other hruns), next_congr (txqFlush_of_other hruns)⟩,
      fun f hruns hfirst hfind => ⟨fun hlast => ?_, fun hlast => ?_, next_congr (txqFlush_of_frame hruns hfind)⟩,
      fun hruns hfirst hfind => ⟨fun hfree => ?_, fun hfree => ?_, next_congr (txqFlush_of_idle hruns hfind)⟩,
      fun hruns hfirst hfree => ?_, fun hruns hfirst hfree => next_congr (txqWrite_first_of_full hruns hfirst hfree)⟩
    · exact next_congr ((txqWrite_goes_on hruns hfirst hfind).trans (by rw [txqPut, hlast]; rfl))
    · exact next_congr ((txqWrite_goes_on hruns hfirst hfind).trans (by rw [txqPut, hlast]; rfl))
    · exact next_congr ((txqWrite_of_no_frame hruns hfirst hfind).trans (if_neg hfree))
    · exact next_congr ((txqWrite_of_no_frame hruns hfirst hfind).trans (if_pos hfree))
    · obtain ⟨k, l, hk⟩ := List.exists_cons_of_ne_nil hfree
      exact ⟨_, next_congr (txqWrite_first_of_bank hruns hfirst hk), txqPut_start k (w.toNat.testBit 60)⟩
  case key =>
    exact fun m s => ⟨fun hstate hwp => ⟨_, rfl, shelfKeyCommit_of_unprotected hstate hwp⟩,
      fun hstate hwp => next_congr (shelfKeyCommit_of_protected hstate hwp), fun h h' => next_congr (shelfKeyCommit_of_state h h')⟩
  case asking =>
    intro m v s ask
    refine ⟨fun h => ?_, fun hgo hruns hst => ?_⟩
    · have hidle : ¬ (v.toNat.testBit 31 = true ∧ s.assistRuns = true) := by rcases h with h | h <;> simp [h]
      exact ⟨next_congr ((pltCmd_putBits (by decide)).trans (if_neg hidle)), next_congr ((pltCmd_putBits (by decide)).trans (if_neg hidle)),
        next_congr ((pltCmd_putBits (by decide)).trans (if_neg hidle))⟩
    · exact ⟨next_congr ((pltCmd_putBits (by decide)).trans ((if_pos ⟨hgo, hruns⟩).trans (plateReq_of_stalled hst))),
        next_congr ((pltCmd_putBits (by decide)).trans ((if_pos ⟨hgo, hruns⟩).trans (plateReq_of_stalled hst)))⟩
  case acting => exact fun p c s => ⟨plateAct_of_offline, plateAct_of_failed, plateAct_of_draining, plateAct_of_powering⟩
  case inserted =>
    intro plate ident s u
    refine ⟨fun habsent hruns => ?_, fun habsent hruns => ?_, fun hpresent => next_congr (if_pos hpresent)⟩
    · exact next_congr ((if_neg (Bool.eq_false_iff.mp habsent)).trans (if_pos hruns))
    · exact next_congr ((if_neg (Bool.eq_false_iff.mp habsent)).trans (if_neg (Bool.eq_false_iff.mp hruns)))
  case plates =>
    intro plate temp s p u
    refine ⟨fun habsent => next_congr (if_neg (Bool.eq_false_iff.mp habsent)), fun hdrain => ?_, fun hdrain => next_congr (if_neg hdrain),
      fun hcool => next_congr (if_neg fun hand => hcool.elim (· hand.1) (Nat.not_lt.mpr hand.2)), fun hagree => next_congr (if_neg fun hand => ?_)⟩
    · obtain ⟨t, ht, hplanes⟩ := drainTimeout_of_draining hdrain
      exact ⟨t, next_congr ht, hplanes⟩
    · obtain ⟨hdis, hflag⟩ := hand
      rcases hagree with h | h
      · exact absurd (hdis.symm.trans h) (by decide)
      · exact absurd hflag (by rw [h]; decide)

end Sys2Proof.Machine
end

section
/-! PROOFS. The statements of 13_dome_power.md and the rows of clocks and records: rails, readings, temperatures, the hold-up estimate, fans,
the time of day, the logbook's window, snapshots, the end of an almanac access. -/

namespace Sys2Proof.Machine

/-! ### Rails (R319, R325) -/

section
variable {n mv : Nat} {f : Rail → Rail} {s : State}

theorem rail_modRail (n : Nat) (f : Rail → Rail) (s : State) : (modRail n f s).rail n = f (s.rail n) := tgetD_tput_self _ _ _ _

/-- A rail that reads below a tenth of its nominal value. -/
def railEmptied (n mv : Nat) (s : State) : State :=
  modRail n (fun x => { x with disch := true, pg := false, mv := mv, phase := if x.phase = .failed then .failed else .off }) s

theorem rail_railEmptied : (railEmptied n mv s).rail n =
    { s.rail n with disch := true, pg := false, mv := mv, phase := if (s.rail n).phase = .failed then .failed else .off } := rail_modRail n _ s

theorem railDown_of_low (hen : (s.rail n).en = false) (hdisch : (s.rail n).disch = false) (hlow : mv * 10 < s.get (F.DOME_RAIL_CFG_NOM_MV n)) :
    railDown n mv s = domeAfter (seqRun (railSeq n) (railEmptied n mv s)) := by
  unfold railDown
  exact if_pos (by simp [hen, hdisch, hlow])

theorem pltReqWrite_of_assist {m : Master} {v : Nat} (h : m.isAssist = true) : pltReqWrite m v s = platesSettle (seqAll (fun p t =>
    if v.testBit p = true ∧ (s.get F.DOME_PLT_REQ_ON).testBit p = false then seqOn p t
    else if v.testBit p = false ∧ (s.get F.DOME_PLT_REQ_ON).testBit p = true then seqOff p (channelsOff p t)
    else t) (List.range 16) (setF F.DOME_PLT_REQ_ON v s)) := by
  unfold pltReqWrite
  rw [if_pos h]
  simp only [Bool.and_eq_true, Bool.not_eq_true']

/-! ### Readings (R317, R332) -/

theorem adcRail_of_idle (h : (s.rail n).phase ≠ .running) : adcRail n mv s = railRead n mv s := if_pos h

section
variable (hrun : (s.rail n).phase = .running)
include hrun

theorem adcRail_in_window (h : (s.railOver n mv || s.railUnder n mv) = false) :
    adcRail n mv s = marginSettle n mv (modRail n (fun r => { r with bad := 0 }) (railRead n mv s)) := by
  unfold adcRail
  rw [if_neg (not_not_intro hrun), h]
  rfl

variable (hout : (s.railOver n mv || s.railUnder n mv) = true)
include hout

theorem adcRail_first_out (h : (s.rail n).bad = 0) : adcRail n mv s = modRail n (fun r => { r with bad := 1 }) (railRead n mv s) := by
  unfold adcRail
  rw [if_neg (not_not_intro hrun), hout, h]
  rfl

theorem adcRail_second_out (h : (s.rail n).bad ≠ 0) :
    adcRail n mv s = railFail (if s.railOver n mv then 1 else 0) n mv (railRead n mv s) := by
  unfold adcRail
  rw [if_neg (not_not_intro hrun), hout]
  exact (if_neg (by decide)).trans (if_neg h)

end

section
variable (hcap : s.get F.DOME_HU_CFG_CAP_MF ≠ 0)
include hcap

theorem huEstimate_below (h : tgetD 1 s.dome.adc 9 - 1 < s.get F.DOME_HU_CFG_VMIN_MV) : huEstimate s = setF F.DOME_HU_STATUS_EST_CJ 0 s := by
  unfold huEstimate
  rw [if_neg hcap, if_pos h]
  rfl

theorem huEstimate_get (h : s.get F.DOME_HU_CFG_VMIN_MV ≤ tgetD 1 s.dome.adc 9 - 1) : (huEstimate s).get F.DOME_HU_STATUS_EST_CJ =
    min 65535 (s.get F.DOME_HU_CFG_CAP_MF * ((tgetD 1 s.dome.adc 9 - 1) * (tgetD 1 s.dome.adc 9 - 1) -
      s.get F.DOME_HU_CFG_VMIN_MV * s.get F.DOME_HU_CFG_VMIN_MV) / 20000000) := by
  unfold huEstimate
  rw [if_neg hcap, if_neg (Nat.not_lt.mpr h)]
  exact State.get_setF_lt s (Nat.lt_of_le_of_lt (Nat.min_le_left _ _) (by decide))

end

/-! ### Temperatures (R334, R327) -/

/-- The reading noted: the largest value, the counts at 105 and 110 C, the override from 100 C down to 95 C. -/
def tempNoted (tj : Nat) (s : State) : State :=
  s.modDome (fun d =>
    { d with tj := tj, hot110 := min (if 110 ≤ tj then d.hot110 + 1 else 0) 2, hot105 := decide (105 < tj),
             thermOvr := decide (100 ≤ tj) || (d.thermOvr && decide (95 ≤ tj)) })

/-- The warning at the first reading above 105 C. -/
def tempWarned (tj : Nat) (s : State) : State :=
  logPut sevWarning (0x1000 + (takeNat s).1 % 256) tj 0 0 0 (takeNat s).2

/-- Every LD's alert and the mailbox's. -/
def tempAlerts (tj : Nat) (s : State) : State := seqAll (tempAlert tj) (s.lds ++ [mgmtView]) s

theorem tempReading_eq (l : List Nat) (s : State) : tempReading l s =
    let tj := l.foldl max 0
    let t := tempAlerts tj (if 105 < tj ∧ s.dome.hot105 = false then tempWarned tj (tempNoted tj s) else tempNoted tj s)
    if 110 ≤ tj ∧ s.dome.hot110 ≠ 0 ∧ s.glb.mode ≠ .off then railFault 5 0xFF tj t else t := by
  have htrip : (2 ≤ (if 110 ≤ l.foldl max 0 then s.dome.hot110 + 1 else 0) ∧ s.glb.mode ≠ .off) ↔
      (110 ≤ l.foldl max 0 ∧ s.dome.hot110 ≠ 0 ∧ s.glb.mode ≠ .off) := by
    by_cases h : 110 ≤ l.foldl max 0
    · simp only [h, if_true, true_and]
      exact and_congr_left fun _ => by omega
    · simp [h]
  have hfirst : (105 < l.foldl max 0 ∧ (!s.dome.hot105) = true) ↔ (105 < l.foldl max 0 ∧ s.dome.hot105 = false) := by
    rw [Bool.not_eq_true']
  unfold tempReading
  dsimp only
  rw [if_congr htrip rfl rfl, if_congr hfirst rfl rfl]
  rfl

/-! ### Fans (R334) -/

/-- Is a fan slow in its window? -/
def State.fanSlow (s : State) (f pulses : Nat) : Bool :=
  decide (pulses * 60 / (s.get (F.DOME_FAN_CTL_PPR f) + 1) < s.get (F.DOME_FAN_CTL_MIN_RPM f) * 100) && decide (51 ≤ s.duty f)

/-- The speed and the stall noted. -/
def fanNoted (f pulses : Nat) (s : State) : State :=
  modFan f (fun x => { x with rpm := min (pulses * 60 / (s.get (F.DOME_FAN_CTL_PPR f) + 1)) 65535, stall := s.fanSlow f pulses }) s

/-- The stall of a fan, reported. -/
def fanStalled (f : Nat) (s : State) : State :=
  let t := setErr F.DOME_ERR_STATUS_FAN_STALL intDome s
  logPut sevError 0x1002 (takeNat t).1 f 0 0 (takeNat t).2

theorem fanTach_eq (f pulses : Nat) (s : State) : fanTach f pulses s =
    if s.fanSlow f pulses && !(s.fan f).stall then fanStalled f (fanNoted f pulses s) else fanNoted f pulses s := rfl

theorem raiseInt_dome (b : Nat) (s : State) : (raiseInt b s).dome = s.dome := by
  unfold raiseInt msixSend
  dsimp only
  repeat' split
  all_goals rfl

theorem setErr_dome (f : Fld) (cause : Nat) (s : State) : (setErr f cause s).dome = s.dome := by rw [setErr_shape]

theorem logStore_dome (code source sev p0 p1 p2 p3 : Nat) (s : State) : (logStore code source sev p0 p1 p2 p3 s).dome = s.dome := by
  unfold logStore
  dsimp only
  split
  · exact raiseInt_dome _ _
  · rfl

theorem logPut_dome (sev code p0 p1 p2 p3 : Nat) (s : State) : (logPut sev code p0 p1 p2 p3 s).dome = s.dome := by
  have hlost : (logLost s).dome = s.dome := by
    unfold logLost
    split
    · rfl
    · exact logStore_dome _ _ _ _ _ _ _ s
  unfold logPut logFrom
  split
  · rfl
  · exact (logStore_dome _ _ _ _ _ _ _ _).trans hlost

theorem fanStalled_dome (f : Nat) (s : State) : (fanStalled f s).dome = s.dome := (logPut_dome _ _ _ _ _ _ _).trans (setErr_dome _ _ s)

theorem fanStalled_reported (f : Nat) (s : State) : (fanStalled f s).on F.DOME_ERR_STATUS_FAN_STALL = true := by
  have hset := setErr_get F.DOME_ERR_STATUS_FAN_STALL intDome s rfl
  refine bne_iff_ne.mpr fun h => hset ?_
  rw [← h]
  exact State.get_congr ((takeNat_regs _).symm.trans (logPut_regs _ _ _ _ _ _ _).symm) _

theorem fan_fanTach (f pulses : Nat) (s : State) : (fanTach f pulses s).fan f = (fanNoted f pulses s).fan f := by
  rw [fanTach_eq]
  split
  · exact congrArg (fun d : DomeSt => tgetD Fan.reset d.fans f) (fanStalled_dome f (fanNoted f pulses s))
  · rfl

theorem fan_modFan (f : Nat) (g : Fan → Fan) (s : State) : (modFan f g s).fan f = g (s.fan f) := tgetD_tput_self _ _ _ _

theorem fan_fanNoted_stall (f pulses : Nat) (s : State) : ((fanNoted f pulses s).fan f).stall = s.fanSlow f pulses := by
  rw [fanNoted, fan_modFan]

/-! ### The time of day (R344) -/

/-- A word written to CLK_TOD_SET takes effect. -/
def todTaken (m : Master) (w : Nat) (s : State) : State := todStep w 2 (setF F.CLK_TOD_SET w (dropHold m 0x3A0028 s))

theorem todSet_of_hold {m : Master} {v lo : Nat} (h : holdOf s m 0x3A0028 = some lo) :
    todSet m false v s = todTaken m (v % 2 ^ 32 * 2 ^ 32 + lo) s := by
  unfold todSet
  simp only [highWrite_of_hold h, Bool.false_eq_true, if_false, if_true]
  rfl

theorem todSet_of_no_hold {m : Master} {v : Nat} (h : holdOf s m 0x3A0028 = none) :
    todSet m false v s = todTaken m (v % 2 ^ 32 * 2 ^ 32 + s.get F.CLK_TOD_SET % 2 ^ 32) s := by
  unfold todSet
  simp only [highWrite_of_no_hold h, Bool.false_eq_true, if_false]
  rfl

/-! ### The DPLL (R336, R337) -/

/-- The recovered clock noted as qualified. -/
def recNoted (ofs : Nat) (s : State) : State :=
  setF F.CLK_DPLL_STATUS_REC_OFS ofs (setF F.CLK_DPLL_STATUS_SSC 0 (setF F.CLK_DPLL_STATUS_REC_QUAL 1 s))

theorem recQualified_of_l0 {ofs : Nat} (hen : s.on F.CLK_CTL_REC_EN = true) (hup : (s.port 0).up = true) (hl1 : (s.port 0).l1 = false) :
    recQualified ofs s = if s.get F.CLK_DPLL_STATUS_STATE = dpllRec then recNoted ofs s
      else setF F.CLK_DPLL_STATUS_SLEWING 1 (setF F.CLK_DPLL_STATUS_STATE dpllRec (recNoted ofs s)) := by
  unfold recQualified
  rw [if_pos (by simp [hen, hup, hl1])]
  rfl

theorem recQualified_of_idle {ofs : Nat} (h : s.on F.CLK_CTL_REC_EN = false ∨ (s.port 0).up = false ∨ (s.port 0).l1 = true) :
    recQualified ofs s = s := by
  unfold recQualified
  exact if_neg (by rcases h with h | h | h <;> simp [h])

theorem recNoted_get (ofs : BitVec 16) (s : State) : (recNoted ofs.toNat s).get F.CLK_DPLL_STATUS_REC_QUAL = 1 ∧
    (recNoted ofs.toNat s).get F.CLK_DPLL_STATUS_SSC = 0 ∧ (recNoted ofs.toNat s).get F.CLK_DPLL_STATUS_REC_OFS = ofs.toNat ∧
    (recNoted ofs.toNat s).get F.CLK_DPLL_STATUS_STATE = s.get F.CLK_DPLL_STATUS_STATE := by
  unfold recNoted
  refine ⟨?qual, ?ssc, State.get_setF_lt _ ofs.isLt, ?state⟩
  case qual => rw [State.get_setF_ne _ _ (by decide), State.get_setF_ne _ _ (by decide), State.get_setF_one _ rfl]
  case ssc => rw [State.get_setF_ne _ _ (by decide), State.get_setF_self, Nat.zero_mod]
  case state => rw [State.get_setF_ne _ _ (by decide), State.get_setF_ne _ _ (by decide), State.get_setF_ne _ _ (by decide)]

/-- Qualified, the recovered clock is the DPLL's reference, whether it was or not. -/
theorem recQualified_get {ofs : BitVec 16} (hen : s.on F.CLK_CTL_REC_EN = true) (hup : (s.port 0).up = true) (hl1 : (s.port 0).l1 = false) :
    (recQualified ofs.toNat s).get F.CLK_DPLL_STATUS_STATE = dpllRec ∧ (recQualified ofs.toNat s).get F.CLK_DPLL_STATUS_REC_QUAL = 1 ∧
    (recQualified ofs.toNat s).get F.CLK_DPLL_STATUS_SSC = 0 ∧ (recQualified ofs.toNat s).get F.CLK_DPLL_STATUS_REC_OFS = ofs.toNat := by
  obtain ⟨hqual, hssc, hofs, hstate⟩ := recNoted_get ofs s
  rw [recQualified_of_l0 hen hup hl1]
  split
  · rename_i hrec
    exact ⟨hstate.trans hrec, hqual, hssc, hofs⟩
  · have hkeep (g : Fld) (hoff : g.off = 0x3A0018) (hslew : (g.lo == 29) = false) (hst : (g.lo == 30) = false) :
        (setF F.CLK_DPLL_STATUS_SLEWING 1 (setF F.CLK_DPLL_STATUS_STATE dpllRec (recNoted ofs.toNat s))).get g = (recNoted ofs.toNat s).get g :=
      (State.get_setF_ne _ _ (Fld.key_ne_of_lo hoff hslew)).trans (State.get_setF_ne _ _ (Fld.key_ne_of_lo hoff hst))
    refine ⟨?_, (hkeep _ rfl rfl rfl).trans hqual, (hkeep _ rfl rfl rfl).trans hssc, (hkeep _ rfl rfl rfl).trans hofs⟩
    rw [State.get_setF_ne _ _ (by decide), State.get_setF_self]
    rfl

theorem recDisqualified_get {ssc : Bool} (h : s.get F.CLK_DPLL_STATUS_STATE ≠ dpllRec) :
    (recDisqualified ssc s).get F.CLK_DPLL_STATUS_REC_QUAL = 0 ∧
    (recDisqualified ssc s).get F.CLK_DPLL_STATUS_STATE = s.get F.CLK_DPLL_STATUS_STATE ∧
    (ssc = true → (recDisqualified ssc s).get F.CLK_DPLL_STATUS_SSC = 1) := by
  have heq : recDisqualified ssc s = when ssc (setF F.CLK_DPLL_STATUS_SSC 1) (setF F.CLK_DPLL_STATUS_REC_QUAL 0 s) := if_neg h
  have hkeep (g : Fld) (hoff : g.off = 0x3A0018) (hlo : (g.lo == 28) = false) :
      (recDisqualified ssc s).get g = (setF F.CLK_DPLL_STATUS_REC_QUAL 0 s).get g := by
    rw [heq]
    cases ssc
    · rfl
    · exact State.get_setF_ne _ _ (Fld.key_ne_of_lo hoff hlo)
  refine ⟨?_, ?_, fun hssc => ?_⟩
  · rw [hkeep _ rfl rfl, State.get_setF_self, Nat.zero_mod]
  · rw [hkeep _ rfl rfl, State.get_setF_ne _ _ (by decide)]
  · rw [heq, hssc]
    exact State.get_setF_one _ rfl

/-! ### The logbook's window, snapshots, the almanac (R376, R383, R388) -/

theorem logWin3Read_of_held {r : LogRec} (hwin : s.log.win = some r) (h : s.on F.LOG_CURSOR_AUTO = false ∨ r.seq ≠ s.get F.LOG_CURSOR_SEQ) :
    logWin3Read s = s := by
  unfold logWin3Read
  rw [hwin]
  exact if_neg fun hand => h.elim (fun hauto => absurd (hauto.symm.trans hand.1) (by decide)) (· hand.2)

theorem logWin3Read_of_empty (hwin : s.log.win = none) : logWin3Read s = s := by
  unfold logWin3Read
  rw [hwin]

theorem logWin_of_held {r : LogRec} {w : Nat} (hwin : s.log.win = some r) : logWin s w = r.word w := by
  unfold logWin
  rw [hwin]

theorem logWin_of_empty {w : Nat} (hwin : s.log.win = none) : logWin s w = 0 := by
  unfold logWin
  rw [hwin]

theorem snapStart_of_idle (h : s.spec.busy = false) :
    snapStart s = s.modSpec (fun p => { p with busy := true, frozen := p.live, frozenAt := s.clk.tod }) :=
  if_neg (Bool.eq_false_iff.mp h)

section
variable {j : AlmJob} (hrun : s.alm.run = some j)
include hrun

theorem almWriteDone_of_tail (h : j.src = .tail) : almWriteDone s = almPump (s.alm.queue.length + s.alm.waiting.length)
    (((almStore j.addr j.data s).modAlm (fun a => { a with run := none })).modLog (fun l => { l with tailCopy := l.tailCopy.drop 8 })) := by
  unfold almWriteDone
  simp only [hrun, h]
  rfl

theorem almWriteDone_of_command (h : j.src ≠ .tail) : almWriteDone s = almPump (s.alm.queue.length + s.alm.waiting.length)
    (almHostEnd 0 ((almStore j.addr j.data s).modAlm (fun a => { a with run := none }))) := by
  unfold almWriteDone
  simp only [hrun]
  cases hsrc : j.src with
  | tail => exact absurd hsrc h
  | host => rfl
  | finder => rfl

end

end

end Sys2Proof.Machine
end

section
/-! PROOFS. The statements of 13_dome_power.md, 14_clocks_and_crossings.md and 16_spectrograph_and_logbook.md about what each row does. -/

namespace Sys2Proof.Machine

/-- The samples of the ADC's inputs (R317). -/
def adcStored (l : List Nat) (s : State) : State :=
  s.modDome (fun d => { d with adc := (List.range 16).foldl (fun t i => match l[i]? with | some v => tset t i (v + 1) | none => t) d.adc })

theorem adcSample_stored (l : List Nat) (s : State) : adcSample l false s =
    domeAfter (seqAll (fun n t => match l[n]? with | some v => adcRail n v t | none => t) (List.range 8) (adcStored l s)) :=
  if_neg (by decide)

theorem adcStored_one (mv : Nat) (s : State) : adcStored [mv] s = s.modDome (fun d => { d with adc := tset d.adc 0 (mv + 1) }) := by
  unfold adcStored
  simp only [List.range_succ_eq_map (n := 15), List.foldl_cons, List.foldl_map, List.getElem?_cons_zero, List.getElem?_cons_succ,
    List.getElem?_nil, List.foldl_fixed]

theorem seqAll_adcRail_one (mv : Nat) (s : State) :
    seqAll (fun n t => match [mv][n]? with | some v => adcRail n v t | none => t) (List.range 8) s = adcRail 0 mv s := by
  simp only [show List.range 8 = [0, 1, 2, 3, 4, 5, 6, 7] from rfl, seqAll, List.getElem?_cons_zero, List.getElem?_cons_succ, List.getElem?_nil]

theorem fanTach_one (pulses : Nat) (s : State) :
    seqAll (fun f t => match [pulses][f]? with | some n => fanTach f n t | none => t) (List.range 4) s = fanTach 0 pulses s := by
  simp only [show List.range 4 = [0, 1, 2, 3] from rfl, seqAll, List.getElem?_cons_zero, List.getElem?_cons_succ, List.getElem?_nil]

theorem fanTach_four (a b c d : Nat) (s : State) :
    seqAll (fun f t => match [a, b, c, d][f]? with | some n => fanTach f n t | none => t) (List.range 4) s =
      fanTach 3 d (fanTach 2 c (fanTach 1 b (fanTach 0 a s))) := by
  simp only [show List.range 4 = [0, 1, 2, 3] from rfl, seqAll, List.getElem?_cons_zero, List.getElem?_cons_succ]

theorem tempAlerts_of_no_lds {tj : Nat} {s : State} (h : s.lds = []) : tempAlerts tj s = tempAlert tj mgmtView s := by
  unfold tempAlerts
  rw [h]
  rfl

/-- With plate 0's bit alone risen, plate 0 alone is powered. -/
theorem seqAll_request_one (s : State) : seqAll (fun p t =>
    if (1#32).toNat.testBit p = true ∧ Nat.testBit 0 p = false then seqOn p t
    else if (1#32).toNat.testBit p = false ∧ Nat.testBit 0 p = true then seqOff p (channelsOff p t)
    else t) (List.range 16) s = seqOn 0 s := by
  have hrest : ∀ p ∈ List.range' 1 15, (1#32).toNat.testBit p = false := by decide
  rw [show List.range 16 = 0 :: List.range' 1 15 from rfl, seqAll, if_pos (by decide)]
  refine seqAll_eq_self (fun p hp t => ?_) _
  rw [hrest p hp, Nat.zero_testBit]
  exact (if_neg (by decide)).trans (if_neg (by decide))

/-- Settles O25: each row by its own condition. -/
theorem railsAndSensorsAct : Obligations.RailsAndSensorsAct := by
  unfold Obligations.RailsAndSensorsAct
  refine ⟨?request, ?good, ?waitUp, ?discharged, ?timeout, ?minOff, ?delay, fun s => next_congr (if_pos rfl), ?sample, ?lost, ?pmbus, ?temp, fun s => rfl,
    ?estimate, ?mismatch, ?margin, fun pulses s => next_congr (fanTach_one pulses s), ?watchdog⟩
  case request =>
    intro s hold
    refine next_congr ((pltReqWrite_of_assist rfl).trans (congrArg platesSettle ?_))
    rw [hold]
    exact seqAll_request_one _
  case good =>
    intro rail mv s hrise hover hunder
    exact next_congr (if_pos (by simp [hrise, hover, hunder]))
  case waitUp => exact fun rail s hrise => next_congr (if_pos hrise)
  case discharged =>
    intro rail mv s hen hdisch hphase hlow
    refine ⟨railEmptied rail.val mv.toNat s, next_congr (railDown_of_low hen hdisch hlow), ?_⟩
    rw [rail_railEmptied]
    exact ⟨rfl, if_neg hphase, rfl, rfl⟩
  case timeout =>
    intro rail s hen hdisch
    exact next_congr (if_pos (by simp [hen, hdisch]))
  case minOff => exact fun rail s hen => next_congr (if_neg (Bool.eq_false_iff.mp hen))
  case delay =>
    intro seq x l s hsteps hop
    have hend : delayEnd seq.val s = seqRun seq.val (modSeq seq.val (fun y => { y with steps := l }) s) := by
      unfold delayEnd
      rw [hsteps]
      exact if_pos hop
    exact next_congr (congrArg domeAfter hend)
  case sample =>
    intro mv s
    exact next_congr ((adcSample_stored [mv] s).trans (by rw [seqAll_adcRail_one, adcStored_one]))
  case lost => exact fun rail s hrun => next_congr (if_pos hrun)
  case pmbus => exact fun l s hen => ⟨next_congr (if_pos hen), next_congr (if_pos hen)⟩
  case temp =>
    intro tj s hcool hlds
    have hmax : [tj].foldl max 0 = tj := Nat.zero_max tj
    have hnoted : tempNoted tj s = s.modDome (fun d => { d with tj := tj, hot110 := 0, hot105 := false, thermOvr := false }) := by
      simp [tempNoted, show ¬ 110 ≤ tj by omega, show ¬ 105 < tj by omega, show ¬ 100 ≤ tj by omega, show ¬ 95 ≤ tj by omega]
    have hread : tempReading [tj] s = tempAlerts tj (tempNoted tj s) := by
      rw [tempReading_eq, hmax]
      exact (if_neg (by omega)).trans (congrArg (tempAlerts tj) (if_neg (by omega)))
    refine next_congr (hread.trans ?_)
    rw [hnoted]
    exact tempAlerts_of_no_lds hlds
  case estimate =>
    intro s hcap v vmin hv
    exact ⟨huEstimate s, rfl, huEstimate_get hcap hv⟩
  case mismatch =>
    intro s hcap hok hless
    exact next_congr ((if_pos (by simp [hcap, hok, hless])).trans (by rw [hok]; rfl))
  case margin =>
    intro m v s u n hgo hen hvalid hrun hidle
    have hmay : (u.on F.DOME_CTL_PMB_EN && u.on (F.DOME_RAIL_CFG_PMB_VALID n) && decide ((u.rail n).phase = .running) &&
        u.dome.marginRail.isNone) = true := by simp [hen, hvalid, hrun, hidle]
    exact next_congr ((if_pos hgo).trans (if_pos hmay))
  case watchdog => exact fun fan s => ⟨modFan fan.val (fun x => { x with failsafe := true }) s, rfl, by rw [fan_modFan]⟩

/-- Settles O58: each row by the lemma about its own function. -/
theorem everyRailSensorClockAndRecordRowCompletes : Obligations.EveryRailSensorClockAndRecordRowCompletes := by
  unfold Obligations.EveryRailSensorClockAndRecordRowCompletes
  refine ⟨?inject, ?request, ?discharged, fun l s => ⟨next_congr (if_pos rfl), adcStored l s, next_congr (adcSample_stored l s), rfl, rfl⟩, ?window, ?temp, ?estimate, ?mismatch, fun a b c d s => next_congr (fanTach_four a b c d s), ?fan, ?tod,
    fun dom s => rfl, ?put, ?win, ?snap, ?clock, ?done, ?idle⟩
  case inject =>
    intro m v s l i
    refine ⟨fun hgo hstate hside => next_congr (if_pos ⟨hgo, hstate, hside⟩), fun h => next_congr (if_neg ?_)⟩
    rintro ⟨hgo, hstate, hside⟩
    rcases h with h | ⟨hm, hd⟩ | h
    · exact absurd (h.symm.trans hgo) (by decide)
    · exact hstate.elim hm hd
    · exact absurd ((congrArg Option.isSome h).symm.trans hside) (by decide)
  case request =>
    intro m v s old
    exact ⟨fun h => next_congr (pltReqWrite_of_assist h), fun h => next_congr (if_neg (Bool.eq_false_iff.mp h))⟩
  case discharged =>
    intro rail mv s hen hdisch hlow
    refine ⟨railEmptied rail.val mv.toNat s, next_congr (railDown_of_low hen hdisch hlow), ?_⟩
    dsimp only
    rw [rail_railEmptied]
    exact ⟨rfl, rfl, rfl, rfl, fun h => if_pos h, fun h => if_neg h⟩
  case window =>
    intro n mv s out u
    exact ⟨adcRail_of_idle, adcRail_in_window, adcRail_first_out, adcRail_second_out⟩
  case temp =>
    intro l s tj
    refine ⟨fun hwarn htrip => ?calm, fun hover htrip hfirst => ?warn, fun hover hsecond hwarned hmode => ?trip⟩
    case calm =>
      have hread : tempReading l s = tempAlerts tj (tempNoted tj s) := by
        refine (tempReading_eq l s).trans ((if_neg fun hand => ?_).trans (congrArg (tempAlerts tj) (if_neg fun hand => ?_)))
        · obtain ⟨h110, hhot, hmode⟩ := hand
          exact htrip.elim (Nat.not_lt.mpr h110) (·.elim hhot hmode)
        · obtain ⟨h105, hcold⟩ := hand
          exact hwarn.elim (Nat.not_le.mpr h105) (fun h => absurd (h.symm.trans hcold) (by decide))
      refine ⟨tempNoted tj s, next_congr hread, rfl, rfl, ?_, ?_⟩
      · rcases Nat.lt_or_ge tj 95 with h | h
        · exact .inr (by simp [tempNoted, State.modDome, show ¬ 100 ≤ tj by omega, show ¬ 95 ≤ tj by omega])
        · exact .inl h
      · rcases Nat.lt_or_ge tj 100 with h | h
        · exact .inl h
        · exact .inr (by simp [tempNoted, State.modDome, h])
    case warn =>
      refine ⟨(takeNat (tempNoted tj s)).2, (takeNat (tempNoted tj s)).1, next_congr ?_, rfl, rfl⟩
      refine (tempReading_eq l s).trans ((if_neg fun hand => ?_).trans (congrArg (tempAlerts tj) (if_pos ⟨hover, hfirst⟩)))
      obtain ⟨h110, hhot, -⟩ := hand
      exact htrip.elim (Nat.not_lt.mpr h110) hhot
    case trip =>
      refine ⟨tempNoted tj s, next_congr ((tempReading_eq l s).trans ((if_pos ⟨hover, hsecond, hmode⟩).trans ?_)), rfl, rfl⟩
      refine congrArg (fun t => railFault 5 0xFF tj (tempAlerts tj t)) (if_neg fun hand => ?_)
      exact absurd (hwarned.symm.trans hand.2) (by decide)
  case estimate =>
    intro s v
    exact ⟨fun hcap hv => next_congr (huEstimate_below hcap hv), fun hcap => next_congr (if_pos hcap)⟩
  case mismatch =>
    intro s hcap est need
    refine ⟨fun h => next_congr (if_pos ?_), fun h => next_congr (if_neg ?_)⟩
    · rcases h with ⟨hok, hless⟩ | ⟨hok, hle⟩
      · simp [hcap, hok, show ¬ need ≤ est by omega, need, est]
      · simp [hcap, hok, hle, need, est]
    · rcases h with ⟨hok, hle⟩ | ⟨hok, hless⟩
      · simp [hcap, hok, hle, need, est]
      · simp [hcap, hok, show ¬ need ≤ est by omega, need, est]
  case fan =>
    intro f pulses s rpm slow
    have hslow : s.fanSlow f pulses = true ↔ slow := by simp [State.fanSlow, slow, rpm]
    refine ⟨fun h => ?_, fun h => ?_, fun h hstall => ?_⟩
    · rw [fan_fanTach, fan_fanNoted_stall, hslow.mpr h]
    · have hfast : s.fanSlow f pulses = false := Bool.eq_false_iff.mpr fun htrue => h (hslow.mp htrue)
      rw [fanTach_eq, fanNoted, hfast]
      rfl
    · rw [fanTach_eq, hslow.mpr h, hstall]
      exact fanStalled_reported f _
  case tod =>
    intro m v s
    dsimp only
    split
    · rename_i lo hhold
      exact next_congr (todSet_of_hold hhold)
    · rename_i hhold
      exact next_congr (todSet_of_no_hold hhold)
  case put =>
    intro m v s r
    exact ⟨fun h => next_congr (if_pos h), fun h => next_congr (if_pos h), fun full h => next_congr (if_neg (Bool.eq_false_iff.mp h))⟩
  case win =>
    intro m s
    refine ⟨fun r hwin h => next_congr ?_, fun hwin => next_congr ?_⟩
    · rw [logWin3Read_of_held hwin h, logWin_of_held hwin]
    · rw [logWin3Read_of_empty hwin, logWin_of_empty hwin]
  case snap =>
    intro s
    refine ⟨fun hperiod hmode hbusy => next_congr ((if_pos ⟨hperiod, hmode⟩).trans (snapStart_of_idle hbusy)), fun h => next_congr ?_,
      fun hbusy => ⟨_, next_congr (if_pos hbusy), rfl, rfl, rfl, rfl, fun hbank => ⟨if_pos hbank, if_pos hbank⟩,
        fun hbank => ⟨if_neg hbank, if_neg hbank⟩⟩, fun hbusy => next_congr (if_neg (Bool.eq_false_iff.mp hbusy))⟩
    rcases h with hperiod | hbusy
    · exact if_neg fun hand => hand.1 hperiod
    · have hjoin : snapStart s = s := if_pos hbusy
      rw [hjoin, ite_self]
  case clock =>
    exact fun ofs ssc s => ⟨fun hen hup hl1 => ⟨_, rfl, (recQualified_get hen hup hl1)⟩, fun h => next_congr (recQualified_of_idle h),
      fun h => ⟨_, rfl, recDisqualified_get h⟩⟩
  case done =>
    exact fun j s hrun => ⟨fun h => next_after_congr (almWriteDone_of_command hrun h), fun h => next_after_congr (almWriteDone_of_tail hrun h)⟩
  case idle =>
    intro s hrun
    have hnone : almWriteDone s = s := by
      unfold almWriteDone
      rw [hrun]
    exact next_after_congr hnone

end Sys2Proof.Machine
end

section
/-! PROOFS. The statements of 17_almanac_life_cycle_finder.md: what the finder's rows reach, and how requests of LCS_CMD end. -/

namespace Sys2Proof.Machine

/-! ### What the finder's rows reach (R404 to R406) -/

/-- A state that differs from another in the finder's own state, the scans sent, the free values taken, and register fields that are not
among those of `K`. -/
def finderOnly (K : Fld → Prop) (s t : State) : Prop :=
  t = { s with find := t.find, outs := t.outs, freeCnt := t.freeCnt, regs := t.regs } ∧ ∀ f : Fld, K f → t.get f = s.get f

section
variable {K : Fld → Prop} {s t : State}

theorem finderOnly_refl (K : Fld → Prop) (s : State) : finderOnly K s s := ⟨rfl, fun _ _ => rfl⟩

theorem finderOnly.modFind (h : finderOnly K s t) (g : FindSt → FindSt) : finderOnly K s (t.modFind g) := by
  obtain ⟨hshape, hget⟩ := h
  refine ⟨?_, fun f hf => hget f hf⟩
  rw [hshape]
  rfl

theorem finderOnly.emit (h : finderOnly K s t) (o : Out) : finderOnly K s (emit o t) := by
  obtain ⟨hshape, hget⟩ := h
  refine ⟨?_, fun f hf => hget f hf⟩
  rw [hshape]
  rfl

theorem finderOnly.takeNat (h : finderOnly K s t) : finderOnly K s (takeNat t).2 := by
  obtain ⟨hshape, hget⟩ := h
  refine ⟨?_, fun f hf => hget f hf⟩
  rw [hshape]
  rfl

theorem finderOnly.setF (h : finderOnly K s t) {g : Fld} (v : Nat) (hg : ∀ f, K f → f.key ≠ g.key) : finderOnly K s (setF g v t) := by
  obtain ⟨hshape, hget⟩ := h
  refine ⟨?_, fun f hf => (State.get_setF_ne v t (hg f hf)).trans (hget f hf)⟩
  rw [hshape]
  rfl

theorem finderOnly.seqAll {α : Type} {u : α → State → State} {l : List α} (h : finderOnly K s t)
    (hu : ∀ a ∈ l, ∀ t, finderOnly K s t → finderOnly K s (u a t)) : finderOnly K s (seqAll u l t) := by
  induction l generalizing t with
  | nil => exact h
  | cons a l ih => exact ih (hu a List.mem_cons_self t h) (fun b hb => hu b (List.mem_cons_of_mem a hb))

theorem finderOnly.loadIr (h : finderOnly K s t) (ir : Nat) : finderOnly K s (loadIr ir t) := h.modFind _

theorem finderOnly.modCore (h : finderOnly K s t) (k : Nat) (g : CoreSt → CoreSt) : finderOnly K s (modCore k g t) := h.modFind _

section
variable (hK : ∀ f, K f → f.key ≠ F.LCS_FINDER_DENIED.key) (h : finderOnly K s t)
include hK h

theorem finderOnly.tapDenied (ir : Nat) : finderOnly K s (tapDenied ir t) := ((h.loadIr ir).setF 1 hK).emit _

theorem finderOnly.debugScan {ir : Nat} {f : State → State} (hf : ∀ u, finderOnly K s u → finderOnly K s (f u)) :
    finderOnly K s (debugScan ir f t) := by
  unfold Machine.debugScan
  split
  · exact h
  · split
    · exact hf _ (h.loadIr ir)
    · exact finderOnly.tapDenied hK h ir

theorem finderOnly.driveScan {ir drive : Nat} {f : State → State} (hf : ∀ u, finderOnly K s u → finderOnly K s (f u)) :
    finderOnly K s (driveScan ir drive f t) := by
  unfold Machine.driveScan
  split
  · exact h
  · split
    · exact hf _ ((h.loadIr ir).modFind _)
    · exact finderOnly.tapDenied hK h ir

theorem finderOnly.coreScan (k : Nat) (g : CoreSt → CoreSt) : finderOnly K s (coreScan k g t) :=
  finderOnly.debugScan hK h fun _ hu => ((hu.takeNat.emit _).modFind _).modCore k g

end

theorem finderOnly.coreRegWrite (h : finderOnly K s t) (k r v : Nat) : finderOnly K s (coreRegWrite k r v t) := by
  unfold Machine.coreRegWrite
  split
  · exact h.modCore k _
  · split
    · exact h
    · exact h.modCore k _

theorem finderOnly.coreRegRead (h : finderOnly K s t) (k r : Nat) : finderOnly K s (coreRegRead k r t).2 := by
  unfold Machine.coreRegRead
  dsimp only
  split
  · exact h
  · split
    · exact h
    · split
      · exact h
      · dsimp only
        exact h.takeNat.modCore k _

theorem finderOnly.coreReg (h : finderOnly K s t) (dr : Nat) : finderOnly K s (coreReg dr t) := by
  unfold Machine.coreReg
  dsimp only
  split
  · exact (h.emit _).modFind _
  · split
    · exact ((h.emit _).coreRegWrite _ _ _).modFind _
    · exact ((h.emit _).coreRegRead _ _).modFind _

theorem finderOnly.coreBp (h : finderOnly K s t) (dr : Nat) : finderOnly K s (coreBp dr t) := by
  unfold Machine.coreBp
  dsimp only
  split
  · exact (h.takeNat.emit _).modCore _ _
  · exact h.takeNat.emit _

/-- A row of the finder ends with what its own scan leaves. -/
theorem finderOnly.ends {c : Instr} (hexec : exec c s = .next t) (h : finderOnly K s t) : ∃ t, exec c s = .next t ∧
    t = { s with find := t.find, outs := t.outs, freeCnt := t.freeCnt, regs := t.regs } ∧ ∀ f : Fld, K f → t.get f = s.get f := ⟨t, hexec, h⟩

end

/-- Settles O51: row by row, each scan keeps `finderOnly`; DENIED is written by `tapDenied` alone. -/
theorem theFinderTouchesOnlyItself : Obligations.TheFinderTouchesOnlyItself := by
  unfold Obligations.TheFinderTouchesOnlyItself
  refine ⟨fun c s hrow => ?row, fun token s => ?unlock⟩
  case row =>
    have hK : ∀ f : Fld, f.key ≠ F.LCS_FINDER_DENIED.key → f.key ≠ F.LCS_FINDER_DENIED.key := fun _ h => h
    have hself := finderOnly_refl (fun f : Fld => f.key ≠ F.LCS_FINDER_DENIED.key) s
    rcases hrow with rfl | rfl | ⟨p, b, rfl⟩ | ⟨b, rfl⟩ | rfl | rfl | ⟨ir, rfl⟩ | rfl | ⟨k, pc, rfl⟩ | ⟨k, rfl⟩ | ⟨k, pc, rfl⟩ | ⟨dr, rfl⟩ |
      ⟨dr, rfl⟩ | ⟨k, w, pc, rfl⟩
    · exact finderOnly.ends rfl (hself.loadIr 2)
    · refine finderOnly.ends rfl ?_
      split
      · exact (hself.loadIr 2).emit _
      · exact hself
    · refine finderOnly.ends rfl ?_
      split
      · exact ((hself.loadIr 1).emit _).modFind _
      · exact hself
    · exact finderOnly.ends rfl (finderOnly.driveScan hK hself fun u hu => (hu.takeNat.emit _).modFind _)
    · exact finderOnly.ends rfl (finderOnly.driveScan hK hself fun u hu => hu.emit _)
    · exact finderOnly.ends rfl (finderOnly.driveScan hK hself fun u hu => hu.emit _)
    · refine finderOnly.ends rfl ?_
      dsimp only
      split
      · exact hself
      · split
        · split
          · exact hself
          · exact finderOnly.tapDenied hK hself _
        · split
          · split
            · exact hself
            · exact finderOnly.tapDenied hK hself _
          · exact (hself.loadIr _).emit _
    · refine finderOnly.ends rfl ?_
      split
      · exact (hself.loadIr 0x10).emit _
      · exact hself
    · exact finderOnly.ends rfl (finderOnly.coreScan hK hself _ _)
    · exact finderOnly.ends rfl (finderOnly.coreScan hK hself _ _)
    · exact finderOnly.ends rfl (finderOnly.coreScan hK hself _ _)
    · exact finderOnly.ends rfl (finderOnly.debugScan hK hself fun u hu => hu.coreReg _)
    · exact finderOnly.ends rfl (finderOnly.debugScan hK hself fun u hu => hu.coreBp _)
    · exact finderOnly.ends rfl (hself.modCore _ _)
  case unlock =>
    have hself := finderOnly_refl (fun f : Fld => ∀ w, w < 32 → f.key ≠ (F.LCS_TOKEN w).key) s
    refine finderOnly.ends rfl ?_
    split
    · exact ((hself.loadIr 0x11).takeNat.emit _).seqAll fun w hw u hu => hu.setF _ fun f hf => hf w (List.mem_range.mp hw)
    · exact hself

/-! ### The operations of LCS_CMD (R399, R400, R407, R410) -/

section
variable {m : Master} {op t c k st : Nat} {v : BitVec 32} {s : State}

theorem lcsEnd_regs : (lcsEnd op st s).regs =
    (setF F.LCS_STATUS_BUSY 0 (setF F.LCS_RESULT_OP op (setF F.LCS_RESULT_STATUS st (setF F.LCS_CMD_DONE 1 s)))).regs := by
  unfold lcsEnd
  dsimp only
  split
  · rfl
  · exact raiseInt_regs _ _

theorem lcsEnd_get (op st : Nat) (s : State) : (lcsEnd op st s).get F.LCS_CMD_DONE = 1 ∧
    (lcsEnd op st s).get F.LCS_RESULT_STATUS = st % 2 ^ F.LCS_RESULT_STATUS.wid ∧ (lcsEnd op st s).get F.LCS_STATUS_BUSY = 0 := by
  simp only [State.get_congr lcsEnd_regs]
  refine ⟨?done, ?status, ?busy⟩
  case done => rw [State.get_setF_ne _ _ (by decide), State.get_setF_ne _ _ (by decide), State.get_setF_ne _ _ (by decide), State.get_setF_one _ rfl]
  case status => rw [State.get_setF_ne _ _ (by decide), State.get_setF_ne _ _ (by decide), State.get_setF_self]
  case busy => rw [State.get_setF_self, Nat.zero_mod]

theorem lcsGo_of_running (h : s.lcs.trans.isSome = true) : lcsGo m op t c s = setF F.LCS_STATUS_BUSY 1 (lcsEnd op lrBusy s) := if_pos h

theorem lcsGo_of_idle (h : s.lcs.trans = none) : lcsGo m op t c s =
    if op = lcOpTransition then lcTransition m t c (setF F.LCS_CMD_DONE 0 s) else if op = lcOpUnlock then lcUnlock (setF F.LCS_CMD_DONE 0 s)
    else if op = lcOpRelock then lcRelock (setF F.LCS_CMD_DONE 0 s) else lcKeyfuse (setF F.LCS_CMD_DONE 0 s) := if_neg (by simp [h])

/-- A row of LCS_CMD puts its own operation into the word, whose GO decides. -/
theorem lcsCmd_putBits (hop : 1 ≤ op ∧ op ≤ 4) (hm : m = .host ∨ m = .finder) : lcsCmd m (putBits 24 4 op v.toNat) s =
    if v.toNat.testBit 31 then Says.lcs m op v s else storeAt 0x3F0010 (putBits 24 4 op v.toNat) s := by
  unfold lcsCmd
  rw [if_neg (fun hne => hm.elim hne.1 hne.2), putBits_unit op _ (by omega), putBits_testBit_go]
  exact if_congr (by simp [hop]) rfl rfl

theorem lcsCmd_of_other {w : Nat} (hhost : m ≠ .host) (hfinder : m ≠ .finder) : lcsCmd m w s = s := if_pos ⟨hhost, hfinder⟩

theorem lcTransition_of_failed (h : s.lcCheck m t c = some st) : lcTransition m t c s = lcsEnd 1 st s := by
  unfold lcTransition
  rw [h]
  rfl

/-- The target noted, with BUSY. -/
def lcBegun (t : Nat) (s : State) : State := setF F.LCS_STATUS_BUSY 1 (s.modLcs (fun l => { l with trans := some t }))

theorem lcBegun_busy (t : Nat) (s : State) : (lcBegun t s).on F.LCS_STATUS_BUSY = true :=
  bne_iff_ne.mpr (by rw [lcBegun, State.get_setF_one _ rfl]; decide)

theorem lcTransition_of_confirm {code : Nat} (h : s.lcCheck m t c = none) (hauth : lcAuth s.lcs.state t = .confirm code) :
    lcTransition m t c s = if t = lcReturn ∨ t = lcDecommission then keyAdvance (keyOwn 8 0 (lcBegun t s)) else lcPark (lcBegun t s) := by
  unfold lcTransition
  rw [h, hauth]
  rfl

/-- By a code or by a token, which renews the challenge, the transition begins. -/
theorem lcTransition_of_passed (h : s.lcCheck m t c = none) : ∃ u, lcTransition m t c s =
    if t = lcReturn ∨ t = lcDecommission then keyAdvance (keyOwn 8 0 (lcBegun t u)) else lcPark (lcBegun t u) := by
  unfold lcTransition
  rw [h]
  exact ⟨_, rfl⟩

theorem lcCheck_of_never (h : lcAuth s.lcs.state t = .never) : s.lcCheck m t c = some lrNotAllowed := by
  unfold State.lcCheck
  rw [h]

theorem lcCheck_of_wrong_code (h : s.lcs.state = lcService) (hc : c ≠ 0xDEC0) : s.lcCheck .host lcDecommission c = some lrBadConfirm := by
  unfold State.lcCheck
  rw [h, show lcAuth lcService lcDecommission = .confirm 0xDEC0 from rfl]
  exact (if_neg (by decide)).trans (if_pos hc)

theorem lcUnlock_of_other (h : s.lcs.state ≠ lcService) : lcUnlock s = lcsEnd 2 lrNotAllowed s := if_pos h

/-- UNLOCK in SERVICE turns on the slot that the token is accepted under. -/
theorem lcUnlock_of_refused (h : s.lcs.state = lcService) (hslot : s.tokenSlot 0x1C11 (fun x => decide (x < 8)) [0, 1, 2, 3] = none) :
    lcUnlock s = lcsEnd 2 lrBadToken s := by
  unfold lcUnlock
  rw [if_neg (not_not_intro h), hslot]
  rfl

/-- The finder's registers unlocked under a slot. -/
def lcUnlocked (k : Nat) (s : State) : State :=
  setF F.LCS_FINDER_KEY_SLOT k (setF F.LCS_FINDER_SCOPE (s.tokenBytes.getD 3 0) (setF F.LCS_FINDER_UNLOCKED 1 s))

theorem lcUnlock_of_accepted (h : s.lcs.state = lcService) (hslot : s.tokenSlot 0x1C11 (fun x => decide (x < 8)) [0, 1, 2, 3] = some k) :
    lcUnlock s = lcsEnd 2 lrOk (newChallenge (odoInc odoUnlocks (lcShow (lcUnlocked k s)))) := by
  unfold lcUnlock
  rw [if_neg (not_not_intro h), hslot]
  rfl

theorem lcUnlocked_get (h : k < 4) : (lcUnlocked k s).get F.LCS_FINDER_UNLOCKED = 1 ∧ (lcUnlocked k s).get F.LCS_FINDER_KEY_SLOT = k := by
  unfold lcUnlocked
  refine ⟨?_, State.get_setF_lt _ h⟩
  rw [State.get_setF_ne _ _ (by decide), State.get_setF_ne _ _ (by decide), State.get_setF_one _ rfl]

theorem tokenSlot_of_no_key {kind : Nat} {par : Nat → Bool} {slots : List Nat} (h : s.keySlot s.tokenBytes slots = none) :
    s.tokenSlot kind par slots = none := by
  unfold State.tokenSlot
  simp only [h]

/-- Of a well-formed unlock token the signature decides. -/
theorem tokenSlot_of_unlock_token (hkey : s.keySlot s.tokenBytes [0, 1, 2, 3] = some k) (h : Says.unlockToken s) :
    s.tokenSlot 0x1C11 (fun x => decide (x < 8)) [0, 1, 2, 3] =
      if Config.sigOk (Says.tok s 0 160) (Says.tok s 64 96) (Says.tok s 160 96) then some k else none := by
  obtain ⟨hkind, hversion, hscope, hchallenge, hpart, hzeros⟩ := h
  unfold State.tokenSlot
  simp only [hkey]
  refine if_congr ⟨fun hall => ?_, fun hsig => ⟨hkind, hversion, decide_eq_true hscope, hchallenge, hpart, hzeros, hsig⟩⟩ rfl rfl
  obtain ⟨-, -, -, -, -, -, hsig⟩ := hall
  exact hsig

theorem lcKeyfuse_of_other (h : s.lcs.state ≠ lcProvision) : lcKeyfuse s = lcsEnd 4 lrNotAllowed s := if_pos h

/-- An owner slot that is neither fused nor revoked. -/
def LcsSt.blank (l : LcsSt) (k : Nat) : Bool := !l.fused.testBit k && !l.revoked.testBit k

/-- An owner slot blown with the hash registers. -/
def lcFused (k : Nat) (s : State) : State := s.modLcs (fun l => { l with fused := l.fused ||| 2 ^ k, hashes := tset l.hashes k s.khash })

theorem lcKeyfuse_of_provision (h : s.lcs.state = lcProvision) : lcKeyfuse s =
    if s.lcs.blank 2 then lcsEnd 4 lrOk (lcShow (lcFused 2 s)) else if s.lcs.blank 3 then lcsEnd 4 lrOk (lcShow (lcFused 3 s))
    else lcsEnd 4 lrNoSlot s := by
  have hfind : [2, 3].find? (fun k => !s.lcs.fused.testBit k && !s.lcs.revoked.testBit k) =
      if s.lcs.blank 2 then some 2 else if s.lcs.blank 3 then some 3 else none := by
    rw [List.find?_cons, List.find?_cons, List.find?_nil]
    unfold LcsSt.blank
    cases !s.lcs.fused.testBit 2 && !s.lcs.revoked.testBit 2
    · cases !s.lcs.fused.testBit 3 && !s.lcs.revoked.testBit 3 <;> rfl
    · rfl
  unfold lcKeyfuse
  rw [if_neg (not_not_intro h), hfind]
  cases s.lcs.blank 2
  · cases s.lcs.blank 3 <;> rfl
  · rfl

theorem relocked_get_unlocked (s : State) : (setF F.LCS_FINDER_KEY_SLOT 0 (setF F.LCS_FINDER_UNLOCKED 0 s)).get F.LCS_FINDER_UNLOCKED = 0 := by
  rw [State.get_setF_ne _ _ (by decide), State.get_setF_self, Nat.zero_mod]

end

/-- The bit that is blown stands for the target. -/
theorem blow_of_target {l : LcsSt} {t : Nat} (h : l.trans = some t) (ht : t < 6) :
    l.blow.slots = l.slots ++ [2 ^ t] ∧ l.blow.state = t ∧ l.blow.trans = none := by
  have hblow : l.blow = { l with slots := l.slots ++ [2 ^ t], trans := none } := by
    unfold LcsSt.blow
    rw [h]
  rw [hblow]
  refine ⟨rfl, ?_, rfl⟩
  unfold LcsSt.state
  simp [slotState_two_pow ht]

/-- Settles O32: each clause by the lemma about its operation. -/
theorem lifeCycleRequestsEnd : Obligations.LifeCycleRequestsEnd := by
  unfold Obligations.LifeCycleRequestsEnd
  refine ⟨?rows, fun m op t c s => lcsGo_of_running, fun m t c st s => lcTransition_of_failed, ?confirmed, ?decommission,
    fun t c s => lcCheck_of_never, fun c s => lcCheck_of_wrong_code, ?unlock, fun s hstate hkey => lcUnlock_of_refused hstate (tokenSlot_of_no_key hkey),
    fun s => lcUnlock_of_other, fun s => ⟨_, rfl, relocked_get_unlocked s⟩, ?keyfuse, fun op st s _ _ => lcsEnd_get op st s, fun l t => blow_of_target⟩
  case rows =>
    intro m v s hm hgo
    have hrow {op : Nat} (hop : 1 ≤ op ∧ op ≤ 4) : lcsCmd m (putBits 24 4 op v.toNat) s = Says.lcs m op v s :=
      (lcsCmd_putBits hop hm).trans (if_pos hgo)
    exact ⟨next_congr (hrow (by decide)), next_congr (hrow (by decide)), next_congr (hrow (by decide)), next_congr (hrow (by decide))⟩
  case confirmed =>
    intro m t c code s hcheck hauth ht
    refine (lcTransition_of_confirm hcheck hauth).trans (if_neg fun hkeys => ?_)
    unfold lcReturn lcDecommission at hkeys
    unfold lcReturn at ht
    omega
  case decommission => exact fun m c code s hcheck hauth => (lcTransition_of_confirm hcheck hauth).trans (if_pos (.inr rfl))
  case unlock =>
    intro k s hstate hkey hk htoken
    refine ⟨lcUnlocked k s, ?_, lcUnlocked_get hk⟩
    have hslot := tokenSlot_of_unlock_token hkey htoken
    split
    · rename_i hsig
      exact lcUnlock_of_accepted hstate (hslot.trans (if_pos hsig))
    · rename_i hsig
      exact lcUnlock_of_refused hstate (hslot.trans (if_neg hsig))
  case keyfuse =>
    intro s hstate hfused hrevoked
    refine (lcKeyfuse_of_provision hstate).trans (if_pos ?_)
    rw [LcsSt.blank, hfused, hrevoked]
    rfl

end Sys2Proof.Machine
end

section
/-! PROOFS. Every row of the life cycle and of the finder (17_almanac_life_cycle_finder.md). -/

namespace Sys2Proof.Machine

/-! ### Scans (R404, R405) -/

section
variable {ir drive : Nat} {f : State → State} {s : State}

theorem tapOn_of_mode (h : s.glb.mode ≠ .off) : s.tapOn = true := bne_iff_ne.mpr h

theorem tapOn_of_driveOn (h : s.driveOn = true) : s.tapOn = true := by
  refine tapOn_of_mode fun hoff => absurd h ?_
  rw [State.driveOn, hoff]
  simp

theorem tap_gate_of_off {α : Type} {a b : α} (h : s.glb.mode = .off) : (if s.tapOn then a else b) = b :=
  if_neg (by rw [State.tapOn, h]; decide)

theorem debugScan_of_off (h : s.glb.mode = .off) : debugScan ir f s = s := if_pos (by rw [State.tapOn, h]; rfl)

theorem driveScan_of_off (h : s.glb.mode = .off) : driveScan ir drive f s = s := if_pos (by rw [State.tapOn, h]; rfl)

theorem debugScan_of_on (h : s.glb.mode ≠ .off) (hon : s.debugOn ir = true) : debugScan ir f s = f (loadIr ir s) := by
  unfold debugScan
  rw [if_neg (by simp [tapOn_of_mode h]), if_pos hon]

theorem debugScan_of_denied (h : s.glb.mode ≠ .off) (hon : s.debugOn ir = false) : debugScan ir f s = Says.denied ir s := by
  unfold debugScan
  rw [if_neg (by simp [tapOn_of_mode h]), if_neg (by simp [hon])]
  rfl

theorem driveScan_of_denied (h : s.glb.mode ≠ .off) (hon : s.driveOn = false) : driveScan ir drive f s = Says.denied ir s := by
  unfold driveScan
  rw [if_neg (by simp [tapOn_of_mode h]), if_neg (by simp [hon])]
  rfl

theorem driveScan_of_on (hon : s.driveOn = true) :
    driveScan ir drive f s = f ((loadIr ir s).modFind (fun x => { x with drive := drive })) := by
  unfold driveScan
  rw [if_neg (by simp [tapOn_of_driveOn hon]), if_pos hon]

/-- A row of the debug engines is a scan of its instruction. -/
theorem exists_debugScan {c : Instr} (h : Says.debugRow ir c) : ∃ f, ∀ s, exec c s = .next (debugScan ir f s) := by
  rcases h with ⟨rfl, ⟨k, pc, rfl⟩ | ⟨k, rfl⟩ | ⟨k, pc, rfl⟩⟩ | ⟨rfl, d, rfl⟩ | ⟨rfl, d, rfl⟩ | ⟨rfl, ⟨d, o, rfl⟩ | ⟨d, rfl⟩⟩ | ⟨rfl, b, rfl⟩
  · exact ⟨_, fun s => rfl⟩
  · exact ⟨_, fun s => rfl⟩
  · exact ⟨_, fun s => rfl⟩
  · exact ⟨_, fun s => rfl⟩
  · exact ⟨_, fun s => rfl⟩
  · exact ⟨_, fun s => rfl⟩
  · exact ⟨_, fun s => rfl⟩
  · exact ⟨_, fun s => rfl⟩

/-- A row that drives the pins is a scan of its instruction. -/
theorem exists_driveScan {c : Instr} (h : Says.driveRow ir c) : ∃ drive f, ∀ s, exec c s = .next (driveScan ir drive f s) := by
  rcases h with ⟨rfl, b, rfl⟩ | ⟨rfl, rfl⟩ | ⟨rfl, rfl⟩
  · exact ⟨_, _, fun s => rfl⟩
  · exact ⟨_, _, fun s => rfl⟩
  · exact ⟨_, _, fun s => rfl⟩

/-- What a row that drives the pins leaves where it may drive them. -/
theorem driveRow_ends {c : Instr} (hon : s.driveOn = true) (h : Says.driveRow ir c) : Says.ends c s (fun t =>
    t.find.ir = ir ∧ t.find.drive = (if ir = 0 then 1 else ir - 1) ∧ t.regs = s.regs ∧ (∀ b, c = .tapExtest b → t.find.boundary = b) ∧
      (c = .tapClamp ∨ c = .tapHighz → t.outs = .tdo 1 0 :: s.outs)) := by
  rcases h with ⟨rfl, b, rfl⟩ | ⟨rfl, rfl⟩ | ⟨rfl, rfl⟩
  · refine ⟨_, next_congr (driveScan_of_on hon), rfl, rfl, rfl, fun b' hb => ?_, fun hne => ?_⟩
    · exact Instr.tapExtest.inj hb
    · exact absurd hne (by simp)
  · exact ⟨_, next_congr (driveScan_of_on hon), rfl, rfl, rfl, fun b' hb => absurd hb (by simp), fun _ => rfl⟩
  · exact ⟨_, next_congr (driveScan_of_on hon), rfl, rfl, rfl, fun b' hb => absurd hb (by simp), fun _ => rfl⟩

/-- With the part off no row of the TAP acts. -/
theorem exec_tap_of_off {c : Instr} (h : s.glb.mode = .off) (hrow : Says.debugRow ir c ∨ Says.driveRow ir c ∨ c = .tapIdcode ∨ c = .lcStatus ∨
    (∃ p b, c = .tapSamplePreload p b) ∨ (∃ t g, c = .finderUnlock t g) ∨ (∃ i, c = .tapBypass i)) : exec c s = .next s := by
  rcases hrow with hdebug | hdrive | rfl | rfl | ⟨p, b, rfl⟩ | ⟨t, g, rfl⟩ | ⟨i, rfl⟩
  · obtain ⟨f, hf⟩ := exists_debugScan hdebug
    rw [hf, debugScan_of_off h]
  · obtain ⟨drive, f, hf⟩ := exists_driveScan hdrive
    rw [hf, driveScan_of_off h]
  · exact next_congr (tap_gate_of_off h)
  · exact next_congr (tap_gate_of_off h)
  · exact next_congr (tap_gate_of_off h)
  · exact next_congr (tap_gate_of_off h)
  · exact next_congr (if_pos (by rw [State.tapOn, h]; rfl))

/-! ### BYPASS and what is not listed (R404) -/

/-- The row of TAP_BYPASS, by the group of its instruction. -/
def tapBypassed (ir : Nat) (s : State) : State :=
  if irPublic.contains ir then s
  else if irDrive.contains ir then (if s.driveOn then s else Says.denied ir s)
  else if irDebug.contains ir then (if s.debugOn ir then s else Says.denied ir s)
  else emit (.tdo 1 0) (loadIr ir s)

theorem exec_tapBypass {i : BitVec 8} (h : s.glb.mode ≠ .off) : exec (.tapBypass i) s = .next (tapBypassed i.toNat s) := by
  refine next_congr ?_
  dsimp only
  rw [tapOn_of_mode h]
  rfl

theorem tapBypassed_public (h : ir = 1 ∨ ir = 2 ∨ ir = 0x10 ∨ ir = 0x11) : tapBypassed ir s = s :=
  if_pos (by rcases h with rfl | rfl | rfl | rfl <;> decide)

theorem tapBypassed_drive (h : ir = 0 ∨ ir = 3 ∨ ir = 4) : tapBypassed ir s = if s.driveOn = true then s else Says.denied ir s := by
  unfold tapBypassed
  rw [if_neg (by rcases h with rfl | rfl | rfl <;> decide), if_pos (by rcases h with rfl | rfl | rfl <;> decide)]

theorem tapBypassed_debug (h : ir = 0x20 ∨ ir = 0x21 ∨ ir = 0x22 ∨ ir = 0x30 ∨ ir = 0x31) :
    tapBypassed ir s = if s.debugOn ir = true then s else Says.denied ir s := by
  unfold tapBypassed
  rw [if_neg (by rcases h with rfl | rfl | rfl | rfl | rfl <;> decide), if_neg (by rcases h with rfl | rfl | rfl | rfl | rfl <;> decide),
    if_pos (by rcases h with rfl | rfl | rfl | rfl | rfl <;> decide)]

theorem tapBypassed_other (hdebug : ¬ (ir = 0x20 ∨ ir = 0x21 ∨ ir = 0x22 ∨ ir = 0x30 ∨ ir = 0x31)) (hhigh : 4 < ir) (h10 : ir ≠ 0x10)
    (h11 : ir ≠ 0x11) : tapBypassed ir s = emit (.tdo 1 0) (loadIr ir s) := by
  unfold tapBypassed
  rw [if_neg (by simp [irPublic]; omega), if_neg (by simp [irDrive]; omega), if_neg (by simp [irDebug]; omega)]

end

/-! ### The cores (R406) -/

section
variable {k r : Nat} {g : CoreSt → CoreSt} {s : State}

theorem core_modCore (hk : k < 2) : (modCore k g s).find.core k = g (s.find.core k) := by
  rcases (by omega : k = 0 ∨ k = 1) with rfl | rfl <;> rfl

/-- Only what `g` makes of the core named is seen. -/
theorem modCore_congr {g' : CoreSt → CoreSt} (hk : k < 2) (h : g (s.find.core k) = g' (s.find.core k)) : modCore k g s = modCore k g' s := by
  rcases (by omega : k = 0 ∨ k = 1) with rfl | rfl
  · exact congrArg (fun x => s.modFind (fun f => { f with coreA := x })) h
  · exact congrArg (fun x => s.modFind (fun f => { f with coreB := x })) h

theorem modCore_id (k : Nat) (s : State) : modCore k (fun c => c) s = s := by
  unfold modCore
  split <;> rfl

/-- A scan of CORE_CTL that leaves the core named as it is. -/
theorem coreScan_same {c : Instr} {ir : Nat} (hk : k < 2) (hexec : exec c s = .next (coreScan k g s)) (h : s.glb.mode ≠ .off)
    (hir : ir = 0x20) (hon : s.debugOn ir = true) (hsame : g (s.find.core k) = s.find.core k) :
    Says.ends c s (fun t => t.find.core k = s.find.core k ∧ t.find.ctlCore = k) := by
  subst hir
  refine ⟨coreScan k g s, hexec, ?_⟩
  unfold coreScan
  rw [debugScan_of_on h hon]
  refine ⟨(core_modCore hk).trans hsame, ?_⟩
  unfold modCore
  split <;> rfl

theorem coreReg_of_running {dr : Nat} (h : (s.find.core (dr / 2 ^ 71 % 2)).halted = false) :
    coreReg dr s = (emit (.tdo 72 s.find.regRead) s).modFind (fun f => { f with regRead := 0 }) := by
  unfold coreReg
  exact if_pos (by rw [h]; rfl)

theorem coreReg_of_write {dr : Nat} (h : (s.find.core (dr / 2 ^ 71 % 2)).halted = true) (hwrite : dr.testBit 70 = true) :
    coreReg dr s = (coreRegWrite (dr / 2 ^ 71 % 2) (dr / 2 ^ 64 % 64) (dr % 2 ^ 32) (emit (.tdo 72 s.find.regRead) s)).modFind
      (fun f => { f with regRead := 0 }) := by
  unfold coreReg
  dsimp only
  rw [if_neg (by rw [h]; decide), if_pos hwrite]

theorem coreReg_of_read {dr : Nat} (h : (s.find.core (dr / 2 ^ 71 % 2)).halted = true) (hwrite : dr.testBit 70 = false) :
    coreReg dr s = (coreRegRead (dr / 2 ^ 71 % 2) (dr / 2 ^ 64 % 64) (emit (.tdo 72 s.find.regRead) s)).2.modFind
      (fun f => { f with regRead := (coreRegRead (dr / 2 ^ 71 % 2) (dr / 2 ^ 64 % 64) (emit (.tdo 72 s.find.regRead) s)).1 }) := by
  unfold coreReg
  dsimp only
  rw [if_neg (by rw [h]; decide), if_neg (by rw [hwrite]; decide)]

/-- A write of a register of a halted core. -/
theorem coreRegWrite_core (hk : k < 2) (v : Nat) : (r = 32 → ((coreRegWrite k r v s).find.core k).pc = v) ∧
    (1 ≤ r → r < 32 → tget ((coreRegWrite k r v s).find.core k).regs r = some v) ∧
    (r = 0 ∨ 32 < r → (coreRegWrite k r v s).find.core k = s.find.core k) := by
  unfold coreRegWrite
  refine ⟨fun hr => ?_, fun hlow hhigh => ?_, fun hr => ?_⟩
  · rw [if_pos hr, core_modCore hk]
  · rw [if_neg (by omega), if_neg (by omega), core_modCore hk, tget_tset_self]
  · rw [if_neg (by omega), if_pos hr]

theorem coreRegWrite_outs (v : Nat) : (coreRegWrite k r v s).outs = s.outs := by
  unfold coreRegWrite
  split
  · rfl
  · split <;> rfl

/-- A read of a register of a halted core. -/
theorem coreRegRead_core (hk : k < 2) : (r = 32 → (coreRegRead k r s).1 = (s.find.core k).pc) ∧ (r = 0 ∨ 32 < r → (coreRegRead k r s).1 = 0) ∧
    (∀ v, 1 ≤ r → r < 32 → tget (s.find.core k).regs r = some v → (coreRegRead k r s).1 = v) ∧
    (1 ≤ r → r < 32 → tget ((coreRegRead k r s).2.find.core k).regs r = some (coreRegRead k r s).1) := by
  unfold coreRegRead
  dsimp only
  refine ⟨fun hr => ?_, fun hr => ?_, fun v hlow hhigh hv => ?_, fun hlow hhigh => ?_⟩
  · rw [if_pos hr]
  · rw [if_neg (by omega), if_pos hr]
  · rw [if_neg (by omega), if_neg (by omega), hv]
  · rw [if_neg (by omega), if_neg (by omega)]
    cases hv : tget (s.find.core k).regs r with
    | some v => exact hv
    | none =>
      dsimp only
      rw [core_modCore hk, tget_tset_self]

theorem coreRegRead_outs : (coreRegRead k r s).2.outs = s.outs := by
  unfold coreRegRead
  dsimp only
  split
  · rfl
  · split
    · rfl
    · split <;> rfl

/-- A break- or watchpoint of a core. -/
theorem coreBp_core (dr : Nat) (s : State) : let k := dr / 2 ^ 71 % 2; let i := dr / 2 ^ 68 % 8; let kind := dr / 2 ^ 66 % 4
    let mask := dr / 2 ^ 62 % 16; let good : Prop := (i ≤ 3 ∧ kind ≤ 1) ∨ ((i = 4 ∨ i = 5) ∧ mask ≤ 12)
    (good → tget ((coreBp dr s).find.core k).bps i = some (kind, mask, dr % 2 ^ 32)) ∧
    (¬ good → (coreBp dr s).find.core k = s.find.core k) ∧ (coreBp dr s).find.ir = s.find.ir := by
  dsimp only
  have hk : dr / 2 ^ 71 % 2 < 2 := Nat.mod_lt _ (by decide)
  unfold coreBp
  dsimp only
  refine ⟨fun h => ?_, fun h => ?_, ?_⟩
  · rw [if_pos h, core_modCore hk, tget_tset_self]
  · rw [if_neg h]
    rfl
  · split
    · unfold modCore
      split <;> rfl
    · rfl

end

/-! ### The system bus (R408) -/

section
variable {sp a n d dr : Nat} {wr : Option Nat} {out : WmOut} {s : State}

/-- An access of the finder waits: it is held for a clock or a credit, or stands at the almanac's port. -/
def State.finderWaits (s : State) : Prop :=
  (∃ h ∈ s.clk.held, h.master = .finder) ∨ (∃ j ∈ s.alm.queue ++ s.alm.waiting, j.src = .finder)

theorem finderWaits_iff (s : State) : (s.clk.held.any (fun a => decide (a.master = .finder)) ||
    (s.alm.queue ++ s.alm.waiting).any (fun j => j.src == .finder)) = true ↔ s.finderWaits := by
  simp only [State.finderWaits, Bool.or_eq_true, List.any_eq_true, decide_eq_true_eq, beq_iff_eq]

/-- The previous access, shifted out. -/
def sysShown (s : State) : State := emit (.tdo 134 (s.find.data % 2 ^ 64 * 8 + s.find.status)) s

theorem sysScan_waits {w : Bool} (h : s.finderWaits) : sysScan dr w out s = (sysShown s).modFind (fun f => { f with status := 1 }) :=
  if_pos ((finderWaits_iff s).mpr h)

theorem sysScan_starts {w : Bool} (h : ¬ s.finderWaits) : sysScan dr w out s = sysAccess (dr / 2 ^ 127 % 16) (dr / 2 ^ 67 % 2 ^ 60)
    (if dr.testBit 131 then 8 else 4) (if w then some (dr / 8 % 2 ^ (8 * (if dr.testBit 131 then 8 else 4))) else none) out (sysShown s) :=
  if_neg fun hwaits => h ((finderWaits_iff s).mp hwaits)

/-- The access is over, with a status and data. -/
def finderEnds (st v : Nat) (t : State) : State := t.modFind (fun f => { f with status := st, data := v })

theorem sysAccess_bad (h : 4 < sp ∨ a % n ≠ 0) : sysAccess sp a n wr out s = finderEnds 2 0 s := if_pos h

section
variable (ha : a % n = 0)
include ha

theorem sysAccess_unscoped (hsp : sp ≤ 4) (h : (s.get F.LCS_FINDER_SCOPE).testBit (if sp = 0 then 2 else 1) = false) :
    sysAccess sp a n wr out s = finderEnds 5 0 s := by
  unfold sysAccess
  dsimp only
  rw [if_neg (by omega), h]
  exact if_pos rfl

/-- Working memory: what lies above it, a clock that stands, a credit that is missing. -/
theorem sysAccess_memory (h : (s.get F.LCS_FINDER_SCOPE).testBit 2 = true) : sysAccess 0 a n wr out s =
    if s.get F.WMEM_CFG_TOTAL_GIB * 2 ^ 30 ≤ a + 16384 then finderEnds 2 0 s
    else if !s.clkRuns (34 + wmChan a) then finderEnds 3 0 (holdAccess ⟨.finder, 34 + wmChan a, a + 2 ^ 63, n, wr⟩ s)
    else if !s.accMay .finder (if wr.isSome then 1 else 0) then finderEnds 1 0 (holdAccess ⟨.finder, domCredit, a + 2 ^ 63, n, wr⟩ s)
    else wmFinder a n wr out s := by
  unfold sysAccess finderEnds
  dsimp only
  rw [if_neg (by omega), if_pos rfl, h, if_neg (by decide), if_pos rfl]

section
variable (h : (s.get F.LCS_FINDER_SCOPE).testBit 1 = true)
include h

theorem sysAccess_held (hheld : s.heldOn .finder (if wr.isSome then 1 else 0) a = some d) :
    sysAccess 1 a n wr out s = finderEnds (if d = domCredit then 1 else 3) 0 (holdAccess ⟨.finder, d, a, n, wr⟩ s) := by
  unfold sysAccess finderEnds
  dsimp only
  rw [if_neg (by omega), if_neg (by decide : ¬ 1 = 0), h, if_neg (by decide), if_neg (by decide), if_pos rfl, hheld]

theorem sysAccess_write {v : Nat} (hheld : s.heldOn .finder 1 a = none) :
    sysAccess 1 a n (some v) out s = domeAfter (finderEnds 0 0 (bar0Write .finder a n v (mchWake a s))) := by
  have hwrite : s.heldOn .finder (if (some v).isSome then 1 else 0) a = none := hheld
  unfold sysAccess finderEnds
  dsimp only
  rw [if_neg (by omega), if_neg (by decide : ¬ 1 = 0), h, if_neg (by decide), if_neg (by decide), if_pos rfl, hwrite]

theorem sysAccess_read (hheld : s.heldOn .finder 0 a = none) : sysAccess 1 a n none out s =
    finderEnds 0 (bar0Read .finder a n (mchWake a s)).1 (bar0Read .finder a n (mchWake a s)).2 := by
  have hread : s.heldOn .finder (if (none : Option Nat).isSome then 1 else 0) a = none := hheld
  unfold sysAccess finderEnds
  dsimp only
  rw [if_neg (by omega), if_neg (by decide : ¬ 1 = 0), h, if_neg (by decide), if_neg (by decide), if_pos rfl, hread]

theorem sysAccess_core {k : Nat} (hk : k < 2) : sysAccess (2 + k) a n wr out s = coreMem k a n wr s := by
  unfold sysAccess
  dsimp only
  rw [if_neg (by omega), if_neg (by omega : ¬ 2 + k = 0), h, if_neg (by decide), if_neg (by omega), if_neg (by omega), if_neg (by omega),
    Nat.add_sub_cancel_left]

theorem sysAccess_almanac : sysAccess 4 a n wr out s =
    if wr.isSome ∨ 2 ^ 18 ≤ a then finderEnds 2 0 s else almEnqueue ⟨.finder, false, a, n, [], 0⟩ (finderEnds 1 0 s) := by
  unfold sysAccess finderEnds
  dsimp only
  rw [if_neg (by omega), if_neg (by decide : ¬ 4 = 0), h, if_neg (by decide), if_neg (by decide), if_neg (by decide), if_pos rfl]

end

end

end

/-- Settles O60: the requests by the lemmas of their operations, the scans by those of their groups, an access by its space. -/
theorem everyLifeCycleAndFinderRowCompletes : Obligations.EveryLifeCycleAndFinderRowCompletes := by
  unfold Obligations.EveryLifeCycleAndFinderRowCompletes
  refine ⟨?requests, ?go, ?passed, ?fuse, ?tap, ?bypass, ?unlock, ?same, ?reg, ?bp, ?hit, ?scan, ?access⟩
  case requests =>
    intro m v s stored
    refine ⟨fun hhost hfinder => ?_, fun hm hgo => ?_⟩
    · have hrow (w : Nat) : lcsCmd m w s = s := lcsCmd_of_other hhost hfinder
      exact ⟨next_congr (hrow _), next_congr (hrow _), next_congr (hrow _), next_congr (hrow _)⟩
    · have hrow {op : Nat} (hop : 1 ≤ op ∧ op ≤ 4) : lcsCmd m (putBits 24 4 op v.toNat) s = stored op :=
        (lcsCmd_putBits hop hm).trans (if_neg (by simp [hgo]))
      exact ⟨next_congr (hrow (by decide)), next_congr (hrow (by decide)), next_congr (hrow (by decide)), next_congr (hrow (by decide))⟩
  case go =>
    intro m t c s u hidle
    exact ⟨lcsGo_of_idle hidle, lcsGo_of_idle hidle, lcsGo_of_idle hidle, lcsGo_of_idle hidle⟩
  case passed =>
    intro m t c s hcheck
    obtain ⟨u, hu⟩ := lcTransition_of_passed hcheck
    refine ⟨lcBegun t u, rfl, lcBegun_busy t u, fun hkeys => hu.trans (if_pos hkeys), fun hreturn hdecommission => hu.trans (if_neg ?_)⟩
    exact fun hkeys => hkeys.elim hreturn hdecommission
  case fuse =>
    intro s blank fuse
    refine ⟨fun hstate h2 => (lcKeyfuse_of_provision hstate).trans (if_pos h2), fun hstate h2 h3 => ?_, fun hstate h2 h3 => ?_,
      lcKeyfuse_of_other⟩
    · exact (lcKeyfuse_of_provision hstate).trans ((if_neg (Bool.eq_false_iff.mp h2)).trans (if_pos h3))
    · exact (lcKeyfuse_of_provision hstate).trans ((if_neg (Bool.eq_false_iff.mp h2)).trans (if_neg (Bool.eq_false_iff.mp h3)))
  case tap =>
    refine fun c ir s => ⟨exec_tap_of_off, fun hmode hrow hon => ?_, fun hmode hrow hon => ?_, driveRow_ends⟩
    · obtain ⟨f, hf⟩ := exists_debugScan hrow
      rw [hf, debugScan_of_denied hmode hon]
    · obtain ⟨drive, f, hf⟩ := exists_driveScan hrow
      rw [hf, driveScan_of_denied hmode hon]
  case bypass =>
    intro i s hmode ir debug
    refine ⟨fun h => (exec_tapBypass hmode).trans (next_congr (tapBypassed_public h)),
      fun h => (exec_tapBypass hmode).trans (next_congr (tapBypassed_drive h)), fun h => (exec_tapBypass hmode).trans (next_congr (tapBypassed_debug h)),
      fun h hhigh h10 h11 => (exec_tapBypass hmode).trans (next_congr (tapBypassed_other h hhigh h10 h11))⟩
  case unlock =>
    intro token s hmode hcore
    have hstops : ¬ (true && s.coreOn) = true := by rw [hcore]; decide
    exact ⟨_, (takeNat (loadIr 0x11 s)).2, next_congr ((if_pos (tapOn_of_mode hmode)).trans (if_neg hstops)), rfl, rfl⟩
  case same =>
    intro core pc s hmode hon
    exact ⟨fun hhalted => coreScan_same core.isLt rfl hmode rfl hon (if_pos hhalted),
      fun hruns => coreScan_same core.isLt rfl hmode rfl hon (if_neg (Bool.eq_false_iff.mp hruns))⟩
  case reg =>
    intro dr s hmode hon d k r c row
    have hk : k < 2 := Nat.mod_lt _ (by decide)
    have hscan : debugScan 0x21 (coreReg d) s = coreReg d (loadIr 0x21 s) := debugScan_of_on hmode hon
    refine ⟨fun hruns => next_congr (hscan.trans (coreReg_of_running hruns)), fun hhalted hwrite => ?_, fun hhalted hread => ?_⟩
    · refine ⟨_, next_congr (hscan.trans (coreReg_of_write hhalted hwrite)), coreRegWrite_outs _, rfl, ?_⟩
      exact coreRegWrite_core hk (d % 2 ^ 32)
    · obtain ⟨hpc, hzero, hfixed, hkept⟩ := coreRegRead_core (r := r) (s := emit (.tdo 72 s.find.regRead) (loadIr 0x21 s)) hk
      exact ⟨_, next_congr (hscan.trans (coreReg_of_read hhalted hread)), coreRegRead_outs, hpc, hzero, hfixed, hkept⟩
  case bp =>
    intro dr s hmode hon d k i kind mask good
    exact ⟨_, next_congr (debugScan_of_on hmode hon), coreBp_core d (loadIr 0x22 s)⟩
  case hit =>
    intro core watch pc s c
    refine ⟨fun hruns harmed => next_congr (modCore_congr core.isLt ?_), fun h => next_congr ((modCore_congr core.isLt ?_).trans (modCore_id core.val s))⟩
    · exact if_pos (by rw [hruns, harmed]; rfl)
    · refine if_neg ?_
      rcases h with h | h <;> simp [h, c]
  case scan =>
    intro dr out s hmode hon u n sp a waits
    have hread (f : State → State) : debugScan 0x30 f s = f (loadIr 0x30 s) := debugScan_of_on hmode hon
    exact ⟨fun h => ⟨next_congr ((hread _).trans (sysScan_waits h)), next_congr ((hread _).trans (sysScan_waits h))⟩,
      fun h => ⟨next_congr ((hread _).trans (sysScan_starts h)), next_congr ((hread _).trans (sysScan_starts h))⟩⟩
  case access =>
    intro sp a n wr out s c ends scope top
    refine ⟨sysAccess_bad, fun hsp ha => sysAccess_unscoped ha hsp, fun ha hscope htop => (sysAccess_memory ha hscope).trans (if_pos htop),
      fun ha hscope htop hclk => ?stands, fun ha hscope htop hclk hcred => ?credit, fun ha hscope htop hclk hcred => ?goes,
      fun d ha hscope => sysAccess_held ha hscope, fun v ha hscope => sysAccess_write ha hscope, fun ha hscope => sysAccess_read ha hscope,
      fun k hk ha hscope => sysAccess_core ha hscope hk, fun ha hscope h => (sysAccess_almanac ha hscope).trans (if_pos h),
      fun ha hscope h => (sysAccess_almanac ha hscope).trans (if_neg ?small)⟩
    case stands => exact (sysAccess_memory ha hscope).trans ((if_neg htop).trans (if_pos (by rw [hclk]; rfl)))
    case credit => exact (sysAccess_memory ha hscope).trans ((if_neg htop).trans ((if_neg (by rw [hclk]; decide)).trans (if_pos (by rw [hcred]; rfl))))
    case goes =>
      exact (sysAccess_memory ha hscope).trans ((if_neg htop).trans ((if_neg (by rw [hclk]; decide)).trans (if_neg (by rw [hcred]; decide))))
    case small =>
      rintro (hwr | hlarge)
      · exact absurd hwr (by decide)
      · omega

end Sys2Proof.Machine
end

section
/-! PROOFS. The statement of 01_the_shelf_controller.md, "Device modes", about mode targets: how one is held, and how its transition begins. -/

namespace Sys2Proof.Machine

/-! ### GLB_MODE_CTL (R12) -/

/-- GLB_MODE_CTL with its one field. -/
def modeCtlReg : RegAt := ⟨0x40, 32, [F.GLB_MODE_CTL_TARGET]⟩

theorem findReg_modeCtl : findReg 0x40 = some modeCtlReg := by decide

section
variable {t src : Nat} {s : State}

/-- A write of one of the four targets stores it. -/
theorem storeAt_modeCtl (ht : t ≤ 3) (s : State) : storeAt 0x40 t s = setF F.GLB_MODE_CTL_TARGET t s := by
  have hw : writtenVal s F.GLB_MODE_CTL_TARGET 0 t = some t := by
    rw [writtenVal_plain s t (by decide) (by decide) (.inl rfl)]
    interval_cases t <;> rfl
  have hc := comboBad_eq_false (f := F.GLB_MODE_CTL_TARGET) (by decide) s 0 t
  simp only [storeAt, findReg_modeCtl]
  rw [storeReg_eq (by decide)]
  exact writeFld_of_writes hw hc s

theorem modeCtl_of_target (ht : t ≤ 3) (hlc : s.lcs.trans = none) : modeCtl t s = modeTarget t 1 (Says.modeAsked t s) := by
  rw [modeCtl, if_neg (by simp [hlc]; omega), Nat.mod_eq_of_lt (by omega), storeAt_modeCtl ht]
  rfl

/-! ### Targets of a running device (R12, R13) -/

theorem modeTarget_in_transition (hmode : s.glb.mode = .active ∨ s.glb.mode = .quiet ∨ s.glb.mode = .parked) (hlc : s.lcs.trans = none)
    (hdrain : s.dur.drain = 0) (htrans : s.glb.transTo.isSome = true) : modeTarget t src s = pendSet t src s := by
  rcases hmode with h | h | h <;> simp [modeTarget, h, hlc, hdrain, htrans]

/-- A target that nothing holds and that is not the mode itself starts its transition. -/
theorem modeTarget_starts (hmode : s.glb.mode = .active ∨ s.glb.mode = .quiet) (hlc : s.lcs.trans = none) (hdrain : s.dur.drain = 0)
    (htrans : s.glb.transTo = none) (hheld : s.targetHeld t = false) (hne : t ≠ s.glb.mode.code) :
    modeTarget t src s = modeStart t src s := by
  rcases hmode with h | h <;> rw [h] at hne <;> simp [modeTarget, h, hlc, hdrain, htrans, hheld, hne]

theorem pendSet_eq (h : s.glb.mode ≠ .starting) : pendSet t src s =
    setF F.GLB_MODE_STATUS_PENDING t (setF F.GLB_MODE_STATUS_PEND_VALID 1 (s.modGlb (fun g => { g with heldTarget := some (t, src) }))) :=
  if_neg h

theorem pendSet_shows (h : s.glb.mode ≠ .starting) (ht : t ≤ 3) :
    (pendSet t src s).get F.GLB_MODE_STATUS_PEND_VALID = 1 ∧ (pendSet t src s).get F.GLB_MODE_STATUS_PENDING = t := by
  rw [pendSet_eq h]
  refine ⟨?_, State.get_setF_lt _ (Nat.lt_of_le_of_lt ht (by decide))⟩
  rw [State.get_setF_ne _ _ (by decide)]
  exact State.get_setF_lt _ (by decide)

end

/-! ### Starts of transitions (R12) -/

section
variable {dest : Mode} {t : Nat} {s : State}

/-- Between ACTIVE and QUIET the power domains follow. -/
theorem modeStart_running (ht : t < 2) (hmode : s.glb.mode ≠ .parked) :
    modeStart t 1 s = pdSettle (Says.modeBegun (targetMode t) s) := by
  obtain rfl | rfl : t = 0 ∨ t = 1 := by omega
  · exact if_neg hmode
  · exact if_neg hmode

/-- An entry into PARKED closes ingress, stops the rings, flushes the merge buffer and forces the commit. -/
theorem modeStart_parked (s : State) :
    modeStart 2 1 s = syncDrain .mode (mergeFlushAll (ringsStop (ingressClose (Says.modeBegun .parked s)))) := by
  simp only [modeStart, parkStart, targetMode, tStandby, when, Says.modeBegun, OfNat.ofNat_ne_zero, reduceIte,
    decide_false, Bool.false_eq_true, Nat.reduceEqDiff]

/-- STANDBY is entered by way of PARKED, with STANDBY pending. -/
theorem modeStart_standby (s : State) :
    modeStart 3 1 s = syncDrain .mode (mergeFlushAll (ringsStop (ingressClose (pendSet 3 1 (Says.modeBegun .parked s))))) := by
  simp only [modeStart, parkStart, tStandby, when, Says.modeBegun, reduceIte, decide_true]

end

/-- Settles O5: a write stores the target; during a transition it is held, otherwise `modeTarget_starts` and the start of its mode. -/
theorem modeTargetsStartTheirTransitionOrWait : Obligations.ModeTargetsStartTheirTransitionOrWait := by
  unfold Obligations.ModeTargetsStartTheirTransitionOrWait
  refine ⟨fun m s t c hc hlc hdrain hmode htrans => ?held, fun m s hlc hdrain htrans => ?free⟩
  case held =>
    have hpend : t ≤ 3 → modeCtl t s = pendSet t 1 (Says.modeAsked t s) := fun ht =>
      (modeCtl_of_target ht hlc).trans (modeTarget_in_transition hmode hlc hdrain htrans)
    have hrun : (Says.modeAsked t s).glb.mode ≠ .starting := by
      show s.glb.mode ≠ .starting
      rcases hmode with h | h | h <;> simp [h]
    have ht : t ≤ 3 ∧ exec c s = .next (after (modeCtl t s)) := by
      simp only [List.mem_cons, Prod.mk.injEq, List.not_mem_nil, or_false] at hc
      rcases hc with ⟨rfl, rfl⟩ | ⟨rfl, rfl⟩ | ⟨rfl, rfl⟩ | ⟨rfl, rfl⟩ <;> exact ⟨by decide, rfl⟩
    obtain ⟨ht, hexec⟩ := ht
    exact ⟨by rw [hexec, hpend ht], pendSet_shows hrun ht⟩
  case free =>
    have starts {t : Nat} (ht : t ≤ 3) (hmode : s.glb.mode = .active ∨ s.glb.mode = .quiet) (hne : t ≠ s.glb.mode.code)
        (hheld : (Says.modeAsked t s).targetHeld t = false) : modeCtl t s = modeStart t 1 (Says.modeAsked t s) :=
      (modeCtl_of_target ht hlc).trans (modeTarget_starts hmode hlc hdrain htrans hheld hne)
    have code_lt (hmode : s.glb.mode = .active ∨ s.glb.mode = .quiet) : s.glb.mode.code < 2 := by
      rcases hmode with h | h <;> rw [h] <;> decide
    refine ⟨fun h hheld => ?quiet, fun h hheld => ?active, fun h hheld => ?parked, fun h hheld => ?standby⟩
    case quiet =>
      refine next_after_congr ((starts (by decide) (.inl h) (by rw [h]; decide) hheld).trans (modeStart_running (by decide) ?_))
      exact fun hp => by simp [Says.modeAsked, h] at hp
    case active =>
      refine next_after_congr ((starts (by decide) (.inr h) (by rw [h]; decide) hheld).trans (modeStart_running (by decide) ?_))
      exact fun hp => by simp [Says.modeAsked, h] at hp
    case parked => exact next_after_congr ((starts (by decide) h (by have := code_lt h; omega) hheld).trans (modeStart_parked _))
    case standby => exact next_after_congr ((starts (by decide) h (by have := code_lt h; omega) hheld).trans (modeStart_standby _))

end Sys2Proof.Machine
end

section
/-! PROOFS. The statement of 02_host_port.md, "Requests in one line": requests from the link, releases from ingress, credits that come back. -/

namespace Sys2Proof.Machine

/-! ### A request arrives (R25, R27, R42, R43) -/

section
variable {r : HReq} {s : State}

/-- A request that finds its port open is counted before anything else is asked. -/
theorem memReq_of_open (hopen : Says.open r s) : memReq r s =
    if !s.memReady then Says.counted r s |> refuseReq r |> incF F.GLB_START_STATUS_EARLY 1
    else if s.dur.drain ≠ 0 then Says.counted r s
    else if (s.port r.port).gpf then gpfRefuse r (Says.counted r s)
    else if s.glb.ingressClosed || s.glb.mode = .parked || s.glb.mode = .standby then parkRefuse r (Says.counted r s)
    else if s.ingressFull r.port || !(s.port r.port).linkQ.isEmpty then
      modPort r.port (fun q => { q with linkQ := q.linkQ ++ [r] }) (credTake r.port r.cls (Says.counted r s))
    else ingressTake r (credTake r.port r.cls (Says.counted r s)) := by
  obtain ⟨hup, hld, hmem, hsec, -, hcred⟩ := hopen
  simp only [memReq, hup, hld, hmem, hsec, Nat.ne_of_gt hcred, Says.counted, ne_eq, not_true_eq_false, decide_false, Bool.not_true, Bool.or_self,
    Bool.false_eq_true, if_false]

theorem memReq_of_served (hopen : Says.open r s) (hserves : Says.serves r s) :
    memReq r s = ingressTake r (credTake r.port r.cls (Says.counted r s)) := by
  obtain ⟨-, -, -, -, hlink, -⟩ := id hopen
  obtain ⟨hready, hdrain, hgpf, hclosed, hparked, hstandby, hfull⟩ := hserves
  rw [memReq_of_open hopen]
  simp [hready, hdrain, hgpf, hclosed, hparked, hstandby, hfull, hlink]

/-- R11: a parked device refuses. -/
theorem memReq_of_parked (hopen : Says.open r s) (hready : s.memReady = true) (hdrain : s.dur.drain = 0) (hgpf : (s.port r.port).gpf = false)
    (hmode : s.glb.mode = .parked) : memReq r s = parkRefuse r (Says.counted r s) := by
  rw [memReq_of_open hopen]
  simp [hready, hdrain, hgpf, hmode]

/-- Without regulation, and with nothing waiting before it, a request takes its credit at once. -/
theorem ingressTake_of_free (hen : s.on F.REG_CTL_EN = false) (hkey : s.on F.MERID_STATUS_REKEY = false) (hempty : s.host.ingress = []) :
    ingressTake r s = regStatus (ingressGo r s) := by
  have hmay : s.ingressMay r = true := by simp [State.ingressMay, State.mayTake, hen, hkey]
  exact if_pos (by simp [hmay, hempty])

/-! ### Below (R25, R32, R54) -/

theorem hostGo_unbacked_read (hwait : s.mustWait r = false) (hbacked : s.backed r.ld r.dpa = false) (hread : r.wr = false) :
    hostGo r s = readNs r 240 (sendPoison r (unbackedEvent r.ld r.dpa s)) := by
  simp only [hostGo, hwait, hbacked, hread, Bool.false_eq_true, if_false]

theorem hostGo_unbacked_write (hwait : s.mustWait r = false) (hbacked : s.backed r.ld r.dpa = false) (hwrite : r.wr = true) :
    hostGo r s = cnt (bLD r.ld) 4 1 (sendCmp r (credBack r.port credRwd (unbackedEvent r.ld r.dpa s))) := by
  have href : writeRefused r s = some (unbackedEvent r.ld r.dpa s) := by simp [writeRefused, hbacked]
  simp only [hostGo, hwait, hbacked, hwrite, writeTry, href, dropWrite, discardWrite, Bool.false_eq_true, if_false, if_true]

/-! ### Releases and credits (R27, R42, R43) -/

theorem ingressRelease_of_next (h : s.releaseNext = some r) : ingressRelease s = linkNext r.port (regStatus
    (ingressGo { r with wait := s.now - r.wait } (s.modHost (fun h => { h with ingress := h.ingress.erase r })))) := by
  simp only [ingressRelease, h]

/-- Credits that were consumed are all taken back. -/
theorem creditBack_of_consumed {port cls n : Nat} (h : n ≤ tgetD 0 (s.port port).s2mUsed cls) :
    creditBack port cls n s = modPort port (fun q => { q with
      s2mUsed := tput 0 q.s2mUsed cls (tgetD 0 (s.port port).s2mUsed cls - n), s2mFree := tmod 0 (· + n) q.s2mFree cls }) s := by
  simp only [creditBack, Nat.min_eq_left h, Nat.not_lt.mpr h, decide_false, when, Bool.false_eq_true, if_false]

end

/-- Settles O9: each clause by the equation of its operation in the case it states. -/
theorem requestsFromTheLinkAreTaken : Obligations.RequestsFromTheLinkAreTaken := by
  unfold Obligations.RequestsFromTheLinkAreTaken
  refine ⟨?read, ?write, ?free, ?unbackedRead, ?unbackedWrite, ?parked, ?release, ?credits, ?consumed⟩
  case read => exact fun port ld tag dpa s hopen hserves => next_congr (memReq_of_served hopen hserves)
  case write => exact fun port ld tag dpa mask data poison s hopen hserves => next_congr (memReq_of_served hopen hserves)
  case free => exact fun r s => ingressTake_of_free
  case unbackedRead => exact fun r s => hostGo_unbacked_read
  case unbackedWrite => exact fun r s => hostGo_unbacked_write
  case parked =>
    exact fun port ld tag dpa s hopen hready hdrain hgpf hmode => next_congr (memReq_of_parked hopen hready hdrain hgpf hmode)
  case release => exact fun r s h => next_congr (ingressRelease_of_next h)
  case credits => exact fun port ndr drs s hup => next_congr (if_pos hup)
  case consumed => exact fun port cls n s => creditBack_of_consumed

end Sys2Proof.Machine
end

section
/-! PROOFS. The statement of 02_host_port.md about links: how they come up and go down, resets of LDs, IDE, DOE, and the phases of a flush. -/

namespace Sys2Proof.Machine

/-! ### Credits of a link that comes up (R41 to R43) -/

section
variable {c cls : Nat} {l : List Nat} {p : PortSt}

theorem grantCred_held_self (cls : Nat) (p : PortSt) : tgetD 0 (p.grantCred cls).held cls = tgetD 0 p.held cls + p.freeCred cls :=
  tgetD_tput_self _ _ _ _

theorem grantCred_held_ne (h : cls ≠ c) : tgetD 0 (p.grantCred c).held cls = tgetD 0 p.held cls := tgetD_tput_ne _ _ _ h

theorem grantCred_freeCred_ne (h : cls ≠ c) : (p.grantCred c).freeCred cls = p.freeCred cls := tgetD_tput_ne _ _ _ h

theorem grantAll_held_of_not_mem (h : cls ∉ l) : tgetD 0 (l.foldl (fun p c => p.grantCred c) p).held cls = tgetD 0 p.held cls := by
  induction l generalizing p with
  | nil => rfl
  | cons c l ih =>
    rw [List.foldl_cons, ih (List.not_mem_of_not_mem_cons h), grantCred_held_ne (List.ne_of_not_mem_cons h)]

/-- Each class among those granted gets its free credits, once. -/
theorem grantAll_held_of_mem (hnodup : l.Nodup) (h : cls ∈ l) :
    tgetD 0 (l.foldl (fun p c => p.grantCred c) p).held cls = tgetD 0 p.held cls + p.freeCred cls := by
  induction l generalizing p with
  | nil => simp at h
  | cons c l ih =>
    obtain ⟨hc, hl⟩ := List.nodup_cons.mp hnodup
    rw [List.foldl_cons]
    rcases eq_or_ne cls c with rfl | hne
    · rw [grantAll_held_of_not_mem hc, grantCred_held_self]
    · rw [ih hl (List.mem_of_ne_of_mem hne h), grantCred_held_ne hne, grantCred_freeCred_ne hne]

theorem grantAll_s2m (l : List Nat) (p : PortSt) : (l.foldl (fun p c => p.grantCred c) p).s2mFree = p.s2mFree ∧
    (l.foldl (fun p c => p.grantCred c) p).s2mUsed = p.s2mUsed := by
  induction l generalizing p with
  | nil => exact ⟨rfl, rfl⟩
  | cons c l ih => exact ih (p.grantCred c)

theorem linkCredits_held (ndr drs : Nat) (p : PortSt) (h : cls < 6) :
    tgetD 0 (linkCredits ndr drs p).held cls = tgetD 0 p.held cls + p.freeCred cls :=
  grantAll_held_of_mem List.nodup_range (List.mem_range.mpr h)

end

/-! ### What the operations of a link leave of the ports and of the queues -/

/-- The ports, the requests in ingress and in the write queue, and the merge buffer. -/
def State.linkView (s : State) : Tbl PortSt × List HReq × List HReq × CoalSt := (s.host.ports, s.host.ingress, s.host.writeQ, s.coal)

section
variable (f : Fld) (v n k : Nat) (s : State)

@[simp] theorem State.linkView_modGlb (g : Glb → Glb) : (s.modGlb g).linkView = s.linkView := (rfl)
@[simp] theorem State.linkView_modLog (g : LogSt → LogSt) : (s.modLog g).linkView = s.linkView := (rfl)
@[simp] theorem State.linkView_modClk (g : ClkSt → ClkSt) : (s.modClk g).linkView = s.linkView := (rfl)
@[simp] theorem State.linkView_modDur (g : DurSt → DurSt) : (s.modDur g).linkView = s.linkView := (rfl)
@[simp] theorem State.linkView_modImg (g : ImgSt → ImgSt) : (s.modImg g).linkView = s.linkView := (rfl)
@[simp] theorem State.linkView_modXlat (g : XlatSt → XlatSt) : (s.modXlat g).linkView = s.linkView := (rfl)
@[simp] theorem State.linkView_modMed (g : MedSt → MedSt) : (s.modMed g).linkView = s.linkView := (rfl)
@[simp] theorem setF_linkView : (setF f v s).linkView = s.linkView := (rfl)
@[simp] theorem incF_linkView : (incF f n s).linkView = s.linkView := (rfl)
@[simp] theorem emit_linkView (o : Out) : (emit o s).linkView = s.linkView := (rfl)
@[simp] theorem takeNat_linkView : (takeNat s).2.linkView = s.linkView := (rfl)
@[simp] theorem modLd_linkView (g : LdSt → LdSt) : (modLd n g s).linkView = s.linkView := (rfl)
@[simp] theorem balancedReset_linkView : (balancedReset n k s).linkView = s.linkView := (rfl)

@[simp] theorem msixSend_linkView (view vector : Nat) : (msixSend view vector s).linkView = s.linkView := by
  unfold msixSend
  split <;> rfl

@[simp] theorem raiseInt_linkView (b : Nat) : (raiseInt b s).linkView = s.linkView := by
  simp [raiseInt, apply_ite State.linkView]

@[simp] theorem setErr_linkView (cause : Nat) : (setErr f cause s).linkView = s.linkView := by
  simp [setErr, apply_ite State.linkView]

@[simp] theorem logStore_linkView (code source sev p0 p1 p2 p3 : Nat) : (logStore code source sev p0 p1 p2 p3 s).linkView = s.linkView := by
  simp [logStore, apply_ite State.linkView]

@[simp] theorem logLost_linkView : (logLost s).linkView = s.linkView := by
  simp [logLost, apply_ite State.linkView]

@[simp] theorem logPut_linkView (sev code p0 p1 p2 p3 : Nat) : (logPut sev code p0 p1 p2 p3 s).linkView = s.linkView := by
  simp [logPut, logFrom, apply_ite State.linkView]

variable {f v n k s} in
theorem when_linkView {b : Bool} {u : State → State} (hu : ∀ t, (u t).linkView = t.linkView) : (when b u s).linkView = s.linkView := by
  cases b
  · rfl
  · exact hu s

variable {f v n k s} in
theorem seqAll_linkView {α : Type} {u : α → State → State} {l : List α} (hu : ∀ a t, (u a t).linkView = t.linkView) :
    (seqAll u l s).linkView = s.linkView :=
  seqAll_kept (P := fun t => t.linkView = s.linkView) (fun a {_} h => (hu a _).trans h) rfl

@[simp] theorem event_linkView (log kind arg : Nat) : (event n log kind arg s).linkView = s.linkView := by
  simp [event, eventIrq, when_linkView, apply_ite State.linkView]

@[simp] theorem recDisqualified_linkView (ssc : Bool) : (recDisqualified ssc s).linkView = s.linkView := by
  simp [recDisqualified, when_linkView, apply_ite State.linkView]

@[simp] theorem event_regs (log kind arg : Nat) : (event n log kind arg s).regs = s.regs := by
  have hirq (t : State) : (eventIrq n log t).regs = t.regs := by
    unfold eventIrq when
    split
    · exact msixSend_regs _ _ _
    · rfl
  unfold event
  dsimp only
  rw [logPut_regs, takeNat_regs, hirq]
  split <;> rfl

end

theorem port_of_linkView {s t : State} (h : s.linkView = t.linkView) (p : Nat) : s.port p = t.port p :=
  congrArg (fun l => tgetD PortSt.reset l p) (congrArg Prod.fst h)

/-- What a port's reset does not touch: the queues behind it and the merge buffer. -/
def State.queueView (s : State) : List HReq × List HReq × CoalSt := s.linkView.2

/-- Aborted mailbox commands leave the queues of requests. -/
theorem mboxAbort_queueView (p : Nat → Bool) (s : State) : (mboxAbort p s).queueView = s.queueView := by
  have hports (t : State) : (seqAll (fun k t => if (t.port k).mboxQ = [] then t
      else modPort k (fun q => { q with mboxQ := q.mboxQ.filter (fun c => !p c.view) }) t) [0, 1] t).queueView = t.queueView :=
    seqAll_kept (P := fun u => u.queueView = t.queueView) (fun k {u} h => by rw [← h]; split <;> rfl) rfl
  have hwhen (b : Bool) (t : State) : (when b (setErr F.HOST_ERR_STATUS_MBOX_ABORT intHost) t).queueView = t.queueView :=
    congrArg Prod.snd (when_linkView (setErr_linkView F.HOST_ERR_STATUS_MBOX_ABORT · intHost))
  have hif (c : Prop) [Decidable c] {u t : State} (h : u.queueView = t.queueView) : (if c then u else t).queueView = t.queueView := by
    split
    · exact h
    · rfl
  unfold mboxAbort
  dsimp only
  rw [hwhen, hif, hif, hif, hports] <;> rfl

/-! ### Links that go down (R20, R39) -/

section
variable {port : Nat} {s : State}

/-- The state of a link that goes down, before its error and its status: its requests dropped, its port reset. -/
def linkDropped (port : Nat) (s : State) : State :=
  let s1 := dropReqs (fun r => r.port == port) s
  when (decide (port = 0)) (recDisqualified false) (seqAll (fun c t => balancedReset 0 (credIndex port c) t) (List.range 8)
    (modPort port (fun q => { PortSt.reset with insecure := q.insecure }) (mboxAbort (s1.viewOn port) s1)))

theorem linkDown_of_up (h : (s.port port).up = true) : linkDown port s = settle (regStatus (ldStatusAll (ringsDrop (fun o => s.viewOn port o)
    (linkShow port 0 0 false (setErr F.HOST_ERR_STATUS_LINK_DOWN intHost (linkDropped port s)))))) := if_pos h

theorem linkDropped_linkView (port : Nat) (s : State) : ∃ u, (linkDropped port s).linkView =
    (modPort port (fun q => { PortSt.reset with insecure := q.insecure }) u).linkView ∧
      u.queueView = (dropReqs (fun r => r.port == port) s).queueView :=
  ⟨_, (when_linkView (recDisqualified_linkView · false)).trans (seqAll_linkView fun _ t => balancedReset_linkView _ _ t), mboxAbort_queueView _ _⟩

theorem modPort_port_self (f : PortSt → PortSt) (s : State) : (modPort port f s).port port = f (s.port port) := tgetD_tput_self _ _ _ _

/-- The port is down with nothing to answer, no request of it waits, and the merge buffer is as it was. -/
theorem linkDropped_result (port : Nat) (s : State) : ((linkDropped port s).port port).up = false ∧ ((linkDropped port s).port port).respQ = [] ∧
    (∀ r ∈ (linkDropped port s).host.ingress, r.port ≠ port) ∧ (∀ r ∈ (linkDropped port s).host.writeQ, r.port ≠ port) ∧
    (linkDropped port s).coal = s.coal := by
  obtain ⟨u, hview, hqueue⟩ := linkDropped_linkView port s
  have hport : (linkDropped port s).port port = { PortSt.reset with insecure := (u.port port).insecure } :=
    (port_of_linkView hview port).trans (modPort_port_self _ u)
  have hqueues : (linkDropped port s).queueView = (dropReqs (fun r => r.port == port) s).queueView := (congrArg Prod.snd hview).trans hqueue
  have hingress : (linkDropped port s).host.ingress = s.host.ingress.filter (fun r => !(r.port == port)) := congrArg Prod.fst hqueues
  have hwrites : (linkDropped port s).host.writeQ = s.host.writeQ.filter (fun r => !(r.port == port)) := congrArg (fun v => v.2.1) hqueues
  have hcoal : (linkDropped port s).coal = s.coal := congrArg (fun v => v.2.2) hqueues
  refine ⟨by rw [hport]; rfl, by rw [hport]; rfl, ?_, ?_, hcoal⟩
  · rw [hingress]
    simp
  · rw [hwrites]
    simp

end

/-! ### Status, IDE, DOE, flushes (R20, R22, R33, R266) -/

section
variable {port speed width : Nat} {mem : Bool} {s : State}

theorem linkShow_zero_get (hspeed : speed < 8) (hwidth : width < 8) : (linkShow 0 speed width mem s).get F.HOST_LINK_STATUS_P0_SPEED = speed ∧
    (linkShow 0 speed width mem s).get F.HOST_LINK_STATUS_P0_WIDTH = width := by
  have hshow : linkShow 0 speed width mem s = setB F.HOST_LINK_STATUS_P0_CXLMEM mem (setF F.HOST_LINK_STATUS_P0_WIDTH width
    (setF F.HOST_LINK_STATUS_P0_SPEED speed s)) := if_pos rfl
  rw [hshow, setB]
  simp (disch := decide) only [State.get_setF_ne]
  exact ⟨State.get_setF_lt _ (Nat.lt_of_lt_of_le hspeed (by decide)), State.get_setF_lt _ (Nat.lt_of_lt_of_le hwidth (by decide))⟩

theorem linkShow_one_get (hspeed : speed < 8) (hwidth : width < 8) : (linkShow 1 speed width mem s).get F.HOST_LINK_STATUS_P1_SPEED = speed ∧
    (linkShow 1 speed width mem s).get F.HOST_LINK_STATUS_P1_WIDTH = width := by
  have hshow : linkShow 1 speed width mem s = setB F.HOST_LINK_STATUS_P1_CXLMEM mem (setF F.HOST_LINK_STATUS_P1_WIDTH width
    (setF F.HOST_LINK_STATUS_P1_SPEED speed s)) := if_neg (by decide)
  rw [hshow, setB]
  simp (disch := decide) only [State.get_setF_ne]
  exact ⟨State.get_setF_lt _ (Nat.lt_of_lt_of_le hspeed (by decide)), State.get_setF_lt _ (Nat.lt_of_lt_of_le hwidth (by decide))⟩

/-- A port whose MAC check failed is insecure, and the error stays set behind the events. -/
theorem ideFail_result (hup : (s.port port).up = true) :
    ((ideFail port s).port port).insecure = true ∧ (ideFail port s).on F.HOST_ERR_STATUS_IDE_FAIL = true := by
  have hfail : ideFail port s = _ := if_pos hup
  rw [hfail]
  refine ⟨?port, ?error⟩
  case port =>
    rw [port_of_linkView (seqAll_linkView fun n t => event_linkView n t logFatal 0x80 port), port_of_linkView (logPut_linkView ..),
      port_of_linkView (setErr_linkView ..), modPort_port_self]
  case error =>
    rw [State.on, bne_iff_ne, State.get_seqAll (fun n _ t => State.get_congr (event_regs n t logFatal 0x80 port) _),
      State.get_congr (logPut_regs ..)]
    exact setErr_get _ _ _ rfl

theorem doeRequest_discovery (hup : (s.port port).up = true) {i : Nat} (hi : i < 5) :
    doeRequest port (.discovery i) s = emit (.doe port 0 [i, (i + 1) % 5]) s := by
  rw [doeRequest, if_pos hup]
  interval_cases i <;> rfl

theorem doeRequest_cdat (hup : (s.port port).up = true) {n : Fin 16} (hld : s.ldPort n.val = port) :
    doeRequest port (.cdat n) s = emit (.doe port 3 (s.cdat n.val)) s := by
  rw [doeRequest, if_pos hup]
  exact if_pos (by simp [State.viewOn, hld])

theorem gpfPhase2_of_free (hgpf : (s.port port).gpf = true) (hfirst : (s.port port).gpf2 = false) (htrans : s.glb.transTo = none) :
    gpfPhase2 port s = syncDrain (.gpf port) (modPort port (fun q => { q with gpf2 := true }) s) := by
  have hnot : ¬ (modPort port (fun q => { q with gpf2 := true }) s).glb.transTo = some .parked := by
    change ¬ s.glb.transTo = some .parked
    simp [htrans]
  exact (if_pos (by simp [hgpf, hfirst])).trans (if_neg hnot)

end

/-- Settles O10: each row by its equation; a link that goes down by `linkDropped_result`. -/
theorem linksComeUpAndGoDown : Obligations.LinksComeUpAndGoDown := by
  unfold Obligations.LinksComeUpAndGoDown
  refine ⟨?up, ?credits, ?shown, ?down, fun port s => rfl, ?flr, ?hot, ?cxl, ?mac, fun port s hup => next_congr (if_pos hup),
    fun port i s hup hi => next_congr (doeRequest_discovery hup hi), fun port n s hup hld => next_congr (doeRequest_cdat hup hld),
    fun port s hup => next_congr (if_pos hup), fun port s hgpf hfirst htrans => next_congr (gpfPhase2_of_free hgpf hfirst htrans)⟩
  case up => exact fun port speed width mem ndr drs s hmay hdown hwidth => next_congr (if_pos (by simp [hmay, hdown, hwidth]))
  case credits =>
    intro ndr drs cls q hcls
    obtain ⟨hfree, hused⟩ := grantAll_s2m (List.range 6)
      { q with s2mGrant := tput 0 (tput 0 [] credNdr ndr) credDrs drs, s2mFree := tput 0 (tput 0 [] credNdr ndr) credDrs drs, s2mUsed := [] }
    exact ⟨hfree, hused, linkCredits_held ndr drs q hcls⟩
  case shown =>
    intro speed width mem s hspeed hwidth
    obtain ⟨hspeed0, hwidth0⟩ := linkShow_zero_get (mem := mem) (s := s) hspeed hwidth
    obtain ⟨hspeed1, hwidth1⟩ := linkShow_one_get (mem := mem) (s := s) hspeed hwidth
    exact ⟨hspeed0, hwidth0, hspeed1, hwidth1⟩
  case down => exact fun port s hup => ⟨linkDropped port.val s, next_congr (linkDown_of_up hup), linkDropped_result port.val s⟩
  case flr => exact fun n s => rfl
  case hot => exact fun n s => rfl
  case cxl => exact fun n s => rfl
  case mac => exact fun port s hup => ⟨_, rfl, ideFail_result hup⟩

end Sys2Proof.Machine
end

section
/-! PROOFS. The statements of 02_host_port.md, "Mailbox commands": the queries, erasing and capacity; how a command reaches its mailbox. -/

namespace Sys2Proof.Machine

/-! ### A command that reaches its mailbox (R35, R39) -/

section
variable {view op : Nat} {payload : List Nat} {image : Option Image} {s : State}

/-- A command that runs finds nothing in its way. -/
theorem mbox_of_runs (h : Says.mboxRuns view op s) : mbox ⟨view, op, payload, image⟩ s = mboxRun ⟨view, op, payload, image⟩ s := by
  obtain ⟨hreach, hsup, hserved, hparked⟩ := h
  by_cases hmode : s.glb.mode = .parked
  · obtain ⟨hl1, hscan, hsan, hsec⟩ := hparked hmode
    simp [mbox, hreach, hsup, hserved, hmode, hl1, hscan, hsan, hsec]
  · simp [mbox, hreach, hsup, hserved, hmode]

theorem mboxDo_of_runs {view : Fin 17} {t : State} (h : Says.mboxRuns view.val op s) (hrun : mboxRun ⟨view.val, op, payload, none⟩ s = t) :
    mboxDo view op payload s = .next (after t) :=
  next_after_congr ((mbox_of_runs h).trans hrun)

/-- A parked device leaves Sanitize, Secure Erase and Scan Media undone. -/
theorem mbox_of_parked_busy (hreach : s.mboxReach view = true) (hsup : s.opSupported view op = true) (hserved : s.opServed op = true)
    (hmode : s.glb.mode = .parked) (hop : op = 0x4400 ∨ op = 0x4401 ∨ op = 0x4304) :
    mbox ⟨view, op, payload, image⟩ s = mboxDone view op rcBusy [] s := by
  simp [mbox, hreach, hsup, hserved, hmode, hop, reply]

theorem mbox_of_parked_l1 (hreach : s.mboxReach view = true) (hsup : s.opSupported view op = true) (hserved : s.opServed op = true)
    (hmode : s.glb.mode = .parked) (hl1 : (s.port (s.ldPort view)).l1 = true) (hop : ¬ (op = 0x4400 ∨ op = 0x4401 ∨ op = 0x4304)) :
    mbox ⟨view, op, payload, image⟩ s =
      modPort (s.ldPort view) (fun p => { p with mboxQ := p.mboxQ ++ [⟨view, op, payload, image⟩] }) s := by
  simp [mbox, hreach, hsup, hserved, hmode, hop, hl1]

theorem mbox_of_not_served (hreach : s.mboxReach view = true) (hsup : s.opSupported view op = true) (hserved : s.opServed op = false) :
    mbox ⟨view, op, payload, image⟩ s = mboxDone view op rcBusy [] s := by
  simp [mbox, hreach, hsup, hserved, reply]

end

/-! ### Queries (R35 to R37, R40) -/

section
variable {view : Fin 17} {s : State}

/-- A query answers by its own line of the command table. -/
theorem query_answers {op : Nat} {payload out : List Nat} (h : Says.mboxRuns view.val op s)
    (hrun : mboxRun ⟨view.val, op, payload, none⟩ s = mboxDone view.val op rcOk out s) :
    mboxDo view op payload s = Says.answer view.val op rcOk out s :=
  mboxDo_of_runs h hrun

theorem mboxRun_status_of_running {b : BgOp} (h : (s.ld view.val).bg = some b) :
    mboxRun ⟨view.val, 0x0002, [], none⟩ s = mboxDone view.val 0x0002 rcOk [1, b.pct, b.opcode, 0] s := by
  simp only [mboxRun, reply, h]

theorem mboxRun_status_of_ended {b : BgOp} (h : (s.ld view.val).bg = none) (hlast : (s.ld view.val).lastBg = some b) :
    mboxRun ⟨view.val, 0x0002, [], none⟩ s = mboxDone view.val 0x0002 rcOk [0, b.pct, b.opcode, b.rc] s := by
  simp only [mboxRun, reply, h, hlast]

theorem mboxRun_eventRecords (log : Nat) : mboxRun ⟨view.val, 0x0100, [log], none⟩ s =
    if log ≤ 4 then
      mboxDone view.val 0x0100 rcOk ([(decide (0 < tgetD 0 (s.ld view.val).drops log)).toNat, tgetD 0 (s.ld view.val).drops log,
        (tgetD [] (s.ld view.val).logs log).length] ++ (tgetD [] (s.ld view.val).logs log).flatMap (fun e => [e.kind, e.arg])) s
    else mboxDone view.val 0x0100 rcInvalidInput [] s := by
  have harg : MboxReq.arg ⟨view.val, 0x0100, [log], none⟩ 0 = log := rfl
  simp only [mboxRun, mboxGetEvents, reply, harg]
  split
  case isTrue h => rw [if_neg (by omega)]
  case isFalse h => rw [if_pos (by omega)]

theorem mboxRun_lsa (off len : Nat) : mboxRun ⟨view.val, 0x4102, [off, len], none⟩ s =
    if off + len ≤ 131072 then
      mboxDone view.val 0x4102 rcOk ((List.range len).map (fun i => tgetD 0 (s.ld view.val).lsa (off + i))) s
    else mboxDone view.val 0x4102 rcInvalidInput [] s := by
  have hoff : MboxReq.arg ⟨view.val, 0x4102, [off, len], none⟩ 0 = off := rfl
  have hlen : MboxReq.arg ⟨view.val, 0x4102, [off, len], none⟩ 1 = len := rfl
  simp only [mboxRun, mboxGetLsa, reply, hoff, hlen, lsaSize]
  split
  case isTrue h => rw [if_neg (by omega)]
  case isFalse h => rw [if_pos (by omega)]

theorem execMailboxUnsupported_of_reach {op : BitVec 16} (hreach : s.mboxReach view.val = true)
    (hsup : s.opSupported view.val op.toNat = false) :
    execMailboxUnsupported view op s = .next (mboxDone view.val op.toNat rcUnsupported [] s) := by
  simp [execMailboxUnsupported, hreach, hsup, reply]

end

/-- Settles O34: a query runs by `mbox_of_runs` and answers by its line of the command table. -/
theorem mailboxQueriesAreAnswered : Obligations.MailboxQueriesAreAnswered := by
  unfold Obligations.MailboxQueriesAreAnswered
  refine ⟨fun view s => ?queries, fun view log s h => ?records, fun view off len s h => ?lsa, fun view dpa len s => ⟨?poison, ?scan⟩,
    fun view op s => execMailboxUnsupported_of_reach⟩
  case queries =>
    refine ⟨?identify, ?status, ?limit, ?policy, ?fw, ?time, ?logs, ?log, ?memory, ?partition, ?health, ?alerts, ?shutdown, ?results,
      ?dcConfig, ?dcList, ?ldInfo, ?alloc, ?qos, ?plates, ?fields⟩
    case identify => exact fun h => ⟨_, rfl, query_answers h rfl⟩
    case status => exact fun h => ⟨fun b hb => query_answers h (mboxRun_status_of_running hb),
      fun b hb hl => query_answers h (mboxRun_status_of_ended hb hl)⟩
    case limit => exact fun h => ⟨_, rfl, query_answers h rfl⟩
    case policy => exact fun h => query_answers h rfl
    case fw => exact fun h => query_answers h rfl
    case time => exact fun h => query_answers h rfl
    case logs => exact fun h => ⟨_, query_answers h rfl⟩
    case log => exact fun h => query_answers h rfl
    case memory => exact fun h => query_answers h rfl
    case partition => exact fun h => query_answers h rfl
    case health => exact fun h => query_answers h rfl
    case alerts => exact fun h => query_answers h rfl
    case shutdown => exact fun h => query_answers h rfl
    case results => exact fun h => query_answers h rfl
    case dcConfig => exact fun h => query_answers h rfl
    case dcList => exact fun h => query_answers h rfl
    case ldInfo => exact fun h => ⟨_, _, query_answers h rfl⟩
    case alloc => exact fun h => query_answers h rfl
    case qos => exact fun h => ⟨_, rfl, query_answers h rfl⟩
    case plates => exact fun h => ⟨_, by simp, query_answers h rfl⟩
    case fields => exact fun h => ⟨_, query_answers h rfl⟩
  case records =>
    exact (mboxDo_of_runs h (mboxRun_eventRecords log.toNat)).trans (by split <;> rfl)
  case lsa =>
    exact (mboxDo_of_runs h (mboxRun_lsa off.toNat len.toNat)).trans (by split <;> rfl)
  case poison => exact fun h => query_answers h rfl
  case scan => exact fun h => ⟨_, query_answers h rfl⟩

end Sys2Proof.Machine
end

section
/-! PROOFS. The statement of 02_host_port.md, "Dynamic capacity": what erases, what moves capacity, what a parked device answers. -/

namespace Sys2Proof.Machine

/-! ### Lists of pairs and triples in a payload -/

theorem pairsOf_flatMap (es : List (Nat × Nat)) : pairsOf (es.flatMap (fun e => [e.1, e.2])) = es := by
  induction es with
  | nil => rfl
  | cons e es ih => exact congrArg (e :: ·) ih

theorem triplesOf_flatMap {α : Type} (f : α → Nat × Nat × Nat) (l : List α) :
    triplesOf (l.flatMap (fun a => [(f a).1, (f a).2.1, (f a).2.2])) = l.map f := by
  induction l with
  | nil => rfl
  | cons a l ih => exact congrArg (f a :: ·) ih

theorem modLd_congr {n : Nat} {f g : LdSt → LdSt} {s : State} (h : f (s.ld n) = g (s.ld n)) : modLd n f s = modLd n g s :=
  congrArg (fun l => s.modHost (fun h => { h with lds := tput LdSt.reset h.lds n l })) h

/-! ### Erasing and capacity (R24 to R26, R38, 03_translation.md R48) -/

section
variable {view : Nat} {s : State}

theorem mboxRun_sanitize : mboxRun ⟨view, 0x4400, [], none⟩ s = mboxErase ⟨view, 0x4400, [], none⟩ s := (rfl)
theorem mboxRun_secureErase : mboxRun ⟨view, 0x4401, [], none⟩ s = mboxErase ⟨view, 0x4401, [], none⟩ s := (rfl)
theorem mboxRun_dcAdd (payload : List Nat) :
    mboxRun ⟨view, 0x4802, payload, none⟩ s = mboxDcAdd ⟨view, 0x4802, payload, none⟩ s := (rfl)
theorem mboxRun_dcRelease (payload : List Nat) :
    mboxRun ⟨view, 0x4803, payload, none⟩ s = mboxDcRelease ⟨view, 0x4803, payload, none⟩ s := (rfl)
theorem mboxRun_setAlloc (payload : List Nat) :
    mboxRun ⟨view, 0x5402, payload, none⟩ s = mboxSetAlloc ⟨view, 0x5402, payload, none⟩ s := (rfl)

theorem mboxErase_of_ld {op : Nat} (hfree : (s.ld view).bg = none) (hld : view < 16) : mboxErase ⟨view, op, [], none⟩ s =
    keyAdvance (keyOwn 7 view (wpSet view wpSanitize (modLd view (fun l => { l with bg := some ⟨op, 0, 0⟩ })
      (mboxDone view op rcBackground [] s)))) := by
  simp only [mboxErase, hfree, hld, reply, Option.isSome_none, Bool.false_eq_true, if_false, if_true]

theorem mboxErase_of_mgmt {op : Nat} (hfree : (s.ld view).bg = none) (hmgmt : view = mgmtView) : mboxErase ⟨view, op, [], none⟩ s =
    bgEnd view rcOk (modLd view (fun l => { l with bg := some ⟨op, 0, 0⟩ }) (mboxDone view op rcBackground [] s)) := by
  have hld : ¬ view < 16 := by rw [hmgmt]; decide
  simp only [mboxErase, hfree, hld, reply, Option.isSome_none, Bool.false_eq_true, if_false]

/-- Extents that fit the region and the capacity are added. -/
theorem mboxDcAdd_of_fit {es acc : List (Nat × Nat)} (hadd : extAdd (s.ld view).dcRegion es (s.ld view).extents = some acc)
    (hcap : s.usedBlocks + extBlocks es ≤ s.userBlocks) : mboxDcAdd ⟨view, 0x4802, es.flatMap (fun e => [e.1, e.2]), none⟩ s =
      mboxDone view 0x4802 rcOk [] (dcEvent view 4 (ldStatus view (ldCfg view (modLd view (fun l => { l with extents := acc }) s)))) := by
  simp only [mboxDcAdd, pairsOf_flatMap, hadd, if_neg (Nat.not_lt.mpr hcap), reply]

theorem mboxDcAdd_of_misfit {es : List (Nat × Nat)} (hadd : extAdd (s.ld view).dcRegion es (s.ld view).extents = none) :
    mboxDcAdd ⟨view, 0x4802, es.flatMap (fun e => [e.1, e.2]), none⟩ s = mboxDone view 0x4802 rcInvalidInput [] s := by
  simp only [mboxDcAdd, pairsOf_flatMap, hadd, reply]

theorem extAdd_one {region : Nat} {e : Nat × Nat} {l : List (Nat × Nat)} (hpos : 0 < e.2) (hfit : e.1 + e.2 ≤ region)
    (hclear : l.any (extMeet e) = false) : extAdd region [e] l = some (l ++ [e]) := by
  simp [extAdd, hpos, hfit, hclear]

theorem mboxDcRelease_of_held {es : List (Nat × Nat)} (h : (extSub es (s.ld view).extents).isSome = true) :
    mboxDcRelease ⟨view, 0x4803, es.flatMap (fun e => [e.1, e.2]), none⟩ s = releaseGo (s.modHost (fun h =>
      { h with releases := h.releases ++ [⟨view, 0x4803, es.flatMap (fun e => [e.1, e.2]), none⟩] })) := by
  simp only [mboxDcRelease, pairsOf_flatMap]
  exact if_neg (by simp [Option.isSome_iff_ne_none.mp h])

theorem mboxDcRelease_of_foreign {es : List (Nat × Nat)} (h : (extSub es (s.ld view).extents).isSome = false) :
    mboxDcRelease ⟨view, 0x4803, es.flatMap (fun e => [e.1, e.2]), none⟩ s = mboxDone view 0x4803 rcInvalidInput [] s := by
  simp only [mboxDcRelease, pairsOf_flatMap]
  exact if_pos (by simpa using h)

/-- The triples that Set LD Allocations takes. -/
def allocTriples (alloc : List (Fin 16 × Nat × Nat)) : List (Nat × Nat × Nat) := alloc.map (fun a => (a.1.val, a.2.1, a.2.2))

/-- An allocation that fits the capacity and the arrays, while none moves and no folio is in its way, is checked no further. -/
theorem mboxSetAlloc_of_fit {alloc : List (Fin 16 × Nat × Nat)}
    (htotal : sumOver 16 (fun n => (s.allocOf (allocTriples alloc) n).1 + extBlocks (s.allocExt (allocTriples alloc) n)) ≤ s.userBlocks)
    (harray : s.allocOff (allocTriples alloc) 16 ≤ arrayLimit) (hmove : s.host.moveTo = [])
    (hbusy : (List.range 16).any (s.allocBusy (allocTriples alloc)) = false) :
    mboxSetAlloc ⟨view, 0x5402, alloc.flatMap (fun a => [a.1.val, a.2.1, a.2.2]), none⟩ s =
      if s.allocMoves (allocTriples alloc) = [] then mboxDone view 0x5402 rcOk [] (allocApply (allocTriples alloc) s)
      else s.modHost (fun h =>
        { h with moving := s.allocMoves (allocTriples alloc), moveTo := allocTriples alloc, movingCmd := true }) := by
  have htriples : triplesOf (alloc.flatMap (fun a => [a.1.val, a.2.1, a.2.2])) = allocTriples alloc :=
    triplesOf_flatMap (fun a : Fin 16 × Nat × Nat => (a.1.val, a.2.1, a.2.2)) alloc
  have hld : (allocTriples alloc).any (fun a => decide (16 ≤ a.1)) = false := by simp [allocTriples]
  simp only [mboxSetAlloc, htriples, hld, hbusy, hmove, decide_eq_false (Nat.not_lt.mpr htotal), decide_eq_false (Nat.not_lt.mpr harray), reply,
    Bool.or_self, Bool.false_eq_true, if_false, bne_self_eq_false]

theorem arrayMoveDone_of_idle (h : s.host.moveTo = []) : arrayMoveDone s = s := if_pos (by simp [h])

theorem arrayMoveDone_of_lookups (h : s.xlat.misses ≠ [] ∨ s.xlat.stalled ≠ []) : arrayMoveDone s = s := by
  refine if_pos ?_
  rcases h with h | h <;> simp [h]

/-- Moved arrays settle; the command that moved them is answered then. -/
theorem arrayMoveDone_of_moved (hmove : s.host.moveTo ≠ []) (hmiss : s.xlat.misses = []) (hstall : s.xlat.stalled = []) :
    arrayMoveDone s = when s.host.movingCmd (mboxDone mgmtView 0x5402 rcOk [])
      (allocApply s.host.moveTo (s.modHost (fun h => { h with moving := [], moveTo := [], movingCmd := false }))) := by
  refine (if_neg (by simp [hmove, hmiss, hstall])).trans ?_
  unfold when
  rfl

end

/-- Settles O36: the commands that erase and move capacity by the equations of their runs, the others by what meets them at the mailbox. -/
theorem mailboxErasesAndMovesCapacity : Obligations.MailboxErasesAndMovesCapacity := by
  unfold Obligations.MailboxErasesAndMovesCapacity
  refine ⟨?erase, ?parked, ?l1, ?unserved, ?dcAdd, ?release, ?foreign, ?alloc, ?moved, ?idle⟩
  case erase =>
    intro view op c s hc h hfree hld
    rcases hc with ⟨rfl, rfl⟩ | ⟨rfl, rfl⟩
    · exact mboxDo_of_runs h (mboxRun_sanitize.trans (mboxErase_of_ld hfree hld))
    · exact mboxDo_of_runs h (mboxRun_secureErase.trans (mboxErase_of_ld hfree hld))
  case parked =>
    intro view op c s hc hreach hsup hserved hmode
    rcases hc with ⟨rfl, rfl⟩ | ⟨rfl, rfl⟩ | ⟨rfl, d, n, l, rfl⟩ <;>
      exact next_after_congr (mbox_of_parked_busy hreach hsup hserved hmode (by decide))
  case l1 =>
    exact fun view s hreach hsup hserved hmode hl1 => next_after_congr (mbox_of_parked_l1 hreach hsup hserved hmode hl1 (by decide))
  case unserved => exact fun view s hreach hsup hserved => next_after_congr (mbox_of_not_served hreach hsup hserved)
  case dcAdd =>
    intro view e s h hpos hfit hclear hcap
    have hadd := extAdd_one hpos hfit hclear
    have hused : s.usedBlocks + extBlocks [e] ≤ s.userBlocks := by simpa [extBlocks] using hcap
    refine (mboxDo_of_runs h ((mboxRun_dcAdd _).trans (mboxDcAdd_of_fit hadd hused))).trans ?_
    rw [Says.answer, modLd_congr (g := fun l => { l with extents := l.extents ++ [e] }) rfl]
  case release => exact fun view es s h hheld => mboxDo_of_runs h ((mboxRun_dcRelease _).trans (mboxDcRelease_of_held hheld))
  case foreign => exact fun view es s h hheld => mboxDo_of_runs h ((mboxRun_dcRelease _).trans (mboxDcRelease_of_foreign hheld))
  case alloc =>
    intro view alloc s h l htotal harray hmove hbusy
    have hrun := mboxDo_of_runs h ((mboxRun_setAlloc _).trans (mboxSetAlloc_of_fit htotal harray hmove hbusy))
    exact ⟨fun hno => hrun.trans (next_after_congr (if_pos hno)), fun hsome => hrun.trans (next_after_congr (if_neg hsome))⟩
  case moved =>
    intro s hmove hmiss hstall hcmd
    refine next_after_congr ((arrayMoveDone_of_moved hmove hmiss hstall).trans ?_)
    rw [hcmd]
    rfl
  case idle => exact fun s h => next_after_congr (arrayMoveDone_of_idle h)

end Sys2Proof.Machine
end

section
/-! PROOFS. Refutation of a statement of 02_host_port.md, "Mailbox commands": Transfer FW leaves the power domains as they are. -/

namespace Sys2Proof.Machine

/-- An image whose header fails its check. -/
def badHeaderImage : Image :=
  ⟨false, false, false, false, false, 0, none, 0, 0, 0, false, 0, [], 0, 0, [], [], [], [], Scripts.builtIn, [], [], false, [], ⟨0, 0⟩, ⟨0, 0⟩, []⟩

/-- The start is over, port 0 is up, and domain 0 is on although the device sequencer is off: `pdSettle` would turn it off. -/
def transferWitness : State :=
  setF F.GLB_START_STATUS_STAGE stageReady (modPort 0 (fun p => { p with up := true }) (setPd 0 .on State.reset))

theorem transferWitness_runs : Says.mboxRuns mgmtView 0x0201 transferWitness := by
  unfold Says.mboxRuns
  decide +kernel

/-- The state when the staging of the image has failed. -/
def transferRefused : State :=
  let u := imageStage badHeaderImage (modLd mgmtView (fun l => { l with bg := some ⟨0x0201, 0, 0⟩ })
    (mboxDone mgmtView 0x0201 rcBackground [] transferWitness))
  bgEnd mgmtView (if u.1 then rcOk else rcFwInvalid) u.2

theorem mbox_transferWitness : mbox ⟨mgmtView, 0x0201, [2], some badHeaderImage⟩ transferWitness = transferRefused := by
  decide +kernel

theorem exec_transferWitness : exec (.transferFw 16 2 badHeaderImage) transferWitness = .next (after transferRefused) :=
  next_after_congr mbox_transferWitness

theorem pd_after_transferRefused : (after transferRefused).pd 0 = .on := by decide +kernel

theorem pd_domeAfter_transferRefused : (domeAfter transferRefused).pd 0 = .off := by decide +kernel

/-- Refutes O35: the statement brings the power domains to what R315 asks after Transfer FW; the command does not. -/
theorem not_mailboxCommandsAct : ¬ Obligations.MailboxCommandsAct := by
  unfold Obligations.MailboxCommandsAct
  rintro ⟨-, -, htransfer, -⟩
  have hstage : transferWitness.stage ≠ stageMailbox := by decide +kernel
  have hsays : exec (.transferFw 16 2 badHeaderImage) transferWitness = .next (domeAfter transferRefused) :=
    htransfer 16 2 badHeaderImage transferWitness transferWitness_runs hstage rfl rfl rfl
  have hsame : after transferRefused = domeAfter transferRefused := Host.Outcome.next.inj (exec_transferWitness.symm.trans hsays)
  have hpd : PdState.on = .off := by rw [← pd_after_transferRefused, hsame, pd_domeAfter_transferRefused]
  exact PdState.noConfusion hpd

end Sys2Proof.Machine
end

section
/-! PROOFS. The statement of 05_drift_and_references.md about measurements: how one starts, halves its interval and ends, the scrub, the query. -/

namespace Sys2Proof.Machine

/-- A write of a register through its map changes the register fields alone. -/
theorem storeAt_modRegs_const (off v : Nat) (s : State) (r : Tbl Nat) : (storeAt off v s).modRegs (fun _ => r) = s.modRegs (fun _ => r) := by
  unfold storeAt
  split
  · exact seqAll_writeFld_modRegs_const ..
  · rfl

theorem storeAt_drift (off v : Nat) (s : State) : (storeAt off v s).drift = s.drift :=
  have h := congrArg (fun t : State => t.drift) (storeAt_modRegs_const off v s [])
  h

/-! ### Measurements (R114 to R116, R120) -/

section
variable {set member cls : Nat} {sweep : Bool} {s : State}

/-- A set without a measurement gets its own. -/
theorem measStart_of_new (hforce : s.on F.DRIFT_CTL_FORCE_EN = false) (hset : s.set4 set = true) (hnew : ∀ m ∈ s.drift.meas, m.set ≠ set) :
    measStart set member cls sweep s =
      sweepStatus (s.modDrift (fun d => { d with meas := d.meas ++ [⟨set, member, cls, 0, 0, 15, 576, sweep⟩] })) := by
  have hany : s.drift.meas.any (fun m => m.set == set) = false := by simpa using hnew
  simp only [measStart, hforce, hset, hany, Bool.not_true, Bool.or_self, Bool.false_eq_true, if_false]

/-- A set that is measured keeps the lower class of the two. -/
theorem measStart_of_known (hforce : s.on F.DRIFT_CTL_FORCE_EN = false) (hset : s.set4 set = true) (hknown : ∃ m ∈ s.drift.meas, m.set = set) :
    measStart set member cls sweep s =
      s.modDrift (fun d => { d with meas := d.meas.map (fun m => if m.set = set then { m with cls := min m.cls cls } else m) }) := by
  have hany : s.drift.meas.any (fun m => m.set == set) = true := by simpa using hknown
  simp only [measStart, hforce, hset, hany, Bool.not_true, Bool.or_self, Bool.false_eq_true, if_false, if_true]

theorem execDriftDue_of_due {set : Fin 1048576} (hmode : s.glb.mode = .active) (hdrain : s.dur.drain = 0) (hdue : s.isDue set.val = true) :
    execDriftDue set s = .next (measStart set.val (s.measOwn set.val) 6 false s) :=
  next_congr (if_pos ⟨hmode, hdrain, hdue⟩)

end

section
variable {m : Meas} {e14 e15 : Nat} {s : State}

/-- The other measurements go on as they are; of a single one the interval is replaced. -/
theorem meas_of_one (h : s.drift.meas = [m]) (lo hi best : Nat) : ((cnt bDRIFT 1 1 s).modDrift (fun d => { d with meas := d.meas.map (fun x =>
    if x.set = m.set then { x with lo := lo, hi := hi, best := best } else x) })).drift.meas = [{ m with lo := lo, hi := hi, best := best }] := by
  change s.drift.meas.map _ = _
  simp [h]

/-- E15 not below E14: the optimum lies below the middle. -/
theorem measProbe_of_lower (hle : e14 ≤ e15) (hwide : m.lo < (m.lo + m.hi + 1) / 2 - 1) : measProbe m e14 e15 s =
    (cnt bDRIFT 1 1 s).modDrift (fun d => { d with meas := d.meas.map (fun x =>
      if x.set = m.set then { x with lo := m.lo, hi := (m.lo + m.hi + 1) / 2 - 1, best := min m.best (e14 + e15) } else x) }) := by
  simp only [measProbe, if_neg (Nat.not_lt.mpr hle), if_pos hwide]

theorem measProbe_of_upper (hlt : e15 < e14) (hwide : (m.lo + m.hi + 1) / 2 < m.hi) : measProbe m e14 e15 s =
    (cnt bDRIFT 1 1 s).modDrift (fun d => { d with meas := d.meas.map (fun x =>
      if x.set = m.set then { x with lo := (m.lo + m.hi + 1) / 2, hi := m.hi, best := min m.best (e14 + e15) } else x) }) := by
  simp only [measProbe, if_pos hlt, if_pos hwide]

/-- An interval of one position gives the record. -/
theorem measProbe_of_found (hlt : e15 < e14) (hone : m.hi ≤ (m.lo + m.hi + 1) / 2) (herr : min m.best (e14 + e15) ≤ s.get F.DRIFT_MEAS_CFG_MAX_ERR) :
    measProbe m e14 e15 s = cnt bDRIFT 0 1 (measServe m.set (measRemove m.set (writeDrec m.set m.row m.member ((m.lo + m.hi + 1) / 2)
      (cnt bDRIFT 1 1 s)))) := by
  simp only [measProbe, if_pos hlt, if_neg (Nat.not_lt.mpr hone), if_neg (Nat.not_lt.mpr herr)]

end

/-! ### The scrub (R126, R128) -/

section
variable {leaves : List ScrubLeaf} {set : Nat} {wrapped : Bool} {s : State}
  (hen : s.on F.DRIFT_CTL_SCRUB_EN = true) (hmode : s.glb.mode = .active) (hdrain : s.dur.drain = 0) (hnext : s.scrubNext = some (set, wrapped))
include hen hmode hdrain hnext

theorem scrubVisit_of_busy (hwaits : s.scrubWaits set = true) : scrubVisit leaves s = measOwnStart set false s := by
  simp only [scrubVisit, hen, hmode, hdrain, hnext, hwaits, decide_true, BEq.rfl, Bool.and_self, if_true]

/-- A visit ends with the position past its set. -/
theorem scrubVisit_of_free (hwaits : s.scrubWaits set = false) : ∃ n u, scrubVisit leaves s = incF F.DRIFT_SCRUB_POS_PASSES n
    (setF F.DRIFT_SCRUB_POS_SET (if !s.usedSets.any (fun x => decide (set < x)) then 0 else set + 1) u) := by
  simp only [scrubVisit, hen, hmode, hdrain, hnext, hwaits, decide_true, BEq.rfl, Bool.and_self, if_true, Bool.false_eq_true, if_false]
  exact ⟨_, _, rfl⟩

theorem scrubVisit_get_pos (hwaits : s.scrubWaits set = false) : (scrubVisit leaves s).get F.DRIFT_SCRUB_POS_SET =
    if ∃ x ∈ s.usedSets, set < x then (set + 1) % 2 ^ 20 else 0 := by
  obtain ⟨n, u, h⟩ := scrubVisit_of_free (leaves := leaves) hen hmode hdrain hnext hwaits
  rw [h, State.get_incF_ne _ _ (by decide), State.get_setF_self]
  by_cases hmore : ∃ x ∈ s.usedSets, set < x
  · rw [if_pos hmore, if_neg (by simpa using hmore)]
    rfl
  · rw [if_neg hmore, if_pos (by simpa using hmore)]
    rfl

end

/-! ### The query and the forced class (R121, R129, R130) -/

section
variable {n v : Nat} {s : State}

theorem driftQuery_get (hgo : n.testBit 63 = true) : (driftQuery n s).get F.DRIFT_QUERY_RESULT_RECORD = (s.drec (n % 2 ^ 20)).word % 2 ^ 32 ∧
    (driftQuery n s).get F.DRIFT_QUERY_RESULT_DONE = 1 := by
  rw [driftQuery, if_pos hgo]
  refine ⟨?_, State.get_setF_one _ rfl⟩
  rw [State.get_setF_ne _ _ (by decide), State.get_setF_self]
  rfl

/-- FORCE_EN ends every measurement, and serves the reads that waited for one. -/
theorem driftCtl_of_forcing (hnew : (storeAt 0x300000 v s).on F.DRIFT_CTL_FORCE_EN = true) (hold : s.on F.DRIFT_CTL_FORCE_EN = false) :
    driftCtl v s = logPut sevWarning 0x0703 ((storeAt 0x300000 v s).get F.DRIFT_CTL_FORCE_CLASS) 0 0 0
      (seqAll measServe ((storeAt 0x300000 v s).drift.meas.map (·.set)) (sweepStatus ((storeAt 0x300000 v s).modDrift (fun d => { d with meas := [] })))) := by
  simp only [driftCtl, hnew, hold, Bool.not_false, Bool.and_self, if_true]

theorem driftCtl_of_kept (h : (storeAt 0x300000 v s).on F.DRIFT_CTL_FORCE_EN = false ∨ s.on F.DRIFT_CTL_FORCE_EN = true) :
    driftCtl v s = storeAt 0x300000 v s := by
  rcases h with h | h <;> simp only [driftCtl, h, Bool.false_and, Bool.not_true, Bool.and_false, Bool.false_eq_true, if_false]

end

/-- Settles O18: each row by its equation in the case the statement names. -/
theorem driftIsMeasuredScrubbedAndQueried : Obligations.DriftIsMeasuredScrubbedAndQueried := by
  unfold Obligations.DriftIsMeasuredScrubbedAndQueried
  refine ⟨fun s hmode => ?minute, fun set s hmode hdrain hdue hforce hset hnone => ?due, fun m e14 e15 s hone hle hwide => ?lower,
    fun m e14 e15 s hone hlt hwide => ?upper, fun m e14 e15 s => measProbe_of_found,
    fun set wrapped s hen hmode hdrain hnext hwaits hsmall hmore => ?scrub, fun m v s hgo => ⟨_, rfl, driftQuery_get hgo⟩,
    fun m v s => ?force, fun m v s h => next_congr (driftCtl_of_kept (.inl h))⟩
  case minute =>
    refine ⟨_, next_congr (if_pos hmode), rfl, ?_⟩
    rw [State.get_setF_self]
    rfl
  case due =>
    refine (execDriftDue_of_due hmode hdrain hdue).trans (next_congr ((measStart_of_new hforce hset (by simp [hnone])).trans ?_))
    simp only [hnone, State.modDrift, List.nil_append]
  case lower => rw [measProbe_of_lower hle hwide, meas_of_one hone]
  case upper => rw [measProbe_of_upper hlt hwide, meas_of_one hone]
  case scrub =>
    refine ⟨_, rfl, ?_⟩
    rw [scrubVisit_get_pos hen hmode hdrain hnext hwaits, if_pos hmore, Nat.mod_eq_of_lt hsmall]
  case force =>
    intro u hnew hold hnone
    refine next_congr ((driftCtl_of_forcing hnew hold).trans ?_)
    rw [storeAt_drift, hnone]
    rfl

end Sys2Proof.Machine
end

section
/-! PROOFS. The statement of 05_drift_and_references.md, 06_field_management.md and 07_durability.md about every drift, field and durability row. -/

namespace Sys2Proof.Machine

/-! ### Copying jobs on a mover that is free or yields (R145, R147, R155) -/

section
variable {m g job set : Nat} {leaves : List SlotLeaf} {pick : State → Option (Nat × State)} {s u t : State}
  (hjob : (s.mover m).job ≠ job) (hnext : s.jobNext job = true) (htake : moverTake m job s = some u)
include hjob hnext htake

/-- A job that yielded before goes on where it was. -/
theorem copyJob_of_paused {v : Mover} (hv : u.fld.paused.find? (fun v => v.job == job) = some v) : copyJob m g job leaves pick s =
    copyBatch m g leaves (moverStart m v (u.modFld (fun f => { f with paused := f.paused.erase v }))) := by
  simp only [copyJob, if_neg hjob, if_pos hnext, htake, hv]

theorem copyJob_of_picked (hnone : u.fld.paused.find? (fun v => v.job == job) = none) (hpick : pick u = some (set, t)) :
    copyJob m g job leaves pick s = copyBatch m g leaves (takeSet m job set t) := by
  simp only [copyJob, if_neg hjob, if_pos hnext, htake, hnone, hpick]

end

section
variable {m : Fin 4} {g : Fin 32} {job : Nat} {leaves : List SlotLeaf} {pick : State → Option (Nat × State)} {s : State} {c : Instr}

theorem jobTaken_of_copyJob (hc : exec c s = .next (copyJob m.val g.val job leaves pick s)) : Says.jobTaken c m g job leaves pick s :=
  fun _ hjob hnext htake => ⟨fun _ hv => hc.trans (next_congr (copyJob_of_paused hjob hnext htake hv)),
    fun _ _ hnone hpick => hc.trans (next_congr (copyJob_of_picked hjob hnext htake hnone hpick))⟩

/-- A rewrite job first drops the fields that leave the rewrite queue (R151). -/
theorem execRewriteJob_of_next (hjob : (s.mover m.val).job ≠ jobRewrite) (hen : s.on F.FLD_CTL_REWRITE_EN = true)
    (hmode : s.jobMode jobRewrite = true) : execRewriteJob m g leaves s = .next (copyJob m.val g.val jobRewrite leaves
      (fun t => t.rewritePick.map (fun f => (fieldSet f, victimShow (fieldSet f) jobRewrite (t.score (fieldSet f))
        (setF F.DRIFT_RWQ_DEPTH (t.drift.rwq.length - 1) (t.modDrift (fun d => { d with rwq := d.rwq.filter (· != f) })))))) (rwqDrop s)) := by
  rw [execRewriteJob, if_pos ⟨hjob, hen, hmode⟩]

theorem execRewriteJob_of_running (hjob : (s.mover m.val).job = jobRewrite) (hmode : s.jobMode jobRewrite = true) :
    execRewriteJob m g leaves s = .next (copyBatch m.val g.val leaves s) := by
  rw [execRewriteJob, if_neg (fun h => h.left hjob)]
  exact next_congr (copyJob_of_running hjob hmode)

end

/-! ### Verify (R140, R141) -/

/-- A verify job that may go decides by the set's fields once its bad leaves are counted. -/
theorem verifyJob_of_taken {m set : Nat} {leaves : List BadLeaf} {l : List Nat} {s u : State} (hnext : s.jobNext jobVerify = true)
    (htake : moverTake m jobVerify s = some u) (hq : s.fld.verifyQ = set :: l)
    (hmay : u.mayGo classMover 0 (u.setRows set * (u.verifyMembers set).length * 16384) = true)
    (harr : ∀ k ∈ u.verifyMembers set, u.unitHow (setPfa set k 2) false = .array) :
    ∃ x, verifyJob m leaves s = moverIdle m (if x.setBad set then
        fldRecount (relocate set (x.modFld (fun f => { f with verifyQ := f.verifyQ.filter (· != set) }))) else setVerified set x) ∧
      ∃ y, x = incF (F.FLD_MOV_STATUS_DONE_UNITS m) (7 * u.setRows set) (seqAll (verifyLeaf set) (leaves.filter (fun b =>
        (u.verifyMembers set).contains b.member.val && decide (2 ≤ b.row) && decide (b.row < u.setRows set + 2))) y) := by
  have hserved : (u.verifyMembers set).find? (fun k => u.unitHow (setPfa set k 2) false != .array) = none := by
    simpa [List.find?_eq_none] using harr
  rw [verifyJob, if_pos hnext, htake, hq]
  simp only [hmay, hserved]
  exact ⟨_, rfl, _, rfl⟩

/-! ### Seal (R154) -/

section
variable {m g ld f : Nat} {leaves : List SlotLeaf} {s u x : State}
  (hx : x = u.modXlat (fun x => { x with splits := x.splits.filter (· != (ld, f)) ++ [(ld, f)] }))
  (hjob : (s.mover m).job ≠ jobSeal) (hnext : s.jobNext jobSeal = true) (hroom : 64 ≤ min (s.get F.FLD_BUF_CFG_MOV_TOKENS) s.frameFree)
  (hmay : s.copyMay 64 = true) (htake : moverTake m jobSeal s = some u)
  (hlist : u.on F.XLAT_POOL_STATUS_CRIT = true ∨ u.fld.sealQ = []) (hfirst : u.sealFromList = some (ld, f))
include hx hjob hnext hroom hmay htake hlist hfirst

/-- The seal of the oldest folio split: one to skip ends the job with its counter; one to seal, whose sources can all be read, is copied. -/
theorem sealJob_of_listed :
    (x.sealHow ld f = .skip → sealJob m g leaves s = cnt bFLD (3 + jobSeal) 1 (moverSkip m 1 x)) ∧
    (x.sealHow ld f = .go →
      (∀ i < 64, frState (x.frameOfFolio (x.folio ld f) i) = 1 → x.moverHow (frLoc (x.frameOfFolio (x.folio ld f) i)) ≠ .wait ∧
        x.moverHow (frLoc (x.frameOfFolio (x.folio ld f) i)) ≠ .gone ∧ x.lostLeaf m leaves i = none) →
      sealJob m g leaves s = sealCopy m (s.placeGroup g) ld f none leaves x) := by
  have hfrom : ((u.on F.XLAT_POOL_STATUS_CRIT || u.fld.sealQ == []) && u.sealFromList.isSome) = true := by
    rcases hlist with h | h <;> simp [h, hfirst]
  rw [sealJob, if_neg hjob, if_pos (by simp [hnext, hroom, hmay]), htake]
  simp only [hfrom, if_true]
  simp only [hfirst, Option.map_some, ← hx]
  refine ⟨fun how => by simp only [how, ringSealed], fun how hsrc => ?_⟩
  have hserved : ((List.range 64).filter (fun i => frState (x.frameOfFolio (x.folio ld f) i) == 1)).find?
      (fun i => x.moverHow (frLoc (x.frameOfFolio (x.folio ld f) i)) == .wait) = none := by
    simp only [List.find?_eq_none, List.mem_filter, List.mem_range, beq_iff_eq]
    exact fun i ⟨hlt, hmedia⟩ => (hsrc i hlt hmedia).left
  have hread : ((List.range 64).filter (fun i => frState (x.frameOfFolio (x.folio ld f) i) == 1)).filter
      (fun i => x.moverHow (frLoc (x.frameOfFolio (x.folio ld f) i)) == .gone || (x.lostLeaf m leaves i).isSome) = [] := by
    simp only [List.filter_eq_nil_iff, List.mem_filter, List.mem_range, beq_iff_eq, Bool.or_eq_true, not_or]
    intro i ⟨hlt, hmedia⟩
    obtain ⟨-, hgone, hkept⟩ := hsrc i hlt hmedia
    exact ⟨hgone, by simp [hkept]⟩
  simp only [how, hserved, hread]

end

theorem sealJob_of_running {m g : Nat} {leaves : List SlotLeaf} {s : State} (hjob : (s.mover m).job = jobSeal)
    (hcold : s.coldWaits jobSeal = false) (hmode : s.jobMode jobSeal = true) : sealJob m g leaves s = retarget (s.placeGroup g) m s := by
  rw [sealJob, if_pos hjob, if_neg (by simp [hcold, hmode])]

/-! ### The wear campaign and the verify switch (R143, R150) -/

section
variable {v : Nat} {s : State}

theorem wearCmd_of_stop (hstop : v.testBit 1 = true) : wearCmd v s = wearStop s := if_pos hstop

theorem wearCmd_of_start (hstop : v.testBit 1 = false) (hstart : v.testBit 0 = true) : wearCmd v s = campaignStart s := by
  simp only [wearCmd, hstop, hstart, Bool.false_eq_true, if_false, if_true]

theorem wearStop_without_jobs (hmovers : ∀ p ∈ s.fld.movers, p.2.job ≠ jobWear) (hpaused : ∀ p ∈ s.fld.paused, p.job ≠ jobWear) :
    wearStop s = campaignStop s := by
  refine if_neg ?_
  simpa using ⟨fun a p hp => hmovers (a, p) hp, hpaused⟩

theorem wearStop_with_job (h : (∃ p ∈ s.fld.movers, p.2.job = jobWear) ∨ ∃ p ∈ s.fld.paused, p.job = jobWear) :
    wearStop s = s.modFld (fun f => { f with campaignEnd := true }) := by
  refine if_pos ?_
  rcases h with ⟨⟨a, p⟩, hp, hjob⟩ | ⟨p, hp, hjob⟩
  · simpa using .inl ⟨a, p, hp, hjob⟩
  · simpa using .inr ⟨p, hp, hjob⟩

theorem campaignStop_get (s : State) :
    (campaignStop s).get F.FLD_STATUS_WEAR_ACTIVE = 0 ∧ (campaignStop s).get F.FLD_WEAR_STATUS_CAMPAIGN = 0 := by
  rw [campaignStop]
  refine ⟨?_, State.get_setF_lt _ (by decide)⟩
  rw [State.get_setF_ne _ _ (by decide)]
  exact State.get_setF_lt _ (by decide)

/-- A write that leaves VERIFY_EN set only stores. -/
theorem fldCtl_of_verify_on (h : (storeAt 0x80000 v s).on F.FLD_CTL_VERIFY_EN = true) : fldCtl v s = storeAt 0x80000 v s := by
  simp only [fldCtl, h, Bool.not_true, Bool.and_false, Bool.false_eq_true, if_false]

end

/-! ### Hold-up and checkpoints (R171, R181, R185, R186) -/

section
variable {v : Nat} {c : Ckpt} {s : State}

theorem huOkChange_rise (s : State) : (huOkChange true s).dur.huRose = true := by
  rw [huOkChange, Bool.not_true, Bool.and_false, Bool.false_and]
  exact Bool.or_true _

theorem ckptStart_of_writing (h : s.dur.writing.isSome = true) (clean : Bool) : ckptStart clean s = s := if_pos h

theorem execCkptPeriod_of_writing (hauto : s.on F.DUR_CTL_CKPT_AUTO = true) (hdrain : s.dur.drain = 0)
    (hmode : s.glb.mode = .active ∨ s.glb.mode = .quiet) (h : s.dur.writing.isSome = true) :
    execCkptPeriod s = .next (s.modDur (fun d => { d with ckptDue := true })) := by
  simp [execCkptPeriod, hauto, hdrain, hmode, h]

/-- A checkpoint that has its credit ends with the write of one of the two pointers. -/
theorem ckptComplete_writes_pointer (hw : s.dur.writing = some c) (hgo : c.clean = true ∨ s.mayGo classMover 1 (s.ckptBytes c) = true) :
    ∃ (t : State) (l : List Nat), t.ckptView = (s.dur.ckpts, none, s.alm.wp) ∧
      ckptComplete s = if (almDevice (ptrAddr (if s.ptrSeq 1 < s.ptrSeq 0 then 1 else 0)) l t).1 then
        ckptNext (ckptKeep (ckptNewest c (almDevice (ptrAddr (if s.ptrSeq 1 < s.ptrSeq 0 then 1 else 0)) l t).2))
      else ckptNext (setErr F.DUR_ERR_STATUS_CKPT_FAIL intDur (almDevice (ptrAddr (if s.ptrSeq 1 < s.ptrSeq 0 then 1 else 0)) l t).2) := by
  have hcredit : ¬ (!c.clean && !s.mayGo classMover 1 (s.ckptBytes c)) = true := by
    rcases hgo with h | h <;> simp [h]
  obtain ⟨table, drawn, htable, hdrawn⟩ := ckptTable_eq_pair
  obtain ⟨ok, stored, hdevice⟩ := almDevice_eq_pair
  rw [ckptComplete, hw, htable, hdevice]
  refine ⟨_, _, ?view, (if_neg hcredit).trans rfl⟩
  refine (when_ckptView fun t => takeCredit_ckptView _ t _ _).trans ((seqAll_ckptView fun x t => closeSet_ckptView x t false).trans ?_)
  rcases c.hdr with _ | ⟨_, _ | _⟩ <;> exact hdrawn c _

theorem almDevice_pointer_of_protected (p : Prop) [Decidable p] (l : List Nat) (h : s.alm.wp = true) :
    almDevice (ptrAddr (if p then 1 else 0)) l s = (false, setErr F.ALM_ERR_STATUS_WP_REFUSE intAlm s) := by
  have hprot : almProtected (ptrAddr (if p then 1 else 0)) = true := by split <;> decide
  simp only [almDevice, h, hprot, Bool.and_self, if_true]

/-- Under write protection the pointer cannot be written: the checkpoint fails. -/
theorem ckptComplete_of_protected (hw : s.dur.writing = some c) (hwp : s.alm.wp = true)
    (hgo : c.clean = true ∨ s.mayGo classMover 1 (s.ckptBytes c) = true) :
    ∃ u, ckptComplete s = ckptNext (setErr F.DUR_ERR_STATUS_CKPT_FAIL intDur u) ∧ u.dur.writing = none ∧ u.dur.ckpts = s.dur.ckpts := by
  obtain ⟨t, l, hview, hend⟩ := ckptComplete_writes_pointer hw hgo
  have hprot : t.alm.wp = s.alm.wp := congrArg (fun v => v.2.2) hview
  rw [almDevice_pointer_of_protected _ l (hprot.trans hwp)] at hend
  rw [if_neg Bool.false_ne_true] at hend
  have hrefused := (setErr_ckptView F.ALM_ERR_STATUS_WP_REFUSE t intAlm).trans hview
  exact ⟨_, hend, congrArg (fun v => v.2.1) hrefused, congrArg Prod.fst hrefused⟩

end

/-- Settles O56: each row by its equation in the case the statement names. -/
theorem everyDriftFieldAndDurabilityRowCompletes : Obligations.EveryDriftFieldAndDurabilityRowCompletes := by
  unfold Obligations.EveryDriftFieldAndDurabilityRowCompletes
  refine ⟨?due, ?scrub, ?force, ?copies, ?rewrite, ?verify, ?listed, ?sealing, ?wear, fun m v s => fun h => next_congr (fldCtl_of_verify_on h),
    fun ageUs s => execLagMiss_of_uncommitted ageUs, ?holdUp, ?go, fun s => execCkptPeriod_of_writing, ?complete⟩
  case due =>
    exact fun set s hmode hdrain hdue hforce hset =>
      ⟨fun hnew => (execDriftDue_of_due hmode hdrain hdue).trans (next_congr (measStart_of_new hforce hset hnew)),
        fun hknown => (execDriftDue_of_due hmode hdrain hdue).trans (next_congr (measStart_of_known hforce hset hknown))⟩
  case scrub =>
    exact fun leaves set wrapped s hen hmode hdrain hnext =>
      ⟨fun hwaits => next_congr (scrubVisit_of_busy hen hmode hdrain hnext hwaits),
        fun hwaits => ⟨_, rfl, scrubVisit_get_pos hen hmode hdrain hnext hwaits⟩⟩
  case force =>
    exact fun m v s => ⟨fun hnew hold => next_congr (driftCtl_of_forcing hnew hold), fun h => next_congr (driftCtl_of_kept h)⟩
  case copies =>
    exact fun m g leaves s => ⟨jobTaken_of_copyJob rfl, jobTaken_of_copyJob rfl, jobTaken_of_copyJob rfl,
      fun hrun hmode => next_congr (copyJob_of_running hrun hmode), fun hrun hmode => next_congr (copyJob_of_running hrun hmode),
      execRewriteJob_of_running, fun hrun hmode => next_congr (copyJob_of_running hrun hmode)⟩
  case rewrite =>
    intro m g leaves s w u hjob hen hmode hjob' hnext htake
    have hexec := execRewriteJob_of_next (g := g) (leaves := leaves) hjob hen hmode
    exact ⟨fun v hv => hexec.trans (next_congr (copyJob_of_paused hjob' hnext htake hv)),
      fun f hnone hf => hexec.trans (next_congr (copyJob_of_picked hjob' hnext htake hnone (by rw [hf]; rfl)))⟩
  case verify =>
    intro m leaves set l s u hnext htake hq n hmay harr
    obtain ⟨x, hend, hx⟩ := verifyJob_of_taken (leaves := leaves) hnext htake hq hmay harr
    exact ⟨x, next_congr hend, hx⟩
  case listed =>
    intro m g leaves ld f s u hjob hnext hroom hmay htake hlist hfirst x
    obtain ⟨hskip, hgo⟩ := sealJob_of_listed (g := g.val) (leaves := leaves) (x := x) rfl hjob hnext hroom hmay htake hlist hfirst
    exact ⟨fun how => next_congr (hskip how), fun how hsrc => next_congr (hgo how hsrc)⟩
  case sealing => exact fun m g leaves s hjob hcold hmode => next_congr (sealJob_of_running hjob hcold hmode)
  case wear =>
    refine fun m v s => ⟨fun hstop hstart => next_congr (wearCmd_of_start hstop hstart), fun hstop hm hp => ?none,
      fun hstop hjob => next_congr ((wearCmd_of_stop hstop).trans (wearStop_with_job hjob))⟩
    case none => exact ⟨_, next_congr ((wearCmd_of_stop hstop).trans (wearStop_without_jobs hm hp)), campaignStop_get s⟩
  case holdUp =>
    refine fun level s => ⟨_, rfl, huOkChange_get_huOk level s, huOkChange_dome level s, ?fall, ?rise⟩
    case fall =>
      rintro hok rfl hmode
      exact huOkChange_fall_sets_huLow hok hmode
    case rise =>
      rintro rfl
      exact huOkChange_rise s
  case go => exact fun m v s hgo hw => next_congr ((ckptCmd_of_go hgo).trans (ckptStart_of_writing hw false))
  case complete =>
    intro c s hquiet hw hwp hgo
    obtain ⟨u, hend, hu⟩ := ckptComplete_of_protected hw hwp hgo
    exact ⟨u, (execCkptComplete_of_quiet (by simp [hquiet])).trans (next_after_congr hend), hu⟩

end Sys2Proof.Machine
end

section
/-! PROOFS. The statement of 15_shelf_bus.md, "The shelf protocol": how a command frame is served, and what each command answers and does. -/

namespace Sys2Proof.Machine

/-! ### A command frame that arrives (R355, R361) -/

section
variable {b : List Nat} {op : Nat} {f : ShelfFrame} {s : State}

/-- A frame of the device's own bank is served out of it. -/
theorem frameIn_of_framed (h : Says.framed b s) : frameIn b true true s =
    shelfServe false b ((frameStored 0 b true true s).modSbus (fun x => { x with rx := [] })) := by
  obtain ⟨haon, hmac, hmin, hmax, hbus, hen, hshelf, hrx, hstall⟩ := h
  have hfree : s.sbus.rxFree = [0, 1] := by
    rw [SbusSt.rxFree, hrx]
    rfl
  rw [frameIn_of_bank ⟨haon, hmac⟩ ⟨hmin, hmax⟩ ⟨hbus, hen⟩ (.inl rfl) (.inl hshelf) hfree, hstall, if_neg (by decide),
    rxServe_stored (hfree ▸ List.mem_cons_self), hrx]
  exact if_pos ⟨hshelf, rfl⟩

theorem shelfCmd_of_framed (h : Says.framed (Says.cmdBytes op f) s) : shelfCmd op f s = .next (domeAfter (shelfServe false (Says.cmdBytes op f)
    ((frameStored 0 (Says.cmdBytes op f) true true s).modSbus (fun x => { x with rx := [] })))) :=
  next_congr (congrArg domeAfter (frameIn_of_framed h))

theorem frameStored_rest (k : Nat) (b : List Nat) : (frameStored k b true true s).sbus.quar = s.sbus.quar ∧
    (frameStored k b true true s).host = s.host ∧ (frameStored k b true true s).glb = s.glb := ⟨rfl, rfl, rfl⟩

theorem served_of_framed {c : Instr} (hc : exec c s = shelfCmd op f s) (h : Says.framed (Says.cmdBytes op f) s) :
    Says.served c (Says.cmdBytes op f) s := by
  obtain ⟨hquar, hhost, hglb⟩ := frameStored_rest (s := s) 0 (Says.cmdBytes op f)
  exact ⟨_, hc.trans (shelfCmd_of_framed h), rfl, hquar, hhost, hglb⟩

/-- A command of a source that is not in quarantine is noted and taken. -/
theorem shelfServe_of_command (hquar : s.sbus.quar = []) (hver : (ShelfFrame.ofBytes b).ver = 1#8) (htyp : (ShelfFrame.ofBytes b).typ = 1#8) :
    shelfServe false b s = shelfCommand false (ShelfFrame.ofBytes b) (sourceSeen (ShelfFrame.ofBytes b).src.toNat s) := by
  have hfree (src : Nat) : s.sbus.quarUse src = none := by simp [SbusSt.quarUse, hquar]
  simp [shelfServe, hfree, hver, htyp]

end

/-! ### A command for this device (R356, R358 to R360) -/

section
variable {f : ShelfFrame} {n : Nat} {s : State} (htarget : f.target.toNat = s.get F.GLB_STRAPS_SHELF_ID)
include htarget

theorem shelfCommand_badOpcode (hlen : shelfLen f.opcode.toNat = none) :
    shelfCommand false f s = shelfAnswer f f.target.toNat rsBadOpcode [] s := by
  simp [shelfCommand, htarget, hlen]

theorem shelfCommand_badLength (hlen : shelfLen f.opcode.toNat = some n) (hbad : f.len.toNat ≠ n) :
    shelfCommand false f s = shelfAnswer f f.target.toNat rsBadLength [] s := by
  simp [shelfCommand, htarget, hlen, hbad]

variable (hlen : shelfLen f.opcode.toNat = some n) (hn : f.len.toNat = n) (hbody : f.body.length = n)
include hlen hn hbody

theorem shelfCommand_query (hauth : shelfAuth f.opcode.toNat = false) (hen : s.on F.SBUS_CTL_UNAUTH_RESP = true) :
    shelfCommand false f s = queryAnswer f f.target.toNat (shelfRun f f.target.toNat s).1 (shelfRun f f.target.toNat s).2.1
      (shelfRun f f.target.toNat s).2.2 := by
  simp [shelfCommand, htarget, hlen, hn, hbody, hauth, hen]

theorem shelfCommand_authentic (hauth : shelfAuth f.opcode.toNat = true) (hone : f.target.toNat ≠ 0xFF) (hok : authCheck f s = none) :
    shelfCommand false f s =
      (let r := shelfRun f f.target.toNat (s.modSbus (·.nonceTake f.src.toNat f.nonce.toNat))
      shelfAnswer f f.target.toNat r.1 r.2.1 r.2.2) := by
  rw [htarget] at hone
  simp [shelfCommand, htarget, hlen, hn, hbody, hauth, hok, hone]

theorem shelfCommand_unauthentic {st : Nat} {u : State} (hauth : shelfAuth f.opcode.toNat = true) (hbad : authCheck f s = some (st, u)) :
    shelfCommand false f s = shelfAnswer f f.target.toNat st [] u := by
  simp [shelfCommand, htarget, hlen, hn, hbody, hauth, hbad]

end

/-! ### What each command does (R14, R358 to R360) -/

section
variable {f : ShelfFrame} {own : Nat} {s : State}

theorem shelfRun_ping (h : f.opcode.toNat = opPing) : shelfRun f own s = (0, [0x40, 0x72, own, s.modeByte], s) := by
  simp [shelfRun, h, rsOk]

theorem shelfRun_status (hasst : s.assistRuns = true) (h : f.opcode.toNat = opStatus) : shelfRun f own s = (0, statusBody s, s) := by
  simp [shelfRun, h, hasst, rsOk, opPing, opStatus]

theorem shelfRun_sensors (hasst : s.assistRuns = true) (h : f.opcode.toNat = opSensors) : shelfRun f own s = (0, sensorsBody s, s) := by
  simp [shelfRun, h, hasst, rsOk, opPing, opStatus, opSensors]

/-- A target other than STANDBY starts or waits as any target does. -/
theorem shelfRun_mode {t : Byte} (hasst : s.assistRuns = true) (h : f.opcode.toNat = opMode) (hbody : f.body = [t]) (ht : t.toNat < 3)
    (hlc : s.lcs.trans = none) :
    shelfRun f own s = (0, [], pendGo (modeTarget t.toNat 2 (s.modGlb (fun g => { g with force := false })))) := by
  have hrange : ¬ 3 < t.toNat := by omega
  have hrun : t.toNat ≠ tStandby := Nat.ne_of_lt ht
  simp [shelfRun, shelfModeRun, h, hbody, hasst, hlc, hrange, hrun, rsOk, opPing, opStatus, opSensors, opMode]

theorem shelfRun_wake (hmode : s.glb.mode = .standby) (h : f.opcode.toNat = opWake) :
    shelfRun f own s = (0, [], s.modGlb (fun g => { g with wake := true })) := by
  simp [shelfRun, h, hmode, rsOk, opPing, opStatus, opSensors, opMode, opWake]

theorem shelfRun_restart (hmode : s.glb.mode = .faultHalt) (h : f.opcode.toNat = opRestart) (hperst : s.glb.perst = true) :
    shelfRun f own s = (0, [], seqOn devSeq (s.modStart (fun x => { x with source := srcRestart }))) := by
  simp [shelfRun, shelfRestartRun, h, hmode, hperst, rsOk, opPing, opStatus, opSensors, opMode, opWake, opRestart]

theorem shelfRun_plate {p a : Byte} (hasst : s.assistRuns = true) (h : f.opcode.toNat = opPlate) (hbody : f.body = [p, a]) (hp : p.toNat < 16)
    (himg : s.img.plates.testBit p.toNat = true) (hmin : 1 ≤ a.toNat) (hmax : a.toNat ≤ 3) (hlc : s.lcs.trans = none)
    (hok : s.reqOk ⟨p.toNat, a.toNat, 1⟩ = true) : shelfRun f own s = (0, [], plateReq ⟨p.toNat, a.toNat, 1⟩ s) := by
  have hplate : ¬ (15 < p.toNat ∨ (!s.img.plates.testBit p.toNat) = true) := by
    rw [himg]
    simp
    omega
  have hreq : ¬ (!s.assistRuns || s.lcs.trans.isSome || decide (a.toNat < 1) || decide (3 < a.toNat) ||
      !s.reqOk ⟨p.toNat, a.toNat, 1⟩) = true := by
    simp [hasst, hlc, hok]
    omega
  have hrun : shelfPlateRun p.toNat a.toNat s = (rsOk, plateReq ⟨p.toNat, a.toNat, 1⟩ s) := (if_neg hplate).trans (if_neg hreq)
  simp [shelfRun, h, hbody, hrun, rsOk, opPing, opStatus, opSensors, opMode, opWake, opRestart, opPlate]

theorem shelfRun_subscribe {fl tr : Byte} (hasst : s.assistRuns = true) (h : f.opcode.toNat = opSubscribe) (hbody : f.body = [fl, tr]) :
    shelfRun f own s = (0, [], s.modSbus (fun b =>
      { b with sub := some (f.src.toNat, fl.toNat, tr.toNat != 0), evSent := s.log.head })) := by
  simp [shelfRun, h, hbody, hasst, rsOk, opPing, opStatus, opSensors, opMode, opWake, opRestart, opPlate, opSubscribe]

end

/-- Settles O28: a frame is served by `frameIn_of_framed`, a command by the branch of `shelfCommand` and of `shelfRun` that it takes. -/
theorem shelfCommandsAreServed : Obligations.ShelfCommandsAreServed := by
  unfold Obligations.ShelfCommandsAreServed
  refine ⟨fun f s => ?frames, ?command, ?checks, ?bad, ?ping, ?status, ?sensors, ?mode, ?wake, ?restart, ?plate, ?subscribe⟩
  case frames =>
    exact ⟨served_of_framed rfl, served_of_framed rfl, served_of_framed rfl, served_of_framed rfl, served_of_framed rfl, served_of_framed rfl,
      served_of_framed rfl, served_of_framed rfl⟩
  case command => exact fun b s => shelfServe_of_command
  case checks =>
    exact fun f n s htarget hlen hn hbody => ⟨shelfCommand_query htarget hlen hn hbody, shelfCommand_authentic htarget hlen hn hbody,
      fun st u => shelfCommand_unauthentic htarget hlen hn hbody⟩
  case bad => exact fun f s htarget => ⟨shelfCommand_badOpcode htarget, fun n => shelfCommand_badLength htarget⟩
  case ping => exact fun f own s _ => shelfRun_ping
  case status => exact fun f own s => shelfRun_status
  case sensors => exact fun f own s => shelfRun_sensors
  case mode => exact fun f own t s hasst h hbody ht hlc _ => shelfRun_mode hasst h hbody ht hlc
  case wake => exact fun f own s => shelfRun_wake
  case restart => exact fun f own s => shelfRun_restart
  case plate => exact fun f own p a s => shelfRun_plate
  case subscribe => exact fun f own fl tr s => shelfRun_subscribe

end Sys2Proof.Machine
end

section
/-! PROOFS. What operations leave of the start and of the mode: the layer that the statements about modes, power and links use. -/

namespace Sys2Proof.Machine

/-! ### The start and the global state, interrupt causes apart

A proof `(rfl)` below has `simp` rewrite with the lemma, so that the kernel never compares the states themselves. -/

/-- The start and the global state without the interrupt causes. -/
def State.runView (s : State) : Start × Glb := (s.start, { s.glb with intStatus := 0 })

theorem start_of_runView {s t : State} (h : t.runView = s.runView) : t.start = s.start := congrArg Prod.fst h

theorem mode_of_runView {s t : State} (h : t.runView = s.runView) : t.glb.mode = s.glb.mode := congrArg (fun v => v.2.mode) h

theorem perst_of_runView {s t : State} (h : t.runView = s.runView) : t.glb.perst = s.glb.perst := congrArg (fun v => v.2.perst) h

section
variable (f : Fld) (v n k : Nat) (s : State)

@[simp] theorem State.runView_modDome (g : DomeSt → DomeSt) : (s.modDome g).runView = s.runView := (rfl)
@[simp] theorem State.runView_modAlm (g : AlmSt → AlmSt) : (s.modAlm g).runView = s.runView := (rfl)
@[simp] theorem State.runView_modClk (g : ClkSt → ClkSt) : (s.modClk g).runView = s.runView := (rfl)
@[simp] theorem State.runView_modLog (g : LogSt → LogSt) : (s.modLog g).runView = s.runView := (rfl)
@[simp] theorem State.runView_modSbus (g : SbusSt → SbusSt) : (s.modSbus g).runView = s.runView := (rfl)
@[simp] theorem State.runView_modHost (g : HostSt → HostSt) : (s.modHost g).runView = s.runView := (rfl)

@[simp] theorem setF_runView : (setF f v s).runView = s.runView := (rfl)
@[simp] theorem setB_runView (b : Bool) : (setB f b s).runView = s.runView := (rfl)
@[simp] theorem cnt_runView (b i : Nat) : (cnt b i n s).runView = s.runView := (rfl)
@[simp] theorem takeNat_runView : (takeNat s).2.runView = s.runView := (rfl)
@[simp] theorem emit_runView (o : Out) : (emit o s).runView = s.runView := (rfl)

@[simp] theorem msixSend_runView (view vector : Nat) : (msixSend view vector s).runView = s.runView := by
  simp [msixSend, apply_ite State.runView]

/-- Raising a cause changes the causes alone. -/
@[simp] theorem raiseInt_runView (b : Nat) : (raiseInt b s).runView = s.runView := by
  have hset (g : Glb → Glb) (h : ∀ x : Glb, { g x with intStatus := 0 } = { x with intStatus := 0 }) : (s.modGlb g).runView = s.runView :=
    congrArg (Prod.mk s.start) (h s.glb)
  unfold raiseInt
  dsimp only
  split
  · rfl
  · split
    · rw [msixSend_runView, hset]
      exact fun _ => rfl
    · exact hset _ fun _ => rfl

@[simp] theorem setErr_runView (cause : Nat) : (setErr f cause s).runView = s.runView := by
  simp [setErr, apply_ite State.runView]

@[simp] theorem logStore_runView (code source sev p0 p1 p2 p3 : Nat) : (logStore code source sev p0 p1 p2 p3 s).runView = s.runView := by
  simp [logStore, apply_ite State.runView]

@[simp] theorem logLost_runView : (logLost s).runView = s.runView := by
  simp [logLost, apply_ite State.runView]

@[simp] theorem logPut_runView (sev code p0 p1 p2 p3 : Nat) : (logPut sev code p0 p1 p2 p3 s).runView = s.runView := by
  simp [logPut, logFrom, apply_ite State.runView]

@[simp] theorem logOpen_runView (blk p0 p1 : Nat) : (logOpen blk p0 p1 s).runView = s.runView := by
  simp [logOpen]

theorem when_runView {b : Bool} {u : State → State} (hu : ∀ t, (u t).runView = t.runView) : (when b u s).runView = s.runView := by
  cases b
  · rfl
  · exact hu s

theorem seqAll_runView {α : Type} {u : α → State → State} {l : List α} (hu : ∀ a t, (u a t).runView = t.runView) :
    (seqAll u l s).runView = s.runView :=
  seqAll_kept (P := fun t => t.runView = s.runView) (fun a {_} h => (hu a _).trans h) rfl

/-! #### The almanac -/

@[simp] theorem almStore_runView (l : List Nat) : (almStore k l s).runView = s.runView := (rfl)

@[simp] theorem almDevice_runView (l : List Nat) : (almDevice k l s).2.runView = s.runView := by
  unfold almDevice
  split <;> simp

@[simp] theorem almStatus_runView : (almStatus s).runView = s.runView := by simp [almStatus]

@[simp] theorem odoPut_runView : (odoPut k v s).runView = s.runView := almStore_runView _ _ _

@[simp] theorem odoInc_runView : (odoInc k s).runView = s.runView := odoPut_runView _ _ _

@[simp] theorem setHostDirty_runView (b : Bool) : (setHostDirty b s).runView = s.runView := almStore_runView _ _ _

@[simp] theorem tailCopy_runView : (tailCopy s).runView = s.runView := by
  refine foldl_kept2 (P := fun t => t.runView = s.runView) (fun p w h => ?_) rfl
  split
  · exact (almDevice_runView _ _ _).trans h
  · exact h

/-! #### Rails and sequences -/

@[simp] theorem modRail_runView (g : Rail → Rail) : (modRail n g s).runView = s.runView := (rfl)
@[simp] theorem modSeq_runView (g : SeqSt → SeqSt) : (modSeq n g s).runView = s.runView := (rfl)
@[simp] theorem railEnable_runView : (railEnable n s).runView = s.runView := (rfl)
@[simp] theorem pltReset_runView (b : Bool) : (pltReset n b s).runView = s.runView := (rfl)

@[simp] theorem railDisable_runView : (railDisable n s).runView = s.runView := by
  unfold railDisable
  dsimp only
  split
  · split <;> simp
  · rfl

@[simp] theorem railOff_runView : (railOff n s).runView = s.runView := by
  unfold railOff
  rw [when_runView _ fun t => logOpen_runView t _ _ _, railDisable_runView]

@[simp] theorem railsCut_runView : (railsCut s).runView = s.runView :=
  (State.runView_modDome _ _).trans (seqAll_runView _ fun n t => railDisable_runView n t)

@[simp] theorem chanStart_runView : (chanStart n s).runView = s.runView := by
  refine seqAll_runView _ fun c t => ?_
  split
  · rw [seqAll_runView _ fun d u => by simp, setF_runView]
  · rfl

theorem seqStep_runView {q : Nat} {s t : State} (h : seqStep q s = some t) : t.runView = s.runView := by
  unfold seqStep at h
  split at h
  · cases h
  · dsimp only at h
    split at h
    case h_3 | h_4 =>
      split at h
      · cases h
        simp
      · cases h
    all_goals cases h <;> simp

@[simp] theorem seqEnd_runView (q : Nat) : (seqEnd q s).runView = s.runView := by
  unfold seqEnd
  dsimp only
  split
  · rfl
  · split
    · simp
    · split
      · split <;> simp
      · simp
    · rfl

@[simp] theorem seqRunN_runView (q : Nat) : (seqRunN n q s).runView = s.runView := by
  induction n generalizing s with
  | zero => rfl
  | succ n ih =>
    unfold seqRunN
    split
    case h_1 t ht => rw [ih, seqStep_runView ht]
    case h_2 =>
      dsimp only
      split
      · rfl
      · rw [ih, seqEnd_runView]

@[simp] theorem seqRun_runView (q : Nat) : (seqRun q s).runView = s.runView := seqRunN_runView _ _ _

@[simp] theorem seqOn_runView (q : Nat) : (seqOn q s).runView = s.runView := by
  unfold seqOn
  split
  case h_3 => rfl
  all_goals
    split
    · simp
    · rfl

@[simp] theorem seqOff_runView (q : Nat) : (seqOff q s).runView = s.runView := by
  unfold seqOff
  split <;> simp

end

end Sys2Proof.Machine
end

section
/-! PROOFS. The statement of 13_dome_power.md and 18_start_up.md about the power, PERST# and start rows, mode by mode. -/

namespace Sys2Proof.Machine

/-- A mode that is not idle is a start or a running mode. -/
theorem modes_of_not_idle {s : State} (h : ¬ Says.idleMode s) :
    s.glb.mode = .starting ∨ s.glb.mode = .active ∨ s.glb.mode = .quiet ∨ s.glb.mode = .parked := by
  unfold Says.idleMode at h
  cases hm : s.glb.mode <;> simp [hm] at h ⊢

theorem running_of_not_idle {s : State} (h : ¬ Says.idleMode s) (hstart : s.glb.mode ≠ .starting) :
    s.glb.mode = .active ∨ s.glb.mode = .quiet ∨ s.glb.mode = .parked := (modes_of_not_idle h).resolve_left hstart

/-! ### Input power returns (R321, R427) -/

section
variable {straps : Nat} {s : State}

/-- The state in which the device sequencer is asked on when input power returns. -/
def inputBack (s : State) : State :=
  ((((s.modStart (fun x => { x with vin := true })).modDome (fun d => { d with onBank := false })).modGlb
    (fun g => { g with mode := .off, wake := false })).modStart (fun x => { x with source := srcPowerOn, relPend := false })).modFind
      (fun f => { f with drive := 0, ir := 2 })

theorem vinBack_of_idle (hvin : s.start.vin = false) (hidle : Says.idleMode s) : vinBack s = domeAfter (seqOn devSeq (inputBack s)) :=
  (if_neg (by simp [hvin])).trans (if_pos hidle)

theorem inputBack_powered (s : State) : Says.powered (inputBack s) := ⟨rfl, rfl, rfl, rfl, rfl⟩

theorem vinBack_of_running (hvin : s.start.vin = false) (hrun : ¬ Says.idleMode s) :
    vinBack s = (s.modStart (fun x => { x with vin := true })).modDome (fun d => { d with onBank := false }) :=
  (if_neg (by simp [hvin])).trans (if_neg hrun)

theorem strapsTake_get (h : straps < 256) : (strapsTake straps s).get F.GLB_STRAPS_SHELF_ID = straps % 64 ∧
    (strapsTake straps s).get F.GLB_STRAPS_XSPI_EN = straps / 128 := by
  rw [strapsTake]
  refine ⟨State.get_setF_self _ _ _, ?_⟩
  rw [State.get_setF_ne _ _ (by decide)]
  exact State.get_setF_lt _ (Nat.div_lt_of_lt_mul h)

theorem aonUp_get (h : straps < 256) : (aonUp straps s).get F.GLB_STRAPS_SHELF_ID = straps % 64 ∧
    (aonUp straps s).get F.GLB_STRAPS_XSPI_EN = straps / 128 := strapsTake_get h

/-- A power-on samples the straps if VDD_AON was down, and then is a return of input power. -/
theorem powerOn_of_idle (hstraps : straps < 256) (hvin : s.start.vin = false) (hidle : Says.idleMode s) : ∃ u,
    powerOn straps s = domeAfter (seqOn devSeq (inputBack u)) ∧ u.start.aonDown = false ∧ (s.start.aonDown = true →
      u.get F.GLB_STRAPS_SHELF_ID = straps % 64 ∧ u.get F.GLB_STRAPS_XSPI_EN = straps / 128) := by
  cases haon : s.start.aonDown
  · refine ⟨s, ?_, haon, fun h => absurd h Bool.false_ne_true⟩
    rw [powerOn, haon, if_neg Bool.false_ne_true, vinBack_of_idle hvin hidle]
  · refine ⟨aonUp straps s, ?_, rfl, fun _ => aonUp_get hstraps⟩
    rw [powerOn, haon, if_pos rfl]
    exact vinBack_of_idle hvin hidle

end

/-! ### Input power is lost (R329, R330) -/

section
variable {s : State}

/-- The loss as it is noted. -/
def inputLost (s : State) : State :=
  setErr F.DOME_ERR_STATUS_INPUT_LOSS intDome ((s.modStart (fun x => { x with vin := false })).modDome (fun d => { d with onBank := true }))

theorem inputLost_dome (s : State) : (inputLost s).dome = { s.dome with onBank := true } := setErr_dome _ _ _

theorem inputLost_huEn (s : State) : (inputLost s).dome.huEn = s.dome.huEn := by rw [inputLost_dome]

theorem inputLost_mode (s : State) : (inputLost s).glb.mode = s.glb.mode := setErr_mode _ _ _

theorem inputLost_gone (s : State) : Says.inputGone s (inputLost s) := by
  refine ⟨?_, ?_, ?_, inputLost_mode s⟩
  · rw [inputLost, start_of_runView (setErr_runView ..)]
    rfl
  · rw [inputLost_dome]
  · exact bne_iff_ne.mpr (setErr_get _ _ _ rfl)

variable (hvin : s.start.vin = true)
include hvin

theorem inputLoss_of_off (h : s.glb.mode = .off) : inputLoss s = domeAfter (seqOff devSeq (inputLost s)) := by
  simp only [inputLoss, hvin, h, if_true, inputLost]

theorem inputLoss_of_standby (h : s.glb.mode = .standby) :
    inputLoss s = domeAfter ((seqOff devSeq (inputLost s)).modGlb (fun g => { g with mode := .off, wake := false })) := by
  simp only [inputLoss, hvin, h, if_true, inputLost]

theorem inputLoss_of_faultHalt (h : s.glb.mode = .faultHalt) : inputLoss s = seqOff devSeq (inputLost s) := by
  simp only [inputLoss, hvin, h, if_true, inputLost]

/-- A start goes down its drain tail, or collapses without the hold-up unit. -/
theorem inputLoss_of_starting (h : s.glb.mode = .starting) : inputLoss s =
    if s.dome.huEn then domeAfter (drainDown (reloadsAbandon false (inputLost s))) else collapse (inputLost s) := by
  rw [← inputLost_huEn s, inputLoss, if_pos hvin]
  simp only [h]
  rfl

/-- A running device drains; PARKED, with nothing to drain, goes down its tail. -/
theorem inputLoss_of_running (h : s.glb.mode = .active ∨ s.glb.mode = .quiet ∨ s.glb.mode = .parked) : inputLoss s =
    if s.dur.drain ≠ 0 then inputLost s
    else if !s.dome.huEn then collapse (inputLost s)
    else if s.glb.mode = .parked then domeAfter (drainDown (reloadsAbandon false (inputLost s)))
    else domeAfter (drainBegin (inputLost s)) := by
  rw [← inputLost_huEn s, ← inputLost_mode s, inputLoss, if_pos hvin]
  rcases h with h | h | h <;> rw [h] <;> rfl

end

/-! ### Collapse, and the loss of VDD_AON (R330, R427) -/

section
variable {s : State}

theorem collapseNative_result (s : State) :
    (collapseNative s).start.collapsed = true ∧ (collapseNative s).start.relPend = false ∧ (collapseNative s).glb.mode = .off :=
  ⟨rfl, rfl, rfl⟩

theorem collapse_native (hrun : ¬ Says.idleMode s) (hlegacy : s.on F.DOME_CTL_LEGACY_COLLAPSE = false) :
    collapse s = collapseNative (s.modStart (fun x => { x with vin := false })) :=
  (if_neg hrun).trans (if_neg (ne_true_of_eq_false hlegacy))

/-- The state that goes down the legacy tail. -/
def legacyCut (s : State) : State :=
  ((almCut (reloadsAbandon false (faultWrite 6 0xFF (tgetD 1 s.dome.adc 9 - 1) s.seqsBusy (s.modStart (fun x => { x with vin := false }))))).modDome
    (fun d => { d with legacy := true })).modGlb (fun g => { g with transTo := none, ingressClosed := true })

theorem collapse_legacy (hrun : ¬ Says.idleMode s) (hlegacy : s.on F.DOME_CTL_LEGACY_COLLAPSE = true) (hdrain : s.dur.drain < 5) :
    collapse s = domeAfter (drainDown (legacyCut s)) :=
  (if_neg hrun).trans ((if_pos hlegacy).trans (if_neg (Nat.not_le.mpr hdrain)))

/-- An idle device only notes the loss; a sequence under way is cut, and STANDBY is left. -/
theorem collapse_of_idle (hidle : Says.idleMode s) : collapse s =
    if s.seqsBusy then (railsCut (s.modStart (fun x => { x with vin := false }))).modGlb
      (fun g => { g with mode := if g.mode = .standby then .off else g.mode })
    else s.modStart (fun x => { x with vin := false }) := if_pos hidle

theorem collapse_idle_result (hidle : Says.idleMode s) :
    (collapse s).start.vin = false ∧ (s.glb.mode = .faultHalt → (collapse s).glb.mode = .faultHalt) := by
  rw [collapse_of_idle hidle]
  split
  · have hview := railsCut_runView (s.modStart (fun x => { x with vin := false }))
    generalize railsCut (s.modStart (fun x => { x with vin := false })) = w at hview ⊢
    have hmode : w.glb.mode = s.glb.mode := (mode_of_runView hview).trans (rfl : (s.modStart _).glb.mode = _)
    refine ⟨congrArg Start.vin (start_of_runView hview), fun h => ?_⟩
    exact (if_neg (by rw [hmode, h]; decide)).trans (hmode.trans h)
  · exact ⟨rfl, id⟩

theorem sbusRegsReset_runView (s : State) : (sbusRegsReset s).runView = s.runView := by
  rw [sbusRegsReset, setF_runView]
  exact seqAll_runView _ fun f t => setF_runView f _ t

theorem aonReset_runView (s : State) : (aonReset s).runView = s.runView := by
  rw [aonReset, State.runView_modSbus, State.runView_modClk, sbusRegsReset_runView]
  exact seqAll_runView _ fun f t => setF_runView f _ t

theorem aonLoss_result (reset : Bool) (s : State) : (aonLoss reset s).start.aonDown = true ∧ (aonLoss reset s).start.aonLost = true ∧
    (aonLoss reset s).start.relPend = false ∧ (aonLoss reset s).glb.mode = .off := by
  cases reset
  · exact ⟨rfl, rfl, rfl, rfl⟩
  · have hreset : aonLoss true s = aonReset (aonLoss false s) := rfl
    rw [hreset, start_of_runView (aonReset_runView _), mode_of_runView (aonReset_runView _)]
    exact ⟨rfl, rfl, rfl, rfl⟩

theorem aonReturn_of_power {straps : Nat} (haon : s.start.aonDown = true) (hvin : s.start.vin = true) :
    aonReturn straps s = domeAfter (seqOn devSeq ((aonUp straps s).modStart (fun x => { x with source := srcPowerOn }))) :=
  (if_pos haon).trans (if_pos hvin)

end

/-! ### PERST# (R12, R412) -/

/-- What an assertion of PERST# does, by the mode. -/
def perstByMode (u : State) : State :=
  match u.glb.mode with
  | .off => u
  | .standby => seqOn devSeq u
  | .faultHalt => if u.start.source = srcRestart then seqOn devSeq u else u
  | .starting => seqAll linkDown [0, 1] (u.modStart (fun x => { x with source := srcPerstStart }))
  | _ => if u.glb.transTo.isSome then u.modGlb (fun g => { g with perstHeld := true }) else perstEffect u

theorem perstAssert_of_clear {s : State} (h : s.glb.perst = false) : perstAssert s = perstByMode (Says.perstOn s) :=
  if_neg (ne_true_of_eq_false h)

section
variable {u : State}

theorem perstByMode_of_off (h : u.glb.mode = .off) : perstByMode u = u := by simp only [perstByMode, h]

theorem perstByMode_of_standby (h : u.glb.mode = .standby) : perstByMode u = seqOn devSeq u := by simp only [perstByMode, h]

theorem perstByMode_of_faultHalt (h : u.glb.mode = .faultHalt) :
    perstByMode u = if u.start.source = srcRestart then seqOn devSeq u else u := by simp only [perstByMode, h]

theorem perstByMode_of_starting (h : u.glb.mode = .starting) :
    perstByMode u = seqAll linkDown [0, 1] (u.modStart (fun x => { x with source := srcPerstStart })) := by simp only [perstByMode, h]

/-- A transition holds PERST# back. -/
theorem perstByMode_of_running (h : u.glb.mode = .active ∨ u.glb.mode = .quiet ∨ u.glb.mode = .parked) :
    perstByMode u = if u.glb.transTo.isSome then u.modGlb (fun g => { g with perstHeld := true }) else perstEffect u := by
  rcases h with h | h | h <;> simp only [perstByMode, h]

end

section
variable {s : State}

theorem perstEffect_of_pme (h : s.awaitsPme = true) : perstEffect s = standbyEnter srcPerstCold s := if_pos h

theorem perstEffect_of_cold (h : s.awaitsPme = false) (hcold : s.on F.GLB_RESET_CTL_PERST_COLD = true) :
    perstEffect s = pendGo (modeTarget tStandby 1 (s.modGlb (fun g => { g with perstPme := true }))) :=
  (if_neg (ne_true_of_eq_false h)).trans (if_pos hcold)

theorem perstEffect_of_warm (h : s.awaitsPme = false) (hcold : s.on F.GLB_RESET_CTL_PERST_COLD = false) : perstEffect s = warmStart s :=
  (if_neg (ne_true_of_eq_false h)).trans (if_neg (ne_true_of_eq_false hcold))

theorem warmStart_result (s : State) : (warmStart s).start.warm = true ∧ (warmStart s).start.memActive = false ∧
    (warmStart s).stage = stageWarm ∧ (warmStart s).on F.GLB_START_STATUS_WARM = true ∧
    (warmStart s).get F.GLB_RESET_STATUS_SOURCE = srcPerstWarm := by
  rw [warmStart]
  refine ⟨rfl, rfl, ?_, ?_, State.get_setF_lt _ (by decide)⟩
  · rw [State.stage, State.get_setF_ne _ _ (by decide), State.get_setF_ne _ _ (by decide), setStage]
    exact State.get_setF_lt _ (by decide)
  · rw [State.on, State.get_setF_ne _ _ (by decide), State.get_setF_one _ rfl]
    rfl

end

section
variable {straps us : Nat} {fail : Bool} {s : State}

theorem perstRelease_of_asserted (hperst : s.glb.perst = true) : perstRelease straps us fail s =
    perstGo (Says.perstOff straps us fail (decide (s.glb.mode ≠ .faultHalt) || decide (s.start.source = srcRestart)) s) := if_pos hperst

/-- Outside FAULT-HALT, and there after a restart request, a release asks for a start. -/
theorem perstRelease_of_asking (hperst : s.glb.perst = true) (h : s.glb.mode ≠ .faultHalt ∨ s.start.source = srcRestart) :
    perstRelease straps us fail s = perstGo (Says.perstOff straps us fail true s) := by
  have hpend : (decide (s.glb.mode ≠ .faultHalt) || decide (s.start.source = srcRestart)) = true := by simpa using h
  rw [perstRelease_of_asserted hperst, hpend]

theorem perstGo_of_off (hmode : s.glb.mode = .off) (hperst : s.glb.perst = false) : perstGo s =
    if s.poweredUp && s.start.vin then perstStart s.start.relStraps s.start.relUs s.start.relFail s else s := by
  simp only [perstGo, hmode, hperst, Bool.not_false, Bool.true_and]

variable (hpend : s.start.relPend = true)
include hpend

theorem perstGo_of_standby (hmode : s.glb.mode = .standby) :
    perstGo s = if s.poweredUp then perstStart s.start.relStraps s.start.relUs s.start.relFail s else s := by
  simp only [perstGo, hmode, hpend, Bool.true_and]

theorem perstGo_of_restart (hmode : s.glb.mode = .faultHalt) (hsource : s.start.source = srcRestart) :
    perstGo s = if s.poweredUp then perstStart s.start.relStraps s.start.relUs s.start.relFail s else s := by
  simp only [perstGo, hmode, hpend, hsource, decide_true, Bool.true_and, Bool.and_true]

theorem perstGo_of_starting (hmode : s.glb.mode = .starting) :
    perstGo s = perstStart s.start.relStraps s.start.relUs s.start.relFail s := by
  simp only [perstGo, hmode, hpend, if_true]

/-- The reset of a warm start ends. -/
theorem perstGo_of_warm (hmode : s.glb.mode = .active ∨ s.glb.mode = .quiet ∨ s.glb.mode = .parked) (hwarm : s.start.warm = true)
    (hheld : s.glb.perstHeld = false) : perstGo s = s.modStart (fun y => { y with relPend := false, relAt := s.now }) := by
  rcases hmode with h | h | h <;> simp only [perstGo, h, hpend, hwarm, hheld, Bool.not_false, Bool.and_self, if_true]

end

/-! ### A start begins, and finds its image (R12, R287, R414) -/

section
variable {straps us : Nat} {fail : Bool} {s : State}

/-- A cold start ends with the start's mode and its first stage. -/
theorem perstStart_result (straps us : Nat) (fail : Bool) (s : State) : ∃ u, perstStart straps us fail s = pdSettle u ∧ u.glb.mode = .starting ∧
    u.stage = (if fail then stageHaltWipe else stageImage) ∧ u.start.relPend = false ∧ u.start.aonLost = false ∧ u.glb.perstHeld = false := by
  rw [perstStart, coldStart]
  refine ⟨_, rfl, rfl, ?_, rfl, rfl, rfl⟩
  rw [State.stage, State.get_modGlb, State.get_modStart, setStage]
  exact State.get_setF_lt _ (by cases fail <;> decide)

theorem imageBoot_of_start {unread ms : Nat} {x0 x1 : Option Image} (hmode : s.glb.mode = .starting) (hstage : s.stage = stageImage)
    (hperst : s.glb.perst = false) : imageBoot unread x0 x1 ms s = match (Says.bootSearch unread x0 x1 s).1.found with
      | some (src, un, i) => imageApply src ms un i (Says.bootSearch unread x0 x1 s).2
      | none => setStage stageMailbox (Says.bootSearch unread x0 x1 s).2 :=
  if_pos ⟨hmode, hstage, by simp [hperst]⟩

theorem imageApply_trains (src ms : Nat) (unauth : Bool) (i : Image) (s : State) :
    ∃ u, imageApply src ms unauth i s = pdSettle (lanesShow u) ∧ u.stage = stageTrain := by
  rw [imageApply]
  exact ⟨_, rfl, State.get_setF_lt _ (by decide)⟩

end

/-! ### A root error, a ramp (R244, R313, R217) -/

section
variable {d : Nat} {katOk : Bool} {s : State}

theorem rootUe_of_running (h : ¬ Says.idleMode s) : ∃ cause rail mv, rootUe s = setF F.DOME_FAULT_IN_SEQ (s.get F.DOME_FAULT_IN_SEQ)
    (setF F.DOME_FAULT_VALID (s.get F.DOME_FAULT_VALID) (railFault cause rail mv (setErr F.MERID_ERR_STATUS_ROOT_UE intMerid s))) :=
  ⟨_, _, _, if_neg h⟩

theorem rootUe_halts (h : ¬ Says.idleMode s) : (rootUe s).glb.mode = .faultHalt ∧ (rootUe s).get F.GLB_MODE_STATUS_CURRENT = 4 := by
  obtain ⟨cause, rail, mv, heq⟩ := rootUe_of_running h
  have hrun : (setErr F.MERID_ERR_STATUS_ROOT_UE intMerid s).glb.mode ≠ .faultHalt := by
    rw [setErr_mode]
    exact fun hm => h (.inr (.inr hm))
  rw [heq, State.get_setF_ne _ _ (by decide), State.get_setF_ne _ _ (by decide)]
  exact railFault_result hrun

/-- The domain on, and the lane bad whose known-answer test failed. -/
def rampEnded (d : Nat) (katOk : Bool) (s : State) : State :=
  if 32 ≤ d ∧ d < 40 ∧ !katOk then
    logOpen bCIPH (d - 32) 0 (setErr F.CIPH_ERR_STATUS_KAT_FAIL intCiph
      ((setPd d .on s).modDome (fun m => { m with laneBad := m.laneBad ||| 2 ^ (d - 32) })))
  else setPd d .on s

theorem rampDone_of_ramping (h : s.pd d = .ramp) : rampDone d katOk s = pdSettle (rampEnded d katOk s) := if_pos h

theorem setPd_pd_self (d : Nat) (x : PdState) (s : State) : (setPd d x s).pd d = x := tgetD_tput_self _ _ _ _

theorem katFailed_dome (d : Nat) (t : State) :
    (logOpen bCIPH (d - 32) 0 (setErr F.CIPH_ERR_STATUS_KAT_FAIL intCiph t)).dome = t.dome := by
  exact (logPut_dome ..).trans (setErr_dome ..)

theorem rampEnded_pd (d : Nat) (katOk : Bool) (s : State) : (rampEnded d katOk s).pd d = .on := by
  unfold rampEnded
  split
  · rw [State.pd, katFailed_dome]
    exact setPd_pd_self d .on s
  · exact setPd_pd_self d .on s

theorem rampEnded_of_failed (hmin : 32 ≤ d) (hmax : d < 40) :
    (rampEnded d false s).dome.laneBad.testBit (d - 32) = true ∧ (rampEnded d false s).on F.CIPH_ERR_STATUS_KAT_FAIL = true := by
  rw [rampEnded, if_pos ⟨hmin, hmax, rfl⟩]
  refine ⟨?_, ?_⟩
  · rw [katFailed_dome]
    exact (Nat.testBit_or _ _ _).trans (by rw [Nat.testBit_two_pow_self, Bool.or_true])
  · rw [State.on_congr (logOpen_regs ..)]
    exact bne_iff_ne.mpr (setErr_get _ _ _ rfl)

end

/-- Settles O53: each row, in each mode, by the equation of its operation there. -/
theorem everyPowerRowCompletesInEveryMode : Obligations.EveryPowerRowCompletesInEveryMode := by
  unfold Obligations.EveryPowerRowCompletesInEveryMode
  refine ⟨?powerOn, ?returns, ?loss, ?collapse, fun reset s => ⟨_, rfl, aonLoss_result reset s⟩, ?aonReturn, ?assert, ?release,
    perstStart_result, ?image, fun s hrun => ⟨_, rfl, rootUe_halts hrun⟩, ?ramp⟩
  case powerOn =>
    refine fun straps s hvin hidle => ⟨?on, ⟨_, next_congr (vinBack_of_idle hvin hidle), inputBack_powered s⟩⟩
    case on =>
      obtain ⟨u, heq, haon, hstraps⟩ := powerOn_of_idle straps.isLt hvin hidle
      exact ⟨inputBack u, next_congr heq, inputBack_powered u, haon, hstraps⟩
  case returns => exact fun s hvin hrun => ⟨_, next_congr (vinBack_of_running hvin hrun), rfl, rfl, rfl, rfl⟩
  case loss =>
    intro s hvin
    have hgone := inputLost_gone s
    refine ⟨fun h => ⟨_, next_congr (inputLoss_of_off hvin h), hgone⟩, fun h => ⟨_, next_congr (inputLoss_of_standby hvin h), hgone⟩,
      fun h => ⟨_, next_congr (inputLoss_of_faultHalt hvin h), hgone⟩,
      fun h hhu => ⟨_, next_congr ((inputLoss_of_starting hvin h).trans (if_pos hhu)), hgone⟩,
      fun h hhu hdrain => ⟨_, next_congr ((inputLoss_of_running hvin (.inr (.inr h))).trans ?tail), hgone⟩,
      fun h hhu hdrain => ⟨_, next_congr ((inputLoss_of_running hvin ?modes).trans ?drains), hgone⟩,
      fun hrun hhu hdrain => ⟨_, next_congr ?collapses, hgone⟩,
      fun hrun hstart hdrain => ⟨_, next_congr ((inputLoss_of_running hvin (running_of_not_idle hrun hstart)).trans (if_pos hdrain)), hgone⟩⟩
    case tail => simp [hhu, hdrain, h]
    case modes => exact h.elim .inl fun h => .inr (.inl h)
    case drains => rcases h with h | h <;> simp [hhu, hdrain, h]
    case collapses =>
      rcases modes_of_not_idle hrun with hstart | hmode
      · exact (inputLoss_of_starting hvin hstart).trans (if_neg (ne_true_of_eq_false hhu))
      · have hdry : s.dur.drain = 0 := hdrain.resolve_left (by rcases hmode with h | h | h <;> simp [h])
        exact (inputLoss_of_running hvin hmode).trans ((if_neg (not_not_intro hdry)).trans (if_pos (by simp [hhu])))
  case collapse =>
    refine fun mv s => ⟨fun hrun hlegacy => ⟨_, next_congr (collapse_native hrun hlegacy), collapseNative_result _⟩,
      fun hrun hlegacy hdrain => ⟨_, next_congr (collapse_legacy hrun hlegacy hdrain), rfl, rfl, rfl⟩,
      fun hidle => ⟨_, rfl, collapse_idle_result (s := s.modDome (fun d => { d with adc := tset d.adc 9 (mv.toNat + 1) })) hidle⟩⟩
  case aonReturn =>
    exact fun straps s haon hvin => ⟨_, next_congr (aonReturn_of_power haon hvin), rfl, rfl, rfl, (strapsTake_get straps.isLt).left⟩
  case assert =>
    intro s hperst p
    have row {t : State} (h : perstByMode p = t) : exec .perstAssert s = .next (domeAfter t) :=
      next_congr (congrArg domeAfter ((perstAssert_of_clear hperst).trans h))
    have effect (hrun : ¬ Says.idleMode s) (hstart : s.glb.mode ≠ .starting) (htrans : s.glb.transTo = none) : perstByMode p = perstEffect p := by
      have hfree : ¬ p.glb.transTo.isSome = true := by
        change ¬ s.glb.transTo.isSome = true
        simp [htrans]
      exact (perstByMode_of_running (u := p) (running_of_not_idle hrun hstart)).trans (if_neg hfree)
    exact ⟨fun h => row (perstByMode_of_off h), fun h => row (perstByMode_of_standby h),
      fun h hsource => row ((perstByMode_of_faultHalt (u := p) h).trans (if_pos hsource)),
      fun h hsource => row ((perstByMode_of_faultHalt (u := p) h).trans (if_neg hsource)), fun h => row (perstByMode_of_starting h),
      fun hrun hstart htrans => row ((perstByMode_of_running (u := p) (running_of_not_idle hrun hstart)).trans (if_pos htrans)),
      fun hrun hstart htrans hpme => row ((effect hrun hstart htrans).trans (perstEffect_of_pme hpme)),
      fun hrun hstart htrans hpme hcold => row ((effect hrun hstart htrans).trans (perstEffect_of_cold hpme hcold)),
      fun hrun hstart htrans hpme hcold =>
        ⟨_, row ((effect hrun hstart htrans).trans (perstEffect_of_warm hpme hcold)), warmStart_result _⟩⟩
  case release =>
    intro straps us fail s hperst p
    have row {t : State} (hask : s.glb.mode ≠ .faultHalt ∨ s.start.source = srcRestart) (h : perstGo (p true) = t) :
        exec (.perstRelease straps us fail) s = .next (domeAfter t) :=
      next_congr (congrArg domeAfter ((perstRelease_of_asking hperst hask).trans h))
    have awake {m : Mode} (h : s.glb.mode = m) (hm : m ≠ .faultHalt) : s.glb.mode ≠ .faultHalt ∨ s.start.source = srcRestart := .inl (h ▸ hm)
    refine ⟨fun h hup hvin => row (awake h (by decide)) ((perstGo_of_off (s := p true) h rfl).trans (if_pos ?power)),
      fun h hup => row (awake h (by decide)) ((perstGo_of_standby (s := p true) rfl h).trans (if_pos hup)),
      fun h hup hsource => row (.inr hsource) ((perstGo_of_restart (s := p true) rfl h hsource).trans (if_pos hup)),
      fun h => row (awake h (by decide)) (perstGo_of_starting (s := p true) rfl h), ?unpowered, ?warm⟩
    case power => exact Bool.and_eq_true_iff.mpr ⟨hup, hvin⟩
    case unpowered =>
      intro hup hmode
      have hdown : ¬ (p true).poweredUp = true := fun hon => Bool.false_ne_true (hup.symm.trans hon)
      rcases hmode with h | h
      · exact row (awake h (by decide)) ((perstGo_of_off (s := p true) h rfl).trans
          (if_neg fun hon => hdown (Bool.and_eq_true_iff.mp hon).left))
      · exact row (awake h (by decide)) ((perstGo_of_standby (s := p true) rfl h).trans (if_neg hdown))
    case warm =>
      intro hrun hstart hwarm hheld
      have hmode := running_of_not_idle hrun hstart
      exact row (.inl (by rcases hmode with h | h | h <;> simp [h])) (perstGo_of_warm (s := p true) rfl hmode hwarm hheld)
  case image =>
    intro unread x0 x1 ms s hmode hstage hperst r
    have hboot := imageBoot_of_start (unread := unread.toNat) (ms := ms.toNat) (x0 := x0) (x1 := x1) hmode hstage hperst
    refine ⟨fun src un i h => ⟨next_congr (congrArg domeAfter (hboot.trans ?found)), imageApply_trains src ms.toNat un i r.2⟩,
      fun h => next_congr (congrArg domeAfter (hboot.trans ?none))⟩
    case found => simp only [r] at h ⊢; rw [h]
    case none => simp only [r] at h ⊢; rw [h]
  case ramp =>
    refine fun pd katOk s h => ⟨_, next_congr (congrArg domeAfter (rampDone_of_ramping h)), rampEnded_pd pd.val katOk s, ?failed⟩
    case failed =>
      rintro hmin hmax rfl
      exact rampEnded_of_failed hmin hmax

end Sys2Proof.Machine
end

section
/-! PROOFS. The statement of 02_host_port.md, 03_translation.md and the merge buffer about every row of host requests, the mailbox, translation
and staging. -/

namespace Sys2Proof.Machine

/-! ### A request that is admitted (R25, R54, R64, R65) -/

section
variable {r : HReq} {f : Found} {s x : State}

/-- A request with credit, of an LD with none before it, enters its pipeline at once. -/
theorem ingressTake_of_admitted (hmay : s.ingressMay r = true) (hfirst : s.host.ingress.any (fun x => x.ld == r.ld) = false) :
    ingressTake r s = regStatus (ingressGo r s) := if_pos (by simp [hmay, hfirst])

theorem memReq_of_admitted (hopen : Says.open r s) (hserves : Says.serves r s) (hadmits : Says.admits r s) :
    memReq r s = regStatus (settle (hostGo r (if r.wr then Says.admitted r s else credBack r.port credReq (Says.admitted r s)))) := by
  obtain ⟨hmay, hfirst⟩ := hadmits
  exact (memReq_of_served hopen hserves).trans (ingressTake_of_admitted hmay hfirst)

theorem hostGo_backed (hwait : s.mustWait r = false) (hbacked : s.backed r.ld r.dpa = true) :
    hostGo r s = foundAll (lookStart ⟨.host r, r.ld, r.dpa, none, 0⟩ s) := by
  simp only [hostGo, hwait, hbacked, Bool.false_eq_true, if_false, if_true]

theorem foundAll_one {l : List Found × State} (h : l = ([f], x)) : foundAll l = foundGo f x := by
  rw [h]
  rfl

theorem foundAll_none {l : List Found × State} (h : l = ([], x)) : foundAll l = x := by
  rw [h]
  rfl

section
variable (huser : f.look.user = .host r) (hgood : f.bad = false)
include huser hgood

theorem foundGo_read (hread : r.wr = false) : foundGo f x = readFound r f.fo f.fr f.look.misses x := by
  simp only [foundGo, huser, hread, hgood, Bool.false_eq_true, if_false]

theorem foundGo_write (hwrite : r.wr = true) : foundGo f x = writeTry r x := by
  simp only [foundGo, huser, hwrite, hgood, Bool.false_eq_true, if_false, if_true]

end

section
variable {fo fr misses : Nat} (htype : foType fo ≠ 3) (hkid : kidRead r fo x = none) (hclean : x.onPoisonList r.ld r.dpa = false)
include htype hkid hclean

/-- A whole clean line of the merge buffer answers. -/
theorem readFound_of_line {l : CLine} (hl : x.cline r.ld r.dpa = some l) (hfull : l.full = true) (hpoison : l.poison = false) :
    readFound r fo fr misses x = readNs r (360 + 110 * misses) (respond (Says.drs r l.data x) x) := by
  simp only [readFound, htype, hkid, hclean, hl, hfull, hpoison, Bool.false_eq_true, if_false, if_true]
  rfl

/-- Where nothing was written, zeros answer. -/
theorem readFound_of_zeros (hl : x.cline r.ld r.dpa = none) (hbelow : x.below r.ld r.dpa fo fr = .zeros) :
    readFound r fo fr misses x = readNs r (280 + 110 * misses) (respond (Says.drs r 0 x) x) := by
  simp only [readFound, htype, hkid, hclean, hl, hbelow, Bool.false_eq_true, if_false]
  rfl

theorem readFound_of_media {p : Nat} (hl : x.cline r.ld r.dpa = none) (hbelow : x.below r.ld r.dpa fo fr = .media p) :
    readFound r fo fr misses x = mediaRead r p (foKid fo) (frLpois fr) 0 0 misses x := by
  simp only [readFound, htype, hkid, hclean, hl, hbelow, Bool.false_eq_true, if_false]

end

theorem writeTry_of_room (hfree : writeRefused r x = none) (hroom : x.canAccept r.ld r.dpa = true) : writeTry r x =
    sendCmp r (credBack r.port credRwd (when r.poison (setErr F.HOST_ERR_STATUS_POISON_RX intHost)
      (acceptLine r.ld r.dpa r.mask r.data r.poison (raCancel r.ld r.dpa x)))) := by
  simp only [writeTry, hfree, hroom, if_true, writeTake]

/-- Without a line token a write waits. -/
theorem writeTry_of_full (hfree : writeRefused r x = none) (hroom : x.canAccept r.ld r.dpa = false) (hline : x.lineFree = 0) :
    writeTry r x = x.modHost (fun h => { h with writeQ := h.writeQ ++ [r] }) := by
  simp only [writeTry, hfree, hroom, hline, Bool.false_eq_true, if_false, if_true]

end

/-! ### Flushes and DOE (R22, R33) -/

section
variable {port : Nat} {s : State}

/-- Within an entry into PARKED a flush waits for the force of the mode, or is done where that has ended. -/
theorem gpfPhase2_of_parking (hgpf : (s.port port).gpf = true) (hfirst : (s.port port).gpf2 = false) (htrans : s.glb.transTo = some .parked) :
    gpfPhase2 port s = match s.dur.forces.find? (fun f => decide (f.what = .mode)) with
      | some f => (modPort port (fun q => { q with gpf2 := true }) s).modDur (fun d => { d with forces := d.forces ++ [⟨f.jseq, .gpf port⟩] })
      | none => forceDone (.gpf port) (modPort port (fun q => { q with gpf2 := true }) s) :=
  (if_pos (by simp [hgpf, hfirst])).trans (if_pos htrans)

theorem gpfPhase2_of_not_parking (hgpf : (s.port port).gpf = true) (hfirst : (s.port port).gpf2 = false) (htrans : s.glb.transTo ≠ some .parked) :
    gpfPhase2 port s = syncDrain (.gpf port) (modPort port (fun q => { q with gpf2 := true }) s) :=
  (if_pos (by simp [hgpf, hfirst])).trans (if_neg htrans)

theorem doeRequest_spdm_outs (hup : (s.port port).up = true) (secured : Bool) : ∃ n,
    (doeRequest port (.spdm secured) s).outs = .doe port (if secured then 2 else 1) [n, Config.certChain] :: s.outs := by
  rw [doeRequest, if_pos hup]
  exact ⟨_, rfl⟩

/-- An index past the list of protocols is answered with none. -/
theorem doeRequest_past (hup : (s.port port).up = true) {i : Nat} (hi : 5 ≤ i) : doeRequest port (.discovery i) s = emit (.doe port 0 []) s := by
  have hnone : doeProtocols[i]? = none := List.getElem?_eq_none hi
  rw [doeRequest, if_pos hup]
  simp only [hnone]

end

/-! ### The mailbox (R35 to R40, R302) -/

section
variable {view : Nat} {s : State}

theorem mboxRun_clear (log n : Nat) (hlog : log ≤ 4) (hn : n ≤ (tgetD [] (s.ld view).logs log).length) :
    mboxRun ⟨view, 0x0101, [log, 0, n], none⟩ s = mboxDone view 0x0101 rcOk [] (modLd view (fun l =>
      { l with logs := tput [] l.logs log ((tgetD [] (s.ld view).logs log).drop n),
               drops := if (tgetD [] (s.ld view).logs log).drop n = [] then terase l.drops log else l.drops }) s) := by
  have hrun : mboxRun ⟨view, 0x0101, [log, 0, n], none⟩ s = mboxClearEvents ⟨view, 0x0101, [log, 0, n], none⟩ s := (rfl)
  have h0 : MboxReq.arg ⟨view, 0x0101, [log, 0, n], none⟩ 0 = log := rfl
  have h1 : MboxReq.arg ⟨view, 0x0101, [log, 0, n], none⟩ 1 = 0 := rfl
  have h2 : MboxReq.arg ⟨view, 0x0101, [log, 0, n], none⟩ 2 = n := rfl
  rw [hrun]
  simp only [mboxClearEvents, h0, h1, h2, reply, if_neg (Nat.not_lt.mpr hlog), Nat.not_lt.mpr hn, and_false, ne_eq, not_true_eq_false, if_false]

theorem mboxRun_status_of_none (hrun : (s.ld view).bg = none) (hlast : (s.ld view).lastBg = none) :
    mboxRun ⟨view, 0x0002, [], none⟩ s = mboxDone view 0x0002 rcOk [0, 0, 0, 0] s := by
  simp only [mboxRun, reply, hrun, hlast]

theorem mboxRun_vendorLog : ∃ v, mboxRun ⟨view, 0x0401, [1], none⟩ s = mboxDone view 0x0401 rcOk [v] (takeNat s).2 := ⟨_, rfl⟩

/-- While the loader waits for the mailbox, Transfer FW only keeps the image. -/
theorem mboxTransferFw_of_waiting {i : Image} (hstage : s.stage = stageMailbox) (hact : s.img.act = none) (hreload : s.img.reload = none) :
    mboxTransferFw ⟨view, 0x0201, [2], some i⟩ s = mboxDone view 0x0201 rcOk [] (s.modImg (fun x => { x with stage := some i })) := by
  have hslot : MboxReq.arg ⟨view, 0x0201, [2], some i⟩ 0 = 2 := rfl
  simp only [mboxTransferFw, hslot, hstage, hact, hreload, reply, ne_eq, not_true_eq_false, Option.isSome_none, Option.any_none, Bool.or_self,
    Bool.false_eq_true, if_false, if_true]

theorem mboxRun_transferFw (payload : List Nat) (image : Option Image) :
    mboxRun ⟨view, 0x0201, payload, image⟩ s = mboxTransferFw ⟨view, 0x0201, payload, image⟩ s := (rfl)

theorem mboxRun_activateFw (payload : List Nat) :
    mboxRun ⟨view, 0x0202, payload, none⟩ s = mboxActivateFw ⟨view, 0x0202, payload, none⟩ s := (rfl)

theorem mboxActivateFw_of_waiting (hstage : s.stage = stageMailbox) :
    mboxActivateFw ⟨view, 0x0202, [0, 2], none⟩ s = activateWait ⟨view, 0x0202, [0, 2], none⟩ s ∧
    mboxActivateFw ⟨view, 0x0202, [1, 2], none⟩ s = mboxDone view 0x0202 rcSlot [] s := by
  have arg (a b : Nat) : MboxReq.arg ⟨view, 0x0202, [a, b], none⟩ 0 = a ∧ MboxReq.arg ⟨view, 0x0202, [a, b], none⟩ 1 = b := ⟨rfl, rfl⟩
  exact ⟨(if_neg (by simp [arg])).trans ((if_neg (by simp [arg])).trans (if_pos hstage)), (if_pos (arg 1 2).left).trans (if_pos hstage)⟩

theorem mboxRun_alertsOff : mboxRun ⟨view, 0x4202, [0, 0], none⟩ s =
    (let u := modLd view (fun l => { l with lifeWarn := none, tempWarn := none, lifeHit := false, tempHit := false }) s
    mboxDone view 0x4202 rcOk [] (lifeAlert u.lifeUsed view (tempAlert u.dome.tj view u))) := (rfl)

theorem mboxRun_inject (dpa : Nat) : mboxRun ⟨view, 0x4301, [dpa], none⟩ s = mboxInject ⟨view, 0x4301, [dpa], none⟩ s := (rfl)

theorem mboxInject_of_unbacked {dpa : Nat} (hlc : s.lcs.state = lcManufacture ∨ s.lcs.state = lcDevelop ∨ s.lcs.state = lcService)
    (hbacked : s.backed view (dpa / 64 * 64) = false) :
    mboxInject ⟨view, 0x4301, [dpa], none⟩ s = mboxDone view 0x4301 rcAddress [] s :=
  (if_neg (by rintro ⟨h0, h1, h2⟩; exact hlc.elim h0 fun h => h.elim h1 h2)).trans (if_pos (Bool.not_eq_true' _ |>.mpr hbacked))

theorem mboxRun_clearPoison (dpa data : Nat) :
    mboxRun ⟨view, 0x4302, [dpa, data], none⟩ s = mboxClearPoison ⟨view, 0x4302, [dpa, data], none⟩ s := (rfl)

section
variable {dpa : Nat} (data : Nat)

theorem mboxClearPoison_of_unbacked (hbacked : s.backed view (dpa / 64 * 64) = false) :
    mboxClearPoison ⟨view, 0x4302, [dpa, data], none⟩ s = mboxDone view 0x4302 rcAddress [] s :=
  if_pos (Bool.not_eq_true' _ |>.mpr hbacked)

/-- Poison is cleared also where the line cannot be held. -/
theorem mboxClearPoison_of_full (hbacked : s.backed view (dpa / 64 * 64) = true) (hroom : s.canAccept view (dpa / 64 * 64) = false) :
    mboxClearPoison ⟨view, 0x4302, [dpa, data], none⟩ s = mboxDone view 0x4302 rcOk []
      (poisonRebuild view (refreshPoisonAny view (folioOf (dpa / 64 * 64)) (poisonRemove view (dpa / 64 * 64) s))) := by
  have hdpa : MboxReq.arg ⟨view, 0x4302, [dpa, data], none⟩ 0 = dpa := rfl
  simp only [mboxClearPoison, hdpa, hbacked, hroom, reply, Bool.and_false, Bool.not_true, Bool.false_eq_true, if_false]

end

end

/-! ### Fills, writebacks, probes and rebuilds (R70, R73, R78) -/

section
variable {bank sector : Nat} {out : WmOut} {ctr : Option CtrFail} {m : Miss} {s : State}

/-- The causes that a fill with losses reports. -/
def fillReported (m : Miss) (w : State) : State :=
  match m.users with
  | k :: _ => event k.ld logFailure 0xA0 k.dpa (setErr F.XLAT_ERR_STATUS_MAP_UE intXlat w)
  | [] => setErr F.XLAT_ERR_STATUS_MAP_UE intXlat w

/-- The counter's failure that a fill meets, unless its line is cached. -/
def fillCtr (ctr : Option CtrFail) (s : State) : Bool × State :=
  match ctr with
  | some c => if s.metaCached (s.metaOf c.level.val c.index) then (false, s) else ctrFailed c s
  | none => (false, s)

/-- Sectors that did not decode start their rebuild; those behind a lost counter do not. -/
def fillRebuild (m : Miss) (bad : Nat) (lost : Bool) (s : State) : State :=
  if lost then s else s.modXlat (fun x => { x with rebuilding := x.rebuilding ++ (sectorLines m.line bad).map (fun k => (k, 1)) })

theorem mapFill_eq (hm : tget s.xlat.misses bank = some m) (hw : m.wait = false) : ∃ bad lost t,
    mapFill bank sector out ctr s = if decide (bad = 0) && !lost then foundAll (fillReturn bank m 0 t)
      else foundAll (fillReturn bank m (if lost then 255 else bad) (fillReported m (fillRebuild m bad lost t))) := by
  rw [mapFill, hm]
  refine ⟨(m.decoded sector out s).1, (fillCtr ctr (m.decoded sector out s).2).1,
    seqAll wmLineRead (sectorLines m.line m.sectors) (fillCtr ctr (m.decoded sector out s).2).2, (if_neg (ne_true_of_eq_false hw)).trans ?_⟩
  rfl

/-- A fill delivers what decoded, behind its report if something was lost. -/
theorem mapFill_of_miss (hm : tget s.xlat.misses bank = some m) (hw : m.wait = false) : ∃ lost u,
    mapFill bank sector out ctr s = foundAll (fillReturn bank m lost u) ∧ (lost ≠ 0 → ∃ w, u = fillReported m w) := by
  obtain ⟨bad, lost, t, h⟩ := mapFill_eq (sector := sector) (out := out) (ctr := ctr) hm hw
  cases hgood : decide (bad = 0) && !lost
  · exact ⟨_, _, h.trans (if_neg (ne_true_of_eq_false hgood)), fun _ => ⟨_, rfl⟩⟩
  · exact ⟨0, t, h.trans (if_pos hgood), fun h => absurd rfl h⟩

end

section
variable {key : Nat} {s : State} (hst : (s.mline key).st = .writeback)
include hst

/-- The words of a writeback are stored; then its line ends as its cause says. -/
theorem writebackDone_of_clean (hre : (s.mline key).redirty = false) : writebackDone key s =
    lookFree (bankNo (lineAddr key (s.mline key).tag))
      (if (s.mline key).why = .wb then
        modLine key MapLine.written (storeSectors (lineAddr key (s.mline key).tag) (s.mline key).wbMask (s.mline key).wbuf s)
      else missEnter key (eraseLine key (storeSectors (lineAddr key (s.mline key).tag) (s.mline key).wbMask (s.mline key).wbuf s))) := by
  simp only [writebackDone, hst, hre, Bool.false_eq_true, if_false, if_true]

/-- A line written meanwhile is dirty again, and an invalidation writes it back once more. -/
theorem writebackDone_of_redirty (hre : (s.mline key).redirty = true) (hwhy : (s.mline key).why = .inv) : writebackDone key s =
    lookFree (bankNo (lineAddr key (s.mline key).tag)) (startWb key .inv (cnt bMAPC 6 1 (modLine key
      (fun m => { m with st := .dirty, redirty := false, wbuf := [], wbMask := 0 })
      (storeSectors (lineAddr key (s.mline key).tag) (s.mline key).wbMask (s.mline key).wbuf s)))) := by
  simp only [writebackDone, hst, hre, hwhy, if_true]

end

section
variable {v : Nat} {bad0 bad1 : List Nat} {r : Nat × Nat} {l : List (Nat × Nat)} {s : State}

/-- A probe that runs replaces the one before. -/
def probeBegun (ld dpa : Nat) (s : State) : State :=
  (s.modXlat (fun x =>
    { x with
      misses := x.misses.map (fun m => (m.1, { m.2 with users := m.2.users.filter (fun k => !(k.user == .probe)) }))
      stalled := (x.stalled.map (fun p => (p.1, p.2.filter (fun k => !(k.user == .probe))))).filter (fun p => p.2 != [])
      probe := some ⟨ld, dpa, none, false⟩ })) |> setF F.XLAT_PROBE_RESULT_DONE 0

theorem xlatProbe_runs (hv : v.testBit 63 = true) (hb : s.backed (v / 2 ^ 52 % 16) (v % 2 ^ 52 / 64 * 64) = true) :
    xlatProbe v s = foundAll (lookStart ⟨.probe, v / 2 ^ 52 % 16, v % 2 ^ 52 / 64 * 64, none, 0⟩
      (probeBegun (v / 2 ^ 52 % 16) (v % 2 ^ 52 / 64 * 64) s)) := (if_pos hv).trans (if_pos hb)

theorem probeBegun_no_probe (ld dpa : Nat) : ∀ p ∈ (probeBegun ld dpa s).xlat.misses, ∀ k ∈ p.2.users, (k.user == .probe) = false := by
  have hmisses : (probeBegun ld dpa s).xlat.misses =
      s.xlat.misses.map (fun m => (m.1, { m.2 with users := m.2.users.filter (fun k => !(k.user == .probe)) })) := rfl
  intro p hp k hk
  rw [hmisses, List.mem_map] at hp
  obtain ⟨m, -, rfl⟩ := hp
  simpa using (List.mem_filter.mp hk).right

theorem rebuildSectors_of_range (h : s.xlat.rebuilding = r :: l) : rebuildSectors bad0 bad1 s =
    settle (seqAll (sectorBuild bad0 bad1) ((List.range r.2).map (· + r.1)) (s.modXlat (fun x => { x with rebuilding := l }))) := by
  simp only [rebuildSectors, h]

end

/-! ### Gathers and frames (the merge buffer) -/

section
variable {a b : List Gather} {g : Gather} {tok : Nat} {leaves : List LeafRes} {s : State}

/-- The first gather that is open closes. -/
theorem closeFirst_append (ha : ∀ x ∈ a, x.closed = true) (hg : g.closed = false) : closeFirst (a ++ g :: b) = some (a ++ g.close :: b) := by
  induction a with
  | nil => exact if_neg (ne_true_of_eq_false hg)
  | cons x a ih =>
    have hrest := ih fun y hy => ha y (List.mem_cons_of_mem x hy)
    rw [List.cons_append, closeFirst, if_pos (ha x List.mem_cons_self), hrest]
    rfl

theorem closeOldest_of_open (h : s.coal.gathers = a ++ g :: b) (ha : ∀ x ∈ a, x.closed = true) (hg : g.closed = false) (idx : Nat) :
    closeOldest idx s = cnt bCOAL idx 1 (s.modCoal (fun c => { c with gathers := a ++ g.close :: b })) := by
  simp only [closeOldest, h, closeFirst_append ha hg]

theorem gatherMerge_of_poisoned (hg : s.mergeable [] s.coal.gathers = some g) (hhow : s.mergeHow g = .poisoned) :
    gatherMerge s = coalStatus (stageGather g s.newFrameTok [] allPoison s) := by
  simp only [gatherMerge, hg, hhow]

/-- The gather is no longer merging. -/
def gatherRead (g : Gather) (s : State) : State :=
  s.modCoal (fun c => { c with gathers := c.gathers.map (fun x => if x = g then { g with merging := none } else x) })

section
variable (hg : s.coal.gathers.find? (fun g => g.merging == some tok) = some g)
  (htable : foType (s.folio g.ld g.folio) = 2 ∨ s.tableForWrite = true)
include hg htable

theorem mergeRead_of_lost (hfr : frState (s.frameOfFolio (s.folio g.ld g.folio) g.frame) = 3) :
    mergeRead tok leaves s = coalStatus (stageGather { g with merging := none } tok [] allPoison (gatherRead g s)) := by
  have hmay : ¬ (foType (s.folio g.ld g.folio) ≠ 2 ∧ (!s.tableForWrite) = true) := by
    rcases htable with h | h <;> simp [h]
  simp only [mergeRead, hg, if_neg hmay, hfr]
  rfl

theorem mergeRead_of_unwritten (hfr1 : frState (s.frameOfFolio (s.folio g.ld g.folio) g.frame) ≠ 1)
    (hfr3 : frState (s.frameOfFolio (s.folio g.ld g.folio) g.frame) ≠ 3) :
    mergeRead tok leaves s = coalStatus (stageGather { g with merging := none } tok [] 0 (gatherRead g s)) := by
  have hmay : ¬ (foType (s.folio g.ld g.folio) ≠ 2 ∧ (!s.tableForWrite) = true) := by
    rcases htable with h | h <;> simp [h]
  simp only [mergeRead, hg, if_neg hmay, if_neg hfr1, if_neg hfr3]
  rfl

/-- The gather merges with what its frame's unit gave. -/
theorem mergeRead_of_media (hfr : frState (s.frameOfFolio (s.folio g.ld g.folio) g.frame) = 1)
    (hunit : s.unitHow (frLoc (s.frameOfFolio (s.folio g.ld g.folio) g.frame)) true ≠ .wait) : ∃ img mask u,
    mergeRead tok leaves s = coalStatus (stageGather { g with merging := none } tok img mask u) := by
  have hmay : ¬ (foType (s.folio g.ld g.folio) ≠ 2 ∧ (!s.tableForWrite) = true) := by
    rcases htable with h | h <;> simp [h]
  simp only [mergeRead, hg, if_neg hmay, if_pos hfr]
  split
  · next hw => exact absurd hw hunit
  · exact ⟨_, _, _, rfl⟩
  · exact ⟨_, _, _, rfl⟩

end

end

/-! ### The oldest held frame -/

section
variable {l : List (Nat × Frame)} {s : State}

/-- The older of two frames, the first of two of one age. -/
def olderFrame (b : Option (Nat × Frame)) (e : Nat × Frame) : Option (Nat × Frame) :=
  match b with
  | none => some e
  | some x => if e.2.order < x.2.order then some e else some x

theorem olderFrame_le (x e : Nat × Frame) : ∃ y, olderFrame (some x) e = some y ∧ (y = x ∨ y = e) ∧ y.2.order ≤ x.2.order ∧ y.2.order ≤ e.2.order := by
  unfold olderFrame
  by_cases h : e.2.order < x.2.order
  · exact ⟨e, if_pos h, .inr rfl, h.le, le_rfl⟩
  · exact ⟨x, if_neg h, .inl rfl, le_rfl, Nat.not_lt.mp h⟩

theorem foldl_olderFrame_some (l : List (Nat × Frame)) (x : Nat × Frame) : ∃ y, l.foldl olderFrame (some x) = some y ∧ y ∈ x :: l ∧
    ∀ e ∈ x :: l, y.2.order ≤ e.2.order := by
  induction l generalizing x with
  | nil => exact ⟨x, rfl, by simp, by simp⟩
  | cons e l ih =>
    obtain ⟨z, hz, hmem, hx, he⟩ := olderFrame_le x e
    obtain ⟨y, hy, hyl, hle⟩ := ih z
    have hyz := hle z List.mem_cons_self
    refine ⟨y, by rw [List.foldl_cons, hz, hy], ?_, ?_⟩
    · rcases List.mem_cons.mp hyl with rfl | h
      · rcases hmem with rfl | rfl <;> simp
      · simp [h]
    · intro w hw
      rcases List.mem_cons.mp hw with rfl | hw
      · exact hyz.trans hx
      · rcases List.mem_cons.mp hw with rfl | hw
        · exact hyz.trans he
        · exact hle w (List.mem_cons_of_mem z hw)

theorem foldl_olderFrame (h : l ≠ []) : ∃ y ∈ l, l.foldl olderFrame none = some y ∧ ∀ e ∈ l, y.2.order ≤ e.2.order := by
  obtain ⟨x, t, rfl⟩ := List.exists_cons_of_ne_nil h
  obtain ⟨y, hy, hmem, hle⟩ := foldl_olderFrame_some t x
  exact ⟨y, hmem, hy, hle⟩

/-- The frames that wait for more of their run. -/
def State.heldFrames (s : State) : List (Nat × Frame) :=
  s.coal.frames.filter (fun e => e.2.st == .staged && e.2.placed.isNone && !e.2.free)

theorem State.mem_heldFrames {e : Nat × Frame} : e ∈ s.heldFrames ↔
    e ∈ s.coal.frames ∧ e.2.st = .staged ∧ e.2.placed = none ∧ e.2.free = false := by
  simp [State.heldFrames, and_assoc]

theorem runHoldExpiry_of_oldest {e : Nat × Frame} (h : s.heldFrames.foldl olderFrame none = some e) :
    runHoldExpiry s = putFrame e.1 { e.2 with free := true } s := by
  unfold runHoldExpiry
  dsimp only
  split
  next x hx =>
    have hsame : some x = some e := hx.symm.trans h
    rw [Option.some.inj hsame]
  next hx =>
    have hnone : none = some e := hx.symm.trans h
    cases hnone

end

/-- Settles O54: each row by the equation of its operation in the case the statement names. -/
theorem requestsMailboxAndTranslationRowsComplete : Obligations.RequestsMailboxAndTranslationRowsComplete := by
  unfold Obligations.RequestsMailboxAndTranslationRowsComplete
  refine ⟨?read, ?write, ?flush, ?doe, ?status, ?clear, ?log, ?fw, fun view s h => mboxDo_of_runs h mboxRun_alertsOff, ?poison, ?erase, ?added,
    ?misfit, ?moved, fun s h => next_after_congr (arrayMoveDone_of_lookups h), ?fill, ?writeback, ?probe,
    fun r l bad0 bad1 s h => next_after_congr (rebuildSectors_of_range h), fun a b g s h ha hg => next_congr (closeOldest_of_open h ha hg 3),
    ?merge, ?media, ?hold⟩
  case read =>
    intro port ld tag dpa s r w k hopen hserves hadmits hwait hbacked
    have hrow : exec (.memRead port ld tag dpa) s = .next (regStatus (settle (foundAll (lookStart k w)))) :=
      next_congr ((memReq_of_admitted hopen hserves hadmits).trans (congrArg (fun t => regStatus (settle t)) (hostGo_backed hwait hbacked)))
    have found {t u : State} (h : foundAll (lookStart k w) = t) (ht : t = u) :
        exec (.memRead port ld tag dpa) s = .next (regStatus (settle u)) := by rw [hrow, h, ht]
    refine ⟨hrow, fun x hx => found (foundAll_none hx) rfl, fun f x huser hgood hx htype hkid hclean => ?_⟩
    have hfound := (foundAll_one hx).trans (foundGo_read huser hgood rfl)
    exact ⟨fun l hl hfull hp => found hfound (readFound_of_line htype hkid hclean hl hfull hp),
      fun hl hb => found hfound (readFound_of_zeros htype hkid hclean hl hb),
      fun p hl hb => found hfound (readFound_of_media htype hkid hclean hl hb)⟩
  case write =>
    intro port ld tag dpa mask data poison s r w k hopen hserves hadmits hwait hbacked
    have hrow : exec (.memWrite port ld tag dpa mask data poison) s = .next (regStatus (settle (foundAll (lookStart k w)))) :=
      next_congr ((memReq_of_admitted hopen hserves hadmits).trans (congrArg (fun t => regStatus (settle t)) (hostGo_backed hwait hbacked)))
    have found {f : Found} {x t : State} (huser : f.look.user = .host r) (hgood : f.bad = false) (hx : lookStart k w = ([f], x))
        (ht : writeTry r x = t) : exec (.memWrite port ld tag dpa mask data poison) s = .next (regStatus (settle t)) := by
      rw [hrow, (foundAll_one hx).trans (foundGo_write huser hgood rfl), ht]
    exact ⟨hrow, fun f x huser hgood hx hfree hroom => found huser hgood hx (writeTry_of_room hfree hroom),
      fun f x huser hgood hx hfree hroom hline => found huser hgood hx (writeTry_of_full hfree hroom hline)⟩
  case flush =>
    intro port s hgpf hfirst u
    refine ⟨fun htrans => next_congr (gpfPhase2_of_not_parking hgpf hfirst htrans), fun htrans hnone => next_congr ?ended,
      fun f htrans hf => next_congr ?waits⟩
    case ended =>
      have hfind : s.dur.forces.find? (fun f => decide (f.what = .mode)) = none := List.find?_eq_none.mpr (by simpa using hnone)
      rw [gpfPhase2_of_parking hgpf hfirst htrans, hfind]
    case waits => rw [gpfPhase2_of_parking hgpf hfirst htrans, hf]
  case doe =>
    exact fun port secured i s hup => ⟨⟨_, rfl, doeRequest_spdm_outs hup secured⟩, fun hi => next_congr (doeRequest_past hup hi)⟩
  case status => exact fun view s h hrun hlast => mboxDo_of_runs h (mboxRun_status_of_none hrun hlast)
  case clear =>
    intro view log n s h hlog old
    refine ⟨fun hn => (mboxDo_of_runs h (mboxRun_clear log.toNat n.toNat hlog hn.le)).trans (next_after_congr ?some),
      fun hn => (mboxDo_of_runs h (mboxRun_clear log.toNat n.toNat hlog hn.le)).trans (next_after_congr ?all)⟩
    case some =>
      have hleft : ¬ old.drop n.toNat = [] := by simpa using hn
      simp only [old] at hleft
      simp only [if_neg hleft, old]
    case all =>
      have hleft : old.drop n.toNat = [] := by simp [hn]
      simp only [old] at hleft
      simp only [hleft, if_true]
  case log =>
    intro view s h
    obtain ⟨v, hv⟩ := mboxRun_vendorLog (view := view.val) (s := s)
    exact ⟨v, mboxDo_of_runs h hv⟩
  case fw =>
    intro view slot i s hstage
    refine ⟨fun h hact hreload hslot => ?transfer, fun h hslot => ?activate⟩
    case transfer =>
      refine next_after_congr ((mbox_of_runs h).trans ?_)
      rw [hslot, mboxRun_transferFw, mboxTransferFw_of_waiting hstage hact hreload]
    case activate =>
      obtain ⟨honline, hreset⟩ := mboxActivateFw_of_waiting (view := view.val) hstage
      refine ⟨next_congr (congrArg domeAfter ((mbox_of_runs h).trans ?online)), mboxDo_of_runs h ?reset⟩
      case online => rw [hslot, mboxRun_activateFw, honline]
      case reset => rw [hslot, mboxRun_activateFw, hreset]
  case poison =>
    exact fun view dpa data s => ⟨fun h hlc hb => mboxDo_of_runs h ((mboxRun_inject _).trans (mboxInject_of_unbacked hlc hb)),
      fun h hb => mboxDo_of_runs h ((mboxRun_clearPoison _ _).trans (mboxClearPoison_of_unbacked _ hb)),
      fun h hb hroom => mboxDo_of_runs h ((mboxRun_clearPoison _ _).trans (mboxClearPoison_of_full _ hb hroom))⟩
  case erase =>
    intro view op c s hc h hfree hmgmt
    rcases hc with ⟨rfl, rfl⟩ | ⟨rfl, rfl⟩
    · exact mboxDo_of_runs h (mboxRun_sanitize.trans (mboxErase_of_mgmt hfree hmgmt))
    · exact mboxDo_of_runs h (mboxRun_secureErase.trans (mboxErase_of_mgmt hfree hmgmt))
  case added => exact fun view es acc s h hadd hcap => mboxDo_of_runs h ((mboxRun_dcAdd _).trans (mboxDcAdd_of_fit hadd hcap))
  case misfit => exact fun view es s h hadd => mboxDo_of_runs h ((mboxRun_dcAdd _).trans (mboxDcAdd_of_misfit hadd))
  case moved =>
    intro s hmove hmiss hstall hcmd
    refine next_after_congr ((arrayMoveDone_of_moved hmove hmiss hstall).trans ?_)
    rw [hcmd]
    rfl
  case fill =>
    intro bank sector out ctr m s hm hw
    obtain ⟨lost, u, hend, hlost⟩ := mapFill_of_miss (sector := sector.val) (out := out) (ctr := ctr) hm hw
    exact ⟨lost, u, next_after_congr hend, hlost⟩
  case writeback =>
    intro way s m u hst
    have row {t : List Found × State} (h : writebackDone way.val s = t) : exec (.mapWritebackDone way) s = .next (settle (foundAll t)) :=
      next_congr (congrArg (fun t => settle (foundAll t)) h)
    refine ⟨fun hre hwhy => row ((writebackDone_of_clean hst hre).trans ?kept), fun hre hwhy => row ((writebackDone_of_clean hst hre).trans ?freed),
      fun hre hwhy => row (writebackDone_of_redirty hst hre hwhy)⟩
    case kept => rw [if_pos hwhy]
    case freed => rw [if_neg hwhy]
  case probe =>
    intro m v s ld dpa hv hb
    exact ⟨probeBegun ld dpa s, next_congr (xlatProbe_runs hv hb), rfl, State.get_setF_lt _ (by decide), rfl, probeBegun_no_probe ld dpa⟩
  case merge =>
    exact fun g s hdrain hg hhow => next_congr ((if_pos hdrain).trans (congrArg settle (gatherMerge_of_poisoned hg hhow)))
  case media =>
    intro tok g leaves s hg e fe g1 s0 htable
    have row {t : State} (h : mergeRead tok.val leaves s = t) : exec (.mergeMediaReadDone tok leaves) s = .next (settle t) :=
      next_congr (congrArg settle h)
    refine ⟨fun hfr hunit => ?read, fun hfr => row (mergeRead_of_lost hg htable hfr), fun h1 h3 => row (mergeRead_of_unwritten hg htable h1 h3)⟩
    case read =>
      obtain ⟨img, mask, u, h⟩ := mergeRead_of_media (leaves := leaves) hg htable hfr hunit
      exact ⟨img, mask, u, row h⟩
  case hold =>
    rintro s ⟨e, he, hst, hplaced, hfree⟩
    have hheld : e ∈ s.heldFrames := State.mem_heldFrames.mpr ⟨he, hst, hplaced, hfree⟩
    obtain ⟨y, hy, hfold, hle⟩ := foldl_olderFrame (List.ne_nil_of_mem hheld)
    obtain ⟨hmem, hyst, hyplaced, hyfree⟩ := State.mem_heldFrames.mp hy
    exact ⟨y, hmem, hyst, hyplaced, hyfree, fun x hx hxst hxplaced hxfree => hle x (State.mem_heldFrames.mpr ⟨hx, hxst, hxplaced, hxfree⟩),
      next_congr (runHoldExpiry_of_oldest hfold)⟩

end Sys2Proof.Machine
end

section
/-! PROOFS. What leaves the life-cycle transition alone: every operation that the end of a mode transition runs. -/

namespace Sys2Proof.Machine

/-! ### The frame of the life-cycle transition (R397)

An operation reaches the life-cycle unit by its own commands only; the lemmas follow the model's calls, callee first, so that `simp`
closes each from those above it. -/

/-- The target of the life-cycle transition that runs, if one does. -/
def State.lcTrans (s : State) : Option Nat := s.lcs.trans

section
variable {s : State}

@[simp] theorem State.lcTrans_modGlb (g : Glb → Glb) : (s.modGlb g).lcTrans = s.lcTrans := (rfl)
@[simp] theorem State.lcTrans_modStart (g : Start → Start) : (s.modStart g).lcTrans = s.lcTrans := (rfl)
@[simp] theorem State.lcTrans_modLog (g : LogSt → LogSt) : (s.modLog g).lcTrans = s.lcTrans := (rfl)
@[simp] theorem State.lcTrans_modSpec (g : SpecSt → SpecSt) : (s.modSpec g).lcTrans = s.lcTrans := (rfl)
@[simp] theorem State.lcTrans_modClk (g : ClkSt → ClkSt) : (s.modClk g).lcTrans = s.lcTrans := (rfl)
@[simp] theorem State.lcTrans_modAlm (g : AlmSt → AlmSt) : (s.modAlm g).lcTrans = s.lcTrans := (rfl)
@[simp] theorem State.lcTrans_modFind (g : FindSt → FindSt) : (s.modFind g).lcTrans = s.lcTrans := (rfl)
@[simp] theorem State.lcTrans_modDome (g : DomeSt → DomeSt) : (s.modDome g).lcTrans = s.lcTrans := (rfl)
@[simp] theorem State.lcTrans_modSbus (g : SbusSt → SbusSt) : (s.modSbus g).lcTrans = s.lcTrans := (rfl)
@[simp] theorem State.lcTrans_modHost (g : HostSt → HostSt) : (s.modHost g).lcTrans = s.lcTrans := (rfl)
@[simp] theorem State.lcTrans_modXlat (g : XlatSt → XlatSt) : (s.modXlat g).lcTrans = s.lcTrans := (rfl)
@[simp] theorem State.lcTrans_modCoal (g : CoalSt → CoalSt) : (s.modCoal g).lcTrans = s.lcTrans := (rfl)
@[simp] theorem State.lcTrans_modMed (g : MedSt → MedSt) : (s.modMed g).lcTrans = s.lcTrans := (rfl)
@[simp] theorem State.lcTrans_modDrift (g : DriftSt → DriftSt) : (s.modDrift g).lcTrans = s.lcTrans := (rfl)
@[simp] theorem State.lcTrans_modFld (g : FldSt → FldSt) : (s.modFld g).lcTrans = s.lcTrans := (rfl)
@[simp] theorem State.lcTrans_modDur (g : DurSt → DurSt) : (s.modDur g).lcTrans = s.lcTrans := (rfl)
@[simp] theorem State.lcTrans_modWm (g : WmSt → WmSt) : (s.modWm g).lcTrans = s.lcTrans := (rfl)
@[simp] theorem State.lcTrans_modCiph (g : CiphSt → CiphSt) : (s.modCiph g).lcTrans = s.lcTrans := (rfl)
@[simp] theorem State.lcTrans_modRegu (g : RegSt → RegSt) : (s.modRegu g).lcTrans = s.lcTrans := (rfl)
@[simp] theorem State.lcTrans_modLedg (g : LedgSt → LedgSt) : (s.modLedg g).lcTrans = s.lcTrans := (rfl)
@[simp] theorem State.lcTrans_modRing (g : RingSt → RingSt) : (s.modRing g).lcTrans = s.lcTrans := (rfl)
@[simp] theorem State.lcTrans_modImg (g : ImgSt → ImgSt) : (s.modImg g).lcTrans = s.lcTrans := (rfl)
@[simp] theorem State.lcTrans_modRegs (g : Tbl Nat → Tbl Nat) : (s.modRegs g).lcTrans = s.lcTrans := (rfl)

@[simp] theorem setF_lcTrans (f : Fld) (v : Nat) : (setF f v s).lcTrans = s.lcTrans := (rfl)
@[simp] theorem lcTrans_modHolds (g) : (s.modHolds g).lcTrans = s.lcTrans := (rfl)
@[simp] theorem lcTrans_modOuts (g) : (s.modOuts g).lcTrans = s.lcTrans := (rfl)
@[simp] theorem lcTrans_modFreeCnt (g) : (s.modFreeCnt g).lcTrans = s.lcTrans := (rfl)

theorem when_lcTrans {b : Bool} {u : State → State} (hu : ∀ t, (u t).lcTrans = t.lcTrans) : (when b u s).lcTrans = s.lcTrans := by
  cases b
  · rfl
  · exact hu s

theorem seqAll_lcTrans {α : Type} {u : α → State → State} {l : List α} (hu : ∀ a t, (u a t).lcTrans = t.lcTrans) :
    (seqAll u l s).lcTrans = s.lcTrans :=
  seqAll_kept (P := fun t => t.lcTrans = s.lcTrans) (fun a {_} h => (hu a _).trans h) rfl


end

section
variable (s : State)

/-! #### Registers, the log and the counters -/

@[simp] theorem setB_lcTrans (f : Fld) (b : Bool) : (setB f b s).lcTrans = s.lcTrans := (rfl)
@[simp] theorem incF_lcTrans (f : Fld) (n : Nat) : (incF f n s).lcTrans = s.lcTrans := (rfl)
@[simp] theorem emit_lcTrans (o : Out) : (emit o s).lcTrans = s.lcTrans := (rfl)

@[simp] theorem msixSend_lcTrans (view vector : Nat) : (msixSend view vector s).lcTrans = s.lcTrans := by
  simp [msixSend, apply_ite State.lcTrans]

@[simp] theorem raiseInt_lcTrans (b : Nat) : (raiseInt b s).lcTrans = s.lcTrans := by simp [raiseInt, apply_ite State.lcTrans]

@[simp] theorem setErr_lcTrans (f : Fld) (cause : Nat) : (setErr f cause s).lcTrans = s.lcTrans := by
  simp [setErr, apply_ite State.lcTrans]

@[simp] theorem takeNat_lcTrans : (takeNat s).2.lcTrans = s.lcTrans := (rfl)
@[simp] theorem takeLine_lcTrans : (takeLine s).2.lcTrans = s.lcTrans := (rfl)

@[simp] theorem logStore_lcTrans (code source sev p0 p1 p2 p3 : Nat) : (logStore code source sev p0 p1 p2 p3 s).lcTrans = s.lcTrans := by
  simp [logStore, apply_ite State.lcTrans]

@[simp] theorem logLost_lcTrans : (logLost s).lcTrans = s.lcTrans := by simp [logLost, apply_ite State.lcTrans]

@[simp] theorem logFrom_lcTrans (source sev code p0 p1 p2 p3 : Nat) : (logFrom source sev code p0 p1 p2 p3 s).lcTrans = s.lcTrans := by
  simp [logFrom, apply_ite State.lcTrans]

@[simp] theorem logPut_lcTrans (sev code p0 p1 p2 p3 : Nat) : (logPut sev code p0 p1 p2 p3 s).lcTrans = s.lcTrans := by simp [logPut]
@[simp] theorem logOpen_lcTrans (blk p0 p1 : Nat) : (logOpen blk p0 p1 s).lcTrans = s.lcTrans := by simp [logOpen]
@[simp] theorem cnt_lcTrans (blk idx n : Nat) : (cnt blk idx n s).lcTrans = s.lcTrans := (rfl)
@[simp] theorem mboxDone_lcTrans (view op rc : Nat) (out : List Nat) : (mboxDone view op rc out s).lcTrans = s.lcTrans := (rfl)

/-! #### Working memory -/

@[simp] theorem recDisqualified_lcTrans (ssc : Bool) : (recDisqualified ssc s).lcTrans = s.lcTrans := by
  simp [recDisqualified, apply_ite State.lcTrans, when_lcTrans]

@[simp] theorem ceRecord_lcTrans (loc : WmLoc) : (ceRecord loc s).lcTrans = s.lcTrans := by
  unfold ceRecord
  dsimp only
  repeat' split
  all_goals simp

@[simp] theorem wmUe_lcTrans (loc : WmLoc) : (wmUe loc s).lcTrans = s.lcTrans := by simp [wmUe]

@[simp] theorem wmDecode_lcTrans (line : Nat) (o : WmOut) : (wmDecode line o s).2.lcTrans = s.lcTrans := by
  unfold wmDecode
  split <;> simp

@[simp] theorem setCtr_lcTrans (level idx : Nat) (l : Nat × Tbl Nat) : (setCtr level idx l s).lcTrans = s.lcTrans := (rfl)
@[simp] theorem meridKeys_lcTrans : (meridKeys s).lcTrans = s.lcTrans := (rfl)
@[simp] theorem meridWrap_lcTrans : (meridWrap s).lcTrans = s.lcTrans := by simp [meridWrap]

@[simp] theorem ctrBump_lcTrans (level idx j : Nat) : (ctrBump level idx j s).lcTrans = s.lcTrans := by
  simp [ctrBump, apply_ite State.lcTrans]

@[simp] theorem putCcSet_lcTrans (n : Nat) (c : CcSet) : (putCcSet n c s).lcTrans = s.lcTrans := (rfl)

@[simp] theorem metaWriteback_lcTrans (n : Nat) : (metaWriteback n s).2.lcTrans = s.lcTrans := by
  unfold metaWriteback
  split <;> simp

@[simp] theorem metaUse_lcTrans (n : Nat) (dirty : Bool) : (metaUse n dirty s).2.lcTrans = s.lcTrans := by
  unfold metaUse
  dsimp only
  repeat' split
  all_goals simp

@[simp] theorem metaRun_lcTrans (n : Nat) (l : List (Nat × Bool)) : (metaRun n l s).lcTrans = s.lcTrans := by
  induction n generalizing l s with
  | zero => cases l <;> rfl
  | succ n ih =>
    cases l with
    | nil => rfl
    | cons p l => rw [metaRun, ih, metaUse_lcTrans]

@[simp] theorem lineMeta_lcTrans (line : Nat) (wr : Bool) : (lineMeta line wr s).lcTrans = s.lcTrans := by
  simp [lineMeta, apply_ite State.lcTrans, when_lcTrans]

@[simp] theorem wmLineWritten_lcTrans (line : Nat) : (wmLineWritten line s).lcTrans = s.lcTrans := by simp [wmLineWritten]
@[simp] theorem unmark_lcTrans (line : Nat) : (unmark line s).lcTrans = s.lcTrans := (rfl)
@[simp] theorem wmLineRead_lcTrans (line : Nat) : (wmLineRead line s).lcTrans = s.lcTrans := by simp [wmLineRead]

@[simp] theorem wmStoreBytes_lcTrans (line mask : Nat) (bytes : Tbl Nat) : (wmStoreBytes line mask bytes s).lcTrans = s.lcTrans := by
  simp [wmStoreBytes, apply_ite State.lcTrans]

@[simp] theorem mergeFlush_lcTrans (e : MergeEnt) (out : WmOut) : (mergeFlush e out s).lcTrans = s.lcTrans := by
  simp [mergeFlush, apply_ite State.lcTrans]

@[simp] theorem mergeFlushAll_lcTrans : (mergeFlushAll s).lcTrans = s.lcTrans := by simp [mergeFlushAll, seqAll_lcTrans]

@[simp] theorem wmNarrow_lcTrans (line mask : Nat) (bytes : Tbl Nat) : (wmNarrow line mask bytes s).lcTrans = s.lcTrans := by
  unfold wmNarrow
  dsimp only
  repeat' split
  all_goals simp

@[simp] theorem flushFor_lcTrans (line : Nat) : (flushFor line s).lcTrans = s.lcTrans := by
  unfold flushFor
  split <;> simp

@[simp] theorem flushLines_lcTrans (lines : List Nat) : (flushLines lines s).lcTrans = s.lcTrans := by simp [flushLines, seqAll_lcTrans]
@[simp] theorem wmRead_lcTrans (line : Nat) : (wmRead line s).lcTrans = s.lcTrans := by simp [wmRead]
@[simp] theorem wmWriteBytes_lcTrans (a n v : Nat) : (wmWriteBytes a n v s).lcTrans = s.lcTrans := by simp [wmWriteBytes]
@[simp] theorem regStatus_lcTrans : (regStatus s).lcTrans = s.lcTrans := (rfl)

/-! #### The journal and the host's view -/

@[simp] theorem takeAseq_lcTrans : (takeAseq s).2.lcTrans = s.lcTrans := (rfl)
@[simp] theorem captureAt_lcTrans (aseq typ ld kid addr : Nat) (data : List Nat) :
    (captureAt aseq typ ld kid addr data s).lcTrans = s.lcTrans := (rfl)

@[simp] theorem capture_lcTrans (typ ld kid addr : Nat) (data : List Nat) : (capture typ ld kid addr data s).lcTrans = s.lcTrans := (rfl)
@[simp] theorem captureChunks_lcTrans (f : Frame) : (captureChunks f s).lcTrans = s.lcTrans := by simp [captureChunks, seqAll_lcTrans]
@[simp] theorem modLd_lcTrans (n : Nat) (f : LdSt → LdSt) : (modLd n f s).lcTrans = s.lcTrans := (rfl)
@[simp] theorem modPort_lcTrans (p : Nat) (f : PortSt → PortSt) : (modPort p f s).lcTrans = s.lcTrans := (rfl)
@[simp] theorem ldStatus_lcTrans (n : Nat) : (ldStatus n s).lcTrans = s.lcTrans := (rfl)
@[simp] theorem ldStatusAll_lcTrans : (ldStatusAll s).lcTrans = s.lcTrans := (rfl)
@[simp] theorem eventIrq_lcTrans (n log : Nat) : (eventIrq n log s).lcTrans = s.lcTrans := by simp [eventIrq, when_lcTrans]

@[simp] theorem event_lcTrans (n log kind arg : Nat) : (event n log kind arg s).lcTrans = s.lcTrans := by
  simp [event, apply_ite State.lcTrans]

@[simp] theorem unbackedEvent_lcTrans (n dpa : Nat) : (unbackedEvent n dpa s).lcTrans = s.lcTrans := by
  simp [unbackedEvent, apply_ite State.lcTrans]

@[simp] theorem kidEvent_lcTrans (n dpa : Nat) : (kidEvent n dpa s).lcTrans = s.lcTrans := by simp [kidEvent, apply_ite State.lcTrans]
@[simp] theorem ldCfg_lcTrans (n : Nat) : (ldCfg n s).lcTrans = s.lcTrans := (rfl)
@[simp] theorem wpSet_lcTrans (n bit : Nat) : (wpSet n bit s).lcTrans = s.lcTrans := by simp [wpSet, apply_ite State.lcTrans]
@[simp] theorem balancedReset_lcTrans (ledger idx : Nat) : (balancedReset ledger idx s).lcTrans = s.lcTrans := (rfl)
@[simp] theorem credBack_lcTrans (port cls : Nat) : (credBack port cls s).lcTrans = s.lcTrans := (rfl)

@[simp] theorem credRelease_lcTrans : (credRelease s).lcTrans = s.lcTrans := by
  simp [credRelease, apply_ite State.lcTrans, seqAll_lcTrans]

@[simp] theorem respSend_lcTrans (o : Out) : (respSend o s).lcTrans = s.lcTrans := by
  unfold respSend
  split <;> simp [apply_ite State.lcTrans]

@[simp] theorem respond_lcTrans (o : Out) : (respond o s).lcTrans = s.lcTrans := by simp [respond, apply_ite State.lcTrans]
@[simp] theorem sendCmp_lcTrans (r : HReq) : (sendCmp r s).lcTrans = s.lcTrans := by simp [sendCmp]
@[simp] theorem sendData_lcTrans (r : HReq) (d : Line) (poison : Bool) : (sendData r d poison s).lcTrans = s.lcTrans := by simp [sendData]
@[simp] theorem sendPoison_lcTrans (r : HReq) : (sendPoison r s).lcTrans = s.lcTrans := by simp [sendPoison]
@[simp] theorem refuseReq_lcTrans (r : HReq) : (refuseReq r s).lcTrans = s.lcTrans := by simp [refuseReq, apply_ite State.lcTrans]
@[simp] theorem discardWrite_lcTrans (r : HReq) : (discardWrite r s).lcTrans = s.lcTrans := by simp [discardWrite]
@[simp] theorem parkRefuse_lcTrans (r : HReq) : (parkRefuse r s).lcTrans = s.lcTrans := by simp [parkRefuse, apply_ite State.lcTrans]

@[simp] theorem poisonAdd_lcTrans (n dpa src : Nat) : (poisonAdd n dpa src s).lcTrans = s.lcTrans := by
  simp [poisonAdd, apply_ite State.lcTrans]

@[simp] theorem poisonRemove_lcTrans (n dpa : Nat) : (poisonRemove n dpa s).lcTrans = s.lcTrans := (rfl)
@[simp] theorem sealRecs_lcTrans (drain drainEnd parkEnd : Bool) (recs : List JRec) :
    (sealRecs drain drainEnd parkEnd recs s).lcTrans = s.lcTrans := (rfl)

@[simp] theorem sealOne_lcTrans (drain : Bool) : (sealOne drain s).lcTrans = s.lcTrans := by
  unfold sealOne
  split <;> simp

@[simp] theorem sealAllN_lcTrans (n : Nat) (d : Bool) : (sealAllN n d s).lcTrans = s.lcTrans := by
  induction n generalizing s with
  | zero => rfl
  | succ n ih => rw [sealAllN, ih, sealOne_lcTrans]

@[simp] theorem sealAll_lcTrans (drain : Bool) : (sealAll drain s).lcTrans = s.lcTrans := by simp [sealAll]
@[simp] theorem buildLimit_lcTrans : (buildLimit s).lcTrans = s.lcTrans := by simp [buildLimit, apply_ite State.lcTrans]

@[simp] theorem forceDone_lcTrans (w : ForceFor) : (forceDone w s).lcTrans = s.lcTrans := by
  unfold forceDone
  split <;> simp

@[simp] theorem forcesCheck_lcTrans : (forcesCheck s).lcTrans = s.lcTrans := by simp [forcesCheck, seqAll_lcTrans]

@[simp] theorem bypassExpire_lcTrans (tok : Nat) : (bypassExpire tok s).lcTrans = s.lcTrans := by
  unfold bypassExpire
  split <;> simp [apply_ite State.lcTrans]

@[simp] theorem forceCommit_lcTrans (w : ForceFor) : (forceCommit w s).lcTrans = s.lcTrans := by simp [forceCommit, seqAll_lcTrans]

@[simp] theorem rescore_lcTrans (set : Nat) : (rescore set s).lcTrans = s.lcTrans := by
  unfold rescore
  dsimp only
  repeat' split
  all_goals simp

/-! #### Translation and coalescing -/

@[simp] theorem modLine_lcTrans (k : Nat) (f : MapLine → MapLine) : (modLine k f s).lcTrans = s.lcTrans := (rfl)

@[simp] theorem chooseWay_lcTrans (l : Nat) : (chooseWay l s).2.lcTrans = s.lcTrans := by
  unfold chooseWay
  dsimp only
  split <;> simp

@[simp] theorem storeSectors_lcTrans (l mask : Nat) (words : Tbl Nat) : (storeSectors l mask words s).lcTrans = s.lcTrans := by
  simp [storeSectors, seqAll_lcTrans]

@[simp] theorem flushLine_lcTrans (k : Nat) : (flushLine k s).lcTrans = s.lcTrans := by simp [flushLine, apply_ite State.lcTrans]
@[simp] theorem eraseLine_lcTrans (k : Nat) : (eraseLine k s).lcTrans = s.lcTrans := (rfl)
@[simp] theorem startWb_lcTrans (k : Nat) (why : WbWhy) : (startWb k why s).lcTrans = s.lcTrans := (rfl)
/-- What a pair's second part keeps, the state under its own name keeps. -/
theorem lcTrans_of_pair {α : Type} {p : α × State} {a : α} {s t : State} (h : p = (a, t)) (hp : p.2.lcTrans = s.lcTrans) : t.lcTrans = s.lcTrans := by
  rw [← hp, h]

@[simp] theorem takeWayNow_lcTrans (l : Nat) : (takeWayNow l s).2.lcTrans = s.lcTrans := by
  unfold takeWayNow
  dsimp only
  split
  next w s1 h => rw [eraseLine_lcTrans, flushLine_lcTrans, lcTrans_of_pair h (chooseWay_lcTrans s l)]
  next s1 h =>
    have hway := lcTrans_of_pair h (chooseWay_lcTrans s l)
    split <;> simp [hway]

@[simp] theorem stallCount_lcTrans : (stallCount s).lcTrans = s.lcTrans := (rfl)
@[simp] theorem sectorUe_lcTrans (sector : Nat) : (sectorUe sector s).lcTrans = s.lcTrans := by simp [sectorUe]

@[simp] theorem fillNow_lcTrans (word : Nat) : (fillNow word s).lcTrans = s.lcTrans := by
  unfold fillNow
  dsimp only
  split
  · rfl
  · split
    · simp
    · split
      · simp
      · split
        · split <;> simp [when_lcTrans]
        · split
          next w s1 h =>
            have hway := lcTrans_of_pair h (takeWayNow_lcTrans s _)
            simp [when_lcTrans, seqAll_lcTrans, hway]
          next s1 h => exact lcTrans_of_pair h (takeWayNow_lcTrans s _)

@[simp] theorem mapPut_lcTrans (word v : Nat) : (mapPut word v s).lcTrans = s.lcTrans := by
  unfold mapPut
  dsimp only
  split <;> simp [apply_ite State.lcTrans]

@[simp] theorem lookStall_lcTrans (l : Nat) (k : Look) (first : Bool) : (lookStall l k first s).lcTrans = s.lcTrans := by
  simp [lookStall, apply_ite State.lcTrans]

@[simp] theorem missStart_lcTrans (l way sectors : Nat) (wait : Bool) (k : Look) : (missStart l way sectors wait k s).lcTrans = s.lcTrans := by
  simp [missStart, when_lcTrans]

@[simp] theorem wayFill_lcTrans (l way : Nat) : (wayFill l way s).lcTrans = s.lcTrans := (rfl)

@[simp] theorem wayTake_lcTrans (l way : Nat) : (wayTake l way s).2.lcTrans = s.lcTrans := by
  unfold wayTake
  split <;> simp

@[simp] theorem lookOnce_lcTrans (k : Look) : (lookOnce k s).2.lcTrans = s.lcTrans := by
  unfold lookOnce
  dsimp only
  split
  · simp
  · split
    · simp
    · split
      · split <;> simp
      · split
        · simp only [apply_ite Prod.snd, apply_ite State.lcTrans]
          simp
        · split
          · simp
          · split
            next s1 h => simp [lcTrans_of_pair h (chooseWay_lcTrans s _)]
            next w s1 h => simp [lcTrans_of_pair h (chooseWay_lcTrans s _)]

@[simp] theorem lookRun_lcTrans (n : Nat) (k : Look) (r : List Found × State) : (lookRun n k r).2.lcTrans = r.2.lcTrans := by
  induction n generalizing k r with
  | zero => rfl
  | succ n ih =>
    obtain ⟨fs, s⟩ := r
    unfold lookRun
    split
    · rfl
    · split
      next s1 h => exact lcTrans_of_pair h (lookOnce_lcTrans s k)
      next v s1 h =>
        have hlook := lcTrans_of_pair h (lookOnce_lcTrans s k)
        split
        · exact (ih _ _).trans hlook
        · exact hlook

@[simp] theorem lookStart_lcTrans (k : Look) : (lookStart k s).2.lcTrans = s.lcTrans := by simp [lookStart]
@[simp] theorem modKid_lcTrans (k : Nat) (f : Kid → Kid) : (modKid k f s).lcTrans = s.lcTrans := (rfl)
@[simp] theorem refAdd_lcTrans (k : Nat) : (refAdd k s).lcTrans = s.lcTrans := (rfl)
@[simp] theorem setFolio_lcTrans (ld f e : Nat) : (setFolio ld f e s).lcTrans = s.lcTrans := by simp [setFolio]

@[simp] theorem clearSealPend_lcTrans (ld f : Nat) : (clearSealPend ld f s).lcTrans = s.lcTrans := by
  simp [clearSealPend, apply_ite State.lcTrans]

@[simp] theorem refreshPoisonAny_lcTrans (ld f : Nat) : (refreshPoisonAny ld f s).lcTrans = s.lcTrans := by
  simp [refreshPoisonAny, apply_ite State.lcTrans]

@[simp] theorem coalStatus_lcTrans : (coalStatus s).lcTrans = s.lcTrans := by simp [coalStatus, when_lcTrans]

@[simp] theorem closeOldest_lcTrans (idx : Nat) : (closeOldest idx s).lcTrans = s.lcTrans := by
  unfold closeOldest
  split <;> simp

@[simp] theorem closeGathers_lcTrans (p : Gather → Bool) : (closeGathers p s).lcTrans = s.lcTrans := (rfl)
@[simp] theorem linePressure_lcTrans : (linePressure s).lcTrans = s.lcTrans := by simp [linePressure, apply_ite State.lcTrans]
@[simp] theorem gatherPressure_lcTrans : (gatherPressure s).lcTrans = s.lcTrans := by simp [gatherPressure, apply_ite State.lcTrans]

@[simp] theorem gatherLine_lcTrans (ld dpa : Nat) (whole : Bool) : (gatherLine ld dpa whole s).lcTrans = s.lcTrans := by
  simp [gatherLine, apply_ite State.lcTrans, when_lcTrans]

@[simp] theorem gatherFull_lcTrans (ld dpa : Nat) : (gatherFull ld dpa s).lcTrans = s.lcTrans := by
  simp [gatherFull, apply_ite State.lcTrans]

@[simp] theorem acceptLine_lcTrans (ld dpa mask : Nat) (data : Line) (poison : Bool) :
    (acceptLine ld dpa mask data poison s).lcTrans = s.lcTrans := by
  unfold acceptLine
  dsimp only
  repeat' split
  all_goals simp [when_lcTrans]

@[simp] theorem mediaLine_lcTrans (pfa ld f i kid line : Nat) : (mediaLine pfa ld f i kid line s).2.lcTrans = s.lcTrans := by
  unfold mediaLine
  split
  · split <;> simp
  · simp

/-! #### Media reads -/

@[simp] theorem releaseHolds_lcTrans (p : Frame → Bool) : (releaseHolds p s).lcTrans = s.lcTrans := (rfl)
@[simp] theorem syncDrain_lcTrans (w : ForceFor) : (syncDrain w s).lcTrans = s.lcTrans := by simp [syncDrain]
@[simp] theorem sweepStatus_lcTrans : (sweepStatus s).lcTrans = s.lcTrans := (rfl)

@[simp] theorem measStart_lcTrans (set member cls : Nat) (sweep : Bool) : (measStart set member cls sweep s).lcTrans = s.lcTrans := by
  simp [measStart, apply_ite State.lcTrans]

@[simp] theorem drecClearAll_lcTrans : (drecClearAll s).lcTrans = s.lcTrans := by simp [drecClearAll, seqAll_lcTrans]
@[simp] theorem wakeCh_lcTrans (c : Nat) : (wakeCh c s).lcTrans = s.lcTrans := by simp [wakeCh, apply_ite State.lcTrans]
@[simp] theorem laneCount_lcTrans (n : Nat) : (laneCount n s).lcTrans = s.lcTrans := (rfl)
@[simp] theorem measWait_lcTrans (pfa : Nat) (host : Bool) : (measWait pfa host s).lcTrans = s.lcTrans := by simp [measWait]

@[simp] theorem rebuildCount_lcTrans (c : Nat) (w : RbWhy) : (rebuildCount c w s).lcTrans = s.lcTrans := by
  simp [rebuildCount, when_lcTrans]

@[simp] theorem park_lcTrans (r : HReq) : (park r s).lcTrans = s.lcTrans := (rfl)
@[simp] theorem readNs_lcTrans (r : HReq) (ns : Nat) : (readNs r ns s).lcTrans = s.lcTrans := (rfl)
@[simp] theorem answerPoison_lcTrans (r : HReq) (misses : Nat) : (answerPoison r misses s).lcTrans = s.lcTrans := by simp [answerPoison]

@[simp] theorem answerHere_lcTrans (r : HReq) (d : Line) (misses : Nat) : (answerHere r d misses s).lcTrans = s.lcTrans := by
  simp [answerHere]

@[simp] theorem addRead_lcTrans (q : RdReq) : (addRead q s).lcTrans = s.lcTrans := (rfl)

@[simp] theorem rebuildStart_lcTrans (pfa leaf : Nat) : (rebuildStart pfa leaf s).2.lcTrans = s.lcTrans := by
  simp [rebuildStart, apply_ite State.lcTrans, seqAll_lcTrans]

@[simp] theorem rebuildParts_lcTrans (q : RdReq) (parts : List Nat) : (rebuildParts q parts s).2.lcTrans = s.lcTrans :=
  foldl_keeps (Q := fun p : RdReq × State => p.2.lcTrans = s.lcTrans) (fun _ _ hp => (rebuildStart_lcTrans _ _ _).trans hp) rfl

@[simp] theorem issueRead_lcTrans (q : RdReq) : (issueRead q s).lcTrans = s.lcTrans := by
  unfold issueRead
  split <;> simp [apply_ite State.lcTrans, seqAll_lcTrans]

@[simp] theorem unmarkAhead_lcTrans (pfa leaf : Nat) : (unmarkAhead pfa leaf s).lcTrans = s.lcTrans := (rfl)

@[simp] theorem aheadIssue_lcTrans (ld folio leaf : Nat) : (aheadIssue ld folio leaf s).lcTrans = s.lcTrans := by
  simp [aheadIssue, apply_ite State.lcTrans]

@[simp] theorem readAhead_lcTrans (c ld folio leaf : Nat) : (readAhead c ld folio leaf s).lcTrans = s.lcTrans := by
  simp [readAhead, apply_ite State.lcTrans, seqAll_lcTrans]

@[simp] theorem mediaRead_lcTrans (r : HReq) (pfa kid : Nat) (hdr : Bool) (ovMask : Nat) (ovData : Line) (misses : Nat) :
    (mediaRead r pfa kid hdr ovMask ovData misses s).lcTrans = s.lcTrans := by
  simp [mediaRead, apply_ite State.lcTrans]

theorem kidRead_lcTrans {r : HReq} {fo : Nat} {s t : State} (h : kidRead r fo s = some t) : t.lcTrans = s.lcTrans := by
  unfold kidRead at h
  dsimp only at h
  split at h
  · cases h
  · split at h
    · cases h
      simp
    · split at h
      · cases h
        simp
      · cases h

@[simp] theorem readFound_lcTrans (r : HReq) (fo fr : Nat) (misses : Nat) : (readFound r fo fr misses s).lcTrans = s.lcTrans := by
  unfold readFound
  split
  · simp
  · split
    next t h => rw [answerPoison_lcTrans, kidRead_lcTrans h]
    next =>
      split
      · simp
      · dsimp only
        split
        · split
          · simp
          · split
            · simp
            · split
              case h_4 => split <;> simp
              all_goals simp
        · split <;> simp

@[simp] theorem raCancel_lcTrans (ld dpa : Nat) : (raCancel ld dpa s).lcTrans = s.lcTrans := by simp [raCancel, apply_ite State.lcTrans]
@[simp] theorem dropWrite_lcTrans (r : HReq) : (dropWrite r s).lcTrans = s.lcTrans := by simp [dropWrite]
@[simp] theorem writeTake_lcTrans (r : HReq) : (writeTake r s).lcTrans = s.lcTrans := by simp [writeTake, when_lcTrans]
theorem writeRefused_lcTrans {r : HReq} {s t : State} (h : writeRefused r s = some t) : t.lcTrans = s.lcTrans := by
  unfold writeRefused at h
  dsimp only at h
  repeat' split at h
  all_goals cases h <;> simp

@[simp] theorem writeTry_lcTrans (r : HReq) : (writeTry r s).lcTrans = s.lcTrans := by
  unfold writeTry
  split
  next t h => rw [dropWrite_lcTrans, writeRefused_lcTrans h]
  next =>
    split
    · simp
    · dsimp only
      split <;> simp

@[simp] theorem foundGo_lcTrans (f : Found) : (foundGo f s).lcTrans = s.lcTrans := by
  unfold foundGo
  split <;> simp [apply_ite State.lcTrans]

@[simp] theorem foundAll_lcTrans (r : List Found × State) : (foundAll r).lcTrans = r.2.lcTrans := by simp [foundAll, seqAll_lcTrans]
@[simp] theorem hostGo_lcTrans (r : HReq) : (hostGo r s).lcTrans = s.lcTrans := by simp [hostGo, apply_ite State.lcTrans]
@[simp] theorem settle_lcTrans : (settle s).lcTrans = s.lcTrans := by simp [settle, seqAll_lcTrans]

/-! #### Rails and power domains -/

@[simp] theorem modRail_lcTrans (n : Nat) (f : Rail → Rail) : (modRail n f s).lcTrans = s.lcTrans := (rfl)
@[simp] theorem modSeq_lcTrans (q : Nat) (f : SeqSt → SeqSt) : (modSeq q f s).lcTrans = s.lcTrans := (rfl)
@[simp] theorem railEnable_lcTrans (n : Nat) : (railEnable n s).lcTrans = s.lcTrans := (rfl)
@[simp] theorem railDisable_lcTrans (n : Nat) : (railDisable n s).lcTrans = s.lcTrans := by simp [railDisable, apply_ite State.lcTrans]
@[simp] theorem railOff_lcTrans (n : Nat) : (railOff n s).lcTrans = s.lcTrans := by simp [railOff, when_lcTrans]
@[simp] theorem pltReset_lcTrans (p : Nat) (assert : Bool) : (pltReset p assert s).lcTrans = s.lcTrans := (rfl)

@[simp] theorem chanStart_lcTrans (p : Nat) : (chanStart p s).lcTrans = s.lcTrans := by
  simp [chanStart, apply_ite State.lcTrans, seqAll_lcTrans]

@[simp] theorem seqEnd_lcTrans (q : Nat) : (seqEnd q s).lcTrans = s.lcTrans := by
  unfold seqEnd
  dsimp only
  repeat' split
  all_goals simp

theorem seqStep_lcTrans {q : Nat} {s t : State} (h : seqStep q s = some t) : t.lcTrans = s.lcTrans := by
  unfold seqStep at h
  split at h
  · cases h
  · dsimp only at h
    split at h
    case h_3 | h_4 =>
      split at h
      · cases h
        simp
      · cases h
    all_goals cases h <;> simp

@[simp] theorem seqRunN_lcTrans (n q : Nat) : (seqRunN n q s).lcTrans = s.lcTrans := by
  induction n generalizing s with
  | zero => rfl
  | succ n ih =>
    unfold seqRunN
    split
    next t ht => rw [ih, seqStep_lcTrans ht]
    next =>
      dsimp only
      split
      · rfl
      · rw [ih, seqEnd_lcTrans]

@[simp] theorem seqRun_lcTrans (q : Nat) : (seqRun q s).lcTrans = s.lcTrans := by simp [seqRun]

@[simp] theorem seqOn_lcTrans (q : Nat) : (seqOn q s).lcTrans = s.lcTrans := by
  unfold seqOn
  split <;> simp [apply_ite State.lcTrans]

@[simp] theorem setPd_lcTrans (d : Nat) (x : PdState) : (setPd d x s).lcTrans = s.lcTrans := (rfl)
@[simp] theorem pdRefuse_lcTrans (d : Nat) : (pdRefuse d s).lcTrans = s.lcTrans := by simp [pdRefuse]

@[simp] theorem pdRamp_lcTrans (d : Nat) : (pdRamp d s).lcTrans = s.lcTrans := by
  unfold pdRamp
  split
  · split
    · simp
    · split <;> simp
    · rfl
  · rfl

@[simp] theorem pdSettle_lcTrans : (pdSettle s).lcTrans = s.lcTrans := by simp [pdSettle, apply_ite State.lcTrans, seqAll_lcTrans]

/-! #### Rings, links and modes -/

@[simp] theorem huEnable_lcTrans (level : Bool) : (huEnable level s).lcTrans = s.lcTrans := (rfl)
@[simp] theorem setQ_lcTrans (q st : Nat) : (setQ q st s).lcTrans = s.lcTrans := (rfl)
@[simp] theorem ringStatus_lcTrans : (ringStatus s).lcTrans = s.lcTrans := (rfl)
@[simp] theorem dropCmds_lcTrans (p : Nat → Bool) : (dropCmds p s).lcTrans = s.lcTrans := by simp [dropCmds, seqAll_lcTrans]
@[simp] theorem modCmd_lcTrans (id : Nat) (f : RCmd → RCmd) : (modCmd id f s).lcTrans = s.lcTrans := (rfl)
@[simp] theorem cmdEnd_lcTrans (c : RCmd) (st res : Nat) : (cmdEnd c st res s).lcTrans = s.lcTrans := (rfl)

@[simp] theorem sealStop_lcTrans (c : RCmd) (st : Nat) : (sealStop c st s).lcTrans = s.lcTrans := by
  simp [sealStop, apply_ite State.lcTrans]

@[simp] theorem ringsStop_lcTrans : (ringsStop s).lcTrans = s.lcTrans := by simp [ringsStop, apply_ite State.lcTrans, seqAll_lcTrans]
@[simp] theorem slotsClear_lcTrans (p : Nat → Bool) : (slotsClear p s).lcTrans = s.lcTrans := (rfl)
@[simp] theorem slotsReset_lcTrans : (slotsReset s).lcTrans = s.lcTrans := by simp [slotsReset]
@[simp] theorem ringsDrop_lcTrans (own : Nat → Bool) : (ringsDrop own s).lcTrans = s.lcTrans := by simp [ringsDrop, seqAll_lcTrans]
@[simp] theorem dropReqs_lcTrans (p : HReq → Bool) : (dropReqs p s).lcTrans = s.lcTrans := (rfl)

@[simp] theorem mboxAbort_lcTrans (p : Nat → Bool) : (mboxAbort p s).lcTrans = s.lcTrans := by
  simp [mboxAbort, apply_ite State.lcTrans, seqAll_lcTrans, when_lcTrans]

@[simp] theorem linkShow_lcTrans (port speed width : Nat) (mem : Bool) : (linkShow port speed width mem s).lcTrans = s.lcTrans := by
  simp [linkShow, apply_ite State.lcTrans]

@[simp] theorem linkDown_lcTrans (port : Nat) : (linkDown port s).lcTrans = s.lcTrans := by
  simp [linkDown, apply_ite State.lcTrans, seqAll_lcTrans, when_lcTrans]

@[simp] theorem wakeAll_lcTrans : (wakeAll s).lcTrans = s.lcTrans := by simp [wakeAll, seqAll_lcTrans]
@[simp] theorem setStage_lcTrans (v : Nat) : (setStage v s).lcTrans = s.lcTrans := (rfl)

@[simp] theorem pendShow_lcTrans : (pendShow s).lcTrans = s.lcTrans := by
  unfold pendShow
  split <;> simp [apply_ite State.lcTrans]

@[simp] theorem pendSet_lcTrans (t src : Nat) : (pendSet t src s).lcTrans = s.lcTrans := by simp [pendSet]
@[simp] theorem pendClear_lcTrans : (pendClear s).lcTrans = s.lcTrans := (rfl)

@[simp] theorem ingressClose_lcTrans : (ingressClose s).lcTrans = s.lcTrans := by
  simp [ingressClose, apply_ite State.lcTrans, seqAll_lcTrans]

@[simp] theorem parkStart_lcTrans : (parkStart s).lcTrans = s.lcTrans := by simp [parkStart]

@[simp] theorem standbyReload_lcTrans : (standbyReload s).lcTrans = s.lcTrans := by
  unfold standbyReload
  dsimp only
  repeat' split
  all_goals simp

@[simp] theorem unparkStart_lcTrans : (unparkStart s).lcTrans = s.lcTrans := by simp [unparkStart, seqAll_lcTrans]

@[simp] theorem modeStart_lcTrans (t src : Nat) : (modeStart t src s).lcTrans = s.lcTrans := by
  simp [modeStart, apply_ite State.lcTrans, when_lcTrans]

@[simp] theorem modeRecord_lcTrans (old new : Mode) : (modeRecord old new s).lcTrans = s.lcTrans := by simp [modeRecord]

@[simp] theorem modeTarget_lcTrans (t src : Nat) : (modeTarget t src s).lcTrans = s.lcTrans := by
  unfold modeTarget
  split <;> simp [apply_ite State.lcTrans]

@[simp] theorem warmStart_lcTrans : (warmStart s).lcTrans = s.lcTrans := by simp [warmStart, seqAll_lcTrans]

end

end Sys2Proof.Machine
end

section
/-! PROOFS. The ends of transitions, and STANDBY after PME_TO_Ack (01_the_shelf_controller.md "Device modes"). -/

namespace Sys2Proof.Machine

/-! ### STANDBY (R12, R15) -/

/-- STANDBY as it is shown, before a PERST# that is asserted already powers the device up again. -/
def standbyShown (source src : Nat) (s : State) : State :=
  (((loseCore s).modGlb (fun g => { g with mode := .standby, perstHeld := false, perstPme := false })).modStart
    (fun x => { x with source := source })) |> setF F.GLB_MODE_STATUS_CURRENT 3 |> setF F.GLB_MODE_STATUS_LAST_SRC src

theorem standbyEnter_eq (source : Nat) (s : State) : ∃ src w, w.runView = s.runView ∧ standbyEnter source s =
    if (standbyShown source src w).glb.perst ∨ (standbyShown source src w).start.relPend then seqOn devSeq (standbyShown source src w)
    else standbyShown source src w := by
  refine ⟨_, seqOff devSeq ((domainsOff (todRecord (tailCopy (modeRecord .parked .standby
    (setF F.GLB_MODE_STATUS_LAST_SRC _ (setHostDirty false s)))))).modDome (fun d => { d with huEn := false })), ?_, rfl⟩
  simp [domainsOff, todRecord, modeRecord]

theorem standbyEnter_of_no_perst (source : Nat) {s : State} (hperst : s.glb.perst = false) (hrel : s.start.relPend = false) :
    ∃ src w, standbyEnter source s = standbyShown source src w := by
  obtain ⟨src, w, hw, heq⟩ := standbyEnter_eq source s
  have hp : (standbyShown source src w).glb.perst = false := (perst_of_runView hw).trans hperst
  have hr : (standbyShown source src w).start.relPend = false := (congrArg Start.relPend (start_of_runView hw)).trans hrel
  exact ⟨src, w, heq.trans (if_neg (by simp [hp, hr]))⟩

theorem standbyEnter_mode (source : Nat) (s : State) : (standbyEnter source s).glb.mode = .standby := by
  obtain ⟨src, w, -, heq⟩ := standbyEnter_eq source s
  rw [heq]
  split
  · exact mode_of_runView (seqOn_runView _ _)
  · rfl

theorem standbyShown_current (source src : Nat) (s : State) : (standbyShown source src s).get F.GLB_MODE_STATUS_CURRENT = 3 := by
  rw [standbyShown, State.get_setF_ne _ _ (by decide)]
  exact State.get_setF_lt _ (by decide)

/-- PME_TO_Ack in PARKED with STANDBY pending enters STANDBY. -/
theorem pmeAck_enters_standby (source : Nat) {s : State} (hmode : s.glb.mode = .parked) (htrans : s.glb.transTo = none)
    (hheld : ∃ src, s.glb.heldTarget = some (3, src)) : pmeAck source s = standbyEnter source s := by
  obtain ⟨src, hsrc⟩ := hheld
  exact if_pos (by simp [State.awaitsPme, hmode, htrans, hsrc, tStandby])

/-- The PME_TO_Ack row: STANDBY, with the queue and the time as they were. -/
theorem pmeToAck_result {s : State} (hmode : s.glb.mode = .parked) (htrans : s.glb.transTo = none)
    (hheld : ∃ src, s.glb.heldTarget = some (3, src)) (hperst : s.glb.perst = false) (hrel : s.start.relPend = false) :
    ∃ u, exec .pmeToAck s = .next (domeAfter u) ∧ u.glb.mode = .standby ∧ u.get F.GLB_MODE_STATUS_CURRENT = 3 ∧
      u.start.source = srcPerst ∧ u.pending = s.pending ∧ u.now = s.now := by
  have hstand : (standbyEnter srcPerst s).standsAt s.pending s.now := standbyEnter_kept (closed_standsAt _ _) srcPerst ⟨rfl, rfl⟩
  obtain ⟨hpending, hnow⟩ := hstand
  obtain ⟨src, w, heq⟩ := standbyEnter_of_no_perst srcPerst hperst hrel
  have hrow : exec .pmeToAck s = .next (domeAfter (standbyEnter srcPerst s)) :=
    next_congr (congrArg domeAfter (pmeAck_enters_standby srcPerst hmode htrans hheld))
  refine ⟨_, hrow, standbyEnter_mode _ _, ?_, ?_, hpending, hnow⟩ <;> rw [heq]
  · exact standbyShown_current _ _ _
  · rfl

/-! ### The end of a transition and the life cycle (R12, R13, R397)

A life-cycle transition ends with the entry into PARKED. The end of another transition therefore has to keep the life cycle out, or
to leave a mode other than PARKED. -/

/-- No life-cycle transition is to end here. -/
def State.lcQuiet (s : State) : Prop := s.lcTrans = none ∨ s.glb.mode ≠ .parked

theorem lcQuiet_standbyEnter (source : Nat) (s : State) : (standbyEnter source s).lcQuiet :=
  .inr (by simp [standbyEnter_mode])

theorem lcQuiet_pendGo {s : State} (h : s.lcTrans = none) : (pendGo s).lcQuiet := by
  unfold pendGo
  split
  · exact .inl h
  · split
    · exact .inl h
    · split
      · split
        · exact lcQuiet_standbyEnter _ _
        · split
          · exact lcQuiet_standbyEnter _ _
          · exact .inl h
      · exact .inl (by simp [h])

theorem lcQuiet_perstEffect {s : State} (h : s.lcTrans = none) : (perstEffect s).lcQuiet := by
  unfold perstEffect
  split
  · exact lcQuiet_standbyEnter _ _
  · split
    · exact lcQuiet_pendGo (by simp [h])
    · exact .inl (by simp [h])

@[simp] theorem pdSettle_runView (s : State) : (pdSettle s).runView = s.runView := by
  have hramp (d : Nat) (t : State) : (pdRamp d t).runView = t.runView := by
    unfold pdRamp
    split
    · split
      · rfl
      · split <;> rfl
      · rfl
    · rfl
  have hrefuse (d : Nat) (t : State) : (pdRefuse d t).runView = t.runView := by simp [pdRefuse]
  have hset (d : Nat) (x : PdState) (t : State) : (setPd d x t).runView = t.runView := rfl
  simp [pdSettle, seqAll_runView, apply_ite State.runView, hramp, hrefuse, hset]

theorem lcQuiet_perstStart (straps us : Nat) (fail : Bool) (s : State) : (perstStart straps us fail s).lcQuiet := by
  obtain ⟨u, heq, hmode, -⟩ := perstStart_result straps us fail s
  have hstart : (pdSettle u).glb.mode = .starting := (mode_of_runView (pdSettle_runView u)).trans hmode
  exact .inr (by simp [heq, hstart])

theorem lcQuiet_perstGo {s : State} (h : s.lcQuiet) : (perstGo s).lcQuiet := by
  unfold perstGo
  dsimp only
  split
  case h_5 => split <;> exact h
  all_goals
    split
    · exact lcQuiet_perstStart _ _ _ _
    · exact h

/-! ### The end of a transition (R12, R13) -/

/-- A mode as it is shown with the end of its transition, the records and MODE_DONE with it. -/
def modeShown (dest : Mode) (s : State) : State :=
  pdSettle (modeRecord s.glb.mode dest (when (decide (s.glb.mode = .quiet)) wakeAll
    (s.modGlb (fun g => { g with mode := dest, transTo := none, ingressClosed := false })
      |> setF F.GLB_MODE_STATUS_IN_TRANSITION 0 |> setF F.GLB_MODE_STATUS_CURRENT dest.code)))

theorem modeShown_lcTrans (dest : Mode) (s : State) : (modeShown dest s).lcTrans = s.lcTrans := by
  simp [modeShown, when_lcTrans]

/-- Between modes other than PARKED the end of a transition shows the mode; a held PERST# or the pending target follows. -/
theorem modeFinish_eq {dest : Mode} {s : State} (hdest : dest ≠ .parked) (hmode : s.glb.mode ≠ .parked) :
    modeFinish dest s = (if (modeShown dest s).glb.perstHeld
      then perstGo (perstEffect ((modeShown dest s).modGlb (fun g => { g with perstHeld := false }))) else pendGo (modeShown dest s)) := by
  unfold modeFinish
  dsimp only
  rw [decide_eq_false hdest, decide_eq_false hmode, show ∀ t, when false trainRecords t = t from fun _ => rfl, modeShown]

theorem lcQuiet_modeFinish {dest : Mode} {s : State} (hdest : dest ≠ .parked) (hmode : s.glb.mode ≠ .parked) (h : s.lcTrans = none) :
    (modeFinish dest s).lcQuiet := by
  have hshown : (modeShown dest s).lcTrans = none := (modeShown_lcTrans dest s).trans h
  rw [modeFinish_eq hdest hmode]
  split
  · exact lcQuiet_perstGo (lcQuiet_perstEffect (by simp [hshown]))
  · exact lcQuiet_pendGo hshown

/-- Only PARKED waits for more than the ramps, as destination or as the mode that is left. -/
theorem modeReady_of_noRamp {dest : Mode} {s : State} (hdest : dest ≠ .parked) (hmode : s.glb.mode ≠ .parked) (hramp : s.noRamp = true) :
    s.modeReady dest = true := by
  cases dest <;> simp_all [State.modeReady]

theorem modeDone_running {dest : Mode} {s : State} (htrans : s.glb.transTo = some dest) (hdest : dest ≠ .parked)
    (hmode : s.glb.mode ≠ .parked) (hramp : s.noRamp = true) : modeDone s = modeFinish dest s := by
  simp only [modeDone, htrans, modeReady_of_noRamp hdest hmode hramp, if_true, if_neg hdest]

theorem modeTransitionDone_eq {s : State} (h : (modeDone s).lcQuiet) : modeTransitionDone s = domeAfter (modeDone s) := by
  have hnot : ((modeDone s).lcs.trans.isSome && decide ((modeDone s).glb.mode = .parked) && (modeDone s).glb.transTo.isNone &&
      (modeDone s).ciph.ops == []) = false := by
    rcases h with hlife | hmode
    · have hlcs : (modeDone s).lcs.trans = none := hlife
      simp [hlcs]
    · simp [hmode]
  exact congrArg domeAfter (if_neg (by simp only [hnot, Bool.false_eq_true, not_false_eq_true]))

/-- Settles O6: a transition between ACTIVE and QUIET finds no life-cycle transition to end, so its row is the end of the transition alone;
PME_TO_Ack goes through `standbyEnter`. -/
theorem transitionsCompleteAndStandbyIsEntered : Obligations.TransitionsCompleteAndStandbyIsEntered := by
  refine ⟨fun s dest htrans hdest hmode hramp hlife => ⟨?_, modeShown dest s, modeFinish_eq hdest hmode, rfl⟩,
    fun s hmode htrans hheld hperst hrel => pmeToAck_result hmode htrans hheld hperst hrel⟩
  have hdone := modeDone_running htrans hdest hmode hramp
  have hquiet : (modeDone s).lcQuiet := by
    rw [hdone]
    exact lcQuiet_modeFinish hdest hmode hlife
  exact next_congr ((modeTransitionDone_eq hquiet).trans (congrArg domeAfter hdone))

end Sys2Proof.Machine
end
